-- ==== Sys2Proof/Word.lean ====
section
/-! DEFINITION. The plain words of the model: bytes, byte strings, instants, keys, addresses and sparse tables. -/

namespace Sys2Proof

/-- One byte of a packet, a descriptor or a memory. -/
abbrev Byte := BitVec 8

/-- A byte string, lowest offset first. -/
abbrev Bytes := List (BitVec 8)

/-- A 32-bit control and status register value (00_scope R8). -/
abbrev Word := BitVec 32

/-- An instant or a duration, in ticks of 1/24 ns, counted from the power-on instant (16 R551). Every clock of
01 R32 has a whole number of ticks in its period: arithmetic 8, mesh 12, switch core 15, screen 16, always-on 480. -/
abbrev Time := Nat

/-- A 256-bit secret held in the Tretu vault (13 R424). -/
abbrev Key := BitVec 256

/-- A sparse table: number and content, numbers rising. -/
abbrev Tab (α : Type) := List (Nat × α)

/-- Byte memory: (address, byte), addresses rising, no byte equal to what an unlisted address reads as. -/
abbrev Mem := List (Nat × BitVec 8)

/-- An IP address: family (4 or 6, 0 for none) and value. -/
structure Ip where
  af : Nat
  val : Nat
deriving DecidableEq, Repr, Inhabited

/-- An IEEE 802.1Q tag. -/
structure Vlan where
  vid : Nat
  pcp : Nat
  dei : Nat
deriving DecidableEq, Repr, Inhabited

/-- The addresses of a received packet that an answer to it mirrors (02 R39, 06 R195, 14 R459). -/
structure Net where
  srcIp : Ip
  dstIp : Ip
  srcMac : Nat
  dstMac : Nat
  vlan : Option Vlan
  srcQp : Nat
  dstQp : Nat
deriving DecidableEq, Repr, Inhabited

/-- The addresses of an answer: IP addresses, MACs and queue pairs exchanged, the VLAN tag kept (02 R39, 06 R195). -/
def Net.mirror (n : Net) : Net where
  srcIp := n.dstIp
  dstIp := n.srcIp
  srcMac := n.dstMac
  dstMac := n.srcMac
  vlan := n.vlan
  srcQp := n.dstQp
  dstQp := n.srcQp

/-- Which session of 02 R45 a Krytic packet was authenticated under. -/
inductive Sess where
  | lease              -- the key of the current lease
  | preceding          -- the one earlier lease key the device retains (R46)
  | levee (l : Nat)    -- a tenant levee's session key
deriving DecidableEq, Repr, Inhabited

/-- Who inside the device originates a frame (04 R117). -/
inductive Originator where
  | basin (b : Nat)
  | engine (die : Nat)
  | headworks
deriving DecidableEq, Repr, Inhabited

end Sys2Proof
end

