-- ==== Sys2Proof/Syntax.lean ====
section
/-! DEFINITION. The operands of the steps and `Instr`: one constructor per row of spec/opcode_table.json. Every step
carries the instant `t` at which it happens; a step that is a message carries the message, a step the device takes of
itself carries the object it is about. -/

namespace Sys2Proof

/-- A Krytic command as the headworks holds it once its tag has passed (02 R45): header fields of Table KCP-1, the
addresses the reply mirrors, and the parameters of each fragment in index order (one string when not fragmented). `auth` is the authentication tag of the packet; only
LEASE_ACQUIRE and LEVEE_KEY_EXCHANGE check it while they run (R55, 13 R430), over `hdr`, the 32 header bytes as received. -/
structure KReq where
  port : Nat
  net : Net
  cls : Nat
  sess : Sess
  version : Nat
  urgent : Bool
  more : Bool
  opcode : Nat
  levee : Nat
  term : Nat
  seq : Nat
  tag : Nat
  frags : List Bytes
  seqs : List Nat
  hdr : Bytes
  auth : Bytes
deriving DecidableEq, Repr, Inhabited

/-- IP header fields the pipelines read (04 R119, R138, 12 R395). -/
structure IpHdr where
  src : Ip
  dst : Ip
  proto : Nat
  dscp : Nat
  ttl : Nat
  flow : Nat
  sport : Nat
  dport : Nat
  tcpFlags : Nat
deriving DecidableEq, Repr, Inhabited

/-- RoCEv2 transport fields: base transport header opcode, destination and source queue pair, Q_Key, PSN, AckReq, and
whether the ICRC verifies (06 R192). -/
structure Bth where
  op : Nat
  dqp : Nat
  sqp : Nat
  qkey : Nat
  psn : Nat
  ackReq : Bool := false
  icrcOk : Bool := true
deriving DecidableEq, Repr, Inhabited

/-- A MACsec SecTAG as parsed, and whether the ICV verifies under the SA it names (03 R101). -/
structure SecTag where
  sci : Nat
  an : Nat
  pn : Nat
  icvOk : Bool
deriving DecidableEq, Repr, Inhabited

/-- A frame on a port, parsed; `len` counts destination address through FCS (03 R87). `payload` is what follows the
last header given. -/
structure Frame where
  port : Nat
  len : Nat
  dmac : Nat
  smac : Nat
  vlan : Option Vlan
  etype : Nat
  ip : Option IpHdr
  bth : Option Bth
  sec : Option SecTag
  fcsOk : Bool
  payload : Bytes
deriving DecidableEq, Repr, Inhabited

/-- The addresses of a frame, for an answer. -/
def Frame.net (f : Frame) : Net where
  srcIp := (f.ip.map IpHdr.src).getD default
  dstIp := (f.ip.map IpHdr.dst).getD default
  srcMac := f.smac
  dstMac := f.dmac
  vlan := f.vlan
  srcQp := (f.bth.map Bth.sqp).getD 0
  dstQp := (f.bth.map Bth.dqp).getD 0

/-- A frame from an internal originator: the originator supplies egress port (or tree), class and levee (04 R117). -/
structure IntFrame where
  orig : Originator
  port : Nat
  tree : Option Nat
  cls : Nat
  levee : Nat
  chain : Option (Nat × Nat)
  frame : Frame
deriving DecidableEq, Repr, Inhabited

/-- A vendor packet as a memory transport engine takes it (06 R179, R192, 08 R251): where it came in, its addresses, its
class, the levee of the STEER entry it matched, the version of LEVEE_XLATE it is stamped with, and what follows the base
(for a coherence message, the datagram) transport header up to the ICRC. -/
structure Packet where
  port : Nat
  die : Nat
  net : Net
  cls : Nat
  levee : Nat
  ver : Nat
  body : Bytes
deriving DecidableEq, Repr, Inhabited

/-- A vendor pool request as an engine works on it: requester, fields of Table MEM-4, payload (06 R193). -/
structure PoolReq where
  port : Nat
  die : Nat
  net : Net
  cls : Nat
  levee : Nat
  ver : Nat
  queue : Nat
  seq : Nat
  pva : Nat
  length : Nat
  op : Nat
  flags : Nat
  retQp : Nat
  handle : Nat
  data : Bytes
deriving DecidableEq, Repr, Inhabited

/-- A standard RDMA request on a responder context (06 R208). -/
structure RdmaReq where
  port : Nat
  die : Nat
  net : Net
  cls : Nat
  levee : Nat
  ver : Nat
  qpn : Nat
  psn : Nat
  va : Nat
  rkey : Nat
  length : Nat
  op : Nat
  data : Bytes
deriving DecidableEq, Repr, Inhabited

/-- A device-to-device phase message: the SWITCH_ID of its sender and the fields of Table MEM-13. -/
structure PhaseMsg where
  src : Nat
  home : Nat
  phase : Nat
  epoch : Nat
  levee : Nat
  queue : Nat
  seq : Nat
  holds : Nat
  status : Nat
  arg : Bytes
  data : Bytes
deriving DecidableEq, Repr, Inhabited

/-- A coherence message: where it came from, the levee of its STEER entry, and the fields of Table COH-3. -/
structure CohMsg where
  die : Nat
  levee : Nat
  srcIp : Ip
  srcQp : Nat
  port : Nat
  cls : Nat
  ver : Nat
  flags : Nat
  domain : Nat
  status : Nat
  agent : Nat
  agen : Nat
  txn : Nat
  snoopId : Nat
  op : Nat
  offset : Nat
  pva : Nat
  value : Nat
  data : Bytes
deriving DecidableEq, Repr, Inhabited

/-- A post delivered to a flume queue (10 R317, Table FLM-3): the frame's addresses and the SEND payload. -/
structure Post where
  queue : Nat
  levee : Nat
  port : Nat
  net : Net
  cls : Nat
  ver : Nat
  payload : Bytes
deriving DecidableEq, Repr, Inhabited

/-- A collective message with the headers of Tables COL-2 to COL-5. -/
structure ColMsg where
  queue : Nat
  levee : Nat
  srcIp : Ip
  srcQp : Nat
  len : Nat                      -- bytes of the whole message
  group : Nat
  kind : Nat
  mtype : Nat
  opseq : Nat
  mem : Nat
  status : Nat
  flags : Nat
  bodyLen : Nat
  hdr : Bytes
  body : Bytes
deriving DecidableEq, Repr, Inhabited

/-- A ledger event before it is buffered (17 R517): type, SOURCE, body bytes 32–111. -/
structure LedgerEv where
  type : Nat
  source : Nat
  body : Bytes
deriving DecidableEq, Repr, Inhabited

/-- The input voltage and junction readings the power manager samples (15 R478, R486). -/
structure Sample where
  mv : Nat
  watts : Nat
  tmax : Nat
deriving DecidableEq, Repr, Inhabited

/-- What the power-on sequence finds (16 R494, R495, 13 R422): facts about the part, not choices of the device. -/
structure PowerOnFacts where
  mv : Nat
  pufOk : Bool
  pufCorr : Nat
  dirOk : Bool
  countersOk : Bool
  slotAOk : Bool
  slotBOk : Bool
  settings0Ok : Bool
  settings1Ok : Bool
  ret01 : BitVec 16
  ret10 : BitVec 16
  failedBasins : List Nat
  failedHalves : List Nat
  failedChannels : List Nat
  failedLanes : List Nat
  badWays : Nat
deriving DecidableEq, Repr, Inhabited

/-- An event or operation of the part: one constructor per row of spec/opcode_table.json, in the table's order. -/
inductive Instr where
  -- Krytic commands (02 Table KCP-9)
  | deviceInfo (t : Time) (r : KReq)
  | readCsr (t : Time) (r : KReq)
  | writeCsr (t : Time) (r : KReq)
  | writeCsrMasked (t : Time) (r : KReq)
  | echo (t : Time) (r : KReq)
  | leaseAcquire (t : Time) (r : KReq)
  | leaseRenew (t : Time) (r : KReq)
  | leaseRelease (t : Time) (r : KReq)
  | leveeAdmit (t : Time) (r : KReq)
  | leveeRetire (t : Time) (r : KReq)
  | leveeKeySet (t : Time) (r : KReq)
  | fenceSet (t : Time) (r : KReq)
  | fenceClear (t : Time) (r : KReq)
  | lockLoad (t : Time) (r : KReq)
  | lockAdmit (t : Time) (r : KReq)
  | portConfig (t : Time) (r : KReq)
  | portState (t : Time) (r : KReq)
  | portGauges (t : Time) (r : KReq)
  | macsecSaSet (t : Time) (r : KReq)
  | pfcSet (t : Time) (r : KReq)
  | tableWrite (t : Time) (r : KReq)
  | tableFlip (t : Time) (r : KReq)
  | tableStatus (t : Time) (r : KReq)
  | mcastTreeSet (t : Time) (r : KReq)
  | mirrorSet (t : Time) (r : KReq)
  | meterSet (t : Time) (r : KReq)
  | shaperSet (t : Time) (r : KReq)
  | schedSet (t : Time) (r : KReq)
  | bufferSet (t : Time) (r : KReq)
  | precolourSet (t : Time) (r : KReq)
  | allotCreate (t : Time) (r : KReq)
  | allotRevoke (t : Time) (r : KReq)
  | allotQuery (t : Time) (r : KReq)
  | waterRightSet (t : Time) (r : KReq)
  | trayAttach (t : Time) (r : KReq)
  | trayDetach (t : Time) (r : KReq)
  | tierHint (t : Time) (r : KReq)
  | regionCreate (t : Time) (r : KReq)
  | regionOpen (t : Time) (r : KReq)
  | regionClose (t : Time) (r : KReq)
  | regionPublish (t : Time) (r : KReq)
  | regionQuery (t : Time) (r : KReq)
  | domainCreate (t : Time) (r : KReq)
  | agentAdd (t : Time) (r : KReq)
  | agentDead (t : Time) (r : KReq)
  | domainModeSet (t : Time) (r : KReq)
  | domainQuery (t : Time) (r : KReq)
  | flumeQueueCreate (t : Time) (r : KReq)
  | flumeQueueDestroy (t : Time) (r : KReq)
  | turnAlloc (t : Time) (r : KReq)
  | turnSet (t : Time) (r : KReq)
  | xcheckSet (t : Time) (r : KReq)
  | basinState (t : Time) (r : KReq)
  | groupCreate (t : Time) (r : KReq)
  | groupDestroy (t : Time) (r : KReq)
  | decodeTableLoad (t : Time) (r : KReq)
  | expertMapSet (t : Time) (r : KReq)
  | residualReset (t : Time) (r : KReq)
  | screenWrite (t : Time) (r : KReq)
  | screenDelete (t : Time) (r : KReq)
  | screenSearch (t : Time) (r : KReq)
  | screenQuotaSet (t : Time) (r : KReq)
  | attestReport (t : Time) (r : KReq)
  | leveeKeyExchange (t : Time) (r : KReq)
  | fwStage (t : Time) (r : KReq)
  | fwActivate (t : Time) (r : KReq)
  | selftest (t : Time) (r : KReq)
  | calibrate (t : Time) (r : KReq)
  | gaugesRead (t : Time) (r : KReq)
  | ledgerRead (t : Time) (r : KReq)
  | marginRead (t : Time) (r : KReq)
  | recArm (t : Time) (r : KReq)
  | recRead (t : Time) (r : KReq)
  | recReplay (t : Time) (r : KReq)
  -- headworks events (02, 13)
  | fragmentReassemblyExpiry (t : Time) (sess : Sess) (tag : Nat)
  | commandWaitExpiry (t : Time)
  | commandBegin (t : Time)
  | leaseExpiry (t : Time)
  | mcReset (t : Time) (cause : Nat)
  | heartbeat (t : Time)
  | watchdogExpiry (t : Time)
  | lockstepMismatch (t : Time)
  | controllerReady (t : Time)
  -- switch core, ports and traffic (03, 04, 05)
  | frameReceive (t : Time) (f : Frame)
  | internalFrameEnqueue (t : Time) (f : IntFrame)
  | sprayCellReceive (t : Time) (f : Frame)
  | reorderTimeout (t : Time) (src : Nat) (port : Nat) (cls : Nat)
  | reorderContextIdle (t : Time) (src : Nat) (port : Nat) (cls : Nat)
  | divisionBoxCopy (t : Time) (pipe : Nat)
  | schedulerRound (t : Time) (port : Nat)
  | frameTransmitEnd (t : Time) (port : Nat)
  | pfcXon (t : Time) (port : Nat) (cls : Nat)
  | pfcRepeat (t : Time) (port : Nat) (cls : Nat)
  | pfcFrameReceive (t : Time) (port : Nat) (enable : BitVec 8) (times : List Nat)
  | pauseExpiry (t : Time) (port : Nat) (cls : Nat)
  | pfcWatchdogTrip (t : Time) (port : Nat) (cls : Nat)
  | stuckClassRecovery (t : Time) (port : Nat) (cls : Nat)
  | linkNegotiated (t : Time) (port : Nat)
  | trainingComplete (t : Time) (port : Nat)
  | trainTimeout (t : Time) (port : Nat)
  | trainingRetry (t : Time) (port : Nat)
  | linkUp (t : Time) (port : Nat)
  | lossOfSignal (t : Time) (port : Nat)
  | alignLost (t : Time) (port : Nat)
  | remoteFault (t : Time) (port : Nat)
  | fecFail (t : Time) (port : Nat) (count : Nat)
  | fecDegrade (t : Time) (port : Nat) (symbols : Nat)
  | dampingElapsed (t : Time) (port : Nat)
  | dampingReset (t : Time) (port : Nat)
  | portDownDiscard (t : Time) (port : Nat)
  | pinMemberFailover (t : Time) (port : Nat)
  | pinMemberRestore (t : Time) (port : Nat)
  | flipEffect (t : Time) (table : Nat)
  | versionDrained (t : Time) (table : Nat)
  | retireLimitExpiry (t : Time) (table : Nat)
  | versionCopyComplete (t : Time) (table : Nat)
  | culvertFlitReplay (t : Time) (dir : Nat) (bundle : Nat)
  | bundleRetirement (t : Time) (dir : Nat) (bundle : Nat) (cause : Nat)
  | culvertFailure (t : Time) (dir : Nat)
  -- pool memory transport (06) and cistern (07)
  | pRead (t : Time) (p : Packet)
  | pWrite (t : Time) (p : Packet)
  | pAtomic (t : Time) (p : Packet)
  | pCopy (t : Time) (p : Packet)
  | rdmaWrite (t : Time) (r : RdmaReq)
  | rdmaRead (t : Time) (r : RdmaReq)
  | rdmaAtomic (t : Time) (r : RdmaReq)
  | waterRightRelease (t : Time) (die : Nat) (levee : Nat) (host : Ip)
  | queueContextReclaim (t : Time) (die : Nat) (levee : Nat) (host : Ip) (queue : Nat)
  | trayResponse (t : Time) (tray : Nat) (op : Nat) (data : Bytes)
  | trayOperationTimeout (t : Time) (tray : Nat) (op : Nat)
  | revokeDrainEnd (t : Time) (allot : Nat)
  | revokeTimeout (t : Time) (allot : Nat)
  | allotmentReleased (t : Time) (allot : Nat)
  | trayRangeZeroing (t : Time) (allot : Nat)
  | pPhase (t : Time) (src : Nat) (p : Packet)
  | pPhaseAck (t : Time) (src : Nat) (p : Packet)
  | pOwnerQuery (t : Time) (src : Nat) (p : Packet)
  | pOwnerReply (t : Time) (src : Nat) (p : Packet)
  | phaseDeadlineExpiry (t : Time) (die : Nat) (entry : Nat)
  | fillComplete (t : Time) (allot : Nat) (tile : Nat) (data : Bytes)
  | writeBackDeadline (t : Time) (allot : Nat) (tile : Nat)
  | writeBackComplete (t : Time) (allot : Nat) (tile : Nat)
  | coldCompression (t : Time) (allot : Nat) (page : Nat)
  | pageExpansion (t : Time) (allot : Nat) (page : Nat)
  | prefetchComplete (t : Time) (allot : Nat) (page : Nat) (data : Bytes)
  | quotaLowered (t : Time) (die : Nat) (levee : Nat)
  | hbmUncorrectable (t : Time) (allot : Nat) (tile : Nat)
  | trayFailed (t : Time) (tray : Nat)
  | publishCommit (t : Time) (region : Nat)
  -- coherence (08)
  | cRdShared (t : Time) (p : Packet)
  | cRdOwn (t : Time) (p : Packet)
  | cUpgrade (t : Time) (p : Packet)
  | cAtomic (t : Time) (p : Packet)
  | cWriteFull (t : Time) (p : Packet)
  | cEvictClean (t : Time) (p : Packet)
  | cWb (t : Time) (p : Packet)
  | cSnpData (t : Time) (p : Packet)
  | cSnpAck (t : Time) (p : Packet)
  | snoopRetransmit (t : Time) (die : Nat) (snoop : Nat)
  | holdWindowExpiry (t : Time) (die : Nat) (line : Nat)
  | memoryReadComplete (t : Time) (die : Nat) (line : Nat)
  -- flumes (10)
  | flumePost (t : Time) (p : Post)
  | chainTileFetch (t : Time) (chain : Nat)
  | descriptorBegin (t : Time) (basin : Nat)
  | load (t : Time) (basin : Nat)
  | store (t : Time) (basin : Nat)
  | reduce (t : Time) (basin : Nat)
  | axpy (t : Time) (basin : Nat)
  | gemm (t : Time) (basin : Nat)
  | gemv (t : Time) (basin : Nat)
  | topk (t : Time) (basin : Nat)
  | gather (t : Time) (basin : Nat)
  | scatter (t : Time) (basin : Nat)
  | filter (t : Time) (basin : Nat)
  | scan (t : Time) (basin : Nat)
  | quantise (t : Time) (basin : Nat)
  | dequantise (t : Time) (basin : Nat)
  | compress (t : Time) (basin : Nat)
  | expand (t : Time) (basin : Nat)
  | screenQuery (t : Time) (basin : Nat)
  | turnWait (t : Time) (basin : Nat)
  | turnSignal (t : Time) (basin : Nat)
  | skip (t : Time) (basin : Nat)
  | turnWaitSatisfied (t : Time) (chain : Nat)
  | turnWaitTimeout (t : Time) (chain : Nat)
  | writeAcknowledged (t : Time) (chain : Nat)
  | chainCompletion (t : Time) (chain : Nat)
  | posterContextReclaim (t : Time) (queue : Nat) (poster : Ip)
  | slotMove (t : Time) (queue : Nat) (slot : Nat)
  -- basins (09)
  | windowReplay (t : Time) (basin : Nat)
  | xcheckCountdown (t : Time) (basin : Nat)
  | xcheckComplete (t : Time) (basin : Nat) (checking : Nat) (third : Nat)
  | xcheckAbandoned (t : Time) (basin : Nat)
  | basinClockGate (t : Time) (basin : Nat)
  | basinPowerGate (t : Time) (basin : Nat)
  | basinWake (t : Time) (basin : Nat)
  -- collectives (11)
  | allReduce (t : Time) (p : Post)
  | reduceScatter (t : Time) (p : Post)
  | allGather (t : Time) (p : Post)
  | broadcast (t : Time) (p : Post)
  | dispatch (t : Time) (p : Post)
  | combine (t : Time) (p : Post)
  | barrier (t : Time) (p : Post)
  | resend (t : Time) (p : Post)
  | blockComplete (t : Time) (group : Nat) (opseq : Nat) (block : Nat)
  | stallCredit (t : Time) (group : Nat) (opseq : Nat)
  | operationComplete (t : Time) (group : Nat) (opseq : Nat)
  | upstreamDone (t : Time) (p : Post)
  | memberRemoval (t : Time) (group : Nat) (mem : Nat)
  -- screen (12)
  | tenantSearch (t : Time) (bank : Nat)
  | screenCommit (t : Time)
  | desiltPass (t : Time) (bank : Nat) (row : Nat) (diff : BitVec 144) (shadowBad : Bool)
  | bankClockGate (t : Time) (bank : Nat)
  | bankWake (t : Time) (bank : Nat)
  | bankThrottleChange (t : Time) (bank : Nat) (temp : Nat)
  -- faults and lock cycles (14)
  | portFenceDelay (t : Time) (port : Nat)
  | peerSilent (t : Time) (die : Nat) (entry : Nat)
  | memberSilent (t : Time) (group : Nat) (mem : Nat)
  | fenceRetry (t : Time)
  | fencedRequestCompletion (t : Time) (die : Nat)
  | fenceNotice (t : Time)
  | fenceNoticeRepeat (t : Time)
  | halt (t : Time) (cause : Nat)
  | shardReadComplete (t : Time) (shard : Nat) (status : Nat) (data : Bytes)
  | partnerLost (t : Time)
  | admission (t : Time)
  -- power (15)
  | dipStart (t : Time) (p : Sample)
  | dipRecovery (t : Time) (p : Sample)
  | clockRestore (t : Time)
  | dipWindowClose (t : Time)
  | sustainedDip (t : Time)
  | lowInput (t : Time) (p : Sample)
  | supplyReset (t : Time) (p : Sample)
  | resetRelease (t : Time) (p : Sample)
  | droopStretch (t : Time) (die : Nat)
  | droopInterval (t : Time) (die : Nat) (stretched : Nat)
  | throttleRaise (t : Time) (p : Sample)
  | throttleLower (t : Time) (p : Sample)
  | level5 (t : Time) (p : Sample)
  | level5Exit (t : Time) (p : Sample)
  | thermalReset (t : Time) (p : Sample)
  -- start-up (16)
  | powerOn (t : Time) (f : PowerOnFacts)
  | beacon (t : Time) (port : Nat)
  | imageWriteComplete (t : Time)
  | trialEnd (t : Time)
  | trialFailure (t : Time) (cause : Nat)
  | settingsWriteComplete (t : Time)
  -- health (17)
  | ledgerEvent (t : Time) (e : LedgerEv)
  | ledgerFlashWrite (t : Time)
  | marginRecord (t : Time) (body : Bytes) (low : Bool)
  | testComplete (t : Time) (kind : Nat) (id : Nat) (result : Nat) (detail : Bytes)
  | drainWaitExpiry (t : Time) (kind : Nat) (id : Nat)
  | holdOut (t : Time) (basin : Nat) (temp : Nat) (load : Nat)
  | holdOutEnd (t : Time) (basin : Nat) (temp : Nat)
  | capture (t : Time) (basin : Nat) (trigger : Nat)
  | replayComplete (t : Time) (runs : Nat) (mism : Nat) (temp : Nat) (crc : Word)
  -- guarded register writes and the remaining events, in the table's order
  | cisQuotaWrite (t : Time) (r : KReq)
  | responderContextWrite (t : Time) (r : KReq)
  | alignmentAcquired (t : Time) (port : Nat)
  | remoteFaultSignalChange (t : Time) (port : Nat) (on : Bool)
  | clockStretchEnd (t : Time) (die : Nat)
  | slotCopyComplete (t : Time) (queue : Nat) (slot : Nat)
  | upstreamResult (t : Time) (p : Post)
  | upstreamCredit (t : Time) (p : Post)
  | formerKeyExpiry (t : Time) (levee : Nat)
  | gaugeSnapshot (t : Time)
  | tapOperation (t : Time) (instr : Nat)
deriving DecidableEq, Repr

end Sys2Proof
end

