-- ==== Sys2Proof/Config.lean ====
section
/-! DEFINITION. What one part fixes and the spec leaves open: facts of the part, the standard cryptographic functions
the spec names without giving their values, and free values. None has a body, so nothing can rest on its value. -/

namespace Sys2Proof.Config

/-- The part is stepping B0 (00 R1, R2). -/
opaque stepB0 : Bool

/-- DEVID, the device identity digest, 32 bytes (13 R423). -/
opaque devid : Bytes

/-- A free value: what the spec leaves open at the `n`-th place a run meets one. -/
opaque freeNat (n : Nat) : Nat

/-- KMAC256 (NIST SP 800-185) of a message under a key: output bits and customisation string (02 R45). -/
opaque kmac (k : Key) (msg : Bytes) (bits : Nat) (custom : String) : Bytes

/-- KMAC256 with a 256-bit result used as a key (02 R48, R55, 13 R430). -/
opaque kmacKey (k : Key) (msg : Bytes) (custom : String) : Key

/-- SHAKE256 with the given output length in bits (13 R425). -/
opaque shake256 (msg : Bytes) (bits : Nat) : Bytes

/-- ML-KEM-1024 decapsulation under the lease key-exchange key (02 R55). -/
opaque lkexDecap (ct : Bytes) : Key

/-- ML-KEM-1024 decapsulation under the KEX key pair made at the `seed`-th DRBG draw (13 R430). -/
opaque leveeDecap (seed : Nat) (ct : Bytes) : Key

/-- The ML-KEM-1024 public keys: of LKEX, and of a levee KEX pair. -/
opaque lkexPublic : Bytes
opaque leveePublic (seed : Nat) : Bytes

/-- Falcon-1024 verification of a padded signature over a message under a public key (13 R425). -/
opaque falconVerify (pub : Bytes) (msg : Bytes) (sig : Bytes) : Bool

/-- The operator's manager key in force when no settings copy carries one (16 R506). -/
opaque factoryOperatorKey : Bytes

/-- Hexulcia's firmware signing key digest held by the boot ROM (13 R425). -/
opaque romKeyDigest : Bytes

/-- DAK signature over the content of a report (13 R443); `gen` counts the DAK derivations. -/
opaque dakSign (gen : Nat) (msg : Bytes) : Bytes

/-- DER of the attestation key certificate issued at the `gen`-th derivation of DAK over measurements 0 to 3 (13 R442). -/
opaque dakCertificate (gen : Nat) (measured : Bytes) : Bytes

/-- DER of the identity and intermediate certificates held in the flash, by SELECT 2 and 3 (13 R442). -/
opaque flashCertificate (select : Nat) : Bytes

/-- DER encoding of a report's tbsCertificate (13 Table SEC-8) from its serial number and the contents of its vendor
extensions in the order of Table SEC-9, and of the certificate from that and its signature. X.509 itself is a standard the
spec names; it leaves the string types of the names open. -/
opaque reportTbs (serial : Bytes) (extensions : List Bytes) : Bytes
opaque reportDer (tbs signature : Bytes) : Bytes

/-- AES-256-GCM: opening a sealed string, and sealing one to ciphertext and tag (02 R48, 13 R433). -/
opaque gcmOpen (k : Key) (iv aad ct tag : Bytes) : Option Bytes
opaque gcmSeal (k : Key) (iv aad pt : Bytes) : Bytes × Bytes

/-- The `n`-th draw of Tretu's CTR_DRBG (13 R423). -/
opaque drbg (n : Nat) : Key

/-- K_FLASH (13 R423). -/
opaque kFlash : Key

/-- Depth in bytes of the 100 Gbit/s limit on Krytic packets of a die (02 R40 gives the rate only). -/
opaque kryticDepth : Nat

/-- Tiles a cold page occupies once the bytes of its valid tiles are compressed with the cistern engine's fixed tables (07
R222 names no table). -/
opaque coldTiles (elem : Nat) (page : Bytes) : Nat

/-- Where the device places a cistern frame of an allotment, and a cached page (07 R215 fixes only how tiles spread over
the channels): die-local frame of frame `i`, die-local page of page `i`. -/
opaque framePlace (allot i : Nat) : Nat
opaque pagePlace (allot i : Nat) : Nat

/-- The pseudo-channel that serves a tile whose class is relocated (17 R522). -/
opaque relocated (die tile : Nat) : Nat

/-- Where in the 2 units in the last place that 10 R335 and 11 R380 allow the FP32 weight of score `i` lies. -/
opaque softmaxUlp (scores : List (BitVec 32)) (i : Nat) : Nat

/-- The weight of score `i` where a NaN, +∞ or an infinite reference leaves the quotient of 10 R335 without a value. -/
opaque softmaxOpen (scores : List (BitVec 32)) (i : Nat) : BitVec 32

/-- What a staging buffer holds where nothing has been staged and CLEAR was not given (16 R507). -/
opaque staleByte (target off : Nat) : Byte

/-- A margin a die measures (17 Table HLT-4), by byte offset of its field and instant. -/
opaque margin (die off : Nat) (t : Time) : Nat

/-- Load of a pseudo-channel averaged over the preceding 1 µs, 0–255 (06 R200): its controller's queue over 64, by channel
and instant. -/
opaque load (channel : Nat) (t : Time) : Nat

/-- ARG of a phase that reads a source range, "phase-specific addresses and length" (06 Table MEM-13), whose layout the spec
does not give: its 16 bytes from SRC_PVA and LENGTH, and SRC_PVA and LENGTH from them. -/
opaque phaseArg (pva len : Nat) : Bytes
opaque phaseRange (arg : Bytes) : Nat × Nat

/-- Temperature, rail millivolts of a basin at an instant (09 R305). -/
opaque basinTemp (b : Nat) (t : Time) : Nat
opaque basinRail (b : Nat) (t : Time) : Nat

/-- The boot ROM digest of measurement 0, and the digests of the images a part is delivered with, by COMPONENT; for 4 what
measurement 4 holds when no settings copy is in force (13 R445, 16 R506). -/
opaque romDigest : Bytes
opaque factoryDigest (component : Nat) : Bytes

/-- Mean package power in W over an interval of 1 s, counted from the power-on instant of a BOOT count (13 R439). -/
opaque meanWatts (boot interval : Nat) : Nat

/-- Ticks of waiting and link time of the `n`-th message delivered on a die's mesh (05 R176: what its routers made it wait). -/
opaque meshTicks (die n : Nat) : Time

/-- VRF of a frame received on a port (04 R119 and 12 R395 use a VRF whose source no rule gives). -/
opaque vrf (port vlan : Nat) : Nat

/-- SWITCH_ID of the HX-5120 that answers at an address, 128 and above for none: 14 Table FLT-4 speaks of the switch an
upstream group is reached at, and no rule says how it is known from UP_ADDR. -/
opaque switchAt (af addr : Nat) : Nat

/-- The standard encodings of a frame (IEEE 802.3, IP, RoCEv2), which the spec names and does not give: its bytes from
destination address to before the FCS, and a frame parsed from such bytes. -/
opaque frameBytes (f : Frame) : Bytes
opaque frameParse (b : Bytes) : Frame

end Sys2Proof.Config
end

