-- ==== Sys2Proof/Machine/Bytes.lean ====
section
/-! DEFINITION. Byte strings and sparse tables: field readers and writers in both byte orders (00 R6), memories in
canonical form, tables, and the two CRCs. -/

namespace Sys2Proof

/-! ### Fields of byte strings -/

/-- Byte `i`, zero beyond the end. -/
def byteAt (p : Bytes) (i : Nat) : Nat := (p.getD i 0).toNat

/-- Big-endian field of `n` bytes at `off` (00 R6, structures on a link). -/
def be (p : Bytes) (off n : Nat) : Nat :=
  (List.range n).foldl (fun acc i => acc * 256 + byteAt p (off + i)) 0

/-- Little-endian field of `n` bytes at `off` (00 R6, structures in memory). -/
def le (p : Bytes) (off n : Nat) : Nat :=
  (List.range n).foldr (fun i acc => acc * 256 + byteAt p (off + i)) 0

/-- `v` as `n` big-endian bytes. -/
def toBe (n v : Nat) : Bytes :=
  (List.range n).map fun i => BitVec.ofNat 8 (v / 256 ^ (n - 1 - i))

/-- `v` as `n` little-endian bytes. -/
def toLe (n v : Nat) : Bytes :=
  (List.range n).map fun i => BitVec.ofNat 8 (v / 256 ^ i)

/-- `n` zero bytes. -/
def zeros (n : Nat) : Bytes := List.replicate n 0

/-- `p` from `off`, exactly `n` bytes, zero beyond the end. -/
def slice (p : Bytes) (off n : Nat) : Bytes :=
  let q := (p.drop off).take n
  q ++ zeros (n - q.length)

/-- `p` padded with zeros to a multiple of 8 (02 R41: PLEN is a multiple of 8). -/
def pad8 (p : Bytes) : Bytes := p ++ zeros ((8 - p.length % 8) % 8)

/-- `p` with `q` written at `off`. -/
def splice (p : Bytes) (off : Nat) (q : Bytes) : Bytes :=
  let p' := p ++ zeros (off + q.length - p.length)
  p'.take off ++ q ++ p'.drop (off + q.length)

/-- The ASCII bytes of a literal. -/
def ascii (x : String) : Bytes := x.toList.map fun c => BitVec.ofNat 8 c.toNat

/-- Bit `i` of a number. -/
def bitOf (v i : Nat) : Bool := v / 2 ^ i % 2 == 1

/-- Bits [hi:lo] of a number. -/
def bitsOf (v hi lo : Nat) : Nat := v / 2 ^ lo % 2 ^ (hi - lo + 1)

/-- A bit of a number or a truth value, as a number. -/
def ofBool (b : Bool) : Nat := if b then 1 else 0

/-- ⌈a ÷ b⌉. -/
def ceilDiv (a b : Nat) : Nat := (a + b - 1) / b

/-- `a` rounded up to a multiple of `b`. -/
def roundUp (a b : Nat) : Nat := ceilDiv a b * b

/-- The numbers of the bits set in a 16-bit mask. -/
def bitList (w v : Nat) : List Nat := (List.range w).filter (bitOf v)

/-- How many bits of an 8-bit mask are set. -/
def popcount (w v : Nat) : Nat := (bitList w v).length

/-- A bit vector with bit `i` set. -/
def setBit {w : Nat} (v : BitVec w) (i : Nat) : BitVec w := v ||| BitVec.ofNat w (2 ^ i)

/-- A bit vector with bit `i` cleared. -/
def clearBit {w : Nat} (v : BitVec w) (i : Nat) : BitVec w := v &&& ~~~ BitVec.ofNat w (2 ^ i)

/-! ### Sparse tables -/

/-- The content at `k`, if listed. -/
def Tab.get? {α : Type} (t : Tab α) (k : Nat) : Option α :=
  match t with
  | [] => none
  | (j, v) :: r => if j == k then some v else Tab.get? r k

/-- The content at `k`, `d` where unlisted. -/
def Tab.getD {α : Type} (t : Tab α) (k : Nat) (d : α) : α := (Tab.get? t k).getD d

/-- Write `v` at `k`, keeping the numbers rising. -/
def Tab.set {α : Type} (t : Tab α) (k : Nat) (v : α) : Tab α :=
  match t with
  | [] => [(k, v)]
  | (j, w) :: r => if j < k then (j, w) :: Tab.set r k v else if j == k then (k, v) :: r else (k, v) :: (j, w) :: r

/-- Remove `k`. -/
def Tab.del {α : Type} (t : Tab α) (k : Nat) : Tab α := List.filter (fun e => e.1 != k) t

/-- Change the content at `k` where listed. -/
def Tab.upd {α : Type} (t : Tab α) (k : Nat) (f : α → α) : Tab α :=
  match Tab.get? t k with
  | none => t
  | some v => Tab.set t k (f v)

/-- Change every content. -/
def Tab.mapVals {α : Type} (t : Tab α) (f : Nat → α → α) : Tab α := List.map (fun e => (e.1, f e.1 e.2)) t

/-- The lowest number below `n` that is not listed. -/
def Tab.lowestFree {α : Type} (t : Tab α) (n : Nat) : Option Nat :=
  (List.range n).find? fun k => (Tab.get? t k).isNone

/-- The lowest number at or above `base`, below `base + n`, that is not listed. -/
def Tab.lowestFreeFrom {α : Type} (t : Tab α) (base n : Nat) : Option Nat :=
  ((List.range n).find? fun k => (Tab.get? t (base + k)).isNone).map (base + ·)

/-! ### Byte memory -/

/-- The byte at an address; an unlisted address reads zero. -/
def Mem.read (m : Mem) (a : Nat) : Byte :=
  match m with
  | [] => 0
  | (b, v) :: r => if b == a then v else if a < b then 0 else Mem.read r a

/-- Write one byte, keeping the canonical form: a zero byte is not listed. -/
def Mem.write (m : Mem) (a : Nat) (v : Byte) : Mem :=
  match m with
  | [] => if v = 0 then [] else [(a, v)]
  | (b, w) :: r =>
    if b < a then (b, w) :: Mem.write r a v
    else if b = a then (if v = 0 then r else (a, v) :: r)
    else if v = 0 then (b, w) :: r else (a, v) :: (b, w) :: r

/-- `n` bytes from `a` upward. -/
def Mem.readN (m : Mem) (a n : Nat) : Bytes := (List.range n).map fun i => Mem.read m (a + i)

/-- Write a byte string from `a` upward. -/
def Mem.writeN (m : Mem) (a : Nat) (bs : Bytes) : Mem :=
  match bs with
  | [] => m
  | b :: r => Mem.writeN (Mem.write m a b) (a + 1) r

/-- Zero `n` bytes from `a`. -/
def Mem.zero (m : Mem) (a n : Nat) : Mem := List.filter (fun c => c.1 < a || a + n ≤ c.1) m

/-- The canonical form: addresses strictly rising, no zero byte listed. -/
def Mem.wf (m : Mem) : Bool :=
  match m with
  | [] => true
  | [(_, v)] => v != 0
  | (a, v) :: (b, w) :: r => decide (a < b) && (v != 0) && Mem.wf ((b, w) :: r)

/-! ### Check values -/

/-- One bit of a reflected CRC-32C: polynomial 0x82F6_3B78 (09 R294). -/
def crcBit (c : BitVec 32) : BitVec 32 :=
  if c.getLsbD 0 then (c >>> 1) ^^^ 0x82F63B78#32 else c >>> 1

/-- One byte of a reflected CRC-32C. -/
def crcByte (c : BitVec 32) (b : Byte) : BitVec 32 :=
  (List.range 8).foldl (fun x _ => crcBit x) (c ^^^ b.zeroExtend 32)

/-- CRC-32C from a given initial register, with final XOR. -/
def crc32cFrom (init : BitVec 32) (bs : Bytes) : BitVec 32 := ~~~ (bs.foldl crcByte init)

/-- CRC-32C (Castagnoli): initial value and final XOR 0xFFFF_FFFF (09 R294). -/
def crc32c (bs : Bytes) : BitVec 32 := crc32cFrom 0xFFFFFFFF#32 bs

/-- One bit of the block CRC: polynomial 0x8BB7, not reflected (09 R286). -/
def crc16Bit (c : BitVec 16) : BitVec 16 :=
  if c.getLsbD 15 then (c <<< 1) ^^^ 0x8BB7#16 else c <<< 1

/-- The 16-bit CRC of compressed blocks (09 R286). -/
def crc16 (bs : Bytes) : BitVec 16 :=
  bs.foldl (fun c b => (List.range 8).foldl (fun x _ => crc16Bit x) (c ^^^ (BitVec.zeroExtend 16 b <<< (8 : Nat)))) 0

/-! ### Durations -/

/-- `n` nanoseconds in ticks of 1/24 ns. -/
def ns (n : Nat) : Time := n * 24
/-- `n` microseconds. -/
def us (n : Nat) : Time := n * 24000
/-- `n` milliseconds. -/
def ms (n : Nat) : Time := n * 24000000
/-- `n` seconds. -/
def sec (n : Nat) : Time := n * 24000000000

end Sys2Proof
end

