-- ==== Sys2Proof/Machine/State.lean ====
section
/-! DEFINITION. The state of the part: every register, table, queue, buffer and counter the spec gives it, block by
block, each field with the rule that names it. A field's default is its value at reset (16 R513, 00 R13); defaults the
spec does not give are named in the assumption log. -/

namespace Sys2Proof.Machine

/-! ### Krytic, leases and the management controller (02, 13 R428) -/

/-- States of the lease (02 Table KCP-5). -/
inductive LeaseState where
  | none
  | held
  | autonomous
deriving DecidableEq, Repr

/-- A reply as sent: the addresses it goes to, Krytic header fields, status, the parameters of each fragment, and the
packets themselves, one a fragment: header, parameters, authentication tag (02 R39, R41, R43, R45). -/
structure Reply where
  port : Nat
  net : Net
  cls : Nat
  key : Option Key
  opcode : Nat
  levee : Nat
  term : Nat
  seq : Nat
  tag : Nat
  status : Nat
  frags : List Bytes
  packets : List Bytes
deriving DecidableEq, Repr

/-- The lease and the two lease keys the device retains (02 R46, R53, R56, R59). -/
structure Lease where
  st : LeaseState := .none
  port : Nat := 0
  term : Nat := 0
  ttlMs : Nat := 0
  expiry : Time := 0
  key : Option Key := none
  prevKey : Option Key := none
deriving DecidableEq, Repr

/-- A fragmented command being put together (02 R43, R44). -/
structure Reasm where
  tag : Nat
  opcode : Nat
  count : Nat
  opened : Time
  parts : List (Nat × KReq)
deriving DecidableEq, Repr

/-- A session: its sequence window, reply cache and open reassemblies (02 R49, R50, R44). -/
structure Session where
  high : Option Nat := none
  seen : List Nat := []
  cache : Tab (List Reply) := []
  reasm : List Reasm := []
deriving DecidableEq, Repr

/-- A command waiting in the queues of 02 R63, with the key its reply is tagged under. -/
structure Waiting where
  req : KReq
  key : Option Key
  arrived : Time
deriving DecidableEq, Repr

/-- What a command whose reply is not yet sent still waits for (02 R63, R65). -/
inductive Work where
  | revoke (allot : Nat) (deadline : Time) (completed : Nat)   -- ALLOT_REVOKE drains (06 R189)
  | publish (region : Nat)                                     -- REGION_PUBLISH drains (07 R242)
  | retire (levee : Nat)                                       -- LEVEE_RETIRE drains (13 R421)
  | detach (tray : Nat)                                        -- TRAY_DETACH (06 R210)
  | pin (levee : Nat) (pages : List Nat)                       -- TIER_HINT PIN (07 R227)
  | lock                                                       -- LOCK_LOAD (14 R467)
  | destroyQueue (queue : Nat)                                 -- FLUME_QUEUE_DESTROY (10 R316)
  | destroyGroup (group : Nat)                                 -- GROUP_DESTROY (11 R357)
  | activate (target : Nat)                                    -- FW_ACTIVATE (16 R508)
  | screen                                                     -- SCREEN_WRITE, SCREEN_DELETE: the commit cycle (12 R410)
  | search (bank : Nat)                                        -- SCREEN_SEARCH: its bank wakes (01 R34)
  | test (kind : Nat) (id : Nat)                               -- SELFTEST, CALIBRATE (17 R522)
  | replay                                                     -- REC_REPLAY (17 R534)
  | dead (domain agent : Nat)                                  -- AGENT_DEAD (08 R268)
deriving DecidableEq, Repr

/-- A command executing, or continuing after a DEFERRED reply. -/
structure Running where
  req : KReq
  key : Option Key
  work : Work
deriving DecidableEq, Repr

/-- Packets the headworks discarded (02 Table KCP-6, HDW_KRY_DROP). -/
structure KryDrop where
  mal : BitVec 8 := 0
  auth : BitVec 8 := 0
  seq : BitVec 8 := 0
  rate : BitVec 8 := 0
deriving DecidableEq, Repr

/-- The headworks' command machinery. -/
structure Krytic where
  lease : Lease := {}
  cur : Session := {}
  prev : Session := {}
  levees : Tab Session := []          -- session of each levee that has one
  keys : Tab Key := []                -- session key of each levee (13 R424)
  urgent : List Waiting := []         -- up to 32 (R63)
  normal : List Waiting := []         -- up to 256 (R63)
  executing : Option Running := none  -- one command at a time (R63)
  deferred : List Running := []       -- commands that replied DEFERRED (R65)
  drop : KryDrop := {}
  acquires : Tab (List Time) := []    -- LEASE_ACQUIRE arrivals per control port in the last second (R54)
  linkUsed : Tab (Nat × Time) := []   -- per die: what the 100 Gbit/s bucket lacks, in 1/48 byte, and since when (R40)
  lastLease : Option (Net × Nat × Nat) := none -- addresses, port, class of the last accepted ACQUIRE or RENEW (14 R459)
  lastKey : Option Key := none        -- the most recent lease key (14 Table FLT-5)
  ready : Bool := true                -- the management controller is ready (R64)
  leftReset : Time := 0               -- instant the controller last left reset (13 R428)
  lastBeat : Option Time := some 0    -- last heartbeat since then (13 R428)
  owed : List (KReq × Reply) := []    -- replies held until readiness returns, with their requests (R64)
deriving DecidableEq, Repr

/-! ### Ports, MACsec and PFC (03) -/

/-- Link states (03 Table PRT-3), in the code order of PRT_LINK.STATE. -/
inductive LinkState where
  | disabled | negotiate | train | align | up | damped
deriving DecidableEq, Repr

/-- A MACsec secure association (03 Table PRT-4). -/
structure Sa where
  suite : Nat
  nextPn : Nat
  ssci : Nat
  salt : Bytes
  key : Key
  window : Nat
  warned : Bool := false         -- three quarters of its numbers have been reported (R104)
deriving DecidableEq, Repr

/-- A receive secure channel: the partner's SCI and its associations by AN (03 R100). -/
structure RxSc where
  sci : Nat
  sas : Tab Sa
deriving DecidableEq, Repr

/-- PFC settings and state of a port; per-class tables list only classes away from the value given (03 R105–R111). -/
structure Pfc where
  lossless : BitVec 8 := 0
  wdMs : Nat := 1
  xoff : Nat := 8
  hyst : Nat := 1
  headroom : Nat := 0
  sent : Tab Time := []          -- XOFF in force toward the partner: instant of the last PFC frame sent for it
  pausedUntil : Tab Time := []   -- received pause end per class
  pausedSince : Tab Time := []   -- start of the uninterrupted received pause
  stuck : BitVec 8 := 0
  resumed : Tab Time := []       -- per class: when its last pause ended
  lastPause : Tab Time := []     -- last pausing PFC frame received per class
  heldSince : Option Time := none -- some class has been held without a gap since (PAUSED_NS)
  heldTo : Time := 0             -- latest end of a pause in that time
  ended : Tab (Time × Time) := [] -- per class: when a received PFC frame last ended its pause, and since when that had lasted (R110)
deriving DecidableEq, Repr

/-- A port, fabric 0–511 or control 512–515 (03 R83). -/
structure Port where
  st : LinkState := .disabled
  mode : Nat := 0                -- code of PRT_LINK.MODE
  medium : Nat := 0
  an : Bool := false
  anDone : Bool := false
  aligned : Bool := false        -- receive PCS and FEC aligned (PRT_LINK.LOCAL_FAULT)
  remoteFault : Bool := false
  lastDown : Nat := 0
  downCount : BitVec 8 := 0
  txInvert : BitVec 8 := 0
  rxInvert : BitVec 8 := 0
  trainMs : Nat := 0
  degrade : Nat := 0
  since : Time := 0              -- instant the present state was entered
  alignedSince : Option Time := none
  faultSince : Option Time := none -- remote fault received since (R95, 20 µs)
  outs : List Time := []         -- counting transitions out of UP (R97)
  dampS : Nat := 1               -- damping time of the next entry to DAMPED, seconds (R97)
  dampUntil : Time := 0
  retry : Bool := false          -- a training timeout waits its 1 s (R95)
  event : BitVec 32 := 0         -- PRT_EVENT
  pfc : Pfc := {}
  tx : Option (Nat × Tab Sa × Option Nat) := none -- transmit SC: SCI, associations, active AN (R100, R102)
  rx : Tab RxSc := []            -- receive SCs 0–3
  badSec : List Time := []       -- MACsec failures within 1 s (Table PRT-6)
  linkCtl : List Time := []      -- link-layer control frames within 1 s (Table PRT-6)
  fifo : List Nat := []          -- bytes of the frames that wait for a lookup slot, oldest first (04 R116)
  pfcWait : List (Nat × Nat) := [] -- PFC frames that wait for the frame on the wire: class, pause time (R107)
  testDown : Bool := false       -- taken down for a test: exempt from the automatic fence, kept down (17 R523)
deriving DecidableEq, Repr

/-- The row of 03 Table PRT-3 that governs a port in the cycle at `at_`: its place in the table, and the port and its
fence delay as the cycle found them (R95). -/
structure LinkRow where
  at_ : Time
  rank : Nat
  was : Port
  since : Option Time
deriving DecidableEq, Repr

/-! ### Switch core (04) -/

/-- States of the version of a table that is not active (04 Table SWC-5). -/
inductive VerState where
  | ready | draining | copying
deriving DecidableEq, Repr

/-- A table entry: 24 key bytes and 40 result bytes, reserved bytes zero (04 R123, R7). -/
structure Entry where
  key : Bytes
  res : Bytes
deriving DecidableEq, Repr

/-- A two-version table (04 R121–R130). Tables 0x09 and 0x0A keep their contents with their own blocks. -/
structure SwTable where
  active : Nat := 0
  st : VerState := .ready
  v0 : List Entry := []
  v1 : List Entry := []
  infl0 : Nat := 0
  infl1 : Nat := 0
  flipAt : Time := 0             -- instant of the last flip
  limitMs : Nat := 100           -- retire limit in force at it (R129)
  pending : Bool := false        -- a committed flip has not yet taken effect (R126)
deriving DecidableEq, Repr

/-- A frame held in the buffer (04 R131, R145): where it came from, its cells, its stamp and its copies. -/
structure FrameRec where
  frame : Frame
  orig : Option Originator       -- none: received on frame.port
  pipe : Nat
  cls : Nat
  levee : Nat
  cells : Nat
  stamp : BitVec 16              -- bit k: version of table k stamped (R125)
  stamped : BitVec 16            -- bit k: table k counts this frame in flight (R127)
  acct : Nat                     -- VOQ or multicast account charged
  fromRsv : Nat                  -- cells taken from the reservoir (R133)
  fromHead : Nat                 -- cells taken from headroom (R133); the rest lie within the minimum
  copies : Nat                   -- copies not yet transmitted or discarded
  tag : Option Nat               -- mirror flow tag (12 R396)
  mirror : Bool                  -- a mirror copy (R152)
  mirrored : List Nat            -- analysis ports that hold its ingress copy (R151)
  suppressed : List Nat          -- members whose copies were suppressed (R148)
  chain : Option (Nat × Nat)     -- the flume chain and descriptor that sent it (R148)
  retired : List Nat             -- tables whose retire limit ended while it was in flight (R129)
  counted : List Nat             -- those of them whose EPOCH_DISCARD has counted it
  cut : Bool                     -- forwarded cut-through (R118)
  arrived : Time
deriving DecidableEq, Repr

/-- A copy queued in a VOQ, with its rewrite (04 R123, R145, R146). -/
structure Copy where
  fid : Nat
  port : Nat
  vlan : Option Nat              -- VLAN to write: none unchanged, 0 untagged
  dmac : Option Nat
  smac : Option Nat
  ttlDec : Bool
  endpoint : Option Nat
  mem : Option Nat               -- member index in the tree
deriving DecidableEq, Repr

/-- A member of a multicast tree (04 Table SWC-8). -/
structure TreeMember where
  port : Nat
  vlan : Nat
  endpoint : Nat
deriving DecidableEq, Repr

/-- A frame whose transmission a round has begun (05 R168): its copy, the frame as rewritten, and when it starts and
ends on the wire. -/
structure Tx where
  copy : Copy
  frame : Frame
  start : Time
  ends : Time
  cut : Bool := false            -- truncated, and already sent as such (R98, R129)
deriving DecidableEq, Repr

/-- Copies a division box still has to enqueue for one frame (04 R146). -/
structure DivJob where
  fid : Nat
  todo : List Copy
deriving DecidableEq, Repr

/-- A mirror source (04 Table SWC-9). -/
structure MirrorSrc where
  kind : Nat
  source : Nat
  analysis : Nat
  truncate : Nat
  sample : Nat
  count : Nat
deriving DecidableEq, Repr

/-- A spray cell held for reordering (04 R142, R143). -/
structure Cell where
  seq : Nat
  first : Bool
  last : Bool
  data : Bytes
  port : Nat
  at_ : Time
  net : Frame
deriving DecidableEq, Repr

/-- A reorder context (04 R142). -/
structure Reorder where
  next : Option Nat := none      -- none: takes the SEQ of the next cell
  held : List Cell := []
  open_ : List Cell := []        -- accepted cells of a frame whose LAST has not come
  losing : Bool := false         -- the frame whose cells now follow was lost and counted (R143)
  last : Time := 0
deriving DecidableEq, Repr

/-- Work the pipelines hand to another block (04 Table SWC-1). -/
inductive Handed where
  | pool (die : Nat) (f : Frame) (levee : Nat) (ver : Nat)
  | tray (die : Nat) (tray : Nat) (f : Frame)
  | flume (queue : Nat) (f : Frame) (levee : Nat) (cls : Nat) (ver : Nat)
  | headworks (f : Frame)
deriving DecidableEq, Repr

/-- The switch core. -/
structure Switch where
  tables : Tab SwTable := []     -- tables 1–10, unlisted ones as at power-on (R128)
  frames : Tab FrameRec := []
  nextFid : Nat := 0
  voqs : Tab (List Copy) := []   -- key (pipe × 512 + port) × 8 + class
  gmin : Tab Nat := []           -- per VOQ, and per account 65,536 + pipe × 8 + class (0)
  alpha : Tab Nat := []          -- same keys (6)
  trees : Tab (List TreeMember) := []
  boxes : Tab (List DivJob) := []
  binds : Tab (Nat × Nat) := []  -- analysis port → (port, class)
  mirrors : List MirrorSrc := []
  spraySeq : Tab Nat := []       -- key (switch × 512 + port) × 8 + class
  reorder : Tab Reorder := []    -- key (src × 512 + port) × 8 + class
  stale : Tab Nat := []          -- VOQ → copies at its head that the port-down discard of R135 still has to remove (05 R167)
  podReorder : BitVec 8 := 0x09
  switchId : BitVec 7 := 0
  retire : BitVec 10 := 0x009
  moves : List (Nat × Bool) := [] -- ports whose PIN slots passed to survivors (true) or came back, in order, since all were at home (R139)
  txing : Tab (List Tx) := []    -- per port: frames begun and not yet taken off by FRAME_TRANSMIT_END, in order (05 R168)
  pipeFree : Tab Nat := []       -- per pipeline: when its next lookup can start, in 1/15 tick (R115)
  pipeLast : Tab Nat := []       -- per pipeline: the port served last (R115)
  handed : List Handed := []
deriving DecidableEq, Repr

/-! ### Traffic control (05) -/

/-- A headgate meter; tokens in units of 1/1,920,000 byte, the exact accumulators of 05 R553. -/
structure Meter where
  enable : Bool
  aware : Bool
  yellowAct : Nat
  redAct : Nat
  yellowDscp : Nat
  redDscp : Nat
  cir : Nat
  pir : Nat
  cbs : Nat
  pbs : Nat
  tc : Nat
  tp : Nat
  last : Time
deriving DecidableEq, Repr

/-- A shaper; tokens in units of 1/1,920,000 byte and below zero after a debit (05 R171). -/
structure Shaper where
  rate : Nat
  burst : Nat
  tokens : Int
  last : Time
  fresh : Bool                   -- set in the cycle of `last`: a debit of that cycle is not applied (R173)
deriving DecidableEq, Repr

/-- Pre-colour settings of an ingress port (05 R161). -/
structure Precolour where
  source : Nat
  dscpMap : Bytes
  deiMap : Nat
deriving DecidableEq, Repr

/-- Scheduler settings and state of a port (05 R164, R168). Unlisted weights are 1 and unlisted parents group 0. -/
structure Sched where
  groupW : Tab Nat := []
  classParent : Tab Nat := []
  classW : Tab Nat := []
  queueW : Tab Nat := []         -- key class × 16 + pipeline
  deficit : Tab Nat := []        -- per leaf class × 16 + pipeline, in 1/256 byte
  active : List Nat := []        -- active list, in order
  pos : Nat := 0                 -- place in the list that the round has reached
  turn : Bool := false           -- the leaf there has been granted its quantum
  round : Nat := 0               -- virtual time
  busy : Time := 0               -- when the port will have sent what it has begun
  shaped : Tab Time := []        -- per class: up to when SHAPED_NS has been counted
deriving DecidableEq, Repr

structure Traffic where
  meters : Tab Meter := []       -- key die × 8,192 + meter; unlisted: disabled
  precolour : Tab Precolour := []
  shapers : Tab Shaper := []     -- key port × 17 + (0 port, 1–8 groups, 9–16 classes); unlisted: RATE 0
  sched : Tab Sched := []
deriving DecidableEq, Repr

/-- A die's mesh as the registers and gauges show it (05 R176–R178). -/
structure MeshDie where
  delivered : Nat := 0           -- messages delivered on the die
  maxAge : Nat := 0              -- TRF_MESH.MAX_AGE
  sat : Bool := false            -- TRF_MESH.SATURATED
  satAt : Time := 0              -- when a message last reached age 4,095
  satCount : Nat := 0            -- MESH_SATURATED
deriving DecidableEq, Repr

/-! ### Pool memory transport (06) -/

/-- Allotment states (06 Table MEM-2), NONE being the absence of the allotment. -/
inductive AllotState where
  | pending | active | revoking | releasing
deriving DecidableEq, Repr

/-- An allotment (06 Table MEM-1). -/
structure Allot where
  st : AllotState
  levee : Nat
  home : Nat
  place : Nat
  flags : Nat
  domain : Nat
  pva : Nat
  size : Nat
  tray : Nat
  replica : Nat
  trayOff : Nat
  repOff : Nat
  inflight : Nat := 0
  zeroed : Bool := false         -- backing zeroed in RELEASING (R187)
  written : Bool := false        -- a lock cycle has put data into its backing (14 R468)
  work : Option Nat := none      -- collective group whose WORK it is (11 R356)
  revokeBy : Time := 0           -- when its revocation times out (R189)
deriving DecidableEq, Repr

/-- Outcome of a completed vendor request, kept for replay (06 R202). -/
structure Outcome where
  status : Nat
  prior : Nat
deriving DecidableEq, Repr

/-- A queue context of the home engine (06 R201, R202). -/
structure QCtx where
  die : Nat
  levee : Nat
  host : Ip
  queue : Nat
  high : Nat
  done : Tab Outcome             -- completed SEQs of the window
  live : List Nat                -- SEQs of the window still executing
  last : Time
deriving DecidableEq, Repr

/-- A water right with its bucket; tokens in units of 1/24,000 byte (06 R205, R553). -/
structure Right where
  die : Nat
  levee : Nat
  host : Ip                      -- af 0: the levee's default entry
  rate : Nat
  burst : Nat
  out : Nat
  full : Bool := true            -- what its buckets held when it was written: BURST, or zero (R207)
  since : Time := 0              -- when it was written
deriving DecidableEq, Repr

/-- Requests an engine works on, whoever sent them (06 R188, R208). -/
inductive ReqKind where
  | read | write | atomic | copy
  | rdmaRead | rdmaWrite | rdmaAtomic
  | coh (op : Nat)               -- a coherence request held by a water right (08 R254), TYPE op
deriving DecidableEq, Repr

/-- A part of a request that lies in one tile and one 4 KiB piece: offset in the request, tile of the allotment,
where it starts in the tile, its length, and whether it goes to the tray itself (TRAY_DIRECT or the siphon path). -/
structure Seg where
  off : Nat
  tile : Nat
  start : Nat
  len : Nat
  sip : Bool
deriving DecidableEq, Repr

/-- A staging block being copied for a write (07 R238): the handle's slot, the window block, the pool block it goes to, and
the tiles of the copy still to be written, to the primary copy of the allotment and then to its replica. -/
structure Cow where
  slot : Nat
  block : Nat
  to_ : Nat
  left : List Nat
  rep : List Nat := []
deriving DecidableEq, Repr

/-- One request as the engines track it. `stage` counts what is done: see Machine/Live.lean. -/
structure Live where
  kind : ReqKind
  req : PoolReq
  rdma : Option RdmaReq := none
  coh : Option CohMsg := none
  allot : Nat
  home : Nat
  held : Bool := false           -- it waited in a water-right hold queue
  src : Option Nat := none       -- P_COPY: the allotment read
  stage : Nat := 0
  segs : List Seg := []
  waits : List Nat := []         -- tiles (allot × 2^32 + tile) in fill, pages expanding (2^81 + page), tray operations (2^80 + op)
  missed : List Nat := []        -- tiles that were not served from the cistern
  parts : Tab Bytes := []        -- bytes gathered, by offset; 2^60 + tile: a tile gathered for a staging copy
  lines : List Nat := []         -- directory lines awaiting their granule
  stat : Tab Nat := []           -- status of a piece, or of a granule of a coherent allotment, that is not OK
  prior : Nat := 0
  journal : Option Nat := none
  siphoned : Bool := false
  hits : Nat := 0
  flume : Option (Nat × Nat) := none -- an access of a flume chain: the chain and the key of its answer (10 R326)
  arrived : Time := 0            -- when its home engine took it (07 R242)
  never : List Nat := []         -- offsets of parts that could not be accessed at all (Table MEM-9)
  phase : Option PhaseMsg := none -- what another switch's phase has this device read (06 R213)
  cow : Option Cow := none       -- the staging block it is copying
deriving DecidableEq, Repr

/-- A host's bucket, in-flight count and hold queue on one die (06 R205). -/
structure HostState where
  die : Nat
  levee : Nat
  host : Ip
  tokens : Int
  last : Time
  inflight : Nat
  hold : List Live
deriving DecidableEq, Repr

/-- A standard RDMA responder context (06 Table MEM-12) and its IBTA state (R208). -/
structure Qpc where
  valid : Bool := false
  pmtu : BitVec 3 := 5
  qpn : BitVec 24 := 0
  peer : BitVec 24 := 0
  epsn : BitVec 24 := 0
  rkey : BitVec 32 := 0
  levee : BitVec 10 := 0
  err : Bool := false
  atomics : List (Nat × Nat) := [] -- last 16 atomics: PSN, prior value
deriving DecidableEq, Repr

/-- An attached tray (06 Table MEM-11). -/
structure Tray where
  port : Nat
  addr : Ip
  qpn : Nat
  rkey : Nat
  base : Nat
  length : Nat
  maxOut : Nat
  detaching : Bool := false
  failed : Bool := false         -- declared failed (07 R231)
deriving DecidableEq, Repr

/-- What a tray operation is for. -/
inductive TrayUse where
  | fill (allot tile : Nat)
  | writeBack (allot tile : Nat) (replica : Bool)
  | request (live off : Nat)
  | cohRead (line : Nat)
  | cohWrite (line : Nat)
  | lockRead (shard : Nat)
deriving DecidableEq, Repr

/-- The RDMA operations the device uses on trays (06 R210). -/
inductive TrayKind where
  | read | write | cas | faa
deriving DecidableEq, Repr

/-- An operation outstanding to a tray (06 R210): offset in its range, length, and the bytes written; for an atomic
the operands, 8 bytes each. -/
structure TrayOp where
  tray : Nat
  use : TrayUse
  kind : TrayKind
  addr : Nat
  len : Nat
  data : Bytes
  at_ : Time
  again : Bool := false          -- a confidential tile read a second time (13 R434)
deriving DecidableEq, Repr

/-- A journal entry of a multi-phase request (06 R211). -/
structure Journal where
  die : Nat
  levee : Nat
  host : Ip
  queue : Nat
  seq : Nat
  opcode : Nat
  phase : Nat
  members : List Nat             -- members by number: trays 0–255, switches 256 + id
  owner : Nat
  epoch : Nat
  deadline : Time
  queries : Tab Nat := []        -- per member: owner queries in succession that it has not answered (14 R451)
  replies : Tab Nat := []        -- last P_OWNER_REPLY of each switch: HOLDS
  live : Option Nat              -- the request it serves; none for a write-back
  allot : Nat
  tile : Nat
  data : Bytes := []
deriving DecidableEq, Repr

/-- What this device has done as a member of another home's request (06 R213). -/
structure Phased where
  home : Nat
  levee : Nat
  queue : Nat
  seq : Nat
  epoch : Nat
  applied : Tab (Option Nat)     -- phases applied → their outcome, none while one is under way
  holds : Bool
deriving DecidableEq, Repr

/-- A tray range not zeroed since an owner left (06 R184, R190): the allotment it backed, and where it lies in the tray's own
memory, which outlasts the attachment. -/
structure Unzeroed where
  allot : Nat
  addr : Ip
  va : Nat
  len : Nat
deriving DecidableEq, Repr

structure Transport where
  allots : Tab Allot := []
  xl0 : List Nat := []           -- allotments with an entry in version 0 of LEVEE_XLATE
  xl1 : List Nat := []
  rights : List Right := []
  hosts : List HostState := []
  ctxs : List QCtx := []
  live : Tab Live := []
  nextLive : Nat := 0
  qpcs : Tab Qpc := []           -- key die × 4,096 + n
  trays : Tab Tray := []
  ops : Tab TrayOp := []
  nextOp : Nat := 0
  journal : Tab Journal := []    -- key die × 8,192 + entry
  phased : List Phased := []
  dirty : List Unzeroed := []    -- tray ranges not zeroed since an owner left (R190)
  locks : Tab Nat := []          -- tiles of confidential levees being changed on their trays → who changes them (R197)
  occ : Tab (List (Time × Nat)) := [] -- per tray: operations outstanding since each instant, newest first, over the last 1 µs (R200)
  phaseUs : BitVec 12 := 0x0C8
  revokeUs : BitVec 10 := 0x064
deriving DecidableEq, Repr

/-! ### Cistern and versioned regions (07) -/

/-- A resident page of a TRAY allotment (07 R217). -/
structure Page where
  die : Nat
  levee : Nat
  valid : BitVec 16 := 0
  dirty : BitVec 16 := 0
  since : Tab Time := []         -- per dirty tile: when it first became dirty (R219)
  hint : Nat := 0                -- 0 none, else the code of Table CIS-2
  elem : Nat := 0
  hintAt : Time := 0
  k : Option Nat := none         -- tiles it occupies when compressed (R222)
  lru : Time := 0
  filling : BitVec 16 := 0
  writing : BitVec 16 := 0       -- tiles with a write-back outstanding
  again : BitVec 16 := 0         -- tiles written during their write-back (Table CIS-1)
  pendHint : Option (Nat × Nat × Time) := none -- hint to apply when its fill completes: code, ELEM, when it was given
  want : BitVec 16 := 0          -- tiles a prefetch has still to ask for (R225)
  evict : Bool := false          -- chosen for eviction
  expanding : Bool := false
  pinned : Bool := false
deriving DecidableEq, Repr

/-- A version of a region: window block → pool block (07 R234). -/
abbrev BlockMap := List Nat

structure Region where
  die : Nat
  levee : Nat
  allot : Nat
  size : Nat
  cur : Nat
  vers : Tab BlockMap            -- retained versions
deriving DecidableEq, Repr

/-- A region handle (07 R235, R236). -/
structure Handle where
  gen : Nat
  region : Nat
  levee : Nat
  stage : Bool
  version : Nat
  map : BlockMap
  opener : Ip
  isOpen : Bool
deriving DecidableEq, Repr

/-- A publication that drains its handle's requests (07 R242). -/
structure Publication where
  region : Nat
  handle : Nat                   -- slot key die × 65,536 + SLOT
  first : Nat
  count : Nat
  arrived : Time                 -- when the command arrived
deriving DecidableEq, Repr

/-- A page that a HOT hint has still to bring in (07 R225). -/
structure Prefetch where
  page : Nat
  hint : Nat
  elem : Nat
deriving DecidableEq, Repr

structure Cistern where
  pool : Mem := []               -- allotment × 2^44 + offset; unlisted bytes read zero (06 R184)
  pages : Tab Page := []         -- allotment × 2^28 + page
  poisoned : List Nat := []      -- tiles allotment × 2^32 + tile (R221)
  sums : Tab Word := []          -- check values stored in HBM metadata that are not the CRC-32C of their tile as it stands (09 R294)
  onceTiles : List Nat := []     -- tiles whose next check fails and passes on re-read (09 R295)
  wire : Tab Bool := []          -- tiles that reach basins from their tray with bytes that do not fit the check value computed when they reached the device (09 R294): once, or (true) on the re-read too
  quota : Tab Nat := []          -- die × 1,024 + levee, in frames
  relocated : List Nat := []     -- pseudo-channels whose tile class is relocated (17 R522)
  flushUs : Tab Nat := []        -- CIS_CTL.FLUSH_US per die (0x3E8)
  prefetchPct : Tab Nat := []    -- CIS_CTL.PREFETCH_PCT per die (0x19)
  poison : BitVec 2 := 0         -- CIS_STATUS.POISON per die
  regions : Tab Region := []
  handles : Tab Handle := []     -- die × 65,536 + SLOT
  pub : Option Publication := none
  prefetch : List Prefetch := []
  slotGen : Tab Nat := []        -- die × 65,536 + SLOT → GEN last used (R236)
deriving DecidableEq, Repr

/-! ### Coherence directory (08) -/

structure Agent where
  gen : Nat
  addr : Ip
  qpn : Nat
  live : Bool
deriving DecidableEq, Repr

structure Domain where
  levee : Nat
  mode : Nat
  tc : Nat
  agents : Tab Agent := []
deriving DecidableEq, Repr

/-- States a directory entry holds (08 Table COH-5). -/
inductive LineState where
  | shared | owned | lost
deriving DecidableEq, Repr

/-- A directory entry (08 Table COH-5) with the LRU order of its set. BUSY is the presence of a transaction on the line
and HOLD that of a grant younger than 512 ns; an entry whose line is UNCACHED lives only under a transaction, as SHARED
without pointers. -/
structure DirEntry where
  st : LineState
  pred : Nat
  coarse : Bool := false         -- FMT
  ptrs : List Nat := []          -- SHARED, FMT 0
  groups : BitVec 64 := 0        -- FMT 1
  owner : Nat := 0
  ownTxn : Nat := 0
  lru : Time := 0
deriving DecidableEq, Repr

/-- What a directory transaction serves (08 Tables COH-6 and COH-7). -/
inductive CohWork where
  | agent (live type : Nat)              -- a request of an agent, by its live request and TYPE
  | again (live : Nat)                   -- a grant that is sent again (R264)
  | uncached (live : Nat)                -- a granule of a pool or RDMA request
  | wb (m : CohMsg)                      -- a write-back being written (R260)
  | recall                               -- directory recall of R257
  | revoke                               -- invalidation by ALLOT_REVOKE (R270)
  | dropped                              -- its request was dropped (R268)
deriving DecidableEq, Repr

/-- A transaction in progress on a line, and the line's list (08 R258, R259). `stage`: 0 snoops, 1 snooped data being
written, 2 memory being read, 3 its result being written, 4 its end. -/
structure Trans where
  die : Nat
  domain : Nat
  work : CohWork
  tracker : Option Nat
  near : Bool := false
  need : List Nat := []          -- agents whose answer to a snoop is outstanding
  wbSent : Bool := false         -- the owner answered a share snoop with WB_SENT
  stage : Nat := 0
  dirty : Option Bytes := none   -- snooped data not yet written
  data : Option Bytes := none    -- the line as read
  result : Option (Nat × Bytes) := none -- bytes to write, from an offset in the line
  image : Option Bytes := none   -- plain tile of a confidential levee read from its tray
  reading : Bool := false        -- waits for MEMORY_READ_COMPLETE
  waits : List Nat := []         -- as a live request's
  prior : Nat := 0
  stat : Nat := 0
  siphoned : Bool := false
  tried : Bool := false          -- its tile was looked up (HIT, MISS)
  missed : Bool := false         -- and was not in the cistern (07 R217)
  mode : Nat := 0                -- the domain's MODE when it started (R267)
  list : List CohWork := []
deriving DecidableEq, Repr

/-- The final message of a transaction that the home keeps (08 R264): whose it was, TXN and TYPE of the request, the message
and its TYPE. -/
structure CohResult where
  domain : Nat
  agent : Nat
  txn : Nat
  req : Nat
  type : Nat
  msg : CohMsg
deriving DecidableEq, Repr

/-- An outstanding snoop (08 R262, R263). -/
structure Snoop where
  die : Nat
  line : Nat
  domain : Nat
  agent : Nat
  type : Nat                     -- 0x20 INV, 0x21 RECALL, 0x22 SHARE
  sent : Option Time             -- none: held by the agent's hold window (R267)
  resent : Nat := 0
  awaitWb : Bool := false        -- WB_SENT came, the C_WB has not
  gotWb : Bool := false          -- the C_WB came, the answer has not
deriving DecidableEq, Repr

/-- A grant of a line to an agent (08 R264, R267). -/
structure Grant where
  agent : Nat
  txn : Nat
  data : Bool
  at_ : Time
deriving DecidableEq, Repr

structure Coherence where
  domains : Tab Domain := []
  lastGen : Tab Nat := []        -- domain × 4,096 + agent: generation last used
  dir : Tab DirEntry := []       -- line key allotment × 2^36 + line
  lost : List Nat := []          -- lost tables of both dies: line keys
  trans : Tab Trans := []        -- by line key
  dieQ : Tab (List (Nat × CohWork)) := [] -- per die: requests awaiting a tracker or a way, with their lines
  snoops : Tab Snoop := []       -- (die × 16,384 + tracker) × 4,096 + agent
  grants : Tab (List Grant) := [] -- line key → grants that may still matter
  results : List CohResult := []
  retxUs : Tab Nat := []         -- COH_CTL.SNOOP_RETX_US per die (0x14)
  limit : Tab Nat := []          -- COH_CTL.SNOOP_LIMIT per die (0x32)
  status : Tab (BitVec 3) := []  -- COH_STATUS [31:29] per die
deriving DecidableEq, Repr

/-! ### Flumes and turn counters (10) -/

/-- A descriptor as laid out in memory: 64 bytes (10 Table FLM-4). -/
abbrev Desc := Bytes

/-- A slot of a flume queue: its basin and the window's tiles in ascending order (10 R313, R315). -/
structure Slot where
  basin : Nat
  tiles : List Nat
  lost : Bool := false
  moving : Option Nat := none    -- basin its window is being copied to
deriving DecidableEq, Repr

/-- A send entry (10 Table FLM-2). -/
structure SendEntry where
  kind : Nat
  cls : Nat
  target : Nat
deriving DecidableEq, Repr

/-- A poster context (10 R318). -/
structure Poster where
  ip : Ip
  high : Nat
  live : List Nat
  cache : Tab Bytes              -- completion record per SEQ
  last : Time
deriving DecidableEq, Repr

structure Queue where
  levee : Nat
  depth : Nat
  ntiles : Nat
  slots : List Slot
  sends : List SendEntry
  srcIp : Ip
  srcMac : Nat
  posters : List Poster := []
  group : Option Nat := none     -- collective group it serves (11 R356)
  destroying : Bool := false
deriving DecidableEq, Repr

/-- Where a chain stands (10 R342–R344). -/
inductive ChainState where
  | waiting                      -- not started
  | ready                        -- started, at a descriptor boundary
  | running                      -- its descriptor executes on its slot's basin
  | turnWait (counter target : Nat) (deadline : Option Time)
  | searching                    -- a SCREEN_QUERY waits for its searches
  | ended                        -- outcome known; the record waits for writes to be acknowledged
deriving DecidableEq, Repr

structure Chain where
  queue : Nat
  slot : Nat
  st : ChainState
  post : Post
  seq : Nat
  count : Nat
  flags : Nat
  retQp : Nat
  pva : Nat
  handle : Nat
  ver : Nat                      -- version of LEVEE_XLATE stamped on the post (R326)
  descs : Tab Desc               -- descriptors held, by index
  idx : Nat := 0
  skipped : Nat := 0
  value : Nat := 0
  status : Nat := 0
  index : Nat := 0
  unacked : Nat := 0             -- writes issued and not acknowledged (R342)
  net : Tab (Nat × Bytes) := []  -- per NET descriptor: frames not yet done, members suppressed (R331, R148)
  replayed : Bool := false
  slotsRef : List (Nat × Nat) := [] -- decoding generations its descriptor references (11 R376)
  results : Bytes := []          -- SCREEN_QUERY results gathered
  keys : List (BitVec 144) := [] -- SCREEN_QUERY keys still to be queued (12 R403)
  asked : Nat := 0               -- SCREEN_QUERY keys queued so far
  netDue : List Nat := []        -- NET descriptors whose descriptor record waits for their frames
  queryBad : Option Nat := none  -- SCREEN_QUERY: the lost entry that a search met (12 R412)
  fetched : Tab (Nat × Bytes) := [] -- answers of its accesses, by key: status and bytes
  applied : Nat := 0             -- writes the home engine has applied, their acknowledgement to come
  failed : Option (Nat × Nat) := none -- status and descriptor of a write that failed after its descriptor completed
deriving DecidableEq, Repr

structure Turn where
  levee : Nat
  value : Nat
  at_ : Time := 0                -- instant of the last signal, and what reached the counter at it (10 R346)
  added : Nat := 0
deriving DecidableEq, Repr

structure Flumes where
  queues : Tab Queue := []
  chains : Tab Chain := []
  nextChain : Nat := 0
  turns : Tab Turn := []         -- allocated counters
  rr : Tab Nat := []             -- per basin: queue served last (R343)
deriving DecidableEq, Repr

/-! ### Basins (09) -/

/-- Basin power states (09 Table BSN-8), in the code order of BSN_STATUS.POWER. -/
inductive BasinPower where
  | active | clockGated | powerGated | waking | off
deriving DecidableEq, Repr

/-- Quarantine states (17 Table HLT-6). -/
inductive Quar where
  | none | conditional | heldOut | full
deriving DecidableEq, Repr

/-- A result kept in the outbound hold of an open dip window (09 R297). -/
inductive Outbound where
  | poolWrite (chain idx pva : Nat) (data : Bytes)
  | peerWrite (chain slot off : Nat) (data : Bytes)
  | frame (f : IntFrame)
  | signal (counter inc : Nat)
  | record (chain idx value : Nat) -- a descriptor record
deriving DecidableEq, Repr

/-- What a basin executes: a descriptor of a chain, or a block of a collective (11 R371, Table COL-8). -/
inductive BasinOp where
  | desc (chain idx : Nat)
  | block (group opseq block : Nat)
deriving DecidableEq, Repr

/-- An operation tagged by a dip window, with what its replay needs (09 R297–R299). -/
structure Tagged where
  op : BasinOp
  lost : Bool                    -- inbound retention or undo area overflowed
  done : Bool := true            -- it came to its end in the window
  writes : List (Nat × Bytes) := [] -- what it wrote in the basin store: address, bytes
  outbound : List Outbound := []
deriving DecidableEq, Repr

/-- An operand from outside the basin store, kept for a replay (09 R297): the operation, the access of it, the bytes, or
that it found the retention full. -/
structure Kept where
  op : BasinOp
  key : Nat
  bytes : Bytes
  full : Bool := false
deriving DecidableEq, Repr

/-- The operation a basin finished last, for captures (17 R531, R532). -/
structure LastOp where
  queue : Nat
  levee : Nat
  idx : Nat
  desc : Desc
  tiles : List (Nat × Bytes)     -- operand tiles: address word, bytes
  status : Nat
deriving DecidableEq, Repr

/-- A cross-check of an operation, waiting to be sent or in progress (09 R302–R305). -/
structure XCheck where
  queue : Nat
  levee : Nat
  idx : Nat
  desc : Desc
  tile : Nat                     -- output tile, in order of the destination
  result : Bytes
  operands : List (Nat × Bytes)  -- operand tiles: address word, bytes
  depends : Nat                  -- bytes of operands
  checking : Option Nat := none
  started : Time := 0
deriving DecidableEq, Repr

structure Basin where
  power : BasinPower := .clockGated
  since : Time := 0              -- when the present power state was entered
  idleSince : Time := 0
  profEn : Bool := false
  captureEn : Bool := false
  idleCg : BitVec 8 := 0x04
  idlePg : BitVec 16 := 0x0064
  n : Nat := 4096                -- cross-check interval (R301)
  countdown : Nat := 4096
  event : BitVec 8 := 0          -- BSN_EVENT
  current : Option Nat := none   -- chain whose descriptor executes
  sums : Tab Word := []          -- entries of the tile check table that are not the CRC-32C of their tile as it stands (R294)
  once : List Nat := []          -- store tiles whose next check fails and passes on re-read (R295)
  taint : List Nat := []         -- tainted tiles (R299)
  undo : Tab (Bytes × Option Word × Bool) := [] -- saved tiles of the open window: contents, check table entry, retry mark (R297)
  inbound : List Kept := []      -- the inbound retention (R297)
  asked : Bool := false          -- an operand request from outside waits for it (01 R34)
  mail : List Outbound := []     -- writes of other basins held until it is awake (01 R34)
  accs : Bytes := []             -- the matrix unit's two accumulators of 32 × 32 FP32; empty: zero (R273)
  holdBytes : Nat := 0           -- bytes in the outbound hold
  tagged : List Tagged := []
  replaying : Bool := false      -- a replay is pending or in progress
  restarts : Nat := 0            -- restarts of the present replay (R300)
  check : Option XCheck := none
  last : Option LastOp := none
  checks : Nat := 0              -- cross-checks completed
  suspect : Nat := 0             -- mismatches naming this basin
  quar : Quar := .none
  quarTemp : Nat := 0
  quarMask : Nat := 0
  heldAt : Time := 0
  coolSince : Option Time := none
  temp : Nat := 0
  load : BitVec 8 := 0           -- load pattern (Table BSN-7)
  draining : Bool := false       -- being drained for a test (17 R523)
deriving DecidableEq, Repr

structure Basins where
  tab : Tab Basin := []
  store : Mem := []              -- basin × 2^21 + address; unlisted bytes read zero (16 R513)
  owner : Tab Nat := []          -- basin × 512 + tile → queue holding it
deriving DecidableEq, Repr

/-! ### Collectives (11) -/

/-- One contribution set and accumulator of a block, token or position. -/
structure ColBlock where
  taken : List Nat := []         -- members whose contribution is in
  acc : List (BitVec 32) := []   -- 256 FP32 accumulators
  done : Bool := false
  up : Bool := false             -- sent upstream (R388)
  res : Bytes := []              -- result bytes once produced
deriving DecidableEq, Repr

/-- The record of a dispatched token (11 R381). -/
structure Token where
  pieces : List Nat := []
  picks : List (Nat × Option Nat × BitVec 32) := [] -- expert, position (none: dropped), weight, in rank order
  gated : Bool := false
  acc : List (BitVec 32) := []   -- COMBINE accumulator
  got : List (Nat × Nat) := []   -- COMBINE: (rank, piece) added
  sent : Bool := false
deriving DecidableEq, Repr

/-- An operation of a group (11 R363–R369). -/
structure ColOp where
  opseq : Nat
  kind : Nat
  hdr : Bytes                    -- parameters fixed by the first contribution
  flags : Nat
  ctx : Nat
  total : Nat := 0
  frontier : Nat := 0
  credited : Nat := 0            -- FRONTIER of the last CREDIT
  upFrontier : Nat := 0
  lastDone : Time := 0           -- last block completion or stall credit
  blocks : Tab ColBlock := []
  tokens : Tab Token := []       -- member × 2^17 + token
  totals : Tab Nat := []         -- DISPATCH: TOTAL of each member
  positions : Tab (List (Nat × Nat)) := [] -- expert → (token key, rank) per position
  buffers : Tab Bytes := []      -- expert × 2^32 + position × 16 + piece
  dropped : Nat := 0
  map : List Nat := []           -- expert owners in force
  cap : Nat := 0
  removed : List Nat := []       -- members removed under R385
  outAt : Tab Time := []         -- when each was removed (Table COL-8)
  silent : Tab Nat := []         -- stall credits without a message per member (14 R451)
  fail : Nat := 0                -- first failure status
  complete : Bool := false
  consumed : Bool := false       -- a DISPATCH served by a completed COMBINE
  named : Bool := false          -- a COMBINE names it
  gens : List (Nat × Nat) := []  -- decoding generations referenced (R376)
  barrier : List Nat := []
  upDone : Option (Nat × Bool) := none
  doneStatus : Nat := 0          -- STATUS, FLAGS and body of its DONE once sent
  doneFlags : Nat := 0
  doneBody : Bytes := []
  badOnce : List (Nat × Nat) := [] -- (member, block) that failed its check once (R386)
  sent : Nat := 0                -- reductions: blocks before this one have left in RESULTs
deriving DecidableEq, Repr

structure Member where
  addr : Ip
  qpn : Nat
deriving DecidableEq, Repr

structure Group where
  levee : Nat
  queue : Nat
  mems : List Member
  kinds : Nat
  flags : Nat
  turn : Nat
  work : Nat
  ntensor : Nat
  retxUs : Nat
  resOff : Nat
  resStride : Nat
  ctxOff : Nat
  ctxBytes : Nat
  upFmt : Nat
  upGroup : Nat
  upMember : Nat
  tc : Nat
  upQpn : Nat
  upAddr : Ip
  map : List Nat := []           -- expert map for the next DISPATCH (R379)
  cap : Nat := 0
  highest : Option Nat := none   -- newest OPSEQ seen
  ops : List ColOp := []
  siphoned : List (Nat × Nat × Tab Time) := [] -- OPSEQ, kind, last DONE per member
  destroying : Bool := false                   -- GROUP_DESTROY has committed (R357)
  scratch : List Nat := []                     -- contexts whose bytes in WORK the device has used
deriving DecidableEq, Repr

/-- A resident generation of a decoding-table slot (11 R376). -/
structure DecGen where
  gen : Nat
  image : Bytes
  held : Bool
deriving DecidableEq, Repr

structure Collectives where
  groups : Tab Group := []
  slots : Tab (Nat × List DecGen) := [] -- slot → levee, generations in load order
  force : Bool := false          -- MEM_COL_CTL.FORCE_SIPHON
  cells : BitVec 19 := 0x08000
  status : BitVec 3 := 0         -- MEM_COL_STATUS [31:29]
deriving DecidableEq, Repr

/-! ### Screen (12) -/

/-- A screen row (12 R392) with its result; the forwarding class holds one copy standing for all halves (R393). -/
structure Row where
  id : Nat
  kind : Nat
  prio : Nat
  value : BitVec 144
  mask : BitVec 144
  v0 : Bool
  v1 : Bool
  action : Nat
  mirror : Option Nat
  index : Nat
  levee : Nat
  rowIdx : Nat
  lost : Bool := false           -- its shadow was lost: disabled until rewritten or deleted (R411, R412)
deriving DecidableEq, Repr

/-- A tenant search waiting on its bank (12 R403): for a SCREEN_QUERY chain, the key's number in its descriptor. -/
structure Search where
  levee : Nat
  key : BitVec 144
  chain : Nat
  num : Nat
  at_ : Time
deriving DecidableEq, Repr

structure Bank where
  power : Nat := 0               -- code of SCR_BANK.POWER
  step : Nat := 0
  temp : Nat := 0
  rows : List Row := []          -- tenant filter rows
  queue : List Search := []
  rr : Nat := 0                  -- levee served last
  lastSearch : Time := 0
  waited : Time := 0             -- ticks that keys have waited for the throttle (THROTTLED_NS)
  retired : List Nat := []
  fixes : Tab Time := []         -- row → last desilt fix (forwarding banks: row of either half)
deriving DecidableEq, Repr

/-- Rows of a command waiting for their commit cycle (12 R410). -/
structure ScreenBatch where
  cls : Nat
  bank : Nat
  version : Nat
  add : List Row
  drop : List Nat
  levee : Nat
deriving DecidableEq, Repr

structure Screen where
  fwd : List Row := []
  banks : Tab Bank := []
  quotas : Tab (Nat × Nat) := [] -- levee → bank, rows
  retired : List Nat := []       -- forwarding row indices retired
  out : List Nat := []           -- halves (bank × 2 + half) out of search rotation (17 R524)
  batches : List ScreenBatch := []
  t1 : Tab Nat := []             -- SCR_THROT thresholds per die (0x55, 0x5B, 0x5F)
  t2 : Tab Nat := []
  t3 : Tab Nat := []
  event : Tab (BitVec 4) := []   -- SCR_EVENT per die
deriving DecidableEq, Repr

/-! ### Gauges (17 R530) -/

/-- A gauge: set (Table HLT-7, 0 for the port gauges of Table PRT-10), row, index in the row, and its objects. -/
structure GaugeKey where
  set : Nat
  row : Nat
  idx : Nat
  a : Nat
  b : Nat
  c : Nat
deriving DecidableEq, Repr

/-! ### Levees and security (13) -/

structure Levee where
  confidential : Bool
  maxAllot : Nat
  retiring : Bool := false
  aepoch : Nat := 0
  bound : Bool := false
  bind : Bytes := []
  memKey : Option Key := none
  kexSeed : Option Nat := none   -- which DRBG draw made its KEX pair
  former : Option (Key × Time × Nat × List Reply) := none -- former key, until when, SEQUENCE and reply it answers (R431)
  kexes : List Time := []        -- exchanges that needed decapsulation within 1 s (R429)
deriving DecidableEq, Repr

structure Security where
  levees : Tab Levee := []
  pufOk : Bool := true
  pufMargin : Bool := false
  pufCorr : BitVec 12 := 0
  dbg : BitVec 4 := 0
  wdResets : BitVec 8 := 0
  event : BitVec 7 := 0
  aepoch : BitVec 32 := 0        -- LEVEE_ADMIT commands accepted since power-on
  reports : Nat := 0             -- reports signed since power-on
  signed : List Time := []       -- reports signed within 1 s
  invocations : Tab Nat := []    -- levee × 16 + unit → GCM invocation counter (R433)
  tileIv : Tab Bytes := []       -- tile of a confidential levee → IV and tag (R433)
  measured : List (Nat × Bytes) := [] -- SVN and digest of measurements 0–5 (R445)
  dakGen : Nat := 0              -- derivations of DAK so far (R442)
  draws : Nat := 0               -- DRBG draws so far (R423)
  snapshot : List (GaugeKey × Nat) := [] -- gauges at the last 1 ms boundary (R440)
  snapAt : Time := 0
deriving DecidableEq, Repr

/-! ### Faults and lock cycles (14) -/

structure Fence where
  desc : Bytes                   -- Table FLT-3, REASON included
  auto : Bool
  time : Nat                     -- µs since the power-on instant
  serial : Nat                   -- which setting of it this is (Table FLT-11)
deriving DecidableEq, Repr

/-- Lock states (14 Table FLT-7), in the code order of HDW_LOCK.STATE. -/
inductive LockState where
  | idle | loading | loaded | armed | admitted | aborted
deriving DecidableEq, Repr

structure Shard where
  levee : Nat
  allot : Nat
  src : Nat
  off : Nat
  len : Nat
  status : Option Nat := none
  tiles : Nat := 0
deriving DecidableEq, Repr

structure Load where
  pkind : Nat
  af : Nat
  pid : Nat
  pqpn : Nat
  paddr : Ip
  laddr : Ip
  shards : List Shard
  at_ : Time                     -- last read of the partner issued or answered (R471)
deriving DecidableEq, Repr

structure Armed where
  counter : Nat
  levee : Nat
  target : Nat
  flip : Bool
  fences : List (Nat × Nat)      -- entry index and serial
  descs : List Bytes
deriving DecidableEq, Repr

structure Notice where
  event : Nat
  index : Nat
  desc : Bytes
  nseq : Nat
  time : Nat
  at_ : Time
  term : Nat
  sent : Nat := 0                -- transmissions so far
deriving DecidableEq, Repr

structure Faults where
  portFenceUs : BitVec 16 := 0x0064
  silentCredits : BitVec 8 := 0x10
  peerQueries : BitVec 4 := 0x3
  fences : Tab Fence := []
  serial : Nat := 0
  wanted : List (Bytes × Time) := [] -- automatic fences that found the table full (R452)
  downSince : Tab Time := []     -- per fabric port: when it left UP, until it is UP again or its automatic fence is set (R451)
  lock : LockState := .idle
  lockTotal : BitVec 8 := 0
  lockDone : BitVec 8 := 0
  load : Option Load := none
  armed : Option Armed := none
  event : BitVec 6 := 0          -- HDW_FAULT_EVENT
  notices : List Notice := []
  nseq : BitVec 32 := 0
  ret01 : BitVec 16 := 0         -- HDW_CULVERT.RET_01
  ret10 : BitVec 16 := 0
  replays : Tab (List Time) := [] -- direction × 16 + bundle → replays within 1 ms (01 R20)
  bundleDue : List Nat := []     -- bundles (direction × 16 + bundle) with more than 64 replays within some 1 ms (01 R20)
  ctlFail : BitVec 4 := 0        -- control lanes failed: bit direction × 2 + lane (01 R21)
deriving DecidableEq, Repr

/-! ### Power (15) -/

structure Power where
  sample : Sample := ⟨0, 0, 0⟩   -- last readings
  minMv : Nat := 12000           -- peak detector
  window : Bool := false         -- dip window open
  warnedAt : Time := 0
  halved : Bool := false
  riseAt : Option Time := none   -- input above 11.2 V since
  restoredAt : Option Time := none
  sustained : Bool := false      -- the present window is recorded as sustained
  lowInput : Bool := false
  frozenAt : Time := 0
  level : Nat := 0
  cause : BitVec 3 := 0
  droop : BitVec 2 := 0          -- dies whose last interval was over R485's limit
  lastStep : Time := 0           -- last change of level
  causeAt : Time := 0            -- last reading that kept the level from falling
  hotAt : Time := 0              -- last reading at 100 °C or more
  limitW : BitVec 12 := 0x76C
  dipMin : BitVec 12 := 0
  dipDur : BitVec 20 := 0
  event : BitVec 5 := 0
  stretch : BitVec 2 := 0        -- fast clocks of die d stretched (R484)
  inReset : Bool := false        -- held in supply or thermal reset
  resetCause : Nat := 0          -- code of the last RESET record
  cooling : Bool := false        -- in a thermal reset, until a release finds every sensor below 90 °C (R489)
  outAt : Time := 0              -- in reset: last reading out of the operating range
  lastOverRec : Option Time := none -- last RESET record written while in reset (R483)
deriving DecidableEq, Repr

/-! ### Start-up (16) -/

/-- Slot states (16 Table BOT-5). -/
inductive SlotState where
  | empty | failed | fallback | active | trial
deriving DecidableEq, Repr

/-- Boot modes (16 R496). -/
inductive BootMode where
  | normal | recovery | noIdentity
deriving DecidableEq, Repr

/-- What a flash slot holds of an image set: SVN, VERSION and digest of its three images (16 R502, R503). -/
structure ImageSet where
  st : SlotState
  svn : List Nat
  version : List Nat
  digest : List Bytes
deriving DecidableEq, Repr

/-- A settings copy (16 R505). -/
structure Settings where
  svn : Nat
  digest : Bytes
  operatorKey : Option Bytes
  ctrl : Tab Bytes               -- CONTROL_PORT records by GROUP
  eq : Tab Bytes                 -- MODULE_EQ entries by lane
  valid : Bool
deriving DecidableEq, Repr

structure Boot where
  mode : BootMode := .normal
  slot : Nat := 0                -- slot running
  a : ImageSet := ⟨.active, [0, 0, 0], [0, 0, 0], [[], [], []]⟩
  b : ImageSet := ⟨.empty, [], [], []⟩
  c0 : Option Settings := none
  c1 : Option Settings := none
  inForce : Option Nat := none   -- settings copy in force
  fallbackBoot : Bool := false
  postPass : Bool := true
  termCtr : Nat := 0             -- flash counters (16 R501)
  svnBoot : Nat := 0
  svnMc : Nat := 0
  svnTretu : Nat := 0
  settingsCtr : Nat := 0
  bootCtr : Nat := 1
  dirGen : Nat := 0
  stage0 : Tab Byte := []        -- bytes staged for TARGET 0 (16 R507)
  stage1 : Tab Byte := []
  clear0 : Bool := false         -- CLEAR given: unlisted bytes read 0xFF
  clear1 : Bool := false
  trialAt : Option Time := none  -- readiness that started the trial (16 R510)
  lastBeacon : Tab Time := []
  beaconCause : Nat := 0
deriving DecidableEq, Repr

/-! ### Health, ledger and recorder (17) -/

/-- A ledger record (17 Table HLT-1), its tag as written. -/
structure Rec where
  rseq : Nat
  time : Nat
  boot : Nat
  type : Nat
  flags : Nat
  count : Nat
  source : Nat
  lost : Nat
  body : Bytes
  tag : Bytes
deriving DecidableEq, Repr

/-- A running test or calibration (17 R522). -/
structure Test where
  kind : Nat
  id : Nat
  flags : Nat
  cal : Bool
  started : Time
  draining : Bool
  rerun : Bool := false
deriving DecidableEq, Repr

structure CaptureRec where
  trigger : Nat
  set : Nat
  trunc : Bool
  bytes : Bytes
  desc : Desc
  crcChecking : Word
deriving DecidableEq, Repr

structure RecArm where
  trigger : Nat
  set : Nat
  basin : Nat
  queue : Nat
  index : Nat
deriving DecidableEq, Repr

structure Replay where
  capture : Nat
  basin : Nat
  voff : Nat
  temp : Nat
  mhz : Nat
  repeats : Nat
deriving DecidableEq, Repr

structure Health where
  perm : List Rec := []
  ring : List Rec := []
  next : Nat := 0                -- RSEQ of the next record
  buf : List Rec := []           -- buffered records, oldest first
  lostNext : Nat := 0            -- discarded since the last record
  dropped : BitVec 16 := 0
  lostAtReset : Nat := 0
  totals : List Nat := [0, 0, 0, 0, 0] -- lifetime totals of POWER_ON
  lastMargin : Time := 0
  tests : List Test := []
  devicePassed : Bool := true    -- a device self-test passed since power-on (14 R467)
  retiredHalves : List Nat := []
  retiredLanes : List Nat := []
  retiredChannels : List Nat := []
  quarCount : BitVec 4 := 2
  quarHours : BitVec 12 := 0x018
  tfloor : BitVec 8 := 0x4B
  holdMs : BitVec 8 := 0x64
  event : BitVec 4 := 0
  suspects : List (Nat × Time × Nat × Nat) := [] -- basin, when, temperature, load pattern
  captures : Tab CaptureRec := []
  arm : Option RecArm := none
  replay : Option Replay := none
deriving DecidableEq, Repr

/-! ### What leaves the device -/

/-- What the device has sent or shown outside, oldest first. -/
inductive Out where
  | krytic (r : Reply)
  | frame (port : Nat) (f : Frame) (bad : Bool)      -- transmission ended; bad: with an invalid FCS
  | pfc (port : Nat) (smac : Nat) (cls : Nat) (quanta : Nat)
  | poolReply (die : Nat) (port : Nat) (cls : Nat) (net : Net) (opcode : Nat) (bytes : Bytes) -- header of Table MEM-6 and data
  | rdmaReply (req : RdmaReq) (ok : Bool) (nak : Nat) (timerNs : Nat) (data : Bytes)
  | trayOp (id : Nat) (va : Nat) (op : TrayOp)       -- va: the tray virtual address, BASE plus the offset (06 R210)
  | trayZero (tray : Nat) (va : Nat) (len : Nat)
  | phase (opcode : Nat) (dst : Nat) (bytes : Bytes) -- to the switch `dst`: header of Table MEM-13 and data
  | coh (die : Nat) (levee : Nat) (cls : Nat) (dst : Ip) (qpn : Nat) (qkey : Nat) (bytes : Bytes) -- a UD SEND of the die's engine (08 R251)
  | record (orig : Originator) (net : Net) (cls : Nat) (qkey : Nat) (bytes : Bytes) -- a UD SEND (10 R347)
  -- a UD SEND of a group, from its queue's SRC_IP and SRC_MAC (11 R358)
  | collective (die : Nat) (levee : Nat) (cls : Nat) (src : Ip) (smac : Nat) (dst : Ip) (qpn : Nat) (qkey : Nat) (bytes : Bytes)
  | notice (port : Nat) (cls : Nat) (net : Net) (qkey : Nat) (bytes : Bytes) -- a UD SEND (14 R459)
  | lockRead (shard : Nat) (dst : Ip) (qpn : Nat) (src : Ip) (levee : Nat) (pva : Nat) (len : Nat) -- P_READ of 14 R468
  | beacon (port : Nat) (smac : Nat) (bytes : Bytes)
  | tap (value : Word)
  | silence                                          -- every fabric port stopped transmitting (halt, supply reset)
deriving DecidableEq, Repr

/-- The whole machine. -/
structure State where
  pending : List Instr           -- steps waiting, first in first out
  now : Time
  fresh : List (Time × Nat × Nat) -- W1C bits the device set: instant, register address, bit; those of the last such instant (00 R12)
  free : Nat                     -- the model's own: how many free values have been drawn
  out : List Out                 -- the model's own record of what has left the device
  gauges : List (GaugeKey × Nat)
  kry : Krytic
  ports : Tab Port
  rows : Tab LinkRow             -- per port: the row of Table PRT-3 that governed its last change of state (03 R95)
  sw : Switch
  trf : Traffic
  mesh : Tab MeshDie             -- per die; unlisted: nothing delivered
  mem : Transport
  cis : Cistern
  coh : Coherence
  flm : Flumes
  bsn : Basins
  col : Collectives
  scr : Screen
  sec : Security
  flt : Faults
  pwr : Power
  boot : Boot
  hlt : Health
deriving DecidableEq, Repr

/-- A control port as the built-in defaults of 16 R506 leave it: copper cable, AN 1, one 200GbE lane, TRAIN_MS 1,000,
DEGRADE 0, negotiating. -/
def Port.controlDefault : Port :=
  { st := .negotiate, mode := 1, an := true, trainMs := 1000 }

/-- The image set a part is delivered with: the spec gives neither SVN, VERSION nor digest. -/
def firstImages : ImageSet :=
  ⟨.active, [0, 0, 0], [0, 0, 0], [Config.factoryDigest 1, Config.factoryDigest 2, Config.factoryDigest 3]⟩

/-- Measurements 0 to 5 of a first power-on without a settings copy (13 R445). -/
def firstMeasured : List (Nat × Bytes) :=
  [(0, Config.romDigest), (0, Config.factoryDigest 1), (0, Config.factoryDigest 2), (0, Config.factoryDigest 3),
   (0, Config.factoryDigest 4), (0, Config.shake256 Config.factoryOperatorKey 512)]

/-- The machine when the CSR space first becomes reachable after a first power-on (16 R513, Table BOT-6). -/
def State.reset : State where
  pending := []
  now := 0
  fresh := []
  free := 0
  out := []
  gauges := []
  kry := {}
  ports := [(512, Port.controlDefault), (513, Port.controlDefault), (514, Port.controlDefault),
            (515, Port.controlDefault)]
  rows := []
  sw := {}
  trf := {}
  mesh := []
  mem := {}
  cis := {}
  coh := {}
  flm := {}
  bsn := {}
  col := {}
  scr := {}
  sec := { measured := firstMeasured }
  flt := {}
  pwr := {}
  boot := { a := firstImages }
  hlt := {}

/-- Why a step would stop the machine. The spec gives every operation of the table an effect, so no meaning raises
one; the type is kept for the interface. -/
inductive Fault where
  /-- Raised by no meaning: no step of the spec ends the machine without a state. Safe. -/
  | stopped
deriving DecidableEq, Repr

/-- Why a command has no meaning. -/
inductive Refusal where
  /-- Raised only by an arm of the dispatcher whose row is not modelled yet. Safe. -/
  | notModelled (mnemonic : String)
deriving DecidableEq, Repr

end Sys2Proof.Machine
end

