-- ==== Sys2Proof/Machine/Ops.lean ====
section
/-! DEFINITION. The operations every block shares: the clock, free values, gauges, the ledger's buffer, fence notices and
fence tests, levee lookups, and the constants of 02 Table KCP-7. -/

namespace Sys2Proof.Machine

/-! ### Status codes (02 Table KCP-7) -/

abbrev St.ok : Nat := 0x00
abbrev St.deferred : Nat := 0x01
abbrev St.badOpcode : Nat := 0x10
abbrev St.badParam : Nat := 0x11
abbrev St.badLength : Nat := 0x12
abbrev St.staleTerm : Nat := 0x20
abbrev St.noLease : Nat := 0x21
abbrev St.leveeDenied : Nat := 0x30
abbrev St.guardReject : Nat := 0x31
abbrev St.confLock : Nat := 0x32
abbrev St.busy : Nat := 0x40
abbrev St.tableBusy : Nat := 0x41
abbrev St.exhausted : Nat := 0x42
abbrev St.versionConflict : Nat := 0x50
abbrev St.extentRevoked : Nat := 0x51
abbrev St.lineLost : Nat := 0x52
abbrev St.poolLost : Nat := 0x60
abbrev St.stateLost : Nat := 0x61
abbrev St.fenced : Nat := 0x62
abbrev St.part : Nat := 0x63
abbrev St.tileCheck : Nat := 0x70
abbrev St.blockCheck : Nat := 0x71
abbrev St.dipRetry : Nat := 0x72
abbrev St.internal : Nat := 0xF0

/-! ### Time, outputs, free values -/

/-- The instant of a step: time never runs backward. -/
def State.tick (s : State) (t : Time) : State := { s with now := max s.now t }

/-- µs since the power-on instant (16 R551). -/
def State.usec (s : State) : Nat := s.now / us 1

/-- The device sets W1C bit `bit` of the register at `addr`, at this instant (00 R12). -/
def State.mark (s : State) (addr bit : Nat) : State :=
  { s with fresh := (s.fresh.filter fun e => e.1 == s.now) ++ [(s.now, addr, bit)] }

/-- The W1C bits of a register that the device set at this very instant: a write of the same instant leaves them set
(00 R12). -/
def heldBits (s : State) (addr : Nat) : Nat :=
  (s.fresh.filter fun e => e.1 == s.now && e.2.1 == addr).foldl (fun m e => m ||| 2 ^ e.2.2) 0

/-- Addresses of the event registers (00 R10, 03 R113 and the register maps of the other chapters). -/
abbrev Reg.fault : Nat := 0xCC
abbrev Reg.sec : Nat := 0x09000010
abbrev Reg.pwr : Nat := 0x0A000010
abbrev Reg.hlt : Nat := 0x0B000018
abbrev Reg.col : Nat := 0x04200004
def Reg.port (p : Nat) : Nat := 0x01000004 + p * 0x1000
def Reg.basin (b : Nat) : Nat := 0x07000010 + b * 0x10000
def Reg.mesh (d : Nat) : Nat := 0x03000000 + d * 0x800000
def Reg.cis (d : Nat) : Nat := 0x0500000C + d * 0x800000
def Reg.coh (d : Nat) : Nat := 0x0600000C + d * 0x800000
def Reg.scr (d : Nat) : Nat := 0x08000008 + d * 0x800000

/-- Record what leaves the device. -/
def State.emit (s : State) (o : Out) : State := { s with out := s.out ++ [o] }

/-- The next free value (assumption 3). -/
def State.peekFree (s : State) : Nat := Config.freeNat s.free

/-- The state once the next free value has been drawn. -/
def State.drawn (s : State) : State := { s with free := s.free + 1 }

/-- `n` free bytes. -/
def State.freeBytes (s : State) (n : Nat) : Bytes := toBe n (Config.freeNat s.free)

/-! ### Gauges (17 R520, R530) -/

/-- The value of a gauge; one never counted reads zero. -/
def gaugeVal (g : List (GaugeKey × Nat)) (k : GaugeKey) : Nat :=
  match g with
  | [] => 0
  | (j, v) :: r => if j = k then v else gaugeVal r k

/-- Gauges wrap modulo 2^64. -/
def gaugeAdd (g : List (GaugeKey × Nat)) (k : GaugeKey) (n : Nat) : List (GaugeKey × Nat) :=
  match g with
  | [] => [(k, n % 2 ^ 64)]
  | (j, v) :: r => if j = k then (j, (v + n) % 2 ^ 64) :: r else (j, v) :: gaugeAdd r k n

/-- Add `n` to a gauge. -/
def State.count (s : State) (k : GaugeKey) (n : Nat) : State :=
  { s with gauges := if n = 0 then s.gauges else gaugeAdd s.gauges k n }

/-- A gauge of set `set`, row `row`, index `idx`, with its objects. -/
def gk (set row idx : Nat) (a : Nat := 0) (b : Nat := 0) (c : Nat := 0) : GaugeKey := ⟨set, row, idx, a, b, c⟩

/-! ### Levees -/

/-- The levee is admitted; a retiring one still is (13 R421). Levee 0 always is. -/
def State.admitted (s : State) (l : Nat) : Bool := l == 0 || (Tab.get? s.sec.levees l).isSome

def State.retiring (s : State) (l : Nat) : Bool := ((Tab.get? s.sec.levees l).map (·.retiring)).getD false

def State.confidential (s : State) (l : Nat) : Bool := ((Tab.get? s.sec.levees l).map (·.confidential)).getD false

/-- SEC_STATUS.CONF_COUNT (13 Table SEC-10). -/
def State.confCount (s : State) : Nat := (s.sec.levees.filter (fun e => e.2.confidential)).length

/-- SEC_STATUS.CONF_ACTIVE (13 R438). -/
def State.confActive (s : State) : Bool := s.confCount != 0

/-! ### The ledger's buffer (17 R515–R518) -/

/-- Record types kept in the permanent area (Table HLT-2, column P). -/
def permType (type : Nat) : Bool :=
  [0x0001, 0x0002, 0x0010, 0x0022, 0x0033, 0x0041, 0x0051].contains type

/-- SOURCE of a record (Table HLT-1). -/
def srcOf (kind n : Nat) : Nat := kind * 2 ^ 28 + n % 2 ^ 28

/-- Ring records of the buffer. -/
def ringCount (b : List Rec) : Nat := (b.filter (fun r => !permType r.type)).length

/-- Change the last element that satisfies a test. -/
def updLast {α : Type} (p : α → Bool) (f : α → α) (l : List α) : Option (List α) :=
  match l with
  | [] => none
  | a :: r =>
    match updLast p f r with
    | some r' => some (a :: r')
    | none => if p a then some (f a :: r) else none

/-- Remove the last element that satisfies a test. -/
def dropLastSat {α : Type} (p : α → Bool) (l : List α) : Option (List α) :=
  match l with
  | [] => none
  | a :: r =>
    match dropLastSat p r with
    | some r' => some (a :: r')
    | none => if p a then some r else none

/-- The record as it enters the buffer; RSEQ, LOST and TAG are given when it is written. -/
def mkRec (s : State) (type source : Nat) (body : Bytes) : Rec :=
  { rseq := 0, time := s.usec, boot := s.boot.bootCtr, type := type, flags := ofBool (permType type), count := 1,
    source := source, lost := 0, body := slice body 0 80, tag := [] }

/-- A discarded record is counted in LOST of the next record written and in DROPPED. -/
def ledgerDiscard (s : State) : State :=
  { s with hlt := { s.hlt with lostNext := s.hlt.lostNext + 1, dropped := s.hlt.dropped + 1 } }.count (gk 0x0D 0 2) 1

/-- An event reaches the buffer: coalesced, buffered, displacing a ring record, or discarded (17 R518). -/
def State.ledger (s : State) (type source : Nat) (body : Bytes) : State :=
  let r := mkRec s type source body
  let b := s.hlt.buf
  if permType type then
    if b.length < 512 then { s with hlt := { s.hlt with buf := b ++ [r] } }
    else match dropLastSat (fun x : Rec => !permType x.type) b with
      | some b' => ledgerDiscard { s with hlt := { s.hlt with buf := b' ++ [r] } }
      | none => ledgerDiscard s
  else
    let fits (x : Rec) : Bool :=
      !permType x.type && x.type == type && x.source == source && decide (s.usec < x.time + 1000000)
    match b.reverse.find? fits with
    | some x =>
      if x.count < 255 then
        match updLast fits (fun y => { y with count := y.count + 1 }) b with
        | some b' => { s with hlt := { s.hlt with buf := b' } }.count (gk 0x0D 0 1) 1
        | none => s
      else if ringCount b < 448 ∧ b.length < 512 then { s with hlt := { s.hlt with buf := b ++ [r] } }
      else ledgerDiscard s
    | none =>
      if ringCount b < 448 ∧ b.length < 512 then { s with hlt := { s.hlt with buf := b ++ [r] } }
      else ledgerDiscard s

/-- Take the last record of a type and source back out of the buffer: one event of it, or the record (03 R95). -/
def State.unledger (s : State) (type source : Nat) : State :=
  match updLast (fun x : Rec => x.type == type && x.source == source) (fun x => { x with count := x.count - 1 }) s.hlt.buf with
  | none => s
  | some l => { s with hlt := { s.hlt with buf := l.filter fun x => x.count != 0 } }

/-- The RSEQ a record entering the buffer now will take if nothing is discarded before it is written. -/
def State.nextRseq (s : State) : Nat := s.hlt.next + s.hlt.buf.length

/-- The records of the ledger body: `(offset, width, value)` with record offsets (Table HLT-2). -/
def recBody (fs : List (Nat × Nat × Nat)) : Bytes :=
  fs.foldl (fun b f => splice b (f.1 - 32) (toLe f.2.1 f.2.2)) (zeros 80)

/-! ### Fences (14) -/

def Fence.kind (f : Fence) : Nat := byteAt f.desc 0
def Fence.levee (f : Fence) : Nat := be f.desc 2 2 % 1024
def Fence.af (f : Fence) : Nat := byteAt f.desc 4
def Fence.mkind (f : Fence) : Nat := byteAt f.desc 5
def Fence.id (f : Fence) : Nat := be f.desc 8 4
def Fence.addr (f : Fence) : Ip := ⟨byteAt f.desc 4, be f.desc 16 16⟩

/-- A descriptor of Table FLT-3. -/
def fenceDesc (kind reason levee af mkind id : Nat) (addr : Nat) : Bytes :=
  toBe 1 kind ++ toBe 1 reason ++ toBe 2 levee ++ toBe 1 af ++ toBe 1 mkind ++ zeros 2 ++ toBe 4 id ++ zeros 4 ++
    toBe 16 addr

def State.fencedBy (s : State) (p : Fence → Bool) : Bool := s.flt.fences.any (fun e => p e.2)

def State.portFenced (s : State) (p : Nat) : Bool := s.fencedBy fun f => f.kind == 1 && f.id == p

def State.addrFenced (s : State) (a : Ip) : Bool := s.fencedBy fun f => f.kind == 2 && f.af != 0 && f.addr == a

def State.endpointFenced (s : State) (e : Nat) : Bool :=
  s.fencedBy fun f => f.kind == 2 && f.id != 0xFFFFFFFF && f.id == e

def State.trayFenced (s : State) (t : Nat) : Bool := s.fencedBy fun f => f.kind == 3 && f.id == t

def State.switchFenced (s : State) (w : Nat) : Bool := s.fencedBy fun f => f.kind == 4 && f.id == w

/-- A composition of the levee with a member (MKIND 3 tray, 4 switch) is fenced. -/
def State.compFenced (s : State) (l mkind m : Nat) : Bool :=
  s.fencedBy fun f => f.kind == 5 && f.levee == l && f.mkind == mkind && f.id == m

/-- The device has halted (14 R465). -/
def State.halted (s : State) : Bool := s.flt.event.getLsbD 5

/-- A fence notice is owed: NSEQ rises by one per event (14 R459). -/
def State.notify (s : State) (event index : Nat) (desc : Bytes) : State :=
  let n : Notice :=
    { event := event, index := index, desc := desc, nseq := s.flt.nseq.toNat, time := s.usec, at_ := s.now,
      term := s.kry.lease.term }
  { s with flt := { s.flt with nseq := s.flt.nseq + 1, notices := s.flt.notices ++ [n] } }

/-- Set bits of HDW_FAULT_EVENT. -/
def State.faultEvent (s : State) (bit : Nat) : State := ({ s with flt := { s.flt with event := setBit s.flt.event bit } }).mark Reg.fault bit

/-- Set bits of SEC_EVENT. -/
def State.secEvent (s : State) (bit : Nat) : State := ({ s with sec := { s.sec with event := setBit s.sec.event bit } }).mark Reg.sec bit

/-! ### Ports -/

/-- A port as configured; an unlisted fabric port is DISABLED and not configured (03 R83). -/
def State.port (s : State) (p : Nat) : Port := Tab.getD s.ports p {}

def State.setPort (s : State) (p : Nat) (q : Port) : State := { s with ports := Tab.set s.ports p q }

/-- Change a port. -/
def State.modPort (s : State) (p : Nat) (f : Port → Port) : State := s.setPort p (f (s.port p))

/-- The port's own MAC address (03 R552): 02, bytes 0–2 of DEVID or zero in NO_IDENTITY, and the port number. -/
def State.portMac (s : State) (p : Nat) : Nat :=
  be ([0x02] ++ (if s.boot.mode == .noIdentity then zeros 3 else slice Config.devid 0 3) ++ toBe 2 p) 0 6

/-- Set a bit of a port's PRT_EVENT. -/
def State.portEvent (s : State) (p bit : Nat) : State :=
  (s.modPort p fun q => { q with event := setBit q.event bit }).mark (Reg.port p) bit

/-- Set a bit of HLT_EVENT. -/
def State.hltEvent (s : State) (bit : Nat) : State := ({ s with hlt := { s.hlt with event := setBit s.hlt.event bit } }).mark Reg.hlt bit

/-- Set a bit of PWR_EVENT. -/
def State.pwrEvent (s : State) (bit : Nat) : State := ({ s with pwr := { s.pwr with event := setBit s.pwr.event bit } }).mark Reg.pwr bit

def State.portUp (s : State) (p : Nat) : Bool := (s.port p).st == .up

/-- A port exists only while it is configured (03 R83). -/
def State.portExists (s : State) (p : Nat) : Bool := (s.port p).mode != 0

/-- A die's mesh. -/
def State.meshDie (s : State) (d : Nat) : MeshDie := Tab.getD s.mesh d {}

/-! ### Versions of the two-version tables (04 R121, R125) -/

def State.table (s : State) (k : Nat) : SwTable := Tab.getD s.sw.tables k {}

def State.setTable (s : State) (k : Nat) (t : SwTable) : State :=
  { s with sw := { s.sw with tables := Tab.set s.sw.tables k t } }

/-- Entries of version `v`. -/
def SwTable.entries (t : SwTable) (v : Nat) : List Entry := if v = 0 then t.v0 else t.v1

def SwTable.inflight (t : SwTable) (v : Nat) : Nat := if v = 0 then t.infl0 else t.infl1

def SwTable.setInflight (t : SwTable) (v n : Nat) : SwTable :=
  if v = 0 then { t with infl0 := n } else { t with infl1 := n }

/-- A request or chain stamped with version `v` of table `k` begins or ends (04 R127). -/
def State.inflightAdd (s : State) (k v : Nat) : State :=
  let t := s.table k
  s.setTable k (t.setInflight v (t.inflight v + 1))

def State.inflightSub (s : State) (k v : Nat) : State :=
  let t := s.table k
  s.setTable k (t.setInflight v (t.inflight v - 1))

end Sys2Proof.Machine
end

