-- ==== Sys2Proof/Machine/Krytic.lean ====
section
/-! DEFINITION. Krytic commands: opcode table, sessions, replies, the order of checks of 02 Table KCP-3, queues, and what
a command's body answers with. -/

namespace Sys2Proof.Machine

/-! ### The opcode table (02 Table KCP-9) -/

/-- Who may send an opcode, and its U and F marks. -/
structure OpInfo where
  mgr : Bool
  ten : Bool
  urgent : Bool
  frag : Bool
deriving DecidableEq, Repr

/-- The opcodes of Table KCP-9; any other value is unassigned (R68). -/
def opInfo (op : Nat) : Option OpInfo :=
  if [0x0101, 0x0503, 0x0507, 0x0605, 0x0705, 0x0804, 0x0904, 0x0905, 0x0A02, 0x0A03].contains op then
    some ⟨true, true, false, false⟩
  else if [0x0903, 0x0A01, 0x0B01, 0x0C03].contains op then some ⟨true, true, false, true⟩
  else if op = 0x0105 then some ⟨true, true, true, false⟩
  else if [0x0602, 0x0603, 0x0604, 0x0B02].contains op then some ⟨false, true, false, false⟩
  else if [0x0111, 0x0130, 0x0703].contains op then some ⟨true, false, true, false⟩
  else if [0x0203, 0x0301, 0x0C04, 0x0D02].contains op then some ⟨true, false, false, true⟩
  else if [0x0102, 0x0103, 0x0104, 0x0110, 0x0112, 0x0120, 0x0121, 0x0122, 0x0131, 0x0140, 0x0141, 0x0201, 0x0202,
      0x0204, 0x0205, 0x0302, 0x0303, 0x0304, 0x0305, 0x0401, 0x0402, 0x0403, 0x0404, 0x0405, 0x0501, 0x0502, 0x0504,
      0x0505, 0x0506, 0x0601, 0x0701, 0x0702, 0x0704, 0x0801, 0x0802, 0x0803, 0x0805, 0x0806, 0x0901, 0x0902, 0x0A04,
      0x0B03, 0x0B04, 0x0C01, 0x0C02, 0x0C05, 0x0D01, 0x0D03].contains op then some ⟨true, false, false, false⟩
  else none



/-! ### Sessions (02 R45–R50) -/

/-- The levee of a tenant's packet; none for the manager (02 R60, R62). -/
def tenant (r : KReq) : Option Nat :=
  match r.sess with
  | .levee l => some l
  | _ => none

/-- The key a session's packets and replies are tagged under. -/
def State.sessKey (s : State) (x : Sess) : Option Key :=
  match x with
  | .lease => s.kry.lease.key
  | .preceding => s.kry.lease.prevKey
  | .levee l => Tab.get? s.kry.keys l

def State.session (s : State) (x : Sess) : Session :=
  match x with
  | .lease => s.kry.cur
  | .preceding => s.kry.prev
  | .levee l => Tab.getD s.kry.levees l {}

def State.setSession (s : State) (x : Sess) (v : Session) : State :=
  match x with
  | .lease => { s with kry := { s.kry with cur := v } }
  | .preceding => { s with kry := { s.kry with prev := v } }
  | .levee l => { s with kry := { s.kry with levees := Tab.set s.kry.levees l v } }

/-- Where a sequence lies relative to a window ending at `h` (R49): above, inside, below. -/
inductive WinPos where
  | above | inside | below
deriving DecidableEq, Repr

def winPos (h : Option Nat) (q : Nat) : WinPos :=
  match h with
  | none => .above
  | some h =>
    let d := (q % 2 ^ 32 + 2 ^ 32 - h % 2 ^ 32) % 2 ^ 32
    if d = 0 ∨ 2 ^ 32 - 63 ≤ d then .inside else if d < 2 ^ 31 then .above else .below

/-- A sequence is taken: the window advances and forgets what falls out of it. -/
def Session.take (x : Session) (q : Nat) : Session :=
  let h := if winPos x.high q == .above then some q else x.high
  { x with
    high := h,
    seen := q :: x.seen.filter (fun e => winPos h e == .inside),
    cache := x.cache.filter (fun e => winPos h e.1 == .inside) }

/-- A reply is cached under each sequence of its request (R50, R44). -/
def Session.put (x : Session) (qs : List Nat) (rs : List Reply) : Session :=
  { x with cache := qs.foldl (fun c q => Tab.set c q rs) x.cache }

/-! ### Replies (02 R39, R41, R43) -/

/-- The 32-byte header of a reply packet (Tables KCP-1 and KCP-2): REPLY set, MORE as given, the request's OPCODE, LEVEE,
TERM, SEQUENCE and TAG echoed. -/
def replyHeader (r : KReq) (status plen : Nat) (more : Bool) : Bytes :=
  toBe 2 0x4B59 ++ [0x01] ++ toBe 1 (1 + 2 * ofBool more) ++ toBe 2 r.opcode ++ toBe 2 (r.levee % 1024) ++ toBe 4 r.term ++
    toBe 4 r.seq ++ toBe 2 status ++ toBe 2 plen ++ toBe 4 r.tag ++ zeros 8

/-- The authentication tag of a packet: KMAC256(K, header and parameters, 128, "KRYTIC") (R45). -/
def kryticTag (k : Key) (x : Bytes) : Bytes := Config.kmac k x 128 "KRYTIC"

/-- The packets of a reply: fragment `i` of `fs` as header, parameters and tag, MORE set on all but the last (R41, R43). -/
def replyPackets (r : KReq) (k : Key) (status : Nat) (fs : List Bytes) : List Bytes :=
  (List.range fs.length).map fun i =>
    let p := fs.getD i []
    let x := replyHeader r status p.length (decide (i + 1 < fs.length)) ++ p
    x ++ kryticTag k x

/-- The parameters of a reply's packets, padded to 8; those of a fragmented opcode follow their fragment word (R43). -/
def replyParams (r : KReq) (frags : List Bytes) : List Bytes :=
  let fs := if frags.isEmpty then [[]] else frags
  if (opInfo r.opcode).elim false (·.frag) then
    (List.range fs.length).map fun i => toBe 2 i ++ toBe 2 fs.length ++ zeros 4 ++ pad8 (fs.getD i [])
  else fs.map pad8

/-- The reply to a request: to the mirror of its addresses, in its class (R39), its packets tagged under `key`. -/
def mkReply (r : KReq) (key : Option Key) (status : Nat) (frags : List Bytes) : Reply :=
  let fs := replyParams r frags
  { port := r.port, net := r.net.mirror, cls := r.cls, key := key, opcode := r.opcode, levee := r.levee, term := r.term,
    seq := r.seq, tag := r.tag, status := status, frags := fs,
    packets := key.elim [] fun k => replyPackets r k status fs }

/-- The active transmit association of a port: SCI, AN and the association (03 R102). -/
def Port.txSa (q : Port) : Option (Nat × Nat × Sa) :=
  match q.tx with
  | some (sci, sas, some an) => (Tab.get? sas an).map fun sa => (sci, an, sa)
  | _ => none

/-- A transmit SA is active on the port (03 R102). -/
def Port.txSecure (q : Port) : Bool := q.txSa.isSome

/-- First packet number past the space of a suite (03 R104): 0x01 GCM-AES-256, 0x02 XPN. -/
def pnEnd (suite : Nat) : Nat := if suite = 1 then 2 ^ 32 else 2 ^ 64

/-- Three quarters of the space. -/
def pnWarn (suite : Nat) : Nat := if suite = 1 then 0xC0000000 else 0xC000000000000000

/-- The space of the active association is exhausted. -/
def Port.pnSpent (q : Port) : Bool := q.txSa.elim false fun x => decide (pnEnd x.2.2.suite ≤ x.2.2.nextPn)

/-- Take the next packet number of a port's active association; WARN is raised once it has reached three quarters of its
space, EXHAUSTED as it reaches the end (03 R104). -/
def State.takePn (s : State) (p : Nat) : State :=
  match (s.port p).tx, (s.port p).txSa with
  | some (sci, sas, act), some (_, an, sa) =>
    let n := sa.nextPn + 1
    let warn := decide (pnWarn sa.suite ≤ n) && !sa.warned
    let sa := { sa with nextPn := n, warned := sa.warned || warn }
    let s := s.modPort p fun q => { q with tx := some (sci, Tab.set sas an sa, act) }
    let s := if warn then s.portEvent p 7 else s
    if n = pnEnd sa.suite then s.portEvent p 8 else s
  | _, _ => s

/-- Bytes of a frame that carries `n` bytes of RoCEv2 UD payload, destination address through FCS (IEEE 802.3, IP, UDP, BTH,
DETH, ICRC; PRESUMED, assumption 92). -/
def udFrameLen (a : Net) (n : Nat) : Nat :=
  max 64 (14 + (if a.vlan.isSome then 4 else 0) + (if a.dstIp.af = 4 then 20 else 40) + 8 + 12 + 8 + n + 4 + 4)

/-- A frame of `len` bytes leaves a control port: under the next packet number, counted in TX_FRAMES and TX_BYTES; discarded
and counted when the numbers are spent (03 R104, R114). Answers whether it left. -/
def State.controlSend (s : State) (p len : Nat) : State × Bool :=
  if (s.port p).pnSpent then (s.count (gk 0 0 37 p) 1, false)
  else (((s.takePn p).count (gk 0 0 2 p) 1).count (gk 0 0 3 p) len, true)

/-- The packets of a reply leave its control port one after the other; those discarded are not in the reply sent. -/
def State.controlReply (s : State) (rp : Reply) : State :=
  let r := rp.frags.foldl (fun (a : State × List Bool) f =>
    let x := a.1.controlSend rp.port (udFrameLen rp.net (48 + f.length))
    (x.1, a.2 ++ [x.2])) (s, [])
  if r.2.all id then r.1.emit (.krytic rp)
  else if r.2.any id then r.1.emit (.krytic { rp with packets := ((rp.packets.zip r.2).filter (·.2)).map (·.1) })
  else r.1

/-- A reply leaves on the port of its request, or is lost when that port is not UP (R39) or no key tags it (R51). One to a
confidential levee leaves only under MACsec (13 R435). A reply on a fabric port is a frame of the headworks, which
INTERNAL_FRAME_ENQUEUE brings to the port (04 R117). -/
def State.sendReply (s : State) (rp : Reply) : State :=
  if rp.key.isSome && s.portUp rp.port && !(s.halted && rp.port < 512) then
    if s.confidential rp.levee && !(s.port rp.port).txSecure then (s.count (gk 0x0A 1 0 rp.port) 1).secEvent 5
    else if 512 ≤ rp.port then s.controlReply rp
    else s.emit (.krytic rp)
  else s

/-- Keep a reply under the sequences of its request, while the session exists (R44, R50). -/
def State.cacheReply (s : State) (r : KReq) (rp : Reply) : State :=
  if (s.sessKey r.sess).isSome then s.setSession r.sess ((s.session r.sess).put (r.seq :: r.seqs) [rp]) else s

/-- Answer a request: cache the reply under its sequences and send it. -/
def State.answer (s : State) (r : KReq) (key : Option Key) (status : Nat) (frags : List Bytes) : State :=
  let rp := mkReply r key status frags
  (s.cacheReply r rp).sendReply rp

/-- Sends again what is cached, to where the retransmission came from: the mirror of its own addresses. -/
def State.resend (s : State) (r : KReq) (rs : List Reply) : State :=
  rs.foldl (fun s rp => s.sendReply { rp with port := r.port, net := r.net.mirror, cls := r.cls }) s

/-! ### What a command's body answers (02 R63–R65, R80) -/

/-- The outcome of a command's execution. `work` is what remains: after a DEFERRED reply when `status` is DEFERRED,
otherwise the command goes on executing and its only reply is still to come (R63). -/
structure Ans where
  s : State
  status : Nat
  frags : List Bytes := []
  work : Option Work := none
  key : Option Key := none      -- key of the reply where it is not the session's (13 R430, R431)
  silent : Bool := false        -- no reply
  after : State → State := id   -- what follows the reply (03 R91)

/-- A command's body: its effect at execution on the state it meets. -/
abbrev Body := KReq → State → Ans

/-- A refusal by status, changing nothing. -/
def refuse (s : State) (status : Nat) : Ans := { s := s, status := status }

/-- Done: OK with reply parameters. -/
def done (s : State) (frags : List Bytes := []) : Ans := { s := s, status := St.ok, frags := frags }

/-- Accepted and still executing. -/
def defer (s : State) (w : Work) : Ans := { s := s, status := St.deferred, work := some w }

/-- A guard refusal: nothing changes but the ledger, and the reply carries the invariant (R80). -/
def guardReject (s : State) (r : KReq) (levee inv : Nat) : Ans :=
  { s := s.ledger 0x0020 (srcOf 7 levee) (recBody [(32, 2, r.opcode), (34, 2, levee), (36, 2, inv)]),
    status := St.guardReject, frags := [toBe 2 inv ++ zeros 6] }

/-- Run the checks in order: the first one that fails decides (02 R52). -/
def checks (s : State) (cs : List (Bool × Nat)) (k : Unit → Ans) : Ans :=
  match cs with
  | [] => k ()
  | (bad, st) :: r => if bad then refuse s st else checks s r k

/-! ### Steps 5 to 11 (02 Table KCP-3) -/

/-- Step 6: the lease state, for levee 0 (Table KCP-5). -/
def chkLease (r : KReq) (s : State) : Option Nat :=
  match r.sess with
  | .preceding => some St.staleTerm
  | .lease =>
    if s.kry.lease.st == .held && decide (s.now < s.kry.lease.expiry) then none else some St.noLease
  | .levee _ => none

/-- Step 7: TERM. -/
def chkTerm (r : KReq) (s : State) : Option Nat :=
  match r.sess with
  | .levee _ => if r.term = 0 then none else some St.badParam
  | _ =>
    if r.term = s.kry.lease.term then none else if r.term < s.kry.lease.term then some St.staleTerm else some St.badParam

/-- Step 9: levee admitted, opcode permitted to it. -/
def chkLevee (r : KReq) (s : State) : Option Nat :=
  match opInfo r.opcode with
  | none => some St.badOpcode
  | some i =>
    match r.sess with
    | .levee l => if s.admitted l && i.ten then none else some St.leveeDenied
    | _ => if i.mgr then none else some St.leveeDenied

/-- What a halted device (14 R465) or one in RECOVERY (16 R498) answers INTERNAL. -/
def chkServed (r : KReq) (s : State) : Option Nat :=
  let p := r.frags.headD []
  if s.halted then
    if r.sess == .lease && [0x0101, 0x0102, 0x0C03, 0x0C04].contains r.opcode then none else some St.internal
  else if s.boot.mode == .recovery then
    if [0x0105, 0x0110, 0x0111, 0x0112, 0x0101, 0x0C04, 0x0B03, 0x0B04].contains r.opcode then none
    else if r.opcode = 0x0102 ∧ [0x00, 0x09, 0x0B].contains (byteAt p 0) then none
    else if r.opcode = 0x0B01 ∧ 1 ≤ byteAt p 8 ∧ byteAt p 8 ≤ 3 then none
    else some St.internal
  else none

/-- The registers a CSR command would write, as (address, mask, value). -/
def csrWrites (r : KReq) : List (Nat × Nat × Nat) :=
  let p := r.frags.headD []
  if r.opcode = 0x0103 then
    (List.range (be p 4 2)).map fun i => (be p 0 4 + 4 * i, 0xFFFFFFFF, be p (8 + 4 * i) 4)
  else if r.opcode = 0x0104 then [(be p 0 4, be p 8 4, be p 12 4)]
  else []

/-- A write that would set an enable of 13 Table SEC-6. -/
def setsDebug (w : Nat × Nat × Nat) : Bool :=
  let v := w.2.1 &&& w.2.2
  (w.1 == 0x09000004 && v % 16 != 0) ||
  (decide (0x07000000 ≤ w.1) && decide (w.1 < 0x08000000) && w.1 % 0x10000 == 0 && (bitOf v 31 || bitOf v 30))

/-- Step 11: the confidential lock (R70, 13 R437). -/
def chkConf (r : KReq) (s : State) : Option Nat :=
  let p := r.frags.headD []
  let mgr := (tenant r).isNone
  let conf (l : Nat) : Bool := mgr && s.confidential l
  let range := if r.opcode = 0x0102 ∨ r.opcode = 0x0103 then (be p 0 4, be p 0 4 + 4 * be p 4 2 - 1)
               else (be p 0 4, be p 0 4)
  let rec_ := decide (range.1 < 0x0D000000) && decide (0x0C000000 ≤ range.2)
  let locked :=
    (s.confActive &&
      ([0x0D01, 0x0D02, 0x0D03].contains r.opcode ||
       ([0x0102, 0x0103, 0x0104].contains r.opcode && rec_) ||
       (csrWrites r).any setsDebug)) ||
    (r.opcode == 0x0A01 && byteAt p 9 == 1 && conf (be p 12 2 % 1024)) ||
    (r.opcode == 0x0A02 && byteAt p 0 == 1 && conf (be p 2 2 % 1024)) ||
    (r.opcode == 0x0A03 && byteAt p 0 == 1 && conf (be p 2 2 % 1024)) ||
    (r.opcode == 0x0903 && conf (be p 12 2 % 1024)) ||
    (r.opcode == 0x0804 && (Tab.get? s.flm.turns (be p 0 2)).elim false fun x => conf x.levee)
  if locked then some St.confLock else none

/-- The first of several checks that fails. -/
def firstFail (l : List (Option Nat)) : Option Nat := (l.filterMap id).head?

/-- Steps 5 to 11, made at arrival. DESIGN CHOICE (assumption 91): the spec gives no place among the steps of Table KCP-3 to
the INTERNAL of a halted device (14 R465) or of RECOVERY (16 R498); here it follows step 9 and precedes step 10. -/
def chkArrival (r : KReq) (s : State) : Option Nat :=
  firstFail [
    if r.version = 1 then none else some St.badOpcode,
    chkLease r s, chkTerm r s,
    if (opInfo r.opcode).isSome then none else some St.badOpcode,
    chkLevee r s, chkServed r s,
    if r.urgent && !((opInfo r.opcode).elim false (·.urgent)) then some St.badParam else none,
    chkConf r s]

/-- Steps 6, 7, 9 and 11, made again when the command begins (R63). -/
def chkBegin (r : KReq) (s : State) : Option Nat :=
  firstFail [chkLease r s, chkTerm r s, chkLevee r s, chkServed r s, chkConf r s]

/-! ### Execution (02 R63–R65) -/

/-- Take the outcome of a body: send its reply, or keep the command executing, with the key its final reply is due under. -/
def finish (r : KReq) (a : Ans) : State :=
  let key := if a.key.isSome then a.key else a.s.sessKey r.sess
  match a.work with
  | none => a.after (if a.silent then a.s else a.s.answer r key a.status a.frags)
  | some w =>
    let run : Running := { req := r, key := if a.silent then none else key, work := w }
    if a.status = St.deferred then
      let s := if a.silent then a.s else a.s.answer r key a.status a.frags
      a.after { s with kry := { s.kry with deferred := s.kry.deferred ++ [run] } }
    else a.after { a.s with kry := { a.s.kry with executing := some run } }

/-- The final reply of a command that had work left, where the device still holds its key; while the controller is not
ready it waits (R64). -/
def State.finalReply (s : State) (run : Running) (status : Nat) (frags : List Bytes) : State :=
  if run.key.isNone then s
  else if s.kry.ready then s.answer run.req run.key status frags
  else { s with kry := { s.kry with owed := s.kry.owed ++ [(run.req, mkReply run.req run.key status frags)] } }

/-- The work `w` has ended: its command's final reply is due. -/
def State.workDone (s : State) (w : Work → Bool) (status : Nat) (frags : List Bytes) : State :=
  let ends := s.kry.deferred.filter (fun x => w x.work)
  let s := { s with kry := { s.kry with deferred := s.kry.deferred.filter (fun x => !w x.work) } }
  let s := ends.foldl (fun s x => s.finalReply x status frags) s
  match s.kry.executing with
  | some x =>
    if w x.work then { s with kry := { s.kry with executing := none } }.finalReply x status frags else s
  | none => s

/-- The command with this work is still under way. -/
def State.working (s : State) (w : Work → Bool) : Bool :=
  s.kry.deferred.any (fun x => w x.work) || (s.kry.executing.elim false fun x => w x.work)

/-- The headworks may begin a command: the controller is ready and nothing executes (R63, R64). -/
def State.canBegin (s : State) : Bool := s.kry.ready && s.kry.executing.isNone

/-- Commands that begin only once an open dip window has closed (15 R480). -/
def State.frozen (s : State) (op : Nat) : Bool :=
  s.pwr.window && [0x0120, 0x0501, 0x0140, 0x0B03, 0x0B04, 0x0C01, 0x0C02, 0x0D03].contains op

/-- A packet is discarded and counted (02 R51, Table KCP-6). -/
def State.dropAuth (s : State) : State :=
  { s with kry := { s.kry with drop := { s.kry.drop with auth := s.kry.drop.auth + 1 } } }
def State.dropMal (s : State) : State :=
  { s with kry := { s.kry with drop := { s.kry.drop with mal := s.kry.drop.mal + 1 } } }
def State.dropSeq (s : State) : State :=
  { s with kry := { s.kry with drop := { s.kry.drop with seq := s.kry.drop.seq + 1 } } }
def State.dropRate (s : State) : State :=
  { s with kry := { s.kry with drop := { s.kry.drop with rate := s.kry.drop.rate + 1 } } }

/-- A command joins its queue, or is answered BUSY when the queue is full (R63). -/
def State.enqueue (s : State) (r : KReq) : State :=
  let w : Waiting := { req := r, key := s.sessKey r.sess, arrived := s.now }
  if r.urgent then
    if s.kry.urgent.length < 32 then { s with kry := { s.kry with urgent := s.kry.urgent ++ [w] } }
    else s.answer r (s.sessKey r.sess) St.busy []
  else if s.kry.normal.length < 256 then { s with kry := { s.kry with normal := s.kry.normal ++ [w] } }
  else s.answer r (s.sessKey r.sess) St.busy []

/-- Step 4: the sequence window (R49). Answers the state and whether the packet goes on. -/
def seqCheck (r : KReq) (s : State) : State × Bool :=
  let x := s.session r.sess
  match winPos x.high r.seq with
  | .below => (s.dropSeq, false)
  | .above => (s.setSession r.sess (x.take r.seq), true)
  | .inside =>
    match Tab.get? x.cache r.seq with
    | some rs => (s.resend r rs, false)
    | none => if x.seen.contains r.seq then (s, false) else (s.setSession r.sess (x.take r.seq), true)

/-- Steps 5 to 13, then the queue; a command that finds the headworks free begins at once. -/
def judgePacket (body : Body) (r : KReq) (s : State) : State :=
  match chkArrival r s with
  | some st => s.answer r (s.sessKey r.sess) st []
  | none =>
    let a := body r s
    if a.status = St.badLength ∨ a.status = St.badParam then finish r a
    else if s.canBegin && !s.frozen r.opcode && s.kry.urgent.isEmpty && s.kry.normal.isEmpty then finish r a
    else s.enqueue r

/-- A command whose packets have passed step 3 (02 R52). -/
def arrive (body : Body) (r : KReq) (s : State) : State :=
  if (s.sessKey r.sess).isNone then s.dropAuth
  else
    let (s', go) := seqCheck r s
    if go then judgePacket body r (s'.setSession r.sess (r.seqs.foldl (fun x q => x.take q) (s'.session r.sess))) else s'

/-- A command the headworks hardware answers outside the queues (R57, R64). -/
def arriveNow (body : Body) (r : KReq) (s : State) : State :=
  if (s.sessKey r.sess).isNone then s.dropAuth
  else
    let (s', go) := seqCheck r s
    if go then
      match chkArrival r s' with
      | some st => s'.answer r (s'.sessKey r.sess) st []
      | none => finish r (body r s')
    else s'

/-- The row of a command: the packet is of the row's opcode. -/
def command (op : Nat) (body : Body) (t : Time) (r : KReq) (s : State) : Host.Outcome State Fault Refusal :=
  .next (arrive body { r with opcode := op } (s.tick t))

/-- Unwrap a key carried in parameters (02 R48): 12-byte IV, 4 reserved, 32 ciphertext, 16 tag. -/
def State.unwrap (s : State) (x : Sess) (w : Bytes) : Option Key :=
  match s.sessKey x with
  | none => none
  | some k =>
    let kw := Config.kmacKey k (ascii "WRAP") "KRYTIC"
    (Config.gcmOpen kw (slice w 0 12) [] (slice w 16 32) (slice w 48 16)).map fun b => BitVec.ofNat 256 (be b 0 32)

/-- A levee that the manager names is unknown: BAD_PARAM. A retiring one is BUSY (13 R421). -/
def leveeBad (s : State) (l : Nat) : Bool := l == 0 || !s.admitted l

/-- Parameters of a command that is not fragmented; of a fragmented one, those of its first fragment. -/
def par (r : KReq) : Bytes := r.frags.headD []

/-- PLEN of a command that takes one packet. -/
def plen (r : KReq) : Nat := (par r).length

/-- A command fragmented under R43 that is to come in one fragment. -/
def oneFrag (r : KReq) : Bool := r.frags.length == 1

end Sys2Proof.Machine
end

