-- ==== Sys2Proof/Machine/Screen.lean ====
section
/-! DEFINITION. The screen: forwarding and tenant rows, searches, commands, desilting, bank power and throttling (12). -/

namespace Sys2Proof.Machine

/-! ### Rows and winners (12 R392–R396) -/

/-- A row matches a key: each mask bit of 1 compares its value bit. -/
def Row.hits (r : Row) (key : BitVec 144) : Bool := (key &&& r.mask) == (r.value &&& r.mask)

/-- The row belongs to version `v` of table 0x0A (R398). -/
def Row.inVer (r : Row) (v : Nat) : Bool := if v = 0 then r.v0 else r.v1

/-- Order of R394: PRIORITY descending, then ID ascending. -/
def Row.before (a b : Row) : Bool := decide (b.prio < a.prio) || (a.prio == b.prio && decide (a.id < b.id))

/-- The winner among rows (R394). -/
def winner (l : List Row) : Option Row :=
  l.foldl (fun w r => match w with
    | none => some r
    | some x => if r.before x then some r else some x) none

/-- Rows in the order of R394. -/
def insertRow (r : Row) (l : List Row) : List Row :=
  match l with
  | [] => [r]
  | x :: t => if x.before r then x :: insertRow r t else r :: x :: t

def orderRows (l : List Row) : List Row := l.foldr insertRow []

/-- The two winners of a forwarding search in a version: ACL and PREFIX (R396). -/
def fwdSearch (s : State) (v : Nat) (key : BitVec 144) : Option Row × Option Row :=
  let m := s.scr.fwd.filter fun r => r.inVer v && r.hits key
  (winner (m.filter (fun r => r.kind == 0)), winner (m.filter (fun r => r.kind == 1)))

/-- Key type of a forwarding row: the top four bits (R395, R399). -/
def Row.keyType (r : Row) : Nat := r.value.toNat / 2 ^ 140

/-- Row blocks that the rows of a key type need; a search of the type enables them (R399). -/
def typeBlocks (l : List Row) (t : Nat) : Nat := ceilDiv (l.filter fun r => r.keyType == t).length 1024

/-- Row blocks the class needs per half (R399). -/
def fwdBlocks (l : List Row) : Nat := typeBlocks l 1 + typeBlocks l 2 + typeBlocks l 3

/-- Local index of a bank, and whether it is a tenant filter bank (Table SCR-1). -/
def bankLocal (k : Nat) : Nat := k % 8
def isTenantBank (k : Nat) : Bool := decide (k < 16) && decide (5 ≤ bankLocal k)
def bankDie (k : Nat) : Nat := k / 8

def State.bank (s : State) (k : Nat) : Bank := Tab.getD s.scr.banks k {}

def State.setBank (s : State) (k : Nat) (b : Bank) : State :=
  { s with scr := { s.scr with banks := Tab.set s.scr.banks k b } }

/-- Set a bit of a die's SCR_EVENT. -/
def State.scrEvent (s : State) (die bit : Nat) : State :=
  ({ s with scr := { s.scr with event := Tab.set s.scr.event die (setBit (Tab.getD s.scr.event die 0) bit) } }).mark (Reg.scr die) bit

/-- A levee's bank and quota (R402). -/
def State.screenQuota (s : State) (l : Nat) : Option (Nat × Nat) := Tab.get? s.scr.quotas l

/-- The rows of a levee in its bank. -/
def leveeRows (b : Bank) (l : Nat) : List Row := b.rows.filter fun r => r.levee == l

/-- The lost entry of a levee, if it has one (R412). -/
def lostEntry (b : Bank) (l : Nat) : Option Row := (leveeRows b l).find? (·.lost)

/-- A tenant key or row as the device completes it: bits [143:134] are the levee, compared always (R401). -/
def ownKey (l : Nat) (key : BitVec 144) : BitVec 144 := BitVec.ofNat 144 (l * 2 ^ 134 + key.toNat % 2 ^ 134)
def ownMask (mask : BitVec 144) : BitVec 144 := BitVec.ofNat 144 (1023 * 2 ^ 134 + mask.toNat % 2 ^ 134)

/-- Rows of a levee that match a key (R401, R405). -/
def tenantHits (b : Bank) (l : Nat) (key : BitVec 144) : List Row :=
  (leveeRows b l).filter fun r => !r.lost && r.hits (ownKey l key)

/-- The 8-byte result of a tenant search, little-endian (Table SCR-5). -/
def tenantResult (m : List Row) : Bytes :=
  match winner m with
  | none => zeros 8
  | some w => toLe 4 w.id ++ toLe 2 w.prio ++ toLe 1 (1 + 2 * ofBool (decide (2 ≤ m.length))) ++ zeros 1

/-! ### Placing rows -/

/-- Lowest row index that is neither used nor retired. -/
def freeRow (used retired : List Nat) (lo n : Nat) : Option Nat :=
  ((List.range n).map (lo + ·)).find? fun i => !used.contains i && !retired.contains i

/-- A free row index for a forwarding row of a key type: in a block of that type, else in an empty block (R399). -/
def placeIn (rows : List Row) (retired : List Nat) (type : Nat) : Option Nat :=
  let used := rows.map (·.rowIdx)
  let blockOf (b : Nat) : Option Nat := ((rows.find? fun r => r.rowIdx / 1024 == b).map Row.keyType)
  let inBlock (b : Nat) : Option Nat := freeRow used retired (b * 1024) 1024
  let same := ((List.range 16).filter fun b => blockOf b == some type).findSome? inBlock
  same.orElse fun _ => ((List.range 16).filter fun b => blockOf b == none).findSome? inBlock

/-- The index of a new forwarding row; where its type has none, one that `settleRows` puts right. -/
def placeFwd (rows : List Row) (retired : List Nat) (type : Nat) : Nat :=
  ((placeIn rows retired type).orElse fun _ => freeRow (rows.map (·.rowIdx)) retired 0 16384).getD 0

/-- Every block holds rows of one key type only (R399). -/
def blocksPure (rows : List Row) : Bool :=
  (List.range 16).all fun b =>
    let ts := (rows.filter fun r => r.rowIdx / 1024 == b).map Row.keyType
    ts.all fun t => ts.head? == some t

/-- Rows that would share a block with another type move together, type by type (assumption 55). -/
def settleRows (retired : List Nat) (rows : List Row) : List Row :=
  if blocksPure rows then rows
  else ([1, 2, 3].flatMap fun t => rows.filter fun r => r.keyType == t).foldl
    (fun a r => a ++ [{ r with rowIdx := placeFwd a retired r.keyType }]) []

/-- Clear version `i` of a row. -/
def Row.clearVer (r : Row) (i : Nat) : Row := if i = 0 then { r with v0 := false } else { r with v1 := false }

/-- Write one forwarding entry into the inactive version `i` (R398). -/
def fwdInsert (i : Nat) (retired : List Nat) (rows : List Row) (e : Row) : List Row :=
  let e := { e with v0 := i == 0, v1 := i == 1 }
  match rows.find? fun r => r.id == e.id && r.inVer i with
  | some old =>
    if old.inVer (1 - i) then
      let rows := rows.map fun r => if r.rowIdx = old.rowIdx then r.clearVer i else r
      rows ++ [{ e with rowIdx := placeFwd rows retired e.keyType }]
    else if old.keyType = e.keyType then rows.map fun r => if r.rowIdx = old.rowIdx then { e with rowIdx := old.rowIdx } else r
    else
      let rows := rows.filter fun r => r.rowIdx != old.rowIdx
      rows ++ [{ e with rowIdx := placeFwd rows retired e.keyType }]
  | none => rows ++ [{ e with rowIdx := placeFwd rows retired e.keyType }]

/-- Delete an ID from the inactive version `i` (R398). -/
def fwdDelete (i : Nat) (rows : List Row) (id : Nat) : List Row :=
  (rows.map fun r => if r.id = id then r.clearVer i else r).filter fun r => r.v0 || r.v1

/-- The forwarding rows once a batch has committed. -/
def fwdAfter (s : State) (b : ScreenBatch) : List Row :=
  settleRows s.scr.retired (b.drop.foldl (fwdDelete b.version) (b.add.foldl (fwdInsert b.version s.scr.retired) s.scr.fwd))

/-- Write or rewrite one tenant row. -/
def tenantInsert (bank : Bank) (rows : List Row) (e : Row) : List Row :=
  match rows.find? fun r => r.id == e.id && r.levee == e.levee with
  | some old => rows.map fun r => if r.rowIdx = old.rowIdx then { e with rowIdx := old.rowIdx } else r
  | none => rows ++ [{ e with rowIdx := (freeRow (rows.map (·.rowIdx)) bank.retired 0 32768).getD 0 }]

/-- A bank's rows once a batch has committed. -/
def tenantAfter (bank : Bank) (b : ScreenBatch) : List Row :=
  (b.add.foldl (tenantInsert bank) bank.rows).filter fun r => !(r.levee == b.levee && b.drop.contains r.id)

/-- The forwarding rows, and a tenant bank, once every batch already staged has committed. -/
def fwdPlanned (s : State) : State :=
  (s.scr.batches.filter fun b => b.cls == 0).foldl (fun s b => { s with scr := { s.scr with fwd := fwdAfter s b } }) s

def bankPlanned (s : State) (k : Nat) : Bank :=
  (s.scr.batches.filter fun b => b.cls == 1 && b.bank == k).foldl (fun y b => { y with rows := tenantAfter y b }) (s.bank k)

/-- Wake a gated bank that an update or search needs (R413, 01 R34). -/
def wakeNeeded (k : Nat) (s : State) : State :=
  let b := s.bank k
  if b.power = 1 ∨ b.power = 2 then s.setBank k { b with power := 3 } else s

/-- `n` cycles of slot work on a bank (R409): on a tenant filter bank they are stolen while keys wait; which of a forwarding
bank's are, no row says. -/
def slotWork (bank n : Nat) (s : State) : State :=
  if isTenantBank bank then (if (s.bank bank).queue.isEmpty then s else s.count (gk 9 2 1 bank) n)
  else (s.count (gk 9 2 1 bank) (s.peekFree % (n + 1))).drawn

/-- The forwarding banks (Table SCR-1). -/
def fwdBanks : List Nat := (List.range 16).filter fun k => !isTenantBank k

/-- The rows of the oldest waiting command become visible at one screen cycle (R410). -/
def screenCommit (s : State) : State :=
  match s.scr.batches with
  | [] => s
  | b :: rest =>
    if b.cls = 0 then
      let s' : State := { s with scr := { s.scr with fwd := fwdAfter s b, batches := rest } }
      let s' := fwdBanks.foldl (fun s k => slotWork k (2 * (b.add.length + b.drop.length)) s) s'
      s'.workDone (fun w => w == .screen) St.ok []
    else
      let bank := s.bank b.bank
      if bank.power ≠ 0 then s
      else
        let s' := { s with scr := { s.scr with batches := rest } }.setBank b.bank { bank with rows := tenantAfter bank b }
        (slotWork b.bank (b.add.length + b.drop.length) s').workDone (fun w => w == .screen) St.ok []

def execScreenCommit (t : Time) (s : State) : Host.Outcome State Fault Refusal := .next (screenCommit (s.tick t))

/-! ### Commands (12 R402, R406–R408) -/

/-- An entry of Table SCR-7 as a forwarding row; none where R400 or a range makes it BAD_PARAM. -/
def parseFwd (e : Bytes) : Option Row :=
  let kind := byteAt e 4
  let value := BitVec.ofNat 144 (be e 8 18)
  let mask := be e 26 18
  let type := value.toNat / 2 ^ 140
  let action := byteAt e 44
  let mirror := byteAt e 45
  let index := be e 48 2
  let row : Row :=
    { id := be e 0 4, kind := kind, prio := be e 6 2, value := value, mask := BitVec.ofNat 144 mask, v0 := false,
      v1 := false, action := action, mirror := if kind = 0 ∧ mirror % 2 = 1 then some (be e 46 2) else none,
      index := index, levee := 0, rowIdx := 0 }
  if kind = 0 then
    if mask / 2 ^ 140 ≠ 15 ∨ type = 0 ∨ 3 < type ∨ 2 < action ∨ 1 < mirror ∨ (mirror = 1 ∧ 4095 < be e 46 2) then none
    else some row
  else if kind = 1 then
    let (lo, w) := if type = 1 then (96, 32) else (64, 64)
    let dst := mask / 2 ^ lo % 2 ^ w
    let len := popcount w dst
    let want := (2 ^ 16 - 1) * 2 ^ 128 + (2 ^ w - 2 ^ (w - len)) * 2 ^ lo
    if (type ≠ 1 ∧ type ≠ 2) ∨ mask ≠ want ∨ 1 < action ∨ mirror ≠ 0 ∨ (action = 1 ∧ 4095 < index) then none
    else some { row with prio := len }
  else none

/-- An entry as a tenant filter row of a levee (R401). -/
def parseTenant (l : Nat) (e : Bytes) : Option Row :=
  if byteAt e 4 ≠ 0 ∨ byteAt e 44 ≠ 0 ∨ byteAt e 45 ≠ 0 then none
  else some
    { id := be e 0 4, kind := 0, prio := be e 6 2, value := ownKey l (BitVec.ofNat 144 (be e 8 18)),
      mask := ownMask (BitVec.ofNat 144 (be e 26 18)), v0 := false, v1 := false, action := 0, mirror := none, index := 0,
      levee := l, rowIdx := 0 }

/-- All of a list, if none is missing. -/
def allSome {α : Type} (l : List (Option α)) : Option (List α) :=
  match l with
  | [] => some []
  | none :: _ => none
  | some a :: r => (allSome r).map (a :: ·)

/-- The entries of 64 bytes that a fragment carries from byte 16. -/
def fragEntries (p : Bytes) (n : Nat) : List Bytes := (List.range n).map fun i => slice p (16 + 64 * i) 64

/-- Every entry of a fragmented write command, in the order written. -/
def allEntries (r : KReq) : List Bytes := r.frags.flatMap fun p => fragEntries p (be p 10 2)

/-- PLEN of each fragment is 16 + 64 × COUNT. -/
def writeLenOk (r : KReq) : Bool := r.frags.all fun p => p.length == 16 + 64 * be p 10 2

/-- The levee a CLASS 1 command acts on: the tenant's own, or the one the manager names. -/
def screenLevee (r : KReq) (field : Nat) : Nat := (tenant r).getD (field % 1024)

/-- Start a batch: the command answers once it has committed (R410). -/
def stageBatch (s : State) (b : ScreenBatch) : Ans :=
  let s' : State := { s with scr := { s.scr with batches := s.scr.batches ++ [b] } }
  { s := if b.cls = 0 then s' else wakeNeeded b.bank s', status := St.ok, work := some .screen }

/-- SCREEN_WRITE (R406). DESIGN CHOICE (assumption 91): R406 gives no status to a tenant that names CLASS 0, which invariant 5
forbids; the model answers it BAD_PARAM at step 13. -/
def bodyScreenWrite (r : KReq) (s : State) : Ans :=
  let p := par r
  let cls := byteAt p 9
  let bank := byteAt p 8
  let field := be p 12 2
  let t := tenant r
  let same := r.frags.all fun q => slice q 8 2 == slice p 8 2 && slice q 12 2 == slice p 12 2
  let counts := r.frags.all fun q => decide (1 ≤ be q 10 2) && decide (be q 10 2 ≤ 63)
  if !writeLenOk r then refuse s St.badLength
  else if !same || !counts || decide (1 < cls) || (t.isSome && (cls == 0 || field != 0)) || (cls == 0 && (bank != 0xFF || field != 0)) then
    refuse s St.badParam
  else if cls = 0 then
    match allSome ((allEntries r).map parseFwd) with
    | none => refuse s St.badParam
    | some rows =>
      let tb := s.table 0x0A
      let b : ScreenBatch := { cls := 0, bank := 0xFF, version := 1 - tb.active, add := rows, drop := [], levee := 0 }
      let after := fwdAfter (fwdPlanned s) b
      checks s [(tb.st != .ready || tb.pending, St.tableBusy),
          (decide (16 < fwdBlocks after) || !blocksPure after || decide (16384 < after.length + s.scr.retired.length), St.exhausted)] fun _ =>
        stageBatch s b
  else
    let l := screenLevee r field
    match s.screenQuota l, allSome ((allEntries r).map (parseTenant l)) with
    | some (own, quota), some rows =>
      let b : ScreenBatch := { cls := 1, bank := own, version := 0, add := rows, drop := [], levee := l }
      let after := tenantAfter (bankPlanned s own) b
      checks s ([((t.isNone && leveeBad s l) || (bank != 0xFF && bank != own), St.badParam), (t.isNone && s.retiring l, St.busy),
           (decide (quota < (after.filter fun x => x.levee == l).length) ||
            decide (32768 < after.length + (s.bank own).retired.length), St.exhausted)]) fun _ =>
        stageBatch s b
    | _, _ => refuse s St.badParam

def execScreenWrite (t : Time) (r : KReq) (s : State) : Host.Outcome State Fault Refusal :=
  command 0x0A01 bodyScreenWrite t r s

/-- SCREEN_DELETE (R408); a tenant that names CLASS 0 is answered BAD_PARAM here too (assumption 91). -/
def bodyScreenDelete (r : KReq) (s : State) : Ans :=
  let p := par r
  let cls := byteAt p 0
  let field := be p 2 2
  let n := be p 4 2
  let t := tenant r
  let ids := (List.range n).map fun i => be p (8 + 4 * i) 4
  let l := screenLevee r field
  let tb := s.table 0x0A
  checks s ([(plen r != roundUp (8 + 4 * n) 8, St.badLength),
      (n == 0 || decide (1010 < n) || decide (1 < cls) || (t.isSome && (cls == 0 || field != 0)) ||
        (cls == 0 && field != 0), St.badParam)] ++
      [(cls == 1 && t.isNone && leveeBad s l, St.badParam),
       (cls == 1 && t.isNone && s.retiring l, St.busy),
       (cls == 0 && (tb.st != .ready || tb.pending), St.tableBusy)]) fun _ =>
    if cls = 0 then
      stageBatch s { cls := 0, bank := 0xFF, version := 1 - tb.active, add := [], drop := ids, levee := 0 }
    else if (s.screenQuota l).isNone then done s
    else
      stageBatch s { cls := 1, bank := ((s.screenQuota l).getD (5, 0)).1, version := 0, add := [], drop := ids, levee := l }

def execScreenDelete (t : Time) (r : KReq) (s : State) : Host.Outcome State Fault Refusal :=
  command 0x0A02 bodyScreenDelete t r s

/-- Matches strictly after a cursor, in the order of R394. -/
def afterCursor (l : List Row) (valid : Bool) (prio id : Nat) : List Row :=
  if valid then (orderRows l).filter fun r => decide (r.prio < prio) || (r.prio == prio && decide (id < r.id))
  else orderRows l

/-- The SCREEN_SEARCH reply (R407). -/
def searchReply (m : List Row) (max : Nat) : Bytes :=
  let got := m.take max
  let cursor := match got.getLast? with
    | some r => toBe 2 0x8000 ++ toBe 2 r.prio ++ toBe 4 r.id
    | none => zeros 8
  toBe 2 got.length ++ toBe 1 (ofBool (decide (max < m.length))) ++ zeros 5 ++ cursor ++
    (got.map fun r => toBe 4 r.id ++ toBe 2 r.prio ++ toBe 1 r.kind ++ zeros 1).flatten

/-- A SCREEN_SEARCH of CLASS 1 on the levee's bank, which is awake: each match costs a search of the bank, as does the one that
finds no more (R407); a lost entry makes it INTERNAL (R412). -/
def bankSearch (r : KReq) (k : Nat) (s : State) : State × Nat × List Bytes :=
  let p := par r
  let max := be p 4 2
  let l := screenLevee r (be p 2 2)
  let b := s.bank k
  let s := s.setBank k { b with lastSearch := s.now }
  match lostEntry b l with
  | some x => (s.count (gk 9 1 0 l (bankDie k)) 1, St.internal, [toBe 4 x.id ++ zeros 4])
  | none =>
    let m := afterCursor (tenantHits b l (BitVec.ofNat 144 (be p 16 18))) (bitOf (byteAt p 8) 7) (be p 10 2) (be p 12 4)
    let n := min max m.length
    let s := s.count (gk 9 1 0 l (bankDie k)) (n + ofBool (decide (m.length ≤ max)))
    let s := (s.count (gk 9 1 1 l (bankDie k)) n).count (gk 9 1 2 l (bankDie k)) (min n (m.length - 1))
    (s, St.ok, [searchReply m max])

/-- SCREEN_SEARCH (R407, R412); one that finds its bank gated wakes it and waits (01 R34). -/
def bodyScreenSearch (r : KReq) (s : State) : Ans :=
  let p := par r
  let cls := byteAt p 0
  let ver := byteAt p 1
  let field := be p 2 2
  let max := be p 4 2
  let key := BitVec.ofNat 144 (be p 16 18)
  let valid := bitOf (byteAt p 8) 7
  let t := tenant r
  let l := screenLevee r field
  checks s ([(plen r != 40, St.badLength),
      (decide (1 < cls) || max == 0 || decide (504 < max) || (t.isSome && (cls == 0 || field != 0)), St.badParam),
      (if cls = 0 then decide (1 < ver) && ver != 0xFF || field != 0 else ver != 0, St.badParam),
      (be p 8 2 % 0x8000 != 0, St.badParam)] ++
      [(cls == 1 && t.isNone && leveeBad s l, St.badParam),
       (cls == 1 && t.isNone && s.retiring l, St.busy)]) fun _ =>
    if cls = 0 then
      let v := if ver = 0xFF then (s.table 0x0A).active else ver
      let m := afterCursor (s.scr.fwd.filter fun x => x.inVer v && x.hits key) valid (be p 10 2) (be p 12 4)
      done s [searchReply m max]
    else if (s.screenQuota l).isNone then done s [searchReply [] max]
    else
      let k := ((s.screenQuota l).getD (5, 0)).1
      if (s.bank k).power ≠ 0 then { s := wakeNeeded k s, status := St.ok, work := some (.search k) }
      else
        let (s, st, frags) := bankSearch r k s
        { s := s, status := st, frags := frags }

def execScreenSearch (t : Time) (r : KReq) (s : State) : Host.Outcome State Fault Refusal :=
  command 0x0A03 bodyScreenSearch t r s

/-- Quotas summed over a bank, leaving one levee out. -/
def bankQuota (s : State) (k but : Nat) : Nat :=
  (s.scr.quotas.filter fun e => e.2.1 == k && e.1 != but).foldl (fun n e => n + e.2.2) 0

/-- SCREEN_QUOTA_SET (R402). -/
def bodyScreenQuotaSet (r : KReq) (s : State) : Ans :=
  let p := par r
  let l := be p 0 2 % 1024
  let k := byteAt p 2
  let rows := be p 4 4
  let cur := s.screenQuota l
  let held := cur.elim 0 fun c => (leveeRows (bankPlanned s c.1) l).length
  checks s ([(plen r != 8, St.badLength)] ++
      [(leveeBad s l || !isTenantBank k || decide (32768 < rows), St.badParam),
       (held != 0 && (cur.map (·.1)) != some k, St.badParam),
       (decide (rows < held), St.badParam),
       (s.retiring l, St.busy),
       (decide (32768 < bankQuota s k l + rows), St.exhausted)]) fun _ =>
    done { s with scr := { s.scr with
      quotas := if rows = 0 then Tab.del s.scr.quotas l else Tab.set s.scr.quotas l (k, rows) } }

def execScreenQuotaSet (t : Time) (r : KReq) (s : State) : Host.Outcome State Fault Refusal :=
  command 0x0A04 bodyScreenQuotaSet t r s

/-! ### Desilting (12 R411) -/

/-- The ledger record of the screen (17 Table HLT-2). -/
def screenRecord (s : State) (kind bank row id : Nat) (diff : BitVec 144) : State :=
  s.ledger 0x0034 (srcOf 5 bank) (splice (recBody [(32, 1, kind), (33, 1, bank), (34, 2, row), (36, 4, id)]) 8
    (toLe 18 diff.toNat))

/-- A row was fixed from its shadow: event, record, and whether it is the second fix within 1 s. -/
def desiltFix (bank row id : Nat) (diff : BitVec 144) (s : State) : State × Bool :=
  let b := s.bank bank
  let twice := (Tab.get? b.fixes row).elim false fun t => decide (s.now < t + sec 1)
  let s := s.setBank bank { b with fixes := Tab.set b.fixes row s.now }
  let s := (s.scrEvent (bankDie bank) 1).count (gk 9 2 3 bank) 1
  (screenRecord s 1 bank row id diff, twice)

/-- A row is retired: event, gauge, record. -/
def retireNote (bank row id : Nat) (s : State) : State :=
  screenRecord ((s.scrEvent (bankDie bank) 3).count (gk 9 2 4 bank) 1) 3 bank row id 0

/-- A desilting slot compares one row with its shadow: `diff` is what the array differs by, `shadowBad` an
uncorrectable shadow word (R411). A forwarding half's shadow word is restored from another half's. -/
def desiltPass (bank row : Nat) (diff : BitVec 144) (shadowBad : Bool) (s : State) : State :=
  let s := slotWork bank (if diff = 0 then 1 else 2) (s.count (gk 9 2 2 bank) 1)
  if isTenantBank bank then
    let b := s.bank bank
    match b.rows.find? fun r => r.rowIdx == row with
    | none =>
      if diff = 0 ∨ b.retired.contains row then s
      else
        let (s, twice) := desiltFix bank row 0 diff s
        if twice then retireNote bank row 0 (s.setBank bank { s.bank bank with retired := row :: b.retired }) else s
    | some e =>
      if e.lost then s
      else if shadowBad then
        let s := s.setBank bank { b with rows := b.rows.map fun r => if r.rowIdx = row then { r with lost := true } else r }
        screenRecord (s.scrEvent (bankDie bank) 2) 2 bank row e.id 0
      else if diff = 0 then s
      else
        let (s, twice) := desiltFix bank row e.id diff s
        if twice then
          let b := s.bank bank
          match freeRow (b.rows.map (·.rowIdx)) b.retired 0 32768 with
          | none => s
          | some j =>
            let b := { b with
              rows := b.rows.map fun r => if r.rowIdx = row then { r with rowIdx := j } else r
              retired := row :: b.retired }
            retireNote bank row e.id (s.setBank bank b)
        else s
  else if s.scr.out.contains (bank * 2 + row / 16384) || s.hlt.retiredHalves.contains (bank * 2 + row / 16384) then s
  else if diff = 0 ∨ s.scr.retired.contains (row % 16384) then s
  else
    let idx := row % 16384
    let e := s.scr.fwd.find? fun r => r.rowIdx == idx
    let (s, twice) := desiltFix bank row (e.elim 0 (·.id)) diff s
    match e with
    | none => if twice then retireNote bank row 0 { s with scr := { s.scr with retired := idx :: s.scr.retired } } else s
    | some e =>
      if twice then
        match placeIn s.scr.fwd (idx :: s.scr.retired) e.keyType with
        | none => s
        | some j =>
          let s : State := { s with scr := { s.scr with
            fwd := s.scr.fwd.map fun r => if r.rowIdx = idx then { r with rowIdx := j } else r
            retired := idx :: s.scr.retired } }
          retireNote bank row e.id s
      else s

def execDesiltPass (t : Time) (bank row : Nat) (diff : BitVec 144) (bad : Bool) (s : State) :
    Host.Outcome State Fault Refusal :=
  .next (desiltPass bank row diff bad (s.tick t))

/-! ### Power and throttling (12 R404, R413) -/

/-- A tenant filter bank without rows is power-gated; one no search has reached for 10 µs is clock-gated (R413). -/
def bankGate (bank : Nat) (s : State) : State :=
  let b := s.bank bank
  if !isTenantBank bank || b.power == 3 || !b.queue.isEmpty || s.scr.batches.any (fun x => x.cls == 1 && x.bank == bank) then s
  else if b.rows.isEmpty then s.setBank bank { b with power := 2 }
  else if b.power = 0 ∧ b.lastSearch + us 10 ≤ s.now then s.setBank bank { b with power := 1 }
  else s

/-- A SCREEN_SEARCH that waited for its bank runs. -/
def searchWoken (bank : Nat) (s : State) : State :=
  match s.kry.executing with
  | some x =>
    if x.work = .search bank then
      let (s, st, frags) := bankSearch x.req bank s
      s.workDone (fun w => w == .search bank) st frags
    else s
  | none => s

/-- A bank that a search or update woke is active (01 R34). -/
def bankWake (bank : Nat) (s : State) : State :=
  let b := s.bank bank
  if isTenantBank bank && b.power == 3 then searchWoken bank (s.setBank bank { b with power := 0, lastSearch := s.now }) else s

/-- The thresholds in force on a die: T2 acts as max(T1, T2), T3 as max(T2, T3) (Table SCR-10). -/
def thresholds (s : State) (die : Nat) : Nat × Nat × Nat :=
  let t1 := Tab.getD s.scr.t1 die 0x55
  let t2 := max t1 (Tab.getD s.scr.t2 die 0x5B)
  (t1, t2, max t2 (Tab.getD s.scr.t3 die 0x5F))

/-- The step for a temperature, leaving a level only 2 °C below its threshold (R404, Table SCR-4). -/
def throttleStep (th : Nat × Nat × Nat) (old temp : Nat) : Nat :=
  let up := if th.2.2 ≤ temp then 3 else if th.2.1 ≤ temp then 2 else if th.1 ≤ temp then 1 else 0
  let keep := if th.2.2 < temp + 2 then 3 else if th.2.1 < temp + 2 then 2 else if th.1 < temp + 2 then 1 else 0
  max up (min old keep)

/-- A bank's sensor reads a temperature (R404). -/
def bankThrottle (bank temp : Nat) (s : State) : State :=
  let b := s.bank bank
  s.setBank bank { b with
    temp := temp % 256, step := if isTenantBank bank then throttleStep (thresholds s (bankDie bank)) b.step temp else 0 }

def execBankClockGate (t : Time) (bank : Nat) (s : State) : Host.Outcome State Fault Refusal :=
  .next (bankGate bank (s.tick t))
def execBankWake (t : Time) (bank : Nat) (s : State) : Host.Outcome State Fault Refusal :=
  .next (bankWake bank (s.tick t))
def execBankThrottleChange (t : Time) (bank temp : Nat) (s : State) : Host.Outcome State Fault Refusal :=
  .next (bankThrottle bank temp (s.tick t))

end Sys2Proof.Machine
end

