-- ==== Sys2Proof/Machine/Ports.lean ====
section
/-! DEFINITION. Ports, lanes, link states and MACsec associations (03 R83–R104, R112–R114). -/

namespace Sys2Proof.Machine

/-! ### Link states (03 Table PRT-3) -/

/-- Code of PRT_LINK.STATE (Table PRT-7). -/
def LinkState.code (x : LinkState) : Nat :=
  match x with
  | .disabled => 0 | .negotiate => 1 | .train => 2 | .align => 3 | .up => 4 | .damped => 5

/-- Lanes of a mode code (Table PRT-1). -/
def modeLanes (m : Nat) : Nat := if m = 0 then 0 else 2 ^ (m - 1)

/-- Bit rate of a port in units of 200 Gbit/s. -/
def Port.lanes (q : Port) : Nat := modeLanes q.mode

/-- The die of a fabric or control port: pipelines 0–7 and their ports lie on die 0 (03 R84, 01 R27). -/
def portDie (p : Nat) : Nat := if p < 256 then 0 else 1

/-- The ingress pipeline of a port (03 R84). -/
def portPipe (p : Nat) : Nat := p / 32

/-- LOCAL_FAULT: no alignment while in TRAIN, ALIGN or UP (Table PRT-7). -/
def Port.localFault (q : Port) : Bool :=
  match q.st with
  | .train | .align | .up => !q.aligned
  | _ => false

/-- The state a port retrains in: NEGOTIATE with AN set, else TRAIN (Table PRT-3). -/
def Port.restart (q : Port) : LinkState := if q.an then .negotiate else .train

/-- Set a bit of PRT_EVENT. -/
def Port.setEvent (q : Port) (bit : Nat) : Port := { q with event := setBit q.event bit }

/-- The 60 s list with this transition, when its reason counts toward damping (R97). -/
def Port.outsNow (q : Port) (now : Time) (reason : Nat) : List Time :=
  let recent := q.outs.filter (fun t => decide (now < t + sec 60))
  if reason = 6 then recent else recent ++ [now]

/-- The port as it leaves UP or ALIGN, or is taken down: reason, counters, damping (R95–R98). -/
def Port.down (q : Port) (now : Time) (reason : Nat) (next : LinkState) : Port :=
  let q' := { q with
    st := next, since := now, lastDown := reason, aligned := false, alignedSince := none, faultSince := none,
    remoteFault := false, anDone := false, retry := false }
  if q.st == .up then
    let outs := q.outsNow now reason
    let q' := { q'.setEvent 2 with downCount := q.downCount + 1, outs := outs }
    if reason ≠ 6 ∧ 5 ≤ outs.length then
      { q'.setEvent 5 with
        st := .damped, dampUntil := now + sec q.dampS, dampS := min 64 (2 * q.dampS), outs := [] }
    else q'
  else q'

/-- Ticks of 1/24 ns that `bytes` take on a port of `lanes` lanes of 200 Gbit/s. -/
def wireTicks (bytes lanes : Nat) : Nat := bytes * 24 / (25 * max 1 lanes)

/-- Count the bytes a port has sent of a frame (R114, 05 Table TRF-7). -/
def countTx (p cls bytes : Nat) (s : State) : State := (s.count (gk 0 0 3 p) bytes).count (gk 2 1 0 p cls) bytes

/-- The class of a frame held in the buffer. -/
def State.fidClass (s : State) (fid : Nat) : Nat := (Tab.get? s.sw.frames fid).elim 0 (·.cls)

/-- End one frame of the transmit path now: it leaves with an invalid FCS, counting the bytes sent (R98, R114). -/
def cutTx (p : Nat) (a : State × List Tx) (x : Tx) : State × List Tx :=
  if x.cut ∨ x.ends ≤ a.1.now then (a.1, a.2 ++ [x])
  else
    let sent := min x.frame.len (x.frame.len * (a.1.now - x.start) / max 1 (x.ends - x.start))
    let s := countTx p (a.1.fidClass x.copy.fid) sent a.1
    (if x.start < s.now then s.emit (.frame p x.frame true) else s, a.2 ++ [{ x with ends := s.now, cut := true }])

/-- Close the frames in a port's transmit path that `pick` names. -/
def truncateTx (p : Nat) (pick : Tx → Bool) (s : State) : State :=
  let r := (Tab.getD s.sw.txing p []).foldl (fun a x => if pick x then cutTx p a x else (a.1, a.2 ++ [x])) (s, [])
  if r.2.isEmpty then r.1 else { r.1 with sw := { r.1.sw with txing := Tab.set r.1.sw.txing p r.2 } }

/-- What the port-down discard has to remove: the copies in the port's VOQs (04 R135). -/
def markStale (p : Nat) (s : State) : State :=
  { s with sw := { s.sw with stale := s.sw.voqs.foldl (fun t e =>
      if e.1 / 8 % 512 = p ∧ !e.2.isEmpty then Tab.set t e.1 e.2.length else t) s.sw.stale } }

/-- A port leaves UP or ALIGN, or is reconfigured: its record, the ledger, the fence delay (R96, 14 R451). PFC frames that
waited for the wire are lost. DESIGN CHOICE (assumption 92): a received pause and an XOFF in force toward the partner stay. -/
def portDown (p reason : Nat) (next : LinkState) (s : State) : State :=
  let q := s.port p
  let q' := { q.down s.now reason next with pfcWait := [] }
  let s' := s.setPort p q'
  if q.st == .up then
    let s' := s'.mark (Reg.port p) 2
    let s' := if q'.st == .damped then s'.mark (Reg.port p) 5 else s'
    let s' := markStale p (truncateTx p (fun _ => true) s')
    let s' := s'.ledger 0x0011 (srcOf 3 p) (recBody [(32, 2, p), (34, 1, reason), (35, 1, q'.st.code)])
    if p < 512 ∧ !q.testDown then { s' with flt := { s'.flt with downSince := Tab.set s'.flt.downSince p s.now } }
    else s'
  else s'

/-- A row of Table PRT-3 reaches a port; `rank` is its place in the table. Of the rows that reach a port in one cycle (one
instant) the lowest governs: it acts on the port as the cycle found it, what an upper row did is taken back, and an upper
row that comes after it does nothing (R95). -/
def linkRow (p rank : Nat) (f : State → State) (s : State) : State :=
  let c := (Tab.get? s.rows p).filter fun c => c.at_ == s.now
  let was := c.elim (s.port p) (·.was)
  let since := c.elim (Tab.get? s.flt.downSince p) (·.since)
  if c.elim false fun c => decide (rank ≤ c.rank) then s
  else
    let u := s.setPort p was
    let u := { u with flt := { u.flt with downSince := since.elim (Tab.del u.flt.downSince p) (Tab.set u.flt.downSince p) } }
    let u := if c.isSome && was.st == .up && (s.port p).st != .up then u.unledger 0x0011 (srcOf 3 p) else u
    let u := if c.isSome then u else s
    let t := f u
    if t.port p = was then s else { t with rows := Tab.set t.rows p ⟨s.now, rank, was, since⟩ }

/-- Matching ability resolved (R93). -/
def linkNegotiated (p : Nat) (s : State) : State :=
  let q := s.port p
  if q.st == .negotiate && !q.retry then s.setPort p { q with st := .train, anDone := true, since := s.now } else s

/-- All lanes trained (R94). -/
def trainingComplete (p : Nat) (s : State) : State :=
  let q := s.port p
  if q.st == .train && !q.retry then
    s.setPort p { q with st := .align, since := s.now, aligned := false, alignedSince := none }
  else s

/-- Training not complete within TRAIN_MS (R94, Table PRT-3). -/
def trainTimeout (p : Nat) (s : State) : State :=
  let q := s.port p
  if q.st == .train && !q.retry && decide (q.since + ms q.trainMs ≤ s.now) then
    (s.setPort p { q with st := q.restart, lastDown := 5, retry := true, since := s.now, anDone := false }).count
      (gk 0 0 11 p) 1
  else s

/-- Training or negotiation tried again 1 s after a timeout. -/
def trainingRetry (p : Nat) (s : State) : State :=
  let q := s.port p
  if q.retry && decide (q.since + sec 1 ≤ s.now) then s.setPort p { q with retry := false, since := s.now } else s

/-- PCS and FEC alignment gained in ALIGN. -/
def alignmentAcquired (p : Nat) (s : State) : State :=
  let q := s.port p
  if q.st == .align && !q.aligned then s.setPort p { q with aligned := true, alignedSince := some s.now } else s

/-- Alignment held 100 ms without fault: UP; the fence delay ends (14 R451). -/
def linkUp (p : Nat) (s : State) : State :=
  let q := s.port p
  let held := q.alignedSince.elim false fun a => decide (a + ms 100 ≤ s.now)
  if q.st == .align && held && !q.remoteFault && !q.testDown then
    let s' := (s.setPort p { q.setEvent 3 with st := .up, since := s.now, faultSince := none }).mark (Reg.port p) 3
    { s' with flt := { s'.flt with downSince := Tab.del s'.flt.downSince p } }
  else s

/-- Loss of signal on a lane (R96). -/
def lossOfSignal (p : Nat) (s : State) : State :=
  let q := s.port p
  if q.st == .up || q.st == .align then portDown p 1 q.restart s else s

/-- FEC or PCS alignment lost (R96). -/
def alignLost (p : Nat) (s : State) : State :=
  let q := s.port p
  if q.st == .up || (q.st == .align && q.aligned) then portDown p 2 q.restart s else s

/-- Remote fault received for 20 µs (Table PRT-3). -/
def remoteFault (p : Nat) (s : State) : State :=
  let q := s.port p
  let held := q.faultSince.elim false fun a => decide (a + us 20 ≤ s.now)
  if q.st == .up && held then portDown p 3 q.restart s else s

/-- Remote fault starts or stops being received. DESIGN CHOICE (assumption 92): outside UP and ALIGN the signal is ignored and
PRT_LINK.REMOTE_FAULT reads 0; Table PRT-7 names states for LOCAL_FAULT only. -/
def remoteFaultSignal (p : Nat) (on : Bool) (s : State) : State :=
  let q := s.port p
  match q.st with
  | .up =>
    s.setPort p { q with
      remoteFault := on, faultSince := if on then (if q.faultSince.isSome then q.faultSince else some s.now) else none }
  | .align =>
    s.setPort p { q with
      remoteFault := on,
      alignedSince := if q.aligned && q.remoteFault && !on then some s.now else q.alignedSince }
  | _ => s

/-- More than 1,024 uncorrectable codewords in 10 ms (Table PRT-3). -/
def fecFail (p count : Nat) (s : State) : State :=
  let q := s.port p
  if q.st == .up && decide (1024 < count) then portDown p 4 q.restart s else s

/-- Codewords that `symbols` corrected symbols lay in: at least one, at most one each; a free value between, since no rule
says how the symbols lay (assumption 92). -/
def correctedCw (s : State) (symbols : Nat) : Nat := if symbols = 0 then 0 else 1 + s.peekFree % symbols

/-- Corrected symbols counted in a 1 s window (Table PRT-3, R114). -/
def fecDegrade (p symbols : Nat) (s : State) : State :=
  let q := s.port p
  let s := ((s.count (gk 0 0 10 p) symbols).count (gk 0 0 8 p) (correctedCw s symbols)).drawn
  if q.st == .up && q.degrade != 0 && decide (q.degrade < symbols) then s.portEvent p 4 else s

/-- The damping time has elapsed (R97). -/
def dampingElapsed (p : Nat) (s : State) : State :=
  let q := s.port p
  if q.st == .damped && decide (q.dampUntil ≤ s.now) then s.setPort p { q with st := q.restart, since := s.now } else s

/-- 600 s of UP return the damping time to 1 s (R97). -/
def dampingReset (p : Nat) (s : State) : State :=
  let q := s.port p
  if q.st == .up && decide (q.since + sec 600 ≤ s.now) then s.setPort p { q with dampS := 1 } else s

def execLinkNegotiated (t : Time) (p : Nat) (s : State) : Host.Outcome State Fault Refusal :=
  .next (linkRow p 2 (linkNegotiated p) (s.tick t))
def execTrainingComplete (t : Time) (p : Nat) (s : State) : Host.Outcome State Fault Refusal :=
  .next (linkRow p 3 (trainingComplete p) (s.tick t))
def execTrainTimeout (t : Time) (p : Nat) (s : State) : Host.Outcome State Fault Refusal :=
  .next (linkRow p 4 (trainTimeout p) (s.tick t))
def execTrainingRetry (t : Time) (p : Nat) (s : State) : Host.Outcome State Fault Refusal :=
  .next (trainingRetry p (s.tick t))
def execAlignmentAcquired (t : Time) (p : Nat) (s : State) : Host.Outcome State Fault Refusal :=
  .next (alignmentAcquired p (s.tick t))
def execLinkUp (t : Time) (p : Nat) (s : State) : Host.Outcome State Fault Refusal :=
  .next (linkRow p 5 (linkUp p) (s.tick t))
def execLossOfSignal (t : Time) (p : Nat) (s : State) : Host.Outcome State Fault Refusal :=
  .next (linkRow p 7 (lossOfSignal p) (s.tick t))
def execAlignLost (t : Time) (p : Nat) (s : State) : Host.Outcome State Fault Refusal :=
  .next (linkRow p 8 (alignLost p) (s.tick t))
def execRemoteFault (t : Time) (p : Nat) (s : State) : Host.Outcome State Fault Refusal :=
  .next (linkRow p 9 (remoteFault p) (s.tick t))
def execRemoteFaultSignalChange (t : Time) (p : Nat) (on : Bool) (s : State) : Host.Outcome State Fault Refusal :=
  .next (remoteFaultSignal p on (s.tick t))
def execFecFail (t : Time) (p count : Nat) (s : State) : Host.Outcome State Fault Refusal :=
  .next (linkRow p 10 (fecFail p count) ((s.tick t).count (gk 0 0 9 p) count))
def execFecDegrade (t : Time) (p symbols : Nat) (s : State) : Host.Outcome State Fault Refusal :=
  .next (fecDegrade p symbols (s.tick t))
def execDampingElapsed (t : Time) (p : Nat) (s : State) : Host.Outcome State Fault Refusal :=
  .next (linkRow p 12 (dampingElapsed p) (s.tick t))
def execDampingReset (t : Time) (p : Nat) (s : State) : Host.Outcome State Fault Refusal :=
  .next (dampingReset p (s.tick t))

/-! ### PORT_CONFIG (03 R88–R91) -/

/-- Mode code of a LANE_MODE start code. -/
def laneModeCode (c : Nat) : Option Nat :=
  if c = 0x01 then some 1 else if c = 0x02 then some 2 else if c = 0x04 then some 3 else if c = 0x08 then some 4 else none

/-- The ports a LANE_MODE vector starts, as (lane in the group, mode code); none where it breaks R84 or R89. -/
def laneVector (v : List Nat) (i : Nat) (fuel : Nat) : Option (List (Nat × Nat)) :=
  match fuel with
  | 0 => some []
  | fuel + 1 =>
    if 8 ≤ i then some []
    else
      let c := v.getD i 0
      if c = 0 then laneVector v (i + 1) fuel
      else match laneModeCode c with
        | none => none
        | some m =>
          let w := modeLanes m
          if i % w ≠ 0 ∨ 8 < i + w then none
          else if (List.range (w - 1)).all (fun j => v.getD (i + 1 + j) 0 == 0xFF) then
            (laneVector v (i + w) fuel).map fun r => (i, m) :: r
          else none

/-- The bits of a group's polarity byte that belong to a port's lanes. -/
def laneBits (byte lane m : Nat) : BitVec 8 := BitVec.ofNat 8 (byte / 2 ^ lane % 2 ^ modeLanes m * 2 ^ lane)

/-- A port as PORT_CONFIG configures it. -/
structure PortCfg where
  port : Nat
  mode : Nat
  medium : Nat
  an : Bool
  tx : BitVec 8
  rx : BitVec 8
  trainMs : Nat
  degrade : Nat
deriving DecidableEq, Repr

/-- The ports that the parameters of Table PRT-2 configure; none where R85, R88 or R89 makes them BAD_PARAM. -/
def portCfgs (p : Bytes) : Option (List PortCfg) :=
  let g := byteAt p 0
  let medium := byteAt p 2
  let an := byteAt p 3
  let v := (List.range 8).map fun i => byteAt p (4 + i)
  let tms := be p 14 2
  if 67 < g ∨ byteAt p 1 ≠ 1 ∨ 2 < medium ∨ 1 < an ∨ (medium = 2 ∧ an = 1) ∨ tms < 100 ∨ 2000 < tms then none
  else if 64 ≤ g ∧ (medium = 2 ∨ 1 < v.getD 0 0 ∨ (v.drop 1).any (· != 0)) then none
  else (laneVector v 0 9).map fun l => l.map fun (i, m) =>
    { port := if g < 64 then 8 * g + i else 512 + (g - 64), mode := m, medium := medium, an := an == 1,
      tx := laneBits (byteAt p 12) i m, rx := laneBits (byteAt p 13) i m, trainMs := tms, degrade := be p 16 4 }

/-- The port numbers of a group. -/
def groupPorts (g : Nat) : List Nat := if g < 64 then (List.range 8).map (8 * g + ·) else [512 + (g - 64)]

/-- Forget a port's gauges (R114). -/
def clearPortGauges (p : Nat) (s : State) : State :=
  { s with gauges := s.gauges.filter (fun e => !(e.1.set == 0 && e.1.a == p)) }

/-- Bring one port of a group to its new configuration (R90, Table PRT-3). DESIGN CHOICE (assumption 92): the PFC settings,
the reserved headroom and the MACsec associations of a port that changes or goes are kept. -/
def reconfigure (cs : List PortCfg) (p : Nat) (s : State) : State :=
  let q := s.port p
  match cs.find? (fun c => c.port == p) with
  | none => if q.mode = 0 then s else (portDown p 6 .disabled (clearPortGauges p s)).modPort p fun q => { q with mode := 0 }
  | some c =>
    if q.mode = c.mode ∧ q.medium = c.medium ∧ q.an = c.an ∧ q.txInvert = c.tx ∧ q.rxInvert = c.rx then
      s.setPort p { q with trainMs := c.trainMs, degrade := c.degrade }
    else
      let s := if q.mode = 0 then s else portDown p 6 .disabled s
      (clearPortGauges p s).modPort p fun q => { q with
        mode := c.mode, medium := c.medium, an := c.an, txInvert := c.tx, rxInvert := c.rx, trainMs := c.trainMs,
        degrade := c.degrade, since := s.now, st := if c.an then .negotiate else .train }

def bodyPortConfig (r : KReq) (s : State) : Ans :=
  let p := par r
  match portCfgs p with
  | none => refuse s (if plen r = 32 then St.badParam else St.badLength)
  | some cs =>
    if plen r ≠ 32 then refuse s St.badLength
    else if cs.any (fun c => decide (c.port < 512) &&
        (List.range (modeLanes c.mode)).any (fun i => s.hlt.retiredLanes.contains (c.port + i))) then
      refuse s St.exhausted
    else { done s with after := fun s => (groupPorts (byteAt p 0)).foldl (fun s n => linkRow n 13 (reconfigure cs n) s) s }

def execPortConfig (t : Time) (r : KReq) (s : State) : Host.Outcome State Fault Refusal :=
  command 0x0201 bodyPortConfig t r s

/-! ### PORT_STATE and PORT_GAUGES (03 R92, R113, R114) -/

/-- PRT_LINK (Table PRT-7). -/
def Port.linkWord (q : Port) (now : Time) : Nat :=
  q.st.code * 2 ^ 29 + q.mode * 2 ^ 26 + q.medium * 2 ^ 24 + ofBool q.anDone * 2 ^ 23 + ofBool q.localFault * 2 ^ 22 +
    ofBool q.remoteFault * 2 ^ 21 + q.lastDown * 2 ^ 16 + q.downCount.toNat * 2 ^ 8 +
    (if q.st == .damped then ceilDiv (q.dampUntil - now) (sec 1) else 0)

/-- PRT_PFC_WD (Table PRT-9). -/
def Port.wdWord (q : Port) : Nat := q.pfc.stuck.toNat * 2 ^ 8 + q.pfc.lossless.toNat

def bodyPortState (r : KReq) (s : State) : Ans :=
  let p := be (par r) 0 2
  checks s [(plen r != 8, St.badLength), (!s.portExists p, St.badParam)] fun _ =>
    done s [toBe 4 ((s.port p).linkWord s.now) ++ toBe 4 (s.port p).wdWord]

def execPortState (t : Time) (r : KReq) (s : State) : Host.Outcome State Fault Refusal :=
  command 0x0202 bodyPortState t r s

/-- The lossless classes of a port, ascending, padded to four with a class no gauge counts. -/
def losslessList (q : Port) : List Nat :=
  let l := (List.range 8).filter fun c => q.pfc.lossless.getLsbD c
  l ++ List.replicate (4 - l.length) 8

/-- Nanoseconds of the present uninterrupted time in which some class is held by received PFC (R114). -/
def Port.heldNow (q : Port) (now : Time) : Nat :=
  match q.pfc.heldSince with
  | none => 0
  | some h => (min now (q.pfc.pausedUntil.foldl (fun m e => max m e.2) q.pfc.heldTo) - h) / 24

/-- The 40 gauges of a port in the order of Table PRT-10. Rows 1 to 4 of set 0 hold the gauges kept by class. -/
def portGauges (p : Nat) (s : State) : List Nat :=
  let g (row i : Nat) := gaugeVal s.gauges (gk 0 row i p)
  let l := losslessList (s.port p)
  (List.range 13).map (g 0) ++ (List.range 8).map (g 1) ++ l.map (g 2) ++ l.map (g 3) ++ l.map (g 4) ++
    (List.range 6).map (fun i => g 0 (33 + i)) ++ [(g 0 39 + (s.port p).heldNow s.now) % 2 ^ 64]

/-- One port of a PORT_GAUGES reply: 328 bytes. -/
def portGaugeBytes (p : Nat) (s : State) : Bytes :=
  toBe 2 p ++ zeros 6 ++ ((portGauges p s).map (toBe 8)).flatten

/-- Cut a list in runs of `n`. -/
def runs {α : Type} (n : Nat) (l : List α) (fuel : Nat) : List (List α) :=
  match fuel with
  | 0 => []
  | k + 1 => if l.isEmpty then [] else l.take n :: runs n (l.drop n) k

def bodyPortGauges (r : KReq) (s : State) : Ans :=
  let p := par r
  let n := be p 8 2
  let ps := (List.range n).map fun i => be p (16 + 2 * i) 2
  checks s [(!oneFrag r || plen r != 16 + roundUp (2 * n) 8, St.badLength),
      (n == 0 || decide (192 < n) || ps.any (fun x => !s.portExists x), St.badParam)] fun _ =>
    done s ((runs 12 ps 17).map fun l => toBe 2 l.length ++ zeros 6 ++ (l.map (fun x => portGaugeBytes x s)).flatten)

def execPortGauges (t : Time) (r : KReq) (s : State) : Host.Outcome State Fault Refusal :=
  command 0x0203 bodyPortGauges t r s

/-! ### MACsec associations (03 R99–R104) -/

/-- Install or delete an association on a transmit channel; `act` activates it (R100, R102). DESIGN CHOICE (assumption 92): an
association installed under another SCI renames the channel and keeps the others; deleting the one in use with ACTIVATE leaves
none active, and the port sends without MACsec. -/
def txSaSet (q : Port) (sci an : Nat) (sa : Option Sa) (act : Bool) : Port :=
  let (_, sas, cur) := q.tx.getD (sci, [], none)
  match sa with
  | some x => { q with tx := some (sci, Tab.set sas an x, if act then some an else cur) }
  | none =>
    let sas := Tab.del sas an
    { q with tx := if sas.isEmpty then none else some ((q.tx.map (·.1)).getD sci, sas, if cur = some an then none else cur) }

/-- Install or delete an association on receive channel `sc` (R100, R103). DESIGN CHOICE (assumption 92): one installed under
another SCI drops the channel's other associations. -/
def rxSaSet (q : Port) (sc sci an : Nat) (sa : Option Sa) : Port :=
  match sa with
  | some x =>
    let old := match Tab.get? q.rx sc with
      | some c => if c.sci = sci then c.sas else []
      | none => []
    { q with rx := Tab.set q.rx sc ⟨sci, Tab.set old an x⟩ }
  | none =>
    match Tab.get? q.rx sc with
    | none => q
    | some c =>
      let sas := Tab.del c.sas an
      { q with rx := if sas.isEmpty then Tab.del q.rx sc else Tab.set q.rx sc ⟨c.sci, sas⟩ }

def bodyMacsecSaSet (r : KReq) (s : State) : Ans :=
  let p := par r
  let port := be p 0 2
  let tx := byteAt p 2 == 0
  let sc := byteAt p 3
  let an := byteAt p 4
  let suite := byteAt p 5
  let act := bitOf (byteAt p 6) 0
  let del := bitOf (byteAt p 6) 1
  let q := s.port port
  let inUse := (q.tx.map (·.2.2)).getD none == some an
  let key := s.unwrap r.sess (slice p 48 64)
  checks s [(plen r != 112, St.badLength),
      (!s.portExists port || decide (1 < byteAt p 2) || decide ((if tx then 0 else 3) < sc) || decide (3 < an), St.badParam),
      (!(suite == 1 || suite == 2), St.badParam),
      (suite == 1 && (be p 16 4 != 0 || be p 24 16 != 0), St.badParam),
      (!tx && (act || decide (65535 < be p 40 4)), St.badParam),
      (tx && inUse && !act, St.badParam),
      (!del && key.isNone, St.badParam)] fun _ =>
    let sa : Option Sa := if del then none else
      some { suite := suite, nextPn := be p 16 8, ssci := be p 24 4, salt := slice p 28 12, key := key.getD 0,
             window := be p 40 4 }
    done (s.setPort port (if tx then txSaSet q (be p 8 8) an sa act else rxSaSet q sc (be p 8 8) an sa))

def execMacsecSaSet (t : Time) (r : KReq) (s : State) : Host.Outcome State Fault Refusal :=
  command 0x0204 bodyMacsecSaSet t r s

end Sys2Proof.Machine
end

