-- ==== Sys2Proof/Machine/Buffers.lean ====
section
/-! DEFINITION. VOQs, guaranteed minimums, the reservoir and headroom (04 R131–R134, 05 R174), and priority flow control
(03 R105–R111). -/

namespace Sys2Proof.Machine

/-- Key of VOQ (pipeline, egress port, class). -/
def voqKey (pipe port cls : Nat) : Nat := (pipe * 512 + port) * 8 + cls

/-- Key of the multicast account of (pipeline, class). -/
def acctKey (pipe cls : Nat) : Nat := 65536 + pipe * 8 + cls

/-- Account of the mirror copies in a VOQ: they have no guaranteed minimum (04 R152). -/
def mirrorKey (voq : Nat) : Nat := 131072 + voq

/-- Pipeline of a VOQ or an account. -/
def keyPipe (k : Nat) : Nat := if k < 65536 then k / 4096 else if k < 131072 then (k - 65536) / 8 else (k - 131072) / 4096

/-- Die of a VOQ or an account. -/
def keyDie (k : Nat) : Nat := if keyPipe k < 8 then 0 else 1

/-- Sum of a list. -/
def sumL (l : List Nat) : Nat := l.foldl (· + ·) 0

/-- Cells a frame of `len` bytes fills (R133). -/
def cellsOf (len : Nat) : Nat := ceilDiv len 256

def State.gmin (s : State) (k : Nat) : Nat := Tab.getD s.sw.gmin k 0
def State.alpha (s : State) (k : Nat) : Nat := Tab.getD s.sw.alpha k 6

/-- Cells a VOQ or account holds. -/
def State.used (s : State) (k : Nat) : Nat := sumL ((s.sw.frames.filter (fun e => e.2.acct == k)).map (fun e => e.2.cells))

/-- Of those, the cells that lie within its minimum: taken neither from the reservoir nor from headroom (R133). -/
def State.minUsed (s : State) (k : Nat) : Nat :=
  sumL ((s.sw.frames.filter (fun e => e.2.acct == k)).map (fun e => e.2.cells - e.2.fromRsv - e.2.fromHead))

/-- GMIN summed over a die (SWC_GMIN_SUM). -/
def State.gminSum (s : State) (die : Nat) : Nat :=
  sumL ((s.sw.gmin.filter (fun e => keyDie e.1 == die)).map (·.2))

/-- Lossless classes of a port. -/
def Port.losslessCount (q : Port) : Nat := popcount 8 q.pfc.lossless.toNat

/-- Headroom reserved on a die (R106, SWC_HEADROOM). -/
def State.headroom (s : State) (die : Nat) : Nat :=
  sumL ((s.ports.filter (fun e => decide (e.1 < 512) && portDie e.1 == die)).map
    (fun e => e.2.pfc.headroom * e.2.losslessCount))

/-- Size of a die's reservoir (R132, SWC_RSV_SHARED). -/
def State.rsvSize (s : State) (die : Nat) : Nat := 393216 - s.gminSum die - s.headroom die

/-- Cells of the reservoir that hold spray cells waiting for reordering, by the die of the egress port (R143). -/
def State.reorderCells (s : State) (die : Nat) : Nat :=
  sumL (s.sw.reorder.map fun e =>
    if portDie (e.1 / 8 % 512) = die then sumL (e.2.held.map fun c => cellsOf c.data.length) else 0)

/-- Reservoir cells of a die in use by VOQs and accounts: each frame's cells return to the place they were taken from. -/
def State.rsvUsed (s : State) (die : Nat) : Nat :=
  sumL ((s.sw.frames.filter (fun e => keyDie e.2.acct == die)).map (fun e => e.2.fromRsv))

/-- Free reservoir cells of a die (SWC_RSV_FREE). -/
def State.rsvFree (s : State) (die : Nat) : Nat := s.rsvSize die - s.rsvUsed die - s.reorderCells die

/-- α·x for an ALPHA code, rounded down; α = 2^(ALPHA − 6) (R132). -/
def alphaMul (code x : Nat) : Nat := x * 2 ^ code / 64

/-! ### Scheduler settings of a port (05 R164) -/

def State.schedOf (s : State) (p : Nat) : Sched := Tab.getD s.trf.sched p {}

def Sched.parent (c : Sched) (cls : Nat) : Nat := Tab.getD c.classParent cls 0

def State.modSched (s : State) (p : Nat) (f : Sched → Sched) : State :=
  { s with trf := { s.trf with sched := Tab.set s.trf.sched p (f (s.schedOf p)) } }

def Port.lossless (q : Port) (c : Nat) : Bool := q.pfc.lossless.getLsbD c

/-- A class is paused on a port now. -/
def Port.paused (q : Port) (c : Nat) (now : Time) : Bool :=
  q.lossless c && !q.pfc.stuck.getLsbD c && ((Tab.get? q.pfc.pausedUntil c).elim false fun t => decide (now < t))

/-- One byte in the meters' units: 1/1,920,000 byte, the fill of one tick at 100 kbit/s. -/
def byteTokens : Nat := 1920000

/-- Switch-core cycles of 15 ticks between two instants. -/
def coreCycles (a b : Time) : Nat := b / 15 - a / 15

/-! ### Shapers' fill (05 R171) -/

/-- Key of a shaper: 0 the port, 1–8 the levee groups, 9–16 the classes. -/
def shaperKey (port i : Nat) : Nat := port * 17 + i

/-- A shaper filled up to now. -/
def Shaper.fill (x : Shaper) (now : Time) : Shaper :=
  { x with tokens := min (x.burst * byteTokens) (x.tokens + x.rate * 15 * coreCycles x.last now), last := now }

/-- When a shaper comes to hold more than zero tokens, held to 1/256 byte; 0 where it already does or never blocks. -/
def Shaper.opensAt (x : Shaper) : Time :=
  if x.rate = 0 ∨ (7500 : Int) ≤ x.tokens then 0
  else 15 * (x.last / 15 + ceilDiv (7500 - x.tokens).toNat (15 * x.rate))

/-- The shapers on the path of a class. -/
def shaperPath (s : State) (port cls : Nat) : List Nat :=
  [shaperKey port 0, shaperKey port (1 + (s.schedOf port).parent cls), shaperKey port (9 + cls)]

/-- When every shaper on the path of a class holds tokens. -/
def pathOpensAt (s : State) (port cls : Nat) : Time :=
  (shaperPath s port cls).foldl (fun m k => max m ((Tab.get? s.trf.shapers k).elim 0 Shaper.opensAt)) 0

/-- Every shaper on the path holds more than zero tokens, held to 1/256 byte; RATE 0 never blocks (R167, R171). -/
def shapersOpen (s : State) (port cls : Nat) : Bool :=
  (shaperPath s port cls).all fun k =>
    match Tab.get? s.trf.shapers k with
    | none => true
    | some x => x.rate == 0 || decide ((7500 : Int) ≤ (x.fill s.now).tokens)

/-! ### Eligibility (05 R167) and SHAPED_NS (05 Table TRF-7) -/

/-- The head of a leaf's VOQ; leaf = class × 16 + pipeline. -/
def headCopy (s : State) (port leaf : Nat) : Option Copy := (Tab.getD s.sw.voqs (voqKey (leaf % 16) port (leaf / 16)) []).head?

/-- The class waits for port-down discards: copies of the time before the port last left UP are still queued (R167). The
discards of a retire limit and of the reorder timeout are complete in the row that orders them (assumption 93). -/
def waitsDiscard (s : State) (port cls : Nat) : Bool :=
  s.sw.stale.any fun e => e.1 / 8 % 512 == port && e.1 % 8 == cls && e.2 != 0

/-- A leaf may be served (R167): it holds a frame, its class is not paused and waits for no discard, its shapers hold
tokens. -/
def eligible (s : State) (port leaf : Nat) : Bool :=
  (headCopy s port leaf).isSome && !(s.port port).paused (leaf / 16) s.now && !waitsDiscard s port (leaf / 16) &&
    shapersOpen s port (leaf / 16)

/-- A class has a frame queued for the port. -/
def classQueued (s : State) (port cls : Nat) : Bool := (List.range 16).any fun i => (headCopy s port (cls * 16 + i)).isSome

/-- Ticks between `since` and now in which a class that held a frame all the time was held back by a shaper alone: from the
end of its pause, of its discards and of the port's time out of UP, to the refill of the last shaper on its path. -/
def shapedTicks (s : State) (port cls : Nat) (since : Time) : Nat :=
  let q := s.port port
  let start := max since ((Tab.get? q.pfc.pausedUntil cls).elim 0 fun t => if q.lossless cls && !q.pfc.stuck.getLsbD cls then t else 0)
  let stop := min s.now (pathOpensAt s port cls)
  if waitsDiscard s port cls then 0
  else if s.portUp port then stop - max start q.since
  else min stop q.since - start

/-- SHAPED_NS of a class not yet counted. -/
def shapedNow (s : State) (port cls : Nat) : Nat :=
  match Tab.get? (s.schedOf port).shaped cls with
  | some t => if classQueued s port cls then shapedTicks s port cls t / 24 else 0
  | none => 0

/-- Count SHAPED_NS of every class of a port up to now; called before anything it depends on changes. -/
def shapedMark (port : Nat) (s : State) : State :=
  (List.range 8).foldl (fun s cls =>
    if classQueued s port cls then
      (s.count (gk 2 2 0 port cls) (shapedNow s port cls)).modSched port fun x => { x with shaped := Tab.set x.shaped cls s.now }
    else if (Tab.get? (s.schedOf port).shaped cls).isSome then s.modSched port fun x => { x with shaped := Tab.del x.shaped cls }
    else s) s

/-! ### Priority flow control (03 R105–R111) -/

/-- Ticks of `n` pause quanta of 512 bits at a port's rate. -/
def quantaTicks (n lanes : Nat) : Nat := n * 6144 / (100 * max 1 lanes)

/-- Cells held by frames received from a port in a class, held spray cells included (R107, R143). -/
def State.pfcCount (s : State) (p c : Nat) : Nat :=
  sumL ((s.sw.frames.filter (fun e => e.2.orig.isNone && !e.2.mirror && e.2.frame.port == p && e.2.cls == c)).map (fun e => e.2.cells)) +
  sumL (s.sw.reorder.map fun e =>
    if e.1 % 8 = c then sumL ((e.2.held.filter (fun x => x.port == p)).map fun x => cellsOf x.data.length) else 0)

/-- A PFC frame of 64 bytes leaves now, from the port's own MAC (R552): PFC_TX, TX_FRAMES, TX_BYTES and the port's time. -/
def pfcNow (p c quanta : Nat) (s : State) : State :=
  let s := (((s.emit (.pfc p (s.portMac p) c quanta)).count (gk 0 2 c p) 1).count (gk 0 0 2 p) 1).count (gk 0 0 3 p) 64
  s.modSched p fun x => { x with busy := max s.now x.busy + wireTicks 84 (s.port p).lanes }

/-- Send a PFC frame for one class: at once, or at the end of the frame in transmission, ahead of any other (R107). -/
def sendPfc (p c quanta : Nat) (s : State) : State :=
  let s :=
    if !s.portUp p then s
    else if (Tab.getD s.sw.txing p []).isEmpty then pfcNow p c quanta s
    else s.modPort p fun q => { q with pfcWait := q.pfcWait ++ [(c, quanta)] }
  s.modPort p fun q => { q with pfc := { q.pfc with
    sent := if quanta = 0 then Tab.del q.pfc.sent c else Tab.set q.pfc.sent c s.now } }

/-- XOFF once the count has reached it (R107). -/
def pfcXoff (p c : Nat) (s : State) : State :=
  let q := s.port p
  if q.lossless c && (Tab.get? q.pfc.sent c).isNone && decide (q.pfc.xoff ≤ s.pfcCount p c) then sendPfc p c 0xFFFF s else s

/-- XON once the count has fallen to XOFF − HYST (R107). -/
def pfcXon (p c : Nat) (s : State) : State :=
  let q := s.port p
  if (Tab.get? q.pfc.sent c).isSome && decide (s.pfcCount p c ≤ q.pfc.xoff - q.pfc.hyst) then sendPfc p c 0 s else s

/-- The pause repeated every 0x8000 quanta while the count stays at or above XOFF − HYST (R107). -/
def pfcRepeat (p c : Nat) (s : State) : State :=
  let q := s.port p
  match Tab.get? q.pfc.sent c with
  | none => s
  | some t =>
    if q.pfc.xoff - q.pfc.hyst ≤ s.pfcCount p c ∧ t + quantaTicks 0x8000 q.lanes ≤ s.now then sendPfc p c 0xFFFF s else s

/-- End the uninterrupted pause of a class at an instant. When no class stays held, the time some class was held is added to
PAUSED_NS (R114). -/
def endPause (p c : Nat) (at_ : Time) (s : State) : State :=
  let q := s.port p
  match Tab.get? q.pfc.pausedUntil c with
  | none => s
  | some _ =>
    let rest := Tab.del q.pfc.pausedUntil c
    let upTo := max at_ q.pfc.heldTo
    let held := if rest.isEmpty then q.pfc.heldSince.elim 0 fun h => (upTo - h) / 24 else 0
    let s := s.modPort p fun q => { q with pfc := { q.pfc with
      pausedUntil := rest, pausedSince := Tab.del q.pfc.pausedSince c, resumed := Tab.set q.pfc.resumed c at_, heldTo := upTo,
      heldSince := if rest.isEmpty then none else q.pfc.heldSince } }
    s.count (gk 0 0 39 p) held

/-- End the pauses of a port whose time has passed before now. -/
def pastPauses (p : Nat) (s : State) : State :=
  ((s.port p).pfc.pausedUntil.filter fun e => decide (e.2 < s.now)).foldl (fun s e => endPause p e.1 e.2 s) s

/-- The pause a received PFC frame gives one class (R109, R111). -/
def pfcReceiveClass (p c quanta : Nat) (s : State) : State :=
  let q := s.port p
  let s := s.count (gk 0 1 c p) 1
  if !q.lossless c then s
  else
    let s := if quanta ≠ 0 then s.modPort p fun q => { q with pfc := { q.pfc with lastPause := Tab.set q.pfc.lastPause c s.now } }
             else s
    if q.pfc.stuck.getLsbD c then s
    else if quanta = 0 then
      match Tab.get? q.pfc.pausedSince c with
      | none => s
      | some t => (endPause p c s.now s).modPort p fun q => { q with pfc := { q.pfc with ended := Tab.set q.pfc.ended c (s.now, t) } }
    else s.modPort p fun q => { q with pfc := { q.pfc with
      pausedUntil := Tab.set q.pfc.pausedUntil c (s.now + quantaTicks quanta q.lanes),
      pausedSince := if (Tab.get? q.pfc.pausedSince c).isSome then q.pfc.pausedSince else Tab.set q.pfc.pausedSince c s.now,
      heldSince := if q.pfc.heldSince.isSome then q.pfc.heldSince else some s.now,
      heldTo := if q.pfc.heldSince.isSome then q.pfc.heldTo else s.now } }

/-- A received PFC frame: class-enable vector and eight times (R109). -/
def pfcReceive (p : Nat) (enable : BitVec 8) (times : List Nat) (s : State) : State :=
  if s.portUp p then
    (List.range 8).foldl (fun s c => if enable.getLsbD c then pfcReceiveClass p c (times.getD c 0) s else s)
      (pastPauses p (shapedMark p s))
  else s

/-- The pause time of a class has elapsed (R109). -/
def pauseExpiry (p c : Nat) (s : State) : State :=
  match Tab.get? (s.port p).pfc.pausedUntil c with
  | some t => if t ≤ s.now then endPause p c t (shapedMark p s) else s
  | none => s

/-- Since when a class has been paused without interruption up to now. A PFC frame of this very cycle that ended the pause is
ignored (R110). -/
def Port.heldFrom (q : Port) (c : Nat) (now : Time) : Option Time :=
  if (Tab.get? q.pfc.pausedUntil c).elim false fun t => decide (now ≤ t) then Tab.get? q.pfc.pausedSince c
  else ((Tab.get? q.pfc.ended c).filter fun e => e.1 == now).map (·.2)

/-- The watchdog: paused for WD_MS without interruption (R110). -/
def pfcWatchdog (p c : Nat) (s : State) : State :=
  let q := s.port p
  match q.heldFrom c s.now with
  | none => s
  | some t =>
    if q.lossless c && !q.pfc.stuck.getLsbD c && decide (t + ms q.pfc.wdMs ≤ s.now) then
      let s := endPause p c s.now (shapedMark p s)
      let s := (s.modPort p fun q => { q with pfc := { q.pfc with stuck := setBit q.pfc.stuck c } }).portEvent p (24 + c)
      s.ledger 0x0012 (srcOf 3 p) (recBody [(32, 2, p), (34, 1, c)])
    else s

/-- No pausing PFC for WD_MS clears STUCK (R111). -/
def stuckRecovery (p c : Nat) (s : State) : State :=
  let q := s.port p
  let quiet := (Tab.get? q.pfc.lastPause c).elim true fun t => decide (t + ms q.pfc.wdMs ≤ s.now)
  if q.pfc.stuck.getLsbD c && quiet then
    (shapedMark p s).modPort p fun q => { q with pfc := { q.pfc with stuck := clearBit q.pfc.stuck c } }
  else s

def execPfcXon (t : Time) (p c : Nat) (s : State) : Host.Outcome State Fault Refusal := .next (pfcXon p c (s.tick t))
def execPfcRepeat (t : Time) (p c : Nat) (s : State) : Host.Outcome State Fault Refusal :=
  .next (pfcRepeat p c (s.tick t))
def execPfcFrameReceive (t : Time) (p : Nat) (enable : BitVec 8) (times : List Nat) (s : State) :
    Host.Outcome State Fault Refusal :=
  .next (pfcReceive p enable times ((s.tick t).count (gk 0 0 0 p) 1 |>.count (gk 0 0 1 p) 64))
def execPauseExpiry (t : Time) (p c : Nat) (s : State) : Host.Outcome State Fault Refusal :=
  .next (pauseExpiry p c (s.tick t))
def execPfcWatchdogTrip (t : Time) (p c : Nat) (s : State) : Host.Outcome State Fault Refusal :=
  .next (pfcWatchdog p c (s.tick t))
def execStuckClassRecovery (t : Time) (p c : Nat) (s : State) : Host.Outcome State Fault Refusal :=
  .next (stuckRecovery p c (s.tick t))

/-- PFC_SET (R105, R106, R111). -/
def bodyPfcSet (r : KReq) (s : State) : Ans :=
  let p := par r
  let port := be p 0 2
  let ll := BitVec.ofNat 8 (byteAt p 2)
  let xoff := be p 8 4
  let q := s.port port
  let s1 := (shapedMark port s).setPort port { q with pfc := { q.pfc with
    lossless := ll, wdMs := be p 4 2, xoff := xoff, hyst := be p 12 2, headroom := be p 14 2 } }
  let die := portDie port
  let old := q.pfc.headroom * q.losslessCount
  let new := (s1.port port).pfc.headroom * (s1.port port).losslessCount
  checks s [(plen r != 16, St.badLength),
      (decide (511 < port) || !s.portExists port || decide (4 < popcount 8 ll.toNat), St.badParam),
      (be p 4 2 == 0 || decide (1000 < be p 4 2) || decide (xoff < 8) || decide (65535 < xoff) || be p 12 2 == 0 ||
        decide (xoff < be p 12 2), St.badParam),
      (decide (s.rsvFree die < new - old), St.exhausted)] fun _ =>
    let gone := (List.range 8).filter fun c => !ll.getLsbD c && (Tab.get? q.pfc.sent c).isSome
    let s2 := gone.foldl (fun s c => sendPfc port c 0 s) s1
    let lossy := (List.range 8).filter fun c => !ll.getLsbD c
    let s2 := lossy.foldl (fun s c => endPause port c s.now s) (pastPauses port s2)
    let s3 := s2.modPort port fun q => { q with pfc := { q.pfc with
      stuck := 0, pausedSince := q.pfc.pausedSince.map (fun e => (e.1, s.now)), ended := [] } }
    done ((List.range 8).foldl (fun s c => pfcXoff port c s) s3)

def execPfcSet (t : Time) (r : KReq) (s : State) : Host.Outcome State Fault Refusal := command 0x0205 bodyPfcSet t r s

/-! ### BUFFER_SET (05 R174, 04 R134) -/

/-- The VOQs or accounts that BUFFER_SET names. -/
def bufferKeys (p : Bytes) : List Nat :=
  let pipes := bitList 16 (be p 0 2)
  let classes := bitList 8 (byteAt p 6)
  if bitOf (byteAt p 7) 2 then pipes.flatMap fun i => classes.map fun c => acctKey i c
  else
    let lo := be p 2 2
    let hi := be p 4 2
    pipes.flatMap fun i => (List.range (hi + 1 - lo)).flatMap fun j => classes.map fun c => voqKey i (lo + j) c

/-- Write a setting on many keys; a default value is not listed. -/
def setAll (d v : Nat) (ks : List Nat) (t : Tab Nat) : Tab Nat :=
  ks.foldl (fun t k => if v = d then Tab.del t k else Tab.set t k v) t

/-- Turn `n` cells of an account that lie within its minimum into reservoir cells, the oldest frames' first (R134). -/
def intoRsv (k n : Nat) (l : Tab FrameRec) : Tab FrameRec :=
  match l with
  | [] => []
  | (i, f) :: r =>
    if f.acct = k then
      let m := min n (f.cells - f.fromRsv - f.fromHead)
      (i, { f with fromRsv := f.fromRsv + m }) :: intoRsv k (n - m) r
    else (i, f) :: intoRsv k n r

/-- A minimum lowered below the cells within it turns the excess into reservoir cells (R134). -/
def settleMin (s : State) (k : Nat) : State :=
  { s with sw := { s.sw with frames := intoRsv k (s.minUsed k - s.gmin k) s.sw.frames } }

/-- Cells a die's reservoir would have left after new minimums; negative when it could not give them (R134). -/
def rsvLeft (s : State) (die : Nat) : Int :=
  (393216 : Int) - s.gminSum die - s.headroom die - s.rsvUsed die - s.reorderCells die

def bodyBufferSet (r : KReq) (s : State) : Ans :=
  let p := par r
  let setG := bitOf (byteAt p 7) 0
  let setA := bitOf (byteAt p 7) 1
  let mc := bitOf (byteAt p 7) 2
  let ks := bufferKeys p
  let s1 : State := { s with sw := { s.sw with
    gmin := if setG then setAll 0 (be p 8 2) ks s.sw.gmin else s.sw.gmin,
    alpha := if setA then setAll 6 (byteAt p 10) ks s.sw.alpha else s.sw.alpha } }
  let s1 := if setG then ((s1.sw.frames.map (·.2.acct)).eraseDups).foldl settleMin s1 else s1
  checks s [(plen r != 16, St.badLength),
      ((!setG && !setA) || (!mc && (decide (511 < be p 4 2) || decide (be p 4 2 < be p 2 2))) ||
        (setA && decide (9 < byteAt p 10)), St.badParam)] fun _ =>
    if 393216 < s1.gminSum 0 ∨ 393216 < s1.gminSum 1 then guardReject s r 0 10
    else if setG && (decide (rsvLeft s1 0 < 0) || decide (rsvLeft s1 1 < 0)) then refuse s St.exhausted
    else done s1

def execBufferSet (t : Time) (r : KReq) (s : State) : Host.Outcome State Fault Refusal :=
  command 0x0404 bodyBufferSet t r s

end Sys2Proof.Machine
end

