-- ==== Sys2Proof/Machine/Traffic.lean ====
section
/-! DEFINITION. Headgate meters, pre-colour, the flattened scheduler's weights and quanta, and shapers (05 R154–R173,
R553). -/

namespace Sys2Proof.Machine

/-! ### Meters (05 R154–R160) -/

/-- Colours (05 R161). -/
abbrev Col.green : Nat := 0
abbrev Col.yellow : Nat := 1
abbrev Col.red : Nat := 2

/-- A meter filled up to now: exactly its rate, capped at its depth (R158, R553). -/
def Meter.fill (m : Meter) (now : Time) : Meter :=
  let n := 15 * coreCycles m.last now
  { m with
    tc := min (m.cbs * byteTokens) (m.tc + m.cir * n), tp := min (m.pbs * byteTokens) (m.tp + m.pir * n), last := now }

/-- Colour a frame of `b` bytes and debit the buckets (R158). -/
def Meter.colour (m : Meter) (pre b : Nat) : Nat × Meter :=
  let need := b * byteTokens
  if (m.aware && pre == Col.red) || decide (m.tp < need) then (Col.red, m)
  else if (m.aware && pre == Col.yellow) || decide (m.tc < need) then (Col.yellow, { m with tp := m.tp - need })
  else (Col.green, { m with tp := m.tp - need, tc := m.tc - need })

/-- Key of a meter on a die. -/
def meterKey (die m : Nat) : Nat := die * 8192 + m

/-- The pre-colour of a frame (R161, R162). -/
def precolour (s : State) (f : Frame) : Nat :=
  match Tab.get? s.trf.precolour f.port with
  | none => Col.green
  | some c =>
    if c.source = 1 then
      match f.ip with
      | some i => bitsOf (byteAt c.dscpMap (i.dscp / 4)) (7 - 2 * (i.dscp % 4)) (6 - 2 * (i.dscp % 4))
      | none => Col.green
    else if c.source = 2 then
      match f.vlan with
      | some v => if v.dei = 0 then c.deiMap % 4 else c.deiMap / 4 % 4
      | none => Col.green
    else Col.green

/-- Remark a frame (R159). -/
def remark (f : Frame) (dscp : Nat) : Frame :=
  match f.ip with
  | some i => { f with ip := some { i with dscp := dscp % 64 } }
  | none =>
    match f.vlan with
    | some v => { f with vlan := some { v with dei := 1 } }
    | none => f

/-- Meter a frame of a class and levee: the frame to pass on, none when it is discarded (R155, R158, R159). -/
def headgate (s : State) (f : Frame) (cls levee : Nat) : State × Option Frame :=
  let die := portDie f.port
  let m := 8 * levee + cls
  match Tab.get? s.trf.meters (meterKey die m) with
  | none => (s.count (gk 2 0 0 m die) f.len, some f)
  | some mt =>
    if !mt.enable then (s.count (gk 2 0 0 m die) f.len, some f)
    else
      let (c, mt') := (mt.fill s.now).colour (precolour s f) f.len
      let s := { s with trf := { s.trf with meters := Tab.set s.trf.meters (meterKey die m) mt' } }
      let s := s.count (gk 2 0 c m die) f.len
      if c = Col.green then (s, some f)
      else if c = Col.yellow then
        if mt.yellowAct = 2 then (s.count (gk 2 0 3 m die) 1, none)
        else (s, some (if mt.yellowAct = 1 then remark f mt.yellowDscp else f))
      else if mt.redAct = 0 then (s.count (gk 2 0 3 m die) 1, none)
      else (s, some (remark f mt.redDscp))

/-- METER_SET (R156, R157, R160). -/
def bodyMeterSet (r : KReq) (s : State) : Ans :=
  let p := par r
  let m := be p 0 2
  let cir := be p 8 4
  let pir := be p 12 4
  let cbs := be p 16 4
  let pbs := be p 20 4
  let depthBad (x : Nat) : Bool := decide (x < 9216) || decide (268435456 < x)
  checks s [(plen r != 24, St.badLength),
      (decide (8191 < m) || decide (2 < byteAt p 2) || decide (2 < byteAt p 4) || decide (1 < byteAt p 5) ||
        decide (63 < byteAt p 6) || decide (63 < byteAt p 7), St.badParam),
      (cir == 0 || decide (512000000 < pir) || decide (pir < cir) || depthBad cbs || depthBad pbs, St.badParam)] fun _ =>
    let mt : Meter :=
      { enable := bitOf (byteAt p 3) 0, aware := bitOf (byteAt p 3) 1, yellowAct := byteAt p 4, redAct := byteAt p 5,
        yellowDscp := byteAt p 6, redDscp := byteAt p 7, cir := cir, pir := pir, cbs := cbs, pbs := pbs,
        tc := if bitOf (byteAt p 3) 0 then cbs * byteTokens else 0,
        tp := if bitOf (byteAt p 3) 0 then pbs * byteTokens else 0, last := s.now }
    let dies := if byteAt p 2 = 2 then [0, 1] else [byteAt p 2]
    done { s with trf := { s.trf with meters := dies.foldl (fun t d => Tab.set t (meterKey d m) mt) s.trf.meters } }

def execMeterSet (t : Time) (r : KReq) (s : State) : Host.Outcome State Fault Refusal := command 0x0401 bodyMeterSet t r s

/-- PRECOLOUR_SET (R161, R162). -/
def bodyPrecolourSet (r : KReq) (s : State) : Ans :=
  let p := par r
  let port := be p 0 2
  let map := slice p 4 16
  let bad := (List.range 64).any fun c => bitsOf (byteAt map (c / 4)) (7 - 2 * (c % 4)) (6 - 2 * (c % 4)) == 3
  checks s [(plen r != 24, St.badLength),
      (decide (511 < port) || !s.portExists port || decide (2 < byteAt p 2) || bad || byteAt p 20 % 4 == 3 ||
        byteAt p 20 / 4 % 4 == 3 || decide (15 < byteAt p 20), St.badParam)] fun _ =>
    let c : Precolour := { source := byteAt p 2, dscpMap := map, deiMap := byteAt p 20 }
    done { s with trf := { s.trf with precolour := Tab.set s.trf.precolour port c } }

def execPrecolourSet (t : Time) (r : KReq) (s : State) : Host.Outcome State Fault Refusal :=
  command 0x0405 bodyPrecolourSet t r s

/-! ### Scheduler settings and quanta (05 R163–R165) -/

def Sched.gw (c : Sched) (g : Nat) : Nat := Tab.getD c.groupW g 1
def Sched.cw (c : Sched) (k : Nat) : Nat := Tab.getD c.classW k 1
def Sched.qw (c : Sched) (leaf : Nat) : Nat := Tab.getD c.queueW leaf 1

/-- Groups that have at least one class. -/
def Sched.live (c : Sched) (g : Nat) : Bool := (List.range 8).any fun k => c.parent k == g

/-- A leaf's product as numerator and denominator; leaf = class × 16 + pipeline (R165). -/
def Sched.product (c : Sched) (leaf : Nat) : Nat × Nat :=
  let k := leaf / 16
  let g := c.parent k
  let sq := sumL ((List.range 16).map fun i => c.qw (k * 16 + i))
  let sc := sumL (((List.range 8).filter fun j => c.parent j == g).map c.cw)
  let sg := sumL (((List.range 8).filter c.live).map c.gw)
  (c.qw leaf * c.cw k * c.gw g, sq * sc * sg)

/-- The largest product of the port. -/
def Sched.maxProduct (c : Sched) : Nat × Nat :=
  (List.range 128).foldl (fun m i => let x := c.product i; if m.1 * x.2 < x.1 * m.2 then x else m) (0, 1)

/-- A leaf's quantum in 1/256 byte: 16,384 × P ÷ Pmax rounded down, at least 1/256 byte (R165). -/
def Sched.quantum (c : Sched) (leaf : Nat) : Nat :=
  let x := c.product leaf
  let m := c.maxProduct
  max 1 (16384 * 256 * x.1 * m.2 / (x.2 * m.1))

/-! ### The mesh (05 R175–R177) -/

/-- Age of a message in units of 8 ns, saturating at 4,095 (R176). -/
def meshAge (ticks : Time) : Nat := min 4095 (ticks / ns 8)

/-- A message is delivered on a die: MAX_AGE, and SATURATED with its gauge at age 4,095 (Tables TRF-6 and TRF-7). What its
routers made it wait no rule fixes: Config.meshTicks (assumption 94). -/
def meshDeliver (d : Nat) (s : State) : State :=
  let m := s.meshDie d
  let age := meshAge (Config.meshTicks d m.delivered)
  let m' : MeshDie :=
      { delivered := m.delivered + 1, maxAge := max m.maxAge age, sat := m.sat || age == 4095,
        satAt := if age = 4095 then s.now else m.satAt,
        satCount := m.satCount + (if age = 4095 then 1 else 0) }
  { s with mesh := Tab.set s.mesh d m' }

/-- The message a router grants of those that compete for one output and channel, as (input, age): the oldest; equal ages
round-robin, from the input after the one granted last (R176, R177). -/
def meshGrant (inputs last : Nat) (l : List (Nat × Nat)) : Option (Nat × Nat) :=
  let turn (i : Nat) : Nat := (i + inputs - last % inputs - 1) % inputs
  l.foldl (fun b x => match b with
    | none => some x
    | some y => if y.2 < x.2 ∨ (x.2 = y.2 ∧ turn x.1 < turn y.1) then some x else some y) none

/-- SCHED_SET (R164). -/
def bodySchedSet (r : KReq) (s : State) : Ans :=
  let p := par r
  let port := be p 0 2
  let level := byteAt p 2
  let idx := byteAt p 3
  let parent := byteAt p 4
  let w := be p 6 2
  checks s [(plen r != 8, St.badLength),
      (decide (511 < port) || !s.portExists port || level == 0 || decide (3 < level) || w == 0, St.badParam),
      (decide ((if level = 3 then 15 else 7) < idx) || decide ((if level = 1 then 0 else 7) < parent), St.badParam)] fun _ =>
    done ((shapedMark port s).modSched port fun c =>
      if level = 1 then { c with groupW := Tab.set c.groupW idx w }
      else if level = 2 then { c with classParent := Tab.set c.classParent idx parent, classW := Tab.set c.classW idx w }
      else { c with queueW := Tab.set c.queueW (parent * 16 + idx) w })

def execSchedSet (t : Time) (r : KReq) (s : State) : Host.Outcome State Fault Refusal := command 0x0403 bodySchedSet t r s

/-! ### Shapers (05 R171–R173) -/

/-- Debit a wire length from the shapers on the path (R171); not in the cycle a shaper was set (R173). -/
def debitShapers (s : State) (port cls wire : Nat) : State :=
  { s with trf := { s.trf with shapers := (shaperPath s port cls).foldl (fun t k =>
      Tab.upd t k fun x =>
        if x.rate = 0 ∨ x.last / 15 = s.now / 15 ∧ x.fresh then x
        else { x.fill s.now with tokens := (x.fill s.now).tokens - wire * byteTokens, fresh := false }) s.trf.shapers } }

/-- SHAPER_SET (R172, R173). -/
def bodyShaperSet (r : KReq) (s : State) : Ans :=
  let p := par r
  let port := be p 0 2
  let level := byteAt p 2
  let idx := byteAt p 3
  let rate := be p 8 4
  let burst := be p 12 4
  checks s [(plen r != 16, St.badLength),
      (decide (511 < port) || !s.portExists port || decide (2 < level) || decide ((if level = 0 then 0 else 7) < idx) ||
        !(byteAt p 4 == 1 || byteAt p 4 == 2), St.badParam),
      (decide (16000000 < rate) || decide (burst < 10240) || decide (16777216 < burst), St.badParam)] fun _ =>
    let k := shaperKey port (if level = 0 then 0 else if level = 1 then 1 + idx else 9 + idx)
    let x : Shaper :=
      { rate := rate, burst := burst, tokens := if byteAt p 4 = 1 then burst * byteTokens else 0, last := s.now,
        fresh := true }
    let s := shapedMark port s
    done { s with trf := { s.trf with shapers := Tab.set s.trf.shapers k x } }

def execShaperSet (t : Time) (r : KReq) (s : State) : Host.Outcome State Fault Refusal :=
  command 0x0402 bodyShaperSet t r s

end Sys2Proof.Machine
end

