-- ==== Sys2Proof/Machine/Tables.lean ====
section
/-! DEFINITION. The switching tables: entries, lookups, TABLE_WRITE, TABLE_FLIP and TABLE_STATUS (04 R121–R130). -/

namespace Sys2Proof.Machine

/-- Entries per version (Table SWC-2); table 0x09 as in 06, the forwarding class in place of 0x0A. -/
def tableCap (k : Nat) : Nat :=
  if k = 1 then 262144 else if k = 2 then 262144 else if k = 3 then 65536 else if k = 4 then 4096
  else if k = 5 then 262144 else if k = 6 then 4096 else if k = 7 then 128 else if k = 8 then 512 else 65536

/-- Key bytes a table uses (Table SWC-4); the rest are reserved. -/
def normKey (k : Nat) (b : Bytes) : Bytes :=
  let z (l : List Nat) : Bytes := (List.range 24).map fun i => if l.contains i then b.getD i 0 else 0
  let w (off : Nat) : Bytes := toBe 2 (be b off 2 % 4096)
  if k = 1 then w 0 ++ slice b 2 6 ++ zeros 16
  else if k = 2 then w 0 ++ slice b 2 1 ++ zeros 1 ++ slice b 4 16 ++ zeros 4
  else if k = 5 then z [0, 1, 2]
  else if k = 6 then slice b 0 1 ++ zeros 1 ++ slice b 2 22
  else if k = 7 then z [0]
  else z [0, 1]

/-- Result bytes a table uses, as an entry keeps them (Table SWC-4). -/
def normRes (k : Nat) (b : Bytes) : Bytes :=
  if k = 1 ∨ k = 2 ∨ k = 7 then slice b 0 1 ++ zeros 1 ++ slice b 2 2 ++ zeros 36
  else if k = 3 then slice b 0 2 ++ toBe 2 (be b 2 2 % 4096) ++ slice b 4 13 ++ zeros 23
  else if k = 4 then slice b 0 1 ++ zeros 1 ++ slice b 2 1 ++ zeros 37
  else if k = 5 then slice b 0 2 ++ zeros 38
  else if k = 6 then slice b 0 1 ++ zeros 1 ++ toBe 2 (be b 2 2 % 1024) ++ slice b 4 2 ++ zeros 34
  else slice b 0 2 ++ toBe 2 (be b 2 2 % 1024) ++ slice b 4 36

/-- A well-formed key (R123, R124); a port it names is configured (03 R83). -/
def keyOk (s : State) (k : Nat) (b : Bytes) : Bool :=
  if k = 2 then (byteAt b 2 == 4 && be b 4 12 == 0) || byteAt b 2 == 6
  else if k = 4 then decide (be b 0 2 ≤ 4095)
  else if k = 5 then decide (be b 0 2 ≤ 4095) && decide (byteAt b 2 ≤ 63)
  else if k = 6 then ((byteAt b 0 == 4 && be b 2 12 == 0) || byteAt b 0 == 6) && decide (be b 18 3 ≤ be b 21 3)
  else if k = 7 then decide (byteAt b 0 ≤ 127)
  else if k = 8 then decide (be b 0 2 ≤ 511) && s.portExists (be b 0 2)
  else true

/-- A well-formed result (R123, R124), its ports configured (03 R83); `b` starts at entry byte 24. -/
def resOk (s : State) (k : Nat) (b : Bytes) : Bool :=
  let act := byteAt b 0
  let idx := be b 2 2
  if k = 1 then decide (act ≤ 4) && (act != 0 || (decide (idx ≤ 511) && s.portExists idx)) && (act != 1 || decide (idx ≤ 16383))
  else if k = 2 then decide (act ≤ 3) && (act != 1 || decide (idx ≤ 4095))
  else if k = 3 then decide (be b 0 2 ≤ 511) && s.portExists (be b 0 2) && decide (byteAt b 16 ≤ 1)
  else if k = 4 then decide (act ≤ 1) && decide (1 ≤ byteAt b 2) && decide (byteAt b 2 ≤ 64)
  else if k = 5 then true
  else if k = 6 then decide (act ≤ 3) && (act != 1 || decide (be b 4 2 ≤ 4095))
  else if k = 7 then decide (act ≤ 1) && (act != 1 || decide (idx ≤ 4095))
  else decide (act ≤ 2) && decide (byteAt b 1 ≤ 7) &&
    ((slice b 4 36).all fun x => !bitOf x.toNat 7 && !bitOf x.toNat 3)

/-- Insert, or replace an equal key. -/
def putEntry (l : List Entry) (e : Entry) : List Entry :=
  if l.any (fun x => x.key == e.key) then l.map fun x => if x.key = e.key then e else x else l ++ [e]

def delEntry (l : List Entry) (key : Bytes) : List Entry := l.filter fun x => x.key != key

/-- The write operations of a TABLE_WRITE: (delete, entry), in order (R122, R124). -/
def writeOps (r : KReq) : List (Bool × Bytes) :=
  r.frags.flatMap fun p => (fragEntries p (be p 10 2)).map fun e => (byteAt p 9 == 1, e)

def applyOp (k : Nat) (l : List Entry) (o : Bool × Bytes) : List Entry :=
  if o.1 then delEntry l (normKey k o.2) else putEntry l ⟨normKey k o.2, normRes k (slice o.2 24 40)⟩

/-- Lookup of a key in a version. -/
def SwTable.find (t : SwTable) (v : Nat) (key : Bytes) : Option Bytes :=
  ((t.entries v).find? fun e => e.key == key).map (·.res)

/-- Fields of a STEER entry. -/
def steerLo (e : Entry) : Nat := be e.key 18 3
def steerHi (e : Entry) : Nat := be e.key 21 3
def steerTarget (e : Entry) : Nat := byteAt e.res 0
def steerLevee (e : Entry) : Nat := be e.res 2 2
def steerQueue (e : Entry) : Nat := be e.res 4 2
def steerIp (e : Entry) : Ip := ⟨byteAt e.key 0, be e.key 2 16⟩

/-- A responder context with VALID set that the STEER entries no longer support (06 R209): QPN, LEVEE and both versions'
entries. -/
def qpcSupported (active other : List Entry) (q : Qpc) : Bool :=
  let covers (e : Entry) : Bool := steerTarget e == 0 && decide (steerLo e ≤ q.qpn.toNat) && decide (q.qpn.toNat ≤ steerHi e)
  active.any covers && (active ++ other).all fun e => !covers e || steerLevee e == q.levee.toNat

/-- Entries that a write puts into a STEER version break R209 or 10 R314: one for the pool whose range holds the QPN of a
context with VALID set under another levee, or one for a flume queue of another levee. A write reaches the inactive version
only, so it can take no context its entry in the active one. -/
def steerBreaks (s : State) (before after : List Entry) : Bool :=
  (after.filter fun e => !before.contains e).any fun e =>
    (steerTarget e == 0 && s.mem.qpcs.any fun c =>
      c.2.valid && decide (steerLo e ≤ c.2.qpn.toNat) && decide (c.2.qpn.toNat ≤ steerHi e) && steerLevee e != c.2.levee.toNat) ||
    (steerTarget e == 1 && (Tab.get? s.flm.queues (steerQueue e)).elim false fun q => q.levee != steerLevee e)

/-- TABLE_WRITE (R122–R124, R128). DESIGN CHOICE (assumption 91): a guard record of STEER entries, of which each names a
levee, names levee 0. -/
def bodyTableWrite (r : KReq) (s : State) : Ans :=
  let k := byteAt (par r) 8
  let t := s.table k
  let v := 1 - t.active
  let ops := writeOps r
  let after := ops.foldl (applyOp k) (t.entries v)
  if !writeLenOk r then refuse s St.badLength
  else if k = 0 ∨ 8 < k then refuse s St.badParam
  else if r.frags.any (fun p => byteAt p 8 != k || decide (1 < byteAt p 9) || be p 10 2 == 0 || decide (63 < be p 10 2)) then
    refuse s St.badParam
  else if ops.any (fun o => !keyOk s k o.2 || (!o.1 && !resOk s k (slice o.2 24 40))) then refuse s St.badParam
  else if k = 6 ∧ steerBreaks s (t.entries v) after then guardReject s r 0 1
  else if t.st != .ready || t.pending then refuse s St.tableBusy
  else if tableCap k < after.length then refuse s St.exhausted
  else done (s.setTable k (if v = 0 then { t with v0 := after } else { t with v1 := after }))

def execTableWrite (t : Time) (r : KReq) (s : State) : Host.Outcome State Fault Refusal :=
  command 0x0301 bodyTableWrite t r s

/-- TABLE_FLIP commits here; it takes effect at FLIP_EFFECT (R126, R128, 14 R469). -/
def bodyTableFlip (r : KReq) (s : State) : Ans :=
  let k := byteAt (par r) 0
  let t := s.table k
  let armed := k == 9 && s.flt.lock == .armed && (s.flt.armed.elim false (·.flip))
  checks s [(plen r != 8, St.badLength), (k == 0 || decide (10 < k), St.badParam),
      (t.st != .ready || t.pending || armed, St.tableBusy)] fun _ =>
    done (s.setTable k { t with pending := true })

def execTableFlip (t : Time) (r : KReq) (s : State) : Host.Outcome State Fault Refusal :=
  command 0x0302 bodyTableFlip t r s

/-- Entries in the active version of a table. -/
def activeEntries (s : State) (k : Nat) : Nat :=
  let t := s.table k
  if k = 9 then (if t.active = 0 then s.mem.xl0 else s.mem.xl1).length
  else if k = 10 then (s.scr.fwd.filter fun r => r.inVer t.active).length
  else (t.entries t.active).length

/-- TABLE_STATUS (R130). -/
def bodyTableStatus (r : KReq) (s : State) : Ans :=
  let k := byteAt (par r) 0
  let t := s.table k
  let code := match t.st with
    | .ready => 0
    | .draining => 1
    | .copying => 2
  checks s [(plen r != 8, St.badLength), (k == 0 || decide (10 < k), St.badParam)] fun _ =>
    done s [toBe 1 t.active ++ toBe 1 code ++ zeros 2 ++ toBe 4 (min (t.inflight (1 - t.active)) 0xFFFFFFFF) ++
      toBe 4 (activeEntries s k) ++ zeros 4]

def execTableStatus (t : Time) (r : KReq) (s : State) : Host.Outcome State Fault Refusal :=
  command 0x0303 bodyTableStatus t r s

end Sys2Proof.Machine
end

