-- ==== Sys2Proof/Machine/Lookup.lean ====
section
/-! DEFINITION. The forwarding decision of one frame: class and levee, the forwarding key, next hops, PIN and SPRAY
groups, and the order of 04 Table SWC-1. -/

namespace Sys2Proof.Machine

/-! ### Stamps (04 R125) -/

/-- The active version of every table, as a stamp. -/
def State.stampNow (s : State) : BitVec 16 :=
  (List.range 11).foldl (fun v k => if (s.table k).active = 1 then setBit v k else v) 0

/-- The version a stamp names for a table. -/
def stampVer (st : BitVec 16) (k : Nat) : Nat := if st.getLsbD k then 1 else 0

/-- Look a key up in the version a stamp names. -/
def lookup (s : State) (st : BitVec 16) (k : Nat) (key : Bytes) : Option Bytes := (s.table k).find (stampVer st k) key

/-! ### Class and levee (04 R120) -/

/-- The class a code-point map gives: high nibble for even, low nibble for odd (R123). -/
def mapClass (m : Bytes) (base c : Nat) : Nat :=
  let b := byteAt m (base + c / 2)
  (if c % 2 = 0 then b / 16 else b) % 8

/-- Class and default levee of a frame from its port's PORT_PROFILE entry. -/
def profile (s : State) (st : BitVec 16) (f : Frame) : Nat × Nat :=
  let e := (lookup s st 8 (toBe 2 f.port ++ zeros 22)).getD (zeros 40)
  let dflt := byteAt e 1
  let cls := match byteAt e 0 with
    | 2 => f.ip.elim dflt fun i => mapClass e 4 (i.dscp % 64)
    | 1 => f.vlan.elim dflt fun v => mapClass e 36 (v.pcp % 8)
    | _ => dflt
  (cls % 8, be e 2 2)

/-- VLAN ID of a frame, 0 when untagged. -/
def Frame_vid (f : Frame) : Nat := f.vlan.elim 0 (·.vid)

/-- A RoCEv2 frame: UDP port 4791 with a base transport header. -/
def isRoce (f : Frame) : Bool := f.bth.isSome && f.ip.elim false fun i => i.proto == 17 && i.dport == 4791

/-- The STEER entry that governs a frame: lowest QP_LO among those that match (R123). DESIGN CHOICE (assumption 93): of two
with equal address and QP_LO, R123 names none; the one written first governs. -/
def steerOf (s : State) (st : BitVec 16) (f : Frame) : Option Entry :=
  if !isRoce f then none
  else
    let ip := (f.ip.map IpHdr.dst).getD default
    let qp := (f.bth.map Bth.dqp).getD 0
    (((s.table 6).entries (stampVer st 6)).filter fun e => steerIp e == ip && decide (steerLo e ≤ qp) && decide (qp ≤ steerHi e)).foldl
      (fun b e => match b with
        | none => some e
        | some x => if steerLo e < steerLo x then some e else some x) none

/-! ### The forwarding key (12 R395) -/

/-- VRF of a frame (no rule says where it comes from). -/
def vrfOf (f : Frame) : Nat := Config.vrf f.port (Frame_vid f) % 4096

/-- Protocols that carry ports in their first four bytes: TCP, UDP, DCCP, SCTP, UDP-Lite (PRESUMED, assumption 93). -/
def carriesPorts (proto : Nat) : Bool := [6, 17, 33, 132, 136].contains proto

/-- The key of a frame (Table SCR-2). -/
def fwdKey (f : Frame) (cls : Nat) : BitVec 144 :=
  match f.ip with
  | some i =>
    let ports := carriesPorts i.proto
    let sp := if ports then i.sport % 65536 else 0
    let dp := if ports then i.dport % 65536 else 0
    if i.dst.af = 4 then
      BitVec.ofNat 144 (1 * 2 ^ 140 + vrfOf f * 2 ^ 128 + i.dst.val % 2 ^ 32 * 2 ^ 96 + i.src.val % 2 ^ 32 * 2 ^ 64 +
        i.proto % 256 * 2 ^ 56 + sp * 2 ^ 40 + dp * 2 ^ 24 + i.dscp % 64 * 2 ^ 18 + cls % 8 * 2 ^ 15 +
        f.port % 512 * 2 ^ 6 + (if i.proto = 6 then i.tcpFlags % 64 else 0))
    else
      BitVec.ofNat 144 (2 * 2 ^ 140 + vrfOf f * 2 ^ 128 + i.dst.val / 2 ^ 64 % 2 ^ 64 * 2 ^ 64 +
        i.src.val / 2 ^ 96 % 2 ^ 32 * 2 ^ 32 + i.proto % 256 * 2 ^ 24 + dp * 2 ^ 8 + i.dscp % 64 * 2 ^ 2)
  | none =>
    BitVec.ofNat 144 (3 * 2 ^ 140 + Frame_vid f % 4096 * 2 ^ 128 + f.dmac % 2 ^ 48 * 2 ^ 80 + f.smac % 2 ^ 48 * 2 ^ 32 +
      f.etype % 65536 * 2 ^ 16 + f.vlan.elim 0 (fun v => v.pcp % 8) * 2 ^ 13 + f.port % 512 * 2 ^ 4)

/-! ### Next hops and groups (04 R138–R140) -/

/-- A rewrite: VLAN (none unchanged, 0 untagged), MACs, TTL decrement. -/
structure Rewrite where
  vlan : Option Nat := none
  dmac : Option Nat := none
  smac : Option Nat := none
  ttlDec : Bool := false
deriving DecidableEq, Repr

/-- A NEXT_HOP entry: egress port and rewrite (Table SWC-4). -/
def nextHop (s : State) (st : BitVec 16) (i : Nat) : Option (Nat × Rewrite) :=
  (lookup s st 3 (toBe 2 i ++ zeros 22)).map fun e =>
    (be e 0 2, { vlan := some (be e 2 2 % 4096), dmac := some (be e 4 6), smac := some (be e 10 6),
                 ttlDec := byteAt e 16 == 1 })

/-- A member's next hop. -/
def memberHop (s : State) (st : BitVec 16) (g j : Nat) : Option (Nat × Rewrite) :=
  (lookup s st 5 (toBe 2 g ++ toBe 1 j ++ zeros 21)).bind fun e => nextHop s st (be e 0 2)

/-- The fields a PIN group hashes, in order (R138). -/
def pinFields (f : Frame) : Bytes :=
  match f.ip with
  | some i =>
    let n := if i.dst.af = 4 then 4 else 16
    let ports := carriesPorts i.proto
    toBe n i.src.val ++ toBe n i.dst.val ++ toBe 1 i.proto ++ toBe 2 (if ports then i.sport else 0) ++
      toBe 2 (if ports then i.dport else 0) ++ (if i.dst.af = 6 then toBe 3 (i.flow % 2 ^ 20) else []) ++
      (if isRoce f then toBe 3 ((f.bth.map Bth.dqp).getD 0) else [])
  | none => toBe 6 f.smac ++ toBe 6 f.dmac ++ toBe 2 (Frame_vid f % 4096)

/-- Slot of a frame in a PIN group's map: h[7:0] (R138). The seed is the CRC's initial register: SWITCH_ID, zero-extended
(DEDUCED, assumption 93). -/
def pinSlot (s : State) (f : Frame) : Nat :=
  (crc32cFrom (BitVec.zeroExtend 32 s.sw.switchId) (pinFields f)).toNat % 256

/-- Pass each slot that member `j` holds to the survivors in turn; `k` slots have passed already (R139). -/
def dealSlots (live : List Nat) (j : Nat) (slots : List Nat) (k : Nat) : List Nat :=
  match slots with
  | [] => []
  | x :: r => if x = j then live.getD (k % live.length) x :: dealSlots live j r (k + 1) else x :: dealSlots live j r k

/-- A PIN group's slots and the ports that are lost. -/
abbrev PinMap := List Nat × List Nat

/-- The members, of `m`, whose port is not lost; `port` is a member's port. -/
def survivors (port : Nat → Option Nat) (m : Nat) (lost : List Nat) : List Nat :=
  (List.range m).filter fun j => !((port j).elim false lost.contains)

/-- The slots that lost members hold pass to the survivors, where there are any. -/
def passSlots (port : Nat → Option Nat) (m : Nat) (lost : List Nat) (slots : List Nat) : List Nat :=
  let live := survivors port m lost
  if live.isEmpty then slots
  else ((List.range m).filter fun j => (port j).elim false lost.contains).foldl (fun l j => dealSlots live j l 0) slots

/-- A port is lost, its members' slots passing to the survivors, or comes back, its members taking their original slots
(R139). -/
def pinStep (port : Nat → Option Nat) (m : Nat) (a : PinMap) (e : Nat × Bool) : PinMap :=
  if e.2 then
    let lost := e.1 :: a.2
    (passSlots port m lost a.1, lost)
  else
    let lost := a.2.filter (· != e.1)
    let home := (List.range a.1.length).map fun i => if port (i % m) = some e.1 then i % m else a.1.getD i 0
    (passSlots port m lost home, lost)

/-- The 256 slots of a PIN group of `m` members after the ports' losses and returns (R138, R139). -/
def pinMap (port : Nat → Option Nat) (m : Nat) (moves : List (Nat × Bool)) : PinMap :=
  moves.foldl (pinStep port m) ((List.range 256).map (· % m), [])

/-- Member of slot `i`; none where its port is lost and no member survives. -/
def slotMember (port : Nat → Option Nat) (m i : Nat) (moves : List (Nat × Bool)) : Option Nat :=
  let a := pinMap port m moves
  let j := a.1.getD i 0
  if (port j).elim false a.2.contains then none else some j

/-- Bytes queued for an egress port. -/
def queuedBytes (s : State) (port : Nat) : Nat :=
  sumL (s.sw.voqs.map fun e =>
    if e.1 / 8 % 512 = port then
      sumL (e.2.map fun c => (Tab.get? s.sw.frames c.fid).elim 0 (·.frame.len))
    else 0)

/-- The members of a SPRAY group that have a next hop, with what is queued for each (R140). -/
def sprayMembers (s : State) (st : BitVec 16) (g m : Nat) : List (Nat × Rewrite) :=
  (List.range m).filterMap fun j => memberHop s st g j

/-- The one with the fewest bytes queued, ties to the lowest member (R140). -/
def leastQueued (s : State) (l : List (Nat × Rewrite)) : Option (Nat × Rewrite) :=
  l.foldl (fun b x => match b with
    | none => some x
    | some y => if queuedBytes s x.1 < queuedBytes s y.1 then some x else some y) none

/-- Where a frame goes. -/
inductive Target where
  | port (p : Nat) (rw : Rewrite)
  | spray (group members : Nat)
  | tree (t : Nat)
  | headworks
  | pool
  | flume (q : Nat)
deriving DecidableEq, Repr

/-- What decides a frame: a target, or why it is discarded and whether it is metered first (05 R155). -/
inductive Fate where
  | go (t : Target)
  | drop (metered : Bool)        -- dropped by an entry
  | noRoute (metered : Bool)
  | ttl
deriving DecidableEq, Repr

/-- Resolve a next hop (R119: one without an entry discards). -/
def viaHop (s : State) (st : BitVec 16) (i : Nat) (metered : Bool) : Fate :=
  match nextHop s st i with
  | some (p, rw) => .go (.port p rw)
  | none => .noRoute metered

/-- Resolve a group: one without a member that has an entry, or with every member's port down, has no route (R119, R139). -/
def viaGroup (s : State) (st : BitVec 16) (g : Nat) (f : Frame) : Fate :=
  match lookup s st 4 (toBe 2 g ++ zeros 22) with
  | none => .noRoute false
  | some e =>
    let m := byteAt e 2
    if byteAt e 0 = 1 then
      if (sprayMembers s st g m).all (fun x => !s.portUp x.1) then .noRoute false else .go (.spray g m)
    else
      let port (j : Nat) : Option Nat := (memberHop s st g j).map (·.1)
      match (slotMember port m (pinSlot s f) s.sw.moves).bind (memberHop s st g) with
      | some (p, rw) => .go (.port p rw)
      | none => .noRoute false

/-- TTL or hop limit at step 6: zero after the decrement discards (Table SWC-1, R123). -/
def ttlStep (f : Frame) (x : Fate) : Fate :=
  match x with
  | .go (.port p rw) => if rw.ttlDec && decide ((f.ip.elim 2 (·.ttl)) ≤ 1) then .ttl else .go (.port p rw)
  | y => y

/-- Without the TTL decrement, which belongs to step 6 only (R119). -/
def noTtl (x : Fate) : Fate :=
  match x with
  | .go (.port p rw) => .go (.port p { rw with ttlDec := false })
  | y => y

/-- Steps 5 to 7 (Table SWC-1). -/
def stepsFive (s : State) (st : BitVec 16) (f : Frame) (prefix_ : Option Row) : Fate :=
  let six : Fate :=
    let l3 := f.ip.bind fun i => lookup s st 2 (toBe 2 (vrfOf f) ++ toBe 1 i.dst.af ++ zeros 1 ++ toBe 16 i.dst.val ++ zeros 4)
    match l3 with
    | some e =>
      match byteAt e 0 with
      | 0 => ttlStep f (viaHop s st (be e 2 2) false)
      | 1 => ttlStep f (viaGroup s st (be e 2 2) f)
      | 2 => .drop false
      | _ => .go .headworks
    | none =>
      match prefix_ with
      | some r => ttlStep f (if r.action = 0 then viaHop s st r.index false else viaGroup s st r.index f)
      | none => .noRoute false
  match lookup s st 1 (toBe 2 (Frame_vid f % 4096) ++ toBe 6 f.dmac ++ zeros 16) with
  | some e =>
    match byteAt e 0 with
    | 0 => .go (.port (be e 2 2) {})
    | 1 => if (Tab.get? s.sw.trees (be e 2 2)).isSome then .go (.tree (be e 2 2)) else .noRoute true
    | 2 => .drop true
    | 3 => .go .headworks
    | _ => six
  | none => six

/-- What steps 3 to 7 decide: fate, class, levee, mirror tag, whether an ACL row denies. -/
structure Decision where
  fate : Fate
  cls : Nat
  levee : Nat
  tag : Option Nat
  deny : Bool
deriving DecidableEq, Repr

/-- Steps 3 to 7 of Table SWC-1 (R119, R120, 12 R396). -/
def decideFrame (s : State) (st : BitVec 16) (f : Frame) : Decision :=
  let (cls, dl) := profile s st f
  let steer := steerOf s st f
  let levee := steer.elim dl steerLevee
  let (acl, pre) := fwdSearch s (stampVer st 10) (fwdKey f cls)
  let rest : Fate := match acl with
    | some r => if r.action = 2 then noTtl (viaHop s st r.index true) else stepsFive s st f pre
    | none => stepsFive s st f pre
  let fate : Fate := match steer with
    | some e =>
      match steerTarget e with
      | 0 => .go .pool
      | 1 => .go (.flume (steerQueue e))
      | 2 => .go .headworks
      | _ => rest
    | none => rest
  { fate := fate, cls := cls, levee := levee, tag := acl.bind (·.mirror), deny := acl.elim false fun r => r.action == 1 }

end Sys2Proof.Machine
end

