-- ==== Sys2Proof/Machine/Forward.lean ====
section
/-! DEFINITION. What becomes of a frame: its stamp, admission to the buffer, mirror copies, spraying, division boxes, and
FRAME_RECEIVE up to the Krytic packets, which Commands.lean serves (03 R87, R101, R108, 04 R115–R120, R125, R127, R133,
R135, R140–R152). -/

namespace Sys2Proof.Machine

/-! ### Stamps in flight (04 R125, R127) -/

/-- The tables an ordinary frame consults, and those a spray cell does, as bit masks. -/
def frameTables : BitVec 16 := 0x57E
def sprayTables : BitVec 16 := 0x0B8

/-- Count a frame in, or out, under the versions it is stamped with. -/
def stampIn (st mask : BitVec 16) (s : State) : State :=
  (bitList 11 mask.toNat).foldl (fun s k => s.inflightAdd k (stampVer st k)) s
def stampOut (st mask : BitVec 16) (s : State) : State :=
  (bitList 11 mask.toNat).foldl (fun s k => s.inflightSub k (stampVer st k)) s

/-! ### Admission (04 R133) -/

/-- Cells taken from the reservoir and from headroom by a frame of `n` cells that is admitted to account `k`; none when it
is discarded. `ll`: the ingress port, where the class is lossless on it. -/
def admission (s : State) (k n : Nat) (alpha : Nat) (ll : Option (Nat × Nat)) : Option (Nat × Nat) :=
  let used := s.used k
  let g := s.gmin k
  let above := (used + n - g) - (used - g)
  let free := s.rsvFree (keyDie k)
  if above = 0 then some (0, 0)
  else if above ≤ free ∧ (used - g) + above ≤ alphaMul alpha free then some (above, 0)
  else match ll with
    | some (p, c) =>
      let q := s.port p
      if s.pfcCount p c + n ≤ q.pfc.xoff + q.pfc.headroom then some (0, above) else none
    | none => none

/-- Append a copy to a VOQ. A leaf that thereby becomes eligible joins the active list of the current round; one that was
empty has no deficit, and SHAPED_NS of a class that held no frame counts from now (05 R168, Table TRF-7). -/
def pushCopy (pipe cls : Nat) (c : Copy) (s : State) : State :=
  let k := voqKey pipe c.port cls
  let q := Tab.getD s.sw.voqs k []
  let leaf := cls * 16 + pipe
  let idle := !classQueued s c.port cls
  let s := { s with sw := { s.sw with voqs := Tab.set s.sw.voqs k (q ++ [c]) } }
  let ready := eligible s c.port leaf
  s.modSched c.port fun x => { x with
    active := if x.active.contains leaf || !ready then x.active else x.active ++ [leaf],
    deficit := if q.isEmpty then Tab.del x.deficit leaf else x.deficit,
    shaped := if idle then Tab.set x.shaped cls s.now else x.shaped }

/-- The chain that sent a NET frame learns that its copies are done, and which were suppressed (04 R148, 10 R331): the
bitmap of member numbers. -/
def memberMap (ms : List Nat) : Bytes :=
  (List.range 64).map fun i => BitVec.ofNat 8 (sumL ((List.range 8).map fun j => if ms.contains (8 * i + j) then 2 ^ j else 0))

def orBytes (a b : Bytes) : Bytes := (List.range (max a.length b.length)).map fun i => a.getD i 0 ||| b.getD i 0

def netFrameDone (c : Option (Nat × Nat)) (sup : List Nat) (s : State) : State :=
  match c with
  | none => s
  | some (ch, d) =>
    { s with flm := { s.flm with chains := Tab.upd s.flm.chains ch fun x => { x with
        unacked := x.unacked - 1,
        net := Tab.upd x.net d fun e => (e.1 - 1, if sup.isEmpty then e.2 else orBytes e.2 (memberMap sup)) } } }

/-- A copy of a frame has been transmitted or discarded; with the last one its cells and in-flight counts go (R127,
R146). -/
def releaseCopy (fid : Nat) (s : State) : State :=
  match Tab.get? s.sw.frames fid with
  | none => s
  | some fr =>
    if 1 < fr.copies then
      { s with sw := { s.sw with frames := Tab.set s.sw.frames fid { fr with copies := fr.copies - 1 } } }
    else
      netFrameDone fr.chain fr.suppressed
        (stampOut fr.stamp fr.stamped { s with sw := { s.sw with frames := Tab.del s.sw.frames fid } })

/-- Remember that a tree member's copy was suppressed (R148). -/
def suppress (fid : Nat) (m : Option Nat) (s : State) : State :=
  match m with
  | none => s
  | some j => { s with sw := { s.sw with frames := Tab.upd s.sw.frames fid fun fr =>
      { fr with suppressed := fr.suppressed ++ [j] } } }

/-- Where a frame comes from and what it carries, before it is held. -/
structure Src where
  orig : Option Originator
  pipe : Nat
  cls : Nat
  levee : Nat
  stamp : BitVec 16
  stamped : BitVec 16
  tag : Option Nat := none
  mirrored : List Nat := []
  chain : Option (Nat × Nat) := none
  cut : Bool := false
deriving DecidableEq, Repr

/-- Hold a frame in the buffer with its copies, charged to account `k`, `rsv` cells to the reservoir and `head` to headroom. -/
def holdFrame (x : Src) (f : Frame) (k rsv head : Nat) (mirror : Bool) (copies : Nat) (s : State) : State × Nat :=
  let fid := s.sw.nextFid
  let fr : FrameRec :=
    { frame := f, orig := x.orig, pipe := x.pipe, cls := x.cls, levee := x.levee, cells := cellsOf f.len, stamp := x.stamp,
      stamped := x.stamped, acct := k, fromRsv := rsv, fromHead := head, copies := copies, tag := x.tag, mirror := mirror,
      mirrored := x.mirrored, suppressed := [], chain := x.chain, retired := [], counted := [], cut := x.cut, arrived := s.now }
  (stampIn x.stamp x.stamped
    { s with sw := { s.sw with nextFid := fid + 1, frames := Tab.set s.sw.frames fid fr } }, fid)

/-! ### Mirroring (04 R150–R152) -/

/-- The sources a frame matches count it; those whose SAMPLE-th match it is copy it. -/
def mirrorMatch (sel : MirrorSrc → Bool) (s : State) : State × List MirrorSrc :=
  let fired := s.sw.mirrors.filter fun m => sel m && decide (m.sample ≤ m.count + 1)
  ({ s with sw := { s.sw with
      mirrors := s.sw.mirrors.map fun m =>
        if sel m then { m with count := if m.sample ≤ m.count + 1 then 0 else m.count + 1 } else m } }, fired)

/-- A frame cut to `n` bytes, 0 for whole: the payload that remains and a new FCS over it (R151). -/
def truncated (f : Frame) (n : Nat) : Frame :=
  if n = 0 ∨ f.len ≤ n then f
  else { f with len := n, payload := f.payload.take (f.payload.length - (f.len - n)), fcsOk := true }

/-- One copy for an analysis port. -/
def mirrorCopy (x : Src) (f : Frame) (m : MirrorSrc) (s : State) : State :=
  match Tab.get? s.sw.binds m.analysis with
  | none => s
  | some (port, cls) =>
    let f := truncated f m.truncate
    let k := mirrorKey (voqKey x.pipe port cls)
    if !s.portUp port then s.count (gk 1 6 0 m.analysis) 1
    else if s.portFenced port then s.count (gk 0x0B 0 0 port) 1
    else match admission s k (cellsOf f.len) 0 none with
      | none => s.count (gk 1 6 0 m.analysis) 1
      | some (rsv, _) =>
        let (s, fid) := holdFrame { x with cls := cls, stamped := 0, tag := none, chain := none, cut := false } f k rsv 0 true 1 s
        pushCopy x.pipe cls { fid := fid, port := port, vlan := none, dmac := none, smac := none, ttlDec := false,
                              endpoint := none, mem := none } s

/-- Copies for the sources that fired, at most one per analysis port, none for a port in `had` (R151). Answers the
analysis ports that now hold one. -/
def mirrorAll (x : Src) (f : Frame) (fired : List MirrorSrc) (had : List Nat) (s : State) : State × List Nat :=
  fired.foldl (fun a m =>
    if a.2.contains m.analysis then a else (mirrorCopy x f m a.1, a.2 ++ [m.analysis])) (s, had)

/-- Ingress copies, taken when the lookup completes (R151); never of a confidential levee (R152). -/
def mirrorIngress (x : Src) (f : Frame) (s : State) : State × List Nat :=
  if s.confidential x.levee then (s, [])
  else
    let (s, fired) := mirrorMatch (fun m => (m.kind == 0 && m.source == f.port) ||
      (m.kind == 2 && (x.tag.elim false fun t => m.source == t))) s
    mirrorAll x f fired [] s

/-! ### Admission of a frame -/

/-- FENCE_DROP at a port (14 Table FLT-4). -/
def fenceDrop (p : Nat) (s : State) : State := s.count (gk 0x0B 0 0 p) 1

/-- The frame comes from, or goes to, a fenced address. -/
def frameFenced (s : State) (f : Frame) : Bool := f.ip.elim false fun i => s.addrFenced i.src || s.addrFenced i.dst

/-- The ingress port and class, where the class is lossless on it and the frame was received there. -/
def losslessOf (s : State) (x : Src) (f : Frame) : Option (Nat × Nat) :=
  if x.orig.isNone && (s.port f.port).lossless x.cls then some (f.port, x.cls) else none

/-- R108: a frame that would raise its count above XOFF + HEADROOM. -/
def overruns (s : State) (ll : Option (Nat × Nat)) (n : Nat) : Bool :=
  match ll with
  | none => false
  | some (p, c) => decide ((s.port p).pfc.xoff + (s.port p).pfc.headroom < s.pfcCount p c + n)

/-- Discard under R108. -/
def pfcOverrun (ll : Option (Nat × Nat)) (s : State) : State :=
  match ll with
  | none => s
  | some (p, c) => (s.count (gk 0 3 c p) 1).portEvent p (16 + c)

/-- A frame that ends here without being held: its chain learns it (10 R331). -/
def lostFrame (x : Src) (s : State) : State := netFrameDone x.chain [] s

/-- Copies of one frame go to the VOQs, or wait behind the division box of the pipeline (R136, R146). -/
def passBox (pipe cls fid : Nat) (c : Copy) (s : State) : State :=
  match Tab.getD s.sw.boxes pipe [] with
  | [] => pushCopy pipe cls c s
  | l => { s with sw := { s.sw with boxes := Tab.set s.sw.boxes pipe (l ++ [{ fid := fid, todo := [c] }]) } }

/-- Admit a frame bound for one port (R133, R135, Table FLT-4). -/
def admitUnicast (x : Src) (f : Frame) (port : Nat) (rw : Rewrite) (s : State) : State :=
  let n := cellsOf f.len
  let ll := losslessOf s x f
  let k := voqKey x.pipe port x.cls
  if s.portFenced port then lostFrame x (fenceDrop port s)
  else if !s.portUp port then lostFrame x (s.count (gk 1 3 0 port) 1)
  else if overruns s ll n then lostFrame x (pfcOverrun ll s)
  else match admission s k n (s.alpha k) ll with
    | none => lostFrame x (s.count (gk 1 2 0 x.pipe port x.cls) 1)
    | some (rsv, head) =>
      let (s, fid) := holdFrame x f k rsv head false 1 s
      let s := passBox x.pipe x.cls fid { fid := fid, port := port, vlan := rw.vlan, dmac := rw.dmac, smac := rw.smac,
                                          ttlDec := rw.ttlDec, endpoint := none, mem := none } s
      if x.orig.isNone then pfcXoff f.port x.cls s else s

/-- Members of a tree with their numbers, the frame's own ingress port left out (R146). -/
def treeCopies (s : State) (x : Src) (f : Frame) (t fid : Nat) : List Copy :=
  let ms := Tab.getD s.sw.trees t []
  ((List.range ms.length).zip ms).filterMap fun (i, m) =>
    if x.orig.isNone && m.port == f.port then none
    else some { fid := fid, port := m.port, vlan := if m.vlan = 0 then none else some m.vlan, dmac := none, smac := none,
                ttlDec := false, endpoint := if m.endpoint = 0xFFFFFFFF then none else some m.endpoint, mem := some i }

/-- Admit a frame bound for a tree: stored once, charged once, its copies left to the division box (R146). -/
def admitTree (x : Src) (f : Frame) (t : Nat) (s : State) : State :=
  let n := cellsOf f.len
  let ll := losslessOf s x f
  let k := acctKey x.pipe x.cls
  let cs := treeCopies s x f t s.sw.nextFid
  if (Tab.get? s.sw.trees t).isNone then lostFrame x (s.count (gk 1 1 0 x.pipe) 1)
  else if cs.isEmpty then lostFrame x s
  else if overruns s ll n then lostFrame x (pfcOverrun ll s)
  else match admission s k n (s.alpha k) ll with
    | none => lostFrame x (s.count (gk 1 2 0 x.pipe 0xFFFF x.cls) 1)
    | some (rsv, head) =>
      let (s, fid) := holdFrame x f k rsv head false cs.length s
      let job : DivJob := { fid := fid, todo := cs }
      let s := { s with sw := { s.sw with boxes := Tab.set s.sw.boxes x.pipe (Tab.getD s.sw.boxes x.pipe [] ++ [job]) } }
      if x.orig.isNone then pfcXoff f.port x.cls s else s

/-- The division box enqueues the next copy (R146); a copy for a port that is down goes no further (R135). -/
def divisionCopy (pipe : Nat) (s : State) : State :=
  match Tab.getD s.sw.boxes pipe [] with
  | [] => s
  | j :: rest =>
    let put (l : List DivJob) : State := { s with sw := { s.sw with boxes := Tab.set s.sw.boxes pipe l } }
    match j.todo with
    | [] => put rest
    | c :: more =>
      let s := put (if more.isEmpty then rest else { j with todo := more } :: rest)
      let cls := s.fidClass j.fid
      if s.portUp c.port then pushCopy pipe cls c s
      else if s.portFenced c.port then
        if c.mem.isSome then releaseCopy j.fid (suppress j.fid c.mem (s.count (gk 1 3 1 c.port) 1))
        else releaseCopy j.fid (fenceDrop c.port s)
      else releaseCopy j.fid (s.count (gk 1 3 0 c.port) 1)

def execDivisionBoxCopy (t : Time) (pipe : Nat) (s : State) : Host.Outcome State Fault Refusal :=
  .next (divisionCopy pipe (s.tick t))

/-! ### Spraying (04 R140, R141) -/

/-- Key of a SEQ counter or reorder context: switch, port, class. -/
def sprayKey (w port cls : Nat) : Nat := (w * 512 + port) * 8 + cls

/-- The spray header of Table SWC-7. -/
def sprayHeader (last first : Bool) (cls src dst port len seq : Nat) : Bytes :=
  toBe 1 (16 + 2 * ofBool last + ofBool first) ++ toBe 1 (cls * 32) ++ toBe 1 (src % 128) ++ toBe 1 (dst % 128) ++
    toBe 2 (port % 512) ++ toBe 2 len ++ toBe 4 seq ++ zeros 4

/-- Length of a cell's frame: padded to 64 bytes when shorter. -/
def cellLen (f : Frame) : Nat := max 64 (14 + (if f.vlan.isSome then 4 else 0) + f.payload.length + 4)

/-- The VLAN a rewrite leaves (R123): 0 is untagged; the priority of a tag it adds is a free value. -/
def rewriteVlan (s : State) (v : Option Vlan) (w : Option Nat) : Option Vlan :=
  match w with
  | none => v
  | some 0 => none
  | some n =>
    match v with
    | some x => some { x with vid := n }
    | none => some { vid := n, pcp := s.peekFree % 8, dei := s.peekFree / 8 % 2 }

/-- One cell as a frame, with the MACs and VLAN of the chosen member's next hop, then padded to 64 bytes (R140). -/
def cellFrame (s : State) (f : Frame) (rw : Rewrite) (payload : Bytes) : Frame :=
  let g : Frame := { f with
    etype := 0x88B5, ip := none, bth := none, sec := none, payload := payload, fcsOk := true,
    vlan := rewriteVlan s f.vlan rw.vlan, dmac := rw.dmac.getD f.dmac, smac := rw.smac.getD f.smac }
  { g with len := cellLen g }

/-- Frame data of a frame of `len` bytes: destination address to before the FCS (R140; DEDUCED, assumption 93). -/
def frameData (f : Frame) : Bytes := slice (Config.frameBytes f) 0 (f.len - 4)

/-- Cut a frame into spray cells of 1,024 bytes of its data, each sent through the least queued member (R140). The
destination switch and port, which no table names, are free values. -/
def sprayFrame (x : Src) (f : Frame) (g m : Nat) (s : State) : State :=
  let data := frameData f
  let dst := s.peekFree % 128
  let dport := Config.freeNat (s.free + 1) % 512
  let s := s.drawn.drawn
  let n := max 1 (ceilDiv data.length 1024)
  (List.range n).foldl (fun s i =>
    match leastQueued s (sprayMembers s x.stamp g m) with
    | none => s.count (gk 1 1 0 x.pipe) 1
    | some (port, rw) =>
      let piece := (data.drop (1024 * i)).take 1024
      let k := sprayKey dst dport x.cls
      let seq := Tab.getD s.sw.spraySeq k 0
      let s := { s with sw := { s.sw with spraySeq := Tab.set s.sw.spraySeq k ((seq + 1) % 2 ^ 32) } }
      let h := sprayHeader (i + 1 == n) (i == 0) x.cls s.sw.switchId.toNat dst dport piece.length seq
      let c := cellFrame s f rw (h ++ piece)
      let s := if c.vlan.isSome && f.vlan.isNone then s.drawn else s
      admitUnicast { x with cut := false } c port {} s) s

/-! ### Reordering (04 R142, R143) -/

/-- Deliver a frame whose cells are all accepted to its egress port's VOQs, store-and-forward. -/
def deliver (cells : List Cell) (port cls : Nat) (s : State) : State :=
  match cells.getLast? with
  | none => s
  | some c =>
    let data := (cells.map (·.data)).flatten
    let f := { Config.frameParse data with port := c.port, len := data.length + 4, fcsOk := true }
    let x : Src := { orig := none, pipe := portPipe c.port, cls := cls, levee := 0, stamp := s.stampNow, stamped := frameTables }
    if frameFenced s f then fenceDrop c.port s else admitUnicast x f port {} s

/-- Accept one cell in sequence: it opens, continues or completes a frame, or belongs to a frame already lost. -/
def acceptCell (port cls : Nat) (a : State × Reorder) (c : Cell) : State × Reorder :=
  let (s, r) := a
  let r := { r with next := some ((c.seq + 1) % 2 ^ 32) }
  if c.first then
    let s := if r.open_.isEmpty then s else s.count (gk 1 5 1 (portDie port)) 1
    if c.last then (deliver [c] port cls s, { r with open_ := [], losing := false })
    else (s, { r with open_ := [c], losing := false })
  else if r.open_.isEmpty then (s, r)
  else if c.last then (deliver (r.open_ ++ [c]) port cls s, { r with open_ := [] })
  else (s, { r with open_ := r.open_ ++ [c] })

/-- Accept the held cells that now follow in sequence; of several with one SEQ the first, the others being late. -/
def acceptRun (port cls fuel : Nat) (a : State × Reorder) : State × Reorder :=
  match fuel with
  | 0 => a
  | fuel + 1 =>
    match a.2.held.find? fun c => some c.seq == a.2.next with
    | none => a
    | some c =>
      let twins := (a.2.held.filter fun x => x.seq == c.seq).length - 1
      let s := a.1.count (gk 1 5 0 (portDie port)) twins
      let a := acceptCell port cls (s, { a.2 with held := a.2.held.filter fun x => x.seq != c.seq }) c
      acceptRun port cls fuel a

def setReorder (k : Nat) (a : State × Reorder) : State :=
  { a.1 with sw := { a.1.sw with reorder := Tab.set a.1.sw.reorder k a.2 } }

/-- How far a cell's SEQ lies from NEXT, modulo 2^32 (R142). -/
def seqDist (seq next : Nat) : Nat := (seq + 4294967296 - next) % 4294967296

/-- The context as the next cell meets it: after 1 ms without a cell it takes that cell's SEQ as NEXT (R142). -/
def Reorder.meet (r : Reorder) (now : Time) (seq : Nat) : Reorder :=
  { r with next := some (if now < r.last + ms 1 then r.next.getD seq else seq), last := now }

/-- A cell ahead of NEXT is held, whatever SEQ the held ones have, while the allowance of the egress port's die lasts (R142,
R143). In a class lossless on its ingress port it counts toward R107, and R108 discards it beyond XOFF + HEADROOM. -/
def holdCell (k port cls : Nat) (r : Reorder) (c : Cell) (s : State) : State :=
  let ll := if (s.port c.port).lossless cls then some (c.port, cls) else none
  if overruns s ll (cellsOf c.data.length) then setReorder k (pfcOverrun ll s, r)
  else if s.reorderCells (portDie port) + cellsOf c.data.length ≤ 32768 then
    pfcXoff c.port cls (setReorder k (s, { r with held := r.held ++ [c] }))
  else setReorder k (s, r)

/-- A cell for this switch (R142, R143). -/
def reorderCell (src port cls : Nat) (c : Cell) (s : State) : State :=
  let k := sprayKey src port cls
  let r := (Tab.getD s.sw.reorder k {}).meet s.now c.seq
  let d := seqDist c.seq (r.next.getD 0)
  if d = 0 then
    let a := acceptCell port cls (s, r) c
    setReorder k (acceptRun port cls a.2.held.length a)
  else if d < 2147483648 then holdCell k port cls r c s
  else setReorder k (s.count (gk 1 5 0 (portDie port)) 1, r)

/-- Frames lost by skipping `gap` cells: every frame with a skipped cell. What the skipped cells held the device cannot know;
at least one frame, unless the cells may belong to a frame already counted, at most one a cell; a free value between
(assumption 93). -/
def skippedFrames (s : State) (r : Reorder) (gap : Nat) : Nat :=
  if gap = 0 then 0 else if r.losing then s.peekFree % (gap + 1) else 1 + s.peekFree % gap

/-- NEXT advances to the lowest held SEQ once a held cell has waited longer than REORDER (R143). -/
def reorderTimeout (src port cls : Nat) (s : State) : State :=
  let k := sprayKey src port cls
  match Tab.get? s.sw.reorder k with
  | none => s
  | some r =>
    let limit := us (2 * (s.sw.podReorder.toNat + 1))
    match r.next with
    | none => s
    | some next =>
      let dist (c : Cell) : Nat := seqDist c.seq next
      let low := r.held.foldl (fun b c => match b with
        | none => some c
        | some x => if dist c < dist x then some c else some x) none
      match low with
      | none => s
      | some c =>
        if r.held.any fun x => decide (x.at_ + limit < s.now) then
          let s := (s.count (gk 1 5 1 (portDie port)) (skippedFrames s r (dist c))).drawn
          setReorder k (acceptRun port cls r.held.length
            (s, { r with next := some c.seq, open_ := [], losing := !c.first }))
        else s

/-- A context idle for 1 ms takes the next cell's SEQ as NEXT (R142). -/
def reorderIdle (src port cls : Nat) (s : State) : State :=
  let k := sprayKey src port cls
  match Tab.get? s.sw.reorder k with
  | none => s
  | some r => if r.last + ms 1 ≤ s.now then setReorder k (s, { r with next := none }) else s

def execReorderTimeout (t : Time) (src port cls : Nat) (s : State) : Host.Outcome State Fault Refusal :=
  .next (reorderTimeout src port cls (s.tick t))
def execReorderContextIdle (t : Time) (src port cls : Nat) (s : State) : Host.Outcome State Fault Refusal :=
  .next (reorderIdle src port cls (s.tick t))

/-- A frame on an internal unicast path may be cut through (R118). -/
def mayCut (s : State) (x : Src) (f : Frame) (port : Nat) : Bool :=
  (Tab.getD s.sw.voqs (voqKey x.pipe port x.cls) []).isEmpty && !(s.port port).paused x.cls s.now &&
    decide ((s.port port).lanes ≤ (s.port f.port).lanes)

/-- A spray cell (step 2 of Table SWC-1, R141–R143): one in transit may be cut through, one for this switch is taken when
its FCS is good (R118). -/
def sprayCell (f : Frame) (s : State) : State :=
  let h := f.payload
  let cls := byteAt h 1 / 32
  let dst := byteAt h 3 % 128
  let st := s.stampNow
  let pipe := portPipe f.port
  if byteAt h 0 / 16 ≠ 1 then s.count (if f.fcsOk then gk 1 5 2 (portDie f.port) else gk 0 0 4 f.port) 1
  else if dst ≠ s.sw.switchId.toNat then
    let x : Src := { orig := none, pipe := pipe, cls := cls, levee := 0, stamp := st, stamped := sprayTables }
    let hop : Option (Nat × Rewrite) :=
      (lookup s st 7 (toBe 1 dst ++ zeros 23)).bind fun e =>
        if byteAt e 0 = 0 then nextHop s st (be e 2 2)
        else match viaGroup s st (be e 2 2) f with
          | .go (.port p rw) => some (p, rw)
          | .go (.spray g m) => leastQueued s (sprayMembers s st g m)
          | _ => none
    match hop with
    | some (p, rw) =>
      let cut := mayCut s x f p
      if !f.fcsOk && !cut then s.count (gk 0 0 4 f.port) 1 else admitUnicast { x with cut := cut } f p { rw with ttlDec := false } s
    | none => if f.fcsOk then s.count (gk 1 1 0 pipe) 1 else s.count (gk 0 0 4 f.port) 1
  else if !f.fcsOk then s.count (gk 0 0 4 f.port) 1
  else
    let c : Cell :=
      { seq := be h 8 4, first := bitOf (byteAt h 0) 0, last := bitOf (byteAt h 0) 1,
        data := slice h 16 (be h 6 2 % 2048), port := f.port, at_ := s.now, net := f }
    reorderCell (byteAt h 2 % 128) (be h 4 2 % 512) cls c s

/-! ### The parser FIFO (04 R115, R116, 17 R524) -/

/-- Forwarding halves of a die in search rotation. -/
def halvesIn (s : State) (die : Nat) : Nat :=
  10 - ((s.scr.out ++ s.hlt.retiredHalves).eraseDups.filter fun x => bankDie (x / 2) == die && !isTenantBank (x / 2)).length

/-- 1/15 ticks from one lookup of a pipeline to the next. -/
def lookupSlot (s : State) (die : Nat) : Nat :=
  let base := if s.pwr.halved || s.pwr.level == 5 then 450 else 225
  let h := halvesIn s die
  if h < 10 then max base (ceilDiv 2048 (max 1 h)) else base

/-- The port of a pipeline that takes the next lookup: the first after the one served last that holds a waiting frame
(R115). -/
def nextLookup (s : State) (pipe : Nat) : Option Nat :=
  let last := Tab.getD s.sw.pipeLast pipe (32 * pipe + 31)
  ((List.range 32).map fun i => 32 * pipe + (last + 1 + i) % 32).find? fun p => !(s.port p).fifo.isEmpty

/-- The lookup of a port's oldest waiting frame starts at `start`, in 1/15 tick. -/
def takeLookup (pipe p : Nat) (start : Time) (s : State) : State :=
  let s := s.modPort p fun q => { q with fifo := q.fifo.drop 1 }
  { s with sw := { s.sw with
      pipeFree := Tab.set s.sw.pipeFree pipe (start + lookupSlot s (portDie p)), pipeLast := Tab.set s.sw.pipeLast pipe p } }

/-- The lookups a pipeline has started up to now, one per slot, round-robin among the ports that wait (R115). -/
def servePipe (pipe fuel : Nat) (s : State) : State :=
  match fuel with
  | 0 => s
  | fuel + 1 =>
    let free := Tab.getD s.sw.pipeFree pipe 0
    match nextLookup s pipe with
    | some p => if free ≤ 15 * s.now then servePipe pipe fuel (takeLookup pipe p free s) else s
    | none => s

/-- Frames waiting in a pipeline's FIFOs. -/
def pipeWaiting (s : State) (pipe : Nat) : Nat := sumL ((List.range 32).map fun i => (s.port (32 * pipe + i)).fifo.length)

/-- Room in the port's FIFO: the frame waits there for its lookup, or is discarded (R116). A lookup slot that is free is
taken at once. -/
def parserFifo (f : Frame) (s : State) : Option State :=
  let pipe := portPipe f.port
  let s := servePipe pipe (pipeWaiting s pipe) s
  if 16384 < sumL (s.port f.port).fifo + f.len then none
  else
    let s := s.modPort f.port fun q => { q with fifo := q.fifo ++ [f.len] }
    some (if pipeWaiting s pipe = 1 ∧ Tab.getD s.sw.pipeFree pipe 0 ≤ 15 * s.now then takeLookup pipe f.port (15 * s.now) s else s)

/-! ### MACsec on receipt (03 R101) -/

/-- A frame that fails MACsec: counted, and a burst reported (Table PRT-6). -/
def badSec (p idx : Nat) (s : State) : State :=
  let s := s.count (gk 0 0 idx p) 1
  let l := ((s.port p).badSec.filter fun t => decide (s.now < t + sec 1)) ++ [s.now]
  let s := s.modPort p fun q => { q with badSec := l }
  if 4096 < l.length then s.portEvent p 6 else s

/-- The port validates strictly once a receive SA is installed. Answers whether the frame goes on. DESIGN CHOICE (assumption
92): on a port without a receive SA R101 accepts frames without MACsec and says nothing of one with a SecTAG; it is discarded
as MACSEC_UNKNOWN_SA. -/
def macsecIn (f : Frame) (s : State) : State × Bool :=
  let q := s.port f.port
  if q.rx.isEmpty then (if f.sec.isNone then (s, true) else (badSec f.port 35 s, false))
  else match f.sec with
    | none => (badSec f.port 33 s, false)
    | some tag =>
      match q.rx.find? fun e => e.2.sci == tag.sci with
      | none => (badSec f.port 35 s, false)
      | some (i, sc) =>
        match Tab.get? sc.sas tag.an with
        | none => (badSec f.port 35 s, false)
        | some sa =>
          if !tag.icvOk then (badSec f.port 34 s, false)
          else if tag.pn + sa.window < sa.nextPn then (badSec f.port 36 s, false)
          else
            let sa := { sa with nextPn := max sa.nextPn (tag.pn + 1) }
            (s.setPort f.port { q with rx := Tab.set q.rx i { sc with sas := Tab.set sc.sas tag.an sa } }, true)

/-! ### FRAME_RECEIVE -/

/-- A tray response (06 R554): the tray it comes from. -/
def trayOf (s : State) (f : Frame) : Option Nat :=
  match f.bth, f.ip with
  | some b, some i =>
    if isRoce f && decide (0x200 ≤ b.dqp) && decide (b.dqp < 0x300) then
      match Tab.get? s.mem.trays (b.dqp - 0x200) with
      | some tr => if tr.port = f.port ∧ tr.addr = i.src ∧ tr.qpn = b.sqp then some (b.dqp - 0x200) else none
      | none => none
    else none
  | _, _ => none

def State.hand (s : State) (h : Handed) : State := { s with sw := { s.sw with handed := s.sw.handed ++ [h] } }

/-- FCS_ERROR, with nothing else done (R118). -/
def fcsError (f : Frame) (s : State) : State := s.count (gk 0 0 4 f.port) 1

/-- A vendor opcode that Table MEM-3 does not assign (06 R192). -/
def badVendorOp (f : Frame) : Bool :=
  f.bth.elim false fun b => decide (0xC0 ≤ b.op) && decide (b.op ≤ 0xDF) &&
    !([0xC0, 0xC1, 0xC2, 0xC3, 0xD0, 0xD1, 0xD2, 0xD8, 0xD9, 0xDA, 0xDB].contains b.op)

/-- Why the memory transport engine of a die discards a frame, as the gauge it counts: a coherence message with another
Q_Key or an unassigned TYPE (08 R251, R253), or an unassigned vendor opcode. -/
def poolDrop (f : Frame) (die : Nat) : Option GaugeKey :=
  match f.bth with
  | none => none
  | some b =>
    if b.dqp = 0x300 ∧ b.op = 0x64 then
      if b.qkey ≠ 0x4B590003 then some (gk 5 3 2 die)
      else if [0x01, 0x02, 0x03, 0x04, 0x05, 0x06, 0x10, 0x11, 0x18, 0x20, 0x21, 0x22, 0x30, 0x38, 0x39, 0x3A, 0x3B].contains
        (byteAt f.payload 0) then none
      else some (gk 3 2 3 die)
    else if badVendorOp f then some (gk 3 2 3 die) else none

/-- A RoCEv2 packet whose ICRC fails, which its receiver drops silently, as RoCEv2 has it (06 R192). -/
def badIcrc (f : Frame) : Bool := f.bth.elim false fun b => !b.icrcOk

/-- A frame that has a forwarding outcome, metered where R155 meters it, goes to its target. -/
def toTarget (x : Src) (f : Frame) (tgt : Target) (s : State) : State :=
  match tgt with
  | .pool =>
    if badIcrc f then s else
    match poolDrop f (portDie f.port) with
    | some g => s.count g 1
    | none => s.hand (.pool (portDie f.port) f x.levee (stampVer x.stamp 9))
  | .flume q => if badIcrc f then s else s.hand (.flume q f x.levee x.cls (stampVer x.stamp 9))
  | .headworks => if frameFenced s f then fenceDrop f.port s else s.hand (.headworks f)
  | .port e rw =>
    if frameFenced s f then fenceDrop f.port s
    else admitUnicast { x with cut := mayCut s x f e } f e rw s
  | .spray g m => if frameFenced s f then fenceDrop f.port s else sprayFrame x f g m s
  | .tree t => if frameFenced s f then fenceDrop f.port s else admitTree x f t s

/-- TTL of a frame sprayed at step 6: its first member's next hop says whether it is decremented (Table SWC-1). -/
def sprayTtl (s : State) (x : Src) (f : Frame) (fate : Fate) : Option Frame :=
  match fate with
  | .go (.spray g m) =>
    match leastQueued s (sprayMembers s x.stamp g m), f.ip with
    | some (_, rw), some i =>
      if rw.ttlDec then (if i.ttl ≤ 1 then none else some { f with ip := some { i with ttl := i.ttl - 1 } }) else some f
    | _, _ => some f
  | _ => some f

/-- Steps 3 to 7 and what follows them. -/
def forwardFrame (f : Frame) (s : State) : State :=
  let st := s.stampNow
  let pipe := portPipe f.port
  let d := decideFrame s st f
  let x : Src := { orig := none, pipe := pipe, cls := d.cls, levee := d.levee, stamp := st, stamped := frameTables, tag := d.tag }
  let cutOk := match d.fate with
    | .go (.port e _) => !d.deny && mayCut s x f e
    | _ => false
  let s := { s with gauges := gaugeAdd s.gauges (gk 9 0 0 (portDie f.port)) 1 }
  let s := s.count (gk 9 0 1 (portDie f.port)) (typeBlocks s.scr.fwd ((fwdKey f d.cls).toNat / 2 ^ 140))
  if !f.fcsOk && !cutOk then fcsError f s
  else
    let (s, had) := mirrorIngress x f s
    let x := { x with mirrored := had }
    if s.confidential d.levee && (s.port f.port).rx.isEmpty then (s.count (gk 0x0A 1 0 f.port) 1).secEvent 5
    else if d.deny then s.count (gk 1 1 2 pipe) 1
    else match d.fate with
      | .ttl => s.count (gk 1 1 1 pipe) 1
      | .noRoute m => (if m then (headgate s f d.cls d.levee).1 else s).count (gk 1 1 0 pipe) 1
      | .drop m => if m then (headgate s f d.cls d.levee).1 else s
      | .go tgt =>
        match sprayTtl s x f d.fate with
        | none => s.count (gk 1 1 1 pipe) 1
        | some g =>
          match headgate s g d.cls d.levee with
          | (s, none) => s
          | (s, some h) => toTarget x h tgt s

/-- Link-layer control beyond 1,000 frames per second is counted, the rest goes to the headworks (Table PRT-6). -/
def linkControl (f : Frame) (s : State) : State :=
  let q := s.port f.port
  let l := q.linkCtl.filter fun t => decide (s.now < t + sec 1)
  if 1000 ≤ l.length then s.count (gk 0 0 7 f.port) 1
  else (s.setPort f.port { q with linkCtl := l ++ [s.now] }).hand (.headworks f)

/-- Ingress copies of a frame that steps 1 and 2 of Table SWC-1 take: it has no class of PORT_PROFILE and no flow tag; `levee`
is the levee whose bytes it carries, where the device can tell (R151, R152). -/
def mirrorTaken (f : Frame) (levee : Nat) (s : State) : State :=
  let x : Src := { orig := none, pipe := portPipe f.port, cls := 0, levee := levee, stamp := s.stampNow, stamped := 0 }
  (mirrorIngress x f s).1

/-- A confidential levee that has an allotment on a tray, 0 for none: its bytes may be in any response of the tray
(assumption 93). -/
def trayLevee (s : State) (tr : Nat) : Nat :=
  (s.mem.allots.find? fun e => e.2.place != 0 && (e.2.tray == tr || e.2.replica == tr) &&
    s.confidential e.2.levee).elim 0 (·.2.levee)

/-- A frame on a port, after MAC control and MACsec; `kry` serves a packet for QP 0x00_0100. -/
def pipelineFrame (kry : Frame → State → State) (f : Frame) (s : State) : State :=
  let krytic := isRoce f && (f.bth.elim false fun b => b.dqp == 0x100)
  if 512 ≤ f.port then
    if !f.fcsOk then fcsError f s else if krytic then kry f s else s.count (gk 0 0 38 f.port) 1
  else if !krytic && decide (0x0180C2000000 ≤ f.dmac) && decide (f.dmac ≤ 0x0180C200000F) then
    if !f.fcsOk then fcsError f s else linkControl f s
  else match parserFifo f s with
    | none => s.count (gk 1 0 0 f.port) 1
    | some s =>
      if krytic then
        if f.fcsOk then kry f (mirrorTaken f (be f.payload 6 2 % 1024) s) else fcsError f s
      else match trayOf s f with
        | some tr =>
          if !f.fcsOk then fcsError f s
          else if badIcrc f then s else (mirrorTaken f (trayLevee s tr) s).hand (.tray (portDie f.port) tr f)
        | none =>
          if s.portFenced f.port then fenceDrop f.port s
          else if s.halted then s
          else if f.etype = 0x88B5 then sprayCell f (if f.fcsOk then mirrorTaken f 0 s else s)
          else forwardFrame f s

/-- FRAME_RECEIVE: what the lane chiplet and the pipeline do with a received frame (03 R87, R101, R109, R112). -/
def frameReceive (kry : Frame → State → State) (f : Frame) (s : State) : State :=
  let p := f.port
  if !s.portUp p then s
  else
    let s := (s.count (gk 0 0 0 p) 1).count (gk 0 0 1 p) f.len
    if f.len < 64 then s.count (gk 0 0 5 p) 1
    else if 9216 < f.len then s.count (gk 0 0 6 p) 1
    else if f.etype = 0x8808 then
      if !f.fcsOk then fcsError f s
      else if be f.payload 0 2 = 0x0101 then
        pfcReceive p (BitVec.ofNat 8 (byteAt f.payload 3)) ((List.range 8).map fun c => be f.payload (4 + 2 * c) 2) s
      else if be f.payload 0 2 = 1 then s.count (gk 0 0 12 p) 1
      else pipelineFrame kry f s
    else if !f.fcsOk && !(s.port p).rx.isEmpty then fcsError f s
    else
      match macsecIn f s with
      | (s, true) => pipelineFrame kry f s
      | (s, false) => s

/-- SPRAY_CELL_RECEIVE: a cell that has reached step 2 of Table SWC-1. -/
def execSprayCellReceive (t : Time) (f : Frame) (s : State) : Host.Outcome State Fault Refusal :=
  .next (sprayCell f (s.tick t))

/-! ### Frames from inside the device (04 R117) -/

/-- The pipeline an originator's frame takes. -/
def internalPipe (o : Originator) (port : Nat) (f : Frame) : Nat :=
  match o with
  | .basin b => 8 * (b / 128) + b % 128 / 16
  | .engine d => 8 * d + (crc32c (toBe 3 ((f.bth.map Bth.dqp).getD 0))).toNat % 8
  | .headworks => if portDie port = 0 then 0 else 8

/-- Stamp and enqueue a frame from an internal originator. -/
def internalEnqueue (i : IntFrame) (s : State) : State :=
  let x : Src :=
    { orig := some i.orig, pipe := internalPipe i.orig i.port i.frame, cls := i.cls, levee := i.levee, stamp := s.stampNow,
      stamped := frameTables, chain := i.chain }
  if s.halted then s
  else if frameFenced s i.frame then lostFrame x (fenceDrop i.port s)
  else match i.tree with
    | some t => admitTree x i.frame t s
    | none => admitUnicast x i.frame i.port {} s

def execInternalFrameEnqueue (t : Time) (i : IntFrame) (s : State) : Host.Outcome State Fault Refusal :=
  .next (internalEnqueue i (s.tick t))

/-! ### Trees and mirrors (04 R145, R150) -/

/-- Members of an MCAST_TREE_SET. -/
def treeMembers (p : Bytes) : List TreeMember :=
  (List.range (be p 2 2)).map fun i =>
    { port := be p (8 + 8 * i) 2, vlan := be p (10 + 8 * i) 2 % 4096, endpoint := be p (12 + 8 * i) 4 }

/-- A fence descriptor names this port, or this endpoint ID. -/
def descPort (d : Bytes) (p : Nat) : Bool := byteAt d 0 == 1 && be d 8 4 == p
def descEndpoint (d : Bytes) (e : Nat) : Bool := byteAt d 0 == 2 && be d 8 4 == e

/-- Targets named by an ARMED admission are in a lock cycle (14 R470). -/
def State.inLock (s : State) (p : Bytes → Bool) : Bool :=
  s.flt.lock == .armed && (s.flt.armed.elim false fun a => a.descs.any p)

/-- A new member that invariant 11 refuses. -/
def memberFenced (s : State) (m : TreeMember) : Bool :=
  (s.portFenced m.port && !s.inLock (fun d => descPort d m.port)) ||
  (m.endpoint != 0xFFFFFFFF && s.endpointFenced m.endpoint && !s.inLock (fun d => descEndpoint d m.endpoint))

def bodyMcastTreeSet (r : KReq) (s : State) : Ans :=
  let p := par r
  let t := be p 0 2
  let n := be p 2 2
  let ms := treeMembers p
  let old := Tab.getD s.sw.trees t []
  let total := sumL (s.sw.trees.map fun e => e.2.length)
  let new := ms.filter fun m => !old.any fun o => o.port == m.port && o.endpoint == m.endpoint
  checks s [(decide (plen r < 8) || plen r != 8 + 8 * n, St.badLength),
      (decide (16383 < t) || decide (504 < n) || ms.any (fun m => decide (511 < m.port) || !s.portExists m.port),
        St.badParam)] fun _ =>
    if new.any (memberFenced s) then guardReject s r 0 11
    else if 262144 < total - old.length + n then refuse s St.exhausted
    else done { s with sw := { s.sw with trees := if n = 0 then Tab.del s.sw.trees t else Tab.set s.sw.trees t ms } }

def execMcastTreeSet (t : Time) (r : KReq) (s : State) : Host.Outcome State Fault Refusal :=
  command 0x0304 bodyMcastTreeSet t r s

/-- MIRROR_SET (Table SWC-9): one source per (KIND, SOURCE); KIND 4 removes a port's sources or a tag's. -/
def bodyMirrorSet (r : KReq) (s : State) : Ans :=
  let p := par r
  let kind := byteAt p 0
  let a := byteAt p 1
  let src := be p 2 2
  let tr := be p 4 2
  let b6 := byteAt p 6
  let sample := be p 8 4
  let isTag := kind == 2 || (kind == 4 && b6 == 1)
  let others := s.sw.mirrors.filter fun m => !(m.kind == kind && m.source == src)
  checks s [(plen r != 16, St.badLength),
      (decide (4 < kind) || (kind == 4 && decide (1 < b6)) || (kind != 4 && decide (7 < a)) ||
        (if isTag then decide (4095 < src) else decide (511 < src) || !s.portExists src), St.badParam),
      (decide (kind ≤ 2) && ((tr != 0 && (decide (tr < 64) || decide (9216 < tr))) || sample == 0 || decide (65536 < sample) ||
        (Tab.get? s.sw.binds a).isNone), St.badParam),
      (kind == 3 && (decide (7 < b6) || (s.port src).lossless b6), St.badParam),
      (decide (kind ≤ 1) && decide (512 ≤ (others.filter fun m => m.kind != 2).length), St.exhausted)] fun _ =>
    if kind ≤ 2 then
      let m : MirrorSrc := { kind := kind, source := src, analysis := a, truncate := tr, sample := sample, count := 0 }
      done { s with sw := { s.sw with mirrors := others ++ [m] } }
    else if kind = 3 then done { s with sw := { s.sw with binds := Tab.set s.sw.binds a (src, b6) } }
    else
      done { s with sw := { s.sw with
        mirrors := s.sw.mirrors.filter fun m => !(m.source == src && (if isTag then m.kind == 2 else m.kind != 2)) } }

def execMirrorSet (t : Time) (r : KReq) (s : State) : Host.Outcome State Fault Refusal :=
  command 0x0305 bodyMirrorSet t r s

/-! ### Pinned paths (04 R139) -/

/-- Ports whose slots are with survivors, after losses and returns in order. -/
def lostPorts (moves : List (Nat × Bool)) : List Nat :=
  moves.foldl (fun l e => if e.2 then e.1 :: l else l.filter (· != e.1)) []

/-- A port that has left UP passes its members' slots on. -/
def pinFailover (p : Nat) (s : State) : State :=
  if !s.portUp p && !(lostPorts s.sw.moves).contains p then { s with sw := { s.sw with moves := s.sw.moves ++ [(p, true)] } } else s

/-- A port that has stayed UP for 1 s takes its members' slots back; once no port is lost every slot is at home. -/
def pinRestore (p : Nat) (s : State) : State :=
  if s.portUp p && decide ((s.port p).since + sec 1 ≤ s.now) && (lostPorts s.sw.moves).contains p then
    let ms := s.sw.moves ++ [(p, false)]
    { s with sw := { s.sw with moves := if (lostPorts ms).isEmpty then [] else ms } }
  else s

def execPinMemberFailover (t : Time) (p : Nat) (s : State) : Host.Outcome State Fault Refusal :=
  .next (pinFailover p (s.tick t))
def execPinMemberRestore (t : Time) (p : Nat) (s : State) : Host.Outcome State Fault Refusal :=
  .next (pinRestore p (s.tick t))

end Sys2Proof.Machine
end

