-- ==== Sys2Proof/Machine/Egress.lean ====
section
/-! DEFINITION. The egress scheduler: rewriting, the deficit round robin, draw-time discards, MACsec on
transmission, and the end of a transmission (03 R102, R104, 04 R123, R135, R147, R151, 05 R166–R171). -/

namespace Sys2Proof.Machine

/-! ### The frame as rewritten (04 R123) -/

/-- A frame as a copy sends it; a tag added or removed changes its length by 4 bytes,
and no frame is shorter than 64 (R87). -/
def rewriteFrame (s : State) (f : Frame) (c : Copy) : Frame :=
  let v := rewriteVlan s f.vlan c.vlan
  { f with
    vlan := v, dmac := c.dmac.getD f.dmac, smac := c.smac.getD f.smac,
    ip := if c.ttlDec then f.ip.map fun i => { i with ttl := i.ttl - 1 } else f.ip,
    len := max 64 (f.len + (if v.isSome && f.vlan.isNone then 4 else 0) - (if v.isNone && f.vlan.isSome then 4 else 0)) }

/-- Wire length: MACsec included, plus 20 bytes of preamble and gap (R166). -/
def wireLen (q : Port) (f : Frame) : Nat := f.len + (if q.txSa.isSome then 32 else 0) + 20

/-! ### Packet numbers (03 R104) -/

/-- The SecTAG a frame leaves with. -/
def outTag (q : Port) : Option SecTag := q.txSa.map fun (sci, an, sa) => { sci := sci, an := an, pn := sa.nextPn, icvOk := true }

/-! ### The head of a leaf -/

/-- The wire length of the head frame. -/
def headWire (s : State) (port leaf : Nat) : Nat :=
  match headCopy s port leaf with
  | none => 0
  | some c =>
    match Tab.get? s.sw.frames c.fid with
    | none => 0
    | some fr => wireLen (s.port port) (rewriteFrame s fr.frame c)

/-! ### Drawing a frame (05 R168, R170) -/

/-- Remove the head of a leaf's VOQ. -/
def popHead (port leaf : Nat) (s : State) : State :=
  let k := voqKey (leaf % 16) port (leaf / 16)
  { s with sw := { s.sw with voqs := Tab.set s.sw.voqs k ((Tab.getD s.sw.voqs k []).drop 1) } }

/-- The port or endpoint of a copy, or an address of its frame, is fenced (R147, 14 Table FLT-4). -/
def copyFenced (s : State) (port : Nat) (c : Copy) (f : Frame) : Bool :=
  s.portFenced port || (c.endpoint.elim false fun e => s.endpointFenced e) || frameFenced s f

/-- EPOCH_DISCARD of the tables whose retire limit ended a frame, each counting the frame once (R129). -/
def countEpoch (fid : Nat) (fr : FrameRec) (s : State) : State :=
  let s := (fr.retired.filter fun k => !fr.counted.contains k).foldl (fun s k => s.count (gk 1 4 0 k) 1) s
  { s with sw := { s.sw with frames := Tab.upd s.sw.frames fid fun x => { x with counted := fr.retired } } }

/-- A frame drawn that is discarded or suppressed: the first of R170's reasons counts it. Answers whether the discard
takes port time. -/
def drawDiscard (port : Nat) (c : Copy) (fr : FrameRec) (s : State) : Option (State × Bool) :=
  let q := s.port port
  if !fr.retired.isEmpty then some (countEpoch c.fid fr s, false)
  else if copyFenced s port c fr.frame then
    if c.mem.isSome then some (suppress c.fid c.mem (s.count (gk 1 3 1 port) 1), false)
    else some (fenceDrop port s, false)
  else if s.confidential fr.levee && q.txSa.isNone then some ((s.count (gk 0x0A 1 0 port) 1).secEvent 5, false)
  else if q.pfc.stuck.getLsbD fr.cls then some (s.count (gk 0 4 fr.cls port) 1, true)
  else if q.pnSpent then some (s.count (gk 0 0 37 port) 1, false)
  else none

/-- Egress mirror copies, of the frame as rewritten when its transmission begins (R151). -/
def mirrorEgress (port : Nat) (fr : FrameRec) (f : Frame) (s : State) : State :=
  if fr.mirror || s.confidential fr.levee then s
  else
    let r := mirrorMatch (fun m => m.kind == 1 && m.source == port) s
    let x : Src := { orig := fr.orig, pipe := fr.pipe, cls := fr.cls, levee := fr.levee, stamp := fr.stamp, stamped := 0 }
    (mirrorAll x f r.2 fr.mirrored r.1).1

/-- The port's time after `wire` more bytes. -/
def busyUntil (s : State) (port wire : Nat) : Time × Time :=
  let start := max s.now (s.schedOf port).busy
  (start, start + wireTicks wire (s.port port).lanes)

/-- Begin the head frame of a leaf: debit deficit and shapers, then discard it or send it (R168, R170, R171). -/
def drawHead (port leaf : Nat) (s : State) : State :=
  match headCopy s port leaf with
  | none => s
  | some c =>
    let wire := headWire s port leaf
    let s := debitShapers (popHead port leaf s) port (leaf / 16) wire
    let s := s.modSched port fun x => { x with deficit := Tab.set x.deficit leaf (Tab.getD x.deficit leaf 0 - 256 * wire) }
    match Tab.get? s.sw.frames c.fid with
    | none => s
    | some fr =>
      match drawDiscard port c fr s with
      | some (s, timed) =>
        let s := if timed then s.modSched port fun x => { x with busy := (busyUntil s port wire).2 } else s
        releaseCopy c.fid s
      | none =>
        let f := { rewriteFrame s fr.frame c with sec := outTag (s.port port), port := port }
        let s := if (rewriteVlan s fr.frame.vlan c.vlan).isSome && fr.frame.vlan.isNone then s.drawn else s
        let (start, ends) := busyUntil s port wire
        let tx : Tx := { copy := c, frame := f, start := start, ends := ends }
        let s := mirrorEgress port fr f (s.takePn port)
        let s := s.modSched port fun x => { x with busy := ends }
        ({ s with sw := { s.sw with txing := Tab.set s.sw.txing port (Tab.getD s.sw.txing port [] ++ [tx]) } }).count
          (gk 0 0 2 port) 1

/-! ### Rounds (05 R168) -/

/-- When an eligible leaf became eligible, as far as a pause or a shaper held it back. -/
def eligibleSince (s : State) (port leaf : Nat) : Time :=
  let q := s.port port
  let c := leaf / 16
  max (max (Tab.getD q.pfc.resumed c 0) (Tab.getD q.pfc.pausedUntil c 0)) (pathOpensAt s port c)

/-- Insert a leaf by the time it became eligible, after those that were before it. -/
def byTime (s : State) (port : Nat) (l : List Nat) (leaf : Nat) : List Nat :=
  let t := eligibleSince s port leaf
  l.takeWhile (fun x => decide (eligibleSince s port x ≤ t)) ++ leaf :: l.dropWhile (fun x => decide (eligibleSince s port x ≤ t))

/-- Leaves that became eligible by a pause ending, a shaper refilling or a discard completing join the list of the current
round in the order in which they did. -/
def joinRound (port : Nat) (s : State) : State :=
  let l := (s.schedOf port).active
  let new := (List.range 128).filter fun i => !l.contains i && eligible s port i
  s.modSched port fun x => { x with active := l ++ new.foldl (byTime s port) [] }

/-- The wire is free: what the port began has ended and left. -/
def wireFree (s : State) (port : Nat) : Bool :=
  (Tab.getD s.sw.txing port []).isEmpty && decide ((s.schedOf port).busy ≤ s.now)

/-- A leaf leaves the list; the next one takes its place. -/
def leaveList (port leaf : Nat) (s : State) : State :=
  s.modSched port fun x => { x with active := x.active.filter (· != leaf), turn := false }

/-- Go on with the round from the place it has reached, until a frame takes the wire or the round ends. -/
def runRound (port fuel : Nat) (s : State) : State :=
  match fuel with
  | 0 => s
  | fuel + 1 =>
    let c := s.schedOf port
    match c.active[c.pos]? with
    | none => s.modSched port fun x => { x with pos := 0, turn := false, round := x.round + 1 }
    | some leaf =>
      if !c.turn then
        if !eligible s port leaf then runRound port fuel (leaveList port leaf s)
        else runRound port fuel (s.modSched port fun x => { x with
          deficit := Tab.set x.deficit leaf (Tab.getD x.deficit leaf 0 + x.quantum leaf), turn := true })
      else if eligible s port leaf && decide (256 * headWire s port leaf ≤ Tab.getD c.deficit leaf 0) then
        let s := drawHead port leaf s
        if wireFree s port then runRound port fuel s else s
      else if (headCopy s port leaf).isNone then
        runRound port fuel (leaveList port leaf (s.modSched port fun x => { x with deficit := Tab.del x.deficit leaf }))
      else runRound port fuel (s.modSched port fun x => { x with pos := x.pos + 1, turn := false })

/-- Steps a round can take: three for each leaf of the list and one for each queued copy. -/
def roundFuel (s : State) (port : Nat) : Nat :=
  3 * (s.schedOf port).active.length + sumL ((s.sw.voqs.filter fun e => e.1 / 8 % 512 == port).map fun e => e.2.length) + 1

/-- SCHEDULER_ROUND: the port's round goes on from where it stands until a frame begins or the round ends, so that each frame
meets the pauses, fences and associations in force when it begins (DESIGN CHOICE, assumption 95). A port whose wire is not
free, that is not UP, or of a halted device, begins nothing. -/
def schedulerRound (port : Nat) (s : State) : State :=
  if !s.portUp port || decide (511 < port) || s.halted || !wireFree s port then s
  else
    let s := joinRound port (shapedMark port s)
    runRound port (roundFuel s port) s

def execSchedulerRound (t : Time) (port : Nat) (s : State) : Host.Outcome State Fault Refusal :=
  .next (schedulerRound port (s.tick t))

/-- The PFC frames that waited for the wire leave, in order, ahead of any data frame (03 R107). -/
def pfcFlush (port : Nat) (s : State) : State :=
  let l := (s.port port).pfcWait
  let s := if l.isEmpty then s else s.modPort port fun q => { q with pfcWait := [] }
  l.foldl (fun s e => pfcNow port e.1 e.2 s) s

/-- FRAME_TRANSMIT_END: the oldest frame of the port's transmit path that has ended leaves the device; one whose FCS failed
at ingress is STOMPED (R118). -/
def transmitEnd (port : Nat) (s : State) : State :=
  match Tab.getD s.sw.txing port [] with
  | [] => s
  | x :: rest =>
    if s.now < x.ends then s
    else
      let from_ := (Tab.get? s.sw.frames x.copy.fid).elim 0 (·.frame.port)
      let s := if x.cut then s
               else (countTx port (s.fidClass x.copy.fid) x.frame.len s).emit (.frame port x.frame (!x.frame.fcsOk))
      let s := if x.cut || x.frame.fcsOk then s else s.count (gk 1 0 1 from_) 1
      let s := releaseCopy x.copy.fid { s with sw := { s.sw with
        txing := if rest.isEmpty then Tab.del s.sw.txing port else Tab.set s.sw.txing port rest } }
      if rest.isEmpty then pfcFlush port s else s

def execFrameTransmitEnd (t : Time) (port : Nat) (s : State) : Host.Outcome State Fault Refusal :=
  .next (transmitEnd port (s.tick t))

/-! ### Queued frames of a port that is down or fenced (04 R135, 14 Table FLT-4) -/

/-- Discard one queued copy. -/
def discardCopy (port : Nat) (s : State) (c : Copy) : State :=
  if s.portFenced port then
    if c.mem.isSome then releaseCopy c.fid (suppress c.fid c.mem (s.count (gk 1 3 1 port) 1))
    else releaseCopy c.fid (fenceDrop port s)
  else releaseCopy c.fid (s.count (gk 1 3 0 port) 1)

/-- PORT_DOWN_DISCARD: every copy queued for the port goes; where it has come UP again since, those queued before. -/
def portDownDiscard (port : Nat) (s : State) : State :=
  let all := !s.portUp port || s.portFenced port
  let gone (e : Nat × List Copy) : Nat := if e.1 / 8 % 512 = port then (if all then e.2.length else Tab.getD s.sw.stale e.1 0) else 0
  let mine := s.sw.voqs.flatMap fun e => e.2.take (gone e)
  let s := shapedMark port s
  let s := { s with sw := { s.sw with
    voqs := (s.sw.voqs.map fun (e : Nat × List Copy) => (e.1, e.2.drop (gone e))).filter fun e => e.1 / 8 % 512 != port || !e.2.isEmpty
    stale := s.sw.stale.filter fun e => e.1 / 8 % 512 != port } }
  mine.foldl (discardCopy port) s

def execPortDownDiscard (t : Time) (port : Nat) (s : State) : Host.Outcome State Fault Refusal :=
  .next (portDownDiscard port (s.tick t))

end Sys2Proof.Machine
end

