-- ==== Sys2Proof/Machine/Pool.lean ====
section
/-! DEFINITION. Allotments, translation, trays and their operations, quotas and use of the cistern (06 R181–R186, R206,
R207, R210, 07 R215, R228). -/

namespace Sys2Proof.Machine

abbrev mib2 : Nat := 2097152

/-! ### Allotments (06 R181, R185) -/

def State.allot (s : State) (a : Nat) : Option Allot := Tab.get? s.mem.allots a

def State.setAllot (s : State) (a : Nat) (x : Allot) : State :=
  { s with mem := { s.mem with allots := Tab.set s.mem.allots a x } }

def State.modAllot (s : State) (a : Nat) (f : Allot → Allot) : State :=
  { s with mem := { s.mem with allots := Tab.upd s.mem.allots a f } }

/-- The entries of a version of LEVEE_XLATE. -/
def State.xl (s : State) (v : Nat) : List Nat := if v = 0 then s.mem.xl0 else s.mem.xl1

def State.setXl (s : State) (v : Nat) (l : List Nat) : State :=
  { s with mem := if v = 0 then { s.mem with xl0 := l } else { s.mem with xl1 := l } }

/-- The version of LEVEE_XLATE that is not active. -/
def State.xlInactive (s : State) : Nat := 1 - (s.table 9).active

/-- Translate a levee's range under a version (R185). -/
def translate (s : State) (ver levee pva len : Nat) : Option Nat :=
  (s.xl ver).find? fun a => (s.allot a).elim false fun x =>
    x.levee == levee && decide (x.pva ≤ pva) && decide (pva + len ≤ x.pva + x.size)

/-- Bytes of a tray range: a confidential levee's carries the IVs and tags of its tiles (13 R433). -/
def trayBytes (s : State) (levee size : Nat) : Nat := if s.confidential levee then size * 129 / 128 else size

/-- A tray number that names no tray: what a RELEASING allotment keeps of a tray that has been detached. -/
def noTray : Nat := 256

/-- An allotment number that names no allotment: whose the unzeroed ranges of a dropped PENDING allotment are. -/
def noAllot : Nat := 65536

/-- Tray ranges of an allotment: (tray, offset, length). -/
def Allot.ranges (x : Allot) (len : Nat) : List (Nat × Nat × Nat) :=
  if x.place = 0 then []
  else (x.tray, x.trayOff, len) :: (if bitOf x.flags 1 then [(x.replica, x.repOff, len)] else [])

def Allot.coherent (x : Allot) : Bool := bitOf x.flags 0
def Allot.replicated (x : Allot) : Bool := bitOf x.flags 1

def overlap (a b : Nat × Nat × Nat) : Bool := a.1 == b.1 && decide (a.2.1 < b.2.1 + b.2.2) && decide (b.2.1 < a.2.1 + a.2.2)

/-! ### Use and quota (07 R215, R228, R229) -/

/-- Frames of a die that no retired channel class makes unusable (CIS_FRAMES.USABLE). -/
def State.usable (s : State) (die : Nat) : Nat :=
  135936 - 531 * (s.hlt.retiredChannels.filter fun c => c / 256 == die).length

/-- Tiles of 24 maps of a region's window (R233). -/
def mapTiles (size : Nat) : Nat := ceilDiv (24 * (size / 16384)) 4096

/-- Tiles of a resident page. -/
def Page.tiles (p : Page) : Nat := p.k.getD 16

/-- CISTERN frames of a levee on a die. -/
def cisternFrames (s : State) (die levee : Nat) : Nat :=
  sumL (s.mem.allots.map fun e => if e.2.levee = levee ∧ e.2.home = die ∧ e.2.place = 0 then e.2.size / mib2 else 0)

/-- Tiles of pages and region maps of a levee on a die. -/
def pagedTiles (s : State) (die levee : Nat) : Nat :=
  sumL (s.cis.pages.map fun e => if e.2.die = die ∧ e.2.levee = levee then e.2.tiles else 0) +
  sumL (s.cis.regions.map fun e => if e.2.die = die ∧ e.2.levee = levee then mapTiles e.2.size else 0)

/-- Use of a levee on a die, in tiles (R228, CIS_USED). -/
def useTiles (s : State) (die levee : Nat) : Nat := 512 * cisternFrames s die levee + pagedTiles s die levee

/-- Frames of a levee: a frame never holds two levees' pages (invariant 3). -/
def leveeFrames (s : State) (die levee : Nat) : Nat := cisternFrames s die levee + ceilDiv (pagedTiles s die levee) 512

/-- Levees that hold anything in the cistern. -/
def cisternLevees (s : State) : List Nat :=
  (s.mem.allots.map (·.2.levee) ++ s.cis.pages.map (·.2.levee) ++ s.cis.regions.map (·.2.levee)).eraseDups

/-- Frames that relocated channel classes take as levee 0 frames (17 Table HLT-5). -/
def levee0Frames (s : State) (die : Nat) : Nat := 531 * (s.cis.relocated.filter fun c => c / 256 == die).length

/-- Frames held by no levee (CIS_FREE). -/
def State.freeFrames (s : State) (die : Nat) : Nat :=
  s.usable die - levee0Frames s die - sumL ((cisternLevees s).map (leveeFrames s die))

def State.quota (s : State) (die levee : Nat) : Nat := Tab.getD s.cis.quota (die * 1024 + levee) 0

/-! ### ALLOT_CREATE and ALLOT_QUERY (06 R182–R186) -/

/-- The fields of Table MEM-1 as an allotment, home die chosen (R183). -/
def parseAllot (s : State) (p : Bytes) : Allot :=
  let place := byteAt p 3
  let tray := be p 24 2
  let home := byteAt p 2
  { st := .pending, levee := be p 0 2 % 1024, place := place, flags := byteAt p 4 % 4, domain := be p 6 2, pva := be p 8 8,
    size := be p 16 8, tray := tray, replica := be p 26 2, trayOff := be p 28 8, repOff := be p 36 8,
    home := if home < 2 then home
            else if place = 0 then (if s.freeFrames 0 < s.freeFrames 1 then 1 else 0)
            else portDie ((Tab.get? s.mem.trays tray).elim 0 (·.port)) }

/-- A tray that allotments may be placed on. -/
def trayOk (s : State) (t off len : Nat) : Bool :=
  match Tab.get? s.mem.trays t with
  | some x => !x.detaching && off % mib2 == 0 && decide (off + len ≤ x.length)
  | none => false

/-- Step 1 of R184. -/
def allotBad (s : State) (p : Bytes) (x : Allot) : Bool :=
  let len := trayBytes s x.levee x.size
  decide (2 < byteAt p 2) || decide (2 < x.place) ||
  x.pva % mib2 != 0 || x.trayOff % mib2 != 0 || x.repOff % mib2 != 0 || x.size % mib2 != 0 || x.size == 0 || decide (17592186044416 < x.size) ||
  decide (4503599627370496 < x.pva + x.size) ||
  (x.place == 0 && (x.tray != 0 || x.replicated)) || (!x.replicated && x.replica != 0) ||
  (x.place != 0 && !trayOk s x.tray x.trayOff len) ||
  (x.replicated && (x.replica == x.tray || !trayOk s x.replica x.repOff len)) ||
  (!x.coherent && x.domain != 0) ||
  (x.coherent && (x.place == 2 || !((Tab.get? s.coh.domains x.domain).elim false fun d => d.levee == x.levee))) ||
  (s.xl s.xlInactive).any fun a => (s.allot a).elim false fun y =>
    y.levee == x.levee && decide (x.pva < y.pva + y.size) && decide (y.pva < x.pva + x.size)

/-- A tray range as it lies in the memory of its tray: the tray's address, virtual address, length; none where no tray is
attached under the number. -/
def trayPlace (s : State) (r : Nat × Nat × Nat) : Option (Ip × Nat × Nat) :=
  (Tab.get? s.mem.trays r.1).map fun t => (t.addr, t.base + r.2.1, r.2.2)

/-- A range of tray memory meets one that has not been zeroed since a previous owner. -/
def Unzeroed.meets (u : Unzeroed) (p : Ip × Nat × Nat) : Bool :=
  u.addr == p.1 && decide (u.va < p.2.1 + p.2.2) && decide (p.2.1 < u.va + u.len)

/-- Step 4 of R184: the invariant that refuses the tray ranges, if any. -/
def allotGuard (s : State) (x : Allot) : Option Nat :=
  let rs := x.ranges (trayBytes s x.levee x.size)
  let meets (y : Allot) : Bool := (y.ranges (trayBytes s y.levee y.size)).any fun r => rs.any (overlap r)
  if s.mem.allots.any fun e => meets e.2 && e.2.st != .releasing then some 3
  else if s.mem.allots.any fun e => meets e.2 then some 4
  else if s.mem.dirty.any fun u => rs.any fun r => (trayPlace s r).elim false u.meets then some 4
  else none

/-- The owner of an allotment's tray ranges leaves: they are unzeroed from now on (R190). -/
def soil (a : Nat) (x : Allot) (s : State) : State :=
  let us_ := (x.ranges (trayBytes s x.levee x.size)).filterMap fun r =>
    (trayPlace s r).map fun p => ({ allot := a, addr := p.1, va := p.2.1, len := p.2.2 } : Unzeroed)
  { s with mem := { s.mem with dirty := s.mem.dirty ++ us_ } }

def bodyAllotCreate (r : KReq) (s : State) : Ans :=
  let p := par r
  let x := parseAllot s p
  let mine := (s.mem.allots.filter fun e => e.2.levee == x.levee).length
  let frames := x.size / mib2
  checks s ([(plen r != 48, St.badLength), (leveeBad s x.levee || allotBad s p x, St.badParam), (s.retiring x.levee, St.busy),
       ((s.table 9).st != .ready || (s.table 9).pending, St.tableBusy),
       (decide ((Tab.get? s.sec.levees x.levee).elim 0 (·.maxAllot) ≤ mine) || (Tab.lowestFree s.mem.allots 65536).isNone,
         St.exhausted),
       (x.place == 0 && (decide (s.freeFrames x.home < frames) ||
         decide (512 * s.quota x.home x.levee < useTiles s x.home x.levee + 512 * frames)), St.exhausted)]) fun _ =>
    match allotGuard s x with
    | some inv => guardReject s r x.levee inv
    | none =>
      let a := (Tab.lowestFree s.mem.allots 65536).getD 0
      let s := s.setAllot a x
      done (s.setXl s.xlInactive (s.xl s.xlInactive ++ [a])) [toBe 2 a ++ zeros 6]

def execAllotCreate (t : Time) (r : KReq) (s : State) : Host.Outcome State Fault Refusal :=
  command 0x0501 bodyAllotCreate t r s

/-- Code of an allotment state (R186). -/
def AllotState.code (x : AllotState) : Nat :=
  match x with
  | .pending => 1 | .active => 2 | .revoking => 3 | .releasing => 4

def bodyAllotQuery (r : KReq) (s : State) : Ans :=
  let a := s.allot (be (par r) 0 2)
  let own := (tenant r).elim true fun l => a.elim false fun x => x.levee == l
  checks s [(plen r != 8, St.badLength), (!own, St.badParam)] fun _ =>
    match a with
    | none => done s [zeros 24]
    | some x => done s [toBe 1 x.st.code ++ toBe 1 x.home ++ toBe 1 x.place ++ toBe 1 x.flags ++ toBe 4 x.inflight ++
        toBe 8 x.pva ++ toBe 8 x.size]

def execAllotQuery (t : Time) (r : KReq) (s : State) : Host.Outcome State Fault Refusal :=
  command 0x0503 bodyAllotQuery t r s

/-! ### Water rights (06 R205–R207) -/

/-- The right of a host: its own entry, or the levee's default (RATE 0, OUT 256 from LEVEE_ADMIT). -/
def rightOf (s : State) (die levee : Nat) (host : Ip) : Right :=
  match s.mem.rights.find? fun x => x.die == die && x.levee == levee && x.host == host with
  | some x => x
  | none =>
    match s.mem.rights.find? fun x => x.die == die && x.levee == levee && x.host.af == 0 with
    | some x => x
    | none => { die := die, levee := levee, host := ⟨0, 0⟩, rate := 0, burst := 65536, out := 256 }

/-- Bucket units of 1/24,000 byte: 10^6 bytes per second fill exactly one per tick. -/
def wrUnit : Nat := 24000

/-- What a bucket holds at the commit of the WATER_RIGHT_SET that sets it: BURST or zero (R207). -/
def Right.start (r : Right) (full : Bool) : Int := if full then (r.burst * wrUnit : Nat) else 0

/-- A host's state on a die; the bucket of a host not yet seen holds what its right was written with. -/
def hostOf (s : State) (die levee : Nat) (host : Ip) : HostState :=
  match s.mem.hosts.find? fun h => h.die == die && h.levee == levee && h.host == host with
  | some h => h
  | none =>
    let r := rightOf s die levee host
    { die := die, levee := levee, host := host, tokens := r.start r.full, last := r.since, inflight := 0, hold := [] }

def setHost (h : HostState) (s : State) : State :=
  { s with mem := { s.mem with
    hosts := s.mem.hosts.filter (fun x => !(x.die == h.die && x.levee == h.levee && x.host == h.host)) ++ [h] } }

/-- The bucket filled up to now, per mesh cycle of 12 ticks. -/
def HostState.fill (h : HostState) (r : Right) (now : Time) : HostState :=
  { h with tokens := min (r.burst * wrUnit : Int) (h.tokens + r.rate * 12 * (now / 12 - h.last / 12 : Nat)), last := now }

/-- A request may be released: the bucket, held to 1/256 byte, is above zero and the host is under OUT (R205). -/
def mayRelease (r : Right) (h : HostState) : Bool :=
  (r.rate == 0 || decide ((94 : Int) ≤ h.tokens)) && decide (h.inflight < r.out)

/-- WATER_RIGHT_SET on one die. A host named by its own entry has its bucket set even where nothing of it has been seen,
one of the default when it is first seen. -/
def setRight (x : Right) (del : Bool) (s : State) : State :=
  let full := x.full
  let s := if x.host.af = 0 then s else setHost (hostOf s x.die x.levee x.host) s
  let keep := s.mem.rights.filter fun y => !(y.die == x.die && y.levee == x.levee && y.host == x.host)
  let s := { s with mem := { s.mem with rights := if del then keep else keep ++ [x] } }
  let touch (h : HostState) : Bool :=
    h.die == x.die && h.levee == x.levee &&
      (if x.host.af = 0 then !(s.mem.rights.any fun y => y.die == h.die && y.levee == h.levee && y.host == h.host && y.host.af != 0)
       else h.host == x.host)
  let r (h : HostState) : Right := rightOf s h.die h.levee h.host
  { s with mem := { s.mem with
    hosts := s.mem.hosts.map fun h =>
      if touch h then { h with tokens := (r h).start full, last := s.now } else h } }

def bodyWaterRightSet (r : KReq) (s : State) : Ans :=
  let p := par r
  let levee := be p 0 2 % 1024
  let die := byteAt p 2
  let af := byteAt p 3
  let host : Ip := ⟨af, be p 4 16⟩
  let rate := be p 20 4
  let burst := be p 24 4
  let out := be p 28 2
  let del := bitOf (byteAt p 31) 0
  let dies := if die = 2 then [0, 1] else [die]
  let full_ (d : Nat) : Bool :=
    decide (16384 ≤ (s.mem.rights.filter fun y => y.die == d && y.host.af != 0).length) &&
      !(s.mem.rights.any fun y => y.die == d && y.levee == levee && y.host == host)
  checks s ([(plen r != 32, St.badLength),
       (leveeBad s levee || decide (2 < die) || !(af == 0 || af == 4 || af == 6) || (af == 0 && host.val != 0) ||
          (af == 4 && be p 4 12 != 0), St.badParam),
       (decide (204800 < rate) || decide (burst < 65536) || decide (67108864 < burst) || out == 0 || decide (4096 < out) ||
          !(byteAt p 30 == 1 || byteAt p 30 == 2), St.badParam),
       (s.retiring levee, St.busy),
       (!del && af != 0 && dies.any full_, St.exhausted)]) fun _ =>
    done (dies.foldl (fun s d => setRight { die := d, levee := levee, host := host, rate := rate, burst := burst, out := out,
                                             full := byteAt p 30 == 1, since := s.now } del s) s)

def execWaterRightSet (t : Time) (r : KReq) (s : State) : Host.Outcome State Fault Refusal :=
  command 0x0504 bodyWaterRightSet t r s

/-! ### Trays (06 R210) -/

/-- Operations outstanding to a tray. -/
def trayOps (s : State) (t : Nat) : List (Nat × TrayOp) := s.mem.ops.filter fun e => e.2.tray == t

/-- Tray virtual address of an offset in a tray's range (BASE of Table MEM-11). -/
def trayVa (s : State) (t off : Nat) : Nat := (Tab.get? s.mem.trays t).elim 0 (·.base) + off

/-- Drop what a tray's record of outstanding operations says of times more than 1 µs ago, but for the count then in force. -/
def lastMicro (now : Time) (l : List (Time × Nat)) : List (Time × Nat) :=
  match l with
  | [] => []
  | e :: r => if e.1 + us 1 ≤ now then [e] else e :: lastMicro now r

/-- The number of operations outstanding to a tray changes (R200). -/
def noteOps (t : Nat) (s : State) : State :=
  let n := (trayOps s t).length
  { s with mem := { s.mem with occ := Tab.set s.mem.occ t ((s.now, n) :: lastMicro s.now (Tab.getD s.mem.occ t [])) } }

/-- Operations times ticks of a record, back to `from_`, for the time up to `upTo`. -/
def opTicks (from_ upTo : Time) (l : List (Time × Nat)) : Nat :=
  match l with
  | [] => 0
  | e :: r => e.2 * (upTo - max from_ (min e.1 upTo)) + opTicks from_ (min e.1 upTo) r

/-- LOAD of a tray: outstanding operations over MAX_OUTSTANDING, averaged over the preceding 1 µs, of 255 (R200). -/
def trayLoad (s : State) (t : Nat) : Nat :=
  match Tab.get? s.mem.trays t with
  | none => 0
  | some x =>
    let from_ := s.now - us 1
    min 255 (255 * opTicks from_ s.now (Tab.getD s.mem.occ t []) / (us 1 * x.maxOut))

/-- Issue an operation to a tray; answers its number. -/
def issueOp (o : TrayOp) (s : State) : State × Nat :=
  let id := s.mem.nextOp
  (noteOps o.tray (({ s with mem := { s.mem with nextOp := id + 1, ops := Tab.set s.mem.ops id o } }).emit
    (.trayOp id (trayVa s o.tray o.addr) o)), id)

/-- An operation to a tray has ended. -/
def delOp (id : Nat) (s : State) : State :=
  match Tab.get? s.mem.ops id with
  | none => s
  | some o => noteOps o.tray { s with mem := { s.mem with ops := Tab.del s.mem.ops id } }

/-- Operations that nothing waits for any more are no longer outstanding. -/
def delOps (p : TrayOp → Bool) (s : State) : State :=
  (s.mem.ops.filter fun e => p e.2).foldl (fun s e => delOp e.1 s) s

/-- The tray is not to be operated on: it is fenced or declared failed, or no longer attached (07 R231). -/
def State.trayDown (s : State) (t : Nat) : Bool :=
  match Tab.get? s.mem.trays t with
  | some x => x.failed || s.trayFenced t
  | none => true

def bodyTrayAttach (r : KReq) (s : State) : Ans :=
  let p := par r
  let af := byteAt p 2
  let x : Tray :=
    { port := be p 0 2, addr := ⟨af, be p 4 16⟩, qpn := be p 20 3, rkey := be p 24 4, base := be p 28 8, length := be p 36 8,
      maxOut := be p 44 2 }
  checks s [(plen r != 56, St.badLength),
      (decide (511 < x.port) || !s.portExists x.port || !(af == 4 || af == 6) || (af == 4 && be p 4 12 != 0) ||
        x.length == 0 || x.length % mib2 != 0 || x.maxOut == 0 || decide (4096 < x.maxOut), St.badParam),
      ((Tab.lowestFree s.mem.trays 256).isNone, St.exhausted)] fun _ =>
    let t := (Tab.lowestFree s.mem.trays 256).getD 0
    done { s with mem := { s.mem with trays := Tab.set s.mem.trays t x, occ := Tab.del s.mem.occ t } } [toBe 2 t ++ zeros 6]

def execTrayAttach (t : Time) (r : KReq) (s : State) : Host.Outcome State Fault Refusal :=
  command 0x0505 bodyTrayAttach t r s

/-- A tray is gone: the number may come to name another one, so the RELEASING allotments on it name it no longer. What is
not zeroed of its memory stays recorded by the tray's own address. -/
def trayGone (t : Nat) (a : Allot) : Allot :=
  { a with tray := if a.place ≠ 0 ∧ a.tray = t then noTray else a.tray,
           replica := if a.replicated ∧ a.replica = t then noTray else a.replica }

/-- A tray being detached with no operation left is gone (R210). -/
def detachIfDone (t : Nat) (s : State) : State :=
  match Tab.get? s.mem.trays t with
  | none => s
  | some x =>
    if x.detaching && (trayOps s t).isEmpty then
      let as_ := Tab.mapVals s.mem.allots fun _ a => if a.st = .releasing then trayGone t a else a
      let s := { s with mem := { s.mem with trays := Tab.del s.mem.trays t, occ := Tab.del s.mem.occ t, allots := as_ } }
      s.workDone (fun w => w == .detach t) St.ok []
    else s

/-- The detachments that are due. -/
def detachDone (s : State) : State :=
  (s.mem.trays.filter fun e => e.2.detaching).foldl (fun s e => detachIfDone e.1 s) s

def bodyTrayDetach (r : KReq) (s : State) : Ans :=
  let t := be (par r) 0 2
  let used := s.mem.allots.any fun e => e.2.st != .releasing && e.2.place != 0 &&
    (e.2.tray == t || (e.2.replicated && e.2.replica == t))
  checks s [(plen r != 8, St.badLength), ((Tab.get? s.mem.trays t).isNone, St.badParam),
      (used || ((Tab.get? s.mem.trays t).elim false (·.detaching)), St.busy)] fun _ =>
    { defer { s with mem := { s.mem with trays := Tab.upd s.mem.trays t fun x => { x with detaching := true } } } (.detach t)
      with after := detachIfDone t }

def execTrayDetach (t : Time) (r : KReq) (s : State) : Host.Outcome State Fault Refusal :=
  command 0x0506 bodyTrayDetach t r s

end Sys2Proof.Machine
end

