-- ==== Sys2Proof/Machine/Cistern.lean ====
section
/-! DEFINITION. Cistern tiles and pages: reading and writing them, fills, write-backs, eviction, poison, hints, quotas
and compression (07 R215–R231, 13 R432–R434). -/

namespace Sys2Proof.Machine

/-! ### Addresses -/

def poolKey (a off : Nat) : Nat := a * 2 ^ 44 + off
def pageKey (a page : Nat) : Nat := a * 2 ^ 28 + page
def tileKey (a tile : Nat) : Nat := a * 2 ^ 32 + tile

/-- Die-local tile number of a tile (R215). -/
def dieTile (x : Allot) (a tile : Nat) : Nat :=
  if x.place = 0 then Config.framePlace a (tile / 512) * 512 + tile % 512 else Config.pagePlace a (tile / 16) * 16 + tile % 16

/-- The pseudo-channel, 0–511, that holds a tile: one of its home die, relocated or not (01 R16). -/
def chanOf (s : State) (a tile : Nat) : Nat :=
  match s.allot a with
  | none => 0
  | some x =>
    let c := x.home * 256 + dieTile x a tile % 256
    if s.cis.relocated.contains c || s.hlt.retiredChannels.contains c then
      x.home * 256 + Config.relocated x.home (dieTile x a tile) % 256
    else c

def State.page (s : State) (a page : Nat) : Option Page := Tab.get? s.cis.pages (pageKey a page)

def State.modPage (s : State) (a page : Nat) (f : Page → Page) : State :=
  { s with cis := { s.cis with pages := Tab.upd s.cis.pages (pageKey a page) f } }

/-- The tile is in the cistern. -/
def tileValid (s : State) (a tile : Nat) : Bool :=
  match s.allot a with
  | none => false
  | some x =>
    x.place == 0 || (x.place == 1 && ((s.page a (tile / 16)).elim false fun p => p.valid.getLsbD (tile % 16)))

def tileFilling (s : State) (a tile : Nat) : Bool :=
  (s.page a (tile / 16)).elim false fun p => p.filling.getLsbD (tile % 16)

def State.isPoisoned (s : State) (a tile : Nat) : Bool := s.cis.poisoned.contains (tileKey a tile)

/-- Bytes of an allotment as the cistern holds them. -/
def readPool (s : State) (a off n : Nat) : Bytes := s.cis.pool.readN (poolKey a off) n

/-- The check value that HBM metadata holds for a tile (09 R294): every write, fill, expansion or zeroing stores the
CRC-32C of the tile as it then stands, so only one that no longer fits is listed. -/
def poolSum (s : State) (a tile : Nat) : Word :=
  (Tab.get? s.cis.sums (tileKey a tile)).getD (crc32c (readPool s a (4096 * tile) 4096))

/-- A cistern tile fits its stored check value. -/
def poolSumOk (s : State) (a tile : Nat) : Bool :=
  (Tab.get? s.cis.sums (tileKey a tile)).elim true fun v => v == crc32c (readPool s a (4096 * tile) 4096)

theorem poolSumOk_iff (s : State) (a tile : Nat) :
    poolSumOk s a tile = true ↔ poolSum s a tile = crc32c (readPool s a (4096 * tile) 4096) := by
  unfold poolSumOk poolSum
  cases Tab.get? s.cis.sums (tileKey a tile) <;> simp

/-- Gauges of the cistern (Table CIS-8), kept per levee and die. -/
def cisCount (s : State) (row idx : Nat) (x : Allot) (n : Nat) : State := s.count (gk 4 row idx x.levee x.home) n

/-! ### Sealing (13 R433) -/

/-- The initialisation vector of the next tile that unit `u` of a die seals for a levee; the counter advances. -/
def nextIv (levee die u : Nat) (s : State) : State × Bytes :=
  let unit := die * 5 + u
  let n := Tab.getD s.sec.invocations (levee * 16 + unit) 0
  ({ s with sec := { s.sec with invocations := Tab.set s.sec.invocations (levee * 16 + unit) (n + 1) } },
    toBe 1 unit ++ zeros 3 ++ toBe 8 n)

/-- Additional data of a tile: levee and pool virtual address. -/
def tileAad (x : Allot) (tile : Nat) : Bytes := toBe 2 x.levee ++ toBe 8 (x.pva + 4096 * tile)

def memKey (s : State) (levee : Nat) : Key := ((Tab.get? s.sec.levees levee).bind (·.memKey)).getD 0

/-- Seal a tile of a confidential levee anew: its IV and tag replace the stored ones. -/
def sealTile (a tile u : Nat) (s : State) : State :=
  match s.allot a with
  | none => s
  | some x =>
    if s.confidential x.levee then
      let (s, iv) := nextIv x.levee x.home u s
      let c := Config.gcmSeal (memKey s x.levee) iv (tileAad x tile) (readPool s a (4096 * tile) 4096)
      { s with sec := { s.sec with tileIv := Tab.set s.sec.tileIv (tileKey a tile) (iv ++ c.2) } }
    else s

/-- What a tray holds of a tile: its bytes, or for a confidential levee ciphertext, IV, tag and 4 zero bytes. -/
def tileImage (s : State) (a tile : Nat) : Bytes :=
  let pt := readPool s a (4096 * tile) 4096
  match s.allot a with
  | none => pt
  | some x =>
    if s.confidential x.levee then
      let m := Tab.getD s.sec.tileIv (tileKey a tile) (zeros 28)
      (Config.gcmSeal (memKey s x.levee) (slice m 0 12) (tileAad x tile) pt).1 ++ slice m 0 28 ++ zeros 4
    else pt

/-- The plain bytes of a tile image that arrived from a tray; none when its tag fails. -/
def openImage (s : State) (x : Allot) (tile : Nat) (d : Bytes) : Option Bytes :=
  if s.confidential x.levee then
    Config.gcmOpen (memKey s x.levee) (slice d 4096 12) (tileAad x tile) (slice d 0 4096) (slice d 4108 16)
  else some (slice d 0 4096)

/-- Length of a tile image. -/
def imageLen (s : State) (x : Allot) : Nat := if s.confidential x.levee then 4128 else 4096

/-- GCM_FAIL: the event, its gauge and the ledger record naming the source (13 R434, 17 Table HLT-2). -/
def gcmFail (x : Allot) (kind src off : Nat) (s : State) : State :=
  (s.secEvent 6).count (gk 0x0A 0 0 x.levee x.home) 1 |>.ledger 0x0023 (srcOf 7 x.levee)
    (recBody [(32, 1, 1), (34, 2, x.levee), (36, 1, kind), (38, 2, src), (40, 8, off)])

/-! ### Poison (R221) -/

/-- Poison a tile: POISON, the gauge; requests that touch it are INTERNAL until a write covers it whole. -/
def poisonTile (a tile : Nat) (s : State) : State :=
  match s.allot a with
  | none => s
  | some x =>
    let s := (s.count (gk 4 3 0 x.home) 1).mark (Reg.cis x.home) 30
    { s with cis := { s.cis with
      poison := setBit s.cis.poison x.home,
      poisoned := if s.isPoisoned a tile then s.cis.poisoned else s.cis.poisoned ++ [tileKey a tile] } }

/-- HBM_ERROR record: outcome 1 refetched, 2 poisoned. -/
def hbmRecord (a tile outcome : Nat) (s : State) : State :=
  let t := (s.allot a).elim 0 fun x => dieTile x a tile
  s.ledger 0x0032 (srcOf 4 (chanOf s a tile)) (recBody [(32, 2, chanOf s a tile), (36, 4, t), (40, 1, outcome)])

/-! ### Writing a tile in the cistern -/

/-- Put bytes into a tile: contents, check value or seal, valid and dirty bits (R218, R219, R294): the check value written
with them is that of the tile as it then stands. A tile dirty already keeps the instant from which it is due, unless its
present contents are on their way to the tray (Table CIS-1). `u` is the unit that seals: 0–3 an HBM controller, 4 the
memory transport engine. -/
def putTile (a tile start : Nat) (bs : Bytes) (u : Nat) (s : State) : State :=
  let k := tileKey a tile
  let whole := start == 0 && decide (4096 ≤ bs.length)
  let s := { s with cis := { s.cis with
    pool := s.cis.pool.writeN (poolKey a (4096 * tile + start)) bs,
    poisoned := if whole then s.cis.poisoned.filter (· != k) else s.cis.poisoned,
    sums := Tab.del s.cis.sums k,
    onceTiles := if whole then s.cis.onceTiles.filter (· != k) else s.cis.onceTiles } }
  let i := tile % 16
  let s := s.modPage a (tile / 16) fun p => { p with
    valid := setBit p.valid i, dirty := setBit p.dirty i, lru := s.now,
    since := if p.dirty.getLsbD i && !(p.writing.getLsbD i && !p.again.getLsbD i) then p.since else Tab.set p.since i s.now,
    again := if p.writing.getLsbD i then setBit p.again i else p.again, want := clearBit p.want i, evict := false }
  sealTile a tile u s

/-- A request touches a page: LRU, and an eviction chosen is abandoned (Table CIS-1). -/
def touchPage (a page : Nat) (s : State) : State := s.modPage a page fun p => { p with lru := s.now, evict := false }

/-! ### Fills (R218, R230) -/

/-- Fills outstanding on a die. -/
def fillsOut (s : State) (die : Nat) : Nat :=
  sumL (s.cis.pages.map fun e => if e.2.die = die then popcount 16 e.2.filling.toNat else 0)

/-- The tray a tile is read from: the primary, or the replica while the primary is down (R219, R231). -/
def readTray (s : State) (x : Allot) : Option (Nat × Nat) :=
  if !s.trayDown x.tray then some (x.tray, x.trayOff)
  else if x.replicated && !s.trayDown x.replica then some (x.replica, x.repOff) else none

/-- No copy of a TRAY or TRAY_DIRECT allotment can be reached: every new request is FENCED (R231). -/
def allotFenced (s : State) (x : Allot) : Bool :=
  x.place != 0 && ((readTray s x).isNone || s.compFenced x.levee 3 x.tray || (x.replicated && s.compFenced x.levee 3 x.replica))

/-- Start the fill of one tile of a resident page. -/
def startFill (a tile : Nat) (again : Bool) (s : State) : State :=
  match s.allot a with
  | none => s
  | some x =>
    match readTray s x with
    | none => s
    | some (t, off) =>
      let s := s.modPage a (tile / 16) fun p => { p with
        filling := setBit p.filling (tile % 16), want := clearBit p.want (tile % 16), evict := false }
      (issueOp { tray := t, use := .fill a tile, kind := .read, addr := off + 4096 * tile, len := imageLen s x, data := [],
                 at_ := s.now, again := again } s).1

/-- The fill operation of a tile. -/
def fillOp (s : State) (a tile : Nat) : Option (Nat × TrayOp) := s.mem.ops.find? fun e => e.2.use == .fill a tile

/-! ### Write-backs (R219) and eviction (R226) -/

/-- Open a journal entry on a die (06 R211). -/
def openJournal (j : Journal) (s : State) : Option (State × Nat) :=
  (Tab.lowestFreeFrom s.mem.journal (j.die * 8192) 8192).map fun k =>
    ({ s with mem := { s.mem with journal := Tab.set s.mem.journal k j } }, k)

/-- Phase deadline in ticks; values below 50 µs act as 50. -/
def phaseTicks (s : State) : Time := us (max 50 s.mem.phaseUs.toNat)

/-- The journal entry of a write-back. -/
def wbJournal (s : State) (a tile : Nat) : Option (Nat × Journal) :=
  s.mem.journal.find? fun e => e.2.live.isNone && e.2.allot == a && e.2.tile == tile

/-- Issue the write of a tile to one tray. -/
def issueWb (a tile : Nat) (x : Allot) (replica : Bool) (d : Bytes) (s : State) : State :=
  let (t, off) := if replica then (x.replica, x.repOff) else (x.tray, x.trayOff)
  (issueOp { tray := t, use := .writeBack a tile replica, kind := .write, addr := off + 4096 * tile, len := d.length,
             data := d, at_ := s.now } s).1

/-- Start the write-back of a dirty tile. A REPLICATED allotment's is a multi-phase request, primary first (R219); with no
journal entry free, or no tray to write to, the tile stays dirty. A poisoned tile has no bytes to write (R221). -/
def startWriteBack (a tile : Nat) (s : State) : State :=
  match s.allot a with
  | none => s
  | some x =>
    let i := tile % 16
    let ready := !s.isPoisoned a tile && (s.page a (tile / 16)).elim false fun p => p.dirty.getLsbD i && !p.writing.getLsbD i
    let up := !s.trayDown x.tray
    let rep := x.replicated && !s.trayDown x.replica
    if !ready || (!up && !rep) || x.st == .revoking || x.st == .releasing then s
    else
      let d := tileImage s a tile
      let mark (s : State) : State := s.modPage a (tile / 16) fun p => { p with
        writing := setBit p.writing i, again := clearBit p.again i }
      if up && rep then
        let j : Journal :=
          { die := x.home, levee := x.levee, host := ⟨0, 0⟩, queue := 0, seq := 0, opcode := 0, phase := 0,
            members := [x.tray, x.replica], owner := x.tray, epoch := 0, deadline := s.now + phaseTicks s, live := none,
            allot := a, tile := tile, data := d }
        match openJournal j s with
        | none => s
        | some (s, _) => issueWb a tile x false d (mark s)
      else issueWb a tile x (!up) d (mark s)

/-- Remove a page from the cistern; its bytes go. A poisoned tile stays poisoned, whatever its tray holds, until a write
covers it (R221). -/
def freePage (a page : Nat) (s : State) : State :=
  { s with cis := { s.cis with
      pages := Tab.del s.cis.pages (pageKey a page), pool := s.cis.pool.zero (poolKey a (65536 * page)) 65536,
      sums := s.cis.sums.filter fun e => e.1 / 16 != a * 2 ^ 28 + page,
      onceTiles := s.cis.onceTiles.filter fun k => k / 16 != a * 2 ^ 28 + page } }

/-- Dirty tiles of a page that can be written back: those not poisoned. -/
def dirtyTiles (s : State) (a page : Nat) (p : Page) : List Nat :=
  (bitList 16 p.dirty.toNat).filter fun i => !s.isPoisoned a (16 * page + i)

/-- The allotment whose tiles a request's parts name. -/
def Live.at (l : Live) : Nat := if l.stage = 0 ∨ l.stage = 7 ∨ l.stage = 10 ∨ l.stage = 13 then l.src.getD l.allot else l.allot

/-- A request, fill, write-back, expansion or transaction is outstanding on a page (R223, R226). -/
def pageBusy (s : State) (a page : Nat) : Bool :=
  ((s.page a page).elim false fun p => p.filling != 0 || p.writing != 0 || p.expanding) ||
  s.mem.live.any (fun e => (e.2.at == a && e.2.segs.any fun g => g.tile / 16 == page) ||
    (e.2.allot == a && e.2.cow.elim false fun c => c.to_ == page ||
      ((Tab.get? s.cis.handles c.slot).elim false fun h => h.map.getD c.block 0 == page))) ||
  s.coh.trans.any (fun e => e.2.stage != 0 && e.1 / 2 ^ 36 == a && e.1 % 2 ^ 36 / 256 == page)

/-- Rank of an eviction candidate and the instant that orders it: EVICT_SOON, COLD, unhinted, HOT (R226). -/
def Page.rank (p : Page) : Nat × Time :=
  if p.hint = 5 then (0, p.hintAt) else if p.hint = 3 then (1, p.lru) else if p.hint = 0 then (2, p.lru) else (3, p.lru)

/-- The page of a levee that is evicted next (R226). -/
def victim (s : State) (die levee : Nat) : Option (Nat × Page) :=
  (s.cis.pages.filter fun e => e.2.die == die && e.2.levee == levee && !e.2.pinned && e.2.hint != 4 && !e.2.evict &&
      !pageBusy s (e.1 / 2 ^ 28) (e.1 % 2 ^ 28)).foldl
    (fun b e => match b with
      | none => some e
      | some x =>
        let (r, t) := e.2.rank
        let (q, u) := x.2.rank
        if r < q ∨ (r = q ∧ t < u) then some e else some x) none

/-- Evict a page: a clean one is freed, a dirty one is written back first (R219). -/
def evictPage (k : Nat) (s : State) : State :=
  let a := k / 2 ^ 28
  let page := k % 2 ^ 28
  match s.page a page, s.allot a with
  | some p, some x =>
    if (dirtyTiles s a page p).isEmpty then cisCount (freePage a page s) 1 0 x 1
    else (bitList 16 p.dirty.toNat).foldl (fun s i => startWriteBack a (16 * page + i) s)
        (s.modPage a page fun p => { p with evict := true })
  | _, _ => s

/-- Tiles of a levee's pages that are leaving: chosen for eviction, their write-back not over. -/
def leavingTiles (s : State) (die levee : Nat) : Nat :=
  sumL (s.cis.pages.map fun e => if e.2.die = die ∧ e.2.levee = levee ∧ e.2.evict then e.2.tiles else 0)

/-- Room for `n` more tiles of a levee, within its quota and the die's free frames. -/
def roomFor (s : State) (die levee n : Nat) : Bool :=
  decide (useTiles s die levee + n ≤ 512 * s.quota die levee) &&
    decide (ceilDiv (pagedTiles s die levee + n) 512 - ceilDiv (pagedTiles s die levee) 512 ≤ s.freeFrames die)

/-- Make room for `n` tiles by evicting the levee's own clean pages; a dirty choice is written back and room comes
later. What is leaving already is not chosen for again. -/
def makeRoom (die levee n fuel : Nat) (s : State) : State × Bool :=
  match fuel with
  | 0 => (s, false)
  | fuel + 1 =>
    if roomFor s die levee n then (s, true)
    else if s.quota die levee = 0 ∨ useTiles s die levee + n ≤ 512 * s.quota die levee + leavingTiles s die levee then (s, false)
    else match victim s die levee with
      | none => (s, false)
      | some (k, p) =>
        if (dirtyTiles s (k / 2 ^ 28) (k % 2 ^ 28) p).isEmpty then makeRoom die levee n fuel (evictPage k s) else (evictPage k s, false)

/-- Allocate an absent page at once, or fail (R218, R230). -/
def obtainPage (a page : Nat) (s : State) : State × Bool :=
  match s.allot a with
  | none => (s, false)
  | some x =>
    if (s.page a page).isSome then (s, true)
    else
      match makeRoom x.home x.levee 16 17 s with
      | (s, true) =>
        ({ s with cis := { s.cis with
            pages := Tab.set s.cis.pages (pageKey a page) { die := x.home, levee := x.levee, lru := s.now } } }, true)
      | (s, false) => (s, false)

/-- A write-back has been acknowledged by every tray: the tile is clean unless it was written meanwhile. -/
def wbFinished (a tile : Nat) (s : State) : State :=
  let i := tile % 16
  let page := tile / 16
  let s := { s with mem := { s.mem with
    journal := s.mem.journal.filter fun e => !(e.2.live.isNone && e.2.allot == a && e.2.tile == tile) } }
  let s := s.modPage a page fun p =>
    let p := { p with writing := clearBit p.writing i }
    if p.again.getLsbD i then { p with again := clearBit p.again i }
    else { p with dirty := clearBit p.dirty i, since := Tab.del p.since i }
  match s.page a page, s.allot a with
  | some p, some x =>
    let s := cisCount s 0 3 x 4096
    if p.evict && (dirtyTiles s a page p).isEmpty && p.writing == 0 then cisCount (freePage a page s) 1 0 x 1 else s
  | _, _ => s

/-- A tray acknowledged the write of a tile: the next phase, or the end (R219, 06 R213). -/
def wbAcked (a tile : Nat) (replica : Bool) (s : State) : State :=
  match s.allot a, wbJournal s a tile with
  | some x, some (k, j) =>
    if !replica && !s.trayDown x.replica then
      let j := { j with phase := 1, owner := x.replica, epoch := (j.epoch + 1) % 65536, deadline := s.now + phaseTicks s }
      issueWb a tile x true j.data { s with mem := { s.mem with journal := Tab.set s.mem.journal k j } }
    else wbFinished a tile s
  | _, _ => wbFinished a tile s

/-- The outstanding write-back operation of a tile. -/
def wbOp (s : State) (a tile : Nat) : Option (Nat × TrayOp) :=
  s.mem.ops.find? fun e => e.2.use == .writeBack a tile false || e.2.use == .writeBack a tile true

/-- A dirty tile has waited FLUSH_US; values below 10 act as 10 (R219). -/
def writeBackDeadline (a tile : Nat) (s : State) : State :=
  let due := (s.page a (tile / 16)).bind fun p => Tab.get? p.since (tile % 16)
  match due with
  | some t => if t + us (max 10 (Tab.getD s.cis.flushUs ((s.allot a).elim 0 (·.home)) 0x3E8)) ≤ s.now then startWriteBack a tile s else s
  | none => s

def execWriteBackDeadline (t : Time) (a tile : Nat) (s : State) : Host.Outcome State Fault Refusal :=
  .next (writeBackDeadline a tile (s.tick t))

/-! ### Compressed pages (R222, R223) -/

/-- Tiles a page occupies compressed: of the bytes of its valid tiles. -/
def packedTiles (s : State) (a page : Nat) (p : Page) : Nat :=
  Config.coldTiles p.elem ((bitList 16 p.valid.toNat).flatMap fun i => readPool s a (65536 * page + 4096 * i) 4096)

/-- COLD_COMPRESSION: a page hinted COLD, with nothing outstanding on it; suspended from throttle level 1 on (15 Table
PWR-4). -/
def coldCompression (a page : Nat) (s : State) : State :=
  match s.page a page, s.allot a with
  | some p, some x =>
    if s.pwr.level = 0 ∧ p.hint = 3 ∧ p.k.isNone ∧ !pageBusy s a page then
      let k := packedTiles s a page p
      if k ≤ 12 then cisCount (s.modPage a page fun p => { p with k := some k }) 1 1 x 1 else s
    else s
  | _, _ => s

def execColdCompression (t : Time) (a page : Nat) (s : State) : Host.Outcome State Fault Refusal :=
  .next (coldCompression a page (s.tick t))

/-- A compressed page expands once room for its other tiles is there; its hint is cleared (R223). While it does, it is not
itself chosen to make that room. Answers whether it is expanded now. -/
def expandPage (a page : Nat) (s : State) : State × Bool :=
  match s.page a page, s.allot a with
  | some p, some x =>
    match p.k with
    | none => (s.modPage a page fun p => { p with expanding := false }, true)
    | some k =>
      match makeRoom x.home x.levee (16 - k) 17 (s.modPage a page fun p => { p with expanding := true, evict := false }) with
      | (s, true) => (cisCount (s.modPage a page fun p => { p with k := none, expanding := false, hint := 0 }) 1 2 x 1, true)
      | (s, false) => (s, false)
  | _, _ => (s, true)

/-! ### Hints (R224–R227) -/

/-- Apply a hint to a page that is resident and not in fill; EVICT_SOON writes dirty tiles back at once (Table CIS-3). -/
def applyHint (a page hint elem : Nat) (at_ : Time) (s : State) : State :=
  let s := s.modPage a page fun p => { p with
    hint := if hint = 2 then 0 else hint, elem := elem, hintAt := at_, pendHint := none,
    pinned := if hint = 2 then false else p.pinned || hint == 4 }
  if hint = 5 then
    (bitList 16 ((s.page a page).elim 0 (·.dirty.toNat))).foldl (fun s i => startWriteBack a (16 * page + i) s) s
  else s

/-- Apply a hint that waited for the page's fill, as of when it was given (Table CIS-1). -/
def settleHint (a page : Nat) (s : State) : State :=
  match (s.page a page).bind fun p => if p.filling = 0 ∧ p.want = 0 then p.pendHint else none with
  | some (h, e, t) => applyHint a page h e t s
  | none => s

/-- A page whose tiles have changed while it is compressed occupies what it then needs, or stands uncompressed (R222). -/
def repack (a page : Nat) (s : State) : State :=
  match s.page a page with
  | some p =>
    if p.k.isSome then
      let k := packedTiles s a page p
      s.modPage a page fun p => { p with k := if k ≤ 12 then some k else none }
    else s
  | none => s

/-- A tile's bytes arrived from its tray. Answers nothing where no fill is outstanding or it is read once more, else
whether the tile is valid now (13 R434). Its check value is computed with it (09 R294). -/
def fillArrived (a tile : Nat) (d : Bytes) (s : State) : State × Option Bool :=
  match fillOp s a tile, s.allot a with
  | some (id, op), some x =>
    let s := delOp id s
    let i := tile % 16
    let done_ := s.modPage a (tile / 16) fun p => { p with filling := clearBit p.filling i }
    match openImage s x tile d with
    | some pt =>
      let s := done_.modPage a (tile / 16) fun p => { p with valid := setBit p.valid i, lru := s.now }
      let s := { s with cis := { s.cis with
        pool := s.cis.pool.writeN (poolKey a (4096 * tile)) pt, sums := Tab.del s.cis.sums (tileKey a tile),
        onceTiles := s.cis.onceTiles.filter (· != tileKey a tile) } }
      let s := if s.confidential x.levee then
          { s with sec := { s.sec with tileIv := Tab.set s.sec.tileIv (tileKey a tile) (slice d 4096 28) } } else s
      (cisCount (settleHint a (tile / 16) (repack a (tile / 16) s)) 0 2 x 4096, some true)
    | none =>
      if op.again then
        (gcmFail x 6 op.tray (op.addr % 2 ^ 64) (settleHint a (tile / 16) done_), some false)
      else (startFill a tile true s, none)
  | _, _ => (s, none)

/-- Start the fills that prefetches still want, as far as the die's 4,096 allow (R218, R225). -/
def prefetchGo (s : State) : State :=
  (s.cis.pages.filter fun e => e.2.want != 0).foldl (fun s e =>
    let a := e.1 / 2 ^ 28
    let page := e.1 % 2 ^ 28
    (List.range 16).foldl (fun s i =>
      match s.page a page with
      | some p =>
        if p.want.getLsbD i && decide (fillsOut s e.2.die < 4096) then startFill a (16 * page + i) false s else s
      | none => s) s) s

/-- Bring an absent page in: all its tiles are wanted in the background. -/
def prefetchPage (a page hint elem : Nat) (s : State) : State × Bool :=
  match obtainPage a page s with
  | (s, false) => (s, false)
  | (s, true) =>
    (s.modPage a page fun p => { p with pendHint := some (hint, elem, s.now), pinned := hint == 4, want := 0xFFFF }, true)

/-- Pages of HOT hints that found no room are tried again; one that has come in, or whose allotment is gone, is done. -/
def prefetchPages (s : State) : State :=
  let todo := s.cis.prefetch
  let s := todo.foldl (fun s q =>
    let a := q.page / 2 ^ 28
    let page := q.page % 2 ^ 28
    let keep (s : State) : State := { s with cis := { s.cis with prefetch := s.cis.prefetch ++ [q] } }
    if !((s.allot a).elim false fun x => x.st == .active && s.quota x.home x.levee != 0) || (s.page a page).isSome then s
    else match prefetchPage a page q.hint q.elem s with
      | (s, true) => s
      | (s, false) => keep s) { s with cis := { s.cis with prefetch := [] } }
  prefetchGo s

/-- Set a hint on one page; answers whether the page is affected. An absent page that HOT cannot bring in at once is
affected all the same: it is fetched when room comes. -/
def hintPage (hint elem a : Nat) (x : State × Nat) (page : Nat) : State × Nat :=
  let (s, n) := x
  match s.page a page with
  | some p =>
    if (p.filling != 0 || p.want != 0) && hint != 2 then
      (s.modPage a page fun p => { p with pendHint := some (hint, elem, s.now), pinned := p.pinned || hint == 4 }, n + 1)
    else (applyHint a page hint elem s.now s, n + 1)
  | none =>
    if hint = 1 ∨ hint = 4 then
      match prefetchPage a page hint elem s with
      | (s, true) => (s, n + 1)
      | (s, false) =>
        if hint = 1 ∧ (s.allot a).elim false (fun y => s.quota y.home y.levee != 0) then
          ({ s with cis := { s.cis with prefetch := s.cis.prefetch ++ [⟨pageKey a page, hint, elem⟩] } }, n + 1)
        else (s, n)
    else (s, n)

/-- The region of an allotment. -/
def regionOf (s : State) (a : Nat) : Option (Nat × Region) := s.cis.regions.find? fun e => e.2.allot == a

/-- The pages of a range: blocks of the current version in a region's window (R224). -/
def rangePages (s : State) (a off len : Nat) : List Nat :=
  let ws := (List.range (len / 65536)).map (off / 65536 + ·)
  match regionOf s a with
  | none => ws
  | some (_, g) => ws.map fun w => (Tab.getD g.vers g.cur []).getD w 0

/-- Pages already held by PIN. -/
def pinnedTiles (s : State) (die levee : Nat) : Nat :=
  16 * (s.cis.pages.filter fun e => e.2.die == die && e.2.levee == levee && e.2.pinned).length

/-- Unevictable use of a levee (R227). -/
def unevictable (s : State) (die levee : Nat) : Nat :=
  512 * cisternFrames s die levee + pinnedTiles s die levee +
    sumL (s.cis.regions.map fun e => if e.2.die = die ∧ e.2.levee = levee then mapTiles e.2.size else 0)

/-- Pages of a PIN that are not resident yet are fetched as room comes; when all are, the reply
follows (R227); pages no tray can give end it FENCED (assumption: no rule gives the status). -/
def pinOne (s : State) (w : Work) : State :=
  match w with
  | .pin l ks =>
    let s := prefetchGo (ks.foldl (fun s k =>
      if (Tab.get? s.cis.pages k).isSome then s else (prefetchPage (k / 2 ^ 28) (k % 2 ^ 28) 4 0 s).1) s)
    let cut (k : Nat) : Bool := (s.allot (k / 2 ^ 28)).elim true (allotFenced s) &&
      (Tab.get? s.cis.pages k).elim true fun p => p.filling == 0 && p.want != 0
    if ks.any cut then s.workDone (fun x => x == .pin l ks) St.fenced []
    else if ks.all fun k => (Tab.get? s.cis.pages k).elim false fun p => p.filling == 0 && p.want == 0 then
      s.workDone (fun x => x == .pin l ks) St.ok []
    else s
  | _ => s

def pinProgress (s : State) : State := (s.kry.deferred.map (·.work)).foldl pinOne (prefetchPages s)

def bodyTierHint (r : KReq) (s : State) : Ans :=
  let p := par r
  let field := be p 0 2 % 1024
  let levee := (tenant r).getD field
  let hint := byteAt p 2
  let elem := byteAt p 3
  let pva := be p 8 8
  let len := be p 16 8
  let a := translate s (s.table 9).active levee pva len
  let beyond := a.elim false fun a => (s.allot a).elim false fun x =>
    (regionOf s a).elim false fun g => decide (g.2.size < pva + len - x.pva)
  checks s [(plen r != 24, St.badLength),
      (((tenant r).isNone && leveeBad s levee) || ((tenant r).isSome && field != 0) || hint == 0 || decide (5 < hint) ||
        decide ((if hint = 3 then 2 else 0) < elem) || pva % 65536 != 0 || len % 65536 != 0 || len == 0 ||
        decide (2 ^ 44 < len) || a.isNone || beyond, St.badParam),
      ((tenant r).isNone && s.retiring levee, St.busy)] fun _ =>
    match a with
    | none => refuse s St.badParam
    | some a =>
      match s.allot a with
      | none => refuse s St.badParam
      | some x =>
        if x.st != .active then refuse s St.extentRevoked
        else if x.place ≠ 1 then done s [zeros 8]
        else
          let pages := rangePages s a (pva - x.pva) len
          let new := (pages.filter fun g => !((s.page a g).elim false (·.pinned))).length
          if hint = 4 then
            if 512 * s.quota x.home levee < unevictable s x.home levee + 16 * new then refuse s St.exhausted
            else { defer (pages.foldl (hintPage 4 0 a) (s, 0)).1 (.pin levee (pages.map (pageKey a))) with after := pinProgress }
          else
            let (s, n) := pages.foldl (hintPage hint elem a) (s, 0)
            done (prefetchGo s) [toBe 4 n ++ zeros 4]

def execTierHint (t : Time) (r : KReq) (s : State) : Host.Outcome State Fault Refusal := command 0x0507 bodyTierHint t r s

/-! ### Quotas (R228) -/

/-- The excess evictable pages go, in the order of R226. -/
def quotaLowered (die levee fuel : Nat) (s : State) : State :=
  match fuel with
  | 0 => s
  | fuel + 1 =>
    if useTiles s die levee ≤ 512 * s.quota die levee + leavingTiles s die levee then s
    else match victim s die levee with
      | none => s
      | some (k, _) => quotaLowered die levee fuel (evictPage k s)

def execQuotaLowered (t : Time) (die levee : Nat) (s : State) : Host.Outcome State Fault Refusal :=
  .next (quotaLowered die levee s.cis.pages.length (s.tick t))

end Sys2Proof.Machine
end

