-- ==== Sys2Proof/Machine/Packets.lean ====
section
/-! DEFINITION. The headers of the vendor packets of the memory transport engines: pool requests and responses (06 Tables
MEM-4 and MEM-6), phases (Table MEM-13) and coherence messages (08 Table COH-3), read from the bytes and laid out. -/

namespace Sys2Proof

/-- A pool request: the 40 header bytes of Table MEM-4, then its payload. -/
def Packet.poolReq (p : Packet) : PoolReq where
  port := p.port
  die := p.die
  net := p.net
  cls := p.cls
  levee := p.levee
  ver := p.ver
  queue := be p.body 0 2
  seq := be p.body 2 6
  pva := be p.body 8 8
  length := be p.body 16 4
  op := byteAt p.body 20
  flags := byteAt p.body 21
  retQp := be p.body 24 3
  handle := be p.body 32 8
  data := p.body.drop 40

/-- The 24 bytes of Table MEM-6. -/
def respHeader (r : PoolReq) (tail : Bytes) (off : Nat) : Bytes :=
  toBe 2 r.queue ++ toBe 6 r.seq ++ slice tail 0 8 ++ toBe 4 off ++ zeros 4

/-- Where a response goes: the request's addresses exchanged, its VLAN tag kept, to RET_QP (06 R195). -/
def respNet (r : PoolReq) : Net := { r.net.mirror with dstQp := r.retQp }

/-- A phase message of the switch `src`: the 32 header bytes of Table MEM-13, then its data. -/
def Packet.phaseMsg (src : Nat) (p : Packet) : PhaseMsg where
  src := src
  home := byteAt p.body 0
  phase := byteAt p.body 1
  epoch := be p.body 2 2
  levee := be p.body 4 2 % 1024
  queue := be p.body 6 2
  seq := be p.body 8 6
  holds := byteAt p.body 14
  status := byteAt p.body 15
  arg := slice p.body 16 16
  data := p.body.drop 32

/-- The bytes of a phase message. -/
def PhaseMsg.bytes (m : PhaseMsg) : Bytes :=
  toBe 1 m.home ++ toBe 1 m.phase ++ toBe 2 m.epoch ++ toBe 2 m.levee ++ toBe 2 m.queue ++ toBe 6 m.seq ++ toBe 1 m.holds ++
    toBe 1 m.status ++ slice m.arg 0 16 ++ m.data

/-- A coherence message: the 32 header bytes of Table COH-3, then its payload; its TYPE is byte 0. -/
def Packet.cohMsg (p : Packet) : CohMsg where
  die := p.die
  levee := p.levee
  srcIp := p.net.srcIp
  srcQp := p.net.srcQp
  port := p.port
  cls := p.cls
  ver := p.ver
  flags := byteAt p.body 1
  domain := byteAt p.body 2
  status := byteAt p.body 3
  agent := be p.body 4 2
  agen := be p.body 6 2
  txn := be p.body 8 2
  snoopId := be p.body 10 2
  op := byteAt p.body 12
  offset := be p.body 14 2
  pva := be p.body 16 8
  value := be p.body 24 8
  data := p.body.drop 32

/-- The bytes of a coherence message of a TYPE. -/
def CohMsg.bytes (type : Nat) (m : CohMsg) : Bytes :=
  toBe 1 type ++ toBe 1 m.flags ++ toBe 1 m.domain ++ toBe 1 m.status ++ toBe 2 m.agent ++ toBe 2 m.agen ++ toBe 2 m.txn ++
    toBe 2 m.snoopId ++ toBe 1 m.op ++ zeros 1 ++ toBe 2 m.offset ++ toBe 8 m.pva ++ toBe 8 m.value ++ m.data

/-- The Q_Key of coherence messages (08 R251). -/
def cohQKey : Nat := 0x4B590003

/-- The Q_Key of completion records (10 R347). -/
def recordQKey : Nat := 0x4B590002

/-- Where a record goes: the post's addresses exchanged, to RET_QP (10 R347). -/
def recordNet (n : Net) (qp : Nat) : Net := { n.mirror with dstQp := qp }

/-- A collective message: the 48 header bytes of Tables COL-2, COL-4 and COL-5, then its body. -/
def Post.colMsg (p : Post) : ColMsg where
  queue := p.queue
  levee := p.levee
  srcIp := p.net.srcIp
  srcQp := p.net.srcQp
  len := p.payload.length
  group := be p.payload 0 2
  kind := byteAt p.payload 2
  mtype := byteAt p.payload 3
  opseq := be p.payload 4 4
  mem := be p.payload 8 2 % 512
  status := byteAt p.payload 10
  flags := byteAt p.payload 11
  bodyLen := be p.payload 12 2
  hdr := slice p.payload 16 32
  body := p.payload.drop 48

/-- The bytes of a collective message of the device. -/
def colBytes (group kind mtype opseq mem status flags : Nat) (hdr body : Bytes) : Bytes :=
  toBe 2 group ++ toBe 1 kind ++ toBe 1 mtype ++ toBe 4 opseq ++ toBe 2 mem ++ toBe 1 status ++ toBe 1 flags ++
    toBe 2 body.length ++ zeros 2 ++ slice hdr 0 32 ++ body

/-- The Q_Key of collective messages (11 R358). -/
def colQKey : Nat := 0x4B590004

end Sys2Proof
end

