-- ==== Sys2Proof/Machine/Live.lean ====
section
/-! DEFINITION. Requests the memory transport engines are serving: the bytes they touch, what they wait for, what they do
when it is there, and their responses (06 R188, R194–R202, R208, 07 R216–R218, R230, R236–R238). Stages of a request: 0
gathering what it reads; 1 what it writes is being made ready; 2 its tray writes are outstanding; 3 the replica's tray
writes are outstanding; 4 a staging block is being copied; 5 its granules are with the directory; 6 a copy is gathered and
its destination goes to the directory; 7 the granules a copy reads are with the directory; 8 it waits for the requests before it on its RDMA queue pair; 9 a
publication of its handle holds it; 10 and 11 it waits for fills, an expansion, another's change of a tile or a copy, after
which what it reads (10) or writes (11) is planned anew; 12 it waits for the copy of a staging block it is to write, after
which its write begins anew; 13 what a copy reads is planned anew once it may be. -/

namespace Sys2Proof.Machine

def State.liveReq (s : State) (id : Nat) : Option Live := Tab.get? s.mem.live id

def State.setLive (s : State) (id : Nat) (l : Live) : State := { s with mem := { s.mem with live := Tab.set s.mem.live id l } }

/-- The host of a request (06 R179). -/
def reqHost (r : PoolReq) : Ip := r.net.srcIp

/-! ### Tailwater and responses (06 R195–R200, R208) -/

/-- SOURCE of a response: kind 0 pseudo-channel, 1 tray, 2 none. -/
structure Source where
  kind : Nat
  idx : Nat
deriving DecidableEq, Repr

def noSource : Source := ⟨2, 0⟩

/-- WINDOW for a LOAD and the host's OUT (R200). -/
def window (out load : Nat) : Nat := if load ≤ 192 then out else max 1 (out * (255 - load) / 63)

/-- The 8 tailwater bytes (Tables MEM-8 and MEM-9). -/
def tailwater (s : State) (r : PoolReq) (status : Nat) (held siphon hit : Bool) (src : Source) : Bytes :=
  let out := (rightOf s r.die r.levee (reqHost r)).out
  let load := if src.kind = 2 then 0 else if src.kind = 1 then trayLoad s src.idx else Config.load src.idx s.now % 256
  toBe 1 (64 + 32 * ofBool siphon + 16 * ofBool hit + 8 * ofBool held) ++ toBe 1 status ++ toBe 1 load ++ zeros 1 ++
    toBe 2 (window out load) ++ toBe 2 (src.kind * 8192 + src.idx)

/-- Responses to a fenced requester are discarded, and a halted device sends none (14 R458, R465). -/
def State.mute (s : State) (ip : Ip) : Bool := s.halted || s.addrFenced ip

/-- Opcode of a vendor response (Table MEM-3). -/
def respOp (k : ReqKind) : Nat :=
  match k with
  | .read => 0xD0
  | .atomic => 0xD2
  | _ => 0xD1

/-- NAK syndrome of a standard response: 1 remote access error, 2 remote operational error, 3 RNR, 4 invalid request, 5
PSN sequence error (R208). -/
def nakOf (status : Nat) : Nat :=
  if status = St.busy then 3 else if status = St.badParam ∨ status = St.extentRevoked then 1 else 2

/-- Timer of an RNR NAK in ns (R208). -/
def nakTimer (nak : Nat) : Nat := if nak = 3 then 10240 else 0

/-- A NAKed QP enters the error state (R208). DEDUCED (assumption 96): a PSN sequence error, which IBTA has a responder
acknowledge and which no request of the table fails by, leaves it serving. -/
def nakQp (r : RdmaReq) (nak : Nat) (s : State) : State :=
  if nak = 5 then s
  else { s with mem := { s.mem with qpcs := s.mem.qpcs.map fun e =>
      if e.1 / 4096 = r.die ∧ e.2.valid ∧ e.2.qpn.toNat = r.qpn then (e.1, { e.2 with err := true }) else e } }

/-- One response of a request. -/
def reply (r : PoolReq) (k : ReqKind) (rd : Option RdmaReq) (status : Nat) (held siphon hit : Bool) (src : Source) (off : Nat)
    (data : Bytes) (s : State) : State :=
  match rd with
  | some q =>
    let s := if status = St.ok then s else nakQp q (nakOf status) s
    let nak := if status = St.ok then 0 else nakOf status
    if s.mute (reqHost r) then s else s.emit (.rdmaReply q (status == St.ok) nak (nakTimer nak) data)
  | none =>
    if s.mute (reqHost r) then s
    else s.emit (.poolReply r.die r.port r.cls (respNet r) (respOp k)
      (respHeader r (tailwater s r status held siphon hit src) off ++ data))

/-- FENCED_COMPLETIONS (14 Table FLT-14). -/
def fencedCount (levee die : Nat) (s : State) : State := s.count (gk 0x0B 3 0 levee die) 1

/-- A request that ends before it was accepted: every response it has carries the status (R194, R196). DESIGN CHOICE
(assumption 96): a P_READ of LENGTH 0, which has no piece, is answered by one at OFFSET 0. -/
def rejectReq (r : PoolReq) (k : ReqKind) (rd : Option RdmaReq) (status : Nat) (held : Bool) (s : State) : State :=
  let s := if status = St.extentRevoked then s.count (gk 3 1 2 r.levee r.die) 1 else s
  let s := if status = St.fenced then fencedCount r.levee r.die s else s
  let one (off : Nat) (d : Bytes) (s : State) : State := reply r k rd status held false false noSource off d s
  match k with
  | .read => (List.range (max 1 (ceilDiv r.length 4096))).foldl (fun s i => one (4096 * i) [] s) s
  | .atomic => one 0 (zeros 8) s
  | _ => one 0 [] s

/-! ### Windows of versioned regions (07 R236, R237) -/

/-- Fields of a handle. -/
def hGen (h : Nat) : Nat := h / 2 ^ 48
def hRegion (h : Nat) : Nat := h / 2 ^ 16 % 2 ^ 13
def hKey (h : Nat) : Nat := hRegion h / 4096 * 65536 + h % 65536

/-- The handle a request or command names; none where R236 makes it BAD_PARAM. A request already translated goes on under
a handle closed since (R239). -/
def findHandle (s : State) (h levee : Nat) (closed : Bool := false) : Option (Nat × Handle) :=
  match Tab.get? s.cis.handles (hKey h) with
  | some x =>
    if (x.isOpen || closed) && x.gen == hGen h && x.region == hRegion h && x.levee == levee && h / 2 ^ 29 % 2 ^ 19 == 0 then some (hKey h, x)
    else none
  | none => none

/-- How a range of an allotment is reached: not at all, plainly, or through a map. -/
inductive Reach where
  | bad
  | plain
  | mapped (m : BlockMap)
deriving DecidableEq, Repr

/-- Table CIS-6 for a range at offset `off` of an allotment, with a handle or none. -/
def reach (s : State) (a off len levee : Nat) (h : Option Nat) (write : Bool) (closed : Bool := false) :
    Reach :=
  match regionOf s a, h with
  | none, none => .plain
  | none, some _ => .bad
  | some (_, g), none => if write || decide (g.size < off + len) then .bad else .mapped (Tab.getD g.vers g.cur [])
  | some (id, g), some h =>
    match findHandle s h levee closed with
    | some (_, x) =>
      if x.region != id || decide (g.size < off + len) || (write && !x.stage) then .bad else .mapped x.map
    | none => .bad

/-- An offset through a map. -/
def mapOff (m : Reach) (off : Nat) : Nat :=
  match m with
  | .mapped bm => bm.getD (off / 65536) 0 * 65536 + off % 65536
  | _ => off

/-- The parts of a range: cut at tiles, and where it is answered in pieces at those, multiples of 4,096 bytes of the request
(R196). -/
def cutRange (pieces : Bool) (m : Reach) (off len pos fuel : Nat) : List Seg :=
  match fuel with
  | 0 => []
  | fuel + 1 =>
    if len ≤ pos then []
    else
      let o := mapOff m (off + pos)
      let n := min (if pieces then min (4096 - o % 4096) (4096 - pos % 4096) else 4096 - o % 4096) (len - pos)
      { off := pos, tile := o / 4096, start := o % 4096, len := n, sip := false } :: cutRange pieces m off len (pos + n) fuel

def segsOf (pieces : Bool) (m : Reach) (off len : Nat) : List Seg := cutRange pieces m off len 0 (2 * (len / 4096) + 3)

/-- Only a P_READ is answered in pieces. -/
def ReqKind.pieces (k : ReqKind) : Bool := k == .read

/-! ### Making tiles ready (07 R216–R218, R230, Table CIS-1) -/

def opToken (id : Nat) : Nat := 2 ^ 80 + id
def expandToken (a page : Nat) : Nat := 2 ^ 81 + pageKey a page
def lockToken (a tile : Nat) : Nat := 2 ^ 83 + tileKey a tile
def cowToken (slot block : Nat) : Nat := 2 ^ 84 + slot * 2 ^ 32 + block
/-- Where a request keeps a whole tile it gathered. -/
def tilePart (tile : Nat) : Nat := 2 ^ 60 + tile

/-- Issue a tray read for a request: a part of a tile, or the whole image of a confidential levee's tile. -/
def readFromTray (id a : Nat) (key tile start len : Nat) (again : Bool) (s : State) : State × Option Nat :=
  match s.allot a with
  | none => (s, none)
  | some x =>
    match readTray s x with
    | none => (s, none)
    | some (t, off) =>
      let conf := s.confidential x.levee
      let (s, op) := issueOp
        { tray := t, use := .request id key, kind := .read, addr := off + 4096 * tile + (if conf then 0 else start),
          len := if conf then 4128 else len, data := [], at_ := s.now, again := again } s
      (s, some (opToken op))

/-- How one tile stands for a request: ready, to be waited for, or out of the cistern. -/
inductive TileWay where
  | ready
  | wait (token : Nat)
  | tray
deriving DecidableEq, Repr

/-- Who changes a tile of a confidential levee on its tray: a request, or the transaction of a line (R197). -/
def liveOwner (id : Nat) : Nat := 2 * id
def lineOwner (key : Nat) : Nat := 2 * key + 1

/-- Another than `own` is between reading a tile's image from its tray and writing it back sealed anew. -/
def tileLocked (s : State) (own a tile : Nat) : Bool := (Tab.get? s.mem.locks (tileKey a tile)).elim false (· != own)

def lockTile (own a tile : Nat) (s : State) : State :=
  { s with mem := { s.mem with locks := Tab.set s.mem.locks (tileKey a tile) own } }

/-- Expand a compressed page that is to be written (R223); answers whether it stands uncompressed now. -/
def openPage (a page : Nat) (s : State) : State × Bool :=
  match s.page a page with
  | some p =>
    if p.k.isSome then
      match expandPage a page s with
      | (s, true) => (s, true)
      | (s, false) => (s.modPage a page fun p => { p with expanding := true }, false)
    else (s, true)
  | none => (s, true)

/-- Make a tile ready for `own`. `need`: its old bytes are needed (a read, or a write of part of it); `write`: it will be
written. -/
def tileWay (own a tile : Nat) (need write : Bool) (s : State) : State × TileWay :=
  match s.allot a with
  | none => (s, .tray)
  | some x =>
    let page := tile / 16
    if x.place = 0 then (s, .ready)
    else if tileLocked s own a tile then (s, .wait (lockToken a tile))
    else if x.place = 2 then (s, .tray)
    else
      let s := touchPage a page s
      if (s.page a page).elim false fun p => p.k.isSome && p.expanding then (s, .wait (expandToken a page))
      else
        match if write then openPage a page s else (s, true) with
        | (s, false) => (s, .wait (expandToken a page))
        | (s, true) =>
          if tileFilling s a tile then (s, .wait (tileKey a tile))
          else if tileValid s a tile then (s, .ready)
          else if need && (readTray s x).isNone then (s, .tray)
          else
            match obtainPage a page s with
            | (s, false) => (s, .tray)
            | (s, true) =>
              if !need then (s, .ready)
              else if fillsOut s x.home < 4096 then (startFill a tile false s, .wait (tileKey a tile))
              else (s.count (gk 4 3 1 x.home) 1, .tray)

/-- Plan one part of a request on allotment `a`. -/
def planSeg (id a : Nat) (write : Bool) (st : State × Live) (g : Seg) : State × Live :=
  let (s, l) := st
  let whole := g.start == 0 && g.len == 4096
  let valid := tileValid s a g.tile
  let (s, w) := tileWay (liveOwner id) a g.tile (!write || !whole) write s
  let s := match s.allot a with
    | some x => if x.place = 1 then cisCount s 0 (if valid then 0 else 1) x 1 else s
    | none => s
  let miss := if valid || w == .ready then l.missed else l.missed ++ [g.tile]
  match w with
  | .ready => (s, { l with segs := l.segs ++ [g], missed := miss })
  | .wait t => (s, { l with segs := l.segs ++ [g], missed := miss, waits := if l.waits.contains t then l.waits else l.waits ++ [t] })
  | .tray =>
    let l := { l with segs := l.segs ++ [{ g with sip := true }], missed := miss, siphoned := true }
    let conf := (s.allot a).elim false fun x => s.confidential x.levee
    if !write || (conf && !whole) then
      let s := if write then lockTile (liveOwner id) a g.tile s else s
      match readFromTray id a (if write then tilePart g.tile else g.off) g.tile g.start g.len false s with
      | (s, some t) => (s, { l with waits := l.waits ++ [t] })
      | (s, none) => (s, { l with stat := Tab.set l.stat g.off St.fenced, never := l.never ++ [g.off] })
    else (s, l)

/-- What a part must wait for before its request can be planned: another's change of the tile on its tray, or the expansion
of its page (R197, R223). -/
def planHold (own a : Nat) (write : Bool) (st : State × List Nat) (g : Seg) : State × List Nat :=
  let (s, ts) := st
  let page := g.tile / 16
  if (s.allot a).elim true (·.place == 0) then (s, ts)
  else if tileLocked s own a g.tile then (s, ts ++ [lockToken a g.tile])
  else if (s.page a page).elim false fun p => p.k.isSome && p.expanding then (s, ts ++ [expandToken a page])
  else
    match if write then openPage a page s else (s, true) with
    | (s, true) => (s, ts)
    | (s, false) => (s, ts ++ [expandToken a page])

/-- The stage of a request that is to be planned anew. -/
def anewStage (l : Live) (write : Bool) : Nat := if write then 11 else if l.kind = .copy then 13 else 10

/-- Plan a request's parts; from now on their pages are in use (R226). A request that finds a tile in fill waits for it and
is not siphoned: where a part of it would be, it waits for those fills and is planned anew (R230). -/
def planSegs (id a : Nat) (write : Bool) (gs : List Seg) (l : Live) (s : State) : State × Live :=
  let s := s.setLive id { l with segs := gs }
  let (s, ts) := gs.foldl (planHold (liveOwner id) a write) (s, [])
  if !ts.isEmpty then (s, { l with segs := gs, waits := ts.eraseDups, stage := anewStage l write })
  else
    let busy := (gs.filter fun g => tileFilling s a g.tile).map fun g => tileKey a g.tile
    let r := gs.foldl (planSeg id a write) (s, { l with segs := [] })
    if !busy.isEmpty && r.2.segs.any (·.sip) then
      (s, { l with segs := gs, waits := busy.eraseDups, stage := anewStage l write })
    else r

/-! ### Bytes and statuses -/

/-- The status of one part. -/
def segStat (s : State) (a : Nat) (l : Live) (g : Seg) : Nat :=
  match Tab.get? l.stat g.off with
  | some st => st
  | none => if s.isPoisoned a g.tile then St.internal else St.ok

/-- The bytes of one part. -/
def segBytes (s : State) (a : Nat) (l : Live) (g : Seg) : Bytes :=
  if g.sip then slice (Tab.getD l.parts g.off []) 0 g.len else readPool s a (4096 * g.tile + g.start) g.len

/-- The status at the lowest failing offset of `[lo, hi)`. -/
def firstBad (s : State) (a : Nat) (l : Live) (lo hi : Nat) : Nat :=
  match l.stat.find? fun e => decide (lo ≤ e.1) && decide (e.1 < hi) with
  | some e =>
    let before := l.segs.filter fun g => decide (lo ≤ g.off) && decide (g.off < e.1)
    ((before.map (segStat s a l)).find? (· != St.ok)).getD e.2
  | none =>
    let gs := l.segs.filter fun g => decide (lo ≤ g.off) && decide (g.off < hi)
    ((gs.map (segStat s a l)).find? (· != St.ok)).getD St.ok

/-- SOURCE of a response that touched these parts: the tray where one missed, else the lower tile's channel (R217). -/
def sourceOf (s : State) (a : Nat) (l : Live) (gs : List Seg) : Source × Bool :=
  match s.allot a, gs with
  | some x, g :: _ =>
    if gs.any fun g => (g.sip && l.stage != 5) || l.missed.contains g.tile then
      (⟨1, (readTray s x).elim x.tray (·.1)⟩, false)
    else (⟨0, chanOf s a (gs.foldl (fun m g => min m g.tile) g.tile)⟩, true)
  | _, _ => (noSource, false)

/-- What a response reports as its source, and HIT: nothing where it failed before any access (Table MEM-9). -/
def pieceSource (s : State) (a : Nat) (l : Live) (st : Nat) (gs : List Seg) : Source × Bool :=
  if st = St.busy ∨ st = St.exhausted ∨ st = St.badParam ∨ (st ≠ St.ok ∧ gs.all fun g => l.never.contains g.off) then
    (noSource, false)
  else sourceOf s a l gs

/-- A message to another switch in answer to its own: its header, with what this device has to say (R212). -/
def phaseAnswer (op : Nat) (m : PhaseMsg) (holds status : Nat) (s : State) : State :=
  if s.halted || s.switchFenced m.src then s
  else s.emit (.phase op m.src { m with holds := holds, status := status, data := [] }.bytes)

/-- What this device has done for a request of another home (R213). -/
def findPhased (s : State) (m : PhaseMsg) : Option Phased :=
  s.mem.phased.find? fun p => p.home == m.home && p.levee == m.levee && p.queue == m.queue && p.seq == m.seq

def putPhased (p : Phased) (s : State) : State :=
  { s with mem := { s.mem with
      phased := s.mem.phased.filter (fun x => !(x.home == p.home && x.levee == p.levee && x.queue == p.queue && x.seq == p.seq)) ++ [p] } }

/-- A phase has been applied with an outcome: it is acknowledged. -/
def phaseDone (m : PhaseMsg) (st : Nat) (s : State) : State :=
  let s := match findPhased s m with
    | some p => putPhased { p with applied := Tab.set p.applied m.phase (some st) } s
    | none => s
  phaseAnswer 0xD9 m 0 st s

/-! ### The end of a request -/

/-- Remember the outcome of a vendor request in its queue context (R202). -/
def ctxDone (l : Live) (status : Nat) (s : State) : State :=
  if l.rdma.isSome ∨ l.coh.isSome ∨ l.flume.isSome ∨ l.phase.isSome then s
  else { s with mem := { s.mem with ctxs := s.mem.ctxs.map fun c =>
      if c.die = l.home ∧ c.levee = l.req.levee ∧ c.host = (reqHost l.req) ∧ c.queue = l.req.queue then
        { c with live := c.live.filter (· != l.req.seq), done := Tab.set c.done l.req.seq ⟨status, l.prior⟩, last := s.now }
      else c } }

/-- The last 16 atomics of a responder context (R208). -/
def rdmaAtomicDone (q : RdmaReq) (prior : Nat) (s : State) : State :=
  { s with mem := { s.mem with qpcs := s.mem.qpcs.map fun e =>
      if e.1 / 4096 = q.die ∧ e.2.valid ∧ e.2.qpn.toNat = q.qpn then
        (e.1, { e.2 with atomics := ((q.psn, prior) :: e.2.atomics).take 16 })
      else e } }

/-- A request under way names the handle in slot `k`. -/
def handleNamed (s : State) (k : Nat) : Bool :=
  let mine (l : Live) : Bool := bitOf l.req.flags 0 && hKey l.req.handle == k
  s.mem.live.any (fun e => mine e.2) || s.mem.hosts.any (fun h => h.hold.any mine) ||
    s.cis.pub.elim false fun p => p.handle == k

/-- Versions of a region that are retained: the current one and those a READ handle holds (07 R234). -/
def retained (hs : Tab Handle) (id : Nat) (g : Region) : Region :=
  { g with vers := g.vers.filter fun v =>
      v.1 == g.cur || hs.any fun e => e.2.region == id && !e.2.stage && e.2.version == v.1 }

/-- A closed handle goes once no request names it, and with it the version only it held (07 R239). -/
def pruneHandles (s : State) : State :=
  let hs := s.cis.handles.filter fun e => e.2.isOpen || handleNamed s e.1
  { s with cis := { s.cis with handles := hs, regions := Tab.mapVals s.cis.regions (retained hs) } }

/-- A host's in-flight count once its request has ended. -/
def hostLess (r : PoolReq) (h : HostState) : HostState :=
  if h.die = r.die ∧ h.levee = r.levee ∧ h.host = reqHost r then { h with inflight := h.inflight - 1 } else h

/-- A request leaves: in-flight counts of allotments, host and table version, its journal entry. -/
def endLive (id : Nat) (s : State) : State :=
  match s.liveReq id with
  | none => s
  | some l =>
    let dec (a : Allot) : Allot := { a with inflight := a.inflight - 1 }
    let s := s.modAllot l.allot dec
    let s := match l.src with
      | some b => if b = l.allot then s else s.modAllot b dec
      | none => s
    let s := { s with mem := { s.mem with
      locks := s.mem.locks.filter fun e => e.2 != liveOwner id,
      live := Tab.del s.mem.live id,
      journal := (match l.journal with
        | some j => Tab.del s.mem.journal j
        | none => s.mem.journal),
      hosts := s.mem.hosts.map (hostLess l.req) } }
    pruneHandles (s.inflightSub 9 l.req.ver)

/-- Responses of a finished request, with status `st` where one status covers it (R195–R199). -/
def respond (l : Live) (st : Nat) (s : State) : State :=
  let r := l.req
  let a := l.allot
  let sip := l.siphoned && (s.allot a).elim false fun x => x.place == 1
  let s := if st = St.extentRevoked then s.count (gk 3 1 2 r.levee l.home) 1 else s
  match l.kind with
  | .read | .rdmaRead =>
    match l.rdma with
    | some _ =>
      let fin := if st = St.ok then firstBad s a l 0 (2 ^ 59) else st
      let data := if fin = St.ok then (l.segs.map (segBytes s a l)).flatten else []
      let s := s.count (gk 3 0 0 r.levee l.home) data.length
      let s := if (pieceSource s a l fin l.segs).2 then s.count (gk 3 0 3 r.levee l.home) 1 else s
      reply r l.kind l.rdma fin l.held sip false noSource 0 data s
    | none =>
      (List.range (ceilDiv r.length 4096)).foldl (fun s i =>
        let lo := 4096 * i
        let gs := l.segs.filter fun g => decide (lo ≤ g.off) && decide (g.off < lo + 4096)
        let pst := if st = St.ok then firstBad s a l lo (lo + 4096) else st
        let data := if pst = St.ok then (gs.map (segBytes s a l)).flatten else []
        let (src, hit) := pieceSource s a l pst gs
        let s := s.count (gk 3 0 0 r.levee l.home) data.length
        let s := if hit then s.count (gk 3 0 3 r.levee l.home) 1 else s
        reply r l.kind none pst l.held (sip && gs.any (·.sip)) hit src lo data s) s
  | k =>
    let fin := if st = St.ok then firstBad s a l 0 (2 ^ 59) else st
    let (src, hit) := pieceSource s a l fin l.segs
    let isAtomic := k == .atomic || k == .rdmaAtomic
    let s := if fin = St.ok then (if isAtomic then s.count (gk 3 0 2 r.levee l.home) 1
      else s.count (gk 3 0 1 r.levee l.home) r.length) else s
    let s := if hit then s.count (gk 3 0 3 r.levee l.home) 1 else s
    let s := match l.rdma with
      | some q => if isAtomic && fin == St.ok then rdmaAtomicDone q l.prior s else s
      | none => s
    reply r k l.rdma fin l.held sip hit src 0 (if isAtomic then toBe 8 (if fin = St.ok then l.prior else 0) else []) s

/-- A key of a chain's accesses that stands for a write: 2^40 + descriptor × 2^20 + number. -/
def writeKey (k : Nat) : Bool := decide (2 ^ 40 ≤ k) && decide (k < 2 ^ 60)
def keyDesc (k : Nat) : Nat := k % 2 ^ 40 / 2 ^ 20

/-- A chain learns that a write of its descriptor `d` has been applied or has failed. -/
def Chain.written (c : Chain) (st d : Nat) : Chain :=
  let bad := if st = St.ok then c.failed else some (c.failed.getD (st, d))
  { c with applied := c.applied + 1, failed := bad }

/-- An access of a chain has ended: a read's bytes are kept for its descriptor; a write is applied, its acknowledgement
to come, or its failure decides the chain (10 R326, R342, R351). -/
def flumeEnd (l : Live) (st : Nat) (s : State) : State :=
  match l.flume with
  | none => s
  | some (ch, key) =>
    let data := if l.kind = .read ∧ st = St.ok then (l.segs.map (segBytes s l.allot l)).flatten else []
    let note (c : Chain) : Chain :=
      if writeKey key then c.written st (keyDesc key) else { c with fetched := Tab.set c.fetched key (st, data) }
    { s with flm := { s.flm with chains := Tab.upd s.flm.chains ch note } }

/-- Finish a request: `st` other than OK ends it with that status throughout. -/
def finishLive (id st : Nat) (s : State) : State :=
  match s.liveReq id with
  | none => s
  | some l =>
    let fin := if st = St.ok then firstBad s l.allot l 0 (2 ^ 59) else st
    let s := match s.allot l.allot with
      | some x => if l.siphoned && x.place == 1 then cisCount s 1 3 x 1 else s
      | none => s
    let s := if fin = St.fenced then fencedCount l.req.levee l.home s else s
    match l.phase with
    | some m => endLive id (phaseDone m fin s)
    | none =>
    if l.flume.isSome then endLive id (flumeEnd l fin s) else endLive id (ctxDone l fin (respond l st s))

/-! ### Atomics (06 R194, R197, 08 R266) -/

/-- The new 8-byte value: 0 compare-and-swap, 1 fetch-and-add, 2 swap. -/
def atomicNew (op old a b : Nat) : Nat :=
  if op = 0 then (if old = a then b else old) else if op = 1 then (old + a) % 2 ^ 64 else a

/-- Operands of an atomic request, big-endian in the message. -/
def atomicArgs (r : PoolReq) : Nat × Nat := (be r.data 0 8, be r.data 8 8)

/-! ### Applying writes -/

/-- The bytes a request writes at an offset. -/
def writeBytes (l : Live) (g : Seg) : Bytes :=
  slice (if l.kind = .copy then Tab.getD l.parts 0 [] else l.req.data) g.off g.len

/-- The image a siphoned write sends: the bytes, or the whole tile of a confidential levee sealed anew (13 R433). -/
def trayImage (s : State) (a : Nat) (l : Live) (g : Seg) (bs : Bytes) : State × Bytes × Nat :=
  match s.allot a with
  | none => (s, bs, g.start)
  | some x =>
    if s.confidential x.levee then
      let old := Tab.getD l.parts (tilePart g.tile) (zeros 4096)
      let pt := slice (splice old g.start bs) 0 4096
      let (s, iv) := nextIv x.levee x.home 4 s
      let c := Config.gcmSeal (memKey s x.levee) iv (tileAad x g.tile) pt
      (s, c.1 ++ iv ++ c.2 ++ zeros 4, 0)
    else (s, bs, g.start)

/-- Issue the tray write of one part, to the primary or the replica. -/
def writeToTray (id a : Nat) (l : Live) (g : Seg) (bs : Bytes) (replica : Bool) (s : State) : State × Option Nat :=
  match s.allot a with
  | none => (s, none)
  | some x =>
    let (t, off) := if replica then (x.replica, x.repOff) else (x.tray, x.trayOff)
    if s.trayDown t then (s, none)
    else
      let (s, d, st) := trayImage s a l g bs
      let (s, op) := issueOp { tray := t, use := .request id g.off, kind := .write, addr := off + 4096 * g.tile + st,
                               len := d.length, data := d, at_ := s.now } s
      (s, some (opToken op))

/-- Write one part: into the cistern, or to the tray. -/
def applySeg (id : Nat) (st : State × Live) (g : Seg) : State × Live :=
  let (s, l) := st
  let bs := writeBytes l g
  if segStat s l.allot l g ≠ St.ok && !(g.start = 0 && g.len = 4096) then
    (s, { l with stat := Tab.set l.stat g.off (segStat s l.allot l g) })
  else if !g.sip then (putTile l.allot g.tile g.start bs 4 s, l)
  else
    let s := if g.start = 0 ∧ g.len = 4096 then
        { s with cis := { s.cis with poisoned := s.cis.poisoned.filter (· != tileKey l.allot g.tile) } } else s
    let rep := (s.allot l.allot).elim false fun x => s.trayDown x.tray && x.replicated
    match writeToTray id l.allot l g bs rep s with
    | (s, some t) => (s, { l with waits := l.waits ++ [t] })
    | (s, none) => (s, { l with stat := Tab.set l.stat g.off St.fenced })

/-- The replica of a REPLICATED allotment is still to be written after the primary (06 R211). -/
def needsReplica (s : State) (l : Live) : Bool :=
  l.segs.any (·.sip) && (s.allot l.allot).elim false fun x => x.replicated && !s.trayDown x.replica && !s.trayDown x.tray

/-- Move the journal entry of a request to its next phase: owner, epoch, deadline (R213). -/
def nextPhase (l : Live) (phase owner : Nat) (s : State) : State :=
  match l.journal with
  | none => s
  | some j => { s with mem := { s.mem with journal := Tab.upd s.mem.journal j fun x =>
      { x with phase := phase, owner := owner, epoch := (x.epoch + 1) % 65536, deadline := s.now + phaseTicks s } } }

/-- Second phase: the replica's writes. -/
def replicaPhase (id : Nat) (l : Live) (s : State) : State :=
  let s := nextPhase l 1 ((s.allot l.allot).elim 0 (·.replica)) s
  let (s, l) := l.segs.foldl (fun (st : State × Live) g =>
    let (s, l) := st
    if g.sip && (Tab.get? l.stat g.off).isNone then
      let bs := if l.kind = .atomic ∨ l.kind = .rdmaAtomic then
          toLe 8 (atomicNew l.req.op l.prior (atomicArgs l.req).1 (atomicArgs l.req).2) else writeBytes l g
      match writeToTray id l.allot l g bs true s with
      | (s, some t) => (s, { l with waits := l.waits ++ [t] })
      | (s, none) => (s, l)
    else (s, l)) (s, { l with stage := 3 })
  let s := s.setLive id l
  if l.waits.isEmpty then finishLive id St.ok s else s

/-- The atomic of a request whose bytes lie in the cistern (R197). -/
def atomicHere (id : Nat) (l : Live) (g : Seg) (s : State) : State :=
  let old := le (readPool s l.allot (4096 * g.tile + g.start) 8) 0 8
  let (a, b) := atomicArgs l.req
  let new := atomicNew l.req.op old a b
  let s := s.setLive id { l with prior := old }
  if segStat s l.allot l g ≠ St.ok then finishLive id (segStat s l.allot l g) s
  else finishLive id St.ok (putTile l.allot g.tile g.start (toLe 8 new) 4 s)

/-- Issue the tray operation of an atomic: compare-and-swap or fetch-and-add, or for a swap a read first. -/
def atomicOp (id : Nat) (l : Live) (g : Seg) (kind : TrayKind) (data : Bytes) (s : State) : State :=
  match (s.allot l.allot).bind (readTray s) with
  | none => finishLive id St.fenced (s.setLive id l)
  | some (t, off) =>
    let (s, op) := issueOp { tray := t, use := .request id g.off, kind := kind, addr := off + 4096 * g.tile + g.start, len := 8,
                             data := data, at_ := s.now } s
    s.setLive id { l with waits := [opToken op], stage := 2 }

/-- The atomic of a request that goes to the tray. -/
def atomicTray (id : Nat) (l : Live) (g : Seg) (s : State) : State :=
  let (a, b) := atomicArgs l.req
  let conf := (s.allot l.allot).elim false fun x => s.confidential x.levee
  if conf then
    let old := le (slice (Tab.getD l.parts (tilePart g.tile) []) g.start 8) 0 8
    let l := { l with prior := old, stage := 2 }
    match writeToTray id l.allot l g (toLe 8 (atomicNew l.req.op old a b)) false s with
    | (s, some t) => s.setLive id { l with waits := [t] }
    | (s, none) => finishLive id St.fenced (s.setLive id l)
  else if l.req.op = 0 then atomicOp id l g .cas (toLe 8 a ++ toLe 8 b) s
  else if l.req.op = 1 then atomicOp id l g .faa (toLe 8 a) s
  else atomicOp id l g .read [] s

/-- The parts that the request writes are ready: apply them, or send them to the tray. -/
def applyLive (id : Nat) (s : State) : State :=
  match s.liveReq id with
  | none => s
  | some l =>
    if l.kind = .atomic ∨ l.kind = .rdmaAtomic then
      match l.segs with
      | g :: _ => if (Tab.get? l.stat g.off).isSome then finishLive id St.ok s
                  else if g.sip then atomicTray id l g s else atomicHere id l g s
      | [] => finishLive id St.ok s
    else
      let (s, l) := l.segs.foldl (applySeg id) (s, { l with stage := 2 })
      let s := s.setLive id l
      if l.waits.isEmpty then finishLive id St.ok s else s

/-! ### Staging copies (07 R238) -/

/-- A pool block that another version or staging map refers to. -/
def blockShared (s : State) (g : Region) (region hk pb : Nat) : Bool :=
  g.vers.any (fun e => e.2.contains pb) ||
  s.cis.handles.any fun e => e.1 != hk && e.2.stage && e.2.region == region && e.2.map.contains pb

/-- A pool block that nothing refers to and no copy goes to, the lowest. -/
def freeBlock (s : State) (g : Region) (region blocks : Nat) : Option Nat :=
  let used (pb : Nat) : Bool := g.vers.any (fun e => e.2.contains pb) ||
    s.cis.handles.any (fun e => e.2.stage && e.2.region == region && e.2.map.contains pb) ||
    s.mem.live.any fun e => e.2.allot == g.allot && e.2.cow.elim false fun c => c.to_ == pb
  (List.range blocks).find? fun pb => !used pb

/-- A block of a staging map, among the window blocks `lo` to `hi`, that another request is copying. -/
def cowBusy (s : State) (id slot lo hi : Nat) : Option Nat :=
  (s.mem.live.find? fun e => e.1 != id && e.2.cow.elim false fun c =>
    c.slot == slot && decide (lo ≤ c.block) && decide (c.block ≤ hi)).bind fun e => e.2.cow.map (·.block)

/-- Gather one tile of a block that is copied: its bytes are kept once they are there. -/
def gatherTile (id a tile : Nat) (st : State × Live) : State × Live :=
  let (s, l) := st
  if (Tab.get? l.parts (tilePart tile)).isSome then st
  else if s.isPoisoned a tile then (s, { l with stat := Tab.set l.stat 0 St.internal })
  else
    match tileWay (liveOwner id) a tile true false s with
    | (s, .ready) => (s, { l with parts := Tab.set l.parts (tilePart tile) (readPool s a (4096 * tile) 4096) })
    | (s, .wait t) => (s, { l with waits := if l.waits.contains t then l.waits else l.waits ++ [t] })
    | (s, .tray) =>
      match readFromTray id a (tilePart tile) tile 0 4096 false s with
      | (s, some t) => (s, { l with waits := l.waits ++ [t] })
      | (s, none) => (s, { l with stat := Tab.set l.stat 0 St.fenced })

/-- Send a whole tile of a copy to the allotment's tray, or to its replica. -/
def copyToTray (id a tile : Nat) (d : Bytes) (replica : Bool) (st : State × Live) : State × Live :=
  let (s, l) := st
  match writeToTray id a l { off := 2 ^ 59, tile := tile, start := 0, len := 4096, sip := true } d replica s with
  | (s, some t) => (s, { l with waits := l.waits ++ [t] })
  | (s, none) => (s, { l with stat := Tab.set l.stat 0 St.fenced })

/-- Write tile `i` of a copy: into the cistern, or to the tray. What must wait stays to be written. -/
def copyTile (id a i : Nat) (d : Bytes) (st : (State × Live) × Cow) : (State × Live) × Cow :=
  let ((s, l), c) := st
  let tile := 16 * c.to_ + i
  let off : Cow := { c with left := c.left.filter (· != i) }
  match tileWay (liveOwner id) a tile false true s with
  | (s, .ready) => ((putTile a tile 0 d 4 s, l), off)
  | (s, .wait t) => ((s, { l with waits := if l.waits.contains t then l.waits else l.waits ++ [t] }), c)
  | (s, .tray) =>
    let up := (s.allot a).elim false fun x => !s.trayDown x.tray
    let two := (s.allot a).elim false fun x => x.replicated && !s.trayDown x.replica
    (copyToTray id a tile d (!up && two) (s, l), if up && two then { off with rep := c.rep ++ [i] } else off)

/-- Where the copy of one block stands. -/
inductive CowStep where
  | none_                        -- nothing to copy
  | full                         -- no free pool block
  | hold (block : Nat)           -- another request is copying a block it is to write
  | go                           -- copied, or waiting
deriving DecidableEq, Repr

/-- Carry a copy on: gather the block, write it, write its replica, put it into the staging map (R238). -/
def cowGo (id : Nat) (c : Cow) (l : Live) (s : State) : State × Live :=
  let a := l.allot
  let pb := (Tab.get? s.cis.handles c.slot).elim 0 fun h => h.map.getD c.block 0
  let tiles := (List.range 16).map (16 * pb + ·)
  let (s, l) := tiles.foldl (fun st t => gatherTile id a t st) (s.setLive id l, l)
  let have_ := tiles.all fun t => (Tab.get? l.parts (tilePart t)).isSome
  if !have_ || !l.stat.isEmpty then (s, l)
  else
    let bytes (i : Nat) : Bytes := Tab.getD l.parts (tilePart (16 * pb + i)) []
    let ((s, l), c) := c.left.foldl (fun st i => copyTile id a i (bytes i) st) ((s, l), c)
    let l := { l with cow := some c }
    if !c.left.isEmpty || !l.waits.isEmpty || !l.stat.isEmpty then (s, l)
    else if !c.rep.isEmpty then
      c.rep.foldl (fun st i => copyToTray id a (16 * c.to_ + i) (bytes i) true st) (s, { l with cow := some { c with rep := [] } })
    else
      let s := { s with cis := { s.cis with
        handles := Tab.upd s.cis.handles c.slot fun h => { h with map := h.map.set c.block c.to_ } } }
      let s := match s.allot a with
        | some x => cisCount s 2 0 x 1
        | none => s
      (s, { l with cow := none, parts := l.parts.filter fun e => decide (e.1 < 2 ^ 60) })

/-- Copy the first staging block of a write that is still shared. -/
def cowStep (id : Nat) (l : Live) (s : State) : (State × Live) × CowStep :=
  match l.cow with
  | some c => (cowGo id c l s, .go)
  | none =>
    let r := l.req
    match s.allot l.allot, findHandle s r.handle r.levee true with
    | some x, some (hk, h) =>
      match Tab.get? s.cis.regions h.region with
      | none => ((s, l), .none_)
      | some g =>
        let lo := (r.pva - x.pva) / 65536
        let hi := (r.pva - x.pva + max 1 r.length - 1) / 65536
        match cowBusy s id hk lo hi with
        | some b => ((s, l), .hold (cowToken hk b))
        | none =>
          match ((List.range (hi + 1 - lo)).map (lo + ·)).find? fun b => blockShared s g h.region hk (h.map.getD b 0) with
          | none => ((s, l), .none_)
          | some b =>
            match freeBlock s g h.region (x.size / 65536) with
            | none => ((cisCount s 2 3 x 1, l), .full)
            | some nb =>
              let c : Cow := { slot := hk, block := b, to_ := nb, left := List.range 16 }
              (cowGo id c { l with cow := some c } s, .go)
    | _, _ => ((s, l), .none_)

/-! ### Progress -/

/-- The write of a request is planned: make its tiles ready, and apply it when they are. -/
def planWrite (id : Nat) (l : Live) (s : State) : State :=
  match s.allot l.allot with
  | none => s.setLive id l
  | some x =>
    let r := l.req
    let h := if bitOf r.flags 0 && (regionOf s l.allot).isSome then some r.handle else none
    let m := reach s l.allot (r.pva - x.pva) r.length r.levee h true true
    if m = .bad then finishLive id St.badParam (s.setLive id l)
    else
      let (s, l) := planSegs id l.allot true (segsOf false m (r.pva - x.pva) r.length) { l with stage := 1 } s
      let s := s.setLive id l
      if l.waits.isEmpty then applyLive id s else s

/-- A staging write copies its shared blocks first. -/
def startWrite (id fuel : Nat) (l : Live) (s : State) : State :=
  match fuel with
  | 0 => s.setLive id l
  | fuel + 1 =>
    if bitOf l.req.flags 0 && (regionOf s l.allot).isSome then
      match cowStep id l s with
      | ((s, l), .none_) => planWrite id l s
      | ((s, l), .full) => finishLive id St.exhausted (s.setLive id l)
      | ((s, l), .hold t) => s.setLive id { l with stage := 12, waits := [t] }
      | ((s, l), .go) =>
        match l.stat with
        | (_, st) :: _ => finishLive id st (s.setLive id { l with segs := [] })
        | [] => if l.waits.isEmpty then startWrite id fuel l s else s.setLive id { l with stage := 4 }
    else planWrite id l s

/-- Steps a write can take at once: three for each staging block it meets. -/
def copyFuel (l : Live) : Nat := 4 * (l.req.length / 65536 + 3)

/-- The source bytes of a copy are gathered: its failure ends the copy, else its write begins. -/
def copyGathered (id : Nat) (l : Live) (s : State) : State :=
  let a := l.src.getD l.allot
  let bad := firstBad s a l 0 (2 ^ 59)
  if bad ≠ St.ok then finishLive id bad (s.setLive id { l with segs := [], stat := [] })
  else
    let data := (l.segs.map (segBytes s a l)).flatten
    let l := { l with parts := [(0, data)], segs := [], missed := [], stage := 1 }
    if (s.allot l.allot).elim false (·.coherent) then s.setLive id { l with stage := 6 }
    else startWrite id (copyFuel l) l s

/-- What a request does once nothing it waits for is outstanding. -/
def advance (id : Nat) (s : State) : State :=
  match s.liveReq id with
  | none => s
  | some l =>
    if !l.waits.isEmpty || !l.lines.isEmpty then s
    else match l.stage with
    | 0 => if l.kind = .copy then copyGathered id l s else finishLive id St.ok s
    | 1 => applyLive id s
    | 2 => if needsReplica s l then replicaPhase id l s else finishLive id St.ok s
    | 3 => finishLive id St.ok s
    | 4 => startWrite id (copyFuel l) l s
    | 6 => s
    | 7 => copyGathered id l s
    | 10 | 11 | 12 | 13 => s
    | _ => finishLive id St.ok s

/-- What a request reads, if it reads a range of allotment `a` from `off` on: in pieces or not, under which handle. -/
def readMap (s : State) (l : Live) (a off : Nat) (h : Option Nat) : Reach := reach s a off l.req.length l.req.levee h false true

/-- Plan what a request reads. A read through a staging map waits while one of its blocks is being copied (R238); one that
the window no longer reaches is BAD_PARAM (R233). -/
def planRead (id a off : Nat) (h : Option Nat) (l : Live) (s : State) : State :=
  let m := readMap s l a off h
  let busy := match h.bind fun x => findHandle s x l.req.levee true with
    | some (hk, _) => (cowBusy s id hk (off / 65536) ((off + max 1 l.req.length - 1) / 65536)).map (cowToken hk)
    | none => none
  if m = .bad then finishLive id St.badParam (s.setLive id l)
  else match busy with
  | some t => s.setLive id { l with waits := [t], stage := anewStage l false }
  | none =>
    let (s, l) := planSegs id a false (segsOf l.kind.pieces m off l.req.length) l s
    advance id (s.setLive id l)

/-- Begin a request that has been accepted and lies outside the directory. -/
def startLive (id : Nat) (s : State) : State :=
  match s.liveReq id with
  | none => s
  | some l =>
    let r := l.req
    match l.kind with
    | .read | .rdmaRead =>
      match s.allot l.allot with
      | none => s
      | some x =>
        planRead id l.allot (r.pva - x.pva) (if bitOf r.flags 0 then some r.handle else none) l s
    | .copy =>
      match l.src with
      | none => s                -- its source lies on another switch: it waits for the phase
      | some b =>
        match s.allot b with
        | none => s
        | some y =>
          let spva := be r.data 0 8
          let h := if bitOf r.flags 0 && (regionOf s l.allot).isNone then some r.handle else none
          planRead id b (spva - y.pva) h l s
    | _ => startWrite id (copyFuel l) { l with stage := 1 } s

/-- A publication commits: a read without a handle that is under way reads every tile not yet read, or being read from the
tray, as of the new version (Table CIS-6). -/
def remapRead (a id : Nat) (s : State) : State :=
  match s.liveReq id with
  | none => s
  | some l =>
    let r := l.req
    let pva := if l.kind = .copy then be r.data 0 8 else r.pva
    let off := pva - (s.allot a).elim 0 (·.pva)
    let bare := !bitOf r.flags 0 || (l.kind == .copy && (regionOf s l.allot).isSome)
    if l.at ≠ a ∨ l.stage ≠ 0 ∨ !bare ∨ !(l.kind == .read || l.kind == .rdmaRead || l.kind == .copy) then s
    else
      let gs := segsOf l.kind.pieces (readMap s l a off none) off r.length
      let kept := l.segs.filter (·.sip)
      let l := { l with segs := kept, waits := l.waits.filter fun w => decide (opToken 0 ≤ w) && decide (w < 2 ^ 81) }
      let s := s.setLive id { l with segs := gs }
      let (s, l) := (gs.filter fun g => !kept.any fun k => k.off == g.off).foldl (planSeg id a false) (s, l)
      advance id (s.setLive id { l with segs := gs.filterMap fun g => l.segs.find? fun k => k.off == g.off })

def remapReads (a : Nat) (s : State) : State := (s.mem.live.map (·.1)).foldl (fun s id => remapRead a id s) s

/-- Something that requests wait for is there: `ok` false means the tile could not be read (13 R434). -/
def tokenDone (tok : Nat) (ok : Bool) (s : State) : State :=
  let ids := (s.mem.live.filter fun e => e.2.waits.contains tok).map (·.1)
  let s := { s with mem := { s.mem with
    live := s.mem.live.map fun e =>
      if e.2.waits.contains tok then
        (e.1, { e.2 with
          waits := e.2.waits.filter (· != tok),
          stat := if ok then e.2.stat
                  else if e.2.stage = 4 then Tab.set e.2.stat 0 St.internal
                  else (e.2.segs.filter fun g => tileKey e.2.at g.tile == tok).foldl (fun t g => Tab.set t g.off St.internal) e.2.stat })
      else e } }
  ids.foldl (fun s id => advance id s) s

/-- Answer a request's tray operation. A tag that fails is read once more, then INTERNAL (13 R434); a swap goes on as
compare-and-swaps until one takes. -/
def requestAnswered (id off opId : Nat) (op : TrayOp) (d : Bytes) (s : State) : State :=
  match s.liveReq id with
  | none => s
  | some l =>
    let tok := opToken opId
    let l := { l with waits := l.waits.filter (· != tok) }
    match op.kind with
    | .read =>
      if (l.kind = .atomic ∨ l.kind = .rdmaAtomic) ∧ off < 2 ^ 59 ∧ l.stage = 2 then
        match l.segs with
        | g :: _ => atomicOp id l g .cas (slice d 0 8 ++ toLe 8 (atomicArgs l.req).1) s
        | [] => s
      else
        match s.allot l.at with
        | none => advance id (s.setLive id l)
        | some x =>
          let g := l.segs.find? fun g => g.off == off || tilePart g.tile == off
          let tile := if 2 ^ 60 ≤ off then off - 2 ^ 60 else g.elim 0 (·.tile)
          if s.confidential x.levee then
            match openImage s x tile d with
            | some pt =>
              let part := if 2 ^ 60 ≤ off then pt else g.elim [] fun g => slice pt g.start g.len
              advance id (s.setLive id { l with parts := Tab.set l.parts off part })
            | none =>
              if op.again then
                advance id ((gcmFail x 6 op.tray op.addr s).setLive id { l with
                  stat := Tab.set l.stat (if 2 ^ 60 ≤ off then g.elim 0 (·.off) else off) St.internal })
              else
                match readFromTray id l.at off tile 0 4096 true s with
                | (s, some t) => s.setLive id { l with waits := l.waits ++ [t] }
                | (s, none) => advance id (s.setLive id { l with stat := Tab.set l.stat 0 St.fenced })
          else advance id (s.setLive id { l with parts := Tab.set l.parts off (slice d 0 op.len) })
    | .write => advance id (s.setLive id l)
    | .faa => advance id (s.setLive id { l with prior := le d 0 8 })
    | .cas =>
      let got := le d 0 8
      match l.segs with
      | g :: _ =>
        if l.req.op = 2 ∧ got ≠ le op.data 0 8 then atomicOp id l g .cas (toLe 8 got ++ slice op.data 8 8) s
        else advance id (s.setLive id { l with prior := got })
      | [] => s

end Sys2Proof.Machine
end

