-- ==== Sys2Proof/Machine/Coherence.lean ====
section
/-! DEFINITION. The coherence directory: domains and agents, entries, transactions, snoops, uncached granules, atomics,
hold windows, dead agents and lost lines (08 R246–R272). A line's key is allotment × 2^36 + line. -/

namespace Sys2Proof.Machine

/-! ### Lines, domains, agents -/

def lineKey (a line : Nat) : Nat := a * 2 ^ 36 + line
def keyAllot (k : Nat) : Nat := k / 2 ^ 36
def keyLine (k : Nat) : Nat := k % 2 ^ 36

def State.domain (s : State) (d : Nat) : Option Domain := Tab.get? s.coh.domains d
def State.agent (s : State) (d a : Nat) : Option Agent := (s.domain d).bind fun x => Tab.get? x.agents a
def State.trans (s : State) (k : Nat) : Option Trans := Tab.get? s.coh.trans k
def State.entry (s : State) (k : Nat) : Option DirEntry := Tab.get? s.coh.dir k

def State.setTrans (s : State) (k : Nat) (t : Trans) : State := { s with coh := { s.coh with trans := Tab.set s.coh.trans k t } }
def State.setEntry (s : State) (k : Nat) (e : DirEntry) : State := { s with coh := { s.coh with dir := Tab.set s.coh.dir k e } }
def State.delEntry (s : State) (k : Nat) : State := { s with coh := { s.coh with dir := Tab.del s.coh.dir k } }

def domMode (s : State) (d : Nat) : Nat := (s.domain d).elim 0 (·.mode)

/-- Gauges of Table COH-11, per domain and die. -/
def cohCount (row idx dom die : Nat) (s : State) : State := s.count (gk 5 row idx dom die) 1

def lineLost (s : State) (k : Nat) : Bool := s.coh.lost.contains k || (s.entry k).elim false fun e => e.st == .lost

/-- Live agents of a domain. -/
def liveAgents (s : State) (d : Nat) : List Nat :=
  (s.domain d).elim [] fun x => (x.agents.filter fun e => e.2.live).map (·.1)

/-- Agents that may hold a line: pointers, or under FMT 1 every live agent of a marked group (R256). -/
def holders (s : State) (d : Nat) (e : DirEntry) : List Nat :=
  match e.st with
  | .owned => [e.owner]
  | .shared => if e.coarse then (liveAgents s d).filter fun a => e.groups.getLsbD (a / 64) else e.ptrs
  | .lost => []

/-- Add a sharer; a fifth converts the entry to FMT 1 (R256). -/
def DirEntry.addSharer (e : DirEntry) (a : Nat) : DirEntry :=
  if e.coarse then { e with st := .shared, groups := setBit e.groups (a / 64) }
  else if e.ptrs.contains a then { e with st := .shared }
  else if e.ptrs.length < 4 then { e with st := .shared, ptrs := e.ptrs ++ [a] }
  else { e with st := .shared, coarse := true, ptrs := [], groups := (e.ptrs ++ [a]).foldl (fun g x => setBit g (x / 64)) 0 }

/-- No agent holds the line. -/
def DirEntry.none_ (e : DirEntry) : DirEntry := { e with st := .shared, coarse := false, ptrs := [], groups := 0, owner := 0, ownTxn := 0 }

def DirEntry.own (e : DirEntry) (a txn : Nat) : DirEntry := { e.none_ with st := .owned, owner := a, ownTxn := txn }

def DirEntry.unheld (e : DirEntry) : Bool := e.st == .shared && !e.coarse && e.ptrs.isEmpty

/-- An agent's copy is gone: its pointer or ownership goes; a group bit stays until the transaction ends. -/
def DirEntry.drop (e : DirEntry) (a : Nat) : DirEntry :=
  if e.st = .owned then (if e.owner = a then e.none_ else e) else { e with ptrs := e.ptrs.filter (· != a) }

/-! ### Messages from the home (R251, R252) -/

/-- Pool virtual address of a line. -/
def linePva (s : State) (key : Nat) : Nat := (s.allot (keyAllot key)).elim 0 fun x => x.pva + 256 * keyLine key

/-- Send a message to an agent: a UD SEND from the die's engine to ADDR and AQPN in class TC, which enters the switch core as
an internal frame of that engine and the domain's levee (R251, 04 R117). No rule gives its source address or its egress
port; they are not in the record. -/
def sendCoh (die dom a type flags status txn snoopId value pva : Nat) (data : Bytes) (s : State) : State :=
  match s.domain dom, s.agent dom a with
  | some d, some g =>
    let m : CohMsg :=
      { (default : CohMsg) with
        flags := flags, domain := dom, status := status, agent := a, agen := g.gen, txn := txn, snoopId := snoopId, pva := pva,
        value := value, data := data }
    if s.mute g.addr then s else s.emit (.coh die d.levee d.tc g.addr g.qpn cohQKey (m.bytes type))
  | _, _ => s

/-- Keep the final message of an agent's C_ATOMIC or C_WRITE_FULL, of its last 16 (R264). A C_RETRY is no final message of a
transaction: none has begun. -/
def keepResult (x : CohResult) (s : State) : State :=
  if x.type = 0x3B then s
  else
    let mine := (s.coh.results.filter fun r => r.domain == x.domain && r.agent == x.agent).take 15
    let other := s.coh.results.filter fun r => !(r.domain == x.domain && r.agent == x.agent)
    { s with coh := { s.coh with results := x :: mine ++ other } }

/-- Record a grant: it opens the hold window (R267) and answers duplicates (R264). -/
def addGrant (key a txn : Nat) (data : Bool) (s : State) : State :=
  let keep := (Tab.getD s.coh.grants key []).filter fun g => g.agent != a && decide (s.now < g.at_ + ns 512)
  { s with coh := { s.coh with grants := Tab.set s.coh.grants key (⟨a, txn, data, s.now⟩ :: keep) } }

/-- The mode of the transaction on a line: its domain's when it started (R267). -/
def lineMode (s : State) (dom key : Nat) : Nat := (s.trans key).elim (domMode s dom) (·.mode)

/-- The agent's hold window on the line is open, for a transaction whose mode has one (Table COH-8). -/
def holding (s : State) (dom key a : Nat) : Bool :=
  lineMode s dom key != 2 &&
    (Tab.getD s.coh.grants key []).any fun g => g.agent == a && decide (s.now < g.at_ + ns 512)

/-- HOLD of an entry: any window is open. -/
def entryHeld (s : State) (dom key : Nat) : Bool :=
  domMode s dom != 2 && (Tab.getD s.coh.grants key []).any fun g => decide (s.now < g.at_ + ns 512)

/-! ### Snoops (R259, R262, R267) -/

def snoopKey (die tracker a : Nat) : Nat := (die * 16384 + tracker) * 4096 + a

/-- Send a snoop that is recorded. -/
def emitSnoop (k : Nat) (s : State) : State :=
  match Tab.get? s.coh.snoops k with
  | none => s
  | some n =>
    let s := { s with coh := { s.coh with snoops := Tab.set s.coh.snoops k { n with sent := some s.now } } }
    sendCoh n.die n.domain n.agent n.type 0 0 0 (k / 4096 % 16384) 0 (linePva s n.line) [] s

/-- Snoop one agent; a hold window holds it back unless `now` (a revocation, a dead agent, a fence). -/
def addSnoop (die dom key tracker : Nat) (force : Bool) (p : Nat × Nat) (s : State) : State :=
  let k := snoopKey die tracker p.1
  let n : Snoop := { die := die, line := key, domain := dom, agent := p.1, type := p.2, sent := none }
  let s := { s with coh := { s.coh with snoops := Tab.set s.coh.snoops k n } }
  let s := cohCount 0 2 dom die s
  if !force && holding s dom key p.1 then s else emitSnoop k s

/-! ### Granules of uncached accesses (R265) -/

/-- Where a line meets a request: offset in the request, start in the line, length. -/
def granule (s : State) (l : Live) (key : Nat) : Nat × Nat × Nat :=
  let pva := if l.stage = 7 then be l.req.data 0 8 else l.req.pva
  let off0 := pva - (s.allot (keyAllot key)).elim 0 (·.pva)
  let at_ := 256 * keyLine key
  let lo := max off0 at_
  (lo - off0, lo - at_, min (off0 + l.req.length) (at_ + 256) - lo)

/-- Bytes of a request on one line from `off` for `len`; an atomic spans 8 bytes. -/
def reqLen (l : Live) : Nat :=
  match l.kind with
  | .atomic | .rdmaAtomic => 8
  | _ => l.req.length

/-- The line keys of a range. -/
def rangeLines (a off len : Nat) : List Nat :=
  if len = 0 then [] else (List.range ((off + len - 1) / 256 - off / 256 + 1)).map fun i => lineKey a (off / 256 + i)

def isWrite (l : Live) : Bool := l.kind == .write || l.kind == .rdmaWrite || (l.kind == .copy && l.stage != 7)
def isAtomic (l : Live) : Bool := l.kind == .atomic || l.kind == .rdmaAtomic

/-- The work is a full-line or covering write. -/
def coverWork (s : State) (key : Nat) (w : CohWork) : Bool :=
  match w with
  | .agent _ type => type == 0x05
  | .uncached id => (s.liveReq id).elim false fun l => isWrite l && (granule s l key).2.2 == 256
  | _ => false

def covering (s : State) (key : Nat) (t : Trans) : Bool := coverWork s key t.work

/-! ### Snoops a transaction needs -/

/-- Snoops a transaction needs: (agent, type), Tables COH-6 and COH-7. -/
def snoopsFor (s : State) (dom key : Nat) (e : Option DirEntry) (work : CohWork) (near : Bool) : List (Nat × Nat) :=
  match e with
  | none => []
  | some e =>
    let hs := holders s dom e
    let owned := e.st == .owned
    let inv (l : List Nat) : List (Nat × Nat) := l.map fun a => (a, 0x20)
    let away (l : List Nat) : List (Nat × Nat) := l.map fun a => (a, if owned then 0x21 else 0x20)
    match work with
    | .agent id type =>
      let a := ((s.liveReq id).bind (·.coh)).elim 0 (·.agent)
      let others := hs.filter (· != a)
      if type = 0x01 then (if owned then others.map fun b => (b, 0x22) else [])
      else if type = 0x02 ∨ type = 0x03 then away others
      else if type = 0x04 then away (if near then hs else others)
      else if type = 0x05 then inv others
      else []
    | .uncached id =>
      match s.liveReq id with
      | none => []
      | some l =>
        match l.kind with
        | .read | .rdmaRead => if owned then hs.map fun b => (b, 0x22) else []
        | .copy | .write | .rdmaWrite =>
          if l.stage = 7 then (if owned then hs.map fun b => (b, 0x22) else [])
          else if coverWork s key work then inv hs else away hs
        | _ => away hs
    | .recall => away hs
    | .revoke => inv hs
    | _ => []

/-- The parts of a request that lie on one line: a line that straddles two pieces of a read has two (R196). -/
def granuleSegs (l : Live) (key : Nat) : List Seg :=
  l.segs.filter fun g => decide (256 * keyLine key ≤ 4096 * g.tile + g.start) && decide (4096 * g.tile + g.start < 256 * keyLine key + 256)

/-- A granule has completed with a status; each part of it has that status. -/
def granuleDone (id key st : Nat) (s : State) : State :=
  match s.liveReq id with
  | none => s
  | some l =>
    let g := (granule s l key).1
    let l := { l with
      lines := l.lines.erase key,
      stat := if st = St.ok then l.stat
              else (granuleSegs l key).foldl (fun t p => Tab.set t p.off st) (Tab.set l.stat g st) }
    let s := s.setLive id l
    if l.lines.isEmpty then advance id s else s

/-! ### Ends of agents' requests -/

/-- The final message of an agent's request; its request ends. -/
def cohFinal (id key type flags status value : Nat) (data : Bytes) (s : State) : State :=
  match s.liveReq id with
  | none => s
  | some l =>
    match l.coh, l.kind with
    | some m, .coh op =>
      let die := l.home
      let s := sendCoh die m.domain m.agent type flags status m.txn 0 value (linePva s key) data s
      let s := if op = 0x04 ∨ op = 0x05 then
          keepResult { domain := m.domain, agent := m.agent, txn := m.txn, req := op, type := type,
                       msg := { m with flags := flags, status := status, value := value, data := data } } s
        else s
      let s := if status = St.lineLost then cohCount 2 0 m.domain die s else s
      let s := if status = St.fenced then fencedCount l.req.levee die s else s
      let s := if type = 0x30 ∨ type = 0x38 then
          (if flags = 1 ∨ type = 0x38 then cohCount 0 1 m.domain die s else cohCount 0 0 m.domain die s) else s
      let s := if type = 0x3B then cohCount 1 2 m.domain die s else s
      endLive id s
    | _, _ => s

/-- A work that cannot wait: C_RETRY to an agent, BUSY to a granule (R258, R267). -/
def cohRetry (key backoff : Nat) (work : CohWork) (s : State) : State :=
  match work with
  | .agent id _ | .again id => cohFinal id key 0x3B 0 0 backoff [] s
  | .uncached id => granuleDone id key St.busy s
  | _ => s

/-! ### Starting a transaction (R257–R259, R266) -/

/-- Home die, domain of a line. -/
def lineHome (s : State) (key : Nat) : Nat × Nat := (s.allot (keyAllot key)).elim (0, 0) fun x => (x.home, x.domain)

/-- The lowest free tracker of a die. -/
def freeTracker (s : State) (die : Nat) : Option Nat :=
  let used := s.coh.trans.filterMap fun e => if e.2.die = die then e.2.tracker else none
  (List.range 16384).find? fun k => !used.contains k

/-- Update the predictor of a line for the work that starts (R266); answers whether an atomic runs near. -/
def predict (key : Nat) (work : CohWork) (waiting : Bool) (s : State) : State × Bool :=
  let dom := (lineHome s key).2
  match s.entry key, work with
  | some e, .agent id type =>
    if type = 0x04 then
      let a := ((s.liveReq id).bind (·.coh)).elim 0 (·.agent)
      let contended := (holders s dom e).any (· != a) || waiting
      let p := if contended then min 7 (e.pred + 2) else e.pred - 1
      (s.setEntry key { e with pred := p }, decide (4 ≤ p))
    else (s, false)
  | some e, .uncached _ => (s.setEntry key { e with pred := min 7 (e.pred + 1) }, true)
  | _, _ => (s, true)

/-- A work that allocates an entry for a line without one. -/
def allocates (w : CohWork) : Bool :=
  match w with
  | .agent _ _ => true
  | _ => false

/-- A request from the agent that a completed grant left as owner: with the grant's TXN the grant is sent again, with any
other it is answered BAD_PARAM (R264). -/
def ownAgain (s : State) (key : Nat) (work : CohWork) : CohWork × Nat :=
  let again (id : Nat) : CohWork × Nat :=
    match s.liveReq id with
    | none => (work, 0)
    | some l =>
      match l.coh, l.kind with
      | some m, .coh type =>
        match s.entry key with
        | some e =>
          if e.st == .owned && e.owner == m.agent && (type == 0x01 || type == 0x02 || type == 0x03) then
            (if e.ownTxn = m.txn then (.again id, 0) else (.agent id type, St.badParam))
          else (.agent id type, 0)
        | none => (.agent id type, 0)
      | _, _ => (work, 0)
  match work with
  | .agent id _ => again id
  | .again id => again id
  | _ => (work, 0)

/-- Start a transaction on a line that is not BUSY. -/
def startTrans (key : Nat) (work : CohWork) (tracker : Option Nat) (list : List CohWork) (s : State) : State :=
  let (die, dom) := lineHome s key
  let (work, stat) := ownAgain s key work
  let s := if stat = 0 then s else cohCount 2 2 dom die s
  let s := match s.entry key with
    | some e => s.setEntry key { e with lru := s.now }
    | none => if allocates work && !lineLost s key then s.setEntry key { st := .shared, pred := 2, lru := s.now } else s
  let (s, near) := predict key work (!list.isEmpty) s
  let sn := if lineLost s key || stat != 0 then [] else snoopsFor s dom key (s.entry key) work near
  let dirty := match work with
    | .wb m => some (slice m.data 0 256)
    | _ => none
  let t : Trans :=
    { die := die, domain := dom, work := work, tracker := tracker, near := near, need := sn.map (·.1), dirty := dirty, list := list,
      stat := stat, mode := domMode s dom }
  sn.foldl (fun s p => addSnoop die dom key (tracker.getD 0) (work == .revoke) p s) (s.setTrans key t)

/-! ### Memory accesses of a transaction -/

/-- Issue a tray read for a line: the line, or the whole tile image of a confidential levee. -/
def cohTrayRead (key : Nat) (again : Bool) (s : State) : State × Option Nat :=
  match s.allot (keyAllot key) with
  | none => (s, none)
  | some x =>
    match readTray s x with
    | none => (s, none)
    | some (t, off) =>
      let conf := s.confidential x.levee
      let s := if conf then lockTile (lineOwner key) (keyAllot key) (keyLine key / 16) s else s
      let (s, op) := issueOp
        { tray := t, use := .cohRead key, kind := .read,
          addr := off + (if conf then 4096 * (keyLine key / 16) else 256 * keyLine key),
          len := if conf then 4128 else 256, data := [], at_ := s.now, again := again } s
      (s, some (opToken op))

/-- Issue a tray write for part of a line, to the primary or the replica. -/
def cohTrayWrite (key start : Nat) (bs : Bytes) (image : Bytes) (s : State) : State × Option Nat :=
  match s.allot (keyAllot key) with
  | none => (s, none)
  | some x =>
    let tile := keyLine key / 16
    let at_ := 256 * (keyLine key % 16) + start
    match readTray s x with
    | none => (s, none)
    | some (t, off) =>
      if s.confidential x.levee then
        let (s, iv) := nextIv x.levee x.home 4 s
        let c := Config.gcmSeal (memKey s x.levee) iv (tileAad x tile) (slice (splice image at_ bs) 0 4096)
        let d := c.1 ++ iv ++ c.2 ++ zeros 4
        let (s, op) := issueOp { tray := t, use := .cohWrite key, kind := .write, addr := off + 4096 * tile, len := d.length,
                                 data := d, at_ := s.now } s
        (s, some (opToken op))
      else
        let (s, op) := issueOp { tray := t, use := .cohWrite key, kind := .write, addr := off + 4096 * tile + at_,
                                 len := bs.length, data := bs, at_ := s.now } s
        (s, some (opToken op))

/-- Count the cistern's view of a transaction once: HIT or MISS. -/
def cohTried (a tile : Nat) (t : Trans) (s : State) : State × Trans :=
  match t.tried, s.allot a with
  | false, some x =>
    let hit := tileValid s a tile
    (if x.place = 1 then cisCount s 0 (if hit then 0 else 1) x 1 else s, { t with tried := true, missed := x.place == 1 && !hit })
  | _, _ => (s, t)

/-- Write part of a line to memory. Answers whether the write is done, issued or failed; otherwise the transaction waits
and tries again. -/
def cohMemWrite (key start : Nat) (bs : Bytes) (t : Trans) (s : State) : State × Trans × Bool :=
  let a := keyAllot key
  let tile := keyLine key / 16
  let (s, t) := cohTried a tile t s
  match tileWay (lineOwner key) a tile true true s with
  | (s, .ready) =>
    if s.isPoisoned a tile then (s, { t with stat := St.internal }, true)
    else (putTile a tile (256 * (keyLine key % 16) + start) bs 4 s, t, true)
  | (s, .wait k) => (s, { t with waits := t.waits ++ [k] }, false)
  | (s, .tray) =>
    let conf := (s.allot a).elim false fun x => s.confidential x.levee
    let t := { t with siphoned := true }
    match conf && t.image.isNone with
    | true =>
      match cohTrayRead key false s with
      | (s, some k) => (s, { t with waits := t.waits ++ [k] }, false)
      | (s, none) => (s, { t with stat := St.fenced }, true)
    | false =>
      match cohTrayWrite key start bs (t.image.getD []) s with
      | (s, some k) => (s, { t with waits := t.waits ++ [k], image := none }, true)
      | (s, none) => (s, { t with stat := St.fenced }, true)

/-- Make a line readable: answers whether its bytes can be taken from the cistern, or stand in `data`. -/
def cohMemRead (key : Nat) (t : Trans) (s : State) : State × Trans × Bool :=
  let a := keyAllot key
  let tile := keyLine key / 16
  let (s, t) := cohTried a tile t s
  if t.data.isSome then (s, t, true)
  else match tileWay (lineOwner key) a tile true false s with
  | (s, .ready) => (s, if s.isPoisoned a tile then { t with stat := St.internal } else t, true)
  | (s, .wait k) => (s, { t with waits := t.waits ++ [k] }, false)
  | (s, .tray) =>
    match cohTrayRead key false s with
    | (s, some k) => (s, { t with waits := t.waits ++ [k], siphoned := true }, false)
    | (s, none) => (s, { t with stat := St.fenced }, true)

/-- The bytes of a line as they stand. -/
def lineBytes (s : State) (key : Nat) (t : Trans) : Bytes :=
  t.data.getD (readPool s (keyAllot key) (256 * keyLine key) 256)

/-! ### What a transaction reads and writes -/

/-- It reads memory, given the entry after its snoops. -/
def readsMemory (s : State) (key : Nat) (t : Trans) : Bool :=
  match t.work with
  | .agent id type =>
    let a := ((s.liveReq id).bind (·.coh)).elim 0 (·.agent)
    let pointer := (s.entry key).elim false fun e => e.st == .shared && !e.coarse && e.ptrs.contains a
    type == 0x01 || type == 0x02 || type == 0x04 || (type == 0x03 && !pointer)
  | .again id =>
    let m := (s.liveReq id).bind (·.coh)
    m.elim true fun m => (Tab.getD s.coh.grants key []).any fun g => g.agent == m.agent && g.data
  | .uncached id => (s.liveReq id).elim false fun l => !isWrite l
  | _ => false

/-- MEMORY_READ_COMPLETE ends its read: a transaction that ends in a message to an agent. -/
def readsTimed (t : Trans) : Bool :=
  match t.work with
  | .agent _ _ | .again _ => true
  | _ => false

/-- The result it writes once memory is read: bytes from an offset in the line, and the prior value of an atomic. -/
def resultOf (s : State) (key : Nat) (t : Trans) : Option (Nat × Bytes) × Nat :=
  let old := lineBytes s key t
  let exec8 (off op a b : Nat) : Option (Nat × Bytes) × Nat :=
    let prior := le old off 8
    (some (off, toLe 8 (atomicNew op prior a b)), prior)
  match t.work with
  | .agent id type =>
    match (s.liveReq id).bind (·.coh) with
    | some m =>
      if type = 0x04 then exec8 m.offset m.op (be m.data 0 8) (be m.data 8 8)
      else if type = 0x05 then (some (0, slice m.data 0 256), 0) else (none, 0)
    | none => (none, 0)
  | .uncached id =>
    match s.liveReq id with
    | some l =>
      let (off, start, len) := granule s l key
      if isAtomic l then exec8 start l.req.op (atomicArgs l.req).1 (atomicArgs l.req).2
      else if isWrite l then (some (start, writeBytes l ⟨off, 0, 0, len, true⟩), 0) else (none, 0)
    | none => (none, 0)
  | _ => (none, 0)

/-! ### The end of a transaction -/

/-- Change the entry of a line where it has one. -/
def modEntry (key : Nat) (f : DirEntry → DirEntry) (s : State) : State :=
  match s.entry key with
  | some e => s.setEntry key (f e)
  | none => s

/-- Remove the lost mark of a line (R269). -/
def clearLost (key : Nat) (s : State) : State :=
  let s := { s with coh := { s.coh with lost := s.coh.lost.filter (· != key) } }
  match s.entry key with
  | some e => if e.st = .lost then s.delEntry key else s
  | none => s

/-- The bytes a message carries: the line with the transaction's own result in it. -/
def grantBytes (s : State) (key : Nat) (t : Trans) : Bytes :=
  match t.data, t.result with
  | some d, some (off, bs) => slice (splice d off bs) 0 256
  | some d, none => slice d 0 256
  | none, _ => readPool s (keyAllot key) (256 * keyLine key) 256

/-- What an agent's transaction ends in (Table COH-6, R266). -/
def agentEnd (key id type : Nat) (t : Trans) (s : State) : State :=
  match (s.liveReq id).bind (·.coh) with
  | none => s
  | some m =>
    let a := m.agent
    let data := grantBytes s key t
    if lineLost s key && type != 0x05 then cohFinal id key 0x39 0 St.lineLost 0 [] s
    else if t.stat ≠ 0 then cohFinal id key 0x39 0 t.stat 0 [] s
    else if type = 0x01 then
      cohFinal id key 0x30 0 0 0 data (addGrant key a m.txn true (modEntry key (·.addSharer a) s))
    else if type = 0x02 ∨ type = 0x03 then
      let plain := type == 0x03 && t.data.isNone && (s.entry key).elim false fun e => e.st == .shared && !e.coarse && e.ptrs.contains a
      let s := addGrant key a m.txn (!plain) (modEntry key (·.own a m.txn) s)
      if plain then cohFinal id key 0x38 0 0 0 [] s else cohFinal id key 0x30 1 0 0 data s
    else if type = 0x04 then
      if t.near then cohFinal id key 0x39 0 0 t.prior [] (cohCount 1 0 t.domain t.die (modEntry key (·.none_) s))
      else cohFinal id key 0x30 1 0 t.prior data
        (cohCount 1 1 t.domain t.die (addGrant key a m.txn true (modEntry key (·.own a m.txn) s)))
    else if type = 0x05 then cohFinal id key 0x39 0 0 0 [] (modEntry key (·.none_) (clearLost key s))
    else
      let s := modEntry key (fun e => if e.st = .shared ∧ !e.coarse then { e with ptrs := e.ptrs.filter (· != a) } else e) s
      cohFinal id key 0x39 0 0 0 [] s

/-- Every holder was told to drop the line: what is left of FMT 1 goes (R256). -/
def invalidates (s : State) (key : Nat) (t : Trans) : Bool :=
  match t.work with
  | .agent _ type => type == 0x02 || type == 0x03 || type == 0x04 || type == 0x05
  | .uncached id => (s.liveReq id).elim false fun l => isWrite l || isAtomic l
  | .recall | .revoke => true
  | _ => covering s key t

/-- What the transaction does at its end. -/
def transEnd (key : Nat) (t : Trans) (s : State) : State :=
  let s := if t.siphoned then (match s.allot (keyAllot key), t.work with
    | some x, .agent _ _ => cisCount s 1 3 x 1
    | _, _ => s) else s
  match t.work with
  | .agent id type => agentEnd key id type t s
  | .again id =>
    match (s.liveReq id).bind (·.coh) with
    | none => s
    | some m =>
      if lineLost s key then cohFinal id key 0x39 0 St.lineLost 0 [] s
      else if t.stat ≠ 0 then cohFinal id key 0x39 0 t.stat 0 [] s
      else
        let withData := (Tab.getD s.coh.grants key []).any fun g => g.agent == m.agent && g.data
        let s := addGrant key m.agent m.txn withData s
        if withData then cohFinal id key 0x30 1 0 0 (grantBytes s key t) s else cohFinal id key 0x38 0 0 0 [] s
  | .uncached id =>
    match s.liveReq id with
    | none => s
    | some l =>
      let cov := covering s key t
      let st := if lineLost s key && !cov then St.lineLost else t.stat
      let s := if st = St.ok && (isWrite l || isAtomic l) then modEntry key (·.none_) (if cov then clearLost key s else s) else s
      let bytes := grantBytes s key t
      let put (p : Tab Bytes) (g : Seg) : Tab Bytes := Tab.set p g.off (slice bytes (4096 * g.tile + g.start - 256 * keyLine key) g.len)
      let l := if st ≠ St.ok then l
        else if isAtomic l then { l with prior := t.prior }
        else if isWrite l then l else { l with parts := (granuleSegs l key).foldl put l.parts }
      let l := if t.siphoned || t.missed then { l with missed := l.missed ++ [keyLine key / 16] } else l
      let l := if t.siphoned then { l with siphoned := true } else l
      granuleDone id key st (s.setLive id l)
  | .wb m => sendCoh t.die m.domain m.agent 0x3A 0 0 m.txn 0 0 (linePva s key) [] s
  | .recall => s.delEntry key
  | .revoke => s.delEntry key
  | .dropped => s

/-- A line of a revoked allotment keeps no holders (R270). -/
def lineRevoked (s : State) (key : Nat) : Bool :=
  (s.allot (keyAllot key)).elim true fun x => x.st == .revoking || x.st == .releasing

/-- Set of a line in its die's directory: bits [16:0] of the CRC-32C of its ALLOT and LINE fields (R255). DEDUCED (assumption
97): the fields are the entry's bits [127:76], as a little-endian number of 7 bytes. -/
def dirSet (key : Nat) : Nat := (crc32c (toLe 7 key)).toNat % 131072

/-- The way a line without an entry takes (R257). -/
inductive Way where
  | free
  | recall (victim : Nat)
  | recalling
  | none_
deriving DecidableEq, Repr

/-- Requests of a die's queue that wait for a way in a set. -/
def waitingFor (s : State) (die set_ : Nat) : Nat :=
  ((Tab.getD s.coh.dieQ die []).filter fun e => (s.entry e.1).isNone && allocates e.2 && dirSet e.1 == set_).length

/-- The way for a line: a free one, or one that a recall frees. Each request that waits has a recall of its own. -/
def wayFor (s : State) (die key : Nat) : Way :=
  let set_ := dirSet key
  let mine := s.coh.dir.filter fun e => (lineHome s e.1).1 == die && dirSet e.1 == set_
  let recalls := (mine.filter fun e => (s.trans e.1).elim false fun t => t.work == .recall).length
  if mine.length < 16 then .free
  else if waitingFor s die set_ < recalls then .recalling
  else
    let cand := mine.filter fun e => (s.trans e.1).isNone && e.2.st != .lost && !entryHeld s (lineHome s e.1).2 e.1
    match cand.foldl (fun (b : Option (Nat × DirEntry)) e => match b with
        | none => some e
        | some x => if e.2.lru < x.2.lru then some e else some x) none with
    | some e => .recall e.1
    | none => .none_

/-- Where a work of an agent stands among others that came in the same cycle of the directory stop: by agent, then by domain
(R258); an uncached access by its order of arrival. -/
def arrivalOf (s : State) (w : CohWork) : Option (Time × Nat × Nat) :=
  match w with
  | .agent id _ | .again id => (s.liveReq id).bind fun l => l.coh.map fun m => (l.arrived / 12, m.agent, m.domain)
  | _ => none

/-- A work goes before another that waits: it came in the same cycle, from an agent of lower ID, or of the same ID in a lower
domain. -/
def goesBefore (s : State) (w v : CohWork) : Bool :=
  match arrivalOf s w, arrivalOf s v with
  | some (t, a, d), some (u, b, e) => t == u && (decide (a < b) || (a == b && decide (d < e)))
  | _, _ => false

/-- Put a work in its place in a waiting list: in order of arrival, those of one cycle as R258 orders them. -/
def insertWork {α : Type} (before : α → Bool) (x : α) (l : List α) : List α :=
  let late := (l.reverse.takeWhile before).reverse
  l.take (l.length - late.length) ++ x :: late

/-- A request that cannot start waits in the die's queue, or is turned away. -/
def dieWait (die key : Nat) (work : CohWork) (s : State) : State :=
  let q := Tab.getD s.coh.dieQ die []
  if q.length < 4096 ∨ work = .revoke then
    { s with coh := { s.coh with
        dieQ := Tab.set s.coh.dieQ die (insertWork (fun e => goesBefore s work e.2) (key, work) q) } }
  else cohRetry key 1000 work s

/-- After a transaction: the next of the line's list starts with its tracker, or an entry nobody holds is freed. A work that
needs an entry the line has not got, or a tracker none of which is free, goes with those behind it to the die's queue
(R257, R258). -/
def afterTrans (key : Nat) (t : Trans) (s : State) : State :=
  let s := { s with coh := { s.coh with trans := Tab.del s.coh.trans key } }
  let k := if t.tracker.isSome then t.tracker else freeTracker s t.die
  match t.list with
  | w :: rest =>
    let needsWay := allocates w && (s.entry key).isNone && !lineLost s key
    if k.isNone || (needsWay && wayFor s t.die key != .free) then (w :: rest).foldl (fun s w => dieWait t.die key w s) s
    else startTrans key w k rest s
  | [] =>
    match s.entry key with
    | none => s
    | some e =>
      if e.unheld then s.delEntry key
      else if lineRevoked s key && t.work != .revoke then
        (if k.isNone then dieWait t.die key .revoke s else startTrans key .revoke k [] s)
      else s

/-- One small step of a transaction; answers whether it may go on at once. -/
def cohMicro (key : Nat) (t : Trans) (s : State) : State × Bool :=
  if !t.need.isEmpty || !t.waits.isEmpty || t.reading then (s, false)
  else if t.stage = 0 then
    let s := if invalidates s key t then modEntry key (fun e =>
        if e.st = .shared ∧ e.coarse then e.none_ else e) s else s
    (s.setTrans key { t with stage := 1 }, true)
  else if t.stage = 1 then
    match t.dirty with
    | none => (s.setTrans key { t with stage := if t.stat ≠ 0 || (lineLost s key && !covering s key t) then 4 else 2 }, true)
    | some d =>
      if covering s key t || t.work == .revoke then (s.setTrans key { t with dirty := none }, true)
      else
        let (s, t, sent) := cohMemWrite key 0 d t s
        (s.setTrans key (if sent then { t with dirty := none } else t), t.waits.isEmpty)
  else if t.stage = 2 then
    if !readsMemory s key t then
      let (r, p) := resultOf s key t
      (s.setTrans key { t with stage := 3, result := r, prior := p }, true)
    else
      let (s, t, ok) := cohMemRead key t s
      if t.stat ≠ 0 then (s.setTrans key { t with stage := 4 }, true)
      else if !ok then (s.setTrans key t, false)
      else if readsTimed t then (s.setTrans key { t with reading := true }, false)
      else
        let t := { t with data := some (lineBytes s key t) }
        let (r, p) := resultOf s key t
        (s.setTrans key { t with stage := 3, result := r, prior := p }, true)
  else if t.stage = 3 then
    match t.result with
    | none => (s.setTrans key { t with stage := 4 }, true)
    | some (off, bs) =>
      if t.stat ≠ 0 then (s.setTrans key { t with stage := 4 }, true)
      else
        let (s, t, sent) := cohMemWrite key off bs t s
        (s.setTrans key (if sent then { t with stage := 4 } else t), t.waits.isEmpty)
  else
    let s := transEnd key t s
    (afterTrans key ((s.trans key).getD t) s, true)

/-- Run a line's transactions as far as they go. -/
def cohRun (fuel key : Nat) (s : State) : State :=
  match fuel with
  | 0 => s
  | fuel + 1 =>
    match s.trans key with
    | none => s
    | some t =>
      match cohMicro key t s with
      | (s, true) => cohRun fuel key s
      | (s, false) => s

/-- Enough steps for a line's transaction and the 32 of its list. -/
def lineFuel : Nat := 400

/-! ### Entering the directory (R257, R258) -/

/-- A C_ATOMIC turned away because its line is BUSY counts as contended all the same (R266). -/
def predictBusy (key : Nat) (work : CohWork) (s : State) : State :=
  match work with
  | .agent _ type => if type = 0x04 then (predict key work true s).1 else s
  | _ => s

/-- In hold-only mode an agent's request is never made to wait. -/
def neverWaits (s : State) (dom : Nat) (w : CohWork) : Bool :=
  domMode s dom == 1 && match w with
    | .agent _ _ | .again _ => true
    | _ => false

/-- Bring a work to its line: it starts, waits or is turned away. -/
def cohEnter (key : Nat) (work : CohWork) (s : State) : State :=
  let (die, dom) := lineHome s key
  match s.trans key with
  | some t =>
    if neverWaits s dom work then cohRetry key 500 work (predictBusy key work s)
    else if t.list.length < 32 ∨ work = .revoke then
      s.setTrans key { t with list := insertWork (goesBefore s work) work t.list }
    else cohRetry key 1000 work s
  | none =>
    match freeTracker s die with
    | none => if neverWaits s dom work then cohRetry key 500 work s else dieWait die key work s
    | some k =>
      if (s.entry key).isSome || lineLost s key || !allocates work then cohRun lineFuel key (startTrans key work (some k) [] s)
      else match wayFor s die key with
      | .free => cohRun lineFuel key (startTrans key work (some k) [] s)
      | .recall v =>
        let turn (s : State) : State := if neverWaits s dom work then cohRetry key 500 work s else dieWait die key work s
        turn (cohRun lineFuel v (cohCount 1 3 (lineHome s v).2 die (startTrans v .recall (some k) [] s)))
      | .recalling => if neverWaits s dom work then cohRetry key 500 work s else dieWait die key work s
      | .none_ => if neverWaits s dom work then cohRetry key 500 work s else dieWait die key work s

/-- Waiting requests of a die try again, in order. -/
def retryDie (die : Nat) (s : State) : State :=
  let q := Tab.getD s.coh.dieQ die []
  q.foldl (fun s e => cohEnter e.1 e.2 s) { s with coh := { s.coh with dieQ := Tab.set s.coh.dieQ die [] } }

/-- Lives whose destination granules are still to go to the directory. -/
def enterLines (id : Nat) (s : State) : State :=
  match s.liveReq id with
  | none => s
  | some l => l.lines.foldl (fun s k => cohEnter k (.uncached id) s) s

/-- Send the granules of a request to the directory (R265); `stage` 5, or 7 for what a copy reads. -/
def startLines (id a off len stage : Nat) (s : State) : State :=
  match s.liveReq id with
  | none => s
  | some l =>
    let ls := rangeLines a off len
    let l := { l with stage := stage, lines := ls, segs := [] }
    let segs := ls.flatMap fun k =>
      let g := granule s l k
      let tile := keyLine k / 16
      let start := 256 * (keyLine k % 16) + g.2.1
      let first := if l.kind.pieces then min g.2.2 (4096 - g.1 % 4096) else g.2.2
      ({ off := g.1, tile := tile, start := start, len := first, sip := true } : Seg) ::
        (if first < g.2.2 then [{ off := g.1 + first, tile := tile, start := start + first, len := g.2.2 - first, sip := true }] else [])
    let s := s.setLive id { l with segs := segs }
    if ls.isEmpty then advance id s else enterLines id s

/-- Copies that have gathered what they copy go on to their coherent destination. -/
def startGathered (s : State) : State :=
  ((s.mem.live.filter fun e => e.2.stage == 6).map (·.1)).foldl (fun s id =>
    match s.liveReq id with
    | none => s
    | some l => startLines id l.allot (l.req.pva - (s.allot l.allot).elim 0 (·.pva)) l.req.length 5 s) s

/-- Everything the directory can do at once: waiting requests try again while anything changes. -/
def cohSettle (s : State) : State :=
  let go (s : State) : State := startGathered (retryDie 1 (retryDie 0 s))
  (List.range 4).foldl (fun s _ =>
    if (Tab.getD s.coh.dieQ 0 []).isEmpty && (Tab.getD s.coh.dieQ 1 []).isEmpty && !(s.mem.live.any fun e => e.2.stage == 6)
    then s else go s) s

/-! ### Requests from agents (R253, R264) -/

/-- A request from an agent that has been released goes to its line. -/
def agentRequest (id key type : Nat) (s : State) : State :=
  match (s.liveReq id).bind (·.coh) with
  | none => s
  | some _ => cohSettle (cohEnter key (.agent id type) s)

/-- The stored final message of a duplicate of a request of TYPE `type` (R264). -/
def findResult (s : State) (type : Nat) (m : CohMsg) : Option CohResult :=
  s.coh.results.find? fun r => r.domain == m.domain && r.agent == m.agent && r.txn == m.txn && r.req == type

/-- Set a bit of COH_STATUS [31:29] of a die; `bit` 0 is [29]. -/
def cohStatus (die bit : Nat) (s : State) : State :=
  ({ s with coh := { s.coh with status := Tab.set s.coh.status die (setBit (Tab.getD s.coh.status die 0) bit) } }).mark
    (Reg.coh die) (29 + bit)

/-- Checks of R253 that cannot be answered: 1 source, 2 generation. Answers whether the message goes on. -/
def cohAccept (m : CohMsg) (s : State) : State × Bool :=
  match s.agent m.domain m.agent with
  | some g =>
    if g.addr ≠ m.srcIp ∨ g.qpn ≠ m.srcQp then
      (cohStatus m.die 0 (s.count (gk 5 3 0 m.die) 1), false)
    else if g.gen ≠ m.agen ∨ !g.live then (s.count (gk 5 3 1 m.die) 1, false)
    else (s, true)
  | none => (cohStatus m.die 0 (s.count (gk 5 3 0 m.die) 1), false)

/-- The line of a message: its PVA in a COHERENT allotment of the domain, translated under the levee of the STEER entry it
came by and under its version (R253, 06 R185). -/
def cohLine (m : CohMsg) (s : State) : Option Nat :=
  (translate s m.ver m.levee m.pva 256).bind fun a => (s.allot a).bind fun x =>
    if x.coherent && x.domain == m.domain && m.pva % 256 == 0 then some (lineKey a ((m.pva - x.pva) / 256)) else none

/-! ### Answers to snoops and write-backs (R260, R263) -/

/-- An agent's snoop is answered. -/
def snoopAnswered (sk : Nat) (n : Snoop) (data : Option Bytes) (wbSent : Bool) (s : State) : State :=
  let s := { s with coh := { s.coh with snoops := Tab.del s.coh.snoops sk } }
  match s.trans n.line with
  | none => s
  | some t =>
    let s := modEntry n.line (fun e =>
      if n.type = 0x22 then
        (if e.st = .owned ∧ e.owner = n.agent then (if wbSent then e.none_ else { e.none_ with ptrs := [n.agent] }) else e)
      else e.drop n.agent) s
    let t := { t with
      need := t.need.filter (· != n.agent), wbSent := t.wbSent || wbSent,
      dirty := if n.type = 0x20 then t.dirty else if data.isSome then data else t.dirty }
    cohSettle (cohRun lineFuel n.line (s.setTrans n.line t))

/-- C_SNP_DATA and C_SNP_ACK. -/
def snoopReply (m : CohMsg) (data : Option Bytes) (s : State) : State :=
  match cohAccept m s with
  | (s, false) => s
  | (s, true) =>
    match cohLine m s with
    | none => cohCount 2 2 m.domain m.die s
    | some key =>
      let sk := snoopKey (lineHome s key).1 (m.snoopId % 16384) m.agent
      match Tab.get? s.coh.snoops sk with
      | none => s
      | some n =>
        if n.line ≠ key ∨ n.sent.isNone then s
        else if data.isNone && bitOf m.flags 0 then
          if n.gotWb then snoopAnswered sk n none true s
          else { s with coh := { s.coh with snoops := Tab.set s.coh.snoops sk { n with awaitWb := true } } }
        else snoopAnswered sk n data n.gotWb s

/-- `a` is later than `b` modulo 2^16 over a window of 32,768. -/
def laterTxn (a b : Nat) : Bool :=
  let d := (a % 65536 + 65536 - b % 65536) % 65536
  decide (0 < d) && decide (d < 32768)

/-- An accepted C_WB while a transaction holds the line: its data is written before the transaction reads or writes memory,
which it does anew; once the transaction's own write is out, after it (R260). -/
def takeWb (key : Nat) (t : Trans) (m : CohMsg) (s : State) : State :=
  if t.stage ≤ 3 ∧ !(t.stage = 3 ∧ !t.waits.isEmpty) then
    s.setTrans key { t with
      dirty := some (slice m.data 0 256), stage := min t.stage 1, data := none, result := none, image := none, reading := false }
  else s.setTrans key { t with list := .wb m :: t.list }

/-- C_WB (R260, R263). -/
def writeBackLine (m : CohMsg) (s : State) : State :=
  match cohAccept m s with
  | (s, false) => s
  | (s, true) =>
    match cohLine m s with
    | none => cohCount 2 2 m.domain m.die s
    | some key =>
      let die := (lineHome s key).1
      let ack (s : State) : State := sendCoh die m.domain m.agent 0x3A 0 0 m.txn 0 0 m.pva [] s
      if lineRevoked s key then
        let sk := ((s.trans key).bind (·.tracker)).elim 0 fun k => snoopKey die k m.agent
        match Tab.get? s.coh.snoops sk with
        | some n =>
          if n.line ≠ key then ack s
          else if n.awaitWb then snoopAnswered sk n none true (ack s)
          else ack { s with coh := { s.coh with snoops := Tab.set s.coh.snoops sk { n with gotWb := true } } }
        | none => ack s
      else
        match s.entry key with
        | some e =>
          if e.st == .owned && e.owner == m.agent && laterTxn m.txn e.ownTxn then
            match s.trans key with
            | none => cohSettle (cohRun lineFuel key (startTrans key (.wb m) none [] (s.setEntry key e.none_)))
            | some t =>
              let s := ack (takeWb key t m (s.setEntry key e.none_))
              let sk := t.tracker.elim 0 fun k => snoopKey die k m.agent
              match Tab.get? s.coh.snoops sk with
              | some n =>
                if n.line ≠ key then cohSettle (cohRun lineFuel key s)
                else if n.awaitWb then snoopAnswered sk n none true s
                else { s with coh := { s.coh with snoops := Tab.set s.coh.snoops sk { n with gotWb := true } } }
              | none => cohSettle (cohRun lineFuel key s)
          else ack (cohCount 2 1 m.domain die s)
        | none => ack (cohCount 2 1 m.domain die s)

/-- HOLD_WINDOW_EXPIRY: snoops held back may be sent (R267). -/
def holdExpiry (die key : Nat) (s : State) : State :=
  let ks := (s.coh.snoops.filter fun e => e.2.die == die && e.2.line == key && e.2.sent.isNone &&
    !holding s e.2.domain key e.2.agent).map (·.1)
  ks.foldl (fun s k => emitSnoop k s) s

/-- MEMORY_READ_COMPLETE: a transaction's memory read ends (R259). -/
def memoryRead (die key : Nat) (s : State) : State :=
  match s.trans key with
  | none => s
  | some t =>
    if t.reading && t.die == die then
      let t := { t with reading := false, data := some (lineBytes s key t) }
      let (r, p) := resultOf s key t
      cohSettle (cohRun lineFuel key (s.setTrans key { t with stage := 3, result := r, prior := p }))
    else s

/-! ### Trays and tiles a transaction waits for -/

/-- Drop a token from what transactions wait for and run their lines. -/
def transToken (tok : Nat) (ok : Bool) (s : State) : State :=
  let ks := (s.coh.trans.filter fun e => e.2.waits.contains tok).map (·.1)
  ks.foldl (fun s k =>
    match s.trans k with
    | some t => cohRun lineFuel k (s.setTrans k { t with
        waits := t.waits.filter (· != tok), stat := if ok then t.stat else St.internal })
    | none => s) s

/-- Something that requests and transactions wait for is there. -/
def tokensDone (tok : Nat) (ok : Bool) (s : State) : State := cohSettle (transToken tok ok (tokenDone tok ok s))

/-- A tray read of a line is answered (R230, 13 R434). -/
def cohReadAnswered (key opId : Nat) (op : TrayOp) (d : Bytes) (s : State) : State :=
  match s.trans key, s.allot (keyAllot key) with
  | some t, some x =>
    let tile := keyLine key / 16
    let off := 256 * (keyLine key % 16)
    if s.confidential x.levee then
      match openImage s x tile d with
      | some pt =>
        let t := { t with image := some pt, data := if t.stage = 2 then some (slice pt off 256) else t.data }
        tokensDone (opToken opId) true (s.setTrans key t)
      | none =>
        if op.again then tokensDone (opToken opId) false (gcmFail x 6 op.tray op.addr s)
        else
          match cohTrayRead key true s with
          | (s, some k) => s.setTrans key { t with waits := t.waits.filter (· != opToken opId) ++ [k] }
          | (s, none) => tokensDone (opToken opId) false s
    else
      let t := { t with data := if t.stage = 2 then some (slice d 0 256) else t.data }
      tokensDone (opToken opId) true (s.setTrans key t)
  | _, _ => s

/-- A tray write of a line is acknowledged; of a REPLICATED allotment the replica's follows. -/
def cohWriteAnswered (key opId : Nat) (op : TrayOp) (s : State) : State :=
  match s.trans key, s.allot (keyAllot key) with
  | some t, some x =>
    if x.replicated && op.tray == x.tray && !s.trayDown x.replica then
      let (s, k) := issueOp { op with tray := x.replica, addr := x.repOff + (op.addr - x.trayOff), at_ := s.now } s
      s.setTrans key { t with waits := t.waits.filter (· != opToken opId) ++ [opToken k] }
    else tokensDone (opToken opId) true s
  | _, _ => s

/-! ### Dropping requests (R268, R189) -/

/-- Remove every work of a live request from queues and lines; a transaction in progress ends without it. -/
def cohDetach (id : Nat) (s : State) : State :=
  let mine (w : CohWork) : Bool := w == .uncached id || w == .again id ||
    match w with
    | .agent i _ => i == id
    | _ => false
  let s := { s with coh := { s.coh with
    dieQ := Tab.mapVals s.coh.dieQ (fun _ q => q.filter fun e => !mine e.2),
    trans := Tab.mapVals s.coh.trans fun _ t =>
      { t with
               list := t.list.filter fun w => !mine w, work := if mine t.work then .dropped else t.work,
               result := if mine t.work then none else t.result, reading := t.reading && !mine t.work } } }
  let ks := (s.coh.trans.filter fun e => e.2.work == .dropped).map (·.1)
  ks.foldl (fun s k => cohRun lineFuel k s) s

/-- Mark a line LOST (R269). -/
def markLost (key : Nat) (s : State) : State :=
  let die := (lineHome s key).1
  let n := (s.coh.lost.filter fun k => (lineHome s k).1 == die).length
  if n < 2097152 then
    { s with coh := { s.coh with lost := s.coh.lost ++ [key], dir := Tab.del s.coh.dir key } }
  else cohStatus die 2 (modEntry key (fun e => { e.none_ with st := .lost }) s)

/-- What AGENT_DEAD did: lines dropped, lines lost, snoops abandoned. -/
structure DeadCount where
  dropped : Nat
  lost : Nat
  snoops : Nat
deriving DecidableEq, Repr

/-- An agent is declared dead (R268). -/
def agentDead (dom a : Nat) (s : State) : State × DeadCount :=
  let s := { s with coh := { s.coh with
    domains := Tab.upd s.coh.domains dom fun d => { d with agents := Tab.upd d.agents a fun g => { g with live := false } },
    results := s.coh.results.filter fun r => !(r.domain == dom && r.agent == a) } }
  let mine (l : Live) : Bool := l.coh.elim false fun m => m.domain == dom && m.agent == a
  -- 1: its requests are dropped, held ones too
  let held := s.mem.hosts.flatMap fun h => h.hold.filter mine
  let s := held.foldl (fun s l => s.inflightSub 9 l.req.ver) s
  let s := { s with mem := { s.mem with
    hosts := s.mem.hosts.map fun (h : HostState) => { h with hold := h.hold.filter fun l => !mine l } } }
  let ids := (s.mem.live.filter fun e => mine e.2).map (·.1)
  let s := ids.foldl (fun s id => endLive id (cohDetach id s)) s
  -- 3, 4: its lines
  let inDom (k : Nat) : Bool := (lineHome s k).2 == dom
  let sh := (s.coh.dir.filter fun e => inDom e.1 && e.2.st == .shared && !e.2.coarse && e.2.ptrs.contains a).map (·.1)
  let ow := (s.coh.dir.filter fun e => inDom e.1 && e.2.st == .owned && e.2.owner == a).map (·.1)
  let s := sh.foldl (fun s k =>
    let s := modEntry k (·.drop a) s
    if (s.trans k).isNone && (s.entry k).elim false (·.unheld) then s.delEntry k else s) s
  let s := ow.foldl (fun s k => markLost k s) s
  -- 2: its snoops count as answered
  let sn := s.coh.snoops.filter fun e => e.2.domain == dom && e.2.agent == a
  let s := sn.foldl (fun s e => snoopAnswered e.1 e.2 none e.2.gotWb s) s
  let s := ow.foldl (fun s k => cohRun lineFuel k s) s
  (cohSettle s, ⟨sh.length, ow.length, sn.length⟩)

/-! ### Revocation (R270) -/

/-- ALLOT_REVOKE commits on a COHERENT allotment: holders are invalidated, lost marks and entries go. -/
def revokeLines (a : Nat) (s : State) : State :=
  let s := { s with coh := { s.coh with lost := s.coh.lost.filter fun k => keyAllot k != a } }
  let ks := (s.coh.dir.filter fun e => keyAllot e.1 == a).map (·.1)
  cohSettle (ks.foldl (fun s k =>
    match s.trans k, s.entry k with
    | none, some e => if e.st = .lost then s.delEntry k else cohEnter k .revoke s
    | _, _ => s) s)

/-! ### Commands (R247, R248, R250, R267, R268) -/

def bodyDomainCreate (r : KReq) (s : State) : Ans :=
  let p := par r
  let levee := be p 0 2 % 1024
  checks s [(plen r != 16, St.badLength), (leveeBad s levee || decide (2 < byteAt p 2) || decide (7 < byteAt p 3), St.badParam),
      (s.retiring levee, St.busy), ((Tab.lowestFree s.coh.domains 64).isNone, St.exhausted)] fun _ =>
    let d := (Tab.lowestFree s.coh.domains 64).getD 0
    done { s with coh := { s.coh with domains := Tab.set s.coh.domains d { levee := levee, mode := byteAt p 2, tc := byteAt p 3 } } }
      [toBe 1 d ++ zeros 7]

def execDomainCreate (t : Time) (r : KReq) (s : State) : Host.Outcome State Fault Refusal := command 0x0701 bodyDomainCreate t r s

/-- AGENT_ADD (R248). Its parameters name no levee, so a guard record names the header's (02 R80). -/
def bodyAgentAdd (r : KReq) (s : State) : Ans :=
  let p := par r
  let d := byteAt p 0
  let af := byteAt p 1
  let ip : Ip := ⟨af, be p 4 16⟩
  let qpn := be p 20 3
  match s.domain d with
  | none => refuse s (if plen r = 24 then St.badParam else St.badLength)
  | some x =>
    let liveT := x.agents.filter fun e => e.2.live
    checks s [(plen r != 24, St.badLength), (!(af == 4 || af == 6) || (af == 4 && be p 4 12 != 0), St.badParam),
        (liveT.any fun e => e.2.addr == ip && e.2.qpn == qpn, St.badParam), (s.retiring x.levee, St.busy),
        (decide (4096 ≤ liveT.length), St.exhausted)] fun _ =>
      if s.addrFenced ip && !s.inLock (fun d => byteAt d 4 == ip.af && be d 16 16 == ip.val) then guardReject s r r.levee 11
      else
        let a := (Tab.lowestFree liveT 4096).getD 0
        let k := d * 4096 + a
        let gen := (Tab.get? s.coh.lastGen k).elim 0 fun g => (g + 1) % 65536
        let g : Agent := { gen := gen, addr := ip, qpn := qpn, live := true }
        let x := { x with agents := Tab.set x.agents a g }
        done { s with coh := { s.coh with
          lastGen := Tab.set s.coh.lastGen k gen, domains := Tab.set s.coh.domains d x } } [toBe 2 a ++ toBe 2 gen ++ zeros 4]

def execAgentAdd (t : Time) (r : KReq) (s : State) : Host.Outcome State Fault Refusal := command 0x0702 bodyAgentAdd t r s

def bodyAgentDead (r : KReq) (s : State) : Ans :=
  let p := par r
  let d := byteAt p 0
  let a := be p 2 2
  checks s [(plen r != 8, St.badLength), (!((s.agent d a).elim false (·.live)), St.badParam)] fun _ =>
    let (s, n) := agentDead d a s
    let rp := toBe 4 n.dropped ++ toBe 4 n.lost ++ toBe 4 n.snoops ++ zeros 4
    { defer s (.dead d a) with after := fun s => s.workDone (fun w => w == .dead d a) St.ok [rp] }

def execAgentDead (t : Time) (r : KReq) (s : State) : Host.Outcome State Fault Refusal := command 0x0703 bodyAgentDead t r s

def bodyDomainModeSet (r : KReq) (s : State) : Ans :=
  let p := par r
  let d := byteAt p 0
  checks s [(plen r != 8, St.badLength), ((s.domain d).isNone || decide (2 < byteAt p 1), St.badParam)] fun _ =>
    done { s with coh := { s.coh with domains := Tab.upd s.coh.domains d fun x => { x with mode := byteAt p 1 } } }

def execDomainModeSet (t : Time) (r : KReq) (s : State) : Host.Outcome State Fault Refusal := command 0x0704 bodyDomainModeSet t r s

def bodyDomainQuery (r : KReq) (s : State) : Ans :=
  let d := byteAt (par r) 0
  match s.domain d with
  | none => refuse s (if plen r = 8 then St.badParam else St.badLength)
  | some x =>
    let own := (tenant r).elim true fun l => x.levee == l
    let inDom (k : Nat) : Bool := (lineHome s k).2 == d && (s.allot (keyAllot k)).isSome
    checks s [(plen r != 8, St.badLength), (!own, St.badParam)] fun _ =>
      done s [toBe 1 x.mode ++ toBe 1 x.tc ++ toBe 2 x.levee ++ toBe 2 (liveAgents s d).length ++
        toBe 2 (s.mem.allots.filter fun e => e.2.coherent && e.2.domain == d).length ++
        toBe 4 (s.coh.dir.filter fun e => inDom e.1).length ++
        toBe 4 ((s.coh.lost.filter inDom).length + (s.coh.dir.filter fun e => inDom e.1 && e.2.st == .lost).length)]

def execDomainQuery (t : Time) (r : KReq) (s : State) : Host.Outcome State Fault Refusal := command 0x0705 bodyDomainQuery t r s

/-! ### Events on tiles -/

/-- FILL_COMPLETE: the tile's bytes arrive, and what waited for them is served (07 R218). -/
def fillComplete (a tile : Nat) (d : Bytes) (s : State) : State :=
  match fillArrived a tile d s with
  | (s, some ok) => pinProgress (tokensDone (tileKey a tile) ok s)
  | (s, none) => s

/-- PREFETCH_COMPLETE: every outstanding tile of the page arrives; images stand one after another. -/
def prefetchComplete (a page : Nat) (d : Bytes) (s : State) : State :=
  let n := (s.allot a).elim 4096 (imageLen s)
  (List.range 16).foldl (fun s i =>
    if tileFilling s a (16 * page + i) then fillComplete a (16 * page + i) (slice d (n * i) n) s else s) s

/-- WRITE_BACK_COMPLETE: the tray acknowledges the write of a tile. -/
def writeBackComplete (a tile : Nat) (s : State) : State :=
  match wbOp s a tile with
  | some (id, op) =>
    let rep := match op.use with
      | .writeBack _ _ r => r
      | _ => false
    pinProgress (wbAcked a tile rep (delOp id s))
  | none => s

/-- PAGE_EXPANSION: a compressed page that a write waits for expands (R223). -/
def pageExpansion (a page : Nat) (s : State) : State :=
  if (s.page a page).elim false (·.expanding) then
    match expandPage a page s with
    | (s, true) => tokensDone (expandToken a page) true s
    | (s, false) => s
  else s

/-- HBM_UNCORRECTABLE: a clean tile of a TRAY allotment is fetched again, any other is poisoned (R221). -/
def hbmUncorrectable (a tile : Nat) (s : State) : State :=
  match s.allot a with
  | none => s
  | some x =>
    if !tileValid s a tile then s
    else
      let dirty := (s.page a (tile / 16)).elim true fun p => p.dirty.getLsbD (tile % 16)
      if x.place = 0 ∨ dirty then hbmRecord a tile 2 (poisonTile a tile s)
      else
        let s := s.modPage a (tile / 16) fun p => { p with valid := clearBit p.valid (tile % 16) }
        hbmRecord a tile 1 (startFill a tile false s)

end Sys2Proof.Machine
end

