-- ==== Sys2Proof/Machine/Requests.lean ====
section
/-! DEFINITION. Pool requests from arrival to the home engine: limits, translation, water rights, duplicate detection, the
home journal, standard RDMA, coherence requests, phases between switches, and revocation (06 R179–R213, 08 R253, R254). -/

namespace Sys2Proof.Machine

/-! ### Admission at the ingress engine (06 R180, R185, R189, R194, 07 R231, R237, 11 R356) -/

/-- Limits of Table MEM-5. -/
def limitsOk (k : ReqKind) (r : PoolReq) : Bool :=
  let n := r.length
  decide (r.pva < 2 ^ 52) &&
  match k with
  | .read => decide (1 ≤ n) && decide (n ≤ 65536)
  | .write => decide (1 ≤ n) && decide (n ≤ 4096) && r.data.length == n
  | .atomic => n == 8 && r.pva % 8 == 0 && decide (r.op ≤ 2)
  | .copy => decide (1 ≤ n) && decide (n ≤ 16777216) && r.pva % 256 == 0 && be r.data 0 8 % 256 == 0 && decide (be r.data 0 8 < 2 ^ 52)
  | _ => true

/-- The source of a P_COPY lies on another switch. -/
def remoteCopy (s : State) (k : ReqKind) (r : PoolReq) : Bool := k == .copy && byteAt r.data 8 != s.sw.switchId.toNat

/-- The request writes its own range. -/
def writesRange (k : ReqKind) : Bool :=
  match k with
  | .read | .rdmaRead | .coh _ => false
  | _ => true

/-- A status that an allotment's state, group or trays give every new request. -/
def allotStatus (s : State) (a : Nat) : Nat :=
  match s.allot a with
  | none => St.badParam
  | some x =>
    if x.st == .revoking || x.st == .releasing then St.extentRevoked
    else if x.work.isSome then St.badParam
    else if allotFenced s x then St.fenced else St.ok

/-- A window is reached as Table CIS-6 allows; of a copy the handle serves one side (R237). -/
def windowsOk (s : State) (k : ReqKind) (r : PoolReq) (a : Nat) (src : Option Nat) : Bool :=
  let off (b pva : Nat) : Nat := pva - (s.allot b).elim 0 (·.pva)
  let h := if bitOf r.flags 0 then some r.handle else none
  match src with
  | none => reach s a (off a r.pva) r.length r.levee h (writesRange k) != .bad
  | some b =>
    let spva := be r.data 0 8
    let dst := (regionOf s a).isSome
    let same := dst && (regionOf s a).map (·.1) == (regionOf s b).map (·.1) && h.isSome
    !same && reach s a (off a r.pva) r.length r.levee (if dst then h else none) true != .bad &&
      reach s b (off b spva) r.length r.levee (if dst then none else h) false != .bad

/-- Judge a request: (status, allotment, source allotment). -/
def judge (k : ReqKind) (r : PoolReq) (s : State) : Nat × Nat × Option Nat :=
  if !limitsOk k r then (St.badParam, 0, none)
  else match translate s r.ver r.levee r.pva r.length with
  | none => (St.badParam, 0, none)
  | some a =>
    if k = .copy ∧ !remoteCopy s k r then
      match translate s r.ver r.levee (be r.data 0 8) r.length with
      | none => (St.badParam, a, none)
      | some b =>
        let st := if allotStatus s a ≠ St.ok then allotStatus s a else allotStatus s b
        if st ≠ St.ok then (st, a, some b)
        else (if windowsOk s k r a (some b) then St.ok else St.badParam, a, some b)
    else
      let st := allotStatus s a
      let far := byteAt r.data 8
      if st ≠ St.ok then (st, a, none)
      else if remoteCopy s k r && (s.switchFenced far || s.compFenced r.levee 4 far) then (St.fenced, a, none)
      else (if windowsOk s k r a none then St.ok else St.badParam, a, none)

/-! ### The home engine (R201, R202, R211) -/

/-- Where a SEQ lies in a context's window (R202). -/
def ctxPos (high seq : Nat) : WinPos :=
  let d := (seq % 2 ^ 48 + 2 ^ 48 - high % 2 ^ 48) % 2 ^ 48
  if d = 0 ∨ 2 ^ 48 - 255 ≤ d then .inside else if d < 2 ^ 47 then .above else .below

def findCtx (s : State) (die levee : Nat) (host : Ip) (q : Nat) : Option QCtx :=
  s.mem.ctxs.find? fun c => c.die == die && c.levee == levee && c.host == host && c.queue == q

def putCtx (c : QCtx) (s : State) : State :=
  { s with mem := { s.mem with
      ctxs := s.mem.ctxs.filter (fun x => !(x.die == c.die && x.levee == c.levee && x.host == c.host && x.queue == c.queue)) ++ [c] } }

/-- End a request that is answered without executing. -/
def endWith (id st prior : Nat) (s : State) : State :=
  match s.liveReq id with
  | none => s
  | some l =>
    if l.flume.isSome then finishLive id st s else
    let s := match l.kind with
      | .read => rejectReq l.req .read l.rdma st l.held s
      | _ => reply l.req l.kind l.rdma st l.held false false noSource 0
          (if isAtomic l then toBe 8 (if st = St.ok then prior else 0) else []) s
    endLive id s

/-- Multi-phase: a copy from another switch, or a write to a REPLICATED allotment (R211). -/
def multiPhase (s : State) (l : Live) : Bool :=
  remoteCopy s l.kind l.req || (writesRange l.kind && (s.allot l.allot).elim false (·.replicated))

/-- The members of a multi-phase request: its trays, or the switches of a copy. -/
def phaseMembers (s : State) (l : Live) : List Nat :=
  if remoteCopy s l.kind l.req then [256 + byteAt l.req.data 8, 256 + s.sw.switchId.toNat]
  else (s.allot l.allot).elim [] fun x => [x.tray, x.replica]

/-- Opcode of a vendor request (Table MEM-3). -/
def reqOp (k : ReqKind) : Nat :=
  match k with
  | .read => 0xC0
  | .write => 0xC1
  | .atomic => 0xC2
  | .copy => 0xC3
  | _ => 0

/-- The header of a message of this home about a journal entry (Table MEM-13). -/
def journalMsg (s : State) (j : Journal) (arg : Bytes) : PhaseMsg :=
  let me := s.sw.switchId.toNat
  { src := me, home := me, phase := j.phase, epoch := j.epoch, levee := j.levee, queue := j.queue, seq := j.seq, holds := 0,
    status := 0, arg := arg, data := [] }

/-- What the source phase of a copy asks for: SRC_PVA and LENGTH, in the part's own layout of ARG (R212). -/
def sourceArg (s : State) (j : Journal) : Bytes :=
  (j.live.bind s.liveReq).elim (zeros 16) fun l => Config.phaseArg (be l.req.data 0 8) l.req.length

/-- Issue the source phase of a copy from another switch. -/
def sendPhase (j : Journal) (s : State) : State :=
  s.emit (.phase 0xD8 (j.owner - 256) (journalMsg s j (sourceArg s j)).bytes)

/-- The trays of one of a request's allotments cannot be reached (07 R231). -/
def cutOff (s : State) (l : Live) : Bool :=
  (s.allot l.allot).elim false (allotFenced s) || l.src.elim false fun b => (s.allot b).elim false (allotFenced s)

/-- Begin the work of an accepted request. One that has waited is judged again by its trays: it is FENCED where they cannot
be reached now (07 R231). -/
def serveReq (id : Nat) (s : State) : State :=
  match s.liveReq id with
  | none => s
  | some l =>
    match s.allot l.allot with
    | none => endWith id St.extentRevoked 0 s
    | some x =>
      if cutOff s l then endWith id St.fenced 0 (fencedCount l.req.levee l.home (ctxDone l St.fenced s)) else
      let go (s : State) : State :=
        match l.kind with
        | .copy =>
          match l.src with
          | none => s
          | some b =>
            if (s.allot b).elim false (·.coherent) then
              cohSettle (startLines id b (be l.req.data 0 8 - (s.allot b).elim 0 (·.pva)) l.req.length 7 s)
            else cohSettle (startLive id s)
        | _ => if x.coherent then cohSettle (startLines id l.allot (l.req.pva - x.pva) (reqLen l) 5 s) else startLive id s
      if multiPhase s l then
        let ms := phaseMembers s l
        let j : Journal :=
          { die := x.home, levee := l.req.levee, host := reqHost l.req, queue := l.req.queue, seq := l.req.seq,
            opcode := reqOp l.kind, phase := 0, members := ms, owner := ms.headD 0, epoch := 0,
            deadline := s.now + phaseTicks s, live := some id, allot := l.allot, tile := 0 }
        match openJournal j s with
        | none => endWith id St.exhausted 0 (ctxDone l St.exhausted s)
        | some (s, k) =>
          let s := s.setLive id { l with journal := some k }
          go (if remoteCopy s l.kind l.req then sendPhase j s else s)
      else go s

/-- A REGION_PUBLISH that waits to be executed names a handle's slot, and arrived at or before `at_`. -/
def pubQueued (s : State) (slot : Nat) (at_ : Time) : Bool :=
  (s.kry.urgent ++ s.kry.normal).any fun w =>
    w.req.opcode == 0x0604 && decide (w.arrived ≤ at_) && hKey (be (w.req.frags.headD []) 8 8) == slot &&
      (findHandle s (be (w.req.frags.headD []) 8 8) w.req.levee).isSome

/-- The request names the handle of a publication that arrived before it and has not committed (07 R242). -/
def pubHeld (s : State) (l : Live) : Bool :=
  bitOf l.req.flags 0 && (pubQueued s (hKey l.req.handle) l.arrived ||
    s.cis.pub.elim false fun p => hKey l.req.handle == p.handle && decide (p.arrived ≤ l.arrived))

/-- A request before it on the same RDMA queue pair is still under way (R208). -/
def qpBusy (s : State) (id : Nat) (l : Live) : Bool :=
  match l.rdma with
  | none => false
  | some q => s.mem.live.any fun e => decide (e.1 < id) && e.2.rdma.elim false fun p => p.die == q.die && p.qpn == q.qpn

/-- Accept a request at its home engine. -/
def acceptReq (id : Nat) (s : State) : State :=
  match s.liveReq id with
  | none => s
  | some l =>
    let l := { l with arrived := s.now }
    let s := s.setLive id l
    let begin_ (s : State) : State :=
      if pubHeld s l then s.setLive id { l with stage := 9 }
      else if qpBusy s id l then s.setLive id { l with stage := 8 }
      else serveReq id s
    if l.rdma.isSome then begin_ s
    else
      let r := l.req
      let c : QCtx := { die := l.home, levee := r.levee, host := reqHost r, queue := r.queue, high := r.seq, done := [], live := [r.seq], last := s.now }
      match findCtx s l.home r.levee (reqHost r) r.queue with
      | none =>
        if 65536 ≤ (s.mem.ctxs.filter fun c => c.die == l.home).length then endWith id St.exhausted 0 s
        else begin_ (putCtx c s)
      | some c =>
        let c := { c with last := s.now }
        let take : QCtx :=
          let h := if ctxPos c.high r.seq == .above then r.seq else c.high
          { c with high := h, live := c.live ++ [r.seq], done := c.done.filter fun e => e.1 != r.seq && ctxPos h e.1 == .inside }
        match ctxPos c.high r.seq with
        | .below => endLive id ((putCtx c s).count (gk 3 2 2 l.home) 1)
        | .above => begin_ (putCtx take s)
        | .inside =>
          if c.live.contains r.seq then endLive id ((putCtx c s).count (gk 3 2 1 l.home) 1)
          else match Tab.get? c.done r.seq with
          | none => begin_ (putCtx take s)
          | some o =>
            if l.kind = .read then begin_ (putCtx take s)
            else endWith id o.status o.prior ((putCtx c s).count (gk 3 2 0 l.home) 1)

/-! ### Water rights (R205) -/

/-- Bytes a request is charged. -/
def chargeOf (l : Live) : Nat :=
  match l.kind with
  | .atomic | .rdmaAtomic => 8
  | .coh _ => 256
  | _ => l.req.length

/-- Release a request: debit, in-flight counts, and on to the home engine. -/
def releaseReq (l : Live) (h : HostState) (s : State) : State :=
  let id := s.mem.nextLive
  let s := setHost { h with tokens := h.tokens - ((chargeOf l * wrUnit : Nat) : Int), inflight := h.inflight + 1 } s
  let inc (a : Allot) : Allot := { a with inflight := a.inflight + 1 }
  let s := s.modAllot l.allot inc
  let s := match l.src with
    | some b => if b = l.allot then s else s.modAllot b inc
    | none => s
  let s := if l.home = l.req.die then s else meshDeliver l.home s
  let s := { s with mem := { s.mem with nextLive := id + 1, live := Tab.set s.mem.live id l } }
  match l.kind, l.coh with
  | .coh op, some m =>
    match s.allot l.allot with
    | some x =>
      let key := lineKey l.allot ((m.pva - x.pva) / 256)
      if allotFenced s x then cohFinal id key 0x39 0 St.fenced 0 [] s else agentRequest id key op s
    | none => endLive id s
  | _, _ => acceptReq id s

/-- The water right: release now, hold, or turn away. -/
def waterRight (l : Live) (s : State) : State :=
  let r := l.req
  let right := rightOf s r.die r.levee (reqHost r)
  let h := (hostOf s r.die r.levee (reqHost r)).fill right s.now
  let s := s.inflightAdd 9 r.ver
  if h.hold.isEmpty && mayRelease right h then releaseReq l h s
  else if 64 ≤ h.hold.length then
    let s := (setHost h s).count (gk 3 1 1 r.levee r.die) 1
    let s := match l.kind, l.coh with
      | .coh _, some m => sendCoh l.home m.domain m.agent 0x39 0 St.busy m.txn 0 0 m.pva [] s
      | _, _ => rejectReq r l.kind l.rdma St.busy true s
    s.inflightSub 9 r.ver
  else (setHost { h with hold := h.hold ++ [{ l with held := true }] } s).count (gk 3 1 0 r.levee r.die) 1

/-- WATER_RIGHT_RELEASE: the oldest held request goes once the right allows. -/
def rightRelease (die levee : Nat) (host : Ip) (s : State) : State :=
  let right := rightOf s die levee host
  let h := (hostOf s die levee host).fill right s.now
  match h.hold with
  | [] => s
  | l :: rest => if mayRelease right h then releaseReq l { h with hold := rest } s else setHost h s

/-! ### Settling -/

/-- RDMA requests whose turn has come start. -/
def startTurns (s : State) : State :=
  (s.mem.live.filter fun e => e.2.stage == 8).foldl (fun s e =>
    match s.liveReq e.1 with
    | some l => if l.stage = 8 ∧ !qpBusy s e.1 l then serveReq e.1 (s.setLive e.1 { l with stage := 0 }) else s
    | none => s) s

/-- Requests that what they waited for lets go on are planned anew (07 R230, R238). -/
def planAnew (s : State) : State :=
  (s.mem.live.filter fun e => decide (10 ≤ e.2.stage)).foldl (fun s e =>
    match s.liveReq e.1 with
    | some l =>
      if !l.waits.isEmpty then s
      else if l.stage = 10 ∨ l.stage = 13 then startLive e.1 (s.setLive e.1 { l with stage := 0, segs := [] })
      else if l.stage = 11 then planWrite e.1 l s
      else if l.stage = 12 then startWrite e.1 (copyFuel l) { l with stage := 1 } s
      else s
    | none => s) s

/-- What stands for a change of a tile or for the copy of a block is over: nobody makes it any more. -/
def holdOver (s : State) (tok : Nat) : Bool :=
  if 2 ^ 84 ≤ tok then
    !s.mem.live.any fun e => e.2.cow.elim false fun c => cowToken c.slot c.block == tok
  else decide (2 ^ 83 ≤ tok) && (Tab.get? s.mem.locks (tok - 2 ^ 83)).isNone

/-- A lock whose owner is no longer changing its tile: the request has ended, the line's transaction has written. -/
def lockStale (s : State) (owner : Nat) : Bool :=
  if owner % 2 = 0 then (s.liveReq (owner / 2)).isNone
  else (s.trans (owner / 2)).elim true fun t => t.image.isNone && t.waits.isEmpty

/-- Changes and copies that are over let go of what waits for them (R197, 07 R238). -/
def freeHolds (s : State) : State :=
  let s := { s with mem := { s.mem with locks := s.mem.locks.filter fun e => !lockStale s e.2 } }
  let gone := ((s.mem.live.flatMap fun e => e.2.waits) ++ s.coh.trans.flatMap fun e => e.2.waits).eraseDups.filter (holdOver s)
  gone.foldl (fun s k => transToken k true { s with mem := { s.mem with
    live := Tab.mapVals s.mem.live fun _ l => { l with waits := l.waits.filter (· != k) } } }) s

/-- Requests that a publication held and no longer holds begin (07 R242). -/
def releaseHeld (s : State) : State :=
  (s.mem.live.filter fun e => e.2.stage == 9 && !pubHeld s e.2).foldl (fun s e =>
    serveReq e.1 (s.setLive e.1 { e.2 with stage := 0 })) s

/-- Everything that can go on without waiting goes on. -/
def settle (s : State) : State :=
  detachDone (prefetchPages (releaseHeld (startTurns (planAnew (freeHolds (cohSettle s))))))

/-! ### Vendor requests (R192–R197) -/

def poolRequest (k : ReqKind) (r : PoolReq) (s : State) : State :=
  let r := match k with
    | .copy | .read | .write | .atomic => r
    | _ => { r with flags := 0, handle := 0 }
  let (st, a, src) := judge k r s
  if st ≠ St.ok then rejectReq r k none st false s
  else settle (waterRight { kind := k, req := r, allot := a, home := (s.allot a).elim 0 (·.home), src := src } s)

/-- A packet reaches the engine of its ingress die over the die's mesh (05 R175). -/
def atEngine (t : Time) (p : Packet) (s : State) : State := meshDeliver p.die (s.tick t)

def execPRead (t : Time) (p : Packet) (s : State) : Host.Outcome State Fault Refusal := .next (poolRequest .read p.poolReq (atEngine t p s))
def execPWrite (t : Time) (p : Packet) (s : State) : Host.Outcome State Fault Refusal := .next (poolRequest .write p.poolReq (atEngine t p s))
def execPAtomic (t : Time) (p : Packet) (s : State) : Host.Outcome State Fault Refusal := .next (poolRequest .atomic p.poolReq (atEngine t p s))
def execPCopy (t : Time) (p : Packet) (s : State) : Host.Outcome State Fault Refusal := .next (poolRequest .copy p.poolReq (atEngine t p s))

def execWaterRightRelease (t : Time) (die levee : Nat) (host : Ip) (s : State) : Host.Outcome State Fault Refusal :=
  .next (settle (rightRelease die levee host (s.tick t)))

/-- QUEUE_CONTEXT_RECLAIM: a context unused for 1 s (R201). -/
def reclaimCtx (die levee : Nat) (host : Ip) (q : Nat) (s : State) : State :=
  { s with mem := { s.mem with
      ctxs := s.mem.ctxs.filter fun c => !(c.die == die && c.levee == levee && c.host == host && c.queue == q &&
        c.live.isEmpty && decide (c.last + sec 1 ≤ s.now)) } }

def execQueueContextReclaim (t : Time) (die levee : Nat) (host : Ip) (queue : Nat) (s : State) :
    Host.Outcome State Fault Refusal := .next (reclaimCtx die levee host queue (s.tick t))

/-! ### Standard RDMA (R208) -/

/-- The responder context of a die that carries a QP number. -/
def findQpc (s : State) (die qpn : Nat) : Option (Nat × Qpc) :=
  s.mem.qpcs.find? fun e => e.1 / 4096 == die && e.2.valid && e.2.qpn.toNat == qpn

/-- PMTU in bytes. -/
def pmtuBytes (q : Qpc) : Nat := 128 * 2 ^ (min 5 (max 1 q.pmtu.toNat))

/-- PSNs a message takes: request packets of a WRITE, response packets of a READ, one of an atomic. -/
def psnsOf (k : ReqKind) (q : Qpc) (len : Nat) : Nat := if k = .rdmaAtomic then 1 else max 1 (ceilDiv len (pmtuBytes q))

/-- A NAK without a status of its own. -/
def nakReply (q : RdmaReq) (nak : Nat) (s : State) : State :=
  let s := nakQp q nak s
  if s.mute q.net.srcIp then s else s.emit (.rdmaReply q false nak (nakTimer nak) [])

/-- A standard request under the IBTA responder rules. -/
def rdmaRequest (k : ReqKind) (q : RdmaReq) (s : State) : State :=
  match findQpc s q.die q.qpn with
  | none => s
  | some (n, c) =>
    if c.err then s
    else
      let len := if k = .rdmaAtomic then 8 else q.length
      let d := (q.psn % 2 ^ 24 + 2 ^ 24 - c.epsn.toNat) % 2 ^ 24
      let dup := decide (2 ^ 23 ≤ d)
      if d ≠ 0 ∧ !dup then nakReply q 5 s
      else if len = 0 ∨ 16777216 < len ∨ (k = .rdmaAtomic ∧ (q.va % 8 ≠ 0 ∨ 1 < q.op)) ∨ (k = .rdmaWrite ∧ q.data.length ≠ len) then
        nakReply q 4 s
      else if q.rkey ≠ c.rkey.toNat ∨ 2 ^ 52 ≤ q.va then nakReply q 1 s
      else
        let r : PoolReq :=
          { port := q.port, die := q.die, net := q.net, cls := q.cls, levee := c.levee.toNat, ver := q.ver, queue := 0, seq := q.psn,
            pva := q.va, length := len, op := q.op, flags := 0, retQp := c.peer.toNat, handle := 0, data := q.data }
        let old := c.atomics.find? fun e => e.1 == q.psn
        if dup && k == .rdmaWrite then
          if s.mute q.net.srcIp then s else s.emit (.rdmaReply q true 0 0 [])
        else if dup && k == .rdmaAtomic then
          match old with
          | some (_, v) => if s.mute q.net.srcIp then s else s.emit (.rdmaReply q true 0 0 (toBe 8 v))
          | none => s
        else
          let (st, a, _) := judge k r s
          if st ≠ St.ok then rejectReq r k (some q) st false s
          else
            let right := rightOf s r.die r.levee (reqHost r)
            let h := (hostOf s r.die r.levee (reqHost r)).fill right s.now
            let full := 64 ≤ h.hold.length
            let s := if full || dup then s else { s with mem := { s.mem with
              qpcs := Tab.set s.mem.qpcs n { c with epsn := BitVec.ofNat 24 (c.epsn.toNat + psnsOf k c len) } } }
            settle (waterRight { kind := k, req := r, rdma := some q, allot := a, home := (s.allot a).elim 0 (·.home) } s)

def execRdmaWrite (t : Time) (r : RdmaReq) (s : State) : Host.Outcome State Fault Refusal := .next (rdmaRequest .rdmaWrite r (meshDeliver r.die (s.tick t)))
def execRdmaRead (t : Time) (r : RdmaReq) (s : State) : Host.Outcome State Fault Refusal := .next (rdmaRequest .rdmaRead r (meshDeliver r.die (s.tick t)))
def execRdmaAtomic (t : Time) (r : RdmaReq) (s : State) : Host.Outcome State Fault Refusal := .next (rdmaRequest .rdmaAtomic r (meshDeliver r.die (s.tick t)))

/-! ### Coherence requests (08 R253, R254, R264) -/

/-- A request of the agent with this TXN is held, waiting or in progress. -/
def sameRequest (s : State) (m : CohMsg) : Bool :=
  let same (l : Live) : Bool := l.coh.elim false fun x => x.domain == m.domain && x.agent == m.agent && x.txn == m.txn
  s.mem.live.any (fun e => same e.2) || s.mem.hosts.any fun h => h.hold.any same

/-- C_RD_SHARED to C_EVICT_CLEAN, TYPE `type`. -/
def cohRequest (type : Nat) (m : CohMsg) (s : State) : State :=
  match cohAccept m s with
  | (s, false) => s
  | (s, true) =>
    let refuse_ (die st : Nat) (s : State) : State := sendCoh die m.domain m.agent 0x39 0 st m.txn 0 0 m.pva [] s
    match cohLine m s with
    | none => refuse_ m.die St.badParam s
    | some key =>
      match s.allot (keyAllot key) with
      | none => s
      | some x =>
        if sameRequest s m then s
        else match findResult s type m with
        | some f =>
          let s := if f.type = 0x30 then addGrant key m.agent m.txn true s else s
          sendCoh x.home m.domain m.agent f.type f.msg.flags f.msg.status m.txn 0 f.msg.value m.pva f.msg.data s
        | none =>
          if x.st == .revoking || x.st == .releasing then refuse_ x.home St.extentRevoked s
          else if allotFenced s x then refuse_ x.home St.fenced s
          else if type = 0x04 ∧ (2 < m.op ∨ m.offset % 8 ≠ 0 ∨ 248 < m.offset) then refuse_ x.home St.badParam s
          else
            let r : PoolReq :=
              { port := m.port, die := m.die, net := { (default : Net) with srcIp := m.srcIp, srcQp := m.srcQp }, cls := m.cls,
                levee := x.levee, ver := m.ver, queue := 0, seq := m.txn, pva := m.pva, length := 256, op := m.op, flags := 0,
                retQp := m.srcQp, handle := 0, data := m.data }
            settle (waterRight { kind := .coh type, req := r, coh := some m, allot := keyAllot key, home := x.home } s)

def execCRdShared (t : Time) (p : Packet) (s : State) : Host.Outcome State Fault Refusal := .next (cohRequest 0x01 p.cohMsg (atEngine t p s))
def execCRdOwn (t : Time) (p : Packet) (s : State) : Host.Outcome State Fault Refusal := .next (cohRequest 0x02 p.cohMsg (atEngine t p s))
def execCUpgrade (t : Time) (p : Packet) (s : State) : Host.Outcome State Fault Refusal := .next (cohRequest 0x03 p.cohMsg (atEngine t p s))
def execCAtomic (t : Time) (p : Packet) (s : State) : Host.Outcome State Fault Refusal := .next (cohRequest 0x04 p.cohMsg (atEngine t p s))
def execCWriteFull (t : Time) (p : Packet) (s : State) : Host.Outcome State Fault Refusal := .next (cohRequest 0x05 p.cohMsg (atEngine t p s))
def execCEvictClean (t : Time) (p : Packet) (s : State) : Host.Outcome State Fault Refusal := .next (cohRequest 0x06 p.cohMsg (atEngine t p s))

def execCSnpData (t : Time) (p : Packet) (s : State) : Host.Outcome State Fault Refusal :=
  .next (settle (snoopReply p.cohMsg (some (slice p.cohMsg.data 0 256)) (atEngine t p s)))
def execCSnpAck (t : Time) (p : Packet) (s : State) : Host.Outcome State Fault Refusal :=
  .next (settle (snoopReply p.cohMsg none (atEngine t p s)))
def execCWb (t : Time) (p : Packet) (s : State) : Host.Outcome State Fault Refusal :=
  .next (settle (writeBackLine p.cohMsg (atEngine t p s)))
def execHoldWindowExpiry (t : Time) (die line : Nat) (s : State) : Host.Outcome State Fault Refusal :=
  .next (settle (holdExpiry die line (s.tick t)))
def execMemoryReadComplete (t : Time) (die line : Nat) (s : State) : Host.Outcome State Fault Refusal :=
  .next (settle (memoryRead die line (s.tick t)))

/-! ### Tiles (07) -/

def execPrefetchComplete (t : Time) (a page : Nat) (d : Bytes) (s : State) : Host.Outcome State Fault Refusal :=
  .next (settle (prefetchComplete a page d (s.tick t)))
def execFillComplete (t : Time) (a tile : Nat) (d : Bytes) (s : State) : Host.Outcome State Fault Refusal :=
  .next (settle (fillComplete a tile d (s.tick t)))
def execWriteBackComplete (t : Time) (a tile : Nat) (s : State) : Host.Outcome State Fault Refusal :=
  .next (settle (writeBackComplete a tile (s.tick t)))
def execPageExpansion (t : Time) (a page : Nat) (s : State) : Host.Outcome State Fault Refusal :=
  .next (settle (pageExpansion a page (s.tick t)))
def execHbmUncorrectable (t : Time) (a tile : Nat) (s : State) : Host.Outcome State Fault Refusal :=
  .next (settle (hbmUncorrectable a tile (s.tick t)))

/-! ### Phases between switches (R212, R213) -/

/-- A member reads the source of a copy for its home (R211, R213): the range that ARG names, under the request's levee and
the active version; when it has been read its outcome is acknowledged. Bytes a P_PHASE_ACK does not carry (Table MEM-3). -/
def phaseRead (die : Nat) (m : PhaseMsg) (s : State) : State :=
  let (pva, len) := Config.phaseRange m.arg
  let ver := (s.table 9).active
  let r : PoolReq :=
    { port := 0, die := die, net := default, cls := 0, levee := m.levee, ver := ver, queue := m.queue, seq := m.seq, pva := pva,
      length := len, op := 0, flags := 0, retQp := 0, handle := 0, data := [] }
  match translate s ver m.levee pva len with
  | none => phaseDone m St.badParam s
  | some a =>
    if allotStatus s a ≠ St.ok then phaseDone m (allotStatus s a) s
    else
      let id := s.mem.nextLive
      let l : Live := { kind := .read, req := r, allot := a, home := (s.allot a).elim 0 (·.home), phase := some m, arrived := s.now }
      let s := (s.modAllot a fun x => { x with inflight := x.inflight + 1 }).inflightAdd 9 ver
      settle (serveReq id { s with mem := { s.mem with nextLive := id + 1, live := Tab.set s.mem.live id l } })

/-- P_PHASE at a member: each (request, PHASE) is applied once; one applied before is acknowledged again, one of an older
epoch ignored (R213). -/
def phaseApply (die : Nat) (m : PhaseMsg) (s : State) : State :=
  match findPhased s m with
  | none =>
    phaseRead die m (putPhased
      { home := m.home, levee := m.levee, queue := m.queue, seq := m.seq, epoch := m.epoch, applied := [(m.phase, none)], holds := true } s)
  | some p =>
    if m.epoch < p.epoch then s
    else match Tab.get? p.applied m.phase with
    | some (some st) => phaseAnswer 0xD9 m 0 st (putPhased { p with epoch := m.epoch } s)
    | some none => putPhased { p with epoch := m.epoch } s
    | none => phaseRead die m (putPhased { p with epoch := m.epoch, applied := Tab.set p.applied m.phase none } s)

def execPPhase (t : Time) (src : Nat) (p : Packet) (s : State) : Host.Outcome State Fault Refusal :=
  .next (phaseApply p.die (p.phaseMsg src) (atEngine t p s))

/-- P_OWNER_QUERY at a member. -/
def ownerQuery (m : PhaseMsg) (s : State) : State :=
  match findPhased s m with
  | none => phaseAnswer 0xDB m 0 0 s
  | some p => if m.epoch < p.epoch then s else phaseAnswer 0xDB m (ofBool p.holds) 0 (putPhased { p with epoch := m.epoch } s)

def execPOwnerQuery (t : Time) (src : Nat) (p : Packet) (s : State) : Host.Outcome State Fault Refusal :=
  .next (ownerQuery (p.phaseMsg src) (atEngine t p s))

/-- The journal entry of a die that a message from a member is about: Table MEM-13 names a request by home, levee, QUEUE and
SEQ, so of several hosts' requests alike in these, the one that has the sender as a member. -/
def journalOf (s : State) (die : Nat) (m : PhaseMsg) : Option (Nat × Journal) :=
  s.mem.journal.find? fun e => e.1 / 8192 == die && m.home == s.sw.switchId.toNat && e.2.levee == m.levee && e.2.queue == m.queue &&
    e.2.seq == m.seq && e.2.members.contains (256 + m.src) && e.2.live.isSome

/-- P_PHASE_ACK at the home: the source phase of a copy is done, and the copy writes what the member read. No message of
Table MEM-3 brings the home those bytes: they are free (assumption 96). -/
def phaseAck (die : Nat) (m : PhaseMsg) (s : State) : State :=
  match journalOf s die m with
  | none => s
  | some (k, j) =>
    if m.epoch ≠ j.epoch ∨ j.owner ≠ 256 + m.src ∨ m.phase ≠ j.phase then s
    else
      match j.live.bind s.liveReq, j.live with
      | some l, some id =>
        if m.status ≠ 0 then finishLive id m.status s
        else
          let j := { j with phase := j.phase + 1, owner := 256 + s.sw.switchId.toNat, epoch := (j.epoch + 1) % 65536,
                            deadline := s.now + phaseTicks s }
          let s := { s with mem := { s.mem with journal := Tab.set s.mem.journal k j } }
          let l := { l with parts := [(0, s.freeBytes l.req.length)], segs := [], stage := 1 }
          let s := s.drawn
          if (s.allot l.allot).elim false (·.coherent) then settle (s.setLive id { l with stage := 6 })
          else settle (startWrite id (copyFuel l) l s)
      | _, _ => s

def execPPhaseAck (t : Time) (src : Nat) (p : Packet) (s : State) : Host.Outcome State Fault Refusal :=
  .next (phaseAck p.die (p.phaseMsg src) (atEngine t p s))

/-- P_OWNER_REPLY at the home: of whatever epoch, it ends the member's silence (14 R451); what it says is ignored under an
older one (assumption 57). -/
def ownerReply (die : Nat) (m : PhaseMsg) (s : State) : State :=
  match journalOf s die m with
  | none => s
  | some (k, j) =>
    { s with mem := { s.mem with journal := Tab.set s.mem.journal k { j with
      queries := Tab.del j.queries (256 + m.src),
      replies := if m.epoch < j.epoch then j.replies else Tab.set j.replies m.src m.holds } } }

def execPOwnerReply (t : Time) (src : Nat) (p : Packet) (s : State) : Host.Outcome State Fault Refusal :=
  .next (ownerReply p.die (p.phaseMsg src) (atEngine t p s))

/-- Tray operations of a journal entry's current phase. -/
def phaseOps (s : State) (j : Journal) : List (Nat × TrayOp) :=
  s.mem.ops.filter fun e => e.2.tray == j.owner && match e.2.use, j.live with
    | .request id _, some l => id == l && e.2.kind != .read
    | .writeBack a tile _, none => a == j.allot && tile == j.tile
    | _, _ => false

/-- PHASE_DEADLINE_EXPIRY: query both members, then issue the phase again under a new epoch (R213). -/
def phaseExpiry (die entry : Nat) (s : State) : State :=
  let k := die * 8192 + entry
  match Tab.get? s.mem.journal k with
  | none => s
  | some j =>
    if s.now < j.deadline then s
    else
      let me := s.sw.switchId.toNat
      let others := j.members.filter fun (m : Nat) => decide (256 ≤ m) && m != 256 + me
      let msg := (journalMsg s j (zeros 16)).bytes
      let s := others.foldl (fun s m => s.emit (.phase 0xDA (m - 256) msg)) s
      let j : Journal := { j with epoch := (j.epoch + 1) % 65536, deadline := s.now + phaseTicks s,
                                  queries := others.foldl (fun q m => Tab.set q m (Tab.getD q m 0 + 1)) j.queries }
      let s := { s with mem := { s.mem with journal := Tab.set s.mem.journal k j } }
      if decide (256 ≤ j.owner) && j.owner != 256 + me then (sendPhase j s).count (gk 3 3 0 die) 1
      else
        let ops := phaseOps s j
        if ops.isEmpty then s
        else (ops.foldl (fun s e => s.emit (.trayOp e.1 (trayVa s e.2.tray e.2.addr) e.2)) s).count (gk 3 3 0 die) 1

def execPhaseDeadlineExpiry (t : Time) (die entry : Nat) (s : State) : Host.Outcome State Fault Refusal :=
  .next (phaseExpiry die entry (s.tick t))

/-! ### Answers of trays to requests and lines -/

/-- A response to an operation that serves a tile, a request or a line. -/
def poolAnswered (opId : Nat) (op : TrayOp) (d : Bytes) (s : State) : State :=
  match op.use with
  | .fill a tile => fillComplete a tile d s
  | .writeBack a tile _ => writeBackComplete a tile s
  | .request id off => requestAnswered id off opId op d (delOp opId s)
  | .cohRead key => cohReadAnswered key opId op d (delOp opId s)
  | .cohWrite key => cohWriteAnswered key opId op (delOp opId s)
  | _ => s

end Sys2Proof.Machine
end

