-- ==== Sys2Proof/Machine/Region.lean ====
section
/-! DEFINITION. Versioned regions: creation, handles, publication and queries (07 R232–R244). -/

namespace Sys2Proof.Machine

/-- Blocks of a region's window. -/
def Region.blocks (g : Region) : Nat := g.size / 65536

def State.region (s : State) (id : Nat) : Option Region := Tab.get? s.cis.regions id

/-- READ handles that hold a version. -/
def readers (s : State) (id v : Nat) : Nat :=
  (s.cis.handles.filter fun e => e.2.region == id && !e.2.stage && e.2.version == v).length

/-- Open STAGE handles of a region. -/
def stages (s : State) (id : Nat) : Nat := (s.cis.handles.filter fun e => e.2.region == id && e.2.stage && e.2.isOpen).length

/-- REGION_CREATE (R232, R233). -/
def bodyRegionCreate (r : KReq) (s : State) : Ans :=
  let p := par r
  let levee := be p 0 2 % 1024
  let a := be p 2 2
  let size := be p 8 8
  match s.allot a with
  | none => refuse s (if plen r = 24 then St.badParam else St.badLength)
  | some x =>
    let id := Tab.lowestFreeFrom s.cis.regions (4096 * x.home) 4096
    checks s [(plen r != 24, St.badLength),
        (leveeBad s levee || x.st != .active || x.levee != levee || x.place == 2 || x.coherent || (regionOf s a).isSome ||
          decide (size < mib2) || size % mib2 != 0 || decide (x.size < 2 * size), St.badParam),
        (s.retiring levee, St.busy),
        (id.isNone || !roomFor s x.home levee (mapTiles size), St.exhausted)] fun _ =>
      let g : Region := { die := x.home, levee := levee, allot := a, size := size, cur := 1, vers := [(1, List.range (size / 65536))] }
      let id := id.getD 0
      done { s with cis := { s.cis with regions := Tab.set s.cis.regions id g } } [toBe 2 id ++ zeros 6 ++ toBe 6 1 ++ zeros 2]

def execRegionCreate (t : Time) (r : KReq) (s : State) : Host.Outcome State Fault Refusal := command 0x0601 bodyRegionCreate t r s

/-- REGION_OPEN (R235, R236). -/
def bodyRegionOpen (r : KReq) (s : State) : Ans :=
  let p := par r
  let id := be p 0 2
  let mode := byteAt p 2
  match s.region id with
  | none => refuse s (if plen r = 16 then St.badParam else St.badLength)
  | some g =>
    let v := if be p 8 6 = 0 then g.cur else be p 8 6
    let map := Tab.get? g.vers v
    let slot := Tab.lowestFreeFrom s.cis.handles (g.die * 65536) 65536
    checks s [(plen r != 16, St.badLength), (tenant r != some g.levee || decide (1 < mode) || map.isNone, St.badParam),
        ((mode == 1 && decide (8 ≤ stages s id)) || slot.isNone, St.exhausted)] fun _ =>
      let k := slot.getD 0
      let gen := (Tab.get? s.cis.slotGen k).elim 0 fun n => (n + 1) % 65536
      let h : Handle :=
        { gen := gen, region := id, levee := g.levee, stage := mode == 1, version := v, map := map.getD [], opener := r.net.srcIp,
          isOpen := true }
      done { s with cis := { s.cis with handles := Tab.set s.cis.handles k h, slotGen := Tab.set s.cis.slotGen k gen } }
        [toBe 8 (gen * 2 ^ 48 + id * 2 ^ 16 + k % 65536) ++ toBe 6 v ++ zeros 2]

def execRegionOpen (t : Time) (r : KReq) (s : State) : Host.Outcome State Fault Refusal := command 0x0602 bodyRegionOpen t r s

/-- Close handles (R239, R240). -/
def closeHandles (p : Handle → Bool) (s : State) : State :=
  pruneHandles { s with cis := { s.cis with
    handles := Tab.mapVals s.cis.handles fun _ h => if p h then { h with isOpen := false } else h } }

def bodyRegionClose (r : KReq) (s : State) : Ans :=
  match findHandle s (be (par r) 0 8) ((tenant r).getD 0) with
  | none => refuse s (if plen r = 8 then St.badParam else St.badLength)
  | some (k, h) =>
    checks s [(plen r != 8, St.badLength)] fun _ =>
      done (pruneHandles { s with cis := { s.cis with handles := Tab.set s.cis.handles k { h with isOpen := false } } })

def execRegionClose (t : Time) (r : KReq) (s : State) : Host.Outcome State Fault Refusal := command 0x0603 bodyRegionClose t r s

/-- When the publication of a handle that begins now arrived: the first request it has held while it waited arrived with
or after it, and every other one before (R242 step 4). -/
def pubArrival (s : State) (slot : Nat) : Time :=
  (s.mem.live.filter fun e => e.2.stage == 9 && hKey e.2.req.handle == slot).foldl (fun t e => min t e.2.arrived) s.now

/-- REGION_PUBLISH up to the drain (R242 steps 1 to 4). -/
def bodyRegionPublish (r : KReq) (s : State) : Ans :=
  let p := par r
  let id := be p 0 2
  let levee := (tenant r).getD 0
  let first := be p 24 4
  let count := be p 28 4
  if plen r ≠ 32 then refuse s St.badLength
  else match s.region id, findHandle s (be p 8 8) levee with
  | some g, some (k, h) =>
    let keep := (g.vers.filter fun v => decide (0 < readers s id v.1)).length
    if g.levee ≠ levee ∨ !h.stage ∨ h.region ≠ id ∨ count = 0 ∨ g.blocks < first + count then refuse s St.badParam
    else if be p 16 6 ≠ g.cur then
      let s := match s.allot g.allot with
        | some x => cisCount s 2 2 x 1
        | none => s
      { s := s, status := St.versionConflict, frags := [toBe 6 g.cur ++ zeros 2] }
    else if 16 < keep + 1 ∨ g.cur = 2 ^ 48 - 1 then refuse s St.exhausted
    else
      { s := { s with cis := { s.cis with pub := some { region := id, handle := k, first := first, count := count, arrived := pubArrival s k } } },
        status := St.ok, work := some (.publish id) }
  | _, _ => refuse s St.badParam

def execRegionPublish (t : Time) (r : KReq) (s : State) : Host.Outcome State Fault Refusal := command 0x0604 bodyRegionPublish t r s

/-- The map of a new version: the current one with the staged range taken from the staging map. -/
def mergeMap (cur stage : BlockMap) (first count : Nat) : BlockMap :=
  (List.range cur.length).map fun i => if first ≤ i ∧ i < first + count then stage.getD i 0 else cur.getD i 0

/-- Requests of the handle that were accepted before the publication and are not done. -/
def pubBusy (s : State) (k : Nat) : Bool :=
  s.mem.live.any fun e => bitOf e.2.req.flags 0 && hKey e.2.req.handle == k && e.2.stage != 9

/-- PUBLISH_COMMIT: step 5 of R242. -/
def publishCommit (id : Nat) (s : State) : State :=
  match s.cis.pub with
  | none => s
  | some p =>
    if p.region ≠ id ∨ pubBusy s p.handle then s
    else match s.region id, Tab.get? s.cis.handles p.handle with
    | some g, some h =>
      let v := g.cur + 1
      let m := mergeMap (Tab.getD g.vers g.cur []) h.map p.first p.count
      let g := { g with cur := v, vers := Tab.set g.vers v m }
      let s := pruneHandles { s with cis := { s.cis with regions := Tab.set s.cis.regions id g, pub := none } }
      let s := match s.allot g.allot with
        | some x => cisCount s 2 1 x 1
        | none => s
      releaseHeld (remapReads g.allot (s.workDone (fun w => w == .publish id) St.ok [toBe 6 v ++ zeros 2]))
    | _, _ =>
      let s : State := { s with cis := { s.cis with pub := none } }
      releaseHeld (s.workDone (fun w => w == .publish id) St.badParam [])

def execPublishCommit (t : Time) (region : Nat) (s : State) : Host.Outcome State Fault Refusal :=
  .next (settle (publishCommit region (s.tick t)))

/-- Pool blocks that nothing refers to (R234). -/
def freeBlocks (s : State) (id : Nat) (g : Region) : Nat :=
  (List.range ((s.allot g.allot).elim 0 (·.size) / 65536)).foldl (fun n b =>
    if g.vers.any (fun e => e.2.contains b) || s.cis.handles.any (fun e => e.2.stage && e.2.region == id && e.2.map.contains b)
    then n else n + 1) 0

/-- REGION_QUERY (R244). -/
def bodyRegionQuery (r : KReq) (s : State) : Ans :=
  let id := be (par r) 0 2
  match s.region id with
  | none => refuse s (if plen r = 8 then St.badParam else St.badLength)
  | some g =>
    checks s [(plen r != 8, St.badLength), (!((tenant r).elim true fun l => g.levee == l), St.badParam)] fun _ =>
      let es := (g.vers.map fun v => toBe 6 v.1 ++ toBe 2 (min 0xFFFF (readers s id v.1))).flatten
      done s [toBe 6 g.cur ++ toBe 2 g.vers.length ++ toBe 4 (freeBlocks s id g) ++ toBe 4 (stages s id) ++ slice es 0 128]

def execRegionQuery (t : Time) (r : KReq) (s : State) : Host.Outcome State Fault Refusal := command 0x0605 bodyRegionQuery t r s

/-- A region ends with its allotment: handles closed, ID free (R240). -/
def endRegion (a : Nat) (s : State) : State :=
  match regionOf s a with
  | none => s
  | some (id, _) =>
    let s := closeHandles (fun h => h.region == id) s
    { s with cis := { s.cis with regions := Tab.del s.cis.regions id } }

end Sys2Proof.Machine
end

