-- ==== Sys2Proof/Machine/Versions.lean ====
section
/-! DEFINITION. Versions of the two-version tables from flip to READY (04 R126–R129, Table SWC-5, 12 R398), and the life of
an allotment from revocation to NONE (06 R187–R191). -/

namespace Sys2Proof.Machine

/-! ### Flips (R126) -/

/-- SWC_RETIRE.LIMIT in milliseconds. -/
def retireMs (s : State) : Nat := (s.sw.retire.toNat + 1) * 10

/-- Allotments that the version of LEVEE_XLATE made active reaches become ACTIVE (06 Table MEM-2). -/
def activateAllots (v : Nat) (s : State) : State :=
  (s.xl v).foldl (fun s a => s.modAllot a fun x => if x.st = .pending then { x with st := .active } else x) s

/-- A flip takes effect. -/
def flipEffect (k : Nat) (s : State) : State :=
  let t := s.table k
  let s := s.setTable k { t with pending := false, active := 1 - t.active, st := .draining, flipAt := s.now, limitMs := retireMs s }
  if k = 9 then activateAllots (1 - t.active) s else s

def execFlipEffect (t : Time) (table : Nat) (s : State) : Host.Outcome State Fault Refusal :=
  let s := s.tick t
  .next (if (s.table table).pending && (s.table table).st == .ready && !(table == 10 && s.scr.batches.any fun b => b.cls == 0) then flipEffect table s else s)

/-- VERSION_DRAINED. -/
def versionDrained (k : Nat) (s : State) : State :=
  let t := s.table k
  if t.st = .draining ∧ t.inflight (1 - t.active) = 0 then s.setTable k { t with st := .copying } else s

def execVersionDrained (t : Time) (table : Nat) (s : State) : Host.Outcome State Fault Refusal :=
  .next (versionDrained table (s.tick t))

/-! ### The retire limit (R129) -/

/-- Frames in flight under version `v` of table `k`. -/
def framesUnder (s : State) (k v : Nat) : List Nat :=
  (s.sw.frames.filter fun e => e.2.stamped.getLsbD k && (if e.2.stamp.getLsbD k then 1 else 0) == v).map (·.1)

/-- Frames still queued go when next drawn; a frame on the wire is cut short. EPOCH_DISCARD counts each frame once for the
table: here one that is on the wire, when it is drawn one that is not. -/
def retireFrames (k v : Nat) (s : State) : State :=
  let ids := framesUnder s k v
  let live := ((s.sw.txing.flatMap fun e => e.2.filter fun x =>
    ids.contains x.copy.fid && !x.cut && decide (s.now < x.ends)).map (·.copy.fid)).eraseDups
  let s := s.sw.txing.foldl (fun s e => truncateTx e.1 (fun x => ids.contains x.copy.fid) s) s
  let s := { s with sw := { s.sw with
    frames := s.sw.frames.map fun (e : Nat × FrameRec) =>
      if ids.contains e.1 then
        (e.1, { e.2 with
          retired := e.2.retired ++ [k], stamped := clearBit e.2.stamped k,
          counted := if live.contains e.1 then e.2.counted ++ [k] else e.2.counted })
      else e } }
  let s := s.count (gk 1 4 0 k) live.length
  if ids.isEmpty then s else s.ledger 0x0013 (srcOf 0 0) (recBody [(32, 1, k), (36, 8, ids.length)])

/-- Pool requests and chains in flight under version `v` of LEVEE_XLATE take the active one. -/
def restamp (v : Nat) (s : State) : State :=
  let new := 1 - v
  let fix (l : Live) : Live := if l.req.ver = v then { l with req := { l.req with ver := new } } else l
  let n := (s.table 9).inflight v
  let s := { s with
    mem := { s.mem with
      live := Tab.mapVals s.mem.live (fun _ l => fix l),
      hosts := s.mem.hosts.map fun (h : HostState) => { h with hold := h.hold.map fix } },
    flm := { s.flm with chains := Tab.mapVals s.flm.chains fun _ c => if c.ver = v then { c with ver := new } else c } }
  let t := s.table 9
  let s := s.setTable 9 ((t.setInflight new (t.inflight new + n)).setInflight v 0)
  let s := s.count (gk 1 4 0 9) n
  if n = 0 then s else s.ledger 0x0013 (srcOf 0 0) (recBody [(32, 1, 9), (36, 8, n)])

/-- RETIRE_LIMIT_EXPIRY. -/
def retireExpiry (k : Nat) (s : State) : State :=
  let t := s.table k
  let v := 1 - t.active
  if t.st ≠ .draining ∨ s.now < t.flipAt + ms t.limitMs then s
  else
    let s := if k = 9 then restamp v s else retireFrames k v s
    let t := s.table k
    s.setTable k { t.setInflight v 0 with st := .copying }

def execRetireLimitExpiry (t : Time) (table : Nat) (s : State) : Host.Outcome State Fault Refusal :=
  .next (retireExpiry table (s.tick t))

/-! ### The copy (Table SWC-5) -/

/-- A RELEASING allotment's entry leaves the inactive version while that version is READY (06 R191). -/
def dropReleasing (s : State) : State :=
  if (s.table 9).st = .ready ∧ !(s.table 9).pending then
    let v := s.xlInactive
    s.setXl v ((s.xl v).filter fun a => !((s.allot a).elim true fun x => x.st == .releasing))
  else s

/-- VERSION_COPY_COMPLETE: the inactive version holds the active contents and is READY. -/
def copyComplete (k : Nat) (s : State) : State :=
  let t := s.table k
  if t.st ≠ .copying then s
  else
    let a := t.active
    let s := s.setTable k { t with st := .ready, v0 := if a = 0 then t.v0 else t.v1, v1 := if a = 0 then t.v0 else t.v1 }
    if k = 9 then dropReleasing (s.setXl (1 - a) (s.xl a))
    else if k = 10 then
      { s with scr := { s.scr with
          fwd := (s.scr.fwd.filter fun r => r.inVer a).map fun (r : Row) => { r with v0 := true, v1 := true } } }
    else s

def execVersionCopyComplete (t : Time) (table : Nat) (s : State) : Host.Outcome State Fault Refusal :=
  .next (copyComplete table (s.tick t))

/-! ### Revocation (06 R187–R191) -/

/-- Requests of an allotment that a water right holds: they complete EXTENT_REVOKED (R188). -/
def heldRevoked (a : Nat) (s : State) : State :=
  let mine (l : Live) : Bool := l.allot == a || l.src == some a
  let ls := s.mem.hosts.flatMap fun h => h.hold.filter mine
  let s := { s with mem := { s.mem with
    hosts := s.mem.hosts.map fun (h : HostState) => { h with hold := h.hold.filter fun l => !mine l } } }
  ls.foldl (fun s l =>
    let s := match l.coh with
      | some m => sendCoh l.home m.domain m.agent 0x39 0 St.extentRevoked m.txn 0 0 m.pva [] (s.count (gk 3 1 2 l.req.levee l.req.die) 1)
      | none => rejectReq l.req l.kind l.rdma St.extentRevoked true s
    s.inflightSub 9 l.req.ver) s

/-- TIMEOUT of a revocation in µs: 0 takes MEM_CTL.REVOKE_US, in which 0 acts as 1 and values above 1,000 as 1,000. -/
def revokeUs (s : State) (timeout : Nat) : Nat :=
  if timeout = 0 then min 1000 (max 1 s.mem.revokeUs.toNat) else timeout

/-- The commit of a revocation: ACTIVE becomes REVOKING (Table MEM-2, Table CIS-1, 07 R240, 08 R270). -/
def revokeCommit (a timeout : Nat) (s : State) : State :=
  let s := s.modAllot a fun x => { x with st := .revoking, revokeBy := s.now + us (revokeUs s timeout) }
  let s := heldRevoked a s
  let s := match regionOf s a with
    | some (id, _) => closeHandles (fun h => h.region == id) s
    | none => s
  let s := { s with cis := { s.cis with
    prefetch := s.cis.prefetch.filter fun q => q.page / 2 ^ 28 != a,
    pages := s.cis.pages.map fun (e : Nat × Page) =>
      if e.1 / 2 ^ 28 = a then
        (e.1, { e.2 with dirty := 0, since := [], pinned := false, evict := false, pendHint := none, want := 0 })
      else e } }
  revokeLines a s

/-- The cistern holds nothing of an allotment any more: bytes, pages, poison, check values and seals (R190). -/
def emptyCistern (a : Nat) (s : State) : State :=
  { s with
    cis := { s.cis with
      pool := s.cis.pool.zero (poolKey a 0) (2 ^ 44),
      pages := s.cis.pages.filter (fun e => e.1 / 2 ^ 28 != a),
      prefetch := s.cis.prefetch.filter (fun q => q.page / 2 ^ 28 != a),
      poisoned := s.cis.poisoned.filter (fun k => k / 2 ^ 32 != a),
      sums := s.cis.sums.filter (fun e => e.1 / 2 ^ 32 != a),
      wire := s.cis.wire.filter (fun e => e.1 / 2 ^ 32 != a),
      onceTiles := s.cis.onceTiles.filter fun k => k / 2 ^ 32 != a },
    sec := { s.sec with tileIv := s.sec.tileIv.filter fun e => e.1 / 2 ^ 32 != a } }

/-- A PENDING allotment is revoked: it is gone at once (Table MEM-2). A tray range that LOCK_LOAD has written while it was
PENDING stays unzeroed, under no allotment's number, and is refused to the next owner (R184). -/
def dropPending (a : Nat) (s : State) : State :=
  match s.allot a with
  | none => s
  | some x =>
    let s := emptyCistern a (if x.written then soil noAllot x s else s)
    { s with mem := { s.mem with
        allots := Tab.del s.mem.allots a, xl0 := s.mem.xl0.filter (· != a), xl1 := s.mem.xl1.filter (· != a) } }

/-- REVOKING becomes RELEASING: backing in the cistern is zeroed, region and pages go, tray ranges are unzeroed from now
on, the entry leaves the inactive version. -/
def revokeRelease (a : Nat) (s : State) : State :=
  match s.allot a with
  | none => s
  | some x =>
    let s := soil a x (emptyCistern a (endRegion a s))
    let s := { s with
      mem := { s.mem with journal := s.mem.journal.filter fun e => !(e.2.live.isNone && e.2.allot == a) },
      coh := { s.coh with lost := s.coh.lost.filter fun k => keyAllot k != a } }
    dropReleasing (s.setAllot a { x with st := .releasing, zeroed := x.place == 0, inflight := 0 })

def bodyAllotRevoke (r : KReq) (s : State) : Ans :=
  let p := par r
  let a := be p 0 2
  let timeout := be p 4 4
  checks s [(plen r != 8, St.badLength),
      (decide (1000 < timeout) || !((s.allot a).elim false fun x => x.st == .active || x.st == .pending), St.badParam)] fun _ =>
    match s.allot a with
    | none => refuse s St.badParam
    | some x =>
      if x.st = .pending then done (dropPending a s) [zeros 8]
      else { s := settle (revokeCommit a timeout s), status := St.ok, work := some (.revoke a 0 0) }

/-- The reply of ALLOT_REVOKE: requests completed by the timeout. -/
def revokeReply (a n : Nat) (s : State) : State :=
  s.workDone (fun w => w == .revoke a 0 0) St.ok [toBe 4 n ++ zeros 4]

/-- REVOKE_DRAIN_END: the in-flight count is zero. -/
def revokeDrainEnd (a : Nat) (s : State) : State :=
  match s.allot a with
  | some x => if x.st = .revoking ∧ x.inflight = 0 then revokeReply a 0 (revokeRelease a s) else s
  | none => s


/-- End a request with a status, whatever it was doing. -/
def killLive (id st : Nat) (s : State) : State :=
  match s.liveReq id with
  | none => s
  | some l =>
    let s := cohDetach id s
    match l.coh, l.kind with
    | some m, .coh _ =>
      cohFinal id (lineKey l.allot ((m.pva - (s.allot l.allot).elim 0 (·.pva)) / 256)) 0x39 0 st 0 [] s
    | _, _ => finishLive id st s

/-- Requests of an allotment that are under way. -/
def livesOf (s : State) (a : Nat) : List Nat :=
  (s.mem.live.filter fun e => e.2.allot == a || e.2.src == some a).map (·.1)

/-- The timeout of a revocation for requests; flume accesses are ended by the caller, which counts them. -/
def revokeKill (a : Nat) (s : State) : State × Nat :=
  let ids := livesOf s a
  (ids.foldl (fun s id => killLive id St.extentRevoked s) s, ids.length)

/-- An operation outstanding to a tray writes a range of its memory. -/
def rangeWrites (s : State) (t : Nat) (u : Unzeroed) : Bool :=
  s.mem.ops.any fun e => e.2.kind != .read && e.2.tray == t && (trayPlace s (t, e.2.addr, e.2.len)).elim false u.meets

/-- The attached tray, not down, through which a range can be zeroed now: one whose memory at the same address covers it,
every write of it acknowledged (R190). -/
def zeroTray (s : State) (u : Unzeroed) : Option Nat :=
  (s.mem.trays.find? fun e => e.2.addr == u.addr && !s.trayDown e.1 && decide (e.2.base ≤ u.va) &&
    decide (u.va + u.len ≤ e.2.base + e.2.length) && !rangeWrites s e.1 u).map (·.1)

/-- Zero one range if it can be. -/
def zeroRange (u : Unzeroed) (s : State) : State :=
  match zeroTray s u with
  | some t => { s.emit (.trayZero t u.va u.len) with mem := { s.mem with dirty := s.mem.dirty.filter (· != u) } }
  | none => s

/-- TRAY_RANGE_ZEROING (R190): what a, or no allotment any more, left unzeroed is zeroed where its tray is attached and
not down, and stays unzeroed where it is not. The backing of the allotment is zeroed once no such range is left. -/
def zeroRanges (a : Nat) (s : State) : State :=
  let s := (s.mem.dirty.filter fun u => u.allot == a || u.allot == noAllot).foldl (fun s u => zeroRange u s) s
  match s.allot a with
  | none => s
  | some x => if x.st = .releasing ∧ !s.mem.dirty.any (·.allot == a) then s.setAllot a { x with zeroed := true } else s

/-- ALLOTMENT_RELEASED: absent from both versions, backing zeroed (Table MEM-2). -/
def allotReleased (a : Nat) (s : State) : State :=
  match s.allot a with
  | none => s
  | some x =>
    if x.st = .releasing ∧ x.zeroed ∧ !s.mem.xl0.contains a ∧ !s.mem.xl1.contains a then
      { s with mem := { s.mem with allots := Tab.del s.mem.allots a } }
    else s

def execAllotmentReleased (t : Time) (allot : Nat) (s : State) : Host.Outcome State Fault Refusal :=
  .next (allotReleased allot (s.tick t))

end Sys2Proof.Machine
end

