-- ==== Sys2Proof/Machine/Basin.lean ====
section
/-! DEFINITION. Basins: their stores, power states, dip windows' undo areas, cross-check partners, BASIN_STATE and
XCHECK_SET, and turn counters with TURN_ALLOC and TURN_SET (09 R273–R276, R294–R311, 10 R344–R346). -/

namespace Sys2Proof.Machine

/-! ### Basins and their stores (R273, R274) -/

def State.basin (s : State) (b : Nat) : Basin := Tab.getD s.bsn.tab b {}

def State.setBasin (s : State) (b : Nat) (x : Basin) : State := { s with bsn := { s.bsn with tab := Tab.set s.bsn.tab b x } }

def State.modBasin (s : State) (b : Nat) (f : Basin → Basin) : State := s.setBasin b (f (s.basin b))

/-- The die of a basin. -/
def basinDie (b : Nat) : Nat := b / 128

/-- Where a basin's store keeps an address. -/
def storeKey (b a : Nat) : Nat := b * 2 ^ 21 + a

def readStore (s : State) (b a n : Nat) : Bytes := s.bsn.store.readN (storeKey b a) n

/-- The entry of a tile in its basin's tile check table (R294): every write and zeroing stores the CRC-32C of the tile as it
then stands, so only one that no longer fits is listed. -/
def tileSum (s : State) (b t : Nat) : Word := (Tab.get? (s.basin b).sums t).getD (crc32c (readStore s b (4096 * t) 4096))

/-- A store tile fits its check value. -/
def tileSumOk (s : State) (b t : Nat) : Bool :=
  (Tab.get? (s.basin b).sums t).elim true fun v => v == crc32c (readStore s b (4096 * t) 4096)

theorem tileSumOk_iff (s : State) (b t : Nat) :
    tileSumOk s b t = true ↔ tileSum s b t = crc32c (readStore s b (4096 * t) 4096) := by
  unfold tileSumOk tileSum
  cases Tab.get? (s.basin b).sums t <;> simp

/-- Set a bit of BSN_EVENT (Table BSN-10). -/
def State.bsnEvent (s : State) (b bit : Nat) : State := (s.modBasin b fun x => { x with event := setBit x.event bit }).mark (Reg.basin b) bit

/-- A gauge of a basin (Table BSN-11). -/
def bsnCount (row idx b n : Nat) (s : State) : State := s.count (gk 6 row idx b) n

def BasinPower.code (p : BasinPower) : Nat :=
  match p with
  | .active => 0 | .clockGated => 1 | .powerGated => 2 | .waking => 3 | .off => 4

def Quar.code (q : Quar) : Nat :=
  match q with
  | .none => 0 | .conditional => 1 | .heldOut => 2 | .full => 3

/-- Nanoseconds of a span. -/
def nsOf (t : Time) : Nat := t / 24

/-- Enter a power state; the time spent in the one left is counted (Table BSN-11). -/
def setPower (b : Nat) (p : BasinPower) (s : State) : State :=
  let x := s.basin b
  let s := if x.power = .active then bsnCount 0 3 b (nsOf (s.now - x.since)) s else s
  let s := if x.power = .powerGated then bsnCount 1 1 b (nsOf (s.now - x.since)) s else s
  s.setBasin b { x with power := p, since := s.now }

/-- Tiles of a basin that no queue holds. -/
def freeTiles (s : State) (b : Nat) : List Nat := (List.range 512).filter fun t => (Tab.get? s.bsn.owner (b * 512 + t)).isNone

/-- Zero tiles and reset their check values and marks (R276). -/
def zeroTiles (b : Nat) (ts : List Nat) (s : State) : State :=
  let s := s.modBasin b fun x => { x with
    sums := x.sums.filter (fun e => !ts.contains e.1), once := x.once.filter (fun t => !ts.contains t), taint := x.taint.filter fun t => !ts.contains t }
  { s with bsn := { s.bsn with store := ts.foldl (fun m t => m.zero (storeKey b (4096 * t)) 4096) s.bsn.store } }

/-- Give tiles to a queue, zeroed (R276, 10 R313). -/
def takeTiles (b q : Nat) (ts : List Nat) (s : State) : State :=
  let s := zeroTiles b ts s
  { s with bsn := { s.bsn with owner := ts.foldl (fun o t => Tab.set o (b * 512 + t) q) s.bsn.owner } }

/-- Take tiles back, zeroed. -/
def returnTiles (b : Nat) (ts : List Nat) (s : State) : State :=
  let s := zeroTiles b ts s
  { s with bsn := { s.bsn with owner := ts.foldl (fun o t => Tab.del o (b * 512 + t)) s.bsn.owner } }

/-- Pieces of a byte range cut at tiles: (tile, start in it, offset in the range, length). -/
def tileCuts (addr len pos fuel : Nat) : List (Nat × Nat × Nat × Nat) :=
  match fuel with
  | 0 => []
  | fuel + 1 =>
    if len ≤ pos then []
    else
      let a := addr + pos
      let n := min (4096 - a % 4096) (len - pos)
      (a / 4096, a % 4096, pos, n) :: tileCuts addr len (pos + n) fuel

def cutsOf (addr len : Nat) : List (Nat × Nat × Nat × Nat) := tileCuts addr len 0 (len / 4096 + 2)

/-- Save a tile's former contents, check value and mark the first time an open window writes it (R297); answers whether the
undo area was full. -/
def saveUndo (b t : Nat) (s : State) : State × Bool :=
  let x := s.basin b
  if (Tab.get? x.undo t).isSome then (s, false)
  else if 64 ≤ x.undo.length then (s.bsnEvent b 4, true)
  else (s.setBasin b { x with undo := Tab.set x.undo t (readStore s b (4096 * t) 4096, Tab.get? x.sums t, x.once.contains t) }, false)

/-- Restore every tile the undo area saved, with its check value and mark (R298). -/
def restoreUndo (b : Nat) (s : State) : State :=
  (s.basin b).undo.foldl (fun s e =>
    let s := { s with bsn := { s.bsn with store := s.bsn.store.writeN (storeKey b (4096 * e.1)) e.2.1 } }
    s.modBasin b fun x => { x with
      sums := (match e.2.2.1 with
        | some v => Tab.set x.sums e.1 v
        | none => Tab.del x.sums e.1),
      once := x.once.filter (· != e.1) ++ (if e.2.2.2 then [e.1] else []) }) s

/-- Write part of one store tile (R296): in an open window the tile is saved first; the check value stored with it is that of
the tile as it then stands; a result that overwrites the whole tile ends its failed check, and an untagged one its taint
(R295, R299). Answers whether the undo area was full. -/
def writeTile (b t start : Nat) (bs : Bytes) (s : State) : State × Bool :=
  let (s, lost) := if s.pwr.window then saveUndo b t s else (s, false)
  let whole := start == 0 && decide (4096 ≤ bs.length)
  let s := s.modBasin b fun x => { x with
    sums := Tab.del x.sums t, once := if whole then x.once.filter (· != t) else x.once,
    taint := if whole && !s.pwr.window then x.taint.filter (· != t) else x.taint }
  ({ s with bsn := { s.bsn with store := s.bsn.store.writeN (storeKey b (4096 * t + start)) bs } }, lost)

/-- Write a byte string at a store address. -/
def writeStore (b addr : Nat) (bs : Bytes) (s : State) : State × Bool :=
  (cutsOf addr bs.length).foldl (fun st c =>
    let (s, lost) := writeTile b c.1 c.2.1 (slice bs c.2.2.1 c.2.2.2) st.1
    (s, st.2 || lost)) (s, false)

/-! ### Power states (R308, R34) -/

/-- Chains whose slot stands on a basin, with their numbers. -/
def chainsOn (s : State) (b : Nat) : List (Nat × Chain) :=
  s.flm.chains.filter fun e => ((Tab.get? s.flm.queues e.2.queue).bind fun q => q.slots[e.2.slot]?).elim false fun x =>
    x.basin == b && !x.lost

/-- A basin has something to do (R308). -/
def basinWork (s : State) (b : Nat) : Bool :=
  let x := s.basin b
  s.pwr.window || x.asked || !x.mail.isEmpty || x.current.isSome || !x.tagged.isEmpty || x.replaying ||
    (chainsOn s b).any (fun e => e.2.st == .waiting || e.2.st == .ready || e.2.st == .running || e.2.st == .searching) ||
    s.col.groups.any (fun g => g.2.ops.any (fun o => !o.complete && decide (o.kind ≤ 2)) &&
      (Tab.get? s.flm.queues g.2.queue).elim false fun q => q.slots.any fun y => y.basin == b && !y.lost) ||
    s.flm.queues.any (fun e => e.2.slots.any fun y => y.moving.isSome && (y.basin == b || y.moving == some b)) ||
    s.bsn.tab.any (fun e => e.2.check.elim false fun c => c.checking == some b || e.1 == b)

/-- The arithmetic clock in MHz: the level's value, and 1,500 while halved (15 Table PWR-4, R481, R488). -/
def arithMhz (s : State) : Nat :=
  let f := if s.pwr.level < 2 then 3000 else if s.pwr.level = 2 then 2500 else if s.pwr.level = 3 then 2000 else 1500
  if s.pwr.halved then min 1500 f else f

/-- Idle time before clock gating: units of 64 cycles of the arithmetic clock as it now runs, 0 acting as 1. -/
def clockGateAfter (s : State) (x : Basin) : Time := ceilDiv (24000 * 64 * max 1 x.idleCg.toNat) (arithMhz s)

/-- A basin that is not awake takes no access to its store: what comes from outside waits (01 R34). -/
def asleep (s : State) (b : Nat) : Bool :=
  let p := (s.basin b).power
  p == .clockGated || p == .powerGated || p == .waking

/-- BASIN_CLOCK_GATE. -/
def clockGate (b : Nat) (s : State) : State :=
  let x := s.basin b
  if x.power = .active ∧ !basinWork s b ∧ x.idleSince + clockGateAfter s x ≤ s.now then setPower b .clockGated s else s

/-- BASIN_POWER_GATE; IDLE_PG 0 means never. -/
def powerGate (b : Nat) (s : State) : State :=
  let x := s.basin b
  if x.power = .clockGated ∧ !basinWork s b ∧ x.idlePg ≠ 0 ∧ x.since + us x.idlePg.toNat ≤ s.now then setPower b .powerGated s
  else s

/-- BASIN_WAKE: work for a gated basin wakes it, a power-gated one through WAKING. -/
def basinWake (b : Nat) (s : State) : State :=
  let x := s.basin b
  let up (s : State) : State :=
    (bsnCount 1 0 b 1 (setPower b .active s)).modBasin b fun x => { x with idleSince := s.now, asked := false }
  match x.power with
  | .waking => up s
  | .clockGated => if basinWork s b then up s else s
  | .powerGated => if basinWork s b then setPower b .waking s else s
  | _ => s

def execBasinClockGate (t : Time) (basin : Nat) (s : State) : Host.Outcome State Fault Refusal :=
  .next (clockGate basin (s.tick t))
def execBasinPowerGate (t : Time) (basin : Nat) (s : State) : Host.Outcome State Fault Refusal :=
  .next (powerGate basin (s.tick t))
/-- A basin in full quarantine goes OFF once no slot, operation or replay is left on it: its store is zeroed, marks and
check values reset (Table BSN-8). -/
def offIfDue (b : Nat) (s : State) : State :=
  let x := s.basin b
  let slots := s.flm.queues.any fun e => e.2.slots.any fun y => y.basin == b && !y.lost
  if x.quar = .full ∧ x.power ≠ .off ∧ !slots ∧ x.current.isNone ∧ x.tagged.isEmpty ∧ !x.replaying ∧ !x.draining then
    (setPower b .off (zeroTiles b (List.range 512) s)).modBasin b fun x => { x with undo := [], check := none }
  else s

/-! ### Cross-check partners (R303) -/

/-- Candidates for checking a basin, in order. -/
def checkOrder (b : Nat) : List Nat :=
  [b ^^^ 64, b ^^^ 32] ++ ((List.range 128).map (128 * basinDie b + ·)).filter fun x => x != b && x != b ^^^ 64 && x != b ^^^ 32

def checkAvailable (s : State) (b : Nat) : Bool :=
  let x := s.basin b
  x.power != .powerGated && x.power != .off && x.quar != .heldOut && x.quar != .full && !x.draining

def checkingBasin (s : State) (b : Nat) : Option Nat := (checkOrder b).find? (checkAvailable s)

def thirdBasin (s : State) (b checking : Nat) : Option Nat :=
  (checkOrder b).find? fun x => x != checking && checkAvailable s x

/-! ### XCHECK_SET and BASIN_STATE (R307, R309) -/

def bodyXcheckSet (r : KReq) (s : State) : Ans :=
  let p := par r
  let b := be p 0 2
  let n := be p 4 4
  checks s [(plen r != 8, St.badLength),
      ((decide (255 < b) && b != 0xFFFF) || decide (n < 256) || decide (65536 < n), St.badParam)] fun _ =>
    done ((if b = 0xFFFF then List.range 256 else [b]).foldl (fun s b => s.modBasin b fun x => { x with n := n }) s)

def execXcheckSet (t : Time) (r : KReq) (s : State) : Host.Outcome State Fault Refusal := command 0x0805 bodyXcheckSet t r s

/-- Cross-check interval in force: a CONDITIONAL basin's is 256 (17 Table HLT-6). -/
def Basin.interval (x : Basin) : Nat := if x.quar = .conditional then 256 else x.n

def bodyBasinState (r : KReq) (s : State) : Ans :=
  let b := be (par r) 0 2
  let x := s.basin b
  checks s [(plen r != 8, St.badLength), (decide (255 < b), St.badParam)] fun _ =>
    done s [toBe 1 x.power.code ++ toBe 1 x.quar.code ++ toBe 1 x.quarTemp ++ toBe 1 x.quarMask ++ toBe 1 (b ^^^ 64) ++
      toBe 1 (b ^^^ 32) ++ toBe 2 x.taint.length ++ toBe 4 (min x.checks 0xFFFFFFFF) ++ toBe 4 (min x.suspect 0xFFFFFFFF) ++
      toBe 4 x.interval ++ zeros 4]

def execBasinState (t : Time) (r : KReq) (s : State) : Host.Outcome State Fault Refusal := command 0x0806 bodyBasinState t r s

/-! ### Turn counters (10 R344–R346) -/

/-- The die of a counter: counters 0–32,767 lie on die 0, the rest on die 1 (01 R15). -/
def turnDie (c : Nat) : Nat := c / 32768

def State.turn (s : State) (c : Nat) : Option Turn := Tab.get? s.flm.turns c

/-- What reached a counter in this cycle (R346). -/
def Turn.fresh (now : Time) (x : Turn) : Nat := if x.at_ = now then x.added else 0

/-- Add to a counter, modulo 2^32. -/
def turnAdd (c inc : Nat) (s : State) : State :=
  { s with flm := { s.flm with turns := Tab.upd s.flm.turns c fun x => { x with
      value := (x.value + inc) % 2 ^ 32, at_ := s.now, added := x.fresh s.now + inc } } }

/-- A counter has reached a target: (value − target) mod 2^32 lies below 2^31. -/
def turnReached (value target : Nat) : Bool := decide ((value + 2 ^ 32 - target % 2 ^ 32) % 2 ^ 32 < 2 ^ 31)

/-- A TURN_WAIT is pending on a counter. -/
def turnWaited (s : State) (c : Nat) : Bool := s.flm.chains.any fun e => match e.2.st with
  | .turnWait k _ _ => k == c
  | _ => false

/-- The lowest run of free counters on a die. -/
def turnRun (s : State) (die n : Nat) : Option Nat :=
  (List.range (32769 - n)).map (32768 * die + ·) |>.find? fun c => (List.range n).all fun i => (s.turn (c + i)).isNone

def bodyTurnAlloc (r : KReq) (s : State) : Ans :=
  let p := par r
  let levee := be p 0 2 % 1024
  let die := byteAt p 2
  let free := bitOf (byteAt p 3) 0
  let n := be p 4 4
  let first := be p 8 4
  let range := (List.range n).map (first + ·)
  let run := if die = 2 then (turnRun s 0 n).orElse fun _ => turnRun s 1 n else turnRun s die n
  checks s [(plen r != 16, St.badLength),
      (leveeBad s levee || decide (2 < die) || n == 0 || decide (4096 < n) || (!free && first != 0), St.badParam),
      (free && range.any fun c => !((s.turn c).elim false fun x => x.levee == levee), St.badParam),
      (!free && s.retiring levee, St.busy),
      (free && range.any (turnWaited s), St.busy),
      (!free && run.isNone, St.exhausted)] fun _ =>
    if free then done { s with flm := { s.flm with turns := s.flm.turns.filter fun e => !range.contains e.1 } } [zeros 8]
    else
      let c := run.getD 0
      let ts := (List.range n).foldl (fun t i => Tab.set t (c + i) ({ levee := levee, value := 0 } : Turn)) s.flm.turns
      done { s with flm := { s.flm with turns := ts } } [toBe 4 c ++ zeros 4]

def execTurnAlloc (t : Time) (r : KReq) (s : State) : Host.Outcome State Fault Refusal := command 0x0803 bodyTurnAlloc t r s

/-- TURN_SET: signals that reach the counter in the same cycle are applied after the set (R346). -/
def bodyTurnSet (r : KReq) (s : State) : Ans :=
  let p := par r
  let c := be p 0 2
  let field := be p 2 2 % 1024
  let levee := (tenant r).getD field
  checks s [(plen r != 8, St.badLength),
      (((tenant r).isSome && field != 0) || !((s.turn c).elim false fun x => x.levee == levee), St.badParam)] fun _ =>
    done { s with flm := { s.flm with turns := Tab.upd s.flm.turns c fun x => { x with
      value := (be p 4 4 + x.fresh s.now) % 2 ^ 32 } } }

def execTurnSet (t : Time) (r : KReq) (s : State) : Host.Outcome State Fault Refusal := command 0x0804 bodyTurnSet t r s

end Sys2Proof.Machine
end

