-- ==== Sys2Proof/Machine/Fp.lean ====
section
/-! DEFINITION. The arithmetic of the basins: exact numbers, decoding and encoding of the formats of 09 Table BSN-2,
products, sums rounded once, stochastic rounding and MX quantising (09 R277–R284). -/

namespace Sys2Proof.Machine

/-- An exact value: NaN, an infinity, or ± m × 2^e; a zero keeps its sign. -/
inductive Num where
  | nan
  | inf (neg : Bool)
  | fin (neg : Bool) (m : Nat) (e : Int)
deriving DecidableEq, Repr

namespace Num

def zero : Num := .fin false 0 0

def isNan (x : Num) : Bool :=
  match x with
  | .nan => true
  | _ => false

def ofInt (i : Int) : Num := .fin (decide (i < 0)) i.natAbs 0

/-- Multiply by 2^k. -/
def scale (x : Num) (k : Int) : Num :=
  match x with
  | .fin n m e => .fin n m (e + k)
  | y => y

def negate (x : Num) : Num :=
  match x with
  | .nan => .nan
  | .inf n => .inf !n
  | .fin n m e => .fin (!n) m e

/-- The exact product; ∞ × 0 is NaN (Table BSN-4). -/
def mul (x y : Num) : Num :=
  match x, y with
  | .nan, _ => .nan
  | _, .nan => .nan
  | .inf a, .inf b => .inf (a != b)
  | .inf a, .fin b m _ => if m = 0 then .nan else .inf (a != b)
  | .fin a m _, .inf b => if m = 0 then .nan else .inf (a != b)
  | .fin a m e, .fin b n f => .fin (a != b) (m * n) (e + f)

/-- Least exponent of the nonzero finite terms. -/
def minExp (l : List Num) (d : Int) : Int :=
  l.foldl (fun a x => match x with
    | .fin _ m e => if m = 0 then a else min a e
    | _ => a) d

/-- A finite term in units of 2^b. -/
def unitsAt (b : Int) (x : Num) : Int :=
  match x with
  | .fin n m e => let v : Int := (m * 2 ^ (e - b).toNat : Nat); if n then -v else v
  | _ => 0

def isNegZero (x : Num) : Bool :=
  match x with
  | .fin n m _ => n && m == 0
  | _ => false

/-- The exact sum (Table BSN-4): +∞ and −∞ give NaN, an exact zero is +0 unless every term is −0. -/
def sum (l : List Num) : Num :=
  if l.any isNan then .nan
  else
    let pos := l.contains (.inf false)
    let neg := l.contains (.inf true)
    if pos && neg then .nan
    else if pos then .inf false
    else if neg then .inf true
    else
      let b := minExp l 4096
      let t := l.foldl (fun a x => a + unitsAt b x) 0
      if t = 0 then .fin (!l.isEmpty && l.all isNegZero) 0 0 else .fin (decide (t < 0)) t.natAbs b

/-- ⌊log₂⌋ of a finite nonzero magnitude. -/
def log2 (m : Nat) (e : Int) : Int := (m.log2 : Int) + e

/-- A key that orders numbers: 2 × value in units of 2^b, with −0 just below +0; infinities beyond every finite value. -/
def lt (x y : Num) : Bool :=
  match x, y with
  | .nan, _ => false
  | _, .nan => false
  | .inf a, .inf b => a && !b
  | .inf a, .fin _ _ _ => a
  | .fin _ _ _, .inf b => !b
  | .fin a m e, .fin b n f =>
    let k := minExp [.fin a m e, .fin b n f] 4096
    decide (unitsAt k (.fin a m e) < unitsAt k (.fin b n f))

def eq (x y : Num) : Bool := !x.isNan && !y.isNan && !lt x y && !lt y x

end Num

/-! ### Rounding (R280, R282, R283) -/

/-- The 64-bit value of R283 for element `i`. -/
def srValue (seed i : Nat) : Nat :=
  let w := 2 ^ 64
  let z := (seed + (i + 1) * 0x9e3779b97f4a7c15) % w
  let z := ((z ^^^ (z / 2 ^ 30)) * 0xbf58476d1ce4e5b9) % w
  let z := ((z ^^^ (z / 2 ^ 27)) * 0x94d049bb133111eb) % w
  z ^^^ (z / 2 ^ 31)

/-- Drop `d` magnitude bits: to nearest even, or stochastically with the value `z` of R283. -/
def dropBits (m d : Nat) (z : Option Nat) : Nat :=
  match z with
  | none =>
    let q := m / 2 ^ d
    let r := 2 * (m % 2 ^ d)
    if r > 2 ^ d ∨ (r = 2 ^ d ∧ q % 2 = 1) then q + 1 else q
  | some z => (m + (if d ≤ 64 then z / 2 ^ (64 - d) else z * 2 ^ (d - 64))) / 2 ^ d

/-- Round m × 2^e to `p` bits with quantum no finer than 2^least: (k, q) with value k × 2^q. -/
def roundMag (p : Nat) (least : Int) (m : Nat) (e : Int) (z : Option Nat) : Nat × Int :=
  let q := max least (Num.log2 m e - (p - 1))
  if q ≤ e then (m * 2 ^ (e - q).toNat, q) else (dropBits m (q - e).toNat z, q)

/-- Magnitude bits of a finite value in a format of `eb` exponent and `mb` fraction bits, unbounded above. -/
def magBits (eb mb : Nat) (m : Nat) (e : Int) (z : Option Nat) : Nat :=
  if m = 0 then 0
  else
    let least : Int := 2 - (2 ^ (eb - 1) : Nat) - (mb : Nat)
    let (k, q) := roundMag (mb + 1) least m e z
    (q - least).toNat * 2 ^ mb + k

/-- Encode in an IEEE format: infinities beyond the largest finite, the canonical quiet NaN (Table BSN-5). -/
def encIeee (eb mb : Nat) (x : Num) (z : Option Nat) : Nat :=
  let s (n : Bool) : Nat := if n then 2 ^ (eb + mb) else 0
  let top := (2 ^ eb - 1) * 2 ^ mb
  match x with
  | .nan => top + 2 ^ (mb - 1)
  | .inf n => s n + top
  | .fin n m e => s n + min top (magBits eb mb m e z)

/-- Encode in a format without infinities, saturating at magnitude code `top`; `nan` is the code of NaN. -/
def encSat (eb mb top nan : Nat) (x : Num) (z : Option Nat) : Nat :=
  let s (n : Bool) : Nat := if n then 2 ^ (eb + mb) else 0
  match x with
  | .nan => nan
  | .inf n => s n + top
  | .fin n m e => s n + min top (magBits eb mb m e z)

/-- Decode an IEEE format. -/
def decIeee (eb mb bits : Nat) : Num :=
  let n := bitOf bits (eb + mb)
  let ex := bits / 2 ^ mb % 2 ^ eb
  let fr := bits % 2 ^ mb
  let least : Int := 2 - (2 ^ (eb - 1) : Nat) - (mb : Nat)
  if ex = 2 ^ eb - 1 then (if fr = 0 then .inf n else .nan)
  else if ex = 0 then .fin n fr least
  else .fin n (fr + 2 ^ mb) (least + (ex - 1 : Nat))

/-- Decode a format without infinities or NaN. -/
def decPlain (eb mb bits : Nat) : Num :=
  let n := bitOf bits (eb + mb)
  let ex := bits / 2 ^ mb % 2 ^ eb
  let fr := bits % 2 ^ mb
  let least : Int := 2 - (2 ^ (eb - 1) : Nat) - (mb : Nat)
  if ex = 0 then .fin n fr least else .fin n (fr + 2 ^ mb) (least + (ex - 1 : Nat))

/-- Two's complement of `w` bits. -/
def signed (w bits : Nat) : Int := if bits % 2 ^ w < 2 ^ (w - 1) then (bits % 2 ^ w : Nat) else (bits % 2 ^ w : Nat) - (2 ^ w : Nat)

def unsigned (w : Nat) (i : Int) : Nat := (i % (2 ^ w : Nat)).toNat

/-- Round to an integer. -/
def roundInt (x : Num) (z : Option Nat) : Option Int :=
  match x with
  | .fin n m e =>
    let k := if 0 ≤ e then m * 2 ^ e.toNat else dropBits m (-e).toNat z
    some (if n then -(k : Int) else k)
  | _ => none

/-- Saturate at the ends of `w`-bit integers. -/
def satInt (w : Nat) (i : Int) : Int := max (-(2 ^ (w - 1) : Nat)) (min ((2 ^ (w - 1) : Nat) - 1) i)

/-- Convert to a `w`-bit integer: rounded, saturated, NaN to 0 (Table BSN-5). -/
def encInt (w : Nat) (x : Num) (z : Option Nat) : Nat :=
  match x with
  | .nan => 0
  | .inf n => unsigned w (if n then -(2 ^ (w - 1) : Nat) else (2 ^ (w - 1) : Nat) - 1)
  | y => unsigned w (satInt w ((roundInt y z).getD 0))

/-! ### Formats (R277, Table BSN-2) -/

/-- Bits of one element; Furrow formats have none of their own. -/
def fmtBits (f : Nat) : Nat :=
  if f = 0x00 ∨ f = 0x0C then 32
  else if f = 0x01 ∨ f = 0x02 then 16
  else if f = 0x07 ∨ f = 0x08 then 6
  else if f = 0x09 then 4
  else 8

def isMx (f : Nat) : Bool := decide (0x05 ≤ f) && decide (f ≤ 0x0A)
def isFurrow (f : Nat) : Bool := f == 0x0D || f == 0x0E
def isInt (f : Nat) : Bool := f == 0x0B || f == 0x0C
def isFmt (f : Nat) : Bool := decide (f ≤ 0x0E)

/-- Bytes of one element that is a whole number of bytes. -/
def fmtBytes (f : Nat) : Nat := fmtBits f / 8

/-- Decode one element, without its shared scale. -/
def decElem (f bits : Nat) : Num :=
  if f = 0x00 then decIeee 8 23 bits
  else if f = 0x01 then decIeee 8 7 bits
  else if f = 0x02 then decIeee 5 10 bits
  else if f = 0x03 ∨ f = 0x05 then (if bits % 128 = 0x7F then .nan else decPlain 4 3 bits)
  else if f = 0x04 ∨ f = 0x06 then decIeee 5 2 bits
  else if f = 0x07 then decPlain 3 2 bits
  else if f = 0x08 then decPlain 2 3 bits
  else if f = 0x09 then decPlain 2 1 bits
  else if f = 0x0A then (Num.ofInt (signed 8 bits)).scale (-6)
  else if f = 0x0B then Num.ofInt (signed 8 bits)
  else Num.ofInt (signed 32 bits)

/-- Encode one element, already divided by its shared scale. -/
def encElem (f : Nat) (x : Num) (z : Option Nat) : Nat :=
  if f = 0x00 then encIeee 8 23 x z
  else if f = 0x01 then encIeee 8 7 x z
  else if f = 0x02 then encIeee 5 10 x z
  else if f = 0x03 ∨ f = 0x05 then encSat 4 3 0x7E 0x7F x z
  else if f = 0x04 ∨ f = 0x06 then encIeee 5 2 x z
  else if f = 0x07 then encSat 3 2 0x1F 0 x z
  else if f = 0x08 then encSat 2 3 0x1F 0 x z
  else if f = 0x09 then encSat 2 1 0x7 0 x z
  else if f = 0x0A then
    match x with
    | .nan => 0
    | .inf n => unsigned 8 (if n then -127 else 127)
    | y => unsigned 8 (max (-127) (min 127 ((roundInt (y.scale 6) z).getD 0)))
  else if f = 0x0B then encInt 8 x z
  else encInt 32 x z

/-- FP32 of a value, to nearest even. -/
def toF32 (x : Num) : BitVec 32 := BitVec.ofNat 32 (encIeee 8 23 x none)
def ofF32 (b : BitVec 32) : Num := decIeee 8 23 b.toNat

/-- Round to FP32. -/
def round32 (x : Num) : Num := ofF32 (toF32 x)

/-- A finite value with the significand FP32 gives it, so that stochastic rounding counts the bits it discards from there. -/
def norm32 (x : Num) : Num :=
  match x with
  | .fin n m e =>
    if m = 0 then x
    else
      let q := max (-149) (Num.log2 m e - 23)
      if q ≤ e then .fin n (m * 2 ^ (e - q).toNat) q else x
  | y => y

/-- a × b + c with one rounding to FP32 (R280). -/
def fma32 (a b c : Num) : Num := round32 (Num.sum [a.mul b, c])

/-- The larger of two values, in FP32: NaN where either is NaN, +0 above −0. -/
def max32 (a b : Num) : Num :=
  if a.isNan || b.isNan then .nan
  else if a.lt b then b
  else if b.lt a then a
  else if a.isNegZero then b else a

def min32 (a b : Num) : Num :=
  if a.isNan || b.isNan then .nan
  else if a.lt b then a
  else if b.lt a then b
  else if a.isNegZero then a else b

/-! ### Packed elements and shared scales (R278, R284) -/

/-- Element `i` of a packed array. -/
def elemAt (f : Nat) (p : Bytes) (i : Nat) : Nat :=
  let w := fmtBits f
  if w = 4 then byteAt p (i / 2) / (if i % 2 = 0 then 1 else 16) % 16
  else if w = 6 then le p (3 * (i / 4)) 3 / 2 ^ (6 * (i % 4)) % 64
  else le p (w / 8 * i) (w / 8)

/-- Bytes of `n` packed elements. -/
def packedLen (f n : Nat) : Nat :=
  let w := fmtBits f
  if w = 4 then ceilDiv n 2 else if w = 6 then ceilDiv n 4 * 3 else w / 8 * n

/-- Pack element codes. -/
def pack (f : Nat) (l : List Nat) : Bytes :=
  let w := fmtBits f
  if w = 4 then (List.range (ceilDiv l.length 2)).map fun i => BitVec.ofNat 8 (l.getD (2 * i) 0 + 16 * l.getD (2 * i + 1) 0)
  else if w = 6 then
    (List.range (ceilDiv l.length 4)).flatMap fun i =>
      toLe 3 (l.getD (4 * i) 0 + 2 ^ 6 * l.getD (4 * i + 1) 0 + 2 ^ 12 * l.getD (4 * i + 2) 0 + 2 ^ 18 * l.getD (4 * i + 3) 0)
  else l.flatMap (toLe (w / 8))

/-- Value of element `i` with its shared scale. -/
def scaledAt (f : Nat) (elems scales : Bytes) (i : Nat) : Num :=
  let x := decElem f (elemAt f elems i)
  if isMx f then
    let e := byteAt scales (i / 32)
    if e = 0xFF then .nan else x.scale ((e : Int) - 127)
  else x

/-- emax of an MX element format (R284). -/
def mxEmax (f : Nat) : Int :=
  if f = 0x05 then 8 else if f = 0x06 then 15 else if f = 0x07 then 4 else if f = 0x0A then 0 else 2

/-- Largest exponent of a block's finite values; infinities take the top. -/
def blockLog (l : List Num) : Option Int :=
  l.foldl (fun a x => match x with
    | .fin _ m e => if m = 0 then a else some (max (a.getD (Num.log2 m e)) (Num.log2 m e))
    | .inf _ => some 1000
    | .nan => a) none

/-- The shared exponent X of an MX block (R284). -/
def mxScale (f : Nat) (l : List Num) : Int :=
  match blockLog l with
  | none => -127
  | some k => max (-127) (min 127 (k - mxEmax f))

/-- One MX block: its scale byte and its element codes; `base` is the index of its first element. -/
def mxBlock (f : Nat) (seed : Option Nat) (base : Nat) (l : List Num) : Nat × List Nat :=
  let x := mxScale f l
  let nanScale := !(f == 0x05 || f == 0x06) && l.any Num.isNan
  let code (i : Nat) (v : Num) : Nat := encElem f ((norm32 v).scale (-x)) (seed.map fun s => srValue s (base + i))
  (if nanScale then 0xFF else (x + 127).toNat, (List.range l.length).map fun i => code i (l.getD i .zero))

/-- Split a list into pieces of `n`. -/
def chunks {α : Type} (n : Nat) (l : List α) : List (List α) :=
  (List.range (ceilDiv l.length n)).map fun i => (l.drop (n * i)).take n

/-- Convert values to a scalar or MX format: element bytes and scale bytes. -/
def convOut (f : Nat) (seed : Option Nat) (l : List Num) : Bytes × Bytes :=
  if isMx f then
    let cs := chunks 32 l
    let bs := (List.range cs.length).map fun i => mxBlock f seed (32 * i) (cs.getD i [])
    (pack f (bs.flatMap (·.2)), bs.map fun b => BitVec.ofNat 8 b.1)
  else
    (pack f ((List.range l.length).map fun i => encElem f (norm32 (l.getD i .zero)) (seed.map fun s => srValue s i)), [])

/-- K of a matrix operand format (Table BSN-3); FRWL by the format of its elements. -/
def depthOf (f : Nat) : Nat :=
  if f = 0x01 ∨ f = 0x02 ∨ f = 0x0E then 1 else if f = 0x09 ∨ f = 0x0D then 4 else 2

/-- The device saturates an INT32 accumulator (R280): the new value and whether it saturated. -/
def accInt (a : Int) (terms : List Int) : Int × Bool :=
  let t := terms.foldl (· + ·) a
  (satInt 32 t, satInt 32 t != t)

/-! ### Softmax weights (10 R335, 11 R380) -/

/-- e^(−d) in units of 2^−448, `d` in units of 2^−149: a series for d ÷ 2^16, squared 16 times; 0 from d = 256 on. -/
def expNeg (d : Nat) : Nat :=
  if 256 * 2 ^ 149 ≤ d then 0
  else
    let one := 2 ^ 448
    let z := d * 2 ^ 283
    let (p, m, _) := (List.range 60).foldl (fun (a : Nat × Nat × Nat) n =>
      let t := a.2.2 * z / one / (n + 1)
      if n % 2 = 0 then (a.1, a.2.1 + t, t) else (a.1 + t, a.2.1, t)) (one, 0, one)
    (List.range 16).foldl (fun x _ => x * x / one) (p - m)

/-- FP32 code of the largest value not above `e` ÷ `sum`, a quotient of at most 1. -/
def weightFloor (e sum : Nat) : Nat :=
  let q := e * 2 ^ 400 / sum
  let drop := max (q.log2 - 23) 251
  (drop - 251) * 2 ^ 23 + q / 2 ^ drop

/-- The FP32 weight e^(s − r) ÷ Σ e^(sⱼ − r) of score `i` among `scores`, `ref` being r: some value within 2 units in the last
place. -/
def softmax (ref : BitVec 32) (scores : List (BitVec 32)) (i : Nat) : BitVec 32 :=
  let xs := scores.map ofF32
  let units (x : Num) : Option Int := match x with
    | .fin _ _ _ => some (Num.unitsAt (-149) x)
    | _ => none
  let none_ (x : Num) : Bool := match x with
    | .nan => true
    | .inf n => !n
    | .fin _ _ _ => false
  match units (ofF32 ref) with
  | none => Config.softmaxOpen scores i
  | some r =>
    if xs.any none_ then Config.softmaxOpen scores i
    else
      let us := xs.map units
      let top := us.foldl (fun a u => max a (u.getD a)) r
      let es := us.map fun u => u.elim 0 fun v => expNeg (top - v).toNat
      BitVec.ofNat 32 (weightFloor (es.getD i 0) (es.foldl (· + ·) 0) + Config.softmaxUlp scores i % 4 - 1)

end Sys2Proof.Machine
end

