-- ==== Sys2Proof/Machine/Furrow.lean ====
section
/-! DEFINITION. Furrow blocks: FRW4 and FRWL encoding and decoding, decoding tables, and the checks of an operand port
(09 R285–R293). -/

namespace Sys2Proof.Machine

/-! ### Headers (Table BSN-6) -/

/-- The block with its LENGTH and CRC in place: `h` is bytes 0–3, `body` what follows the header. -/
def furrowBlock (h : Bytes) (body : Bytes) : Bytes :=
  let b := h ++ toLe 2 (8 + body.length) ++ zeros 2 ++ body
  splice b 6 (toLe 2 (crc16 b).toNat)

def crcOk (b : Bytes) : Bool := le b 6 2 == (crc16 (splice b 6 (zeros 2))).toNat

/-! ### FRW4 (R287, R288) -/

/-- Scale E of a group. -/
def frw4Scale (l : List Num) : Nat :=
  if l.any fun x => match x with
    | .fin _ _ _ => false
    | _ => true
  then 0xFF
  else match blockLog l with
  | none => 0
  | some k => (max 0 (k + 127)).toNat

/-- One nibble. -/
def frw4Nibble (e : Nat) (x : Num) (z : Option Nat) : Nat :=
  match norm32 x with
  | .fin n m ex =>
    if e = 0xFF then 0
    else
      let k := ((roundInt (.fin false m (ex + 129 - e)) z).getD 0).toNat
      (if n then 8 else 0) + min 7 k
  | _ => 0

/-- Value of a nibble under a scale. -/
def frw4Value (e nib : Nat) : Num :=
  if e = 0xFF then .nan else .fin (bitOf nib 3) (nib % 8) ((e : Int) - 129)

/-- Every element of a group is zero, of either sign. -/
def allZero (l : List Num) : Bool := l.all fun x => match x with
  | .fin _ m _ => m == 0
  | _ => false

/-- Encode 256 elements, a shorter list padded with zero elements; `base` is the index of the first. -/
def encFrw4 (seed : Option Nat) (base : Nat) (l : List Num) : Bytes :=
  let l := l ++ List.replicate (256 - l.length) Num.zero
  let gs := chunks 32 l
  let es := gs.map frw4Scale
  let nib (i : Nat) : Nat :=
    if allZero (gs.getD (i / 32) []) then 0
    else frw4Nibble (es.getD (i / 32) 0) (l.getD i .zero) (seed.map fun s => srValue s (base + i))
  furrowBlock (toBe 1 1 ++ zeros 3)
    (es.map (BitVec.ofNat 8 ·) ++ (List.range 128).map fun j => BitVec.ofNat 8 (nib (2 * j) + 16 * nib (2 * j + 1)))

def decFrw4 (b : Bytes) : List Num :=
  (List.range 256).map fun i => frw4Value (byteAt b (8 + i / 32)) (byteAt b (16 + i / 2) / (if i % 2 = 0 then 1 else 16) % 16)

/-! ### Decoding tables (R290) -/

/-- A valid image: some symbol present, lengths at most 12, Kraft sum at most 1. -/
def imageOk (img : Bytes) : Bool :=
  let ls := (List.range 256).map (byteAt img)
  ls.all (decide <| · ≤ 12) && ls.any (· != 0) &&
    decide (ls.foldl (fun n l => if l = 0 then n else n + 2 ^ (12 - l)) 0 ≤ 2 ^ 12)

/-- Canonical codes: (symbol, length, code). -/
def canonical (img : Bytes) : List (Nat × Nat × Nat) :=
  ((List.range 12).foldl (fun (acc : List (Nat × Nat × Nat) × Nat) k =>
    let len := k + 1
    let (out, code) := (List.range 256).foldl (fun (a : List (Nat × Nat × Nat) × Nat) x =>
      if byteAt img x = len then (a.1 ++ [(x, len, a.2)], a.2 + 1) else a) acc
    (out, 2 * code)) ([], 0)).1

/-- Bits of a string, most significant of each byte first. -/
def bitsMsb (b : Bytes) : List Bool := b.flatMap fun x => (List.range 8).map fun i => bitOf x.toNat (7 - i)

/-- Bytes of a bit string, padded with zero bits. -/
def packMsb (l : List Bool) : Bytes :=
  (chunks 8 l).map fun c => BitVec.ofNat 8 ((List.range 8).foldl (fun a i => 2 * a + ofBool (c.getD i false)) 0)

/-- The coded plane; none where a symbol is absent. -/
def encPlane (img : Bytes) (p : List Nat) : Option Bytes :=
  let cs := canonical img
  let bits := p.foldl (fun (a : Option (List Bool)) x =>
    match a, cs.find? (fun c => c.1 == x) with
    | some l, some (_, len, code) => some (l ++ (List.range len).map fun i => bitOf code (len - 1 - i))
    | _, _ => none) (some [])
  bits.map packMsb

/-- Read one code; none where none matches. -/
def readCode (cs : List (Nat × Nat × Nat)) (bits : List Bool) : Option (Nat × List Bool) :=
  let val (n : Nat) : Nat := (bits.take n).foldl (fun a b => 2 * a + ofBool b) 0
  (cs.find? fun c => decide (c.2.1 ≤ bits.length) && val c.2.1 == c.2.2).map fun c => (c.1, bits.drop c.2.1)

/-- Exactly `n` symbols from a stream. -/
def decPlane (cs : List (Nat × Nat × Nat)) (n : Nat) (bits : List Bool) : Option (List Nat) :=
  match n with
  | 0 => some []
  | n + 1 =>
    match readCode cs bits with
    | none => none
    | some (x, rest) => (decPlane cs n rest).map (x :: ·)

/-! ### FRWL (R289) -/

/-- Bytes of an element under ELEM. -/
def elemWidth (elem : Nat) : Nat := if elem = 0 then 2 else if elem = 1 then 4 else 1

/-- ELEM of a decoded format, where FRWL can hold it (R327, R339). -/
def elemOf (f : Nat) : Option Nat :=
  if f = 0x00 ∨ f = 0x0C then some 1 else if f = 0x01 ∨ f = 0x02 then some 0
  else if f = 0x03 ∨ f = 0x04 ∨ f = 0x0B then some 2 else none

/-- Encode 256 element codes of a format with a table, or raw without one. -/
def encFrwl (f slot gen : Nat) (img : Option Bytes) (l : List Nat) : Bytes :=
  let elem := (elemOf f).getD 0
  let w := elemWidth elem
  let codes := (List.range 256).map fun i => l.getD i 0
  let plane (j : Nat) : List Nat := codes.map fun c => c / 256 ^ j % 256
  let raw := (plane (w - 1)).map (BitVec.ofNat 8 ·)
  let top := (img.bind fun m => encPlane m (plane (w - 1))).bind fun b => if b.length ≤ 256 then some b else none
  let low := (List.range (w - 1)).flatMap fun i => (plane (w - 2 - i)).map (BitVec.ofNat 8 ·)
  furrowBlock (toBe 1 2 ++ toBe 1 (64 * elem + slot) ++ toBe 1 (16 * gen) ++ toBe 1 (ofBool top.isNone)) (top.getD raw ++ low)

/-- Outcome of a block at a port: a status, or 256 values. -/
inductive BlockOut where
  | bad (status : Nat)
  | values (l : List Num)
deriving DecidableEq, Repr

/-- Bytes a block occupies, to the next 16-byte boundary. -/
def blockSpan (b : Bytes) : Nat := roundUp (le b 4 2) 16

/-- LENGTH is consistent with R287 or R289 for the format that the descriptor names. -/
def lengthOk (f : Nat) (h : Bytes) : Bool :=
  let n := le h 4 2
  let elem := byteAt h 1 / 64
  if f = 0x0D then byteAt h 0 == 1 && n == 144
  else byteAt h 0 == 2 && elem != 3 &&
    (let w := elemWidth elem
     let c := n - 8 - 256 * (w - 1)
     decide (8 + 256 * (w - 1) < n) && decide (c ≤ 256) && (!bitOf (byteAt h 3) 0 || c == 256))

/-- Check and expand a block: `f` is FRW4 or FRWL, `df` the decoded format, `img` the resident table of (SLOT, GEN), which a RAW
block names too (R293). -/
def openBlock (f df : Nat) (img : Nat → Nat → Option Bytes) (b : Bytes) : BlockOut :=
  if !lengthOk f b then .bad St.badParam
  else
    let b := slice b 0 (le b 4 2)
    if f = 0x0D then (if !crcOk b then .bad St.blockCheck else .values (decFrw4 b))
    else
      let elem := byteAt b 1 / 64
      let w := elemWidth elem
      if bitOf (byteAt b 2) 0 ∨ elemOf df ≠ some elem then .bad St.badParam
      else if !crcOk b then .bad St.blockCheck
      else
        let c := b.length - 8 - 256 * (w - 1)
        let top : Option (Option (List Nat)) :=
          (img (byteAt b 1 % 64) (byteAt b 2 / 16)).map fun m =>
            if bitOf (byteAt b 3) 0 then some ((List.range 256).map fun i => byteAt b (8 + i))
            else decPlane (canonical m) 256 (bitsMsb (slice b 8 c))
        match top with
        | none => .bad St.badParam
        | some none => .bad St.blockCheck
        | some (some t) =>
          let low (j i : Nat) : Nat := byteAt b (8 + c + 256 * (w - 2 - j) + i)
          .values ((List.range 256).map fun i =>
            decElem df (t.getD i 0 * 256 ^ (w - 1) + (List.range (w - 1)).foldl (fun a j => a + low j i * 256 ^ j) 0))

end Sys2Proof.Machine
end

