-- ==== Sys2Proof/Machine/FlumeOps.lean ====
section
/-! DEFINITION. Flume descriptors and what each operation computes from the bytes it reads: address words, operands and
their layouts, the checks of 10 R322–R329, and R330–R341. An operation is a function of the bytes it has read so far: it
asks for the next range, fails, or answers what it writes. -/

namespace Sys2Proof.Machine

/-! ### Address words and ranges (10 R324, R325) -/

/-- A range of bytes: SPACE 0 the window of a slot of the queue, 1 the pool. -/
structure Range where
  space : Nat
  slot : Nat
  addr : Nat
  len : Nat
deriving DecidableEq, Repr

/-- A decoded address word (Table FLM-6). -/
inductive Addr where
  | window (slot off : Nat)
  | pool (pva : Nat)
  | net (entry : Nat)
  | none_
deriving DecidableEq, Repr

/-- Decode an address word for a descriptor on slot `me`; none where R324 makes it BAD_PARAM. -/
def addrWord (me w : Nat) : Option Addr :=
  let sp := w / 2 ^ 60
  let r := w % 2 ^ 60
  if sp = 0 then (if r < 2 ^ 21 then some (.window me r) else none)
  else if sp = 1 then (if r < 2 ^ 52 then some (.pool r) else none)
  else if sp = 2 then (if r / 2 ^ 48 = 0 ∧ r % 2 ^ 40 < 2 ^ 21 then some (.window (r / 2 ^ 40) (r % 2 ^ 40)) else none)
  else if sp = 3 then (if r < 16 then some (.net r) else none)
  else if sp = 15 ∧ r = 0 then some .none_ else none

/-- The word names the executing slot's own window, in LOCAL form. -/
def isLocal (w : Nat) : Bool := decide (w < 2 ^ 21)
def isNone (w : Nat) : Bool := w == 15 * 2 ^ 60

/-- A range `off` bytes beyond an address word. -/
def Addr.range (a : Addr) (off len : Nat) : Option Range :=
  match a with
  | .window s o => some ⟨0, s, o + off, len⟩
  | .pool p => some ⟨1, 0, p + off, len⟩
  | _ => none

def Range.meets (a b : Range) : Bool :=
  a.space == b.space && a.slot == b.slot && decide (0 < a.len) && decide (0 < b.len) &&
    decide (a.addr < b.addr + b.len) && decide (b.addr < a.addr + a.len)

/-- The address word that names a range's start. -/
def Range.word (r : Range) : Nat := if r.space = 1 then 2 ^ 60 + r.addr else 2 * 2 ^ 60 + r.slot * 2 ^ 40 + r.addr

/-! ### Operations as functions of what they read -/

/-- Why an operation stops short: it needs a range, or it fails with a status (and, for BLOCK_CHECK, a block address). -/
inductive Stop where
  | need (r : Range)
  | fail (status : Nat) (at_ : Nat)
deriving DecidableEq, Repr

/-- An operation that has been given some ranges. -/
abbrev Op := StateT (List Bytes) (Except Stop)

def rd (r : Range) : Op Bytes := fun l =>
  match l with
  | [] => .error (.need r)
  | d :: t => .ok (d, t)

def bad {α : Type} (st : Nat) (at_ : Nat := 0) : Op α := fun _ => .error (.fail st at_)

/-- BAD_PARAM unless a condition holds. -/
def must (c : Bool) : Op Unit := if c then pure () else bad St.badParam

/-- What an operation meets besides its operands. -/
structure FCtx where
  d : Bytes                      -- the descriptor
  me : Nat                       -- its slot
  levee : Nat
  sends : List SendEntry
  srcIp : Ip
  srcMac : Nat
  chain : Option (Nat × Nat)     -- the chain's own descriptors in the pool: address and length (R322)
  prev : Option Nat              -- VALUE of the previous descriptor
  counter : Nat → Option Nat     -- the levee's turn counters
  img : Nat → Nat → Option Bytes -- decoding table of (SLOT, GEN)
  status : Range → Nat           -- what a range's place gives it: OK, BAD_PARAM, …
  seed : Nat                     -- a free value

/-- What an operation answers. -/
structure OpOut where
  writes : List (Range × Bytes) := []
  value : Nat := 0
  sat : Bool := false
  srcs : List Range := []        -- what it read, for the overlap check
  same : Bool := false           -- A and D may share their start (R325)
  depends : Nat → Nat := fun _ => 0 -- bytes of operands that output tile `i` depends on
  frames : List Bytes := []      -- NET: frames after the template's changes
  entry : Nat := 0
  keys : List Bytes := []        -- SCREEN_QUERY
  wait : Option (Nat × Nat × Nat) := none -- TURN_WAIT: counter, target, timeout
  signal : Option (Nat × Nat) := none
  skip : Option Nat := none

/-! ### Fields of a descriptor (Tables FLM-4, FLM-8) -/

def FCtx.op (c : FCtx) : Nat := byteAt c.d 0
def FCtx.acc (c : FCtx) : Bool := bitOf (byteAt c.d 1) 3
def FCtx.sr (c : FCtx) : Bool := bitOf (byteAt c.d 1) 2
def FCtx.fa (c : FCtx) : Nat := byteAt c.d 2
def FCtx.fb (c : FCtx) : Nat := byteAt c.d 3
def FCtx.fd (c : FCtx) : Nat := byteAt c.d 4
def FCtx.aux (c : FCtx) : Nat := byteAt c.d 5
def FCtx.a (c : FCtx) : Nat := le c.d 8 8
def FCtx.b (c : FCtx) : Nat := le c.d 16 8
def FCtx.dd (c : FCtx) : Nat := le c.d 24 8
/-- A parameter of `n` bytes at byte `off`. -/
def FCtx.p (c : FCtx) (off n : Nat) : Nat := le c.d off n
def FCtx.srSeed (c : FCtx) : Option Nat := if c.sr then some (le c.d 32 8) else none

/-- Fixed checks of R323 and R329: ACC, AUX, SEED, formats and bytes of the parameter area an operation leaves unused. The
reserved FLAGS bits and bytes 6 and 7 are ignored (00 R7). -/
def FCtx.fixed (c : FCtx) (acc : Bool) (auxMask : Nat) (usesFmt : Nat) (zero : List (Nat × Nat)) : Op Unit :=
  must ((acc || !c.acc) && (c.sr || le c.d 32 8 == 0) &&
    (c.aux &&& auxMask) == c.aux &&
    (bitOf usesFmt 0 || c.fa == 0) && (bitOf usesFmt 1 || c.fb == 0) && (bitOf usesFmt 2 || c.fd == 0) &&
    decide (c.fa ≤ 0x0E) && decide (c.fb ≤ 0x0E) && decide (c.fd ≤ 0x0E) && zero.all fun z => c.p z.1 z.2 == 0)

/-- Decode an address word that must name memory. -/
def FCtx.mem (c : FCtx) (w : Nat) : Op Addr :=
  match addrWord c.me w with
  | some (.window s o) => pure (.window s o)
  | some (.pool p) => pure (.pool p)
  | _ => bad St.badParam

/-- A range that must lie within its window or allotment. -/
def FCtx.range (c : FCtx) (a : Addr) (off len : Nat) : Op Range :=
  match a.range off len with
  | none => bad St.badParam
  | some r => if c.status r = St.ok then pure r else bad (c.status r)

/-- Check a destination: it meets neither a source nor the chain's own descriptors (R322, R325). -/
def FCtx.dest (c : FCtx) (srcs : List Range) (r : Range) : Op Unit :=
  must (!(srcs.any r.meets) && c.chain.elim true fun x => !r.meets ⟨1, 0, x.1, x.2⟩)

def aligned (w n : Nat) : Op Unit := must (w % 2 ^ 52 % n == 0)

/-! ### Operands (R278, R325, R327) -/

/-- An array operand: format, elements, address word, SOFF. -/
structure Opnd where
  f : Nat
  n : Nat
  w : Nat
  soff : Nat
deriving DecidableEq, Repr

/-- The format of an operand's decoded elements. -/
def Opnd.inner (o : Opnd) : Nat := if o.f = 0x0E then o.soff % 256 else if o.f = 0x0D then 0 else o.f

/-- SOFF as R327 and R329 want it. -/
def Opnd.soffOk (o : Opnd) : Bool :=
  if isMx o.f then true
  else if o.f = 0x0D then o.soff == 0
  else if o.f = 0x0E then decide (o.soff < 256) && (elemOf o.soff).isSome
  else o.soff == 0

/-- Alignment of an operand: element size, or 16 for Furrow blocks. -/
def Opnd.align (o : Opnd) : Nat := if isFurrow o.f then 16 else max 1 (fmtBytes o.f)

/-- The ranges an operand of known size occupies; of FRWL, the least it can. -/
def Opnd.ranges (c : FCtx) (o : Opnd) : Op (List Range) := do
  must o.soffOk
  aligned o.w o.align
  let a ← c.mem o.w
  if isFurrow o.f then
    let r ← c.range a 0 (if o.f = 0x0D then 144 * ceilDiv o.n 256 else 16)
    pure [r]
  else
    let r ← c.range a 0 (packedLen o.f o.n)
    if isMx o.f then
      let q ← c.range a o.soff (ceilDiv o.n 32)
      pure [r, q]
    else pure [r]

/-- Read Furrow blocks back to back: values, and the ranges read. -/
def readBlocks (c : FCtx) (o : Opnd) (a : Addr) (k off : Nat) : Op (List Num × List Range) := do
  match k with
  | 0 => pure ([], [])
  | k + 1 =>
    let len ← if o.f = 0x0D then pure 144 else do
      let hr ← c.range a off 8
      let h ← rd hr
      if lengthOk o.f h then pure (le h 4 2) else bad St.badParam
    let r ← c.range a off len
    let blk ← rd r
    match openBlock o.f o.inner c.img blk with
    | .bad st => bad st r.word
    | .values l =>
      let (t, rs) ← readBlocks c o a k (off + roundUp len 16)
      pure (l ++ t, r :: rs)

/-- Read an operand: its first `n` values, and the ranges read. -/
def Opnd.read (c : FCtx) (o : Opnd) : Op (Array Num × List Range) := do
  let rs ← o.ranges c
  if isFurrow o.f then
    let a ← c.mem o.w
    let (l, rs) ← readBlocks c o a (ceilDiv o.n 256) 0
    pure ((l.take o.n).toArray, rs)
  else
    match rs with
    | [r] =>
      let d ← rd r
      pure (((List.range o.n).map fun i => scaledAt o.f d [] i).toArray, rs)
    | [r, q] =>
      let d ← rd r
      let sc ← rd q
      pure (((List.range o.n).map fun i => scaledAt o.f d sc i).toArray, rs)
    | _ => bad St.badParam

/-- The bytes that values take in an operand: (offset from its word, bytes). A Furrow result of an operation other than
COMPRESS carries FRW4 blocks, or raw FRWL blocks. -/
def Opnd.encode (o : Opnd) (seed : Option Nat) (l : List Num) : List (Nat × Bytes) :=
  if o.f = 0x0D then
    let cs := chunks 256 l
    [(0, (List.range cs.length).flatMap fun i => encFrw4 seed (256 * i) (cs.getD i []))]
  else if o.f = 0x0E then
    let codes := (List.range l.length).map fun i => encElem o.inner (norm32 (l.getD i .zero)) (seed.map fun s => srValue s i)
    let bs := (chunks 256 codes).map fun x => let b := encFrwl o.inner 0 0 none x; b ++ zeros (roundUp b.length 16 - b.length)
    [(0, bs.flatten)]
  else
    let (e, sc) := convOut o.f seed l
    if isMx o.f then [(0, e), (o.soff, sc)] else [(0, e)]

/-- The writes of a result, checked against its sources. -/
def Opnd.write (c : FCtx) (o : Opnd) (srcs : List Range) (l : List Num) : Op (List (Range × Bytes)) := do
  let a ← c.mem o.w
  (o.encode c.srSeed l).mapM fun (off, bs) => do
    let r ← c.range a off bs.length
    c.dest srcs r
    pure (r, bs)

/-- Check a result's ranges at the start where its size is known. -/
def Opnd.early (c : FCtx) (o : Opnd) (srcs : List Range) : Op Unit := do
  let rs ← o.ranges c
  rs.forM (c.dest srcs)

/-- Read a byte range that starts at an address word. -/
def rawRange (c : FCtx) (w off len : Nat) : Op Range := do
  let a ← c.mem w
  c.range a off len

/-- Output tiles depend on `k` bytes of operands for each of theirs, at most. -/
def perTile (k : Nat) (_ : Nat) : Nat := 4096 * k

/-! ### LOAD and STORE (R330, R331) -/

def opLoad (c : FCtx) : Op OpOut := do
  c.fixed false 0 0 [(44, 8), (52, 8), (60, 4)]
  let n := c.p 40 4
  must (isNone c.b && isLocal c.dd && n != 0 && decide (n ≤ 2097152))
  let r ← rawRange c c.a 0 n
  let d ← rawRange c c.dd 0 n
  c.dest [r] d
  let bs ← rd r
  pure { writes := [(d, bs)] }

/-- Where a template's headers lie: (ethertype offset, IP offset or none, UDP offset or none); none where one does not
fit. -/
def tmplHeaders (af : Nat) (t : Bytes) : Option (Nat × Option Nat × Option Nat) :=
  let e := if be t 12 2 = 0x8100 ∨ be t 12 2 = 0x88A8 then 16 else 12
  let et := be t e 2
  if t.length < e + 2 then none
  else if et = 0x0800 ∨ et = 0x86DD then
    let ip := e + 2
    let v4 := et == 0x0800
    let hl := if v4 then byteAt t ip % 16 * 4 else 40
    if (if v4 then 4 else 6) ≠ af ∨ byteAt t ip / 16 ≠ af ∨ hl < 20 ∨ t.length < ip + hl then none
    else if byteAt t (ip + (if v4 then 9 else 6)) = 17 then
      (if t.length < ip + hl + 8 then none else some (e, some ip, some (ip + hl)))
    else some (e, some ip, none)
  else some (e, none, none)

/-- IPv4 header checksum. -/
def ipChecksum (h : Bytes) : Nat :=
  let s := (List.range (h.length / 2)).foldl (fun a i => a + be h (2 * i) 2) 0
  let s := s % 65536 + s / 65536
  65535 - (s % 65536 + s / 65536) % 65536

/-- One frame of a STORE to NET: the template's changes of R331 for the `i`-th frame. -/
def netFrame (c : FCtx) (t : Bytes) (h : Nat × Option Nat × Option Nat) (i : Nat) (pay : Bytes) : Bytes :=
  let t := splice t 6 (toBe 6 c.srcMac)
  match h.2.1 with
  | none => t ++ pay
  | some ip =>
    let v4 := c.srcIp.af == 4
    let rocev2 := h.2.2.elim false fun u => be t (u + 2) 2 == 4791
    let tail := if rocev2 then 4 else 0
    let total := t.length + pay.length + tail - ip
    let t := if v4 then splice (splice (splice t (ip + 12) (toBe 4 c.srcIp.val)) (ip + 2) (toBe 2 total)) (ip + 10) (zeros 2)
      else splice (splice t (ip + 8) (toBe 16 c.srcIp.val)) (ip + 4) (toBe 2 (total - 40))
    let t := if v4 then splice t (ip + 10) (toBe 2 (ipChecksum (slice t ip (byteAt t ip % 16 * 4)))) else t
    let t := match h.2.2 with
      | some u =>
        let t := splice t (u + 4) (toBe 2 (t.length + pay.length + tail - u))
        if rocev2 && decide (u + 20 ≤ t.length) then splice t (u + 17) (toBe 3 (be t (u + 17) 3 + i)) else t
      | none => t
    t ++ pay ++ zeros tail

def opStoreNet (c : FCtx) (entry : Nat) : Op OpOut := do
  let n := c.p 40 4
  let frag := c.p 44 4
  let tlen := c.p 48 4
  must (decide (entry < c.sends.length) && isLocal c.b && decide (256 ≤ frag) && decide (frag ≤ 4096) && decide (14 ≤ tlen) &&
    decide (tlen ≤ 128))
  let r ← rawRange c c.a 0 n
  let tr ← rawRange c c.b 0 tlen
  let t ← rd tr
  match tmplHeaders c.srcIp.af t with
  | none => bad St.badParam
  | some h =>
    let bs ← rd r
    let ps := chunks frag bs
    pure { entry := entry, frames := (List.range ps.length).map fun i => netFrame c t h i (ps.getD i []) }

def opStore (c : FCtx) : Op OpOut := do
  c.fixed false 0 0 [(52, 8), (60, 4)]
  let n := c.p 40 4
  must (isLocal c.a && n != 0 && decide (n ≤ 2097152))
  match addrWord c.me c.dd with
  | some (.net e) => opStoreNet c e
  | some .none_ => bad St.badParam
  | none => bad St.badParam
  | some a =>
    must (isNone c.b && !isLocal c.dd && c.p 44 8 == 0)
    let r ← rawRange c c.a 0 n
    let d ← c.range a 0 n
    c.dest [r] d
    let bs ← rd r
    pure { writes := [(d, bs)] }

/-! ### Element-wise arithmetic (R332, R333, R338, R339) -/

/-- An integer of a value that is one. -/
def intOf (x : Num) : Int := (roundInt x none).getD 0

/-- Integer formats decode to integers, Furrow byte streams of INT8 and INT32 included. -/
def Opnd.isInt (o : Opnd) : Bool := Machine.isInt o.inner && !(o.f == 0x0D)

/-- Sum, maximum or minimum of one element's inputs, in FP32 one after another. -/
def reduceF (rop : Nat) (l : List Num) : Num :=
  match l with
  | [] => .zero
  | x :: t => t.foldl (fun a y => if rop = 0 then round32 (Num.sum [a, y]) else if rop = 1 then max32 a y else min32 a y) (round32 x)

/-- The same of integers, into INT32 with saturation. -/
def reduceI (rop : Nat) (l : List Int) : Int × Bool :=
  match l with
  | [] => (0, false)
  | x :: t =>
    if rop = 0 then accInt 0 (x :: t)
    else (t.foldl (fun a y => if rop = 1 then max a y else min a y) x, false)

def opReduce (c : FCtx) : Op OpOut := do
  let rop := c.p 44 1
  let nsrc := c.p 45 1
  c.fixed true 0 0b101 [(46, 2), (56, 4)]
  let n := c.p 40 4
  let stride := c.p 48 4
  must (n != 0 && decide (n ≤ 2 ^ 24) && decide (rop ≤ 2) && decide (2 ≤ nsrc) && decide (nsrc ≤ 16) && isNone c.b)
  let src (j : Nat) : Opnd := ⟨c.fa, n, c.a + j * stride, c.p 52 4⟩
  let d : Opnd := ⟨c.fd, n, c.dd, c.p 60 4⟩
  must (d.soffOk && (src 0).soffOk && (src 0).isInt == d.isInt)
  let early ← (List.range nsrc).mapM fun j => (src j).ranges c
  d.early c early.flatten
  let ins ← (List.range nsrc).mapM fun j => (src j).read c
  let old ← if c.acc then (do let x ← d.read c; pure [x.1]) else pure []
  let vals := (ins.map (·.1)) ++ old
  let srcs := ins.flatMap (·.2)
  let el (i : Nat) : List Num := vals.map fun v => v.getD i .zero
  if d.isInt then
    let rs := (List.range n).map fun i => reduceI rop ((el i).map intOf)
    let ws ← d.write c srcs (rs.map fun x => Num.ofInt x.1)
    pure { writes := ws, srcs := srcs, sat := rs.any (·.2), depends := perTile (16 * nsrc) }
  else
    let ws ← d.write c srcs ((List.range n).map fun i => reduceF rop (el i))
    pure { writes := ws, srcs := srcs, depends := perTile (16 * nsrc) }

/-- R325's exception: A and D start at the same place with elements of one size. -/
def sameStart (x y : Opnd) : Bool := x.w == y.w && fmtBits x.f == fmtBits y.f && !isFurrow x.f && !isFurrow y.f

def opAxpy (c : FCtx) : Op OpOut := do
  c.fixed false 0 0b111 []
  let n := c.p 40 4
  must (n != 0 && decide (n ≤ 2 ^ 24))
  let x : Opnd := ⟨c.fa, n, c.a, c.p 52 4⟩
  let y : Opnd := ⟨c.fb, n, c.b, c.p 56 4⟩
  let d : Opnd := ⟨c.fd, n, c.dd, c.p 60 4⟩
  let ra ← x.ranges c
  let rb ← y.ranges c
  let same := sameStart x d
  d.early c (if same then rb else ra ++ rb)
  let (va, sa) ← x.read c
  let (vb, sb) ← y.read c
  let al := ofF32 (BitVec.ofNat 32 (c.p 44 4))
  let be_ := ofF32 (BitVec.ofNat 32 (c.p 48 4))
  let out := (List.range n).map fun i =>
    fma32 al (va.getD i .zero) (fma32 be_ (vb.getD i .zero) .zero)
  let srcs := if same then sb else sa ++ sb
  let ws ← d.write c srcs out
  pure { writes := ws, srcs := srcs, same := same, depends := perTile 16 }

def opScan (c : FCtx) : Op OpOut := do
  c.fixed false 1 0b101 [(44, 8), (56, 4)]
  let n := c.p 40 4
  must (n != 0 && decide (n ≤ 2 ^ 24) && isNone c.b)
  let x : Opnd := ⟨c.fa, n, c.a, c.p 52 4⟩
  let d : Opnd := ⟨c.fd, n, c.dd, c.p 60 4⟩
  let ra ← x.ranges c
  d.early c ra
  let (v, srcs) ← x.read c
  let ex := bitOf c.aux 0
  let out : List Num × Bool :=
    if x.isInt then
      let (l, _, sat) := (List.range n).foldl (fun (st : List Int × Int × Bool) i =>
        let (l, a, sat) := st
        let (a', q) := accInt a [intOf (v.getD i .zero)]
        (l ++ [if ex then a else a'], a', sat || q)) ([], 0, false)
      (l.map Num.ofInt, sat)
    else
      let (l, _) := (List.range n).foldl (fun (st : List Num × Num) i =>
        let (l, a) := st
        let a' := if i = 0 then round32 (v.getD 0 .zero) else round32 (Num.sum [a, v.getD i .zero])
        (l ++ [if ex then a else a'], a')) ([], Num.zero)
      (l, false)
  let ws ← d.write c srcs out.1
  pure { writes := ws, srcs := srcs, sat := out.2, depends := fun i => 16 * 4096 * (i + 1) }

/-- The quotient of two finite values rounded to an integer, to nearest even. -/
def divRound (x y : Num) : Option Int :=
  match x, y with
  | .fin a m e, .fin b n f =>
    if n = 0 then none
    else
      let (p, q) := if f ≤ e then (m * 2 ^ (e - f).toNat, n) else (m, n * 2 ^ (f - e).toNat)
      let k := p / q
      let r := 2 * (p % q)
      let k := if q < r ∨ (r = q ∧ k % 2 = 1) then k + 1 else k
      some (if a != b then -(k : Int) else k)
  | _, _ => none

/-- The quotient in FP32 for stochastic rounding: enough quotient bits and a sticky one, rounded once. -/
def divF32 (x y : Num) : Num :=
  match x, y with
  | .fin a m e, .fin b n f =>
    if n = 0 then .nan
    else
      let p := m * 2 ^ 320
      let k := 2 * (p / n) + ofBool (p % n != 0)
      round32 (.fin (a != b) k (e - f - 321))
  | .inf a, .fin b _ _ => .inf (a != b)
  | .fin a _ _, .inf b => .fin (a != b) 0 0
  | _, _ => .nan

/-- x ÷ SCALE as INT8 (R339). -/
def quant8 (x sc : Num) (z : Option Nat) : Num :=
  match z with
  | some _ => (match divF32 x sc with
    | .fin n m e => Num.ofInt ((roundInt (norm32 (.fin n m e)) z).getD 0)
    | y => y)
  | none => (match x with
    | .fin _ _ _ => Num.ofInt ((divRound x sc).getD 0)
    | y => (match y with
      | .inf n => .inf (n != (match sc with
        | .fin b _ _ => b
        | _ => false))
      | w => w))

def isFin (x : Num) : Bool :=
  match x with
  | .fin _ m _ => m != 0
  | _ => false

def opQuantise (c : FCtx) : Op OpOut := do
  c.fixed false 0 0b101 [(48, 8), (56, 4)]
  let n := c.p 40 4
  let sc := ofF32 (BitVec.ofNat 32 (c.p 44 4))
  must (n != 0 && decide (n ≤ 2 ^ 24) && isNone c.b && decide (c.fa ≤ 2) && decide (3 ≤ c.fd) && decide (c.fd ≤ 0x0B) &&
    (c.fd != 0x0B || isFin sc))
  let x : Opnd := ⟨c.fa, n, c.a, 0⟩
  let d : Opnd := ⟨c.fd, n, c.dd, c.p 60 4⟩
  let ra ← x.ranges c
  let same := sameStart x d
  d.early c (if same then [] else ra)
  let (v, srcs) ← x.read c
  let srcs := if same then [] else srcs
  if c.fd = 0x0B then
    let ws ← d.write c srcs ((List.range n).map fun i => quant8 (v.getD i .zero) sc (c.srSeed.map fun s => srValue s i))
    pure { writes := ws, srcs := srcs, same := same, depends := perTile 4 }
  else
    let ws ← d.write c srcs v.toList
    pure { writes := ws, srcs := srcs, same := same, depends := perTile 8 }

def opDequantise (c : FCtx) : Op OpOut := do
  c.fixed false 0 0b101 [(48, 4), (56, 8)]
  let n := c.p 40 4
  let sc := ofF32 (BitVec.ofNat 32 (c.p 44 4))
  let ints := c.fa == 0x0B || c.fa == 0x0C
  must (n != 0 && decide (n ≤ 2 ^ 24) && isNone c.b && decide (3 ≤ c.fa) && decide (c.fa ≤ 0x0C) && decide (c.fd ≤ 2) &&
    (!ints || isFin sc))
  let x : Opnd := ⟨c.fa, n, c.a, c.p 52 4⟩
  let d : Opnd := ⟨c.fd, n, c.dd, 0⟩
  let ra ← x.ranges c
  let same := sameStart x d
  d.early c (if same then [] else ra)
  let (v, srcs) ← x.read c
  let srcs := if same then [] else srcs
  let out := (List.range n).map fun i => let y := v.getD i .zero; if ints then round32 (y.mul sc) else y
  let ws ← d.write c srcs out
  pure { writes := ws, srcs := srcs, same := same, depends := perTile 4 }

/-! ### Furrow (R339) -/

/-- One COMPRESS block per 256 elements, back to back on 16-byte boundaries; the bytes written end with the last block. -/
def packBlocks (bs : List Bytes) : Bytes :=
  let n := bs.length
  ((List.range n).map fun i => let b := bs.getD i []; if i + 1 = n then b else b ++ zeros (roundUp b.length 16 - b.length)).flatten

def opCompress (c : FCtx) : Op OpOut := do
  c.fixed false 1 0b101 [(52, 8), (60, 4)]
  let n := c.p 40 4
  let cap := c.p 44 4
  let slot := c.p 48 1
  let gen := c.p 49 1
  let ef := bitOf c.aux 0
  must (n != 0 && decide (n ≤ 2 ^ 24) && decide (16 ≤ cap) && decide (cap ≤ 2 ^ 24) && isFurrow c.fd && decide (slot < 64) &&
    decide (gen < 16) && c.p 50 2 == 0 && ef == !isNone c.b)
  aligned c.dd 16
  let x : Opnd := ⟨c.fa, n, c.a, 0⟩
  let ra ← x.ranges c
  let dr ← rawRange c c.dd 0 cap
  if c.fd = 0x0D then
    must (decide (c.fa ≤ 2))
    let r : Opnd := ⟨0, n, c.b, 0⟩
    let rr ← if ef then r.ranges c else pure []
    c.dest (ra ++ rr) dr
    rr.forM (c.dest ra)
    let (v, _) ← x.read c
    let res ← if ef then (do let y ← r.read c; pure y.1) else pure #[]
    let e (i : Nat) : Num := if ef then round32 (Num.sum [v.getD i .zero, res.getD i .zero]) else v.getD i .zero
    let cs := chunks 256 ((List.range n).map e)
    let bs := (List.range cs.length).map fun i => encFrw4 c.srSeed (256 * i) (cs.getD i [])
    let out := packBlocks bs
    if cap < out.length then bad St.exhausted
    else
      let dec := (bs.flatMap decFrw4).toArray
      let w := [({ dr with len := out.length }, out)]
      if ef then
        let new := (List.range n).flatMap fun i => toLe 4 (toF32 (Num.sum [e i, (dec.getD i .zero).negate])).toNat
        let q ← rawRange c c.b 0 new.length
        pure { writes := w ++ [(q, new)], value := out.length, depends := perTile 16 }
      else pure { writes := w, value := out.length, depends := perTile 16 }
  else
    must (!ef && (elemOf c.fa).isSome)
    c.dest ra dr
    match c.img slot gen with
    | none => bad St.badParam
    | some m =>
      match ra with
      | [r] =>
        let d ← rd r
        let codes := (List.range n).map fun i => elemAt c.fa d i
        let out := packBlocks ((chunks 256 codes).map fun l => encFrwl c.fa slot gen (some m) l)
        if cap < out.length then bad St.exhausted
        else pure { writes := [({ dr with len := out.length }, out)], value := out.length, depends := perTile 16 }
      | _ => bad St.badParam

def opExpand (c : FCtx) : Op OpOut := do
  c.fixed false 0 0b101 [(44, 8), (56, 8)]
  let n := c.p 40 4
  must (n != 0 && decide (n ≤ 2 ^ 24) && isNone c.b && isFurrow c.fa && decide (c.fd ≤ 2))
  let x : Opnd := ⟨c.fa, n, c.a, c.p 52 4⟩
  let d : Opnd := ⟨c.fd, n, c.dd, 0⟩
  let ra ← x.ranges c
  d.early c ra
  let (v, srcs) ← x.read c
  let ws ← d.write c srcs v.toList
  pure { writes := ws, srcs := srcs, depends := perTile 4 }

/-! ### Matrices (R327, R334) -/

/-- Element (r, k) of an A operand of Kb block columns, and of a D of Nb. -/
def flatA (kb r k : Nat) : Nat := ((r / 32) * kb + k / 32) * 1024 + r % 32 * 32 + k % 32
/-- Element (k, n) of a B operand of Kb blocks along K. -/
def flatB (kb k n : Nat) : Nat := ((n / 32) * kb + k / 32) * 1024 + n % 32 * 32 + k % 32

/-- One output in FP32: steps of `depth` products in ascending k, each summed with the accumulator and rounded once
(R280). -/
def dotF (depth : Nat) (acc : Num) (xs : List (Num × Num)) : Num :=
  (chunks depth xs).foldl (fun a ps => round32 (Num.sum (a :: ps.map fun p => p.1.mul p.2))) acc

/-- One INT8 output. -/
def dotI (depth : Nat) (acc : Int) (xs : List (Num × Num)) : Int × Bool :=
  (chunks depth xs).foldl (fun (st : Int × Bool) ps =>
    let (v, q) := accInt st.1 (ps.map fun p => intOf p.1 * intOf p.2)
    (v, st.2 || q)) (acc, false)

/-- A matrix operand is accepted (R277, R279). -/
def matrixOk (o : Opnd) : Bool :=
  o.soffOk && (if o.f = 0x0E then (elemOf o.soff).elim false (· != 1) else o.f != 0x00 && o.f != 0x0C)

/-- GEMM and GEMV over flat operands: `at_ r n` where an output lies in D, `bAt k n` where B holds its element. -/
def matrixOp (c : FCtx) (m n k : Nat) (x y d : Opnd) (bAt : Nat → Nat → Nat) (total : Nat)
    (at_ : Nat → Nat → Nat) (dep : Nat) : Op OpOut := do
  must (matrixOk x && matrixOk y && (x.isInt == y.isInt) && decide (c.fa ≤ 0x0E))
  let ra ← x.ranges c
  let rb ← y.ranges c
  d.early c (ra ++ rb)
  let (va, sa) ← x.read c
  let (vb, sb) ← y.read c
  let old ← if c.acc then (do let z ← d.read c; pure z.1) else pure #[]
  let kb := ceilDiv k 32
  let depth := min (depthOf x.f) (depthOf y.f)
  let pairs (r q : Nat) : List (Num × Num) :=
    (List.range k).map fun i => (va.getD (flatA kb r i) .zero, vb.getD (bAt i q) .zero)
  let cells := (List.range m).flatMap fun r => (List.range n).map fun q => (r, q)
  let zero : Array Num := (List.replicate total Num.zero).toArray
  let srcs := sa ++ sb
  if x.isInt then
    let (out, sat) := cells.foldl (fun (st : Array Num × Bool) rq =>
      let (v, q) := dotI depth (if c.acc then intOf (old.getD (at_ rq.1 rq.2) .zero) else 0) (pairs rq.1 rq.2)
      (st.1.setIfInBounds (at_ rq.1 rq.2) (Num.ofInt v), st.2 || q)) (zero, false)
    let ws ← d.write c srcs out.toList
    pure { writes := ws, srcs := srcs, sat := sat, depends := fun _ => dep }
  else
    let out := cells.foldl (fun (st : Array Num) rq =>
      st.setIfInBounds (at_ rq.1 rq.2)
        (dotF depth (if c.acc then round32 (old.getD (at_ rq.1 rq.2) .zero) else .zero) (pairs rq.1 rq.2))) zero
    let ws ← d.write c srcs out.toList
    pure { writes := ws, srcs := srcs, depends := fun _ => dep }

/-- Bytes `n` elements of an operand take, scales included. -/
def operandBytes (f n : Nat) : Nat := if isFurrow f then 5 * n else packedLen f n + n / 32

/-- Elements an output tile of 4,096 bytes holds. -/
def tileElems (f : Nat) : Nat := if isFurrow f then 7282 else 32768 / fmtBits f

def opGemm (c : FCtx) : Op OpOut := do
  c.fixed true 1 0b111 []
  let m := c.p 40 4
  let n := c.p 44 4
  let k := c.p 48 4
  must (m != 0 && n != 0 && k != 0 && decide (m ≤ 65536) && decide (n ≤ 65536) && decide (k ≤ 1048576))
  let mb := ceilDiv m 32
  let nb := ceilDiv n 32
  let kb := ceilDiv k 32
  let dt := bitOf c.aux 0
  let total := mb * nb * 1024
  matrixOp c m n k ⟨c.fa, mb * kb * 1024, c.a, c.p 52 4⟩ ⟨c.fb, kb * nb * 1024, c.b, c.p 56 4⟩
    ⟨c.fd, total, c.dd, c.p 60 4⟩ (flatB kb) total (fun r q => if dt then flatB mb r q else flatA nb r q)
    (operandBytes c.fa (32 * 32 * kb) * (if dt then ceilDiv (tileElems c.fd) 1024 else 1) +
      operandBytes c.fb (32 * 32 * kb) * (if dt then 1 else ceilDiv (tileElems c.fd) 1024))

def opGemv (c : FCtx) : Op OpOut := do
  c.fixed true 0 0b111 [(44, 4)]
  let m := c.p 40 4
  let k := c.p 48 4
  must (m != 0 && k != 0 && decide (m ≤ 65536) && decide (k ≤ 1048576))
  let mb := ceilDiv m 32
  let kb := ceilDiv k 32
  matrixOp c m 1 k ⟨c.fa, mb * kb * 1024, c.a, c.p 52 4⟩ ⟨c.fb, k, c.b, c.p 56 4⟩ ⟨c.fd, m, c.dd, c.p 60 4⟩
    (fun i _ => i) m (fun r _ => r) (operandBytes c.fa (32 * kb * (tileElems c.fd)) + operandBytes c.fb k)

/-! ### Selection (R335, R337) -/

/-- Score `x` ranks before `y` where neither is the same: numbers before NaN, larger (or smaller) first. -/
def ranks (small : Bool) (x y : Num) : Bool :=
  if x.isNan then false else if y.isNan then true else if small then x.lt y else y.lt x

/-- Insert an index in rank order; an equal score keeps the lower index first. -/
def rankInsert (small : Bool) (v : Nat → Num) (i : Nat) (l : List Nat) : List Nat :=
  match l with
  | [] => [i]
  | j :: t => if ranks small (v i) (v j) then i :: j :: t else j :: rankInsert small v i t

/-- The first `k` indices of a row in rank order. -/
def topK (small : Bool) (len k : Nat) (v : Nat → Num) : List Nat :=
  ((List.range len).foldl (fun l i => (rankInsert small v i l).take k) [])

def opTopk (c : FCtx) : Op OpOut := do
  let none_ := isNone c.b
  c.fixed false 3 (if none_ then 0b101 else 0b111) [(50, 2), (56, 8)]
  let rows := c.p 40 4
  let len := c.p 44 4
  let k := c.p 48 2
  let small := bitOf c.aux 0
  let soft := bitOf c.aux 1
  must (rows != 0 && decide (rows ≤ 65536) && len != 0 && decide (len ≤ 65536) && k != 0 && decide (k ≤ 256) && decide (k ≤ len) &&
    c.fd == 0x0C && !isMx c.fb && c.fb != 0x0E)
  let x : Opnd := ⟨c.fa, rows * len, c.a, c.p 52 4⟩
  let d : Opnd := ⟨0x0C, rows * k, c.dd, 0⟩
  let e : Opnd := ⟨c.fb, rows * k, c.b, 0⟩
  let ra ← x.ranges c
  d.early c ra
  let rd_ ← d.ranges c
  if !none_ then e.early c (ra ++ rd_)
  let (v, srcs) ← x.read c
  let sel := (List.range rows).map fun r => (r, topK small len k fun i => v.getD (r * len + i) .zero)
  let ws ← d.write c srcs (sel.flatMap fun x => x.2.map fun i => Num.ofInt i)
  let dep (_ : Nat) : Nat := 4 * len * (1024 / k + 2)
  if none_ then pure { writes := ws, srcs := srcs, depends := dep }
  else
    let vals := sel.flatMap fun (r, is) =>
      let sc := is.map fun i => v.getD (r * len + i) .zero
      let fs := sc.map toF32
      if soft then (List.range k).map fun i => ofF32 (softmax (fs.getD 0 0) fs i) else sc
    let we ← e.write c srcs vals
    pure { writes := ws ++ we, srcs := srcs, depends := dep }

/-- A comparison of Table FLM-9; with a NaN only "not equal" holds. -/
def cmpNum (cmp : Nat) (x y : Num) : Bool :=
  if x.isNan || y.isNan then cmp == 1
  else if cmp = 0 then x.eq y
  else if cmp = 1 then !x.eq y
  else if cmp = 2 then x.lt y
  else if cmp = 3 then !y.lt x
  else if cmp = 4 then y.lt x
  else !x.lt y

def opFilter (c : FCtx) : Op OpOut := do
  c.fixed false 0 0b001 [(55, 1), (60, 4)]
  let n := c.p 40 4
  let rb := c.p 44 4
  let cmp := c.p 54 1
  let keyOff := c.p 52 2
  must (n != 0 && decide (n ≤ 2 ^ 24) && decide (rb ≤ 65536) && decide (cmp ≤ 5) && !isFurrow c.fa &&
    (rb != 0 || keyOff == 0) && (rb == 0 || decide (keyOff + max 1 (fmtBytes c.fa) ≤ rb)))
  let whole := rb == 0
  let x : Opnd := ⟨c.fa, n, c.a, c.p 56 4⟩
  must x.soffOk
  let dlen := if whole then packedLen c.fa n else n * rb
  let a ← c.mem c.a
  if whole then aligned c.a x.align
  let r ← c.range a 0 dlen
  let sc ← if isMx c.fa then (do let q ← c.range a x.soff (ceilDiv n 32); pure [q]) else pure []
  let dr ← rawRange c c.dd 0 dlen
  c.dest (r :: sc) dr
  let br ← if isNone c.b then pure [] else (do aligned c.b 4; let q ← rawRange c c.b 0 (4 * n); pure [q])
  br.forM (c.dest (dr :: r :: sc))
  let bs ← rd r
  let ss ← match sc with
    | [q] => rd q
    | _ => pure []
  let t := if isInt c.fa then Num.ofInt (signed 32 (c.p 48 4)) else ofF32 (BitVec.ofNat 32 (c.p 48 4))
  let key (i : Nat) : Num :=
    if whole then scaledAt c.fa bs ss i
    else
      let v := decElem c.fa (elemAt c.fa (slice bs (i * rb + keyOff) (max 1 (fmtBytes c.fa))) 0)
      if isMx c.fa then
        let e := byteAt ss (i / 32)
        if e = 0xFF then .nan else v.scale ((e : Int) - 127)
      else v
  let hits := (List.range n).filter fun i => cmpNum cmp (key i) t
  let out := if whole then pack c.fa (hits.map (elemAt c.fa bs)) else hits.flatMap fun i => slice bs (i * rb) rb
  let ws := [({ dr with len := out.length }, out)]
  let idx := hits.flatMap (toLe 4)
  pure { writes := ws ++ br.map (fun q => ({ q with len := idx.length }, idx)), value := hits.length,
         depends := fun _ => dlen }

/-! ### Rows by index (R336) -/

/-- The `n` unsigned indices at B. -/
def readIdx (c : FCtx) (n : Nat) : Op (List Nat × Range) := do
  aligned c.b 4
  let r ← rawRange c c.b 0 (4 * n)
  let d ← rd r
  pure ((List.range n).map fun i => le d (4 * i) 4, r)

def opGather (c : FCtx) : Op OpOut := do
  c.fixed false 0 0 [(52, 8), (60, 4)]
  let n := c.p 40 4
  let rb := c.p 44 4
  let rows := c.p 48 4
  must (n != 0 && decide (n ≤ 2 ^ 20) && rb != 0 && decide (rb ≤ 65536) && rows != 0 && decide (rows ≤ 2 ^ 31))
  let tr ← rawRange c c.a 0 (rows * rb)
  let ir ← rawRange c c.b 0 (4 * n)
  let dr ← rawRange c c.dd 0 (n * rb)
  c.dest [tr, ir] dr
  let (idx, _) ← readIdx c n
  must (idx.all (decide <| · < rows))
  let out ← idx.mapM fun i => do
    let r ← rawRange c c.a (i * rb) rb
    rd r
  pure { writes := [(dr, out.flatten)], srcs := [], depends := perTile 6 }

/-- One of the orders of a list, named by a number. -/
def orderOf {α : Type} (seed : Nat) (l : List α) (fuel : Nat) : List α :=
  match fuel, l with
  | 0, l => l
  | _, [] => []
  | fuel + 1, x :: t =>
    let k := seed % (t.length + 1)
    match (x :: t)[k]? with
    | some y => y :: orderOf (seed / (t.length + 1)) ((x :: t).eraseIdx k) fuel
    | none => x :: t

/-- Add a row to the table's row `j` as it stands, element by element, in FP32; under SR an element takes the number it has in
the output, which is the table (R283). -/
def addRow (c : FCtx) (j rb : Nat) (d a : Bytes) : Bytes :=
  let n := min (d.length / fmtBytes c.fd) (a.length / fmtBytes c.fa)
  let out := (List.range n).map fun i =>
    encElem c.fd (norm32 (round32 (Num.sum [decElem c.fd (elemAt c.fd d i), decElem c.fa (elemAt c.fa a i)])))
      (c.srSeed.map fun s => srValue s (j * (rb / fmtBytes c.fd) + i))
  splice d 0 (pack c.fd out)

def opScatter (c : FCtx) : Op OpOut := do
  c.fixed true 0 (if c.acc then 0b101 else 0) [(52, 8), (60, 4)]
  let n := c.p 40 4
  let rb := c.p 44 4
  let rows := c.p 48 4
  let plain (f : Nat) : Bool := !isMx f && !isFurrow f
  must (n != 0 && decide (n ≤ 2 ^ 20) && rb != 0 && decide (rb ≤ 65536) && rows != 0 && decide (rows ≤ 2 ^ 31) &&
    (!c.acc || (plain c.fa && plain c.fd && rb % fmtBytes c.fa == 0 && rb % fmtBytes c.fd == 0)))
  if c.acc then (do aligned c.a (fmtBytes c.fa); aligned c.dd (fmtBytes c.fd))
  let ar ← rawRange c c.a 0 (n * rb)
  let ir ← rawRange c c.b 0 (4 * n)
  let tr ← rawRange c c.dd 0 (rows * rb)
  c.dest [ar, ir] tr
  let (idx, _) ← readIdx c n
  must (idx.all (decide <| · < rows))
  let bs ← rd ar
  let targets := idx.eraseDups
  let from_ (j : Nat) : List Bytes := ((List.range n).filter fun i => idx.getD i 0 == j).map fun i => slice bs (i * rb) rb
  let ws ← targets.mapM fun j => do
    let r ← rawRange c c.dd (j * rb) rb
    if c.acc then
      let old ← rd r
      pure (r, (orderOf c.seed (from_ j) n).foldl (addRow c j rb) old)
    else pure (r, ((from_ j).getLast?).getD [])
  pure { writes := ws, srcs := [], depends := fun _ => 4 * n + 4096 * 2 }

/-! ### Searches, turns and skips (R340, R341, R344) -/

def opScreenQuery (c : FCtx) : Op OpOut := do
  c.fixed false 0 0 [(44, 8), (52, 8), (60, 4)]
  let n := c.p 40 4
  must (n != 0 && decide (n ≤ 65536) && isNone c.b)
  let r ← rawRange c c.a 0 (32 * n)
  let d ← rawRange c c.dd 0 (8 * n)
  c.dest [r] d
  let bs ← rd r
  pure { writes := [(d, [])], keys := (List.range n).map fun i => slice bs (32 * i) 18 }

/-- A counter of the queue's levee. -/
def FCtx.counterOf (c : FCtx) (k : Nat) : Op Nat :=
  match c.counter k with
  | some v => pure v
  | none => bad St.badParam

def opTurnWait (c : FCtx) : Op OpOut := do
  c.fixed false 0 0 [(46, 2), (52, 8), (60, 4)]
  must (isNone c.a && isNone c.b && isNone c.dd)
  let k := c.p 44 2
  let v ← c.counterOf k
  if turnReached v (c.p 40 4) then pure { value := v } else pure { wait := some (k, c.p 40 4, c.p 48 4) }

def opTurnSignal (c : FCtx) : Op OpOut := do
  c.fixed false 0 0 [(46, 2), (48, 8), (56, 8)]
  let inc := c.p 40 4
  must (isNone c.a && isNone c.b && isNone c.dd && inc != 0 && decide (inc < 2 ^ 31))
  let k := c.p 44 2
  let _ ← c.counterOf k
  pure { signal := some (k, inc) }

/-- The condition of a SKIP on integers. -/
def cmpInt (cmp : Nat) (x y : Int) : Bool := cmpNum cmp (.ofInt x) (.ofInt y)

def opSkip (c : FCtx) : Op OpOut := do
  c.fixed false 0 0 [(50, 2), (52, 8), (60, 4)]
  let v := c.p 40 4
  let nskip := c.p 46 2
  let src := c.p 48 1
  let cmp := c.p 49 1
  must (nskip != 0 && decide (src ≤ 2) && decide (cmp ≤ 5) && isNone c.b && isNone c.dd && (if src = 1 then isLocal c.a else isNone c.a))
  let holds ← if src = 0 then (do
      let x ← c.counterOf (c.p 44 2)
      pure (cmpInt cmp (signed 32 (x + 2 ^ 32 - v)) 0))
    else if src = 1 then (do
      aligned c.a 4
      let r ← rawRange c c.a 0 4
      let d ← rd r
      pure (cmpInt cmp (le d 0 4) v))
    else match c.prev with
      | none => bad St.badParam
      | some x => pure (cmpInt cmp (x % 2 ^ 32 : Nat) v)
  pure { skip := if holds then some nskip else none }

/-- The operation of a code (Table FLM-7). -/
def opOf (code : Nat) : Option (FCtx → Op OpOut) :=
  match code with
  | 0x01 => some opLoad
  | 0x02 => some opStore
  | 0x03 => some opReduce
  | 0x04 => some opAxpy
  | 0x05 => some opGemm
  | 0x06 => some opGemv
  | 0x07 => some opTopk
  | 0x08 => some opGather
  | 0x09 => some opScatter
  | 0x0A => some opFilter
  | 0x0B => some opScan
  | 0x0C => some opQuantise
  | 0x0D => some opDequantise
  | 0x0E => some opCompress
  | 0x0F => some opExpand
  | 0x10 => some opScreenQuery
  | 0x11 => some opTurnWait
  | 0x12 => some opTurnSignal
  | 0x13 => some opSkip
  | _ => none

end Sys2Proof.Machine
end

