-- ==== Sys2Proof/Machine/Flume.lean ====
section
/-! DEFINITION. Flume queues, posts, chains and their descriptors on the basins, completion records, dip-window tagging and
replay, slot moves (09 R297–R300, 10 R312–R352). -/

namespace Sys2Proof.Machine

/-! ### Queues, slots and windows (R312–R316) -/

def State.queue (s : State) (q : Nat) : Option Queue := Tab.get? s.flm.queues q
def State.chain (s : State) (c : Nat) : Option Chain := Tab.get? s.flm.chains c
def State.setQueue (s : State) (q : Nat) (x : Queue) : State := { s with flm := { s.flm with queues := Tab.set s.flm.queues q x } }
def State.modQueue (s : State) (q : Nat) (f : Queue → Queue) : State :=
  { s with flm := { s.flm with queues := Tab.upd s.flm.queues q f } }
def State.modChain (s : State) (c : Nat) (f : Chain → Chain) : State :=
  { s with flm := { s.flm with chains := Tab.upd s.flm.chains c f } }

/-- A gauge of a queue (Table FLM-14). -/
def flmCount (row idx q n : Nat) (s : State) : State := s.count (gk 7 row idx q) n

/-- The slot of a chain, unless it is lost. -/
def slotOf (s : State) (c : Chain) : Option Slot := (s.queue c.queue).bind fun q => q.slots[c.slot]?

def setSlot (q i : Nat) (x : Slot) (s : State) : State := s.modQueue q fun y => { y with slots := y.slots.set i x }

/-- A send entry of Table FLM-2; none where a field is out of range. -/
def parseSend (s : State) (e : Bytes) : Option SendEntry :=
  let k := byteAt e 0
  let t := be e 2 2
  if 1 < k ∨ 7 < byteAt e 1 ∨ (k = 0 ∧ (511 < t ∨ !s.portExists t)) ∨ (k = 1 ∧ 16383 < t) then none
  else some ⟨k, byteAt e 1, t⟩

/-- A send entry names a fenced port or a tree with a fenced member. -/
def sendFenced (s : State) (e : SendEntry) : Bool :=
  if e.kind = 0 then s.portFenced e.target else (Tab.getD s.sw.trees e.target []).any (memberFenced s)

def bodyFlumeQueueCreate (r : KReq) (s : State) : Ans :=
  let p := par r
  let levee := be p 0 2 % 1024
  let depth := be p 2 2
  let nt := be p 4 2
  let ns := be p 6 2
  let nsend := byteAt p 8
  let af := byteAt p 16
  let bs := (List.range ns).map fun i => byteAt p (48 + i)
  let sends := (List.range nsend).map fun i => parseSend s (slice p (304 + 16 * i) 16)
  let badFields := leveeBad s levee || depth == 0 || decide (4096 < depth) || nt == 0 || decide (512 < nt) || ns == 0 ||
    decide (256 < ns) || decide (16 < nsend) || !(af == 4 || af == 6) || (af == 4 && be p 20 12 != 0) ||
    (List.range (256 - ns)).any (fun i => byteAt p (48 + ns + i) != 0) ||
    (slice p (304 + 16 * nsend) (256 - 16 * nsend)).any (· != 0) || bs.eraseDups.length != bs.length ||
    sends.any (·.isNone)
  checks s [(plen r != 560, St.badLength), (badFields, St.badParam), (s.retiring levee, St.busy),
      (decide (4096 ≤ s.flm.queues.length) || bs.any fun b => decide ((freeTiles s b).length < nt), St.exhausted)] fun _ =>
    if (sends.filterMap id).any (sendFenced s) then guardReject s r levee 11
    else
      let q := (Tab.lowestFree s.flm.queues 4096).getD 0
      let slots := bs.map fun b => ({ basin := b, tiles := (freeTiles s b).take nt } : Slot)
      let x : Queue :=
        { levee := levee, depth := depth, ntiles := nt, slots := slots, sends := sends.filterMap id, srcIp := ⟨af, be p 20 16⟩,
          srcMac := be p 36 6 }
      let s := slots.foldl (fun s y => takeTiles y.basin q y.tiles s) s
      done (s.setQueue q x) [toBe 2 q ++ zeros 6]

def execFlumeQueueCreate (t : Time) (r : KReq) (s : State) : Host.Outcome State Fault Refusal :=
  command 0x0801 bodyFlumeQueueCreate t r s

/-! ### Completion records (R347, R348) -/

/-- A record of Table FLM-11. -/
def recordBytes (seq status flags idx skipped value queue slot : Nat) (map : Option Bytes) : Bytes :=
  toLe 6 seq ++ toLe 1 status ++ toLe 1 (flags + ofBool map.isSome) ++ toLe 4 idx ++ toLe 4 skipped ++ toLe 8 value ++
    toLe 2 queue ++ toLe 1 slot ++ zeros 5 ++ (map.elim [] fun m => slice m 0 64)

/-- Send a record to a poster: to the post's source and RET_QP, from its destination address, in its class. -/
def sendRecord (orig : Originator) (net : Net) (qp cls : Nat) (bytes : Bytes) (s : State) : State :=
  if s.mute net.srcIp then s else s.emit (.record orig (recordNet net qp) cls recordQKey bytes)

/-- Who sends a chain's records: the basin of its slot. -/
def recordFrom (s : State) (c : Chain) : Originator := (slotOf s c).elim (.engine 0) fun x => .basin x.basin

/-- The first descriptor of a chain that ended PARTIAL, with its bitmap. -/
def partialOf (c : Chain) : Option (Nat × Bytes) := (c.net.find? fun e => !e.2.2.isEmpty).map fun e => (e.1, e.2.2)

/-- Status, INDEX and MAP of a chain's record. -/
def chainOutcome (c : Chain) : Nat × Nat × Option Bytes :=
  if c.status ≠ St.ok then (c.status, c.index, none)
  else match partialOf c with
    | some (i, m) => (St.part, i, some m)
    | none => (St.ok, c.count, none)

def chainRecord (c : Chain) : Bytes :=
  let (st, i, m) := chainOutcome c
  recordBytes c.seq st (4 * ofBool c.replayed) i c.skipped c.value c.queue c.slot m

/-- A descriptor's own record. -/
def descRecord (c : Chain) (idx value : Nat) : Bytes :=
  let m := (Tab.get? c.net idx).bind fun e => if e.2.isEmpty then none else some e.2
  recordBytes c.seq (if m.isSome then St.part else St.ok) (2 + 4 * ofBool c.replayed) idx c.skipped value c.queue c.slot m

/-- A chain ends with a status at a descriptor. -/
def chainEnd (c st idx : Nat) (s : State) : State :=
  s.modChain c fun x => { x with st := .ended, status := st, index := idx, fetched := [], keys := [], slotsRef := [] }

/-! ### Accesses to the pool (R326) -/

/-- The request a chain's access makes. -/
def flumeReq (s : State) (c : Chain) (q : Queue) (pva len : Nat) (data : Bytes) : PoolReq :=
  let die := (slotOf s c).elim 0 fun x => basinDie x.basin
  { port := 0, die := die, net := default, cls := 0, levee := q.levee, ver := c.ver, queue := c.queue, seq := 0, pva := pva,
    length := len, op := 0, flags := if bitOf c.flags 1 then 1 else 0, retQp := 0, handle := c.handle, data := data }

/-- What a chain's access meets: a status, and the allotment. -/
def flumeJudge (s : State) (k : ReqKind) (r : PoolReq) : Nat × Nat :=
  if 2 ^ 52 ≤ r.pva then (St.badParam, 0)
  else match translate s r.ver r.levee r.pva r.length with
    | none => (St.badParam, 0)
    | some a =>
      let st := allotStatus s a
      if st ≠ St.ok then (st, a)
      else
        let r := if (regionOf s a).isSome then r else { r with flags := 0 }
        (if windowsOk s k r a none then St.ok else St.badParam, a)

/-- The tile a range starts in lies in the two pseudo-channels of a basin's near port (R326, 09 Table BSN-1). -/
def nearPort (s : State) (b a off : Nat) : Bool :=
  (s.allot a).elim false fun x => x.place == 0 && x.home == basinDie b && chanOf s a (off / 4096) % 256 / 2 == b % 128

/-- Start an access for a chain; its answer is kept under `key`. What does not lie at the basin's near port goes to the home's
engine over the mesh (R326). -/
def flumeAccess (cid key : Nat) (k : ReqKind) (r : PoolReq) (a : Nat) (s : State) : State :=
  let id := s.mem.nextLive
  let r := if (regionOf s a).isSome then r else { r with flags := 0 }
  let l : Live := { kind := k, req := r, allot := a, home := (s.allot a).elim 0 (·.home), flume := some (cid, key), arrived := s.now }
  let b := ((s.chain cid).bind (slotOf s)).elim 0 (·.basin)
  let s := if nearPort s b a (r.pva - (s.allot a).elim 0 (·.pva)) then s else meshDeliver l.home s
  let s := (s.modAllot a fun x => { x with inflight := x.inflight + 1 }).inflightAdd 9 r.ver
  let s := { s with mem := { s.mem with nextLive := id + 1, live := Tab.set s.mem.live id l } }
  settle (if pubHeld s l then s.setLive id { l with stage := 9 } else serveReq id s)

/-- Issue a write of a chain's descriptor to the pool; one that is not accepted fails the descriptor. -/
def flumeWrite (cid idx pva : Nat) (data : Bytes) (s : State) : State :=
  match s.chain cid with
  | none => s
  | some c =>
    match s.queue c.queue with
    | none => s
    | some q =>
      let r := flumeReq s c q pva data.length data
      let (st, a) := flumeJudge s .write r
      if st ≠ St.ok then s.modChain cid fun c => { c with unacked := c.unacked - 1, failed := some (c.failed.getD (st, idx)) }
      else flumeAccess cid (2 ^ 40 + idx * 2 ^ 20) .write r a s

/-! ### Reading ranges (09 R295, R297, R299) -/

/-- What reading gives. -/
inductive Got where
  | wait
  | fail (status : Nat)
  | ok (bytes : Bytes) (tiles : List (Nat × Bytes))
deriving DecidableEq, Repr

/-- A tile a basin reads fails its check twice: the event, its gauge, the record; `source` 0 basin store, 1 cistern. -/
def checkFailed (reader source addr : Nat) (s : State) : State :=
  (bsnCount 2 1 reader 1 (s.bsnEvent reader 1)).ledger 0x0030 (srcOf 2 reader) (recBody [(32, 1, 2), (33, 1, source), (36, 8, addr)])

/-- A tile fails its check once and passes on re-read. -/
def checkRetried (reader source addr : Nat) (s : State) : State :=
  (bsnCount 2 0 reader 1 (s.bsnEvent reader 0)).ledger 0x0030 (srcOf 2 reader) (recBody [(32, 1, 1), (33, 1, source), (36, 8, addr)])

/-- Verify a tile of a basin store against its check table entry; its taint counts too (R295, R299). -/
def tileFault (b t : Nat) (reader : Nat) (s : State) : State × Nat :=
  let x := s.basin b
  if !tileSumOk s b t then (checkFailed reader 0 (4096 * t) s, St.tileCheck)
  else
    let s := if x.once.contains t then
        checkRetried reader 0 (4096 * t) (s.modBasin b fun x => { x with once := x.once.filter (· != t) })
      else s
    if x.taint.contains t then (s.bsnEvent reader 6, St.dipRetry) else (s, St.ok)

/-- Where window bytes lie: (store tile, start, offset in the range, length). -/
def windowCuts (x : Slot) (off len : Nat) : List (Nat × Nat × Nat × Nat) :=
  (cutsOf off len).map fun c => (x.tiles.getD c.1 0, c.2)

/-- An operand request for another basin's store goes over the mesh; one that finds the basin asleep waits and wakes it (01
R34). Answers whether it waits. -/
def askBasin (reader b : Nat) (s : State) : State × Bool :=
  if reader = b then (s, false)
  else if asleep s b then (s.modBasin b fun x => { x with asked := true }, true)
  else (meshDeliver (basinDie b) s, false)

/-- Read a range of a window. -/
def readWindow (reader : Nat) (x : Slot) (slot off len : Nat) (s : State) : State × Got :=
  match askBasin reader x.basin s with
  | (s, true) => (s, .wait)
  | (s, false) =>
  let cuts := windowCuts x off len
  let (s, st) := cuts.foldl (fun (a : State × Nat) c => if a.2 ≠ St.ok then a else tileFault x.basin c.1 reader a.1) (s, St.ok)
  if st ≠ St.ok then (s, .fail st)
  else (s, .ok (cuts.flatMap fun c => readStore s x.basin (4096 * c.1 + c.2.1) c.2.2.2)
    ((cutsOf off len).map fun c =>
      (2 * 2 ^ 60 + slot * 2 ^ 40 + 4096 * c.1, readStore s x.basin (4096 * (x.tiles.getD c.1 0)) 4096)))

/-- Bytes that arrive from outside the store in an open window enter the inbound retention, once for each access (R297). -/
def retain (b : Nat) (op : BasinOp) (key : Nat) (bs : Bytes) (s : State) : State :=
  let x := s.basin b
  if !s.pwr.window || x.inbound.any (fun k => k.op == op && k.key == key) then s
  else if 262144 < sumL (x.inbound.map (·.bytes.length)) + bs.length then
    (s.bsnEvent b 4).modBasin b fun x => { x with inbound := x.inbound ++ [{ op := op, key := key, bytes := [], full := true }] }
  else s.setBasin b { x with inbound := x.inbound ++ [{ op := op, key := key, bytes := bs }] }

/-- The operands of an operation overflowed the inbound retention (R299). -/
def overflowed (s : State) (b : Nat) (op : BasinOp) : Bool := (s.basin b).inbound.any fun k => k.op == op && k.full

/-- Verify one tile that a basin reads from the pool: in the cistern against the value in HBM metadata, where a failed one is
treated as an uncorrectable error; from a tray against the value computed when it reached the device (R294, R295, 07 R221). A
confidential levee's tile has a tag in that value's place; where it fails twice the tile is poisoned (13 R433, R434). -/
def poolTileFault (reader a pva tile : Nat) (s : State) : State × Nat :=
  let k := tileKey a tile
  if !tileValid s a tile then
    match Tab.get? s.cis.wire k with
    | some true => (checkFailed reader 2 pva s, St.tileCheck)
    | some false => (checkRetried reader 2 pva { s with cis := { s.cis with wire := Tab.del s.cis.wire k } }, St.ok)
    | none => (s, St.ok)
  else if s.confidential ((s.allot a).elim 0 (·.levee)) then
    match s.allot a with
    | some x =>
      if poolSumOk s a tile then ({ s with cis := { s.cis with onceTiles := s.cis.onceTiles.filter (· != k) } }, St.ok)
      else (poisonTile a tile (gcmFail x 4 (chanOf s a tile) (4096 * dieTile x a tile) s), St.internal)
    | none => (s, St.ok)
  else if !poolSumOk s a tile then (hbmUncorrectable a tile (checkFailed reader 1 pva s), St.tileCheck)
  else if s.cis.onceTiles.contains k then
    (checkRetried reader 1 pva { s with cis := { s.cis with onceTiles := s.cis.onceTiles.filter (· != k) } }, St.ok)
  else (s, St.ok)

/-- Verify some of the tiles, numbered from the range's first, that a chain's access to the pool names. -/
def poolFault (reader : Nat) (r : PoolReq) (is : List Nat) (s : State) : State × Nat :=
  match translate s r.ver r.levee r.pva r.length with
  | none => (s, St.ok)
  | some a =>
    let off := r.pva - (s.allot a).elim 0 (·.pva)
    let h := if bitOf r.flags 0 && (regionOf s a).isSome then some r.handle else none
    let m := reach s a off r.length r.levee h false true
    is.foldl (fun (x : State × Nat) i =>
      let o := off / 4096 * 4096 + 4096 * i
      if x.2 ≠ St.ok then x else poolTileFault reader a (r.pva / 4096 * 4096 + 4096 * i) (mapOff m o / 4096) x.1) (s, St.ok)

/-- Read a range for the descriptor that chain `cid` executes on basin `b`; whole tiles are read (R295). -/
def readRange (b cid : Nat) (c : Chain) (q : Queue) (key : Nat) (r : Range) (s : State) : State × Got :=
  if r.space = 0 then
    match q.slots[r.slot]? with
    | none => (s, .fail St.badParam)
    | some x => if x.lost then (s, .fail St.stateLost) else readWindow b x r.slot r.addr r.len s
  else
    let base := r.addr / 4096 * 4096
    let len := roundUp (r.addr + r.len) 4096 - base
    let q' := flumeReq s c q base len []
    let take (st : Nat) (d : Bytes) (s : State) : State × Got :=
      if st ≠ St.ok then (s, .fail st)
      else match poolFault b q' (List.range (len / 4096)) s with
        | (s, 0) => (s, .ok (slice d (r.addr - base) r.len)
            ((List.range (len / 4096)).map fun i => (2 ^ 60 + base + 4096 * i, slice d (4096 * i) 4096)))
        | (s, st) => (s, .fail st)
    match Tab.get? c.fetched key with
    | some (st, d) => take st d s
    | none =>
      if s.mem.live.any fun e => e.2.flume == some (cid, key) then (s, .wait)
      else
        let (st, a) := flumeJudge s .read q'
        if st ≠ St.ok then (s, .fail st)
        else
          let s := flumeAccess cid key .read q' a s
          match (s.chain cid).bind fun c => Tab.get? c.fetched key with
          | some (st, d) => take st d s
          | none => (s, .wait)

/-! ### Running an operation -/

/-- Outcome of running an operation as far as it goes. -/
inductive Ran where
  | wait (refs : List (Nat × Nat))
  | fail (status at_ : Nat)
  | ok (o : OpOut)

/-- Decoding generations named by the block headers an operation has read so far (11 R376). -/
def namedGens (d : Desc) (got : List Bytes) : List (Nat × Nat) :=
  if byteAt d 2 ≠ 0x0E ∧ byteAt d 3 ≠ 0x0E then []
  else (got.filter fun h => h.length == 8 && byteAt h 0 == 2).map fun h => (byteAt h 1 % 64, byteAt h 2 / 16)

/-- Give an operation the ranges it asks for. -/
def drive (b cid : Nat) (c : Chain) (q : Queue) (op : Op OpOut) (got : List Bytes) (tiles : List (Nat × Bytes))
    (fuel : Nat) (s : State) : State × Ran × List (Nat × Bytes) :=
  match fuel with
  | 0 => (s, .fail St.internal 0, tiles)
  | fuel + 1 =>
    match op got with
    | .ok (o, _) => (s, .ok o, tiles)
    | .error (.fail st at_) => (s, .fail st at_, tiles)
    | .error (.need r) =>
      match readRange b cid c q got.length r s with
      | (s, .wait) => (s, .wait (namedGens ((Tab.get? c.descs c.idx).getD []) got), tiles)
      | (s, .fail st) => (s, .fail st 0, tiles)
      | (s, .ok d ts) =>
        let out := r.space == 1 || r.slot != c.slot
        let s := if out then retain b (.desc cid c.idx) got.length (ts.map (·.2)).flatten s else s
        drive b cid ((s.chain cid).getD c) q op (got ++ [d]) (tiles ++ ts) fuel s

/-- Resident decoding tables of a levee (11 R376). -/
def decImage (s : State) (levee slot gen : Nat) : Option Bytes :=
  (Tab.get? s.col.slots slot).bind fun x =>
    if x.1 = levee then (x.2.find? fun g => g.gen == gen).map (·.image) else none

/-- What a range's place gives an operation. -/
def rangeStatus (s : State) (c : Chain) (q : Queue) (r : Range) : Nat :=
  if r.space = 0 then
    match q.slots[r.slot]? with
    | none => St.badParam
    | some x => if x.lost then St.stateLost else if r.addr + r.len ≤ 4096 * q.ntiles then St.ok else St.badParam
  else if r.len = 0 then St.ok
  else (flumeJudge s .read (flumeReq s c q r.addr r.len [])).1

def flumeCtx (s : State) (c : Chain) (q : Queue) (d : Desc) : FCtx :=
  { d := d, me := c.slot, levee := q.levee, sends := q.sends, srcIp := q.srcIp, srcMac := q.srcMac,
    chain := if bitOf c.flags 0 then none else some (c.pva, 64 * c.count), prev := if c.idx = 0 then none else some c.value,
    counter := fun k => (s.turn k).bind fun t => if t.levee = q.levee then some t.value else none,
    img := decImage s q.levee, status := rangeStatus s c q, seed := s.peekFree }

/-! ### Results (R296, R297, R342) -/

/-- A write that stays in the basin's own store. -/
def isOwn (c : Chain) (r : Range) : Bool := r.space == 0 && r.slot == c.slot

/-- A tile that a write covers in part must read well first (R296). -/
def partialFault (reader : Nat) (x : Slot) (off len : Nat) (s : State) : State × Nat :=
  (windowCuts x off len).foldl (fun (a : State × Nat) c =>
    if a.2 ≠ St.ok ∨ c.2.2.2 = 4096 then a else tileFault x.basin c.1 reader a.1) (s, St.ok)

/-- The tiles, numbered from the first, that a range of the pool covers in part. -/
def partTiles (addr len : Nat) : List Nat :=
  ((cutsOf addr len).filter fun c => c.2.2.2 != 4096).map fun c => c.1 - addr / 4096

/-- Check what a result would meet: a partial tile that fails (R296), or a pool range it may not write. -/
def checkWrites (b : Nat) (c : Chain) (q : Queue) (ws : List (Range × Bytes)) (s : State) : State × Nat :=
  ws.foldl (fun (a : State × Nat) w =>
    if a.2 ≠ St.ok ∨ w.2.isEmpty then a
    else if w.1.space = 1 then
      let r := flumeReq a.1 c q w.1.addr w.2.length w.2
      let st := (flumeJudge a.1 .write r).1
      if st ≠ St.ok then (a.1, st) else poolFault b r (partTiles w.1.addr w.2.length) a.1
    else match q.slots[w.1.slot]? with
      | none => (a.1, St.badParam)
      | some x => if x.lost then (a.1, St.stateLost) else partialFault b x w.1.addr w.2.length a.1) (s, St.ok)

/-- Write into a window. -/
def writeWindow (x : Slot) (off : Nat) (bs : Bytes) (s : State) : State × Bool :=
  (windowCuts x off bs.length).foldl (fun st c =>
    let (s, lost) := writeTile x.basin c.1 c.2.1 (slice bs c.2.2.1 c.2.2.2) st.1
    (s, st.2 || lost)) (s, false)

/-- Let one outbound result leave (R298). A write of another basin's store is held while that basin sleeps, and wakes it (01
R34); its chain waits for it as for a write not yet acknowledged. -/
def release (o : Outbound) (s : State) : State :=
  match o with
  | .poolWrite ch idx pva d => flumeWrite ch idx pva d s
  | .peerWrite ch slot off d =>
    match (s.chain ch).bind fun c => (s.queue c.queue).bind fun q => q.slots[slot]? with
    | some x =>
      if x.lost then s
      else if asleep s x.basin then
        (s.modBasin x.basin fun y => { y with mail := y.mail ++ [o] }).modChain ch fun c => { c with unacked := c.unacked + 1 }
      else (writeWindow x off d (meshDeliver (basinDie x.basin) s)).1
    | none => s
  | .frame f => internalEnqueue f s
  | .signal k inc => (turnAdd k inc s).count (gk 7 3 0 (turnDie k)) 1
  | .record ch idx v =>
    match s.chain ch with
    | some c => sendRecord (recordFrom s c) c.post.net c.retQp c.post.cls (descRecord c idx v) s
    | none => s

/-- BASIN_WAKE: once the basin is awake, the writes held for it reach its store. -/
def wakeUp (b : Nat) (s : State) : State :=
  let s := basinWake b s
  if asleep s b then s
  else
    let mail := (s.basin b).mail
    mail.foldl (fun s o => match o with
      | .peerWrite ch _ _ _ => (release o s).modChain ch fun c => { c with unacked := c.unacked - 1 }
      | _ => s) (s.modBasin b fun x => { x with mail := [] })

def execBasinWake (t : Time) (basin : Nat) (s : State) : Host.Outcome State Fault Refusal := .next (wakeUp basin (s.tick t))

/-- Bytes an outbound result takes in the hold. -/
def outSize (o : Outbound) : Nat :=
  match o with
  | .poolWrite _ _ _ d => d.length
  | .peerWrite _ _ _ d => d.length
  | .frame f => f.frame.len
  | .signal _ _ => 8
  | .record _ _ _ => 96

/-- Outbound results of one operation: they leave, or in an open window are held. -/
def sendOut (b : Nat) (os : List Outbound) (s : State) : State :=
  if s.pwr.window then s.modBasin b fun x => { x with holdBytes := x.holdBytes + (os.map outSize).foldl (· + ·) 0 }
  else os.foldl (fun s o => release o s) s

/-- The frames of a STORE to NET, through send entry `e` (R331). -/
def netFrames (b cid : Nat) (c : Chain) (q : Queue) (o : OpOut) : List IntFrame :=
  match q.sends[o.entry]? with
  | none => []
  | some e => o.frames.map fun bs =>
    let f := Config.frameParse bs
    { orig := .basin b, port := e.target, tree := if e.kind = 1 then some e.target else none, cls := e.cls, levee := q.levee,
      chain := some (cid, c.idx), frame := { f with port := e.target, len := bs.length + 4, smac := q.srcMac } }

/-- Operations the sampled cross-check may take (R302). -/
def arithmetic (op : Nat) : Bool := decide (3 ≤ op) && decide (op ≤ 0x0F)

/-- The countdown of R301 after an eligible operation; at zero the operation is a candidate, once one tile of its output is
drawn. -/
def sampleCheck (b : Nat) (c : Chain) (q : Queue) (d : Desc) (o : OpOut) (tiles : List (Nat × Bytes)) (s : State) : State :=
  let x := s.basin b
  let out := (o.writes.map (·.2)).flatten
  if x.countdown ≠ 0 then s.setBasin b { x with countdown := x.countdown - 1 }
  else if x.check.isSome then s
  else
    let n := max 1 (ceilDiv out.length 4096)
    let t := s.peekFree % n
    s.drawn.setBasin b { x with
      check := some { queue := c.queue, levee := q.levee, idx := c.idx, desc := d, tile := t, result := (out.drop (4096 * t)).take 4096,
                      operands := tiles, depends := o.depends t } }

/-- The matrix unit and vector slices were busy for a while no rule gives, and the matrix unit's accumulators are left with
what no rule says (assumption 3). -/
def busyFor (b op : Nat) (s : State) : State :=
  if op = 5 ∨ op = 6 then
    let s := (bsnCount 0 1 b (s.peekFree % 2 ^ 32) s).drawn
    (s.modBasin b fun x => { x with accs := s.freeBytes 8192 }).drawn
  else if arithmetic op then (bsnCount 0 2 b (s.peekFree % 2 ^ 32) s).drawn else s

/-- The basin is free for its next descriptor. -/
def freeBasin (b : Nat) (s : State) : State := s.modBasin b fun x => { x with current := none, idleSince := s.now }

/-- What a capture could keep of the operation (17 R532). -/
def noteOp (b : Nat) (c : Chain) (q : Queue) (d : Desc) (tiles : List (Nat × Bytes)) (st : Nat) (s : State) : State :=
  if s.confActive then s.modBasin b fun x => { x with last := none }
  else s.modBasin b fun x => { x with
    last := some { queue := c.queue, levee := q.levee, idx := c.idx, desc := d, tiles := tiles, status := st } }

/-- An operation that came to its end in the open window is tagged, with what its replay needs (R297). -/
def tagOp (b : Nat) (t : Tagged) (s : State) : State :=
  if s.pwr.window then
    bsnCount 3 0 b 1 (s.modBasin b fun x => { x with tagged := x.tagged ++ [{ t with lost := t.lost || overflowed s b t.op }] })
  else s

/-- A descriptor fails: its chain ends there (R348). In an open window it is tagged like one that succeeds. -/
def opFail (b cid : Nat) (c : Chain) (q : Queue) (d : Desc) (st at_ : Nat) (tiles : List (Nat × Bytes)) (s : State) : State :=
  let s := if st = St.blockCheck then
      (bsnCount 2 2 b 1 (s.bsnEvent b 2)).ledger 0x0031 (srcOf 2 b) (recBody [(32, 2, b), (36, 8, at_)]) else s
  let s := if st = St.dipRetry then bsnCount 3 2 b 1 (s.bsnEvent b 5) else s
  freeBasin b (noteOp b c q d tiles st (chainEnd cid st c.idx (tagOp b { op := .desc cid c.idx, lost := false } s)))

/-- A basin with an open window or a replay to come finishes it before a queue's chains on it stop (R316). -/
def stopWaits (s : State) (c : Chain) : Bool :=
  (slotOf s c).elim false fun x => !x.lost && (s.pwr.window || (s.basin x.basin).replaying || !(s.basin x.basin).tagged.isEmpty)

/-- Chains of a queue stop: those not started at INDEX 0, the others at their boundary. -/
def stopChains (q : Nat) (s : State) : State :=
  (s.flm.chains.filter fun e => e.2.queue == q).foldl (fun s e =>
    match e.2.st with
    | .waiting => chainEnd e.1 St.badParam 0 s
    | .ready => if stopWaits s e.2 then s else chainEnd e.1 St.badParam e.2.idx s
    | .turnWait _ _ _ => if stopWaits s e.2 then s else chainEnd e.1 St.badParam e.2.idx s
    | _ => s) s

/-- Where a chain goes after its descriptor: the next, past those skipped, or its end. -/
def advanceChain (cid : Nat) (value : Nat) (skip : Nat) (s : State) : State :=
  match s.chain cid with
  | none => s
  | some c =>
    let next := c.idx + 1 + skip
    let jumped := min skip (c.count - (c.idx + 1))
    let s := flmCount 1 1 c.queue jumped (flmCount 1 0 c.queue 1 s)
    let step (x : Chain) : Chain := { x with
      idx := next, value := value, skipped := x.skipped + jumped, fetched := x.fetched.filter fun e => decide (2 ^ 60 ≤ e.1),
      keys := [], asked := 0, results := [], queryBad := none, slotsRef := [], st := .ready }
    let s := s.modChain cid step
    match (s.chain cid).bind (·.failed) with
    | some (st, i) => chainEnd cid st i s
    | none =>
      if (s.queue c.queue).elim true (·.destroying) && !stopWaits s c then (if next < c.count then chainEnd cid St.badParam next s else chainEnd cid St.ok c.count s)
      else if c.count ≤ next then chainEnd cid St.ok c.count s else s

/-- A descriptor has done its work: results are written or held, and the chain goes on (R297, R342). -/
def opDone (b cid : Nat) (c : Chain) (q : Queue) (d : Desc) (o : OpOut) (tiles : List (Nat × Bytes)) (s : State) : State :=
  let (s, st) := checkWrites b c q o.writes s
  if st ≠ St.ok then opFail b cid c q d st 0 tiles s
  else
    let ws := o.writes.filter fun w => !w.2.isEmpty
    let own := ws.filter fun w => isOwn c w.1
    let far := ws.filter fun w => !isOwn c w.1
    let me := q.slots[c.slot]?
    let (s, ovf) := own.foldl (fun (st : State × Bool) w =>
      match me with
      | some x => let (s, l) := writeWindow x w.1.addr w.2 st.1; (s, st.2 || l)
      | none => st) (s, false)
    let frames := netFrames b cid c q o
    let pool := (far.filter fun w => w.1.space == 1).length
    let s := s.modChain cid fun x => { x with
      unacked := x.unacked + pool + frames.length,
      net := if frames.isEmpty then x.net else Tab.set x.net c.idx (frames.length, []) }
    let report := bitOf (byteAt d 1) 1
    let rec_ : List Outbound := if report && frames.isEmpty then [.record cid c.idx o.value] else []
    let s := if report && !frames.isEmpty then s.modChain cid fun x => { x with netDue := x.netDue ++ [c.idx] } else s
    let outs : List Outbound := far.map (fun w => if w.1.space = 1 then .poolWrite cid c.idx w.1.addr w.2
        else .peerWrite cid w.1.slot w.1.addr w.2) ++ frames.map .frame ++ (o.signal.elim [] fun x => [.signal x.1 x.2]) ++ rec_
    let s := if o.sat then s.bsnEvent b 7 else s
    let s := bsnCount 0 0 b 1 (busyFor b (byteAt d 0) s)
    let s := noteOp b c q d tiles St.ok s
    let addrs := own.flatMap fun w => (me.elim [] fun x => windowCuts x w.1.addr w.2.length).map fun k =>
      (4096 * k.1 + k.2.1, slice w.2 k.2.2.1 k.2.2.2)
    let s := tagOp b { op := .desc cid c.idx, lost := ovf, writes := addrs, outbound := outs } s
    let s := if !s.pwr.window && arithmetic (byteAt d 0) then sampleCheck b c q d o tiles s else s
    let s := sendOut b outs s
    freeBasin b (advanceChain cid o.value (o.skip.getD 0) s)

/-- Execute the descriptor that the basin has begun, if its code is `code`. A gated, replaying or stalled basin executes
nothing; an operand that is not there yet leaves the descriptor executing. -/
def execOp (code b : Nat) (s : State) : State :=
  let x := s.basin b
  if x.replaying || x.power != .active || (s.pwr.window && decide (262144 ≤ x.holdBytes)) then s
  else match x.current with
  | none => s
  | some cid =>
    match s.chain cid with
    | none => s
    | some c =>
      match s.queue c.queue, Tab.get? c.descs c.idx, opOf code with
      | some q, some d, some f =>
        if byteAt d 0 ≠ code ∨ c.st ≠ .running then s
        else
          let ctx := flumeCtx s c q d
          let (s, out, tiles) := drive b cid c q (f ctx) [] [] (2 ^ 21) s
          let s := s.drawn
          match out with
          | .wait refs => s.modChain cid fun c => { c with slotsRef := refs }
          | .fail st at_ => opFail b cid c q d st at_ tiles s
          | .ok o =>
            let s := if code = 0x11 then s.count (gk 7 3 1 (turnDie (le d 44 2))) 1 else s
            match o.wait with
            | some (k, target, us_) =>
              let dl := if us_ = 0 then none else some (s.now + us us_)
              freeBasin b (s.modChain cid fun c => { c with st := .turnWait k target dl })
            | none =>
              if o.keys.isEmpty then opDone b cid c q d o tiles s
              else s.modChain cid fun c => { c with
                st := .searching, keys := o.keys.map (fun k => BitVec.ofNat 144 (le k 0 18)), asked := 0, results := [], queryBad := none }
      | _, _, _ => s

def execLoad (t : Time) (b : Nat) (s : State) : Host.Outcome State Fault Refusal := .next (execOp 0x01 b (s.tick t))
def execStore (t : Time) (b : Nat) (s : State) : Host.Outcome State Fault Refusal := .next (execOp 0x02 b (s.tick t))
def execReduce (t : Time) (b : Nat) (s : State) : Host.Outcome State Fault Refusal := .next (execOp 0x03 b (s.tick t))
def execAxpy (t : Time) (b : Nat) (s : State) : Host.Outcome State Fault Refusal := .next (execOp 0x04 b (s.tick t))
def execGemm (t : Time) (b : Nat) (s : State) : Host.Outcome State Fault Refusal := .next (execOp 0x05 b (s.tick t))
def execGemv (t : Time) (b : Nat) (s : State) : Host.Outcome State Fault Refusal := .next (execOp 0x06 b (s.tick t))
def execTopk (t : Time) (b : Nat) (s : State) : Host.Outcome State Fault Refusal := .next (execOp 0x07 b (s.tick t))
def execGather (t : Time) (b : Nat) (s : State) : Host.Outcome State Fault Refusal := .next (execOp 0x08 b (s.tick t))
def execScatter (t : Time) (b : Nat) (s : State) : Host.Outcome State Fault Refusal := .next (execOp 0x09 b (s.tick t))
def execFilter (t : Time) (b : Nat) (s : State) : Host.Outcome State Fault Refusal := .next (execOp 0x0A b (s.tick t))
def execScan (t : Time) (b : Nat) (s : State) : Host.Outcome State Fault Refusal := .next (execOp 0x0B b (s.tick t))
def execQuantise (t : Time) (b : Nat) (s : State) : Host.Outcome State Fault Refusal := .next (execOp 0x0C b (s.tick t))
def execDequantise (t : Time) (b : Nat) (s : State) : Host.Outcome State Fault Refusal := .next (execOp 0x0D b (s.tick t))
def execCompress (t : Time) (b : Nat) (s : State) : Host.Outcome State Fault Refusal := .next (execOp 0x0E b (s.tick t))
def execExpand (t : Time) (b : Nat) (s : State) : Host.Outcome State Fault Refusal := .next (execOp 0x0F b (s.tick t))
def execTurnWait (t : Time) (b : Nat) (s : State) : Host.Outcome State Fault Refusal := .next (execOp 0x11 b (s.tick t))
def execTurnSignal (t : Time) (b : Nat) (s : State) : Host.Outcome State Fault Refusal := .next (execOp 0x12 b (s.tick t))
def execSkip (t : Time) (b : Nat) (s : State) : Host.Outcome State Fault Refusal := .next (execOp 0x13 b (s.tick t))

/-! ### SCREEN_QUERY (R340, 12 R403–R405, R412) -/

/-- The bank of a tenant filter class that holds a levee's rows. -/
def bankOf (s : State) (l : Nat) : Option Nat := (s.screenQuota l).map (·.1)

/-- Queue keys of a searching chain: at most 64 of it outstanding, and 64 of its levee on the bank. -/
def askKeys (cid : Nat) (s : State) : State :=
  match s.chain cid with
  | none => s
  | some c =>
    match (s.queue c.queue).bind fun q => (bankOf s q.levee).map fun k => (q.levee, k) with
    | none => s
    | some (l, k) =>
      let bk := s.bank k
      let mine := (bk.queue.filter fun x => x.chain == cid).length
      let all := (bk.queue.filter fun x => x.levee == l).length
      let n := min (64 - mine) (min (64 - all) (c.keys.length - c.asked))
      let new := (List.range n).map fun i =>
        ({ levee := l, key := ownKey l (c.keys.getD (c.asked + i) 0), chain := cid, num := c.asked + i, at_ := s.now } : Search)
      wakeNeeded k ((s.setBank k { bk with queue := bk.queue ++ new }).modChain cid fun c => { c with asked := c.asked + n })

/-- The last search of a SCREEN_QUERY is answered: its results are written, after a replay that is still to come (R298). -/
def queryDone (cid : Nat) (s : State) : State :=
  match s.chain cid with
  | none => s
  | some c =>
    match s.queue c.queue, Tab.get? c.descs c.idx, slotOf s c with
    | some q, some d, some x =>
      if c.st ≠ .searching ∨ c.results.length < 8 * c.keys.length ∨ (s.basin x.basin).replaying then s
      else
        let s := s.modChain cid fun c => { c with st := .running }
        match c.queryBad with
        | some id => opFail x.basin cid c q d St.internal 0 [] (s.modChain cid fun c => { c with value := id })
        | none =>
          match (addrWord c.slot (le d 24 8)).bind fun a => a.range 0 (8 * c.keys.length) with
          | none => opFail x.basin cid c q d St.badParam 0 [] s
          | some r =>
            let hits := ((chunks 8 c.results).filter fun e => e.any (· != 0)).length
            let out : OpOut := { writes := [(r, c.results)], value := hits }
            opDone x.basin cid c q d out [] (retain x.basin (.desc cid c.idx) (2 ^ 50) c.results s)
    | _, _, _ => s

/-- SCREEN_QUERY: its keys are read and queued at the levee's bank; a levee without rows matches nothing. -/
def screenQuery (b : Nat) (s : State) : State :=
  let s := execOp 0x10 b s
  match (s.basin b).current with
  | none => s
  | some cid =>
    match s.chain cid with
    | none => s
    | some c =>
      if c.st ≠ .searching ∨ c.asked ≠ 0 then s
      else if ((s.queue c.queue).bind fun q => bankOf s q.levee).isNone then
        queryDone cid (s.modChain cid fun c => { c with results := zeros (8 * c.keys.length) })
      else askKeys cid s

def execScreenQuery (t : Time) (b : Nat) (s : State) : Host.Outcome State Fault Refusal := .next (screenQuery b (s.tick t))

/-- The search the bank serves next: round-robin over the levees that wait. -/
def nextSearch (bk : Bank) : Option Search :=
  let ls := (bk.queue.map (·.levee)).eraseDups
  let l := match (ls.filter (decide <| bk.rr < ·)).foldl (fun (m : Option Nat) x => some (m.elim x (min x))) none with
    | some x => some x
    | none => ls.foldl (fun (m : Option Nat) x => some (m.elim x (min x))) none
  l.bind fun l => bk.queue.find? fun x => x.levee == l

/-- Screen cycles between two searches of a bank at each throttle step (12 Table SCR-4). -/
def throttleCycles (step : Nat) : Nat := if step = 0 then 1 else if step = 1 then 2 else if step = 2 then 4 else 16

/-- Ticks that the oldest waiting key has waited for the bank's throttle only (12 R404). -/
def searchWait (s : State) (bk : Bank) : Time :=
  let since := bk.queue.foldl (fun m x => min m x.at_) s.now
  min s.now (bk.lastSearch + 16 * throttleCycles bk.step) - max since (bk.lastSearch + 16)

/-- Keys waited under R404: the event bit, and whole nanoseconds of the waits of a bank together (Table SCR-11). -/
def throttledFor (k : Nat) (d : Time) (s : State) : State :=
  if d = 0 then s
  else
    let bk := s.bank k
    ((s.setBank k { bk with waited := bk.waited + d }).scrEvent (bankDie k) 0).count (gk 9 2 0 k) (nsOf (bk.waited + d) - nsOf bk.waited)

/-- TENANT_SEARCH: one key of a bank is searched in a cycle that its throttle, or throttle level 4 (15 Table PWR-4), leaves open; else the wait is noted. -/
def tenantSearch (k : Nat) (s : State) : State :=
  let bk := s.bank k
  match nextSearch bk with
  | none => s
  | some x =>
    if bk.power ≠ 0 then s
    else if s.now < bk.lastSearch + 16 * (if 4 ≤ s.pwr.level then 16 else throttleCycles bk.step) then
      if bk.step ≠ 0 ∧ bk.lastSearch + 16 ≤ s.now then s.scrEvent (bankDie k) 0 else s
    else
      let s := throttledFor k (searchWait s bk) s
      let bk := s.bank k
      -- a retiring levee's rows are disabled from its commit (12 Table SCR-9)
      let on := !s.retiring x.levee
      let hits := if on then tenantHits bk x.levee x.key else []
      let lost := if on then (lostEntry bk x.levee).map (·.id) else none
      let s := s.setBank k { bk with queue := bk.queue.erase x, rr := x.levee, lastSearch := s.now }
      let s := s.count (gk 9 1 0 x.levee (bankDie k)) 1
      let s := if hits.isEmpty then s else s.count (gk 9 1 1 x.levee (bankDie k)) 1
      let s := if 2 ≤ hits.length then s.count (gk 9 1 2 x.levee (bankDie k)) 1 else s
      let res := tenantResult hits
      let s := s.modChain x.chain fun c => { c with results := splice c.results (8 * x.num) res, queryBad := c.queryBad.orElse fun _ => lost }
      if (s.bank k).queue.any (fun y => y.chain == x.chain) || (s.chain x.chain).elim true (fun c => decide (c.asked < c.keys.length)) then
        askKeys x.chain s
      else queryDone x.chain s

def execTenantSearch (t : Time) (bank : Nat) (s : State) : Host.Outcome State Fault Refusal := .next (tenantSearch bank (s.tick t))

/-! ### Posts (R317–R320) -/

/-- Where a post's SEQ lies in its poster's window of 256. -/
def postPos (high seq : Nat) : WinPos := ctxPos high seq

/-- The home die of a post: that of its queue's first slot, else of the port it came in by (assumption 43). -/
def postDie (s : State) (p : Post) : Nat := ((s.queue p.queue).bind (·.slots.head?)).elim (portDie p.port) fun x => basinDie x.basin

/-- Answer a post that is not executed, keeping the record under its SEQ; SLOT is 0xFF where it was placed on none. -/
def rejectPost (p : Post) (seq retQp st slot : Nat) (keep : Bool) (s : State) : State :=
  let r := recordBytes seq st 0 0 0 0 p.queue slot none
  let s := if keep then s.modQueue p.queue fun q => { q with
      posters := q.posters.map fun x => if x.ip = p.net.srcIp then { x with
        cache := Tab.set x.cache seq r, live := x.live.filter (· != seq) } else x } else s
  sendRecord (.engine (postDie s p)) p.net retQp p.cls r (flmCount 0 2 p.queue 1 s)

/-- Take a SEQ in a poster's context. -/
def takePost (x : Poster) (seq : Nat) (now : Time) : Poster :=
  let h := if postPos x.high seq == .above then seq else x.high
  { x with
    high := h, live := x.live ++ [seq], cache := x.cache.filter (fun e => postPos h e.1 == .inside && e.1 != seq), last := now }

/-- The slot of a post: the one it names, or that of the basin with the fewest unstarted chains of the queue. -/
def placePost (s : State) (q : Nat) (x : Queue) (slot : Nat) : Option Nat :=
  if slot ≠ 0xFF then some slot
  else
    let load (i : Nat) : Nat := (s.flm.chains.filter fun e => e.2.queue == q && e.2.slot == i && e.2.st == .waiting).length
    ((List.range x.slots.length).filter fun i => !(x.slots[i]?).elim true (·.lost)).foldl (fun b i => match b with
      | none => some i
      | some j => if load i < load j then some i else some j) none

/-- A post's length, COUNT, SLOT and CHAIN_PVA are as R317 and R320 want them; its reserved bits are ignored (00 R7). -/
def postOk (x : Queue) (p : Bytes) : Bool :=
  let inline := bitOf (byteAt p 6) 0
  let n := be p 8 4
  n != 0 && decide (n ≤ (if inline then 63 else 65536)) &&
    p.length == (if inline then 32 + 64 * n else 32) &&
    (byteAt p 7 == 0xFF || decide (byteAt p 7 < x.slots.length)) &&
    (if inline then be p 16 8 == 0 else be p 16 8 % 64 == 0) && (bitOf (byteAt p 6) 1 || be p 24 8 == 0)

/-- Accept a post: its chain waits on its slot. -/
def acceptPost (p : Post) (x : Queue) (seq : Nat) (s : State) : State :=
  let b := p.payload
  let n := be b 8 4
  let inline := bitOf (byteAt b 6) 0
  match placePost s p.queue x (byteAt b 7) with
  | none => rejectPost p seq (be b 12 3) St.stateLost 0xFF true s
  | some i =>
    if (x.slots[i]?).elim true (·.lost) then rejectPost p seq (be b 12 3) St.stateLost i true s
    else
      let c : Chain :=
        { queue := p.queue, slot := i, st := .waiting, post := p, seq := seq, count := n, flags := byteAt b 6, retQp := be b 12 3,
          pva := be b 16 8, handle := be b 24 8, ver := p.ver,
          descs := if inline then (List.range n).map fun j => (j, slice b (32 + 64 * j) 64) else [] }
      let id := s.flm.nextChain
      { s with flm := { s.flm with nextChain := id + 1, chains := Tab.set s.flm.chains id c } }.inflightAdd 9 p.ver

/-- FLUME_POST; one from a fenced address completes FENCED, its record discarded (14 Table FLT-4). -/
def flumePost (p : Post) (s : State) : State :=
  let b := p.payload
  let seq := be b 0 6
  let qp := be b 12 3
  if s.addrFenced p.net.srcIp then rejectPost p seq qp St.fenced 0xFF false (fencedCount p.levee (postDie s p) s) else
  match s.queue p.queue with
  | none => rejectPost p seq qp St.badParam 0xFF false s
  | some q =>
    if q.destroying || q.levee != p.levee || decide (b.length < 32) then rejectPost p seq qp St.badParam 0xFF false s
    else
      let go (x : Poster) (s : State) : State :=
        let s := s.modQueue p.queue fun q => { q with posters := (q.posters.filter fun y => y.ip != p.net.srcIp) ++ [takePost x seq s.now] }
        let s := flmCount 0 0 p.queue 1 s
        if q.group.isSome || !postOk q b then rejectPost p seq qp St.badParam 0xFF true s
        else if q.depth ≤ (s.flm.chains.filter fun e => e.2.queue == p.queue).length then
          rejectPost p seq qp St.busy 0xFF true (flmCount 2 0 p.queue 1 s)
        else acceptPost p q seq s
      match q.posters.find? fun x => x.ip == p.net.srcIp with
      | none =>
        if 64 ≤ q.posters.length then rejectPost p seq qp St.exhausted 0xFF false s
        else go { ip := p.net.srcIp, high := seq, live := [], cache := [], last := s.now } s
      | some x =>
        match postPos x.high seq with
        | .below => flmCount 1 3 p.queue 1 s
        | .above => go x s
        | .inside =>
          if x.live.contains seq then flmCount 1 3 p.queue 1 s
          else match Tab.get? x.cache seq with
            | some r => sendRecord (.engine (postDie s p)) p.net qp p.cls (splice r 7 (toLe 1 (byteAt r 7 ||| 8))) (flmCount 1 2 p.queue 1 s)
            | none => go x s

def execFlumePost (t : Time) (p : Post) (s : State) : Host.Outcome State Fault Refusal := .next (flumePost p (s.tick t))

/-- POSTER_CONTEXT_RECLAIM: a context unused for 1 s (R318). -/
def reclaimPoster (q : Nat) (ip : Ip) (s : State) : State :=
  s.modQueue q fun x => { x with
    posters := x.posters.filter fun y => !(y.ip == ip && y.live.isEmpty && decide (y.last + sec 1 ≤ s.now)) }

def execPosterContextReclaim (t : Time) (queue : Nat) (poster : Ip) (s : State) : Host.Outcome State Fault Refusal :=
  .next (reclaimPoster queue poster (s.tick t))

/-! ### Descriptors of a pool chain (R321) -/

/-- First descriptor of a chain that lies in the tile of descriptor `i`, and how many do. -/
def tileDescs (c : Chain) (i : Nat) : Nat × Nat :=
  let t := (c.pva + 64 * i) / 4096
  let first := if t * 4096 ≤ c.pva then 0 else (t * 4096 - c.pva) / 64
  (first, min (c.count - first) (((t + 1) * 4096 - c.pva) / 64 - first))

/-- Where a chain keeps the answer of a descriptor tile's read. -/
def tileKeyOf (c : Chain) (i : Nat) : Nat := 2 ^ 60 + (c.pva + 64 * i) / 4096

/-- Hold the descriptors of a tile that has been read, or end the chain at the tile's first one. -/
def takeTile (cid i : Nat) (s : State) : State :=
  match s.chain cid with
  | none => s
  | some c =>
    match Tab.get? c.fetched (tileKeyOf c i) with
    | none => s
    | some (st, d) =>
      let (first, n) := tileDescs c i
      let base := (c.pva + 64 * i) / 4096 * 4096
      let (s, chk) := if st ≠ St.ok then (s, st) else match s.queue c.queue with
        | some q => poolFault ((slotOf s c).elim 0 (·.basin)) (flumeReq s c q base 4096 []) [0] s
        | none => (s, St.ok)
      if chk ≠ St.ok then chainEnd cid chk first s
      else s.modChain cid fun c => { c with
        fetched := Tab.del c.fetched (tileKeyOf c i),
        descs := (List.range n).foldl (fun t j => Tab.set t (first + j) (slice d (c.pva + 64 * (first + j) - base) 64)) c.descs }

/-- Read the tile that holds descriptor `i`. -/
def fetchTile (cid i : Nat) (s : State) : State :=
  match s.chain cid with
  | none => s
  | some c =>
    match s.queue c.queue with
    | none => s
    | some q =>
      let key := tileKeyOf c i
      if (Tab.get? c.descs i).isSome || bitOf c.flags 0 || c.st == .ended then s
      else if (Tab.get? c.fetched key).isSome then takeTile cid i s
      else if s.mem.live.any fun e => e.2.flume == some (cid, key) then s
      else
        let r := flumeReq s c q ((c.pva + 64 * i) / 4096 * 4096) 4096 []
        let (st, a) := flumeJudge s .read r
        if st ≠ St.ok then chainEnd cid st (tileDescs c i).1 s
        else takeTile cid i (flumeAccess cid key .read r a s)

/-- CHAIN_TILE_FETCH: the first tile whose descriptors the chain does not hold. -/
def chainTileFetch (cid : Nat) (s : State) : State :=
  match s.chain cid with
  | none => s
  | some c =>
    match (List.range (c.count - c.idx)).find? fun j => (Tab.get? c.descs (c.idx + j)).isNone with
    | none => s
    | some j => fetchTile cid (c.idx + j) s

def execChainTileFetch (t : Time) (chain : Nat) (s : State) : Host.Outcome State Fault Refusal :=
  .next (chainTileFetch chain (s.tick t))

/-! ### The descriptor boundary (R342, R343) -/

/-- A descriptor begins only after every earlier write of its chain is acknowledged. -/
def waitsPrior (d : Desc) : Bool := bitOf (byteAt d 1) 0 || byteAt d 0 == 0x12

/-- A chain may run its next descriptor on its basin now. -/
def chainReady (s : State) (c : Chain) : Bool :=
  (c.st == .waiting || c.st == .ready) && (slotOf s c).elim false (fun x => x.moving.isNone && !x.lost) &&
    ((Tab.get? c.descs c.idx).elim false fun d => !waitsPrior d || c.unacked == 0)

/-- The chain a queue runs next on a basin: a started one, else the oldest. -/
def queuePick (s : State) (b q : Nat) : Option Nat :=
  let cs := (chainsOn s b).filter fun e => e.2.queue == q && chainReady s e.2
  ((cs.find? fun e => e.2.st == .ready).orElse fun _ => cs.head?).map (·.1)

/-- Queues with a ready chain on a basin, from the one after the queue served last. -/
def queueTurn (s : State) (b : Nat) : List Nat :=
  let qs := (s.flm.queues.map (·.1)).filter fun q => (queuePick s b q).isSome
  let last := Tab.get? s.flm.rr b
  match last with
  | none => qs
  | some l => qs.filter (decide <| l < ·) ++ qs.filter (decide <| · ≤ l)

/-- Chains on a basin that have failed or whose descriptor is not held yet. -/
def prepare (b : Nat) (s : State) : State :=
  (chainsOn s b).foldl (fun s e =>
    if e.2.st != .waiting && e.2.st != .ready then s
    else match e.2.failed with
      | some (st, i) => chainEnd e.1 st i s
      | none => fetchTile e.1 e.2.idx s) s

/-- DESCRIPTOR_BEGIN. -/
def descriptorBegin (b : Nat) (s : State) : State :=
  let x := s.basin b
  if x.power != .active || x.current.isSome || x.replaying || (s.pwr.window && decide (262144 ≤ x.holdBytes)) then s
  else
    let s := prepare b s
    match queueTurn s b with
    | [] => s
    | q :: _ =>
      match queuePick s b q with
      | none => s
      | some cid =>
        let s := { s with flm := { s.flm with rr := Tab.set s.flm.rr b q } }
        let op := (s.chain cid).elim 0 fun c => (Tab.get? c.descs c.idx).elim 0 (byteAt · 0)
        if (opOf op).isNone then chainEnd cid St.badParam ((s.chain cid).elim 0 (·.idx)) s
        else (s.modChain cid fun c => { c with st := .running }).modBasin b fun x => { x with current := some cid }

def execDescriptorBegin (t : Time) (basin : Nat) (s : State) : Host.Outcome State Fault Refusal :=
  .next (descriptorBegin basin (s.tick t))

/-! ### Turns (R344) -/

/-- TURN_WAIT_SATISFIED: after a replay that is still to come (09 R298). -/
def turnSatisfied (cid : Nat) (s : State) : State :=
  match s.chain cid with
  | none => s
  | some c =>
    match c.st with
    | .turnWait k target _ =>
      match s.turn k with
      | some t =>
        if turnReached t.value target then
          let report := (Tab.get? c.descs c.idx).elim false fun d => bitOf (byteAt d 1) 1
          let outs : List Outbound := if report then [.record cid c.idx t.value] else []
          match slotOf s c with
          | none => s
          | some x =>
            if (s.basin x.basin).replaying then s
            else advanceChain cid t.value 0 (sendOut x.basin outs (tagOp x.basin { op := .desc cid c.idx, lost := false, outbound := outs } s))
        else s
      | none => s
    | _ => s

def execTurnWaitSatisfied (t : Time) (chain : Nat) (s : State) : Host.Outcome State Fault Refusal :=
  .next (turnSatisfied chain (s.tick t))

/-- TURN_WAIT_TIMEOUT: not satisfied within TIMEOUT nor in the cycle of its end (R346), the chain ends BUSY. -/
def turnTimeout (cid : Nat) (s : State) : State :=
  match s.chain cid with
  | none => s
  | some c =>
    match c.st with
    | .turnWait k target (some dl) =>
      let b := (slotOf s c).elim 0 (·.basin)
      if s.now ≤ dl ∨ (s.turn k).elim false (fun t => turnReached t.value target) ∨ (s.basin b).replaying then s
      else chainEnd cid St.busy c.idx (flmCount 2 1 c.queue 1 (tagOp b { op := .desc cid c.idx, lost := false } s))
    | _ => s

def execTurnWaitTimeout (t : Time) (chain : Nat) (s : State) : Host.Outcome State Fault Refusal :=
  .next (turnTimeout chain (s.tick t))

/-! ### Acknowledgements and the end of a chain (R342, R347) -/

/-- Descriptor records of STOREs to NET whose frames are all done. -/
def netReports (cid : Nat) (s : State) : State :=
  match s.chain cid with
  | none => s
  | some c =>
    let due := c.netDue.filter fun i => (Tab.get? c.net i).elim true fun e => e.1 == 0
    let s := due.foldl (fun s i => release (.record cid i 0) s) s
    s.modChain cid fun c => { c with netDue := c.netDue.filter fun i => !due.contains i }

/-- WRITE_ACKNOWLEDGED: one pool write that the home engine has applied is acknowledged. -/
def writeAcknowledged (cid : Nat) (s : State) : State :=
  let s := s.modChain cid fun c => if c.applied = 0 then c else { c with applied := c.applied - 1, unacked := c.unacked - 1 }
  netReports cid s

def execWriteAcknowledged (t : Time) (chain : Nat) (s : State) : Host.Outcome State Fault Refusal :=
  .next (writeAcknowledged chain (s.tick t))

/-- The chain whose descriptor an operation is. -/
def tagChain (o : BasinOp) : Option Nat :=
  match o with
  | .desc c _ => some c
  | .block _ _ _ => none

/-- A chain's record is held: its basin has an open window or a replay to come that this chain took part in. -/
def recordHeld (s : State) (cid : Nat) (c : Chain) : Bool :=
  s.pwr.window || s.bsn.tab.any fun e => e.2.tagged.any fun t => tagChain t.op == some cid || decide ((slotOf s c).elim false fun x => x.basin == e.1)

/-- A queue being destroyed stops the chains whose basins have no replay left, and is gone once its chains have ended and no
replay is left on its basins (R316). -/
def destroyProgress (s : State) : State :=
  (s.flm.queues.filter fun e => e.2.destroying).foldl (fun s e =>
    let s := stopChains e.1 s
    let busy := s.flm.chains.any (fun c => c.2.queue == e.1) || s.pwr.window ||
      e.2.slots.any fun x => !x.lost && ((s.basin x.basin).replaying || !(s.basin x.basin).tagged.isEmpty)
    if busy then s
    else
      let s := e.2.slots.foldl (fun s x => if x.lost then s else offIfDue x.basin (returnTiles x.basin x.tiles s)) s
      let s := { s with flm := { s.flm with queues := Tab.del s.flm.queues e.1 } }
      s.workDone (fun w => w == .destroyQueue e.1) St.ok []) s

/-- CHAIN_COMPLETION: the chain has ended, every write of it is acknowledged, its record leaves and is kept for
duplicates. -/
def chainCompletion (cid : Nat) (s : State) : State :=
  match s.chain cid with
  | none => s
  | some c =>
    if c.st ≠ .ended ∨ c.unacked ≠ 0 ∨ recordHeld s cid c then s
    else
      let c := match c.failed with
        | some (st, i) => if c.status = St.ok ∨ i < c.index then { c with status := st, index := i } else c
        | none => c
      let s := netReports cid (s.modChain cid fun _ => c)
      let r := chainRecord c
      let st := (chainOutcome c).1
      let s := flmCount 0 (if st = St.ok then 1 else if st = St.part then 3 else 2) c.queue 1 s
      let s := s.modQueue c.queue fun q => { q with
        posters := q.posters.map fun x => if x.ip = c.post.net.srcIp then { x with
          cache := Tab.set x.cache c.seq r, live := x.live.filter (· != c.seq), last := s.now } else x }
      let s := sendRecord (recordFrom s c) c.post.net c.retQp c.post.cls r s
      let s := { s with flm := { s.flm with chains := Tab.del s.flm.chains cid } }
      destroyProgress (s.inflightSub 9 c.ver)


/-! ### FLUME_QUEUE_DESTROY (R316) -/

def bodyFlumeQueueDestroy (r : KReq) (s : State) : Ans :=
  let q := be (par r) 0 2
  checks s [(plen r != 8, St.badLength), ((s.queue q).elim true (·.destroying), St.badParam),
      ((s.queue q).elim false (·.group.isSome), St.busy)] fun _ =>
    { defer (stopChains q (s.modQueue q fun x => { x with destroying := true })) (.destroyQueue q) with after := destroyProgress }


/-! ### Slots that move (R315) -/

/-- A basin is out of service for slots. -/
def outOfService (s : State) (b : Nat) : Bool :=
  let x := s.basin b
  x.quar == .heldOut || x.quar == .full || x.draining || x.power == .off

/-- The basin a slot's window would be copied to. -/
def moveTarget (s : State) (x : Queue) (slot : Slot) : Option Nat :=
  ((List.range 128).map (128 * basinDie slot.basin + ·)).find? fun b =>
    b != slot.basin && !outOfService s b && (s.basin b).quar == .none && decide (x.ntiles ≤ (freeTiles s b).length) &&
      !(x.slots.any fun y => (y.basin == b && !y.lost) || y.moving == some b)

/-- A slot is lost: its window goes, and every chain on it ends STATE_LOST. -/
def loseSlot (q i : Nat) (x : Slot) (s : State) : State :=
  let s := setSlot q i { x with lost := true, moving := none } (returnTiles x.basin x.tiles s)
  let s := flmCount 2 3 q 1 s
  let s := s.modBasin x.basin fun y => { y with
    current := match y.current with
      | some c => if (s.chain c).elim false (fun c => c.queue == q && c.slot == i) then none else some c
      | none => none }
  let s := (s.flm.chains.filter fun e => e.2.queue == q && e.2.slot == i && e.2.st != .ended).foldl
    (fun s e => chainEnd e.1 St.stateLost e.2.idx s) s
  offIfDue x.basin s

/-- A basin that is out of service only because a test drains it (17 R523): its slots stay while the drain waits for it to
fall idle, and none is lost. -/
def drainOnly (s : State) (b : Nat) : Bool :=
  let x := s.basin b
  x.draining && x.quar != .heldOut && x.quar != .full && x.power != .off

def drainWaits (s : State) (b : Nat) : Bool :=
  drainOnly s b && s.hlt.tests.any fun t => t.kind == 1 && t.id == b && t.draining

/-- SLOT_MOVE: begin the copy of a slot's window, or lose the slot. -/
def slotMove (q i : Nat) (s : State) : State :=
  match s.queue q with
  | none => s
  | some y =>
    match y.slots[i]? with
    | none => s
    | some x =>
      if x.lost || x.moving.isSome || !outOfService s x.basin || drainWaits s x.basin then s
      else match moveTarget s y x with
        | none => if drainOnly s x.basin then s else loseSlot q i x s
        | some b =>
          let ts := (freeTiles s b).take y.ntiles
          flmCount 2 2 q 1 (setSlot q i { x with moving := some b } (takeTiles b q ts s))

/-- SLOT_COPY_COMPLETE: the window, its marks and what it holds now lie in the new basin; a descriptor still executing on
the old basin, or a replay to come there, is finished first, and a gated basin of the two wakes for it (01 R34). -/
def slotCopied (q i : Nat) (s : State) : State :=
  match s.queue q with
  | none => s
  | some y =>
    match y.slots[i]? with
    | none => s
    | some x =>
      match x.moving with
      | none => s
      | some b =>
        let old := s.basin x.basin
        let running := s.flm.chains.any fun e => e.2.queue == q && e.2.slot == i && (e.2.st == .running || e.2.st == .searching)
        if running || asleep s x.basin || asleep s b || old.replaying || !old.tagged.isEmpty || s.pwr.window then s
        else
          let new := (List.range 512).filter fun t =>
            Tab.get? s.bsn.owner (b * 512 + t) == some q && !(y.slots.any fun z => z.basin == b && !z.lost && z.tiles.contains t)
          let ts := new.take y.ntiles
          let pairs := x.tiles.zip ts
          let s := pairs.foldl (fun s p => { s with bsn := { s.bsn with
            store := s.bsn.store.writeN (storeKey b (4096 * p.2)) (readStore s x.basin (4096 * p.1) 4096) } }) s
          let move (l : List Nat) : List Nat := (pairs.filter fun p => l.contains p.1).map (·.2)
          let sums := pairs.filterMap fun p => (Tab.get? old.sums p.1).map fun v => (p.2, v)
          let s := s.modBasin b fun z => { z with
            taint := z.taint ++ move old.taint, sums := sums.foldl (fun t e => Tab.set t e.1 e.2) z.sums, once := z.once ++ move old.once }
          let s := setSlot q i { basin := b, tiles := ts } (returnTiles x.basin x.tiles s)
          offIfDue x.basin s

def execSlotCopyComplete (t : Time) (queue slot : Nat) (s : State) : Host.Outcome State Fault Refusal :=
  .next (slotCopied queue slot (s.tick t))

/-! ### REVOKE_TIMEOUT (06 R189) -/

/-- The timeout of a revocation: requests and accesses that are left complete EXTENT_REVOKED. -/
def revokeTimeout (a : Nat) (s : State) : State :=
  match s.allot a with
  | none => s
  | some x =>
    if x.st ≠ .revoking ∨ s.now < x.revokeBy then s
    else
      let (s, n) := revokeKill a s
      settle (revokeReply a n (revokeRelease a s))


end Sys2Proof.Machine
end

