-- ==== Sys2Proof/Machine/Recorder.lean ====
section
/-! DEFINITION. Sampled cross-checks from candidate to verdict, quarantine of basins, and the Mbabidan recorder
(09 R301–R306, 17 R527–R534). -/

namespace Sys2Proof.Machine

/-! ### Clocks and sensors -/

def basinTemp (s : State) (b : Nat) : Nat := Config.basinTemp b s.now % 256
def basinRail (s : State) (b : Nat) : Nat := Config.basinRail b s.now % 65536

/-! ### Captures (17 R531–R533) -/

/-- A capture of Table HLT-9; the trace's 4,096 events have no layout in the spec and are free. -/
def captureBytes (s : State) (trigger set rseq b queue levee : Nat) (crc1 crc2 : Nat) (d : Desc) (tiles : List (Nat × Bytes)) : Bytes × Bool :=
  let room := if bitOf set 1 then 478 else 509
  let ts := if bitOf set 0 then tiles else []
  let trunc := decide (room < ts.length)
  let ts := ts.take room
  (ascii "BM" ++ toLe 1 trigger ++ toLe 1 (set + 4 * ofBool trunc) ++ toLe 8 rseq ++ toLe 8 s.usec ++ toLe 2 b ++ toLe 2 queue ++
    toLe 2 levee ++ toLe 2 ts.length ++ toLe 1 (basinTemp s b) ++ toLe 1 (s.basin b).load.toNat ++ toLe 2 (arithMhz s) ++
    toLe 2 (basinRail s b) ++ zeros 2 ++ toLe 4 crc1 ++ toLe 4 crc2 ++ zeros 20 ++ slice d 0 64 ++ zeros 128 ++
    (ts.flatMap fun t => toLe 8 t.1 ++ toLe 4 (crc32c t.2).toNat ++ zeros 4 ++ slice t.2 0 4096) ++
    (if bitOf set 1 then s.freeBytes 131072 else []), trunc)

/-- Store a capture in the lowest free of the 16 slots; with none free it is discarded and counted. -/
def takeCapture (trigger set rseq b queue levee crc1 crc2 : Nat) (d : Desc) (tiles : List (Nat × Bytes)) (s : State) :
    State × Option Nat :=
  match Tab.lowestFree s.hlt.captures 16 with
  | none => (s.count (gk 0x0D 3 1) 1, none)
  | some k =>
    let (bytes, trunc) := captureBytes s trigger set rseq b queue levee crc1 crc2 d tiles
    let c : CaptureRec :=
      { trigger := trigger, set := set, trunc := trunc, bytes := bytes, desc := d, crcChecking := BitVec.ofNat 32 crc2 }
    ((({ s with hlt := { s.hlt with captures := Tab.set s.hlt.captures k c } }).drawn).count (gk 0x0D 3 0) 1, some k)

/-! ### Quarantine (17 R527–R529) -/

/-- Note a change of quarantine state in the ledger. -/
def quarRecord (b old new temp mask : Nat) (s : State) : State :=
  let s := s.ledger 0x0051 (srcOf 2 b) (recBody [(32, 1, 1), (34, 2, b), (36, 1, old), (37, 1, new), (38, 1, temp), (39, 1, mask)])
  let s := s.hltEvent 2
  { s with hlt := { s.hlt with
      totals := s.hlt.totals.set 3 (s.hlt.totals.getD 3 0 + 1) } }

/-- Put a basin in a quarantine state. -/
def setQuar (b : Nat) (q : Quar) (temp mask : Nat) (s : State) : State :=
  let old := (s.basin b).quar
  let s := s.modBasin b fun x => { x with quar := q, quarTemp := temp, quarMask := mask }
  offIfDue b (quarRecord b old.code q.code temp mask s)

/-- A suspect is counted; COUNT mismatches within WINDOW_H hours quarantine it (R528). -/
def nameSuspect (b temp load : Nat) (s : State) : State :=
  let s := (s.modBasin b fun x => { x with suspect := x.suspect + 1 }).bsnEvent b 3
  let hours := max 1 s.hlt.quarHours.toNat
  let all := (s.hlt.suspects ++ [(b, s.now, temp, load)]).filter fun e => decide (s.now ≤ e.2.1 + sec (3600 * hours))
  let s := { s with hlt := { s.hlt with suspects := all } }
  let mine := all.filter fun e => e.1 == b
  if mine.length < max 1 s.hlt.quarCount.toNat then s
  else
    let tmin := mine.foldl (fun m e => min m e.2.2.1) 255
    let mask := mine.foldl (fun m e => m &&& e.2.2.2) 255
    match (s.basin b).quar with
    | .none =>
      let hot := decide (s.hlt.tfloor.toNat ≤ tmin)
      if hot || mask != 0 then setQuar b .conditional (if hot then tmin - 3 else 0) mask s else setQuar b .full 0 0 s
    | .full => s
    | _ => setQuar b .full 0 0 s

/-- HOLD_OUT: a CONDITIONAL basin reaches its threshold or its load pattern (R529). -/
def holdOut (b temp load : Nat) (s : State) : State :=
  let x := s.basin b
  let due := (x.quarTemp != 0 && decide (x.quarTemp ≤ temp)) || (x.quarMask != 0 && (load &&& x.quarMask) == x.quarMask)
  let s := s.modBasin b fun x => { x with temp := temp, load := BitVec.ofNat 8 load }
  if x.quar = .conditional ∧ due then
    let s := (setQuar b .heldOut x.quarTemp x.quarMask s).modBasin b fun x => { x with heldAt := s.now, coolSince := none }
    s.count (gk 0x0D 2 0 (basinDie b)) 1
  else s

/-- HOLD_OUT_END: cool for 10 ms and HOLD_MS gone by (R529). A reading starts or ends the 10 ms. -/
def holdOutEnd (b temp : Nat) (s : State) : State :=
  let x := s.basin b
  let s := s.modBasin b fun x => { x with temp := temp }
  if x.quar ≠ .heldOut then s
  else
    let cool := x.quarTemp == 0 || decide (temp + 3 ≤ x.quarTemp)
    if !cool then s.modBasin b fun x => { x with coolSince := none }
    else
      let since := x.coolSince.getD s.now
      let held := decide (x.heldAt + ms s.hlt.holdMs.toNat ≤ s.now)
      if (since + ms 10 ≤ s.now) ∧ held then setQuar b .conditional x.quarTemp x.quarMask s
      else s.modBasin b fun x => { x with coolSince := some since }

def execHoldOut (t : Time) (basin temp load : Nat) (s : State) : Host.Outcome State Fault Refusal :=
  .next (holdOut basin temp load (s.tick t))
def execHoldOutEnd (t : Time) (basin temp : Nat) (s : State) : Host.Outcome State Fault Refusal :=
  .next (holdOutEnd basin temp (s.tick t))

/-! ### Cross-checks (09 R301–R306) -/

/-- XCHECK_COUNTDOWN: the candidate operation is sent to a checking basin, or skipped. -/
def checkBegin (b : Nat) (s : State) : State :=
  let x := s.basin b
  match x.check with
  | none => s
  | some c =>
    if c.checking.isSome then s
    else if 16777216 < c.depends ∨ (checkingBasin s b).isNone then
      bsnCount 4 1 b 1 (s.setBasin b { x with check := none, idleSince := s.now })
    else
      let n := x.interval
      s.drawn.setBasin b { x with
        check := some { c with checking := checkingBasin s b, started := s.now }, countdown := n / 2 + s.peekFree % n }

/-- What an XCHECK record says of one basin's surroundings. -/
def surroundings (s : State) (b : Option Nat) : Bytes :=
  match b with
  | none => zeros 6
  | some b => toLe 1 (basinTemp s b) ++ toLe 1 (s.basin b).load.toNat ++ toLe 2 (basinRail s b) ++ toLe 2 (arithMhz s)

/-- A mismatch: the third basin judges, the record is written, suspects are named (R305, R306). -/
def mismatch (b cb : Nat) (c : XCheck) (cres tres : Bytes) (s : State) : State :=
  let third := thirdBasin s b cb
  let own := third.isSome && tres != c.result
  let other := third.isSome && tres != cres
  let crc (x : Bytes) : Nat := (crc32c x).toNat
  let (s, cap) := if s.confActive then (s, none)
    else takeCapture 1 1 s.nextRseq b c.queue c.levee (crc c.result) (crc cres) c.desc c.operands s
  let body := toLe 2 b ++ toLe 2 cb ++ toLe 2 (third.getD 0xFFFF) ++ toLe 1 (ofBool own + 2 * ofBool other) ++ zeros 1 ++ toLe 2 c.queue ++
    toLe 2 c.levee ++ toLe 4 c.idx ++ slice c.desc 0 1 ++ slice c.desc 2 3 ++ toLe 4 (crc c.result) ++ toLe 4 (crc cres) ++
    toLe 4 (if third.isSome then crc tres else 0) ++ surroundings s (some b) ++ surroundings s (some cb) ++ surroundings s third ++
    toLe 2 (cap.getD 0xFFFF)
  let s := bsnCount 4 3 b 1 (s.ledger 0x0033 (srcOf 2 b) body)
  let s := { s with hlt := { s.hlt with totals := s.hlt.totals.set 4 (s.hlt.totals.getD 4 0 + 1) } }
  let name (k : Nat) (s : State) : State := nameSuspect k (basinTemp s k) (s.basin k).load.toNat s
  let s := if own then name b s else s
  if other then name cb s else s

/-- A check is over on the checked and the checking basin, which had it to run (R308). -/
def checkOver (b cb : Nat) (s : State) : State :=
  (s.modBasin cb fun x => { x with idleSince := s.now }).modBasin b fun x => { x with check := none, idleSince := s.now }

/-- XCHECK_ABANDONED: not finished within 1 ms. -/
def checkAbandoned (b : Nat) (s : State) : State :=
  match (s.basin b).check with
  | none => s
  | some c =>
    match c.checking with
    | none => s
    | some cb => if c.started + ms 1 ≤ s.now then bsnCount 4 2 b 1 (checkOver b cb s) else s

/-- XCHECK_COMPLETE: the results of the checking and third basins come as little-endian numbers; after 1 ms they come too
late. -/
def checkComplete (b checking third : Nat) (s : State) : State :=
  match (s.basin b).check with
  | none => s
  | some c =>
    match c.checking with
    | none => s
    | some cb =>
      if c.started + ms 1 < s.now then checkAbandoned b s
      else
      let n := c.result.length
      let s := bsnCount 4 0 b 1 ((checkOver b cb s).modBasin b fun x => { x with checks := x.checks + 1 })
      if toLe n checking = c.result then s else mismatch b cb c (toLe n checking) (toLe n third) s

def execXcheckCountdown (t : Time) (basin : Nat) (s : State) : Host.Outcome State Fault Refusal := .next (checkBegin basin (s.tick t))
def execXcheckComplete (t : Time) (basin checking third : Nat) (s : State) : Host.Outcome State Fault Refusal :=
  .next (checkComplete basin checking third (s.tick t))
def execXcheckAbandoned (t : Time) (basin : Nat) (s : State) : Host.Outcome State Fault Refusal :=
  .next (checkAbandoned basin (s.tick t))

/-! ### The recorder's trigger (17 R531) -/

/-- The last operation of a basin satisfies an armed trigger. -/
def triggerMet (a : RecArm) (l : LastOp) : Bool :=
  if a.trigger = 2 then l.status == St.tileCheck
  else if a.trigger = 3 then l.status == St.blockCheck
  else if a.trigger = 4 then l.status == St.dipRetry
  else l.queue == a.queue && l.idx == a.index

/-- CAPTURE: an armed trigger fires once. A mismatch's capture is taken with its verdict, and TRIGGER 6's at once. -/
def capture (b trigger : Nat) (s : State) : State :=
  match s.hlt.arm, (s.basin b).last with
  | some a, some l =>
    if a.trigger = trigger ∧ (a.basin = 0xFFFF ∨ a.basin = b) ∧ triggerMet a l ∧ !s.confActive then
      let s := { s with hlt := { s.hlt with arm := none } }
      (takeCapture trigger a.set (s.nextRseq - 1) b l.queue l.levee 0 0 l.desc l.tiles s).1
    else s
  | _, _ => s

def execCapture (t : Time) (basin trigger : Nat) (s : State) : Host.Outcome State Fault Refusal := .next (capture basin trigger (s.tick t))

def bodyRecArm (r : KReq) (s : State) : Ans :=
  let p := par r
  let tr := byteAt p 0
  let set := byteAt p 1 % 4
  let b := be p 2 2
  checks s [(plen r != 16, St.badLength),
      (decide (6 < tr) || tr == 1 || (decide (255 < b) && b != 0xFFFF) || decide (4095 < be p 4 2), St.badParam)] fun _ =>
    if tr = 0 then done { s with hlt := { s.hlt with arm := none } }
    else if tr = 6 then
      let s := { s with hlt := { s.hlt with arm := none } }
      -- with no basin named the trace alone is kept
      match if b = 0xFFFF then none else (s.basin b).last with
      | some l => done (takeCapture 6 set (s.nextRseq - 1) b l.queue l.levee 0 0 l.desc l.tiles s).1
      | none => done (takeCapture 6 set (s.nextRseq - 1) b 0 0 0 0 (zeros 64) [] s).1
    else done { s with hlt := { s.hlt with arm := some ⟨tr, set, b, be p 4 2, be p 8 4⟩ } }

def execRecArm (t : Time) (r : KReq) (s : State) : Host.Outcome State Fault Refusal := command 0x0D01 bodyRecArm t r s

def bodyRecRead (r : KReq) (s : State) : Ans :=
  let p := par r
  let k := byteAt p 8
  let off := be p 12 4
  let len := be p 16 4
  let c := Tab.get? s.hlt.captures k
  checks s [(!oneFrag r || plen r != 24, St.badLength),
      (decide (15 < k) || off % 8 != 0 || len % 8 != 0 || len == 0 || decide (64512 < len) ||
        c.elim true (fun c => decide (c.bytes.length ≤ off)), St.badParam)] fun _ =>
    match c with
    | none => refuse s St.badParam
    | some c =>
      let data := (c.bytes.drop off).take len
      let ps := chunks 4032 data
      let frags := (List.range ps.length).map fun i => toBe 4 c.bytes.length ++ toBe 4 (off + 4032 * i) ++ pad8 (ps.getD i [])
      let rel := bitOf (byteAt p 9) 0
      done (if rel then { s with hlt := { s.hlt with captures := Tab.del s.hlt.captures k } } else s) (frags.map fun f => f)

def execRecRead (t : Time) (r : KReq) (s : State) : Host.Outcome State Fault Refusal := command 0x0D02 bodyRecRead t r s

/-! ### REC_REPLAY (17 R534) -/

/-- The slots of a basin move one after the other, while there is room for them. -/
def moveSlots (b : Nat) (s : State) : Option State :=
  let slots := s.flm.queues.flatMap fun e => (List.range e.2.slots.length).filterMap fun i =>
    (e.2.slots[i]?).bind fun x => if x.basin = b ∧ !x.lost then some (e.1, i, x) else none
  slots.foldl (fun a x => a.bind fun s =>
    if x.2.2.moving.isSome then some s
    else (s.queue x.1).bind fun y => (moveTarget s y x.2.2).map fun _ => slotMove x.1 x.2.1 s) (some s)

/-- VOFF as a signed number of millivolts, negated. -/
def voffMv (v : Nat) : Nat := (256 - v) % 256

/-- REC_REPLAY: the basin and the other one of its mesh stop drain, with FORCE at once. -/
def bodyRecReplay (r : KReq) (s0 : State) : Ans :=
  let p := par r
  let k := byteAt p 0
  let b := be p 2 2
  let temp := byteAt p 5
  let c := Tab.get? s0.hlt.captures k
  checks s0 [(plen r != 16, St.badLength),
      (c.elim true (·.trunc) || decide (255 < b) || decide (60 < voffMv (byteAt p 4)) ||
        voffMv (byteAt p 4) % 5 != 0 || (temp != 0 && (decide (temp < 40) || decide (100 < temp))) || decide (be p 6 2 < 1500) ||
        decide (3450 < be p 6 2) || be p 8 2 == 0, St.badParam),
      (s0.hlt.replay.isSome, St.busy)] fun _ =>
    let s := { s0 with hlt := { s0.hlt with replay := some ⟨k, b, byteAt p 4, temp, be p 6 2, be p 8 2⟩ } }
    let drain (x : Basin) : Basin := { x with draining := true }
    let s' := (s.modBasin b drain).modBasin (b ^^^ 1) drain
    if bitOf (byteAt p 1) 0 then
      match (moveSlots b s').bind (moveSlots (b ^^^ 1)) with
      | none => refuse s0 St.exhausted
      | some t => defer t .replay
    else defer s' .replay

def execRecReplay (t : Time) (r : KReq) (s : State) : Host.Outcome State Fault Refusal := command 0x0D03 bodyRecReplay t r s

/-- A basin holds no slot and runs nothing. -/
def drained (s : State) (b : Nat) : Bool :=
  let x := s.basin b
  x.current.isNone && x.tagged.isEmpty && !x.replaying && x.check.isNone &&
    !(s.bsn.tab.any fun e => e.2.check.elim false fun c => c.checking == some b) &&
    !(s.flm.queues.any fun e => e.2.slots.any fun y => (y.basin == b && !y.lost) || y.moving == some b)

/-- REPLAY_COMPLETE: the basins serve again; the record and the final reply follow. -/
def replayComplete (runs mism temp : Nat) (crc : Word) (s : State) : State :=
  match s.hlt.replay with
  | none => s
  | some y =>
    if !drained s y.basin || !drained s (y.basin ^^^ 1) then s
    else
      let free (x : Basin) : Basin := { x with draining := false }
      let s := { s with hlt := { s.hlt with replay := none } }
      let s := (s.modBasin y.basin free).modBasin (y.basin ^^^ 1) free
      let s := (s.count (gk 0x0D 3 2) 1).ledger 0x0053 (srcOf 2 y.basin)
        (recBody [(32, 1, y.capture), (33, 2, y.basin), (36, 4, runs), (40, 4, mism), (44, 1, temp), (45, 1, y.voff), (46, 2, y.mhz)])
      offIfDue y.basin (s.workDone (fun w => w == .replay) St.ok [toBe 4 runs ++ toBe 4 mism ++ toBe 1 temp ++ zeros 3 ++ toBe 4 crc.toNat])

def execReplayComplete (t : Time) (runs mism temp : Nat) (crc : Word) (s : State) : Host.Outcome State Fault Refusal :=
  .next (replayComplete runs mism temp crc (s.tick t))

end Sys2Proof.Machine
end

