-- ==== Sys2Proof/Machine/Collective.lean ====
section
/-! DEFINITION. Collective groups, decoding tables, and what every operation shares: contexts, parameters, messages out,
windows and credit, reductions, gathers and barriers (11 R353–R378, R385–R391). -/

namespace Sys2Proof.Machine

/-! ### Groups (R353–R357) -/

def State.group (s : State) (g : Nat) : Option Group := Tab.get? s.col.groups g

def State.setGroup (s : State) (g : Nat) (x : Group) : State := { s with col := { s.col with groups := Tab.set s.col.groups g x } }

def State.modGroup (s : State) (g : Nat) (f : Group → Group) : State :=
  { s with col := { s.col with groups := Tab.upd s.col.groups g f } }

def Group.op (x : Group) (q : Nat) : Option ColOp := x.ops.find? fun o => o.opseq == q

def State.colOp (s : State) (g q : Nat) : Option ColOp := (s.group g).bind fun x => x.op q

def State.modOp (s : State) (g q : Nat) (f : ColOp → ColOp) : State :=
  s.modGroup g fun x => { x with ops := x.ops.map fun o => if o.opseq = q then f o else o }

def Group.turnValid (x : Group) : Bool := bitOf x.flags 0
def Group.upstream (x : Group) : Bool := bitOf x.flags 1
def Group.permits (x : Group) (kind : Nat) : Bool := decide (1 ≤ kind) && decide (kind ≤ 7) && bitOf x.kinds (kind - 1)

/-- The die that homes a group. -/
def groupDie (s : State) (x : Group) : Nat := (s.allot x.work).elim 0 (·.home)

/-- A gauge of a group (Table COL-10). -/
def colCount (row idx g n : Nat) (s : State) : State := s.count (gk 8 row idx g) n

/-- Set a bit of MEM_COL_STATUS: 0 BLOCK_DROP, 1 MISMATCH, 2 SIPHONED. -/
def colStatus (bit : Nat) (s : State) : State :=
  ({ s with col := { s.col with status := setBit s.col.status bit } }).mark Reg.col (29 + bit)

/-- The port through which an address is reached, under the active version of L3_HOST. -/
def portOfIp (s : State) (ip : Ip) : Option Nat :=
  let t := s.table 2
  ((t.entries t.active).find? fun e => byteAt e.key 2 == ip.af && be e.key 4 16 == ip.val && byteAt e.res 0 == 0).bind fun e =>
    (nextHop s s.stampNow (be e.res 2 2)).map (·.1)

/-- A member's address or port is fenced (R385). -/
def ipFenced (s : State) (ip : Ip) : Bool := s.addrFenced ip || (portOfIp s ip).elim false s.portFenced

/-- A member's address as a command adds it: fenced, and not being admitted by the lock cycle (02 invariant 11). -/
def addFenced (s : State) (ip : Ip) : Bool :=
  s.addrFenced ip && !s.inLock fun d => byteAt d 4 == ip.af && be d 16 16 == ip.val

/-- The upstream of a group is fenced: its address or port, its switch, or the levee's composition with it (14 Table FLT-4). -/
def upFenced (s : State) (x : Group) : Bool :=
  let k := Config.switchAt x.upAddr.af x.upAddr.val
  ipFenced s x.upAddr || (decide (k < 128) && (s.switchFenced k || s.compFenced x.levee 4 k))

/-- A member entry or UP_ADDR with PREFIX applied. -/
def memberIp (flags pre v : Nat) : Ip := if bitOf flags 2 then ⟨6, pre * 2 ^ 32 + v⟩ else ⟨4, v⟩

def parseGroup (p : Bytes) : Group :=
  let flags := byteAt p 7 % 8
  { levee := be p 0 2 % 1024, queue := be p 2 2,
    mems := (List.range (be p 4 2)).map fun i => ⟨memberIp flags (be p 48 12) (be p (80 + 8 * i) 4), be p (84 + 8 * i) 3⟩,
    kinds := byteAt p 6, flags := flags, turn := be p 8 2, work := be p 10 2, ntensor := be p 12 2, retxUs := be p 14 2,
    resOff := be p 16 8, resStride := be p 24 8, ctxOff := be p 32 8, ctxBytes := be p 40 8, upFmt := byteAt p 60,
    upGroup := be p 64 2, upMember := be p 66 2, tc := byteAt p 68, upQpn := be p 69 3,
    upAddr := memberIp flags (be p 48 12) (be p 72 4) }

/-- Step 1 of R355. -/
def groupBad (s : State) (p : Bytes) (x : Group) : Bool :=
  let n := be p 4 2
  let res := x.ntensor * x.resStride
  let ctx := 4 * x.ctxBytes
  leveeBad s x.levee || decide (n < 2) || decide (496 < n) || bitOf x.kinds 7 || decide (4096 < x.ntensor) ||
  decide (x.retxUs < 10) || x.resStride % 1024 != 0 || x.ctxBytes % 65536 != 0 || x.ctxBytes == 0 ||
  (!bitOf x.flags 2 && be p 48 12 != 0) || (if x.upstream then decide (1 < x.upFmt) else x.upFmt != 0) || decide (7 < x.tc) ||
  (x.mems.map fun m => (m.addr.val, m.qpn)).eraseDups.length != n ||
  !((s.queue x.queue).elim false fun q => q.levee == x.levee && q.group.isNone && !q.destroying) ||
  !((s.allot x.work).elim false fun a => a.levee == x.levee && a.st == .active && a.place == 0 && !a.coherent &&
      (regionOf s x.work).isNone && decide (x.resOff + res ≤ a.size) && decide (x.ctxOff + ctx ≤ a.size)) ||
  (decide (0 < res) && decide (x.resOff < x.ctxOff + ctx) && decide (x.ctxOff < x.resOff + res)) ||
  (x.turnValid && !((s.turn x.turn).elim false fun t => t.levee == x.levee)) ||
  (x.upstream && (x.kinds &&& 0b0111110 != 0 || decide (1023 < x.upGroup) || decide (495 < x.upMember)))

def bodyGroupCreate (r : KReq) (s : State) : Ans :=
  let p := par r
  let x := parseGroup p
  checks s [(plen r != 80 + 8 * be p 4 2, St.badLength), (groupBad s p x, St.badParam), (s.retiring x.levee, St.busy),
      ((Tab.lowestFree s.col.groups 1024).isNone, St.exhausted)] fun _ =>
    if x.mems.any (fun m => addFenced s m.addr) || (x.upstream && addFenced s x.upAddr) then guardReject s r x.levee 11
    else
      let g := (Tab.lowestFree s.col.groups 1024).getD 0
      let s := (s.setGroup g x).modQueue x.queue fun q => { q with group := some g }
      done (s.modAllot x.work fun a => { a with work := some g }) [toBe 2 g ++ zeros 6]

def execGroupCreate (t : Time) (r : KReq) (s : State) : Host.Outcome State Fault Refusal := command 0x0901 bodyGroupCreate t r s

/-! ### Fields of messages (Tables COL-2, COL-4, COL-5) -/

/-- A field of bytes 16–47 of a message or of an operation's parameters. -/
def hf (h : Bytes) (off n : Nat) : Nat := be h (off - 16) n

/-- KIND 1 to 4 and 7 carry Table COL-4, 5 and 6 Table COL-5. -/
def isExpert (kind : Nat) : Bool := kind == 5 || kind == 6

/-- The parameters of an operation within bytes 16–47, everything else zero (R364). -/
def colParams (kind : Nat) (h : Bytes) : Bytes :=
  if kind = 5 then slice h 0 1 ++ zeros 1 ++ slice h 2 2 ++ zeros 2 ++ slice h 6 2 ++ zeros 16 ++ slice h 24 4 ++ zeros 4
  else if kind = 6 then slice h 0 2 ++ zeros 4 ++ slice h 6 2 ++ zeros 16 ++ slice h 24 8
  else slice h 0 12 ++ zeros 6 ++ slice h 18 14

/-- The parameter flags: EF, SR and STEP of a reduction, gather or barrier. -/
def colFlags (kind flags : Nat) : Nat := if isExpert kind then 0 else flags % 8

def ColOp.ef (o : ColOp) : Bool := bitOf o.flags 0 && !isExpert o.kind
def ColOp.seed (o : ColOp) : Option Nat := if bitOf o.flags 1 then some (hf o.hdr 40 8) else none
def ColOp.step (o : ColOp) : Bool := bitOf o.flags 2
def ColOp.fmtIn (o : ColOp) : Nat := hf o.hdr 16 1
def ColOp.fmtOut (o : ColOp) : Nat := hf o.hdr 17 1
def ColOp.rop (o : ColOp) : Nat := hf o.hdr 18 1
def ColOp.decIn (o : ColOp) : Nat := hf o.hdr 19 1 / 16
def ColOp.decOut (o : ColOp) : Nat := hf o.hdr 19 1 % 16
def ColOp.tensor (o : ColOp) : Nat := hf o.hdr 20 2
def ColOp.root (o : ColOp) : Nat := hf o.hdr 22 2
def ColOp.outSlot (o : ColOp) : Nat := hf o.hdr 34 2 % 64
def ColOp.outGen (o : ColOp) : Nat := hf o.hdr 34 2 / 256 % 16
def ColOp.scale (o : ColOp) : Num := ofF32 (BitVec.ofNat 32 (hf o.hdr 36 4))

/-- An operation still takes contributions. -/
def ColOp.going (o : ColOp) : Bool := !o.complete && o.fail == 0

/-- Bytes of a block of 256 elements, 0 where it depends on the block (R366). -/
def blockBytes (f : Nat) : Nat := if f = 0x0E then 0 else if f = 0x0D then 144 else 256 * fmtBytes f

/-- Bytes the context counts for a result block. -/
def ctxBlock (f : Nat) : Nat := if f = 0x0E then 1040 else blockBytes f

/-- Shard of a member: first block and the one after its last (R365). -/
def shard (n total m : Nat) : Nat × Nat := (m * total / n, (m + 1) * total / n)

/-- The member whose shard holds a block. -/
def shardOwner (n total i : Nat) : Nat :=
  ((List.range n).find? fun m => decide ((shard n total m).1 ≤ i) && decide (i < (shard n total m).2)).getD 0

/-! ### Messages the device sends (R358–R361) -/

/-- A message that a group sends, from its queue's addresses, in class TC (R358); its home die's engine originates it. -/
def colOut (s : State) (x : Group) (dst : Ip) (qpn : Nat) (bytes : Bytes) : Out :=
  .collective (groupDie s x) x.levee x.tc ((s.queue x.queue).elim default (·.srcIp)) ((s.queue x.queue).elim 0 (·.srcMac)) dst qpn colQKey bytes

/-- Send a message of an operation to a member; a fenced one's is suppressed (R385). -/
def colSend (g dest mtype kind opseq status flags : Nat) (hdr body : Bytes) (s : State) : State :=
  match s.group g with
  | none => s
  | some x =>
    match x.mems[dest]? with
    | none => s
    | some d =>
      if s.halted || ipFenced s d.addr then s
      else s.emit (colOut s x d.addr d.qpn (colBytes g kind mtype opseq dest status flags hdr body))

/-- Members of a group that an operation still counts. -/
def liveMembers (x : Group) (o : ColOp) : List Nat := (List.range x.mems.length).filter fun m => !o.removed.contains m

/-- Bytes 16–47 of a message of a reduction, gather or barrier: the parameters with FIRST and NBLK. -/
def blockHdr (o : ColOp) (first nblk : Nat) : Bytes := splice o.hdr 12 (toBe 4 first ++ toBe 2 nblk)

/-- Send one RESULT of consecutive blocks to a member. -/
def sendBlocks (g : Nat) (o : ColOp) (dest first : Nat) (bs : List Bytes) (s : State) : State :=
  colCount 1 1 g bs.length (colSend g dest 1 o.kind o.opseq 0 (o.flags % 8) (blockHdr o first bs.length) bs.flatten s)

/-- FRONTIER that a CREDIT carries: with UPSTREAM, the lower of the local and the upstream one (R388). -/
def frontierOf (x : Group) (o : ColOp) : Nat := if x.upstream && o.kind == 1 then min o.frontier o.upFrontier else o.frontier

/-- Send a CREDIT of a reduction, gather, broadcast or barrier to every live member. -/
def sendCredits (g : Nat) (x : Group) (o : ColOp) (s : State) : State :=
  (liveMembers x o).foldl (fun s m =>
    colSend g m 3 o.kind o.opseq 0 (o.flags % 8) (blockHdr o (frontierOf x o) 0) [] s) s

/-- The window of a context, in blocks (R367). -/
def wblk (s : State) (x : Group) : Nat := (s.queue x.queue).elim 0 fun q => q.slots.length * q.ntiles / 2

/-! ### Failures (R364, R386) -/

/-- An operation in progress ends with a status; the first failure counts. -/
def failOp (g q st : Nat) (s : State) : State :=
  s.modOp g q fun o => if o.going then { o with fail := st } else o

/-- Every operation in progress of a group ends with a status. -/
def failAll (g st : Nat) (s : State) : State :=
  s.modGroup g fun x => { x with ops := x.ops.map fun o => if o.going then { o with fail := st } else o }

/-- An operation ends under R364. -/
def mismatchOp (g q : Nat) (s : State) : State :=
  match s.group g with
  | none => s
  | some x => failOp g q St.badParam ((colStatus 1 s).count (gk 8 4 1 (groupDie s x)) 1)

/-! ### Completion (R369, R370) -/

/-- The bitmap of removed members, 64 bytes (04 R145). -/
def removedMap (l : List Nat) : Bytes :=
  (List.range 64).map fun i => BitVec.ofNat 8 ((List.range 8).foldl (fun v j => v + (if l.contains (8 * i + j) then 2 ^ j else 0)) 0)

/-- Counts a DISPATCH adds to its DONE (R382). -/
def dispatchCounts (o : ColOp) : Bytes :=
  if o.kind = 5 then toBe 4 o.dropped ++ (List.range o.map.length).flatMap fun e => toBe 4 (Tab.getD o.positions e []).length
  else []

/-- STATUS, FLAGS and body of an operation's DONE. -/
def doneOf (o : ColOp) : Nat × Nat × Bytes :=
  let up := (o.upDone.elim false (·.2))
  let st := if o.fail ≠ 0 then o.fail else if o.removed.isEmpty then St.ok else St.part
  let map := st == St.part
  (st % 256, o.flags % 8 + (if st = St.exhausted then 8 else 0) + (if map then 16 else 0) + (if up then 32 else 0),
    (if map then removedMap o.removed else []) ++ dispatchCounts o)

/-- The operation completes: DONE to every member that is not fenced, references released, and STEP's addition (R369,
R370, R376). -/
def endOp (g q : Nat) (s : State) : State :=
  match s.group g, s.colOp g q with
  | some x, some o =>
    if o.complete then s
    else
      let (st, fl, body) := doneOf o
      let s := s.modOp g q fun o => { o with complete := true, doneStatus := st, doneFlags := fl, doneBody := body, gens := [] }
      let s := if o.kind = 6 then s.modOp g (hf o.hdr 40 4) fun d => { d with consumed := true } else s
      let s := (List.range x.mems.length).foldl (fun s m => colSend g m 2 o.kind q st fl (blockHdr o 0 0) body s) s
      let s := colCount 0 (if st = St.ok then 0 else if st = St.part then 1 else 2) g 1 s
      let s := if st = St.fenced then fencedCount x.levee (groupDie s x) s else s
      if o.step && x.turnValid then turnAdd x.turn 1 s else s
  | _, _ => s

/-- Send a member the DONE of a completed operation again. -/
def repeatDone (g m : Nat) (o : ColOp) (s : State) : State :=
  colSend g m 2 o.kind o.opseq o.doneStatus o.doneFlags (blockHdr o 0 0) o.doneBody s

/-! ### GROUP_DESTROY (R357) -/

/-- A group ends: its operations complete with a status, and nothing is taken for it any more. -/
def groupStop (g st : Nat) (s : State) : State :=
  match s.group g with
  | none => s
  | some x =>
    let s := failAll g st s
    let s := (x.ops.filter fun o => !o.complete).foldl (fun s o => endOp g o.opseq s) s
    s.modGroup g fun x => { x with destroying := true }

/-- A replay that the group's results wait for is pending or in progress. -/
def groupReplaying (s : State) (x : Group) : Bool :=
  s.pwr.window || (s.queue x.queue).elim false fun q => q.slots.any fun y => !y.lost && (s.basin y.basin).replaying

/-- The bytes of a context are what the device last left there, in a form no rule gives (assumption 3). -/
def scrambleCtx (x : Group) (k : Nat) (s : State) : State :=
  { s with cis := { s.cis with
      pool := s.cis.pool.writeN (poolKey x.work (x.ctxOff + k * x.ctxBytes)) (s.freeBytes x.ctxBytes) } }.drawn

/-- Groups being destroyed that nothing holds any more are gone: the queue takes posts, WORK is open (R357). -/
def groupProgress (s : State) : State :=
  (s.col.groups.filter fun e => e.2.destroying).foldl (fun s e =>
    if groupReplaying s e.2 then s
    else
      let x := e.2
      let s := if (s.allot x.work).elim false (fun a => a.st == .active) then x.scratch.foldl (fun s k => scrambleCtx x k s) s else s
      let s := { s with col := { s.col with groups := Tab.del s.col.groups e.1 } }
      let s := s.modQueue x.queue fun q => { q with group := none }
      let other := (s.col.groups.find? fun y => y.2.work == x.work && y.2.levee == x.levee).map (·.1)
      let s := s.modAllot x.work fun a => { a with work := if a.work = some e.1 then other else a.work }
      s.workDone (fun w => w == .destroyGroup e.1) St.ok []) s

def bodyGroupDestroy (r : KReq) (s : State) : Ans :=
  let g := be (par r) 0 2
  checks s [(plen r != 8, St.badLength), ((s.group g).elim true (·.destroying), St.badParam)] fun _ =>
    { defer (groupStop g St.badParam s) (.destroyGroup g) with after := groupProgress }


/-- ALLOT_REVOKE of a WORK allotment also destroys its groups (R386). -/
def bodyRevokeWork (r : KReq) (s : State) : Ans :=
  let a := be (par r) 0 2
  let gs := (s.col.groups.filter fun e => e.2.work == a && !e.2.destroying).map (·.1)
  let x := bodyAllotRevoke r s
  if x.status = St.ok ∧ x.work.isSome then
    { x with s := groupProgress (gs.foldl (fun s g => groupStop g St.extentRevoked s) x.s) }
  else x


/-- SLOT_MOVE: a slot that is lost takes the group's operations with it (R386). -/
def slotMoveGroup (q i : Nat) (s : State) : State :=
  let was := ((s.queue q).bind fun y => y.slots[i]?).elim true (·.lost)
  let s := slotMove q i s
  match s.queue q with
  | some y => if !was && (y.slots[i]?).elim false (·.lost) then y.group.elim s fun g => failAll g St.stateLost s else s
  | none => s

def execSlotMove (t : Time) (queue slot : Nat) (s : State) : Host.Outcome State Fault Refusal :=
  .next (slotMoveGroup queue slot (s.tick t))

/-! ### Decoding tables (R376–R378) -/

/-- A generation is referenced (R376). -/
def genUsed (s : State) (slot : Nat) (g : DecGen) : Bool :=
  g.held || s.flm.chains.any (fun e => e.2.slotsRef.contains (slot, g.gen)) ||
    s.col.groups.any fun e => e.2.ops.any fun o => o.gens.contains (slot, g.gen)

def setGens (slot levee : Nat) (l : List DecGen) (s : State) : State :=
  { s with col := { s.col with slots := if l.isEmpty then Tab.del s.col.slots slot else Tab.set s.col.slots slot (levee, l) } }

def bodyDecodeTableLoad (r : KReq) (s : State) : Ans :=
  let p := par r
  let slot := byteAt p 8
  let gen := byteAt p 9
  let hold := bitOf (byteAt p 10) 0
  let release := bitOf (byteAt p 10) 1
  let field := be p 12 2 % 1024
  let levee := (tenant r).getD field
  let cur := Tab.get? s.col.slots slot
  let gs := cur.elim [] (·.2)
  let img := slice p 16 256
  let mine := gs.find? fun x => x.gen == gen
  checks s [(!oneFrag r || plen r != (if release then 16 else 272), St.badLength),
      (decide (63 < slot) || decide (15 < gen) || ((tenant r).isSome && field != 0) || leveeBad s levee ||
        cur.elim false (fun x => x.1 != levee), St.badParam),
      (release && !(mine.elim false (·.held)), St.badParam), (!release && !imageOk img, St.badParam)] fun _ =>
    let new : DecGen := ⟨gen, img, hold⟩
    if release then done (setGens slot levee (gs.map fun x => if x.gen = gen then { x with held := false } else x) s)
    else match mine with
      | some x =>
        if genUsed s slot x then refuse s St.tableBusy
        else done (setGens slot levee (gs.filter (fun y => y.gen != gen) ++ [new]) s)
      | none =>
        if gs.length < 4 then done (setGens slot levee (gs ++ [new]) s)
        else match gs.find? fun x => !genUsed s slot x with
          | some x => done (setGens slot levee (gs.filter (fun y => y.gen != x.gen) ++ [new]) s)
          | none => refuse s St.tableBusy

def execDecodeTableLoad (t : Time) (r : KReq) (s : State) : Host.Outcome State Fault Refusal :=
  command 0x0903 bodyDecodeTableLoad t r s

/-! ### WORK (R356, R372, R373) -/

/-- Write bytes of WORK, tile by tile. -/
def writeWork (a off : Nat) (bs : Bytes) (s : State) : State :=
  (tileCuts off bs.length 0 (bs.length / 4096 + 2)).foldl (fun s c => putTile a c.1 c.2.1 (slice bs c.2.2.1 c.2.2.2) 4 s) s

/-- A tile of a range of WORK is poisoned (R221, R386). -/
def workPoisoned (s : State) (a off len : Nat) : Bool :=
  s.cis.poisoned.any fun k => k / 2 ^ 32 == a && decide (off / 4096 ≤ k % 2 ^ 32) && decide (4096 * (k % 2 ^ 32) < off + len)

/-- Where a tensor's residuals start. -/
def residualAt (x : Group) (tensor : Nat) : Nat := x.resOff + tensor * x.resStride

def bodyResidualReset (r : KReq) (s : State) : Ans :=
  let p := par r
  let g := be p 0 2
  let tensor := be p 2 2
  let x := s.group g
  let own := (tenant r).elim true fun l => x.elim false fun y => y.levee == l
  checks s [(plen r != 8, St.badLength),
      (!own || x.elim true (fun y => y.destroying || decide (y.ntensor ≤ tensor)), St.badParam),
      (x.elim false fun y => y.ops.any fun o => !o.complete && o.ef && o.tensor == tensor, St.busy)] fun _ =>
    match x with
    | none => refuse s St.badParam
    | some y =>
      let off := residualAt y tensor
      done ((tileCuts off y.resStride 0 (y.resStride / 4096 + 2)).foldl (fun s c => putTile y.work c.1 c.2.1 (zeros c.2.2.2) 4 s) s)

def execResidualReset (t : Time) (r : KReq) (s : State) : Host.Outcome State Fault Refusal := command 0x0905 bodyResidualReset t r s

/-! ### Parameters (R364–R366) -/

/-- A format of a reduction. -/
def redFmt (f : Nat) : Bool := decide (f ≤ 2) || f == 0x0D || f == 0x0E

/-- A format of ALL_GATHER and BROADCAST. -/
def gatherFmt (f : Nat) : Bool := redFmt f || f == 0x03 || f == 0x04 || f == 0x0B || f == 0x0C

/-- A parameter lies outside Table COL-4 or COL-6, or the group does not permit the operation. -/
def blockParamsBad (s : State) (x : Group) (o : ColOp) : Bool :=
  let red := decide (o.kind ≤ 2)
  let out := hf o.hdr 34 2
  let total := hf o.hdr 24 4
  (o.step && !x.turnValid) || decide (2 < o.rop) || decide (2 < o.decIn) || decide (2 < o.decOut) ||
  (if o.fmtOut = 0x0E then out / 64 % 4 != 0 || decide (4096 ≤ out) || (red && (decImage s x.levee o.outSlot o.outGen).isNone)
   else out != 0) ||
  (o.seed.isNone && hf o.hdr 40 8 != 0) ||
  (if o.kind = 4 then decide (x.mems.length ≤ o.root) else o.root != 0) ||
  (if o.kind = 7 then o.fmtIn != 0 || o.fmtOut != 0 || total != 0 || o.ef
   else
    (if red then
      !redFmt o.fmtIn || !redFmt o.fmtOut || !isFin o.scale || o.scale.eq .zero ||
        (o.rop != 0 && (o.fmtIn == 0x0E || o.fmtOut == 0x0E))
     else !gatherFmt o.fmtIn || o.fmtIn != o.fmtOut || hf o.hdr 36 4 != 0x3F800000) ||
    (o.ef && (!red || o.rop != 0 || o.fmtOut != 0x0D || decide (x.ntensor ≤ o.tensor) || decide (x.resStride < 1024 * total) ||
      x.ops.any fun y => y.opseq != o.opseq && !y.complete && y.ef && y.tensor == o.tensor)) ||
    decide (x.ctxBytes < total * ctxBlock o.fmtOut))

/-! ### Reductions, gathers and barriers (R365–R368, R371, R372) -/

/-- Split a body into blocks laid back to back; none where it does not hold exactly `n`. -/
def splitBlocks (f : Nat) (n : Nat) (b : Bytes) : Option (List Bytes) :=
  match n with
  | 0 => if b.isEmpty then some [] else none
  | n + 1 =>
    let len := if f = 0x0E then blockSpan b else blockBytes f
    if len = 0 ∨ b.length < len then none else (splitBlocks f n (b.drop len)).map (b.take len :: ·)

/-- The values of a contributed block, or the status of its check (R293). -/
def blockValues (s : State) (x : Group) (o : ColOp) (b : Bytes) : BlockOut :=
  if isFurrow o.fmtIn then openBlock o.fmtIn (if o.fmtIn = 0x0E then o.decIn else 0) (decImage s x.levee) b
  else .values ((List.range 256).map fun i => scaledAt o.fmtIn b [] i)

/-- The check of a block that is only relayed. -/
def relayCheck (o : ColOp) (b : Bytes) : Nat :=
  if !isFurrow o.fmtIn then St.ok
  else if !lengthOk o.fmtIn b then St.badParam
  else if !crcOk (slice b 0 (le b 4 2)) then St.blockCheck else St.ok

/-- The generation a block names (R376). -/
def blockGen (o : ColOp) (b : Bytes) : List (Nat × Nat) :=
  if o.fmtIn = 0x0E then [(byteAt b 1 % 64, byteAt b 2 / 16)] else []

/-- The slot, and its basin, that serve a block (R371). -/
def blockSlot (s : State) (x : Group) (i : Nat) : Option Slot := (s.queue x.queue).bind fun q => q.slots[i % q.slots.length]?

/-- A contributed block fails its check: it is dropped once, and the second time ends the operation (R386). -/
def blockFails (g q m i : Nat) (x : Group) (o : ColOp) (s : State) : State :=
  let s := colCount 2 0 g 1 (colStatus 0 s)
  let s := match blockSlot s x i with
    | some y => ((bsnCount 2 2 y.basin 1 (s.bsnEvent y.basin 2)).ledger 0x0031 (srcOf 2 y.basin)
        (recBody [(32, 2, y.basin), (36, 8, s.peekFree)])).drawn
    | none => s
  if o.badOnce.contains (m, i) then failOp g q St.blockCheck s
  else s.modOp g q fun o => { o with badOnce := o.badOnce ++ [(m, i)] }

/-- A block has had its contributions: of a reduction, once BLOCK_COMPLETE has run; of a gather, once it is there or its
contributor is removed. -/
def blockOver (x : Group) (o : ColOp) (i : Nat) : Bool :=
  (Tab.getD o.blocks i {}).done ||
    (o.kind == 3 && o.removed.contains (shardOwner x.mems.length o.total i)) || (o.kind == 4 && o.removed.contains o.root)

/-- The lowest block not over, from `i`. -/
def frontierFrom (x : Group) (o : ColOp) (i fuel : Nat) : Nat :=
  match fuel with
  | 0 => i
  | fuel + 1 => if blockOver x o i then frontierFrom x o (i + 1) fuel else i

/-- FRONTIER advances, and a CREDIT follows a quarter of a window (R367). -/
def advanceFrontier (g q : Nat) (s : State) : State :=
  match s.group g, s.colOp g q with
  | some x, some o =>
    let f := frontierFrom x o o.frontier (o.total - o.frontier)
    let o := { o with frontier := f }
    let now := frontierOf x o
    let due := decide (o.credited < now) && decide (wblk s x ≤ 4 * (now - o.credited))
    let s := s.modOp g q fun y => { y with frontier := f, credited := if due then now else y.credited }
    if due then sendCredits g x o s else s
  | _, _ => s

/-- Who may contribute block `i`. -/
def mayContribute (x : Group) (o : ColOp) (m i : Nat) : Bool :=
  if o.kind = 3 then shardOwner x.mems.length o.total i == m else if o.kind = 4 then m == o.root else true

/-- Take one contributed block in; answers whether it was new. -/
def takeBlock (g q m i : Nat) (b : Bytes) (s : State) : State × Bool :=
  match s.group g, s.colOp g q with
  | some x, some o =>
    let k := Tab.getD o.blocks i {}
    if !o.going then (s, false)
    else if frontierOf x o + wblk s x ≤ i then (colCount 1 3 g 1 s, false)
    else if k.done || k.taken.contains m then (colCount 1 2 g 1 s, false)
    else
      let s := match blockSlot s x i with
        | some y => retain y.basin (.block g q i) m b s
        | none => s
      if o.kind ≤ 2 then
        match blockValues s x o b with
        | .bad st => (if st = St.blockCheck then blockFails g q m i x o s else mismatchOp g q s, false)
        | .values l =>
          let acc := if k.acc.isEmpty then l.map fun v => toF32 (reduceF o.rop [v])
            else List.zipWith (fun a v => toF32 (reduceF o.rop [ofF32 a, v])) k.acc l
          let k := { k with taken := k.taken ++ [m], acc := acc }
          (colCount 1 0 g 1 (s.modOp g q fun o => { o with blocks := Tab.set o.blocks i k, gens := (o.gens ++ blockGen o b).eraseDups }), true)
      else
        let st := relayCheck o b
        if st ≠ St.ok then (if st = St.blockCheck then blockFails g q m i x o s else mismatchOp g q s, false)
        else if workPoisoned s x.work (x.ctxOff + o.ctx * x.ctxBytes + i * ctxBlock o.fmtOut) (ctxBlock o.fmtOut) then
          (failOp g q St.internal s, false)
        else
          let k := { k with taken := [m], done := true, res := b }
          (colCount 1 0 g 1 (s.modOp g q fun o =>
            { o with blocks := Tab.set o.blocks i k, gens := (o.gens ++ blockGen o b).eraseDups, lastDone := s.now }), true)
  | _, _ => (s, false)

/-- Runs of consecutive numbers in a rising list: first, length. -/
def blockRuns (l : List Nat) : List (Nat × Nat) :=
  l.foldr (fun i r => match r with
    | (j, n) :: t => if i + 1 = j then (i, n + 1) :: t else (i, 1) :: r
    | [] => [(i, 1)]) []

/-- Relay the blocks of a gather just taken in to every member that receives them. -/
def relay (g q m : Nat) (is : List Nat) (s : State) : State :=
  match s.group g, s.colOp g q with
  | some x, some o =>
    ((liveMembers x o).filter (· != m)).foldl (fun s d =>
      (blockRuns is).foldl (fun s r =>
        sendBlocks g o d r.1 ((List.range r.2).map fun j => (Tab.getD o.blocks (r.1 + j) {}).res) s) s) s
  | _, _ => s

/-- The work of a block's basin on it is tagged by an open window already. -/
def blockTagged (s : State) (x : Group) (g q i : Nat) : Bool :=
  (blockSlot s x i).elim false fun y => (s.basin y.basin).tagged.any fun t => t.op == .block g q i

/-- The work of a block's basin on it in an open window is tagged; its results, `n` bytes, are held until the replay (R297,
Table COL-8). -/
def tagBlock (g q i n : Nat) (x : Group) (s : State) : State :=
  match blockSlot s x i with
  | some y =>
    if blockTagged s x g q i then s
    else tagOp y.basin { op := .block g q i, lost := false } (s.modBasin y.basin fun z => { z with holdBytes := z.holdBytes + n })
  | none => s

/-- Blocks of a gather that were just taken in go on to the members, or are held by an open window. -/
def passOn (g q m : Nat) (is : List Nat) (x : Group) (s : State) : State :=
  if !(s.colOp g q).elim false (·.going) then s
  else if s.pwr.window then
    is.foldl (fun s i => tagBlock g q i ((s.colOp g q).elim 0 fun o => (Tab.getD o.blocks i {}).res.length) x s) s
  else relay g q m is s

/-- A CONTRIB of KIND 1 to 4. -/
def contribBlocks (g q : Nat) (m : ColMsg) (s : State) : State :=
  match s.group g, s.colOp g q with
  | some x, some o =>
    let first := hf m.hdr 28 4
    let n := hf m.hdr 32 2
    let is := (List.range n).map (first + ·)
    match splitBlocks o.fmtIn n m.body with
    | none => mismatchOp g q s
    | some bs =>
      if o.total < first + n || is.any (fun i => !mayContribute x o m.mem i) then mismatchOp g q s
      else
        let (s, new) := (is.zip bs).foldl (fun (a : State × List Nat) e =>
          let (s, took) := takeBlock g q m.mem e.1 e.2 a.1
          (s, if took then a.2 ++ [e.1] else a.2)) (s, [])
        if o.kind ≤ 2 then s else advanceFrontier g q (passOn g q m.mem new x s)
  | _, _ => s

/-- Send a message upstream (R388). -/
def upSend (x : Group) (o : ColOp) (mtype : Nat) (hdr body : Bytes) (s : State) : State :=
  if s.halted || upFenced s x then s
  else s.emit (colOut s x x.upAddr x.upQpn (colBytes x.upGroup o.kind mtype o.opseq x.upMember 0 (o.flags / 2 % 4 * 2) hdr body))

/-- The upstream contribution of one block: its unscaled sum in UP_FMT. -/
def upBlock (x : Group) (o : ColOp) (i : Nat) (s : State) : State :=
  let acc := (Tab.getD o.blocks i {}).acc
  let codes := acc.map fun a => encElem x.upFmt (ofF32 a) none
  upSend x o 0 (splice (blockHdr o i 1) 0 (toBe 1 x.upFmt)) (pack x.upFmt codes) s

/-- A CONTRIB of a BARRIER; with UPSTREAM the last local one goes on upstream. -/
def contribBarrier (g q : Nat) (m : ColMsg) (s : State) : State :=
  match s.group g, s.colOp g q with
  | some x, some o =>
    if !m.body.isEmpty then mismatchOp g q s
    else if o.barrier.contains m.mem then colCount 1 2 g 1 s
    else
      let o := { o with barrier := o.barrier ++ [m.mem] }
      let s := s.modOp g q fun _ => o
      if x.upstream && (liveMembers x o).all o.barrier.contains then upSend x o 0 o.hdr [] s else s
  | _, _ => s

/-! ### BLOCK_COMPLETE (R366, R371, R372) -/

/-- y of R371 and R372 for one block, and the residuals it reads. -/
def blockY (s : State) (x : Group) (o : ColOp) (i : Nat) (acc : List (BitVec 32)) : List Num :=
  let off := residualAt x o.tensor + 1024 * i
  let res := if o.ef then readPool s x.work off 1024 else []
  (List.range acc.length).map fun j =>
    let v := ofF32 (acc.getD j 0)
    if o.ef then fma32 o.scale v (ofF32 (BitVec.ofNat 32 (le res (4 * j) 4))) else round32 (o.scale.mul v)

/-- A result block in FMT_OUT. -/
def blockResult (s : State) (x : Group) (o : ColOp) (i : Nat) (y : List Num) : Bytes :=
  let z (j : Nat) : Option Nat := o.seed.map fun sd => srValue sd (256 * i + j)
  let codes (f : Nat) : List Nat := (List.range y.length).map fun j => encElem f (norm32 (y.getD j .zero)) (z j)
  if o.fmtOut = 0x0D then encFrw4 o.seed (256 * i) y
  else if o.fmtOut = 0x0E then
    let b := encFrwl o.decOut o.outSlot o.outGen (decImage s x.levee o.outSlot o.outGen) (codes o.decOut)
    b ++ zeros (roundUp b.length 16 - b.length)
  else pack o.fmtOut (codes o.fmtOut)

/-- The blocks of the next RESULT body from `i`, and whether the body is as long as it can be. -/
def nextBody (o : ColOp) (end_ i room fuel : Nat) : List Bytes × Bool :=
  match fuel with
  | 0 => ([], true)
  | fuel + 1 =>
    if end_ ≤ i then ([], true)
    else
      let k := Tab.getD o.blocks i {}
      if !k.done then ([], o.fmtOut != 0x0E && decide (room < blockBytes o.fmtOut))
      else if room < k.res.length then ([], true)
      else
        let (l, full) := nextBody o end_ (i + 1) (room - k.res.length) fuel
        (k.res :: l, full)

/-- Send the RESULTs of a reduction whose bodies are complete. -/
def flushResults (g q fuel : Nat) (s : State) : State :=
  match fuel with
  | 0 => s
  | fuel + 1 =>
    match s.group g, s.colOp g q with
    | some x, some o =>
      let owner := shardOwner x.mems.length o.total o.sent
      let end_ := if o.kind = 2 then (shard x.mems.length o.total owner).2 else o.total
      let (bs, full) := nextBody o end_ o.sent 4048 4048
      if bs.isEmpty || !full then s
      else
        let to_ := if o.kind = 2 then (liveMembers x o).filter (· == owner) else liveMembers x o
        let s := if (bs.any fun b => !b.isEmpty) then to_.foldl (fun s d => sendBlocks g o d o.sent bs s) s else s
        flushResults g q fuel (s.modOp g q fun y => { y with sent := y.sent + bs.length })
    | _, _ => s

/-- The sampled cross-check counts a completed block as one operation (R375); its tile is the block's FP32 value before
conversion. -/
def blockSample (x : Group) (i : Nat) (acc : List (BitVec 32)) (depends : Nat) (s : State) : State :=
  match blockSlot s x i with
  | none => s
  | some y =>
    let z := s.basin y.basin
    if z.countdown ≠ 0 then s.setBasin y.basin { z with countdown := z.countdown - 1 }
    else if z.check.isSome then s
    else s.setBasin y.basin { z with
      check := some { queue := x.queue, levee := x.levee, idx := i, desc := zeros 64, tile := 0,
                      result := acc.flatMap fun a => toLe 4 a.toNat, operands := [], depends := depends } }

/-- The basin of a block can work on it now; in an open window as far as its outbound hold has room (09 R297). -/
def blockReady (s : State) (x : Group) (i : Nat) : Bool :=
  (blockSlot s x i).elim false fun y =>
    let z := s.basin y.basin
    !y.lost && z.power == .active && !z.replaying && !(s.pwr.window && decide (262144 ≤ z.holdBytes))

/-- A block of a reduction has every live member's contribution and has not been completed. -/
def blockDue (x : Group) (o : ColOp) (i : Nat) : Bool :=
  let k := Tab.getD o.blocks i {}
  o.going && decide (o.kind ≤ 2) && decide (i < o.total) && !k.done && (liveMembers x o).all k.taken.contains

/-- The tiles of WORK that hold the residuals of a block. -/
def residualTiles (x : Group) (o : ColOp) (i : Nat) : List Nat :=
  if o.ef then (cutsOf (residualAt x o.tensor + 1024 * i) 1024).map (·.1) else []

/-- Verify the residuals that a block's basin reads (09 R295). -/
def residualFault (x : Group) (o : ColOp) (i : Nat) (s : State) : State × Nat :=
  let b := (blockSlot s x i).elim 0 (·.basin)
  let pva := (s.allot x.work).elim 0 (·.pva)
  (residualTiles x o i).foldl (fun (a : State × Nat) t =>
    if a.2 ≠ St.ok then a else poolTileFault b x.work (pva + 4096 * t) t a.1) (s, St.ok)

/-- A block is scaled, converted and kept, or goes upstream unscaled (R366, R371, R372). -/
def blockRun (g q i : Nat) (s : State) : State :=
  match s.group g, s.colOp g q with
  | some x, some o =>
    let k := Tab.getD o.blocks i {}
    if !blockDue x o i then s
    else if workPoisoned s x.work (x.ctxOff + o.ctx * x.ctxBytes + i * ctxBlock o.fmtOut) (ctxBlock o.fmtOut) ||
        (o.ef && workPoisoned s x.work (residualAt x o.tensor + 1024 * i) 1024) then failOp g q St.internal s
    else
      match residualFault x o i s with
      | (s, 0) =>
        let up := x.upstream && o.kind == 1
        let y := blockY s x o i k.acc
        let res := if up || k.acc.isEmpty then [] else blockResult s x o i y
        let s := if o.ef && !up && !k.acc.isEmpty then
            let v := decFrw4 res
            let new := (List.range 256).flatMap fun j => toLe 4 (toF32 (Num.sum [y.getD j .zero, (v.getD j .zero).negate])).toNat
            writeWork x.work (residualAt x o.tensor + 1024 * i) new s
          else s
        let s := s.modOp g q fun o => { o with blocks := Tab.set o.blocks i { k with done := true, up := up, res := res }, lastDone := s.now }
        let s := if k.acc.isEmpty then s else blockSample x i (if up then k.acc else y.map toF32) (k.taken.length * 1024) s
        let s := if up && !k.acc.isEmpty then upBlock x { o with blocks := Tab.set o.blocks i k } i s else s
        advanceFrontier g q (if up then s else flushResults g q (o.total + 1) s)
      | (s, st) => failOp g q st s
  | _, _ => s

/-- BLOCK_COMPLETE: the block's basin completes it; in an open window what it gives is held, to be done again by the replay
(09 R297, R298, Table COL-8). -/
def blockComplete (g q i : Nat) (s : State) : State :=
  match s.group g, s.colOp g q with
  | some x, some o =>
    if !blockDue x o i || !blockReady s x i then s
    else if s.pwr.window then
      match blockSlot s x i with
      | some y =>
        let res := (residualTiles x o i).flatMap fun t => readPool s x.work (4096 * t) 4096
        tagBlock g q i (ctxBlock o.fmtOut) x (if o.ef then retain y.basin (.block g q i) (2 ^ 50) res s else s)
      | none => s
    else blockRun g q i s
  | _, _ => s

def execBlockComplete (t : Time) (group opseq block : Nat) (s : State) : Host.Outcome State Fault Refusal :=
  .next (blockComplete group opseq block (s.tick t))

/-! ### Replay of a dip window (09 R298–R300) -/

/-- Results of an operation that an open window or a replay to come still holds. -/
def opHeld (s : State) (g q : Nat) : Bool :=
  s.bsn.tab.any fun e => e.2.tagged.any fun t => match t.op with
    | .block a b _ => a == g && b == q
    | .desc _ _ => false

/-- An operation is executed again: its writes of the store are made anew, its results leave (R298). -/
def replayOp (b : Nat) (t : Tagged) (s : State) : State :=
  let s := bsnCount 3 1 b 1 s
  match t.op with
  | .desc cid _ =>
    let s := t.writes.foldl (fun s w => (writeStore b w.1 w.2 s).1) s
    t.outbound.foldl (fun s o => release o s) (s.modChain cid fun c => { c with replayed := true })
  | .block g q i =>
    match s.colOp g q with
    | some o =>
      if !t.done then s
      else if o.kind ≤ 2 then blockRun g q i s
      else if o.going then relay g q ((Tab.getD o.blocks i {}).taken.headD 0) [i] s else s
    | none => s

/-- An operation completes DIP_RETRY: the outcome its chain had reached is undone, or its collective ends (R299, R386). -/
def retryOp (b : Nat) (t : Tagged) (s : State) : State :=
  let s := bsnCount 3 2 b 1 (s.bsnEvent b 5)
  match t.op with
  | .block g q _ => failOp g q St.dipRetry s
  | .desc cid idx =>
    let pool := (t.outbound.filter fun o => match o with
      | .poolWrite _ _ _ _ => true
      | .frame _ => true
      | _ => false).length
    match s.chain cid with
    | none => s
    | some c =>
      let s := s.modChain cid fun c => { c with unacked := c.unacked - pool, net := Tab.del c.net idx }
      if c.st = .ended ∧ c.status = St.dipRetry ∧ c.index ≤ idx then s
      else
        let s := s.modBasin b fun x => { x with current := if x.current = some cid then none else x.current }
        (chainEnd cid St.dipRetry idx s).modChain cid fun c => { c with failed := none }

/-- WINDOW_REPLAY: every saved tile is restored and the tagged operations are executed again in order; from the first that
cannot be, all end DIP_RETRY and the tiles left with their data are tainted. -/
def windowReplay (b : Nat) (s : State) : State :=
  let x := s.basin b
  if s.pwr.window || !x.replaying then s
  else
    let good := if 3 ≤ x.restarts then [] else x.tagged.takeWhile fun t => !t.lost
    let rest := x.tagged.drop good.length
    let left := ((rest.flatMap (·.writes)).map fun w => w.1 / 4096).eraseDups.filter fun t => (Tab.get? x.undo t).isNone
    let s := (restoreUndo b s).modBasin b fun y => { y with
      tagged := [], undo := [], inbound := [], holdBytes := 0, replaying := false, restarts := 0, idleSince := s.now,
      taint := y.taint ++ left.filter fun t => !y.taint.contains t }
    let s := good.foldl (fun s t => replayOp b t s) s
    let s := rest.foldl (fun s t => retryOp b t s) s
    let s := match (s.basin b).current with
      | some cid => queryDone cid s
      | none => s
    destroyProgress s

end Sys2Proof.Machine
end

