-- ==== Sys2Proof/Machine/Expert.lean ====
section
/-! DEFINITION. Expert routing, what takes a collective message in, and what completes, stalls or removes: DISPATCH and
COMBINE, contexts and the siphon path, RESEND, upstream messages (11 R362–R370, R379–R389). -/

namespace Sys2Proof.Machine

/-! ### EXPERT_MAP_SET (R379) -/

def bodyExpertMapSet (r : KReq) (s : State) : Ans :=
  let p := par r
  let g := be p 0 2
  let n := be p 2 2
  let cap := be p 4 4
  let owners := (List.range n).map fun e => be p (8 + 2 * e) 2
  let x := s.group g
  let own := (tenant r).elim true fun l => x.elim false fun y => y.levee == l
  checks s [(plen r != roundUp (8 + 2 * n) 8, St.badLength),
      (!own || n == 0 || decide (256 < n) || cap == 0 || decide (65536 < cap) ||
        x.elim true (fun y => y.destroying || !y.permits 5 || owners.any fun m => decide (y.mems.length ≤ m)), St.badParam)] fun _ =>
    done (s.modGroup g fun y => { y with map := owners, cap := cap })

def execExpertMapSet (t : Time) (r : KReq) (s : State) : Host.Outcome State Fault Refusal := command 0x0904 bodyExpertMapSet t r s

/-! ### Fields and sizes (Table COL-5, R383, R384) -/

def ColOp.fmtA (o : ColOp) : Nat := hf o.hdr 16 1
def ColOp.fmtD (o : ColOp) : Nat := hf o.hdr 17 1
def ColOp.k (o : ColOp) : Nat := hf o.hdr 18 1
def ColOp.gate (o : ColOp) : Nat := hf o.hdr 19 1
def ColOp.npiece (o : ColOp) : Nat := hf o.hdr 22 2
/-- TOKMAX of a DISPATCH, DOPSEQ of a COMBINE. -/
def ColOp.tokmax (o : ColOp) : Nat := hf o.hdr 40 4
def ColOp.hdim (o : ColOp) : Nat := hf o.hdr 44 4

/-- A token's number: source member and index within it. -/
def tokenKey (m t : Nat) : Nat := m * 2 ^ 17 + t

/-- Bytes the logits take in a DISPATCH body. -/
def logitBytes (o : ColOp) : Nat := roundUp (o.map.length * fmtBytes o.fmtA) 16

/-- The DISPATCH a COMBINE serves. -/
def servedBy (x : Group) (o : ColOp) : Option ColOp := (x.op o.tokmax).bind fun d => if d.kind = 5 then some d else none

/-- Parameters of a DISPATCH or COMBINE outside Tables COL-5 and COL-6, or more than a context (R380, R383, R384). -/
def expertParamsBad (x : Group) (o : ColOp) : Bool :=
  let n := o.map.length
  if o.kind = 5 then
    decide (2 < o.fmtA) || o.k == 0 || decide (8 < o.k) || decide (n < o.k) || decide (1 < o.gate) || o.npiece == 0 ||
      decide (16 < o.npiece) || o.tokmax == 0 || decide (65536 < o.tokmax) ||
      decide (x.ctxBytes < roundUp (n * o.cap * o.npiece * 2048 + x.mems.length * o.tokmax * 64 + n * o.cap * 16) 65536)
  else
    decide (2 < o.fmtA) || decide (2 < o.fmtD) || o.hdim == 0 || decide (16384 < o.hdim) ||
      o.npiece != ceilDiv (o.hdim * fmtBytes o.fmtA) 2048 ||
      (servedBy x o).elim true fun d => d.named || decide (x.ctxBytes < x.mems.length * d.tokmax * o.hdim * 4)

/-- Bytes 16–47 of a RESULT of an expert operation. -/
def expertHdr (o : ColOp) (piece npiece expert peer position token : Nat) : Bytes :=
  splice (splice o.hdr 4 (toBe 2 piece ++ toBe 2 npiece ++ toBe 2 expert ++ toBe 2 peer ++ toBe 4 position ++ toBe 4 token)) 20 (zeros 4)

/-! ### DISPATCH (R380–R382) -/

/-- Where a piece lies in the experts' buffers. -/
def bufKey (expert pos piece : Nat) : Nat := (expert * 2 ^ 20 + pos) * 16 + piece

/-- Selections of a token's logits in rank order, with their weights (R380). -/
def gateOf (o : ColOp) (logits : Bytes) : List (Nat × BitVec 32) :=
  let v (e : Nat) : Num := scaledAt o.fmtA logits [] e
  let sel := topK false o.map.length o.k v
  let top := sel.map fun e => toF32 (v e)
  let all := (List.range o.map.length).map fun e => toF32 (v e)
  (List.range sel.length).map fun i =>
    let e := sel.getD i 0
    (e, if o.gate = 0 then softmax (top.getD 0 0) top i else softmax (top.getD 0 0) all e)

/-- Settle a token's record: each selection takes the expert's next free position, or is dropped (R381). -/
def settleToken (key : Nat) (sel : List (Nat × BitVec 32)) (o : ColOp) : ColOp :=
  (List.range sel.length).foldl (fun (o : ColOp) i =>
    let (e, w) := sel.getD i (0, 0)
    let ps := Tab.getD o.positions e []
    let drop := decide (o.cap ≤ ps.length) || o.removed.contains (o.map.getD e 0)
    let pick := (e, if drop then none else some ps.length, w)
    let tok := Tab.getD o.tokens key {}
    { o with
      tokens := Tab.set o.tokens key { tok with gated := true, picks := tok.picks ++ [pick] },
      positions := if drop then o.positions else Tab.set o.positions e (ps ++ [(key, i)]),
      dropped := o.dropped + ofBool drop }) o

/-- Send one piece of a position to the expert's owner. -/
def sendPiece (g : Nat) (o : ColOp) (e pos piece : Nat) (s : State) : State :=
  match Tab.get? o.buffers (bufKey e pos piece), (Tab.getD o.positions e [])[pos]? with
  | some b, some (key, _) =>
    colSend g (o.map.getD e 0) 1 5 o.opseq 0 (o.flags % 8) (expertHdr o piece o.npiece e (key / 2 ^ 17) pos (key % 2 ^ 17)) b s
  | _, _ => s

/-- One piece of a token: gated, buffered at its positions and sent. -/
def takePiece (g q m tok piece : Nat) (logits data : Bytes) (s : State) : State :=
  match s.colOp g q with
  | none => s
  | some o =>
    let key := tokenKey m tok
    let t := Tab.getD o.tokens key {}
    if t.pieces.contains piece then colCount 1 2 g 1 s
    else
      let first := !t.gated
      let o' := if first then settleToken key (gateOf o logits) o else o
      let picks := (Tab.getD o'.tokens key {}).picks
      let taken := picks.filterMap fun p => p.2.1.map fun pos => (p.1, pos)
      let o' := { o' with
        tokens := Tab.upd o'.tokens key fun y => { y with pieces := y.pieces ++ [piece] },
        buffers := taken.foldl (fun b p => Tab.set b (bufKey p.1 p.2 piece) data) o'.buffers,
        lastDone := if t.pieces.length + 1 = o.npiece then s.now else o'.lastDone }
      let s := s.modOp g q fun _ => o'
      let s := if first then colCount 3 2 g (o'.dropped - o.dropped) (colCount 3 1 g picks.length (colCount 3 0 g 1 s)) else s
      (taken.filter fun p => !o'.removed.contains (o'.map.getD p.1 0)).foldl (fun s p => sendPiece g o' p.1 p.2 piece s) s

/-- A tile of an operation's context is poisoned (R386). -/
def ctxPoisoned (s : State) (x : Group) (o : ColOp) : Bool := workPoisoned s x.work (x.ctxOff + o.ctx * x.ctxBytes) x.ctxBytes

/-- A CONTRIB of a DISPATCH. -/
def contribDispatch (g q : Nat) (m : ColMsg) (s : State) : State :=
  match s.colOp g q with
  | none => s
  | some o =>
    let total := hf m.hdr 36 4
    let tok := hf m.hdr 32 4
    let piece := hf m.hdr 20 2
    let lg := logitBytes o
    let n := m.body.length
    let known := (Tab.get? o.totals m.mem).elim true (· == total)
    let whole := piece + 1 ≠ o.npiece
    if o.tokmax < total ∨ !known ∨ hf m.hdr 17 1 ≠ 0 ∨ hf m.hdr 44 4 ≠ 0 ∨ (total = 0 ∧ n ≠ 0) ∨
        (total ≠ 0 ∧ (total ≤ tok ∨ o.npiece ≤ piece ∨ n ≤ lg ∨ lg + 2048 < n ∨ (whole ∧ n ≠ lg + 2048))) then mismatchOp g q s
    else if total = 0 ∧ (Tab.get? o.totals m.mem).isSome then colCount 1 2 g 1 s
    else
      let s := s.modOp g q fun o => { o with totals := Tab.set o.totals m.mem total }
      if total = 0 then s
      else if (s.group g).elim false fun x => ctxPoisoned s x o then failOp g q St.internal s
      else takePiece g q m.mem tok piece (m.body.take lg) (m.body.drop lg) s

/-- Every token of every live member has had every piece taken in. -/
def dispatchOver (x : Group) (o : ColOp) : Bool :=
  (liveMembers x o).all fun m => (Tab.get? o.totals m).elim false fun n =>
    (List.range n).all fun t => (Tab.getD o.tokens (tokenKey m t) {}).pieces.length == o.npiece

/-! ### COMBINE (R383, R385) -/

/-- Ranks of a token whose outputs the COMBINE waits for, with their experts. -/
def awaited (o d : ColOp) (t : Token) : List Nat :=
  (List.range t.picks.length).filter fun r =>
    let p := t.picks.getD r (0, none, 0)
    p.2.1.isSome && !o.removed.contains (d.map.getD p.1 0)

/-- A token has every piece of every accepted rank. -/
def tokenOver (o d : ColOp) (key : Nat) (t : Token) : Bool :=
  let y := Tab.getD o.tokens key {}
  t.gated && (awaited o d t).all fun r => (List.range o.npiece).all fun p => y.got.contains (r, p)

/-- Pieces of a token's result. -/
def resultPieces (o : ColOp) (acc : List (BitVec 32)) : List Bytes :=
  chunks 2048 (pack o.fmtD ((List.range o.hdim).map fun j => encElem o.fmtD (ofF32 (acc.getD j 0)) none))

/-- Send a finished token to its source. -/
def sendToken (g : Nat) (o : ColOp) (key : Nat) (s : State) : State :=
  let ps := resultPieces o (Tab.getD o.tokens key {}).acc
  if o.removed.contains (key / 2 ^ 17) then s
  else (List.range ps.length).foldl (fun s i =>
    colSend g (key / 2 ^ 17) 1 6 o.opseq 0 (o.flags % 8) (expertHdr o i ps.length 0 0 0 (key % 2 ^ 17)) (ps.getD i []) s) s

/-- Send every token that has become complete. -/
def combineSweep (g q : Nat) (s : State) : State :=
  match s.group g, s.colOp g q with
  | some x, some o =>
    match servedBy x o with
    | none => s
    | some d =>
      if !o.going || o.kind != 6 then s
      else (d.tokens.filter fun e => !(Tab.getD o.tokens e.1 {}).sent && tokenOver o d e.1 e.2).foldl (fun s e =>
        let s := sendToken g o e.1 s
        s.modOp g q fun o => { o with tokens := Tab.set o.tokens e.1 { Tab.getD o.tokens e.1 {} with sent := true }, lastDone := s.now }) s
  | _, _ => s

/-- Sweep every COMBINE of a group. -/
def sweepAll (g : Nat) (s : State) : State :=
  ((s.group g).elim [] (·.ops)).foldl (fun s o => if o.kind = 6 then combineSweep g o.opseq s else s) s

/-- A CONTRIB of a COMBINE: each element is multiplied by its rank's weight and added (R383). -/
def contribCombine (g q : Nat) (m : ColMsg) (s : State) : State :=
  match s.group g, s.colOp g q with
  | some x, some o =>
    match servedBy x o with
    | none => mismatchOp g q s
    | some d =>
      let e := hf m.hdr 24 2
      let pos := hf m.hdr 28 4
      let piece := hf m.hdr 20 2
      let bytes := o.hdim * fmtBytes o.fmtA
      let want := if piece + 1 = o.npiece then bytes - 2048 * piece else 2048
      match (Tab.getD d.positions e [])[pos]? with
      | none => mismatchOp g q s
      | some (key, rank) =>
        if d.map.getD e 0 ≠ m.mem ∨ d.map.length ≤ e ∨ o.npiece ≤ piece ∨ m.body.length ≠ want ∨ hf m.hdr 18 2 ≠ 0 ∨
            hf m.hdr 26 2 ≠ 0 ∨ hf m.hdr 36 4 ≠ 0 then mismatchOp g q s
        else
          let y := Tab.getD o.tokens key {}
          if y.got.contains (rank, piece) || y.sent then colCount 1 2 g 1 s
          else if ctxPoisoned s x o || ctxPoisoned s x d then failOp g q St.internal s
          else
            let w := (((Tab.getD d.tokens key {}).picks.getD rank (0, none, 0))).2.2
            let base := piece * (2048 / fmtBytes o.fmtA)
            let n := m.body.length / fmtBytes o.fmtA
            let acc := (List.range o.hdim).map fun j =>
              let a := y.acc.getD j 0
              if base ≤ j ∧ j < base + n then toF32 (fma32 (ofF32 w) (scaledAt o.fmtA m.body [] (j - base)) (ofF32 a)) else a
            combineSweep g q (s.modOp g q fun o => { o with tokens := Tab.set o.tokens key { y with acc := acc, got := y.got ++ [(rank, piece)] } })
  | _, _ => s

/-- Every token of the DISPATCH has been sent. -/
def combineOver (x : Group) (o : ColOp) : Bool :=
  match servedBy x o with
  | none => false
  | some d => d.complete && d.tokens.all fun e => !e.2.gated || (Tab.getD o.tokens e.1 {}).sent

/-! ### Starting an operation (R363, R364, R387) -/

/-- How far an OPSEQ lies behind the newest. -/
def opAge (highest q : Nat) : Nat := (highest + 2 ^ 32 - q % 2 ^ 32) % 2 ^ 32

/-- An OPSEQ is newer than every one the group has seen. -/
def opNewer (x : Group) (q : Nat) : Bool :=
  x.highest.elim true fun h => let d := (q + 2 ^ 32 - h) % 2 ^ 32; decide (1 ≤ d) && decide (d < 2 ^ 31)

/-- A context may be taken from its operation. -/
def retirable (x : Group) (o : ColOp) : Bool :=
  o.complete && (o.kind != 5 || o.consumed || x.ops.any fun y =>
    y.kind == 5 && y.complete && decide (opAge (x.highest.getD 0) y.opseq < opAge (x.highest.getD 0) o.opseq))

/-- A free context, or the retirable one with the lowest OPSEQ: its number, and the operation that gives it up. -/
def freeCtx (x : Group) : Option (Nat × Option Nat) :=
  match (List.range 4).find? fun k => !x.ops.any fun o => o.ctx == k with
  | some k => some (k, none)
  | none => ((x.ops.filter (retirable x)).foldl (fun (b : Option ColOp) o => match b with
      | none => some o
      | some y => if opAge (x.highest.getD 0) y.opseq < opAge (x.highest.getD 0) o.opseq then some o else some y) none).map
        fun o => (o.ctx, some o.opseq)

/-- R387: an operation is siphoned at its first contribution. -/
def siphonDue (s : State) (x : Group) : Bool :=
  (freeCtx x).isNone || decide (s.rsvFree (groupDie s x) < s.col.cells.toNat) || s.col.force ||
    (s.queue x.queue).elim false fun q => q.slots.any fun y => y.moving.isSome

/-- DONE of a siphoned operation. -/
def siphonDone (g m q kind : Nat) (s : State) : State := colSend g m 2 kind q St.exhausted 8 (zeros 32) [] s

def siphonOp (g : Nat) (x : Group) (m : ColMsg) (s : State) : State :=
  let ms := List.range x.mems.length
  let entry : Nat × Nat × Tab Time := (m.opseq, m.kind, ms.map fun i => (i, s.now))
  let keep (l : List (Nat × Nat × Tab Time)) : List (Nat × Nat × Tab Time) := (l ++ [entry]).drop ((l.length + 1) - 16)
  let s := s.modGroup g fun y => { y with highest := some m.opseq, siphoned := keep y.siphoned }
  ms.foldl (fun s i => siphonDone g i m.opseq m.kind s) (colCount 0 3 g 1 (colStatus 2 s))

/-- A later message of a siphoned operation: DONE again, at most once per member per RETX_US. -/
def siphonAgain (g : Nat) (x : Group) (m : ColMsg) (e : Nat × Nat × Tab Time) (s : State) : State :=
  if s.now < Tab.getD e.2.2 m.mem 0 + us x.retxUs then s
  else
    let upd (y : Nat × Nat × Tab Time) : Nat × Nat × Tab Time := if y.1 = m.opseq then (y.1, y.2.1, Tab.set y.2.2 m.mem s.now) else y
    siphonDone g m.mem m.opseq e.2.1 (s.modGroup g fun y => { y with siphoned := y.siphoned.map upd })

/-- Members fenced now. -/
def fencedMembers (s : State) (x : Group) : List Nat :=
  (List.range x.mems.length).filter fun i => (x.mems[i]?).elim false fun m => ipFenced s m.addr

/-- The operation that a first contribution starts. -/
def newOp (s : State) (x : Group) (m : ColMsg) (ctx : Nat) : ColOp :=
  { opseq := m.opseq, kind := m.kind, hdr := colParams m.kind m.hdr, flags := m.flags % 8, ctx := ctx,
    total := if isExpert m.kind then 0 else hf m.hdr 24 4, lastDone := s.now, removed := fencedMembers s x,
    map := if m.kind = 5 then x.map else [], cap := if m.kind = 5 then x.cap else 0 }

/-- Start an operation: a context, its parameters, and what ends it at once. -/
def startOp (g : Nat) (x : Group) (m : ColMsg) (s : State) : State :=
  match freeCtx x with
  | none => s
  | some (k, old) =>
    let o := newOp s x m k
    let o := if !isExpert o.kind && o.fmtOut == 0x0E && (decImage s x.levee o.outSlot o.outGen).isSome then
        { o with gens := [(o.outSlot, o.outGen)] } else o
    let s := s.modGroup g fun y => { y with
      highest := some m.opseq, ops := (y.ops.filter fun z => some z.opseq != old) ++ [o], scratch := (y.scratch ++ [k]).eraseDups }
    -- a COMBINE in progress whose DISPATCH gives its context up names none any more (R383)
    let s := (x.ops.filter fun z => z.kind == 6 && z.going && old == some z.tokmax).foldl (fun s z => mismatchOp g z.opseq s) s
    let bad := !x.permits m.kind || (if isExpert m.kind then expertParamsBad x o || (o.step && !x.turnValid) else blockParamsBad s x o)
    let lost := (s.queue x.queue).elim true fun q => q.slots.any (·.lost)
    if bad then mismatchOp g m.opseq s
    else if lost then failOp g m.opseq St.stateLost s
    else if x.upstream && upFenced s x then failOp g m.opseq St.fenced s
    else if m.kind = 6 then combineSweep g m.opseq (s.modOp g o.tokmax fun d => { d with named := true })
    else s

/-! ### Taking a message in (R362) -/

/-- The home die of a message's group or queue. -/
def msgDie (s : State) (m : ColMsg) : Nat :=
  match s.group m.group with
  | some x => groupDie s x
  | none => ((s.queue m.queue).bind (·.slots.head?)).elim 0 fun y => basinDie y.basin

/-- A message that R362 discards: whether it is, and whether as a SPOOF. -/
def msgBad (s : State) (m : ColMsg) : Option Bool :=
  match s.group m.group with
  | none => some false
  | some x =>
    if x.levee ≠ m.levee ∨ (m.mtype ≠ 0 ∧ m.mtype ≠ 4) then some false
    else if (x.mems[m.mem]?).elim true fun y => y.addr != m.srcIp || y.qpn != m.srcQp then some true
    else if 48 + m.bodyLen ≠ m.len ∨ 4048 < m.bodyLen then some false else none

/-- What a message repeats of what an operation has taken in (R368). -/
def repeats (x : Group) (o : ColOp) (m : ColMsg) : Nat :=
  if m.kind ≠ o.kind then 0
  else if o.kind = 5 then
    ofBool (if hf m.hdr 36 4 = 0 then (Tab.get? o.totals m.mem).isSome
      else (Tab.getD o.tokens (tokenKey m.mem (hf m.hdr 32 4)) {}).pieces.contains (hf m.hdr 20 2))
  else if o.kind = 6 then
    ofBool ((servedBy x o).elim false fun d => ((Tab.getD d.positions (hf m.hdr 24 2) [])[hf m.hdr 28 4]?).elim false fun e =>
      (Tab.getD o.tokens e.1 {}).got.contains (e.2, hf m.hdr 20 2))
  else if o.kind = 7 then ofBool (o.barrier.contains m.mem)
  else ((List.range (hf m.hdr 32 2)).filter fun j => (Tab.getD o.blocks (hf m.hdr 28 4 + j) {}).taken.contains m.mem).length

/-- A member is out of an operation; what it contributes in the cycle of its removal still counts (Table COL-8). -/
def ColOp.out (o : ColOp) (now : Time) (m : Nat) : Bool := o.removed.contains m && Tab.get? o.outAt m != some now

/-- The contribution goes to its operation; one that has ended, or that the member is out of, only counts repeats. -/
def contributeTo (g : Nat) (m : ColMsg) (s : State) : State :=
  match s.group g, s.colOp g m.opseq with
  | some x, some o =>
    if !o.going || o.out s.now m.mem then colCount 1 2 g (repeats x o m) s
    else if m.kind ≠ o.kind ∨ colParams m.kind m.hdr ≠ o.hdr ∨ colFlags m.kind m.flags ≠ colFlags o.kind o.flags then mismatchOp g m.opseq s
    else if o.kind = 5 then sweepAll g (contribDispatch g m.opseq m s)
    else if o.kind = 6 then contribCombine g m.opseq m s
    else if o.kind = 7 then contribBarrier g m.opseq m s
    else contribBlocks g m.opseq m s
  | _, _ => s

/-- A message of a member breaks its silence (14 R451). -/
def heard (g m : Nat) (s : State) : State :=
  s.modGroup g fun x => { x with ops := x.ops.map fun o => { o with silent := Tab.del o.silent m } }

/-- RESEND (R368). -/
def resendTo (g : Nat) (m : ColMsg) (o : ColOp) (s : State) : State :=
  match s.group g with
  | none => s
  | some x =>
    let count := if isExpert o.kind then hf m.hdr 32 4 else hf m.hdr 32 2
    let first := hf m.hdr 28 4
    let s := colCount 2 2 g 1 s
    if count = 0 then (if o.complete then repeatDone g m.mem o s else s)
    else if o.kind = 5 then
      let e := hf m.hdr 24 2
      if o.map.length ≤ e ∨ o.map.getD e 0 ≠ m.mem then s
      else (List.range count).foldl (fun s i => (List.range o.npiece).foldl (fun s p => sendPiece g o e (first + i) p s) s) s
    else if o.kind = 6 then
      (List.range count).foldl (fun s i =>
        let key := tokenKey m.mem (first + i)
        if (Tab.getD o.tokens key {}).sent then sendToken g o key s else s) s
    else
      let mine (i : Nat) : Bool :=
        (Tab.getD o.blocks i {}).done && !(Tab.getD o.blocks i {}).res.isEmpty && decide (i < o.total) &&
          !blockTagged s x g o.opseq i && (if o.kind = 2 then shardOwner x.mems.length o.total i == m.mem
           else if o.kind = 3 then shardOwner x.mems.length o.total i != m.mem
           else if o.kind = 4 then o.root != m.mem else true)
      let is := ((List.range count).map (first + ·)).filter mine
      (blockRuns is).foldl (fun s r =>
        let bs := (List.range r.2).map fun j => (Tab.getD o.blocks (r.1 + j) {}).res
        let cut (l : List (Nat × List Bytes)) (e : Nat × Bytes) : List (Nat × List Bytes) :=
          match l.getLast? with
          | some (f, b) => if (b.map (·.length)).foldl (· + ·) 0 + e.2.length ≤ 4048 then l.dropLast ++ [(f, b ++ [e.2])] else l ++ [(e.1, [e.2])]
          | none => [(e.1, [e.2])]
        (((List.range r.2).map fun j => (r.1 + j, bs.getD j [])).foldl cut []).foldl (fun s b => sendBlocks g o m.mem b.1 b.2 s) s) s

/-- A message of a member reaches its group. -/
def colMessage (m : ColMsg) (s : State) : State :=
  match msgBad s m, s.group m.group with
  | some spoof, _ => s.count (gk 8 4 (if spoof then 0 else 1) (msgDie s m)) 1
  | none, none => s
  | none, some x =>
    if x.destroying then s
    else
      let g := m.group
      let s := heard g m.mem s
      match x.op m.opseq with
      | some o => if m.mtype = 4 then resendTo g m o s else contributeTo g m s
      | none =>
        match x.siphoned.find? fun e => e.1 == m.opseq with
        | some e => siphonAgain g x m e s
        | none =>
          if opNewer x m.opseq then
            if m.mtype = 4 then s
            else if siphonDue s x then siphonOp g x m s
            else contributeTo g m (startOp g x m s)
          else if m.mtype = 4 then colSend g m.mem 2 m.kind m.opseq St.badParam 0 (zeros 32) [] (colCount 2 2 g 1 s)
          else colCount 2 3 g 1 s

/-- A CONTRIB of a kind; one whose KIND is none of the seven may come under any of their rows. -/
def contrib (kind : Nat) (p : Post) (s : State) : State :=
  let m := p.colMsg
  if m.kind = kind ∨ m.kind = 0 ∨ 7 < m.kind then colMessage m s else s

def execAllReduce (t : Time) (p : Post) (s : State) : Host.Outcome State Fault Refusal := .next (contrib 1 p (s.tick t))
def execReduceScatter (t : Time) (p : Post) (s : State) : Host.Outcome State Fault Refusal := .next (contrib 2 p (s.tick t))
def execAllGather (t : Time) (p : Post) (s : State) : Host.Outcome State Fault Refusal := .next (contrib 3 p (s.tick t))
def execBroadcast (t : Time) (p : Post) (s : State) : Host.Outcome State Fault Refusal := .next (contrib 4 p (s.tick t))
def execDispatch (t : Time) (p : Post) (s : State) : Host.Outcome State Fault Refusal := .next (contrib 5 p (s.tick t))
def execCombine (t : Time) (p : Post) (s : State) : Host.Outcome State Fault Refusal := .next (contrib 6 p (s.tick t))
def execBarrier (t : Time) (p : Post) (s : State) : Host.Outcome State Fault Refusal := .next (contrib 7 p (s.tick t))
def execResend (t : Time) (p : Post) (s : State) : Host.Outcome State Fault Refusal :=
  .next (if p.colMsg.mtype = 4 then colMessage p.colMsg (s.tick t) else s.tick t)

/-! ### STALL_CREDIT (R367, R368) -/

/-- Entries of a DISPATCH or COMBINE CREDIT for a member, lowest first. -/
def dueEntries (x : Group) (o : ColOp) (m : Nat) : List Nat :=
  if o.kind = 5 then
    ((List.range (Tab.getD o.totals m 0)).filter fun t => (Tab.getD o.tokens (tokenKey m t) {}).pieces.length != o.npiece).map (m * 2 ^ 23 + ·)
  else match servedBy x o with
    | none => []
    | some d => ((List.range d.map.length).filter fun e => d.map.getD e 0 == m).flatMap fun e =>
        let ps := Tab.getD d.positions e []
        ((List.range ps.length).filter fun p =>
          let (key, rank) := ps.getD p (0, 0)
          (List.range o.npiece).any fun i => !(Tab.getD o.tokens key {}).got.contains (rank, i)).map (e * 2 ^ 24 + ·)

/-- CREDITs of an expert operation list what each member must send again. -/
def expertCredits (g : Nat) (x : Group) (o : ColOp) (s : State) : State :=
  (liveMembers x o).foldl (fun s m =>
    colSend g m 3 o.kind o.opseq 0 (o.flags % 8) o.hdr (((dueEntries x o m).take 1000).flatMap (toBe 4)) s) s

def stallCredit (g q : Nat) (s : State) : State :=
  match s.group g, s.colOp g q with
  | some x, some o =>
    if !o.going || decide (s.now < o.lastDone + us x.retxUs) then s
    else
      let s := s.modOp g q fun o => { o with
        lastDone := s.now, credited := frontierOf x o,
        silent := (liveMembers x o).foldl (fun t m => Tab.set t m (Tab.getD t m 0 + 1)) o.silent }
      let s := colCount 2 1 g 1 s
      if isExpert o.kind then expertCredits g x o s else sendCredits g x o s
  | _, _ => s

def execStallCredit (t : Time) (group opseq : Nat) (s : State) : Host.Outcome State Fault Refusal :=
  .next (stallCredit group opseq (s.tick t))

/-! ### OPERATION_COMPLETE (R369, R388) -/

/-- Everything the operation expects is in and every result has left. -/
def opOver (x : Group) (o : ColOp) : Bool :=
  (!x.upstream || o.upDone.isSome) &&
    (if o.kind ≤ 2 then decide (o.total ≤ o.frontier) && ((x.upstream && o.kind == 1) || decide (o.total ≤ o.sent))
     else if o.kind ≤ 4 then decide (o.total ≤ o.frontier)
     else if o.kind = 5 then dispatchOver x o
     else if o.kind = 6 then combineOver x o
     else (liveMembers x o).all o.barrier.contains)

/-- OPERATION_COMPLETE: not while results of it are held for a replay. -/
def operationComplete (g q : Nat) (s : State) : State :=
  match s.group g, s.colOp g q with
  | some x, some o => if !o.complete && (o.fail != 0 || (opOver x o && !opHeld s g q)) then endOp g q s else s
  | _, _ => s

def execOperationComplete (t : Time) (group opseq : Nat) (s : State) : Host.Outcome State Fault Refusal :=
  .next (operationComplete group opseq (s.tick t))

/-! ### Upstream (R388) -/

/-- The group that a message from upstream belongs to: that of its queue. -/
def upGroupOf (s : State) (m : ColMsg) : Option (Nat × Group) :=
  ((s.queue m.queue).bind (·.group)).bind fun g => (s.group g).bind fun x =>
    if x.upstream && !x.destroying && x.upAddr == m.srcIp && x.upQpn == m.srcQp && x.upGroup == m.group && x.upMember == m.mem &&
      48 + m.bodyLen == m.len then some (g, x) else none

/-- A message that no group of the queue takes as upstream is a member's of a type no member may send, or a spoof (R362). -/
def upDiscard (m : ColMsg) (s : State) : State := s.count (gk 8 4 1 (msgDie s m)) 1

/-- A message of one MTYPE from upstream. -/
def upstream (mtype : Nat) (f : ColMsg → State → State) (p : Post) (s : State) : State :=
  if p.colMsg.mtype = mtype then f p.colMsg s else s

/-- UPSTREAM_RESULT: blocks of the operation are kept in the context and relayed unchanged. -/
def upstreamResult (m : ColMsg) (s : State) : State :=
  match upGroupOf s m with
  | none => upDiscard m s
  | some (g, x) =>
    match x.op m.opseq with
    | none => s
    | some o =>
      let first := hf m.hdr 28 4
      if !o.going || o.kind != 1 || decide (o.total < first + hf m.hdr 32 2) then s
      else match splitBlocks o.fmtOut (hf m.hdr 32 2) m.body with
        | none => s
        | some bs =>
          let keep (t : Tab ColBlock) : Tab ColBlock :=
            (List.range bs.length).foldl (fun t j => Tab.set t (first + j) { Tab.getD t (first + j) {} with res := bs.getD j [] }) t
          let s := s.modOp g m.opseq fun o => { o with blocks := keep o.blocks }
          (liveMembers x o).foldl (fun s d => sendBlocks g o d first bs s) s

def execUpstreamResult (t : Time) (p : Post) (s : State) : Host.Outcome State Fault Refusal := .next (upstream 1 upstreamResult p (s.tick t))

/-- UPSTREAM_CREDIT: a FRONTIER that does not rise has every block sent from it on sent again; one that rises moves the local
window. -/
def upstreamCredit (m : ColMsg) (s : State) : State :=
  match upGroupOf s m with
  | none => upDiscard m s
  | some (g, x) =>
    match x.op m.opseq with
    | none => s
    | some o =>
      let f := hf m.hdr 28 4
      if !o.going then s
      else if o.kind = 7 then (if (liveMembers x o).all o.barrier.contains then upSend x o 0 o.hdr [] s else s)
      else if f ≤ o.upFrontier then
        ((List.range (wblk s x)).filter fun i => (Tab.getD o.blocks (f + i) {}).up).foldl (fun s i => upBlock x o (f + i) s) s
      else advanceFrontier g m.opseq (s.modOp g m.opseq fun o => { o with upFrontier := f })

def execUpstreamCredit (t : Time) (p : Post) (s : State) : Host.Outcome State Fault Refusal := .next (upstream 3 upstreamCredit p (s.tick t))

/-- UPSTREAM_DONE: a failure is taken over, PARTIAL is noted, and the local DONE follows. -/
def upstreamDone (m : ColMsg) (s : State) : State :=
  match upGroupOf s m with
  | none => upDiscard m s
  | some (g, x) =>
    match x.op m.opseq with
    | none => s
    | some o =>
      if !o.going then s
      else
        let bad := m.status != St.ok && m.status != St.part
        let s := s.modOp g m.opseq fun o => { o with upDone := some (m.status, m.status == St.part) }
        let s := if bad then failOp g m.opseq m.status s else s
        endOp g m.opseq s

def execUpstreamDone (t : Time) (p : Post) (s : State) : Host.Outcome State Fault Refusal := .next (upstream 2 upstreamDone p (s.tick t))

/-! ### MEMBER_REMOVAL (R385, R388) -/

/-- Remove a fenced member from every operation of its group; index NMEM stands for the upstream switch. -/
def memberRemoval (g i : Nat) (s : State) : State :=
  match s.group g with
  | none => s
  | some x =>
    match x.mems[i]? with
    | none => if x.upstream && i == x.mems.length && upFenced s x then failAll g St.fenced s else s
    | some m =>
      if !ipFenced s m.addr then s
      else
        let drop (o : ColOp) : ColOp := if o.complete || o.removed.contains i then o else { o with removed := o.removed ++ [i], outAt := Tab.set o.outAt i s.now }
        let s := s.modGroup g fun x => { x with ops := x.ops.map drop }
        let s := x.ops.foldl (fun s o => if (s.colOp g o.opseq).elim false (·.going) && (o.kind == 3 || o.kind == 4) then advanceFrontier g o.opseq s else s) s
        let up := x.ops.filter fun o => o.kind == 7 && x.upstream && o.going && !(liveMembers x o).all o.barrier.contains
        let s := up.foldl (fun s o => match s.colOp g o.opseq with
          | some p => if (liveMembers x p).all p.barrier.contains then upSend x p 0 p.hdr [] s else s
          | none => s) s
        sweepAll g s

def execMemberRemoval (t : Time) (group mem : Nat) (s : State) : Host.Outcome State Fault Refusal :=
  .next (memberRemoval group mem (s.tick t))

end Sys2Proof.Machine
end

