-- ==== Sys2Proof/Machine/Fault.lean ====
section
/-! DEFINITION. Faults and fencing (14): the fence table and its commands, automatic fences and what a fence does, requests in
flight to a fenced target, fence notices, halt, and the culvert (01 R17–R22). -/

namespace Sys2Proof.Machine

/-! ### Descriptors (R453) and the fence table (R454, R455) -/

/-- A descriptor with its reserved bits cleared (00 R7). -/
def normDesc (d : Bytes) : Bytes :=
  fenceDesc (byteAt d 0) (byteAt d 1) (be d 2 2 % 1024) (byteAt d 4) (byteAt d 5) (be d 8 4) (be d 16 16)

/-- The fields of a descriptor are those its kind allows; unused ones are zero (R453). -/
def descOk (d : Bytes) : Bool :=
  let kind := byteAt d 0
  let levee := be d 2 2
  let af := byteAt d 4
  let mkind := byteAt d 5
  let id := be d 8 4
  let addr := be d 16 16
  if kind = 2 then
    levee == 0 && mkind == 0 && (af == 0 || af == 4 || af == 6) && (af != 0 || (addr == 0 && id != 0xFFFFFFFF)) &&
      (af != 4 || be d 16 12 == 0)
  else
    af == 0 && addr == 0 &&
      (if kind = 5 then levee != 0 && ((mkind == 3 && decide (id ≤ 255)) || (mkind == 4 && decide (id ≤ 127)))
       else levee == 0 && mkind == 0 &&
         ((kind == 1 && decide (id ≤ 511)) || (kind == 3 && decide (id ≤ 255)) || (kind == 4 && decide (id ≤ 127))))

/-- Two descriptors name one target: every field but REASON agrees (R455). -/
def sameTarget (a b : Bytes) : Bool := byteAt a 0 == byteAt b 0 && slice a 2 30 == slice b 2 30

/-- The entry that fences a target. -/
def findFence (s : State) (d : Bytes) : Option (Nat × Fence) := s.flt.fences.find? fun e => sameTarget e.2.desc d

/-- The entry a manager's fence takes: the lowest free one outside the reserve, the top 512 (R454). -/
def freeEntry (s : State) : Option Nat := Tab.lowestFree s.flt.fences 7680

/-- The entry an automatic fence takes: of the reserve first, then any. -/
def freeReserve (s : State) : Option Nat := (Tab.lowestFreeFrom s.flt.fences 7680 512).orElse fun _ => freeEntry s

/-- The ledger's FENCE record: event, entry, descriptor (17 Table HLT-2). -/
def fenceRecord (event i : Nat) (d : Bytes) (s : State) : State :=
  s.ledger 0x0040 (srcOf 0 0) (splice (recBody [(32, 1, event), (36, 4, i)]) 8 d)

/-- A fence commits: entry, gauge, event, record and notice. An automatic fence that waited for its target is settled. -/
def addFence (d : Bytes) (auto : Bool) (i : Nat) (s : State) : State :=
  let e : Fence := { desc := d, auto := auto, time := s.usec, serial := s.flt.serial }
  let s := { s with flt := { s.flt with
    fences := Tab.set s.flt.fences i e, serial := s.flt.serial + 1, wanted := s.flt.wanted.filter fun w => !sameTarget w.1 d } }
  let s := s.count (gk 0x0B 1 (if auto then 0 else 1)) 1
  let s := if auto then s.faultEvent 0 else s
  (fenceRecord 0 i d s).notify 0 i d

/-- Remove an entry. Clearing a tray's fence ends its failure (07 R231). -/
def dropFence (i : Nat) (d : Bytes) (s : State) : State :=
  let s := { s with flt := { s.flt with fences := Tab.del s.flt.fences i } }
  let s := if byteAt d 0 = 3 then
      { s with mem := { s.mem with trays := Tab.upd s.mem.trays (be d 8 4) fun t => { t with failed := false } } } else s
  ((fenceRecord 1 i d (s.count (gk 0x0B 1 2) 1))).notify 1 i d

/-- Commit an automatic fence, or note that it waits for a free entry (R452); without the effects of its kind. Answers
whether it committed now. -/
def tryFence (d : Bytes) (s : State) : State × Bool :=
  if (findFence s d).isSome then (s, false)
  else match freeReserve s with
  | some i => (addFence d true i s, true)
  | none =>
    let again := s.flt.wanted.any fun w => sameTarget w.1 d
    let s' := { s with flt := { s.flt with wanted := s.flt.wanted.filter (fun w => !sameTarget w.1 d) ++ [(d, s.now)] } }
    (if again then s' else fenceRecord 2 0 d (s'.faultEvent 4), false)

/-! ### What a fence does at its commit (Table FLT-4) -/

/-- The member of a composition: trays by ID, switches from 256 on (06 R211). -/
def compDesc (levee member : Nat) : Bytes :=
  if member < 256 then fenceDesc 5 6 levee 0 3 member 0 else fenceDesc 5 6 levee 0 4 (member - 256) 0

/-- A multi-phase request whose holder failed, with no replica to turn to: POOL_LOST, and its composition is fenced
(06 R213, R460). -/
def poolLost (member id : Nat) (s : State) : State :=
  match s.liveReq id with
  | none => s
  | some l => (tryFence (compDesc l.req.levee member) ((killLive id St.poolLost s).count (gk 3 3 1 l.home) 1)).1

/-- Requests whose current phase a switch owns. -/
def ownedBy (s : State) (member : Nat) : List Nat :=
  (s.mem.journal.filter fun e => e.2.owner == member).filterMap fun e => e.2.live

/-- Agents registered at a fenced address are dead and handles opened from it closed (08 R268, 07 R240). -/
def endpointDead (a : Ip) (s : State) : State :=
  let ags := s.coh.domains.flatMap fun d => (d.2.agents.filter fun g => g.2.live && g.2.addr == a).map fun g => (d.1, g.1)
  closeHandles (fun h => h.opener == a) (ags.foldl (fun s p => (agentDead p.1 p.2 s).1) s)

/-- The effects of a fence that fall at its commit; the rest follow from the table being consulted. -/
def fenceEffects (d : Bytes) (s : State) : State :=
  let id := be d 8 4
  match byteAt d 0 with
  | 1 => portDownDiscard id s
  | 2 => if byteAt d 4 = 0 then s else settle (endpointDead ⟨byteAt d 4, be d 16 16⟩ s)
  | 4 => settle ((ownedBy s (256 + id)).foldl (fun s l => poolLost (256 + id) l s) s)
  | _ => s

/-- A fence the device sets on its own authority (R451, R452). -/
def autoFence (d : Bytes) (s : State) : State :=
  match tryFence d s with
  | (s, true) => fenceEffects d s
  | (s, false) => s

/-- FENCE_RETRY: fences that found the table full try again 1 ms later (R452). -/
def fenceRetry (s : State) : State :=
  (s.flt.wanted.filter fun w => decide (w.2 + ms 1 ≤ s.now)).foldl (fun s w => autoFence w.1 s) s

def execFenceRetry (t : Time) (s : State) : Host.Outcome State Fault Refusal := .next (fenceRetry (s.tick t))

/-! ### FENCE_SET and FENCE_CLEAR -/

def bodyFenceSet (r : KReq) (s : State) : Ans :=
  let d := normDesc (par r)
  checks s [(plen r != 32, St.badLength),
      (byteAt d 1 != 0 || !descOk d || (byteAt d 0 == 1 && !s.portExists (be d 8 4)), St.badParam)] fun _ =>
    match findFence s d with
    | some (i, _) => done s [toBe 4 i ++ zeros 4]
    | none =>
      match freeEntry s with
      | none => refuse s St.exhausted
      | some i => done (fenceEffects d (addFence d false i s)) [toBe 4 i ++ zeros 4]

def execFenceSet (t : Time) (r : KReq) (s : State) : Host.Outcome State Fault Refusal := command 0x0130 bodyFenceSet t r s

/-- The target is still a member of a tree, a coherence domain or a group (R455). -/
def stillMember (s : State) (d : Bytes) : Bool :=
  let id := be d 8 4
  let a : Ip := ⟨byteAt d 4, be d 16 16⟩
  let inTree (p : TreeMember → Bool) : Bool := s.sw.trees.any fun e => e.2.any p
  match byteAt d 0 with
  | 1 => inTree (fun m => m.port == id) || s.col.groups.any (fun g => g.2.mems.any fun m => portOfIp s m.addr == some id)
  | 2 =>
    (id != 0xFFFFFFFF && inTree (fun m => m.endpoint == id)) ||
    (a.af != 0 && (s.coh.domains.any (fun e => e.2.agents.any fun g => g.2.live && g.2.addr == a) ||
      s.col.groups.any (fun g => g.2.mems.any fun m => m.addr == a)))
  | _ => false

def bodyFenceClear (r : KReq) (s : State) : Ans :=
  let d := normDesc (par r)
  checks s [(plen r != 32, St.badLength), ((findFence s d).isNone, St.badParam)] fun _ =>
    match findFence s d with
    | none => refuse s St.badParam
    | some (i, e) => if stillMember s e.desc then guardReject s r 0 11 else done (dropFence i e.desc s)

def execFenceClear (t : Time) (r : KReq) (s : State) : Host.Outcome State Fault Refusal := command 0x0131 bodyFenceClear t r s

/-! ### Automatic fences (Table FLT-2) -/

/-- PORT_FENCE_DELAY, by the delay as HDW_FAULT has it now. -/
def portFenceDelay (p : Nat) (s : State) : State :=
  match Tab.get? s.flt.downSince p with
  | some t =>
    if t + us s.flt.portFenceUs.toNat ≤ s.now ∧ s.flt.portFenceUs ≠ 0xFFFF ∧ !s.portUp p ∧ !(s.port p).testDown then
      autoFence (fenceDesc 1 1 0 0 0 p 0) { s with flt := { s.flt with downSince := Tab.del s.flt.downSince p } }
    else s
  | none => s

def execPortFenceDelay (t : Time) (port : Nat) (s : State) : Host.Outcome State Fault Refusal :=
  .next (portFenceDelay port (s.tick t))

/-- TRAY_OPERATION_TIMEOUT (06 R210). -/
def trayTimeout (tray id : Nat) (s : State) : State :=
  match Tab.get? s.mem.ops id with
  | some o => if o.tray = tray ∧ o.at_ + ms 1 ≤ s.now then autoFence (fenceDesc 3 2 0 0 0 tray 0) s else s
  | none => s

def execTrayOperationTimeout (t : Time) (tray op : Nat) (s : State) : Host.Outcome State Fault Refusal :=
  .next (trayTimeout tray op (s.tick t))

/-- COH_CTL.SNOOP_RETX_US and SNOOP_LIMIT of a die; zero acts as 1 (08 Table COH-10). -/
def snoopRetx (s : State) (die : Nat) : Time := us (max 1 (Tab.getD s.coh.retxUs die 0x14))
def snoopLimit (s : State) (die : Nat) : Nat := max 1 (Tab.getD s.coh.limit die 0x32)

/-- SNOOP_RETRANSMIT: `k` is tracker × 4,096 + agent (08 R262). -/
def snoopRetransmit (die k : Nat) (s : State) : State :=
  let sk := die * 16384 * 4096 + k
  match Tab.get? s.coh.snoops sk with
  | none => s
  | some n =>
    if (n.sent.elim true fun t => decide (s.now < t + snoopRetx s die)) then s
    else if n.resent < snoopLimit s die then
      let s := { s with coh := { s.coh with snoops := Tab.set s.coh.snoops sk { n with resent := n.resent + 1 } } }
      cohCount 0 3 n.domain die (emitSnoop sk s)
    else
      let s := cohStatus die 1 s
      match s.agent n.domain n.agent with
      | some a => autoFence (fenceDesc 2 3 0 a.addr.af 0 0xFFFFFFFF a.addr.val) s
      | none => s

def execSnoopRetransmit (t : Time) (die snoop : Nat) (s : State) : Host.Outcome State Fault Refusal :=
  .next (snoopRetransmit die snoop (s.tick t))

/-- PEER_SILENT: a member left PEER_QUERIES owner queries in succession unanswered, the last for one phase deadline; 0 acts
as 1. -/
def peerSilent (die entry : Nat) (s : State) : State :=
  match Tab.get? s.mem.journal (die * 8192 + entry) with
  | none => s
  | some j =>
    let n := max 1 s.flt.peerQueries.toNat
    let silent (m : Nat) : Bool :=
      let k := Tab.getD j.queries m 0
      decide (n < k) || (k == n && decide (j.deadline ≤ s.now))
    (j.members.filter fun m => decide (256 ≤ m) && m != 256 + s.sw.switchId.toNat && silent m).foldl
      (fun s m => autoFence (fenceDesc 4 4 0 0 0 (m - 256) 0) s) s

def execPeerSilent (t : Time) (die entry : Nat) (s : State) : Host.Outcome State Fault Refusal := .next (peerSilent die entry (s.tick t))

/-- MEMBER_SILENT: no message during SILENT_CREDITS stall credits of one operation. -/
def memberSilent (g m : Nat) (s : State) : State :=
  match s.group g with
  | none => s
  | some x =>
    let n := s.flt.silentCredits.toNat
    match x.mems[m]? with
    | none => s
    | some y =>
      if n ≠ 0 ∧ x.ops.any (fun o => o.going && decide (n ≤ Tab.getD o.silent m 0)) then
        autoFence (fenceDesc 2 5 0 y.addr.af 0 0xFFFFFFFF y.addr.val) s
      else s

def execMemberSilent (t : Time) (group mem : Nat) (s : State) : Host.Outcome State Fault Refusal :=
  .next (memberSilent group mem (s.tick t))

/-! ### Requests in flight to a fenced target (R457, 06 R213, 07 R231) -/

/-- What waits for a token ends with a status: requests whole, transactions as their memory access failing. -/
def tokenFail (tok st : Nat) (s : State) : State :=
  let ids := (s.mem.live.filter fun e => e.2.waits.contains tok).map (·.1)
  let s := ids.foldl (fun s id => killLive id st s) s
  let ks := (s.coh.trans.filter fun e => e.2.waits.contains tok).map (·.1)
  ks.foldl (fun s k =>
    match s.trans k with
    | some t => cohRun lineFuel k (s.setTrans k { t with waits := t.waits.filter (· != tok), stat := st })
    | none => s) s

/-- Issue an operation again, to the copy of its allotment that is up; answers its new number. -/
def moveOp (x : Allot) (op : TrayOp) (s : State) : State × Option Nat :=
  match readTray s x with
  | none => (s, none)
  | some (t, off) =>
    let old := if op.tray = x.tray then x.trayOff else x.repOff
    let (s, k) := issueOp { op with tray := t, addr := off + (op.addr - old), at_ := s.now } s
    (s, some k)

/-- A write-back to a tray that is down: on to the replica, done at the primary, or the tile stays dirty. -/
def wbFenced (a tile : Nat) (replica : Bool) (s : State) : State :=
  let keep (s : State) : State :=
    let s := { s with mem := { s.mem with journal := s.mem.journal.filter fun e => !(e.2.live.isNone && e.2.allot == a && e.2.tile == tile) } }
    s.modPage a (tile / 16) fun p => { p with writing := clearBit p.writing (tile % 16), again := clearBit p.again (tile % 16) }
  match s.allot a, wbJournal s a tile with
  | some x, some _ => if replica || !s.trayDown x.replica then wbAcked a tile replica s else keep s
  | _, _ => keep s

/-- The phase of a multi-phase request goes on at the surviving copy: the journal names its tray as OWNER, under the next
epoch and a new deadline (06 R213). -/
def moveOwner (x : Allot) (op : TrayOp) (l : Live) (s : State) : State :=
  match l.journal.bind fun k => Tab.get? s.mem.journal k, readTray s x with
  | some j, some (t, _) => if j.owner = op.tray then nextPhase l j.phase t s else s
  | _, _ => s

/-- A request whose operation `op` (number `opId`) went to a tray that is down. -/
def requestFenced (id opId : Nat) (op : TrayOp) (s : State) : State :=
  match s.liveReq id with
  | none => s
  | some l =>
    match s.allot l.at with
    | none => killLive id St.fenced s
    | some x =>
      let atomic := l.kind == .atomic || l.kind == .rdmaAtomic
      if op.kind = .write && l.stage = 3 then requestAnswered id 0 opId op [] s
      else if op.kind = .write && x.replicated && op.tray = x.tray && !s.trayDown x.replica then
        let s := delOps (fun o => match o.use with
          | .request i _ => i == id && o.kind == .write
          | _ => false) s
        replicaPhase id { l with waits := [] } s
      else if op.kind ≠ .write || atomic then
        match moveOp x op s with
        | (s, some k) => (moveOwner x op l s).setLive id { l with waits := l.waits.filter (· != opToken opId) ++ [opToken k] }
        | (s, none) => if l.journal.isSome then poolLost op.tray id s else killLive id St.fenced s
      else if l.journal.isSome then poolLost op.tray id s
      else killLive id St.fenced s

/-- What becomes of an operation outstanding to a tray that is down. -/
def opFenced (s : State) (e : Nat × TrayOp) : State :=
  let (id, op) := e
  if (Tab.get? s.mem.ops id).isNone then s else
  let s := delOp id s
  match op.use with
  | .fill a tile =>
    if ((s.allot a).bind (readTray s)).isSome then startFill a tile op.again s
    else tokenFail (tileKey a tile) St.fenced
      (settleHint a (tile / 16) (s.modPage a (tile / 16) fun p => { p with filling := clearBit p.filling (tile % 16), want := 0 }))
  | .writeBack a tile replica => wbFenced a tile replica s
  | .request l _ => requestFenced l id op s
  | .cohRead key =>
    match s.trans key, s.allot (keyAllot key) with
    | some t, some x =>
      match moveOp x op s with
      | (s, some k) => s.setTrans key { t with waits := t.waits.filter (· != opToken id) ++ [opToken k] }
      | (s, none) => tokenFail (opToken id) St.fenced s
    | _, _ => s
  | .cohWrite key =>
    match s.allot (keyAllot key) with
    | none => s
    | some x =>
      if x.replicated && op.tray == x.tray && !s.trayDown x.replica then cohWriteAnswered key id op s
      else if x.replicated && op.tray == x.replica && !s.trayDown x.tray then tokensDone (opToken id) true s
      else tokenFail (opToken id) St.fenced s
  | .lockRead _ => s

/-- The die an operation is for. -/
def opDie (s : State) (op : TrayOp) : Nat :=
  match op.use with
  | .fill a _ | .writeBack a _ _ => (s.allot a).elim 0 (·.home)
  | .request l _ => (s.liveReq l).elim 0 (·.home)
  | .cohRead k | .cohWrite k => (lineHome s k).1
  | .lockRead _ => 0

/-- A request under way that involves a fenced composition's member and waits for it (R456, R457). -/
def compWaits (s : State) (id : Nat) (l : Live) : Bool :=
  let t := (s.allot l.allot).elim [] fun x => if x.place = 0 then [] else x.tray :: (if x.replicated then [x.replica] else [])
  (t.any fun m => s.compFenced l.req.levee 3 m &&
    s.mem.ops.any fun e => e.2.tray == m && match e.2.use with
      | .request i _ => i == id
      | .fill a tile => l.waits.contains (tileKey a tile)
      | _ => false) ||
  (s.mem.journal.any fun e => e.2.live == some id && decide (256 ≤ e.2.owner) && e.2.owner != 256 + s.sw.switchId.toNat &&
    (s.switchFenced (e.2.owner - 256) || s.compFenced l.req.levee 4 (e.2.owner - 256)))

/-- A hold queue of a fenced endpoint: its requests end FENCED without a response (R458). -/
def dropHeld (die : Nat) (s : State) : State :=
  let gone := (s.mem.hosts.filter fun h => h.die == die && s.addrFenced h.host).flatMap (·.hold)
  let s := gone.foldl (fun s l => fencedCount l.req.levee die (s.inflightSub 9 l.req.ver)) s
  { s with mem := { s.mem with hosts := s.mem.hosts.map fun (h : HostState) =>
      if h.die = die ∧ s.addrFenced h.host then { h with hold := [] } else h } }

/-- FENCED_REQUEST_COMPLETION on one die. -/
def fencedCompletion (die : Nat) (s : State) : State :=
  let s := (s.mem.ops.filter fun e => s.trayDown e.2.tray && opDie s e.2 == die).foldl opFenced s
  let ids := (s.mem.live.filter fun e => e.2.home == die && compWaits s e.1 e.2).map (·.1)
  settle (dropHeld die (ids.foldl (fun s id => killLive id St.fenced s) s))

def execFencedRequestCompletion (t : Time) (die : Nat) (s : State) : Host.Outcome State Fault Refusal :=
  .next (fencedCompletion die (s.tick t))

/-- TRAY_FAILED (07 R231): its operations end or move, and clean pages of allotments with no replica go. -/
def trayFailed (t : Nat) (s : State) : State :=
  if !s.trayFenced t || (Tab.get? s.mem.trays t).isNone then s
  else
    let s := (trayOps s t).foldl opFenced s
    let s := { s with mem := { s.mem with trays := Tab.upd s.mem.trays t fun x => { x with failed := true } } }
    let clean := s.cis.pages.filter fun e =>
      e.2.dirty == 0 && !pageBusy s (e.1 / 2 ^ 28) (e.1 % 2 ^ 28) &&
        (s.allot (e.1 / 2 ^ 28)).elim false fun x => x.place == 1 && x.tray == t && !x.replicated
    detachIfDone t (pinProgress (settle (clean.foldl (fun s e => freePage (e.1 / 2 ^ 28) (e.1 % 2 ^ 28) s) s)))

def execTrayFailed (t : Time) (tray : Nat) (s : State) : Host.Outcome State Fault Refusal := .next (trayFailed tray (s.tick t))

/-! ### Fence notices (R459) -/

/-- Where a notice leaves: the port of the packet it goes back to, else the control port of the lease, else the lowest
control port that is UP. -/
def noticePort (s : State) (p : Nat) : Option Nat :=
  if s.portUp p && (decide (512 ≤ p) || !(s.portFenced p || s.halted)) then some p
  else if s.portUp (512 + s.kry.lease.port) then some (512 + s.kry.lease.port)
  else (List.range 4).map (512 + ·) |>.find? s.portUp

/-- The 72 bytes of Table FLT-5. -/
def noticeBytes (s : State) (n : Notice) : Bytes :=
  let b := toBe 1 1 ++ toBe 1 n.event ++ toBe 1 s.sw.switchId.toNat ++ zeros 1 ++ toBe 4 n.term ++ toBe 4 n.index ++ toBe 4 n.nseq ++
    toBe 8 n.time ++ (if n.event ≤ 1 then n.desc else zeros 32)
  b ++ slice (Config.kmac (s.kry.lastKey.getD 0) b 128 "NOTICE") 0 16

/-- The Q_Key of fence notices. -/
def noticeQKey : Nat := 0x4B590005

/-- Send one transmission of a notice, where a lease was ever held and a port is to be found, to the mirror of the lease
packet's addresses; answers whether there was such a port. -/
def sendNotice (n : Notice) (s : State) : State × Bool :=
  match s.kry.lastLease with
  | none => (s, false)
  | some (net, p, cls) =>
    match noticePort s p with
    | none => (s, false)
    | some q =>
      let (s', left) := if 512 ≤ q then s.controlSend q (udFrameLen net.mirror 72) else (s, true)
      (if left then (s'.emit (.notice q cls net.mirror noticeQKey (noticeBytes s n))).count (gk 0x0B 2 0) 1 else s', true)

/-- FENCE_NOTICE: the first transmission of the oldest notice not yet sent; one that finds no port is dropped. -/
def fenceNotice (s : State) : State :=
  match s.flt.notices.find? fun n => n.sent == 0 with
  | none => s
  | some n =>
    let put (s : State) (l : List Notice) : State := { s with flt := { s.flt with notices := l } }
    match sendNotice n s with
    | (s, true) => put s (s.flt.notices.map fun m => if m.nseq = n.nseq then { m with sent := 1 } else m)
    | (s, false) => put s (s.flt.notices.filter fun m => m.nseq != n.nseq)

def execFenceNotice (t : Time) (s : State) : Host.Outcome State Fault Refusal := .next (fenceNotice (s.tick t))

/-- FENCE_NOTICE_REPEAT: repeats 1 ms and 2 ms after the event. -/
def noticeRepeat (s : State) : State :=
  match s.flt.notices.find? fun n => decide (1 ≤ n.sent) && decide (n.at_ + ms n.sent ≤ s.now) with
  | none => s
  | some n =>
    let s := (sendNotice n s).1
    let bump (m : Notice) : Notice := if m.nseq = n.nseq then { m with sent := m.sent + 1 } else m
    { s with flt := { s.flt with notices := (s.flt.notices.map bump).filter fun m => decide (m.sent < 3) } }

def execFenceNoticeRepeat (t : Time) (s : State) : Host.Outcome State Fault Refusal := .next (noticeRepeat (s.tick t))

/-! ### Halt (R465) and the culvert (01 R17–R22) -/

/-- The ledger's DEVICE_STATE record. -/
def stateRecord (event : Nat) (s : State) : State :=
  s.ledger 0x0041 (srcOf 0 0) (recBody [(32, 1, event), (36, 4, s.kry.lease.term)])

/-- The device halts: every kind of work ends without a response. -/
def haltDevice (s : State) : State :=
  if s.halted then s
  else
    let s := (stateRecord 5 (s.faultEvent 5)).notify 5 0 (zeros 32)
    let s := s.emit .silence
    let empty (h : HostState) : HostState := { h with hold := [], inflight := 0 }
    let noOps (g : Group) : Group := { g with ops := [] }
    let idle (b : Basin) : Basin :=
      { b with current := none, tagged := [], check := none, replaying := false, undo := [], inbound := [], mail := [], asked := false }
    { s with
      mem := { s.mem with live := [], ops := [], journal := [], locks := [], occ := [], hosts := s.mem.hosts.map empty },
      flm := { s.flm with chains := [] },
      bsn := { s.bsn with tab := Tab.mapVals s.bsn.tab (fun _ b => idle b) },
      col := { s.col with groups := Tab.mapVals s.col.groups (fun _ g => noOps g) },
      coh := { s.coh with trans := [], dieQ := [], snoops := [] } }

/-- Every data bundle of a direction is retired, or both its control lanes have failed (01 R21). -/
def culvertFailed (s : State) (dir : Nat) : Bool :=
  (if dir = 0 then s.flt.ret01 else s.flt.ret10) == 0xFFFF || (s.flt.ctlFail.getLsbD (2 * dir) && s.flt.ctlFail.getLsbD (2 * dir + 1))

/-- HALT. `cause`: 0 the culvert, 1 a levee guard's self-check, 2 the headworks' fence table or lease state. -/
def halt (cause : Nat) (s : State) : State :=
  if cause = 0 ∧ !culvertFailed s 0 ∧ !culvertFailed s 1 then s else haltDevice s

def execHalt (t : Time) (cause : Nat) (s : State) : Host.Outcome State Fault Refusal := .next (halt cause (s.tick t))

/-- CULVERT_FAILURE: with bundles of the direction left in service it is both control lanes that failed. -/
def culvertFailure (dir : Nat) (s : State) : State :=
  let s := if culvertFailed s dir then s
    else { s with flt := { s.flt with ctlFail := setBit (setBit s.flt.ctlFail (2 * (dir % 2))) (2 * (dir % 2) + 1) } }
  haltDevice s

def execCulvertFailure (t : Time) (dir : Nat) (s : State) : Host.Outcome State Fault Refusal := .next (culvertFailure dir (s.tick t))

def bundleRetired (s : State) (dir b : Nat) : Bool := (if dir = 0 then s.flt.ret01 else s.flt.ret10).getLsbD b

/-- CULVERT_FLIT_REPLAY: the flit is delivered in order from the replay buffer (01 R17); more than 64 within
any 1 ms make the bundle due for retirement (01 R20). -/
def flitReplay (dir b : Nat) (s : State) : State :=
  if 2 ≤ dir ∨ 16 ≤ b ∨ bundleRetired s dir b then s
  else
    let k := dir * 16 + b
    let l := ((Tab.getD s.flt.replays k []).filter fun t => decide (s.now < t + ms 1)) ++ [s.now]
    { s with flt := { s.flt with
        replays := Tab.set s.flt.replays k l,
        bundleDue := if 64 < l.length ∧ !s.flt.bundleDue.contains k then s.flt.bundleDue ++ [k] else s.flt.bundleDue } }

def execCulvertFlitReplay (t : Time) (dir bundle : Nat) (s : State) : Host.Outcome State Fault Refusal :=
  .next (flitReplay dir bundle (s.tick t))

/-- BUNDLE_RETIREMENT. `cause`: 1 replays, 2 a failed retrain, 3 power-on training (17 Table HLT-2). -/
def bundleRetirement (dir b cause : Nat) (s : State) : State :=
  let k := dir * 16 + b
  if 2 ≤ dir ∨ 16 ≤ b ∨ bundleRetired s dir b ∨ (cause = 1 ∧ !s.flt.bundleDue.contains k) then s
  else
    let s := { s with flt :=
      (if dir = 0 then { s.flt with ret01 := setBit s.flt.ret01 b } else { s.flt with ret10 := setBit s.flt.ret10 b }) }
    let s := { s with flt := { s.flt with bundleDue := s.flt.bundleDue.filter (· != k) } }
    s.ledger 0x0010 (srcOf 0 0) (recBody [(32, 1, dir), (33, 1, b), (34, 1, cause)])

def execBundleRetirement (t : Time) (dir bundle cause : Nat) (s : State) : Host.Outcome State Fault Refusal :=
  .next (bundleRetirement dir bundle cause (s.tick t))

end Sys2Proof.Machine
end

