-- ==== Sys2Proof/Machine/Lock.lean ====
section
/-! DEFINITION. Lock cycles (14 R466–R471): loading a newcomer's shards, admission at a turn counter, and the rows that touch
them (ALLOT_REVOKE, TRAY_RESPONSE). -/

namespace Sys2Proof.Machine

/-! ### Loading -/

/-- The first shard not yet ended. -/
def curShard (l : Load) : Option (Nat × Shard) :=
  ((List.range l.shards.length).zip l.shards).find? fun e => e.2.status.isNone

def setShard (i : Nat) (x : Shard) (l : Load) : Load := { l with shards := l.shards.set i x }

/-- The final reply's entries: status and tiles of each shard. A shard a failure left unattempted has a free status. -/
def shardEntries (s : State) (l : Load) : Bytes :=
  l.shards.flatMap fun x => toBe 2 (x.status.getD (s.peekFree % 65536)) ++ toBe 6 x.tiles

/-- The load ends with a status: state, gauge, event, record, notice, reply (Table FLT-7, R468). -/
def endLoad (st : Nat) (s : State) : State :=
  match s.flt.load with
  | none => s
  | some l =>
    let ok := st == St.ok
    let s := { s with flt := { s.flt with load := none, lock := if ok then .loaded else .aborted } }
    let s := if ok then s else ((stateRecord 3 (s.faultEvent 2)).notify 3 0 (zeros 32)).count (gk 0x0B 2 1) 1
    let n := (l.shards.filter fun x => x.status == some St.ok).length
    s.drawn.workDone (fun w => w == .lock) st [toBe 4 n ++ zeros 4 ++ shardEntries s l]

/-- Read on: the next piece of the current shard, at most 64 KiB of it (06 R194), or the end of the load. -/
def lockNext (fuel : Nat) (s : State) : State :=
  match fuel, s.flt.load with
  | 0, _ => s
  | _, none => s
  | fuel + 1, some l =>
    match curShard l with
    | none => endLoad St.ok s
    | some (i, x) =>
      let left := x.len - 4096 * x.tiles
      if left = 0 then
        lockNext fuel { s with flt := { s.flt with load := some (setShard i { x with status := some St.ok } l), lockDone := s.flt.lockDone + 1 } }
      else
        let n := min left 65536
        let s := { s with flt := { s.flt with load := some { l with at_ := s.now } } }
        if l.pkind = 0 then s.emit (.lockRead i l.paddr l.pqpn l.laddr x.levee (x.src + 4096 * x.tiles) n)
        else (issueOp { tray := l.pid, use := .lockRead i, kind := .read, addr := x.src + 4096 * x.tiles, len := n, data := [],
                        at_ := s.now } s).1

/-- Put a loaded tile where its allotment rests: the cistern, or with no page to be had its trays (07 R230). -/
def placeTile (a tile i : Nat) (bs : Bytes) (s : State) : State :=
  match s.allot a with
  | none => s
  | some x =>
    let s := s.modAllot a fun x => { x with written := true }
    if x.place = 0 then putTile a tile 0 bs 4 s
    else
      match obtainPage a (tile / 16) s with
      | (s, true) => putTile a tile 0 bs 4 s
      | (s, false) =>
        let (s, d) := if s.confidential x.levee then
            let (s, iv) := nextIv x.levee x.home 4 s
            let c := Config.gcmSeal (memKey s x.levee) iv (tileAad x tile) bs
            (s, c.1 ++ iv ++ c.2 ++ zeros 4)
          else (s, bs)
        let ts := ((x.tray, x.trayOff) :: (if x.replicated then [(x.replica, x.repOff)] else [])).filter fun t => !s.trayDown t.1
        ts.foldl (fun s t => (issueOp { tray := t.1, use := .lockRead i, kind := .write, addr := t.2 + 4096 * tile, len := d.length,
                                        data := d, at_ := s.now } s).1) s

/-- A fence covers the partner of the load. -/
def partnerFenced (s : State) (l : Load) : Bool :=
  if l.pkind = 0 then s.switchFenced l.pid || ipFenced s l.paddr
  else s.trayFenced l.pid || (Tab.get? s.mem.trays l.pid).elim true fun t => s.portFenced t.port || s.addrFenced t.addr

/-- The partner failed: a fence covers it from here on, and every incomplete shard ends STATE_LOST (R471). -/
def partnerFails (s : State) : State :=
  match s.flt.load with
  | none => s
  | some l =>
    let kind := if l.pkind = 0 then 4 else 3
    let s := if partnerFenced s l then s else autoFence (fenceDesc kind 7 0 0 0 l.pid 0) s
    let lose (x : Shard) : Shard := if x.status.isNone then { x with status := some St.stateLost } else x
    endLoad St.stateLost { s with flt := { s.flt with load := some { l with shards := l.shards.map lose } } }

/-- The tiles of an answer, put in place in order. -/
def placeTiles (a first i : Nat) (d : Bytes) (s : State) : State :=
  (List.range (d.length / 4096)).foldl (fun s k => placeTile a (first + k) i (slice d (4096 * k) 4096) s) s

/-- A read of a shard is answered. -/
def shardRead (i st : Nat) (d : Bytes) (s : State) : State :=
  match s.flt.lock, s.flt.load with
  | .loading, some l =>
    match curShard l with
    | none => s
    | some (j, x) =>
      if i ≠ j then s
      else if st ≠ St.ok ∧ l.pkind = 0 ∧ (st = St.fenced ∨ st = St.poolLost) then partnerFails s
      else if st ≠ St.ok then endLoad st { s with flt := { s.flt with load := some (setShard i { x with status := some st } l) } }
      else
        let n := min (d.length / 4096) ((x.len - 4096 * x.tiles) / 4096)
        let s := placeTiles x.allot (x.off / 4096 + x.tiles) i (d.take (4096 * n)) s
        lockNext 127 { s with flt := { s.flt with load := some (setShard i { x with tiles := x.tiles + n } l) } }
  | _, _ => s

/-- SHARD_READ_COMPLETE; a tray's read is then no longer outstanding. -/
def execShardReadComplete (t : Time) (shard status : Nat) (data : Bytes) (s : State) : Host.Outcome State Fault Refusal :=
  let s := s.tick t
  let s := delOps (fun o => o.use == .lockRead shard && o.kind == .read) s
  .next (detachDone (shardRead shard status data s))

/-- PARTNER_LOST: a read 1 ms unanswered, or a fence over the partner (R471). -/
def partnerLost (s : State) : State :=
  match s.flt.lock, s.flt.load with
  | .loading, some l => if l.at_ + ms 1 ≤ s.now ∨ partnerFenced s l then settle (partnerFails s) else s
  | _, _ => s

def execPartnerLost (t : Time) (s : State) : Host.Outcome State Fault Refusal := .next (partnerLost (s.tick t))

/-- An allotment of a shard is being revoked or is gone (R474). -/
def lockRevoked (s : State) : State :=
  match s.flt.lock, s.flt.load with
  | .loading, some l =>
    let gone (x : Shard) : Bool := (s.allot x.allot).elim true fun a => a.st == .revoking || a.st == .releasing
    if l.shards.any gone then
      let mark (x : Shard) : Shard := if gone x then { x with status := some St.extentRevoked } else x
      endLoad St.extentRevoked { s with flt := { s.flt with load := some { l with shards := l.shards.map mark } } }
    else s
  | _, _ => s

def bodyRevoke (r : KReq) (s : State) : Ans :=
  let a := bodyRevokeWork r s
  { a with s := lockRevoked a.s }

def execAllotRevoke (t : Time) (r : KReq) (s : State) : Host.Outcome State Fault Refusal := command 0x0502 bodyRevoke t r s

/-- TRAY_RESPONSE: handed to whoever issued the operation (04 R554); nothing is taken from a tray that is down. -/
def trayResponse (tray id : Nat) (d : Bytes) (s : State) : State :=
  match Tab.get? s.mem.ops id with
  | none => s
  | some o =>
    if o.tray ≠ tray ∨ s.trayDown tray then s
    else
      match o.use with
      | .lockRead i => detachIfDone tray (if o.kind = .read then shardRead i St.ok d (delOp id s) else delOp id s)
      | _ => detachIfDone tray (pinProgress (settle (poolAnswered id o d s)))

def execTrayResponse (t : Time) (tray op : Nat) (data : Bytes) (s : State) : Host.Outcome State Fault Refusal :=
  .next (trayResponse tray op data (s.tick t))

/-! ### LOCK_LOAD (R467, Table FLT-8) -/

def parseLoad (s : State) (p : Bytes) : Load :=
  { pkind := byteAt p 0, af := byteAt p 1, pid := be p 2 2, pqpn := be p 5 3, paddr := ⟨byteAt p 1, be p 8 16⟩,
    laddr := ⟨byteAt p 1, be p 32 16⟩, at_ := s.now,
    shards := (List.range (be p 24 2)).map fun i =>
      let o := 48 + 32 * i
      { levee := be p o 2 % 1024, allot := be p (o + 2) 2, src := be p (o + 8) 8, off := be p (o + 16) 8, len := be p (o + 24) 8 } }

/-- A shard breaks R467. -/
def shardBad (s : State) (pkind : Nat) (x : Shard) : Bool :=
  (s.allot x.allot).elim true (fun a =>
    a.st != .pending || a.levee != x.levee || decide (1 < a.place) || decide (a.size < x.off + x.len)) ||
  x.off % 4096 != 0 || x.len % 4096 != 0 || (pkind == 1 && s.confidential x.levee)

def loadBad (s : State) (l : Load) : Bool :=
  decide (1 < l.pkind) || l.shards.isEmpty || decide (125 < l.shards.length) ||
  (if l.pkind = 0 then decide (127 < l.pid) || !(l.af == 4 || l.af == 6) else (Tab.get? s.mem.trays l.pid).isNone) ||
  s.flt.lock == .loading || s.flt.lock == .armed || !s.hlt.devicePassed || l.shards.any (shardBad s l.pkind)

def bodyLockLoad (r : KReq) (s : State) : Ans :=
  let l := parseLoad s (par r)
  checks s [(decide (plen r < 48) || plen r != 48 + 32 * l.shards.length, St.badLength), (loadBad s l, St.badParam),
      (l.shards.any fun x => s.retiring x.levee, St.busy)] fun _ =>
    let s := { s with flt := { s.flt with
      lock := .loading, lockTotal := BitVec.ofNat 8 l.shards.length, lockDone := 0, load := some l } }
    { defer s .lock with after := lockNext 127 }

def execLockLoad (t : Time) (r : KReq) (s : State) : Host.Outcome State Fault Refusal := command 0x0140 bodyLockLoad t r s

/-! ### Admission (R469, Table FLT-9) -/

/-- The armed counter is satisfied. -/
def admissionDue (s : State) (a : Armed) : Bool := (s.turn a.counter).elim false fun x => turnReached x.value a.target

/-- ADMISSION: table 0x09 flips and the listed fences, if not set anew since, are cleared. -/
def admitNow (s : State) : State :=
  match s.flt.lock, s.flt.armed with
  | .armed, some a =>
    if !admissionDue s a then s
    else
      let s := if a.flip then flipEffect 9 s else s
      let mine := s.flt.fences.filter fun e => a.fences.contains (e.1, e.2.serial)
      let s := mine.foldl (fun s e => dropFence e.1 e.2.desc s) s
      let s := { s with flt := { s.flt with lock := .admitted, armed := none } }
      ((stateRecord 4 (s.faultEvent 1)).notify 4 0 (zeros 32)).count (gk 0x0B 2 2) 1
  | _, _ => s

def execAdmission (t : Time) (s : State) : Host.Outcome State Fault Refusal := .next (admitNow (s.tick t))

/-- A version of table 0x09 is not free to be flipped. -/
def xlateBusy (s : State) : Bool := (s.table 9).st != .ready || (s.table 9).pending

def bodyLockAdmit (r : KReq) (s : State) : Ans :=
  let p := par r
  let n := be p 10 2
  let levee := be p 2 2 % 1024
  let ds := (List.range n).map fun i => normDesc (slice p (16 + 32 * i) 32)
  let found := ds.filterMap (findFence s)
  let flip := bitOf (byteAt p 8) 0
  let idle := s.flt.lock == .idle || s.flt.lock == .loaded || s.flt.lock == .admitted
  checks s [(decide (plen r < 16) || plen r != 16 + 32 * n, St.badLength),
      (decide (126 < n) || !idle || (s.turn (be p 0 2)).elim true (fun x => x.levee != levee) || found.length != n, St.badParam),
      (s.retiring levee, St.busy), (flip && xlateBusy s, St.tableBusy)] fun _ =>
    let a : Armed := { counter := be p 0 2, levee := levee, target := be p 4 4, flip := flip,
                       fences := found.map fun e => (e.1, e.2.serial), descs := ds }
    { done { s with flt := { s.flt with lock := .armed, armed := some a } } with after := admitNow }

def execLockAdmit (t : Time) (r : KReq) (s : State) : Host.Outcome State Fault Refusal := command 0x0141 bodyLockAdmit t r s

/-- What entering autonomous mode does to a lock cycle (R462): an armed admission is disarmed. -/
def disarm (s : State) : State :=
  if s.flt.lock = .armed then { s with flt := { s.flt with lock := .loaded, armed := none } } else s

end Sys2Proof.Machine
end

