-- ==== Sys2Proof/Machine/Lease.lean ====
section
/-! DEFINITION. Manager leases (02 R53–R59), autonomous mode (14 R462–R464), and the management controller's resets and
readiness (02 R64, 13 R428). -/

namespace Sys2Proof.Machine

/-! ### Autonomous mode -/

/-- Autonomous mode is entered (R56, 14 R462). -/
def autonomous (s : State) : State :=
  let s := { s with kry := { s.kry with lease := { s.kry.lease with st := .autonomous } } }
  disarm ((stateRecord 2 (s.faultEvent 3)).notify 2 0 (zeros 32))

/-- LEASE_EXPIRY: an admission satisfied before it or in the same cycle goes first (14 R474). -/
def leaseExpiry (s : State) : State :=
  if s.kry.lease.st = .held ∧ s.kry.lease.expiry ≤ s.now then autonomous (admitNow s) else s

def execLeaseExpiry (t : Time) (s : State) : Host.Outcome State Fault Refusal := .next (leaseExpiry (s.tick t))

/-! ### LEASE_ACQUIRE (R54, R55) -/

/-- The operator's manager key in force (16 R506). -/
def operatorKey (s : State) : Bytes :=
  let c := if s.boot.inForce = some 0 then s.boot.c0 else if s.boot.inForce = some 1 then s.boot.c1 else none
  (c.bind (·.operatorKey)).getD Config.factoryOperatorKey

/-- A request's session after a new lease: the current one becomes the preceding one (R46, R58). -/
def demoteReq (r : KReq) : KReq := if r.sess = .lease then { r with sess := .preceding } else r

/-- A reassembly of the current lease's session, in the preceding one's. -/
def Reasm.demote (x : Reasm) : Reasm := { x with parts := x.parts.map fun e => (e.1, demoteReq e.2) }

/-- A command under way when a new lease is accepted: one whose key falls out of the retained pair has no reply to come. -/
def Running.demote (x : Running) : Running :=
  if x.req.sess = .preceding then { x with key := none } else { x with req := demoteReq x.req }

/-- A new lease is accepted: its key becomes current, the current key the preceding one. -/
def takeover (k : Key) (term ttl : Nat) (r : KReq) (s : State) : State :=
  let old := s.kry.lease
  let keep (l : List Waiting) : List Waiting :=
    (l.filter fun w => w.req.sess != .preceding).map fun w => { w with req := demoteReq w.req }
  { s with
    boot := { s.boot with termCtr := term },
    kry := { s.kry with
      lease := { st := .held, port := r.port - 512, term := term, ttlMs := ttl, expiry := s.now + ms ttl, key := some k,
                 prevKey := old.key },
      cur := {}, prev := { s.kry.cur with reasm := s.kry.cur.reasm.map Reasm.demote },
      urgent := keep s.kry.urgent, normal := keep s.kry.normal,
      deferred := s.kry.deferred.map Running.demote, executing := s.kry.executing.map Running.demote,
      owed := (s.kry.owed.filter fun o => o.1.sess != .preceding).map fun o => (demoteReq o.1, o.2),
      lastLease := some (r.net, r.port, r.cls), lastKey := some k } }

/-- The instants of a list that lie within the last second. -/
def lastSecond (s : State) (l : List Time) : List Time := l.filter fun t => decide (s.now < t + sec 1)

/-- LEASE_ACQUIRE with LEVEE 0: R54's rate, the six steps of R55, and the checks of Table KCP-3 that a lease's own key
leaves to make. It runs beside whatever the headworks is executing. -/
def leaseAcquire (r : KReq) (s : State) : State :=
  let p := par r
  let reply (k : Key) (st : Nat) (fs : List Bytes) (s : State) : State := s.sendReply (mkReply r (some k) st fs)
  if r.port < 512 ∨ s.boot.mode = .noIdentity then s.dropAuth
  else
    let seen := lastSecond s (Tab.getD s.kry.acquires r.port [])
    if 64 ≤ seen.length then s.dropRate
    else
      let s := { s with kry := { s.kry with acquires := Tab.set s.kry.acquires r.port (seen ++ [s.now]) } }
      let ss := Config.lkexDecap (slice p 40 1568)
      let k := Config.kmacKey ss (ascii "LEASE" ++ slice p 0 4 ++ slice p 8 32 ++ Config.devid) "KRYTIC"
      if Config.kmac k (r.hdr ++ p) 128 "KRYTIC" ≠ r.auth then s.dropAuth
      else if slice p 1608 32 ≠ Config.devid ∨ !Config.falconVerify (operatorKey s) (slice p 0 1640) (slice p 1640 1280) then s.dropAuth
      else if r.version ≠ 1 then reply k St.badOpcode [] s
      else if be p 0 4 ≤ s.boot.termCtr then reply k St.staleTerm [] s
      else if s.halted then reply k St.internal [] s
      else if r.urgent then reply k St.badParam [] s
      else if p.length ≠ 2920 then reply k St.badLength [] s
      else if be p 0 4 ≠ r.term ∨ be p 4 4 < 20 ∨ 10000 < be p 4 4 then reply k St.badParam [] s
      else
        let s := takeover k r.term (be p 4 4) r s
        reply k St.ok [toBe 4 (be p 4 4) ++ zeros 4] s

/-- LEASE_ACQUIRE; under a levee's session it is denied like any command of the manager (R46). -/
def acquire (r : KReq) (s : State) : State :=
  if r.levee = 0 then leaseAcquire { r with opcode := 0x0110 } s else arrive (fun _ s => refuse s St.leveeDenied) { r with opcode := 0x0110 } s

def execLeaseAcquire (t : Time) (r : KReq) (s : State) : Host.Outcome State Fault Refusal := .next (acquire r (s.tick t))

/-! ### LEASE_RENEW, LEASE_RELEASE (R57) -/

def bodyLeaseRenew (r : KReq) (s : State) : Ans :=
  checks s [(plen r != 0, St.badLength)] fun _ =>
    let l := { s.kry.lease with expiry := s.now + ms s.kry.lease.ttlMs }
    done { s with kry := { s.kry with lease := l, lastLease := some (r.net, r.port, r.cls) } } [toBe 4 l.ttlMs ++ zeros 4]

def execLeaseRenew (t : Time) (r : KReq) (s : State) : Host.Outcome State Fault Refusal :=
  .next (arriveNow bodyLeaseRenew { r with opcode := 0x0111 } (s.tick t))

def bodyLeaseRelease (r : KReq) (s : State) : Ans :=
  checks s [(plen r != 0, St.badLength)] fun _ => { done s with after := fun s => autonomous (admitNow s) }

def execLeaseRelease (t : Time) (r : KReq) (s : State) : Host.Outcome State Fault Refusal :=
  .next (arriveNow bodyLeaseRelease { r with opcode := 0x0112 } (s.tick t))

/-- ECHO answers the bytes it brings; while the controller is not ready the hardware answers it (R64, R69). -/
def bodyEcho (r : KReq) (s : State) : Ans :=
  checks s [(decide (plen r < 8) || decide (64 < plen r), St.badLength)] fun _ => done s [par r]

def echo (r : KReq) (s : State) : State :=
  if s.kry.ready then arrive bodyEcho { r with opcode := 0x0105 } s else arriveNow bodyEcho { r with opcode := 0x0105 } s

def execEcho (t : Time) (r : KReq) (s : State) : Host.Outcome State Fault Refusal := .next (echo r (s.tick t))

/-! ### The management controller (R64, 13 R428) -/

/-- The controller resets, with a cause of 17 Table HLT-2. A publication still draining has released no write: its command
will be answered INTERNAL. -/
def mcReset (cause : Nat) (s : State) : State :=
  let s := s.ledger 0x0021 (srcOf 0 0) (recBody [(32, 1, cause)])
  let s := { s with kry := { s.kry with ready := false, leftReset := s.now, lastBeat := none } }
  let pub := s.kry.executing.elim false fun x => match x.work with
    | .publish _ => true
    | _ => false
  if pub then
    let s := { s with cis := { s.cis with pub := none } }
    settle (releaseHeld (s.workDone (fun w => match w with
      | .publish _ => true
      | _ => false) St.internal []))
  else s

/-- No heartbeat for 500 ms after reset, or 250 ms since the last. -/
def watchdogDue (s : State) : Bool :=
  match s.kry.lastBeat with
  | none => decide (s.kry.leftReset + ms 500 ≤ s.now)
  | some b => decide (b + ms 250 ≤ s.now)

def watchdogExpiry (s : State) : State :=
  if !watchdogDue s || s.boot.mode != .normal then s
  else mcReset 1 { s.secEvent 3 with sec := { (s.secEvent 3).sec with wdResets := s.sec.wdResets + 1 } }

def execWatchdogExpiry (t : Time) (s : State) : Host.Outcome State Fault Refusal := .next (watchdogExpiry (s.tick t))

/-- The controller runs only in NORMAL (16 R496, R498). -/
def controllerReset (cause : Nat) (s : State) : State := if s.boot.mode = .normal then mcReset cause s else s

def execLockstepMismatch (t : Time) (s : State) : Host.Outcome State Fault Refusal := .next (controllerReset 2 (s.tick t))

/-- MC_RESET by its cause; a watchdog's is the expiry itself. -/
def execMcReset (t : Time) (cause : Nat) (s : State) : Host.Outcome State Fault Refusal :=
  .next (if cause = 1 then watchdogExpiry (s.tick t) else controllerReset cause (s.tick t))

/-- CONTROLLER_READY: replies that waited for it are sent. -/
def controllerReady (s : State) : State :=
  let s' := { s with kry := { s.kry with ready := true, owed := [] } }
  s.kry.owed.foldl (fun s o => (s.cacheReply o.1 o.2).sendReply o.2) s'

/-- HEARTBEAT: the first after reset is readiness; in a trial it starts the 60 s (16 R510). -/
def heartbeat (s : State) : State :=
  let first := !s.kry.ready
  let s := { s with kry := { s.kry with lastBeat := some s.now } }
  let trial := (if s.boot.slot = 0 then s.boot.a else s.boot.b).st == .trial
  let s := if first && trial && s.boot.trialAt.isNone then { s with boot := { s.boot with trialAt := some s.now } } else s
  if first then controllerReady s else s

def execHeartbeat (t : Time) (s : State) : Host.Outcome State Fault Refusal := .next (heartbeat (s.tick t))

def execControllerReady (t : Time) (s : State) : Host.Outcome State Fault Refusal :=
  let s := s.tick t
  .next (if s.kry.ready then s else heartbeat s)

end Sys2Proof.Machine
end

