-- ==== Sys2Proof/Machine/Levee.lean ====
section
/-! DEFINITION. Levees (13 R418–R421), their session keys and the key exchange (02 R77, 13 R429–R431), and the rows whose
progress may end a retirement. -/

namespace Sys2Proof.Machine

/-! ### LEVEE_ADMIT (R418–R420) -/

/-- An enable of Table SEC-6 is set, or a capture is armed (R419). -/
def debugOpen (s : State) : Bool :=
  s.sec.dbg != 0 || s.bsn.tab.any (fun e => e.2.profEn || e.2.captureEn) || s.hlt.arm.isSome

/-- The levee is admitted: keys, quotas, default water rights (R420). -/
def admitLevee (l : Nat) (conf : Bool) (maxAllot q0 q1 : Nat) (s : State) : State :=
  let n := s.sec.draws
  let x : Levee :=
    { confidential := conf, maxAllot := maxAllot, aepoch := (s.sec.aepoch + 1).toNat,
      memKey := if conf then some (Config.drbg n) else none, kexSeed := if conf then some (n + 1) else none }
  let s := { s with
    sec := { s.sec with
      levees := Tab.set s.sec.levees l x, aepoch := s.sec.aepoch + 1, draws := if conf then n + 2 else n,
      invocations := s.sec.invocations.filter fun e => e.1 / 16 != l },
    cis := { s.cis with quota := Tab.set (Tab.set s.cis.quota l q0) (1024 + l) q1 } }
  [0, 1].foldl (fun s d => setRight { die := d, levee := l, host := ⟨0, 0⟩, rate := 0, burst := 65536, out := 256, full := true, since := s.now } false s) s

def bodyLeveeAdmit (r : KReq) (s : State) : Ans :=
  let p := par r
  let l := be p 0 2 % 1024
  let conf := bitOf (byteAt p 2) 0
  checks s [(plen r != 16, St.badLength),
      (l == 0 || decide (135936 < be p 8 4) || decide (135936 < be p 12 4) || (s.admitted l && !s.retiring l), St.badParam),
      (s.retiring l, St.busy)] fun _ =>
    if conf && debugOpen s then guardReject s r l 8
    else done (admitLevee l conf (be p 4 2) (be p 8 4) (be p 12 4) s)

def execLeveeAdmit (t : Time) (r : KReq) (s : State) : Host.Outcome State Fault Refusal := command 0x0120 bodyLeveeAdmit t r s

/-! ### LEVEE_RETIRE (R421) -/

/-- Steps 1 and 2 are still under way: queues and groups to destroy, allotments to revoke. -/
def retireDrains (s : State) (l : Nat) : Bool :=
  s.flm.queues.any (fun e => e.2.levee == l) || s.col.groups.any (fun e => e.2.levee == l) ||
    s.mem.allots.any fun e => e.2.levee == l && e.2.st != .releasing

/-- Step 4 is still under way: the zeroing of the levee's allotments. -/
def retireZeroes (s : State) (l : Nat) : Bool := s.mem.allots.any fun e => e.2.levee == l && !e.2.zeroed

/-- The levee is known to a domain of the directory. -/
def leveeDomain (s : State) (l d : Nat) : Bool := (Tab.get? s.coh.domains d).elim false fun x => x.levee == l

/-- Its domains end with its allotments (step 2), and step 3: rows, slots, turns, rights and quotas of the levee go. -/
def retireWipe (l : Nat) (s : State) : State :=
  let wipe (b : Bank) : Bank := { b with rows := b.rows.filter fun r => r.levee != l, queue := b.queue.filter fun q => q.levee != l }
  { s with
    scr := { s.scr with banks := Tab.mapVals s.scr.banks (fun _ b => wipe b), quotas := Tab.del s.scr.quotas l },
    col := { s.col with slots := s.col.slots.filter fun e => e.2.1 != l },
    flm := { s.flm with turns := s.flm.turns.filter fun e => e.2.levee != l },
    mem := { s.mem with
      rights := s.mem.rights.filter (fun r => r.levee != l), hosts := s.mem.hosts.filter (fun h => h.levee != l),
      ctxs := s.mem.ctxs.filter fun c => c.levee != l },
    coh := { s.coh with
      results := s.coh.results.filter (fun r => !leveeDomain s l r.domain), domains := s.coh.domains.filter fun e => e.2.levee != l },
    cis := { s.cis with
      quota := Tab.del (Tab.del s.cis.quota l) (1024 + l),
      regions := s.cis.regions.filter (fun e => e.2.levee != l), handles := s.cis.handles.filter fun e => e.2.levee != l } }

/-- Step 5: the levee's keys go, and it is no longer admitted. -/
def retireEnd (l : Nat) (s : State) : State :=
  let s : State := { s with sec := { s.sec with levees := Tab.del s.sec.levees l } }
  s.workDone (fun w => w == .retire l) St.ok []

/-- One retirement goes on as far as it can. -/
def retireOne (l : Nat) (s : State) : State :=
  if retireDrains s l then s
  else
    let s := retireWipe l s
    if retireZeroes s l then s else retireEnd l s

/-- Retirements go on. -/
def retireProgress (s : State) : State :=
  (s.sec.levees.filter fun e => e.2.retiring).foldl (fun s e => retireOne e.1 s) s

/-- The commands of a levee that has no key any more: those waiting are not executed, the work of those under way ends. -/
def dropTenant (l : Nat) (s : State) : State :=
  let mine (q : KReq) : Bool := q.sess == .levee l
  let pub := s.cis.pub.elim false fun p => (s.region p.region).elim false fun g => g.levee == l
  let s := { s with kry := { s.kry with
    urgent := s.kry.urgent.filter (fun w => !mine w.req), normal := s.kry.normal.filter (fun w => !mine w.req),
    deferred := s.kry.deferred.filter (fun x => !mine x.req),
    executing := s.kry.executing.filter fun x => !mine x.req,
    owed := s.kry.owed.filter (fun o => !mine o.1),
    keys := Tab.del s.kry.keys l, levees := Tab.del s.kry.levees l } }
  releaseHeld (if pub then { s with cis := { s.cis with pub := none } } else s)

/-- The commit of a retirement and its steps 1 and 2. -/
def retireBegin (l : Nat) (s : State) : State :=
  let s := dropTenant l { s with sec := { s.sec with levees := Tab.upd s.sec.levees l fun x => { x with retiring := true, former := none } } }
  let gs := (s.col.groups.filter fun e => e.2.levee == l && !e.2.destroying).map (·.1)
  let s := gs.foldl (fun s g => groupStop g St.badParam s) s
  let qs := (s.flm.queues.filter fun e => e.2.levee == l).map (·.1)
  let s := qs.foldl (fun s q => stopChains q (s.modQueue q fun x => { x with destroying := true })) s
  let s := closeHandles (fun h => h.levee == l) s
  let as := s.mem.allots.filter fun e => e.2.levee == l
  let s := as.foldl (fun s e =>
    if e.2.st = .pending then dropPending e.1 s else if e.2.st = .active then revokeCommit e.1 0 s else s) s
  lockRevoked (destroyProgress (groupProgress (settle s)))

def bodyLeveeRetire (r : KReq) (s : State) : Ans :=
  let l := be (par r) 0 2 % 1024
  checks s [(plen r != 8, St.badLength), (leveeBad s l, St.badParam), (s.retiring l, St.busy)] fun _ =>
    { defer (retireBegin l s) (.retire l) with after := retireProgress }

def execLeveeRetire (t : Time) (r : KReq) (s : State) : Host.Outcome State Fault Refusal := command 0x0121 bodyLeveeRetire t r s

/-! ### Rows that may end what a retirement waits for -/

def execGroupDestroy (t : Time) (r : KReq) (s : State) : Host.Outcome State Fault Refusal := command 0x0902 bodyGroupDestroy t r s

def execFlumeQueueDestroy (t : Time) (r : KReq) (s : State) : Host.Outcome State Fault Refusal :=
  command 0x0802 bodyFlumeQueueDestroy t r s

def execChainCompletion (t : Time) (chain : Nat) (s : State) : Host.Outcome State Fault Refusal :=
  .next (retireProgress (chainCompletion chain (s.tick t)))

def execWindowReplay (t : Time) (basin : Nat) (s : State) : Host.Outcome State Fault Refusal :=
  .next (retireProgress (groupProgress (windowReplay basin (s.tick t))))

def execRevokeDrainEnd (t : Time) (allot : Nat) (s : State) : Host.Outcome State Fault Refusal :=
  .next (retireProgress (settle (revokeDrainEnd allot (s.tick t))))

def execRevokeTimeout (t : Time) (allot : Nat) (s : State) : Host.Outcome State Fault Refusal :=
  .next (retireProgress (revokeTimeout allot (s.tick t)))

def execTrayRangeZeroing (t : Time) (allot : Nat) (s : State) : Host.Outcome State Fault Refusal :=
  .next (retireProgress (zeroRanges allot (s.tick t)))

/-! ### LEVEE_KEY_SET (02 R77) -/

/-- A levee's session key is set: window and reply cache start empty, and commands of the former session have no reply to
come (R44). -/
def setLeveeKey (l : Nat) (k : Key) (x : Session) (s : State) : State :=
  let mute (y : Running) : Running := if y.req.sess = .levee l then { y with key := none } else y
  { s with kry := { s.kry with
      keys := Tab.set s.kry.keys l k, levees := Tab.set s.kry.levees l x,
      deferred := s.kry.deferred.map mute, executing := s.kry.executing.map mute,
      owed := s.kry.owed.filter fun o => o.1.sess != .levee l } }

/-- LEVEE_KEY_SET (R77): the levee and the wrapped key are step 13, the guard step 14, a retiring levee step 15. -/
def bodyLeveeKeySet (r : KReq) (s : State) : Ans :=
  let p := par r
  let l := be p 0 2 % 1024
  let key := s.unwrap r.sess (slice p 8 64)
  checks s [(plen r != 72, St.badLength), (leveeBad s l || key.isNone, St.badParam)] fun _ =>
    if s.confidential l then guardReject s r l 9
    else if s.retiring l then refuse s St.busy
    else done (setLeveeKey l (key.getD 0) {} s)

def execLeveeKeySet (t : Time) (r : KReq) (s : State) : Host.Outcome State Fault Refusal := command 0x0122 bodyLeveeKeySet t r s

/-! ### LEVEE_KEY_EXCHANGE (R429–R431) -/

def State.levee (s : State) (l : Nat) : Option Levee := Tab.get? s.sec.levees l

def State.modLevee (s : State) (l : Nat) (f : Levee → Levee) : State :=
  { s with sec := { s.sec with levees := Tab.upd s.sec.levees l f } }

/-- The key an exchange derives (R430). -/
def kexKey (l : Nat) (x : Levee) (p : Bytes) : Key :=
  let ss := Config.leveeDecap (x.kexSeed.getD 0) (slice p 32 1568)
  Config.kmacKey ss (ascii "LEVEE" ++ toBe 2 l ++ toBe 4 x.aepoch ++ slice p 0 32 ++ Config.devid) "KRYTIC"

/-- BIND of an exchange. -/
def kexBind (p : Bytes) : Bytes := Config.shake256 (slice p 32 1568 ++ slice p 0 32) 256

/-- The packet's tag passes under a key. -/
def tagOk (k : Key) (r : KReq) : Bool := kryticTag k (r.hdr ++ par r) == r.auth

/-- An exchange under its own key for a levee bound otherwise (R431). -/
def kexRefused (l : Nat) (s : State) : State :=
  ((s.secEvent 4).count (gk 0x0A 2 1 l) 1).ledger 0x0023 (srcOf 7 l) (recBody [(32, 1, 2), (34, 2, l)])

/-- Execution of an exchange that found the levee unbound at arrival; the first to complete binds it. -/
def bodyBind (k : Key) (r : KReq) (s : State) : Ans :=
  let l := r.levee
  match s.levee l with
  | none => { refuse s St.leveeDenied with silent := true }
  | some x =>
    if x.retiring then { refuse s St.leveeDenied with silent := true }
    else if (Tab.get? s.kry.keys l).isSome then { s := kexRefused l s, status := St.leveeDenied, key := some k }
    else
      let s := s.modLevee l fun x => { x with bound := true, bind := kexBind (par r) }
      let s := setLeveeKey l k { high := some r.seq, seen := [r.seq] } s
      { done (s.count (gk 0x0A 2 0 l) 1) with key := some k }

/-- Execution of an exchange under the levee's own key: it rekeys the levee, and the reply goes under the former key. -/
def bodyRekey (r : KReq) (s : State) : Ans :=
  let l := r.levee
  match s.levee l, Tab.get? s.kry.keys l with
  | some x, some k =>
    if !x.confidential then refuse s St.leveeDenied
    else checks s [(plen r != 1608, St.badLength)] fun _ =>
      let rp := mkReply r (some k) St.ok []
      let s := s.modLevee l fun x => { x with
        bound := true, bind := kexBind (par r), former := some (k, s.now + sec 1, r.seq, [rp]) }
      { done ((setLeveeKey l (kexKey l x (par r)) {} s).count (gk 0x0A 2 0 l) 1) with silent := true, after := fun s => s.sendReply rp }
  | _, _ => refuse s St.leveeDenied

/-- Steps 5, 7, 10 and 12 for an exchange that answers under its own key. -/
def kexChecks (r : KReq) (s : State) : Option Nat :=
  firstFail [
    if r.version = 1 then none else some St.badOpcode, if r.term = 0 then none else some St.badParam, chkServed r s,
    if r.urgent then some St.badParam else none, if plen r = 1608 then none else some St.badLength]

/-- An exchange packet, for a confidential levee. `k` is the key it derives. -/
def kexUnder (k : Key) (r : KReq) (s : State) : State :=
  let l := r.levee
  let reply (st : Nat) (s : State) : State := s.sendReply (mkReply r (some k) st [])
  if !tagOk k r then s.dropAuth
  else match kexChecks r s with
  | some st => reply st s
  | none =>
    if (Tab.get? s.kry.keys l).isSome then reply St.leveeDenied (kexRefused l s)
    else if s.canBegin && s.kry.urgent.isEmpty && s.kry.normal.isEmpty then finish r (bodyBind k r s)
    else if s.kry.normal.length < 256 then
      { s with kry := { s.kry with normal := s.kry.normal ++ [{ req := r, key := some k, arrived := s.now }] } }
    else reply St.busy s

/-- LEVEE_KEY_EXCHANGE as it arrives (Table KCP-3 step 3 as R430 and R431 change it). -/
def keyExchange (r : KReq) (s : State) : State :=
  let r := { r with opcode := 0x0B02 }
  let l := r.levee
  match s.levee l with
  | none => s.dropAuth
  | some x =>
    if x.retiring then s.dropAuth
    else
      let cur := Tab.get? s.kry.keys l
      let w := s.session (.levee l)
      let fresh := winPos w.high r.seq == .above || (winPos w.high r.seq == .inside && !w.seen.contains r.seq)
      if !x.confidential then arrive bodyRekey { r with sess := .levee l } s
      else if cur.elim false (fun k => tagOk k r) then
        let seen := lastSecond s x.kexes
        if !fresh then arrive bodyRekey { r with sess := .levee l } s
        else if 64 ≤ seen.length then s.dropRate
        else arrive bodyRekey { r with sess := .levee l } (s.modLevee l fun x => { x with kexes := seen ++ [s.now] })
      else
        let again := match x.former with
          | some (k, till, seq, rs) => if decide (s.now < till) && seq == r.seq && tagOk k r then some rs else none
          | none => none
        match again with
        | some rs => s.resend r rs
        | none =>
          let seen := lastSecond s x.kexes
          if 64 ≤ seen.length then s.dropRate
          else kexUnder (kexKey l x (par r)) { r with sess := .levee l } (s.modLevee l fun x => { x with kexes := seen ++ [s.now] })

def execLeveeKeyExchange (t : Time) (r : KReq) (s : State) : Host.Outcome State Fault Refusal := .next (keyExchange r (s.tick t))

/-- FORMER_KEY_EXPIRY. -/
def formerKeyExpiry (l : Nat) (s : State) : State :=
  s.modLevee l fun x => { x with former := x.former.filter fun f => decide (s.now < f.2.1) }

def execFormerKeyExpiry (t : Time) (levee : Nat) (s : State) : Host.Outcome State Fault Refusal :=
  .next (formerKeyExpiry levee (s.tick t))

end Sys2Proof.Machine
end

