-- ==== Sys2Proof/Machine/Ledger.lean ====
section
/-! DEFINITION. The health ledger in flash, its read command, and margins (17 R515–R521). -/

namespace Sys2Proof.Machine

/-! ### Records in flash (R515, R516) -/

/-- Bytes 0–111 of a record (Table HLT-1). -/
def recHead (x : Rec) : Bytes :=
  toLe 8 x.rseq ++ toLe 8 x.time ++ toLe 4 x.boot ++ toLe 2 x.type ++ toLe 1 x.flags ++ toLe 1 x.count ++ toLe 4 x.source ++
    toLe 4 x.lost ++ slice x.body 0 80

def recTag (x : Rec) : Bytes := Config.kmac Config.kFlash (recHead x) 128 "LEDGER"

/-- Write a record to flash: a P record to the permanent area while it has room, any other to the ring, whose oldest
sector of 512 records is erased when it is full. -/
def writeRec (x : Rec) (s : State) : State :=
  let h := s.hlt
  let x := { x with rseq := h.next, lost := min h.lostNext 0xFFFFFFFF }
  let x := { x with tag := recTag x }
  let h := { h with next := h.next + 1, lostNext := 0 }
  let h := if permType x.type ∧ h.perm.length < 32768 then { h with perm := h.perm ++ [x] }
    else { h with ring := (if h.ring.length < 229376 then h.ring else h.ring.drop 512) ++ [x] }
  { s with hlt := h }.count (gk 0x0D 0 0) 1

/-- LEDGER_FLASH_WRITE: the oldest buffered record is written. -/
def ledgerFlashWrite (s : State) : State :=
  match s.hlt.buf with
  | [] => s
  | x :: r => writeRec x { s with hlt := { s.hlt with buf := r } }

def execLedgerFlashWrite (t : Time) (s : State) : Host.Outcome State Fault Refusal := .next (ledgerFlashWrite (s.tick t))

/-- The record types of Table HLT-2; no other event is recorded (R517). -/
def ledgerType (type : Nat) : Bool :=
  [0x0001, 0x0002, 0x0003, 0x0004, 0x0010, 0x0011, 0x0012, 0x0013, 0x0020, 0x0021, 0x0022, 0x0023, 0x0030, 0x0031, 0x0032,
    0x0033, 0x0034, 0x0040, 0x0041, 0x0050, 0x0051, 0x0052, 0x0053].contains type

/-- LEDGER_EVENT (R518). -/
def ledgerEvent (e : LedgerEv) (s : State) : State := if ledgerType e.type then s.ledger e.type e.source e.body else s

def execLedgerEvent (t : Time) (e : LedgerEv) (s : State) : Host.Outcome State Fault Refusal := .next (ledgerEvent e (s.tick t))

/-- What the holdup time of a reset writes: the RESET record, then every buffered P record; the ring records left are lost
and counted (R518, 15 R483). -/
def holdupWrite (body : Bytes) (s : State) : State :=
  let b := s.hlt.buf
  let s := { s with hlt := { s.hlt with buf := [], lostAtReset := ringCount b } }
  (b.filter fun x => permType x.type).foldl (fun s x => writeRec x s) (writeRec (mkRec s 0x0002 (srcOf 0 0) body) s)

/-! ### LEDGER_READ (R519) -/

/-- Put a record into a list in RSEQ order. -/
def recInsert (x : Rec) : List Rec → List Rec
  | [] => [x]
  | y :: r => if x.rseq ≤ y.rseq then x :: y :: r else y :: recInsert x r

/-- The records held, in RSEQ order across both areas. -/
def heldRecs (s : State) : List Rec := s.hlt.perm.foldr recInsert s.hlt.ring

/-- The oldest RSEQ held, or the one the next record will take. -/
def oldestRseq (s : State) : Nat := ((heldRecs s).head?.map (·.rseq)).getD s.hlt.next

/-- A record as it is returned: TAG_FAIL set where the tag fails. -/
def recReturned (x : Rec) : Bytes :=
  (if recTag x = x.tag then recHead x else recHead { x with flags := x.flags ||| 0x80 }) ++ slice x.tag 0 16

def bodyLedgerRead (r : KReq) (s : State) : Ans :=
  let p := par r
  let start := be p 8 8
  let n := be p 16 4
  checks s [(!oneFrag r || plen r != 24, St.badLength), (n == 0 || decide (496 < n), St.badParam)] fun _ =>
    let rs := ((heldRecs s).filter fun x => decide (start ≤ x.rseq)).take n
    let head := toBe 8 (oldestRseq s)
    if rs.isEmpty then done s [head] else done s ((runs 31 rs rs.length).map fun c => head ++ c.flatMap recReturned)

def execLedgerRead (t : Time) (r : KReq) (s : State) : Host.Outcome State Fault Refusal := command 0x0C04 bodyLedgerRead t r s

/-! ### Margins (R521) -/

/-- A lane belongs to a port that is UP. -/
def laneUp (s : State) (lane : Nat) : Bool :=
  s.ports.any fun e => e.2.st == .up && decide (e.1 ≤ lane) && decide (lane < e.1 + e.2.lanes) && decide (e.1 < 512)

/-- The MARGIN_READ reply of a die (Table HLT-4); the measurements themselves are the part's. -/
def marginBytes (s : State) (die : Nat) : Bytes :=
  let m (off n : Nat) : Bytes := toBe n (Config.margin die off s.now)
  let lanes := (List.range 256).flatMap fun l => if laneUp s (256 * die + l) then m (16 + l) 1 else [0]
  let chans := (List.range 256).flatMap fun c => if s.hlt.retiredChannels.contains (256 * die + c) then [0] else m (272 + c) 1
  let ret := if die = 1 then s.flt.ret01 else s.flt.ret10
  let bundles := (List.range 16).flatMap fun b => if ret.getLsbD b then [0] else m (528 + b) 1
  toBe 1 die ++ zeros 3 ++ m 4 1 ++ m 5 1 ++ m 6 1 ++ m 7 1 ++ toBe 2 s.sec.pufCorr.toNat ++ m 10 2 ++ m 12 4 ++ lanes ++ chans ++ bundles

def bodyMarginRead (r : KReq) (s : State) : Ans :=
  let die := byteAt (par r) 0
  checks s [(plen r != 8, St.badLength), (decide (1 < die), St.badParam)] fun _ => done s [marginBytes s die]

def execMarginRead (t : Time) (r : KReq) (s : State) : Host.Outcome State Fault Refusal := command 0x0C05 bodyMarginRead t r s

/-- MARGIN_RECORD: due each 86,400 s, or when a margin falls below its floor. -/
def marginRecord (body : Bytes) (low : Bool) (s : State) : State :=
  if low then
    (s.ledger 0x0052 (srcOf 0 0) body).hltEvent 0
  else if s.hlt.lastMargin + sec 86400 ≤ s.now then
    let s := s.ledger 0x0052 (srcOf 0 0) body
    { s with hlt := { s.hlt with lastMargin := s.now } }
  else s

def execMarginRecord (t : Time) (body : Bytes) (low : Bool) (s : State) : Host.Outcome State Fault Refusal :=
  .next (marginRecord body low (s.tick t))

end Sys2Proof.Machine
end

