-- ==== Sys2Proof/Machine/Power.lean ====
section
/-! DEFINITION. The power manager: dips, supply and thermal resets, clock stretching, throttling (15 R477–R489). -/

namespace Sys2Proof.Machine

/-- The power manager takes a reading; the peak detector follows the input while a window is open (R478). -/
def sampleIn (p : Sample) (s : State) : State :=
  { s with pwr := { s.pwr with sample := p, minMv := if s.pwr.window then min s.pwr.minMv p.mv else s.pwr.minMv } }

/-! ### The dip window (R479–R482) -/

/-- A window opens: the warning comparator trips 40 ns after the fall, admissions freeze 80 ns after it. A basin whose
replay is pending starts it again (09 R300). -/
def windowOpen (mv : Nat) (s : State) : State :=
  let mark (t : Test) : Test := { t with rerun := !t.draining }
  let again (_ : Nat) (x : Basin) : Basin := if x.replaying then { x with restarts := x.restarts + 1 } else x
  ({ s with
    bsn := { s.bsn with tab := Tab.mapVals s.bsn.tab again },
    hlt := { s.hlt with tests := s.hlt.tests.map mark },
    pwr := { s.pwr with
      window := true, warnedAt := s.now + ns 40, frozenAt := s.now + ns 80, halved := true, riseAt := none, restoredAt := none,
      sustained := false, minMv := mv } }.pwrEvent 0).count (gk 0x0C 0 0) 1

/-- DIP_START: the input falls below 11.0 V; while the window of an earlier fall is still open it goes on. -/
def dipStart (p : Sample) (s : State) : State :=
  if 11000 ≤ p.mv then sampleIn p s
  else
    let s := sampleIn p s
    if s.pwr.inReset then s
    else if s.pwr.window then { s with pwr := { s.pwr with halved := true, riseAt := none, restoredAt := none } }
    else windowOpen p.mv s

/-- DIP_RECOVERY: the input rises above 11.2 V, or falls below it again before the clocks are restored. -/
def dipRecovery (p : Sample) (s : State) : State :=
  let s := sampleIn p s
  if s.pwr.window && s.pwr.halved then
    if 11200 < p.mv then { s with pwr := { s.pwr with riseAt := some (s.pwr.riseAt.getD s.now) } }
    else { s with pwr := { s.pwr with riseAt := none } }
  else s

/-- CLOCK_RESTORE: the input has stayed above 11.2 V for 10 µs. -/
def clockRestore (s : State) : State :=
  match s.pwr.riseAt with
  | some t =>
    if s.pwr.window && s.pwr.halved && decide (t + us 10 ≤ s.now) then
      { s with pwr := { s.pwr with halved := false, restoredAt := some s.now } }
    else s
  | none => s

/-- Duration from the warning trip in units of 20 ns. -/
def dipUnits (s : State) : Nat := (s.now - s.pwr.warnedAt) / ns 20

/-- Body of a DIP record (17 Table HLT-2). -/
def dipBody (s : State) (mv units : Nat) (sustained stillOpen : Bool) (replayed retried : Nat) : Bytes :=
  recBody [(32, 2, mv / 10), (34, 4, units), (38, 1, s.pwr.level), (39, 1, ofBool sustained + 2 * ofBool stillOpen), (40, 4, replayed),
    (44, 4, retried)]

/-- The tagged operations that basins will replay, and those that will end DIP_RETRY (09 R298–R300). -/
def replayCounts (s : State) : Nat × Nat :=
  s.bsn.tab.foldl (fun a e =>
    let good := if 3 ≤ e.2.restarts then 0 else (e.2.tagged.takeWhile fun t => !t.lost).length
    (a.1 + good, a.2 + (e.2.tagged.length - good))) (0, 0)

/-- Operations of a basin that the window catches unfinished: the descriptor it executes, turn waits on it, blocks it has
begun to take in. -/
def unfinished (s : State) (b : Nat) : List BasinOp :=
  let x := s.basin b
  let cur := (x.current.bind fun c => (s.chain c).map fun y => BasinOp.desc c y.idx).toList
  let waits := (chainsOn s b).filterMap fun e => match e.2.st with
    | .turnWait _ _ _ => some (BasinOp.desc e.1 e.2.idx)
    | _ => none
  let blocks := (x.inbound.map (·.op)).filter fun o => (tagChain o).isNone
  (cur ++ waits ++ blocks.eraseDups).filter fun o => !x.tagged.any fun t => t.op == o

/-- What a descriptor under way was sent from outside the store enters the inbound retention (09 R297). -/
def retainArrived (b : Nat) (o : BasinOp) (s : State) : State :=
  match o with
  | .desc cid _ =>
    ((s.chain cid).elim [] fun c => c.fetched.filter fun e => decide (e.1 < 2 ^ 40)).foldl (fun s e => retain b o e.1 e.2.2 s) s
  | .block _ _ _ => s

/-- The window closes at a basin: what it has not finished is tagged too, and it replays what it tagged (09 R297, R298). -/
def basinShut (b : Nat) (s : State) : State :=
  let s := (unfinished s b).foldl (fun s o => tagOp b { op := o, lost := false, done := false } (retainArrived b o s)) s
  s.modBasin b fun x =>
    if x.tagged.isEmpty then { x with inbound := [], holdBytes := 0, undo := [], replaying := false } else { x with replaying := true }

/-- DIP_WINDOW_CLOSE: 0.2 µs after the clocks are restored. -/
def windowClose (s : State) : State :=
  let units := dipUnits s
  let s := (s.bsn.tab.map (·.1)).foldl (fun s b => basinShut b s) s
  let (good, bad) := replayCounts s
  let s := s.ledger 0x0003 (srcOf 0 0) (dipBody s s.pwr.minMv units s.pwr.sustained false good bad)
  let s := (s.count (gk 0x0C 0 1) (nsOf (s.now - s.pwr.warnedAt))).count (gk 0x0C 0 3) (nsOf (s.now - s.pwr.frozenAt))
  let s := { s with
    hlt := { s.hlt with totals := s.hlt.totals.set 2 (s.hlt.totals.getD 2 0 + 1) },
    pwr := { s.pwr with
      window := false, riseAt := none, restoredAt := none, sustained := false,
      dipMin := BitVec.ofNat 12 (s.pwr.minMv / 10), dipDur := BitVec.ofNat 20 (min units 0xFFFFF) } }
  retireProgress (groupProgress (destroyProgress s))

def dipWindowClose (s : State) : State :=
  match s.pwr.restoredAt with
  | some t => if s.pwr.window && !s.pwr.halved && decide (t + ns 200 ≤ s.now) then windowClose s else s
  | none => s

/-- SUSTAINED_DIP: the window has stayed open for 100 ms. -/
def sustainedDip (s : State) : State :=
  if s.pwr.window && !s.pwr.sustained && decide (s.pwr.frozenAt + ms 100 ≤ s.now) then
    let s := s.ledger 0x0003 (srcOf 0 0) (dipBody s s.pwr.minMv (dipUnits s) true true 0 0)
    { s with pwr := { s.pwr with sustained := true } }.count (gk 0x0C 0 2) 1
  else s

/-- LOW_INPUT: entered below 11.4 V, left above 11.5 V. -/
def lowInput (p : Sample) (s : State) : State :=
  let s := sampleIn p s
  if p.mv < 11400 then { s with pwr := { s.pwr with lowInput := true } }
  else if 11500 < p.mv then { s with pwr := { s.pwr with lowInput := false } } else s

def execDipStart (t : Time) (p : Sample) (s : State) : Host.Outcome State Fault Refusal := .next (dipStart p (s.tick t))
def execDipRecovery (t : Time) (p : Sample) (s : State) : Host.Outcome State Fault Refusal := .next (dipRecovery p (s.tick t))
def execClockRestore (t : Time) (s : State) : Host.Outcome State Fault Refusal := .next (clockRestore (s.tick t))
def execDipWindowClose (t : Time) (s : State) : Host.Outcome State Fault Refusal := .next (dipWindowClose (s.tick t))
def execSustainedDip (t : Time) (s : State) : Host.Outcome State Fault Refusal := .next (sustainedDip (s.tick t))
def execLowInput (t : Time) (p : Sample) (s : State) : Host.Outcome State Fault Refusal := .next (lowInput p (s.tick t))

/-! ### Supply and thermal reset (R483, R489) -/

/-- Body of a RESET record: cause, lowest input, hottest sensor. -/
def resetBody (cause mv tmax : Nat) : Bytes := recBody [(32, 1, cause), (34, 2, mv / 10), (36, 1, tmax)]

/-- A reset is counted in the lifetime totals and the gauge carried from them (17 R520). -/
def countReset (cause : Nat) (s : State) : State :=
  let i := if cause = 3 then 1 else 0
  { s with hlt := { s.hlt with totals := s.hlt.totals.set i (s.hlt.totals.getD i 0 + 1) } }.count (gk 0x0C 3 i) 1

/-- What is left when every rail but VAON and VIO is off: the flash and the always-on domain's own facts. All else stands
as at power-off, and no port transmits. -/
def poweredOff (s : State) : State :=
  let h : Health :=
    { perm := s.hlt.perm, ring := s.hlt.ring, next := s.hlt.next, buf := s.hlt.buf, lostNext := s.hlt.lostNext,
      lostAtReset := s.hlt.lostAtReset, totals := s.hlt.totals, retiredHalves := s.hlt.retiredHalves,
      retiredLanes := s.hlt.retiredLanes, retiredChannels := s.hlt.retiredChannels }
  let b : Boot := { s.boot with
    mode := .normal, inForce := none, fallbackBoot := false, postPass := false, stage0 := [], stage1 := [], clear0 := false,
    clear1 := false, trialAt := none, lastBeacon := [], beaconCause := 0 }
  let keep (e : Nat × Basin) : Nat × Basin :=
    (e.1, { power := if e.2.quar = .full then .off else .clockGated, quar := e.2.quar, quarTemp := e.2.quarTemp, quarMask := e.2.quarMask })
  { State.reset with
    pending := s.pending, now := s.now, free := s.free, out := s.out, ports := [], hlt := h, boot := b,
    gauges := s.gauges.filter (fun e => e.1.set == 0x0C && e.1.row == 3),
    bsn := { tab := (s.bsn.tab.filter fun e => e.2.quar != .none).map keep },
    pwr := { sample := s.pwr.sample, resetCause := s.pwr.resetCause, cooling := s.pwr.cooling, inReset := s.pwr.inReset, outAt := s.pwr.outAt,
             lastOverRec := s.pwr.lastOverRec },
    sec := { draws := s.sec.draws, dakGen := s.sec.dakGen } }

/-- The device enters reset: every port falls silent, the holdup energy writes the ledger, and what the rails held is lost. -/
def enterReset (cause : Nat) (p : Sample) (s : State) : State :=
  let mv := if s.pwr.window then min s.pwr.minMv p.mv else p.mv
  let s := countReset cause (s.emit .silence)
  let s := holdupWrite (resetBody cause mv p.tmax) s
  let w : Power := { s.pwr with sample := p, inReset := true, resetCause := cause, cooling := cause == 3, outAt := s.now, lastOverRec := none }
  poweredOff { s with pwr := w }

/-- A further overvoltage event while the device is in reset: at most one record a second. -/
def overInReset (p : Sample) (s : State) : State :=
  let s := { s with pwr := { s.pwr with sample := p, outAt := s.now } }
  if s.pwr.lastOverRec.elim true fun t => decide (t + sec 1 ≤ s.now) then
    let s := countReset 2 (writeRec (mkRec s 0x0002 (srcOf 0 0) (resetBody 2 p.mv p.tmax)) s)
    { s with pwr := { s.pwr with lastOverRec := some s.now, resetCause := 2 } }
  else s

/-- SUPPLY_RESET: below 10.2 V, or above 13.0 V for the 10 µs that this step reports as past. -/
def supplyReset (p : Sample) (s : State) : State :=
  if s.pwr.inReset then
    if 13000 < p.mv then overInReset p s
    else { s with pwr := { s.pwr with sample := p, outAt := if p.mv < 11400 ∨ 12600 < p.mv then s.now else s.pwr.outAt } }
  else if p.mv < 10200 then enterReset 1 p s
  else if 13000 < p.mv then enterReset 2 p s
  else sampleIn p s

/-- THERMAL_RESET: a sensor reads 105 °C. -/
def thermalReset (p : Sample) (s : State) : State :=
  if 105 ≤ p.tmax ∧ !s.pwr.inReset then enterReset 3 p s else sampleIn p s

/-- RESET_RELEASE: 100 ms within 11.4 to 12.6 V, and after a thermal reset every sensor below 90 °C. -/
def resetRelease (p : Sample) (s : State) : State :=
  if !s.pwr.inReset then sampleIn p s
  else if p.mv < 11400 ∨ 12600 < p.mv then { s with pwr := { s.pwr with sample := p, outAt := s.now } }
  else
    let cool := !s.pwr.cooling || decide (p.tmax < 90)
    let s := sampleIn p s
    if s.pwr.outAt + ms 100 ≤ s.now ∧ cool then { s with pwr := { s.pwr with inReset := false, cooling := false } } else s

def execSupplyReset (t : Time) (p : Sample) (s : State) : Host.Outcome State Fault Refusal := .next (supplyReset p (s.tick t))
def execThermalReset (t : Time) (p : Sample) (s : State) : Host.Outcome State Fault Refusal := .next (thermalReset p (s.tick t))
def execResetRelease (t : Time) (p : Sample) (s : State) : Host.Outcome State Fault Refusal := .next (resetRelease p (s.tick t))

/-! ### Droop (R484, R485) -/

/-- DROOP_STRETCH. -/
def droopStretch (die : Nat) (s : State) : State :=
  if 1 < die then s else { s with pwr := { s.pwr with stretch := setBit s.pwr.stretch die } }.count (gk 0x0C 1 1 die) 1

/-- CLOCK_STRETCH_END: 8 cycles after the last detector cleared. -/
def stretchEnd (die : Nat) (s : State) : State :=
  if 1 < die then s else { s with pwr := { s.pwr with stretch := clearBit s.pwr.stretch die } }

/-- A change of throttle level: the time spent at the level left is counted (Table PWR-7). -/
def setLevel (n : Nat) (s : State) : State :=
  let s := if s.pwr.level = 0 then s else s.count (gk 0x0C 2 0 s.pwr.level) (nsOf (s.now - s.pwr.lastStep))
  { s with pwr := { s.pwr with level := n, lastStep := s.now } }

/-- DROOP_INTERVAL: the cycles stretched on a die in the last 1 ms. -/
def droopInterval (die stretched : Nat) (s : State) : State :=
  if 1 < die then s
  else
    let high := decide (arithMhz s * 1000 < 1024 * stretched)
    let s := s.count (gk 0x0C 1 0 die) stretched
    let s := { s with pwr := { s.pwr with droop := if high then setBit s.pwr.droop die else clearBit s.pwr.droop die } }
    if !high then s
    else
      let s := { s with pwr := { s.pwr with cause := setBit s.pwr.cause 2, causeAt := s.now } }
      if s.pwr.level < 4 then
        (setLevel (s.pwr.level + 1) s).pwrEvent 1
      else s

def execDroopStretch (t : Time) (die : Nat) (s : State) : Host.Outcome State Fault Refusal := .next (droopStretch die (s.tick t))
def execClockStretchEnd (t : Time) (die : Nat) (s : State) : Host.Outcome State Fault Refusal := .next (stretchEnd die (s.tick t))
def execDroopInterval (t : Time) (die stretched : Nat) (s : State) : Host.Outcome State Fault Refusal :=
  .next (droopInterval die stretched (s.tick t))

/-! ### Throttling (R487) -/

/-- The power limit in force: 800 to 1,900 W (Table PWR-6). -/
def limitWatts (s : State) : Nat := max 800 (min 1900 s.pwr.limitW.toNat)

/-- The causes that hold by a reading: POWER, THERMAL, DROOP. -/
def causesNow (p : Sample) (s : State) : BitVec 3 :=
  BitVec.ofNat 3 (ofBool (decide (limitWatts s < p.watts)) + 2 * ofBool (decide (98 ≤ p.tmax)) + 4 * ofBool (s.pwr.droop != 0))

/-- A reading keeps the level from falling. -/
def notCalm (p : Sample) (s : State) : Bool :=
  causesNow p s != 0 || decide (limitWatts s ≤ p.watts + 50) || decide (96 ≤ p.tmax)

/-- The causes and the instants that a reading moves. -/
def throttleReading (p : Sample) (s : State) : State :=
  let s := sampleIn p s
  { s with pwr := { s.pwr with
      cause := causesNow p s, causeAt := if notCalm p s then s.now else s.pwr.causeAt,
      hotAt := if 100 ≤ p.tmax then s.now else s.pwr.hotAt } }

/-- THROTTLE_RAISE: up by one every 1 ms while a cause holds, up to 4. -/
def throttleRaise (p : Sample) (s : State) : State :=
  let s := throttleReading p s
  if s.pwr.cause != 0 ∧ s.pwr.level < 4 ∧ s.pwr.lastStep + ms 1 ≤ s.now then setLevel (s.pwr.level + 1) s else s

/-- THROTTLE_LOWER: down by one for every 10 ms in which no reading kept it. -/
def throttleLower (p : Sample) (s : State) : State :=
  let s := throttleReading p s
  if 0 < s.pwr.level ∧ s.pwr.level < 5 ∧ s.pwr.causeAt + ms 10 ≤ s.now ∧ s.pwr.lastStep + ms 10 ≤ s.now then
    setLevel (s.pwr.level - 1) s
  else s

/-- LEVEL5: a sensor reads 103 °C or more. -/
def level5 (p : Sample) (s : State) : State :=
  let s := throttleReading p s
  if p.tmax < 103 ∨ s.pwr.level = 5 then s
  else
    let s := setLevel 5 s
    (s.ledger 0x0004 (srcOf 0 0) (recBody [(32, 1, s.pwr.cause.toNat), (33, 1, p.tmax)])).pwrEvent 2

/-- LEVEL5_EXIT: every sensor below 100 °C for 10 ms. -/
def level5Exit (p : Sample) (s : State) : State :=
  let s := throttleReading p s
  if s.pwr.level = 5 ∧ s.pwr.hotAt + ms 10 ≤ s.now then setLevel 4 s else s

def execThrottleRaise (t : Time) (p : Sample) (s : State) : Host.Outcome State Fault Refusal := .next (throttleRaise p (s.tick t))
def execThrottleLower (t : Time) (p : Sample) (s : State) : Host.Outcome State Fault Refusal := .next (throttleLower p (s.tick t))
def execLevel5 (t : Time) (p : Sample) (s : State) : Host.Outcome State Fault Refusal := .next (level5 p (s.tick t))
def execLevel5Exit (t : Time) (p : Sample) (s : State) : Host.Outcome State Fault Refusal := .next (level5Exit p (s.tick t))

end Sys2Proof.Machine
end

