-- ==== Sys2Proof/Machine/Attest.lean ====
section
/-! DEFINITION. DEVICE_INFO (02 Table KCP-11), measurements and attestation reports (13 R441–R445). -/

namespace Sys2Proof.Machine

/-- HDW_ID (00 Table SCP-2). -/
def hdwId : Nat := 0x51200010 + (if Config.stepB0 then 0x1000 else 0)

def LeaseState.code (x : LeaseState) : Nat :=
  match x with
  | .none => 0
  | .held => 1
  | .autonomous => 2

/-- The image set of the slot that runs. -/
def runningSet (s : State) : ImageSet := if s.boot.slot = 0 then s.boot.a else s.boot.b

def bodyDeviceInfo (r : KReq) (s : State) : Ans :=
  checks s [(plen r != 0, St.badLength)] fun _ =>
    let fw := if s.boot.mode = .recovery then 0 else (runningSet s).version.getD 1 0
    done s [toBe 4 hdwId ++ toBe 8 fw ++ toBe 1 s.kry.lease.st.code ++ zeros 3 ++ toBe 4 s.kry.lease.term ++ zeros 4 ++ slice Config.devid 0 32]

def execDeviceInfo (t : Time) (r : KReq) (s : State) : Host.Outcome State Fault Refusal := command 0x0101 bodyDeviceInfo t r s

/-! ### Measurements (R445) -/

/-- A measurement entry of 72 bytes. -/
def measureEntry (s : State) (i : Nat) : Bytes :=
  let m := s.sec.measured.getD i (0, [])
  toBe 1 i ++ zeros 3 ++ toBe 4 m.1 ++ slice m.2 0 64

/-- Record measurement `i`. -/
def setMeasure (i svn : Nat) (digest : Bytes) (s : State) : State :=
  { s with sec := { s.sec with measured := s.sec.measured.set i (svn, digest) } }

/-! ### ATTEST_REPORT (R441–R444) -/

/-- hxDeviceState (Table SEC-9). -/
def hxDeviceState (s : State) : Bytes :=
  let prof := s.bsn.tab.any fun e => e.2.profEn
  let cap := s.bsn.tab.any fun e => e.2.captureEn
  toBe 4 hdwId ++ toBe 4 s.boot.bootCtr ++ toBe 4 s.kry.lease.term ++ toBe 1 s.kry.lease.st.code ++ zeros 1 ++ toBe 2 s.confCount ++
    toBe 4 s.sec.dbg.toNat ++ toBe 1 (ofBool prof + 2 * ofBool cap + 4 * ofBool s.hlt.arm.isSome) ++ zeros 11

/-- hxLevee; absent for levee 0. -/
def hxLevee (s : State) (l : Nat) : List Bytes :=
  match s.levee l with
  | none => []
  | some x =>
    [toBe 2 l ++ toBe 1 (ofBool x.confidential + 2 * ofBool x.bound) ++ zeros 1 ++ toBe 4 x.aepoch ++
      (if x.bound then slice x.bind 0 32 else zeros 32) ++
      (if x.confidential then Config.leveePublic (x.kexSeed.getD 0) else [])]

/-- The signed report on a levee. -/
def reportBytes (s : State) (l : Nat) (nonce : Bytes) : Bytes :=
  let serial := toBe 1 1 ++ toBe 4 s.boot.bootCtr ++ toBe 7 s.sec.reports
  let tbs := Config.reportTbs serial ([nonce, (List.range 6).flatMap (measureEntry s), hxDeviceState s] ++ (if l = 0 then [] else hxLevee s l))
  Config.reportDer tbs (Config.dakSign s.sec.dakGen tbs)

/-- The certificates above the report. -/
def certBytes (s : State) (select : Nat) : Bytes :=
  if select = 1 then Config.dakCertificate s.sec.dakGen ((List.range 4).flatMap (measureEntry s)) else Config.flashCertificate select

/-- Fragments of a DER encoding: TOTAL, OFFSET and up to 4,032 bytes each. -/
def derFrags (der : Bytes) : List Bytes :=
  let ps := chunks 4032 der
  (List.range ps.length).map fun i => toBe 4 der.length ++ toBe 4 (4032 * i) ++ pad8 (ps.getD i [])

def bodyAttestReport (r : KReq) (s : State) : Ans :=
  let p := par r
  let sel := byteAt p 8
  let l := be p 10 2
  let named := (tenant r).getD l
  let seen := lastSecond s s.sec.signed
  checks s [(!oneFrag r || plen r != 48, St.badLength),
      (decide (3 < sel) || decide (1023 < l) || ((tenant r).isSome && l != 0) || !s.admitted named ||
        (sel != 0 && slice p 16 32 != zeros 32), St.badParam),
      (s.retiring named || (sel == 0 && decide (256 ≤ seen.length)), St.busy)] fun _ =>
    if sel ≠ 0 then done s (derFrags (certBytes s sel))
    else
      let der := reportBytes s named (slice p 16 32)
      let s := { s with sec := { s.sec with reports := s.sec.reports + 1, signed := seen ++ [s.now] } }
      done (s.count (gk 0x0A 3 0 0) 1) (derFrags der)

def execAttestReport (t : Time) (r : KReq) (s : State) : Host.Outcome State Fault Refusal := command 0x0B01 bodyAttestReport t r s

/-! ### GAUGE_SNAPSHOT (R440) -/

/-- At each boundary of 1 ms the gauges are kept as tenants will read them. -/
def gaugeSnapshot (s : State) : State := { s with sec := { s.sec with snapshot := s.gauges, snapAt := s.now } }

def execGaugeSnapshot (t : Time) (s : State) : Host.Outcome State Fault Refusal := .next (gaugeSnapshot (s.tick t))

end Sys2Proof.Machine
end

