-- ==== Sys2Proof/Machine/Firmware.lean ====
section
/-! DEFINITION. Images, settings copies, staging, activation and trials (16 R502–R511). -/

namespace Sys2Proof.Machine

/-! ### Staging (R507) -/

/-- Size of a staging buffer. -/
def stageSize (target : Nat) : Nat := if target = 0 then 12582912 else 2097152

/-- Bytes of a staging buffer. What was never staged reads 0xFF after CLEAR, and else what the memory held. -/
def stageRead (s : State) (target off n : Nat) : Bytes :=
  let m := if target = 0 then s.boot.stage0 else s.boot.stage1
  let clear := if target = 0 then s.boot.clear0 else s.boot.clear1
  (List.range n).map fun i => (Tab.get? m (off + i)).getD (if clear then 0xFF else Config.staleByte target (off + i))

/-- Put bytes into a staging buffer. -/
def stageWrite (target off : Nat) (bs : Bytes) (s : State) : State :=
  let put (m : Tab Byte) : Tab Byte := (List.range bs.length).foldl (fun m i => Tab.set m (off + i) (bs.getD i 0)) m
  if target = 0 then { s with boot := { s.boot with stage0 := put s.boot.stage0 } }
  else { s with boot := { s.boot with stage1 := put s.boot.stage1 } }

/-- Lose a staging buffer, or fill it with 0xFF. -/
def stageClear (target : Nat) (ff : Bool) (s : State) : State :=
  if target = 0 then { s with boot := { s.boot with stage0 := [], clear0 := ff } }
  else { s with boot := { s.boot with stage1 := [], clear1 := ff } }

/-- An activation of the target is under way (R514). -/
def activating (s : State) (target : Nat) : Bool := s.working fun w => w == .activate target

def bodyFwStage (r : KReq) (s : State) : Ans :=
  let p := par r
  let t := byteAt p 0
  let off := be p 4 4
  let len := plen r - 8
  checks s [(decide (plen r < 16) || decide (4048 < plen r) || plen r % 8 != 0, St.badLength),
      (decide (1 < t) || off % 8 != 0 || decide (stageSize t < off + len), St.badParam), (activating s t, St.busy)] fun _ =>
    let s := if bitOf (byteAt p 1) 0 then stageClear t true s else s
    done (stageWrite t off (p.drop 8) s)

def execFwStage (t : Time) (r : KReq) (s : State) : Host.Outcome State Fault Refusal := command 0x0B03 bodyFwStage t r s

/-! ### Images (R502, R503, R505) -/

/-- A staged image: its header fields, what it measures, and whether its header is well formed. -/
structure Image where
  comp : Nat
  ok : Bool
  svn : Nat
  version : Nat
  len : Nat
  pub : Bytes
  digest : Bytes
  sig : Bytes
  body : Bytes
deriving DecidableEq, Repr

/-- Largest BODY_LEN of a component: its region less header and signature. -/
def maxBody (comp : Nat) : Nat :=
  if comp = 1 then 1045248 else if comp = 2 then 9433856 else 2093824

/-- The image that starts at an offset of a staging buffer. -/
def stagedImage (s : State) (target off comp : Nat) : Image :=
  let h := stageRead s target off 2048
  let len := le h 20 4
  let ok := le h 0 4 == 0x48584657 && byteAt h 4 == comp && byteAt h 5 == 1 && len % 8 == 0 && decide (len ≤ maxBody comp)
  let n := if ok then len else 0
  let body := stageRead s target (off + 2048) n
  { comp := comp, ok := ok, svn := le h 8 4, version := le h 12 8, len := n, pub := slice h 32 1793,
    digest := Config.shake256 (h ++ body) 512, sig := stageRead s target (off + 2048 + n) 1280, body := body }

/-- The three images of the staged set. -/
def stagedSet (s : State) : List Image :=
  [stagedImage s 0 0 1, stagedImage s 0 0x100000 2, stagedImage s 0 0xA00000 3]

/-- The image is signed by Hexulcia's key (13 R425). -/
def Image.signed (x : Image) : Bool :=
  Config.shake256 x.pub 256 == Config.romKeyDigest && Config.falconVerify x.pub x.digest x.sig

/-- The SVN counter of a component (R501). -/
def svnCounter (s : State) (comp : Nat) : Nat :=
  if comp = 1 then s.boot.svnBoot else if comp = 2 then s.boot.svnMc else if comp = 3 then s.boot.svnTretu else s.boot.settingsCtr

/-- One record of a settings body: type, value, and the rest (R505). -/
def settingsRecord (b : Bytes) : Option (Nat × Bytes × Bytes) :=
  let n := le b 2 2
  if b.length < 4 + n then none else some (le b 0 2, slice b 4 n, b.drop (roundUp (4 + n) 8))

/-- A value of Table PRT-2 held little-endian in a settings copy, as a command carries it (00 R6). -/
def portRecord (v : Bytes) : Bytes := splice (splice v 14 (slice v 14 2).reverse) 16 (slice v 16 4).reverse

/-- A MODULE_EQ entry names a lane of the device. -/
def eqEntries (v : Bytes) : Option (Tab Bytes) :=
  if v.length % 8 ≠ 0 then none
  else
    let es := (chunks 8 v).map fun e => (le e 0 2, slice e 2 3)
    if es.any fun e => decide (511 < e.1) then none else some es

/-- The records of a settings body read one after the other; none where the copy is invalid. -/
def settingsBody (b : Bytes) (x : Settings) : Nat → Option Settings
  | 0 => none
  | n + 1 =>
    if b.isEmpty then some x
    else match settingsRecord b with
      | none => none
      | some (type, v, r) =>
        if type = 1 then
          if v.length ≠ 1793 ∨ x.operatorKey.isSome then none else settingsBody r { x with operatorKey := some v } n
        else if type = 2 then
          let g := byteAt v 0
          if v.length ≠ 32 ∨ g < 64 ∨ (portCfgs (portRecord v)).isNone ∨ (Tab.get? x.ctrl g).isSome then none
          else settingsBody r { x with ctrl := Tab.set x.ctrl g (portRecord v) } n
        else if type = 3 then
          match eqEntries v with
          | none => none
          | some es =>
            if es.any (fun e => (Tab.get? x.eq e.1).isSome) then none
            else settingsBody r { x with eq := es.foldl (fun t e => Tab.set t e.1 e.2) x.eq } n
        else none

/-- A staged settings copy as it would be held. -/
def stagedSettings (x : Image) : Option Settings :=
  settingsBody x.body ⟨x.svn, x.digest, none, [], [], true⟩ (x.body.length + 1)

/-! ### FW_ACTIVATE (R508) -/

/-- The slot an activation writes: the one that is not ACTIVE, and of two such the one that does not run. -/
def targetSlot (s : State) : Nat :=
  if s.boot.a.st = .active then 1 else if s.boot.b.st = .active then 0
  else if s.boot.mode = .normal ∧ s.boot.slot = 0 then 1 else 0

def slotSet (s : State) (i : Nat) : ImageSet := if i = 0 then s.boot.a else s.boot.b

def setSlotSet (i : Nat) (x : ImageSet) (s : State) : State :=
  if i = 0 then { s with boot := { s.boot with a := x } } else { s with boot := { s.boot with b := x } }

/-- A slot is in TRIAL. -/
def inTrial (s : State) : Bool := s.boot.a.st == .trial || s.boot.b.st == .trial

/-- The directory is written with the next generation (R500). -/
def dirWrite (s : State) : State := { s with boot := { s.boot with dirGen := s.boot.dirGen + 1 } }

/-- An IMAGE record. Outcomes: 1 signature, 2 rollback, 3 trial failed, 4 committed. -/
def imageRecord (comp slot svn outcome : Nat) (s : State) : State :=
  s.ledger 0x0022 (srcOf 0 0) (recBody [(32, 1, comp), (33, 1, slot), (36, 4, svn), (40, 1, outcome)])

/-- An image is refused: the event and the record of 13 R425 and R426. -/
def refuseImage (rollback : Bool) (slot : Nat) (x : Image) (s : State) : Ans :=
  let s := s.secEvent (if rollback then 2 else 1)
  refuse (imageRecord x.comp slot x.svn (if rollback then 2 else 1) s) St.badParam

/-- Checks 1 to 3 for an image set. -/
def activateSet (digest : Bytes) (s : State) : Ans :=
  let xs := stagedSet s
  let slot := targetSlot s
  if xs.any (fun x => !x.ok) || Config.shake256 (xs.flatMap (·.digest)) 512 != digest then refuse s St.badParam
  else match xs.find? fun x => !x.signed with
    | some x => refuseImage false slot x s
    | none =>
      match xs.find? fun x => decide (x.svn < svnCounter s x.comp) with
      | some x => refuseImage true slot x s
      | none =>
        if inTrial s || activating s 0 then refuse s St.busy
        else defer (dirWrite (setSlotSet slot ⟨.empty, [], [], []⟩ s)) (.activate 0)

/-- The settings copy an activation writes: the one not in force. -/
def targetCopy (s : State) : Nat := if s.boot.inForce = some 0 then 1 else 0

/-- Checks 1 to 3 for a settings copy. -/
def activateSettings (digest : Bytes) (s : State) : Ans :=
  let x := stagedImage s 1 0 4
  if !x.ok || x.digest != digest then refuse s St.badParam
  else if x.pub ≠ operatorKey s ∨ !Config.falconVerify x.pub x.digest x.sig then refuseImage false (targetCopy s) x s
  else if x.svn < s.boot.settingsCtr then refuseImage true (targetCopy s) x s
  else if x.svn = s.boot.settingsCtr ∨ (stagedSettings x).isNone then refuse s St.badParam
  else if activating s 1 then refuse s St.busy
  else defer s (.activate 1)

def bodyFwActivate (r : KReq) (s : State) : Ans :=
  let p := par r
  let t := byteAt p 0
  checks s [(plen r != 72, St.badLength), (decide (1 < t), St.badParam)] fun _ =>
    if t = 0 then activateSet (slice p 8 64) s else activateSettings (slice p 8 64) s

def execFwActivate (t : Time) (r : KReq) (s : State) : Host.Outcome State Fault Refusal := command 0x0B04 bodyFwActivate t r s

/-! ### The write and the trial (R509, R510) -/

/-- The controller and Tretu run the images of a slot: measurements 2 and 3, and a new DAK. -/
def loadSlot (i : Nat) (s : State) : State :=
  let x := slotSet s i
  let s := setMeasure 3 (x.svn.getD 2 0) (x.digest.getD 2 []) (setMeasure 2 (x.svn.getD 1 0) (x.digest.getD 1 []) s)
  { s with boot := { s.boot with slot := i, trialAt := none }, sec := { s.sec with dakGen := s.sec.dakGen + 1 } }

/-- IMAGE_WRITE_COMPLETE: the slot is in TRIAL and the controller resets into it; in RECOVERY the device restarts. -/
def imageWritten (s : State) : State :=
  if !activating s 0 || inTrial s then s
  else
    let i := targetSlot s
    let xs := stagedSet s
    let s := dirWrite (setSlotSet i ⟨.trial, xs.map (·.svn), xs.map (·.version), xs.map (·.digest)⟩ s)
    if s.boot.mode = .recovery then poweredOff (s.emit .silence) else mcReset 3 (loadSlot i s)

def execImageWriteComplete (t : Time) (s : State) : Host.Outcome State Fault Refusal := .next (imageWritten (s.tick t))

/-- The activation of a target ends: its staging buffer is lost and its final reply is due. -/
def activated (target status : Nat) (s : State) : State :=
  (stageClear target false s).workDone (fun w => w == .activate target) status []

/-- A trial commits: counters rise, the TRIAL slot becomes ACTIVE, the former ACTIVE slot FALLBACK or FAILED. -/
def commitTrial (s : State) : State :=
  let i := s.boot.slot
  let x := slotSet s i
  let y := slotSet s (1 - i)
  let n (k : Nat) : Nat := x.svn.getD k 0
  let s := { s with boot := { s.boot with
    svnBoot := max s.boot.svnBoot (n 0), svnMc := max s.boot.svnMc (n 1), svnTretu := max s.boot.svnTretu (n 2), trialAt := none } }
  let current := decide (s.boot.svnBoot ≤ y.svn.getD 0 0) && decide (s.boot.svnMc ≤ y.svn.getD 1 0) && decide (s.boot.svnTretu ≤ y.svn.getD 2 0)
  let y := if y.st = .active then { y with st := if current then .fallback else .failed } else y
  let s := dirWrite (setSlotSet (1 - i) y (setSlotSet i { x with st := .active } s))
  activated 0 St.ok (imageRecord 3 i (n 2) 4 (imageRecord 2 i (n 1) 4 (imageRecord 1 i (n 0) 4 s)))

/-- TRIAL_END: 60 s after the new controller's readiness. -/
def trialEnd (s : State) : State :=
  match s.boot.trialAt with
  | some t => if (runningSet s).st = .trial ∧ s.kry.ready ∧ t + sec 60 ≤ s.now then commitTrial s else s
  | none => s

def execTrialEnd (t : Time) (s : State) : Host.Outcome State Fault Refusal := .next (trialEnd (s.tick t))

/-- TRIAL_FAILURE: after a watchdog reset or a lockstep mismatch of a trial the ACTIVE slot is loaded again. -/
def trialFailure (cause : Nat) (s : State) : State :=
  if (cause ≠ 1 ∧ cause ≠ 2) ∨ (runningSet s).st ≠ .trial ∨ s.kry.ready then s
  else
    let i := s.boot.slot
    let x := slotSet s i
    let s := dirWrite (setSlotSet i { x with st := .failed } s)
    activated 0 St.internal (imageRecord 2 i (x.svn.getD 1 0) 3 (mcReset 4 (loadSlot (1 - i) s)))

def execTrialFailure (t : Time) (cause : Nat) (s : State) : Host.Outcome State Fault Refusal := .next (trialFailure cause (s.tick t))

/-- SETTINGS_WRITE_COMPLETE (R511): the copy and its counter; they take effect at the next power-on. -/
def settingsWritten (s : State) : State :=
  let x := stagedImage s 1 0 4
  if !activating s 1 then s
  else
    let s := if targetCopy s = 0 then { s with boot := { s.boot with c0 := stagedSettings x } }
      else { s with boot := { s.boot with c1 := stagedSettings x } }
    activated 1 St.ok { s with boot := { s.boot with settingsCtr := max s.boot.settingsCtr x.svn } }

def execSettingsWriteComplete (t : Time) (s : State) : Host.Outcome State Fault Refusal := .next (settingsWritten (s.tick t))

end Sys2Proof.Machine
end

