-- ==== Sys2Proof/Machine/Boot.lean ====
section
/-! DEFINITION. The power-on sequence and the beacon (16 R494–R498, R504–R506, R526). -/

namespace Sys2Proof.Machine

/-! ### Choosing a slot and a settings copy (R504) -/

/-- Order in which slots are tried: TRIAL, then ACTIVE, then FALLBACK. -/
def tryOrder (s : State) : List Nat :=
  ([SlotState.trial, .active, .fallback].map fun st => [0, 1].filter fun i => (slotSet s i).st == st).flatten

/-- Components of a slot whose SVN lies below its counter. -/
def rolledBack (s : State) (i : Nat) : List Nat :=
  [1, 2, 3].filter fun c => decide ((slotSet s i).svn.getD (c - 1) 0 < svnCounter s c)

/-- A slot fails: it is marked, with the event and the record of its image (13 R425, R426). -/
def failSlot (i : Nat) (sigOk : Bool) (s : State) : State :=
  let x := slotSet s i
  let s := dirWrite (setSlotSet i { x with st := .failed } s)
  if !sigOk then imageRecord 1 i (x.svn.getD 0 0) 1 (s.secEvent 1)
  else (rolledBack s i).foldl (fun s c => imageRecord c i (x.svn.getD (c - 1) 0) 2 s) (s.secEvent 2)

/-- The first bootable slot of those left to try, with every failing one marked. -/
def chooseSlot (f : PowerOnFacts) : List Nat → State → State × Option Nat
  | [], s => (s, none)
  | i :: r, s =>
    let sigOk := if i = 0 then f.slotAOk else f.slotBOk
    if sigOk && (rolledBack s i).isEmpty then (s, some i) else chooseSlot f r (failSlot i sigOk s)

/-- The settings copy in force: valid, at or above the counter, and of those the higher SVN. -/
def chooseSettings (f : PowerOnFacts) (s : State) : Option Nat :=
  let usable (c : Option Settings) (ok : Bool) : Option Nat :=
    match c with
    | some x => if ok && x.valid && decide (s.boot.settingsCtr ≤ x.svn) then some x.svn else none
    | none => none
  match usable s.boot.c0 f.settings0Ok, usable s.boot.c1 f.settings1Ok with
  | some a, some b => if b ≤ a then some 0 else some 1
  | some _, none => some 0
  | none, some _ => some 1
  | none, none => none

def settingsOf (s : State) (i : Option Nat) : Option Settings :=
  match i with
  | some 0 => s.boot.c0
  | some _ => s.boot.c1
  | none => none

/-- Put the chosen settings copy in force; a counter below its SVN is raised to it. -/
def applySettings (i : Option Nat) (s : State) : State :=
  let n := ((settingsOf s i).map (·.svn)).getD 0
  { s with boot := { s.boot with inForce := i, settingsCtr := max s.boot.settingsCtr n } }

/-! ### Control ports (R506) -/

/-- Control port `k` as its settings record or the built-in default configures it. -/
def controlPort (c : Option Settings) (k : Nat) : Nat × Port :=
  match (c.bind fun x => Tab.get? x.ctrl (64 + k)).bind portCfgs with
  | some [q] =>
    (512 + k, { st := if q.an then .negotiate else .train, mode := q.mode, medium := q.medium, an := q.an, txInvert := q.tx,
                rxInvert := q.rx, trainMs := q.trainMs, degrade := q.degrade })
  | some _ => (512 + k, {})
  | none => (512 + k, Port.controlDefault)

def controlPorts (c : Option Settings) : Tab Port := ((List.range 4).map (controlPort c)).filter fun e => e.2.mode != 0

/-! ### Measurements (13 R445) -/

/-- Measurements of a boot: the ROM, the images of the slot, the settings and the operator key in force. -/
def measureBoot (slot : Option Nat) (s : State) : State :=
  let x := (slot.map (slotSet s)).getD ⟨.empty, [], [], []⟩
  let image (k : Nat) : Nat × Bytes := (x.svn.getD k 0, x.digest.getD k [])
  let settings := ((settingsOf s s.boot.inForce).map (·.digest)).getD (Config.factoryDigest 4)
  { s with sec := { s.sec with
      measured := [(0, Config.romDigest), image 0, image 1, image 2, (s.boot.settingsCtr, settings),
        (0, Config.shake256 (operatorKey s) 512)],
      dakGen := s.sec.dakGen + 1 } }

/-! ### Training and self-test (R495, 01 R20, 17 R526) -/

/-- Bundles that failed the training of the culvert. -/
def trainCulvert (f : PowerOnFacts) (s : State) : State :=
  let s := { s with flt := { s.flt with ret01 := f.ret01, ret10 := f.ret10 } }
  let log (dir : Nat) (w : BitVec 16) (s : State) : State :=
    ((List.range 16).filter fun b => w.getLsbD b).foldl
      (fun s b => s.ledger 0x0010 (srcOf 0 0) (recBody [(32, 1, dir), (33, 1, b), (34, 1, 3)])) s
  log 1 f.ret10 (log 0 f.ret01 s)

/-- The ledger's SOURCE of a resource under test (17 Table HLT-1). -/
def testSource (kind id : Nat) : Nat :=
  if kind = 1 then srcOf 2 id else if kind = 2 then srcOf 5 (id / 2) else if kind = 3 then srcOf 4 id
  else if kind = 4 then srcOf 3 id else srcOf 0 0

/-- A TEST record (17 Table HLT-2): command 0 power-on, 1 SELFTEST, 2 CALIBRATE. -/
def testRecord (cmd kind id result action micros : Nat) (detail : Bytes) (s : State) : State :=
  s.ledger 0x0050 (testSource kind id) (recBody [(32, 1, cmd), (33, 1, kind), (34, 2, id), (36, 1, result), (37, 1, action),
    (40, 4, micros), (44, 8, le detail 0 8)])

/-- A half, pseudo-channel or lane is withdrawn, or a basin goes to full quarantine (17 R525). -/
def retireResource (kind id : Nat) (s : State) : State :=
  if kind = 1 then setQuar id .full 0 0 s
  else
    let s := s.ledger 0x0051 (testSource kind id) (recBody [(32, 1, kind), (34, 2, id), (37, 1, 3)])
    let s := (s.hltEvent 2).hltEvent 3
    let h := { s.hlt with totals := s.hlt.totals.set 3 (s.hlt.totals.getD 3 0 + 1) }
    let add (l : List Nat) : List Nat := if l.contains id then l else l ++ [id]
    { s with hlt :=
        if kind = 2 then { h with retiredHalves := add h.retiredHalves }
        else if kind = 3 then { h with retiredChannels := add h.retiredChannels }
        else { h with retiredLanes := add h.retiredLanes } }

/-- The resource is already held out by the ledger. -/
def heldOut (s : State) (kind id : Nat) : Bool :=
  if kind = 1 then (s.basin id).quar == .heldOut || (s.basin id).quar == .full
  else if kind = 2 then s.hlt.retiredHalves.contains id
  else if kind = 3 then s.hlt.retiredChannels.contains id else s.hlt.retiredLanes.contains id

/-- What the power-on self-test found failing. -/
def postFailures (f : PowerOnFacts) : List (Nat × Nat) :=
  f.failedBasins.map (fun b => (1, b)) ++ f.failedHalves.map (fun h => (2, h)) ++ f.failedChannels.map (fun c => (3, c)) ++
    f.failedLanes.map fun l => (4, l)

/-- More than 1/16 of the 2,097,152 ways of a directory cache fail (08 R255). -/
def tooManyWays (ways : Nat) : Bool := decide (131072 < ways)

/-- The power-on self-test: failures not held out already are retired; POST_PASS and the device's pass follow. -/
def selfTest (f : PowerOnFacts) (s : State) : State :=
  let fresh := (postFailures f).filter fun x => !heldOut s x.1 x.2
  let pass := fresh.isEmpty && !tooManyWays f.badWays
  let s := fresh.foldl (fun s x => retireResource x.1 x.2 (testRecord 0 x.1 x.2 2 (if x.1 = 1 then 1 else 2) 0 [] s)) s
  let s := testRecord 0 0 0 (if pass then 0 else 2) 0 0 [] s
  { s with boot := { s.boot with postPass := pass }, hlt := { s.hlt with devicePassed := pass } }

/-! ### The sequence (R494) -/

/-- Boot modes as POWER_ON records them. -/
def BootMode.code (m : BootMode) : Nat :=
  match m with
  | .normal => 0
  | .recovery => 1
  | .noIdentity => 2

/-- Body of the POWER_ON record (17 Table HLT-2). -/
def powerOnBody (s : State) : Bytes :=
  recBody ([(32, 1, s.boot.mode.code), (33, 1, s.boot.slot), (34, 2, s.sec.pufCorr.toNat), (36, 1, ofBool s.boot.postPass),
    (40, 4, s.hlt.lostAtReset)] ++ (List.range 5).map fun i => (44 + 4 * i, 4, s.hlt.totals.getD i 0))

/-- Body of a MARGIN record: what each die measures (17 Table HLT-2). -/
def marginBody (s : State) : Bytes :=
  let m (die off n : Nat) : Bytes := toLe n (Config.margin die off s.now)
  let one (die : Nat) : Bytes := m die 4 1 ++ m die 6 1 ++ m die 7 1 ++ zeros 1 ++ m die 0x1000 2 ++ m die 0x1002 2 ++ zeros 8
  one 0 ++ one 1 ++ m 0 0x1004 2 ++ m 0 0x1006 2

/-- The records with which a power-on ends. -/
def powerOnRecords (s : State) : State :=
  let s := (s.ledger 0x0001 (srcOf 0 0) (powerOnBody s)).ledger 0x0052 (srcOf 0 0) (marginBody s)
  { s with hlt := { s.hlt with lostAtReset := 0 } }

/-- The part as the boot ROM finds it: the time counter at zero, what the PUF gave, and the last reset's cause. -/
def wake (f : PowerOnFacts) (s : State) : State :=
  let s := poweredOff { s with now := 0 }
  { s with
    sec := { s.sec with
      pufOk := f.pufOk, pufMargin := !f.pufOk || decide (1024 < f.pufCorr),
      pufCorr := if f.pufOk then BitVec.ofNat 12 f.pufCorr else 0xFFF },
    pwr := { s.pwr with
      sample := ⟨0, 0, 0⟩, outAt := 0, lastOverRec := none,
      event := if s.pwr.resetCause = 3 then setBit s.pwr.event 4 else if s.pwr.resetCause = 0 then s.pwr.event else setBit s.pwr.event 3 } }

/-- Cause code of the beacon: 1 PUF, 2 counters, 3 directory. -/
def identityFault (f : PowerOnFacts) : Nat := if !f.pufOk then 1 else if !f.countersOk then 2 else if !f.dirOk then 3 else 0

/-- NO_IDENTITY (R497). -/
def bootNoIdentity (cause : Nat) (s : State) : State :=
  powerOnRecords { s with
    boot := { s.boot with mode := .noIdentity, beaconCause := cause }, ports := controlPorts none,
    hlt := { s.hlt with devicePassed := false }, kry := { s.kry with ready := false } }

/-- NORMAL or RECOVERY. -/
def bootIdentified (f : PowerOnFacts) (s : State) : State :=
  let s := { s with boot := { s.boot with bootCtr := s.boot.bootCtr + 1 } }
  let order := tryOrder s
  let (s, slot) := chooseSlot f order s
  let s := applySettings (chooseSettings f s) s
  let s := measureBoot slot { s with boot := { s.boot with
    mode := if slot.isSome then .normal else .recovery, slot := slot.getD 0, fallbackBoot := slot.isSome && slot != order.head? } }
  let s := trainCulvert f s
  let s := if slot.isSome then selfTest f s else { s with hlt := { s.hlt with devicePassed := false } }
  let s := { s with
    ports := controlPorts (settingsOf s s.boot.inForce),
    boot := { s.boot with trialAt := if slot.isSome && (runningSet s).st == .trial then some s.now else none } }
  powerOnRecords s

/-- POWER_ON: the sequence of Table BOT-1, from an input in its operating range to readiness. -/
def powerOn (f : PowerOnFacts) (s : State) : State :=
  if s.pwr.inReset || decide (f.mv < 11400) || decide (12600 < f.mv) then s
  else
    let s := wake f s
    if identityFault f = 0 then bootIdentified f s else bootNoIdentity (identityFault f) s

def execPowerOn (t : Time) (f : PowerOnFacts) (s : State) : Host.Outcome State Fault Refusal := .next (powerOn f (s.tick t))

/-! ### BEACON (R497) -/

/-- The payload of 46 bytes. -/
def beaconBytes (s : State) : Bytes :=
  toBe 4 hdwId ++ toBe 1 s.boot.beaconCause ++ toBe 2 s.sec.pufCorr.toNat ++ zeros 39

/-- In NO_IDENTITY each control port that is UP sends a beacon of 64 bytes once a second, from the port's own MAC (03 R552). -/
def beacon (port : Nat) (s : State) : State :=
  let due := (Tab.get? s.boot.lastBeacon port).elim true fun t => decide (t + sec 1 ≤ s.now)
  if s.boot.mode = .noIdentity ∧ 512 ≤ port ∧ port < 516 ∧ s.portUp port ∧ due then
    let s := { s with boot := { s.boot with lastBeacon := Tab.set s.boot.lastBeacon port s.now } }
    let (s', left) := s.controlSend port 64
    if left then s'.emit (.beacon port (s.portMac port) (beaconBytes s)) else s'
  else s

def execBeacon (t : Time) (port : Nat) (s : State) : Host.Outcome State Fault Refusal := .next (beacon port (s.tick t))

end Sys2Proof.Machine
end

