-- ==== Sys2Proof/Machine/Health.lean ====
section
/-! DEFINITION. Self-test and calibration in service, gauges as they are read, and the package test access port
(17 R522–R525, R530, 18 R544). -/

namespace Sys2Proof.Machine

/-! ### What a test needs (R522) -/

/-- The die of a resource. -/
def testDie (kind id : Nat) : Nat :=
  if kind = 1 then basinDie id else if kind = 2 then bankDie (id / 2) else if kind = 0 then 0 else if id < 256 then 0 else 1

/-- The resource exists (Table HLT-5). -/
def testExists (kind id : Nat) : Bool :=
  if kind = 0 then true else if kind = 1 then decide (id < 256) else if kind = 2 then decide (id < 32)
  else if kind = 3 ∨ kind = 4 then decide (id < 512) else false

/-- The fabric port a lane belongs to. -/
def lanePort (s : State) (lane : Nat) : Option Nat :=
  (s.ports.find? fun e => decide (e.1 < 512) && decide (e.1 ≤ lane) && decide (lane < e.1 + e.2.lanes)).map (·.1)

/-- Member ports of each group of the active version that has an entry. -/
def groupPortsOf (s : State) : List (List Nat) :=
  let st := s.stampNow
  let es := (s.table 5).entries (stampVer st 5)
  let gs := (es.map fun e => be e.key 0 2).eraseDups
  gs.map fun g => (es.filter fun e => be e.key 0 2 == g).filterMap fun e => (nextHop s st (be e.res 0 2)).map (·.1)

/-- Every group and tree of a port has another member UP. -/
def portSpare (s : State) (p : Nat) : Bool :=
  (groupPortsOf s ++ s.sw.trees.map fun e => e.2.map (·.port)).all fun l => !l.contains p || l.any fun q => q != p && s.portUp q

/-- Rows and quota moved to another tenant bank of the die with room for them, as one commit (12 R410). -/
def moveRows (bank : Nat) (s : State) : Option State :=
  let b := s.bank bank
  let ls := s.scr.quotas.filter fun e => e.2.1 == bank
  if b.rows.isEmpty ∧ ls.isEmpty then some s
  else
    let need := sumL (ls.map (·.2.2))
    let room (k : Nat) : Bool :=
      k != bank && isTenantBank k && bankDie k == bankDie bank && !(s.hlt.tests.any fun t => t.kind == 2 && t.id / 2 == k) &&
        decide (sumL ((s.scr.quotas.filter fun e => e.2.1 == k).map (·.2.2)) + need + (s.bank k).retired.length ≤ 32768)
    match (List.range 16).find? room with
    | none => none
    | some k =>
      let dst := s.bank k
      let s := (s.setBank bank { b with rows := [], queue := [] }).setBank k { dst with
        rows := b.rows.foldl (tenantInsert dst) dst.rows, queue := dst.queue ++ b.queue }
      let shift (e : Nat × Nat × Nat) : Nat × Nat × Nat := if e.2.1 = bank then (e.1, k, e.2.2) else e
      some (wakeNeeded k { s with scr := { s.scr with quotas := s.scr.quotas.map shift } })

/-- Take a port down for a test: reason RECONFIG, and it stays down (R523). -/
def testPortDown (p : Nat) (s : State) : State :=
  portDown p 6 .disabled (s.modPort p fun q => { q with testDown := true })

/-- Bring a port up again after a test. -/
def testPortUp (p : Nat) (s : State) : State :=
  s.modPort p fun q => if q.testDown then { q with testDown := false, st := q.restart, since := s.now } else q

/-- Re-home what uses the resource (Table HLT-5); none where that cannot be done. -/
def rehome (kind id : Nat) (s : State) : Option State :=
  if kind = 0 then some ((s.ports.filter fun e => e.1 < 512 && e.2.mode != 0).foldl (fun s e => testPortDown e.1 s) s)
  else if kind = 1 then
    moveSlots id s
  else if kind = 2 then
    if isTenantBank (id / 2) then moveRows (id / 2) s
    else some { s with scr := { s.scr with out := if s.scr.out.contains id then s.scr.out else s.scr.out ++ [id] } }
  else if kind = 3 then
    if s.hlt.retiredChannels.contains id ∨ s.cis.relocated.contains id then some s
    else if s.freeFrames (testDie 3 id) < 531 then none
    else some ({ s with cis := { s.cis with relocated := s.cis.relocated ++ [id] } }.count (gk 0x0D 2 1 (testDie 3 id)) 270810)
  else match lanePort s id with
    | none => some s
    | some p => if portSpare s p then some (testPortDown p s) else none

/-- The drained resource is idle: nothing of a basin runs. -/
def resourceIdle (s : State) (kind id : Nat) : Bool :=
  if kind != 1 then true
  else
    let x := s.basin id
    x.current.isNone && x.tagged.isEmpty && !x.replaying && x.check.isNone && (chainsOn s id).isEmpty

def State.modTest (s : State) (kind id : Nat) (f : Test → Test) : State :=
  { s with hlt := { s.hlt with tests := s.hlt.tests.map fun t => if t.kind = kind ∧ t.id = id then f t else t } }

/-- Re-homing is done or under way: the test begins. -/
def testBegin (kind id : Nat) (s : State) : State := s.modTest kind id fun t => { t with draining := false, started := s.now }

/-- SELFTEST and CALIBRATE (R522). -/
def bodyTest (cal : Bool) (r : KReq) (s : State) : Ans :=
  let p := par r
  let kind := byteAt p 0
  let flags := byteAt p 1 % 8
  let id := if kind = 0 then 0 else be p 2 2
  let same (t : Test) : Bool := t.kind == kind && testDie t.kind t.id == testDie kind id
  let t : Test := { kind := kind, id := id, flags := flags, cal := cal, started := s.now, draining := true }
  let begun (s : State) : State :=
    let s := { s with hlt := { s.hlt with tests := s.hlt.tests ++ [t] } }
    if kind = 1 then s.modBasin id fun x => { x with draining := true } else s
  checks s [(plen r != 8, St.badLength),
      (!testExists kind id || (kind == 0 && flags != 0) || (bitOf flags 1 && (cal || !heldOut s kind id)), St.badParam),
      ((kind == 0 && !s.sec.levees.isEmpty) || s.hlt.tests.any same || (kind == 1 && s.hlt.replay.elim false fun y => y.basin / 2 == id / 2), St.busy)] fun _ =>
    if bitOf flags 0 then
      match rehome kind id (testBegin kind id (begun s)) with
      | none => refuse s St.exhausted
      | some s => defer s (.test kind id)
    else defer (begun s) (.test kind id)

def bodySelftest (r : KReq) (s : State) : Ans := bodyTest false r s
def bodyCalibrate (r : KReq) (s : State) : Ans := bodyTest true r s

def execSelftest (t : Time) (r : KReq) (s : State) : Host.Outcome State Fault Refusal := command 0x0C01 bodySelftest t r s
def execCalibrate (t : Time) (r : KReq) (s : State) : Host.Outcome State Fault Refusal := command 0x0C02 bodyCalibrate t r s

/-! ### The end of a test (R523–R525) -/

def findTest (s : State) (kind id : Nat) : Option Test := s.hlt.tests.find? fun t => t.kind == kind && t.id == id

/-- The test is over: the resource is given back. -/
def giveBack (kind id : Nat) (s : State) : State :=
  let s := { s with hlt := { s.hlt with tests := s.hlt.tests.filter fun t => !(t.kind == kind && t.id == id) } }
  if kind = 0 then (s.ports.filter fun e => e.2.testDown).foldl (fun s e => testPortUp e.1 s) s
  else if kind = 1 then offIfDue id (s.modBasin id fun x => { x with draining := false, idleSince := s.now })
  else if kind = 2 then { s with scr := { s.scr with out := s.scr.out.filter fun h => h != id } }
  else if kind = 3 then { s with cis := { s.cis with relocated := s.cis.relocated.filter fun c => c != id } }
  else match lanePort s id with
    | some p => testPortUp p s
    | none => s

/-- DRAIN_WAIT_EXPIRY: the resource is idle, or 1 s has passed; a drain that then cannot be done ends the command. -/
def drainWaitExpiry (kind id : Nat) (s : State) : State :=
  match findTest s kind id with
  | none => s
  | some t =>
    let late := decide (t.started + sec 1 ≤ s.now)
    if !t.draining || !(late || resourceIdle s kind id) then s
    else match rehome kind id (testBegin kind id s) with
      | some s => s
      | none => if late then (giveBack kind id s).workDone (fun w => w == .test kind id) St.exhausted [] else s

def execDrainWaitExpiry (t : Time) (kind id : Nat) (s : State) : Host.Outcome State Fault Refusal :=
  .next (drainWaitExpiry kind id (s.tick t))

/-- A REINSTATE that passes returns the resource to service. -/
def reinstate (kind id : Nat) (s : State) : State :=
  if kind = 1 then
    (setQuar id .none 0 0 s).modBasin id fun x => { x with power := if x.power = .off then .clockGated else x.power, since := s.now }
  else
    let s := s.ledger 0x0051 (testSource kind id) (recBody [(32, 1, kind), (34, 2, id), (36, 1, 3)])
    let s := s.hltEvent 2
    let h := { s.hlt with totals := s.hlt.totals.set 3 (s.hlt.totals.getD 3 0 + 1) }
    let drop (l : List Nat) : List Nat := l.filter fun x => x != id
    { s with hlt :=
        if kind = 2 then { h with retiredHalves := drop h.retiredHalves }
        else if kind = 3 then { h with retiredChannels := drop h.retiredChannels }
        else { h with retiredLanes := drop h.retiredLanes } }

/-- The verdict of a test: ACTION and the state after it. -/
def verdict (t : Test) (result : Nat) (s : State) : Nat × State :=
  if result = 2 then
    let s := (s.hltEvent 1).count (gk 0x0D 1 2 t.kind) 1
    if t.kind = 0 ∨ (if t.kind = 1 then (s.basin t.id).quar == .full else heldOut s t.kind t.id) then (0, s)
    else (if t.kind = 1 then 1 else 2, retireResource t.kind t.id s)
  else if bitOf t.flags 1 then (3, reinstate t.kind t.id s)
  else if t.kind = 0 then (0, { s with hlt := { s.hlt with devicePassed := true } })
  else (0, s)

/-- The test has nothing more to wait for: a basin's slots have moved and its cross-checks have ended. -/
def testReady (s : State) (t : Test) : Bool := if t.kind = 1 then drained s t.id else true

/-- TEST_COMPLETE. A dip window that opened during the test discards its result and the test runs again (Table HLT-11). -/
def testComplete (kind id result : Nat) (detail : Bytes) (s : State) : State :=
  match findTest s kind id with
  | none => s
  | some t =>
    if t.draining || s.pwr.window || decide (2 < result) || !testReady s t then s
    else if t.rerun then s.modTest kind id fun t => { t with rerun := false, started := s.now }
    else
      let micros := (s.now - t.started) / us 1
      let s := s.count (gk 0x0D 1 (if t.cal then 1 else 0) kind) 1
      let (action, s) := verdict t result (giveBack kind id s)
      let s := testRecord (if t.cal then 2 else 1) kind id result action micros detail s
      s.workDone (fun w => w == .test kind id) St.ok
        [toBe 1 result ++ toBe 1 action ++ zeros 2 ++ toBe 4 micros ++ slice detail 0 8]

def execTestComplete (t : Time) (kind id result : Nat) (detail : Bytes) (s : State) : Host.Outcome State Fault Refusal :=
  .next (testComplete kind id result detail (s.tick t))

/-! ### GAUGES_READ (R530) -/

/-- Number of gauges of a row, by set and row (Tables SWC-10 to HLT-8). -/
def gaugeRow (set row : Nat) : Option Nat :=
  let sizes : List Nat :=
    match set with
    | 1 => [2, 3, 1, 2, 1, 3, 1]
    | 2 => [4, 1, 1, 1]
    | 3 => [4, 3, 4, 2]
    | 4 => [4, 4, 4, 2]
    | 5 => [4, 4, 3, 3]
    | 6 => [4, 2, 3, 3, 4]
    | 7 => [4, 4, 4, 2]
    | 8 => [4, 4, 4, 3, 2]
    | 9 => [2, 3, 5]
    | 10 => [1, 1, 2, 2]
    | 11 => [1, 3, 3, 1]
    | 12 => [4, 2, 1, 2]
    | 13 => [3, 3, 2, 3]
    | _ => []
  sizes[row]?

/-- The kinds of object a row is kept per, in the order written. -/
inductive GaugeObj where
  | port | pipe | cls | account | table | analysis | die | meter | levee | domain | basin | queue | group | bank | level | kind
deriving DecidableEq, Repr

def gaugeObjs (set row : Nat) : List GaugeObj :=
  match set, row with
  | 1, 0 => [.port]
  | 1, 1 => [.pipe]
  | 1, 2 => [.pipe, .account, .cls]
  | 1, 3 => [.port]
  | 1, 4 => [.table]
  | 1, 5 => [.die]
  | 1, 6 => [.analysis]
  | 2, 0 => [.meter, .die]
  | 2, 1 => [.port, .cls]
  | 2, 2 => [.port, .cls]
  | 2, 3 => [.die]
  | 3, 0 => [.levee, .die]
  | 3, 1 => [.levee, .die]
  | 3, _ => [.die]
  | 4, 3 => [.die]
  | 4, _ => [.levee, .die]
  | 5, 3 => [.die]
  | 5, _ => [.domain, .die]
  | 6, _ => [.basin]
  | 7, 3 => [.die]
  | 7, _ => [.queue]
  | 8, 4 => [.die]
  | 8, _ => [.group]
  | 9, 0 => [.die]
  | 9, 1 => [.levee, .die]
  | 9, 2 => [.bank]
  | 10, 0 => [.levee, .die]
  | 10, 1 => [.port]
  | 10, 2 => [.levee]
  | 10, 3 => [.die]
  | 11, 0 => [.port]
  | 11, 3 => [.levee, .die]
  | 12, 1 => [.die]
  | 12, 2 => [.level]
  | 13, 1 => [.kind]
  | 13, 2 => [.die]
  | _, _ => []

/-- An object exists (R530). -/
def objExists (s : State) (o : GaugeObj) (n : Nat) : Bool :=
  match o with
  | .port => decide (n < 516) && s.portExists n
  | .pipe => decide (n < 16)
  | .cls => decide (n < 8)
  | .account => decide (n < 512) || n == 0xFFFF
  | .table => decide (1 ≤ n) && decide (n ≤ 10)
  | .analysis => decide (n < 8)
  | .die => decide (n < 2)
  | .meter => decide (n < 8192)
  | .levee => decide (n < 1024) && s.admitted n
  | .domain => (Tab.get? s.coh.domains n).isSome
  | .basin => decide (n < 256)
  | .queue => (s.queue n).elim false fun q => !q.destroying
  | .group => (Tab.get? s.col.groups n).elim false fun g => !g.destroying
  | .bank => decide (n < 16)
  | .level => decide (1 ≤ n) && decide (n ≤ 5)
  | .kind => decide (n < 5)

/-- The levee an object belongs to; none for one that is no levee's, which a tenant never reads. -/
def objLevee (s : State) (o : GaugeObj) (n : Nat) : Option Nat :=
  match o with
  | .levee => some n
  | .meter => some (n / 8)
  | .domain => (Tab.get? s.coh.domains n).map (·.levee)
  | .queue => (s.queue n).map (·.levee)
  | .group => (Tab.get? s.col.groups n).map (·.levee)
  | _ => none

/-- Gauges in bytes among those a tenant reads; none of them counts ns (R440). -/
def byteGauge (k : GaugeKey) : Bool :=
  (k.set == 2 && k.row == 0 && decide (k.idx < 3)) || (k.set == 3 && k.row == 0 && decide (k.idx < 2)) || (k.set == 4 && k.row == 0 && decide (2 ≤ k.idx))

def quantised (k : GaugeKey) (v : Nat) : Nat := if byteGauge k then v / 65536 * 65536 else v / 64 * 64

/-- What a gauge has counted that is not in its stored value: time that has passed in the state a gauge in ns counts, and
MESH_SATURATED, which the mesh keeps. -/
def runningSpan (s : State) (k : GaugeKey) : Nat :=
  if k.set = 6 ∧ k.row = 0 ∧ k.idx = 3 then
    let x := s.basin k.a
    if x.power = .active then nsOf (s.now - x.since) else 0
  else if k.set = 6 ∧ k.row = 1 ∧ k.idx = 1 then
    let x := s.basin k.a
    if x.power = .powerGated then nsOf (s.now - x.since) else 0
  else if k.set = 2 ∧ k.row = 2 then shapedNow s k.a k.b
  else if k.set = 2 ∧ k.row = 3 then (s.meshDie k.a).satCount
  else if k.set = 0x0C ∧ k.row = 2 ∧ s.pwr.level = k.a then nsOf (s.now - s.pwr.lastStep)
  else if k.set = 0x0C ∧ k.row = 0 ∧ k.idx = 1 ∧ s.pwr.window then nsOf (s.now - s.pwr.warnedAt)
  else if k.set = 0x0C ∧ k.row = 0 ∧ k.idx = 3 ∧ s.pwr.window then nsOf (s.now - s.pwr.frozenAt)
  else 0

/-- An item of GAUGES_READ. -/
structure GaugeItem where
  set : Nat
  row : Nat
  objs : List Nat
deriving DecidableEq, Repr

def gaugeItem (p : Bytes) (i : Nat) : GaugeItem :=
  ⟨byteAt p (16 + 8 * i), byteAt p (17 + 8 * i), [be p (18 + 8 * i) 2, be p (20 + 8 * i) 2, be p (22 + 8 * i) 2]⟩

/-- Sets whose gauges a tenant may read at all, by row: kept per its own levee, queue, domain or group and visible to it. -/
def tenantRow (set row : Nat) : Bool :=
  match set with
  | 2 => row == 0
  | 3 => decide (row < 2)
  | 4 => decide (row < 3)
  | 5 => decide (row < 3)
  | 7 => decide (row < 3)
  | 8 => decide (row < 4)
  | 9 => row == 1
  | _ => false

/-- The item names a row and objects the caller may read. -/
def itemOk (s : State) (who : Option Nat) (g : GaugeItem) : Bool :=
  let os := gaugeObjs g.set g.row
  (gaugeRow g.set g.row).isSome &&
    (List.range 3).all (fun i => match os[i]? with
      | some o => objExists s o (g.objs.getD i 0)
      | none => g.objs.getD i 0 == 0) &&
    match who with
    | none => true
    | some l => tenantRow g.set g.row && (os.head?.bind fun o => objLevee s o (g.objs.getD 0 0)) == some l

/-- The value of one gauge for a caller. -/
def gaugeRead (s : State) (who : Option Nat) (k : GaugeKey) : Nat :=
  match who with
  | none => (gaugeVal s.gauges k + runningSpan s k) % 2 ^ 64
  | some _ => quantised k (gaugeVal s.sec.snapshot k)

/-- The values of an item, 8 bytes each. -/
def itemBytes (s : State) (who : Option Nat) (g : GaugeItem) : Bytes :=
  let key (i : Nat) : GaugeKey := gk g.set g.row i (g.objs.getD 0 0) (g.objs.getD 1 0) (g.objs.getD 2 0)
  (List.range ((gaugeRow g.set g.row).getD 0)).flatMap fun i => toBe 8 (gaugeRead s who (key i))

/-- Whole items packed into fragments of at most 4,032 bytes of values. -/
def packItems (items : List Bytes) : List (List Bytes) :=
  (items.foldl (fun a x => match a with
    | [] => [[x]]
    | c :: r => if (c.flatMap id).length + x.length ≤ 4032 then (c ++ [x]) :: r else [x] :: c :: r) []).reverse

def bodyGaugesRead (r : KReq) (s : State) : Ans :=
  let p := par r
  let n := be p 8 2
  let items := (List.range n).map (gaugeItem p)
  checks s [(!oneFrag r || decide (plen r < 24) || plen r != 16 + 8 * n, St.badLength),
      (n == 0 || decide (500 < n) || items.any (fun g => !itemOk s (tenant r) g), St.badParam)] fun _ =>
    done s ((packItems (items.map (itemBytes s (tenant r)))).map fun c => toBe 2 c.length ++ zeros 6 ++ c.flatMap id)

def execGaugesRead (t : Time) (r : KReq) (s : State) : Host.Outcome State Fault Refusal := command 0x0C03 bodyGaugesRead t r s

/-! ### TAP_OPERATION (18 R544) -/

/-- An instruction on the TAP lands: 1 IDCODE, 2 boundary scan, 3 continuity; any other code is BYPASS. What a scan senses
on the lands is no state of the part. -/
def tapOperation (instr : Nat) (s : State) : State :=
  if instr = 1 then s.emit (.tap (BitVec.ofNat 32 hdwId))
  else if (instr = 2 ∨ instr = 3) ∧ s.sec.dbg.getLsbD 1 then s.drawn.emit (.tap (BitVec.ofNat 32 s.peekFree))
  else s.emit (.tap 0)

def execTapOperation (t : Time) (instr : Nat) (s : State) : Host.Outcome State Fault Refusal := .next (tapOperation instr (s.tick t))

end Sys2Proof.Machine
end

