-- ==== Sys2Proof/Machine/Csr.lean ====
section
/-! DEFINITION. The control and status registers: the map of every register, access codes, and the register commands with
the levee guard (00 R10–R12, 02 R71–R76, 06 R209, 07 R228). -/

namespace Sys2Proof.Machine

/-! ### Reading registers -/

/-- Pack fields `(value, low bit)` into a word. -/
def word (fs : List (Nat × Nat)) : Nat := fs.foldl (fun a f => a + f.1 * 2 ^ f.2) 0

def SlotState.code (x : SlotState) : Nat :=
  match x with
  | .empty => 0
  | .failed => 1
  | .fallback => 2
  | .active => 3
  | .trial => 4

def LockState.code (x : LockState) : Nat :=
  match x with
  | .idle => 0
  | .loading => 1
  | .loaded => 2
  | .armed => 3
  | .admitted => 4
  | .aborted => 5

/-- HDW_LEASE (02 Table KCP-6). -/
def leaseWord (s : State) : Nat :=
  let l := s.kry.lease
  let remain := if l.st = .held then min 0xFFFFFF (ceilDiv (l.expiry - s.now) (ms 1)) else 0
  word [(l.st.code, 26), (l.port, 24), (remain, 0)]

/-- HDW_BOOT (16 Table BOT-5). -/
def bootWord (s : State) : Nat :=
  let b := s.boot
  word [(if b.mode = .recovery then 1 else 0, 31), (b.slot, 30), (b.a.st.code, 27), (b.b.st.code, 24), (b.inForce.getD 0, 23),
    (ofBool b.inForce.isNone, 22), (ofBool b.fallbackBoot, 21), (ofBool b.postPass, 20)]

/-- The HDW window below the fence entries (01 Table ARC-4, 02 Table KCP-6, 14 Table FLT-12, 16 Table BOT-5). -/
def readHdw (s : State) (a : Nat) : Nat :=
  if a = 0x00 then hdwId
  else if a = 0x40 then word [(s.flt.ret10.toNat, 16), (s.flt.ret01.toNat, 0)]
  else if a = 0x80 then leaseWord s
  else if a = 0x84 then s.kry.lease.term
  else if a = 0x88 then s.boot.termCtr
  else if a = 0x90 then
    let d := s.kry.drop
    word [(d.mal.toNat, 24), (d.auth.toNat, 16), (d.seq.toNat, 8), (d.rate.toNat, 0)]
  else if a = 0xC0 then word [(s.flt.portFenceUs.toNat, 16), (s.flt.silentCredits.toNat, 8), (s.flt.peerQueries.toNat, 4)]
  else if a = 0xC4 then word [(s.flt.fences.length, 14), ((s.flt.fences.filter fun e => e.2.auto).length, 0)]
  else if a = 0xC8 then word [(s.flt.lock.code, 29), (s.flt.lockTotal.toNat, 8), (s.flt.lockDone.toNat, 0)]
  else if a = 0xCC then s.flt.event.toNat
  else if a = 0x100 then bootWord s
  else if a = 0x104 then s.boot.bootCtr
  else 0

/-- A word of fence entry `i` (14 Table FLT-13). -/
def readFence (s : State) (i off : Nat) : Nat :=
  match Tab.get? s.flt.fences i with
  | none => 0
  | some f =>
    if off < 0x20 then be f.desc off 4
    else if off = 0x20 then word [(1, 31), (ofBool f.auto, 30)]
    else if off = 0x24 then f.time / 2 ^ 32
    else if off = 0x28 then f.time % 2 ^ 32
    else 0

/-- A register of port `n` (03 Tables PRT-7 to PRT-9). -/
def readPort (s : State) (n off : Nat) : Nat :=
  if 515 < n then 0
  else if off = 0 then (s.port n).linkWord s.now
  else if off = 4 then (s.port n).event.toNat
  else if off = 8 then (s.port n).wdWord
  else 0

/-- Switch-core registers: die `d`'s buffer registers, and the pod registers (04 Table SWC-6). -/
def readSwc (s : State) (d off : Nat) : Nat :=
  if off = 0 then s.rsvSize d
  else if off = 4 then s.rsvFree d
  else if off = 8 then s.gminSum d
  else if off = 0x0C then s.headroom d
  else if d = 0 ∧ off = 0x100 then word [(s.sw.podReorder.toNat, 8), (s.sw.switchId.toNat, 0)]
  else if d = 0 ∧ off = 0x104 then s.sw.retire.toNat
  else 0

/-- TRF_MESH of die `d` (05 Table TRF-6). -/
def readMesh (s : State) (d off : Nat) : Nat :=
  if off = 0 then word [(ofBool (s.meshDie d).sat, 12), (min (s.meshDie d).maxAge 0xFFF, 0)] else 0

/-- Word `k` of responder context `n` (key die × 4,096 + number) (06 Table MEM-12). -/
def readQpc (s : State) (n k : Nat) : Nat :=
  let c := Tab.getD s.mem.qpcs n {}
  if k = 0 then word [(ofBool c.valid, 31), (c.pmtu.toNat, 28), (c.qpn.toNat, 0)]
  else if k = 1 then c.peer.toNat
  else if k = 2 then c.epsn.toNat
  else if k = 3 then c.rkey.toNat
  else if k = 4 then c.levee.toNat
  else 0

/-- Bits of the generations of a decoding slot that satisfy a test. -/
def genBits (gs : List DecGen) (p : DecGen → Bool) : Nat := word ((gs.filter p).map fun g => (1, g.gen))

/-- Memory-transport and collective registers (06 Table MEM-14, 11 Table COL-9). -/
def readMem (s : State) (off : Nat) : Nat :=
  if off = 0 then word [(s.mem.phaseUs.toNat, 20), (s.mem.revokeUs.toNat, 10)]
  else if 0x100000 ≤ off ∧ off < 0x140000 then readQpc s ((off - 0x100000) / 0x20) (off % 0x20 / 4)
  else if off = 0x200000 then word [(ofBool s.col.force, 31), (s.col.cells.toNat, 0)]
  else if off = 0x200004 then word [(s.col.status.toNat, 29), (s.col.groups.length, 0)]
  else if 0x200100 ≤ off ∧ off < 0x200200 then
    match Tab.get? s.col.slots ((off - 0x200100) / 4) with
    | some (l, gs) => word [(genBits gs fun _ => true, 16), (l, 6)]
    | none => 0
  else if 0x200200 ≤ off ∧ off < 0x200300 then
    let k := (off - 0x200200) / 4
    match Tab.get? s.col.slots k with
    | some (_, gs) => word [(genBits gs (genUsed s k), 16), (genBits gs (·.held), 0)]
    | none => 0
  else 0

/-- The quotas of a die exceed what its frames allow (07 R229). -/
def oversub (s : State) (d : Nat) : Bool :=
  decide (s.usable d - levee0Frames s d < sumL ((s.cis.quota.filter fun e => e.1 / 1024 == d).map (·.2)))

/-- Cistern registers of die `d` (07 Table CIS-7). -/
def readCis (s : State) (d off : Nat) : Nat :=
  if off = 0 then word [(Tab.getD s.cis.flushUs d 0x3E8, 20), (Tab.getD s.cis.prefetchPct d 0x19, 13)]
  else if off = 4 then s.usable d
  else if off = 8 then s.freeFrames d
  else if off = 0x0C then word [(ofBool (oversub s d), 31), (ofBool (s.cis.poison.getLsbD d), 30)]
  else if 0x1004 ≤ off ∧ off < 0x2000 then s.quota d ((off - 0x1000) / 4)
  else if 0x2004 ≤ off ∧ off < 0x3000 then useTiles s d ((off - 0x2000) / 4)
  else 0

/-- Home die of a line key. -/
def lineDie (s : State) (k : Nat) : Nat := (s.allot (k / 2 ^ 36)).elim 0 (·.home)

/-- Coherence registers of die `d` (08 Table COH-10). -/
def readCoh (s : State) (d off : Nat) : Nat :=
  if off = 0 then word [(Tab.getD s.coh.retxUs d 0x14, 24), (Tab.getD s.coh.limit d 0x32, 16)]
  else if off = 4 then (s.coh.dir.filter fun e => lineDie s e.1 == d).length
  else if off = 8 then (s.coh.lost.filter fun k => lineDie s k == d).length
  else if off = 0x0C then word [((Tab.getD s.coh.status d 0).toNat, 29)]
  else 0

/-- Registers of basin `b` (09 Table BSN-10). -/
def readBsn (s : State) (b off : Nat) : Nat :=
  let x := s.basin b
  if 255 < b then 0
  else if off = 0 then word [(ofBool x.profEn, 31), (ofBool x.captureEn, 30), (x.idleCg.toNat, 16), (x.idlePg.toNat, 0)]
  else if off = 4 then
    word [(x.power.code, 29), (x.quar.code, 27), (ofBool s.pwr.window, 26), (ofBool (x.replaying && !s.pwr.window), 25),
      (min x.taint.length 511, 16), (x.load.toNat, 8), (min x.undo.length 64, 0)]
  else if off = 8 then x.interval
  else if off = 0x0C then word [(b ^^^ 0x20, 8), (b ^^^ 0x40, 0)]
  else if off = 0x10 then x.event.toNat
  else 0

/-- Screen registers of die `d` (12 Table SCR-10). -/
def readScr (s : State) (d off : Nat) : Nat :=
  if off = 0 then word [(Tab.getD s.scr.t1 d 0x55, 24), (Tab.getD s.scr.t2 d 0x5B, 16), (Tab.getD s.scr.t3 d 0x5F, 8)]
  else if off = 4 then word [(fwdBlocks s.scr.fwd, 16), (s.scr.fwd.length, 0)]
  else if off = 8 then (Tab.getD s.scr.event d 0).toNat
  else if 0x100 ≤ off ∧ off < 0x120 then
    let k := 8 * d + (off - 0x100) / 4
    let b := s.bank k
    let fwd := !isTenantBank k
    word [(b.step, 30), (b.power, 28), (ofBool fwd, 27), (b.temp, 16), (if fwd then s.scr.fwd.length else b.rows.length, 0)]
  else 0

/-- Security registers (13 Table SEC-10). -/
def readSec (s : State) (off : Nat) : Nat :=
  if off = 0 then
    word [(ofBool s.sec.pufOk, 31), (ofBool s.confActive, 30), (s.confCount, 20), (ofBool s.sec.pufMargin, 19), (s.sec.pufCorr.toNat, 0)]
  else if off = 4 then s.sec.dbg.toNat
  else if off = 8 then word [(s.sec.wdResets.toNat, 24), (0xFA, 0)]
  else if off = 0x10 then s.sec.event.toNat
  else 0

/-- Package power as any reading gives it (13 R439). -/
def powerReading (s : State) : Nat :=
  if s.confActive then Config.meanWatts s.boot.bootCtr (s.now / sec 1 - 1) / 25 * 25 else s.pwr.sample.watts

/-- Power registers (15 Table PWR-6). -/
def readPwr (s : State) (off : Nat) : Nat :=
  let p := s.pwr
  if off = 0 then
    word [(ofBool p.window, 31), (ofBool p.halved, 30), (ofBool p.lowInput, 29), (ofBool p.window, 28), (p.level, 25), (p.cause.toNat, 22),
      (p.sample.tmax % 256, 0)]
  else if off = 4 then p.limitW.toNat
  else if off = 8 then word [(p.sample.mv % 65536, 16), (powerReading s % 65536, 0)]
  else if off = 0x0C then word [(p.dipMin.toNat, 20), (p.dipDur.toNat, 0)]
  else if off = 0x10 then p.event.toNat
  else 0

/-- Health registers (17 Table HLT-10). -/
def readHlt (s : State) (off : Nat) : Nat :=
  let h := s.hlt
  if off = 0 then word [(ofBool (decide (32768 ≤ h.perm.length)), 31), (h.buf.length, 16), (h.dropped.toNat, 0)]
  else if off = 0x10 then word [(h.quarCount.toNat, 28), (h.quarHours.toNat, 16), (h.tfloor.toNat, 8), (h.holdMs.toNat, 0)]
  else if off = 0x18 then h.event.toNat
  else if 0x1000 ≤ off ∧ off < 0x1800 then
    let c := (off - 0x1000) / 4
    if h.retiredChannels.contains c ∨ s.cis.relocated.contains c then 0x100 else c % 256
  else 0

/-- The register at an address; a word of a window that holds no register reads zero (02 R71, 01 Table ARC-3). -/
def readReg (s : State) (a : Nat) : Nat :=
  let off := a % 2 ^ 24
  let d := off / 0x800000
  let lo := off % 0x800000
  match a / 2 ^ 24 with
  | 0 => if a < 0x100000 then readHdw s a else if a < 0x180000 then readFence s ((a - 0x100000) / 64) (a % 64) else 0
  | 1 => readPort s (off / 0x1000) (off % 0x1000)
  | 2 => readSwc s d lo
  | 3 => readMesh s d lo
  | 4 => readMem s off
  | 5 => readCis s d lo
  | 6 => readCoh s d lo
  | 7 => readBsn s (off / 0x10000) (off % 0x10000)
  | 8 => readScr s d lo
  | 9 => readSec s off
  | 10 => readPwr s off
  | 11 => readHlt s off
  | 12 => if off = 0 then word [(ofBool s.hlt.arm.isSome, 31), (genHeld s, 0)] else 0
  | _ => 0
where
  /-- Capture slots that hold a capture. -/
  genHeld (s : State) : Nat := word (s.hlt.captures.map fun e => (1, e.1))

/-! ### Writing registers (00 R10–R12) -/

/-- A value written under a mask: masked bits take the new value, the rest the old one. -/
def merged (old mask v : Nat) : Nat := (old &&& (0xFFFFFFFF ^^^ mask)) ||| (v &&& mask)

/-- A W1C field after a write: bits written 1 under the mask are cleared. -/
def w1c {w : Nat} (old : BitVec w) (ones : Nat) : BitVec w := old &&& ~~~ BitVec.ofNat w ones

/-- The register at an address is one of W1C bits, the registers that `State.mark` names. -/
def isW1c (a : Nat) : Bool :=
  let off := a % 2 ^ 24
  let lo := off % 0x800000
  match a / 2 ^ 24 with
  | 0 => a == 0xCC
  | 1 => off % 0x1000 == 4
  | 3 => lo == 0
  | 4 => off == 0x200004
  | 5 | 6 => lo == 0x0C
  | 7 => off % 0x10000 == 0x10
  | 8 => lo == 8
  | 9 | 10 => off == 0x10
  | 11 => off == 0x18
  | _ => false

/-- A write to a register of the HDW window. -/
def writeHdw (a mask v : Nat) (s : State) : State :=
  if a = 0xC0 then
    let n := merged (readHdw s a) mask v
    { s with flt := { s.flt with
        portFenceUs := BitVec.ofNat 16 (n / 2 ^ 16), silentCredits := BitVec.ofNat 8 (n / 2 ^ 8), peerQueries := BitVec.ofNat 4 (n / 2 ^ 4) } }
  else if a = 0xCC then { s with flt := { s.flt with event := w1c s.flt.event ((mask &&& v) % 32) } }
  else s

/-- PRT_EVENT is W1C, its reserved bits apart. -/
def writePort (n off mask v : Nat) (s : State) : State :=
  if off = 4 ∧ n ≤ 515 ∧ (Tab.get? s.ports n).isSome then
    s.modPort n fun q => { q with event := w1c q.event (mask &&& v) }
  else s

def writeSwc (d off mask v : Nat) (s : State) : State :=
  if d = 0 ∧ off = 0x100 then
    let n := merged (readSwc s 0 off) mask v
    { s with sw := { s.sw with podReorder := BitVec.ofNat 8 (n / 2 ^ 8), switchId := BitVec.ofNat 7 n } }
  else if d = 0 ∧ off = 0x104 then
    { s with sw := { s.sw with retire := BitVec.ofNat 10 (merged (readSwc s 0 off) mask v) } }
  else s

def writeMesh (d off mask v : Nat) (s : State) : State :=
  if off = 0 ∧ bitOf (mask &&& v) 12 ∧ !((s.meshDie d).sat && (s.meshDie d).satAt == s.now) then
    { s with mesh := Tab.set s.mesh d { s.meshDie d with sat := false } }
  else s

/-- A word of a responder context. A context that is rewritten leaves the error state and forgets its atomics (06 R208). -/
def writeQpc (n k mask v : Nat) (s : State) : State :=
  let c := { Tab.getD s.mem.qpcs n {} with err := false, atomics := [] }
  let w := merged (readQpc s n k) mask v
  let c : Qpc :=
    if k = 0 then { c with valid := bitOf w 31, pmtu := BitVec.ofNat 3 (w / 2 ^ 28), qpn := BitVec.ofNat 24 w }
    else if k = 1 then { c with peer := BitVec.ofNat 24 w }
    else if k = 2 then { c with epsn := BitVec.ofNat 24 w }
    else if k = 3 then { c with rkey := BitVec.ofNat 32 w }
    else { c with levee := BitVec.ofNat 10 w }
  if 4 < k then s else { s with mem := { s.mem with qpcs := Tab.set s.mem.qpcs n c } }

def writeMem (off mask v : Nat) (s : State) : State :=
  if off = 0 then
    let n := merged (readMem s off) mask v
    { s with mem := { s.mem with phaseUs := BitVec.ofNat 12 (n / 2 ^ 20), revokeUs := BitVec.ofNat 10 (n / 2 ^ 10) } }
  else if 0x100000 ≤ off ∧ off < 0x140000 then writeQpc ((off - 0x100000) / 0x20) (off % 0x20 / 4) mask v s
  else if off = 0x200000 then
    let n := merged (readMem s off) mask v
    { s with col := { s.col with force := bitOf n 31, cells := BitVec.ofNat 19 n } }
  else if off = 0x200004 then { s with col := { s.col with status := w1c s.col.status ((mask &&& v) / 2 ^ 29) } }
  else s

/-- CIS_QUOTA of a levee: lowered below the use, the excess evictable pages go (07 R228). -/
def writeQuota (d l n : Nat) (s : State) : State :=
  let s := { s with cis := { s.cis with quota := if n = 0 then Tab.del s.cis.quota (d * 1024 + l) else Tab.set s.cis.quota (d * 1024 + l) n } }
  quotaLowered d l s.cis.pages.length s

def writeCis (d off mask v : Nat) (s : State) : State :=
  let n := merged (readCis s d off) mask v
  if off = 0 then
    { s with cis := { s.cis with
        flushUs := Tab.set s.cis.flushUs d (n / 2 ^ 20), prefetchPct := Tab.set s.cis.prefetchPct d (n / 2 ^ 13 % 128) } }
  else if off = 0x0C then
    if bitOf (mask &&& v) 30 then { s with cis := { s.cis with poison := clearBit s.cis.poison d } } else s
  else if 0x1004 ≤ off ∧ off < 0x2000 then writeQuota d ((off - 0x1000) / 4) (n % 2 ^ 18) s
  else s

def writeCoh (d off mask v : Nat) (s : State) : State :=
  if off = 0 then
    let n := merged (readCoh s d off) mask v
    { s with coh := { s.coh with
        retxUs := Tab.set s.coh.retxUs d (n / 2 ^ 24), limit := Tab.set s.coh.limit d (n / 2 ^ 16 % 256) } }
  else if off = 0x0C then
    { s with coh := { s.coh with status := Tab.set s.coh.status d (w1c (Tab.getD s.coh.status d 0) ((mask &&& v) / 2 ^ 29)) } }
  else s

def writeBsn (b off mask v : Nat) (s : State) : State :=
  if 255 < b then s
  else if off = 0 then
    let n := merged (readBsn s b off) mask v
    s.modBasin b fun x => { x with
      profEn := bitOf n 31, captureEn := bitOf n 30, idleCg := BitVec.ofNat 8 (n / 2 ^ 16), idlePg := BitVec.ofNat 16 n }
  else if off = 0x10 then s.modBasin b fun x => { x with event := w1c x.event (mask &&& v) }
  else s

def writeScr (d off mask v : Nat) (s : State) : State :=
  if off = 0 then
    let n := merged (readScr s d off) mask v
    { s with scr := { s.scr with
        t1 := Tab.set s.scr.t1 d (n / 2 ^ 24), t2 := Tab.set s.scr.t2 d (n / 2 ^ 16 % 256), t3 := Tab.set s.scr.t3 d (n / 2 ^ 8 % 256) } }
  else if off = 8 then
    { s with scr := { s.scr with event := Tab.set s.scr.event d (w1c (Tab.getD s.scr.event d 0) (mask &&& v)) } }
  else s

def writeSec (off mask v : Nat) (s : State) : State :=
  if off = 4 then { s with sec := { s.sec with dbg := BitVec.ofNat 4 (merged (readSec s off) mask v) } }
  else if off = 0x10 then { s with sec := { s.sec with event := w1c s.sec.event (mask &&& v) } }
  else s

def writePwr (off mask v : Nat) (s : State) : State :=
  if off = 4 then { s with pwr := { s.pwr with limitW := BitVec.ofNat 12 (merged (readPwr s off) mask v) } }
  else if off = 0x10 then { s with pwr := { s.pwr with event := w1c s.pwr.event (mask &&& v) } }
  else s

def writeHlt (off mask v : Nat) (s : State) : State :=
  if off = 0x10 then
    let n := merged (readHlt s off) mask v
    { s with hlt := { s.hlt with
        quarCount := BitVec.ofNat 4 (n / 2 ^ 28), quarHours := BitVec.ofNat 12 (n / 2 ^ 16), tfloor := BitVec.ofNat 8 (n / 2 ^ 8),
        holdMs := BitVec.ofNat 8 n } }
  else if off = 0x18 then { s with hlt := { s.hlt with event := w1c s.hlt.event (mask &&& v) } }
  else s

/-- One register written: address, mask, value. Fields that are RO are left as they are; a W1C bit that the device sets at
this very instant stays set (00 R12). -/
def writeReg (s : State) (w : Nat × Nat × Nat) : State :=
  let (a, given, v) := w
  let mask := if isW1c a then given &&& (0xFFFFFFFF ^^^ heldBits s a) else given
  let off := a % 2 ^ 24
  let d := off / 0x800000
  let lo := off % 0x800000
  match a / 2 ^ 24 with
  | 0 => writeHdw a mask v s
  | 1 => writePort (off / 0x1000) (off % 0x1000) mask v s
  | 2 => writeSwc d lo mask v s
  | 3 => writeMesh d lo mask v s
  | 4 => writeMem off mask v s
  | 5 => writeCis d lo mask v s
  | 6 => writeCoh d lo mask v s
  | 7 => writeBsn (off / 0x10000) (off % 0x10000) mask v s
  | 8 => writeScr d lo mask v s
  | 9 => writeSec off mask v s
  | 10 => writePwr off mask v s
  | 11 => writeHlt off mask v s
  | _ => s

/-! ### The guard and the commands (02 R71–R75, R78) -/

/-- A context that one of the writes touches and that is left VALID against the STEER entries (06 R209). -/
def brokenQpc (ws : List (Nat × Nat × Nat)) (s : State) : Bool :=
  let touched := ws.filterMap fun w =>
    if 0x04100000 ≤ w.1 ∧ w.1 < 0x04140000 ∧ (w.1 % 0x20) / 4 ≤ 4 then some ((w.1 - 0x04100000) / 0x20) else none
  let t := s.table 6
  let active := t.entries t.active
  let other := t.entries (1 - t.active)
  touched.any fun n => (Tab.getD s.mem.qpcs n {}).valid && !qpcSupported active other (Tab.getD s.mem.qpcs n {})

/-- Apply register writes all or nothing. -/
def guardedWrite (r : KReq) (ws : List (Nat × Nat × Nat)) (frags : List Bytes) (s : State) : Ans :=
  let t := ws.foldl writeReg s
  if brokenQpc ws t then guardReject s r 0 1
  else if s.confActive && ws.any setsDebug then guardReject s r 0 8 else done t frags

/-- The range of a register command: aligned, and below 0x0D00_0000. -/
def badRange (a n : Nat) : Bool := a % 4 != 0 || decide (0x0D000000 < a + 4 * n)

def bodyReadCsr (r : KReq) (s : State) : Ans :=
  let p := par r
  let a := be p 0 4
  let n := be p 4 2
  checks s [(plen r != 8, St.badLength), (n == 0 || decide (1012 < n) || badRange a n, St.badParam)] fun _ =>
    done s [(List.range n).flatMap fun i => toBe 4 (readReg s (a + 4 * i))]

def bodyWriteCsr (r : KReq) (s : State) : Ans :=
  let p := par r
  let n := be p 4 2
  checks s [(plen r != 8 + roundUp (4 * n) 8, St.badLength),
      (n == 0 || decide (1010 < n) || badRange (be p 0 4) n, St.badParam)] fun _ => guardedWrite r (csrWrites r) [] s

def bodyWriteCsrMasked (r : KReq) (s : State) : Ans :=
  let a := be (par r) 0 4
  checks s [(plen r != 16, St.badLength), (badRange a 1, St.badParam)] fun _ =>
    guardedWrite r (csrWrites r) [toBe 4 (readReg s a) ++ zeros 4] s

def execReadCsr (t : Time) (r : KReq) (s : State) : Host.Outcome State Fault Refusal := command 0x0102 bodyReadCsr t r s
def execWriteCsr (t : Time) (r : KReq) (s : State) : Host.Outcome State Fault Refusal := command 0x0103 bodyWriteCsr t r s
def execWriteCsrMasked (t : Time) (r : KReq) (s : State) : Host.Outcome State Fault Refusal := command 0x0104 bodyWriteCsrMasked t r s

/-- CIS_QUOTA_WRITE and RESPONDER_CONTEXT_WRITE are register writes that happen to name those registers: WRITE_CSR, or
WRITE_CSR_MASKED where the packet carries that opcode. -/
def registerWrite (t : Time) (r : KReq) (s : State) : Host.Outcome State Fault Refusal :=
  if r.opcode = 0x0104 then command 0x0104 bodyWriteCsrMasked t r s else command 0x0103 bodyWriteCsr t r s

def execCisQuotaWrite (t : Time) (r : KReq) (s : State) : Host.Outcome State Fault Refusal := registerWrite t r s
def execResponderContextWrite (t : Time) (r : KReq) (s : State) : Host.Outcome State Fault Refusal := registerWrite t r s

end Sys2Proof.Machine
end

