-- ==== Sys2Proof/Machine/Commands.lean ====
section
/-! DEFINITION. Krytic packets from frame to command: parsing, keys, fragments, and the queues of the headworks
(02 R37–R52, R63). -/

namespace Sys2Proof.Machine

/-! ### The opcode table's bodies (02 Table KCP-9) -/

/-- The command of an opcode; the lease commands, ECHO and LEVEE_KEY_EXCHANGE's binding have their own ways in. -/
def bodyOf (op : Nat) : Body :=
  match op with
  | 0x0101 => bodyDeviceInfo
  | 0x0102 => bodyReadCsr
  | 0x0103 => bodyWriteCsr
  | 0x0104 => bodyWriteCsrMasked
  | 0x0120 => bodyLeveeAdmit
  | 0x0121 => bodyLeveeRetire
  | 0x0122 => bodyLeveeKeySet
  | 0x0130 => bodyFenceSet
  | 0x0131 => bodyFenceClear
  | 0x0140 => bodyLockLoad
  | 0x0141 => bodyLockAdmit
  | 0x0201 => bodyPortConfig
  | 0x0202 => bodyPortState
  | 0x0203 => bodyPortGauges
  | 0x0204 => bodyMacsecSaSet
  | 0x0205 => bodyPfcSet
  | 0x0301 => bodyTableWrite
  | 0x0302 => bodyTableFlip
  | 0x0303 => bodyTableStatus
  | 0x0304 => bodyMcastTreeSet
  | 0x0305 => bodyMirrorSet
  | 0x0401 => bodyMeterSet
  | 0x0402 => bodyShaperSet
  | 0x0403 => bodySchedSet
  | 0x0404 => bodyBufferSet
  | 0x0405 => bodyPrecolourSet
  | 0x0501 => bodyAllotCreate
  | 0x0502 => bodyRevoke
  | 0x0503 => bodyAllotQuery
  | 0x0504 => bodyWaterRightSet
  | 0x0505 => bodyTrayAttach
  | 0x0506 => bodyTrayDetach
  | 0x0507 => bodyTierHint
  | 0x0601 => bodyRegionCreate
  | 0x0602 => bodyRegionOpen
  | 0x0603 => bodyRegionClose
  | 0x0604 => bodyRegionPublish
  | 0x0605 => bodyRegionQuery
  | 0x0701 => bodyDomainCreate
  | 0x0702 => bodyAgentAdd
  | 0x0703 => bodyAgentDead
  | 0x0704 => bodyDomainModeSet
  | 0x0705 => bodyDomainQuery
  | 0x0801 => bodyFlumeQueueCreate
  | 0x0802 => bodyFlumeQueueDestroy
  | 0x0803 => bodyTurnAlloc
  | 0x0804 => bodyTurnSet
  | 0x0805 => bodyXcheckSet
  | 0x0806 => bodyBasinState
  | 0x0901 => bodyGroupCreate
  | 0x0902 => bodyGroupDestroy
  | 0x0903 => bodyDecodeTableLoad
  | 0x0904 => bodyExpertMapSet
  | 0x0905 => bodyResidualReset
  | 0x0A01 => bodyScreenWrite
  | 0x0A02 => bodyScreenDelete
  | 0x0A03 => bodyScreenSearch
  | 0x0A04 => bodyScreenQuotaSet
  | 0x0B01 => bodyAttestReport
  | 0x0B03 => bodyFwStage
  | 0x0B04 => bodyFwActivate
  | 0x0C01 => bodySelftest
  | 0x0C02 => bodyCalibrate
  | 0x0C03 => bodyGaugesRead
  | 0x0C04 => bodyLedgerRead
  | 0x0C05 => bodyMarginRead
  | 0x0D01 => bodyRecArm
  | 0x0D02 => bodyRecRead
  | 0x0D03 => bodyRecReplay
  | 0x0105 => bodyEcho
  | 0x0B02 => bodyRekey
  | _ => fun _ s => refuse s St.badOpcode

/-! ### Packets (R37–R42) -/

/-- The 100 Gbit/s of a die's control gateway: what its bucket has taken, in 1/48 byte, drained at 25 a tick (R40). -/
def gateway (f : Frame) (s : State) : Option State :=
  if 512 ≤ f.port then some s
  else
    let d := portDie f.port
    let (used, at_) := Tab.getD s.kry.linkUsed d (0, 0)
    let now := used - 25 * (s.now - at_)
    if 48 * Config.kryticDepth < now + 48 * f.len then none
    else some { s with kry := { s.kry with linkUsed := Tab.set s.kry.linkUsed d (now + 48 * f.len, s.now) } }

/-- The payload is a well-formed request of 48 + PLEN bytes (R41, R42, step 2). DESIGN CHOICE (assumption 91): R37 says
SEND; the model takes UD SEND only (BTH opcode 0x64), and SEND with immediate (0x65) is counted MAL. -/
def packetOk (f : Frame) : Bool :=
  let p := f.payload
  let n := be p 18 2
  (f.bth.elim false fun b => b.op == 0x64) && decide (48 ≤ p.length) && be p 0 2 == 0x4B59 && n % 8 == 0 && decide (n ≤ 4048) &&
    p.length == 48 + n && !bitOf (byteAt p 3) 0

/-- The packet's header and parameters, its class being its PCP, or 0 untagged (R39). -/
def parsePacket (f : Frame) : KReq :=
  let p := f.payload
  { port := f.port, net := f.net, cls := f.vlan.elim 0 (·.pcp), sess := .lease, version := byteAt p 2, urgent := bitOf (byteAt p 3) 2,
    more := bitOf (byteAt p 3) 1, opcode := be p 4 2, levee := be p 6 2 % 1024, term := be p 8 4, seq := be p 12 4, tag := be p 20 4,
    frags := [slice p 32 (be p 18 2)], seqs := [], hdr := slice p 0 32, auth := p.drop (p.length - 16) }

/-- Step 3: the session whose key the packet's tag passes under (R46). -/
def keySelect (r : KReq) (s : State) : Option Sess :=
  let passes (k : Option Key) : Bool := k.elim false fun k => tagOk k r
  if r.levee = 0 then
    if passes s.kry.lease.key then some .lease else if passes s.kry.lease.prevKey then some .preceding else none
  else if passes (Tab.get? s.kry.keys r.levee) then some (.levee r.levee) else none

/-! ### Fragments (R43, R44) -/

/-- A fragment that is faulty in itself. -/
def fragFaulty (r : KReq) : Bool :=
  let i := be (par r) 0 2
  let n := be (par r) 2 2
  decide (plen r < 8) || n == 0 || decide (16 < n) || decide (n ≤ i) || r.more != decide (i + 1 < n)

/-- The later of two sequences of a window. -/
def laterSeq (a b : Nat) : Nat := if winPos (some a) b == .above then b else a

/-- Discard a reassembly: BAD_LENGTH under the highest sequence received, cached for all of them. -/
def endReasm (x : Reasm) (more : List KReq) (s : State) : State :=
  match x.parts.map (·.2) ++ more with
  | [] => s
  | r :: rs =>
    let seqs := (r :: rs).map (·.seq)
    let high := seqs.foldl laterSeq r.seq
    let q := { r with seq := high, seqs := seqs.filter fun y => y != high }
    s.answer q (s.sessKey q.sess) St.badLength []

/-- Put a session's open reassemblies back. -/
def setReasm (x : Sess) (l : List Reasm) (s : State) : State := s.setSession x { s.session x with reasm := l }

/-- The command whose fragments are all in: parameters in index order, answered under the last fragment's SEQUENCE. -/
def assembled (x : Reasm) : Option KReq :=
  let parts := (List.range x.count).filterMap fun i => Tab.get? x.parts i
  parts.getLast?.map fun l => { l with
    frags := parts.map par, more := false, seqs := (parts.map (·.seq)).filter fun q => q != l.seq }

/-- A sound fragment joins its reassembly, opens one, or ends the one it disagrees with. -/
def joinReasm (r : KReq) (s : State) : State :=
  let i := be (par r) 0 2
  let n := be (par r) 2 2
  let l := (s.session r.sess).reasm
  let rest := l.filter fun x => x.tag != r.tag
  let go (x : Reasm) (s : State) : State :=
    if x.parts.length < n then setReasm r.sess (rest ++ [x]) s
    else
      let s := setReasm r.sess rest s
      match assembled x with
      | some q => judgePacket (bodyOf q.opcode) q s
      | none => s
  match l.find? fun x => x.tag == r.tag with
  | some x =>
    if x.opcode ≠ r.opcode ∨ x.count ≠ n ∨ (Tab.get? x.parts i).isSome then endReasm x [r] (setReasm r.sess rest s)
    else go { x with parts := Tab.set x.parts i r } s
  | none =>
    if 4 ≤ l.length then s.answer r (s.sessKey r.sess) St.badLength []
    else go ⟨r.tag, r.opcode, n, s.now, [(i, r)]⟩ s

/-- A packet of a fragmented opcode, from step 4 on. -/
def fragArrive (r : KReq) (s : State) : State :=
  let (s, go) := seqCheck r s
  if !go then s
  else match chkArrival r s with
    | some st => s.answer r (s.sessKey r.sess) st []
    | none => if fragFaulty r then s.answer r (s.sessKey r.sess) St.badLength [] else joinReasm r s

/-- FRAGMENT_REASSEMBLY_EXPIRY: 1 ms since the first fragment. -/
def reasmExpiry (x : Sess) (tag : Nat) (s : State) : State :=
  let l := (s.session x).reasm
  match l.find? fun y => y.tag == tag with
  | some y =>
    if y.opened + ms 1 ≤ s.now then endReasm y [] (setReasm x (l.filter fun z => z.tag != tag) s) else s
  | none => s

def execFragmentReassemblyExpiry (t : Time) (sess : Sess) (tag : Nat) (s : State) : Host.Outcome State Fault Refusal :=
  .next (reasmExpiry sess tag (s.tick t))

/-! ### From frame to command -/

/-- A packet that has passed step 3. DESIGN CHOICE (assumption 91): R43 speaks of MORE only on fragments; a packet of an
opcode that is not fragmented is served as whole, whatever its MORE. -/
def kryticServe (r : KReq) (s : State) : State :=
  if r.opcode = 0x0111 then arriveNow bodyLeaseRenew r s
  else if r.opcode = 0x0112 then arriveNow bodyLeaseRelease r s
  else if r.opcode = 0x0105 then echo r s
  else if (opInfo r.opcode).elim false (·.frag) then fragArrive r s
  else arrive (bodyOf r.opcode) r s

/-- A Krytic packet: steps 1 to 3 of Table KCP-3, and what its opcode makes of it. -/
def kryticFrame (f : Frame) (s : State) : State :=
  match gateway f s with
  | none => s.dropRate
  | some s =>
    if (f.bth.elim 0 (·.qkey)) ≠ 0x4B590001 ∨ !packetOk f then s.dropMal
    else
      let r := parsePacket f
      if s.confidential r.levee && (s.port f.port).rx.isEmpty then (s.count (gk 0x0A 1 0 f.port) 1).secEvent 5
      else if r.levee = 0 ∧ r.opcode = 0x0110 then leaseAcquire r s
      else if r.opcode = 0x0B02 ∧ s.confidential r.levee then keyExchange r s
      else match keySelect r s with
        | none => s.dropAuth
        | some x => kryticServe { r with sess := x } s

def execFrameReceive (t : Time) (f : Frame) (s : State) : Host.Outcome State Fault Refusal := .next (frameReceive kryticFrame f (s.tick t))

/-! ### The queues (R63) -/

/-- The first command that may begin: urgent ones first, none that an open dip window freezes. -/
def nextWaiting (s : State) : Option Waiting :=
  (s.kry.urgent ++ s.kry.normal).find? fun w => !s.frozen w.req.opcode

/-- Take a command out of its queue. -/
def unqueue (w : Waiting) (s : State) : State :=
  { s with kry := { s.kry with urgent := s.kry.urgent.erase w, normal := s.kry.normal.erase w } }

/-- A publication that no longer waits lets go of the requests it held, unless it has begun (07 R242). -/
def letGo (w : Waiting) (s : State) : State := if w.req.opcode = 0x0604 then settle s else s

/-- A waiting command begins: the repeated checks, then its body. One whose key is gone runs without a reply. -/
def beginCommand (w : Waiting) (s : State) : State :=
  let r := w.req
  let l := r.levee
  let current := w.key == s.sessKey r.sess
  let binding := r.opcode == 0x0B02 && !current && ((s.levee l).elim false fun x => w.key == some (kexKey l x (par r)))
  match w.key, binding with
  | some k, true => finish r (bodyBind k r s)
  | _, _ =>
    match chkBegin r s with
    | some st => finish r { refuse s st with silent := !current }
    | none =>
      let a := bodyOf r.opcode r s
      finish r { a with silent := a.silent || !current }

/-- COMMAND_BEGIN. -/
def commandBegin (s : State) : State :=
  if !s.canBegin then s
  else match nextWaiting s with
    | none => s
    | some w => letGo w (beginCommand w (unqueue w s))

def execCommandBegin (t : Time) (s : State) : Host.Outcome State Fault Refusal := .next (commandBegin (s.tick t))

/-- COMMAND_WAIT_EXPIRY: every command that has waited 100 ms is answered BUSY. -/
def waitExpiry (s : State) : State :=
  let old := (s.kry.urgent ++ s.kry.normal).filter fun w => decide (w.arrived + ms 100 ≤ s.now)
  old.foldl (fun s w =>
    let s := unqueue w s
    letGo w (if w.key = s.sessKey w.req.sess then s.answer w.req w.key St.busy []
      else if w.req.opcode = 0x0B02 then s.sendReply (mkReply w.req w.key St.busy []) else s)) s

def execCommandWaitExpiry (t : Time) (s : State) : Host.Outcome State Fault Refusal := .next (waitExpiry (s.tick t))

end Sys2Proof.Machine
end

