-- ==== Sys2Proof/Machine/Dispatch.lean ====
section
/-! DEFINITION. The dispatcher: one arm for each row of the opcode table, each one call of that row's meaning. -/

namespace Sys2Proof.Machine

def exec (i : Instr) (s : State) : Host.Outcome State Fault Refusal :=
  match i with
  | .deviceInfo t r => Sys2Proof.Machine.execDeviceInfo t r s
  | .readCsr t r => Sys2Proof.Machine.execReadCsr t r s
  | .writeCsr t r => Sys2Proof.Machine.execWriteCsr t r s
  | .writeCsrMasked t r => Sys2Proof.Machine.execWriteCsrMasked t r s
  | .echo t r => Sys2Proof.Machine.execEcho t r s
  | .leaseAcquire t r => Sys2Proof.Machine.execLeaseAcquire t r s
  | .leaseRenew t r => Sys2Proof.Machine.execLeaseRenew t r s
  | .leaseRelease t r => Sys2Proof.Machine.execLeaseRelease t r s
  | .leveeAdmit t r => Sys2Proof.Machine.execLeveeAdmit t r s
  | .leveeRetire t r => Sys2Proof.Machine.execLeveeRetire t r s
  | .leveeKeySet t r => Sys2Proof.Machine.execLeveeKeySet t r s
  | .fenceSet t r => Sys2Proof.Machine.execFenceSet t r s
  | .fenceClear t r => Sys2Proof.Machine.execFenceClear t r s
  | .lockLoad t r => Sys2Proof.Machine.execLockLoad t r s
  | .lockAdmit t r => Sys2Proof.Machine.execLockAdmit t r s
  | .portConfig t r => Sys2Proof.Machine.execPortConfig t r s
  | .portState t r => Sys2Proof.Machine.execPortState t r s
  | .portGauges t r => Sys2Proof.Machine.execPortGauges t r s
  | .macsecSaSet t r => Sys2Proof.Machine.execMacsecSaSet t r s
  | .pfcSet t r => Sys2Proof.Machine.execPfcSet t r s
  | .tableWrite t r => Sys2Proof.Machine.execTableWrite t r s
  | .tableFlip t r => Sys2Proof.Machine.execTableFlip t r s
  | .tableStatus t r => Sys2Proof.Machine.execTableStatus t r s
  | .mcastTreeSet t r => Sys2Proof.Machine.execMcastTreeSet t r s
  | .mirrorSet t r => Sys2Proof.Machine.execMirrorSet t r s
  | .meterSet t r => Sys2Proof.Machine.execMeterSet t r s
  | .shaperSet t r => Sys2Proof.Machine.execShaperSet t r s
  | .schedSet t r => Sys2Proof.Machine.execSchedSet t r s
  | .bufferSet t r => Sys2Proof.Machine.execBufferSet t r s
  | .precolourSet t r => Sys2Proof.Machine.execPrecolourSet t r s
  | .allotCreate t r => Sys2Proof.Machine.execAllotCreate t r s
  | .allotRevoke t r => Sys2Proof.Machine.execAllotRevoke t r s
  | .allotQuery t r => Sys2Proof.Machine.execAllotQuery t r s
  | .waterRightSet t r => Sys2Proof.Machine.execWaterRightSet t r s
  | .trayAttach t r => Sys2Proof.Machine.execTrayAttach t r s
  | .trayDetach t r => Sys2Proof.Machine.execTrayDetach t r s
  | .tierHint t r => Sys2Proof.Machine.execTierHint t r s
  | .regionCreate t r => Sys2Proof.Machine.execRegionCreate t r s
  | .regionOpen t r => Sys2Proof.Machine.execRegionOpen t r s
  | .regionClose t r => Sys2Proof.Machine.execRegionClose t r s
  | .regionPublish t r => Sys2Proof.Machine.execRegionPublish t r s
  | .regionQuery t r => Sys2Proof.Machine.execRegionQuery t r s
  | .domainCreate t r => Sys2Proof.Machine.execDomainCreate t r s
  | .agentAdd t r => Sys2Proof.Machine.execAgentAdd t r s
  | .agentDead t r => Sys2Proof.Machine.execAgentDead t r s
  | .domainModeSet t r => Sys2Proof.Machine.execDomainModeSet t r s
  | .domainQuery t r => Sys2Proof.Machine.execDomainQuery t r s
  | .flumeQueueCreate t r => Sys2Proof.Machine.execFlumeQueueCreate t r s
  | .flumeQueueDestroy t r => Sys2Proof.Machine.execFlumeQueueDestroy t r s
  | .turnAlloc t r => Sys2Proof.Machine.execTurnAlloc t r s
  | .turnSet t r => Sys2Proof.Machine.execTurnSet t r s
  | .xcheckSet t r => Sys2Proof.Machine.execXcheckSet t r s
  | .basinState t r => Sys2Proof.Machine.execBasinState t r s
  | .groupCreate t r => Sys2Proof.Machine.execGroupCreate t r s
  | .groupDestroy t r => Sys2Proof.Machine.execGroupDestroy t r s
  | .decodeTableLoad t r => Sys2Proof.Machine.execDecodeTableLoad t r s
  | .expertMapSet t r => Sys2Proof.Machine.execExpertMapSet t r s
  | .residualReset t r => Sys2Proof.Machine.execResidualReset t r s
  | .screenWrite t r => Sys2Proof.Machine.execScreenWrite t r s
  | .screenDelete t r => Sys2Proof.Machine.execScreenDelete t r s
  | .screenSearch t r => Sys2Proof.Machine.execScreenSearch t r s
  | .screenQuotaSet t r => Sys2Proof.Machine.execScreenQuotaSet t r s
  | .attestReport t r => Sys2Proof.Machine.execAttestReport t r s
  | .leveeKeyExchange t r => Sys2Proof.Machine.execLeveeKeyExchange t r s
  | .fwStage t r => Sys2Proof.Machine.execFwStage t r s
  | .fwActivate t r => Sys2Proof.Machine.execFwActivate t r s
  | .selftest t r => Sys2Proof.Machine.execSelftest t r s
  | .calibrate t r => Sys2Proof.Machine.execCalibrate t r s
  | .gaugesRead t r => Sys2Proof.Machine.execGaugesRead t r s
  | .ledgerRead t r => Sys2Proof.Machine.execLedgerRead t r s
  | .marginRead t r => Sys2Proof.Machine.execMarginRead t r s
  | .recArm t r => Sys2Proof.Machine.execRecArm t r s
  | .recRead t r => Sys2Proof.Machine.execRecRead t r s
  | .recReplay t r => Sys2Proof.Machine.execRecReplay t r s
  | .fragmentReassemblyExpiry t sess tag => Sys2Proof.Machine.execFragmentReassemblyExpiry t sess tag s
  | .commandWaitExpiry t => Sys2Proof.Machine.execCommandWaitExpiry t s
  | .commandBegin t => Sys2Proof.Machine.execCommandBegin t s
  | .leaseExpiry t => Sys2Proof.Machine.execLeaseExpiry t s
  | .mcReset t cause => Sys2Proof.Machine.execMcReset t cause s
  | .heartbeat t => Sys2Proof.Machine.execHeartbeat t s
  | .watchdogExpiry t => Sys2Proof.Machine.execWatchdogExpiry t s
  | .lockstepMismatch t => Sys2Proof.Machine.execLockstepMismatch t s
  | .controllerReady t => Sys2Proof.Machine.execControllerReady t s
  | .frameReceive t f => Sys2Proof.Machine.execFrameReceive t f s
  | .internalFrameEnqueue t f => Sys2Proof.Machine.execInternalFrameEnqueue t f s
  | .sprayCellReceive t f => Sys2Proof.Machine.execSprayCellReceive t f s
  | .reorderTimeout t src port cls => Sys2Proof.Machine.execReorderTimeout t src port cls s
  | .reorderContextIdle t src port cls => Sys2Proof.Machine.execReorderContextIdle t src port cls s
  | .divisionBoxCopy t pipe => Sys2Proof.Machine.execDivisionBoxCopy t pipe s
  | .schedulerRound t port => Sys2Proof.Machine.execSchedulerRound t port s
  | .frameTransmitEnd t port => Sys2Proof.Machine.execFrameTransmitEnd t port s
  | .pfcXon t port cls => Sys2Proof.Machine.execPfcXon t port cls s
  | .pfcRepeat t port cls => Sys2Proof.Machine.execPfcRepeat t port cls s
  | .pfcFrameReceive t port enable times => Sys2Proof.Machine.execPfcFrameReceive t port enable times s
  | .pauseExpiry t port cls => Sys2Proof.Machine.execPauseExpiry t port cls s
  | .pfcWatchdogTrip t port cls => Sys2Proof.Machine.execPfcWatchdogTrip t port cls s
  | .stuckClassRecovery t port cls => Sys2Proof.Machine.execStuckClassRecovery t port cls s
  | .linkNegotiated t port => Sys2Proof.Machine.execLinkNegotiated t port s
  | .trainingComplete t port => Sys2Proof.Machine.execTrainingComplete t port s
  | .trainTimeout t port => Sys2Proof.Machine.execTrainTimeout t port s
  | .trainingRetry t port => Sys2Proof.Machine.execTrainingRetry t port s
  | .linkUp t port => Sys2Proof.Machine.execLinkUp t port s
  | .lossOfSignal t port => Sys2Proof.Machine.execLossOfSignal t port s
  | .alignLost t port => Sys2Proof.Machine.execAlignLost t port s
  | .remoteFault t port => Sys2Proof.Machine.execRemoteFault t port s
  | .fecFail t port count => Sys2Proof.Machine.execFecFail t port count s
  | .fecDegrade t port symbols => Sys2Proof.Machine.execFecDegrade t port symbols s
  | .dampingElapsed t port => Sys2Proof.Machine.execDampingElapsed t port s
  | .dampingReset t port => Sys2Proof.Machine.execDampingReset t port s
  | .portDownDiscard t port => Sys2Proof.Machine.execPortDownDiscard t port s
  | .pinMemberFailover t port => Sys2Proof.Machine.execPinMemberFailover t port s
  | .pinMemberRestore t port => Sys2Proof.Machine.execPinMemberRestore t port s
  | .flipEffect t table => Sys2Proof.Machine.execFlipEffect t table s
  | .versionDrained t table => Sys2Proof.Machine.execVersionDrained t table s
  | .retireLimitExpiry t table => Sys2Proof.Machine.execRetireLimitExpiry t table s
  | .versionCopyComplete t table => Sys2Proof.Machine.execVersionCopyComplete t table s
  | .culvertFlitReplay t dir bundle => Sys2Proof.Machine.execCulvertFlitReplay t dir bundle s
  | .bundleRetirement t dir bundle cause => Sys2Proof.Machine.execBundleRetirement t dir bundle cause s
  | .culvertFailure t dir => Sys2Proof.Machine.execCulvertFailure t dir s
  | .pRead t r => Sys2Proof.Machine.execPRead t r s
  | .pWrite t r => Sys2Proof.Machine.execPWrite t r s
  | .pAtomic t r => Sys2Proof.Machine.execPAtomic t r s
  | .pCopy t r => Sys2Proof.Machine.execPCopy t r s
  | .rdmaWrite t r => Sys2Proof.Machine.execRdmaWrite t r s
  | .rdmaRead t r => Sys2Proof.Machine.execRdmaRead t r s
  | .rdmaAtomic t r => Sys2Proof.Machine.execRdmaAtomic t r s
  | .waterRightRelease t die levee host => Sys2Proof.Machine.execWaterRightRelease t die levee host s
  | .queueContextReclaim t die levee host queue => Sys2Proof.Machine.execQueueContextReclaim t die levee host queue s
  | .trayResponse t tray op data => Sys2Proof.Machine.execTrayResponse t tray op data s
  | .trayOperationTimeout t tray op => Sys2Proof.Machine.execTrayOperationTimeout t tray op s
  | .revokeDrainEnd t allot => Sys2Proof.Machine.execRevokeDrainEnd t allot s
  | .revokeTimeout t allot => Sys2Proof.Machine.execRevokeTimeout t allot s
  | .allotmentReleased t allot => Sys2Proof.Machine.execAllotmentReleased t allot s
  | .trayRangeZeroing t allot => Sys2Proof.Machine.execTrayRangeZeroing t allot s
  | .pPhase t die m => Sys2Proof.Machine.execPPhase t die m s
  | .pPhaseAck t die m => Sys2Proof.Machine.execPPhaseAck t die m s
  | .pOwnerQuery t die m => Sys2Proof.Machine.execPOwnerQuery t die m s
  | .pOwnerReply t die m => Sys2Proof.Machine.execPOwnerReply t die m s
  | .phaseDeadlineExpiry t die entry => Sys2Proof.Machine.execPhaseDeadlineExpiry t die entry s
  | .fillComplete t allot tile data => Sys2Proof.Machine.execFillComplete t allot tile data s
  | .writeBackDeadline t allot tile => Sys2Proof.Machine.execWriteBackDeadline t allot tile s
  | .writeBackComplete t allot tile => Sys2Proof.Machine.execWriteBackComplete t allot tile s
  | .coldCompression t allot page => Sys2Proof.Machine.execColdCompression t allot page s
  | .pageExpansion t allot page => Sys2Proof.Machine.execPageExpansion t allot page s
  | .prefetchComplete t allot page data => Sys2Proof.Machine.execPrefetchComplete t allot page data s
  | .quotaLowered t die levee => Sys2Proof.Machine.execQuotaLowered t die levee s
  | .hbmUncorrectable t allot tile => Sys2Proof.Machine.execHbmUncorrectable t allot tile s
  | .trayFailed t tray => Sys2Proof.Machine.execTrayFailed t tray s
  | .publishCommit t region => Sys2Proof.Machine.execPublishCommit t region s
  | .cRdShared t m => Sys2Proof.Machine.execCRdShared t m s
  | .cRdOwn t m => Sys2Proof.Machine.execCRdOwn t m s
  | .cUpgrade t m => Sys2Proof.Machine.execCUpgrade t m s
  | .cAtomic t m => Sys2Proof.Machine.execCAtomic t m s
  | .cWriteFull t m => Sys2Proof.Machine.execCWriteFull t m s
  | .cEvictClean t m => Sys2Proof.Machine.execCEvictClean t m s
  | .cWb t m => Sys2Proof.Machine.execCWb t m s
  | .cSnpData t m => Sys2Proof.Machine.execCSnpData t m s
  | .cSnpAck t m => Sys2Proof.Machine.execCSnpAck t m s
  | .snoopRetransmit t die snoop => Sys2Proof.Machine.execSnoopRetransmit t die snoop s
  | .holdWindowExpiry t die line => Sys2Proof.Machine.execHoldWindowExpiry t die line s
  | .memoryReadComplete t die line => Sys2Proof.Machine.execMemoryReadComplete t die line s
  | .flumePost t p => Sys2Proof.Machine.execFlumePost t p s
  | .chainTileFetch t chain => Sys2Proof.Machine.execChainTileFetch t chain s
  | .descriptorBegin t basin => Sys2Proof.Machine.execDescriptorBegin t basin s
  | .load t basin => Sys2Proof.Machine.execLoad t basin s
  | .store t basin => Sys2Proof.Machine.execStore t basin s
  | .reduce t basin => Sys2Proof.Machine.execReduce t basin s
  | .axpy t basin => Sys2Proof.Machine.execAxpy t basin s
  | .gemm t basin => Sys2Proof.Machine.execGemm t basin s
  | .gemv t basin => Sys2Proof.Machine.execGemv t basin s
  | .topk t basin => Sys2Proof.Machine.execTopk t basin s
  | .gather t basin => Sys2Proof.Machine.execGather t basin s
  | .scatter t basin => Sys2Proof.Machine.execScatter t basin s
  | .filter t basin => Sys2Proof.Machine.execFilter t basin s
  | .scan t basin => Sys2Proof.Machine.execScan t basin s
  | .quantise t basin => Sys2Proof.Machine.execQuantise t basin s
  | .dequantise t basin => Sys2Proof.Machine.execDequantise t basin s
  | .compress t basin => Sys2Proof.Machine.execCompress t basin s
  | .expand t basin => Sys2Proof.Machine.execExpand t basin s
  | .screenQuery t basin => Sys2Proof.Machine.execScreenQuery t basin s
  | .turnWait t basin => Sys2Proof.Machine.execTurnWait t basin s
  | .turnSignal t basin => Sys2Proof.Machine.execTurnSignal t basin s
  | .skip t basin => Sys2Proof.Machine.execSkip t basin s
  | .turnWaitSatisfied t chain => Sys2Proof.Machine.execTurnWaitSatisfied t chain s
  | .turnWaitTimeout t chain => Sys2Proof.Machine.execTurnWaitTimeout t chain s
  | .writeAcknowledged t chain => Sys2Proof.Machine.execWriteAcknowledged t chain s
  | .chainCompletion t chain => Sys2Proof.Machine.execChainCompletion t chain s
  | .posterContextReclaim t queue poster => Sys2Proof.Machine.execPosterContextReclaim t queue poster s
  | .slotMove t queue slot => Sys2Proof.Machine.execSlotMove t queue slot s
  | .windowReplay t basin => Sys2Proof.Machine.execWindowReplay t basin s
  | .xcheckCountdown t basin => Sys2Proof.Machine.execXcheckCountdown t basin s
  | .xcheckComplete t basin checking third => Sys2Proof.Machine.execXcheckComplete t basin checking third s
  | .xcheckAbandoned t basin => Sys2Proof.Machine.execXcheckAbandoned t basin s
  | .basinClockGate t basin => Sys2Proof.Machine.execBasinClockGate t basin s
  | .basinPowerGate t basin => Sys2Proof.Machine.execBasinPowerGate t basin s
  | .basinWake t basin => Sys2Proof.Machine.execBasinWake t basin s
  | .allReduce t p => Sys2Proof.Machine.execAllReduce t p s
  | .reduceScatter t p => Sys2Proof.Machine.execReduceScatter t p s
  | .allGather t p => Sys2Proof.Machine.execAllGather t p s
  | .broadcast t p => Sys2Proof.Machine.execBroadcast t p s
  | .dispatch t p => Sys2Proof.Machine.execDispatch t p s
  | .combine t p => Sys2Proof.Machine.execCombine t p s
  | .barrier t p => Sys2Proof.Machine.execBarrier t p s
  | .resend t p => Sys2Proof.Machine.execResend t p s
  | .blockComplete t group opseq block => Sys2Proof.Machine.execBlockComplete t group opseq block s
  | .stallCredit t group opseq => Sys2Proof.Machine.execStallCredit t group opseq s
  | .operationComplete t group opseq => Sys2Proof.Machine.execOperationComplete t group opseq s
  | .upstreamDone t p => Sys2Proof.Machine.execUpstreamDone t p s
  | .memberRemoval t group mem => Sys2Proof.Machine.execMemberRemoval t group mem s
  | .tenantSearch t bank => Sys2Proof.Machine.execTenantSearch t bank s
  | .screenCommit t => Sys2Proof.Machine.execScreenCommit t s
  | .desiltPass t bank row diff shadowBad => Sys2Proof.Machine.execDesiltPass t bank row diff shadowBad s
  | .bankClockGate t bank => Sys2Proof.Machine.execBankClockGate t bank s
  | .bankWake t bank => Sys2Proof.Machine.execBankWake t bank s
  | .bankThrottleChange t bank temp => Sys2Proof.Machine.execBankThrottleChange t bank temp s
  | .portFenceDelay t port => Sys2Proof.Machine.execPortFenceDelay t port s
  | .peerSilent t die entry => Sys2Proof.Machine.execPeerSilent t die entry s
  | .memberSilent t group mem => Sys2Proof.Machine.execMemberSilent t group mem s
  | .fenceRetry t => Sys2Proof.Machine.execFenceRetry t s
  | .fencedRequestCompletion t die => Sys2Proof.Machine.execFencedRequestCompletion t die s
  | .fenceNotice t => Sys2Proof.Machine.execFenceNotice t s
  | .fenceNoticeRepeat t => Sys2Proof.Machine.execFenceNoticeRepeat t s
  | .halt t cause => Sys2Proof.Machine.execHalt t cause s
  | .shardReadComplete t shard status data => Sys2Proof.Machine.execShardReadComplete t shard status data s
  | .partnerLost t => Sys2Proof.Machine.execPartnerLost t s
  | .admission t => Sys2Proof.Machine.execAdmission t s
  | .dipStart t p => Sys2Proof.Machine.execDipStart t p s
  | .dipRecovery t p => Sys2Proof.Machine.execDipRecovery t p s
  | .clockRestore t => Sys2Proof.Machine.execClockRestore t s
  | .dipWindowClose t => Sys2Proof.Machine.execDipWindowClose t s
  | .sustainedDip t => Sys2Proof.Machine.execSustainedDip t s
  | .lowInput t p => Sys2Proof.Machine.execLowInput t p s
  | .supplyReset t p => Sys2Proof.Machine.execSupplyReset t p s
  | .resetRelease t p => Sys2Proof.Machine.execResetRelease t p s
  | .droopStretch t die => Sys2Proof.Machine.execDroopStretch t die s
  | .droopInterval t die stretched => Sys2Proof.Machine.execDroopInterval t die stretched s
  | .throttleRaise t p => Sys2Proof.Machine.execThrottleRaise t p s
  | .throttleLower t p => Sys2Proof.Machine.execThrottleLower t p s
  | .level5 t p => Sys2Proof.Machine.execLevel5 t p s
  | .level5Exit t p => Sys2Proof.Machine.execLevel5Exit t p s
  | .thermalReset t p => Sys2Proof.Machine.execThermalReset t p s
  | .powerOn t f => Sys2Proof.Machine.execPowerOn t f s
  | .beacon t port => Sys2Proof.Machine.execBeacon t port s
  | .imageWriteComplete t => Sys2Proof.Machine.execImageWriteComplete t s
  | .trialEnd t => Sys2Proof.Machine.execTrialEnd t s
  | .trialFailure t cause => Sys2Proof.Machine.execTrialFailure t cause s
  | .settingsWriteComplete t => Sys2Proof.Machine.execSettingsWriteComplete t s
  | .ledgerEvent t e => Sys2Proof.Machine.execLedgerEvent t e s
  | .ledgerFlashWrite t => Sys2Proof.Machine.execLedgerFlashWrite t s
  | .marginRecord t body low => Sys2Proof.Machine.execMarginRecord t body low s
  | .testComplete t kind id result detail => Sys2Proof.Machine.execTestComplete t kind id result detail s
  | .drainWaitExpiry t kind id => Sys2Proof.Machine.execDrainWaitExpiry t kind id s
  | .holdOut t basin temp load => Sys2Proof.Machine.execHoldOut t basin temp load s
  | .holdOutEnd t basin temp => Sys2Proof.Machine.execHoldOutEnd t basin temp s
  | .capture t basin trigger => Sys2Proof.Machine.execCapture t basin trigger s
  | .replayComplete t runs mism temp crc => Sys2Proof.Machine.execReplayComplete t runs mism temp crc s
  | .cisQuotaWrite t r => Sys2Proof.Machine.execCisQuotaWrite t r s
  | .responderContextWrite t r => Sys2Proof.Machine.execResponderContextWrite t r s
  | .alignmentAcquired t port => Sys2Proof.Machine.execAlignmentAcquired t port s
  | .remoteFaultSignalChange t port on => Sys2Proof.Machine.execRemoteFaultSignalChange t port on s
  | .clockStretchEnd t die => Sys2Proof.Machine.execClockStretchEnd t die s
  | .slotCopyComplete t queue slot => Sys2Proof.Machine.execSlotCopyComplete t queue slot s
  | .upstreamResult t p => Sys2Proof.Machine.execUpstreamResult t p s
  | .upstreamCredit t p => Sys2Proof.Machine.execUpstreamCredit t p s
  | .formerKeyExpiry t levee => Sys2Proof.Machine.execFormerKeyExpiry t levee s
  | .gaugeSnapshot t => Sys2Proof.Machine.execGaugeSnapshot t s
  | .tapOperation t instr => Sys2Proof.Machine.execTapOperation t instr s

end Sys2Proof.Machine
end

