-- ==== Sys2Proof/Decode.lean ====
section
/-! DEFINITION. Commands spelt by words. The opcode table gives bits to none of its rows, so no word spells a command. -/

namespace Sys2Proof

/-- The command a word of the opcode table spells: none, since no row of the table has bits. -/
def decodeTableWord (_nbits _w : Nat) : Option Instr := none

end Sys2Proof
end

