-- ==== Sys2Proof/Machine/Tick.lean ====
section
/-! DEFINITION. What an empty queue does. -/

namespace Sys2Proof.Machine

/-- With nothing to do, one cycle of the 50 MHz always-on clock passes (01 R32; DESIGN CHOICE, assumption 2). -/
def idle (s : State) : State := s.tick (s.now + ns 20)

end Sys2Proof.Machine
end

