-- ==== Sys2Proof/Safety.lean ====
section
/-! DEFINITION. What counts as a safe run, and the terms claims use: the canonical form of both byte memories, and what it
takes for a Krytic command to begin at once and be answered. -/

namespace Sys2Proof.Machine

/-- Both byte memories are in canonical form. -/
def State.memOk (s : State) : Prop := Mem.wf s.cis.pool = true ∧ Mem.wf s.bsn.store = true

/-- `s'` is a state that `k` steps reach from `s`, none of which stops. -/
def Reaches (k : Nat) (s s' : State) : Prop :=
  match k with
  | 0 => s = s'
  | j + 1 => ∃ m, step s = .next m ∧ Reaches j m s'

/-- The state as a command's body meets it: the instant reached and the session's window moved over the SEQUENCEs of the
command's packets (02 R49). -/
def taken (r : KReq) (t : Time) (s : State) : State :=
  let u := s.tick t
  let u := u.setSession r.sess ((u.session r.sess).take r.seq)
  u.setSession r.sess (r.seqs.foldl (fun x q => x.take q) (u.session r.sess))

/-- A packet of opcode `op` that passes steps 4 to 11 of 02 Table KCP-3: its session holds a key, its SEQUENCE lies above
the window, and the checks made at arrival pass. -/
def arrives (op : Nat) (t : Time) (r : KReq) (s : State) : Bool :=
  (s.sessKey r.sess).isSome && winPos (s.session r.sess).high r.seq == .above &&
    (chkArrival { r with opcode := op } (taken r t s)).isNone

/-- One that begins in the step of its arrival: no freeze holds it and the headworks is free with both queues empty. -/
def begins (op : Nat) (t : Time) (r : KReq) (s : State) : Bool :=
  arrives op t r s && s.canBegin && !s.frozen op && s.kry.urgent.isEmpty && s.kry.normal.isEmpty

/-- The command is done and answered OK: `u` is the state its effect leaves, `frags` the reply parameters. -/
def okReply (op : Nat) (r : KReq) (u : State) (frags : List Bytes) : Host.Outcome State Fault Refusal :=
  .next (finish { r with opcode := op } (done u frags))

/-- The command is accepted and answered DEFERRED, its work `w` still to be done. -/
def deferReply (op : Nat) (r : KReq) (u : State) (w : Work) : Host.Outcome State Fault Refusal :=
  .next (finish { r with opcode := op } (defer u w))

/-- The command goes on executing with its work `w`; its only reply is still to come. -/
def keepsRunning (op : Nat) (r : KReq) (u : State) (w : Work) : Host.Outcome State Fault Refusal :=
  .next (finish { r with opcode := op } { s := u, status := St.ok, work := some w })

/-- The command is answered with a status that refuses it and changes nothing. -/
def refuseReply (op : Nat) (r : KReq) (u : State) (status : Nat) : Host.Outcome State Fault Refusal :=
  .next (finish { r with opcode := op } (refuse u status))

/-- No row of 03 Table PRT-3 has acted on the port in this cycle yet. -/
def State.freshCycle (s : State) (p : Nat) : Prop := ∀ c, Tab.get? s.rows p = some c → c.at_ ≠ s.now

/-- `t` once row `rank` of Table PRT-3 has governed port `p` of `s` in this cycle. -/
def State.ruled (t s : State) (p rank : Nat) : State :=
  { t with rows := Tab.set t.rows p ⟨s.now, rank, s.port p, Tab.get? s.flt.downSince p⟩ }

/-- A reply on the port is not kept back for want of a packet number: a frame of a fabric port, or a control port without an
active transmit association. -/
def State.plainPort (s : State) (p : Nat) : Prop := p < 512 ∨ (s.port p).txSa = none

/-- A reply or notice of one packet on the port is not kept back: a frame of a fabric port, or a control port whose packet
numbers are not spent (03 R104). -/
def State.mayReply (s : State) (p : Nat) : Prop := p < 512 ∨ (s.port p).pnSpent = false

/-- Outside the directory nothing waits for an event to go on at once: no region, handle or publication, no change of a tile
on its tray, no page still to be fetched, no tray being detached. -/
def State.still (s : State) : Prop :=
  s.cis.regions = [] ∧ s.cis.handles = [] ∧ s.cis.pub = none ∧ s.mem.locks = [] ∧ s.cis.prefetch = [] ∧
    (∀ e ∈ s.cis.pages, e.2.want = 0) ∧ ∀ e ∈ s.mem.trays, e.2.detaching = false

/-- Nothing waits for an event to go on at once, and the directory is empty. -/
def State.calm (s : State) : Prop := s.still ∧ s.coh = {}

/-- Nothing is under way that another event of the engines could carry on: calm, no journal entry, no command deferred, no
levee retiring. -/
def State.quiet (s : State) : Prop :=
  s.mem.journal = [] ∧ s.calm ∧ s.kry.deferred = [] ∧ ∀ e ∈ s.sec.levees, e.2.retiring = false

/-- A response of the memory transport engine to request `r`: to the mirror of its addresses and RET_QP, header and data
(06 R195, Table MEM-6). -/
def poolAnswer (u : State) (r : PoolReq) (op status : Nat) (held siphon hit : Bool) (src : Source) (off : Nat) (data : Bytes) : Out :=
  .poolReply r.die r.port r.cls (respNet r) op (respHeader r (tailwater u r status held siphon hit src) off ++ data)

/-- A message of the home die of domain `d` to agent `g`: a UD SEND of the die's engine under the domain's levee (08 R251). -/
def cohOut (die : Nat) (d : Domain) (g : Agent) (type : Nat) (f : CohMsg) : Out :=
  .coh die d.levee d.tc g.addr g.qpn cohQKey (f.bytes type)

/-- The final message of an agent's request `m` (08 R252). -/
def cohFinish (g : Agent) (m : CohMsg) (flags st value pva : Nat) (data : Bytes) : CohMsg :=
  { (default : CohMsg) with
    flags := flags, domain := m.domain, status := st, agent := m.agent, agen := g.gen, txn := m.txn, pva := pva, value := value,
    data := data }

/-- A request's range is one part of one sound tile of an ACTIVE allotment `a` that rests in the cistern, neither coherent
nor confidential, from offset `off`. -/
def onCistern (s : State) (k : ReqKind) (r : PoolReq) (a off : Nat) : Prop :=
  ∃ x, s.allot a = some x ∧ translate s r.ver r.levee r.pva r.length = some a ∧ x.st = .active ∧ x.work = none ∧
    x.place = 0 ∧ x.flags = 0 ∧ off = r.pva - x.pva ∧ limitsOk k r = true ∧ bitOf r.flags 0 = false ∧ 0 < r.length ∧
    off % 4096 + r.length ≤ 4096 ∧ s.isPoisoned a (off / 4096) = false ∧ s.confidential x.levee = false ∧
    s.mute (reqHost r) = false

/-- `v`'s pool memory is `s`'s with the bytes `bs` from `k` on. -/
def poolPut (s v : State) (k : Nat) (bs : Bytes) : Prop :=
  (∀ i < bs.length, v.cis.pool.read (k + i) = bs.getD i 0) ∧
    ∀ j, j < k ∨ k + bs.length ≤ j → v.cis.pool.read j = s.cis.pool.read j

/-- The answer of an operation whose every range lies in its own slot's window `x`, as the store holds it; none where it asks
for another range, fails, or has not answered within `fuel` reads. -/
def answers (s : State) (x : Slot) (slot : Nat) (op : Op OpOut) (got : List Bytes) (fuel : Nat) : Option OpOut :=
  match fuel with
  | 0 => none
  | n + 1 =>
    match op got with
    | .ok (o, _) => some o
    | .error (.fail _ _) => none
    | .error (.need r) =>
      if r.space = 0 ∧ r.slot = slot then
        answers s x slot op (got ++ [(windowCuts x r.addr r.len).flatMap fun c =>
          readStore s x.basin (4096 * c.1 + c.2.1) c.2.2.2]) n
      else none

/-- Basin `b` executes descriptor `d` of chain `cid`, `c`, on slot `x` of queue `q`, with nothing that disturbs it: no dip
window, sound tiles, no failed write. -/
def executes (s : State) (b cid : Nat) (c : Chain) (q : Queue) (x : Slot) (d : Desc) : Prop :=
  (s.basin b).power = .active ∧ (s.basin b).replaying = false ∧ s.pwr.window = false ∧ (s.basin b).current = some cid ∧
    (∀ t, tileSumOk s b t = true) ∧ (s.basin b).taint = [] ∧ s.chain cid = some c ∧ c.st = .running ∧ c.failed = none ∧
    s.queue c.queue = some q ∧ q.destroying = false ∧ q.slots[c.slot]? = some x ∧ x.basin = b ∧ x.lost = false ∧
    Tab.get? c.descs c.idx = some d

/-- Something that left the device between `s` and `v` satisfies `P`. -/
def sent (s v : State) (P : Out → Prop) : Prop := ∃ y ∈ v.out.drop s.out.length, P y

/-- A message of operation `q` of group `g` to member `dest`, from the queue's addresses (11 R358–R361). -/
def isCol (s : State) (g : Nat) (x : Group) (dest mtype kind q status flags : Nat) (hdr body : Bytes) (y : Out) : Prop :=
  ∃ d, x.mems[dest]? = some d ∧ y = .collective (groupDie s x) x.levee x.tc ((s.queue x.queue).elim default (·.srcIp))
    ((s.queue x.queue).elim 0 (·.srcMac)) d.addr d.qpn 0x4B590004 (colBytes g kind mtype q dest status flags hdr body)

/-- A member may be sent to: it is not fenced, and the device not halted. -/
def reachable (s : State) (x : Group) (i : Nat) : Prop :=
  s.halted = false ∧ ∃ d, x.mems[i]? = some d ∧ ipFenced s d.addr = false

/-- A message passes the checks of 11 R362 as one of group `x`'s members, and the group is in use. -/
def fromMember (s : State) (m : ColMsg) (x : Group) : Prop :=
  s.group m.group = some x ∧ x.destroying = false ∧ x.levee = m.levee ∧ m.len = 48 + m.bodyLen ∧ m.bodyLen ≤ 4048 ∧
    ∃ d, x.mems[m.mem]? = some d ∧ d.addr = m.srcIp ∧ d.qpn = m.srcQp

/-- A contribution to operation `o` of group `x` that is going, with the parameters of its first one. -/
def contributes (s : State) (m : ColMsg) (x : Group) (o : ColOp) : Prop :=
  fromMember s m x ∧ m.mtype = 0 ∧ x.op m.opseq = some o ∧ o.going = true ∧ m.mem ∉ o.removed ∧ m.kind = o.kind ∧
    colParams m.kind m.hdr = o.hdr ∧ colFlags m.kind m.flags = colFlags o.kind o.flags

/-- A message from the switch upstream of group `x`, number `g` (11 R388). -/
def fromUpstream (s : State) (m : ColMsg) (g : Nat) (x : Group) : Prop :=
  ∃ q, s.queue m.queue = some q ∧ q.group = some g ∧ s.group g = some x ∧ x.upstream = true ∧ x.destroying = false ∧
    x.upAddr = m.srcIp ∧ x.upQpn = m.srcQp ∧ x.upGroup = m.group ∧ x.upMember = m.mem ∧ m.len = 48 + m.bodyLen

end Sys2Proof.Machine
end

