-- ==== Sys2Proof/Certificates/Slice0/Obligations.lean ====
section
/-! DEFINITION. The statements for the provers, family by family in the order of the spec's files. -/

open Sys2Proof Sys2Proof.Machine

/-! ### Steps, replies and the headworks (02) -/

/-- A step runs the command at the front of the queue on the queue's rest; an empty queue idles for 20 ns (the model's
choice, assumption 2). -/
def Obligations.StepRunsTheFrontCommand : Prop :=
  ∀ (c : Instr) (rest : List Instr) (s : State),
    step { s with pending := c :: rest } = exec c { s with pending := rest } ∧
      step { s with pending := [] } = .next { s with pending := [], now := s.now + 480 }

/-- 02 R39, R41, R43, R50: a command that is done is answered OK on the port of its request, to the mirror of its addresses,
each packet a header, parameters and tag, MORE on all but the last; the reply is kept under its SEQUENCE. On a control port the
packets are frames, counted in TX_FRAMES; one without a transmit association always sends them,
and one whose packet numbers are not spent sends a reply of one packet.

02 R39, R51: a reply whose port is not UP is lost, but kept for a retransmission. -/
def Obligations.RepliesLeaveAndAreKept : Prop :=
  (∀ (op : Nat) (r : KReq) (u : State) (frags : List Bytes) (k : Key),
    u.sessKey r.sess = some k → u.portUp r.port = true → u.halted = false → u.confidential r.levee = false →
    ∃ v rp, okReply op r u frags = .next v ∧ rp = mkReply { r with opcode := op } (some k) St.ok frags ∧
      rp.status = 0x00 ∧ rp.port = r.port ∧ rp.net = r.net.mirror ∧ rp.seq = r.seq ∧ rp.tag = r.tag ∧ rp.term = r.term ∧
      rp.packets.length = rp.frags.length ∧
      (∀ i < rp.frags.length, ∃ h, h = replyHeader { r with opcode := op } St.ok (rp.frags.getD i []).length (decide (i + 1 < rp.frags.length)) ∧
        h.length = 32 ∧ rp.packets.getD i [] = (h ++ rp.frags.getD i []) ++ kryticTag k (h ++ rp.frags.getD i [])) ∧
      (r.port < 512 → v.out = u.out ++ [.krytic rp] ∧ v.gauges = u.gauges ∧ v.ports = u.ports) ∧
      (512 ≤ r.port → (u.port r.port).txSa = none → v.out = u.out ++ [.krytic rp] ∧ v.ports = u.ports ∧
        gaugeVal v.gauges (gk 0 0 2 r.port) = (gaugeVal u.gauges (gk 0 0 2 r.port) + rp.frags.length) % 2 ^ 64) ∧
      (512 ≤ r.port → (u.port r.port).pnSpent = false → rp.frags.length = 1 → v.out = u.out ++ [.krytic rp]) ∧
      Tab.get? (v.session r.sess).cache r.seq = some [rp] ∧
      (v.session r.sess).high = (u.session r.sess).high ∧
      (∀ x, x ≠ r.sess → v.session x = u.session x) ∧ v.kry.lease = u.kry.lease ∧ v.kry.keys = u.kry.keys ∧
      v.kry.executing = u.kry.executing ∧ v.now = u.now ∧ v.sw = u.sw ∧
      v.trf = u.trf ∧ v.mem = u.mem ∧ v.cis = u.cis ∧ v.coh = u.coh ∧ v.flm = u.flm ∧ v.bsn = u.bsn ∧ v.col = u.col ∧
      v.scr = u.scr ∧ v.sec = u.sec ∧ v.flt = u.flt ∧ v.pwr = u.pwr ∧ v.boot = u.boot ∧ v.hlt = u.hlt) ∧
  (∀ (op : Nat) (r : KReq) (u : State) (frags : List Bytes) (k : Key),
    u.sessKey r.sess = some k → u.portUp r.port = false →
    ∃ v, okReply op r u frags = .next v ∧ v.out = u.out ∧
      Tab.get? (v.session r.sess).cache r.seq = some [mkReply { r with opcode := op } (some k) St.ok frags])

/-- 02 R69, R71, 03 R113, 04 R130: the commands that only read answer from the state and change nothing but the window,
the reply kept and the instant. -/
def Obligations.ReadingCommandsAnswer : Prop :=
  ∀ (t : Time) (r : KReq) (s : State),
    let u := taken r t s
    let p := par r
    (begins 0x0101 t r s = true → plen r = 0 →
      exec (.deviceInfo t r) s = okReply 0x0101 r u [toBe 4 hdwId ++
        toBe 8 (if u.boot.mode = .recovery then 0 else (runningSet u).version.getD 1 0) ++ toBe 1 u.kry.lease.st.code ++
        zeros 3 ++ toBe 4 u.kry.lease.term ++ zeros 4 ++ slice Config.devid 0 32]) ∧
    (begins 0x0102 t r s = true → plen r = 8 → 1 ≤ be p 4 2 → be p 4 2 ≤ 1012 → be p 0 4 % 4 = 0 →
      be p 0 4 + 4 * be p 4 2 ≤ 0x0D000000 →
      exec (.readCsr t r) s = okReply 0x0102 r u
        [(List.range (be p 4 2)).flatMap fun i => toBe 4 (readReg u (be p 0 4 + 4 * i))]) ∧
    (begins 0x0105 t r s = true → 8 ≤ plen r → plen r ≤ 64 → exec (.echo t r) s = okReply 0x0105 r u [p]) ∧
    (begins 0x0202 t r s = true → plen r = 8 → u.portExists (be p 0 2) = true →
      exec (.portState t r) s = okReply 0x0202 r u
        [toBe 4 ((u.port (be p 0 2)).linkWord u.now) ++ toBe 4 (u.port (be p 0 2)).wdWord]) ∧
    (begins 0x0203 t r s = true → r.frags = [p] → plen r = 16 + roundUp (2 * be p 8 2) 8 → 1 ≤ be p 8 2 → be p 8 2 ≤ 192 →
      (∀ i < be p 8 2, u.portExists (be p (16 + 2 * i) 2) = true) →
      exec (.portGauges t r) s = okReply 0x0203 r u ((runs 12 ((List.range (be p 8 2)).map fun i => be p (16 + 2 * i) 2) 17).map
        fun l => toBe 2 l.length ++ zeros 6 ++ (l.map fun n => portGaugeBytes n u).flatten)) ∧
    (begins 0x0303 t r s = true → plen r = 8 → 1 ≤ byteAt p 0 → byteAt p 0 ≤ 10 →
      let k := byteAt p 0
      let code : Nat := match (u.table k).st with
        | .ready => 0
        | .draining => 1
        | .copying => 2
      exec (.tableStatus t r) s = okReply 0x0303 r u
        [toBe 1 (u.table k).active ++ toBe 1 code ++ zeros 2 ++
          toBe 4 (min ((u.table k).inflight (1 - (u.table k).active)) 0xFFFFFFFF) ++ toBe 4 (activeEntries u k) ++ zeros 4])

/-- 02 R71–R73, R78: a register command that the guard lets through writes every register it names, in order, and the two
rows that name special registers are those commands. -/
def Obligations.RegisterCommandsWriteInOrder : Prop :=
  ∀ (t : Time) (r : KReq) (s : State),
    let u := taken r t s
    let p := par r
    let writes := (List.range (be p 4 2)).map fun i => (be p 0 4 + 4 * i, 0xFFFFFFFF, be p (8 + 4 * i) 4)
    let masked := [(be p 0 4, be p 8 4, be p 12 4)]
    (begins 0x0103 t r s = true → plen r = 8 + roundUp (4 * be p 4 2) 8 → 1 ≤ be p 4 2 → be p 4 2 ≤ 1010 → be p 0 4 % 4 = 0 →
      be p 0 4 + 4 * be p 4 2 ≤ 0x0D000000 → brokenQpc writes (writes.foldl writeReg u) = false →
      (u.confActive = true → writes.any setsDebug = false) →
      exec (.writeCsr t r) s = okReply 0x0103 r (writes.foldl writeReg u) [] ∧
      (r.opcode = 0x0103 → exec (.cisQuotaWrite t r) s = okReply 0x0103 r (writes.foldl writeReg u) [] ∧
        exec (.responderContextWrite t r) s = okReply 0x0103 r (writes.foldl writeReg u) [])) ∧
    (begins 0x0104 t r s = true → plen r = 16 → be p 0 4 % 4 = 0 → be p 0 4 + 4 ≤ 0x0D000000 →
      brokenQpc masked (masked.foldl writeReg u) = false → (u.confActive = true → masked.any setsDebug = false) →
      exec (.writeCsrMasked t r) s = okReply 0x0104 r (writeReg u (be p 0 4, be p 8 4, be p 12 4))
        [toBe 4 (readReg u (be p 0 4)) ++ zeros 4] ∧
      (r.opcode = 0x0104 → exec (.cisQuotaWrite t r) s = exec (.writeCsrMasked t r) s ∧
        exec (.responderContextWrite t r) s = exec (.writeCsrMasked t r) s))

/-- 00 R10–R12: a whole write of an RW register reads back, a masked write keeps the bits outside the mask, a W1C register
loses exactly the bits written 1 but those the device sets at the same instant, and an RO register keeps its value. -/
def Obligations.RegisterWritesFollowTheirAccessCodes : Prop :=
  ∀ (s : State) (mask v : Nat), v < 2 ^ 32 → mask < 2 ^ 32 →
    readReg (writeReg s (0x0A000004, 0xFFFFFFFF, v)) 0x0A000004 = v % 2 ^ 12 ∧
    readReg (writeReg s (0x02000104, 0xFFFFFFFF, v)) 0x02000104 = v % 2 ^ 10 ∧
    readReg (writeReg s (0x09000004, mask, v)) 0x09000004 =
      ((readReg s 0x09000004 &&& (0xFFFFFFFF ^^^ mask)) ||| (v &&& mask)) % 2 ^ 4 ∧
    (∀ i < 5, (writeReg s (0x0A000010, mask, v)).pwr.event.getLsbD i =
      (s.pwr.event.getLsbD i && !(mask.testBit i && v.testBit i && !(heldBits s 0x0A000010).testBit i))) ∧
    (∀ i < 7, (writeReg s (0x09000010, mask, v)).sec.event.getLsbD i =
      (s.sec.event.getLsbD i && !(mask.testBit i && v.testBit i && !(heldBits s 0x09000010).testBit i))) ∧
    (∀ i, (heldBits s 0x0A000010).testBit i = true ↔ ∃ e ∈ s.fresh, e.1 = s.now ∧ e.2.1 = 0x0A000010 ∧ e.2.2 = i) ∧
    writeReg s (0x00000000, mask, v) = s ∧ writeReg s (0x00000080, mask, v) = s ∧ writeReg s (0x0A000000, mask, v) = s

/-- 02 R55, R56, R46: an accepted LEASE_ACQUIRE makes a HELD lease under a fresh key, the old key becoming the preceding
one, and the TERM counter its floor.

02 R55: a LEASE_ACQUIRE whose TERM is not above the TERM counter is answered STALE_TERM and takes nothing over. -/
def Obligations.LeaseAcquireTakesOverByARisingTerm : Prop :=
  (∀ (t : Time) (r : KReq) (s : State),
    let u := s.tick t
    let p := par r
    let k := Config.kmacKey (Config.lkexDecap (slice p 40 1568)) (ascii "LEASE" ++ slice p 0 4 ++ slice p 8 32 ++ Config.devid) "KRYTIC"
    r.levee = 0 → 512 ≤ r.port → s.boot.mode ≠ .noIdentity → (lastSecond u (Tab.getD s.kry.acquires r.port [])).length < 64 →
    Config.kmac k (r.hdr ++ p) 128 "KRYTIC" = r.auth → slice p 1608 32 = Config.devid →
    Config.falconVerify (operatorKey s) (slice p 0 1640) (slice p 1640 1280) = true →
    r.version = 1 → s.boot.termCtr < be p 0 4 → s.halted = false → s.confidential 0 = false → r.urgent = false →
    plen r = 2920 →
    be p 0 4 = r.term → 20 ≤ be p 4 4 → be p 4 4 ≤ 10000 → s.portUp r.port = true →
    ∃ v, exec (.leaseAcquire t r) s = .next v ∧ v.kry.lease.st = .held ∧ v.kry.lease.term = r.term ∧
      v.kry.lease.port = r.port - 512 ∧ v.kry.lease.expiry = u.now + ms (be p 4 4) ∧ v.kry.lease.key = some k ∧
      v.kry.lease.prevKey = s.kry.lease.key ∧ v.boot.termCtr = r.term ∧ v.kry.cur = {} ∧
      ((s.port r.port).pnSpent = false →
        v.out = s.out ++ [.krytic (mkReply { r with opcode := 0x0110 } (some k) St.ok [toBe 4 (be p 4 4) ++ zeros 4])]) ∧
      ((s.port r.port).txSa = none → v.ports = s.ports) ∧ v.sw = s.sw ∧ v.trf = s.trf ∧ v.mem = s.mem ∧ v.cis = s.cis ∧ v.coh = s.coh ∧ v.flm = s.flm ∧
      v.bsn = s.bsn ∧ v.col = s.col ∧ v.scr = s.scr ∧ v.sec = s.sec ∧ v.flt = s.flt ∧ v.pwr = s.pwr ∧ v.hlt = s.hlt) ∧
  (∀ (t : Time) (r : KReq) (s v : State), r.levee = 0 → be (par r) 0 4 ≤ s.boot.termCtr →
    exec (.leaseAcquire t r) s = .next v →
    v.kry.lease = s.kry.lease ∧ v.boot = s.boot ∧ v.kry.cur = s.kry.cur ∧ v.kry.prev = s.kry.prev)

/-- 02 R56, R57, 14 R462: LEASE_RENEW moves the expiry TTL_MS from now, LEASE_RELEASE answers and then enters autonomous
mode, and LEASE_EXPIRY enters it at the expiry and not before. -/
def Obligations.LeaseRenewReleaseExpire : Prop :=
  ∀ (t : Time) (r : KReq) (s : State),
    let u := taken r t s
    (arrives 0x0111 t r s = true → r.seqs = [] → plen r = 0 →
      exec (.leaseRenew t r) s = okReply 0x0111 r
        { u with kry := { u.kry with
            lease := { u.kry.lease with expiry := u.now + ms u.kry.lease.ttlMs }, lastLease := some (r.net, r.port, r.cls) } }
        [toBe 4 u.kry.lease.ttlMs ++ zeros 4]) ∧
    (arrives 0x0112 t r s = true → r.seqs = [] → plen r = 0 → (∀ a, s.flt.armed = some a → admissionDue s a = false) →
      ∃ v, okReply 0x0112 r u [] = .next v ∧ exec (.leaseRelease t r) s = .next (autonomous v)) ∧
    (s.kry.lease.st = .held → s.kry.lease.expiry ≤ max s.now t → (∀ a, s.flt.armed = some a → admissionDue s a = false) →
      exec (.leaseExpiry t) s = .next (autonomous (s.tick t))) ∧
    (max s.now t < s.kry.lease.expiry → exec (.leaseExpiry t) s = .next (s.tick t)) ∧
    ((autonomous s).kry.lease.st = .autonomous ∧ (autonomous s).flt.event.getLsbD 3 = true ∧
      (autonomous s).flt.notices.length = s.flt.notices.length + 1 ∧ (autonomous s).flt.nseq = s.flt.nseq + 1 ∧
      (autonomous s).kry.lease.key = s.kry.lease.key ∧ (autonomous s).mem = s.mem ∧ (autonomous s).sw = s.sw)

/-- 02 R64, 13 R428: the controller's reset ends its readiness and is recorded; its first heartbeat ends it again. -/
def Obligations.ControllerResetsAndReturns : Prop :=
  ∀ (t : Time) (cause : Nat) (s : State),
    let reset (v : State) : State := { v with kry := { v.kry with ready := false, leftReset := v.now, lastBeat := none } }
    s.boot.mode = .normal → (∀ x g, s.kry.executing = some x → x.work ≠ .publish g) →
    (cause ≠ 1 → exec (.mcReset t cause) s = .next (reset ((s.tick t).ledger 0x0021 (srcOf 0 0) (recBody [(32, 1, cause)])))) ∧
    exec (.lockstepMismatch t) s = .next (reset ((s.tick t).ledger 0x0021 (srcOf 0 0) (recBody [(32, 1, 2)]))) ∧
    (∀ b, s.kry.lastBeat = some b → b + ms 250 ≤ max s.now t →
      ∃ v, exec (.watchdogExpiry t) s = .next v ∧ v.kry.ready = false ∧ v.kry.lastBeat = none ∧
        v.sec.wdResets = s.sec.wdResets + 1 ∧ v.sec.event.getLsbD 3 = true ∧ v.kry.leftReset = max s.now t ∧
        v.mem = s.mem ∧ v.sw = s.sw ∧ v.kry.lease = s.kry.lease) ∧
    (∀ b, s.kry.lastBeat = some b → max s.now t < b + ms 250 → exec (.watchdogExpiry t) s = .next (s.tick t)) ∧
    (s.kry.ready = true → exec (.heartbeat t) s =
      .next { s.tick t with kry := { s.kry with lastBeat := some (max s.now t) } }) ∧
    (s.kry.ready = false → s.kry.owed = [] → s.boot.a.st = .active → s.boot.slot = 0 →
      exec (.heartbeat t) s = .next { s.tick t with kry := { s.kry with lastBeat := some (max s.now t), ready := true } } ∧
      exec (.controllerReady t) s = .next { s.tick t with kry := { s.kry with lastBeat := some (max s.now t), ready := true } })

/-- 02 R44, R63: a waiting command begins in its turn, one that has waited 100 ms is answered BUSY, and a reassembly of 1 ms
is given up with BAD_LENGTH. -/
def Obligations.WaitingCommandsBeginOrExpire : Prop :=
  ∀ (t : Time) (w : Waiting) (s : State),
    let u := s.tick t
    (s.canBegin = true → nextWaiting s = some w → w.key = s.sessKey w.req.sess → w.req.opcode ≠ 0x0B02 →
      chkBegin w.req (unqueue w u) = none →
      exec (.commandBegin t) s =
        .next (letGo w (finish w.req (bodyOf w.req.opcode w.req (unqueue w u))))) ∧
    (s.kry.urgent = [] → s.kry.normal = [w] → w.arrived + ms 100 ≤ max s.now t → w.key = s.sessKey w.req.sess →
      exec (.commandWaitExpiry t) s =
        .next (letGo w ({ u with kry := { u.kry with normal := [] } }.answer w.req w.key St.busy []))) ∧
    (∀ (x : Sess) (y : Reasm) (q : KReq), (s.session x).reasm = [y] → y.parts = [(0, q)] → q.sess = x → q.seqs = [] →
      y.opened + ms 1 ≤ max s.now t →
      exec (.fragmentReassemblyExpiry t x y.tag) s =
        .next ((u.setSession x { u.session x with reasm := [] }).answer q (u.sessKey x) St.badLength [])) ∧
    (s.kry.executing.isSome = true → exec (.commandBegin t) s = .next u)

/-- 02 R49: a session's window is the 64 numbers that end at H; a packet below it is dropped and counted, one above it moves it, and
one inside runs when it is new, is answered from the cache when it was answered, and is dropped while it runs. A window starts empty
with its key, and then takes any SEQUENCE. A packet of a session without a key is dropped and counted. -/
def Obligations.SequenceWindowIsKeptAndChecked : Prop :=
  (∀ h q : Nat, h < 2 ^ 32 → q < 2 ^ 32 →
    (winPos (some h) q = .inside ↔ ∃ d < 64, (q + d) % 2 ^ 32 = h) ∧
    (winPos (some h) q = .above ↔ ∃ d, 0 < d ∧ d < 2 ^ 31 ∧ q = (h + d) % 2 ^ 32) ∧
    (winPos (some h) q = .below ↔ ∃ d, 2 ^ 31 ≤ d ∧ d < 2 ^ 32 - 63 ∧ q = (h + d) % 2 ^ 32) ∧ winPos none q = .above) ∧
  (∀ (k : Key) (term ttl l : Nat) (r : KReq) (s : State),
    ((takeover k term ttl r s).session .lease).high = none ∧ ((takeover k term ttl r s).session .lease).seen = [] ∧
      ((setLeveeKey l k {} s).session (.levee l)).high = none ∧ ((setLeveeKey l k {} s).session (.levee l)).seen = []) ∧
  ∀ (op : Nat) (body : Body) (t : Time) (r : KReq) (s : State),
    let u := s.tick t
    let x := s.session r.sess
    let runs : Host.Outcome State Fault Refusal := .next (judgePacket body { r with opcode := op } (taken r t s))
    (s.sessKey r.sess = none → command op body t r s =
      .next { u with kry := { u.kry with drop := { u.kry.drop with auth := u.kry.drop.auth + 1 } } }) ∧
    (s.sessKey r.sess ≠ none →
      (winPos x.high r.seq = .below → command op body t r s =
        .next { u with kry := { u.kry with drop := { u.kry.drop with seq := u.kry.drop.seq + 1 } } }) ∧
      (winPos x.high r.seq = .above → command op body t r s = runs ∧
        (r.seqs = [] → ((taken r t s).session r.sess).high = some r.seq ∧ r.seq ∈ ((taken r t s).session r.sess).seen ∧
          (∀ q ∈ ((taken r t s).session r.sess).seen, winPos (some r.seq) q = .inside ∨ q = r.seq) ∧
          ∀ e ∈ ((taken r t s).session r.sess).cache, winPos (some r.seq) e.1 = .inside)) ∧
      (winPos x.high r.seq = .inside → Tab.get? x.cache r.seq = none → r.seq ∉ x.seen → command op body t r s = runs ∧
        (r.seqs = [] → ((taken r t s).session r.sess).high = x.high ∧ r.seq ∈ ((taken r t s).session r.sess).seen)) ∧
      (∀ rs, winPos x.high r.seq = .inside → Tab.get? x.cache r.seq = some rs →
        command op body t r s = .next (u.resend { r with opcode := op } rs)) ∧
      (winPos x.high r.seq = .inside → Tab.get? x.cache r.seq = none → r.seq ∈ x.seen → command op body t r s = .next u))

/-! ### Ports, MACsec and PFC (03) -/

/-- 03 R88–R90: PORT_CONFIG answers and then brings every port of its group to the configuration its parameters give; a
port that was not configured starts in NEGOTIATE with AN set, else in TRAIN, and one the vector leaves out goes. The change is
the last row of Table PRT-3 and so governs its cycle.

03 R100, R102, R103: MACSEC_SA_SET installs, activates or deletes an association of the port's transmit channel or of
one of its receive channels, the key unwrapped under the session. -/
def Obligations.PortsAndAssociationsAreConfigured : Prop :=
  ((∀ (t : Time) (r : KReq) (s : State) (cs : List PortCfg), begins 0x0201 t r s = true → plen r = 32 →
    portCfgs (par r) = some cs →
    (∀ c ∈ cs, c.port < 512 → ∀ i < modeLanes c.mode, (c.port + i) ∉ s.hlt.retiredLanes) →
    ∃ v, okReply 0x0201 r (taken r t s) [] = .next v ∧
      exec (.portConfig t r) s =
        .next ((groupPorts (byteAt (par r) 0)).foldl (fun s n => linkRow n 13 (reconfigure cs n) s) v)) ∧
  (∀ (cs : List PortCfg) (n : Nat) (v : State), v.freshCycle n → (linkRow n 13 (reconfigure cs n) v).port n = (reconfigure cs n v).port n) ∧
  (∀ (cs : List PortCfg) (c : PortCfg) (v : State), cs.find? (fun x => x.port == c.port) = some c →
    (v.port c.port).mode = 0 → c.mode ≠ 0 →
    ∃ w, reconfigure cs c.port v = w ∧ (w.port c.port).mode = c.mode ∧ (w.port c.port).medium = c.medium ∧
      (w.port c.port).an = c.an ∧ (w.port c.port).txInvert = c.tx ∧ (w.port c.port).rxInvert = c.rx ∧
      (w.port c.port).trainMs = c.trainMs ∧ (w.port c.port).degrade = c.degrade ∧ (w.port c.port).since = v.now ∧
      (w.port c.port).st = (if c.an then .negotiate else .train) ∧
      (∀ n, n ≠ c.port → w.port n = v.port n) ∧ w.mem = v.mem ∧ w.sw = v.sw ∧ w.kry = v.kry ∧ w.flt = v.flt) ∧
  (∀ (cs : List PortCfg) (n : Nat) (v : State), cs.find? (fun x => x.port == n) = none → (v.port n).mode ≠ 0 →
    ((reconfigure cs n v).port n).mode = 0 ∧ ((reconfigure cs n v).port n).st = .disabled ∧
      ∀ k, k ≠ n → (reconfigure cs n v).port k = v.port k)) ∧
  (∀ (t : Time) (r : KReq) (s : State) (k : Key),
    let u := taken r t s
    let p := par r
    let q := u.port (be p 0 2)
    let sa : Sa := { suite := byteAt p 5, nextPn := be p 16 8, ssci := be p 24 4, salt := slice p 28 12, key := k, window := be p 40 4 }
    begins 0x0204 t r s = true → plen r = 112 → u.portExists (be p 0 2) = true → byteAt p 4 ≤ 3 →
    (byteAt p 5 = 2 ∨ byteAt p 5 = 1 ∧ be p 16 4 = 0 ∧ be p 24 16 = 0) → u.unwrap r.sess (slice p 48 64) = some k →
    (byteAt p 2 = 0 → byteAt p 3 = 0 → ((q.tx.map (·.2.2)).getD none = some (byteAt p 4) → bitOf (byteAt p 6) 0 = true) →
      exec (.macsecSaSet t r) s = okReply 0x0204 r (u.setPort (be p 0 2) (txSaSet q (be p 8 8) (byteAt p 4)
        (if bitOf (byteAt p 6) 1 then none else some sa) (bitOf (byteAt p 6) 0))) []) ∧
    (byteAt p 2 = 1 → byteAt p 3 ≤ 3 → bitOf (byteAt p 6) 0 = false → be p 40 4 ≤ 65535 →
      exec (.macsecSaSet t r) s = okReply 0x0204 r (u.setPort (be p 0 2) (rxSaSet q (byteAt p 3) (be p 8 8) (byteAt p 4)
        (if bitOf (byteAt p 6) 1 then none else some sa))) []) ∧
    (∀ (sci an sc : Nat),
      (∃ sas, (txSaSet q sci an (some sa) true).tx = some (sci, sas, some an) ∧ Tab.get? sas an = some sa) ∧
      (∃ c, Tab.get? (rxSaSet q sc sci an (some sa)).rx sc = some c ∧ c.sci = sci ∧ Tab.get? c.sas an = some sa) ∧
      (∀ x sas cur, (txSaSet q sci an none false).tx = some (x, sas, cur) → Tab.get? sas an = none ∧ cur ≠ some an) ∧
      (∀ c, Tab.get? (rxSaSet q sc sci an none).rx sc = some c → Tab.get? c.sas an = none)))

/-- 03 R92–R95, Table PRT-3: a port trains step by step, NEGOTIATE to TRAIN to ALIGN to UP, and tries again 1 s after a
training timeout; each step changes that port and nothing else but the fence delay it ends. Of the rows that reach a port in one
cycle the lowest governs (R95). -/
def Obligations.LinkTrainsStepByStep : Prop :=
  ∀ (t : Time) (p : Nat) (s : State),
    let u := s.tick t
    let q := s.port p
    (∀ (f : State → State) (rank : Nat) (c : LinkRow), Tab.get? s.rows p = some c → c.at_ = s.now → rank ≤ c.rank →
      linkRow p rank f s = s) ∧
    (q.retry = true → q.since + sec 1 ≤ u.now →
      exec (.trainingRetry t p) s = .next (u.setPort p { q with retry := false, since := u.now })) ∧
    (q.st = .align → q.aligned = false → exec (.alignmentAcquired t p) s =
      .next (u.setPort p { q with aligned := true, alignedSince := some u.now })) ∧
    (u.freshCycle p →
    (q.st = .negotiate → q.retry = false → exec (.linkNegotiated t p) s =
      .next ((u.setPort p { q with st := .train, anDone := true, since := u.now }).ruled u p 2)) ∧
    (q.st = .train → q.retry = false → exec (.trainingComplete t p) s =
      .next ((u.setPort p { q with st := .align, since := u.now, aligned := false, alignedSince := none }).ruled u p 3)) ∧
    (q.st = .train → q.retry = false → q.since + ms q.trainMs ≤ u.now → ∃ v, exec (.trainTimeout t p) s = .next v ∧
      v.port p = { q with st := if q.an then .negotiate else .train, lastDown := 5, retry := true, since := u.now, anDone := false } ∧
      gaugeVal v.gauges (gk 0 0 11 p) = (gaugeVal s.gauges (gk 0 0 11 p) + 1) % 2 ^ 64 ∧
      (∀ n, n ≠ p → v.port n = s.port n) ∧ v.sw = s.sw ∧ v.flt = s.flt) ∧
    (∀ a, q.st = .align → q.alignedSince = some a → a + ms 100 ≤ u.now → q.remoteFault = false → q.testDown = false →
      ∃ v, exec (.linkUp t p) s = .next v ∧ (v.port p).st = .up ∧ (v.port p).since = u.now ∧ (v.port p).event.getLsbD 3 = true ∧
        (v.port p).downCount = q.downCount ∧ Tab.get? v.flt.downSince p = none ∧ (∀ n, n ≠ p → v.port n = s.port n) ∧
        v.sw = s.sw ∧ v.gauges = s.gauges ∧ v.flt.fences = s.flt.fences) ∧
    (∀ a, q.st = .align → q.alignedSince = some a → u.now < a + ms 100 → exec (.linkUp t p) s = .next u))

/-- 03 R95, R96, R98, 14 R451: a port that is UP and loses signal, alignment, its partner or its codewords leaves UP with
its reason, restarts its training, its fence delay begins, and the copies queued for it wait for their discard (04 R135). Of two
losses in one cycle the lower row's reason stands and one departure is counted (R95). -/
def Obligations.LinkLossLeavesUpWithItsReason : Prop :=
  ∀ (t : Time) (p count : Nat) (a : Time) (s : State),
    let u := s.tick t
    let q := s.port p
    (∀ c, Tab.get? s.rows p = some c → c.at_ = u.now → c.was.st = .up → c.rank < 8 → ∃ v, exec (.alignLost t p) s = .next v ∧
      (v.port p).lastDown = 2 ∧ (v.port p).downCount = c.was.downCount + 1) ∧
    (u.freshCycle p → q.st = .up → p < 512 → q.testDown = false → (q.outsNow u.now 1).length < 5 →
    Tab.get? s.sw.txing p = none →
    let lost (reason : Nat) (c : Instr) : Prop := ∃ v, exec c s = .next v ∧
      (v.port p).st = (if q.an then .negotiate else .train) ∧ (v.port p).lastDown = reason ∧
      (v.port p).downCount = q.downCount + 1 ∧ (v.port p).aligned = false ∧ (v.port p).since = u.now ∧
      (v.port p).event.getLsbD 2 = true ∧ Tab.get? v.flt.downSince p = some u.now ∧
      (∀ n, n ≠ p → v.port n = s.port n) ∧ v.sw = (markStale p s).sw ∧ v.mem = s.mem ∧ v.flt.fences = s.flt.fences ∧ v.out = s.out
    lost 1 (.lossOfSignal t p) ∧ lost 2 (.alignLost t p) ∧
    (q.faultSince = some a → a + us 20 ≤ u.now → lost 3 (.remoteFault t p)) ∧
    (1024 < count → lost 4 (.fecFail t p count)) ∧
    (count ≤ 1024 → exec (.fecFail t p count) s = .next (u.count (gk 0 0 9 p) count)))

/-- 03 R97: the fifth counting departure from UP within 60 s damps the port for its damping time, which doubles up to 64 s;
damping ends when that time has passed, and 600 s of UP return the time to 1 s.

03 Table PRT-3, R112, R114: remote fault is noted while UP or ALIGN, and corrected symbols above DEGRADE raise their event.
The codewords the symbols lay in are at least one and at most one each (assumption 92). -/
def Obligations.FlapsAreDampedAndSignalsNoted : Prop :=
  (∀ (t : Time) (p : Nat) (s : State),
    let u := s.tick t
    let q := s.port p
    (∀ (now : Time) (reason : Nat) (next : LinkState), q.st = .up → reason ≠ 6 → 5 ≤ (q.outsNow now reason).length →
      (q.down now reason next).st = .damped ∧ (q.down now reason next).dampUntil = now + sec q.dampS ∧
      (q.down now reason next).dampS = min 64 (2 * q.dampS) ∧ (q.down now reason next).event.getLsbD 5 = true ∧
      (q.down now reason next).outs = []) ∧
    (∀ (now : Time) (next : LinkState), q.st = .up → (q.down now 6 next).st = next) ∧
    (u.freshCycle p → q.st = .damped → q.dampUntil ≤ u.now → exec (.dampingElapsed t p) s =
      .next ((u.setPort p { q with st := if q.an then .negotiate else .train, since := u.now }).ruled u p 12)) ∧
    (u.freshCycle p → q.st = .damped → u.now < q.dampUntil → exec (.dampingElapsed t p) s = .next u) ∧
    (q.st = .up → q.since + sec 600 ≤ u.now → exec (.dampingReset t p) s = .next (u.setPort p { q with dampS := 1 }))) ∧
  (∀ (t : Time) (p symbols : Nat) (s : State),
    let u := s.tick t
    let q := s.port p
    (q.st = .up → q.faultSince = none → exec (.remoteFaultSignalChange t p true) s =
      .next (u.setPort p { q with remoteFault := true, faultSince := some u.now })) ∧
    (q.st = .up → exec (.remoteFaultSignalChange t p false) s =
      .next (u.setPort p { q with remoteFault := false, faultSince := none })) ∧
    (q.st = .align → q.aligned = true → q.remoteFault = true → exec (.remoteFaultSignalChange t p false) s =
      .next (u.setPort p { q with remoteFault := false, alignedSince := some u.now })) ∧
    (q.st = .up → 0 < q.degrade → q.degrade < symbols → ∃ v, exec (.fecDegrade t p symbols) s = .next v ∧
      v.port p = { q with event := q.event ||| 16#32 } ∧ (∀ n, n ≠ p → v.port n = s.port n) ∧
      gaugeVal v.gauges (gk 0 0 10 p) = (gaugeVal s.gauges (gk 0 0 10 p) + symbols) % 2 ^ 64 ∧
      (∃ n, 1 ≤ n ∧ n ≤ symbols ∧ gaugeVal v.gauges (gk 0 0 8 p) = (gaugeVal s.gauges (gk 0 0 8 p) + n) % 2 ^ 64) ∧ v.flt = s.flt ∧ v.sw = s.sw))

/-- 03 R107, R109–R111: XON and repeated pauses as the count of a lossless class stands, the pause a received PFC frame gives,
its end, the watchdog that makes a class STUCK, and its recovery. A PFC frame leaves at once, or waits for the frame on the
wire.

03 R105, R106, R111: PFC_SET gives a fabric port its lossless classes, watchdog time, thresholds and headroom, and clears
STUCK. -/
def Obligations.PfcIsSetPausesAndRecovers : Prop :=
  (∀ (t : Time) (p c : Nat) (a : Time) (s : State), c < 8 →
    let u := s.tick t
    let q := s.port p
    (Tab.get? q.pfc.sent c = some a → s.pfcCount p c ≤ q.pfc.xoff - q.pfc.hyst → q.st = .up →
      ∃ v, exec (.pfcXon t p c) s = .next v ∧
        (Tab.getD s.sw.txing p [] = [] → v.out = s.out ++ [.pfc p (s.portMac p) c 0] ∧ (v.port p).pfcWait = q.pfcWait) ∧
        (Tab.getD s.sw.txing p [] ≠ [] → v.out = s.out ∧ (v.port p).pfcWait = q.pfcWait ++ [(c, 0)]) ∧
        (v.port p).pfc = { q.pfc with sent := Tab.del q.pfc.sent c } ∧ v.sw = s.sw) ∧
    (Tab.get? q.pfc.sent c = some a → q.pfc.xoff - q.pfc.hyst ≤ s.pfcCount p c → a + quantaTicks 0x8000 q.lanes ≤ u.now →
      q.st = .up → ∃ v, exec (.pfcRepeat t p c) s = .next v ∧
        (Tab.getD s.sw.txing p [] = [] → v.out = s.out ++ [.pfc p (s.portMac p) c 0xFFFF] ∧ (v.port p).pfcWait = q.pfcWait) ∧
        (Tab.getD s.sw.txing p [] ≠ [] → v.out = s.out ∧ (v.port p).pfcWait = q.pfcWait ++ [(c, 0xFFFF)]) ∧
        (v.port p).pfc = { q.pfc with sent := Tab.set q.pfc.sent c u.now } ∧ v.sw = s.sw) ∧
    (∀ (times : List Nat) (n : Nat), q.st = .up → q.pfc.lossless.getLsbD c = true → q.pfc.stuck.getLsbD c = false →
      times.getD c 0 = n → 0 < n → ∃ v, exec (.pfcFrameReceive t p (BitVec.ofNat 8 (2 ^ c)) times) s = .next v ∧
        Tab.get? (v.port p).pfc.pausedUntil c = some (u.now + quantaTicks n q.lanes) ∧
        (v.port p).paused c u.now = decide (0 < quantaTicks n q.lanes) ∧
        Tab.get? (v.port p).pfc.lastPause c = some u.now ∧ v.sw = s.sw ∧ v.out = s.out) ∧
    (Tab.get? q.pfc.pausedUntil c = some a → a ≤ u.now → ∃ v, exec (.pauseExpiry t p c) s = .next v ∧
      Tab.get? (v.port p).pfc.pausedUntil c = none ∧ Tab.get? (v.port p).pfc.pausedSince c = none ∧
      (v.port p).paused c u.now = false ∧ v.sw = s.sw ∧ v.out = s.out) ∧
    (∀ e, Tab.get? q.pfc.pausedUntil c = some e → u.now ≤ e → Tab.get? q.pfc.pausedSince c = some a →
      q.pfc.lossless.getLsbD c = true → q.pfc.stuck.getLsbD c = false → a + ms q.pfc.wdMs ≤ u.now → ∃ v, exec (.pfcWatchdogTrip t p c) s = .next v ∧ (v.port p).pfc.stuck.getLsbD c = true ∧
        (v.port p).event.getLsbD (24 + c) = true ∧ (v.port p).paused c u.now = false ∧ v.sw = s.sw) ∧
    (Tab.get? q.pfc.pausedUntil c = none → Tab.get? q.pfc.ended c = none → exec (.pfcWatchdogTrip t p c) s = .next u) ∧
    (q.pfc.stuck.getLsbD c = true → Tab.get? q.pfc.lastPause c = some a → a + ms q.pfc.wdMs ≤ u.now →
      ∃ v, exec (.stuckClassRecovery t p c) s = .next v ∧ (v.port p).pfc.stuck.getLsbD c = false ∧
        (v.port p).pfc.lossless = q.pfc.lossless ∧ v.sw = s.sw ∧ v.out = s.out)) ∧
  (∀ (t : Time) (r : KReq) (s : State),
    let u := taken r t s
    let p := par r
    let n := be p 0 2
    begins 0x0205 t r s = true → plen r = 16 → n ≤ 511 → u.portExists n = true → popcount 8 (byteAt p 2) ≤ 4 →
    1 ≤ be p 4 2 → be p 4 2 ≤ 1000 → 8 ≤ be p 8 4 → be p 8 4 ≤ 65535 → 1 ≤ be p 12 2 → be p 12 2 ≤ be p 8 4 →
    be p 14 2 * popcount 8 (byteAt p 2) - (u.port n).pfc.headroom * (u.port n).losslessCount ≤ u.rsvFree (portDie n) →
    ∃ w, exec (.pfcSet t r) s = okReply 0x0205 r w [] ∧ (w.port n).pfc.lossless = BitVec.ofNat 8 (byteAt p 2) ∧
      (w.port n).pfc.wdMs = be p 4 2 ∧ (w.port n).pfc.xoff = be p 8 4 ∧ (w.port n).pfc.hyst = be p 12 2 ∧
      (w.port n).pfc.headroom = be p 14 2 ∧ (w.port n).pfc.stuck = 0 ∧ (∀ k, k ≠ n → w.port k = u.port k) ∧
      w.sw = u.sw ∧ w.mem = u.mem ∧ w.flt = u.flt ∧ w.kry = u.kry)

/-! ### Switch core, traffic and the screen's commands (04, 05, 12) -/

/-- 05 R156–R160, R161, R172, Table TRF-7: METER_SET, PRECOLOUR_SET and SHAPER_SET store what they give; a meter starts with full
buckets, a shaper full or empty as FILL says; SHAPED_NS is counted up to then.

05 R158: a frame turns red exactly where the peak bucket does not hold it or it came red, yellow where the committed one
does not or it came yellow, else green; red debits nothing, yellow the peak bucket, green both. -/
def Obligations.MetersAndShapersAreSetAndApply : Prop :=
  (∀ (t : Time) (r : KReq) (s : State),
    let u := taken r t s
    let p := par r
    let n := be p 0 2
    (begins 0x0401 t r s = true → plen r = 24 → n ≤ 8191 → byteAt p 2 ≤ 2 → byteAt p 4 ≤ 2 → byteAt p 5 ≤ 1 →
      byteAt p 6 ≤ 63 → byteAt p 7 ≤ 63 →
      1 ≤ be p 8 4 → be p 8 4 ≤ be p 12 4 → be p 12 4 ≤ 512000000 → 9216 ≤ be p 16 4 → be p 16 4 ≤ 268435456 →
      9216 ≤ be p 20 4 → be p 20 4 ≤ 268435456 →
      ∃ w, exec (.meterSet t r) s = okReply 0x0401 r w [] ∧ (∃ ms, w = { u with trf := { u.trf with meters := ms } }) ∧
        ∀ d < 2, byteAt p 2 = d ∨ byteAt p 2 = 2 → ∃ m, Tab.get? w.trf.meters (meterKey d n) = some m ∧
          m.enable = bitOf (byteAt p 3) 0 ∧ m.aware = bitOf (byteAt p 3) 1 ∧ m.cir = be p 8 4 ∧ m.pir = be p 12 4 ∧
          m.cbs = be p 16 4 ∧ m.pbs = be p 20 4 ∧ m.last = u.now ∧
          (bitOf (byteAt p 3) 0 = true → m.tc = be p 16 4 * byteTokens ∧ m.tp = be p 20 4 * byteTokens)) ∧
    (begins 0x0405 t r s = true → plen r = 24 → n ≤ 511 → u.portExists n = true → byteAt p 2 ≤ 2 →
      (∀ c < 64, bitsOf (byteAt (slice p 4 16) (c / 4)) (7 - 2 * (c % 4)) (6 - 2 * (c % 4)) ≠ 3) →
      byteAt p 20 % 4 ≠ 3 → byteAt p 20 / 4 % 4 ≠ 3 → byteAt p 20 ≤ 15 →
      let c : Precolour := { source := byteAt p 2, dscpMap := slice p 4 16, deiMap := byteAt p 20 }
      exec (.precolourSet t r) s =
        okReply 0x0405 r { u with trf := { u.trf with precolour := Tab.set u.trf.precolour n c } } []) ∧
    (begins 0x0402 t r s = true → plen r = 16 → n ≤ 511 → u.portExists n = true → byteAt p 2 ≤ 2 →
      byteAt p 3 ≤ (if byteAt p 2 = 0 then 0 else 7) → (byteAt p 4 = 1 ∨ byteAt p 4 = 2) → be p 8 4 ≤ 16000000 →
      10240 ≤ be p 12 4 → be p 12 4 ≤ 16777216 →
      let k := n * 17 + (if byteAt p 2 = 0 then 0 else if byteAt p 2 = 1 then 1 + byteAt p 3 else 9 + byteAt p 3)
      let x : Shaper :=
        { rate := be p 8 4, burst := be p 12 4, tokens := if byteAt p 4 = 1 then be p 12 4 * byteTokens else 0,
          last := u.now, fresh := true }
      let w := shapedMark n u
      exec (.shaperSet t r) s = okReply 0x0402 r { w with trf := { w.trf with shapers := Tab.set w.trf.shapers k x } } [] ∧
        w.trf.shapers = u.trf.shapers ∧ w.trf.meters = u.trf.meters ∧ w.sw = u.sw ∧ w.ports = u.ports ∧ w.mem = u.mem)) ∧
  (∀ (m : Meter) (pre b : Nat),
    let need := b * byteTokens
    let isRed := m.tp < need ∨ m.aware = true ∧ pre = 2
    let isYellow := m.tc < need ∨ m.aware = true ∧ pre = 1
    (isRed → m.colour pre b = (2, m)) ∧
    (¬isRed → isYellow → m.colour pre b = (1, { m with tp := m.tp - need })) ∧
    (¬isRed → ¬isYellow → m.colour pre b = (0, { m with tp := m.tp - need, tc := m.tc - need })) ∧
    (∀ now, (m.fill now).tc ≤ m.cbs * byteTokens ∧ (m.fill now).tp ≤ m.pbs * byteTokens ∧ (m.fill now).last = now))

/-- 05 R164, R174, 04 R134, R122–R130: scheduler weights, buffer minimums, table entries and flips as their commands give
them. -/
def Obligations.SwitchSettingsTakeEffect : Prop :=
  ∀ (t : Time) (r : KReq) (s : State),
    let u := taken r t s
    let p := par r
    let n := be p 0 2
    let m := shapedMark n u
    (begins 0x0403 t r s = true → plen r = 8 → n ≤ 511 → u.portExists n = true → 1 ≤ be p 6 2 →
      (byteAt p 2 = 1 → byteAt p 3 ≤ 7 → byteAt p 4 = 0 → exec (.schedSet t r) s = okReply 0x0403 r
        (m.modSched n fun c => { c with groupW := Tab.set c.groupW (byteAt p 3) (be p 6 2) }) []) ∧
      (byteAt p 2 = 2 → byteAt p 3 ≤ 7 → byteAt p 4 ≤ 7 → exec (.schedSet t r) s = okReply 0x0403 r
        (m.modSched n fun c => { c with
          classParent := Tab.set c.classParent (byteAt p 3) (byteAt p 4), classW := Tab.set c.classW (byteAt p 3) (be p 6 2) }) []) ∧
      (byteAt p 2 = 3 → byteAt p 3 ≤ 15 → byteAt p 4 ≤ 7 → exec (.schedSet t r) s = okReply 0x0403 r
        (m.modSched n fun c => { c with queueW := Tab.set c.queueW (byteAt p 4 * 16 + byteAt p 3) (be p 6 2) }) [])) ∧
    (let w : State := { u with sw := { u.sw with
        gmin := if bitOf (byteAt p 7) 0 then setAll 0 (be p 8 2) (bufferKeys p) u.sw.gmin else u.sw.gmin,
        alpha := if bitOf (byteAt p 7) 1 then setAll 6 (byteAt p 10) (bufferKeys p) u.sw.alpha else u.sw.alpha } }
     let w := if bitOf (byteAt p 7) 0 then ((w.sw.frames.map (·.2.acct)).eraseDups).foldl settleMin w else w
     begins 0x0404 t r s = true → plen r = 16 → (bitOf (byteAt p 7) 0 = true ∨ bitOf (byteAt p 7) 1 = true) →
      (bitOf (byteAt p 7) 2 = false → be p 2 2 ≤ be p 4 2 ∧ be p 4 2 ≤ 511) →
      (bitOf (byteAt p 7) 1 = true → byteAt p 10 ≤ 9) → w.gminSum 0 ≤ 393216 → w.gminSum 1 ≤ 393216 →
      (bitOf (byteAt p 7) 0 = true → 0 ≤ rsvLeft w 0 ∧ 0 ≤ rsvLeft w 1) → exec (.bufferSet t r) s = okReply 0x0404 r w []) ∧
    (∀ k, k = byteAt p 8 → 1 ≤ k → k ≤ 8 → begins 0x0301 t r s = true →
      (∀ q ∈ r.frags, q.length = 16 + 64 * be q 10 2 ∧ byteAt q 8 = k ∧ byteAt q 9 ≤ 1 ∧ 1 ≤ be q 10 2 ∧ be q 10 2 ≤ 63) →
      (∀ o ∈ writeOps r, keyOk u k o.2 = true ∧ (o.1 = false → resOk u k (slice o.2 24 40) = true)) →
      (u.table k).st = .ready → (u.table k).pending = false →
      let after := (writeOps r).foldl (applyOp k) ((u.table k).entries (1 - (u.table k).active))
      (k = 6 → steerBreaks u ((u.table k).entries (1 - (u.table k).active)) after = false) → after.length ≤ tableCap k →
      exec (.tableWrite t r) s = okReply 0x0301 r
        (u.setTable k (if 1 - (u.table k).active = 0 then { u.table k with v0 := after } else { u.table k with v1 := after })) []) ∧
    (∀ k, k = byteAt p 0 → 1 ≤ k → k ≤ 10 → (k = 9 → u.flt.lock ≠ .armed) → begins 0x0302 t r s = true → plen r = 8 →
      (u.table k).st = .ready → (u.table k).pending = false →
      exec (.tableFlip t r) s = okReply 0x0302 r (u.setTable k { u.table k with pending := true }) []) ∧
    (begins 0x0302 t r s = true → plen r = 8 → 1 ≤ byteAt p 0 → byteAt p 0 ≤ 10 → (u.table (byteAt p 0)).st ≠ .ready →
      exec (.tableFlip t r) s = refuseReply 0x0302 r u 0x41)

/-- 04 R122, R124: a table write puts an entry under its key or takes it away, and leaves every other key alone.

04 R145, R150: trees and mirrors as MCAST_TREE_SET and MIRROR_SET give them. -/
def Obligations.TablesTreesAndMirrorsAreWritten : Prop :=
  (∀ (k : Nat) (l : List Entry) (e : Bytes) (key : Bytes),
    let get (l : List Entry) (key : Bytes) : Option Bytes := (l.find? fun x => x.key == key).map (·.res)
    get (applyOp k l (false, e)) (normKey k e) = some (normRes k (slice e 24 40)) ∧
    get (applyOp k l (true, e)) (normKey k e) = none ∧
    (key ≠ normKey k e → ∀ del, get (applyOp k l (del, e)) key = get l key)) ∧
  (∀ (t : Time) (r : KReq) (s : State),
    let u := taken r t s
    let p := par r
    (begins 0x0304 t r s = true → be p 0 2 ≤ 16383 → be p 2 2 ≤ 504 → plen r = 8 + 8 * be p 2 2 →
      (∀ m ∈ treeMembers p, m.port ≤ 511 ∧ u.portExists m.port = true ∧
        (((Tab.getD u.sw.trees (be p 0 2) []).any fun o => o.port == m.port && o.endpoint == m.endpoint) = true ∨
          memberFenced u m = false)) →
      sumL (u.sw.trees.map fun e => e.2.length) - (Tab.getD u.sw.trees (be p 0 2) []).length + be p 2 2 ≤ 262144 →
      let trees := if be p 2 2 = 0 then Tab.del u.sw.trees (be p 0 2) else Tab.set u.sw.trees (be p 0 2) (treeMembers p)
      exec (.mcastTreeSet t r) s = okReply 0x0304 r { u with sw := { u.sw with trees := trees } } []) ∧
    (let src := be p 2 2
     let others := u.sw.mirrors.filter fun m => !(m.kind == byteAt p 0 && m.source == src)
     begins 0x0305 t r s = true → plen r = 16 →
      (byteAt p 0 ≤ 2 → byteAt p 1 ≤ 7 → (if byteAt p 0 = 2 then src ≤ 4095 else src ≤ 511 ∧ u.portExists src = true) →
        (be p 4 2 = 0 ∨ 64 ≤ be p 4 2 ∧ be p 4 2 ≤ 9216) → 1 ≤ be p 8 4 → be p 8 4 ≤ 65536 →
        (Tab.get? u.sw.binds (byteAt p 1)).isSome = true → (byteAt p 0 ≤ 1 → (others.filter fun m => m.kind != 2).length < 512) →
        let m : MirrorSrc :=
          { kind := byteAt p 0, source := src, analysis := byteAt p 1, truncate := be p 4 2, sample := be p 8 4, count := 0 }
        exec (.mirrorSet t r) s = okReply 0x0305 r { u with sw := { u.sw with mirrors := others ++ [m] } } []) ∧
      (byteAt p 0 = 3 → byteAt p 1 ≤ 7 → src ≤ 511 → u.portExists src = true → byteAt p 6 ≤ 7 →
        (u.port src).lossless (byteAt p 6) = false →
        exec (.mirrorSet t r) s =
          okReply 0x0305 r { u with sw := { u.sw with binds := Tab.set u.sw.binds (byteAt p 1) (src, byteAt p 6) } } []) ∧
      (byteAt p 0 = 4 → byteAt p 6 = 1 → src ≤ 4095 → exec (.mirrorSet t r) s = okReply 0x0305 r
        { u with sw := { u.sw with mirrors := u.sw.mirrors.filter fun m => !(m.source == src && m.kind == 2) } } []) ∧
      (byteAt p 0 = 4 → byteAt p 6 = 0 → src ≤ 511 → u.portExists src = true → exec (.mirrorSet t r) s = okReply 0x0305 r
        { u with sw := { u.sw with mirrors := u.sw.mirrors.filter fun m => !(m.source == src && m.kind != 2) } } [])))

/-- 04 R115–R120, R133: a sound frame of a fabric port that no earlier step takes is looked up once it has its slot, and one
whose fate is a port is stored, charged to its VOQ and queued there. -/
def Obligations.ReceivedFramesAreQueued : Prop :=
  ∀ (t : Time) (f : Frame) (s : State),
    let u := ((s.tick t).count (gk 0 0 0 f.port) 1).count (gk 0 0 1 f.port) f.len
    s.portUp f.port = true →
    (f.len < 64 → exec (.frameReceive t f) s = .next (u.count (gk 0 0 5 f.port) 1)) ∧
    (9216 < f.len → exec (.frameReceive t f) s = .next (u.count (gk 0 0 6 f.port) 1)) ∧
    (64 ≤ f.len → f.len ≤ 9216 → f.etype ≠ 0x8808 → f.sec = none → (s.port f.port).rx = [] → f.fcsOk = true →
      (512 ≤ f.port → f.bth = none → exec (.frameReceive t f) s = .next (u.count (gk 0 0 38 f.port) 1)) ∧
      (∀ w, f.port < 512 → (f.dmac < 0x0180C2000000 ∨ 0x0180C200000F < f.dmac) → f.bth = none → f.etype ≠ 0x88B5 →
        s.portFenced f.port = false → s.halted = false → parserFifo f u = some w →
        exec (.frameReceive t f) s = .next (forwardFrame f w)) ∧
      (f.port < 512 → (f.dmac < 0x0180C2000000 ∨ 0x0180C200000F < f.dmac) → parserFifo f u = none →
        exec (.frameReceive t f) s = .next (u.count (gk 1 0 0 f.port) 1))) ∧
    (∀ (w : State) (e : Nat) (rw : Rewrite) (cls levee rsv head : Nat), f.fcsOk = true →
      decideFrame w w.stampNow f = ⟨.go (.port e rw), cls, levee, none, false⟩ → w.sw.mirrors = [] →
      w.confidential levee = false → Tab.get? w.trf.meters (meterKey (portDie f.port) (8 * levee + cls)) = none →
      frameFenced w f = false → w.portFenced e = false → w.portUp e = true → (w.port f.port).lossless cls = false →
      Tab.getD w.sw.boxes (portPipe f.port) [] = [] →
      admission w (voqKey (portPipe f.port) e cls) (cellsOf f.len) (w.alpha (voqKey (portPipe f.port) e cls)) none =
        some (rsv, head) →
      ∃ v fr c, forwardFrame f w = v ∧ Tab.get? v.sw.frames w.sw.nextFid = some fr ∧ fr.frame = f ∧ fr.cls = cls ∧
        fr.levee = levee ∧ fr.cells = cellsOf f.len ∧ fr.fromRsv = rsv ∧ fr.fromHead = head ∧ fr.stamp = w.stampNow ∧ fr.copies = 1 ∧
        Tab.getD v.sw.voqs (voqKey (portPipe f.port) e cls) [] = Tab.getD w.sw.voqs (voqKey (portPipe f.port) e cls) [] ++ [c] ∧
        c.fid = w.sw.nextFid ∧ c.port = e ∧ c.vlan = rw.vlan ∧ c.dmac = rw.dmac ∧ c.smac = rw.smac ∧ c.ttlDec = rw.ttlDec ∧
        v.out = w.out ∧ v.mem = w.mem ∧ v.cis = w.cis ∧ v.bsn = w.bsn ∧ v.kry = w.kry)

/-- 04 R119: what the L2 table says of a frame's destination, the order of ACL, L2 and L3, and TTL. -/
def Obligations.ForwardingFollowsTheTables : Prop :=
  ∀ (s : State) (st : BitVec 16) (f : Frame) (e : Bytes) (pre : Option Row),
    (lookup s st 1 (toBe 2 (Frame_vid f % 4096) ++ toBe 6 f.dmac ++ zeros 16) = some e →
      (byteAt e 0 = 0 → stepsFive s st f pre = .go (.port (be e 2 2) {})) ∧
      (byteAt e 0 = 1 → (Tab.get? s.sw.trees (be e 2 2)).isSome = true → stepsFive s st f pre = .go (.tree (be e 2 2))) ∧
      (byteAt e 0 = 2 → stepsFive s st f pre = .drop true) ∧ (byteAt e 0 = 3 → stepsFive s st f pre = .go .headworks)) ∧
    (∀ i, f.ip = some i → lookup s st 1 (toBe 2 (Frame_vid f % 4096) ++ toBe 6 f.dmac ++ zeros 16) = none →
      lookup s st 2 (toBe 2 (vrfOf f) ++ toBe 1 i.dst.af ++ zeros 1 ++ toBe 16 i.dst.val ++ zeros 4) = some e →
      (byteAt e 0 = 2 → stepsFive s st f pre = .drop false) ∧
      (∀ h p rw, byteAt e 0 = 0 → nextHop s st (be e 2 2) = some h → h = (p, rw) → rw.ttlDec = true → i.ttl ≤ 1 →
        stepsFive s st f pre = .ttl) ∧
      (∀ h p rw, byteAt e 0 = 0 → nextHop s st (be e 2 2) = some h → h = (p, rw) → 2 ≤ i.ttl →
        stepsFive s st f pre = .go (.port p rw))) ∧
    (∀ x r, steerOf s st f = some x → steerTarget x = 0 → r = decideFrame s st f → r.fate = .go .pool ∧ r.levee = steerLevee x) ∧
    (∀ x r, steerOf s st f = some x → steerTarget x = 1 → r = decideFrame s st f → r.fate = .go (.flume (steerQueue x)))

/-- 04 R117, R135, R146, 05 R168: frames from inside the device, trees and their division box, and ports that are down; a leaf
joins the round's list as it becomes eligible. -/
def Obligations.InternalFramesAndTreesAreQueued : Prop :=
  ∀ (t : Time) (i : IntFrame) (s : State),
    let u := s.tick t
    let pipe := internalPipe i.orig i.port i.frame
    s.halted = false → frameFenced s i.frame = false → i.chain = none →
    (∀ rsv head, i.tree = none → s.portFenced i.port = false → s.portUp i.port = true → Tab.getD s.sw.boxes pipe [] = [] →
      admission u (voqKey pipe i.port i.cls) (cellsOf i.frame.len) (s.alpha (voqKey pipe i.port i.cls)) none = some (rsv, head) →
      ∃ v fr c, exec (.internalFrameEnqueue t i) s = .next v ∧ Tab.get? v.sw.frames s.sw.nextFid = some fr ∧
        fr.frame = i.frame ∧ fr.orig = some i.orig ∧ fr.cls = i.cls ∧ fr.levee = i.levee ∧ fr.fromRsv = rsv ∧ fr.copies = 1 ∧
        Tab.getD v.sw.voqs (voqKey pipe i.port i.cls) [] = Tab.getD s.sw.voqs (voqKey pipe i.port i.cls) [] ++ [c] ∧
        c.fid = s.sw.nextFid ∧ c.port = i.port ∧ v.out = s.out ∧ v.mem = s.mem ∧ v.gauges = s.gauges) ∧
    (i.tree = none → s.portFenced i.port = false → s.portUp i.port = false →
      exec (.internalFrameEnqueue t i) s = .next (u.count (gk 1 3 0 i.port) 1)) ∧
    (∀ (j : DivJob) (c : Copy) (more : List Copy) (rest : List DivJob), Tab.getD s.sw.boxes pipe [] = j :: rest →
      j.todo = c :: more → s.portUp c.port = true →
      exec (.divisionBoxCopy t pipe) s = .next (pushCopy pipe (s.fidClass j.fid) c
        { u with sw := { u.sw with boxes := Tab.set u.sw.boxes pipe (if more = [] then rest else { j with todo := more } :: rest) } })) ∧
    (∀ c : Copy, ∃ v, pushCopy pipe i.cls c s = v ∧
      Tab.getD v.sw.voqs (voqKey pipe c.port i.cls) [] = Tab.getD s.sw.voqs (voqKey pipe c.port i.cls) [] ++ [c] ∧
      (i.cls * 16 + pipe ∈ (v.schedOf c.port).active ↔
        i.cls * 16 + pipe ∈ (s.schedOf c.port).active ∨ eligible v c.port (i.cls * 16 + pipe) = true) ∧ v.sw.frames = s.sw.frames ∧ v.mem = s.mem ∧ v.out = s.out)

/-- 04 R138, R139: slot i of a PIN group holds member i mod m; a lost port's slots, and no others, go to survivors once it is
not UP, and its original slots return when it has been UP for 1 s. -/
def Obligations.PinnedSlotsFailOverAndReturn : Prop :=
  ∀ (t : Time) (p : Nat) (s : State),
    let u := s.tick t
    (s.portUp p = false → p ∉ lostPorts s.sw.moves →
      exec (.pinMemberFailover t p) s = .next { u with sw := { u.sw with moves := u.sw.moves ++ [(p, true)] } }) ∧
    (s.portUp p = true → (s.port p).since + sec 1 ≤ u.now → p ∈ lostPorts s.sw.moves → ∃ v,
      exec (.pinMemberRestore t p) s = .next v ∧ (∀ q, q ∈ lostPorts v.sw.moves ↔ q ∈ lostPorts s.sw.moves ∧ q ≠ p) ∧
        v = { u with sw := { u.sw with moves := v.sw.moves } }) ∧
    (s.portUp p = true → u.now < (s.port p).since + sec 1 → exec (.pinMemberRestore t p) s = .next u) ∧
    (∀ (port : Nat → Option Nat) (m : Nat) (a : PinMap) (i : Nat), i < a.1.length → port (a.1.getD i 0) ≠ some p →
      ((port (a.1.getD i 0)).elim false a.2.contains) = false → (pinStep port m a (p, true)).1.getD i 0 = a.1.getD i 0) ∧
    (∀ (port : Nat → Option Nat) (m : Nat) (a : PinMap) (i : Nat), i < a.1.length → a.1.getD i 0 < m →
      survivors port m (p :: a.2) ≠ [] → (pinStep port m a (p, true)).1.getD i 0 ∈ survivors port m (p :: a.2)) ∧
    (∀ (port : Nat → Option Nat) (m : Nat) (a : PinMap) (i : Nat), i < a.1.length → port (i % m) = some p →
      (pinStep port m a (p, false)).1.getD i 0 = i % m) ∧
    (∀ (port : Nat → Option Nat) (m i : Nat), i < 256 → slotMember port m i [] = some (i % m))

/-- 04 R141–R143: spray cells in order are accepted, cells ahead are held, and a wait beyond REORDER lets the sequence move on,
at least one frame, at most one a skipped cell, being counted lost (assumption 93). -/
def Obligations.SprayCellsAreReordered : Prop :=
  ∀ (t : Time) (f : Frame) (src port cls : Nat) (s : State),
    let u := s.tick t
    let h := f.payload
    let k := sprayKey src port cls
    f.fcsOk = true →
    (byteAt h 0 / 16 ≠ 1 → exec (.sprayCellReceive t f) s = .next (u.count (gk 1 5 2 (portDie f.port)) 1)) ∧
    (byteAt h 0 / 16 = 1 → byteAt h 3 % 128 = s.sw.switchId.toNat → src = byteAt h 2 % 128 → port = be h 4 2 % 512 →
      cls = byteAt h 1 / 32 → bitOf (byteAt h 0) 0 = true → bitOf (byteAt h 0) 1 = false →
      (Tab.get? s.sw.reorder k = none → ∃ v r, exec (.sprayCellReceive t f) s = .next v ∧
        Tab.get? v.sw.reorder k = some r ∧ r.next = some ((be h 8 4 + 1) % 2 ^ 32) ∧ r.held = [] ∧ r.open_.length = 1 ∧
        v.sw.frames = s.sw.frames ∧ v.gauges = s.gauges) ∧
      (∀ r0 n, Tab.get? s.sw.reorder k = some r0 → u.now < r0.last + ms 1 → r0.next = some n → n < 2 ^ 32 → r0.held = [] →
        seqDist (be h 8 4) n ≠ 0 → seqDist (be h 8 4) n < 2 ^ 31 → s.reorderCells (portDie port) + 4 ≤ 32768 →
        cellsOf (be h 6 2 % 2048) ≤ 4 → (s.port f.port).lossless cls = false → ∃ v r, exec (.sprayCellReceive t f) s = .next v ∧
        Tab.get? v.sw.reorder k = some r ∧ r.next = some n ∧ r.held.length = 1 ∧ v.sw.frames = s.sw.frames)) ∧
    (∀ r c n, Tab.get? s.sw.reorder k = some r → r.held = [c] → r.next = some n → c.first = true → c.last = false →
      c.at_ + us (2 * (s.sw.podReorder.toNat + 1)) < u.now → ∃ v r', exec (.reorderTimeout t src port cls) s = .next v ∧
        Tab.get? v.sw.reorder k = some r' ∧ r'.held = [] ∧ r'.next = some ((c.seq + 1) % 2 ^ 32) ∧ r'.open_ = [c] ∧
        (r.losing = false → seqDist c.seq n ≠ 0 → ∃ m, 1 ≤ m ∧ m ≤ seqDist c.seq n ∧
          gaugeVal v.gauges (gk 1 5 1 (portDie port)) = (gaugeVal s.gauges (gk 1 5 1 (portDie port)) + m) % 2 ^ 64)) ∧
    (∀ r, Tab.get? s.sw.reorder k = some r → r.last + ms 1 ≤ u.now →
      exec (.reorderContextIdle t src port cls) s =
        .next { u with sw := { u.sw with reorder := Tab.set u.sw.reorder k { r with next := none } } })

/-- 05 R165–R171, 03 R102, R107, R114: a round draws the head frame of the one eligible leaf, whose transmission ends when its
bytes are sent, PFC frames that waited for it following; a port whose wire is not free draws nothing (assumption 95); one that is
down loses what is queued for it. -/
def Obligations.SchedulerSendsEligibleFrames : Prop :=
  ∀ (t : Time) (port : Nat) (s : State),
    let u := s.tick t
    (s.portUp port = false → exec (.schedulerRound t port) s = .next u) ∧
    (Tab.getD s.sw.txing port [] ≠ [] ∨ u.now < (s.schedOf port).busy → exec (.schedulerRound t port) s = .next u) ∧
    (∀ (pipe cls : Nat) (c : Copy) (fr : FrameRec), s.portUp port = true → port < 512 → s.halted = false → pipe < 16 → cls < 8 →
      s.sw.voqs = [(voqKey pipe port cls, [c])] → s.sw.stale = [] → Tab.get? s.sw.frames c.fid = some fr → (s.schedOf port) = {} →
      s.trf.shapers = [] → (s.port port).paused cls u.now = false → s.portFenced port = false → c.endpoint = none →
      frameFenced s fr.frame = false → fr.retired = [] → s.confidential fr.levee = false →
      (s.port port).pfc.stuck.getLsbD fr.cls = false → (s.port port).tx = none → s.sw.mirrors = [] → c.vlan = none → c.mem = none →
      64 ≤ fr.frame.len → fr.frame.len ≤ 9216 → Tab.getD s.sw.txing port [] = [] →
      ∃ v x, exec (.schedulerRound t port) s = .next v ∧ Tab.getD v.sw.txing port [] = [x] ∧ x.copy = c ∧ x.start = u.now ∧
        x.ends = u.now + wireTicks (fr.frame.len + 20) (s.port port).lanes ∧ x.frame.len = fr.frame.len ∧
        Tab.getD v.sw.voqs (voqKey pipe port cls) [] = [] ∧ (v.schedOf port).busy = x.ends ∧
        v.sw.frames = s.sw.frames ∧ v.out = s.out ∧ v.mem = s.mem) ∧
    (∀ (x : Tx) (rest : List Tx), Tab.getD s.sw.txing port [] = x :: rest → x.ends ≤ u.now → x.cut = false →
      let waiting := if rest = [] then (s.port port).pfcWait else []
      ∃ v, exec (.frameTransmitEnd t port) s = .next v ∧
        v.out = s.out ++ [.frame port x.frame (!x.frame.fcsOk)] ++ waiting.map (fun e => .pfc port (s.portMac port) e.1 e.2) ∧
        Tab.getD v.sw.txing port [] = rest ∧ v.mem = s.mem ∧ (∀ n, n ≠ port → v.port n = s.port n) ∧
        v.port port = (if waiting = [] then s.port port else { s.port port with pfcWait := [] })) ∧
    (∀ (x : Tx) (rest : List Tx), Tab.getD s.sw.txing port [] = x :: rest → u.now < x.ends →
      exec (.frameTransmitEnd t port) s = .next u) ∧
    (s.portUp port = false → ∃ v, exec (.portDownDiscard t port) s = .next v ∧
      (∀ k, k / 8 % 512 = port → Tab.get? v.sw.voqs k = none) ∧ (∀ k, k / 8 % 512 ≠ port → Tab.get? v.sw.voqs k = Tab.get? s.sw.voqs k) ∧
      v.out = s.out ∧ v.ports = s.ports ∧ v.mem = s.mem)

/-! ### Pool memory, versions and revocation (04, 06) -/

/-- 06 R182–R186, R206, R207, R210, 07 R225: allotments, water rights, trays and hints as their commands give them. -/
def Obligations.PoolCommandsTakeEffect : Prop :=
  ∀ (t : Time) (r : KReq) (s : State),
    let u := taken r t s
    let p := par r
    (∀ (x : Allot) (l : Levee) (a : Nat), x = parseAllot u p → begins 0x0501 t r s = true → plen r = 48 →
      x.levee ≠ 0 → Tab.get? u.sec.levees x.levee = some l → l.retiring = false → allotBad u p x = false →
      (u.table 9).st = .ready → (u.table 9).pending = false →
      (u.mem.allots.filter fun e => e.2.levee == x.levee).length < l.maxAllot → Tab.lowestFree u.mem.allots 65536 = some a →
      (x.place = 0 → x.size / mib2 ≤ u.freeFrames x.home ∧
        useTiles u x.home x.levee + 512 * (x.size / mib2) ≤ 512 * u.quota x.home x.levee) →
      (allotGuard u x = none → exec (.allotCreate t r) s = okReply 0x0501 r
        ((u.setAllot a x).setXl (1 - (u.table 9).active) (u.xl (1 - (u.table 9).active) ++ [a])) [toBe 2 a ++ zeros 6]) ∧
      (∀ inv, allotGuard u x = some inv → ∃ v rp, exec (.allotCreate t r) s = .next v ∧ rp.status = 0x31 ∧
        Tab.get? (v.session r.sess).cache r.seq = some [rp] ∧ rp.frags = [toBe 2 inv ++ zeros 6] ∧ v.mem = u.mem)) ∧
    (∀ x, begins 0x0503 t r s = true → plen r = 8 → u.allot (be p 0 2) = some x → (∀ l, tenant r = some l → x.levee = l) →
      exec (.allotQuery t r) s = okReply 0x0503 r u [toBe 1 x.st.code ++ toBe 1 x.home ++ toBe 1 x.place ++ toBe 1 x.flags ++
        toBe 4 x.inflight ++ toBe 8 x.pva ++ toBe 8 x.size]) ∧
    (begins 0x0503 t r s = true → plen r = 8 → u.allot (be p 0 2) = none → tenant r = none →
      exec (.allotQuery t r) s = okReply 0x0503 r u [zeros 24]) ∧
    (∀ x, begins 0x0502 t r s = true → plen r = 8 → be p 4 4 ≤ 1000 → u.allot (be p 0 2) = some x →
      (x.st = .pending → u.flt.lock ≠ .loading →
        exec (.allotRevoke t r) s = okReply 0x0502 r (dropPending (be p 0 2) u) [zeros 8]) ∧
      (x.st = .active → u.flt.lock ≠ .loading → u.col.groups = [] → u.mem.live = [] → u.mem.hosts = [] → u.quiet →
        ∃ v y, exec (.allotRevoke t r) s = .next v ∧ v.allot (be p 0 2) = some y ∧ y.st = .revoking ∧
          y.revokeBy = u.now + us (revokeUs u (be p 4 4)) ∧ (∃ run, v.kry.executing = some run ∧ run.work = .revoke (be p 0 2) 0 0) ∧
          v.out = u.out ∧ v.cis.pool = u.cis.pool)) ∧
    (let levee := be p 0 2 % 1024
     let die := byteAt p 2
     let host : Ip := ⟨byteAt p 3, be p 4 16⟩
     begins 0x0504 t r s = true → plen r = 32 → levee ≠ 0 → u.admitted levee = true → u.retiring levee = false → die ≤ 1 →
      (host.af = 0 ∧ host.val = 0 ∨ host.af = 4 ∧ be p 4 12 = 0 ∨ host.af = 6) → be p 20 4 ≤ 204800 → 65536 ≤ be p 24 4 →
      be p 24 4 ≤ 67108864 → 1 ≤ be p 28 2 → be p 28 2 ≤ 4096 → (byteAt p 30 = 1 ∨ byteAt p 30 = 2) →
      (u.mem.rights.filter fun y => y.die == die && y.host.af != 0).length < 16384 →
      ∃ w, exec (.waterRightSet t r) s = okReply 0x0504 r w [] ∧
        (bitOf (byteAt p 31) 0 = false → rightOf w die levee host =
          { die := die, levee := levee, host := host, rate := be p 20 4, burst := be p 24 4, out := be p 28 2,
            full := byteAt p 30 == 1, since := u.now }) ∧
        (byteAt p 30 = 2 → host.af ≠ 0 → (hostOf w die levee host).tokens = 0) ∧
        (bitOf (byteAt p 31) 0 = true → ∀ y ∈ w.mem.rights, ¬(y.die = die ∧ y.levee = levee ∧ y.host = host)) ∧
        (∀ d l h, d ≠ die ∨ l ≠ levee → rightOf w d l h = rightOf u d l h) ∧ w.mem.allots = u.mem.allots ∧ w.cis = u.cis) ∧
    (∀ n, begins 0x0505 t r s = true → plen r = 56 → be p 0 2 ≤ 511 → u.portExists (be p 0 2) = true →
      (byteAt p 2 = 4 ∧ be p 4 12 = 0 ∨ byteAt p 2 = 6) → 0 < be p 36 8 → be p 36 8 % mib2 = 0 → 1 ≤ be p 44 2 → be p 44 2 ≤ 4096 →
      Tab.lowestFree u.mem.trays 256 = some n →
      let x : Tray := { port := be p 0 2, addr := ⟨byteAt p 2, be p 4 16⟩, qpn := be p 20 3, rkey := be p 24 4, base := be p 28 8,
                        length := be p 36 8, maxOut := be p 44 2 }
      exec (.trayAttach t r) s =
        okReply 0x0505 r { u with mem := { u.mem with trays := Tab.set u.mem.trays n x, occ := Tab.del u.mem.occ n } } [toBe 2 n ++ zeros 6]) ∧
    (∀ x, begins 0x0506 t r s = true → plen r = 8 → Tab.get? u.mem.trays (be p 0 2) = some x → x.detaching = false →
      u.mem.allots = [] → trayOps u (be p 0 2) = [] → u.kry.deferred = [] → u.sessKey r.sess ≠ none →
      ∃ v a b, exec (.trayDetach t r) s = .next v ∧ Tab.get? v.mem.trays (be p 0 2) = none ∧
        (∀ n, n ≠ be p 0 2 → Tab.get? v.mem.trays n = Tab.get? u.mem.trays n) ∧ a.status = 0x01 ∧ b.status = 0x00 ∧
        (u.portUp r.port = true → u.plainPort r.port → u.halted = false → u.confidential r.levee = false → v.out = u.out ++ [.krytic a, .krytic b])) ∧
    (∀ a x l, begins 0x0507 t r s = true → plen r = 24 → tenant r = some l → be p 0 2 % 1024 = 0 → 1 ≤ byteAt p 2 →
      byteAt p 2 ≤ 5 → byteAt p 3 ≤ (if byteAt p 2 = 3 then 2 else 0) → be p 8 8 % 65536 = 0 → be p 16 8 % 65536 = 0 →
      0 < be p 16 8 → be p 16 8 ≤ 2 ^ 44 → translate u (u.table 9).active l (be p 8 8) (be p 16 8) = some a →
      u.allot a = some x → x.st = .active → u.cis.regions = [] → (∀ e ∈ u.cis.pages, e.2.want = 0) →
      (x.place ≠ 1 → exec (.tierHint t r) s = okReply 0x0507 r u [zeros 8]) ∧
      (∀ pg q, x.place = 1 → byteAt p 2 = 3 → be p 16 8 = 65536 → pg = (be p 8 8 - x.pva) / 65536 → u.page a pg = some q →
        q.filling = 0 → ∃ w q', exec (.tierHint t r) s = okReply 0x0507 r w [toBe 4 1 ++ zeros 4] ∧ w.page a pg = some q' ∧
          q' = { q with hint := 3, elem := byteAt p 3, hintAt := u.now, pendHint := none } ∧ w.mem = u.mem))

/-- 06 R192–R202, R205, 07 R217: vendor requests on a cistern tile read and write its bytes and answer with the tile's
channel as source, to the mirror of the request's addresses and RET_QP, a held one when its right lets it go; one on a REVOKING
allotment is answered EXTENT_REVOKED.

06 R201, R202: a SEQ already executed is answered again with its outcome and not executed again, one below the window is
dropped, and a context goes only when it has not been used for 1 s. -/
def Obligations.PoolRequestsAndQueueContexts : Prop :=
  (∀ (t : Time) (p : Packet) (s : State) (a off : Nat),
    let u := s.tick t
    let r := p.poolReq
    let k := poolKey a off
    let answered (v : State) (op : Nat) (held : Bool) (data : Bytes) : Prop :=
      v.out = s.out ++ [poolAnswer u r op 0x00 held false true ⟨0, chanOf u a (off / 4096)⟩ 0 data] ∧
        v.mem.live = [] ∧ v.coh = s.coh ∧ v.kry = s.kry ∧ v.flm = s.flm ∧ v.bsn = s.bsn ∧ v.scr = s.scr
    s.quiet → s.mem.live = [] → s.mem.rights = [] → s.mem.ctxs = [] → Mem.wf s.cis.pool = true →
    (s.mem.hosts = [] →
      (onCistern u .read r a off → ∃ v, exec (.pRead t p) s = .next v ∧ answered v 0xD0 false (readPool s a off r.length) ∧
        v.cis = s.cis) ∧
      (onCistern u .write r a off → ∃ v, exec (.pWrite t p) s = .next v ∧ answered v 0xD1 false [] ∧ poolPut s v k r.data) ∧
      (onCistern u .atomic r a off → ∃ v, exec (.pAtomic t p) s = .next v ∧
        answered v 0xD2 false (toBe 8 (le (readPool s a off 8) 0 8)) ∧
        poolPut s v k (toLe 8 (atomicNew r.op (le (readPool s a off 8) 0 8) (be r.data 0 8) (be r.data 8 8)))) ∧
      (∀ b soff, onCistern u .copy r a off → byteAt r.data 8 = s.sw.switchId.toNat →
        onCistern u .read { r with pva := be r.data 0 8 } b soff → ∃ v, exec (.pCopy t p) s = .next v ∧ answered v 0xD1 false [] ∧
          poolPut s v k (readPool s b soff r.length)) ∧
      (∀ x, limitsOk .read r = true → translate u r.ver r.levee r.pva r.length = some a → s.allot a = some x → x.st = .revoking →
        r.length ≤ 4096 → s.mute (reqHost r) = false → ∃ v, exec (.pRead t p) s = .next v ∧
          v.out = s.out ++ [poolAnswer u r 0xD0 0x51 false false false noSource 0 []] ∧ v.mem = s.mem ∧ v.cis = s.cis)) ∧
    (∀ h x l, onCistern u .read r a off → s.allot a = some x → l = { kind := .read, req := r, allot := a, home := x.home, held := true } →
      h = { die := r.die, levee := r.levee, host := reqHost r, tokens := 0, last := s.now, inflight := 0, hold := [l] } →
      s.mem.hosts = [h] → ∃ v, exec (.waterRightRelease t r.die r.levee (reqHost r)) s = .next v ∧
        answered v 0xD0 true (readPool s a off r.length))) ∧
  (∀ (t : Time) (p : Packet) (s : State) (a off : Nat) (c : QCtx) (x : Allot) (o : Outcome),
    let u := s.tick t
    let r := p.poolReq
    onCistern u .write r a off → s.allot a = some x → s.quiet → s.mem.live = [] → s.mem.rights = [] → s.mem.hosts = [] →
    s.mem.ctxs = [c] → c.die = x.home → c.levee = r.levee → c.host = reqHost r → c.queue = r.queue → c.high < 2 ^ 48 →
    (c.live = [] → r.seq = c.high → Tab.get? c.done r.seq = some o → ∃ v, exec (.pWrite t p) s = .next v ∧
      v.out = s.out ++ [poolAnswer u r 0xD1 o.status false false false noSource 0 []] ∧ v.cis = s.cis) ∧
    (r.seq + 256 ≤ c.high → c.high ≤ r.seq + 2 ^ 47 → ∃ v, exec (.pWrite t p) s = .next v ∧ v.out = s.out ∧ v.cis = s.cis) ∧
    (c.live = [] → c.last + sec 1 ≤ u.now → ∃ v,
      exec (.queueContextReclaim t c.die c.levee c.host c.queue) s = .next v ∧ v.mem.ctxs = []) ∧
    (u.now < c.last + sec 1 → exec (.queueContextReclaim t c.die c.levee c.host c.queue) s = .next u))

/-- 06 R208: a standard RDMA request with the expected PSN and key is executed, acknowledged and advances the PSN; a wrong
key is NAKed as a remote access error and ends the queue pair. -/
def Obligations.RdmaRequestsFollowTheResponderRules : Prop :=
  ∀ (t : Time) (q : RdmaReq) (s : State) (a off n : Nat) (c : Qpc),
    let u := s.tick t
    let req (len : Nat) : PoolReq :=
      { port := q.port, die := q.die, net := q.net, cls := q.cls, levee := c.levee.toNat, ver := q.ver, queue := 0, seq := q.psn,
        pva := q.va, length := len, op := q.op, flags := 0, retQp := c.peer.toNat, handle := 0, data := q.data }
    s.quiet → s.mem.live = [] → s.mem.rights = [] → s.mem.hosts = [] → Mem.wf s.cis.pool = true → findQpc s q.die q.qpn = some (n, c) →
    c.err = false → q.psn = c.epsn.toNat → q.va < 2 ^ 52 → s.mute q.net.srcIp = false →
    let acked (v : State) (data : Bytes) (psns : Nat) : Prop :=
      v.out = s.out ++ [.rdmaReply q true 0 0 data] ∧ v.mem.live = [] ∧
        ∃ d, Tab.get? v.mem.qpcs n = some d ∧ d.epsn = c.epsn + BitVec.ofNat 24 psns ∧ d.err = false
    (q.rkey = c.rkey.toNat → q.length ≤ 4096 → onCistern u .rdmaRead (req q.length) a off →
      ∃ v, exec (.rdmaRead t q) s = .next v ∧ acked v (readPool s a off q.length) (psnsOf .rdmaRead c q.length) ∧ v.cis = s.cis) ∧
    (q.rkey = c.rkey.toNat → q.data.length = q.length → onCistern u .rdmaWrite (req q.length) a off →
      ∃ v, exec (.rdmaWrite t q) s = .next v ∧ acked v [] (psnsOf .rdmaWrite c q.length) ∧ poolPut s v (poolKey a off) q.data) ∧
    (q.rkey = c.rkey.toNat → q.va % 8 = 0 → q.op ≤ 1 → onCistern u .rdmaAtomic (req 8) a off →
      ∃ v, exec (.rdmaAtomic t q) s = .next v ∧ acked v (toBe 8 (le (readPool s a off 8) 0 8)) 1 ∧
        poolPut s v (poolKey a off) (toLe 8 (atomicNew q.op (le (readPool s a off 8) 0 8) (be q.data 0 8) (be q.data 8 8)))) ∧
    (q.rkey ≠ c.rkey.toNat → 0 < q.length → q.length ≤ 16777216 → ∃ v, exec (.rdmaRead t q) s = .next v ∧
      v.out = s.out ++ [.rdmaReply q false 1 0 []] ∧ v.cis = s.cis ∧
      ∀ m d, findQpc v q.die q.qpn = some (m, d) → d.err = true)

/-- 04 R126–R129, Table SWC-5, 06 Table MEM-2: a committed flip makes the other version active and drains the old one; drained,
or at its retire limit, which is SWC_RETIRE's at the flip and no later write changes, the old version is copied and READY again. -/
def Obligations.VersionsFlipDrainAndCopy : Prop :=
  ∀ (t : Time) (k : Nat) (s : State),
    let u := s.tick t
    let x := s.table k
    let old := 1 - x.active
    (x.pending = true → x.st = .ready → k ≠ 9 → (k = 10 → ∀ b ∈ s.scr.batches, b.cls ≠ 0) → exec (.flipEffect t k) s = .next
      (u.setTable k
        { x with pending := false, active := old, st := .draining, flipAt := u.now, limitMs := (s.sw.retire.toNat + 1) * 10 })) ∧
    (k = 10 → (∃ b ∈ s.scr.batches, b.cls = 0) → exec (.flipEffect t k) s = .next u) ∧
    (∀ a y, x.pending = true → x.st = .ready → k = 9 → s.allot a = some y → y.st = .pending → a ∈ s.xl old → (s.xl old).Nodup →
      ∃ v, exec (.flipEffect t k) s = .next v ∧ (v.table 9).active = old ∧ (v.table 9).st = .draining ∧
        (v.table 9).flipAt = u.now ∧ (v.table 9).limitMs = (s.sw.retire.toNat + 1) * 10 ∧
        v.allot a = some { y with st := .active }) ∧
    (∀ mask w, (writeReg s (0x02000104, mask, w)).table k = x ∧ (writeReg s (0x02000104, 0xFFFFFFFF, w)).sw.retire = BitVec.ofNat 10 w) ∧
    (x.pending = false → exec (.flipEffect t k) s = .next u) ∧
    (x.st = .draining → x.inflight old = 0 → exec (.versionDrained t k) s = .next (u.setTable k { x with st := .copying })) ∧
    (x.st = .draining → x.inflight old ≠ 0 → exec (.versionDrained t k) s = .next u) ∧
    (x.st = .draining → x.flipAt + ms x.limitMs ≤ u.now → k ≤ 10 →
      ∃ v, exec (.retireLimitExpiry t k) s = .next v ∧ (v.table k).st = .copying ∧ (v.table k).inflight old = 0 ∧
        (v.table k).active = x.active ∧
        (k ≠ 9 → s.sw.txing = [] → framesUnder v k old = [] ∧
          ∀ e ∈ v.sw.frames, k ∈ e.2.retired ∨ e ∈ s.sw.frames) ∧
        (k = 9 → (v.table k).inflight (1 - old) = x.inflight (1 - old) + x.inflight old ∧ (∀ e ∈ v.mem.live, e.2.req.ver ≠ old))) ∧
    (x.st = .draining → u.now < x.flipAt + ms x.limitMs → exec (.retireLimitExpiry t k) s = .next u) ∧
    (x.st = .copying → ∃ v, exec (.versionCopyComplete t k) s = .next v ∧ (v.table k).st = .ready ∧
      (v.table k).active = x.active ∧ (x.active ≤ 1 → (v.table k).v0 = x.entries x.active ∧ (v.table k).v1 = x.entries x.active) ∧
      (k ≠ 9 → v.mem = s.mem) ∧ (k ≠ 10 → v.scr = s.scr) ∧
      (k = 9 → x.active ≤ 1 → v.xl x.active = s.xl x.active ∧ ∀ a ∈ v.xl old, a ∈ s.xl x.active))

/-- 06 R187–R191, Table MEM-2: when a revocation drains or times out, the allotment's backing in the cistern is zeroed, it is
RELEASING and the command is answered with the requests ended by the timeout; its tray ranges are unzeroed from then on, until
TRAY_RANGE_ZEROING finds a tray that covers them and is not down; zeroed and absent from both versions, it is gone. -/
def Obligations.RevocationReleasesAllotments : Prop :=
  ∀ (t : Time) (a : Nat) (x : Allot) (run : Running) (k : Key) (s : State),
    let u := s.tick t
    s.allot a = some x → s.quiet → s.mem.hosts = [] →
    let released (v : State) (n : Nat) (before : List Out) : Prop :=
      v.allot a = some { x with st := .releasing, zeroed := x.place == 0, inflight := 0 } ∧ v.kry.executing = none ∧
        (∀ o < 2 ^ 44, v.cis.pool.read (poolKey a o) = 0) ∧
        (Mem.wf s.cis.pool = true → ∀ j, j / 2 ^ 44 ≠ a → v.cis.pool.read j = s.cis.pool.read j) ∧
        (∀ e ∈ v.cis.pages, e.1 / 2 ^ 28 ≠ a) ∧ v.mem.live = [] ∧
        (∀ q ∈ x.ranges (trayBytes s x.levee x.size), ∀ p, trayPlace s q = some p → ⟨a, p.1, p.2.1, p.2.2⟩ ∈ v.mem.dirty) ∧
        v.out = before ++ [.krytic (mkReply run.req (some k) 0x00 [toBe 4 n ++ zeros 4])]
    (x.st = .revoking → s.kry.executing = some run → run.work = .revoke a 0 0 → run.key = some k → s.kry.ready = true →
      s.portUp run.req.port = true → s.mayReply run.req.port → s.halted = false → s.confidential run.req.levee = false →
      (x.inflight = 0 → s.mem.live = [] → ∃ v, exec (.revokeDrainEnd t a) s = .next v ∧ released v 0 s.out) ∧
      (x.inflight ≠ 0 → (∀ e ∈ s.mem.live, e.2.stage < 6 ∧ ∀ w ∈ e.2.waits, w < 2 ^ 83) → exec (.revokeDrainEnd t a) s = .next u) ∧
      (∀ id r, s.mem.live = [(id, { kind := .write, req := r, allot := a, home := x.home })] → s.mute (reqHost r) = false →
        x.revokeBy ≤ u.now → ∃ v, exec (.revokeTimeout t a) s = .next v ∧
          released v 1 (s.out ++ [poolAnswer u r 0xD1 0x51 false false false noSource 0 []])) ∧
      (u.now < x.revokeBy → exec (.revokeTimeout t a) s = .next u)) ∧
    (∀ n y z, x.st = .releasing → x.zeroed = false → s.mem.dirty = [z] → z.allot = a → s.mem.trays = [(n, y)] → y.addr = z.addr →
      rangeWrites s n z = false →
      (s.trayDown n = false → y.base ≤ z.va → z.va + z.len ≤ y.base + y.length → exec (.trayRangeZeroing t a) s =
        .next ({ u.emit (.trayZero n z.va z.len) with mem := { u.mem with dirty := [] } }.setAllot a { x with zeroed := true })) ∧
      (s.trayDown n = true → exec (.trayRangeZeroing t a) s = .next u)) ∧
    (x.st = .releasing → x.zeroed = true → a ∉ s.mem.xl0 → a ∉ s.mem.xl1 → exec (.allotmentReleased t a) s =
      .next { u with mem := { u.mem with allots := Tab.del u.mem.allots a } }) ∧
    (x.st = .active → exec (.allotmentReleased t a) s = .next u)

/-- 06 R211–R213: phases between switches: a member applies each phase once, acknowledges it with its outcome, again where it
is asked again, and answers queries; the home's copy writes the bytes its source read, which no message brings (a free value,
assumption 96), and at a phase's deadline it asks the member and issues the phase again under a new epoch. -/
def Obligations.PhasesBetweenSwitches : Prop :=
  ∀ (t : Time) (src : Nat) (p : Packet) (s : State),
    let u := atEngine t p s
    let m := p.phaseMsg src
    let answer (m : PhaseMsg) (op holds st : Nat) : Out := .phase op m.src { m with holds := holds, status := st, data := [] }.bytes
    let away : Prop := translate s (s.table 9).active m.levee (Config.phaseRange m.arg).1 (Config.phaseRange m.arg).2 = none
    s.halted = false → s.switchFenced src = false →
    (findPhased s m = none → away → ∃ v q, exec (.pPhase t src p) s = .next v ∧ v.out = s.out ++ [answer m 0xD9 0 0x11] ∧
      findPhased v m = some q ∧ q.applied = [(m.phase, some 0x11)] ∧ q.epoch = m.epoch ∧ q.holds = true ∧ v.cis = s.cis) ∧
    (∀ q, findPhased s m = some q → q.epoch ≤ m.epoch →
      (∀ st, Tab.get? q.applied m.phase = some (some st) → ∃ v q', exec (.pPhase t src p) s = .next v ∧
        v.out = s.out ++ [answer m 0xD9 0 st] ∧ findPhased v m = some q' ∧ q' = { q with epoch := m.epoch } ∧ v.cis = s.cis ∧
        v.mem.live = s.mem.live) ∧
      (Tab.get? q.applied m.phase = some none → ∃ v, exec (.pPhase t src p) s = .next v ∧ v.out = s.out ∧
        findPhased v m = some { q with epoch := m.epoch } ∧ v.cis = s.cis ∧ v.mem.live = s.mem.live) ∧
      (Tab.get? q.applied m.phase = none → away → ∃ v q', exec (.pPhase t src p) s = .next v ∧
        v.out = s.out ++ [answer m 0xD9 0 0x11] ∧ findPhased v m = some q' ∧ Tab.get? q'.applied m.phase = some (some 0x11) ∧
        q'.epoch = m.epoch)) ∧
    (∀ q, findPhased s m = some q → m.epoch < q.epoch →
      exec (.pPhase t src p) s = .next u ∧ exec (.pOwnerQuery t src p) s = .next u) ∧
    (∀ (id st : Nat) (l : Live) (g : PhaseMsg) (q : Phased), s.liveReq id = some l → l.phase = some g → findPhased s g = some q →
      s.switchFenced g.src = false → ∃ v q' fin, finishLive id st s = v ∧
        fin = (if st = 0 then firstBad s l.allot l 0 (2 ^ 59) else st) ∧ v.out = s.out ++ [answer g 0xD9 0 fin] ∧
        findPhased v g = some q' ∧ Tab.get? q'.applied g.phase = some (some fin) ∧ v.liveReq id = none) ∧
    (findPhased s m = none → exec (.pOwnerQuery t src p) s = .next (u.emit (answer m 0xDB 0 0))) ∧
    (∀ q, findPhased s m = some q → q.epoch ≤ m.epoch → ∃ v, exec (.pOwnerQuery t src p) s = .next v ∧
      v.out = s.out ++ [answer m 0xDB (ofBool q.holds) 0]) ∧
    (∀ k j, journalOf s p.die m = some (k, j) →
      (m.epoch ≠ j.epoch ∨ j.owner ≠ 256 + src ∨ m.phase ≠ j.phase → exec (.pPhaseAck t src p) s = .next u) ∧
      exec (.pOwnerReply t src p) s = .next { u with mem := { u.mem with journal := Tab.set u.mem.journal k { j with
        queries := Tab.del j.queries (256 + src),
        replies := if m.epoch < j.epoch then j.replies else Tab.set j.replies src m.holds } } } ∧
      (∀ (id : Nat) (r : PoolReq) (a : Nat) (x : Allot) (off : Nat), m.epoch = j.epoch → j.owner = 256 + src → m.phase = j.phase →
        m.status = 0 → j.live = some id → s.mem.journal = [(k, j)] → s.mem.hosts = [] → s.mem.ctxs = [] → s.mem.rights = [] →
        s.mem.live = [(id, { kind := .copy, req := r, allot := a, home := x.home, journal := some k })] → s.allot a = some x →
        s.calm → onCistern u .copy r a off → Mem.wf s.cis.pool = true → ∃ v, exec (.pPhaseAck t src p) s = .next v ∧
          v.mem.live = [] ∧ v.mem.journal = [] ∧ v.free = s.free + 1 ∧ poolPut s v (poolKey a off) (s.freeBytes r.length) ∧
          v.out = s.out ++ [poolAnswer u r 0xD1 0x00 false false true ⟨0, chanOf u a (off / 4096)⟩ 0 []])) ∧
    (∀ die e j w j', Tab.get? s.mem.journal (die * 8192 + e) = some j →
      (max s.now t < j.deadline → exec (.phaseDeadlineExpiry t die e) s = .next (s.tick t)) ∧
      (j.deadline ≤ max s.now t → j.members = [256 + w, 256 + s.sw.switchId.toNat] → w ≠ s.sw.switchId.toNat → j.owner = 256 + w →
        j' = { j with epoch := (j.epoch + 1) % 65536, deadline := max s.now t + us (max 50 s.mem.phaseUs.toNat), queries := Tab.set j.queries (256 + w) (Tab.getD j.queries (256 + w) 0 + 1) } →
        ∃ v, exec (.phaseDeadlineExpiry t die e) s = .next v ∧
          v.out = s.out ++ [.phase 0xDA w (journalMsg s j (zeros 16)).bytes, .phase 0xD8 w (journalMsg s j' (sourceArg s j')).bytes] ∧
          Tab.get? v.mem.journal (die * 8192 + e) = some j' ∧ v.mem.live = s.mem.live ∧ v.cis = s.cis))

/-! ### Cistern and regions (07) -/

/-- 07 R218, R219, R221–R223, R226, R228: a fill brings a tile's bytes, a write-back takes a dirty tile to its tray, cold
pages compress and expand, a lowered quota evicts, and an uncorrectable error refetches a clean tile and poisons any other. -/
def Obligations.TilesFillWriteBackAndPoison : Prop :=
  ∀ (t : Time) (a page i : Nat) (x : Allot) (p : Page) (s : State),
    let u := s.tick t
    let tile := 16 * page + i
    let op (kind : TrayKind) (use : TrayUse) (data : Bytes) : TrayOp :=
      { tray := x.tray, use := use, kind := kind, addr := x.trayOff + 4096 * tile, len := 4096, data := data, at_ := u.now }
    s.quiet → s.mem.live = [] → s.allot a = some x → s.confidential x.levee = false → i < 16 → s.page a page = some p → x.place = 1 →
    p.pendHint = none → s.isPoisoned a tile = false →
    x.flags = 0 → x.st = .active → s.trayDown x.tray = false →
    (∀ y id op d, Tab.get? s.mem.trays x.tray = some y → y.detaching = false → s.mem.ops = [(id, op)] → op.use = .fill a tile →
      op.tray = x.tray → d.length = 4096 → Mem.wf s.cis.pool = true →
      let filled (c : Instr) : Prop := ∃ v q, exec c s = .next v ∧ v.page a page = some q ∧ q.valid.getLsbD i = true ∧
        q.filling.getLsbD i = false ∧ q.dirty = p.dirty ∧ (∀ j < 16, j ≠ i → q.valid.getLsbD j = p.valid.getLsbD j) ∧
        poolPut s v (poolKey a (4096 * tile)) d ∧ v.mem.ops = [] ∧ v.out = s.out
      filled (.fillComplete t a tile d) ∧ filled (.trayResponse t x.tray id d) ∧
        (p.filling = BitVec.ofNat 16 (2 ^ i) → filled (.prefetchComplete t a page (zeros (4096 * i) ++ d)))) ∧
    (∀ since, p.dirty.getLsbD i = true → p.writing.getLsbD i = false → Tab.get? p.since i = some since →
      (since + us (max 10 (Tab.getD s.cis.flushUs x.home 0x3E8)) ≤ u.now → ∃ v q, exec (.writeBackDeadline t a tile) s = .next v ∧
        v.out = s.out ++ [.trayOp s.mem.nextOp (trayVa s x.tray (x.trayOff + 4096 * tile)) (op .write (.writeBack a tile false) (readPool s a (4096 * tile) 4096))] ∧
        v.page a page = some q ∧ q.writing.getLsbD i = true ∧ q.dirty = p.dirty ∧ v.cis.pool = s.cis.pool) ∧
      (u.now < since + us (max 10 (Tab.getD s.cis.flushUs x.home 0x3E8)) → exec (.writeBackDeadline t a tile) s = .next u)) ∧
    (∀ id op, s.mem.ops = [(id, op)] → op.use = .writeBack a tile false → p.evict = false → ∃ v q,
      exec (.writeBackComplete t a tile) s = .next v ∧ v.page a page = some q ∧ q.writing.getLsbD i = false ∧
      (p.again.getLsbD i = false → q.dirty.getLsbD i = false) ∧ (p.again.getLsbD i = true → q.dirty = p.dirty) ∧
      v.mem.ops = [] ∧ v.cis.pool = s.cis.pool) ∧
    (s.pwr.level = 0 → p.hint = 3 → p.k = none → pageBusy s a page = false →
      let k := packedTiles s a page p
      (k ≤ 12 → ∃ v, exec (.coldCompression t a page) s = .next v ∧ v.page a page = some { p with k := some k } ∧
        v.cis.pool = s.cis.pool) ∧
      (12 < k → exec (.coldCompression t a page) s = .next u)) ∧
    (∀ k, p.expanding = true → p.k = some k → roomFor s x.home x.levee (16 - k) = true → ∃ v,
      exec (.pageExpansion t a page) s = .next v ∧ v.page a page = some { p with k := none, expanding := false, hint := 0, evict := false } ∧
      v.cis.pool = s.cis.pool) ∧
    (s.mem.allots = [(a, x)] → s.cis.pages = [(pageKey a page, p)] → page < 2 ^ 28 → p.die = x.home → p.levee = x.levee →
      s.quota x.home x.levee = 0 → p.dirty = 0 → p.pinned = false → p.hint ≠ 4 → p.evict = false → p.k = none →
      pageBusy s a page = false → ∃ v, exec (.quotaLowered t x.home x.levee) s = .next v ∧ v.cis.pages = [] ∧ v.mem = s.mem) ∧
    (p.valid.getLsbD i = true → p.dirty.getLsbD i = false → ∃ v q, exec (.hbmUncorrectable t a tile) s = .next v ∧
      v.page a page = some q ∧ q.valid.getLsbD i = false ∧ q.filling.getLsbD i = true ∧ v.isPoisoned a tile = s.isPoisoned a tile ∧
      v.out = s.out ++ [.trayOp s.mem.nextOp (trayVa s x.tray (x.trayOff + 4096 * tile)) (op .read (.fill a tile) [])]) ∧
    (p.valid.getLsbD i = true → p.dirty.getLsbD i = true → ∃ v, exec (.hbmUncorrectable t a tile) s = .next v ∧
      v.isPoisoned a tile = true ∧ v.cis.poison.getLsbD x.home = (s.cis.poison.getLsbD x.home || decide (x.home < 2)) ∧
      v.out = s.out ∧ v.cis.pool = s.cis.pool)

/-- 07 R232–R244: regions start as version 1 with each block in its place; handles name a version or a staging map; a
publication replaces the staged blocks in a new version once the handle's requests are done. -/
def Obligations.RegionsOpenAndPublish : Prop :=
  ∀ (t : Time) (r : KReq) (s : State),
    let u := taken r t s
    let p := par r
    (∀ x id, u.allot (be p 2 2) = some x → begins 0x0601 t r s = true → plen r = 24 → be p 0 2 % 1024 ≠ 0 →
      u.admitted (be p 0 2 % 1024) = true → u.retiring (be p 0 2 % 1024) = false → x.levee = be p 0 2 % 1024 → x.st = .active →
      x.place ≠ 2 → x.coherent = false → regionOf u (be p 2 2) = none → mib2 ≤ be p 8 8 → be p 8 8 % mib2 = 0 →
      2 * be p 8 8 ≤ x.size → Tab.lowestFreeFrom u.cis.regions (4096 * x.home) 4096 = some id →
      roomFor u x.home x.levee (mapTiles (be p 8 8)) = true →
      let g : Region := { die := x.home, levee := x.levee, allot := be p 2 2, size := be p 8 8, cur := 1,
                          vers := [(1, List.range (be p 8 8 / 65536))] }
      exec (.regionCreate t r) s = okReply 0x0601 r { u with cis := { u.cis with regions := Tab.set u.cis.regions id g } }
        [toBe 2 id ++ zeros 6 ++ toBe 6 1 ++ zeros 2]) ∧
    (∀ g m k, u.region (be p 0 2) = some g → begins 0x0602 t r s = true → plen r = 16 → tenant r = some g.levee → byteAt p 2 ≤ 1 →
      Tab.get? g.vers (if be p 8 6 = 0 then g.cur else be p 8 6) = some m → Tab.lowestFreeFrom u.cis.handles (g.die * 65536) 65536 = some k →
      (byteAt p 2 = 1 → stages u (be p 0 2) < 8) →
      ∃ w h, exec (.regionOpen t r) s = okReply 0x0602 r w
          [toBe 8 (h.gen * 2 ^ 48 + be p 0 2 * 2 ^ 16 + k % 65536) ++ toBe 6 h.version ++ zeros 2] ∧
        Tab.get? w.cis.handles k = some h ∧ h.region = be p 0 2 ∧ h.stage = (byteAt p 2 == 1) ∧ h.map = m ∧ h.isOpen = true ∧
        h.version = (if be p 8 6 = 0 then g.cur else be p 8 6) ∧ (∀ n, n ≠ k → Tab.get? w.cis.handles n = Tab.get? u.cis.handles n) ∧
        w.mem = u.mem ∧ w.cis.regions = u.cis.regions ∧ w.cis.pool = u.cis.pool) ∧
    (∀ k h l, findHandle u (be p 0 8) l = some (k, h) → tenant r = some l → begins 0x0603 t r s = true → plen r = 8 → u.mem.live = [] →
      u.mem.hosts = [] → u.cis.pub = none → (u.cis.handles.map (·.1)).Nodup → ∃ w, exec (.regionClose t r) s = okReply 0x0603 r w [] ∧
        findHandle w (be p 0 8) l = none ∧ w.mem = u.mem ∧ w.cis.pool = u.cis.pool) ∧
    (∀ g k h l, u.region (be p 0 2) = some g → findHandle u (be p 8 8) l = some (k, h) → tenant r = some l →
      begins 0x0604 t r s = true → plen r = 32 → g.levee = l → h.stage = true → h.region = be p 0 2 → 0 < be p 28 4 →
      be p 24 4 + be p 28 4 ≤ g.blocks →
      (be p 16 6 = g.cur → (g.vers.filter fun v => decide (0 < readers u (be p 0 2) v.1)).length < 16 → g.cur < 2 ^ 48 - 1 →
        exec (.regionPublish t r) s = keepsRunning 0x0604 r { u with cis := { u.cis with
          pub := some { region := be p 0 2, handle := k, first := be p 24 4, count := be p 28 4, arrived := pubArrival u k } } } (.publish (be p 0 2))) ∧
      (be p 16 6 ≠ g.cur → ∃ v rp, exec (.regionPublish t r) s = .next v ∧ Tab.get? (v.session r.sess).cache r.seq = some [rp] ∧
        rp.status = 0x50 ∧ rp.frags = [toBe 6 g.cur ++ zeros 2] ∧ v.cis = u.cis)) ∧
    (∀ g, u.region (be p 0 2) = some g → begins 0x0605 t r s = true → plen r = 8 → (∀ l, tenant r = some l → g.levee = l) →
      let es := (g.vers.map fun v => toBe 6 v.1 ++ toBe 2 (min 0xFFFF (readers u (be p 0 2) v.1))).flatten
      exec (.regionQuery t r) s = okReply 0x0605 r u [toBe 6 g.cur ++ toBe 2 g.vers.length ++
        toBe 4 (freeBlocks u (be p 0 2) g) ++ toBe 4 (stages u (be p 0 2)) ++ slice es 0 128]) ∧
    (∀ id q g h x, s.cis.pub = some q → q.region = id → s.mem.live = [] → s.mem.hosts = [] → s.coh = {} → s.cis.prefetch = [] → s.region id = some g →
      Tab.get? s.cis.handles q.handle = some h → s.allot g.allot = some x → ∃ v g', exec (.publishCommit t id) s = .next v ∧
        v.region id = some g' ∧ g'.cur = g.cur + 1 ∧ v.cis.pub = none ∧
        Tab.get? g'.vers (g.cur + 1) = some (mergeMap (Tab.getD g.vers g.cur []) h.map q.first q.count) ∧ v.cis.pool = s.cis.pool) ∧
    (∀ (cur stage : BlockMap) (first count i : Nat), i < cur.length → (mergeMap cur stage first count).getD i 0 =
      (if first ≤ i ∧ i < first + count then stage.getD i 0 else cur.getD i 0))

/-! ### Coherence (08) -/

/-- 08 R246–R250, R267–R269: domains and agents as their commands give them; a dead agent's lines are dropped or lost. -/
def Obligations.CoherenceCommandsTakeEffect : Prop :=
  ∀ (t : Time) (r : KReq) (s : State),
    let u := taken r t s
    let p := par r
    (∀ d, begins 0x0701 t r s = true → plen r = 16 → be p 0 2 % 1024 ≠ 0 → u.admitted (be p 0 2 % 1024) = true →
      u.retiring (be p 0 2 % 1024) = false → byteAt p 2 ≤ 2 → byteAt p 3 ≤ 7 → Tab.lowestFree u.coh.domains 64 = some d →
      let x : Domain := { levee := be p 0 2 % 1024, mode := byteAt p 2, tc := byteAt p 3 }
      exec (.domainCreate t r) s = okReply 0x0701 r
        { u with coh := { u.coh with domains := Tab.set u.coh.domains d x } } [toBe 1 d ++ zeros 7]) ∧
    (∀ x a, begins 0x0702 t r s = true → plen r = 24 → u.domain (byteAt p 0) = some x →
      (byteAt p 1 = 4 ∧ be p 4 12 = 0 ∨ byteAt p 1 = 6) →
      (∀ e ∈ x.agents, e.2.live = true → ¬(e.2.addr = ⟨byteAt p 1, be p 4 16⟩ ∧ e.2.qpn = be p 20 3)) → u.retiring x.levee = false →
      (x.agents.filter fun e => e.2.live).length < 4096 → u.addrFenced ⟨byteAt p 1, be p 4 16⟩ = false →
      Tab.lowestFree (x.agents.filter fun e => e.2.live) 4096 = some a →
      ∃ w g, exec (.agentAdd t r) s = okReply 0x0702 r w [toBe 2 a ++ toBe 2 g.gen ++ zeros 4] ∧
        w.agent (byteAt p 0) a = some g ∧ g.addr = ⟨byteAt p 1, be p 4 16⟩ ∧ g.qpn = be p 20 3 ∧ g.live = true ∧
        (∀ y, Tab.get? u.coh.lastGen (byteAt p 0 * 4096 + a) = some y → g.gen = (y + 1) % 65536) ∧
        (Tab.get? u.coh.lastGen (byteAt p 0 * 4096 + a) = none → g.gen = 0) ∧
        (∀ b, b ≠ a → w.agent (byteAt p 0) b = u.agent (byteAt p 0) b) ∧ w.coh.dir = u.coh.dir ∧ w.mem = u.mem) ∧
    (∀ x, begins 0x0704 t r s = true → plen r = 8 → u.domain (byteAt p 0) = some x → byteAt p 1 ≤ 2 →
      ∃ w, exec (.domainModeSet t r) s = okReply 0x0704 r w [] ∧ w.domain (byteAt p 0) = some { x with mode := byteAt p 1 } ∧
        (∀ d, d ≠ byteAt p 0 → w.domain d = u.domain d) ∧ w.coh.dir = u.coh.dir ∧ w.mem = u.mem) ∧
    (∀ x, begins 0x0705 t r s = true → plen r = 8 → u.domain (byteAt p 0) = some x → (∀ l, tenant r = some l → x.levee = l) →
      let inDom (k : Nat) : Bool := (lineHome u k).2 == byteAt p 0 && (u.allot (keyAllot k)).isSome
      exec (.domainQuery t r) s = okReply 0x0705 r u [toBe 1 x.mode ++ toBe 1 x.tc ++ toBe 2 x.levee ++
        toBe 2 (liveAgents u (byteAt p 0)).length ++ toBe 2 (u.mem.allots.filter fun e => e.2.coherent && e.2.domain == byteAt p 0).length ++
        toBe 4 (u.coh.dir.filter fun e => inDom e.1).length ++
        toBe 4 ((u.coh.lost.filter inDom).length + (u.coh.dir.filter fun e => inDom e.1 && e.2.st == .lost).length)]) ∧
    (∀ g key e, begins 0x0703 t r s = true → plen r = 8 → u.agent (byteAt p 0) (be p 2 2) = some g → g.live = true →
      u.mem.live = [] → u.mem.hosts = [] → u.coh.trans = [] → u.coh.dieQ = [] → u.coh.snoops = [] → u.coh.lost = [] →
      u.kry.deferred = [] → u.coh.dir = [(key, e)] → (lineHome u key).2 = byteAt p 0 →
      ∃ v g', exec (.agentDead t r) s = .next v ∧ v.agent (byteAt p 0) (be p 2 2) = some g' ∧ g'.live = false ∧
        (e.st = .owned → e.owner = be p 2 2 → lineLost v key = true ∧ v.coh.dir = []) ∧
        (e.st = .shared → e.coarse = false → e.ptrs = [be p 2 2] → lineLost v key = false ∧ v.coh.dir = []) ∧
        (e.st = .owned → e.owner ≠ be p 2 2 → v.coh.dir = u.coh.dir) ∧ v.cis.pool = u.cis.pool)

/-- 08 R253, R257, R259, R264–R266, Table COH-6: on a line of the cistern that nobody holds, a read, an ownership request and
an atomic start a transaction that reads memory; a full write goes straight to memory; an upgrade by the one sharer needs no
data; a clean eviction gives the pointer up. A message from a source that is not the agent's is dropped. -/
def Obligations.CoherenceRequestsStartTransactions : Prop :=
  ∀ (t : Time) (p : Packet) (s : State) (a line : Nat) (x : Allot) (d : Domain) (g : Agent),
    let u := atEngine t p s
    let m := p.cohMsg
    let key := lineKey a line
    let pva := x.pva + 256 * line
    s.still → s.mem.live = [] → s.mem.hosts = [] → s.mem.rights = [] → s.coh.trans = [] → s.coh.dieQ = [] → s.coh.snoops = [] →
    s.coh.lost = [] → s.cis.poisoned = [] → s.domain m.domain = some d → s.agent m.domain m.agent = some g →
    g.gen = m.agen → g.live = true → g.qpn = m.srcQp → line < 2 ^ 36 → x.pva % 256 = 0 → m.pva = pva →
    translate u m.ver m.levee m.pva 256 = some a → s.allot a = some x → x.st = .active → x.place = 0 → x.flags = 1 →
    x.domain = m.domain → s.confidential x.levee = false → (∀ type, findResult s type m = none) → s.mute g.addr = false →
    (g.addr ≠ m.srcIp →
      let drops (c : Instr) : Prop := ∃ v, exec c s = .next v ∧ v.out = s.out ∧ v.mem = s.mem ∧ v.cis = s.cis ∧
        v.coh = { s.coh with status := v.coh.status } ∧ (Tab.getD v.coh.status m.die 0).getLsbD 0 = true
      drops (.cRdShared t p) ∧ drops (.cRdOwn t p) ∧ drops (.cUpgrade t p) ∧ drops (.cAtomic t p) ∧ drops (.cWriteFull t p) ∧
        drops (.cEvictClean t p) ∧ drops (.cWb t p) ∧ drops (.cSnpData t p) ∧ drops (.cSnpAck t p)) ∧
    (g.addr = m.srcIp → s.coh.dir = [] →
      let reads (c : Instr) (type : Nat) : Prop := ∃ v tr e, exec c s = .next v ∧ v.trans key = some tr ∧
        tr.work = .agent s.mem.nextLive type ∧ tr.reading = true ∧ tr.need = [] ∧ v.entry key = some e ∧ e.unheld = true ∧
        v.out = s.out ∧ v.cis.pool = s.cis.pool ∧ (v.liveReq s.mem.nextLive).isSome = true
      reads (.cRdShared t p) 0x01 ∧ reads (.cRdOwn t p) 0x02 ∧ reads (.cUpgrade t p) 0x03 ∧
      (m.op ≤ 2 → m.offset % 8 = 0 → m.offset ≤ 248 → reads (.cAtomic t p) 0x04) ∧
      (Mem.wf s.cis.pool = true → m.data.length = 256 → ∃ v, exec (.cWriteFull t p) s = .next v ∧
        v.out = s.out ++ [cohOut x.home d g 0x39 (cohFinish g m 0 0 0 pva [])] ∧ v.coh.dir = [] ∧ v.coh.trans = [] ∧
        v.mem.live = [] ∧ poolPut s v (poolKey a (256 * line)) m.data)) ∧
    (∀ e, g.addr = m.srcIp → s.coh.dir = [(key, e)] → e.st = .shared → e.coarse = false → e.ptrs = [m.agent] →
      (∃ v e', exec (.cUpgrade t p) s = .next v ∧ v.out = s.out ++ [cohOut x.home d g 0x38 (cohFinish g m 0 0 0 pva [])] ∧
        v.entry key = some e' ∧ e'.st = .owned ∧ e'.owner = m.agent ∧ e'.ownTxn = m.txn ∧ v.cis.pool = s.cis.pool) ∧
      (∃ v, exec (.cEvictClean t p) s = .next v ∧ v.out = s.out ++ [cohOut x.home d g 0x39 (cohFinish g m 0 0 0 pva [])] ∧
        v.coh.dir = [] ∧ v.cis.pool = s.cis.pool)) ∧
    (∀ e, g.addr = m.srcIp → s.coh.dir = [(key, e)] → e.st = .owned → Mem.wf s.cis.pool = true → m.data.length = 256 →
      (e.owner = m.agent → laterTxn m.txn e.ownTxn = true → ∃ v, exec (.cWb t p) s = .next v ∧
        v.out = s.out ++ [cohOut x.home d g 0x3A (cohFinish g m 0 0 0 pva [])] ∧ v.coh.dir = [] ∧ v.coh.trans = [] ∧
        poolPut s v (poolKey a (256 * line)) m.data) ∧
      (e.owner ≠ m.agent → ∃ v, exec (.cWb t p) s = .next v ∧
        v.out = s.out ++ [cohOut x.home d g 0x3A (cohFinish g m 0 0 0 pva [])] ∧
        v.coh.dir = s.coh.dir ∧ v.cis.pool = s.cis.pool))

/-- 08 R256, R259, R264, R266, Table COH-6: at the end of its memory read a transaction answers its agent with the line as it
stands, and the directory says who holds it from there on. -/
def Obligations.MemoryReadsGrantLines : Prop :=
  ∀ (t : Time) (m : CohMsg) (s : State) (a line id type k mode : Nat) (near : Bool) (x : Allot) (d : Domain) (g : Agent)
    (r : PoolReq) (e : DirEntry),
    let key := lineKey a line
    let l : Live := { kind := .coh type, req := r, coh := some m, allot := a, home := x.home }
    let tr : Trans := { die := x.home, domain := m.domain, work := .agent id type, tracker := some k, near := near, stage := 2,
                        reading := true, tried := true, mode := mode }
    let old := readPool s a (256 * line) 256
    let new := toLe 8 (atomicNew m.op (le old m.offset 8) (be m.data 0 8) (be m.data 8 8))
    s.still → s.mem.live = [(id, l)] → s.mem.hosts = [] → s.coh.trans = [(key, tr)] → s.coh.dieQ = [] → s.coh.snoops = [] →
    s.coh.lost = [] → s.cis.poisoned = [] → s.domain m.domain = some d → s.agent m.domain m.agent = some g →
    line < 2 ^ 36 → s.allot a = some x → x.st = .active → x.place = 0 → x.domain = m.domain → s.confidential x.levee = false →
    s.mute g.addr = false → s.coh.dir = [(key, e)] → e.st = .shared → e.coarse = false → e.ptrs = [] → Mem.wf s.cis.pool = true →
    let ends (v : State) (ty flags value : Nat) (data : Bytes) : Prop := exec (.memoryReadComplete t x.home key) s = .next v ∧
      v.coh.trans = [] ∧ v.mem.live = [] ∧
      v.out = s.out ++ [cohOut x.home d g ty (cohFinish g m flags 0 value (x.pva + 256 * line) data)]
    (type = 0x01 → ∃ v e', ends v 0x30 0 0 old ∧ v.entry key = some e' ∧ e'.st = .shared ∧ e'.ptrs = [m.agent] ∧
      v.cis.pool = s.cis.pool) ∧
    (type = 0x02 ∨ type = 0x03 → ∃ v e', ends v 0x30 1 0 old ∧ v.entry key = some e' ∧ e'.st = .owned ∧ e'.owner = m.agent ∧
      e'.ownTxn = m.txn ∧ v.cis.pool = s.cis.pool) ∧
    (type = 0x04 → near = false → m.offset ≤ 248 → ∃ v e', ends v 0x30 1 (le old m.offset 8) (splice old m.offset new) ∧
      v.entry key = some e' ∧ e'.st = .owned ∧ e'.owner = m.agent ∧ poolPut s v (poolKey a (256 * line + m.offset)) new) ∧
    (type = 0x04 → near = true → m.offset ≤ 248 → ∃ v, ends v 0x39 0 (le old m.offset 8) [] ∧ v.entry key = none ∧
      poolPut s v (poolKey a (256 * line + m.offset)) new)

/-- 08 R260, R262, R263, R267: a snoop's answer brings the line's data to memory and frees the transaction to go on; an
unanswered snoop is sent again after SNOOP_RETX_US; one a hold window held back is sent when the window ends. -/
def Obligations.SnoopsAreAnsweredAndRepeated : Prop :=
  ∀ (t : Time) (p : Packet) (s : State) (a line id k b mode : Nat) (x : Allot) (d : Domain) (g : Agent) (m2 : CohMsg)
    (r : PoolReq) (e : DirEntry) (n : Snoop),
    let u := s.tick t
    let m := p.cohMsg
    let key := lineKey a line
    let l : Live := { kind := .coh 0x02, req := r, coh := some m2, allot := a, home := x.home }
    let tr : Trans := { die := x.home, domain := m.domain, work := .agent id 0x02, tracker := some k, need := [m.agent], mode := mode }
    let sk := snoopKey x.home k m.agent
    let again : Out := cohOut x.home d g n.type
      { (default : CohMsg) with
        domain := m.domain, agent := m.agent, agen := g.gen, snoopId := k, pva := x.pva + 256 * line }
    s.still → s.mem.live = [(id, l)] → s.coh.trans = [(key, tr)] → s.coh.dieQ = [] → s.coh.snoops = [(sk, n)] → n.line = key →
    n.agent = m.agent → n.domain = m.domain → n.die = x.home → m2.agent = b → b ≠ m.agent → m2.domain = m.domain → k < 16384 →
    m.agent < 4096 → s.coh.lost = [] → s.cis.poisoned = [] → s.domain m.domain = some d →
    s.agent m.domain m.agent = some g → g.gen = m.agen → g.live = true → g.addr = m.srcIp → g.qpn = m.srcQp → line < 2 ^ 36 →
    x.pva % 256 = 0 → m.pva = x.pva + 256 * line → translate u m.ver m.levee m.pva 256 = some a → s.allot a = some x →
    x.st = .active → x.place = 0 → x.flags = 1 → x.domain = m.domain → s.confidential x.levee = false → s.mute g.addr = false →
    s.coh.dir = [(key, e)] → e.coarse = false → m.snoopId = k →
    let goesOn (v : State) : Prop := v.coh.snoops = [] ∧ ∃ tr' e', v.trans key = some tr' ∧ tr'.need = [] ∧ tr'.reading = true ∧
      v.entry key = some e' ∧ e'.unheld = true ∧ v.out = s.out
    (∀ at0, e.st = .owned → e.owner = m.agent → n.type = 0x21 → n.sent = some at0 → n.gotWb = false → Mem.wf s.cis.pool = true →
      m.data.length = 256 → ∃ v, exec (.cSnpData t p) s = .next v ∧ goesOn v ∧ poolPut s v (poolKey a (256 * line)) m.data) ∧
    (∀ at0, e.st = .shared → e.ptrs = [m.agent] → n.type = 0x20 → n.sent = some at0 → bitOf m.flags 0 = false →
      ∃ v, exec (.cSnpAck t p) s = .next v ∧ goesOn v ∧ v.cis.pool = s.cis.pool) ∧
    (∀ at0, n.sent = some at0 → n.gotWb = false → bitOf m.flags 0 = true →
      let w := atEngine t p s
      exec (.cSnpAck t p) s = .next { w with coh := { w.coh with snoops := [(sk, { n with awaitWb := true })] } }) ∧
    (∀ at0, n.sent = some at0 → (u.now < at0 + us (max 1 (Tab.getD s.coh.retxUs x.home 0x14)) →
        exec (.snoopRetransmit t x.home (k * 4096 + m.agent)) s = .next u) ∧
      (at0 + us (max 1 (Tab.getD s.coh.retxUs x.home 0x14)) ≤ u.now → n.resent < max 1 (Tab.getD s.coh.limit x.home 0x32) →
        ∃ v, exec (.snoopRetransmit t x.home (k * 4096 + m.agent)) s = .next v ∧ v.out = s.out ++ [again] ∧
          v.coh.snoops = [(sk, { n with sent := some u.now, resent := n.resent + 1 })] ∧ v.coh.dir = s.coh.dir)) ∧
    (n.sent = none → ∀ at0, s.coh.grants = [(key, [⟨m.agent, 0, true, at0⟩])] → mode ≠ 2 →
      (u.now < at0 + ns 512 → exec (.holdWindowExpiry t x.home key) s = .next u) ∧
      (at0 + ns 512 ≤ u.now → ∃ v, exec (.holdWindowExpiry t x.home key) s = .next v ∧ v.out = s.out ++ [again] ∧
        v.coh.snoops = [(sk, { n with sent := some u.now })]))

/-! ### Flumes and basins (09, 10) -/

/-- 10 R312–R316, R345, R346, 09 R307, R309: queues take zeroed tiles on each basin they name and give them back, counters are
allocated in one run of a die, set and freed, and basins report their state. -/
def Obligations.FlumeCommandsTakeEffect : Prop :=
  ∀ (t : Time) (r : KReq) (s : State),
    let u := taken r t s
    let p := par r
    let bs := (List.range (be p 6 2)).map fun i => byteAt p (48 + i)
    (∀ q, begins 0x0801 t r s = true → plen r = 560 → be p 0 2 % 1024 ≠ 0 → u.admitted (be p 0 2 % 1024) = true →
      u.retiring (be p 0 2 % 1024) = false → 1 ≤ be p 2 2 → be p 2 2 ≤ 4096 → 1 ≤ be p 4 2 → be p 4 2 ≤ 512 → 1 ≤ be p 6 2 →
      be p 6 2 ≤ 256 → byteAt p 8 ≤ 16 → (byteAt p 16 = 4 ∧ be p 20 12 = 0 ∨ byteAt p 16 = 6) →
      (∀ i < 256 - be p 6 2, byteAt p (48 + be p 6 2 + i) = 0) → bs.Nodup →
      (∀ i < byteAt p 8, ∃ e, parseSend u (slice p (304 + 16 * i) 16) = some e ∧ sendFenced u e = false) →
      (∀ x ∈ slice p (304 + 16 * byteAt p 8) (256 - 16 * byteAt p 8), x = 0) → u.flm.queues.length < 4096 →
      (∀ b ∈ bs, be p 4 2 ≤ (freeTiles u b).length) → Tab.lowestFree u.flm.queues 4096 = some q →
      Mem.wf u.bsn.store = true →
      ∃ v x, exec (.flumeQueueCreate t r) s = okReply 0x0801 r v [toBe 2 q ++ zeros 6] ∧ v.queue q = some x ∧
        x.levee = be p 0 2 % 1024 ∧ x.depth = be p 2 2 ∧ x.ntiles = be p 4 2 ∧ x.srcIp = ⟨byteAt p 16, be p 20 16⟩ ∧
        x.srcMac = be p 36 6 ∧ x.sends.length = byteAt p 8 ∧ x.slots.map (·.basin) = bs ∧ (∀ k, k ≠ q → v.queue k = u.queue k) ∧
        (∀ y ∈ x.slots, y.tiles.length = be p 4 2 ∧ ∀ n ∈ y.tiles, n < 512 ∧ Tab.get? u.bsn.owner (y.basin * 512 + n) = none ∧
          Tab.get? v.bsn.owner (y.basin * 512 + n) = some q ∧ readStore v y.basin (4096 * n) 4096 = zeros 4096) ∧
        v.mem = u.mem ∧ v.cis = u.cis ∧ v.flm.turns = u.flm.turns) ∧
    (∀ x, begins 0x0802 t r s = true → plen r = 8 → u.queue (be p 0 2) = some x → x.destroying = false → x.group = none →
      (∀ e ∈ u.flm.queues, e.2.destroying = false) → u.flm.chains = [] → u.pwr.window = false → u.kry.deferred = [] →
      (∀ y ∈ x.slots, y.lost = false ∧ (u.basin y.basin).replaying = false ∧ (u.basin y.basin).tagged = []) →
      ∃ v, exec (.flumeQueueDestroy t r) s = .next v ∧ v.queue (be p 0 2) = none ∧ v.kry.deferred = [] ∧
        (∀ k, k ≠ be p 0 2 → v.queue k = u.queue k) ∧ v.mem = u.mem ∧ v.cis = u.cis ∧
        ∀ y ∈ x.slots, ∀ n ∈ y.tiles, Tab.get? v.bsn.owner (y.basin * 512 + n) = none) ∧
    (∀ d c0, begins 0x0803 t r s = true → plen r = 16 → be p 0 2 % 1024 ≠ 0 → u.admitted (be p 0 2 % 1024) = true →
      u.retiring (be p 0 2 % 1024) = false → (byteAt p 2 = d ∨ byteAt p 2 = 2) → d ≤ 1 → bitOf (byteAt p 3) 0 = false →
      be p 8 4 = 0 → 1 ≤ be p 4 4 → be p 4 4 ≤ 4096 → c0 + be p 4 4 ≤ 32768 →
      (∀ i < be p 4 4, u.turn (32768 * d + c0 + i) = none) →
      ∃ v c, exec (.turnAlloc t r) s = okReply 0x0803 r v [toBe 4 c ++ zeros 4] ∧
        (byteAt p 2 ≤ 1 → turnDie c = byteAt p 2) ∧ turnDie (c + be p 4 4 - 1) = turnDie c ∧
        (∀ i < be p 4 4, u.turn (c + i) = none ∧ v.turn (c + i) = some { levee := be p 0 2 % 1024, value := 0 }) ∧
        (∀ k, k < c ∨ c + be p 4 4 ≤ k → v.turn k = u.turn k) ∧ v.flm.chains = u.flm.chains ∧ v.bsn = u.bsn) ∧
    (begins 0x0803 t r s = true → plen r = 16 → be p 0 2 % 1024 ≠ 0 → u.admitted (be p 0 2 % 1024) = true → byteAt p 2 ≤ 2 →
      bitOf (byteAt p 3) 0 = true → 1 ≤ be p 4 4 → be p 4 4 ≤ 4096 →
      (∀ i < be p 4 4, (∃ x, u.turn (be p 8 4 + i) = some x ∧ x.levee = be p 0 2 % 1024) ∧ turnWaited u (be p 8 4 + i) = false) →
      ∃ v, exec (.turnAlloc t r) s = okReply 0x0803 r v [zeros 8] ∧ (∀ i < be p 4 4, v.turn (be p 8 4 + i) = none) ∧
        (∀ k, k < be p 8 4 ∨ be p 8 4 + be p 4 4 ≤ k → v.turn k = u.turn k)) ∧
    (∀ x, begins 0x0804 t r s = true → plen r = 8 → u.turn (be p 0 2) = some x → x.levee = (tenant r).getD (be p 2 2 % 1024) →
      (tenant r ≠ none → be p 2 2 % 1024 = 0) →
      ∃ v, exec (.turnSet t r) s = okReply 0x0804 r v [] ∧ v.turn (be p 0 2) = some { x with value := (be p 4 4 + x.fresh u.now) % 2 ^ 32 } ∧
        (∀ k, k ≠ be p 0 2 → v.turn k = u.turn k) ∧ v.flm.chains = u.flm.chains ∧ v.bsn = u.bsn) ∧
    (begins 0x0805 t r s = true → plen r = 8 → (be p 0 2 ≤ 255 ∨ be p 0 2 = 0xFFFF) → 256 ≤ be p 4 4 → be p 4 4 ≤ 65536 →
      ∃ v, exec (.xcheckSet t r) s = okReply 0x0805 r v [] ∧
        ∀ b < 256, v.basin b = if be p 0 2 = b ∨ be p 0 2 = 0xFFFF then { u.basin b with n := be p 4 4 } else u.basin b) ∧
    (begins 0x0806 t r s = true → plen r = 8 → be p 0 2 ≤ 255 →
      let b := be p 0 2
      let x := u.basin b
      exec (.basinState t r) s = okReply 0x0806 r u [toBe 1 x.power.code ++ toBe 1 x.quar.code ++ toBe 1 x.quarTemp ++
        toBe 1 x.quarMask ++ toBe 1 (b ^^^ 64) ++ toBe 1 (b ^^^ 32) ++ toBe 2 x.taint.length ++ toBe 4 (min x.checks 0xFFFFFFFF) ++
        toBe 4 (min x.suspect 0xFFFFFFFF) ++ toBe 4 (if x.quar = .conditional then 256 else x.n) ++ zeros 4])

/-- 10 R317–R321, R342, R343, R347, R348, R326: a good post starts a chain, a duplicate is answered from its record, a bad one is
rejected; a chain's descriptors come from its tile of the pool, its next one begins on its basin, its writes are acknowledged one
by one, and at its end one record leaves and is kept. -/
def Obligations.PostsStartChains : Prop :=
  ∀ (t : Time) (s : State),
    let u := s.tick t
    (∀ (p : Post) (q : Queue),
      let b := p.payload
      let seq := be b 0 6
      let inline := bitOf (byteAt b 6) 0
      s.mute p.net.srcIp = false → s.queue p.queue = some q → q.destroying = false → q.levee = p.levee → q.group = none →
      (q.posters.length < 64 → (∀ x ∈ q.posters, x.ip ≠ p.net.srcIp) → postOk q b = true →
        (s.flm.chains.filter fun e => e.2.queue == p.queue).length < q.depth → (∀ y ∈ q.slots, y.lost = false) → q.slots ≠ [] →
        ∃ v c, exec (.flumePost t p) s = .next v ∧ v.chain s.flm.nextChain = some c ∧ c.queue = p.queue ∧ c.st = .waiting ∧
          c.seq = seq ∧ c.count = be b 8 4 ∧ c.idx = 0 ∧ c.ver = p.ver ∧ v.out = s.out ∧ v.bsn = s.bsn ∧ v.cis = s.cis ∧
          (byteAt b 7 ≠ 0xFF → c.slot = byteAt b 7) ∧
          (byteAt b 7 = 0xFF → c.slot < q.slots.length ∧ ∀ j < q.slots.length,
            (s.flm.chains.filter fun e => e.2.queue == p.queue && e.2.slot == c.slot && e.2.st == .waiting).length ≤
              (s.flm.chains.filter fun e => e.2.queue == p.queue && e.2.slot == j && e.2.st == .waiting).length) ∧
          (inline = true → ∀ i < be b 8 4, Tab.get? c.descs i = some (slice b (32 + 64 * i) 64)) ∧
          (inline = false → c.descs = [] ∧ c.pva = be b 16 8) ∧ ∀ k, k ≠ s.flm.nextChain → v.chain k = s.chain k) ∧
      (q.posters.length < 64 → (∀ x ∈ q.posters, x.ip ≠ p.net.srcIp) → postOk q b = true →
        q.depth ≤ (s.flm.chains.filter fun e => e.2.queue == p.queue).length →
        ∃ v, exec (.flumePost t p) s = .next v ∧ v.flm.chains = s.flm.chains ∧
          v.out = s.out ++ [.record (.engine (postDie s p)) (recordNet p.net (be b 12 3)) p.cls 0x4B590002
            (recordBytes seq St.busy 0 0 0 0 p.queue 0xFF none)]) ∧
      (q.posters.length < 64 → (∀ x ∈ q.posters, x.ip ≠ p.net.srcIp) → postOk q b = false → 32 ≤ b.length →
        ∃ v, exec (.flumePost t p) s = .next v ∧ v.flm.chains = s.flm.chains ∧
          v.out = s.out ++ [.record (.engine (postDie s p)) (recordNet p.net (be b 12 3)) p.cls 0x4B590002
            (recordBytes seq St.badParam 0 0 0 0 p.queue 0xFF none)]) ∧
      (∀ x k, 32 ≤ b.length → q.posters = [x] → x.ip = p.net.srcIp → postPos x.high seq = .inside → seq ∉ x.live →
        Tab.get? x.cache seq = some k → ∃ v, exec (.flumePost t p) s = .next v ∧ v.flm = s.flm ∧
          v.out = s.out ++ [.record (.engine (postDie s p)) (recordNet p.net (be b 12 3)) p.cls 0x4B590002
            (splice k 7 (toLe 1 (byteAt k 7 ||| 8)))])) ∧
    (∀ q ip x, s.queue q = some x → ∃ v y, exec (.posterContextReclaim t q ip) s = .next v ∧ v.queue q = some y ∧
      (∀ z ∈ x.posters, z.ip = ip → z.live = [] → z.last + sec 1 ≤ u.now → z ∉ y.posters) ∧
      (∀ z ∈ x.posters, z.ip ≠ ip ∨ u.now < z.last + sec 1 → z ∈ y.posters) ∧ v.flm.chains = s.flm.chains) ∧
    (∀ cid c q a off,
      let base := (c.pva + 64 * c.idx) / 4096 * 4096
      s.quiet → s.mem.live = [] → s.chain cid = some c → s.queue c.queue = some q → bitOf c.flags 0 = false → c.st ≠ .ended →
      c.idx < c.count → c.pva % 64 = 0 → Tab.get? c.descs c.idx = none → Tab.get? c.fetched (tileKeyOf c c.idx) = none →
      onCistern u .read (flumeReq u c q base 4096 []) a off → s.cis.onceTiles = [] → poolSumOk s a (off / 4096) = true →
      ∃ v c', exec (.chainTileFetch t cid) s = .next v ∧ v.chain cid = some c' ∧ c'.st = c.st ∧ c'.idx = c.idx ∧
        (∀ j < c.count, (c.pva + 64 * j) / 4096 * 4096 = base →
          Tab.get? c'.descs j = some (slice (readPool s a off 4096) (c.pva + 64 * j - base) 64)) ∧
        v.cis.pool = s.cis.pool ∧ v.mem.live = [] ∧ v.out = s.out) ∧
    (∀ b cid c q d x, (s.basin b).power = .active → (s.basin b).current = none → (s.basin b).replaying = false →
      s.pwr.window = false → s.chain cid = some c → chainsOn s b = [(cid, c)] → c.failed = none → (c.st = .waiting ∨ c.st = .ready) →
      Tab.get? c.descs c.idx = some d → (waitsPrior d = true → c.unacked = 0) → s.queue c.queue = some q →
      q.slots[c.slot]? = some x → x.moving = none →
      ((1 ≤ byteAt d 0 ∧ byteAt d 0 ≤ 0x13) → ∃ v, exec (.descriptorBegin t b) s = .next v ∧
        (v.basin b).current = some cid ∧ v.chain cid = some { c with st := .running } ∧ v.out = s.out ∧ v.mem = s.mem ∧
        v.bsn.store = s.bsn.store) ∧
      ((byteAt d 0 = 0 ∨ 0x14 ≤ byteAt d 0) → ∃ v c', exec (.descriptorBegin t b) s = .next v ∧ (v.basin b).current = none ∧
        v.chain cid = some c' ∧ c'.st = .ended ∧ c'.status = St.badParam ∧ c'.index = c.idx)) ∧
    (∀ cid c, s.chain cid = some c → 0 < c.applied → c.netDue = [] → ∃ v, exec (.writeAcknowledged t cid) s = .next v ∧
      v.chain cid = some { c with applied := c.applied - 1, unacked := c.unacked - 1 } ∧ v.out = s.out ∧ v.mem = s.mem) ∧
    (∀ cid c q, s.quiet → s.chain cid = some c → c.st = .ended → c.unacked = 0 → s.pwr.window = false →
      (∀ e ∈ s.bsn.tab, e.2.tagged = []) → c.failed = none → c.net = [] → c.netDue = [] → s.mute c.post.net.srcIp = false →
      (∀ e ∈ s.flm.queues, e.2.destroying = false) → s.queue c.queue = some q →
      let ok := c.status == St.ok
      let k := recordBytes c.seq c.status (4 * ofBool c.replayed) (if ok then c.count else c.index) c.skipped c.value c.queue c.slot none
      ∃ v, exec (.chainCompletion t cid) s = .next v ∧ v.chain cid = none ∧
        v.out = s.out ++ [.record (recordFrom s c) (recordNet c.post.net c.retQp) c.post.cls 0x4B590002 k] ∧
        ∀ x ∈ q.posters, x.ip = c.post.net.srcIp → ∃ q' y, v.queue c.queue = some q' ∧ y ∈ q'.posters ∧ y.ip = x.ip ∧
          Tab.get? y.cache c.seq = some k ∧ c.seq ∉ y.live)

/-- 10 R322–R344: the descriptor that a basin has begun runs to its end from its own window: what it writes is written, its
VALUE is kept, its turn is signalled, and its chain goes on at the next descriptor, past those it skips, or ends; a TURN_WAIT not
satisfied waits; a SCREEN_QUERY's keys join its levee's bank, 64 at a time. -/
def Obligations.DescriptorsExecute : Prop :=
  ∀ (t : Time) (s : State) (b cid n : Nat) (c : Chain) (q : Queue) (x : Slot) (d : Desc) (f : FCtx → Op OpOut) (o : OpOut),
    let u := s.tick t
    executes s b cid c q x d → opOf (byteAt d 0) = some f → n ≤ 2 ^ 21 →
    answers u x c.slot (f (flumeCtx u c q d)) [] n = some o →
    (∀ i : Instr, ((i, byteAt d 0) ∈ [(.load t b, 0x01), (.store t b, 0x02), (.reduce t b, 0x03), (.axpy t b, 0x04),
        (.gemm t b, 0x05), (.gemv t b, 0x06), (.topk t b, 0x07), (.gather t b, 0x08), (.scatter t b, 0x09), (.filter t b, 0x0A),
        (.scan t b, 0x0B), (.quantise t b, 0x0C), (.dequantise t b, 0x0D), (.compress t b, 0x0E), (.expand t b, 0x0F),
        (.turnWait t b, 0x11), (.turnSignal t b, 0x12), (.skip t b, 0x13)]) →
      o.wait = none → o.keys = [] → o.frames = [] → (∀ w ∈ o.writes, isOwn c w.1 = true) → bitOf (byteAt d 1) 1 = false →
      let next := c.idx + 1 + o.skip.getD 0
      ∃ v c', exec i s = .next v ∧ (v.basin b).current = none ∧ v.chain cid = some c' ∧ c'.idx = next ∧ c'.value = o.value ∧
        c'.skipped = c.skipped + min (o.skip.getD 0) (c.count - (c.idx + 1)) ∧
        (next < c.count → c'.st = .ready) ∧ (c.count ≤ next → c'.st = .ended ∧ c'.status = St.ok ∧ c'.index = c.count) ∧
        v.bsn.store = ((o.writes.filter fun w => !w.2.isEmpty).foldl (fun m w => (writeWindow x w.1.addr w.2 m).1) s).bsn.store ∧
        v.flm.turns = (o.signal.elim u fun y => turnAdd y.1 y.2 u).flm.turns ∧ v.out = s.out ∧ v.mem = s.mem ∧ v.cis = s.cis ∧
        (∀ k, k ≠ cid → v.chain k = s.chain k) ∧ v.flm.queues = s.flm.queues ∧ v.bsn.owner = s.bsn.owner) ∧
    (∀ k target tout, byteAt d 0 = 0x11 → o.wait = some (k, target, tout) → ∃ v c', exec (.turnWait t b) s = .next v ∧
      (v.basin b).current = none ∧ v.chain cid = some c' ∧ c'.idx = c.idx ∧
      c'.st = .turnWait k target (if tout = 0 then none else some (u.now + us tout)) ∧ v.flm.turns = s.flm.turns ∧
      v.bsn.store = s.bsn.store ∧ v.out = s.out) ∧
    (∀ k rows, byteAt d 0 = 0x10 → o.keys ≠ [] → s.screenQuota q.levee = some (k, rows) → (s.bank k).queue = [] →
      ∃ v c', exec (.screenQuery t b) s = .next v ∧ v.chain cid = some c' ∧ c'.st = .searching ∧ c'.idx = c.idx ∧
        (v.basin b).current = some cid ∧ c'.asked = min 64 o.keys.length ∧ (v.bank k).queue.length = min 64 o.keys.length ∧
        (∀ i < min 64 o.keys.length, ∃ y, (v.bank k).queue[i]? = some y ∧ y.chain = cid ∧ y.num = i ∧ y.levee = q.levee ∧
          y.key = ownKey q.levee (BitVec.ofNat 144 (le (o.keys.getD i []) 0 18))) ∧ v.bsn.store = s.bsn.store ∧ v.out = s.out)

/-- 10 R315, R344, 09 R297–R300: a waiting chain goes on when its counter reaches the target and ends BUSY at its deadline; a slot
on a basin out of service moves with its window, or is lost; a dip window's operations are replayed. -/
def Obligations.TurnsWaitAndSlotsMove : Prop :=
  ∀ (t : Time) (s : State),
    let u := s.tick t
    (∀ cid c q k target dl x z, s.chain cid = some c → c.st = .turnWait k target dl → s.turn k = some x → s.queue c.queue = some q →
      slotOf s c = some z → (s.basin z.basin).replaying = false →
      (turnReached x.value target = true → c.failed = none → q.destroying = false → (∀ d, Tab.get? c.descs c.idx = some d →
          bitOf (byteAt d 1) 1 = false) → ∃ v c', exec (.turnWaitSatisfied t cid) s = .next v ∧ v.chain cid = some c' ∧
        c'.idx = c.idx + 1 ∧ c'.value = x.value ∧ (c.idx + 1 < c.count → c'.st = .ready) ∧
        (c.count ≤ c.idx + 1 → c'.st = .ended ∧ c'.status = St.ok) ∧ v.flm.turns = s.flm.turns ∧ v.out = s.out) ∧
      (turnReached x.value target = false → exec (.turnWaitSatisfied t cid) s = .next u) ∧
      (∀ at0, dl = some at0 → turnReached x.value target = false →
        (u.now ≤ at0 → exec (.turnWaitTimeout t cid) s = .next u) ∧
        (at0 < u.now → ∃ v c', exec (.turnWaitTimeout t cid) s = .next v ∧ v.chain cid = some c' ∧ c'.st = .ended ∧
          c'.status = St.busy ∧ c'.index = c.idx ∧ v.flm.turns = s.flm.turns))) ∧
    (∀ v target : Nat, v < 2 ^ 32 → target < 2 ^ 32 →
      (turnReached v target = true ↔ ∃ d < 2 ^ 31, v = (target + d) % 2 ^ 32)) ∧
    (∀ q i x y, s.queue q = some y → y.slots[i]? = some x → x.lost = false → x.moving = none →
      (s.basin x.basin).quar = .heldOut → Mem.wf s.bsn.store = true →
      (∀ b, moveTarget s y x = some b → ∃ v y', exec (.slotMove t q i) s = .next v ∧ v.queue q = some y' ∧
        y'.slots[i]? = some { x with moving := some b } ∧ basinDie b = basinDie x.basin ∧ (s.basin b).quar = .none ∧
        (∀ n ∈ (freeTiles s b).take y.ntiles, Tab.get? v.bsn.owner (b * 512 + n) = some q ∧
          readStore v b (4096 * n) 4096 = zeros 4096) ∧ v.flm.chains = s.flm.chains) ∧
      (moveTarget s y x = none → y.group = none → ∃ v y', exec (.slotMove t q i) s = .next v ∧ v.queue q = some y' ∧
        y'.slots[i]? = some { x with lost := true } ∧ (∀ n ∈ x.tiles, Tab.get? v.bsn.owner (x.basin * 512 + n) = none) ∧
        ∀ cid c, s.chain cid = some c → c.queue = q → c.slot = i → c.st ≠ .ended → ∃ c', v.chain cid = some c' ∧ c'.st = .ended ∧
          c'.status = St.stateLost)) ∧
    (∀ q i x y b, s.queue q = some y → y.slots[i]? = some x → x.moving = some b → b ≠ x.basin → s.pwr.window = false →
      (s.basin x.basin).replaying = false → (s.basin x.basin).tagged = [] → s.flm.chains = [] → Mem.wf s.bsn.store = true →
      (∀ z ∈ y.slots, z.lost = false → z.basin ≠ b) → (∀ n ∈ x.tiles, n < 512) → x.tiles.Nodup →
      let new := ((List.range 512).filter fun n => Tab.get? s.bsn.owner (b * 512 + n) == some q).take y.ntiles
      new.length = x.tiles.length → x.basin < 256 → b < 256 → asleep s x.basin = false → asleep s b = false →
      ∃ v y', exec (.slotCopyComplete t q i) s = .next v ∧ v.queue q = some y' ∧ y'.slots[i]? = some { basin := b, tiles := new } ∧
        (∀ j < new.length, readStore v b (4096 * new.getD j 0) 4096 = readStore s x.basin (4096 * x.tiles.getD j 0) 4096) ∧
        ∀ n ∈ x.tiles, Tab.get? v.bsn.owner (x.basin * 512 + n) = none) ∧
    (∀ b x, s.basin b = x → s.pwr.window = false → x.replaying = true → x.restarts < 3 → x.current = none →
      s.quiet → s.col.groups = [] → (∀ e ∈ s.flm.queues, e.2.destroying = false) →
      ((∀ o ∈ x.tagged, o.lost = false ∧ o.outbound = [] ∧ ∃ cid idx, o.op = .desc cid idx) →
        ∃ v, exec (.windowReplay t b) s = .next v ∧ (v.basin b).replaying = false ∧ (v.basin b).tagged = [] ∧ (v.basin b).undo = [] ∧
          v.bsn.store = ((x.tagged.flatMap (·.writes)).foldl (fun m w => (writeStore b w.1 w.2 m).1) (restoreUndo b s)).bsn.store ∧
          (∀ n ∈ (v.basin b).taint, n ∈ x.taint) ∧ (∀ o ∈ x.tagged, ∀ cid idx c, o.op = .desc cid idx → s.chain cid = some c →
            ∃ c', v.chain cid = some c' ∧ c'.replayed = true ∧ c'.status = c.status ∧ c'.idx = c.idx) ∧
          v.out = s.out ∧ v.mem = s.mem) ∧
      (∀ o cid idx c, x.tagged = [o] → o.lost = true → o.outbound = [] → o.op = .desc cid idx → s.chain cid = some c →
        c.status ≠ St.dipRetry → ∃ v c', exec (.windowReplay t b) s = .next v ∧ (v.basin b).replaying = false ∧
          (v.basin b).tagged = [] ∧ v.bsn.store = (restoreUndo b s).bsn.store ∧ v.chain cid = some c' ∧ c'.st = .ended ∧
          c'.status = St.dipRetry ∧ c'.index = idx ∧
          ∀ w ∈ o.writes, Tab.get? x.undo (w.1 / 4096) = none → w.1 / 4096 ∈ (v.basin b).taint))

/-- 09 R301–R306, R308, 01 R34: an idle basin is clock-gated, then power-gated, and wakes for work, with a write of another
basin that waited for it made then; a sampled operation is
checked on another basin: an equal result only counts, an unequal one is recorded and the odd one out suspected; a check not
finished in 1 ms is given up. -/
def Obligations.BasinsGateWakeAndCheck : Prop :=
  ∀ (t : Time) (b : Nat) (x : Basin) (s : State),
    let u := s.tick t
    s.basin b = x →
    (x.power = .active → basinWork s b = false →
      (x.idleSince + clockGateAfter s x ≤ u.now → ∃ v, exec (.basinClockGate t b) s = .next v ∧ (v.basin b).power = .clockGated ∧
        (v.basin b).since = u.now ∧ v.bsn.store = s.bsn.store ∧ (∀ k, k ≠ b → v.basin k = s.basin k) ∧ v.flm = s.flm) ∧
      (u.now < x.idleSince + clockGateAfter s x → exec (.basinClockGate t b) s = .next u)) ∧
    (x.power = .clockGated → basinWork s b = false →
      (x.idlePg ≠ 0 → x.since + us x.idlePg.toNat ≤ u.now → ∃ v, exec (.basinPowerGate t b) s = .next v ∧
        (v.basin b).power = .powerGated ∧ v.bsn.store = s.bsn.store ∧ (∀ k, k ≠ b → v.basin k = s.basin k)) ∧
      (x.idlePg = 0 → exec (.basinPowerGate t b) s = .next u)) ∧
    (basinWork s b = true → x.mail = [] →
      (x.power = .clockGated → ∃ v, exec (.basinWake t b) s = .next v ∧ (v.basin b).power = .active ∧ (v.basin b).idleSince = u.now ∧
        v.bsn.store = s.bsn.store ∧ v.flm = s.flm) ∧
      (x.power = .powerGated → ∃ v, exec (.basinWake t b) s = .next v ∧ (v.basin b).power = .waking ∧ v.bsn.store = s.bsn.store ∧
        v.flm = s.flm)) ∧
    (x.power = .waking → x.mail = [] → ∃ v, exec (.basinWake t b) s = .next v ∧ (v.basin b).power = .active ∧
      v.bsn.store = s.bsn.store) ∧
    (∀ ch c q i y off d, x.power = .waking → x.mail = [.peerWrite ch i off d] → s.pwr.window = false → s.chain ch = some c →
      s.queue c.queue = some q → q.slots[i]? = some y → y.basin = b → y.lost = false →
      ∃ v, exec (.basinWake t b) s = .next v ∧ (v.basin b).power = .active ∧ (v.basin b).mail = [] ∧
        v.bsn.store = (writeWindow y off d s).1.bsn.store ∧ v.chain ch = some { c with unacked := c.unacked - 1 }) ∧
    (∀ c cb, x.check = some c → c.checking = none → c.depends ≤ 16777216 → checkingBasin s b = some cb →
      ∃ v, exec (.xcheckCountdown t b) s = .next v ∧
        (v.basin b).check = some { c with checking := some cb, started := u.now } ∧
        x.interval / 2 ≤ (v.basin b).countdown ∧ (0 < x.interval → (v.basin b).countdown < x.interval / 2 + x.interval) ∧
        v.bsn.store = s.bsn.store ∧ v.flm = s.flm) ∧
    (∀ c, x.check = some c → c.checking = none → 16777216 < c.depends → ∃ v, exec (.xcheckCountdown t b) s = .next v ∧
      (v.basin b).check = none ∧ gaugeVal v.gauges (gk 6 4 1 b) = (gaugeVal s.gauges (gk 6 4 1 b) + 1) % 2 ^ 64) ∧
    (∀ c cb, x.check = some c → c.checking = some cb →
      (∀ res third, toLe c.result.length res = c.result → u.now ≤ c.started + ms 1 → ∃ v, exec (.xcheckComplete t b res third) s = .next v ∧
        (v.basin b).check = none ∧ (v.basin b).checks = x.checks + 1 ∧ (v.basin b).idleSince = u.now ∧ (v.basin cb).idleSince = u.now ∧
        v.hlt = s.hlt ∧ v.flm = s.flm ∧ v.bsn.store = s.bsn.store) ∧
      (∀ res third, c.started + ms 1 < u.now → exec (.xcheckComplete t b res third) s = exec (.xcheckAbandoned t b) s) ∧
      (∀ res k, toLe c.result.length res ≠ c.result → thirdBasin u b cb = some k → k ≠ b → cb ≠ b → s.hlt.suspects = [] →
        1 < s.hlt.quarCount.toNat → u.now ≤ c.started + ms 1 →
        ∃ v, exec (.xcheckComplete t b res (le c.result 0 c.result.length)) s = .next v ∧ (v.basin b).check = none ∧
          (v.basin b).suspect = x.suspect ∧ (v.basin cb).suspect = (s.basin cb).suspect + 1 ∧
          (v.basin cb).event.getLsbD 3 = true ∧ v.bsn.store = s.bsn.store ∧ v.flm = s.flm) ∧
      (c.started + ms 1 ≤ u.now → ∃ v, exec (.xcheckAbandoned t b) s = .next v ∧ (v.basin b).check = none ∧
        (v.basin b).checks = x.checks ∧ v.hlt = s.hlt) ∧
      (u.now < c.started + ms 1 → exec (.xcheckAbandoned t b) s = .next u))

/-- 09 R278, R280, R282, R286, R287, R289, R293, 10 R335: packed elements read back, every code that is not NaN decodes to a
value that encodes to it again, an FRW4 block and a raw FRWL block open to what they hold, INT32 sums saturate, and a selection keeps
its rank order.

10 R323, R324, R330, R341, R344, R345: what LOAD, TURN_WAIT, TURN_SIGNAL and SKIP answer, from a descriptor of their exact
fields; a SEED without SR makes any operation BAD_PARAM. -/
def Obligations.FormatsRoundTripAndDescriptorsAnswer : Prop :=
  ((∀ (f : Nat) (l : List Nat), f ≤ 0x0C → (∀ c ∈ l, c < 2 ^ fmtBits f) →
    (pack f l).length = packedLen f l.length ∧ ∀ i < l.length, elemAt f (pack f l) i = l.getD i 0) ∧
  (∀ f c : Nat, f ≤ 0x0C → f ≠ 0x0A → c < 2 ^ fmtBits f → (decElem f c).isNan = false → encElem f (decElem f c) none = c) ∧
  (∀ (seed : Option Nat) (base : Nat) (l : List Machine.Num) (img : Nat → Nat → Option Bytes), l.length = 256 →
    (encFrw4 seed base l).length = 144 ∧
    openBlock 0x0D 0 img (encFrw4 seed base l) = .values (decFrw4 (encFrw4 seed base l)) ∧
    ∀ i < 2 ^ 16, i ≠ 144 → openBlock 0x0D 0 img (splice (encFrw4 seed base l) 4 (toLe 2 i)) = .bad St.badParam) ∧
  (∀ (f slot gen w : Nat) (l : List Nat) (img : Nat → Nat → Option Bytes), elemOf f = some w → slot < 64 → gen < 16 → img slot gen ≠ none →
    l.length = 256 → (∀ c ∈ l, c < 256 ^ elemWidth w) → openBlock 0x0E f img (encFrwl f slot gen none l) = .values (l.map (decElem f))) ∧
  (∀ (a : Int) (l : List Int),
    (-2147483648 ≤ a + l.sum → a + l.sum ≤ 2147483647 → accInt a l = (a + l.sum, false)) ∧
    (2147483647 < a + l.sum → accInt a l = (2147483647, true)) ∧ (a + l.sum < -2147483648 → accInt a l = (-2147483648, true))) ∧
  (∀ (small : Bool) (len k : Nat) (v : Nat → Int), k ≤ len →
    let l := topK small len k fun i => Num.ofInt (v i)
    let first (i j : Nat) : Prop := (if small then v i < v j else v j < v i) ∨ (v i = v j ∧ i < j)
    l.length = k ∧ l.Pairwise first ∧ (∀ i ∈ l, i < len) ∧ ∀ i ∈ l, ∀ j < len, j ∉ l → first i j)) ∧
  (∀ (s : State) (x : Slot) (c : FCtx),
    let base (flags : Nat) (a b d : Nat) : Prop := c.p 1 1 = flags ∧ c.p 2 4 = 0 ∧ c.a = a ∧ c.b = b ∧ c.dd = d ∧ c.p 32 8 = 0
    let off : Nat := 15 * 2 ^ 60
    (∀ src dst n flags, bitOf flags 2 = false → bitOf flags 3 = false → base flags src off dst → src < 2 ^ 21 → dst < 2 ^ 21 → c.p 40 4 = n → 1 ≤ n → n ≤ 2097152 →
      c.p 44 8 = 0 → c.p 52 8 = 0 → c.p 60 4 = 0 → (src + n ≤ dst ∨ dst + n ≤ src) → c.chain = none →
      c.status ⟨0, c.me, src, n⟩ = St.ok → c.status ⟨0, c.me, dst, n⟩ = St.ok →
      ∃ o bs, answers s x c.me (opLoad c) [] 2 = some o ∧ o.writes = [(⟨0, c.me, dst, n⟩, bs)] ∧ o.wait = none ∧ o.keys = [] ∧
        o.frames = [] ∧ o.signal = none ∧ o.skip = none ∧ o.value = 0 ∧
        bs = (windowCuts x src n).flatMap fun k => readStore s x.basin (4096 * k.1 + k.2.1) k.2.2.2) ∧
    (∀ k v target tout flags, bitOf flags 2 = false → bitOf flags 3 = false → base flags off off off → c.p 40 4 = target → c.p 44 2 = k → c.p 46 2 = 0 → c.p 48 4 = tout →
      c.p 52 8 = 0 → c.p 60 4 = 0 → c.counter k = some v →
      ∃ o, answers s x c.me (opTurnWait c) [] 1 = some o ∧ o.writes = [] ∧ o.skip = none ∧ o.signal = none ∧
        (turnReached v target = true → o.wait = none ∧ o.value = v) ∧ (turnReached v target = false → o.wait = some (k, target, tout))) ∧
    (∀ k v inc flags, bitOf flags 2 = false → bitOf flags 3 = false → base flags off off off → c.p 40 4 = inc → 1 ≤ inc → inc < 2 ^ 31 → c.p 44 2 = k → c.p 46 2 = 0 →
      c.p 48 8 = 0 → c.p 56 8 = 0 → c.counter k = some v →
      ∃ o, answers s x c.me (opTurnSignal c) [] 1 = some o ∧ o.signal = some (k, inc) ∧ o.writes = [] ∧ o.wait = none ∧ o.skip = none) ∧
    (∀ v val n cmp flags, bitOf flags 2 = false → bitOf flags 3 = false → base flags off off off → c.p 40 4 = val → c.p 46 2 = n → 1 ≤ n → c.p 48 1 = 2 → c.p 49 1 = cmp →
      cmp ≤ 5 → c.p 50 2 = 0 → c.p 52 8 = 0 → c.p 60 4 = 0 → c.prev = some v → v < 2 ^ 32 →
      ∃ o, answers s x c.me (opSkip c) [] 1 = some o ∧ o.writes = [] ∧ o.wait = none ∧ o.signal = none ∧
        (o.skip = some n ↔ (cmp = 0 ∧ v = val ∨ cmp = 1 ∧ v ≠ val ∨ cmp = 2 ∧ v < val ∨ cmp = 3 ∧ v ≤ val ∨ cmp = 4 ∧ val < v ∨
          cmp = 5 ∧ val ≤ v))) ∧
    (∀ code f, opOf code = some f → c.sr = false → c.p 32 8 ≠ 0 → f c [] = .error (.fail St.badParam 0)))

/-! ### Collectives (11) -/

/-- 11 R353–R357, R372, R376, R379: a group binds its queue and its WORK and lets both go at its end, a decoding table becomes
resident, an expert map is taken, and a tensor's residuals are zeroed. -/
def Obligations.GroupCommandsTakeEffect : Prop :=
  ∀ (t : Time) (r : KReq) (s : State),
    let u := taken r t s
    let p := par r
    let mine (l : Nat) : Prop := tenant r = none ∨ tenant r = some l
    (∀ g q a, begins 0x0901 t r s = true → plen r = 80 + 8 * be p 4 2 → groupBad u p (parseGroup p) = false →
      u.retiring (be p 0 2 % 1024) = false → Tab.lowestFree u.col.groups 1024 = some g →
      (∀ m ∈ (parseGroup p).mems, addFenced u m.addr = false) → addFenced u (parseGroup p).upAddr = false →
      u.queue (be p 2 2) = some q → u.allot (be p 10 2) = some a →
      ∃ v, exec (.groupCreate t r) s = okReply 0x0901 r v [toBe 2 g ++ zeros 6] ∧ v.group g = some (parseGroup p) ∧
        v.queue (be p 2 2) = some { q with group := some g } ∧ v.allot (be p 10 2) = some { a with work := some g } ∧
        (∀ k, k ≠ g → v.group k = u.group k) ∧ (∀ k, k ≠ be p 2 2 → v.queue k = u.queue k) ∧ v.cis = u.cis ∧ v.bsn = u.bsn) ∧
    (∀ x q a, begins 0x0902 t r s = true → plen r = 8 → u.group (be p 0 2) = some x → x.destroying = false → x.ops = [] →
      (∀ e ∈ u.col.groups, e.2.destroying = false) → u.queue x.queue = some q → q.group = some (be p 0 2) →
      u.allot x.work = some a → a.work = some (be p 0 2) → (∀ e ∈ u.col.groups, e.1 ≠ be p 0 2 → e.2.work ≠ x.work) →
      u.pwr.window = false → (∀ y ∈ q.slots, (u.basin y.basin).replaying = false) → u.kry.deferred = [] →
      ∃ v, exec (.groupDestroy t r) s = .next v ∧ v.group (be p 0 2) = none ∧ v.queue x.queue = some { q with group := none } ∧
        v.allot x.work = some { a with work := none } ∧ (∀ k, k ≠ be p 0 2 → v.group k = u.group k) ∧ v.kry.deferred = []) ∧
    (∀ gs, begins 0x0903 t r s = true → r.frags = [p] → plen r = 272 → byteAt p 8 ≤ 63 → byteAt p 9 ≤ 15 →
      bitOf (byteAt p 10) 1 = false → imageOk (slice p 16 256) = true →
      let l := (tenant r).getD (be p 12 2 % 1024)
      (tenant r ≠ none → be p 12 2 % 1024 = 0) → l ≠ 0 → u.admitted l = true →
      (Tab.get? u.col.slots (byteAt p 8) = some (l, gs) ∨ Tab.get? u.col.slots (byteAt p 8) = none ∧ gs = []) → gs.length < 4 →
      (∀ x ∈ gs, x.gen ≠ byteAt p 9) →
      ∃ v, exec (.decodeTableLoad t r) s = okReply 0x0903 r v [] ∧ decImage v l (byteAt p 8) (byteAt p 9) = some (slice p 16 256) ∧
        (∀ x ∈ gs, decImage v l (byteAt p 8) x.gen = decImage u l (byteAt p 8) x.gen) ∧
        (∀ k, k ≠ byteAt p 8 → Tab.get? v.col.slots k = Tab.get? u.col.slots k) ∧ v.col.groups = u.col.groups) ∧
    (∀ x, begins 0x0904 t r s = true → plen r = roundUp (8 + 2 * be p 2 2) 8 → u.group (be p 0 2) = some x → mine x.levee →
      x.destroying = false → x.permits 5 = true → 1 ≤ be p 2 2 → be p 2 2 ≤ 256 → 1 ≤ be p 4 4 → be p 4 4 ≤ 65536 →
      (∀ e < be p 2 2, be p (8 + 2 * e) 2 < x.mems.length) →
      ∃ v, exec (.expertMapSet t r) s = okReply 0x0904 r v [] ∧
        v.group (be p 0 2) = some { x with map := (List.range (be p 2 2)).map fun e => be p (8 + 2 * e) 2, cap := be p 4 4 } ∧
        ∀ k, k ≠ be p 0 2 → v.group k = u.group k) ∧
    (∀ x, begins 0x0905 t r s = true → plen r = 8 → u.group (be p 0 2) = some x → mine x.levee → x.destroying = false →
      be p 2 2 < x.ntensor → (∀ o ∈ x.ops, o.complete = true ∨ o.ef = false ∨ o.tensor ≠ be p 2 2) → Mem.wf u.cis.pool = true →
      let off := poolKey x.work (residualAt x (be p 2 2))
      ∃ v, exec (.residualReset t r) s = okReply 0x0905 r v [] ∧ (∀ i < x.resStride, v.cis.pool.read (off + i) = 0) ∧
        (∀ j, j < off ∨ off + x.resStride ≤ j → v.cis.pool.read j = u.cis.pool.read j) ∧ v.col = u.col ∧ v.flm = u.flm)

/-- 11 R362–R371, R380, R381, R383, R387: a member's contribution is added to its block, relayed, noted at a barrier, gated and
sent to the experts, or weighed into its token; the first of an operation takes a context, or is siphoned to the members; a
RESEND is answered with what is kept. -/
def Obligations.ContributionsAreTakenIn : Prop :=
  ∀ (t : Time) (p : Post) (s : State) (x : Group) (o : ColOp),
    let m := p.colMsg
    let u := s.tick t
    let g := m.group
    let q := m.opseq
    s.halted = false → s.pwr.window = false → s.cis.poisoned = [] →
    let i := hf m.hdr 28 4
    (∀ c, (m.kind = 1 ∧ c = .allReduce t p ∨ m.kind = 2 ∧ c = .reduceScatter t p) → contributes s m x o → o.fmtIn = 0 →
      hf m.hdr 32 2 = 1 → m.body.length = 1024 → i < o.total → i < frontierOf x o + wblk s x →
      let old := Tab.getD o.blocks i {}
      old.done = false → m.mem ∉ old.taken → (old.acc = [] ∨ old.acc.length = 256) →
      ∃ v o' k, exec c s = .next v ∧ v.colOp g q = some o' ∧ Tab.get? o'.blocks i = some k ∧ k.taken = old.taken ++ [m.mem] ∧
        k.acc.length = 256 ∧ (∀ j < 256, k.acc.getD j 0 = toF32 (reduceF o.rop ((if old.acc = [] then [] else [ofF32 (old.acc.getD j 0)]) ++
          [scaledAt 0 m.body [] j]))) ∧ (∀ b, b ≠ i → Tab.get? o'.blocks b = Tab.get? o.blocks b) ∧ o'.frontier = o.frontier ∧
        v.out = s.out ∧ v.mem = s.mem ∧ v.cis = s.cis) ∧
    (∀ c, (m.kind = 3 ∧ c = .allGather t p ∧ shardOwner x.mems.length o.total i = m.mem ∨
        m.kind = 4 ∧ c = .broadcast t p ∧ o.root = m.mem) → contributes s m x o → o.fmtIn = 0 → hf m.hdr 32 2 = 1 →
      m.body.length = 1024 → i < o.total → i < frontierOf x o + wblk s x → (Tab.getD o.blocks i {}).done = false →
      (Tab.getD o.blocks i {}).taken = [] →
      ∃ v o' k, exec c s = .next v ∧ v.colOp g q = some o' ∧ Tab.get? o'.blocks i = some k ∧ k.done = true ∧ k.res = m.body ∧
        (∀ d ∈ liveMembers x o, d ≠ m.mem → reachable u x d →
          sent s v (isCol s g x d 1 o.kind q 0 (o.flags % 8) (blockHdr o i 1) m.body)) ∧ v.cis = s.cis) ∧
    (contributes s m x o → m.kind = 7 → m.body = [] → m.mem ∉ o.barrier → x.upstream = false →
      ∃ v o', exec (.barrier t p) s = .next v ∧ v.colOp g q = some o' ∧ o'.barrier = o.barrier ++ [m.mem] ∧ o'.complete = false ∧
        v.out = s.out) ∧
    (contributes s m x o → m.kind = 5 → x.ops = [o] → hf m.hdr 17 1 = 0 → hf m.hdr 44 4 = 0 →
      let total := hf m.hdr 36 4
      let tok := hf m.hdr 32 4
      let piece := hf m.hdr 20 2
      let key := tokenKey m.mem tok
      let lg := logitBytes o
      total ≤ o.tokmax → (Tab.get? o.totals m.mem = none ∨ Tab.get? o.totals m.mem = some total) → tok < total →
      piece < o.npiece → lg < m.body.length → m.body.length ≤ lg + 2048 → (piece + 1 ≠ o.npiece → m.body.length = lg + 2048) →
      Tab.get? o.tokens key = none → 1 ≤ o.k → o.k ≤ o.map.length → tok < 2 ^ 17 →
      ∃ v o' tk, exec (.dispatch t p) s = .next v ∧ v.colOp g q = some o' ∧ Tab.get? o'.tokens key = some tk ∧ tk.pieces = [piece] ∧
        tk.picks.map (·.1) = topK false o.map.length o.k (fun e => scaledAt o.fmtA (m.body.take lg) [] e) ∧
        (∀ p ∈ tk.picks, p.2.1 = if o.cap ≤ (Tab.getD o.positions p.1 []).length ∨ o.map.getD p.1 0 ∈ o.removed then none
          else some (Tab.getD o.positions p.1 []).length) ∧
        o'.dropped = o.dropped + (tk.picks.filter fun p => p.2.1.isNone).length ∧
        ∀ p ∈ tk.picks, ∀ pos, p.2.1 = some pos → reachable u x (o.map.getD p.1 0) →
          sent s v (isCol s g x (o.map.getD p.1 0) 1 5 q 0 (o.flags % 8) (expertHdr o piece o.npiece p.1 m.mem pos tok) (m.body.drop lg))) ∧
    (∀ d key rank, contributes s m x o → m.kind = 6 → x.op o.tokmax = some d → d.kind = 5 → o.fmtA = 0 →
      let e := hf m.hdr 24 2
      let piece := hf m.hdr 20 2
      let y := Tab.getD o.tokens key {}
      (Tab.getD d.positions e [])[i]? = some (key, rank) → e < d.map.length → d.map.getD e 0 = m.mem → piece < o.npiece →
      m.body.length = (if piece + 1 = o.npiece then 4 * o.hdim - 2048 * piece else 2048) → (rank, piece) ∉ y.got → y.sent = false →
      hf m.hdr 18 2 = 0 → hf m.hdr 26 2 = 0 → hf m.hdr 36 4 = 0 →
      let w := ((Tab.getD d.tokens key {}).picks.getD rank (0, none, 0)).2.2
      ∃ v o' y', exec (.combine t p) s = .next v ∧ v.colOp g q = some o' ∧ Tab.get? o'.tokens key = some y' ∧
        y'.got = y.got ++ [(rank, piece)] ∧ ∀ j < o.hdim, y'.acc.getD j 0 =
          if 512 * piece ≤ j ∧ j < 512 * piece + m.body.length / 4 then
            toF32 (fma32 (ofF32 w) (scaledAt 0 m.body [] (j - 512 * piece)) (ofF32 (y.acc.getD j 0)))
          else y.acc.getD j 0) ∧
    (fromMember s m x → m.mtype = 0 → m.kind = 7 → x.op q = none → (∀ e ∈ x.siphoned, e.1 ≠ q) → opNewer x q = true →
      (siphonDue u x = true → ∃ v y, exec (.barrier t p) s = .next v ∧ v.group g = some y ∧ y.ops.length = x.ops.length ∧
        y.highest = some q ∧ ∀ d < x.mems.length, reachable u x d → sent s v (isCol s g x d 2 7 q 0x42 8 (zeros 32) [])) ∧
      (siphonDue u x = false → x.permits 7 = true → x.upstream = false → m.flags % 8 = 0 → hf m.hdr 16 1 = 0 → hf m.hdr 17 1 = 0 →
        hf m.hdr 24 4 = 0 → m.body = [] → hf m.hdr 18 2 = 0 → hf m.hdr 22 2 = 0 →
        hf m.hdr 34 2 = 0 → hf m.hdr 40 8 = 0 → (∀ z, s.queue x.queue = some z → ∀ y ∈ z.slots, y.lost = false) →
        s.queue x.queue ≠ none → m.mem ∉ fencedMembers u x →
        ∃ v o', exec (.barrier t p) s = .next v ∧ v.colOp g q = some o' ∧ o'.kind = 7 ∧ o'.barrier = [m.mem] ∧ o'.complete = false ∧
          o'.removed = fencedMembers u x ∧ v.out = s.out)) ∧
    (fromMember s m x → m.mtype = 4 → x.op q = some o → reachable u x m.mem →
      (o.complete = true → isExpert o.kind = false → hf m.hdr 32 2 = 0 → ∃ v y, exec (.resend t p) s = .next v ∧ v.out = s.out ++ [y] ∧
        isCol s g x m.mem 2 o.kind q o.doneStatus o.doneFlags (blockHdr o 0 0) o.doneBody y) ∧
      (o.kind = 1 → hf m.hdr 32 2 = 1 → i < o.total → (Tab.getD o.blocks i {}).done = true → (Tab.getD o.blocks i {}).res ≠ [] →
        blockTagged s x g q i = false → ∃ v y, exec (.resend t p) s = .next v ∧ v.out = s.out ++ [y] ∧
          isCol s g x m.mem 1 1 q 0 (o.flags % 8) (blockHdr o i 1) (Tab.getD o.blocks i {}).res y))

/-- 11 R366–R370, R372, R385, R388: a block with every member in is scaled and converted, a stalled operation sends CREDITs, a
complete one its DONE, messages from upstream are relayed or move the window or end the operation, and a fenced member is
removed. -/
def Obligations.OperationsCompleteStallAndEnd : Prop :=
  ∀ (t : Time) (g q i : Nat) (p : Post) (s : State) (x : Group) (o : ColOp),
    let m := p.colMsg
    let u := s.tick t
    s.group g = some x → x.op q = some o → s.halted = false → s.pwr.window = false → s.cis.poisoned = [] → m.opseq = q →
    let k := Tab.getD o.blocks i {}
    (o.going = true → 1 ≤ o.kind → o.kind ≤ 2 → i < o.total → k.done = false → (∀ d ∈ liveMembers x o, d ∈ k.taken) →
      blockReady s x i = true → x.upstream = false → o.ef = false → o.fmtOut = 0 → o.seed = none → k.acc.length = 256 →
      ∃ v o' k', exec (.blockComplete t g q i) s = .next v ∧ v.colOp g q = some o' ∧ Tab.get? o'.blocks i = some k' ∧
        k'.done = true ∧ k'.res = pack 0 ((List.range 256).map fun j => encElem 0 (norm32 (round32 (o.scale.mul (ofF32 (k.acc.getD j 0))))) none) ∧
        (o.frontier = i → i < o'.frontier) ∧ (∀ b, b ≠ i → Tab.get? o'.blocks b = Tab.get? o.blocks b) ∧ v.cis = s.cis) ∧
    ((k.done = false → ∀ d, d ∈ liveMembers x o → d ∉ k.taken → exec (.blockComplete t g q i) s = .next u)) ∧
    (o.going = true → isExpert o.kind = false →
      (u.now < o.lastDone + us x.retxUs → exec (.stallCredit t g q) s = .next u) ∧
      (o.lastDone + us x.retxUs ≤ u.now → ∃ v o', exec (.stallCredit t g q) s = .next v ∧ v.colOp g q = some o' ∧
        o'.lastDone = u.now ∧ o'.credited = frontierOf x o ∧ (∀ d ∈ liveMembers x o, reachable u x d →
          sent s v (isCol s g x d 3 o.kind q 0 (o.flags % 8) (blockHdr o (frontierOf x o) 0) [])))) ∧
    (o.complete = false →
      (o.fail ≠ 0 ∨ opOver x o = true ∧ opHeld s g q = false → ∃ v o', exec (.operationComplete t g q) s = .next v ∧ v.colOp g q = some o' ∧
        o'.complete = true ∧ o'.doneStatus = (if o.fail ≠ 0 then o.fail % 256 else if o.removed = [] then 0 else 0x63) ∧
        (∀ d < x.mems.length, reachable u x d →
          sent s v (isCol s g x d 2 o.kind q o'.doneStatus o'.doneFlags (blockHdr o 0 0) o'.doneBody)) ∧
        (∀ z, s.turn x.turn = some z → ∃ z', v.turn x.turn = some z' ∧ z'.value = if o.step && x.turnValid then (z.value + 1) % 2 ^ 32 else z.value)) ∧
      (o.fail = 0 → opOver x o = false ∨ opHeld s g q = true → exec (.operationComplete t g q) s = .next u)) ∧
    (fromUpstream s m g x → o.going = true → o.kind = 1 →
      (m.mtype = 1 → o.fmtOut = 0 → hf m.hdr 32 2 = 1 → m.body.length = 1024 → hf m.hdr 28 4 < o.total → ∃ v o', exec (.upstreamResult t p) s = .next v ∧
        v.colOp g q = some o' ∧ (Tab.getD o'.blocks (hf m.hdr 28 4) {}).res = m.body ∧ ∀ d ∈ liveMembers x o, reachable u x d →
          sent s v (isCol s g x d 1 1 q 0 (o.flags % 8) (blockHdr o (hf m.hdr 28 4) 1) m.body)) ∧
      (m.mtype = 3 → o.upFrontier < hf m.hdr 28 4 → ∃ v o', exec (.upstreamCredit t p) s = .next v ∧ v.colOp g q = some o' ∧
        o'.upFrontier = hf m.hdr 28 4 ∧ o.frontier ≤ o'.frontier)) ∧
    (fromUpstream s m g x → m.mtype = 2 → o.going = true → o.removed = [] → ∃ v o', exec (.upstreamDone t p) s = .next v ∧ v.colOp g q = some o' ∧
      o'.complete = true ∧ (m.status ≠ 0x63 → m.status < 256 → o'.doneStatus = m.status) ∧
      (m.status = 0x63 → o'.doneStatus = 0 ∧ bitOf o'.doneFlags 5 = true)) ∧
    (∀ d, x.mems[i]? = some d →
      (ipFenced u d.addr = false → exec (.memberRemoval t g i) s = .next u) ∧
      (ipFenced u d.addr = true → o.complete = false → ∃ v o', exec (.memberRemoval t g i) s = .next v ∧ v.colOp g q = some o' ∧
        i ∈ o'.removed ∧ o'.complete = false ∧ v.mem = s.mem))

/-! ### The screen (12) -/

/-- 12 R394, R396–R398, R401–R408, R410–R413: commands stage their rows, which appear whole at a commit in the version they
name; a search answers the winners in order; banks are searched, desilted, gated, woken and throttled. -/
def Obligations.ScreenCommandsAndUpkeep : Prop :=
  (∀ l : List Row, (orderRows l).Perm l ∧ (orderRows l).Pairwise fun a b => b.before a = false) ∧
  ∀ (t : Time) (r : KReq) (s : State),
    let u := taken r t s
    let p := par r
    let w := s.tick t
    let stage (op : Nat) (b : ScreenBatch) (y : State) : Host.Outcome State Fault Refusal :=
      keepsRunning op r { y with scr := { y.scr with batches := y.scr.batches ++ [b] } } .screen
    (begins 0x0A01 t r s = true → r.frags = [p] → plen r = 16 + 64 * be p 10 2 → 1 ≤ be p 10 2 → be p 10 2 ≤ 63 →
      (∀ rows, byteAt p 9 = 0 → byteAt p 8 = 0xFF → be p 12 2 = 0 → tenant r = none →
        allSome ((fragEntries p (be p 10 2)).map parseFwd) = some rows → (u.table 0x0A).st = .ready → (u.table 0x0A).pending = false →
        let b : ScreenBatch := { cls := 0, bank := 0xFF, version := 1 - (u.table 0x0A).active, add := rows, drop := [], levee := 0 }
        let after := fwdAfter (fwdPlanned u) b
        fwdBlocks after ≤ 16 → blocksPure after = true → after.length + u.scr.retired.length ≤ 16384 →
        exec (.screenWrite t r) s = stage 0x0A01 b u) ∧
      (∀ rows k quota, byteAt p 9 = 1 → (tenant r ≠ none → be p 12 2 = 0) →
        let l := (tenant r).getD (be p 12 2 % 1024)
        l ≠ 0 → u.admitted l = true → u.retiring l = false → u.screenQuota l = some (k, quota) →
        allSome ((fragEntries p (be p 10 2)).map (parseTenant l)) = some rows → (byteAt p 8 = 0xFF ∨ byteAt p 8 = k) →
        let b : ScreenBatch := { cls := 1, bank := k, version := 0, add := rows, drop := [], levee := l }
        let after := tenantAfter (bankPlanned u k) b
        (after.filter fun x => x.levee == l).length ≤ quota → after.length + (u.bank k).retired.length ≤ 32768 →
        (u.bank k).power = 0 → exec (.screenWrite t r) s = stage 0x0A01 b u)) ∧
    (begins 0x0A02 t r s = true → plen r = roundUp (8 + 4 * be p 4 2) 8 → 1 ≤ be p 4 2 → be p 4 2 ≤ 1010 → byteAt p 0 = 0 →
      tenant r = none → be p 2 2 = 0 → (u.table 0x0A).st = .ready → (u.table 0x0A).pending = false →
      let ids := (List.range (be p 4 2)).map fun i => be p (8 + 4 * i) 4
      exec (.screenDelete t r) s = stage 0x0A02 ⟨0, 0xFF, 1 - (u.table 0x0A).active, [], ids, 0⟩ u) ∧
    (begins 0x0A03 t r s = true → plen r = 40 → byteAt p 0 = 0 → tenant r = none → be p 2 2 = 0 → byteAt p 1 ≤ 1 → 1 ≤ be p 4 2 →
      be p 4 2 ≤ 504 → be p 8 2 % 0x8000 = 0 → bitOf (byteAt p 8) 7 = false →
      ∃ v, exec (.screenSearch t r) s = okReply 0x0A03 r v [searchReply (orderRows (u.scr.fwd.filter fun x =>
        x.inVer (byteAt p 1) && x.hits (BitVec.ofNat 144 (be p 16 18)))) (be p 4 2)] ∧ v.scr = u.scr) ∧
    (∀ k quota, begins 0x0A03 t r s = true → plen r = 40 → byteAt p 0 = 1 → (tenant r ≠ none → be p 2 2 = 0) → byteAt p 1 = 0 →
      1 ≤ be p 4 2 → be p 4 2 ≤ 504 → be p 8 2 % 0x8000 = 0 →
      let l := (tenant r).getD (be p 2 2 % 1024)
      l ≠ 0 → u.admitted l = true → u.retiring l = false → u.screenQuota l = some (k, quota) →
      ((u.bank k).power = 0 → lostEntry (u.bank k) l = none →
        ∃ v, exec (.screenSearch t r) s = okReply 0x0A03 r v [searchReply (afterCursor (tenantHits (u.bank k) l
          (BitVec.ofNat 144 (be p 16 18))) (bitOf (byteAt p 8) 7) (be p 10 2) (be p 12 4)) (be p 4 2)] ∧
          (v.bank k).rows = (u.bank k).rows) ∧
      ((u.bank k).power = 1 ∨ (u.bank k).power = 2 → exec (.screenSearch t r) s =
        keepsRunning 0x0A03 r (u.setBank k { u.bank k with power := 3 }) (.search k))) ∧
    (∀ k x, isTenantBank k = true → (s.bank k).power = 3 → s.kry.executing = some x → x.work = .search k →
      ∃ v, exec (.bankWake t k) s = .next v ∧ v.kry.executing = none ∧ (v.bank k).power = 0 ∧ (v.bank k).rows = (s.bank k).rows) ∧
    (begins 0x0A04 t r s = true → plen r = 8 → be p 0 2 % 1024 ≠ 0 → u.admitted (be p 0 2 % 1024) = true →
      u.retiring (be p 0 2 % 1024) = false → isTenantBank (byteAt p 2) = true → be p 4 4 ≤ 32768 → u.screenQuota (be p 0 2 % 1024) = none →
      bankQuota u (byteAt p 2) (be p 0 2 % 1024) + be p 4 4 ≤ 32768 → 1 ≤ be p 4 4 →
      ∃ v, exec (.screenQuotaSet t r) s = okReply 0x0A04 r v [] ∧ v.screenQuota (be p 0 2 % 1024) = some (byteAt p 2, be p 4 4) ∧
        (∀ l, l ≠ be p 0 2 % 1024 → v.screenQuota l = u.screenQuota l) ∧ v.scr.fwd = u.scr.fwd ∧ v.scr.banks = u.scr.banks) ∧
    (∀ b rest x, s.scr.batches = b :: rest → s.kry.executing = some x → x.work = .screen → b.cls = 0 → b.version ≤ 1 →
      ∃ v, exec (.screenCommit t) s = .next v ∧ v.scr.batches = rest ∧ v.kry.executing = none ∧
        (b.add = [] → (∀ e ∈ v.scr.fwd, e.inVer b.version = true → e.id ∉ b.drop) ∧
          ∀ key, ((fwdSearch v (1 - b.version) key).1.map (·.id)) = ((fwdSearch s (1 - b.version) key).1.map (·.id)) ∧
            ((fwdSearch v (1 - b.version) key).2.map (·.id)) = ((fwdSearch s (1 - b.version) key).2.map (·.id))) ∧
        (∀ e, b.add = [e] → b.drop = [] → (∀ y ∈ s.scr.fwd, ¬(y.id = e.id ∧ y.inVer b.version = true)) →
          (∃ y ∈ v.scr.fwd, y.id = e.id ∧ y.value = e.value ∧ y.mask = e.mask ∧ y.prio = e.prio ∧ y.inVer b.version = true ∧
            y.inVer (1 - b.version) = false) ∧ ∀ key, ((fwdSearch v (1 - b.version) key).1.map (·.id)) = ((fwdSearch s (1 - b.version) key).1.map (·.id)) ∧
            ((fwdSearch v (1 - b.version) key).2.map (·.id)) = ((fwdSearch s (1 - b.version) key).2.map (·.id)))) ∧
    (∀ k x y c, (s.bank k).queue = [x, y] → (s.bank k).power = 0 → y.chain = x.chain → y.levee = x.levee → s.chain x.chain = some c →
      c.asked = c.keys.length → (s.bank k).step = 0 → s.pwr.level < 4 →
      (w.now < (s.bank k).lastSearch + 16 → ∃ v, exec (.tenantSearch t k) s = .next v ∧ v.scr = s.scr ∧ v.flm = s.flm) ∧
      ((s.bank k).lastSearch + 16 ≤ w.now → s.retiring x.levee = false → ∃ v c', exec (.tenantSearch t k) s = .next v ∧ (v.bank k).queue = [y] ∧
        (v.bank k).lastSearch = w.now ∧ (v.bank k).rows = (s.bank k).rows ∧ v.chain x.chain = some c' ∧ c'.st = c.st ∧
        c'.results = splice c.results (8 * x.num) (tenantResult (tenantHits (s.bank k) x.levee x.key)))) ∧
    (∀ k row e diff, (s.bank k).rows.find? (fun y => y.rowIdx == row) = some e → e.lost = false → isTenantBank k = true →
      (∃ v, exec (.desiltPass t k row diff true) s = .next v ∧ (∀ y ∈ (v.bank k).rows, y.rowIdx = row → y.lost = true) ∧
        (v.bank k).rows.length = (s.bank k).rows.length ∧ (Tab.getD v.scr.event (bankDie k) 0).getLsbD 2 = true) ∧
      (Tab.get? (s.bank k).fixes row = none → diff ≠ 0 → ∃ v, exec (.desiltPass t k row diff false) s = .next v ∧
        (v.bank k).rows = (s.bank k).rows ∧ (Tab.getD v.scr.event (bankDie k) 0).getLsbD 1 = true) ∧
      (∃ v, exec (.desiltPass t k row 0 false) s = .next v ∧ v.scr = s.scr)) ∧
    (∀ k, isTenantBank k = true →
      ((s.bank k).rows = [] → (s.bank k).power ≠ 3 → (s.bank k).queue = [] → (∀ b ∈ s.scr.batches, ¬(b.cls = 1 ∧ b.bank = k)) →
        exec (.bankClockGate t k) s = .next (w.setBank k { s.bank k with power := 2 })) ∧
      ((s.bank k).rows ≠ [] → (s.bank k).power = 0 → (s.bank k).queue = [] → (∀ b ∈ s.scr.batches, ¬(b.cls = 1 ∧ b.bank = k)) →
        (s.bank k).lastSearch + us 10 ≤ w.now → exec (.bankClockGate t k) s = .next (w.setBank k { s.bank k with power := 1 })) ∧
      ((s.bank k).queue ≠ [] → exec (.bankClockGate t k) s = .next w) ∧
      ((s.bank k).power = 3 → (∀ x, s.kry.executing = some x → x.work ≠ .search k) → exec (.bankWake t k) s = .next (w.setBank k { s.bank k with power := 0, lastSearch := w.now })) ∧
      (∀ temp, let th := thresholds s (bankDie k)
        ∃ v, exec (.bankThrottleChange t k temp) s = .next v ∧ (v.bank k).rows = (s.bank k).rows ∧
          (temp + 2 ≤ th.1 → (v.bank k).step = 0) ∧ (th.1 ≤ temp → temp < th.2.1 → (s.bank k).step ≤ 1 → (v.bank k).step = 1) ∧
          (th.2.1 ≤ temp → temp < th.2.2 → (s.bank k).step ≤ 2 → (v.bank k).step = 2) ∧ (th.2.2 ≤ temp → 3 ≤ (v.bank k).step) ∧
          (temp < th.1 → th.1 < temp + 2 → (s.bank k).step = 1 → (v.bank k).step = 1)))

/-! ### Faults and fencing (14) -/

/-- 14 R452–R455, R459: FENCE_SET takes the lowest free entry and fences its target, FENCE_CLEAR lets it go unless it is still a
member, and each event is noticed to the manager three times. -/
def Obligations.FencesAreSetClearedAndNoticed : Prop :=
  ∀ (t : Time) (r : KReq) (s : State),
    let u := taken r t s
    let w := s.tick t
    let d := normDesc (par r)
    (begins 0x0130 t r s = true → plen r = 32 → byteAt d 1 = 0 → descOk d = true →
      (byteAt d 0 = 1 → u.portExists (be d 8 4) = true) →
      (∀ i, findFence u d = none → Tab.lowestFree u.flt.fences 7680 = some i →
        ∃ v e, exec (.fenceSet t r) s = okReply 0x0130 r v [toBe 4 i ++ zeros 4] ∧ Tab.get? v.flt.fences i = some e ∧ e.desc = d ∧
          e.auto = false ∧ (∀ j x, Tab.get? u.flt.fences j = some x → Tab.get? v.flt.fences j = some x) ∧
          (byteAt d 0 = 1 → v.portFenced (be d 8 4) = true) ∧ (byteAt d 0 = 3 → v.trayFenced (be d 8 4) = true) ∧
          (byteAt d 0 = 4 → v.switchFenced (be d 8 4) = true) ∧
          (byteAt d 0 = 2 → byteAt d 4 ≠ 0 → v.addrFenced ⟨byteAt d 4, be d 16 16⟩ = true) ∧
          (byteAt d 0 = 5 → v.compFenced (be d 2 2) (byteAt d 5) (be d 8 4) = true) ∧ u.flt.notices <+: v.flt.notices) ∧
      (∀ i e, findFence u d = some (i, e) → exec (.fenceSet t r) s = okReply 0x0130 r u [toBe 4 i ++ zeros 4])) ∧
    (∀ i e, begins 0x0131 t r s = true → plen r = 32 → findFence u d = some (i, e) →
      (stillMember u e.desc = false → ∃ v, exec (.fenceClear t r) s = okReply 0x0131 r v [] ∧ Tab.get? v.flt.fences i = none ∧
        (∀ j, j ≠ i → Tab.get? v.flt.fences j = Tab.get? u.flt.fences j) ∧ v.flt.notices.length = u.flt.notices.length + 1) ∧
      (stillMember u e.desc = true →
        exec (.fenceClear t r) s = .next (finish { r with opcode := 0x0131 } (guardReject u { r with opcode := 0x0131 } 0 11)))) ∧
    (∀ n, s.flt.notices = [n] →
      (n.sent = 0 → s.kry.lastLease = none → ∃ v, exec (.fenceNotice t) s = .next v ∧ v.flt.notices = [] ∧ v.out = s.out) ∧
      (∀ net p cls q, s.kry.lastLease = some (net, p, cls) → noticePort s p = some q → s.mayReply q →
        (n.sent = 0 → ∃ v, exec (.fenceNotice t) s = .next v ∧ v.flt.notices = [{ n with sent := 1 }] ∧
          v.out = s.out ++ [.notice q cls net.mirror 0x4B590005 (noticeBytes s n)]) ∧
        (n.sent = 1 → n.at_ + ms 1 ≤ w.now → ∃ v, exec (.fenceNoticeRepeat t) s = .next v ∧ v.flt.notices = [{ n with sent := 2 }] ∧
          v.out = s.out ++ [.notice q cls net.mirror 0x4B590005 (noticeBytes s n)]) ∧
        (n.sent = 2 → n.at_ + ms 2 ≤ w.now → ∃ v, exec (.fenceNoticeRepeat t) s = .next v ∧ v.flt.notices = [] ∧
          v.out = s.out ++ [.notice q cls net.mirror 0x4B590005 (noticeBytes s n)]) ∧
        (1 ≤ n.sent → w.now < n.at_ + ms n.sent → exec (.fenceNoticeRepeat t) s = .next w))) ∧
    (∀ x at0, s.flt.wanted = [(x, at0)] → byteAt x 0 = 3 →
      (w.now < at0 + ms 1 → exec (.fenceRetry t) s = .next w) ∧
      (at0 + ms 1 ≤ w.now → s.flt.fences = [] → ∃ v e, exec (.fenceRetry t) s = .next v ∧ v.flt.wanted = [] ∧
        Tab.get? v.flt.fences 7680 = some e ∧ e.desc = x ∧ e.auto = true))

/-- 14 R451, R456–R458, R465, 07 R231, 01 R17–R21: what the device fences on its own authority, what a fence and a failed tray do
to requests under way, and how the culvert's failures are counted, retired and halt the device. -/
def Obligations.AutomaticFencesFailuresAndHalt : Prop :=
  ∀ (t : Time) (s : State),
    let u := s.tick t
    (∀ p t0, let at0 := t0 + us s.flt.portFenceUs.toNat
      Tab.get? s.flt.downSince p = some t0 → p ≤ 511 → s.flt.portFenceUs ≠ 0xFFFF → s.portUp p = false →
      (s.port p).testDown = false → s.flt.fences = [] →
      (at0 ≤ u.now → ∃ v, exec (.portFenceDelay t p) s = .next v ∧ v.portFenced p = true ∧ Tab.get? v.flt.downSince p = none ∧
        v.flt.event.getLsbD 0 = true) ∧
      (u.now < at0 → exec (.portFenceDelay t p) s = .next u)) ∧
    (∀ id o, Tab.get? s.mem.ops id = some o → o.tray ≤ 255 → s.flt.fences = [] →
      (o.at_ + ms 1 ≤ u.now → ∃ v, exec (.trayOperationTimeout t o.tray id) s = .next v ∧ v.trayFenced o.tray = true ∧
        v.mem = s.mem ∧ v.cis = s.cis) ∧
      (u.now < o.at_ + ms 1 → exec (.trayOperationTimeout t o.tray id) s = .next u)) ∧
    (∀ die entry j sw, Tab.get? s.mem.journal (die * 8192 + entry) = some j → j.members = [256 + sw] → sw ≤ 127 →
      sw ≠ s.sw.switchId.toNat → s.flt.fences = [] →
      (max 1 s.flt.peerQueries.toNat < Tab.getD j.queries (256 + sw) 0 → ∃ v, exec (.peerSilent t die entry) s = .next v ∧ v.switchFenced sw = true) ∧
      (Tab.getD j.queries (256 + sw) 0 < max 1 s.flt.peerQueries.toNat → exec (.peerSilent t die entry) s = .next u)) ∧
    (∀ g x i y o, s.group g = some x → x.mems[i]? = some y → x.ops = [o] → o.going = true → s.flt.fences = [] →
      (y.addr.af = 4 ∨ y.addr.af = 6) → y.addr.val < 2 ^ 128 →
      (s.flt.silentCredits.toNat ≠ 0 → s.flt.silentCredits.toNat ≤ Tab.getD o.silent i 0 →
        ∃ v, exec (.memberSilent t g i) s = .next v ∧ v.addrFenced y.addr = true) ∧
      (Tab.getD o.silent i 0 < s.flt.silentCredits.toNat → exec (.memberSilent t g i) s = .next u)) ∧
    (∀ id l k op x, s.quiet → s.mem.live = [(id, l)] → l.kind = .read → l.rdma = none → l.coh = none → l.flume = none → l.src = none →
      l.journal = none → l.stage = 0 → l.req.length ≤ 4096 → 1 ≤ l.req.length → s.mem.ops = [(k, op)] → op.use = .request id 0 →
      op.kind = .read → s.trayFenced op.tray = true → s.allot l.allot = some x → x.place = 2 → x.replicated = false →
      x.tray = op.tray → s.mem.hosts = [] → s.mute (reqHost l.req) = false →
      ∃ v tail, exec (.fencedRequestCompletion t l.home) s = .next v ∧ v.mem.live = [] ∧ v.mem.ops = [] ∧
        v.out = s.out ++ [.poolReply l.req.die l.req.port l.req.cls (respNet l.req) 0xD0 (respHeader l.req tail 0)] ∧
        byteAt tail 1 = 0x62 ∧ v.cis.pool = s.cis.pool) ∧
    (∀ k x, s.quiet → s.mem.live = [] → s.mem.ops = [] → Tab.get? s.mem.trays k = some x → x.detaching = false →
      (s.trayFenced k = true → (∀ a pg p y, s.cis.pages = [(pageKey a pg, p)] → pg < 2 ^ 28 → p.dirty = 0 → p.filling = 0 → p.writing = 0 →
          p.expanding = false → s.allot a = some y → y.place = 1 → y.tray = k → y.replicated = false →
        ∃ v, exec (.trayFailed t k) s = .next v ∧ Tab.get? v.mem.trays k = some { x with failed := true } ∧ v.cis.pages = []) ∧
        (s.cis.pages = [] → ∃ v, exec (.trayFailed t k) s = .next v ∧ Tab.get? v.mem.trays k = some { x with failed := true } ∧
          v.cis = s.cis)) ∧
      (s.trayFenced k = false → exec (.trayFailed t k) s = .next u)) ∧
    (s.halted = false →
      let stops (v : State) : Prop := v.halted = true ∧ v.out = s.out ++ [.silence] ∧ v.mem.live = [] ∧ v.mem.ops = [] ∧
        v.mem.journal = [] ∧ v.flm.chains = [] ∧ v.coh.trans = [] ∧ v.cis = s.cis ∧ v.bsn.store = s.bsn.store ∧ v.kry = s.kry ∧
        v.flt.notices.length = s.flt.notices.length + 1
      (∀ cause, cause ≠ 0 → ∃ v, exec (.halt t cause) s = .next v ∧ stops v) ∧
      (culvertFailed s 0 = true ∨ culvertFailed s 1 = true → ∃ v, exec (.halt t 0) s = .next v ∧ stops v) ∧
      (culvertFailed s 0 = false → culvertFailed s 1 = false → exec (.halt t 0) s = .next u) ∧
      (∀ dir, ∃ v, exec (.culvertFailure t dir) s = .next v ∧ stops v ∧ (dir < 2 → culvertFailed v dir = true))) ∧
    (∀ dir b, dir < 2 → b < 16 → bundleRetired s dir b = false →
      let recent := (Tab.getD s.flt.replays (dir * 16 + b) []).filter fun x => decide (u.now < x + ms 1)
      let due : Nat := dir * 16 + b
      (∃ v, exec (.culvertFlitReplay t dir b) s = .next v ∧ Tab.getD v.flt.replays due [] = recent ++ [u.now] ∧
        bundleRetired v dir b = false ∧ (∀ k ∈ s.flt.bundleDue, k ∈ v.flt.bundleDue) ∧
        (64 ≤ recent.length → due ∈ v.flt.bundleDue)) ∧
      (∀ cause, (cause ≠ 1 ∨ due ∈ s.flt.bundleDue) → ∃ v, exec (.bundleRetirement t dir b cause) s = .next v ∧
        bundleRetired v dir b = true ∧ due ∉ v.flt.bundleDue ∧
        (∀ j < 16, j ≠ b → bundleRetired v dir j = bundleRetired s dir j) ∧
        bundleRetired v (1 - dir) b = bundleRetired s (1 - dir) b) ∧
      (due ∉ s.flt.bundleDue → exec (.bundleRetirement t dir b 1) s = .next u))

/-- 14 R466–R471: a LOCK_LOAD begins reading its shards from its partner, a shard's last bytes end it, a partner that falls silent
is fenced and aborts it, and an armed admission clears its fences and flips at its counter. -/
def Obligations.LockCyclesLoadAndAdmit : Prop :=
  ∀ (t : Time) (r : KReq) (s : State),
    let u := taken r t s
    let w := s.tick t
    let p := par r
    (∀ x, let l := parseLoad u p
      begins 0x0140 t r s = true → plen r = 80 → be p 24 2 = 1 → l.shards = [x] → l.pkind = 0 → l.pid ≤ 127 → (l.af = 4 ∨ l.af = 6) →
      u.flt.lock ≠ .loading → u.flt.lock ≠ .armed → u.hlt.devicePassed = true → shardBad u 0 x = false → u.retiring x.levee = false →
      0 < x.len → ∃ v, deferReply 0x0140 r { u with flt := { u.flt with lock := .loading, lockTotal := 1, lockDone := 0, load := some l } } .lock =
        .next v ∧ exec (.lockLoad t r) s = .next (v.emit (.lockRead 0 l.paddr l.pqpn l.laddr x.levee x.src (min x.len 65536)))) ∧
    (∀ l x a d, s.flt.lock = .loading → s.flt.load = some l → l.shards = [x] → x.status = none → x.tiles = 0 → l.pkind = 0 →
      d.length = x.len → x.len % 4096 = 0 → 0 < x.len → x.len ≤ 65536 → x.off % 4096 = 0 → s.allot x.allot = some a → a.place = 0 →
      s.confidential a.levee = false → Mem.wf s.cis.pool = true →
      (∃ v, exec (.shardReadComplete t 0 0x00 d) s = .next v ∧ v.flt.lock = .loaded ∧ v.flt.load = none ∧
        v.flt.lockDone = s.flt.lockDone + 1 ∧ poolPut s v (poolKey x.allot x.off) d) ∧
      (∀ st, st ≠ 0x00 → st ≠ 0x60 → st ≠ 0x62 → ∃ v, exec (.shardReadComplete t 0 st d) s = .next v ∧ v.flt.lock = .aborted ∧
        v.flt.load = none ∧ v.cis = s.cis)) ∧
    (∀ l, s.quiet → s.mem.live = [] → s.flt.lock = .loading → s.flt.load = some l → l.pkind = 0 → l.pid ≤ 127 → s.flt.fences = [] →
      (l.at_ + ms 1 ≤ w.now → ∃ v, exec (.partnerLost t) s = .next v ∧ v.flt.lock = .aborted ∧ v.flt.load = none ∧
        v.switchFenced l.pid = true ∧ v.flt.event.getLsbD 2 = true ∧ v.cis = s.cis) ∧
      (w.now < l.at_ + ms 1 → partnerFenced w l = false → exec (.partnerLost t) s = .next w)) ∧
    (∀ x, begins 0x0141 t r s = true → plen r = 16 + 32 * be p 10 2 → be p 10 2 ≤ 126 →
      (u.flt.lock = .idle ∨ u.flt.lock = .loaded ∨ u.flt.lock = .admitted) → u.turn (be p 0 2) = some x → x.levee = be p 2 2 % 1024 →
      u.retiring x.levee = false → (bitOf (byteAt p 8) 0 = true → xlateBusy u = false) → turnReached x.value (be p 4 4) = false →
      let ds := (List.range (be p 10 2)).map fun i => normDesc (slice p (16 + 32 * i) 32)
      (∀ d ∈ ds, (findFence u d).isSome = true) →
      let a : Armed := { counter := be p 0 2, levee := x.levee, target := be p 4 4, flip := bitOf (byteAt p 8) 0,
                         fences := (ds.filterMap (findFence u)).map fun e => (e.1, e.2.serial), descs := ds }
      exec (.lockAdmit t r) s = okReply 0x0141 r { u with flt := { u.flt with lock := .armed, armed := some a } } []) ∧
    (∀ a, s.flt.lock = .armed → s.flt.armed = some a →
      (admissionDue s a = false → exec (.admission t) s = .next w) ∧
      (admissionDue s a = true → ∃ v, exec (.admission t) s = .next v ∧ v.flt.lock = .admitted ∧ v.flt.armed = none ∧
        v.flt.event.getLsbD 1 = true ∧ (a.flip = true → (v.table 9).active = 1 - (s.table 9).active) ∧
        (∀ i e, Tab.get? s.flt.fences i = some e → (i, e.serial) ∈ a.fences → Tab.get? v.flt.fences i = none) ∧
        ∀ i, (∀ n, (i, n) ∉ a.fences) → Tab.get? v.flt.fences i = Tab.get? s.flt.fences i))

/-! ### Security (13) -/

/-- 13 R418–R421, R429–R431, R440–R444, 02 R77: a levee is admitted with its keys, quotas and default water rights, keyed by the
manager or by an exchange, and retired with all it held; reports and snapshots are made of the state. -/
def Obligations.LeveesAreAdmittedKeyedAndRetired : Prop :=
  ∀ (t : Time) (r : KReq) (s : State),
    let u := taken r t s
    let w := s.tick t
    let p := par r
    let l := be p 0 2 % 1024
    (begins 0x0120 t r s = true → plen r = 16 → l ≠ 0 → be p 8 4 ≤ 135936 → be p 12 4 ≤ 135936 → u.levee l = none →
      ((bitOf (byteAt p 2) 0 = false ∨ debugOpen u = false) → ∃ v x, exec (.leveeAdmit t r) s = okReply 0x0120 r v [] ∧
        v.levee l = some x ∧ x.confidential = bitOf (byteAt p 2) 0 ∧ x.maxAllot = be p 4 2 ∧ x.retiring = false ∧ x.bound = false ∧
        x.aepoch = (u.sec.aepoch + 1).toNat ∧ x.memKey.isSome = x.confidential ∧ Tab.get? v.cis.quota l = some (be p 8 4) ∧
        Tab.get? v.cis.quota (1024 + l) = some (be p 12 4) ∧ (∀ k, k ≠ l → v.levee k = u.levee k) ∧
        (∀ die ≤ 1, ({ die := die, levee := l, host := ⟨0, 0⟩, rate := 0, burst := 65536, out := 256, full := true, since := u.now } : Right) ∈
          v.mem.rights) ∧ v.kry = u.kry ∧ v.cis.pool = u.cis.pool) ∧
      (bitOf (byteAt p 2) 0 = true → debugOpen u = true → exec (.leveeAdmit t r) s =
        .next (finish { r with opcode := 0x0120 } (guardReject u { r with opcode := 0x0120 } l 8)))) ∧
    (∀ x, begins 0x0121 t r s = true → plen r = 8 → l ≠ 0 → u.levee l = some x → x.retiring = false → u.quiet → u.mem.live = [] →
      u.flm.queues = [] → u.col.groups = [] → u.mem.allots = [] → u.flt.load = none →
      ∃ v, exec (.leveeRetire t r) s = .next v ∧ v.levee l = none ∧ (∀ k, k ≠ l → v.levee k = u.levee k) ∧
        Tab.get? v.kry.keys l = none ∧ (∀ k, k ≠ l → Tab.get? v.kry.keys k = Tab.get? u.kry.keys k) ∧ v.kry.deferred = [] ∧
        Tab.get? v.cis.quota l = none ∧ Tab.get? v.cis.quota (1024 + l) = none ∧ (∀ y ∈ v.mem.rights, y.levee ≠ l) ∧
        (∀ y ∈ u.mem.rights, y.levee ≠ l → y ∈ v.mem.rights) ∧ v.cis.pool = u.cis.pool ∧
        (u.portUp r.port = true → u.plainPort r.port → u.halted = false → u.confidential r.levee = false →
          ∃ a b, v.out = u.out ++ [.krytic a, .krytic b] ∧ a.status = 0x01 ∧ b.status = 0x00 ∧ a.seq = r.seq ∧ b.seq = r.seq)) ∧
    (begins 0x0122 t r s = true → plen r = 72 → l ≠ 0 → u.admitted l = true → u.retiring l = false →
      (∀ k, u.confidential l = false → u.unwrap r.sess (slice p 8 64) = some k →
        ∃ v, exec (.leveeKeySet t r) s = okReply 0x0122 r v [] ∧ Tab.get? v.kry.keys l = some k ∧ v.session (.levee l) = {} ∧
          (∀ j, j ≠ l → Tab.get? v.kry.keys j = Tab.get? u.kry.keys j ∧ v.session (.levee j) = u.session (.levee j)) ∧
          v.kry.lease = u.kry.lease ∧ v.sec = u.sec) ∧
      (u.unwrap r.sess (slice p 8 64) = none → exec (.leveeKeySet t r) s = refuseReply 0x0122 r u 0x11) ∧
      (u.confidential l = true → u.unwrap r.sess (slice p 8 64) ≠ none → exec (.leveeKeySet t r) s =
        .next (finish { r with opcode := 0x0122 } (guardReject u { r with opcode := 0x0122 } l 9)))) ∧
    (∀ x, s.levee r.levee = some x → x.confidential = true → x.retiring = false → x.former = none →
      let k := kexKey r.levee x p
      (Tab.get? s.kry.keys r.levee = none → 64 ≤ (lastSecond w x.kexes).length →
        ∃ v, exec (.leveeKeyExchange t r) s = .next v ∧ v.kry.drop.rate = s.kry.drop.rate + 1 ∧ v.sec = s.sec ∧ v.out = s.out) ∧
      (Tab.get? s.kry.keys r.levee = none → (lastSecond w x.kexes).length < 64 →
        (tagOk k r = false → ∃ v, exec (.leveeKeyExchange t r) s = .next v ∧ v.kry.drop.auth = s.kry.drop.auth + 1 ∧
          v.levee r.levee = some { x with kexes := lastSecond w x.kexes ++ [w.now] } ∧ v.out = s.out ∧ v.kry.keys = s.kry.keys) ∧
        (tagOk k r = true → r.version = 1 → r.term = 0 → s.halted = false → s.boot.mode = .normal → r.urgent = false → plen r = 1608 →
          s.canBegin = true → s.kry.urgent = [] → s.kry.normal = [] → s.portUp r.port = true → s.mayReply r.port →
          (s.port r.port).txSecure = true →
          ∃ v y rp, exec (.leveeKeyExchange t r) s = .next v ∧ v.levee r.levee = some y ∧ y.bound = true ∧ y.bind = kexBind p ∧
            y.memKey = x.memKey ∧ Tab.get? v.kry.keys r.levee = some k ∧ (v.session (.levee r.levee)).high = some r.seq ∧
            v.out = s.out ++ [.krytic rp] ∧ rp.key = some k ∧ rp.status = 0x00)) ∧
      (∀ k0, let q : KReq := { r with opcode := 0x0B02, sess := .levee r.levee }
        let y := s.modLevee r.levee fun x => { x with kexes := lastSecond w x.kexes ++ [w.now] }
        Tab.get? s.kry.keys r.levee = some k0 → tagOk k0 r = true → winPos (s.session (.levee r.levee)).high r.seq = .above →
        (lastSecond w x.kexes).length < 64 → chkArrival q (taken q t y) = none → s.canBegin = true → s.kry.urgent = [] →
        s.kry.normal = [] → plen r = 1608 → s.portUp r.port = true → s.mayReply r.port → (s.port r.port).txSecure = true →
        ∃ v z rp, exec (.leveeKeyExchange t r) s = .next v ∧ v.levee r.levee = some z ∧ z.bound = true ∧ z.bind = kexBind p ∧
          Tab.get? v.kry.keys r.levee = some k ∧ v.session (.levee r.levee) = {} ∧ v.out = s.out ++ [.krytic rp] ∧ rp.key = some k0 ∧
          rp.status = 0x00 ∧ z.former = some (k0, w.now + sec 1, r.seq, [rp]))) ∧
    (∀ n x k till q rs, s.levee n = some x → x.former = some (k, till, q, rs) →
      ∃ v, exec (.formerKeyExpiry t n) s = .next v ∧ v.levee n = some (if w.now < till then x else { x with former := none }) ∧
        (∀ j, j ≠ n → v.levee j = s.levee j) ∧ v.kry = s.kry) ∧
    exec (.gaugeSnapshot t) s = .next { w with sec := { s.sec with snapshot := s.gauges, snapAt := w.now } } ∧
    (let named := (tenant r).getD (be p 10 2)
     begins 0x0B01 t r s = true → r.frags = [p] → plen r = 48 → be p 10 2 ≤ 1023 → (tenant r ≠ none → be p 10 2 = 0) →
      u.admitted named = true → u.retiring named = false →
      (byteAt p 8 = 0 → (lastSecond u u.sec.signed).length < 256 →
        ∃ v, exec (.attestReport t r) s = okReply 0x0B01 r v (derFrags (reportBytes u named (slice p 16 32))) ∧
          v.sec = { u.sec with reports := u.sec.reports + 1, signed := lastSecond u u.sec.signed ++ [u.now] } ∧ v.boot = u.boot) ∧
      (byteAt p 8 = 0 → 256 ≤ (lastSecond u u.sec.signed).length → exec (.attestReport t r) s = refuseReply 0x0B01 r u 0x40) ∧
      (1 ≤ byteAt p 8 → byteAt p 8 ≤ 3 → slice p 16 32 = zeros 32 →
        exec (.attestReport t r) s = okReply 0x0B01 r u (derFrags (certBytes u (byteAt p 8)))))

/-! ### Power (15) -/

/-- 15 R477–R482: a dip opens a window that halves the clocks and freezes admissions; the clocks come back 10 µs after the rise and
the window closes 0.2 µs later with its record; a window of 100 ms is noted as sustained, and a low input is flagged. -/
def Obligations.DipsHalveTheClocksAndClose : Prop :=
  ∀ (t : Time) (p : Sample) (s : State),
    let u := s.tick t
    (s.pwr.inReset = false → s.pwr.window = false →
      (p.mv < 11000 → ∃ v, exec (.dipStart t p) s = .next v ∧ v.pwr.window = true ∧ v.pwr.halved = true ∧ v.pwr.warnedAt = u.now + ns 40 ∧
        v.pwr.frozenAt = u.now + ns 80 ∧ v.pwr.minMv = p.mv ∧ v.pwr.event.getLsbD 0 = true ∧ v.pwr.level = s.pwr.level ∧
        (∀ b, (v.basin b).restarts = (s.basin b).restarts + (if (s.basin b).replaying then 1 else 0)) ∧ v.mem = s.mem ∧ v.cis = s.cis ∧
        v.bsn.store = s.bsn.store ∧ v.flm = s.flm ∧ v.kry = s.kry ∧ v.out = s.out) ∧
      (11000 ≤ p.mv → exec (.dipStart t p) s = .next { u with pwr := { s.pwr with sample := p } })) ∧
    (s.pwr.window = true → s.pwr.halved = true →
      (11200 < p.mv → ∃ v, exec (.dipRecovery t p) s = .next v ∧ v.pwr.riseAt = some (s.pwr.riseAt.getD u.now) ∧ v.pwr.halved = true) ∧
      (p.mv ≤ 11200 → ∃ v, exec (.dipRecovery t p) s = .next v ∧ v.pwr.riseAt = none ∧ v.pwr.minMv = min s.pwr.minMv p.mv) ∧
      (∀ a, s.pwr.riseAt = some a → (u.now < a + us 10 → exec (.clockRestore t) s = .next u) ∧
        (a + us 10 ≤ u.now → exec (.clockRestore t) s = .next { u with pwr := { s.pwr with halved := false, restoredAt := some u.now } }))) ∧
    (∀ a, s.pwr.window = true → s.pwr.halved = false → s.pwr.restoredAt = some a →
      (u.now < a + ns 200 → exec (.dipWindowClose t) s = .next u) ∧
      (a + ns 200 ≤ u.now → s.hlt.buf = [] → s.flm.queues = [] → s.flm.chains = [] → s.col.groups = [] → (∀ b, (s.basin b).inbound = []) →
        (∀ e ∈ s.sec.levees, e.2.retiring = false) →
        ∃ v x, exec (.dipWindowClose t) s = .next v ∧ v.pwr.window = false ∧ v.pwr.halved = false ∧
          v.pwr.dipMin = BitVec.ofNat 12 (s.pwr.minMv / 10) ∧ v.pwr.dipDur = BitVec.ofNat 20 (min ((u.now - s.pwr.warnedAt) / ns 20) 0xFFFFF) ∧
          v.hlt.buf = [x] ∧ x.type = 0x0003 ∧ x.time = u.usec ∧ le x.body 0 2 = s.pwr.minMv / 10 % 2 ^ 16 ∧
          le x.body 2 4 = (u.now - s.pwr.warnedAt) / ns 20 % 2 ^ 32 ∧
          (∀ b, (v.basin b).replaying = !(s.basin b).tagged.isEmpty ∧ (v.basin b).tagged = (s.basin b).tagged) ∧
          v.bsn.store = s.bsn.store ∧ v.cis = s.cis ∧ v.out = s.out)) ∧
    (s.pwr.window = true → s.pwr.sustained = false →
      (s.pwr.frozenAt + ms 100 ≤ u.now → ∃ v, exec (.sustainedDip t) s = .next v ∧ v.pwr.sustained = true ∧ v.pwr.window = true ∧
        (s.hlt.buf = [] → ∃ x, v.hlt.buf = [x] ∧ x.type = 0x0003)) ∧
      (u.now < s.pwr.frozenAt + ms 100 → exec (.sustainedDip t) s = .next u)) ∧
    ∃ v, exec (.lowInput t p) s = .next v ∧ v.pwr.sample = p ∧
      v.pwr.lowInput = (if p.mv < 11400 then true else if 11500 < p.mv then false else s.pwr.lowInput)

/-- 15 R483–R489: below 10.2 V, above 13.0 V or at 105 °C the device resets, keeping only what flash and the always-on domain hold,
with its record first; it is let go after 100 ms in range. Droop and readings raise and lower the throttle level one at a time. -/
def Obligations.ResetsAndThrottling : Prop :=
  ∀ (t : Time) (p : Sample) (s : State),
    let u := s.tick t
    let mv := if s.pwr.window then min s.pwr.minMv p.mv else p.mv
    let resets (cause : Nat) (v : State) : Prop :=
      v.pwr.inReset = true ∧ v.pwr.resetCause = cause ∧ v.ports = [] ∧ v.out = s.out ++ [.silence] ∧ v.hlt.buf = [] ∧
      v.kry = State.reset.kry ∧ v.mem = State.reset.mem ∧ v.cis = State.reset.cis ∧ v.bsn.store = [] ∧ v.sec.levees = [] ∧
      v.boot.termCtr = s.boot.termCtr ∧ v.boot.bootCtr = s.boot.bootCtr ∧ v.boot.a = s.boot.a ∧ v.boot.b = s.boot.b ∧ v.boot.c0 = s.boot.c0 ∧
      v.boot.c1 = s.boot.c1 ∧ v.now = u.now ∧ v.pending = s.pending ∧
      (s.hlt.perm.length < 32768 → ∃ x, (s.hlt.perm ++ [x]) <+: v.hlt.perm ∧ x.type = 0x0002 ∧ x.rseq = s.hlt.next ∧
        byteAt x.body 0 = cause ∧ le x.body 2 2 = mv / 10 % 2 ^ 16 ∧ byteAt x.body 4 = p.tmax % 256)
    (s.pwr.inReset = false →
      (p.mv < 10200 → ∃ v, exec (.supplyReset t p) s = .next v ∧ resets 1 v) ∧
      (13000 < p.mv → ∃ v, exec (.supplyReset t p) s = .next v ∧ resets 2 v) ∧
      (10200 ≤ p.mv → p.mv ≤ 13000 → ∃ v, exec (.supplyReset t p) s = .next v ∧ v.pwr.inReset = false ∧ v.pwr.sample = p ∧ v.out = s.out ∧
        v.kry = s.kry ∧ v.cis = s.cis) ∧
      (105 ≤ p.tmax → ∃ v, exec (.thermalReset t p) s = .next v ∧ resets 3 v) ∧
      (p.tmax < 105 → ∃ v, exec (.thermalReset t p) s = .next v ∧ v.pwr.inReset = false ∧ v.out = s.out ∧ v.kry = s.kry) ∧
      ∃ v, exec (.resetRelease t p) s = .next v ∧ v.pwr.inReset = false ∧ v.kry = s.kry) ∧
    (s.pwr.inReset = true →
      (11400 ≤ p.mv → p.mv ≤ 12600 → s.pwr.outAt + ms 100 ≤ u.now → (s.pwr.cooling = true → p.tmax < 90) →
        ∃ v, exec (.resetRelease t p) s = .next v ∧ v.pwr.inReset = false ∧ v.pwr.resetCause = s.pwr.resetCause ∧ v.out = s.out) ∧
      ((p.mv < 11400 ∨ 12600 < p.mv) → exec (.resetRelease t p) s = .next { u with pwr := { s.pwr with sample := p, outAt := u.now } }) ∧
      ((u.now < s.pwr.outAt + ms 100 ∨ (s.pwr.cooling = true ∧ 90 ≤ p.tmax)) →
        ∃ v, exec (.resetRelease t p) s = .next v ∧ v.pwr.inReset = true) ∧
      (13000 < p.mv → (s.pwr.lastOverRec = none → ∃ v, exec (.supplyReset t p) s = .next v ∧ v.hlt.next = s.hlt.next + 1 ∧
          v.pwr.lastOverRec = some u.now ∧ v.pwr.inReset = true) ∧
        (∀ a, s.pwr.lastOverRec = some a → u.now < a + sec 1 → ∃ v, exec (.supplyReset t p) s = .next v ∧ v.hlt = s.hlt ∧
          v.pwr.inReset = true))) ∧
    (∀ die stretched, die ≤ 1 →
      (∃ v, exec (.droopStretch t die) s = .next v ∧ v.pwr.stretch = setBit s.pwr.stretch die ∧ v.pwr.level = s.pwr.level) ∧
      exec (.clockStretchEnd t die) s = .next { u with pwr := { s.pwr with stretch := clearBit s.pwr.stretch die } } ∧
      (arithMhz s * 1000 < 1024 * stretched → ∃ v, exec (.droopInterval t die stretched) s = .next v ∧
        v.pwr.level = (if s.pwr.level < 4 then s.pwr.level + 1 else s.pwr.level) ∧ v.pwr.cause.getLsbD 2 = true ∧
        v.pwr.droop.getLsbD die = true) ∧
      (1024 * stretched ≤ arithMhz s * 1000 → ∃ v, exec (.droopInterval t die stretched) s = .next v ∧ v.pwr.level = s.pwr.level ∧
        v.pwr.droop.getLsbD die = false)) ∧
    (∃ v, exec (.throttleRaise t p) s = .next v ∧ v.pwr.cause = causesNow p s ∧
      v.pwr.level = (if causesNow p s ≠ 0 ∧ s.pwr.level < 4 ∧ s.pwr.lastStep + ms 1 ≤ u.now then s.pwr.level + 1 else s.pwr.level)) ∧
    (∃ v, exec (.throttleLower t p) s = .next v ∧
      v.pwr.level = (if notCalm p s = false ∧ 0 < s.pwr.level ∧ s.pwr.level < 5 ∧ s.pwr.causeAt + ms 10 ≤ u.now ∧
        s.pwr.lastStep + ms 10 ≤ u.now then s.pwr.level - 1 else s.pwr.level)) ∧
    (∃ v, exec (.level5 t p) s = .next v ∧ v.pwr.level = (if 103 ≤ p.tmax then 5 else s.pwr.level) ∧
      (103 ≤ p.tmax → s.pwr.level ≠ 5 → v.pwr.event.getLsbD 2 = true)) ∧
    ∃ v, exec (.level5Exit t p) s = .next v ∧
      v.pwr.level = (if s.pwr.level = 5 ∧ p.tmax < 100 ∧ s.pwr.hotAt + ms 10 ≤ u.now then 4 else s.pwr.level)

/-! ### Start-up and firmware (16) -/

/-- 16 R494–R498, R504, R507–R511: staging writes its bytes; an activation is checked in order and its slot tried; a trial commits
after 60 s or fails; settings are written beside those in force; power-on picks the first bootable slot, or RECOVERY, or NO_IDENTITY
with its beacon. -/
def Obligations.ImagesAreStagedTriedAndBooted : Prop :=
  ∀ (t : Time) (r : KReq) (s : State),
    let u := taken r t s
    let w := s.tick t
    let p := par r
    let n := plen r - 8
    let off := be p 4 4
    (begins 0x0B03 t r s = true → 16 ≤ plen r → plen r ≤ 4048 → plen r % 8 = 0 → byteAt p 0 ≤ 1 → off % 8 = 0 →
      off + n ≤ stageSize (byteAt p 0) → activating u (byteAt p 0) = false →
      ∃ v, exec (.fwStage t r) s = okReply 0x0B03 r v [] ∧ stageRead v (byteAt p 0) off n = p.drop 8 ∧
        (∀ a, a < off ∨ off + n ≤ a → stageRead v (byteAt p 0) a 1 =
          if bitOf (byteAt p 1) 0 then [0xFF] else stageRead u (byteAt p 0) a 1) ∧
        (∀ a k, stageRead v (1 - byteAt p 0) a k = stageRead u (1 - byteAt p 0) a k) ∧ v.boot.a = u.boot.a ∧ v.boot.b = u.boot.b) ∧
    (let d := slice p 8 64
      let xs := stagedSet u
      let y := stagedImage u 1 0 4
      begins 0x0B04 t r s = true → plen r = 72 →
      (byteAt p 0 = 0 →
        ((∃ x ∈ xs, x.ok = false) ∨ Config.shake256 (xs.flatMap (·.digest)) 512 ≠ d → exec (.fwActivate t r) s = refuseReply 0x0B04 r u 0x11) ∧
        ((∀ x ∈ xs, x.ok = true) → Config.shake256 (xs.flatMap (·.digest)) 512 = d →
          ((∃ x ∈ xs, x.signed = false) → ∃ v, exec (.fwActivate t r) s = refuseReply 0x0B04 r v 0x11 ∧ v.sec.event.getLsbD 1 = true ∧
            v.boot = u.boot) ∧
          ((∀ x ∈ xs, x.signed = true) → (∃ x ∈ xs, x.svn < svnCounter u x.comp) →
            ∃ v, exec (.fwActivate t r) s = refuseReply 0x0B04 r v 0x11 ∧ v.sec.event.getLsbD 2 = true ∧ v.boot = u.boot) ∧
          ((∀ x ∈ xs, x.signed = true) → (∀ x ∈ xs, svnCounter u x.comp ≤ x.svn) → inTrial u = false → activating u 0 = false →
            exec (.fwActivate t r) s =
              deferReply 0x0B04 r (dirWrite (setSlotSet (targetSlot u) ⟨.empty, [], [], []⟩ u)) (.activate 0)))) ∧
      (byteAt p 0 = 1 → y.ok = true → y.digest = d → y.pub = operatorKey u → Config.falconVerify y.pub y.digest y.sig = true →
        (y.svn < u.boot.settingsCtr → ∃ v, exec (.fwActivate t r) s = refuseReply 0x0B04 r v 0x11 ∧ v.sec.event.getLsbD 2 = true) ∧
        (u.boot.settingsCtr < y.svn → (stagedSettings y).isSome = true → activating u 1 = false →
          exec (.fwActivate t r) s = deferReply 0x0B04 r u (.activate 1)))) ∧
    ((activating s 0 = false → exec (.imageWriteComplete t) s = .next w) ∧
      (activating s 0 = true → inTrial s = false → s.kry.executing = none →
        ∃ v, exec (.imageWriteComplete t) s = .next v ∧ slotSet v (targetSlot s) = ⟨.trial, (stagedSet s).map (·.svn),
          (stagedSet s).map (·.version), (stagedSet s).map (·.digest)⟩ ∧ slotSet v (1 - targetSlot s) = slotSet s (1 - targetSlot s) ∧
          (s.boot.mode ≠ .recovery → v.boot.slot = targetSlot s ∧ v.kry.ready = false ∧ v.cis = s.cis ∧ v.out = s.out) ∧
          (s.boot.mode = .recovery → v.out = s.out ++ [.silence] ∧ v.ports = []))) ∧
    (∀ a, s.boot.trialAt = some a → (runningSet s).st = .trial → s.kry.ready = true →
      (w.now < a + sec 60 → exec (.trialEnd t) s = .next w) ∧
      (a + sec 60 ≤ w.now →
        let x := runningSet s
        let y := slotSet s (1 - s.boot.slot)
        ∃ v, exec (.trialEnd t) s = .next v ∧ (slotSet v s.boot.slot).st = .active ∧ v.boot.trialAt = none ∧
          v.boot.svnBoot = max s.boot.svnBoot (x.svn.getD 0 0) ∧ v.boot.svnMc = max s.boot.svnMc (x.svn.getD 1 0) ∧
          v.boot.svnTretu = max s.boot.svnTretu (x.svn.getD 2 0) ∧ v.boot.stage0 = [] ∧
          let current : Prop := v.boot.svnBoot ≤ y.svn.getD 0 0 ∧ v.boot.svnMc ≤ y.svn.getD 1 0 ∧ v.boot.svnTretu ≤ y.svn.getD 2 0
          (y.st = .active → current → (slotSet v (1 - s.boot.slot)).st = .fallback) ∧
          (y.st = .active → ¬current → (slotSet v (1 - s.boot.slot)).st = .failed) ∧
          (y.st ≠ .active → slotSet v (1 - s.boot.slot) = y) ∧
          (s.hlt.buf = [] → v.hlt.buf.map (·.type) = [0x0022, 0x0022, 0x0022]))) ∧
    (∀ cause, ((cause ≠ 1 ∧ cause ≠ 2) ∨ (runningSet s).st ≠ .trial ∨ s.kry.ready = true → exec (.trialFailure t cause) s = .next w) ∧
      ((cause = 1 ∨ cause = 2) → (runningSet s).st = .trial → s.kry.ready = false → s.kry.executing = none →
        ∃ v, exec (.trialFailure t cause) s = .next v ∧ v.boot.slot = 1 - s.boot.slot ∧ (slotSet v s.boot.slot).st = .failed ∧
          slotSet v (1 - s.boot.slot) = slotSet s (1 - s.boot.slot) ∧ v.boot.svnMc = s.boot.svnMc ∧ v.kry.ready = false)) ∧
    (let x := stagedImage s 1 0 4
     (activating s 1 = false → exec (.settingsWriteComplete t) s = .next w) ∧
      (activating s 1 = true → ∃ v, exec (.settingsWriteComplete t) s = .next v ∧ v.boot.settingsCtr = max s.boot.settingsCtr x.svn ∧
        v.boot.inForce = s.boot.inForce ∧ v.boot.stage1 = [] ∧
        (targetCopy s = 0 → v.boot.c0 = stagedSettings x ∧ v.boot.c1 = s.boot.c1) ∧
        (targetCopy s ≠ 0 → v.boot.c1 = stagedSettings x ∧ v.boot.c0 = s.boot.c0))) ∧
    (∀ f : PowerOnFacts,
      ((s.pwr.inReset = true ∨ f.mv < 11400 ∨ 12600 < f.mv) → exec (.powerOn t f) s = .next w) ∧
      (s.pwr.inReset = false → 11400 ≤ f.mv → f.mv ≤ 12600 →
        (f.pufOk = true → f.countersOk = true → f.dirOk = true → s.boot.a.st = .active →
          (f.slotAOk = true → s.boot.b.st ≠ .trial → s.boot.svnBoot ≤ s.boot.a.svn.getD 0 0 → s.boot.svnMc ≤ s.boot.a.svn.getD 1 0 →
            s.boot.svnTretu ≤ s.boot.a.svn.getD 2 0 → f.ret01 = 0 → f.ret10 = 0 → f.failedBasins = [] → f.failedHalves = [] →
            f.failedChannels = [] → f.failedLanes = [] → f.badWays ≤ 131072 →
            ∃ v, exec (.powerOn t f) s = .next v ∧ v.boot.mode = .normal ∧ v.boot.slot = 0 ∧ v.boot.fallbackBoot = false ∧
              v.boot.bootCtr = s.boot.bootCtr + 1 ∧ v.now = 0 ∧ v.kry = State.reset.kry ∧ v.cis = State.reset.cis ∧
              v.sec.levees = [] ∧ v.boot.postPass = true ∧ v.hlt.devicePassed = true ∧
              v.ports = controlPorts (settingsOf v v.boot.inForce) ∧
              (s.hlt.buf = [] → v.hlt.buf.map (·.type) = [0x0050, 0x0001, 0x0052])) ∧
          (f.slotAOk = false → s.boot.b.st = .empty → ∃ v, exec (.powerOn t f) s = .next v ∧ v.boot.mode = .recovery ∧
            v.boot.a.st = .failed ∧ v.sec.event.getLsbD 1 = true ∧ v.boot.bootCtr = s.boot.bootCtr + 1)) ∧
        (f.pufOk = false ∨ f.countersOk = false ∨ f.dirOk = false → ∃ v, exec (.powerOn t f) s = .next v ∧ v.boot.mode = .noIdentity ∧
          v.boot.beaconCause = (if f.pufOk = false then 1 else if f.countersOk = false then 2 else 3) ∧ v.kry.ready = false ∧
          v.ports = controlPorts none ∧ v.boot.bootCtr = s.boot.bootCtr))) ∧
    ∀ port, (s.boot.mode ≠ .noIdentity → exec (.beacon t port) s = .next w) ∧
      (s.boot.mode = .noIdentity → 512 ≤ port → port < 516 → s.portUp port = true → s.mayReply port →
        (∀ a, Tab.get? s.boot.lastBeacon port = some a → w.now < a + sec 1 → exec (.beacon t port) s = .next w) ∧
        ((∀ a, Tab.get? s.boot.lastBeacon port = some a → a + sec 1 ≤ w.now) → ∃ v, exec (.beacon t port) s = .next v ∧
          v.out = s.out ++ [.beacon port (s.portMac port) (beaconBytes s)] ∧ Tab.get? v.boot.lastBeacon port = some w.now))

/-! ### Health (17), the test access port (18) -/

/-- 17 R515–R521, R530, 18 R544: records are buffered, coalesced or discarded and written oldest first; the ledger, margins and gauges
are read out; the TAP answers IDCODE. -/
def Obligations.LedgerKeepsAndReadsRecords : Prop :=
  ∀ (t : Time) (r : KReq) (s : State),
    let u := taken r t s
    let w := s.tick t
    let p := par r
    (∀ e : LedgerEv, (ledgerType e.type = false → exec (.ledgerEvent t e) s = .next w) ∧
      (ledgerType e.type = true →
        (permType e.type = true → s.hlt.buf.length < 512 → ∃ v, exec (.ledgerEvent t e) s = .next v ∧
          v.hlt.buf = s.hlt.buf ++ [mkRec w e.type e.source e.body]) ∧
        (permType e.type = false → (∀ x ∈ s.hlt.buf, x.type ≠ e.type) → ringCount s.hlt.buf < 448 → s.hlt.buf.length < 512 →
          ∃ v, exec (.ledgerEvent t e) s = .next v ∧ v.hlt.buf = s.hlt.buf ++ [mkRec w e.type e.source e.body]) ∧
        (permType e.type = false → (∀ x ∈ s.hlt.buf, x.type ≠ e.type) → 448 ≤ ringCount s.hlt.buf → ∃ v,
          exec (.ledgerEvent t e) s = .next v ∧ v.hlt.buf = s.hlt.buf ∧ v.hlt.lostNext = s.hlt.lostNext + 1) ∧
        (∀ x, permType e.type = false → s.hlt.buf = [x] → x.type = e.type → x.source = e.source → w.usec < x.time + 1000000 →
          x.count < 255 → ∃ v, exec (.ledgerEvent t e) s = .next v ∧ v.hlt.buf = [{ x with count := x.count + 1 }]))) ∧
    (s.hlt.buf = [] → exec (.ledgerFlashWrite t) s = .next w) ∧
    (∀ x rest, s.hlt.buf = x :: rest → ∃ v y, exec (.ledgerFlashWrite t) s = .next v ∧ v.hlt.buf = rest ∧ v.hlt.next = s.hlt.next + 1 ∧
      v.hlt.lostNext = 0 ∧ y = { x with rseq := s.hlt.next, lost := min s.hlt.lostNext 0xFFFFFFFF, tag := y.tag } ∧ recTag y = y.tag ∧
      (permType x.type = true ∧ s.hlt.perm.length < 32768 → v.hlt.perm = s.hlt.perm ++ [y] ∧ v.hlt.ring = s.hlt.ring) ∧
      (¬(permType x.type = true ∧ s.hlt.perm.length < 32768) → v.hlt.perm = s.hlt.perm ∧
        v.hlt.ring = (if s.hlt.ring.length < 229376 then s.hlt.ring else s.hlt.ring.drop 512) ++ [y])) ∧
    ((heldRecs s).Perm (s.hlt.perm ++ s.hlt.ring) ∧
      (s.hlt.ring.Pairwise (fun a b => a.rseq ≤ b.rseq) → (heldRecs s).Pairwise fun a b => a.rseq ≤ b.rseq)) ∧
    (begins 0x0C04 t r s = true → r.frags = [p] → plen r = 24 → 1 ≤ be p 16 4 → be p 16 4 ≤ 496 →
      let rs := ((heldRecs u).filter fun x => decide (be p 8 8 ≤ x.rseq)).take (be p 16 4)
      (rs = [] → exec (.ledgerRead t r) s = okReply 0x0C04 r u [toBe 8 (oldestRseq u)]) ∧
      (rs ≠ [] → exec (.ledgerRead t r) s = okReply 0x0C04 r u
        ((runs 31 rs rs.length).map fun c => toBe 8 (oldestRseq u) ++ c.flatMap recReturned))) ∧
    (begins 0x0C05 t r s = true → plen r = 8 → byteAt p 0 ≤ 1 →
      exec (.marginRead t r) s = okReply 0x0C05 r u [marginBytes u (byteAt p 0)]) ∧
    (∀ body, (∃ v, exec (.marginRecord t body true) s = .next v ∧ v.hlt.event.getLsbD 0 = true ∧ v.hlt.lastMargin = s.hlt.lastMargin ∧
        (s.hlt.buf = [] → v.hlt.buf = [mkRec w 0x0052 (srcOf 0 0) body])) ∧
      (s.hlt.lastMargin + sec 86400 ≤ w.now → ∃ v, exec (.marginRecord t body false) s = .next v ∧ v.hlt.lastMargin = w.now ∧
        (s.hlt.buf = [] → v.hlt.buf = [mkRec w 0x0052 (srcOf 0 0) body])) ∧
      (w.now < s.hlt.lastMargin + sec 86400 → exec (.marginRecord t body false) s = .next w)) ∧
    (begins 0x0C03 t r s = true → r.frags = [p] → 1 ≤ be p 8 2 → be p 8 2 ≤ 500 → plen r = 16 + 8 * be p 8 2 →
      (∀ i < be p 8 2, itemOk u (tenant r) (gaugeItem p i) = true) →
      exec (.gaugesRead t r) s = okReply 0x0C03 r u
        ((packItems ((List.range (be p 8 2)).map fun i => itemBytes u (tenant r) (gaugeItem p i))).map fun c =>
          toBe 2 c.length ++ zeros 6 ++ c.flatMap id)) ∧
    (∀ k n, gaugeRead (s.count k n) none k = (gaugeRead s none k + n) % 2 ^ 64 ∧
      ∀ j, j ≠ k → gaugeRead (s.count k n) none j = gaugeRead s none j) ∧
    exec (.tapOperation t 1) s = .next (w.emit (.tap (BitVec.ofNat 32 hdwId))) ∧
    ∀ instr, instr ≠ 1 →
      ((instr ≠ 2 ∧ instr ≠ 3) ∨ s.sec.dbg.getLsbD 1 = false → exec (.tapOperation t instr) s = .next (w.emit (.tap 0))) ∧
      ((instr = 2 ∨ instr = 3) → s.sec.dbg.getLsbD 1 = true → ∃ v x, exec (.tapOperation t instr) s = .next v ∧ v.out = s.out ++ [.tap x] ∧
        v.hlt = s.hlt ∧ v.ports = s.ports)

/-- 17 R522–R529: a test drains its resource, runs and records its verdict; a failure withdraws the resource, a passed REINSTATE
returns it; a CONDITIONAL basin is held out and let in again by its threshold. -/
def Obligations.TestsWithdrawAndReinstate : Prop :=
  ∀ (t : Time) (r : KReq) (s : State),
    let u := taken r t s
    let w := s.tick t
    let p := par r
    let kind := byteAt p 0
    let id := if kind = 0 then 0 else be p 2 2
    let flags := byteAt p 1 % 8
    (testExists kind id = true → plen r = 8 → bitOf flags 0 = false → (kind = 0 → flags = 0 ∧ u.sec.levees = []) →
      (∀ x ∈ u.hlt.tests, ¬(x.kind = kind ∧ testDie x.kind x.id = testDie kind id)) → (kind = 1 → ∀ y, u.hlt.replay = some y → y.basin / 2 ≠ id / 2) →
      (begins 0x0C01 t r s = true → (bitOf flags 1 = true → heldOut u kind id = true) →
        ∃ v, exec (.selftest t r) s = deferReply 0x0C01 r v (.test kind id) ∧
          v.hlt.tests = u.hlt.tests ++ [⟨kind, id, flags, false, u.now, true, false⟩] ∧ (kind = 1 → (v.basin id).draining = true) ∧
          v.ports = u.ports ∧ v.scr = u.scr) ∧
      (begins 0x0C02 t r s = true → bitOf flags 1 = false →
        ∃ v, exec (.calibrate t r) s = deferReply 0x0C02 r v (.test kind id) ∧
          v.hlt.tests = u.hlt.tests ++ [⟨kind, id, flags, true, u.now, true, false⟩] ∧ (kind = 1 → (v.basin id).draining = true))) ∧
    (begins 0x0C01 t r s = true → plen r = 8 → testExists kind id = true → flags = 0 →
      (∃ x ∈ u.hlt.tests, x.kind = kind ∧ testDie x.kind x.id = testDie kind id) → exec (.selftest t r) s = refuseReply 0x0C01 r u 0x40) ∧
    (∀ k i x, findTest s k i = some x → x.draining = true →
      (k = 1 → resourceIdle w 1 i = false → w.now < x.started + sec 1 → exec (.drainWaitExpiry t k i) s = .next w) ∧
      (k = 1 → s.flm.queues = [] → (resourceIdle w 1 i = true ∨ x.started + sec 1 ≤ w.now) →
        ∃ v, exec (.drainWaitExpiry t k i) s = .next v ∧ findTest v k i = some { x with draining := false, started := w.now } ∧ v.bsn = s.bsn) ∧
      (k = 2 → isTenantBank (i / 2) = false → ∃ v, exec (.drainWaitExpiry t k i) s = .next v ∧ i ∈ v.scr.out ∧
        findTest v k i = some { x with draining := false, started := w.now }) ∧
      (k = 3 → i ∉ s.hlt.retiredChannels → i ∉ s.cis.relocated → s.freeFrames (testDie 3 i) < 531 → x.started + sec 1 ≤ w.now →
        ∃ v, exec (.drainWaitExpiry t k i) s = .next v ∧ findTest v k i = none ∧ v.kry.deferred = s.kry.deferred.filter fun y =>
          !(y.work == .test 3 i))) ∧
    (∀ k i x detail, findTest s k i = some x → x.draining = false → s.pwr.window = false → testReady w x = true →
      (x.rerun = true → ∃ v, exec (.testComplete t k i 0 detail) s = .next v ∧
        findTest v k i = some { x with rerun := false, started := w.now } ∧ v.kry = s.kry) ∧
      (x.rerun = false → k = 2 → x.flags = 0 → ∃ v, exec (.testComplete t k i 0 detail) s = .next v ∧ findTest v k i = none ∧
        i ∉ v.scr.out ∧ v.hlt.retiredHalves = s.hlt.retiredHalves ∧
        (∀ y key, s.kry.deferred = [y] → y.work = .test k i → y.key = some key → s.kry.ready = true → s.portUp y.req.port = true →
          s.mayReply y.req.port → s.halted = false → s.confidential y.req.levee = false → s.kry.executing = none →
          v.out = s.out ++ [.krytic (mkReply y.req (some key) 0x00 [[0, 0, 0, 0] ++ toBe 4 ((w.now - x.started) / us 1) ++ slice detail 0 8])])) ∧
      (x.rerun = false → k = 2 → i ∉ s.hlt.retiredHalves → ∃ v, exec (.testComplete t k i 2 detail) s = .next v ∧ findTest v k i = none ∧
        i ∈ v.hlt.retiredHalves ∧ v.hlt.event.getLsbD 1 = true ∧ v.hlt.event.getLsbD 3 = true) ∧
      (x.rerun = false → k = 1 → (s.basin i).quar = .none → s.flm.queues = [] → ∃ v, exec (.testComplete t k i 2 detail) s = .next v ∧
        (v.basin i).quar = .full ∧ (v.basin i).power = .off ∧ (v.basin i).draining = false ∧ v.hlt.event.getLsbD 2 = true) ∧
      (x.rerun = false → k = 1 → bitOf x.flags 1 = true → s.flm.queues = [] → ∃ v, exec (.testComplete t k i 0 detail) s = .next v ∧
        (v.basin i).quar = .none ∧ (v.basin i).power ≠ .off ∧ (v.basin i).draining = false)) ∧
    ∀ b temp load,
      let x := s.basin b
      let due := (x.quarTemp ≠ 0 ∧ x.quarTemp ≤ temp) ∨ (x.quarMask ≠ 0 ∧ load &&& x.quarMask = x.quarMask)
      (∃ v, exec (.holdOut t b temp load) s = .next v ∧ (v.basin b).temp = temp ∧
        (x.quar = .conditional → due → (v.basin b).quar = .heldOut ∧ (v.basin b).heldAt = w.now ∧ (v.basin b).quarTemp = x.quarTemp) ∧
        (x.quar ≠ .conditional ∨ ¬due → (v.basin b).quar = x.quar ∧ v.hlt = s.hlt)) ∧
      ∃ v, exec (.holdOutEnd t b temp) s = .next v ∧
        (x.quar ≠ .heldOut → (v.basin b).quar = x.quar) ∧
        (x.quar = .heldOut → x.quarTemp ≠ 0 → x.quarTemp < temp + 3 → (v.basin b).quar = .heldOut ∧ (v.basin b).coolSince = none) ∧
        (x.quar = .heldOut → x.quarTemp = 0 ∨ temp + 3 ≤ x.quarTemp →
          (x.coolSince.getD w.now + ms 10 ≤ w.now → x.heldAt + ms s.hlt.holdMs.toNat ≤ w.now → (v.basin b).quar = .conditional) ∧
          (w.now < x.coolSince.getD w.now + ms 10 ∨ w.now < x.heldAt + ms s.hlt.holdMs.toNat →
            (v.basin b).quar = .heldOut ∧ (v.basin b).coolSince = some (x.coolSince.getD w.now)))

/-- 17 R528: COUNT mismatches within WINDOW_H hours quarantine a suspect: from NONE to CONDITIONAL by its lowest temperature and the
AND of its load patterns, or to FULL; from CONDITIONAL or HELD_OUT to FULL. -/
def Obligations.SuspectsAreQuarantined : Prop :=
  ∀ (b temp load tmin m : Nat) (s : State),
    let v := nameSuspect b temp load s
    let mine := (s.hlt.suspects ++ [(b, s.now, temp, load)]).filter fun e =>
      e.1 == b && decide (s.now ≤ e.2.1 + sec (3600 * s.hlt.quarHours.toNat))
    1 ≤ s.hlt.quarCount.toNat → 1 ≤ s.hlt.quarHours.toNat → m < 256 → (∀ e ∈ mine, tmin ≤ e.2.2.1 ∧ e.2.2.1 ≤ 255) →
    (∃ e ∈ mine, e.2.2.1 = tmin) → (∀ i < 8, m.testBit i = true ↔ ∀ e ∈ mine, e.2.2.2.testBit i = true) →
    (mine.length < s.hlt.quarCount.toNat → (v.basin b).quar = (s.basin b).quar) ∧
    (s.hlt.quarCount.toNat ≤ mine.length →
      ((s.basin b).quar = .none →
        (s.hlt.tfloor.toNat ≤ tmin → (v.basin b).quar = .conditional ∧ (v.basin b).quarTemp = tmin - 3 ∧ (v.basin b).quarMask = m) ∧
        (tmin < s.hlt.tfloor.toNat → m ≠ 0 → (v.basin b).quar = .conditional ∧ (v.basin b).quarTemp = 0 ∧ (v.basin b).quarMask = m) ∧
        (tmin < s.hlt.tfloor.toNat → m = 0 → (v.basin b).quar = .full)) ∧
      ((s.basin b).quar = .conditional ∨ (s.basin b).quar = .heldOut → (v.basin b).quar = .full))

/-- 17 R531–R534: the recorder is armed, captures once into the lowest free slot, is read and released, and replays on a drained
basin. -/
def Obligations.RecorderCapturesAndReplays : Prop :=
  ∀ (t : Time) (r : KReq) (s : State),
    let u := taken r t s
    let w := s.tick t
    let p := par r
    let tr := byteAt p 0
    (∀ b trigger a l, s.hlt.arm = some a → (s.basin b).last = some l → a.trigger = trigger → (a.basin = 0xFFFF ∨ a.basin = b) →
      (triggerMet a l = true → s.confActive = false →
        (∀ k, Tab.lowestFree s.hlt.captures 16 = some k → ∃ v c, exec (.capture t b trigger) s = .next v ∧ v.hlt.arm = none ∧
          Tab.get? v.hlt.captures k = some c ∧ c.trigger = trigger ∧ c.set = a.set ∧ c.desc = l.desc ∧
          (∀ j, j ≠ k → Tab.get? v.hlt.captures j = Tab.get? s.hlt.captures j)) ∧
        (Tab.lowestFree s.hlt.captures 16 = none → ∃ v, exec (.capture t b trigger) s = .next v ∧ v.hlt.arm = none ∧
          v.hlt.captures = s.hlt.captures)) ∧
      (triggerMet a l = false ∨ s.confActive = true → exec (.capture t b trigger) s = .next w)) ∧
    (∀ b trigger, s.hlt.arm = none → exec (.capture t b trigger) s = .next w) ∧
    (begins 0x0D01 t r s = true → plen r = 16 → (be p 2 2 ≤ 255 ∨ be p 2 2 = 0xFFFF) → be p 4 2 ≤ 4095 →
      (tr = 0 → exec (.recArm t r) s = okReply 0x0D01 r { u with hlt := { u.hlt with arm := none } } []) ∧
      (tr = 1 → exec (.recArm t r) s = refuseReply 0x0D01 r u 0x11) ∧
      (2 ≤ tr → tr ≤ 5 → exec (.recArm t r) s = okReply 0x0D01 r
        { u with hlt := { u.hlt with arm := some ⟨tr, byteAt p 1 % 4, be p 2 2, be p 4 2, be p 8 4⟩ } } []) ∧
      (∀ k, tr = 6 → Tab.lowestFree u.hlt.captures 16 = some k → ∃ v c, exec (.recArm t r) s = okReply 0x0D01 r v [] ∧ v.hlt.arm = none ∧
        Tab.get? v.hlt.captures k = some c ∧ c.trigger = 6)) ∧
    (∀ c, begins 0x0D02 t r s = true → r.frags = [p] → plen r = 24 → byteAt p 8 ≤ 15 → Tab.get? u.hlt.captures (byteAt p 8) = some c →
      be p 12 4 % 8 = 0 → be p 16 4 % 8 = 0 → 1 ≤ be p 16 4 → be p 16 4 ≤ 64512 → be p 12 4 < c.bytes.length →
      let ps := chunks 4032 ((c.bytes.drop (be p 12 4)).take (be p 16 4))
      let v := if bitOf (byteAt p 9) 0 then { u with hlt := { u.hlt with captures := Tab.del u.hlt.captures (byteAt p 8) } } else u
      exec (.recRead t r) s = okReply 0x0D02 r v ((List.range ps.length).map fun i =>
        toBe 4 c.bytes.length ++ toBe 4 (be p 12 4 + 4032 * i) ++ pad8 (ps.getD i []))) ∧
    (∀ c, begins 0x0D03 t r s = true → plen r = 16 → Tab.get? u.hlt.captures tr = some c → c.trunc = false → be p 2 2 ≤ 255 →
      voffMv (byteAt p 4) ≤ 60 → voffMv (byteAt p 4) % 5 = 0 → (byteAt p 5 = 0 ∨ (40 ≤ byteAt p 5 ∧ byteAt p 5 ≤ 100)) →
      1500 ≤ be p 6 2 → be p 6 2 ≤ 3450 → 1 ≤ be p 8 2 → u.hlt.replay = none → (bitOf (byteAt p 1) 0 = true → u.flm.queues = []) →
      ∃ v, exec (.recReplay t r) s = deferReply 0x0D03 r v .replay ∧
        v.hlt.replay = some ⟨tr, be p 2 2, byteAt p 4, byteAt p 5, be p 6 2, be p 8 2⟩ ∧ (v.basin (be p 2 2)).draining = true ∧
        (v.basin (be p 2 2 ^^^ 1)).draining = true) ∧
    ∀ y runs mism temp crc, s.hlt.replay = some y →
      (drained w y.basin = false ∨ drained w (y.basin ^^^ 1) = false → exec (.replayComplete t runs mism temp crc) s = .next w) ∧
      (drained w y.basin = true → drained w (y.basin ^^^ 1) = true → ∃ v, exec (.replayComplete t runs mism temp crc) s = .next v ∧
        v.hlt.replay = none ∧ (v.basin y.basin).draining = false ∧ (v.basin (y.basin ^^^ 1)).draining = false ∧
        (∀ x key, s.kry.deferred = [x] → x.work = .replay → x.key = some key → s.kry.ready = true → s.portUp x.req.port = true →
          s.mayReply x.req.port → s.halted = false → s.confidential x.req.levee = false → s.kry.executing = none →
          v.out = s.out ++ [.krytic (mkReply x.req (some key) 0x00
            [toBe 4 runs ++ toBe 4 mism ++ toBe 1 temp ++ zeros 3 ++ toBe 4 crc.toNat])]))

/-! ### What every step keeps -/

/-- Every step keeps both byte memories in their one canonical form. -/
def Obligations.EveryStepKeepsBothMemories : Prop :=
  ∀ s s' : State, s.memOk → step s = .next s' → s'.memOk

/-- Both byte memories are in canonical form after reset, with nothing listed. -/
def Obligations.ResetHasBothMemories : Prop :=
  State.reset.memOk ∧ State.reset.cis.pool = [] ∧ State.reset.bsn.store = [] ∧ State.reset.pending = []

/-- 16 R501: no step lowers a monotonic counter of the flash. -/
def Obligations.FlashCountersNeverFall : Prop :=
  ∀ s s' : State, step s = .next s' →
    s.boot.termCtr ≤ s'.boot.termCtr ∧ s.boot.svnBoot ≤ s'.boot.svnBoot ∧ s.boot.svnMc ≤ s'.boot.svnMc ∧
      s.boot.svnTretu ≤ s'.boot.svnTretu ∧ s.boot.settingsCtr ≤ s'.boot.settingsCtr ∧ s.boot.bootCtr ≤ s'.boot.bootCtr
end

