-- ==== Sys2Proof/Laws/Tab.lean ====
section
/-! SUPPORT. Laws of sparse tables and of byte memory: a read after a write, and the canonical form. -/

namespace Sys2Proof

/-! ### Tables -/

@[simp] theorem Tab.get?_nil {α : Type} (k : Nat) : Tab.get? ([] : Tab α) k = none := rfl

theorem Tab.get?_cons {α : Type} (j : Nat) (w : α) (t : Tab α) (k : Nat) :
    Tab.get? ((j, w) :: t) k = if j = k then some w else Tab.get? t k := by
  simp [Tab.get?]

theorem Tab.get?_set {α : Type} (t : Tab α) (k j : Nat) (v : α) :
    Tab.get? (Tab.set t k v) j = if k = j then some v else Tab.get? t j := by
  induction t with
  | nil => simp [Tab.set, Tab.get?_cons]
  | cons e r ih =>
    obtain ⟨i, w⟩ := e
    simp only [Tab.set]
    split
    · rw [Tab.get?_cons, ih, Tab.get?_cons]
      grind
    · split
      · simp only [Tab.get?_cons]
        grind
      · simp only [Tab.get?_cons]

/-- The table reads at `k` what was written there. -/
@[simp] theorem Tab.get?_set_self {α : Type} (t : Tab α) (k : Nat) (v : α) : Tab.get? (Tab.set t k v) k = some v := by
  simp [Tab.get?_set]

/-- A write leaves every other number alone. -/
theorem Tab.get?_set_ne {α : Type} (t : Tab α) {k j : Nat} (v : α) (h : k ≠ j) :
    Tab.get? (Tab.set t k v) j = Tab.get? t j := by
  simp [Tab.get?_set, h]

@[simp] theorem Tab.getD_set_self {α : Type} (t : Tab α) (k : Nat) (v d : α) : Tab.getD (Tab.set t k v) k d = v := by
  simp [Tab.getD]

theorem Tab.getD_set_ne {α : Type} (t : Tab α) {k j : Nat} (v d : α) (h : k ≠ j) :
    Tab.getD (Tab.set t k v) j d = Tab.getD t j d := by
  simp [Tab.getD, Tab.get?_set_ne t v h]

/-- The later of two writes at one number stands. -/
@[simp] theorem Tab.set_set {α : Type} (t : Tab α) (k : Nat) (v w : α) : Tab.set (Tab.set t k v) k w = Tab.set t k w := by
  induction t with
  | nil => simp [Tab.set]
  | cons e r ih =>
    obtain ⟨i, x⟩ := e
    simp only [Tab.set]
    split
    · simp [Tab.set, *]
    · split
      · simp [Tab.set]
      · simp [Tab.set]

theorem Tab.get?_del {α : Type} (t : Tab α) (k j : Nat) :
    Tab.get? (Tab.del t k) j = if k = j then none else Tab.get? t j := by
  induction t with
  | nil => simp [Tab.del]
  | cons e r ih =>
    obtain ⟨i, w⟩ := e
    simp only [Tab.del, List.filter_cons] at *
    by_cases h : i = k
    · subst h
      simp only [bne_self_eq_false, Bool.false_eq_true, if_false, ih, Tab.get?_cons]
      grind
    · simp only [bne_iff_ne, ne_eq, h, not_false_eq_true, if_true, Tab.get?_cons, ih]
      grind

theorem Tab.get?_upd {α : Type} (t : Tab α) (k j : Nat) (f : α → α) :
    Tab.get? (Tab.upd t k f) j = if k = j then (Tab.get? t k).map f else Tab.get? t j := by
  unfold Tab.upd
  cases h : Tab.get? t k with
  | none => by_cases e : k = j <;> simp_all
  | some v => simp [Tab.get?_set]

/-! ### Byte memory -/

theorem Mem.read_cons (b : Nat) (v : Byte) (r : Mem) (a : Nat) :
    Mem.read ((b, v) :: r) a = if b = a then v else if a < b then 0 else Mem.read r a := by
  simp [Mem.read]

/-- Every address of a memory is at or above `n`. -/
def Mem.above (n : Nat) (m : Mem) : Prop := ∀ c ∈ m, n ≤ c.1

theorem Mem.wf_cons {b : Nat} {v : Byte} {r : Mem} :
    Mem.wf ((b, v) :: r) = true ↔ v ≠ 0 ∧ Mem.wf r = true ∧ Mem.above (b + 1) r := by
  induction r generalizing b v with
  | nil => simp [Mem.wf, Mem.above]
  | cons e r ih =>
    obtain ⟨c, w⟩ := e
    rw [Mem.wf]
    simp only [Bool.and_eq_true, decide_eq_true_eq, bne_iff_ne, ne_eq]
    constructor
    · rintro ⟨⟨h1, h2⟩, h3⟩
      refine ⟨h2, h3, ?_⟩
      intro x hx
      rcases List.mem_cons.1 hx with rfl | hx
      · exact h1
      · have := (ih.1 h3).2.2 x hx
        omega
    · rintro ⟨h1, h2, h3⟩
      exact ⟨⟨h3 (c, w) (List.mem_cons_self ..), h1⟩, h2⟩

theorem Mem.read_above {m : Mem} {a n : Nat} (h : Mem.above n m) (ha : a < n) : Mem.read m a = 0 := by
  cases m with
  | nil => rfl
  | cons e r =>
    obtain ⟨b, v⟩ := e
    have hb := h (b, v) (List.mem_cons_self ..)
    simp only at hb
    rw [Mem.read_cons, if_neg (by omega), if_pos (by omega)]

theorem Mem.write_above {m : Mem} {a n : Nat} {v : Byte} (h : Mem.above n m) (ha : n ≤ a) : Mem.above n (Mem.write m a v) := by
  induction m with
  | nil =>
    simp only [Mem.write]
    split <;> simp [Mem.above, ha]
  | cons e r ih =>
    obtain ⟨b, w⟩ := e
    have hb := h (b, w) (List.mem_cons_self ..)
    have hr : Mem.above n r := fun c hc => h c (List.mem_cons_of_mem _ hc)
    simp only [Mem.write]
    split
    · intro c hc
      rcases List.mem_cons.1 hc with rfl | hc
      · exact hb
      · exact ih hr c hc
    · split
      · split
        · exact hr
        · intro c hc
          rcases List.mem_cons.1 hc with rfl | hc
          · exact ha
          · exact hr c hc
      · split
        · exact h
        · intro c hc
          rcases List.mem_cons.1 hc with rfl | hc
          · exact ha
          · exact h c hc

/-- Writing a byte keeps the canonical form. -/
theorem Mem.wf_write {m : Mem} (a : Nat) (v : Byte) (h : Mem.wf m = true) : Mem.wf (Mem.write m a v) = true := by
  induction m with
  | nil =>
    simp only [Mem.write]
    split
    · rfl
    · simpa [Mem.wf] using ‹¬v = 0›
  | cons e r ih =>
    obtain ⟨b, w⟩ := e
    obtain ⟨h1, h2, h3⟩ := Mem.wf_cons.1 h
    simp only [Mem.write]
    split
    · exact Mem.wf_cons.2 ⟨h1, ih h2, Mem.write_above h3 (by omega)⟩
    · split
      · subst b
        split
        · exact h2
        · exact Mem.wf_cons.2 ⟨by assumption, h2, h3⟩
      · split
        · exact h
        · refine Mem.wf_cons.2 ⟨by assumption, h, ?_⟩
          intro c hc
          rcases List.mem_cons.1 hc with rfl | hc
          · show a + 1 ≤ b
            omega
          · have := h3 c hc
            omega

/-- What memory reads after a byte is written. -/
theorem Mem.read_write {m : Mem} (a b : Nat) (v : Byte) (h : Mem.wf m = true) :
    Mem.read (Mem.write m a v) b = if a = b then v else Mem.read m b := by
  induction m with
  | nil =>
    simp only [Mem.write]
    split
    · simp [Mem.read, *]
    · simp only [Mem.read_cons]
      simp [Mem.read]
  | cons e r ih =>
    obtain ⟨c, w⟩ := e
    obtain ⟨h1, h2, h3⟩ := Mem.wf_cons.1 h
    simp only [Mem.write]
    split
    · rw [Mem.read_cons, ih h2, Mem.read_cons]
      grind
    · split
      · subst c
        split
        · by_cases e : a = b
          · subst e
            rw [if_pos rfl, Mem.read_above h3 (by omega)]
            simp_all
          · rw [if_neg e, Mem.read_cons, if_neg e]
            by_cases l : b < a
            · rw [if_pos l, Mem.read_above h3 (by omega)]
            · rw [if_neg l]
        · simp only [Mem.read_cons]
          grind
      · split
        · by_cases e : a = b
          · subst e
            rw [if_pos rfl, Mem.read_cons, if_neg (by omega), if_pos (by omega)]
            simp_all
          · rw [if_neg e]
        · rw [Mem.read_cons]
          by_cases e : a = b
          · simp [e]
          · rw [if_neg e, if_neg e]
            by_cases l : b < a
            · rw [if_pos l, Mem.read_cons, if_neg (by omega), if_pos (by omega)]
            · rw [if_neg l]

/-- Writing a byte string keeps the canonical form. -/
theorem Mem.wf_writeN {m : Mem} (a : Nat) (bs : Bytes) (h : Mem.wf m = true) : Mem.wf (Mem.writeN m a bs) = true := by
  induction bs generalizing m a with
  | nil => exact h
  | cons b r ih => exact ih (a + 1) (Mem.wf_write a b h)

/-- What memory reads after a byte string is written. -/
theorem Mem.read_writeN {m : Mem} (a b : Nat) (bs : Bytes) (h : Mem.wf m = true) :
    Mem.read (Mem.writeN m a bs) b = if a ≤ b ∧ b < a + bs.length then bs.getD (b - a) 0 else Mem.read m b := by
  induction bs generalizing m a with
  | nil => simp [Mem.writeN]
  | cons x r ih =>
    rw [Mem.writeN, ih (a + 1) (Mem.wf_write a x h), Mem.read_write a b x h]
    simp only [List.length_cons]
    by_cases e : a = b
    · subst e
      simp
    · by_cases l : a + 1 ≤ b ∧ b < a + 1 + r.length
      · rw [if_pos l, if_pos (by omega)]
        obtain ⟨k, rfl⟩ : ∃ k, b = a + 1 + k := ⟨b - (a + 1), by omega⟩
        simp [show a + 1 + k - (a + 1) = k by omega, show a + 1 + k - a = k + 1 by omega]
      · rw [if_neg l, if_neg e, if_neg (by omega)]

theorem Mem.wf_filter {m : Mem} (p : Nat × Byte → Bool) (h : Mem.wf m = true) : Mem.wf (List.filter p m) = true := by
  induction m with
  | nil => rfl
  | cons e r ih =>
    obtain ⟨b, v⟩ := e
    obtain ⟨h1, h2, h3⟩ := Mem.wf_cons.1 h
    rw [List.filter_cons]
    split
    · refine Mem.wf_cons.2 ⟨h1, ih h2, ?_⟩
      intro c hc
      exact h3 c (List.mem_of_mem_filter hc)
    · exact ih h2

/-- Zeroing a range keeps the canonical form. -/
theorem Mem.wf_zero {m : Mem} (a n : Nat) (h : Mem.wf m = true) : Mem.wf (Mem.zero m a n) = true := Mem.wf_filter _ h

end Sys2Proof
end

