-- ==== Sys2Proof/Laws/Krytic.lean ====
section
/-! SUPPORT. Lemmas about Krytic commands: what a command that begins at once does. -/

namespace Sys2Proof.Machine

/-- A SEQUENCE above the window passes step 4 and moves the window (02 R49). -/
theorem seqCheck_above {r : KReq} {s : State} (h : winPos (s.session r.sess).high r.seq = .above) :
    seqCheck r s = (s.setSession r.sess ((s.session r.sess).take r.seq), true) := by
  simp [seqCheck, h]

/-- Moving a window changes no queue, no execution and no key of the headworks. -/
theorem setSession_begin (x : Sess) (v : Session) (s : State) :
    (s.setSession x v).canBegin = s.canBegin ∧ (s.setSession x v).kry.urgent = s.kry.urgent ∧
      (s.setSession x v).kry.normal = s.kry.normal ∧ (s.setSession x v).pwr = s.pwr := by
  cases x <;> exact ⟨rfl, rfl, rfl, rfl⟩

theorem taken_begin (r : KReq) (t : Time) (s : State) :
    (taken r t s).canBegin = s.canBegin ∧ (taken r t s).kry.urgent = s.kry.urgent ∧
      (taken r t s).kry.normal = s.kry.normal ∧ (taken r t s).pwr = s.pwr := by
  simp only [taken, setSession_begin, State.canBegin, State.tick, and_self]
  exact ⟨(setSession_begin _ _ _).1.trans (setSession_begin _ _ _).1, trivial⟩

/-- A packet that passes steps 4 to 11 comes to its body with its window moved. -/
theorem arrive_arrives {op : Nat} {t : Time} {r : KReq} {s : State} (body : Body) (h : arrives op t r s = true) :
    arrive body { r with opcode := op } (s.tick t) = judgePacket body { r with opcode := op } (taken r t s) := by
  simp only [arrives, Bool.and_eq_true, beq_iff_eq] at h
  have hk : (s.tick t).sessKey r.sess = s.sessKey r.sess := by cases r.sess <;> rfl
  have hw : (s.tick t).session r.sess = s.session r.sess := by cases r.sess <;> rfl
  have hs : seqCheck { r with opcode := op } (s.tick t) =
      ((s.tick t).setSession r.sess (((s.tick t).session r.sess).take r.seq), true) :=
    seqCheck_above (by simpa [hw] using h.1.2)
  have hn : (s.sessKey r.sess).isNone = false := by
    have := h.1.1
    cases hq : s.sessKey r.sess <;> simp_all
  simp [arrive, hk, hn, hs, taken]

/-- A command that begins at once runs its body on the state with its window moved. -/
theorem command_begins {op : Nat} {t : Time} {r : KReq} {s : State} (body : Body) (h : begins op t r s = true) :
    command op body t r s =
      .next (finish { r with opcode := op } (body { r with opcode := op } (taken r t s))) := by
  simp only [begins, Bool.and_eq_true, Bool.not_eq_true', List.isEmpty_iff] at h
  obtain ⟨⟨⟨⟨ha, hc⟩, hf⟩, hu⟩, hn⟩ := h
  have hq := taken_begin r t s
  have hfz : (taken r t s).frozen op = false := by
    rw [State.frozen, hq.2.2.2]
    exact hf
  have hchk : chkArrival { r with opcode := op } (taken r t s) = none := by
    simp only [arrives, Bool.and_eq_true, Option.isNone_iff_eq_none] at ha
    exact ha.2
  rw [command, arrive_arrives body ha, judgePacket, hchk]
  simp only [hq.1, hc, hfz, hq.2.1, hu, hq.2.2.1, hn]
  simp

theorem setSession_idem (x : Sess) (v : Session) (s : State) :
    (s.setSession x v).setSession x ((s.setSession x v).session x) = s.setSession x v := by
  cases x <;> simp [State.setSession, State.session]

/-- A packet of one SEQUENCE moves the window once. -/
theorem taken_single {r : KReq} (t : Time) (s : State) (h : r.seqs = []) :
    taken r t s = (s.tick t).setSession r.sess (((s.tick t).session r.sess).take r.seq) := by
  simp [taken, h, setSession_idem]

/-- One that the headworks hardware answers outside the queues runs its body (02 R57, R64). -/
theorem arriveNow_arrives {op : Nat} {t : Time} {r : KReq} {s : State} (body : Body) (h : arrives op t r s = true)
    (hq : r.seqs = []) :
    arriveNow body { r with opcode := op } (s.tick t) =
      finish { r with opcode := op } (body { r with opcode := op } (taken r t s)) := by
  simp only [arrives, Bool.and_eq_true, beq_iff_eq, Option.isNone_iff_eq_none] at h
  have hk : (s.tick t).sessKey r.sess = s.sessKey r.sess := by cases r.sess <;> rfl
  have hw : (s.tick t).session r.sess = s.session r.sess := by cases r.sess <;> rfl
  have hs : seqCheck { r with opcode := op } (s.tick t) =
      ((s.tick t).setSession r.sess (((s.tick t).session r.sess).take r.seq), true) :=
    seqCheck_above (by simpa [hw] using h.1.2)
  have hn : (s.sessKey r.sess).isNone = false := by
    have := h.1.1
    cases hq : s.sessKey r.sess <;> simp_all
  have hc := h.2
  rw [taken_single t s hq] at hc ⊢
  simp [arriveNow, hk, hn, hs, hc]

end Sys2Proof.Machine
end

