-- ==== Sys2Proof/Laws/State.lean ====
section
/-! SUPPORT. What each shared operation on the state leaves alone, field by field, and what a reply can change. -/

namespace Sys2Proof.Machine

variable (s : State)

/-! ### `State.tick` -/

@[simp] theorem State.tick_pending (t : Time) : (s.tick t).pending = s.pending := rfl
@[simp] theorem State.tick_fresh (t : Time) : (s.tick t).fresh = s.fresh := rfl
@[simp] theorem State.tick_free (t : Time) : (s.tick t).free = s.free := rfl
@[simp] theorem State.tick_out (t : Time) : (s.tick t).out = s.out := rfl
@[simp] theorem State.tick_gauges (t : Time) : (s.tick t).gauges = s.gauges := rfl
@[simp] theorem State.tick_kry (t : Time) : (s.tick t).kry = s.kry := rfl
@[simp] theorem State.tick_ports (t : Time) : (s.tick t).ports = s.ports := rfl
@[simp] theorem State.tick_rows (t : Time) : (s.tick t).rows = s.rows := rfl
@[simp] theorem State.tick_sw (t : Time) : (s.tick t).sw = s.sw := rfl
@[simp] theorem State.tick_trf (t : Time) : (s.tick t).trf = s.trf := rfl
@[simp] theorem State.tick_mesh (t : Time) : (s.tick t).mesh = s.mesh := rfl
@[simp] theorem State.tick_mem (t : Time) : (s.tick t).mem = s.mem := rfl
@[simp] theorem State.tick_cis (t : Time) : (s.tick t).cis = s.cis := rfl
@[simp] theorem State.tick_coh (t : Time) : (s.tick t).coh = s.coh := rfl
@[simp] theorem State.tick_flm (t : Time) : (s.tick t).flm = s.flm := rfl
@[simp] theorem State.tick_bsn (t : Time) : (s.tick t).bsn = s.bsn := rfl
@[simp] theorem State.tick_col (t : Time) : (s.tick t).col = s.col := rfl
@[simp] theorem State.tick_scr (t : Time) : (s.tick t).scr = s.scr := rfl
@[simp] theorem State.tick_sec (t : Time) : (s.tick t).sec = s.sec := rfl
@[simp] theorem State.tick_flt (t : Time) : (s.tick t).flt = s.flt := rfl
@[simp] theorem State.tick_pwr (t : Time) : (s.tick t).pwr = s.pwr := rfl
@[simp] theorem State.tick_boot (t : Time) : (s.tick t).boot = s.boot := rfl
@[simp] theorem State.tick_hlt (t : Time) : (s.tick t).hlt = s.hlt := rfl

/-! ### `State.emit` -/

@[simp] theorem State.emit_pending (o : Out) : (s.emit o).pending = s.pending := rfl
@[simp] theorem State.emit_now (o : Out) : (s.emit o).now = s.now := rfl
@[simp] theorem State.emit_fresh (o : Out) : (s.emit o).fresh = s.fresh := rfl
@[simp] theorem State.emit_free (o : Out) : (s.emit o).free = s.free := rfl
@[simp] theorem State.emit_gauges (o : Out) : (s.emit o).gauges = s.gauges := rfl
@[simp] theorem State.emit_kry (o : Out) : (s.emit o).kry = s.kry := rfl
@[simp] theorem State.emit_ports (o : Out) : (s.emit o).ports = s.ports := rfl
@[simp] theorem State.emit_rows (o : Out) : (s.emit o).rows = s.rows := rfl
@[simp] theorem State.emit_sw (o : Out) : (s.emit o).sw = s.sw := rfl
@[simp] theorem State.emit_trf (o : Out) : (s.emit o).trf = s.trf := rfl
@[simp] theorem State.emit_mesh (o : Out) : (s.emit o).mesh = s.mesh := rfl
@[simp] theorem State.emit_mem (o : Out) : (s.emit o).mem = s.mem := rfl
@[simp] theorem State.emit_cis (o : Out) : (s.emit o).cis = s.cis := rfl
@[simp] theorem State.emit_coh (o : Out) : (s.emit o).coh = s.coh := rfl
@[simp] theorem State.emit_flm (o : Out) : (s.emit o).flm = s.flm := rfl
@[simp] theorem State.emit_bsn (o : Out) : (s.emit o).bsn = s.bsn := rfl
@[simp] theorem State.emit_col (o : Out) : (s.emit o).col = s.col := rfl
@[simp] theorem State.emit_scr (o : Out) : (s.emit o).scr = s.scr := rfl
@[simp] theorem State.emit_sec (o : Out) : (s.emit o).sec = s.sec := rfl
@[simp] theorem State.emit_flt (o : Out) : (s.emit o).flt = s.flt := rfl
@[simp] theorem State.emit_pwr (o : Out) : (s.emit o).pwr = s.pwr := rfl
@[simp] theorem State.emit_boot (o : Out) : (s.emit o).boot = s.boot := rfl
@[simp] theorem State.emit_hlt (o : Out) : (s.emit o).hlt = s.hlt := rfl

/-! ### `State.drawn` -/

@[simp] theorem State.drawn_pending : s.drawn.pending = s.pending := rfl
@[simp] theorem State.drawn_now : s.drawn.now = s.now := rfl
@[simp] theorem State.drawn_fresh : s.drawn.fresh = s.fresh := rfl
@[simp] theorem State.drawn_out : s.drawn.out = s.out := rfl
@[simp] theorem State.drawn_gauges : s.drawn.gauges = s.gauges := rfl
@[simp] theorem State.drawn_kry : s.drawn.kry = s.kry := rfl
@[simp] theorem State.drawn_ports : s.drawn.ports = s.ports := rfl
@[simp] theorem State.drawn_rows : s.drawn.rows = s.rows := rfl
@[simp] theorem State.drawn_sw : s.drawn.sw = s.sw := rfl
@[simp] theorem State.drawn_trf : s.drawn.trf = s.trf := rfl
@[simp] theorem State.drawn_mesh : s.drawn.mesh = s.mesh := rfl
@[simp] theorem State.drawn_mem : s.drawn.mem = s.mem := rfl
@[simp] theorem State.drawn_cis : s.drawn.cis = s.cis := rfl
@[simp] theorem State.drawn_coh : s.drawn.coh = s.coh := rfl
@[simp] theorem State.drawn_flm : s.drawn.flm = s.flm := rfl
@[simp] theorem State.drawn_bsn : s.drawn.bsn = s.bsn := rfl
@[simp] theorem State.drawn_col : s.drawn.col = s.col := rfl
@[simp] theorem State.drawn_scr : s.drawn.scr = s.scr := rfl
@[simp] theorem State.drawn_sec : s.drawn.sec = s.sec := rfl
@[simp] theorem State.drawn_flt : s.drawn.flt = s.flt := rfl
@[simp] theorem State.drawn_pwr : s.drawn.pwr = s.pwr := rfl
@[simp] theorem State.drawn_boot : s.drawn.boot = s.boot := rfl
@[simp] theorem State.drawn_hlt : s.drawn.hlt = s.hlt := rfl

/-! ### `State.setPort` -/

@[simp] theorem State.setPort_pending (p : Nat) (q : Port) : (s.setPort p q).pending = s.pending := rfl
@[simp] theorem State.setPort_now (p : Nat) (q : Port) : (s.setPort p q).now = s.now := rfl
@[simp] theorem State.setPort_fresh (p : Nat) (q : Port) : (s.setPort p q).fresh = s.fresh := rfl
@[simp] theorem State.setPort_free (p : Nat) (q : Port) : (s.setPort p q).free = s.free := rfl
@[simp] theorem State.setPort_out (p : Nat) (q : Port) : (s.setPort p q).out = s.out := rfl
@[simp] theorem State.setPort_gauges (p : Nat) (q : Port) : (s.setPort p q).gauges = s.gauges := rfl
@[simp] theorem State.setPort_kry (p : Nat) (q : Port) : (s.setPort p q).kry = s.kry := rfl
@[simp] theorem State.setPort_rows (p : Nat) (q : Port) : (s.setPort p q).rows = s.rows := rfl
@[simp] theorem State.setPort_sw (p : Nat) (q : Port) : (s.setPort p q).sw = s.sw := rfl
@[simp] theorem State.setPort_trf (p : Nat) (q : Port) : (s.setPort p q).trf = s.trf := rfl
@[simp] theorem State.setPort_mesh (p : Nat) (q : Port) : (s.setPort p q).mesh = s.mesh := rfl
@[simp] theorem State.setPort_mem (p : Nat) (q : Port) : (s.setPort p q).mem = s.mem := rfl
@[simp] theorem State.setPort_cis (p : Nat) (q : Port) : (s.setPort p q).cis = s.cis := rfl
@[simp] theorem State.setPort_coh (p : Nat) (q : Port) : (s.setPort p q).coh = s.coh := rfl
@[simp] theorem State.setPort_flm (p : Nat) (q : Port) : (s.setPort p q).flm = s.flm := rfl
@[simp] theorem State.setPort_bsn (p : Nat) (q : Port) : (s.setPort p q).bsn = s.bsn := rfl
@[simp] theorem State.setPort_col (p : Nat) (q : Port) : (s.setPort p q).col = s.col := rfl
@[simp] theorem State.setPort_scr (p : Nat) (q : Port) : (s.setPort p q).scr = s.scr := rfl
@[simp] theorem State.setPort_sec (p : Nat) (q : Port) : (s.setPort p q).sec = s.sec := rfl
@[simp] theorem State.setPort_flt (p : Nat) (q : Port) : (s.setPort p q).flt = s.flt := rfl
@[simp] theorem State.setPort_pwr (p : Nat) (q : Port) : (s.setPort p q).pwr = s.pwr := rfl
@[simp] theorem State.setPort_boot (p : Nat) (q : Port) : (s.setPort p q).boot = s.boot := rfl
@[simp] theorem State.setPort_hlt (p : Nat) (q : Port) : (s.setPort p q).hlt = s.hlt := rfl

/-! ### `State.modPort` -/

@[simp] theorem State.modPort_pending (p : Nat) (g : Port → Port) : (s.modPort p g).pending = s.pending := rfl
@[simp] theorem State.modPort_now (p : Nat) (g : Port → Port) : (s.modPort p g).now = s.now := rfl
@[simp] theorem State.modPort_fresh (p : Nat) (g : Port → Port) : (s.modPort p g).fresh = s.fresh := rfl
@[simp] theorem State.modPort_free (p : Nat) (g : Port → Port) : (s.modPort p g).free = s.free := rfl
@[simp] theorem State.modPort_out (p : Nat) (g : Port → Port) : (s.modPort p g).out = s.out := rfl
@[simp] theorem State.modPort_gauges (p : Nat) (g : Port → Port) : (s.modPort p g).gauges = s.gauges := rfl
@[simp] theorem State.modPort_kry (p : Nat) (g : Port → Port) : (s.modPort p g).kry = s.kry := rfl
@[simp] theorem State.modPort_rows (p : Nat) (g : Port → Port) : (s.modPort p g).rows = s.rows := rfl
@[simp] theorem State.modPort_sw (p : Nat) (g : Port → Port) : (s.modPort p g).sw = s.sw := rfl
@[simp] theorem State.modPort_trf (p : Nat) (g : Port → Port) : (s.modPort p g).trf = s.trf := rfl
@[simp] theorem State.modPort_mesh (p : Nat) (g : Port → Port) : (s.modPort p g).mesh = s.mesh := rfl
@[simp] theorem State.modPort_mem (p : Nat) (g : Port → Port) : (s.modPort p g).mem = s.mem := rfl
@[simp] theorem State.modPort_cis (p : Nat) (g : Port → Port) : (s.modPort p g).cis = s.cis := rfl
@[simp] theorem State.modPort_coh (p : Nat) (g : Port → Port) : (s.modPort p g).coh = s.coh := rfl
@[simp] theorem State.modPort_flm (p : Nat) (g : Port → Port) : (s.modPort p g).flm = s.flm := rfl
@[simp] theorem State.modPort_bsn (p : Nat) (g : Port → Port) : (s.modPort p g).bsn = s.bsn := rfl
@[simp] theorem State.modPort_col (p : Nat) (g : Port → Port) : (s.modPort p g).col = s.col := rfl
@[simp] theorem State.modPort_scr (p : Nat) (g : Port → Port) : (s.modPort p g).scr = s.scr := rfl
@[simp] theorem State.modPort_sec (p : Nat) (g : Port → Port) : (s.modPort p g).sec = s.sec := rfl
@[simp] theorem State.modPort_flt (p : Nat) (g : Port → Port) : (s.modPort p g).flt = s.flt := rfl
@[simp] theorem State.modPort_pwr (p : Nat) (g : Port → Port) : (s.modPort p g).pwr = s.pwr := rfl
@[simp] theorem State.modPort_boot (p : Nat) (g : Port → Port) : (s.modPort p g).boot = s.boot := rfl
@[simp] theorem State.modPort_hlt (p : Nat) (g : Port → Port) : (s.modPort p g).hlt = s.hlt := rfl

/-! ### `State.setTable` -/

@[simp] theorem State.setTable_pending (k : Nat) (t : SwTable) : (s.setTable k t).pending = s.pending := rfl
@[simp] theorem State.setTable_now (k : Nat) (t : SwTable) : (s.setTable k t).now = s.now := rfl
@[simp] theorem State.setTable_fresh (k : Nat) (t : SwTable) : (s.setTable k t).fresh = s.fresh := rfl
@[simp] theorem State.setTable_free (k : Nat) (t : SwTable) : (s.setTable k t).free = s.free := rfl
@[simp] theorem State.setTable_out (k : Nat) (t : SwTable) : (s.setTable k t).out = s.out := rfl
@[simp] theorem State.setTable_gauges (k : Nat) (t : SwTable) : (s.setTable k t).gauges = s.gauges := rfl
@[simp] theorem State.setTable_kry (k : Nat) (t : SwTable) : (s.setTable k t).kry = s.kry := rfl
@[simp] theorem State.setTable_ports (k : Nat) (t : SwTable) : (s.setTable k t).ports = s.ports := rfl
@[simp] theorem State.setTable_rows (k : Nat) (t : SwTable) : (s.setTable k t).rows = s.rows := rfl
@[simp] theorem State.setTable_trf (k : Nat) (t : SwTable) : (s.setTable k t).trf = s.trf := rfl
@[simp] theorem State.setTable_mesh (k : Nat) (t : SwTable) : (s.setTable k t).mesh = s.mesh := rfl
@[simp] theorem State.setTable_mem (k : Nat) (t : SwTable) : (s.setTable k t).mem = s.mem := rfl
@[simp] theorem State.setTable_cis (k : Nat) (t : SwTable) : (s.setTable k t).cis = s.cis := rfl
@[simp] theorem State.setTable_coh (k : Nat) (t : SwTable) : (s.setTable k t).coh = s.coh := rfl
@[simp] theorem State.setTable_flm (k : Nat) (t : SwTable) : (s.setTable k t).flm = s.flm := rfl
@[simp] theorem State.setTable_bsn (k : Nat) (t : SwTable) : (s.setTable k t).bsn = s.bsn := rfl
@[simp] theorem State.setTable_col (k : Nat) (t : SwTable) : (s.setTable k t).col = s.col := rfl
@[simp] theorem State.setTable_scr (k : Nat) (t : SwTable) : (s.setTable k t).scr = s.scr := rfl
@[simp] theorem State.setTable_sec (k : Nat) (t : SwTable) : (s.setTable k t).sec = s.sec := rfl
@[simp] theorem State.setTable_flt (k : Nat) (t : SwTable) : (s.setTable k t).flt = s.flt := rfl
@[simp] theorem State.setTable_pwr (k : Nat) (t : SwTable) : (s.setTable k t).pwr = s.pwr := rfl
@[simp] theorem State.setTable_boot (k : Nat) (t : SwTable) : (s.setTable k t).boot = s.boot := rfl
@[simp] theorem State.setTable_hlt (k : Nat) (t : SwTable) : (s.setTable k t).hlt = s.hlt := rfl

/-! ### `State.notify` -/

@[simp] theorem State.notify_pending (e i : Nat) (d : Bytes) : (s.notify e i d).pending = s.pending := rfl
@[simp] theorem State.notify_now (e i : Nat) (d : Bytes) : (s.notify e i d).now = s.now := rfl
@[simp] theorem State.notify_fresh (e i : Nat) (d : Bytes) : (s.notify e i d).fresh = s.fresh := rfl
@[simp] theorem State.notify_free (e i : Nat) (d : Bytes) : (s.notify e i d).free = s.free := rfl
@[simp] theorem State.notify_out (e i : Nat) (d : Bytes) : (s.notify e i d).out = s.out := rfl
@[simp] theorem State.notify_gauges (e i : Nat) (d : Bytes) : (s.notify e i d).gauges = s.gauges := rfl
@[simp] theorem State.notify_kry (e i : Nat) (d : Bytes) : (s.notify e i d).kry = s.kry := rfl
@[simp] theorem State.notify_ports (e i : Nat) (d : Bytes) : (s.notify e i d).ports = s.ports := rfl
@[simp] theorem State.notify_rows (e i : Nat) (d : Bytes) : (s.notify e i d).rows = s.rows := rfl
@[simp] theorem State.notify_sw (e i : Nat) (d : Bytes) : (s.notify e i d).sw = s.sw := rfl
@[simp] theorem State.notify_trf (e i : Nat) (d : Bytes) : (s.notify e i d).trf = s.trf := rfl
@[simp] theorem State.notify_mesh (e i : Nat) (d : Bytes) : (s.notify e i d).mesh = s.mesh := rfl
@[simp] theorem State.notify_mem (e i : Nat) (d : Bytes) : (s.notify e i d).mem = s.mem := rfl
@[simp] theorem State.notify_cis (e i : Nat) (d : Bytes) : (s.notify e i d).cis = s.cis := rfl
@[simp] theorem State.notify_coh (e i : Nat) (d : Bytes) : (s.notify e i d).coh = s.coh := rfl
@[simp] theorem State.notify_flm (e i : Nat) (d : Bytes) : (s.notify e i d).flm = s.flm := rfl
@[simp] theorem State.notify_bsn (e i : Nat) (d : Bytes) : (s.notify e i d).bsn = s.bsn := rfl
@[simp] theorem State.notify_col (e i : Nat) (d : Bytes) : (s.notify e i d).col = s.col := rfl
@[simp] theorem State.notify_scr (e i : Nat) (d : Bytes) : (s.notify e i d).scr = s.scr := rfl
@[simp] theorem State.notify_sec (e i : Nat) (d : Bytes) : (s.notify e i d).sec = s.sec := rfl
@[simp] theorem State.notify_pwr (e i : Nat) (d : Bytes) : (s.notify e i d).pwr = s.pwr := rfl
@[simp] theorem State.notify_boot (e i : Nat) (d : Bytes) : (s.notify e i d).boot = s.boot := rfl
@[simp] theorem State.notify_hlt (e i : Nat) (d : Bytes) : (s.notify e i d).hlt = s.hlt := rfl

/-! ### `State.mark` -/

@[simp] theorem State.mark_pending (a b : Nat) : (s.mark a b).pending = s.pending := rfl
@[simp] theorem State.mark_now (a b : Nat) : (s.mark a b).now = s.now := rfl
@[simp] theorem State.mark_free (a b : Nat) : (s.mark a b).free = s.free := rfl
@[simp] theorem State.mark_out (a b : Nat) : (s.mark a b).out = s.out := rfl
@[simp] theorem State.mark_gauges (a b : Nat) : (s.mark a b).gauges = s.gauges := rfl
@[simp] theorem State.mark_kry (a b : Nat) : (s.mark a b).kry = s.kry := rfl
@[simp] theorem State.mark_ports (a b : Nat) : (s.mark a b).ports = s.ports := rfl
@[simp] theorem State.mark_rows (a b : Nat) : (s.mark a b).rows = s.rows := rfl
@[simp] theorem State.mark_sw (a b : Nat) : (s.mark a b).sw = s.sw := rfl
@[simp] theorem State.mark_trf (a b : Nat) : (s.mark a b).trf = s.trf := rfl
@[simp] theorem State.mark_mesh (a b : Nat) : (s.mark a b).mesh = s.mesh := rfl
@[simp] theorem State.mark_mem (a b : Nat) : (s.mark a b).mem = s.mem := rfl
@[simp] theorem State.mark_cis (a b : Nat) : (s.mark a b).cis = s.cis := rfl
@[simp] theorem State.mark_coh (a b : Nat) : (s.mark a b).coh = s.coh := rfl
@[simp] theorem State.mark_flm (a b : Nat) : (s.mark a b).flm = s.flm := rfl
@[simp] theorem State.mark_bsn (a b : Nat) : (s.mark a b).bsn = s.bsn := rfl
@[simp] theorem State.mark_col (a b : Nat) : (s.mark a b).col = s.col := rfl
@[simp] theorem State.mark_scr (a b : Nat) : (s.mark a b).scr = s.scr := rfl
@[simp] theorem State.mark_sec (a b : Nat) : (s.mark a b).sec = s.sec := rfl
@[simp] theorem State.mark_flt (a b : Nat) : (s.mark a b).flt = s.flt := rfl
@[simp] theorem State.mark_pwr (a b : Nat) : (s.mark a b).pwr = s.pwr := rfl
@[simp] theorem State.mark_boot (a b : Nat) : (s.mark a b).boot = s.boot := rfl
@[simp] theorem State.mark_hlt (a b : Nat) : (s.mark a b).hlt = s.hlt := rfl

/-! ### `State.faultEvent` -/

@[simp] theorem State.faultEvent_pending (b : Nat) : (s.faultEvent b).pending = s.pending := rfl
@[simp] theorem State.faultEvent_now (b : Nat) : (s.faultEvent b).now = s.now := rfl
@[simp] theorem State.faultEvent_free (b : Nat) : (s.faultEvent b).free = s.free := rfl
@[simp] theorem State.faultEvent_out (b : Nat) : (s.faultEvent b).out = s.out := rfl
@[simp] theorem State.faultEvent_gauges (b : Nat) : (s.faultEvent b).gauges = s.gauges := rfl
@[simp] theorem State.faultEvent_kry (b : Nat) : (s.faultEvent b).kry = s.kry := rfl
@[simp] theorem State.faultEvent_ports (b : Nat) : (s.faultEvent b).ports = s.ports := rfl
@[simp] theorem State.faultEvent_rows (b : Nat) : (s.faultEvent b).rows = s.rows := rfl
@[simp] theorem State.faultEvent_sw (b : Nat) : (s.faultEvent b).sw = s.sw := rfl
@[simp] theorem State.faultEvent_trf (b : Nat) : (s.faultEvent b).trf = s.trf := rfl
@[simp] theorem State.faultEvent_mesh (b : Nat) : (s.faultEvent b).mesh = s.mesh := rfl
@[simp] theorem State.faultEvent_mem (b : Nat) : (s.faultEvent b).mem = s.mem := rfl
@[simp] theorem State.faultEvent_cis (b : Nat) : (s.faultEvent b).cis = s.cis := rfl
@[simp] theorem State.faultEvent_coh (b : Nat) : (s.faultEvent b).coh = s.coh := rfl
@[simp] theorem State.faultEvent_flm (b : Nat) : (s.faultEvent b).flm = s.flm := rfl
@[simp] theorem State.faultEvent_bsn (b : Nat) : (s.faultEvent b).bsn = s.bsn := rfl
@[simp] theorem State.faultEvent_col (b : Nat) : (s.faultEvent b).col = s.col := rfl
@[simp] theorem State.faultEvent_scr (b : Nat) : (s.faultEvent b).scr = s.scr := rfl
@[simp] theorem State.faultEvent_sec (b : Nat) : (s.faultEvent b).sec = s.sec := rfl
@[simp] theorem State.faultEvent_pwr (b : Nat) : (s.faultEvent b).pwr = s.pwr := rfl
@[simp] theorem State.faultEvent_boot (b : Nat) : (s.faultEvent b).boot = s.boot := rfl
@[simp] theorem State.faultEvent_hlt (b : Nat) : (s.faultEvent b).hlt = s.hlt := rfl

/-! ### `State.portEvent` -/

@[simp] theorem State.portEvent_pending (p b : Nat) : (s.portEvent p b).pending = s.pending := rfl
@[simp] theorem State.portEvent_now (p b : Nat) : (s.portEvent p b).now = s.now := rfl
@[simp] theorem State.portEvent_free (p b : Nat) : (s.portEvent p b).free = s.free := rfl
@[simp] theorem State.portEvent_out (p b : Nat) : (s.portEvent p b).out = s.out := rfl
@[simp] theorem State.portEvent_gauges (p b : Nat) : (s.portEvent p b).gauges = s.gauges := rfl
@[simp] theorem State.portEvent_kry (p b : Nat) : (s.portEvent p b).kry = s.kry := rfl
@[simp] theorem State.portEvent_rows (p b : Nat) : (s.portEvent p b).rows = s.rows := rfl
@[simp] theorem State.portEvent_sw (p b : Nat) : (s.portEvent p b).sw = s.sw := rfl
@[simp] theorem State.portEvent_trf (p b : Nat) : (s.portEvent p b).trf = s.trf := rfl
@[simp] theorem State.portEvent_mesh (p b : Nat) : (s.portEvent p b).mesh = s.mesh := rfl
@[simp] theorem State.portEvent_mem (p b : Nat) : (s.portEvent p b).mem = s.mem := rfl
@[simp] theorem State.portEvent_cis (p b : Nat) : (s.portEvent p b).cis = s.cis := rfl
@[simp] theorem State.portEvent_coh (p b : Nat) : (s.portEvent p b).coh = s.coh := rfl
@[simp] theorem State.portEvent_flm (p b : Nat) : (s.portEvent p b).flm = s.flm := rfl
@[simp] theorem State.portEvent_bsn (p b : Nat) : (s.portEvent p b).bsn = s.bsn := rfl
@[simp] theorem State.portEvent_col (p b : Nat) : (s.portEvent p b).col = s.col := rfl
@[simp] theorem State.portEvent_scr (p b : Nat) : (s.portEvent p b).scr = s.scr := rfl
@[simp] theorem State.portEvent_sec (p b : Nat) : (s.portEvent p b).sec = s.sec := rfl
@[simp] theorem State.portEvent_flt (p b : Nat) : (s.portEvent p b).flt = s.flt := rfl
@[simp] theorem State.portEvent_pwr (p b : Nat) : (s.portEvent p b).pwr = s.pwr := rfl
@[simp] theorem State.portEvent_boot (p b : Nat) : (s.portEvent p b).boot = s.boot := rfl
@[simp] theorem State.portEvent_hlt (p b : Nat) : (s.portEvent p b).hlt = s.hlt := rfl

/-! ### `State.secEvent` -/

@[simp] theorem State.secEvent_pending (b : Nat) : (s.secEvent b).pending = s.pending := rfl
@[simp] theorem State.secEvent_now (b : Nat) : (s.secEvent b).now = s.now := rfl
@[simp] theorem State.secEvent_free (b : Nat) : (s.secEvent b).free = s.free := rfl
@[simp] theorem State.secEvent_out (b : Nat) : (s.secEvent b).out = s.out := rfl
@[simp] theorem State.secEvent_gauges (b : Nat) : (s.secEvent b).gauges = s.gauges := rfl
@[simp] theorem State.secEvent_kry (b : Nat) : (s.secEvent b).kry = s.kry := rfl
@[simp] theorem State.secEvent_ports (b : Nat) : (s.secEvent b).ports = s.ports := rfl
@[simp] theorem State.secEvent_rows (b : Nat) : (s.secEvent b).rows = s.rows := rfl
@[simp] theorem State.secEvent_sw (b : Nat) : (s.secEvent b).sw = s.sw := rfl
@[simp] theorem State.secEvent_trf (b : Nat) : (s.secEvent b).trf = s.trf := rfl
@[simp] theorem State.secEvent_mesh (b : Nat) : (s.secEvent b).mesh = s.mesh := rfl
@[simp] theorem State.secEvent_mem (b : Nat) : (s.secEvent b).mem = s.mem := rfl
@[simp] theorem State.secEvent_cis (b : Nat) : (s.secEvent b).cis = s.cis := rfl
@[simp] theorem State.secEvent_coh (b : Nat) : (s.secEvent b).coh = s.coh := rfl
@[simp] theorem State.secEvent_flm (b : Nat) : (s.secEvent b).flm = s.flm := rfl
@[simp] theorem State.secEvent_bsn (b : Nat) : (s.secEvent b).bsn = s.bsn := rfl
@[simp] theorem State.secEvent_col (b : Nat) : (s.secEvent b).col = s.col := rfl
@[simp] theorem State.secEvent_scr (b : Nat) : (s.secEvent b).scr = s.scr := rfl
@[simp] theorem State.secEvent_flt (b : Nat) : (s.secEvent b).flt = s.flt := rfl
@[simp] theorem State.secEvent_pwr (b : Nat) : (s.secEvent b).pwr = s.pwr := rfl
@[simp] theorem State.secEvent_boot (b : Nat) : (s.secEvent b).boot = s.boot := rfl
@[simp] theorem State.secEvent_hlt (b : Nat) : (s.secEvent b).hlt = s.hlt := rfl

/-! ### `State.inflightAdd` -/

@[simp] theorem State.inflightAdd_pending (k v : Nat) : (s.inflightAdd k v).pending = s.pending := rfl
@[simp] theorem State.inflightAdd_now (k v : Nat) : (s.inflightAdd k v).now = s.now := rfl
@[simp] theorem State.inflightAdd_fresh (k v : Nat) : (s.inflightAdd k v).fresh = s.fresh := rfl
@[simp] theorem State.inflightAdd_free (k v : Nat) : (s.inflightAdd k v).free = s.free := rfl
@[simp] theorem State.inflightAdd_out (k v : Nat) : (s.inflightAdd k v).out = s.out := rfl
@[simp] theorem State.inflightAdd_gauges (k v : Nat) : (s.inflightAdd k v).gauges = s.gauges := rfl
@[simp] theorem State.inflightAdd_kry (k v : Nat) : (s.inflightAdd k v).kry = s.kry := rfl
@[simp] theorem State.inflightAdd_ports (k v : Nat) : (s.inflightAdd k v).ports = s.ports := rfl
@[simp] theorem State.inflightAdd_rows (k v : Nat) : (s.inflightAdd k v).rows = s.rows := rfl
@[simp] theorem State.inflightAdd_trf (k v : Nat) : (s.inflightAdd k v).trf = s.trf := rfl
@[simp] theorem State.inflightAdd_mesh (k v : Nat) : (s.inflightAdd k v).mesh = s.mesh := rfl
@[simp] theorem State.inflightAdd_mem (k v : Nat) : (s.inflightAdd k v).mem = s.mem := rfl
@[simp] theorem State.inflightAdd_cis (k v : Nat) : (s.inflightAdd k v).cis = s.cis := rfl
@[simp] theorem State.inflightAdd_coh (k v : Nat) : (s.inflightAdd k v).coh = s.coh := rfl
@[simp] theorem State.inflightAdd_flm (k v : Nat) : (s.inflightAdd k v).flm = s.flm := rfl
@[simp] theorem State.inflightAdd_bsn (k v : Nat) : (s.inflightAdd k v).bsn = s.bsn := rfl
@[simp] theorem State.inflightAdd_col (k v : Nat) : (s.inflightAdd k v).col = s.col := rfl
@[simp] theorem State.inflightAdd_scr (k v : Nat) : (s.inflightAdd k v).scr = s.scr := rfl
@[simp] theorem State.inflightAdd_sec (k v : Nat) : (s.inflightAdd k v).sec = s.sec := rfl
@[simp] theorem State.inflightAdd_flt (k v : Nat) : (s.inflightAdd k v).flt = s.flt := rfl
@[simp] theorem State.inflightAdd_pwr (k v : Nat) : (s.inflightAdd k v).pwr = s.pwr := rfl
@[simp] theorem State.inflightAdd_boot (k v : Nat) : (s.inflightAdd k v).boot = s.boot := rfl
@[simp] theorem State.inflightAdd_hlt (k v : Nat) : (s.inflightAdd k v).hlt = s.hlt := rfl

/-! ### `State.inflightSub` -/

@[simp] theorem State.inflightSub_pending (k v : Nat) : (s.inflightSub k v).pending = s.pending := rfl
@[simp] theorem State.inflightSub_now (k v : Nat) : (s.inflightSub k v).now = s.now := rfl
@[simp] theorem State.inflightSub_fresh (k v : Nat) : (s.inflightSub k v).fresh = s.fresh := rfl
@[simp] theorem State.inflightSub_free (k v : Nat) : (s.inflightSub k v).free = s.free := rfl
@[simp] theorem State.inflightSub_out (k v : Nat) : (s.inflightSub k v).out = s.out := rfl
@[simp] theorem State.inflightSub_gauges (k v : Nat) : (s.inflightSub k v).gauges = s.gauges := rfl
@[simp] theorem State.inflightSub_kry (k v : Nat) : (s.inflightSub k v).kry = s.kry := rfl
@[simp] theorem State.inflightSub_ports (k v : Nat) : (s.inflightSub k v).ports = s.ports := rfl
@[simp] theorem State.inflightSub_rows (k v : Nat) : (s.inflightSub k v).rows = s.rows := rfl
@[simp] theorem State.inflightSub_trf (k v : Nat) : (s.inflightSub k v).trf = s.trf := rfl
@[simp] theorem State.inflightSub_mesh (k v : Nat) : (s.inflightSub k v).mesh = s.mesh := rfl
@[simp] theorem State.inflightSub_mem (k v : Nat) : (s.inflightSub k v).mem = s.mem := rfl
@[simp] theorem State.inflightSub_cis (k v : Nat) : (s.inflightSub k v).cis = s.cis := rfl
@[simp] theorem State.inflightSub_coh (k v : Nat) : (s.inflightSub k v).coh = s.coh := rfl
@[simp] theorem State.inflightSub_flm (k v : Nat) : (s.inflightSub k v).flm = s.flm := rfl
@[simp] theorem State.inflightSub_bsn (k v : Nat) : (s.inflightSub k v).bsn = s.bsn := rfl
@[simp] theorem State.inflightSub_col (k v : Nat) : (s.inflightSub k v).col = s.col := rfl
@[simp] theorem State.inflightSub_scr (k v : Nat) : (s.inflightSub k v).scr = s.scr := rfl
@[simp] theorem State.inflightSub_sec (k v : Nat) : (s.inflightSub k v).sec = s.sec := rfl
@[simp] theorem State.inflightSub_flt (k v : Nat) : (s.inflightSub k v).flt = s.flt := rfl
@[simp] theorem State.inflightSub_pwr (k v : Nat) : (s.inflightSub k v).pwr = s.pwr := rfl
@[simp] theorem State.inflightSub_boot (k v : Nat) : (s.inflightSub k v).boot = s.boot := rfl
@[simp] theorem State.inflightSub_hlt (k v : Nat) : (s.inflightSub k v).hlt = s.hlt := rfl

@[simp] theorem State.tick_now (t : Time) : (s.tick t).now = max s.now t := rfl
@[simp] theorem State.emit_out (o : Out) : (s.emit o).out = s.out ++ [o] := rfl
@[simp] theorem State.drawn_free : s.drawn.free = s.free + 1 := rfl
@[simp] theorem State.setPort_ports (p : Nat) (q : Port) : (s.setPort p q).ports = Tab.set s.ports p q := rfl

/-! ### Gauges, the ledger, sessions and replies: everything each can change -/

theorem State.count_eq (k : GaugeKey) (n : Nat) : ∃ g, s.count k n = { s with gauges := g } := ⟨_, rfl⟩

theorem ledgerDiscard_eq : ∃ h g, ledgerDiscard s = { s with hlt := h, gauges := g } := by
  obtain ⟨g, hg⟩ := State.count_eq
    { s with hlt := { s.hlt with lostNext := s.hlt.lostNext + 1, dropped := s.hlt.dropped + 1 } } (gk 0x0D 0 2) 1
  exact ⟨_, g, hg⟩

/-- A ledger event changes the ledger's buffer and its gauges, nothing else (17 R518). -/
theorem State.ledger_eq (type source : Nat) (body : Bytes) :
    ∃ h g, s.ledger type source body = { s with hlt := h, gauges := g } := by
  unfold State.ledger
  simp only
  repeat' split
  all_goals exact ⟨_, _, rfl⟩

/-- A session is kept with the headworks; no other field changes. -/
theorem State.setSession_eq (x : Sess) (v : Session) : ∃ k, s.setSession x v = { s with kry := k } := by
  cases x <;> exact ⟨_, rfl⟩

/-- `t` differs from `s` in nothing but what a reply can change: what has left, gauges, SEC_EVENT, a control port with its
packet numbers and counters, and the instants of event bits. -/
def ReplyStep (s t : State) : Prop :=
  ∃ o g c f p, t = { s with out := o, gauges := g, sec := c, fresh := f, ports := p }

variable {s}

theorem ReplyStep.refl : ReplyStep s s := ⟨_, _, _, _, _, rfl⟩

theorem ReplyStep.trans {t u : State} (h : ReplyStep s t) (k : ReplyStep t u) : ReplyStep s u := by
  obtain ⟨_, _, _, _, _, rfl⟩ := h
  obtain ⟨_, _, _, _, _, rfl⟩ := k
  exact ⟨_, _, _, _, _, rfl⟩

theorem ReplyStep.count {t : State} (h : ReplyStep s t) (k : GaugeKey) (n : Nat) : ReplyStep s (t.count k n) := by
  obtain ⟨g, hg⟩ := State.count_eq t k n
  exact h.trans (hg ▸ ⟨_, g, _, _, _, rfl⟩)

theorem ReplyStep.emit {t : State} (h : ReplyStep s t) (o : Out) : ReplyStep s (t.emit o) := h.trans ⟨_, _, _, _, _, rfl⟩

theorem ReplyStep.modPort {t : State} (h : ReplyStep s t) (p : Nat) (f : Port → Port) : ReplyStep s (t.modPort p f) :=
  h.trans ⟨_, _, _, _, _, rfl⟩

theorem ReplyStep.portEvent {t : State} (h : ReplyStep s t) (p b : Nat) : ReplyStep s (t.portEvent p b) :=
  h.trans ⟨_, _, _, _, _, rfl⟩

theorem ReplyStep.secEvent {t : State} (h : ReplyStep s t) (b : Nat) : ReplyStep s (t.secEvent b) := h.trans ⟨_, _, _, _, _, rfl⟩

/-- A packet number taken changes its port alone (03 R104). -/
theorem ReplyStep.takePn {t : State} (h : ReplyStep s t) (p : Nat) : ReplyStep s (t.takePn p) := by
  unfold State.takePn
  split
  · simp only
    split <;> split <;>
      first
      | exact ((h.modPort p _).portEvent p 7).portEvent p 8
      | exact (h.modPort p _).portEvent p 7
      | exact (h.modPort p _).portEvent p 8
      | exact h.modPort p _
  · exact h

theorem ReplyStep.controlSend {t : State} (h : ReplyStep s t) (p n : Nat) : ReplyStep s (t.controlSend p n).1 := by
  unfold State.controlSend
  split
  · exact h.count (gk 0 0 37 p) 1
  · exact ((h.takePn p).count (gk 0 0 2 p) 1).count (gk 0 0 3 p) n

theorem ReplyStep.fold {α β : Type} (f : State × β → α → State × β) (hf : ∀ x a, ReplyStep x.1 (f x a).1) (l : List α)
    (x : State × β) (h : ReplyStep s x.1) : ReplyStep s (l.foldl f x).1 := by
  induction l generalizing x with
  | nil => exact h
  | cons a l ih => exact ih _ (h.trans (hf x a))

theorem ReplyStep.controlReply (rp : Reply) : ReplyStep s (s.controlReply rp) := by
  have h := ReplyStep.fold (s := s) (fun (a : State × List Bool) (f : Bytes) =>
    ((a.1.controlSend rp.port (udFrameLen rp.net (48 + f.length))).1,
      a.2 ++ [(a.1.controlSend rp.port (udFrameLen rp.net (48 + f.length))).2]))
    (fun x f => ReplyStep.refl.controlSend _ _) rp.frags (s, []) ReplyStep.refl
  unfold State.controlReply
  simp only
  split
  · exact h.emit _
  · split
    · exact h.emit _
    · exact h

/-- A reply leaves, or is lost; a confidential one that may not leave is counted and flagged (02 R39, 03 R104, 13 R435). -/
theorem State.sendReply_step (rp : Reply) : ReplyStep s (s.sendReply rp) := by
  unfold State.sendReply
  split
  · split
    · exact (ReplyStep.refl.count _ _).secEvent 5
    · split
      · exact ReplyStep.controlReply rp
      · exact ReplyStep.refl.emit _
  · exact ReplyStep.refl

/-- Answering a request changes the session's cache and what a reply changes, nothing else (02 R39, R50). -/
theorem State.answer_step (r : KReq) (key : Option Key) (status : Nat) (frags : List Bytes) :
    ∃ k, ReplyStep { s with kry := k } (s.answer r key status frags) := by
  unfold State.answer State.cacheReply
  simp only
  split
  · obtain ⟨k, hk⟩ := State.setSession_eq s r.sess ((s.session r.sess).put (r.seq :: r.seqs) [mkReply r key status frags])
    rw [hk]
    exact ⟨k, State.sendReply_step _⟩
  · exact ⟨s.kry, State.sendReply_step _⟩

end Sys2Proof.Machine
end

