-- ==== Sys2Proof/WellFormed.lean ====
section
/-! DEFINITION. Which commands are well formed: every field within the width its table of the spec gives it. The machine gives every
command a meaning, well formed or not; this says which of them a sender can form. -/

namespace Sys2Proof

def Ip.wf (a : Ip) : Bool := (a.af == 0 && a.val == 0) || (a.af == 4 && decide (a.val < 2 ^ 32)) || (a.af == 6 && decide (a.val < 2 ^ 128))

/-- 00 R6, IEEE 802.1Q. -/
def Vlan.wf (v : Vlan) : Bool := decide (v.vid < 4096) && decide (v.pcp < 8) && decide (v.dei < 2)

def Net.wf (n : Net) : Bool :=
  n.srcIp.wf && n.dstIp.wf && decide (n.srcMac < 2 ^ 48) && decide (n.dstMac < 2 ^ 48) && n.vlan.all Vlan.wf && decide (n.srcQp < 2 ^ 24)

def Sess.wf (x : Sess) : Bool :=
  match x with
  | .levee l => decide (1 ≤ l) && decide (l < 1024)
  | _ => true

/-- 02 Tables KCP-1 and KCP-2: header fields, at least one fragment, PLEN a multiple of 8 up to 4,048. -/
def KReq.wf (r : KReq) : Bool :=
  decide (r.port < 516) && r.net.wf && decide (r.cls < 8) && r.sess.wf && decide (r.version < 256) && decide (r.opcode < 65536) &&
    decide (r.levee < 65536) && decide (r.term < 2 ^ 32) && decide (r.seq < 2 ^ 32) && decide (r.tag < 2 ^ 32) && r.frags != [] &&
    r.frags.all (fun p => p.length % 8 == 0 && decide (p.length ≤ 4048)) && r.seqs.all (fun q => decide (q < 2 ^ 32)) &&
    r.hdr.length == 32 && r.auth.length == 16

def IpHdr.wf (h : IpHdr) : Bool :=
  h.src.wf && h.dst.wf && decide (h.proto < 256) && decide (h.dscp < 64) && decide (h.ttl < 256) && decide (h.flow < 2 ^ 20) &&
    decide (h.sport < 65536) && decide (h.dport < 65536) && decide (h.tcpFlags < 256)

def Bth.wf (b : Bth) : Bool :=
  decide (b.op < 256) && decide (b.dqp < 2 ^ 24) && decide (b.sqp < 2 ^ 24) && decide (b.qkey < 2 ^ 32) && decide (b.psn < 2 ^ 24)

def SecTag.wf (t : SecTag) : Bool := decide (t.sci < 2 ^ 64) && decide (t.an < 4) && decide (t.pn < 2 ^ 64)

/-- 03 R83, R87: a frame on a port of the device; the device discards one that is too short or too long. -/
def Frame.wf (f : Frame) : Bool :=
  decide (f.port < 516) && decide (f.len < 65536) && decide (f.dmac < 2 ^ 48) && decide (f.smac < 2 ^ 48) &&
    f.vlan.all Vlan.wf && decide (f.etype < 65536) && f.ip.all IpHdr.wf && f.bth.all Bth.wf && f.sec.all SecTag.wf &&
    decide (f.payload.length ≤ f.len)

/-- 04 R117. -/
def IntFrame.wf (f : IntFrame) : Bool :=
  decide (f.port < 512) && f.tree.all (fun n => decide (n < 16384)) && decide (f.cls < 8) && decide (f.levee < 1024) && f.frame.wf

/-- 06 R192, 08 R251: a vendor packet with at least a header of `n` bytes; its frame is at most 9,216 bytes long (03 R87). -/
def Packet.wf (n : Nat) (p : Packet) : Bool :=
  decide (p.port < 512) && decide (p.die < 2) && p.net.wf && decide (p.cls < 8) && decide (p.levee < 1024) && decide (p.ver < 2) &&
    decide (n ≤ p.body.length) && decide (p.body.length ≤ 9216)

/-- 06 R208. -/
def RdmaReq.wf (r : RdmaReq) : Bool :=
  decide (r.port < 512) && decide (r.die < 2) && r.net.wf && decide (r.cls < 8) && decide (r.levee < 1024) && decide (r.ver < 2) &&
    decide (r.qpn < 2 ^ 24) && decide (r.psn < 2 ^ 24) && decide (r.va < 2 ^ 64) && decide (r.rkey < 2 ^ 32) && decide (r.length < 2 ^ 32)

/-- 08 Tables COH-3 and COH-4: a coherence message of one TYPE and its payload of `n` bytes. -/
def Packet.cohWf (type n : Nat) (p : Packet) : Bool :=
  p.wf (32 + n) && (p.body.map BitVec.toNat).head? == some type && p.body.length == 32 + n

/-- 10 Table FLM-3. -/
def Post.wf (p : Post) : Bool :=
  decide (p.queue < 4096) && decide (p.levee < 1024) && decide (p.port < 512) && p.net.wf && decide (p.cls < 8) && decide (p.ver < 2)

/-- 17 Table HLT-1. -/
def LedgerEv.wf (e : LedgerEv) : Bool := decide (e.type < 65536) && decide (e.source < 2 ^ 32) && decide (e.body.length ≤ 80)

/-- 15 R478, R486. -/
def Sample.wf (p : Sample) : Bool := decide (p.mv < 65536) && decide (p.watts < 65536) && decide (p.tmax < 256)

def PowerOnFacts.wf (f : PowerOnFacts) : Bool :=
  decide (f.mv < 65536) && decide (f.pufCorr < 4096) && f.failedBasins.all (fun b => decide (b < 256)) &&
    f.failedHalves.all (fun h => decide (h < 32)) && f.failedChannels.all (fun c => decide (c < 512)) &&
    f.failedLanes.all fun l => decide (l < 512)

/-- The command is well formed. -/
def Instr.wf (i : Instr) : Bool :=
  match i with
  | .deviceInfo _ r | .readCsr _ r | .writeCsr _ r | .writeCsrMasked _ r | .echo _ r | .leaseAcquire _ r | .leaseRenew _ r
    | .leaseRelease _ r | .leveeAdmit _ r | .leveeRetire _ r | .leveeKeySet _ r | .fenceSet _ r | .fenceClear _ r
    | .lockLoad _ r | .lockAdmit _ r | .portConfig _ r | .portState _ r | .portGauges _ r | .macsecSaSet _ r | .pfcSet _ r
    | .tableWrite _ r | .tableFlip _ r | .tableStatus _ r | .mcastTreeSet _ r | .mirrorSet _ r | .meterSet _ r | .shaperSet _ r
    | .schedSet _ r | .bufferSet _ r | .precolourSet _ r | .allotCreate _ r | .allotRevoke _ r | .allotQuery _ r
    | .waterRightSet _ r | .trayAttach _ r | .trayDetach _ r | .tierHint _ r | .regionCreate _ r | .regionOpen _ r
    | .regionClose _ r | .regionPublish _ r | .regionQuery _ r | .domainCreate _ r | .agentAdd _ r | .agentDead _ r
    | .domainModeSet _ r | .domainQuery _ r | .flumeQueueCreate _ r | .flumeQueueDestroy _ r | .turnAlloc _ r | .turnSet _ r
    | .xcheckSet _ r | .basinState _ r | .groupCreate _ r | .groupDestroy _ r | .decodeTableLoad _ r | .expertMapSet _ r
    | .residualReset _ r | .screenWrite _ r | .screenDelete _ r | .screenSearch _ r | .screenQuotaSet _ r | .attestReport _ r
    | .leveeKeyExchange _ r | .fwStage _ r | .fwActivate _ r | .selftest _ r | .calibrate _ r | .gaugesRead _ r
    | .ledgerRead _ r | .marginRead _ r | .recArm _ r | .recRead _ r | .recReplay _ r
    | .rdmaWrite _ r | .rdmaRead _ r | .rdmaAtomic _ r | .cisQuotaWrite _ r | .responderContextWrite _ r => r.wf
  | .fragmentReassemblyExpiry _ sess _ => sess.wf
  | .commandWaitExpiry _ | .commandBegin _ | .leaseExpiry _ | .mcReset _ _ | .heartbeat _ | .watchdogExpiry _
    | .lockstepMismatch _ | .controllerReady _ | .chainTileFetch _ _ | .turnWaitSatisfied _ _ | .turnWaitTimeout _ _
    | .writeAcknowledged _ _ | .chainCompletion _ _ | .screenCommit _ | .fenceRetry _ | .fenceNotice _ | .fenceNoticeRepeat _
    | .halt _ _ | .shardReadComplete _ _ _ _ | .partnerLost _ | .admission _ | .clockRestore _ | .dipWindowClose _
    | .sustainedDip _ | .imageWriteComplete _ | .trialEnd _ | .trialFailure _ _ | .settingsWriteComplete _ | .ledgerFlashWrite _
    | .marginRecord _ _ _ | .testComplete _ _ _ _ _ | .drainWaitExpiry _ _ _ | .replayComplete _ _ _ _ _ | .gaugeSnapshot _
    | .tapOperation _ _ => true
  | .frameReceive _ f | .internalFrameEnqueue _ f | .sprayCellReceive _ f | .powerOn _ f => f.wf
  | .reorderTimeout _ _ port cls | .reorderContextIdle _ _ port cls | .pfcXon _ port cls | .pfcRepeat _ port cls
    | .pauseExpiry _ port cls | .pfcWatchdogTrip _ port cls | .stuckClassRecovery _ port cls => decide (port < 516) && decide (cls < 8)
  | .divisionBoxCopy _ pipe => decide (pipe < 16)
  | .schedulerRound _ port | .frameTransmitEnd _ port | .pfcFrameReceive _ port _ _ | .linkNegotiated _ port
    | .trainingComplete _ port | .trainTimeout _ port | .trainingRetry _ port | .linkUp _ port | .lossOfSignal _ port
    | .alignLost _ port | .remoteFault _ port | .fecFail _ port _ | .fecDegrade _ port _ | .dampingElapsed _ port
    | .dampingReset _ port | .portDownDiscard _ port | .pinMemberFailover _ port | .pinMemberRestore _ port
    | .portFenceDelay _ port | .beacon _ port | .alignmentAcquired _ port | .remoteFaultSignalChange _ port _ => decide (port < 516)
  | .flipEffect _ table | .versionDrained _ table | .retireLimitExpiry _ table | .versionCopyComplete _ table => (decide (1 ≤ table) && decide (table ≤ 10))
  | .culvertFlitReplay _ dir bundle | .bundleRetirement _ dir bundle _ => decide (dir < 2) && decide (bundle < 16)
  | .culvertFailure _ dir => decide (dir < 2)
  | .waterRightRelease _ die levee host => decide (die < 2) && decide (levee < 1024) && host.wf
  | .queueContextReclaim _ die levee host queue => decide (die < 2) && decide (levee < 1024) && host.wf && decide (queue < 65536)
  | .trayResponse _ tray _ _ | .trayOperationTimeout _ tray _ | .trayFailed _ tray => decide (tray < 256)
  | .revokeDrainEnd _ allot | .revokeTimeout _ allot | .allotmentReleased _ allot | .trayRangeZeroing _ allot
    | .fillComplete _ allot _ _ | .writeBackDeadline _ allot _ | .writeBackComplete _ allot _ | .coldCompression _ allot _
    | .pageExpansion _ allot _ | .prefetchComplete _ allot _ _ | .hbmUncorrectable _ allot _ => decide (allot < 65536)
  | .pRead _ p | .pWrite _ p | .pAtomic _ p | .pCopy _ p => p.wf 40
  | .pPhase _ src p | .pPhaseAck _ src p | .pOwnerQuery _ src p | .pOwnerReply _ src p => decide (src < 128) && p.wf 32
  | .phaseDeadlineExpiry _ die _ | .snoopRetransmit _ die _ | .holdWindowExpiry _ die _ | .memoryReadComplete _ die _
    | .peerSilent _ die _ | .fencedRequestCompletion _ die | .droopStretch _ die | .droopInterval _ die _
    | .clockStretchEnd _ die => decide (die < 2)
  | .quotaLowered _ die levee => decide (die < 2) && decide (levee < 1024)
  | .publishCommit _ region => decide (region < 8192)
  | .cRdShared _ p => p.cohWf 0x01 0
  | .cRdOwn _ p => p.cohWf 0x02 0
  | .cUpgrade _ p => p.cohWf 0x03 0
  | .cAtomic _ p => p.cohWf 0x04 16
  | .cWriteFull _ p => p.cohWf 0x05 256
  | .cEvictClean _ p => p.cohWf 0x06 0
  | .cWb _ p => p.cohWf 0x10 256
  | .cSnpData _ p => p.cohWf 0x11 256
  | .cSnpAck _ p => p.cohWf 0x18 0
  | .allReduce _ p | .reduceScatter _ p | .allGather _ p | .broadcast _ p | .dispatch _ p | .combine _ p
    | .barrier _ p | .resend _ p | .upstreamDone _ p | .upstreamResult _ p | .upstreamCredit _ p => p.wf
  | .flumePost _ p | .dipStart _ p | .dipRecovery _ p | .lowInput _ p | .supplyReset _ p | .resetRelease _ p
    | .throttleRaise _ p | .throttleLower _ p | .level5 _ p | .level5Exit _ p | .thermalReset _ p => p.wf
  | .descriptorBegin _ basin | .load _ basin | .store _ basin | .reduce _ basin | .axpy _ basin | .gemm _ basin | .gemv _ basin
    | .topk _ basin | .gather _ basin | .scatter _ basin | .filter _ basin | .scan _ basin | .quantise _ basin
    | .dequantise _ basin | .compress _ basin | .expand _ basin | .screenQuery _ basin | .turnWait _ basin | .turnSignal _ basin
    | .skip _ basin | .windowReplay _ basin | .xcheckCountdown _ basin | .xcheckComplete _ basin _ _ | .xcheckAbandoned _ basin
    | .basinClockGate _ basin | .basinPowerGate _ basin | .basinWake _ basin | .holdOut _ basin _ _ | .holdOutEnd _ basin _
    | .capture _ basin _ => decide (basin < 256)
  | .posterContextReclaim _ queue poster => decide (queue < 4096) && poster.wf
  | .slotMove _ queue _ | .slotCopyComplete _ queue _ => decide (queue < 4096)
  | .blockComplete _ group _ _ | .stallCredit _ group _ | .operationComplete _ group _ => decide (group < 1024)
  | .memberRemoval _ group mem | .memberSilent _ group mem => decide (group < 1024) && decide (mem < 512)
  | .tenantSearch _ bank | .desiltPass _ bank _ _ _ | .bankClockGate _ bank | .bankWake _ bank | .bankThrottleChange _ bank _ => decide (bank < 16)
  | .ledgerEvent _ e => e.wf
  | .formerKeyExpiry _ levee => decide (levee < 1024)

end Sys2Proof
end

