-- ==== Sys2Proof/Tests/Slice0.lean ====
section
/-! SUPPORT. Small tests of single steps and the witnesses of the statements' hypotheses. -/

open Sys2Proof Sys2Proof.Machine

/-! ### Small states and packets -/

namespace Sys2Proof.Tests

set_option Elab.async false

/-- A held lease of TERM 1 under a zero key, control port 0 up. -/
def w0 : State :=
  { State.reset with
    kry := { State.reset.kry with lease := { st := .held, term := 1, ttlMs := 1000, expiry := ms 1000, key := some 0 } }
    boot := { State.reset.boot with termCtr := 1 }
    ports := [(0, { st := .up, mode := 1 }), (1, { st := .up, mode := 1 }), (512, { st := .up, mode := 1 })] }

/-- A packet of that lease on control port 0 with parameters `p`. -/
def rq (p : Bytes) : KReq :=
  { port := 512, net := default, cls := 0, sess := .lease, version := 1, urgent := false, more := false, opcode := 0, levee := 0,
    term := 1, seq := 1, tag := 0, frags := [p], seqs := [], hdr := [], auth := [] }

/-- Bytes from numbers. -/
def bs (l : List Nat) : Bytes := l.map (BitVec.ofNat 8)

/-- A table of one entry. -/
def one {α : Type} (k : Nat) (v : α) : Tab α := [(k, v)]

/-! ### 02: the headworks -/

theorem test_wit_reading :
    begins 0x0101 0 (rq []) w0 ∧ plen (rq []) = 0 ∧
    begins 0x0102 0 (rq (bs [0, 0, 0, 0x80, 0, 1, 0, 0])) w0 ∧ be (par (rq (bs [0, 0, 0, 0x80, 0, 1, 0, 0]))) 4 2 = 1 ∧
    begins 0x0105 0 (rq (zeros 64)) w0 ∧ plen (rq (zeros 64)) = 64 ∧
    begins 0x0202 0 (rq (zeros 8)) w0 ∧ w0.portExists 0 ∧
    begins 0x0203 0 (rq (bs [0, 0, 0, 0, 0, 0, 0, 0, 0, 1] ++ zeros 14)) w0 ∧
    begins 0x0303 0 (rq (bs [10] ++ zeros 7)) w0 := by decide

theorem test_wit_replies :
    w0.sessKey (rq []).sess = some 0 ∧ w0.portUp (rq []).port = true ∧ w0.halted = false ∧ w0.confidential 0 = false ∧
    State.reset.portUp (rq []).port = false ∧ ({ State.reset with kry := w0.kry } : State).sessKey .lease = some 0 := by decide

/-- WRITE_CSR of LIMIT_W, one register; the masked write of SEC_DBG. -/
theorem test_wit_registers :
    begins 0x0103 0 (rq (bs [0x0A, 0, 0, 4, 0, 1, 0, 0, 0, 0, 3, 0x20, 0, 0, 0, 0])) w0 ∧
    begins 0x0104 0 (rq (bs [9, 0, 0, 4, 0, 0, 0, 0, 0, 0, 0, 2, 0, 0, 0, 2])) w0 ∧
    brokenQpc [(0x0A000004, 0xFFFFFFFF, 800)] (writeReg w0 (0x0A000004, 0xFFFFFFFF, 800)) = false ∧
    brokenQpc [(0x09000004, 2, 2)] (writeReg w0 (0x09000004, 2, 2)) = false ∧ w0.confActive = false := by decide

/-- 00 R10: a bit outside the mask keeps its value. -/
theorem test_masked_write : (writeReg w0 (0x09000004, 2, 0xF)).sec.dbg = 2 ∧ readReg (writeReg w0 (0x0A000004, 0xFFFFFFFF, 800)) 0x0A000004 = 800 := by
  decide

/-- `w0` in the cycle in which event 1 of PWR_EVENT was set, events 0 and 1 standing. -/
def wFresh : State := { w0 with fresh := [(0, 0x0A000010, 1)], pwr := { w0.pwr with event := 3 } }

/-- 00 R12: at one instant a set beats a clear. -/
theorem test_w1c : (writeReg wFresh (0x0A000010, 0xFFFFFFFF, 3)).pwr.event = 2 ∧
    (writeReg { wFresh with now := 1 } (0x0A000010, 0xFFFFFFFF, 3)).pwr.event = 0 := by decide

theorem test_wit_stale_acquire :
    (rq (zeros 8)).levee = 0 ∧ be (par (rq (zeros 8))) 0 4 ≤ w0.boot.termCtr ∧ ∃ v, exec (.leaseAcquire 0 (rq (zeros 8))) w0 = .next v :=
  ⟨by decide, by decide, _, rfl⟩

/-- The premises of an accepted LEASE_ACQUIRE that no opaque function decides. -/
theorem test_wit_acquire :
    w0.boot.mode ≠ .noIdentity ∧ (lastSecond w0 (Tab.getD w0.kry.acquires 512 [])).length < 64 ∧
    w0.boot.termCtr < be (bs [0, 0, 0, 2, 0, 0, 0, 20]) 0 4 ∧ be (bs [0, 0, 0, 2, 0, 0, 0, 20]) 4 4 = 20 ∧ w0.halted = false := by decide

theorem test_wit_lease :
    arrives 0x0111 0 (rq []) w0 ∧ arrives 0x0112 0 (rq []) w0 ∧ w0.kry.lease.expiry ≤ max w0.now (ms 1000) ∧ w0.flt.lock ≠ .armed ∧
    max w0.now (ms 999) < w0.kry.lease.expiry := by decide

/-- 02 R57: a renewal moves the expiry TTL_MS from its instant. -/
theorem test_renew : (match exec (.leaseRenew (ms 5) (rq [])) w0 with | .next v => v.kry.lease.expiry | _ => 0) = ms 1005 := by decide

theorem test_wit_controller :
    w0.boot.mode = .normal ∧ w0.kry.executing = none ∧ w0.kry.ready = true ∧ w0.boot.a.st = .active ∧ w0.boot.slot = 0 ∧ w0.kry.owed = [] ∧
    (0 : Nat) + ms 250 ≤ max w0.now (ms 250) ∧ max w0.now (ms 250 - 1) < 0 + ms 250 := by decide

/-- A waiting ECHO. -/
def wq : Waiting := { req := { rq (zeros 8) with opcode := 0x0105 }, key := some 0, arrived := 0 }

def wWait : State := { w0 with kry := { w0.kry with normal := [wq] } }

theorem test_wit_waiting :
    wWait.canBegin = true ∧ nextWaiting wWait = some wq ∧ wq.key = wWait.sessKey .lease ∧ chkBegin wq.req (unqueue wq wWait) = none ∧
    wWait.kry.urgent = [] ∧ wq.arrived + ms 100 ≤ max wWait.now (ms 100) ∧
    ({ w0 with kry := { w0.kry with executing := some ⟨rq [], none, .screen⟩ } } : State).kry.executing.isSome = true := by decide

def wReasm : State := w0.setSession .lease { reasm := [{ tag := 7, opcode := 0x0105, count := 2, opened := 0, parts := [(0, rq [])] }] }

theorem test_wit_reassembly :
    ((wReasm.session .lease).reasm.map (·.parts)) = [[(0, rq [])]] ∧ (rq []).sess = .lease ∧ 0 + ms 1 ≤ max wReasm.now (ms 1) := by decide

/-- 02 R49: H = 5 with SEQUENCE 4 answered and 3 running. -/
def wWin : State := w0.setSession .lease { high := some 5, seen := [5, 4, 3], cache := [(4, [])] }

theorem test_wit_window :
    wWin.sessKey .lease ≠ none ∧ winPos (wWin.session .lease).high 6 = .above ∧ winPos (wWin.session .lease).high (2 ^ 32 - 59) = .below ∧
    winPos (wWin.session .lease).high (2 ^ 32 - 58) = .inside ∧ Tab.get? (wWin.session .lease).cache 4 = some [] ∧
    Tab.get? (wWin.session .lease).cache 3 = none ∧ (3 ∈ (wWin.session .lease).seen) ∧ (2 ∉ (wWin.session .lease).seen) ∧
    wWin.sessKey .preceding = none := by decide

/-! ### 03: ports -/

/-- `w0` with port 0 as given. -/
def wp (q : Port) : State := w0.setPort 0 q

/-- PORT_CONFIG of lane group 0: one 200GbE port, copper, no AN, 100 ms. -/
def cfgBytes : Bytes := bs [0, 1, 0, 0, 1, 0, 0, 0, 0, 0, 0, 0, 0, 0, 0, 100, 0, 0, 0, 0] ++ zeros 12

/-- MACSEC_SA_SET: transmit, association 3, suite 2, SCI 1, PN 1 (the wrapped key is the sender's). -/
def saBytes : Bytes := bs [0, 0, 0, 0, 3, 2, 1, 0, 0, 0, 0, 0, 0, 0, 0, 1] ++ zeros 96

theorem test_wit_macsec :
    (taken (rq saBytes) 0 w0).portExists 0 = true ∧ begins 0x0204 0 (rq saBytes) w0 = true ∧ plen (rq saBytes) = 112 ∧
    byteAt saBytes 4 ≤ 3 ∧ byteAt saBytes 5 = 2 ∧ ((w0.port 0).tx.map (·.2.2)).getD none ≠ some (byteAt saBytes 4) := by decide

/-- Port 0 of `w0` after a loss of signal in the present cycle. -/
def wRow : State := { w0 with rows := one 0 ⟨0, 7, w0.port 0, none⟩ }

theorem test_wit_fresh_cycle : w0.freshCycle 0 ∧ (w0.tick (ms 100)).freshCycle 0 ∧ (wRow.tick 480).freshCycle 0 :=
  ⟨fun _ h => (nomatch h), fun _ h => (nomatch h), fun c h => by cases h; decide⟩

theorem test_wit_same_cycle :
    ∃ c, Tab.get? wRow.rows 0 = some c ∧ c.at_ = wRow.now ∧ 5 ≤ c.rank ∧ c.was.st = .up ∧ c.rank < 8 :=
  ⟨⟨0, 7, w0.port 0, none⟩, by decide⟩

/-- 03 R95: of a loss of signal and a loss of alignment in one cycle the lower row's reason stands, one departure counted. -/
theorem test_same_cycle :
    (match exec (.lossOfSignal 0 0) w0 with
      | .next v => (match exec (.alignLost 0 0) v with
        | .next x => ((v.port 0).lastDown, (x.port 0).lastDown, (x.port 0).downCount)
        | _ => (0, 0, 0))
      | _ => (0, 0, 0)) = (1, 2, 1) := by decide

theorem test_wit_training :
    (wp { st := .negotiate, mode := 1 }).port 0 = { st := .negotiate, mode := 1 } ∧
    ((wp { st := .train, mode := 1, trainMs := 100 }).port 0).since + ms 100 ≤ ((wp {}).tick (ms 100)).now ∧
    ((wp { st := .align, mode := 1, aligned := true, alignedSince := some 0 }).port 0).alignedSince = some 0 ∧
    0 + ms 100 ≤ ((wp {}).tick (ms 100)).now ∧ ((wp {}).tick (ms 100 - 1)).now < 0 + ms 100 ∧
    ((wp { st := .train, mode := 1, retry := true }).port 0).since + sec 1 ≤ ((wp {}).tick (sec 1)).now := by decide

/-- 03 Table PRT-3: NEGOTIATE, TRAIN and ALIGN one after the other. -/
theorem test_training :
    (match exec (.linkNegotiated 0 0) (wp { st := .negotiate, mode := 1 }) with | .next v => (v.port 0).st | _ => .disabled) = .train ∧
    (match exec (.trainingComplete 0 0) (wp { st := .train, mode := 1 }) with | .next v => (v.port 0).st | _ => .disabled) = .align ∧
    (match exec (.linkUp (ms 100) 0) (wp { st := .align, mode := 1, aligned := true, alignedSince := some 0 }) with
      | .next v => (v.port 0).st | _ => .disabled) = .up ∧
    (match exec (.linkUp (ms 100 - 1) 0) (wp { st := .align, mode := 1, aligned := true, alignedSince := some 0 }) with
      | .next v => (v.port 0).st | _ => .disabled) = .align := by decide

theorem test_wit_loss :
    (w0.port 0).st = .up ∧ (w0.port 0).testDown = false ∧ w0.flt.portFenceUs ≠ 0xFFFF ∧ ((w0.port 0).outsNow 0 1).length < 5 ∧
    Tab.get? w0.sw.txing 0 = none ∧ ((wp { st := .up, mode := 1, faultSince := some 0 }).port 0).faultSince = some 0 := by decide

/-- 03 Table PRT-3: a codeword count of 1,024 keeps the port UP, 1,025 takes it down with reason 4. -/
theorem test_fec :
    (match exec (.fecFail 0 0 1024) w0 with | .next v => (v.port 0).st | _ => .disabled) = .up ∧
    (match exec (.fecFail 0 0 1025) w0 with | .next v => ((v.port 0).lastDown, (v.port 0).st) | _ => (0, .up)) = (4, .train) := by decide

theorem test_wit_damping :
    5 ≤ (({ st := .up, mode := 1, outs := [0, 0, 0, 0] } : Port).outsNow (sec 59) 1).length ∧
    ((wp { st := .damped, mode := 1, dampUntil := 5 }).port 0).dampUntil ≤ ((wp {}).tick 5).now ∧
    ((wp {}).tick 4).now < ((wp { st := .damped, mode := 1, dampUntil := 5 }).port 0).dampUntil ∧
    ((wp { st := .up, mode := 1 }).port 0).since + sec 600 ≤ ((wp {}).tick (sec 600)).now := by decide

/-- 03 R97: the fourth departure within 60 s does not damp, the fifth does. -/
theorem test_damping :
    (({ st := .up, mode := 1, outs := [0, 0, 0] } : Port).down 1 1 .train).st = .train ∧
    (({ st := .up, mode := 1, outs := [0, 0, 0, 0] } : Port).down 1 1 .train).st = .damped := by decide

theorem test_wit_signals :
    (w0.port 0).faultSince = none ∧ ((wp { st := .align, mode := 1, aligned := true, remoteFault := true }).port 0).remoteFault = true ∧
    0 < ((wp { st := .up, mode := 1, degrade := 7 }).port 0).degrade ∧ ((wp { st := .up, mode := 1, degrade := 7 }).port 0).degrade < 8 := by decide

/-- A port with class 0 lossless. -/
def pfcPort (f : Pfc → Pfc) : Port := { st := .up, mode := 1, pfc := f { ({} : Pfc) with lossless := 1, xoff := 8, hyst := 1 } }

theorem test_wit_pfc :
    Tab.get? ((wp (pfcPort fun x => { x with sent := one 0 0 })).port 0).pfc.sent 0 = some 0 ∧
    (wp (pfcPort fun x => { x with sent := one 0 0 })).pfcCount 0 0 ≤ 8 - 1 ∧
    ((wp (pfcPort fun x => { x with hyst := 8, sent := one 0 0 })).port 0).pfc.xoff - 8 ≤ (wp (pfcPort id)).pfcCount 0 0 ∧
    (pfcPort id).pfc.lossless.getLsbD 0 = true ∧ (pfcPort id).pfc.stuck.getLsbD 0 = false ∧ [1].getD 0 0 = 1 ∧
    Tab.get? (pfcPort fun x => { x with pausedUntil := one 0 5 }).pfc.pausedUntil 0 = some 5 ∧
    Tab.get? (pfcPort fun x => { x with pausedSince := one 0 0 }).pfc.pausedSince 0 = some 0 ∧
    0 + ms (pfcPort id).pfc.wdMs ≤ (w0.tick (ms 1)).now ∧
    (let x := (pfcPort fun x => { x with pausedUntil := one 0 (ms 5), pausedSince := one 0 0 }).pfc
     Tab.get? x.pausedUntil 0 = some (ms 5) ∧ (w0.tick (ms 1)).now ≤ ms 5 ∧ Tab.get? x.pausedSince 0 = some 0) ∧
    Tab.get? (pfcPort id).pfc.pausedUntil 0 = none ∧ Tab.get? (pfcPort id).pfc.ended 0 = none ∧ Tab.getD w0.sw.txing 0 [] = [] ∧
    (pfcPort fun x => { x with stuck := 1, lastPause := one 0 0 }).pfc.stuck.getLsbD 0 = true := by decide

theorem test_wit_pfc_set :
    begins 0x0205 0 (rq (bs [0, 0, 1, 0, 0, 1, 0, 0, 0, 0, 0, 8, 0, 8, 0, 0])) w0 ∧
    popcount 8 1 ≤ 4 ∧ be (bs [0, 0, 1, 0, 0, 1, 0, 0, 0, 0, 0, 8, 0, 8, 0, 0]) 12 2 = 8 := by decide

theorem test_wit_port_config :
    (portCfgs cfgBytes).isSome = true ∧ begins 0x0201 0 (rq cfgBytes) w0 ∧ plen (rq cfgBytes) = 32 ∧ w0.hlt.retiredLanes = [] := by decide

/-! ### 04, 05: switch core and traffic -/

/-- METER_SET of meter 8191 on both dies: aware, least and greatest rates and bursts. -/
def meterBytes : Bytes := bs [0x1F, 0xFF, 2, 3, 2, 1, 0, 0] ++ toBe 4 1 ++ toBe 4 512000000 ++ toBe 4 9216 ++ toBe 4 268435456

theorem test_wit_meter_set :
    begins 0x0401 0 (rq meterBytes) w0 = true ∧ plen (rq meterBytes) = 24 ∧ be meterBytes 0 2 ≤ 8191 ∧ byteAt meterBytes 2 ≤ 2 ∧
    byteAt meterBytes 4 ≤ 2 ∧ byteAt meterBytes 5 ≤ 1 ∧ byteAt meterBytes 6 ≤ 63 ∧ byteAt meterBytes 7 ≤ 63 ∧ be meterBytes 8 4 ≤ be meterBytes 12 4 ∧ be meterBytes 12 4 ≤ 512000000 ∧
    9216 ≤ be meterBytes 16 4 ∧ be meterBytes 20 4 ≤ 268435456 ∧ bitOf (byteAt meterBytes 3) 0 = true ∧
    bitOf (byteAt meterBytes 3) 1 = true := by decide

theorem test_wit_precolour :
    begins 0x0405 0 (rq (zeros 24)) w0 = true ∧ plen (rq (zeros 24)) = 24 ∧ (taken (rq (zeros 24)) 0 w0).portExists 0 = true ∧
    (∀ c < 64, bitsOf (byteAt (slice (zeros 24) 4 16) (c / 4)) (7 - 2 * (c % 4)) (6 - 2 * (c % 4)) ≠ 3) ∧
    byteAt (zeros 24) 20 % 4 ≠ 3 ∧ byteAt (zeros 24) 20 / 4 % 4 ≠ 3 ∧ byteAt (zeros 24) 20 ≤ 15 := by decide

/-- SHAPER_SET of group 7 of port 0, rate 16,000,000, burst 10,240, filled. -/
def shaperBytes : Bytes := bs [0, 0, 1, 7, 1, 0, 0, 0] ++ toBe 4 16000000 ++ toBe 4 10240

theorem test_wit_shaper :
    begins 0x0402 0 (rq shaperBytes) w0 = true ∧ plen (rq shaperBytes) = 16 ∧ be shaperBytes 8 4 ≤ 16000000 ∧
    10240 ≤ be shaperBytes 12 4 ∧ byteAt shaperBytes 3 ≤ 7 ∧ byteAt shaperBytes 4 = 1 := by decide

/-- A colour-aware meter holding one 64-byte frame's tokens in its peak bucket and none in its committed one. -/
def mtr : Meter := ⟨true, true, 0, 2, 0, 0, 1, 1, 9216, 9216, 0, 64 * byteTokens, 0⟩

/-- 05 R158: the three colours. -/
theorem test_meter_colours :
    (mtr.colour 0 64).1 = 1 ∧ (mtr.colour 0 65).1 = 2 ∧ (mtr.colour 2 1).1 = 2 ∧
    ({ mtr with tc := 64 * byteTokens }.colour 0 64) = (0, { mtr with tp := 0 }) ∧ (({ mtr with tc := 64 * byteTokens }).colour 1 64).1 = 1 := by
  decide

theorem test_wit_sched :
    begins 0x0403 0 (rq (bs [0, 0, 1, 7, 0, 0, 0, 1])) w0 = true ∧ byteAt (bs [0, 0, 1, 7, 0, 0, 0, 1]) 2 = 1 ∧
    be (bs [0, 0, 1, 7, 0, 0, 0, 1]) 6 2 = 1 ∧ begins 0x0403 0 (rq (bs [0, 0, 2, 7, 7, 0, 0, 1])) w0 = true ∧
    begins 0x0403 0 (rq (bs [0, 0, 3, 15, 7, 0, 0, 1])) w0 = true ∧ byteAt (bs [0, 0, 3, 15, 7, 0, 0, 1]) 3 = 15 := by decide

/-- BUFFER_SET: ALPHA only, ports 0 to 0, exponent 9. -/
def bufBytes : Bytes := bs [0, 0, 0, 0, 0, 0, 0, 2, 0, 0, 9, 0, 0, 0, 0, 0]

theorem test_wit_buffer :
    begins 0x0404 0 (rq bufBytes) w0 = true ∧ bitOf (byteAt bufBytes 7) 1 = true ∧ bitOf (byteAt bufBytes 7) 0 = false ∧
    byteAt bufBytes 10 ≤ 9 ∧ State.gminSum w0 0 ≤ 393216 ∧ be bufBytes 2 2 ≤ be bufBytes 4 2 ∧
    0 ≤ rsvLeft w0 0 ∧ 0 ≤ rsvLeft w0 1 := by decide

/-- A TABLE_WRITE fragment of one L2 entry: VLAN 1, address 2, to egress port 1. -/
def l2Frag : Bytes := zeros 8 ++ bs [1, 0, 0, 1, 0, 0, 0, 0] ++ bs [0, 1, 0, 0, 0, 0, 0, 2] ++ zeros 16 ++ bs [0, 0, 0, 1] ++ zeros 36

theorem test_wit_table_write :
    begins 0x0301 0 (rq l2Frag) w0 = true ∧ l2Frag.length = 16 + 64 * be l2Frag 10 2 ∧ byteAt l2Frag 8 = 1 ∧
    (∀ o ∈ writeOps (rq l2Frag), keyOk w0 1 o.2 = true ∧ (o.1 = false → resOk w0 1 (slice o.2 24 40) = true)) ∧
    (w0.table 1).st = .ready ∧ (w0.table 1).pending = false ∧ ((writeOps (rq l2Frag)).foldl (applyOp 1) []).length = 1 := by decide

/-- 04 R122: what was written is found, and gone once deleted. -/
theorem test_table_write :
    (match exec (.tableWrite 0 (rq l2Frag)) w0 with
      | .next v => ((v.table 1).v1.map fun e => (be e.key 0 2, be e.key 2 6, be e.res 2 2))
      | _ => []) = [(1, 2, 1)] ∧
    (match exec (.tableWrite 0 (rq l2Frag)) w0 with | .next v => (v.table 1).v0 | _ => [⟨[], []⟩]) = [] := by decide

theorem test_wit_table_flip :
    begins 0x0302 0 (rq (bs [10, 0, 0, 0, 0, 0, 0, 0])) w0 = true ∧ w0.flt.lock ≠ .armed ∧ (w0.table 10).st = .ready ∧
    ((w0.setTable 1 { st := .copying }).table 1).st ≠ .ready ∧
    begins 0x0302 0 (rq (bs [1, 0, 0, 0, 0, 0, 0, 0])) (w0.setTable 1 { st := .copying }) = true := by decide

/-- MCAST_TREE_SET: tree 16,383 of port 1 only. -/
def treeBytes : Bytes := bs [0x3F, 0xFF, 0, 1, 0, 0, 0, 0, 0, 1, 0, 0, 0xFF, 0xFF, 0xFF, 0xFF]

theorem test_wit_tree :
    begins 0x0304 0 (rq treeBytes) w0 = true ∧ plen (rq treeBytes) = 8 + 8 * be treeBytes 2 2 ∧ be treeBytes 0 2 ≤ 16383 ∧
    (∀ m ∈ treeMembers treeBytes, m.port ≤ 511 ∧ w0.portExists m.port = true ∧ memberFenced w0 m = false) ∧
    begins 0x0304 0 (rq (zeros 8)) w0 = true ∧ plen (rq (zeros 8)) = 8 := by decide

/-- `w0` with analysis port 7 bound to port 1. -/
def wBind : State := { w0 with sw := { w0.sw with binds := one 7 (1, 0) } }

theorem test_wit_mirror :
    begins 0x0305 0 (rq (bs [0, 7, 0, 0, 0, 64, 0, 0, 0, 0, 0, 1, 0, 0, 0, 0])) wBind = true ∧
    (Tab.get? wBind.sw.binds 7).isSome = true ∧ wBind.portExists 0 = true ∧
    begins 0x0305 0 (rq (bs [3, 7, 0, 1, 0, 0, 7, 0, 0, 0, 0, 0, 0, 0, 0, 0])) wBind = true ∧ (wBind.port 1).lossless 7 = false ∧
    begins 0x0305 0 (rq (bs [4, 0, 0x0F, 0xFF, 0, 0, 1, 0, 0, 0, 0, 0, 0, 0, 0, 0])) wBind = true ∧
    begins 0x0305 0 (rq (bs [4, 0, 0, 1, 0, 0, 0, 0, 0, 0, 0, 0, 0, 0, 0, 0])) wBind = true := by decide

/-- A plain frame of port 0 to address 2 in no VLAN. -/
def fr0 : Frame :=
  { port := 0, len := 64, dmac := 2, smac := 1, vlan := none, etype := 0x1234, ip := none, bth := none, sec := none, fcsOk := true, payload := [] }

/-- `w0` with an L2 entry that sends address 2 in VLAN 1 to port 1. -/
def wL2 : State := w0.setTable 1 { v0 := [⟨toBe 2 (Frame_vid fr0 % 4096) ++ toBe 6 2 ++ zeros 16, bs [0, 0, 0, 1] ++ zeros 36⟩] }

theorem test_wit_receive :
    w0.portUp fr0.port = true ∧ w0.portUp 512 = true ∧ (w0.port 0).rx = [] ∧ w0.portFenced 0 = false ∧ w0.halted = false ∧
    (parserFifo fr0 w0).isSome = true ∧
    (∀ e ∈ [63, 64, 9216, 9217], ({ fr0 with len := e }.len < 64) = (e = 63) ∧ (9216 < { fr0 with len := e }.len) = (e = 9217)) := by
  decide

theorem test_wit_forward :
    decideFrame wL2 wL2.stampNow fr0 = ⟨.go (.port 1 {}), 0, 0, none, false⟩ ∧ wL2.sw.mirrors = [] ∧
    Tab.get? wL2.trf.meters (meterKey (portDie 0) 0) = none ∧ frameFenced wL2 fr0 = false ∧ wL2.portUp 1 = true ∧
    (wL2.port 0).lossless 0 = false ∧ Tab.getD wL2.sw.boxes (portPipe 0) [] = [] ∧ wL2.confidential 0 = false ∧
    (admission wL2 (voqKey (portPipe 0) 1 0) (cellsOf 64) (wL2.alpha (voqKey (portPipe 0) 1 0)) none).isSome = true := by decide

/-- 04 R120: the frame is queued toward port 1 in class 0. -/
theorem test_receive :
    (match exec (.frameReceive 0 fr0) wL2 with
      | .next v => ((Tab.getD v.sw.voqs (voqKey (portPipe 0) 1 0) []).map (·.port), v.sw.frames.length)
      | _ => ([], 0)) = ([1], 1) := by decide

/-- An IPv4 frame to 10.0.0.1 with the given TTL. -/
def frIp (ttl : Nat) : Frame :=
  { fr0 with etype := 0x0800, ip := some ⟨⟨4, 0x0A000002⟩, ⟨4, 0x0A000001⟩, 17, 0, ttl, 0, 0, 0, 0⟩ }

theorem test_wit_tables :
    (lookup wL2 wL2.stampNow 1 (toBe 2 (Frame_vid fr0 % 4096) ++ toBe 6 fr0.dmac ++ zeros 16)).isSome = true ∧
    (lookup w0 w0.stampNow 1 (toBe 2 (Frame_vid (frIp 1) % 4096) ++ toBe 6 2 ++ zeros 16)) = none ∧
    (frIp 1).ip.isSome = true := by decide

/-- An internal frame of basin 0 to port 1. -/
def if0 : IntFrame := { orig := .basin 0, port := 1, tree := none, cls := 0, levee := 0, chain := none, frame := fr0 }

def copy0 (p : Nat) : Copy := ⟨0, p, none, none, none, false, none, none⟩

theorem test_wit_internal :
    w0.halted = false ∧ frameFenced w0 if0.frame = false ∧ if0.chain = none ∧ if0.tree = none ∧ w0.portFenced 1 = false ∧
    w0.portUp 1 = true ∧ w0.portUp 2 = false ∧
    (admission w0 (voqKey (internalPipe if0.orig if0.port if0.frame) 1 0) (cellsOf 64)
      (w0.alpha (voqKey (internalPipe if0.orig if0.port if0.frame) 1 0)) none).isSome = true ∧
    Tab.getD ({ w0.sw with boxes := one (internalPipe if0.orig 1 fr0) [⟨0, [copy0 1]⟩] }).boxes (internalPipe if0.orig 1 fr0) [] =
      [⟨0, [copy0 1]⟩] := by decide

theorem test_wit_pin :
    w0.portUp 2 = false ∧ 2 ∉ lostPorts w0.sw.moves ∧ 0 ∈ lostPorts [(0, true)] ∧ w0.portUp 0 = true ∧ (w0.port 0).since + sec 1 ≤ (w0.tick (sec 1)).now ∧
    (w0.tick (sec 1 - 1)).now < (w0.port 0).since + sec 1 := by decide

/-- 04 R138: slots of a lost member go to survivors and no other slot moves. -/
theorem test_pin :
    (let port (j : Nat) : Option Nat := some j
     ((List.range 8).map fun i => slotMember port 4 i [(0, true)],
      (List.range 8).map fun i => slotMember port 4 i [(0, true), (1, true)],
      (List.range 8).map fun i => slotMember port 4 i [(0, true), (1, true), (0, false)],
      slotMember port 1 0 [(0, true)])) =
      ([some 1, some 1, some 2, some 3, some 2, some 1, some 2, some 3],
       [some 2, some 3, some 2, some 3, some 2, some 2, some 2, some 3],
       [some 0, some 3, some 2, some 3, some 0, some 2, some 2, some 3], none) ∧
    (let a : PinMap := ([0, 1, 0, 1], [])
     (pinStep some 2 a (0, true), survivors some 2 [0])) = (([1, 1, 1, 1], [0]), [1]) := by decide +kernel

/-- A spray cell of switch 0, port 0, class 0 with SEQ 5, the first of its frame and not the last. -/
def cellFrame (q : Nat) : Frame := { fr0 with etype := 0x88B5, payload := bs [0x11, 0, 0, 0, 0, 0, 0, 64] ++ toBe 4 q ++ zeros 68 }

/-- A reorder context waiting for SEQ 4. -/
def wSpray (r : Reorder) : State := { w0 with sw := { w0.sw with reorder := one (sprayKey 0 0 0) r } }

theorem test_wit_spray :
    byteAt (cellFrame 5).payload 0 / 16 = 1 ∧ byteAt (cellFrame 5).payload 3 % 128 = w0.sw.switchId.toNat ∧
    bitOf (byteAt (cellFrame 5).payload 0) 0 = true ∧ bitOf (byteAt (cellFrame 5).payload 0) 1 = false ∧
    Tab.get? w0.sw.reorder (sprayKey 0 0 0) = none ∧
    Tab.get? (wSpray { next := some 4 }).sw.reorder (sprayKey 0 0 0) = some { next := some 4 } ∧
    seqDist (be (cellFrame 5).payload 8 4) 4 ≠ 0 ∧ seqDist (be (cellFrame 5).payload 8 4) 4 < 2 ^ 31 ∧
    w0.reorderCells (portDie 0) + 4 ≤ 32768 ∧ cellsOf (be (cellFrame 5).payload 6 2 % 2048) ≤ 4 ∧
    (0 : Nat) + us (2 * (w0.sw.podReorder.toNat + 1)) < us 21 ∧ 0 + ms 1 ≤ (w0.tick (ms 1)).now := by decide

/-- 04 R142, R143: the cell ahead is held, the one in order moves the sequence on. -/
theorem test_spray :
    (match exec (.sprayCellReceive 0 (cellFrame 5)) (wSpray { next := some 4 }) with
      | .next v => (Tab.get? v.sw.reorder (sprayKey 0 0 0)).map fun r => (r.next, r.held.length)
      | _ => none) = some (some 4, 1) ∧
    (match exec (.sprayCellReceive 0 (cellFrame 4)) (wSpray { next := some 4 }) with
      | .next v => (Tab.get? v.sw.reorder (sprayKey 0 0 0)).map fun r => (r.next, r.held.length, r.open_.length)
      | _ => none) = some (some 5, 0, 1) := by decide +kernel

def rec0 : FrameRec :=
  { frame := fr0, orig := none, pipe := 0, cls := 0, levee := 0, cells := 1, stamp := 0, stamped := 0, acct := 0, fromRsv := 0, fromHead := 0, copies := 1,
    tag := none, mirror := false, mirrored := [], suppressed := [], chain := none, retired := [], counted := [], cut := false, arrived := 0 }

/-- One frame queued toward port 1. -/
def wQueue : State := { w0 with sw := { w0.sw with voqs := [(voqKey 0 1 0, [copy0 1])], frames := [(0, rec0)] } }

/-- Its transmission, from 0 to 5. -/
def tx0 : Tx := { copy := copy0 1, frame := fr0, start := 0, ends := 5 }

theorem test_wit_scheduler :
    wQueue.portUp 1 = true ∧ wQueue.halted = false ∧ Tab.get? wQueue.sw.frames 0 = some rec0 ∧ wQueue.schedOf 1 = {} ∧
    (wQueue.port 1).paused 0 0 = false ∧ wQueue.portFenced 1 = false ∧ frameFenced wQueue fr0 = false ∧
    (wQueue.port 1).pfc.stuck.getLsbD 0 = false ∧ (wQueue.port 1).tx = none ∧ wQueue.sw.mirrors = [] ∧ wQueue.trf.shapers = [] ∧
    Tab.getD ({ wQueue.sw with txing := one 1 [tx0] }).txing 1 [] = [tx0] ∧ tx0.ends ≤ (wQueue.tick 5).now ∧
    (wQueue.tick 4).now < tx0.ends ∧ wQueue.portUp 2 = false ∧
    wQueue.sw.stale = [] ∧ Tab.getD wQueue.sw.txing 1 [] = [] ∧ 64 ≤ rec0.frame.len ∧ wQueue.confidential 0 = false ∧
    ({ st := .up, mode := 1, pfcWait := [(0, 0)] } : Port).pfcWait ≠ [] := by decide

/-- 05 R168: the round starts the frame, and its end sends it. -/
theorem test_scheduler :
    (match exec (.schedulerRound 0 1) wQueue with
      | .next v => ((Tab.getD v.sw.txing 1 []).map (·.ends), Tab.getD v.sw.voqs (voqKey 0 1 0) [])
      | _ => ([], [])) = ([wireTicks 84 1], []) := by decide +kernel

/-! ### 06, 07: pool memory and the cistern -/

def lev1 : Levee := { confidential := false, maxAllot := 8 }

/-- Levee 1 admitted, one frame of quota on die 0. -/
def wLev : State := { w0 with sec := { w0.sec with levees := one 1 lev1 }, cis := { w0.cis with quota := one 1 1 } }

/-- An ACTIVE allotment of 2 MiB of levee 1 from address 0. -/
def al0 : Allot :=
  { st := .active, levee := 1, home := 0, place := 0, flags := 0, domain := 0, pva := 0, size := mib2, tray := 0, replica := 0,
    trayOff := 0, repOff := 0 }

def tr0 : Tray := { port := 0, addr := ⟨4, 9⟩, qpn := 1, rkey := 1, base := 0, length := 2 * mib2, maxOut := 1 }

/-- `wLev` with allotment 0 as given, in both versions. -/
def wa (x : Allot) : State :=
  { wLev with mem := { wLev.mem with allots := one 0 x, xl0 := [0], xl1 := [0], trays := one 0 tr0 } }

/-- ALLOT_CREATE for levee 1, die 0, CISTERN, 2 MiB at 0. -/
def allotBytes : Bytes := bs [0, 1, 0, 0, 0, 0, 0, 0] ++ toBe 8 0 ++ toBe 8 mib2 ++ zeros 24

theorem test_wit_allot_create :
    begins 0x0501 0 (rq allotBytes) wLev = true ∧ plen (rq allotBytes) = 48 ∧ Tab.get? wLev.sec.levees 1 = some lev1 ∧
    (parseAllot wLev allotBytes).levee = 1 ∧ allotBad wLev allotBytes (parseAllot wLev allotBytes) = false ∧
    (wLev.table 9).st = .ready ∧ (wLev.table 9).pending = false ∧ Tab.lowestFree wLev.mem.allots 65536 = some 0 ∧
    (parseAllot wLev allotBytes).place = 0 ∧ 1 ≤ wLev.freeFrames 0 ∧ useTiles wLev 0 1 + 512 ≤ 512 * wLev.quota 0 1 ∧
    allotGuard wLev (parseAllot wLev allotBytes) = none := by decide +kernel

/-- ALLOT_CREATE on tray 0 at offset 0. -/
def allotTray : Bytes := bs [0, 1, 0, 1, 0, 0, 0, 0] ++ toBe 8 (4 * mib2) ++ toBe 8 mib2 ++ zeros 24

/-- 06 R184: the range of an ACTIVE allotment is refused under invariant 3, of a RELEASING one under 4. -/
theorem test_guard :
    allotGuard (wa { al0 with place := 1 }) (parseAllot (wa al0) allotTray) = some 3 ∧
    allotGuard (wa { al0 with place := 1, st := .releasing }) (parseAllot (wa al0) allotTray) = some 4 ∧
    begins 0x0501 0 (rq allotTray) (wa { al0 with place := 1 }) = true ∧
    allotBad (wa { al0 with place := 1 }) allotTray (parseAllot (wa al0) allotTray) = false := by decide +kernel

theorem test_wit_allot :
    begins 0x0503 0 (rq (zeros 8)) (wa al0) = true ∧ (wa al0).allot 0 = some al0 ∧ wLev.allot 0 = none ∧ tenant (rq (zeros 8)) = none ∧
    begins 0x0502 0 (rq (zeros 8)) (wa { al0 with st := .pending }) = true ∧ (wa al0).flt.lock ≠ .loading ∧
    (wa al0).col.groups = [] ∧ (wa al0).mem.live = [] ∧ (wa al0).mem.hosts = [] := by decide +kernel

theorem test_wit_quiet (x : Allot) : (wa x).quiet :=
  ⟨rfl, ⟨⟨rfl, rfl, rfl, rfl, rfl, nofun, fun e h => by simp [wa, one] at h; subst h; rfl⟩, rfl⟩, rfl,
    fun e h => by simp [wa, wLev, one] at h; subst h; rfl⟩

theorem test_wit_plain_port : w0.plainPort 512 ∧ w0.plainPort 0 := ⟨Or.inr rfl, Or.inl (by decide)⟩

/-- WATER_RIGHT_SET: levee 1, die 0, IPv6 host, RATE 0, BURST 65,536, OUT 1. -/
def rightBytes : Bytes := bs [0, 1, 0, 6] ++ toBe 16 7 ++ toBe 4 0 ++ toBe 4 65536 ++ toBe 2 1 ++ bs [1, 0]

theorem test_wit_right :
    begins 0x0504 0 (rq rightBytes) wLev = true ∧ plen (rq rightBytes) = 32 ∧ wLev.admitted 1 = true ∧ wLev.retiring 1 = false ∧
    be rightBytes 24 4 = 65536 ∧ be rightBytes 28 2 = 1 ∧ byteAt rightBytes 30 = 1 ∧ bitOf (byteAt rightBytes 31) 0 = false ∧
    (wLev.mem.rights.filter fun y => y.die == 0 && y.host.af != 0).length < 16384 := by decide +kernel

/-- TRAY_ATTACH on port 0, IPv4, one stripe, one operation. -/
def trayBytes0 : Bytes := bs [0, 0, 4, 0] ++ zeros 12 ++ toBe 4 9 ++ zeros 16 ++ toBe 8 mib2 ++ toBe 2 1 ++ zeros 10

theorem test_wit_tray :
    begins 0x0505 0 (rq trayBytes0) wLev = true ∧ plen (rq trayBytes0) = 56 ∧ wLev.portExists 0 = true ∧ be trayBytes0 4 12 = 0 ∧
    be trayBytes0 36 8 % mib2 = 0 ∧ be trayBytes0 44 2 = 1 ∧ Tab.lowestFree wLev.mem.trays 256 = some 0 ∧
    begins 0x0506 0 (rq (zeros 8)) ({ wLev with mem := { wLev.mem with trays := one 0 tr0 } }) = true ∧ tr0.detaching = false ∧
    wLev.sessKey .lease ≠ none ∧ wLev.kry.deferred = [] := by decide +kernel

/-- A packet of levee 1. -/
def rqL (p : Bytes) : KReq := { rq p with sess := .levee 1, levee := 1, term := 0 }

/-- `s` with a session key for levee 1. -/
def keyed (s : State) : State := { s with kry := { s.kry with keys := one 1 0 } }

/-- TIER_HINT COLD of one page, 2-byte elements' code 2. -/
def hintBytes : Bytes := bs [0, 0, 3, 2, 0, 0, 0, 0] ++ toBe 8 0 ++ toBe 8 65536

/-- A tile-valid page 0 of a tray allotment. -/
def wPage (p : Page) : State := { wa { al0 with place := 1 } with cis := { wLev.cis with pages := one 0 p } }

def pg0 : Page := { die := 0, levee := 1 }

theorem test_wit_hint :
    begins 0x0507 0 (rqL hintBytes) (keyed (wPage pg0)) = true ∧ tenant (rqL hintBytes) = some 1 ∧
    translate (keyed (wPage pg0)) 0 1 0 65536 = some 0 ∧ (keyed (wPage pg0)).page 0 0 = some pg0 ∧
    (wPage pg0).cis.regions = [] ∧ begins 0x0507 0 (rqL hintBytes) (keyed (wa al0)) = true := by decide +kernel

/-- A vendor packet of levee 1 from host 5. -/
def pkt (b : Bytes) : Packet :=
  { port := 0, die := 0, net := { (default : Net) with srcIp := ⟨4, 5⟩ }, cls := 0, levee := 1, ver := 0, body := b }

/-- The packet of a request (06 Table MEM-4). -/
def lay (r : PoolReq) : Packet :=
  pkt (toBe 2 r.queue ++ toBe 6 r.seq ++ toBe 8 r.pva ++ toBe 4 r.length ++ toBe 1 r.op ++ toBe 1 r.flags ++ zeros 2 ++ toBe 3 r.retQp ++
    zeros 5 ++ toBe 8 r.handle ++ r.data)

/-- A request of levee 1 for 8 bytes at 0 from host 5. -/
def pr : PoolReq :=
  { port := 0, die := 0, net := { (default : Net) with srcIp := ⟨4, 5⟩ }, cls := 0, levee := 1, ver := 0, queue := 0, seq := 1, pva := 0,
    length := 8, op := 0, flags := 0, retQp := 0, handle := 0, data := zeros 8 }

/-- 06 R193: the header's fields lie where Table MEM-4 puts them. -/
theorem test_pool_header :
    (∀ r ∈ [pr, { pr with pva := 4088, flags := 1, op := 2, queue := 0x1234, seq := 2 ^ 47, handle := 2 ^ 48, retQp := 0x10000 },
      { pr with data := toBe 8 256 ++ zeros 8 }], (lay r).poolReq = r) ∧
    (pkt (bs ((List.range 40).map (· + 1)))).poolReq.pva = 0x090A0B0C0D0E0F10 ∧
    (respHeader pr (bs [1, 2, 3, 4, 5, 6, 7, 8]) 4096).length = 24 ∧ be (respHeader pr [] 4096) 16 4 = 4096 := by decide +kernel

theorem test_wit_on_cistern :
    onCistern (wa al0) .read pr 0 0 ∧ onCistern (wa al0) .write pr 0 0 ∧ onCistern (wa al0) .atomic { pr with data := zeros 16 } 0 0 ∧
    onCistern (wa al0) .copy { pr with data := toBe 8 256 ++ zeros 8 } 0 0 ∧
    onCistern (wa al0) .read { pr with pva := 256, data := toBe 8 256 ++ zeros 8 } 0 256 ∧
    onCistern (wa al0) .read { pr with pva := 4088 } 0 4088 ∧ Mem.wf (wa al0).cis.pool = true ∧
    byteAt (toBe 8 256 ++ zeros 8) 8 = (wa al0).sw.switchId.toNat :=
  ⟨⟨al0, by decide +kernel⟩, ⟨al0, by decide +kernel⟩, ⟨al0, by decide +kernel⟩, ⟨al0, by decide +kernel⟩, ⟨al0, by decide +kernel⟩,
    ⟨al0, by decide +kernel⟩, by decide +kernel, by decide +kernel⟩

/-- `wa al0` with pool memory `m`. -/
def withPool (m : Mem) : State := { wa al0 with cis := { wLev.cis with pool := m } }

/-- 06 R192, R198: what P_WRITE wrote P_READ answers; fetch-and-add answers the sum's old value. -/
theorem test_pool :
    (match exec (.pWrite 0 (lay { pr with data := bs [1, 2, 3, 4, 5, 6, 7, 8] })) (wa al0) with
      | .next v => readPool v 0 0 9
      | _ => []) = bs [1, 2, 3, 4, 5, 6, 7, 8, 0] ∧
    (match exec (.pAtomic 0 (lay { pr with op := 1, data := toBe 8 5 ++ zeros 8 }))
        (withPool [(0, 7)]) with
      | .next v => le (readPool v 0 0 8) 0 8
      | _ => 0) = 12 := by decide +kernel

theorem test_wit_revoking_read :
    limitsOk .read pr = true ∧ translate (wa { al0 with st := .revoking }) 0 1 0 8 = some 0 ∧
    (wa { al0 with st := .revoking }).mute (reqHost pr) = false := by decide +kernel

/-- A request held by its water right. -/
def wHeld : State :=
  let l : Live := { kind := .read, req := pr, allot := 0, home := 0, held := true }
  { wa al0 with mem := { (wa al0).mem with hosts := [⟨0, 1, ⟨4, 5⟩, 0, 0, 0, [l]⟩] } }

theorem test_wit_held : wHeld.quiet ∧ onCistern wHeld .read pr 0 0 ∧ wHeld.allot 0 = some al0 ∧ wHeld.mem.live = [] ∧ wHeld.mem.ctxs = [] :=
  ⟨test_wit_quiet al0, ⟨al0, by decide +kernel⟩, by decide +kernel, rfl, rfl⟩

/-- A context whose newest SEQ, 257, is done. -/
def ctx0 : QCtx := { die := 0, levee := 1, host := ⟨4, 5⟩, queue := 0, high := 257, done := one 257 ⟨0x60, 0⟩, live := [], last := 0 }

def wCtx : State := { wa al0 with mem := { (wa al0).mem with ctxs := [ctx0] } }

theorem test_wit_contexts :
    wCtx.quiet ∧
    onCistern wCtx .write { pr with seq := 257 } 0 0 ∧ Tab.get? ctx0.done 257 = some ⟨0x60, 0⟩ ∧ (1 : Nat) + 256 ≤ ctx0.high ∧
    ctx0.last + sec 1 ≤ (wCtx.tick (sec 1)).now ∧ (wCtx.tick (sec 1 - 1)).now < ctx0.last + sec 1 :=
  ⟨test_wit_quiet al0, ⟨al0, by decide +kernel⟩, by decide +kernel, by decide +kernel, by decide +kernel, by decide +kernel⟩

/-- 06 R202: SEQ 257 is answered again with POOL_LOST and writes nothing; SEQ 1 is dropped. -/
theorem test_contexts :
    (match exec (.pWrite 0 (lay { pr with seq := 257, data := bs [1, 2, 3, 4, 5, 6, 7, 8] })) wCtx with
      | .next v => (v.cis.pool, v.out.length)
      | _ => ([(1, 1)], 0)) = ([], 1) ∧
    (match exec (.pWrite 0 (lay { pr with data := bs [1, 2, 3, 4, 5, 6, 7, 8] })) wCtx with
      | .next v => (v.cis.pool, v.out.length)
      | _ => ([(1, 1)], 1)) = ([], 0) := by decide +kernel

/-- A responder context of levee 1: QP 7, RKEY 3, expecting PSN 0. -/
def qp0 : Qpc := { valid := true, qpn := 7, rkey := 3, levee := 1 }

def wQp : State := { wa al0 with mem := { (wa al0).mem with qpcs := one 0 qp0 } }

def rd0 : RdmaReq :=
  { port := 0, die := 0, net := { (default : Net) with srcIp := ⟨4, 5⟩ }, cls := 0, levee := 1, ver := 0, qpn := 7, psn := 0, va := 0,
    rkey := 3, length := 8, op := 1, data := zeros 8 }

/-- The request an RDMA message stands for. -/
def asPool (q : RdmaReq) (len : Nat) : PoolReq :=
  { port := q.port, die := q.die, net := q.net, cls := q.cls, levee := 1, ver := q.ver, queue := 0, seq := q.psn, pva := q.va, length := len,
    op := q.op, flags := 0, retQp := 0, handle := 0, data := q.data }

theorem test_wit_rdma :
    wQp.quiet ∧
    findQpc wQp 0 7 = some (0, qp0) ∧ rd0.rkey = qp0.rkey.toNat ∧ rd0.psn = qp0.epsn.toNat ∧ wQp.mute rd0.net.srcIp = false ∧
    onCistern wQp .rdmaRead (asPool rd0 8) 0 0 ∧ onCistern wQp .rdmaWrite (asPool rd0 8) 0 0 ∧ onCistern wQp .rdmaAtomic (asPool rd0 8) 0 0 ∧
    ({ rd0 with rkey := 4 }).rkey ≠ qp0.rkey.toNat :=
  ⟨test_wit_quiet al0, by decide +kernel, by decide +kernel, by decide +kernel, by decide +kernel, ⟨al0, by decide +kernel⟩, ⟨al0, by decide +kernel⟩,
    ⟨al0, by decide +kernel⟩, by decide +kernel⟩

/-- 06 R208: PSN advances by the packets of the message; a wrong key ends the queue pair. -/
theorem test_rdma :
    (match exec (.rdmaRead 0 rd0) wQp with | .next v => (Tab.get? v.mem.qpcs 0).map (·.epsn) | _ => none) = some 1 ∧
    (match exec (.rdmaRead 0 { rd0 with rkey := 4 }) wQp with | .next v => (Tab.get? v.mem.qpcs 0).map (·.err) | _ => none) = some true := by
  decide +kernel

/-- Table 9 with a flip committed, DRAINING since 0, or COPYING. -/
def wFlip (t : SwTable) (x : Allot) : State := (wa x).setTable 9 t

theorem test_wit_versions :
    ((wFlip { pending := true } { al0 with st := .pending }).table 9).pending = true ∧ 0 ∈ (wFlip {} al0).xl 1 ∧
    ((wFlip {} al0).xl 1).Nodup ∧ ((w0.setTable 1 { pending := true }).table 1).st = .ready ∧ (w0.table 1).pending = false ∧
    ((w0.setTable 1 { st := .draining }).table 1).inflight 1 = 0 ∧ ((w0.setTable 1 { st := .draining, infl1 := 1 }).table 1).inflight 1 ≠ 0 ∧
    0 + ms 100 ≤ (w0.tick (ms 100)).now ∧ (w0.tick (ms 100 - 1)).now < 0 + ms 100 ∧ w0.sw.txing = [] ∧
    ((w0.setTable 1 { st := .copying }).table 1).active ≤ 1 := by decide +kernel

/-- Table SWC-5: the flip makes PENDING allotments ACTIVE; draining ends when nothing is in flight, or at the limit. -/
theorem test_versions :
    (match exec (.flipEffect 0 9) (wFlip { pending := true } { al0 with st := .pending }) with
      | .next v => ((v.allot 0).map (·.st), (v.table 9).active, (v.table 9).st)
      | _ => (none, 0, .ready)) = (some .active, 1, .draining) ∧
    (match exec (.versionDrained 0 1) (w0.setTable 1 { active := 1, st := .draining, infl0 := 1 }) with
      | .next v => (v.table 1).st
      | _ => .ready) = .draining ∧
    (match exec (.retireLimitExpiry (ms 100) 1) (w0.setTable 1 { active := 1, st := .draining, infl0 := 1 }) with
      | .next v => (v.table 1).st
      | _ => .ready) = .copying := by decide +kernel

/-- An ALLOT_REVOKE of allotment 0 that is executing. -/
def wRevoke (n : Nat) : State :=
  let s := wa { al0 with st := .revoking, inflight := n, revokeBy := 5 }
  { s with kry := { s.kry with executing := some ⟨rq (zeros 8), some 0, .revoke 0 0 0⟩ },
           mem := { s.mem with live := if n = 0 then [] else one 0 { kind := .write, req := pr, allot := 0, home := 0 } } }

/-- A RELEASING allotment whose range of tray 0 is unzeroed. -/
def wReleasing : State :=
  let s := wa { al0 with place := 1, st := .releasing }
  { s with mem := { s.mem with dirty := [⟨0, ⟨4, 9⟩, 0, mib2⟩] } }

theorem test_wit_revoke :
    (wRevoke 0).kry.executing = some ⟨rq (zeros 8), some 0, .revoke 0 0 0⟩ ∧ (wRevoke 0).mem.live = [] ∧ (wRevoke 0).kry.ready = true ∧
    (wRevoke 0).portUp 512 = true ∧ (wRevoke 0).halted = false ∧ ((wRevoke 1).mem.live.map fun e => e.2.stage) = [0] ∧
    (wRevoke 1).mute (reqHost pr) = false ∧ 5 ≤ ((wRevoke 1).tick 5).now ∧ ((wRevoke 1).tick 4).now < 5 ∧
    (wRevoke 0).quiet ∧ (wRevoke 1).quiet ∧ wReleasing.quiet ∧ wReleasing.mem.dirty = [⟨0, ⟨4, 9⟩, 0, mib2⟩] ∧
    wReleasing.mem.trays = [(0, tr0)] ∧ rangeWrites wReleasing 0 ⟨0, ⟨4, 9⟩, 0, mib2⟩ = false ∧ wReleasing.trayDown 0 = false ∧
    tr0.base + tr0.length = 2 * mib2 ∧ ({ w0 with ports := [] } : State).trayDown 0 = true ∧ (wRevoke 0).plainPort 512 ∧
    0 ∉ ({ (wa al0).mem with xl0 := [], xl1 := [] }).xl0 := by
  unfold State.quiet State.calm State.still State.plainPort; decide +kernel

/-- 06 R189: nothing in flight ends the drain, and the backing is zeroed; the timeout ends what is. -/
theorem test_revoke :
    (match exec (.revokeDrainEnd 0 0) { wRevoke 0 with cis := { wLev.cis with pool := [(5, 1)] } } with
      | .next v => ((v.allot 0).map (·.st), v.cis.pool, v.kry.executing.isNone)
      | _ => (none, [], false)) = (some .releasing, [], true) ∧
    (match exec (.trayRangeZeroing 0 0) wReleasing with
      | .next v => (v.mem.dirty, v.out.length, (v.allot 0).map (·.zeroed))
      | _ => ([], 0, none)) = ([], 1, some true) ∧
    (match exec (.revokeTimeout 5 0) (wRevoke 1) with | .next v => (v.mem.live.length, v.out.length) | _ => (1, 0)) = (0, 2) := by
  decide +kernel

/-- Phase 1 of a request of host 5, from switch 3, epoch 2. -/
def ph0 : PhaseMsg := { src := 3, home := 3, phase := 1, epoch := 2, levee := 1, queue := 0, seq := 1, holds := 0, status := 0,
                        arg := zeros 16, data := [] }

/-- A message about a request of this home. -/
def phH : PhaseMsg := { ph0 with home := 0 }

def phd (epoch : Nat) : Phased := { home := 3, levee := 1, queue := 0, seq := 1, epoch := epoch, applied := [], holds := true }

/-- A copy of this home that waits for its source on switch 3. -/
def wPhase : State :=
  let s := wa al0
  let r := { pr with data := toBe 8 256 ++ bs [3, 0, 0, 0, 0, 0, 0, 0] }
  let j : Journal := { die := 0, levee := 1, host := ⟨4, 5⟩, queue := 0, seq := 1, opcode := 0xC3, phase := 1, members := [256 + 3, 256 + 0],
                       owner := 256 + 3, epoch := 2, deadline := 5, live := some 0, allot := 0, tile := 0 }
  { s with mem := { s.mem with journal := one 0 j, live := one 0 { kind := .copy, req := r, allot := 0, home := 0, journal := some 0 } } }

theorem test_wit_phases :
    w0.switchFenced 3 = false ∧ findPhased w0 ph0 = none ∧
    findPhased ({ w0 with mem := { w0.mem with phased := [phd 2] } }) ph0 = some (phd 2) ∧
    findPhased ({ w0 with mem := { w0.mem with phased := [phd 3] } }) ph0 = some (phd 3) ∧ ph0.epoch < (phd 3).epoch ∧
    (journalOf wPhase 0 phH).isSome = true ∧ ((journalOf wPhase 0 phH).map fun e => (e.2.owner, e.2.phase, e.2.live)) = some (259, 1, some 0) ∧
    wPhase.calm ∧ (∀ m ∈ [ph0, phH, { ph0 with phase := 2, epoch := 0x1234, seq := 2 ^ 47, queue := 9 }], (pkt m.bytes).phaseMsg 3 = m) ∧
    Tab.get? (phd 2).applied 1 = none ∧ Tab.get? ({ phd 2 with applied := [(1, some 0)] }).applied 1 = some (some 0) ∧ (wPhase.tick 4).now < 5 ∧ 5 ≤ (wPhase.tick 5).now ∧ 3 ≠ wPhase.sw.switchId.toNat := by
  unfold State.calm State.still; decide +kernel

/-- With no allotment translated every range lies elsewhere. -/
theorem test_wit_away (m : PhaseMsg) :
    translate w0 (w0.table 9).active m.levee (Config.phaseRange m.arg).1 (Config.phaseRange m.arg).2 = none := rfl

theorem test_wit_phase_copy : onCistern wPhase .copy { pr with data := toBe 8 256 ++ bs [3, 0, 0, 0, 0, 0, 0, 0] } 0 0 :=
  ⟨al0, by decide +kernel⟩

/-- 06 R211–R213: a phase done is acknowledged again, a member's reply is kept; the deadline asks the owner and issues the phase again. -/
theorem test_phases :
    (match exec (.pPhase 0 3 (pkt ph0.bytes)) { w0 with mem := { w0.mem with phased := [{ phd 2 with applied := [(1, some 0)] }] } } with
      | .next v => v.out.length
      | _ => 0) = 1 ∧
    (match exec (.pOwnerReply 0 3 (pkt { phH with holds := 1 }.bytes)) wPhase with
      | .next v => v.mem.journal.map fun e => (e.2.queries, e.2.replies)
      | _ => []) = [([], [(3, 1)])] ∧
    (match exec (.phaseDeadlineExpiry 5 0 0) wPhase with | .next v => v.out.length | _ => 0) = 2 := by decide +kernel

/-- A tile of page 0 being filled. -/
def wFill (p : Page) (use : TrayUse) (kind : TrayKind) : State :=
  { wPage p with mem := { (wPage p).mem with ops := one 0 { tray := 0, use := use, kind := kind, addr := 0, len := 4096, data := [], at_ := 0 } } }

theorem test_wit_tiles_quiet :
    (wPage pg0).quiet ∧ (wFill { pg0 with filling := 1 } (.fill 0 0) .read).quiet := by
  unfold State.quiet State.calm State.still; decide +kernel

theorem test_wit_tiles :
    (wPage pg0).allot 0 = some { al0 with place := 1 } ∧ (wPage pg0).page 0 0 = some pg0 ∧ (wPage pg0).trayDown 0 = false ∧
    (wFill { pg0 with filling := 1 } (.fill 0 0) .read).mem.ops.length = 1 ∧ Mem.wf (wPage pg0).cis.pool = true ∧
    ({ pg0 with dirty := 1, since := one 0 0 }).dirty.getLsbD 0 = true ∧
    0 + us (max 10 (Tab.getD (wPage pg0).cis.flushUs 0 0x3E8)) = us 1000 ∧
    ({ pg0 with dirty := 1, writing := 1, again := 1 }).again.getLsbD 0 = true ∧ (wPage pg0).pwr.level = 0 ∧
    pageBusy (wPage { pg0 with hint := 3, valid := 0xFFFF }) 0 0 = false ∧
    roomFor (wPage { pg0 with k := some 12, expanding := true }) 0 1 4 = true ∧
    ({ wPage pg0 with cis := { (wPage pg0).cis with quota := [] } }).quota 0 1 = 0 ∧
    ({ pg0 with valid := 1 }).valid.getLsbD 0 = true := by decide +kernel

/-- Table CIS-1: a fill makes its tile valid with the tray's bytes; a write-back leaves a tile written again dirty. -/
theorem test_tiles :
    (match exec (.writeBackComplete 0 0 0) (wFill { pg0 with valid := 1, dirty := 1, writing := 1, again := 1, since := one 0 0 } (.writeBack 0 0 false) .write) with
      | .next v => (v.page 0 0).map fun p => (p.dirty, p.writing)
      | _ => none) = some (1, 0) ∧
    (match exec (.writeBackComplete 0 0 0) (wFill { pg0 with valid := 1, dirty := 1, writing := 1, since := one 0 0 } (.writeBack 0 0 false) .write) with
      | .next v => (v.page 0 0).map fun p => (p.dirty, p.writing)
      | _ => none) = some (0, 0) ∧
    (match exec (.hbmUncorrectable 0 0 0) (wPage { pg0 with valid := 1, dirty := 1, since := one 0 0 }) with
      | .next v => v.isPoisoned 0 0
      | _ => false) = true ∧
    (match exec (.hbmUncorrectable 0 0 0) (wPage { pg0 with valid := 1 }) with
      | .next v => ((v.page 0 0).map (·.filling), v.isPoisoned 0 0)
      | _ => (none, true)) = (some 1, false) := by decide +kernel

/-- REGION_CREATE on allotment 0 (8 MiB), window 2 MiB. -/
def regBytes : Bytes := bs [0, 1, 0, 0, 0, 0, 0, 0] ++ toBe 8 mib2 ++ zeros 8

def alR : Allot := { al0 with size := 4 * mib2 }

def wReg : State := { wa alR with cis := { wLev.cis with quota := one 1 8 } }

/-- A region of 32 blocks on it, a READ handle in slot 0 and a STAGE handle in slot 1 of it. -/
def reg0 : Region := { die := 0, levee := 1, allot := 0, size := mib2, cur := 1, vers := one 1 (List.range 32) }

def hdl (stage : Bool) : Handle :=
  { gen := 1, region := 0, levee := 1, stage := stage, version := 1, map := if stage then (List.range 32).map (· + 32) else List.range 32,
    opener := ⟨4, 5⟩, isOpen := true }

def wRegion : State :=
  keyed { wReg with cis := { wReg.cis with regions := one 0 reg0, handles := [(0, hdl false), (1, hdl true)] } }

/-- REGION_PUBLISH of blocks 0 and 1 on version `v`. -/
def pubBytes (v : Nat) : Bytes := zeros 8 ++ toBe 8 (2 ^ 48 + 1) ++ toBe 6 v ++ zeros 2 ++ toBe 4 0 ++ toBe 4 2

theorem test_wit_regions :
    begins 0x0601 0 (rq regBytes) wReg = true ∧ plen (rq regBytes) = 24 ∧ regionOf wReg 0 = none ∧ 2 * be regBytes 8 8 ≤ alR.size ∧
    Tab.lowestFreeFrom wReg.cis.regions 0 4096 = some 0 ∧ roomFor wReg 0 1 (mapTiles mib2) = true ∧
    begins 0x0602 0 (rqL (zeros 16)) wRegion = true ∧ wRegion.region 0 = some reg0 ∧ Tab.get? reg0.vers 1 = some (List.range 32) ∧
    Tab.lowestFreeFrom wRegion.cis.handles 0 65536 = some 2 ∧ stages wRegion 0 = 1 ∧
    begins 0x0603 0 (rqL (toBe 8 (2 ^ 48))) wRegion = true ∧ findHandle wRegion (2 ^ 48) 1 = some (0, hdl false) ∧
    begins 0x0604 0 (rqL (pubBytes 1)) wRegion = true ∧ findHandle wRegion (be (pubBytes 1) 8 8) 1 = some (1, hdl true) ∧
    be (pubBytes 1) 16 6 = reg0.cur ∧ be (pubBytes 2) 16 6 ≠ reg0.cur ∧ begins 0x0604 0 (rqL (pubBytes 2)) wRegion = true ∧
    begins 0x0605 0 (rqL (zeros 8)) wRegion = true ∧ (wRegion.cis.handles.map (·.1)).Nodup := by decide +kernel

/-- A publication of blocks 0 and 1 whose handle's requests are done. -/
def wPublish : State := { wRegion with cis := { wRegion.cis with pub := some ⟨0, 1, 0, 2, 0⟩ } }

theorem test_wit_publish : wPublish.coh = {} ∧ wPublish.cis.prefetch = [] ∧ wPublish.mem.hosts = [] := by decide +kernel

/-- 07 R242: version 2 holds the staged blocks where they were published and version 1's elsewhere. -/
theorem test_publish :
    (match exec (.publishCommit 0 0) wPublish with
      | .next v => (v.region 0).map fun g => (g.cur, (Tab.getD g.vers 2 []).take 3)
      | _ => none) = some (2, [32, 33, 2]) := by decide +kernel

/-! ### 08: coherence -/

def ag (ip qpn : Nat) : Agent := ⟨0, ⟨4, ip⟩, qpn, true⟩

/-- Domain 0 of levee 1 with agents 0 (host 5) and 1 (host 6), over a coherent allotment. -/
def wCoh : State :=
  { wa { al0 with flags := 1 } with coh := { State.reset.coh with domains := one 0 { levee := 1, mode := 0, tc := 0, agents := [(0, ag 5 7), (1, ag 6 8)] } } }

theorem test_wit_coherence_commands :
    begins 0x0701 0 (rq (bs [0, 1, 2, 7, 0, 0, 0, 0] ++ zeros 8)) wCoh = true ∧ Tab.lowestFree wCoh.coh.domains 64 = some 1 ∧
    wCoh.admitted 1 = true ∧ wCoh.retiring 1 = false ∧
    begins 0x0702 0 (rq (bs [0, 4, 0, 0] ++ zeros 12 ++ toBe 4 9 ++ zeros 4)) wCoh = true ∧ (wCoh.domain 0).isSome = true ∧
    wCoh.addrFenced ⟨4, 9⟩ = false ∧
    Tab.lowestFree ((((wCoh.domain 0).map (·.agents)).getD []).filter fun e => e.2.live) 4096 = some 2 ∧
    begins 0x0704 0 (rq (bs [0, 2, 0, 0, 0, 0, 0, 0])) wCoh = true ∧ begins 0x0705 0 (rq (zeros 8)) wCoh = true ∧
    begins 0x0703 0 (rq (zeros 8)) wCoh = true ∧ wCoh.agent 0 0 = some (ag 5 7) ∧ (lineHome wCoh (lineKey 0 0)).2 = 0 := by decide +kernel

/-- A directory entry of line 0. -/
def wDir (e : DirEntry) : State := { wCoh with coh := { wCoh.coh with dir := one (lineKey 0 0) e } }

/-- 08 R268: a dead owner's line is lost, a dead sharer's is dropped, another agent's stays. -/
theorem test_agent_dead :
    (match exec (.agentDead 0 (rq (zeros 8))) (wDir { st := .owned, pred := 0, owner := 0 }) with
      | .next v => (lineLost v (lineKey 0 0), v.coh.dir.length)
      | _ => (false, 9)) = (true, 0) ∧
    (match exec (.agentDead 0 (rq (zeros 8))) (wDir { st := .shared, pred := 0, ptrs := [0] }) with
      | .next v => (lineLost v (lineKey 0 0), v.coh.dir.length)
      | _ => (true, 9)) = (false, 0) ∧
    (match exec (.agentDead 0 (rq (zeros 8))) (wDir { st := .owned, pred := 0, owner := 1 }) with
      | .next v => (lineLost v (lineKey 0 0), v.coh.dir.length)
      | _ => (true, 9)) = (false, 1) := by decide +kernel

/-- A message of agent 0 about line 0. -/
def cm : CohMsg :=
  { die := 0, levee := 1, srcIp := ⟨4, 5⟩, srcQp := 7, port := 0, cls := 0, ver := 0, flags := 0, domain := 0, status := 0, agent := 0, agen := 0, txn := 2,
    snoopId := 0, op := 1, offset := 248, pva := 0, value := 0, data := List.replicate 256 1 }

/-- The packet of a message of agent 0 (08 Table COH-3). -/
def cpk (type : Nat) (m : CohMsg) : Packet :=
  { pkt (m.bytes type) with net := { (default : Net) with srcIp := ⟨4, 5⟩, srcQp := 7 } }

/-- 08 R252: the header's fields lie where Table COH-3 puts them. -/
theorem test_coherence_header :
    (∀ m ∈ [cm, { cm with snoopId := 3, flags := 1, pva := 2 ^ 63, value := 2 ^ 40, agen := 0xFFFF, agent := 0x1234, status := 9 }],
      (cpk 1 m).cohMsg = m) ∧ (CohMsg.bytes 0x30 cm).length = 288 ∧ byteAt (CohMsg.bytes 0x30 cm) 0 = 0x30 ∧
    be (CohMsg.bytes 0x30 cm) 8 2 = 2 := by decide +kernel

theorem test_wit_still : wCoh.still ∧ (wDir { st := .shared, pred := 0 }).still := by
  unfold State.still; decide +kernel

theorem test_wit_coherence :
    (∀ type < 256, findResult wCoh type cm = none) ∧
    wCoh.domain 0 = some { levee := 1, mode := 0, tc := 0, agents := [(0, ag 5 7), (1, ag 6 8)] } ∧ wCoh.agent 0 0 = some (ag 5 7) ∧
    (ag 5 7).gen = cm.agen ∧ (ag 5 7).qpn = cm.srcQp ∧ (ag 5 7).addr = cm.srcIp ∧ (ag 5 7).addr ≠ ({ cm with srcIp := ⟨4, 8⟩ }).srcIp ∧
    cm.pva = al0.pva + 256 * 0 ∧ translate wCoh 0 1 0 256 = some 0 ∧ wCoh.confidential 1 = false ∧
    wCoh.mute (ag 5 7).addr = false ∧ Mem.wf wCoh.cis.pool = true ∧ cm.data.length = 256 ∧ cm.offset % 8 = 0 ∧ laterTxn 2 1 = true ∧
    wCoh.mem.live = [] ∧ wCoh.coh.trans = [] ∧ wCoh.coh.lost = [] := by decide +kernel

/-- 08 Table COH-6: a read starts a transaction; a full write reaches memory; an upgrade by the one sharer is granted; the
owner's write-back frees the line. -/
theorem test_coherence :
    (match exec (.cRdShared 0 (cpk 1 cm)) wCoh with | .next v => (v.coh.trans.length, v.out.length) | _ => (0, 9)) = (1, 0) ∧
    (match exec (.cWriteFull 0 (cpk 5 cm)) wCoh with | .next v => (v.coh.trans.length, v.out.length, v.cis.pool.read 255) | _ => (9, 0, 0)) = (0, 1, 1) ∧
    (match exec (.cUpgrade 0 (cpk 3 cm)) (wDir { st := .shared, pred := 0, ptrs := [0] }) with
      | .next v => (v.entry (lineKey 0 0)).map fun e => (e.st, e.owner)
      | _ => none) = some (.owned, 0) ∧
    (match exec (.cWb 0 (cpk 0x18 cm)) (wDir { st := .owned, pred := 0, owner := 0, ownTxn := 1 }) with
      | .next v => (v.coh.dir.length, v.cis.pool.read 255)
      | _ => (9, 0)) = (0, 1) ∧
    (match exec (.cEvictClean 0 (cpk 6 cm)) (wDir { st := .shared, pred := 0, ptrs := [0] }) with | .next v => v.coh.dir.length | _ => 9) = 0 := by
  decide +kernel

/-- The live request of a message of `m`. -/
def lc (type : Nat) (m : CohMsg) : Live := { kind := .coh type, req := pr, coh := some m, allot := 0, home := 0 }

/-- Line 0 under a transaction of agent 0 that waits for memory. -/
def wReading (type : Nat) (near : Bool) : State :=
  let t : Trans := { die := 0, domain := 0, work := .agent 5 type, tracker := some 0, near := near, stage := 2, reading := true, tried := true }
  let s := wDir { st := .shared, pred := 0 }
  { s with coh := { s.coh with trans := one (lineKey 0 0) t }, mem := { s.mem with live := one 5 (lc type cm) } }

theorem test_wit_memory_read :
    (wReading 1 false).mem.live = [(5, lc 1 cm)] ∧ (wReading 1 false).coh.dieQ = [] ∧ (wReading 1 false).coh.snoops = [] ∧
    (wReading 1 false).coh.dir = [(lineKey 0 0, { st := .shared, pred := 0 })] ∧ cm.offset ≤ 248 ∧ Mem.wf (wReading 4 true).cis.pool = true := by
  decide +kernel

/-- 08 Table COH-6: who holds the line at the end of its read. -/
theorem test_memory_read :
    (match exec (.memoryReadComplete 0 0 (lineKey 0 0)) (wReading 1 false) with
      | .next v => ((v.entry (lineKey 0 0)).map fun e => (e.st, e.ptrs), v.out.length)
      | _ => (none, 0)) = (some (.shared, [0]), 1) ∧
    (match exec (.memoryReadComplete 0 0 (lineKey 0 0)) (wReading 2 false) with
      | .next v => (v.entry (lineKey 0 0)).map fun e => (e.st, e.owner, e.ownTxn)
      | _ => none) = some (.owned, 0, 2) ∧
    (match exec (.memoryReadComplete 0 0 (lineKey 0 0)) (wReading 4 true) with
      | .next v => ((v.entry (lineKey 0 0)).isNone, le (readPool v 0 248 8) 0 8)
      | _ => (false, 0)) = (true, le (List.replicate 8 (1 : Byte)) 0 8) := by decide +kernel

/-- Line 0 with a snoop of agent 0 out, for a request of agent 1. -/
def wSnoop (e : DirEntry) (type : Nat) (sent : Option Time) : State :=
  let t : Trans := { die := 0, domain := 0, work := .agent 5 2, tracker := some 3, need := [0] }
  let n : Snoop := { die := 0, line := lineKey 0 0, domain := 0, agent := 0, type := type, sent := sent }
  let s := wDir e
  { s with coh := { s.coh with trans := one (lineKey 0 0) t, snoops := one (snoopKey 0 3 0) n,
                               grants := one (lineKey 0 0) [⟨0, 0, true, 0⟩] },
           mem := { s.mem with live := one 5 (lc 2 { cm with agent := 1 }) } }

theorem test_wit_snoop :
    (Tab.get? (wSnoop { st := .owned, pred := 0, owner := 0 } 0x21 (some 0)).coh.snoops (snoopKey 0 3 0)).isSome = true ∧
    ({ cm with agent := 1 }).agent ≠ cm.agent ∧ bitOf cm.flags 0 = false ∧ bitOf ({ cm with flags := 1 }).flags 0 = true ∧
    0 + us (max 1 (Tab.getD wCoh.coh.retxUs 0 0x14)) = us 20 ∧ 0 < max 1 (Tab.getD wCoh.coh.limit 0 0x32) ∧
    (wCoh.tick (us 20 - 1)).now < 0 + us 20 ∧ (wCoh.tick (ns 512 - 1)).now < 0 + ns 512 ∧ 0 + ns 512 ≤ (wCoh.tick (ns 512)).now := by
  decide +kernel

/-- 08 R262, R263, R267: data goes to memory, an acknowledgement lets the request go on, the rest is sent again or later. -/
theorem test_snoop :
    (match exec (.cSnpData 0 (cpk 0x10 { cm with snoopId := 3 })) (wSnoop { st := .owned, pred := 0, owner := 0 } 0x21 (some 0)) with
      | .next v => (v.coh.snoops.length, v.cis.pool.read 255, (v.trans (lineKey 0 0)).map (·.reading))
      | _ => (9, 0, none)) = (0, 1, some true) ∧
    (match exec (.cSnpAck 0 (cpk 0x11 { cm with snoopId := 3 })) (wSnoop { st := .shared, pred := 0, ptrs := [0] } 0x20 (some 0)) with
      | .next v => (v.coh.snoops.length, (v.trans (lineKey 0 0)).map (·.reading))
      | _ => (9, none)) = (0, some true) ∧
    (match exec (.snoopRetransmit (us 20) 0 (3 * 4096)) (wSnoop { st := .shared, pred := 0, ptrs := [0] } 0x20 (some 0)) with
      | .next v => v.out.length
      | _ => 9) = 1 ∧
    (match exec (.snoopRetransmit (us 20 - 1) 0 (3 * 4096)) (wSnoop { st := .shared, pred := 0, ptrs := [0] } 0x20 (some 0)) with
      | .next v => v.out.length
      | _ => 9) = 0 ∧
    (match exec (.holdWindowExpiry (ns 512) 0 (lineKey 0 0)) (wSnoop { st := .shared, pred := 0, ptrs := [0] } 0x20 none) with
      | .next v => v.out.length
      | _ => 9) = 1 := by decide +kernel

/-! ### 09, 10: flumes and basins -/

/-- FLUME_QUEUE_CREATE: levee 1, depth 1, one tile per slot, slots on basins 0 and 64, IPv4, no send entry. -/
def queueBytes : Bytes :=
  bs [0, 1, 0, 1, 0, 1, 0, 2, 0] ++ zeros 7 ++ bs [4, 0, 0, 0] ++ zeros 12 ++ toBe 4 9 ++ toBe 6 1 ++ zeros 6 ++ bs [0, 64] ++ zeros 510

theorem test_wit_queue_create :
    begins 0x0801 0 (rq queueBytes) wLev = true ∧ plen (rq queueBytes) = 560 ∧ byteAt queueBytes 8 = 0 ∧ byteAt queueBytes 16 = 4 ∧
    be queueBytes 20 12 = 0 ∧ byteAt queueBytes 48 = 0 ∧ byteAt queueBytes 49 = 64 ∧ (∀ x ∈ slice queueBytes 304 256, x = 0) ∧
    1 ≤ (freeTiles wLev 64).length ∧ Tab.lowestFree wLev.flm.queues 4096 = some 0 := by decide +kernel

/-- A queue of two slots of two tiles each, on basins 0 and 1. -/
def que0 : Queue :=
  { levee := 1, depth := 2, ntiles := 2, slots := [{ basin := 0, tiles := [0, 1] }, { basin := 1, tiles := [0, 1] }], sends := [], srcIp := ⟨4, 1⟩,
    srcMac := 1 }

/-- `wa al0` with that queue, turn counter 0 at 5, and store memory `m`. -/
def wQ (m : Mem) : State :=
  { wa al0 with flm := { State.reset.flm with queues := one 0 que0, turns := one 0 { levee := 1, value := 5 } },
                bsn := { State.reset.bsn with owner := [(0, 0), (1, 0), (512, 0), (513, 0)], store := m } }

theorem test_wit_flume_commands :
    begins 0x0802 0 (rq (zeros 8)) (wQ []) = true ∧ (wQ []).queue 0 = some que0 ∧ (wQ []).kry.deferred = [] ∧
    begins 0x0803 0 (rq (bs [0, 1, 0, 0, 0, 0, 0, 2] ++ zeros 8)) (wQ []) = true ∧ (wQ []).turn 1 = none ∧
    begins 0x0803 0 (rq (bs [0, 1, 0, 1, 0, 0, 0, 1] ++ zeros 8)) (wQ []) = true ∧ turnWaited (wQ []) 0 = false ∧
    begins 0x0804 0 (rq (bs [0, 0, 0, 1, 0, 0, 0, 9])) (wQ []) = true ∧ (wQ []).turn 0 = some { levee := 1, value := 5 } ∧
    begins 0x0805 0 (rq (bs [0xFF, 0xFF, 0, 0, 0, 0, 1, 0])) (wQ []) = true ∧
    begins 0x0806 0 (rq (bs [0, 255, 0, 0, 0, 0, 0, 0])) (wQ []) = true := by decide +kernel

/-- 10 R312, R345: the queue holds a tile of each basin; two counters come from one run after the one in use. -/
theorem test_flume_commands :
    (match exec (.flumeQueueCreate 0 (rq queueBytes)) wLev with
      | .next v => ((v.queue 0).map fun q => q.slots.map fun x => (x.basin, x.tiles.length), v.bsn.owner.length)
      | _ => (none, 0)) = (some [(0, 1), (64, 1)], 2) ∧
    (match exec (.turnAlloc 0 (rq (bs [0, 1, 0, 0, 0, 0, 0, 2] ++ zeros 8))) (wQ []) with
      | .next v => v.flm.turns.map (·.1)
      | _ => []) = [0, 1, 2] ∧
    (match exec (.flumeQueueDestroy 0 (rq (zeros 8))) (wQ []) with
      | .next v => (v.flm.queues.length, v.bsn.owner.length)
      | _ => (9, 9)) = (0, 0) := by decide +kernel

/-- A descriptor: operation, FLAGS, A, B, D, and bytes 40 on. -/
def dsc (op flags a b d : Nat) (rest : Bytes) : Bytes :=
  toLe 1 op ++ toLe 1 flags ++ zeros 6 ++ toLe 8 a ++ toLe 8 b ++ toLe 8 d ++ zeros 8 ++ slice (rest ++ zeros 24) 0 24

/-- The address word that names nothing. -/
def nw : Nat := 15 * 2 ^ 60

/-- LOAD of 4 bytes from 0 to 4096. -/
def dLoad : Bytes := dsc 1 0 0 nw 4096 (toLe 4 4)

/-- A post of SEQ 1 to slot 0 with the descriptors inline. -/
def post (ds : Bytes) : Post :=
  { queue := 0, levee := 1, port := 0, net := { (default : Net) with srcIp := ⟨4, 5⟩ }, cls := 0, ver := 0,
    payload := toBe 6 1 ++ bs [1, 0] ++ toBe 4 (ds.length / 64) ++ zeros 20 ++ ds }

/-- One of two descriptors at 0 of the pool. -/
def postPool : Post := { post [] with payload := toBe 6 1 ++ bs [0, 0xFF] ++ toBe 4 2 ++ zeros 20 }

theorem test_wit_post :
    postOk que0 (post dLoad).payload = true ∧ (wQ []).mute (post dLoad).net.srcIp = false ∧ que0.levee = (post dLoad).levee ∧
    postOk que0 postPool.payload = true ∧ postOk que0 (zeros 32) = false ∧ (zeros 32).length = 32 ∧
    ({ que0 with depth := 0 }).depth ≤ ((wQ []).flm.chains.filter fun e => e.2.queue == 0).length := by decide +kernel

/-- A chain of queue 0, slot 0, with descriptor 0 `d` of `n`. -/
def chn (st : ChainState) (d : Bytes) (n : Nat) : Chain :=
  { queue := 0, slot := 0, st := st, post := post d, seq := 1, count := n, flags := 1, retQp := 0, pva := 0, handle := 0, ver := 0,
    descs := one 0 d }

/-- That chain as chain 3 of the queue, basin 0 as given. -/
def wChain (c : Chain) (b : Basin) (m : Mem) : State :=
  let s := wQ m
  { s with flm := { s.flm with chains := one 3 c, nextChain := 4 }, bsn := { s.bsn with tab := one 0 b } }

/-- A poster whose SEQ 1 has a record. -/
def pst : Poster := { ip := ⟨4, 5⟩, high := 1, live := [], cache := one 1 (zeros 32), last := 0 }

theorem test_wit_chains :
    postPos pst.high 1 = .inside ∧ Tab.get? pst.cache 1 = some (zeros 32) ∧ 1 ∉ pst.live ∧ pst.last + sec 1 ≤ ((wQ []).tick (sec 1)).now ∧
    (let c := { chn .waiting [] 2 with flags := 0, descs := [] }
     let s := wChain c {} []
     Tab.get? c.fetched (tileKeyOf c 0) = none ∧ s.cis.onceTiles = [] ∧ poolSumOk s 0 0 = true ∧ c.pva % 64 = 0 ∧ bitOf c.flags 0 = false) ∧
    chainsOn (wChain (chn .waiting dLoad 1) { power := .active } []) 0 = [(3, chn .waiting dLoad 1)] ∧
    que0.slots[0]? = some { basin := 0, tiles := [0, 1] } ∧ waitsPrior dLoad = false ∧ byteAt dLoad 0 = 1 ∧
    byteAt (dsc 0x14 0 nw nw nw []) 0 = 0x14 ∧ 0 < ({ chn .ready dLoad 2 with applied := 1, unacked := 1 }).applied ∧
    (wChain (chn .ended dLoad 1) {} []).mute (chn .ended dLoad 1).post.net.srcIp = false ∧
    (∀ e ∈ (wChain (chn .ended dLoad 1) {} []).bsn.tab, e.2.tagged = []) := by decide +kernel

theorem test_wit_fetch :
    onCistern (wChain { chn .waiting [] 2 with flags := 0, descs := [] } {} []) .read
      (flumeReq (wChain { chn .waiting [] 2 with flags := 0, descs := [] } {} []) { chn .waiting [] 2 with flags := 0, descs := [] } que0 0 4096 []) 0 0 :=
  ⟨al0, by decide +kernel⟩

/-- 10 R318, R343: a post starts a chain, which begins on its basin; its end leaves a record; a duplicate is answered. -/
theorem test_chains :
    (match exec (.flumePost 0 (post dLoad)) (wQ []) with
      | .next v => (v.chain 0).map fun c => (c.st, c.slot, c.count)
      | _ => none) = some (.waiting, 0, 1) ∧
    (match exec (.descriptorBegin 0 0) (wChain (chn .waiting dLoad 1) { power := .active } []) with
      | .next v => ((v.basin 0).current, (v.chain 3).map (·.st))
      | _ => (none, none)) = (some 3, some .running) ∧
    (match exec (.descriptorBegin 0 0) (wChain (chn .waiting (dsc 0x14 0 nw nw nw []) 1) { power := .active } []) with
      | .next v => (v.chain 3).map fun c => (c.st, c.status)
      | _ => none) = some (.ended, 0x11) ∧
    (match exec (.chainCompletion 0 3) (wChain (chn .ended dLoad 1) {} []) with | .next v => (v.flm.chains.length, v.out.length) | _ => (9, 9)) =
      (0, 1) := by decide +kernel

/-- The running chain of one descriptor `d`. -/
def wRun (d : Bytes) (n : Nat) (m : Mem) : State := wChain (chn .running d n) { power := .active, current := some 3 } m

theorem test_wit_executes :
    executes (wRun dLoad 1 []) 0 3 (chn .running dLoad 1) que0 { basin := 0, tiles := [0, 1] } dLoad ∧
    (answers (wRun dLoad 1 []) { basin := 0, tiles := [0, 1] } 0 (opLoad (flumeCtx (wRun dLoad 1 []) (chn .running dLoad 1) que0 dLoad)) [] 2).isSome = true ∧
    (opOf 1).isSome = true :=
  ⟨⟨by decide +kernel, by decide +kernel, rfl, by decide +kernel, fun _ => rfl, by decide +kernel, by decide +kernel, rfl, rfl,
    by decide +kernel, rfl, by decide +kernel, rfl, rfl, by decide +kernel⟩, by decide +kernel, by decide +kernel⟩

/-- 10 R330, R344, R345: LOAD copies, SKIP passes over, TURN_SIGNAL adds, TURN_WAIT waits. -/
theorem test_executes :
    (match exec (.load 0 0) (wRun dLoad 1 [(0, 1), (3, 4)]) with
      | .next v => (readStore v 0 4096 4, (v.chain 3).map fun c => (c.st, c.status, c.index))
      | _ => ([], none)) = (bs [1, 0, 0, 4], some (.ended, 0, 1)) ∧
    (match exec (.skip 0 0) (wRun (dsc 0x13 0 nw nw nw (toLe 4 5 ++ toLe 2 0 ++ toLe 2 1 ++ bs [0, 0])) 3 []) with
      | .next v => (v.chain 3).map fun c => (c.idx, c.st, c.skipped)
      | _ => none) = some (2, .ready, 1) ∧
    (match exec (.turnSignal 0 0) (wRun (dsc 0x12 0 nw nw nw (toLe 4 3)) 2 []) with | .next v => (v.turn 0).map (·.value) | _ => none) =
      some 8 ∧
    (match exec (.turnWait 0 0) (wRun (dsc 0x11 0 nw nw nw (toLe 4 6 ++ zeros 4 ++ toLe 4 10)) 2 []) with
      | .next v => (v.chain 3).map (·.st)
      | _ => none) = some (.turnWait 0 6 (some (us 10))) := by decide +kernel

/-- 10 R324: a destination beyond the window of two tiles. -/
theorem test_bad_address :
    (match exec (.load 0 0) (wRun (dsc 1 0 0 nw 8192 (toLe 4 4)) 1 []) with
      | .next v => (v.chain 3).map fun c => (c.st, c.status)
      | _ => none) = some (.ended, 0x11) := by decide +kernel

/-- The chain waits on counter 0 for `target`, until 7. -/
def wTurn (target : Nat) : State := wChain (chn (.turnWait 0 target (some 7)) (dsc 0x11 0 nw nw nw (toLe 4 target)) 1) { power := .active } []

theorem test_wit_turns :
    turnReached 5 5 = true ∧ turnReached 5 6 = false ∧ turnReached 0 (2 ^ 32 - 1) = true ∧ turnReached (2 ^ 31) 0 = false ∧
    (wTurn 5).turn 0 = some { levee := 1, value := 5 } ∧ ((wTurn 6).tick 7).now ≤ 7 ∧ 7 < ((wTurn 6).tick 8).now := by decide +kernel

theorem test_turns :
    (match exec (.turnWaitSatisfied 0 3) (wTurn 5) with | .next v => (v.chain 3).map fun c => (c.st, c.value) | _ => none) = some (.ended, 5) ∧
    (match exec (.turnWaitTimeout 8 3) (wTurn 6) with | .next v => (v.chain 3).map fun c => (c.st, c.status) | _ => none) =
      some (.ended, 0x40) ∧
    (match exec (.turnWaitTimeout 7 3) (wTurn 6) with | .next v => (v.chain 3).map fun c => c.st | _ => none) =
      some (.turnWait 0 6 (some 7)) := by decide +kernel

/-- Slot 0 of the queue on a basin held out of service, or being copied to basin 2. -/
def wMove (mv : Option Nat) (m : Mem) : State :=
  let s := wQ m
  { s with flm := { s.flm with queues := one 0 { que0 with slots := [{ basin := 0, tiles := [0, 1], moving := mv }] } },
           bsn := { s.bsn with tab := one 0 { quar := .heldOut }, owner := [(0, 0), (1, 0)] ++ (if mv.isSome then [(1024, 0), (1025, 0)] else []) } }

theorem test_wit_moves :
    moveTarget (wMove none []) { que0 with slots := [{ basin := 0, tiles := [0, 1] }] } { basin := 0, tiles := [0, 1] } = some 1 ∧
    (wMove none []).basin 0 = { quar := .heldOut } ∧
    ((List.range 512).filter fun n => Tab.get? (wMove (some 2) []).bsn.owner (2 * 512 + n) == some 0).take 2 = [0, 1] ∧
    Mem.wf (wMove (some 2) [(5, 7)]).bsn.store = true ∧ [0, 1].Nodup := by decide +kernel

/-- 10 R315: the slot begins to move. -/
theorem test_moves :
    (match exec (.slotMove 0 0 0) (wMove none []) with
      | .next v => (v.queue 0).map fun q => q.slots.map fun x => (x.basin, x.moving, x.lost)
      | _ => none) = some [(0, some 1, false)] := by decide +kernel

/-- An operation of chain 3 tagged by a dip window on basin 0. -/
def tg : Tagged := ⟨.desc 3 0, false, true, [(4096, bs [1])], []⟩

theorem test_wit_replay :
    (wChain (chn .ended dLoad 1) { replaying := true, tagged := [tg], taint := [1] } []).basin 0 =
      { replaying := true, tagged := [tg], taint := [1] } ∧ tg.lost = false ∧ tg.outbound = [] ∧
    ({ tg with lost := true }).lost = true ∧ (chn .ended dLoad 1).status ≠ St.dipRetry := by decide +kernel

theorem test_replay :
    (match exec (.windowReplay 0 0) (wChain (chn .ended dLoad 1) { power := .active, replaying := true, tagged := [tg], taint := [1] } []) with
      | .next v => ((v.basin 0).tagged, (v.basin 0).replaying, (v.chain 3).map (·.replayed))
      | _ => ([], true, none)) = ([], false, some true) := by decide +kernel

/-- What cannot be replayed ends DIP_RETRY, and the tile it wrote without an undo copy is tainted. -/
theorem test_dip_retry :
    (match exec (.windowReplay 0 0) (wChain (chn .waiting dLoad 2) { power := .active, replaying := true, tagged := [{ tg with lost := true }] } []) with
      | .next v => ((v.basin 0).taint, (v.chain 3).map fun c => (c.st, c.status, c.index))
      | _ => ([], none)) = ([1], some (.ended, St.dipRetry, 0)) := by decide +kernel

/-- A waking basin for which a write of another basin waits. -/
def wMail : State := wChain { chn .running dLoad 2 with unacked := 1 } { power := .waking, mail := [.peerWrite 3 0 4096 (bs [9])] } []

theorem test_wit_mail :
    (wMail.basin 0).mail = [.peerWrite 3 0 4096 (bs [9])] ∧ wMail.pwr.window = false ∧ (wMail.chain 3).isSome = true ∧
    que0.slots[0]? = some { basin := 0, tiles := [0, 1] } ∧ wMail.col.groups = [] := by decide +kernel

/-- 01 R34: it is made once the basin is awake. -/
theorem test_mail :
    (match exec (.basinWake 0 0) wMail with
      | .next v => (readStore v 0 4096 1, (v.basin 0).mail, (v.chain 3).map (·.unacked))
      | _ => ([], [], none)) = (bs [9], [], some 0) := by decide +kernel

/-- A check of basin 0 that a result of 4 bytes waits for. -/
def xc (c : Option Nat) : XCheck :=
  { queue := 0, levee := 1, idx := 0, desc := dLoad, tile := 0, result := bs [1, 0, 0, 0], operands := [], depends := 16777216, checking := c }

def wB (b : Basin) : State := { wQ [] with bsn := { (wQ []).bsn with tab := one 0 b } }

theorem test_wit_basins :
    basinWork (wB { power := .active }) 0 = false ∧ (wB { power := .active }).basin 0 = { power := .active } ∧
    0 + clockGateAfter (wB {}) {} = 2048 ∧ ((wB {}).tick 2047).now < 2048 ∧ ({} : Basin).idlePg ≠ 0 ∧
    basinWork (wChain (chn .waiting dLoad 1) {} []) 0 = true ∧ (checkingBasin (wB { check := some (xc none) }) 0).isSome = true ∧
    (thirdBasin (wB { check := some (xc (some 64)) }) 0 64).isSome = true ∧ (xc none).depends ≤ 16777216 ∧
    16777216 < ({ xc none with depends := 16777217 }).depends ∧ toLe 4 1 = (xc none).result ∧ toLe 4 2 ≠ (xc none).result ∧
    (wB {}).hlt.suspects = [] ∧ 1 < (wB {}).hlt.quarCount.toNat ∧ 0 + ms 1 ≤ ((wB {}).tick (ms 1)).now := by decide +kernel

/-- 09 R306, R308: gating, waking, and a check that names the checking basin. -/
theorem test_basins :
    (match exec (.basinClockGate 2048 0) (wB { power := .active }) with | .next v => (v.basin 0).power | _ => .off) = .clockGated ∧
    (match exec (.basinClockGate 2047 0) (wB { power := .active }) with | .next v => (v.basin 0).power | _ => .off) = .active ∧
    (match exec (.basinWake 0 0) (wChain (chn .waiting dLoad 1) { power := .powerGated } []) with | .next v => (v.basin 0).power | _ => .off) = .waking ∧
    (match exec (.xcheckComplete 0 0 2 1) (wB { check := some (xc (some 64)) }) with
      | .next v => ((v.basin 0).suspect, (v.basin 64).suspect, (v.basin 0).check.isNone)
      | _ => (9, 9, false)) = (0, 1, true) ∧
    (match exec (.xcheckComplete 0 0 1 1) (wB { check := some (xc (some 64)) }) with
      | .next v => ((v.basin 0).checks, (v.basin 64).suspect)
      | _ => (9, 9)) = (1, 0) := by decide +kernel

/-! ### 09: formats -/

/-- 09 R278: an FP4 value pair in one byte, the first in the low half. -/
theorem test_pack : pack 0x09 [1, 2] = bs [0x21] := by decide +kernel

theorem test_wit_formats :
    fmtBits 0x0C = 32 ∧ (decElem 0 0).isNan = false ∧ elemOf 0 = some 1 ∧ (encFrw4 none 127 (List.replicate 256 (Num.ofInt 0))).length = 144 ∧
    accInt 2147483647 [1] = (2147483647, true) ∧ accInt (-2147483648) [-1] = (-2147483648, true) ∧ accInt 2147483646 [1] = (2147483647, false) ∧
    topK false 3 2 (fun i => Num.ofInt ([5, 7, 7].getD i 0)) = [1, 2] ∧ topK true 3 1 (fun i => Num.ofInt ([5, 7, 5].getD i 0)) = [0] := by
  decide +kernel

/-- The context of a descriptor on slot 0 of `wQ`. -/
def cx (d : Bytes) (idx : Nat) : FCtx := flumeCtx (wQ []) { chn .running d 4 with idx := idx, value := 7 } que0 d

theorem test_wit_operations :
    (cx dLoad 0).status ⟨0, 0, 4092, 4⟩ = St.ok ∧ (cx dLoad 0).p 40 4 = 4 ∧ (cx dLoad 0).chain = none ∧
    (cx (dsc 0x11 3 nw nw nw (toLe 4 6)) 0).counter 0 = some 5 ∧ (cx (dsc 0x11 3 nw nw nw (toLe 4 6)) 0).p 1 1 = 3 ∧
    (cx (dsc 0x12 0 nw nw nw (toLe 4 (2 ^ 31 - 1))) 0).p 40 4 = 2 ^ 31 - 1 ∧
    (cx (dsc 0x13 0 nw nw nw (toLe 4 7 ++ zeros 2 ++ toLe 2 1 ++ bs [2, 5])) 1).prev = some 7 ∧
    (cx (dsc 0x13 0 nw nw nw (toLe 4 7 ++ zeros 2 ++ toLe 2 1 ++ bs [2, 5])) 1).p 49 1 = 5 ∧
    bitOf ((cx dLoad 0).p 1 1) 2 = false ∧ bitOf ((cx dLoad 0).p 1 1) 3 = false ∧ (cx dLoad 0).p 2 4 = 0 ∧
    (cx (splice dLoad 32 (toLe 8 1)) 0).sr = false ∧ (cx (splice dLoad 32 (toLe 8 1)) 0).p 32 8 ≠ 0 := by decide +kernel

/-- 10 R323: a SEED without SR is refused. -/
theorem test_seed :
    (match opLoad (cx (splice dLoad 32 (toLe 8 1)) 0) [] with | .error (.fail st _) => st | _ => 0) = St.badParam ∧
    (match opLoad (cx dLoad 0) [] with | .error (.fail st _) => st | _ => 0) = 0 := by decide +kernel

/-- 09 R286: the block CRC over the ASCII bytes "123456789" gives 0xD0DB. -/
theorem test_crc16 : crc16 (ascii "123456789") = 0xD0DB := by decide +kernel

/-- 09, worked example: scale 0x7E and the nibbles 6, A, 0, 2 of 0.8125, −0.296875, 0.046875 and 0.1875. -/
theorem test_frw4 :
    (let b := encFrw4 none 0 ([.fin false 13 (-4), .fin true 19 (-6), .fin false 3 (-6), .fin false 3 (-4)] ++ List.replicate 252 .zero)
     (byteAt b 8, byteAt b 16, byteAt b 17)) = (0x7E, 0xA6, 0x20) := by decide +kernel

/-- 10 R346: a signal in the cycle of a TURN_SET is applied after the set. -/
theorem test_turn_set_same_cycle :
    (match exec (.turnSet 0 (rq (bs [0, 0, 0, 1, 0, 0, 0, 9]))) (turnAdd 0 4 (wQ [])) with
      | .next v => (v.turn 0).map (·.value)
      | _ => none) = some 13 := by decide +kernel

/-! ### 11: collectives -/

/-- GROUP_CREATE of hosts 5 and 6 on queue 0 and WORK 0: every kind, counter 0, one tensor, RETX_US 10. -/
def groupBytes : Bytes :=
  bs [0, 1, 0, 0, 0, 2, 0x7F, 1, 0, 0, 0, 0, 0, 1, 0, 10] ++ toBe 8 0 ++ toBe 8 1024 ++ toBe 8 65536 ++ toBe 8 65536 ++ zeros 32 ++
    toBe 4 5 ++ toBe 4 0x700 ++ toBe 4 6 ++ toBe 4 0x800

def gr0 : Group := parseGroup groupBytes

/-- `wQ []` with that group, and operations `os` of it. -/
def wGroup (os : List ColOp) : State :=
  let s := wQ []
  { s with col := { s.col with groups := one 0 { gr0 with ops := os } }, flm := { s.flm with queues := one 0 { que0 with group := some 0 } },
           mem := { s.mem with allots := one 0 { al0 with work := some 0 } } }

/-- A decoding table whose lengths are all 8 bits. -/
def tableBytes : Bytes := zeros 8 ++ bs [63, 15, 0, 0, 0, 1, 0, 0] ++ List.replicate 256 8

theorem test_wit_group_commands :
    begins 0x0901 0 (rq groupBytes) (wQ []) = true ∧ plen (rq groupBytes) = 96 ∧ groupBad (wQ []) groupBytes gr0 = false ∧
    (wQ []).retiring 1 = false ∧ Tab.lowestFree (wQ []).col.groups 1024 = some 0 ∧ (gr0.mems.map fun m => addFenced (wQ []) m.addr) = [false, false] ∧
    addFenced (wQ []) gr0.upAddr = false ∧ begins 0x0902 0 (rq (zeros 8)) (wGroup []) = true ∧ (wGroup []).group 0 = some gr0 ∧
    begins 0x0903 0 (rq tableBytes) (wQ []) = true ∧ imageOk (slice tableBytes 16 256) = true ∧ bitOf (byteAt tableBytes 10) 1 = false ∧
    begins 0x0904 0 (rq (bs [0, 0, 0, 1, 0, 0, 0, 1, 0, 1, 0, 0, 0, 0, 0, 0])) (wGroup []) = true ∧ gr0.permits 5 = true ∧
    begins 0x0905 0 (rq (zeros 8)) (wGroup []) = true ∧ 0 < gr0.ntensor := by decide +kernel

theorem test_group_commands :
    (match exec (.groupCreate 0 (rq groupBytes)) (wQ []) with
      | .next v => ((v.group 0).map (·.mems.length), (v.queue 0).map (·.group), (v.allot 0).map (·.work))
      | _ => (none, none, none)) = (some 2, some (some 0), some (some 0)) ∧
    (match exec (.groupDestroy 0 (rq (zeros 8))) (wGroup []) with
      | .next v => (v.col.groups.length, (v.queue 0).map (·.group), (v.allot 0).map (·.work))
      | _ => (9, none, none)) = (0, some none, some none) ∧
    (match exec (.expertMapSet 0 (rq (bs [0, 0, 0, 1, 0, 0, 0, 1, 0, 1, 0, 0, 0, 0, 0, 0]))) (wGroup []) with
      | .next v => (v.group 0).map fun x => (x.map, x.cap)
      | _ => none) = some ([1], 1) := by decide +kernel

/-- A message of member `m`: kind, type, OPSEQ 1, parameters, body. -/
def cmsgAt (q m kind mtype : Nat) (h body : Bytes) : Post :=
  { (default : Post) with
    queue := 0, levee := 1, payload := colBytes 0 kind mtype q m 0 0 h body
    net := { (default : Net) with srcIp := ⟨4, 5 + m⟩, srcQp := [0x000007, 0x000008].getD m 0 } }

def cmsg (m kind mtype : Nat) (h body : Bytes) : Post := cmsgAt 1 m kind mtype h body

/-- 11 Tables COL-2 and COL-4: a contribution written out by bytes. -/
theorem test_col_bytes :
    ({ (default : Post) with payload := bs [1, 2, 2, 0, 0, 0, 0, 9, 0, 5, 0, 3, 0, 2, 0, 0] ++ zeros 32 ++ bs [7, 8] } : Post).colMsg =
      { (default : ColMsg) with
        len := 50, group := 258, kind := 2, opseq := 9, mem := 5, flags := 3, bodyLen := 2, hdr := zeros 32, body := bs [7, 8] } := by
  decide +kernel

/-- Parameters of a reduction or gather of two FP32 blocks: FIRST `i`, one block, scale 1. -/
def bh (i : Nat) : Bytes := zeros 8 ++ toBe 4 2 ++ toBe 4 i ++ toBe 2 1 ++ zeros 2 ++ toBe 4 0x3F800000 ++ zeros 8

/-- An operation of that kind with blocks `b`. -/
def opn (kind : Nat) (b : Tab ColBlock) : ColOp :=
  { opseq := 1, kind := kind, hdr := colParams kind (bh 0), flags := 0, ctx := 0, total := if kind = 7 then 0 else 2, blocks := b }

theorem test_wit_contribution :
    (wGroup [opn 1 []]).group 0 = some { gr0 with ops := [opn 1 []] } ∧ (gr0.mems.map fun d => (d.addr.val, d.qpn)) = [(5, 7), (6, 8)] ∧
    (opn 1 []).going = true ∧ colParams 1 (bh 1) = (opn 1 []).hdr ∧ (opn 1 []).fmtIn = 0 ∧ hf (bh 1) 32 2 = 1 ∧ hf (bh 1) 28 4 = 1 ∧
    wblk (wGroup [opn 1 []]) gr0 = 2 ∧ shardOwner 2 2 1 = 1 ∧ (opn 4 []).root = 0 ∧ (wGroup []).pwr.window = false ∧
    (wGroup []).cis.poisoned = [] ∧ (liveMembers gr0 (opn 1 [])) = [0, 1] ∧ ipFenced (wGroup []) ⟨4, 5⟩ = false := by decide +kernel

theorem test_wit_contributes :
    contributes (wGroup [opn 1 []]) (cmsg 1 1 0 (bh 1) (zeros 1024)).colMsg { gr0 with ops := [opn 1 []] } (opn 1 []) ∧
    contributes (wGroup [opn 3 []]) (cmsg 1 3 0 (bh 1) (zeros 1024)).colMsg { gr0 with ops := [opn 3 []] } (opn 3 []) ∧
    contributes (wGroup [opn 4 []]) (cmsg 0 4 0 (bh 1) (zeros 1024)).colMsg { gr0 with ops := [opn 4 []] } (opn 4 []) ∧
    contributes (wGroup [opn 7 []]) (cmsg 0 7 0 (colParams 7 (bh 0)) []).colMsg { gr0 with ops := [opn 7 []] } (opn 7 []) ∧
    reachable (wGroup [opn 1 []]) { gr0 with ops := [opn 1 []] } 0 :=
  ⟨⟨⟨by decide +kernel, rfl, by decide +kernel, by decide +kernel, by decide +kernel, _, rfl, by decide +kernel, by decide +kernel⟩, rfl,
      by decide +kernel, rfl, by decide +kernel, rfl, by decide +kernel, rfl⟩,
    ⟨⟨by decide +kernel, rfl, by decide +kernel, by decide +kernel, by decide +kernel, _, rfl, by decide +kernel, by decide +kernel⟩, rfl,
      by decide +kernel, rfl, by decide +kernel, rfl, by decide +kernel, rfl⟩,
    ⟨⟨by decide +kernel, rfl, by decide +kernel, by decide +kernel, by decide +kernel, _, rfl, by decide +kernel, by decide +kernel⟩, rfl,
      by decide +kernel, rfl, by decide +kernel, rfl, by decide +kernel, rfl⟩,
    ⟨⟨by decide +kernel, rfl, by decide +kernel, by decide +kernel, by decide +kernel, _, rfl, by decide +kernel, by decide +kernel⟩, rfl,
      by decide +kernel, rfl, by decide +kernel, rfl, by decide +kernel, rfl⟩,
    by decide +kernel, _, rfl, by decide +kernel⟩

/-- 11 R365, R387: a gathered block is kept and relayed to the other member; a barrier counts who has come. -/
theorem test_contribution :
    (match exec (.allGather 0 (cmsg 1 3 0 (bh 1) (List.replicate 1024 5))) (wGroup [opn 3 []]) with
      | .next v => ((v.colOp 0 1).map fun o => o.blocks.map fun b => (b.1, b.2.done, b.2.res.length), v.out.length)
      | _ => (none, 0)) = (some [(1, true, 1024)], 1) ∧
    (match exec (.barrier 0 (cmsg 0 7 0 (colParams 7 (bh 0)) [])) (wGroup [opn 7 []]) with
      | .next v => (v.colOp 0 1).map (·.barrier)
      | _ => none) = some [0] := by decide +kernel

/-- 11 R366: 1.0 + 1.0 from two members, the first already taken in. -/
theorem test_reduction :
    (match exec (.allReduce 0 (cmsg 1 1 0 (bh 0) ((List.replicate 256 (toLe 4 0x3F800000)).flatten)))
        (wGroup [opn 1 (one 0 { taken := [0], acc := List.replicate 256 0x3F800000 })]) with
      | .next v => (v.colOp 0 1).map fun o => o.blocks.map fun b => (b.2.taken, b.2.acc.getD 255 0)
      | _ => none) = some [([0, 1], 0x40000000#32)] := by decide +kernel

/-- Parameters of a DISPATCH of FP32 logits: K 1, one piece, TOTAL 1, TOKMAX 4. -/
def dh : Bytes := bs [0, 0, 1, 0] ++ toBe 2 0 ++ toBe 2 1 ++ zeros 8 ++ toBe 4 0 ++ toBe 4 1 ++ toBe 4 4 ++ zeros 4

/-- A DISPATCH with expert 0 at member 0 and expert 1 at member 1, one position each. -/
def opDisp : ColOp := { opseq := 1, kind := 5, hdr := colParams 5 dh, flags := 0, ctx := 0, map := [0, 1], cap := 1 }

/-- Logits 1.0 and 2.0, and 16 bytes of activations. -/
def dispBody : Bytes := toLe 4 0x3F800000 ++ toLe 4 0x40000000 ++ zeros 8 ++ List.replicate 16 7

theorem test_wit_dispatch :
    colParams 5 dh = opDisp.hdr ∧ hf dh 17 1 = 0 ∧ hf dh 36 4 ≤ opDisp.tokmax ∧ hf dh 32 4 < hf dh 36 4 ∧ hf dh 20 2 < opDisp.npiece ∧
    logitBytes opDisp < dispBody.length ∧ 1 ≤ opDisp.k ∧ opDisp.k ≤ opDisp.map.length ∧ Tab.get? opDisp.tokens (tokenKey 0 0) = none := by
  decide +kernel

/-- 11 R380: the larger logit's expert gets the token, at its first free position. -/
theorem test_dispatch :
    (match exec (.dispatch 0 (cmsg 0 5 0 dh dispBody)) (wGroup [opDisp]) with
      | .next v => ((v.colOp 0 1).map fun o => o.tokens.map fun t => t.2.picks.map fun p => (p.1, p.2.1), v.out.length)
      | _ => (none, 0)) = (some [[(1, some 0)]], 1) := by decide +kernel

/-- A COMBINE (OPSEQ 2) of one piece of 4 elements for the DISPATCH whose token of member 0 went to expert 1. -/
def coh : Bytes := bs [0, 0, 0, 0] ++ toBe 2 0 ++ toBe 2 1 ++ toBe 2 1 ++ toBe 2 0 ++ toBe 4 0 ++ zeros 8 ++ toBe 4 1 ++ toBe 4 4

def opComb : ColOp := { opseq := 2, kind := 6, hdr := colParams 6 coh, flags := 0, ctx := 1 }

def wComb : State := wGroup [{ opDisp with positions := one 1 [(tokenKey 0 0, 0)], complete := true, tokens := one (tokenKey 0 0) { picks := [(1, some 0, 0x3F800000)] } }, opComb]

theorem test_wit_combine :
    opComb.tokmax = 1 ∧ opComb.fmtA = 0 ∧ hf coh 24 2 = 1 ∧ hf coh 28 4 = 0 ∧ (zeros 16).length = 4 * opComb.hdim ∧ opDisp.map.getD 1 0 = 1 ∧
    colParams 6 coh = opComb.hdr ∧ (wComb.colOp 0 2).isSome = true := by decide +kernel

/-- 11 R383: weight 1.0 times 2.0. -/
theorem test_combine :
    (match exec (.combine 0 (cmsgAt 2 1 6 0 coh ((List.replicate 4 (toLe 4 0x40000000)).flatten))) wComb with
      | .next v => (v.colOp 0 2).map fun o => o.tokens.map fun t => (t.2.got, t.2.acc.getD 3 0)
      | _ => none) = some [([(0, 0)], 0x40000000#32)] := by decide +kernel

theorem test_wit_first :
    opNewer gr0 1 = true ∧ gr0.op 1 = none ∧ siphonDue (wGroup []) gr0 = false ∧ gr0.permits 7 = true ∧ gr0.upstream = false ∧
    siphonDue ({ wGroup [] with col := { (wGroup []).col with force := true } }) gr0 = true ∧ fencedMembers (wGroup []) gr0 = [] := by decide +kernel

theorem test_first :
    (match exec (.barrier 0 (cmsg 0 7 0 (zeros 32) [])) (wGroup []) with | .next v => (v.colOp 0 1).map (·.barrier) | _ => none) = some [0] ∧
    (match exec (.barrier 0 (cmsg 0 7 0 (zeros 32) [])) { wGroup [] with col := { (wGroup []).col with force := true } } with
      | .next v => v.out.length
      | _ => 0) = 2 := by decide +kernel

theorem test_wit_resend :
    ({ opn 1 [] with complete := true }).complete = true ∧ isExpert 1 = false ∧ hf (splice (bh 0) 16 (toBe 2 0)) 32 2 = 0 ∧
    (Tab.getD (opn 1 (one 0 { done := true, res := zeros 1024 })).blocks 0 {}).done = true := by decide +kernel

theorem test_resend :
    (match exec (.resend 0 (cmsg 0 1 4 (bh 0) [])) (wGroup [opn 1 (one 0 { done := true, res := zeros 1024 })]) with
      | .next v => v.out.length
      | _ => 0) = 1 := by decide +kernel

/-- Both members are in for block 0, with 1.0 everywhere. -/
def wFull : State :=
  let s := wGroup [opn 1 (one 0 { taken := [0, 1], acc := List.replicate 256 0x3F800000 })]
  { s with bsn := { s.bsn with tab := [(0, { power := .active }), (1, { power := .active })] } }

theorem test_wit_complete :
    blockReady wFull { gr0 with ops := [opn 1 (one 0 { taken := [0, 1], acc := List.replicate 256 0x3F800000 })] } 0 = true ∧
    (opn 1 []).ef = false ∧ (opn 1 []).fmtOut = 0 ∧ (opn 1 []).seed = none ∧ isExpert 1 = false ∧ opOver gr0 (opn 1 []) = false ∧
    opOver gr0 { opn 7 [] with barrier := [0, 1] } = true ∧
    opHeld (wGroup [{ opn 7 [] with barrier := [0, 1] }]) 0 1 = false ∧ (0 : Nat) + us gr0.retxUs = us 10 ∧ (wFull.tick (us 10 - 1)).now < us 10 := by
  decide +kernel

/-- 11 R366, R369, R388: a full block completes, a stalled operation sends CREDITs, a barrier with everybody in its DONEs. -/
theorem test_complete :
    (match exec (.blockComplete 0 0 1 0) wFull with
      | .next v => (v.colOp 0 1).map fun o => (o.frontier, o.blocks.map fun b => (b.2.done, slice b.2.res 1020 4))
      | _ => none) = some (1, [(true, toLe 4 0x3F800000)]) ∧
    (match exec (.stallCredit (us 10) 0 1) (wGroup [opn 1 []]) with | .next v => v.out.length | _ => 0) = 2 ∧
    (match exec (.stallCredit (us 10 - 1) 0 1) (wGroup [opn 1 []]) with | .next v => v.out.length | _ => 9) = 0 ∧
    (match exec (.operationComplete 0 0 1) (wGroup [{ opn 7 [] with barrier := [0, 1] }]) with
      | .next v => ((v.colOp 0 1).map fun o => (o.complete, o.doneStatus), v.out.length)
      | _ => (none, 0)) = (some (true, 0), 2) := by decide +kernel

/-- The group with an upstream switch, host 9. -/
def grUp : Group := { gr0 with flags := 3, kinds := 1, upGroup := 4, upMember := 6, upQpn := 0x77, upAddr := ⟨4, 9⟩ }

def wUp (os : List ColOp) : State := { wGroup [] with col := { (wGroup []).col with groups := one 0 { grUp with ops := os } } }

/-- A message from it. -/
def upMsg (mtype status : Nat) (h body : Bytes) : Post :=
  { (default : Post) with
    queue := 0, levee := 1, payload := colBytes 4 1 mtype 1 6 status 0 h body
    net := { (default : Net) with srcIp := ⟨4, 9⟩, srcQp := 0x77 } }

theorem test_wit_upstream : fromUpstream (wUp [opn 1 []]) (upMsg 1 0 (bh 0) (zeros 1024)).colMsg 0 { grUp with ops := [opn 1 []] } :=
  ⟨{ que0 with group := some 0 }, by decide +kernel⟩

/-- 11 R388: a result is relayed to both members, a credit moves the upstream frontier, a DONE ends the operation. -/
theorem test_upstream :
    (match exec (.upstreamResult 0 (upMsg 1 0 (bh 0) (zeros 1024))) (wUp [opn 1 []]) with | .next v => v.out.length | _ => 0) = 2 ∧
    (match exec (.upstreamCredit 0 (upMsg 3 0 (splice (bh 2) 16 (toBe 2 0)) [])) (wUp [opn 1 []]) with
      | .next v => (v.colOp 0 1).map (·.upFrontier)
      | _ => none) = some 2 ∧
    (match exec (.upstreamDone 0 (upMsg 2 0x63 (splice (bh 0) 16 (toBe 2 0)) [])) (wUp [opn 1 []]) with
      | .next v => (v.colOp 0 1).map fun o => (o.complete, o.doneStatus, bitOf o.doneFlags 5)
      | _ => none) = some (true, 0, true) := by decide +kernel

/-- Host 6 is fenced. -/
def wFenced (s : State) : State :=
  { s with flt := { s.flt with fences := one 0 { desc := fenceDesc 2 0 0 4 0 0xFFFFFFFF 6, auto := false, time := 0, serial := 0 } } }

theorem test_wit_removal : ipFenced (wFenced (wGroup [opn 1 []])) ⟨4, 6⟩ = true ∧ ipFenced (wFenced (wGroup [opn 1 []])) ⟨4, 5⟩ = false := by
  decide +kernel

theorem test_removal :
    (match exec (.memberRemoval 0 0 1) (wFenced (wGroup [opn 1 []])) with | .next v => (v.colOp 0 1).map (·.removed) | _ => none) = some [1] ∧
    (match exec (.memberRemoval 0 0 0) (wFenced (wGroup [opn 1 []])) with | .next v => (v.colOp 0 1).map (·.removed) | _ => none) = some [] := by
  decide +kernel

/-! ### 12: the screen -/

/-- An entry of forwarding row 7: PRIO 1, key type 1, every other bit ignored. -/
def fwdEntry : Bytes := toBe 4 7 ++ bs [0, 0, 0, 1] ++ bs [0x10] ++ zeros 17 ++ bs [0xF0] ++ zeros 17 ++ zeros 20

/-- SCREEN_WRITE of one entry. -/
def scrBytes (bank cls : Nat) (levee : Nat) (e : Bytes) : Bytes := zeros 8 ++ bs [bank, cls, 0, 1] ++ toBe 2 levee ++ zeros 2 ++ e

/-- Levee 1 with 2 rows of quota in tenant bank 5. -/
def wScr : State := { wLev with scr := { wLev.scr with quotas := one 1 (5, 2) } }

theorem test_wit_screen :
    begins 0x0A01 0 (rq (scrBytes 0xFF 0 0 fwdEntry)) wScr = true ∧ plen (rq (scrBytes 0xFF 0 0 fwdEntry)) = 80 ∧ (parseFwd fwdEntry).isSome = true ∧
    (wScr.table 0x0A).st = .ready ∧ begins 0x0A01 0 (rq (scrBytes 5 1 1 (zeros 64))) wScr = true ∧ (parseTenant 1 (zeros 64)).isSome = true ∧
    wScr.screenQuota 1 = some (5, 2) ∧ (wScr.bank 5).power = 0 ∧
    begins 0x0A02 0 (rq (bs [0, 0, 0, 0, 0, 1, 0, 0] ++ toBe 4 7 ++ zeros 4)) wScr = true ∧
    begins 0x0A03 0 (rq (bs [0, 1, 0, 0, 0, 1] ++ zeros 34)) wScr = true ∧
    begins 0x0A04 0 (rq (bs [0, 1, 5, 0] ++ toBe 4 32768)) wLev = true ∧ isTenantBank 5 = true ∧ wLev.screenQuota 1 = none ∧
    bankQuota wLev 5 1 + 32768 ≤ 32768 := by decide +kernel

/-- Row 7, in version 1 only. -/
def row7 : Row := { id := 7, kind := 0, prio := 1, value := 0, mask := 0, v0 := false, v1 := true, action := 0, mirror := none, index := 0, levee := 0, rowIdx := 0 }

/-- A batch waits for its commit. -/
def wBatch (b : ScreenBatch) (rows : List Row) : State :=
  { wScr with scr := { wScr.scr with batches := [b], fwd := rows }, kry := { wScr.kry with executing := some ⟨rq [], some 0, .screen⟩ } }

/-- 12 R394, R398, R410: a commit shows its rows in the version it names, and only there; the higher PRIO, then the lower ID, wins. -/
theorem test_screen :
    (match exec (.screenCommit 0) (wBatch ⟨0, 0xFF, 1, [{ row7 with id := 8 }], [7], 0⟩ [row7]) with
      | .next v => (v.scr.fwd.map fun x => (x.id, x.v0, x.v1), v.kry.executing.isNone)
      | _ => ([], false)) = ([(8, false, true)], true) ∧
    (orderRows [{ row7 with id := 9 }, row7, { row7 with id := 10, prio := 2 }]).map (·.id) = [10, 7, 9] := by decide +kernel

/-- A bank with levee 1's row 3 (PRIO 9), which every key hits, and two searches of chain 3. -/
def bank0 : Bank :=
  let x : Search := { levee := 1, key := ownKey 1 0, chain := 3, num := 0, at_ := 0 }
  { rows := [{ row7 with id := 3, prio := 9, value := ownKey 1 0, mask := ownMask 0, levee := 1 }], queue := [x, { x with num := 1 }] }

def wBank (b : Bank) : State := (wChain { chn .searching (dsc 0x10 0 nw nw nw []) 1 with keys := [0, 0], asked := 2 } {} []).setBank 5 b

theorem test_wit_bank :
    (wBank bank0).bank 5 = bank0 ∧ ((wBank bank0).chain 3).map (fun c => (c.asked, c.keys.length)) = some (2, 2) ∧ (wBank bank0).pwr.level < 4 ∧
    ((wBank bank0).tick 15).now < 0 + 16 ∧ (bank0.rows.find? fun y => y.rowIdx == 0).isSome = true ∧ Tab.get? bank0.fixes 0 = none ∧
    (0 : Nat) + us 10 ≤ ((wBank bank0).tick (us 10)).now ∧ thresholds (wBank bank0) 0 = (0x55, 0x5B, 0x5F) := by decide +kernel

/-- 12 R403, R405, R411, R413: a search every screen cycle, a lost row, gating and throttling. -/
theorem test_bank :
    (match exec (.tenantSearch 16 5) (wBank bank0) with
      | .next v => ((v.bank 5).queue.length, (v.chain 3).map (·.results))
      | _ => (9, none)) = (1, some (toLe 4 3 ++ toLe 2 9 ++ bs [1, 0])) ∧
    (match exec (.tenantSearch 15 5) (wBank bank0) with | .next v => (v.bank 5).queue.length | _ => 9) = 2 ∧
    (match exec (.desiltPass 0 5 0 3 true) (wBank bank0) with | .next v => (v.bank 5).rows.map (·.lost) | _ => []) = [true] ∧
    (match exec (.bankClockGate (us 10) 5) (wBank { bank0 with queue := [] }) with | .next v => (v.bank 5).power | _ => 9) = 1 ∧
    (match exec (.bankWake 0 5) (wBank { bank0 with power := 3 }) with | .next v => (v.bank 5).power | _ => 9) = 0 ∧
    (match exec (.bankThrottleChange 0 5 0x5B) (wBank bank0) with | .next v => (v.bank 5).step | _ => 9) = 2 ∧
    (match exec (.bankThrottleChange 0 5 0x54) (wBank { bank0 with step := 1 }) with | .next v => (v.bank 5).step | _ => 9) = 1 ∧
    (match exec (.bankThrottleChange 0 5 0x53) (wBank { bank0 with step := 1 }) with | .next v => (v.bank 5).step | _ => 9) = 0 := by
  decide +kernel

/-- Bank 5 clock-gated, with levee 1's row. -/
def wGated : State := wScr.setBank 5 { bank0 with queue := [], power := 1 }

/-- 12 R407, 01 R34: a SCREEN_SEARCH of levee 1 waits for its gated bank and answers once it is awake. -/
theorem test_search_wakes :
    begins 0x0A03 0 (rq (bs [1, 0, 0, 1, 0, 1] ++ zeros 34)) wGated = true ∧ lostEntry (wGated.bank 5) 1 = none ∧
    (match exec (.screenSearch 0 (rq (bs [1, 0, 0, 1, 0, 1] ++ zeros 34))) wGated with
      | .next v => ((v.bank 5).power, v.kry.executing.map (·.work), v.out.length) | _ => (9, none, 9)) = (3, some (.search 5), 0) ∧
    (match exec (.screenSearch 0 (rq (bs [1, 0, 0, 1, 0, 1] ++ zeros 34))) wGated with
      | .next v => (match exec (.bankWake 0 5) v with
        | .next w => ((w.bank 5).power, w.kry.executing.map (·.work), w.out.length) | _ => (9, none, 9))
      | _ => (9, none, 9)) = (0, none, 1) := by decide +kernel

/-! ### 14: faults and lock cycles -/

/-- A descriptor of a port, a tray or a switch. -/
def fdesc (kind id : Nat) : Bytes := fenceDesc kind 0 0 0 0 id 0

def fence (d : Bytes) : Fence := { desc := d, auto := false, time := 0, serial := 4 }

def wFence (l : Tab Fence) : State := { wLev with flt := { wLev.flt with fences := l } }

theorem test_wit_fences :
    begins 0x0130 0 (rq (fdesc 1 511)) wLev = true ∧ begins 0x0130 0 (rq (fdesc 1 1)) wLev = true ∧ wLev.portExists 1 = true ∧ descOk (fdesc 1 511) = true ∧ descOk (fdesc 1 512) = false ∧ descOk (fdesc 3 255) = true ∧
    descOk (fdesc 4 127) = true ∧ descOk (fdesc 4 128) = false ∧ descOk (fenceDesc 2 0 0 4 0 0xFFFFFFFF 9) = true ∧
    descOk (fenceDesc 5 0 1 0 3 255 0) = true ∧ findFence wLev (fdesc 1 511) = none ∧ Tab.lowestFree wLev.flt.fences 7680 = some 0 ∧
    findFence (wFence (one 2 (fence (fdesc 1 511)))) (fdesc 1 511) = some (2, fence (fdesc 1 511)) ∧
    begins 0x0131 0 (rq (fdesc 1 511)) (wFence (one 2 (fence (fdesc 1 511)))) = true ∧
    stillMember (wFence []) (fdesc 1 511) = false ∧
    stillMember ({ wFence [] with sw := { w0.sw with trees := one 0 [⟨511, 0, 0⟩] } }) (fdesc 1 511) = true := by decide +kernel

/-- A notice sent `n` times, the manager on port 512. -/
def wNotice (n : Nat) : State :=
  { wLev with flt := { wLev.flt with notices := [{ event := 0, index := 0, desc := fdesc 1 0, nseq := 0, time := 0, at_ := 0, term := 1, sent := n }] },
              kry := { wLev.kry with lastLease := some (default, 512, 0) } }

theorem test_wit_notices :
    noticePort (wNotice 0) 512 = some 512 ∧ (wNotice 0).kry.lastLease = some (default, 512, 0) ∧ wLev.kry.lastLease = none ∧
    0 + ms 1 ≤ ((wNotice 1).tick (ms 1)).now ∧ ((wNotice 2).tick (ms 2 - 1)).now < 0 + ms 2 ∧
    (wNotice 0).mayReply 512 := by unfold State.mayReply; decide +kernel

/-- 14 R454, R459: fences take the lowest entry; three transmissions, 1 ms apart. -/
theorem test_fences :
    (match exec (.fenceSet 0 (rq (fdesc 1 1))) wLev with | .next v => (v.portFenced 1, v.portFenced 0, v.flt.fences.map (·.1)) | _ => (false, false, [])) =
      (true, false, [0]) ∧
    (match exec (.fenceClear 0 (rq (fdesc 1 511))) (wFence (one 2 (fence (fdesc 1 511)))) with | .next v => v.flt.fences.length | _ => 9) = 0 ∧
    (match exec (.fenceNotice 0) (wNotice 0) with | .next v => (v.flt.notices.map (·.sent), v.out.length) | _ => ([], 9)) = ([1], 1) ∧
    (match exec (.fenceNoticeRepeat (ms 2)) (wNotice 2) with | .next v => (v.flt.notices.map (·.sent), v.out.length) | _ => ([9], 9)) = ([], 1) ∧
    (match exec (.fenceNoticeRepeat (ms 1 - 1)) (wNotice 1) with | .next v => (v.flt.notices.map (·.sent), v.out.length) | _ => ([9], 9)) = ([1], 0) := by
  decide +kernel

theorem test_wit_auto :
    Tab.get? ({ wLev.flt with downSince := one 2 5 }).downSince 2 = some 5 ∧ wLev.portUp 2 = false ∧ (wLev.port 2).testDown = false ∧ wLev.flt.fences = [] ∧
    wLev.flt.portFenceUs ≠ 0xFFFF ∧ ((wFill pg0 (.fill 0 0) .read).mem.ops.map fun e => e.2.tray) = [0] ∧ max 1 wLev.flt.peerQueries.toNat = 3 ∧
    wLev.flt.silentCredits.toNat = 16 ∧ ((wGroup [opn 1 []]).group 0).isSome = true := by decide +kernel

/-- 14 R451, R465: what is fenced, and when; a dead culvert halts. -/
theorem test_auto :
    (match exec (.portFenceDelay (us 100 + 5) 2) { wLev with flt := { wLev.flt with downSince := one 2 5 } } with | .next v => v.portFenced 2 | _ => false) = true ∧
    (match exec (.portFenceDelay (us 100 + 4) 2) { wLev with flt := { wLev.flt with downSince := one 2 5 } } with | .next v => v.portFenced 2 | _ => true) = false ∧
    (match exec (.trayOperationTimeout (ms 1) 0 0) (wFill pg0 (.fill 0 0) .read) with | .next v => v.trayFenced 0 | _ => false) = true ∧
    (match exec (.memberSilent 0 0 1) (wGroup [{ opn 1 [] with silent := one 1 16 }]) with | .next v => v.addrFenced ⟨4, 6⟩ | _ => false) = true ∧
    (match exec (.memberSilent 0 0 1) (wGroup [{ opn 1 [] with silent := one 1 15 }]) with | .next v => v.addrFenced ⟨4, 6⟩ | _ => true) = false ∧
    (match exec (.culvertFailure 0 1) wLev with | .next v => (v.halted, v.out.length) | _ => (false, 9)) = (true, 1) ∧
    (match exec (.halt 0 0) wLev with | .next v => v.halted | _ => true) = false := by decide +kernel

/-- A read of a TRAY_DIRECT allotment whose tray is fenced. -/
def wFencedRead : State :=
  let l : Live := { kind := .read, req := pr, allot := 0, home := 0, waits := [opToken 0], segs := [⟨0, 0, 0, 8, true⟩] }
  let o : TrayOp := { tray := 0, use := .request 0 0, kind := .read, addr := 0, len := 8, data := [], at_ := 0 }
  let s := wa { al0 with place := 2, inflight := 1 }
  { s with mem := { s.mem with live := one 0 l, ops := one 0 o }, flt := { s.flt with fences := one 7680 (fence (fdesc 3 0)) } }

theorem test_wit_fenced_quiet :
    wFencedRead.quiet ∧ ({ wPage pg0 with flt := wFencedRead.flt } : State).quiet := by
  unfold State.quiet State.calm State.still; decide +kernel

theorem test_wit_fenced_read :
    wFencedRead.mem.ops.map (fun e => e.2.use) = [.request 0 0] ∧ wFencedRead.trayFenced 0 = true ∧ wFencedRead.mute (reqHost pr) = false ∧
    (wFencedRead.allot 0).map (fun x => (x.place, x.replicated, x.tray)) = some (2, false, 0) ∧
    ({ wPage pg0 with flt := wFencedRead.flt }).trayFenced 0 = true ∧ (wPage pg0).trayFenced 0 = false := by decide +kernel

/-- 14 R456, 07 R231: the request is answered FENCED; a clean page of the tray goes. -/
theorem test_fenced_read :
    (match exec (.fencedRequestCompletion 0 0) wFencedRead with | .next v => (v.mem.live.length, v.mem.ops.length, v.out.length) | _ => (9, 9, 9)) =
      (0, 0, 1) ∧
    (match exec (.trayFailed 0 0) { wPage pg0 with flt := wFencedRead.flt } with | .next v => (v.cis.pages.length, (Tab.get? v.mem.trays 0).map (·.failed)) | _ => (9, none)) =
      (0, some true) := by decide +kernel

theorem test_wit_culvert :
    culvertFailed wLev 0 = false ∧ culvertFailed { wLev with flt := { wLev.flt with ret10 := 0xFFFF } } 1 = true ∧ bundleRetired wLev 1 15 = false ∧
    64 < (Tab.getD ({ wLev.flt with replays := one 0 (List.replicate 65 0) }).replays 0 []).length := by decide +kernel

/-- `n` replays of bundle 0 at 0, one more at 1, and the retirement due by then, 5 ms later. -/
def afterReplays (n : Nat) : Option (List Nat × Bool) :=
  match exec (.culvertFlitReplay 1 0 0) { wLev with flt := { wLev.flt with replays := one 0 (List.replicate n 0) } } with
  | .next v => match exec (.bundleRetirement (ms 5) 0 0 1) v with
    | .next x => some (v.flt.bundleDue, bundleRetired x 0 0)
    | _ => none
  | _ => none

/-- 01 R20: 65 replays within 1 ms retire a bundle, 64 do not. -/
theorem test_culvert : afterReplays 64 = some ([0], true) ∧ afterReplays 63 = some ([], false) := by decide +kernel

/-- LOCK_LOAD of one shard of 4,096 bytes of allotment 0 from switch 3. -/
def lockBytes : Bytes :=
  bs [0, 4, 0, 3] ++ zeros 4 ++ toBe 16 7 ++ bs [0, 1] ++ zeros 6 ++ toBe 16 8 ++ bs [0, 1, 0, 0, 0, 0, 0, 0] ++ toBe 8 0 ++ toBe 8 0 ++ toBe 8 4096

/-- Its allotment, PENDING. -/
def wPend : State := wa { al0 with st := .pending }

def wLock : State :=
  { wPend with flt := { wLev.flt with lock := .loading, lockTotal := 1, load := some { parseLoad wPend lockBytes with at_ := 0 } } }

theorem test_wit_lock :
    begins 0x0140 0 (rq lockBytes) wPend = true ∧ plen (rq lockBytes) = 80 ∧ wPend.hlt.devicePassed = true ∧
    ((parseLoad wPend lockBytes).shards.map fun x => (shardBad wPend 0 x, x.len, x.off)) = [(false, 4096, 0)] ∧
    partnerFenced wLock (parseLoad wPend lockBytes) = false ∧ 0 + ms 1 ≤ (wLock.tick (ms 1)).now ∧ (wLock.tick (ms 1 - 1)).now < 0 + ms 1 := by
  decide +kernel

/-- 14 R468, R471: the first read goes out; a lost partner is fenced and the load aborted. -/
theorem test_lock :
    (match exec (.lockLoad 0 (rq lockBytes)) wPend with | .next v => (v.flt.lock, v.out.length) | _ => (.idle, 9)) = (.loading, 2) ∧
    (match exec (.partnerLost (ms 1)) wLock with | .next v => (v.flt.lock, v.switchFenced 3) | _ => (.idle, false)) = (.aborted, true) ∧
    (match exec (.shardReadComplete 0 0 0x52 []) wLock with | .next v => v.flt.lock | _ => .idle) = .aborted := by decide +kernel

/-- LOCK_ADMIT at counter 0 reaching 6, flip, with one fence. -/
def admitBytes : Bytes := bs [0, 0, 0, 1, 0, 0, 0, 6, 0x01, 0, 0, 1] ++ zeros 4 ++ fdesc 1 511

def wAdmit : State := { wQ [] with flt := { wLev.flt with fences := one 2 (fence (fdesc 1 511)) } }

/-- Armed on counter 0 for `target`. -/
def wArmed (target : Nat) : State :=
  { wAdmit with flt := { wAdmit.flt with lock := .armed, armed := some ⟨0, 1, target, true, [(2, 4)], [fdesc 1 511]⟩ } }

theorem test_wit_admit :
    begins 0x0141 0 (rq admitBytes) wAdmit = true ∧ plen (rq admitBytes) = 48 ∧ wAdmit.turn 0 = some { levee := 1, value := 5 } ∧ xlateBusy wAdmit = false ∧
    turnReached 5 6 = false ∧ (findFence wAdmit (normDesc (slice admitBytes 16 32))).isSome = true ∧
    admissionDue (wArmed 5) ⟨0, 1, 5, true, [(2, 4)], []⟩ = true ∧ admissionDue (wArmed 6) ⟨0, 1, 6, true, [(2, 4)], []⟩ = false := by decide +kernel

/-- 14 R470: at its target the admission flips table 9 and clears the fence. -/
theorem test_admit :
    (match exec (.admission 0) ((wArmed 5).setTable 9 {}) with
      | .next v => (v.flt.lock, v.flt.fences.length, (v.table 9).active)
      | _ => (.idle, 9, 9)) = (.admitted, 0, 1) ∧
    (match exec (.admission 0) (wArmed 6) with | .next v => (v.flt.lock, v.flt.fences.length) | _ => (.idle, 9)) = (.armed, 1) := by decide +kernel

/-! ### 13: levees -/

/-- LEVEE_ADMIT of levee 2, plain, 8 allotments, the greatest quota on die 0. -/
def admitLev (flags : Nat) : Bytes := bs [0, 2, flags, 0, 0, 8, 0, 0] ++ toBe 4 135936 ++ toBe 4 1

/-- A confidential levee 2 with a key pair and no session key yet. -/
def levC : Levee := { confidential := true, maxAllot := 8, kexSeed := some 0, memKey := some 0 }

def wConf : State := { w0 with sec := { w0.sec with levees := one 2 levC } }

/-- The default right of a levee admitted now. -/
theorem test_default_right :
    (match exec (.leveeAdmit 0 (rq (admitLev 0))) wLev with | .next v => v.mem.rights.head? | _ => none) =
      some { die := 0, levee := 2, host := ⟨0, 0⟩, rate := 0, burst := 65536, out := 256, full := true, since := 0 } := by decide +kernel

/-- A LEVEE_KEX packet of levee 2. -/
def kexReq : KReq := { rq (zeros 1608) with sess := .levee 2, levee := 2, term := 0 }

theorem test_wit_retire_quiet : wLev.quiet := by unfold State.quiet State.calm State.still; decide +kernel

theorem test_wit_levees :
    begins 0x0120 0 (rq (admitLev 0)) wLev = true ∧ plen (rq (admitLev 0)) = 16 ∧ wLev.levee 2 = none ∧ debugOpen wLev = false ∧
    debugOpen { wLev with sec := { wLev.sec with dbg := 2 } } = true ∧
    begins 0x0120 0 (rq (admitLev 1)) { wLev with sec := { wLev.sec with dbg := 2 } } = true ∧
    begins 0x0121 0 (rq (bs [0, 1, 0, 0, 0, 0, 0, 0])) wLev = true ∧ wLev.levee 1 = some lev1 ∧ wLev.flm.queues = [] ∧ wLev.mem.allots = [] ∧
    begins 0x0122 0 (rq (bs [0, 1] ++ zeros 70)) wLev = true ∧ wLev.admitted 1 = true ∧ wLev.confidential 1 = false ∧
    begins 0x0122 0 (rq (bs [0, 2] ++ zeros 70)) wConf = true ∧ wConf.confidential 2 = true := by decide +kernel

/-- The same with a session key, its control port sending under an association. -/
def wSecure : State :=
  let sa : Sa := { suite := 1, nextPn := 1, ssci := 0, salt := [], key := 0, window := 0 }
  { wConf with
    kry := { wConf.kry with keys := one 2 0 }
    ports := [(512, { st := .up, mode := 1, tx := some (0, [(0, sa)], some 0) })] }

theorem test_wit_kex :
    wConf.levee kexReq.levee = some levC ∧ levC.former = none ∧ Tab.get? wConf.kry.keys 2 = none ∧ (lastSecond wConf levC.kexes).length < 64 ∧
    64 ≤ (lastSecond wConf (List.replicate 64 0)).length ∧ wConf.canBegin = true ∧ (wSecure.port 512).txSecure = true ∧ wSecure.portUp 512 = true ∧ plen kexReq = 1608 ∧
    wSecure.mayReply 512 ∧
    chkArrival { kexReq with opcode := 0x0B02, sess := .levee 2 } (taken { kexReq with opcode := 0x0B02, sess := .levee 2 } 0 wSecure) = none := by
  unfold State.mayReply; decide +kernel

theorem test_wit_reports :
    begins 0x0B01 0 (rq (zeros 48)) wLev = true ∧ (lastSecond wLev wLev.sec.signed).length < 256 ∧
    256 ≤ (lastSecond wLev (List.replicate 256 0)).length ∧ byteAt (zeros 8 ++ bs [3] ++ zeros 39) 8 = 3 ∧
    begins 0x0B01 0 (rq (zeros 8 ++ bs [3] ++ zeros 39)) wLev = true := by decide +kernel

/-- 13 R420, R421: a levee admitted has its quotas and default rights; a retired one nothing. -/
theorem test_levees :
    (match exec (.leveeAdmit 0 (rq (admitLev 0))) wLev with
      | .next v => ((v.levee 2).map fun x => (x.confidential, x.aepoch), Tab.get? v.cis.quota 2, v.mem.rights.length)
      | _ => (none, none, 9)) = (some (false, 1), some 135936, 2) ∧
    (match exec (.leveeRetire 0 (rq (bs [0, 1, 0, 0, 0, 0, 0, 0]))) wLev with
      | .next v => ((v.levee 1).isNone, Tab.get? v.cis.quota 1, v.out.length)
      | _ => (false, none, 9)) = (true, none, 2) := by decide +kernel

/-- A former key that ends at 5. -/
theorem test_former :
    (match exec (.formerKeyExpiry 5 2) { wConf with sec := { wConf.sec with levees := one 2 { levC with former := some (0, 5, 1, []) } } } with
      | .next v => (v.levee 2).map (·.former.isSome)
      | _ => none) = some false ∧
    (match exec (.formerKeyExpiry 4 2) { wConf with sec := { wConf.sec with levees := one 2 { levC with former := some (0, 5, 1, []) } } } with
      | .next v => (v.levee 2).map (·.former.isSome)
      | _ => none) = some true := by decide +kernel

/-! ### 15: power -/

/-- `w0` with a dip window open since 0. -/
def wDip (f : Power → Power) : State := { w0 with pwr := f { w0.pwr with window := true, halved := true, warnedAt := 0, frozenAt := 0, minMv := 9990 } }

theorem test_wit_dips :
    w0.pwr.inReset = false ∧ w0.pwr.window = false ∧ (wDip id).pwr.halved = true ∧
    ((wDip fun p => { p with riseAt := some 0 }).tick (us 10 - 1)).now < 0 + us 10 ∧
    (wDip fun p => { p with halved := false, restoredAt := some 0 }).pwr.restoredAt = some 0 ∧ w0.hlt.buf = [] ∧
    ((wDip id).tick (ns 200 - 1)).now < 0 + ns 200 ∧ (wDip id).pwr.sustained = false ∧ 0 + ms 100 ≤ ((wDip id).tick (ms 100)).now ∧
    (wDip id).flm.chains = [] ∧ ((wDip id).basin 0).inbound = [] ∧ (wDip id).bsn.tab = [] := by decide +kernel

/-- 15 R477–R481: 10,999 mV is a dip and 11,000 mV is not; the clocks return after 10 µs; the record holds the lowest reading. -/
theorem test_dips :
    (match exec (.dipStart 0 ⟨10999, 0, 0⟩) w0 with | .next v => (v.pwr.window, v.pwr.halved) | _ => (false, false)) = (true, true) ∧
    (match exec (.dipStart 0 ⟨11000, 0, 0⟩) w0 with | .next v => v.pwr.window | _ => true) = false ∧
    (match exec (.clockRestore (us 10)) (wDip fun p => { p with riseAt := some 0 }) with | .next v => v.pwr.halved | _ => true) = false ∧
    (match exec (.dipWindowClose (ns 200)) (wDip fun p => { p with halved := false, restoredAt := some 0 }) with
      | .next v => (v.pwr.window, v.hlt.buf.map fun x => (x.type, le x.body 0 2))
      | _ => (true, [])) = (false, [(3, 999)]) ∧
    (match exec (.lowInput 0 ⟨11399, 0, 0⟩) w0 with | .next v => v.pwr.lowInput | _ => false) = true ∧
    (match exec (.lowInput 0 ⟨11500, 0, 0⟩) { w0 with pwr := { w0.pwr with lowInput := true } } with | .next v => v.pwr.lowInput | _ => false) = true := by
  decide +kernel

/-- In reset since 0 for `cause`. -/
def wInReset (cause : Nat) : State := { w0 with pwr := { w0.pwr with inReset := true, resetCause := cause, cooling := cause == 3 } }

theorem test_wit_resets :
    w0.hlt.perm.length < 32768 ∧ (wInReset 3).pwr.outAt + ms 100 ≤ ((wInReset 3).tick (ms 100)).now ∧ (wInReset 1).pwr.lastOverRec = none ∧
    ((wInReset 1).tick (ms 100 - 1)).now < (wInReset 1).pwr.outAt + ms 100 ∧ arithMhz w0 * 1000 < 1024 * 2930 ∧ 1024 * 2929 ≤ arithMhz w0 * 1000 := by
  decide +kernel

/-- 15 R483, R488: the limits of the operating range, and 105 °C. -/
theorem test_resets :
    (match exec (.supplyReset 0 ⟨10199, 0, 0⟩) w0 with | .next v => (v.pwr.inReset, v.pwr.resetCause, v.hlt.perm.map (·.type)) | _ => (false, 9, [])) =
      (true, 1, [2]) ∧
    (match exec (.supplyReset 0 ⟨10200, 0, 0⟩) w0 with | .next v => v.pwr.inReset | _ => true) = false ∧
    (match exec (.supplyReset 0 ⟨13001, 0, 0⟩) w0 with | .next v => v.pwr.resetCause | _ => 9) = 2 ∧
    (match exec (.thermalReset 0 ⟨12000, 0, 105⟩) w0 with | .next v => v.pwr.resetCause | _ => 9) = 3 ∧
    (match exec (.thermalReset 0 ⟨12000, 0, 104⟩) w0 with | .next v => v.pwr.inReset | _ => true) = false ∧
    (match exec (.resetRelease (ms 100) ⟨12000, 0, 90⟩) (wInReset 3) with | .next v => v.pwr.inReset | _ => false) = true ∧
    (match exec (.resetRelease (ms 100) ⟨12000, 0, 89⟩) (wInReset 3) with | .next v => v.pwr.inReset | _ => true) = false := by decide +kernel

/-- 15 R486–R489: one level at a time, a millisecond apart; level 5 at 103 °C. -/
theorem test_throttle :
    (match exec (.throttleRaise (ms 1) ⟨12000, 0, 98⟩) w0 with | .next v => v.pwr.level | _ => 9) = 1 ∧
    (match exec (.throttleRaise (ms 1 - 1) ⟨12000, 0, 98⟩) w0 with | .next v => v.pwr.level | _ => 9) = 0 ∧
    (match exec (.throttleLower (ms 10) ⟨12000, 0, 95⟩) { w0 with pwr := { w0.pwr with level := 2 } } with | .next v => v.pwr.level | _ => 9) = 1 ∧
    (match exec (.throttleLower (ms 10) ⟨12000, 0, 96⟩) { w0 with pwr := { w0.pwr with level := 2 } } with | .next v => v.pwr.level | _ => 9) = 2 ∧
    (match exec (.level5 0 ⟨12000, 0, 103⟩) w0 with | .next v => v.pwr.level | _ => 9) = 5 ∧
    (match exec (.level5Exit (ms 10) ⟨12000, 0, 99⟩) { w0 with pwr := { w0.pwr with level := 5 } } with | .next v => v.pwr.level | _ => 9) = 4 := by
  decide +kernel

/-! ### 16: start-up and firmware -/

/-- FW_STAGE of 8 bytes at 8 of TARGET 1, erasing first. -/
def stageBytes : Bytes := bs [1, 1, 0, 0] ++ toBe 4 8 ++ bs [1, 2, 3, 4, 5, 6, 7, 8]

theorem test_wit_firmware :
    begins 0x0B03 0 (rq stageBytes) w0 = true ∧ plen (rq stageBytes) = 16 ∧ be stageBytes 4 4 + 8 ≤ stageSize 1 ∧ activating w0 1 = false ∧
    begins 0x0B04 0 (rq (zeros 72)) w0 = true ∧ plen (rq (zeros 72)) = 72 ∧ inTrial w0 = false ∧ targetSlot w0 = 1 := by decide +kernel

/-- 16 R507: the bytes are where they were put, and what was not staged reads erased. -/
theorem test_stage :
    (match exec (.fwStage 0 (rq stageBytes)) w0 with | .next v => stageRead v 1 7 10 | _ => []) = bs [0xFF, 1, 2, 3, 4, 5, 6, 7, 8, 0xFF] := by
  decide +kernel

/-- A set that runs in slot 0 in TRIAL since 0, slot 1 ACTIVE under it. -/
def wTrial (svn : Nat) : State :=
  { w0 with boot := { w0.boot with a := ⟨.trial, [1, 1, 1], [0, 0, 0], [[], [], []]⟩, b := ⟨.active, [svn, 1, 1], [0, 0, 0], [[], [], []]⟩, trialAt := some 0 } }

/-- A reply to FW_ACTIVATE is owed for `target`. -/
def wActivate (target : Nat) : State := { w0 with kry := { w0.kry with deferred := [⟨rq (zeros 72), some 0, .activate target⟩] } }

theorem test_wit_trial :
    (runningSet (wTrial 1)).st = .trial ∧ (wTrial 1).kry.ready = true ∧ ((wTrial 1).tick (sec 60 - 1)).now < 0 + sec 60 ∧
    (slotSet (wTrial 1) 1).st = .active ∧ activating (wActivate 0) 0 = true ∧ activating (wActivate 1) 1 = true ∧ (wActivate 0).kry.executing = none ∧
    ({ wTrial 1 with kry := { w0.kry with ready := false } }).kry.ready = false ∧ targetCopy w0 = 0 := by decide +kernel

/-- 16 R510, R511: 60 s make the trial ACTIVE and raise the counters; a set below them cannot be the fallback. -/
theorem test_trial :
    (match exec (.trialEnd (sec 60)) (wTrial 1) with | .next v => (v.boot.a.st, v.boot.b.st, v.boot.svnBoot, v.hlt.buf.length) | _ => (.empty, .empty, 9, 9)) =
      (.active, .fallback, 1, 3) ∧
    (match exec (.trialEnd (sec 60)) (wTrial 0) with | .next v => v.boot.b.st | _ => .empty) = .failed ∧
    (match exec (.trialEnd (sec 60 - 1)) (wTrial 1) with | .next v => v.boot.a.st | _ => .empty) = .trial ∧
    (match exec (.trialFailure 0 2) { wTrial 1 with kry := { w0.kry with ready := false } } with | .next v => (v.boot.a.st, v.boot.slot) | _ => (.empty, 9)) =
      (.failed, 1) := by decide +kernel

/-- What a sound part finds at power-on. -/
def pof : PowerOnFacts :=
  { mv := 11400, pufOk := true, pufCorr := 0, dirOk := true, countersOk := true, slotAOk := true, slotBOk := true, settings0Ok := true, settings1Ok := true,
    ret01 := 0, ret10 := 0, failedBasins := [], failedHalves := [], failedChannels := [], failedLanes := [], badWays := 131072 }

theorem test_wit_power_on :
    w0.pwr.inReset = false ∧ w0.boot.a.st = .active ∧ w0.boot.b.st ≠ .trial ∧ w0.boot.svnBoot ≤ w0.boot.a.svn.getD 0 0 ∧ w0.boot.b.st = .empty ∧
    pof.mv < 12600 ∧ ({ pof with mv := 11399 }).mv < 11400 := by decide +kernel

/-- 16 R494–R498: modes of a start. -/
theorem test_power_on :
    (match exec (.powerOn 0 pof) w0 with | .next v => (v.boot.mode, v.boot.bootCtr, v.hlt.buf.map (·.type)) | _ => (.recovery, 9, [])) =
      (.normal, 2, [0x50, 1, 0x52]) ∧
    (match exec (.powerOn 0 { pof with slotAOk := false }) w0 with | .next v => (v.boot.mode, v.boot.a.st) | _ => (.normal, .empty)) = (.recovery, .failed) ∧
    (match exec (.powerOn 0 { pof with countersOk := false }) w0 with | .next v => (v.boot.mode, v.boot.beaconCause) | _ => (.normal, 9)) = (.noIdentity, 2) := by
  decide +kernel

/-- NO_IDENTITY, port 512 up. -/
def wBeacon : State := { w0 with boot := { w0.boot with mode := .noIdentity, beaconCause := 1, lastBeacon := one 512 0 } }

theorem test_beacon :
    (match exec (.beacon (sec 1) 512) wBeacon with | .next v => v.out.length | _ => 9) = 1 ∧
    (match exec (.beacon (sec 1 - 1) 512) wBeacon with | .next v => v.out.length | _ => 9) = 0 ∧ wBeacon.portUp 512 = true ∧ wBeacon.mayReply 512 := by
  unfold State.mayReply; decide +kernel

/-! ### 17, 18: health and the TAP -/

def ev (type : Nat) : LedgerEv := ⟨type, srcOf 2 3, zeros 80⟩

theorem test_wit_ledger :
    ledgerType 0x30 = true ∧ ledgerType 0x54 = false ∧ permType 0x10 = true ∧ permType 0x30 = false ∧ ringCount w0.hlt.buf < 448 ∧
    begins 0x0C04 0 (rq (zeros 16 ++ toBe 4 496 ++ zeros 4)) w0 = true ∧ begins 0x0C05 0 (rq (bs [1, 0, 0, 0, 0, 0, 0, 0])) w0 = true ∧
    begins 0x0C03 0 (rq (zeros 8 ++ bs [0, 1] ++ zeros 6 ++ bs [2, 1, 0, 0, 0, 0, 0, 0])) w0 = true ∧
    itemOk w0 none (gaugeItem (zeros 16 ++ bs [2, 1, 0, 0, 0, 0, 0, 0]) 0) = true ∧ w0.hlt.lastMargin + sec 86400 ≤ (w0.tick (sec 86400)).now ∧
    w0.sec.dbg.getLsbD 1 = false := by decide +kernel

/-- 17 R518: an equal event within 1 s is counted in its record, a permanent one is not. -/
theorem test_ledger :
    (match exec (.ledgerEvent 0 (ev 0x30)) w0 with
      | .next v => match exec (.ledgerEvent 1 (ev 0x30)) v with | .next x => x.hlt.buf.map (·.count) | _ => []
      | _ => []) = [2] ∧
    (match exec (.ledgerEvent 0 (ev 0x10)) w0 with
      | .next v => match exec (.ledgerEvent 1 (ev 0x10)) v with | .next x => x.hlt.buf.map (·.count) | _ => []
      | _ => []) = [1, 1] ∧
    (match exec (.ledgerEvent 0 (ev 0x30)) w0 with
      | .next v => match exec (.ledgerFlashWrite 1) v with | .next x => (x.hlt.ring.map (·.rseq), x.hlt.next, x.hlt.buf.length) | _ => ([], 9, 9)
      | _ => ([], 9, 9)) = ([0], 1, 0) := by decide +kernel

/-- 18 R544: IDCODE. -/
theorem test_tap : (match exec (.tapOperation 0 1) w0 with | .next v => v.out | _ => []) = [.tap (BitVec.ofNat 32 hdwId)] := by
  rfl

/-- A test of that resource, draining or not. -/
def tst (kind id : Nat) (draining : Bool) : Test := ⟨kind, id, 0, false, 0, draining, false⟩

def wTest (t : Test) : State := { wLev with hlt := { wLev.hlt with tests := [t] } }

theorem test_wit_tests :
    testExists 1 255 = true ∧ testExists 1 256 = false ∧ testExists 2 31 = true ∧ testExists 3 511 = true ∧
    begins 0x0C01 0 (rq (bs [1, 0, 0, 255, 0, 0, 0, 0])) wLev = true ∧ begins 0x0C02 0 (rq (bs [2, 0, 0, 31, 0, 0, 0, 0])) wLev = true ∧
    wLev.hlt.tests = [] ∧ wLev.hlt.replay = none ∧ heldOut { wLev with hlt := { wLev.hlt with retiredHalves := [3] } } 2 3 = true ∧
    findTest (wTest (tst 2 3 true)) 2 3 = some (tst 2 3 true) ∧ resourceIdle (wTest (tst 1 3 true)) 1 3 = true ∧
    testReady (wTest (tst 1 3 false)) (tst 1 3 false) = true ∧ isTenantBank (3 / 2) = false ∧ wLev.pwr.window = false ∧
    resourceIdle (wChain (chn .waiting dLoad 1) {} []) 1 0 = false := by decide +kernel

/-- 17 R524–R526: a half drains out of rotation, and is retired by a failure. -/
theorem test_tests :
    (match exec (.selftest 0 (rq (bs [1, 0, 0, 255, 0, 0, 0, 0]))) wLev with | .next v => (v.hlt.tests.length, (v.basin 255).draining) | _ => (9, false)) =
      (1, true) ∧
    (match exec (.drainWaitExpiry 0 2 3) (wTest (tst 2 3 true)) with | .next v => (v.scr.out, v.hlt.tests.map (·.draining)) | _ => ([], [])) = ([3], [false]) ∧
    (match exec (.testComplete 0 2 3 2 (zeros 8)) (wTest (tst 2 3 false)) with | .next v => (v.hlt.retiredHalves, v.hlt.tests.length) | _ => ([], 9)) =
      ([3], 0) ∧
    (match exec (.testComplete 0 1 3 2 (zeros 8)) (wTest (tst 1 3 false)) with | .next v => ((v.basin 3).quar, (v.basin 3).power) | _ => (.none, .active)) =
      (.full, .off) := by decide +kernel

/-- Basin 0 CONDITIONAL above 80 °C, or HELD_OUT since 0. -/
def wQuar (q : Quar) : State := { wLev with bsn := { wLev.bsn with tab := one 0 { quar := q, quarTemp := 80, quarMask := 0 } } }

/-- 17 R529: held out at its threshold, let in again 3 °C below it for 10 ms. -/
theorem test_hold_out :
    (match exec (.holdOut 0 0 80 0) (wQuar .conditional) with | .next v => (v.basin 0).quar | _ => .none) = .heldOut ∧
    (match exec (.holdOut 0 0 79 0) (wQuar .conditional) with | .next v => (v.basin 0).quar | _ => .none) = .conditional ∧
    (match exec (.holdOutEnd (ms 100) 0 78) (wQuar .heldOut) with | .next v => (v.basin 0).coolSince | _ => some 9) = none ∧
    (match exec (.holdOutEnd (ms 90) 0 77) (wQuar .heldOut) with
      | .next v => match exec (.holdOutEnd (ms 100) 0 77) v with | .next x => (x.basin 0).quar | _ => .none
      | _ => .none) = .conditional := by decide +kernel

/-- Basin 0 named once before. -/
def wSusp (q : Quar) (temp load : Nat) : State :=
  { wLev with hlt := { wLev.hlt with suspects := [(0, 0, temp, load)] }, bsn := { wLev.bsn with tab := one 0 { quar := q } } }

theorem test_wit_suspects :
    wLev.hlt.quarCount.toNat = 2 ∧ wLev.hlt.quarHours.toNat = 24 ∧ wLev.hlt.tfloor.toNat = 75 ∧ (0xF0 &&& 0x30) = 0x30 := by decide +kernel

/-- 17 R528: the lowest temperature decides. -/
theorem test_suspects :
    ((nameSuspect 0 90 0x30 (wSusp .none 80 0xF0)).basin 0).quar = .conditional ∧ ((nameSuspect 0 90 0x30 (wSusp .none 80 0xF0)).basin 0).quarTemp = 77 ∧
    ((nameSuspect 0 90 0x30 (wSusp .none 80 0xF0)).basin 0).quarMask = 0x30 ∧ ((nameSuspect 0 90 0x0F (wSusp .none 70 0xF0)).basin 0).quar = .full ∧
    ((nameSuspect 0 90 0x30 (wSusp .conditional 80 0xF0)).basin 0).quar = .full ∧ ((nameSuspect 0 90 0 wLev).basin 0).quar = .none := by decide +kernel

/-- The recorder armed for TRIGGER 2 on every basin; basin 0's last operation failed a tile check. -/
def wArm (status : Nat) : State :=
  { wLev with hlt := { wLev.hlt with arm := some ⟨2, 0, 0xFFFF, 0, 0⟩ }, bsn := { wLev.bsn with tab := one 0 { last := some ⟨0, 1, 0, dLoad, [], status⟩ } } }

def capt : CaptureRec := { trigger := 6, set := 0, trunc := false, bytes := zeros 16, desc := dLoad, crcChecking := 0 }

def wCapt : State := { wLev with hlt := { wLev.hlt with captures := one 0 capt } }

def wReplay : State := { wCapt with hlt := { wCapt.hlt with replay := some ⟨0, 0, 0, 0, 1500, 1⟩ } }

theorem test_wit_recorder :
    triggerMet ⟨2, 0, 0xFFFF, 0, 0⟩ ⟨0, 1, 0, dLoad, [], 0x70⟩ = true ∧ triggerMet ⟨2, 0, 0xFFFF, 0, 0⟩ ⟨0, 1, 0, dLoad, [], 0⟩ = false ∧
    wLev.confActive = false ∧ Tab.lowestFree wLev.hlt.captures 16 = some 0 ∧ begins 0x0D01 0 (rq (bs [5, 3, 0xFF, 0xFF] ++ zeros 12)) wLev = true ∧
    begins 0x0D02 0 (rq (zeros 16 ++ toBe 4 8 ++ zeros 4)) wCapt = true ∧ Tab.get? wCapt.hlt.captures 0 = some capt ∧
    begins 0x0D03 0 (rq (bs [0, 0, 0, 0, 196, 40] ++ toBe 2 3450 ++ bs [0, 1] ++ zeros 6)) wCapt = true ∧ voffMv 196 = 60 ∧
    drained wReplay 0 = true ∧ drained wReplay 1 = true ∧ drained (wQ []) 0 = false := by decide +kernel

/-- 17 R531–R534: one capture, a read back, a replay that ends. -/
theorem test_recorder :
    (match exec (.capture 0 0 2) (wArm 0x70) with | .next v => (v.hlt.captures.map (·.1), v.hlt.arm.isSome) | _ => ([], true)) = ([0], false) ∧
    (match exec (.capture 0 0 2) (wArm 0) with | .next v => (v.hlt.captures.map (·.1), v.hlt.arm.isSome) | _ => ([9], false)) = ([], true) ∧
    (match exec (.recReplay 0 (rq (bs [0, 0, 0, 0, 196, 40] ++ toBe 2 3450 ++ bs [0, 1] ++ zeros 6))) wCapt with
      | .next v => (v.hlt.replay.isSome, (v.basin 0).draining, (v.basin 1).draining)
      | _ => (false, false, false)) = (true, true, true) ∧
    (match exec (.replayComplete 0 1 0 40 0) wReplay with | .next v => v.hlt.replay | _ => some ⟨9, 9, 9, 9, 9, 9⟩) = none := by decide +kernel

/-! ### What every step keeps -/

theorem test_wit_memories : Mem.wf (withPool [(0, 7)]).cis.pool = true ∧ Mem.wf (wQ [(5, 7)]).bsn.store = true := by decide +kernel

/-! ### Well-formedness refuses what no sender can form -/

def wfNet : Net := default
def wfFrame : Frame :=
  { port := 0, len := 64, dmac := 0, smac := 0, vlan := none, etype := 0x0800, ip := none, bth := none, sec := none, fcsOk := true,
    payload := zeros 40 }
def wfReq : KReq := { rq (zeros 8) with hdr := zeros 32, auth := zeros 16 }

def wfPkt : Packet := { (default : Packet) with body := zeros 40 }

theorem test_wf_packets :
    wfPkt.wf 40 = true ∧ (Instr.cRdShared 0 { wfPkt with body := bs [1] ++ zeros 31 }).wf = true ∧
    (Instr.cWriteFull 0 { wfPkt with body := bs [5] ++ zeros 287 }).wf = true := by decide +kernel

theorem test_wf_accepts : wfReq.wf = true ∧ wfFrame.wf = true ∧ (Instr.echo 0 wfReq).wf = true ∧ (Instr.frameReceive 0 wfFrame).wf = true := by
  decide +kernel

theorem test_wf_krytic :
    [{ wfReq with port := 516 }, { wfReq with cls := 8 }, { wfReq with sess := .levee 0 }, { wfReq with version := 256 },
     { wfReq with opcode := 65536 }, { wfReq with levee := 65536 }, { wfReq with term := 2 ^ 32 }, { wfReq with seq := 2 ^ 32 },
     { wfReq with tag := 2 ^ 32 }, { wfReq with frags := [] }, { wfReq with frags := [zeros 7] }, { wfReq with frags := [zeros 4056] },
     { wfReq with seqs := [2 ^ 32] }, { wfReq with hdr := zeros 31 }, { wfReq with auth := [] },
     { wfReq with net := { wfNet with srcMac := 2 ^ 48 } }].all (fun r => !r.wf) = true := by decide +kernel

theorem test_wf_frame :
    [{ wfFrame with port := 516 }, { wfFrame with len := 65536 }, { wfFrame with dmac := 2 ^ 48 }, { wfFrame with smac := 2 ^ 48 },
     { wfFrame with vlan := some ⟨4096, 0, 0⟩ }, { wfFrame with etype := 65536 }, { wfFrame with len := 39 },
     { wfFrame with sec := some { (default : SecTag) with an := 4 } }, { wfFrame with bth := some { (default : Bth) with op := 256 } },
     { wfFrame with ip := some { (default : IpHdr) with ttl := 256 } }].all (fun f => !f.wf) = true := by decide +kernel

theorem test_wf_addresses :
    (Ip.wf ⟨5, 0⟩ || Ip.wf ⟨4, 2 ^ 32⟩ || Ip.wf ⟨6, 2 ^ 128⟩ || Ip.wf ⟨0, 1⟩ || Vlan.wf ⟨0, 8, 0⟩ || Vlan.wf ⟨0, 0, 2⟩) = false := by
  decide +kernel

theorem test_wf_requests :
    [{ wfPkt with port := 512 }.wf 40, { wfPkt with die := 2 }.wf 40, { wfPkt with body := zeros 39 }.wf 40,
     { wfPkt with ver := 2 }.wf 40, { (default : RdmaReq) with qpn := 2 ^ 24 }.wf,
     { (default : RdmaReq) with va := 2 ^ 64 }.wf, (Instr.pPhase 0 128 wfPkt).wf, { wfPkt with levee := 1024 }.wf 40,
     (Instr.cWriteFull 0 { wfPkt with body := bs [5] ++ zeros 31 }).wf, (Instr.cRdShared 0 { wfPkt with body := bs [2] ++ zeros 31 }).wf,
     { (default : Post) with queue := 4096 }.wf, { (default : LedgerEv) with body := zeros 81 }.wf,
     { (default : Sample) with mv := 65536 }.wf, { (default : PowerOnFacts) with failedBasins := [256] }.wf,
     { (default : IntFrame) with cls := 8 }.wf].all (fun b => !b) = true := by decide +kernel

theorem test_wf_commands :
    [Instr.pfcXon 0 516 0, .pfcXon 0 0 8, .divisionBoxCopy 0 16, .linkUp 0 516, .flipEffect 0 0, .flipEffect 0 11,
     .culvertFlitReplay 0 2 0, .bundleRetirement 0 0 16 0, .culvertFailure 0 2, .trayFailed 0 256, .allotmentReleased 0 65536,
     .quotaLowered 0 2 0, .quotaLowered 0 0 1024, .publishCommit 0 8192, .basinWake 0 256, .load 0 256, .bankWake 0 16,
     .memberSilent 0 0 512, .formerKeyExpiry 0 1024, .droopStretch 0 2].all (fun i => !i.wf) = true := by decide +kernel

/-- 10 R335: e^(−1) to 24 bits, and the floor of 1 ÷ 2, 1 ÷ 3 and 1 in FP32. -/
theorem test_softmax_parts :
    expNeg (2 ^ 149) * 2 ^ 24 / 2 ^ 448 = 6171992 ∧ weightFloor 1 2 = 0x3F000000 ∧ weightFloor 1 3 = 0x3EAAAAAA ∧
      weightFloor 7 7 = 0x3F800000 ∧ weightFloor 0 5 = 0 := by decide +kernel

/-- Witnesses of hypotheses on a retiring levee, an armed admission and a thermal reset's wait. -/
theorem test_wit_standing :
    (wBank bank0).retiring 1 = false ∧ w0.flt.armed = none ∧ (wInReset 3).pwr.cooling = true ∧ (wInReset 1).pwr.cooling = false := by
  decide +kernel

end Sys2Proof.Tests
end

section
/-! SUPPORT. The sequence window (02 R49) and the commands that only read (02 R69, R71, 03 R113, 04 R130): lemmas and the
statements they settle. -/

namespace Sys2Proof.Machine

/-! ### Sessions and their keys -/

@[simp] theorem State.tick_sessKey (s : State) (t : Time) (x : Sess) : (s.tick t).sessKey x = s.sessKey x := by
  cases x <;> rfl

@[simp] theorem State.tick_session (s : State) (t : Time) (x : Sess) : (s.tick t).session x = s.session x := by
  cases x <;> rfl

@[simp] theorem State.session_setSession_self (s : State) (x : Sess) (v : Session) : (s.setSession x v).session x = v := by
  cases x <;> simp [State.setSession, State.session]

/-! ### Where a SEQUENCE lies -/

/-- The d of 02 R49: how far a SEQUENCE lies past H, modulo 2³². -/
def winDist (h q : Nat) : Nat := (q % 2 ^ 32 + 2 ^ 32 - h % 2 ^ 32) % 2 ^ 32

/-- `winPos` decides by the distance alone. -/
theorem winPos_some (h q : Nat) :
    winPos (some h) q =
      if winDist h q = 0 ∨ 2 ^ 32 - 63 ≤ winDist h q then .inside else if winDist h q < 2 ^ 31 then .above else .below :=
  rfl

@[simp] theorem winPos_none (q : Nat) : winPos none q = .above := rfl

theorem winPos_inside_iff (h q : Nat) : winPos (some h) q = .inside ↔ winDist h q = 0 ∨ 2 ^ 32 - 63 ≤ winDist h q := by
  rw [winPos_some]
  split_ifs <;> simp only [true_iff, false_iff] <;> omega

theorem winPos_above_iff (h q : Nat) : winPos (some h) q = .above ↔ 0 < winDist h q ∧ winDist h q < 2 ^ 31 := by
  rw [winPos_some]
  split_ifs <;> simp only [true_iff, false_iff] <;> omega

theorem winPos_below_iff (h q : Nat) : winPos (some h) q = .below ↔ 2 ^ 31 ≤ winDist h q ∧ winDist h q < 2 ^ 32 - 63 := by
  rw [winPos_some]
  split_ifs <;> simp only [true_iff, false_iff] <;> omega

/-- Going the distance forward from H leads to the SEQUENCE, and no other step does. -/
theorem eq_add_mod_iff_winDist {h q d : Nat} (hh : h < 2 ^ 32) (hq : q < 2 ^ 32) (hd : d < 2 ^ 32) :
    q = (h + d) % 2 ^ 32 ↔ winDist h q = d := by
  unfold winDist
  omega

/-- Going forward from the SEQUENCE to H takes the rest of the circle. -/
theorem add_mod_eq_iff_winDist {h q d : Nat} (hh : h < 2 ^ 32) (hq : q < 2 ^ 32) (hd : d < 2 ^ 32) :
    (q + d) % 2 ^ 32 = h ↔ winDist h q = (2 ^ 32 - d) % 2 ^ 32 := by
  unfold winDist
  omega

theorem winDist_lt (h q : Nat) : winDist h q < 2 ^ 32 := Nat.mod_lt _ (by decide)

/-- Inside the window: one of the 64 numbers that end at H. -/
theorem winPos_inside_iff_behind {h q : Nat} (hh : h < 2 ^ 32) (hq : q < 2 ^ 32) :
    winPos (some h) q = .inside ↔ ∃ d < 64, (q + d) % 2 ^ 32 = h := by
  have hlt := winDist_lt h q
  rw [winPos_inside_iff]
  constructor
  · intro hin
    refine ⟨(2 ^ 32 - winDist h q) % 2 ^ 32, by omega, ?_⟩
    rw [add_mod_eq_iff_winDist hh hq (by omega)]
    omega
  · rintro ⟨d, hd, he⟩
    rw [add_mod_eq_iff_winDist hh hq (by omega)] at he
    omega

theorem winPos_above_iff_ahead {h q : Nat} (hh : h < 2 ^ 32) (hq : q < 2 ^ 32) :
    winPos (some h) q = .above ↔ ∃ d, 0 < d ∧ d < 2 ^ 31 ∧ q = (h + d) % 2 ^ 32 := by
  rw [winPos_above_iff]
  constructor
  · rintro ⟨hpos, hlt⟩
    exact ⟨winDist h q, hpos, hlt, (eq_add_mod_iff_winDist hh hq (winDist_lt h q)).2 rfl⟩
  · rintro ⟨d, hpos, hlt, he⟩
    rw [(eq_add_mod_iff_winDist hh hq (by omega)).1 he]
    exact ⟨hpos, hlt⟩

theorem winPos_below_iff_ahead {h q : Nat} (hh : h < 2 ^ 32) (hq : q < 2 ^ 32) :
    winPos (some h) q = .below ↔ ∃ d, 2 ^ 31 ≤ d ∧ d < 2 ^ 32 - 63 ∧ q = (h + d) % 2 ^ 32 := by
  rw [winPos_below_iff]
  constructor
  · rintro ⟨hle, hlt⟩
    exact ⟨winDist h q, hle, hlt, (eq_add_mod_iff_winDist hh hq (winDist_lt h q)).2 rfl⟩
  · rintro ⟨d, hle, hlt, he⟩
    rw [(eq_add_mod_iff_winDist hh hq (by omega)).1 he]
    exact ⟨hle, hlt⟩

/-! ### A window takes a SEQUENCE -/

theorem Session.take_high_of_above {x : Session} {q : Nat} (h : winPos x.high q = .above) : (x.take q).high = some q := by
  simp [Session.take, h]

theorem Session.take_high_of_inside {x : Session} {q : Nat} (h : winPos x.high q = .inside) : (x.take q).high = x.high := by
  simp [Session.take, h]

theorem Session.mem_take_seen (x : Session) (q : Nat) : q ∈ (x.take q).seen := List.mem_cons_self ..

/-- What a window remembers besides the SEQUENCE just taken lies inside it. -/
theorem Session.take_seen_inside {x : Session} {q e : Nat} (h : e ∈ (x.take q).seen) :
    winPos (x.take q).high e = .inside ∨ e = q := by
  rcases List.mem_cons.1 h with rfl | he
  · exact .inr rfl
  · exact .inl (beq_iff_eq.1 (List.mem_filter.1 he).2)

/-- A window keeps the replies to SEQUENCEs inside it, and no others. -/
theorem Session.take_cache_inside {x : Session} {q : Nat} {e : Nat × List Reply} (h : e ∈ (x.take q).cache) :
    winPos (x.take q).high e.1 = .inside :=
  beq_iff_eq.1 (List.mem_filter.1 h).2

/-- A packet of one SEQUENCE leaves its session with that SEQUENCE taken. -/
theorem taken_session {r : KReq} (t : Time) (s : State) (h : r.seqs = []) :
    (taken r t s).session r.sess = (s.session r.sess).take r.seq := by
  rw [taken_single t s h, State.session_setSession_self, State.tick_session]

/-! ### Step 4 of Table KCP-3, case by case -/

theorem seqCheck_below {r : KReq} {s : State} (h : winPos (s.session r.sess).high r.seq = .below) :
    seqCheck r s = (s.dropSeq, false) := by
  simp [seqCheck, h]

section
variable {r : KReq} {s : State} (h : winPos (s.session r.sess).high r.seq = .inside)
include h

theorem seqCheck_answered {rs : List Reply} (hc : Tab.get? (s.session r.sess).cache r.seq = some rs) :
    seqCheck r s = (s.resend r rs, false) := by
  simp [seqCheck, h, hc]

theorem seqCheck_running (hc : Tab.get? (s.session r.sess).cache r.seq = none) (hm : r.seq ∈ (s.session r.sess).seen) :
    seqCheck r s = (s, false) := by
  simp [seqCheck, h, hc, hm]

theorem seqCheck_new (hc : Tab.get? (s.session r.sess).cache r.seq = none) (hm : r.seq ∉ (s.session r.sess).seen) :
    seqCheck r s = (s.setSession r.sess ((s.session r.sess).take r.seq), true) := by
  simp [seqCheck, h, hc, hm]

end

/-! ### The row of a command by what step 4 decides -/

section
variable {op : Nat} {t : Time} {r : KReq} {s : State} (body : Body)

theorem command_no_key (hk : s.sessKey r.sess = none) : command op body t r s = .next (s.tick t).dropAuth := by
  simp [command, arrive, hk]

/-- A packet that step 4 stops leaves the state step 4 gives. -/
theorem command_stopped {v : State} (hk : s.sessKey r.sess ≠ none)
    (hs : seqCheck { r with opcode := op } (s.tick t) = (v, false)) : command op body t r s = .next v := by
  simp [command, arrive, hk, hs]

/-- A packet that passes step 4 is judged on the state with its window moved. -/
theorem command_passes (hk : s.sessKey r.sess ≠ none)
    (hs : seqCheck { r with opcode := op } (s.tick t) =
      ((s.tick t).setSession r.sess (((s.tick t).session r.sess).take r.seq), true)) :
    command op body t r s = .next (judgePacket body { r with opcode := op } (taken r t s)) := by
  simp [command, arrive, hk, hs, taken]

end

/-- Settles O10: the window's three regions by the distance of 02 R49, the empty window a key comes with, and the row of a
command by the outcome of step 4. -/
theorem sequenceWindowIsKeptAndChecked : Obligations.SequenceWindowIsKeptAndChecked := by
  refine ⟨?regions, ?startsEmpty, ?row⟩
  case regions =>
    exact fun h q hh hq =>
      ⟨winPos_inside_iff_behind hh hq, winPos_above_iff_ahead hh hq, winPos_below_iff_ahead hh hq, winPos_none q⟩
  case startsEmpty =>
    intro k term ttl l r s
    simp [takeover, setLeveeKey, State.session]
  case row =>
    intro op body t r s
    -- step 4 meets the session of `s`: the instant reached does not touch it
    have hx : (s.tick t).session r.sess = s.session r.sess := s.tick_session t r.sess
    rw [← hx]
    refine ⟨fun hk => command_no_key body hk, fun hk => ⟨?below, ?above, ?new, ?answered, ?running⟩⟩
    case below => exact fun hw => command_stopped body hk (seqCheck_below hw)
    case above =>
      refine fun hw => ⟨command_passes body hk (seqCheck_above hw), fun hq => ?_⟩
      rw [taken_session t s hq, ← hx, ← Session.take_high_of_above hw]
      exact ⟨rfl, Session.mem_take_seen _ _, fun q => Session.take_seen_inside, fun e => Session.take_cache_inside⟩
    case new =>
      refine fun hw hc hm => ⟨command_passes body hk (seqCheck_new hw hc hm), fun hq => ?_⟩
      rw [taken_session t s hq, ← hx]
      exact ⟨Session.take_high_of_inside hw, Session.mem_take_seen _ _⟩
    case answered => exact fun rs hw hc => command_stopped body hk (seqCheck_answered hw hc)
    case running => exact fun hw hc hm => command_stopped body hk (seqCheck_running hw hc hm)

/-! ### Commands that only read -/

/-- Checks none of which fails let the command go on. -/
theorem checks_pass {s : State} {cs : List (Bool × Nat)} {k : Unit → Ans} (h : ∀ c ∈ cs, c.1 = false) :
    checks s cs k = k () := by
  induction cs with
  | nil => rfl
  | cons c cs ih =>
    rw [checks, h c (List.mem_cons_self ..)]
    exact ih fun d hd => h d (List.mem_cons_of_mem _ hd)

section
variable {r : KReq} {s : State}

theorem bodyDeviceInfo_done (hlen : plen r = 0) :
    bodyDeviceInfo r s = done s [toBe 4 hdwId ++
      toBe 8 (if s.boot.mode = .recovery then 0 else (runningSet s).version.getD 1 0) ++ toBe 1 s.kry.lease.st.code ++
      zeros 3 ++ toBe 4 s.kry.lease.term ++ zeros 4 ++ slice Config.devid 0 32] :=
  checks_pass (by simp [hlen])

theorem bodyReadCsr_done (hlen : plen r = 8) (hmin : 1 ≤ be (par r) 4 2) (hmax : be (par r) 4 2 ≤ 1012)
    (hrange : badRange (be (par r) 0 4) (be (par r) 4 2) = false) :
    bodyReadCsr r s =
      done s [(List.range (be (par r) 4 2)).flatMap fun i => toBe 4 (readReg s (be (par r) 0 4 + 4 * i))] :=
  checks_pass (by simp [hlen, hmax, hrange, Nat.pos_iff_ne_zero.1 hmin])

theorem bodyEcho_done (hmin : 8 ≤ plen r) (hmax : plen r ≤ 64) : bodyEcho r s = done s [par r] :=
  checks_pass (by simp [hmin, hmax])

theorem bodyPortState_done (hlen : plen r = 8) (hport : s.portExists (be (par r) 0 2) = true) :
    bodyPortState r s =
      done s [toBe 4 ((s.port (be (par r) 0 2)).linkWord s.now) ++ toBe 4 (s.port (be (par r) 0 2)).wdWord] :=
  checks_pass (by simp [hlen, hport])

theorem bodyPortGauges_done (hone : oneFrag r = true) (hlen : plen r = 16 + roundUp (2 * be (par r) 8 2) 8)
    (hmin : 1 ≤ be (par r) 8 2) (hmax : be (par r) 8 2 ≤ 192)
    (hports : ∀ i < be (par r) 8 2, s.portExists (be (par r) (16 + 2 * i) 2) = true) :
    bodyPortGauges r s =
      done s ((runs 12 ((List.range (be (par r) 8 2)).map fun i => be (par r) (16 + 2 * i) 2) 17).map fun l =>
        toBe 2 l.length ++ zeros 6 ++ (l.map fun n => portGaugeBytes n s).flatten) :=
  checks_pass (by simpa [hone, hlen, hmax, Nat.pos_iff_ne_zero.1 hmin] using hports)

/-- The state code of a table in a TABLE_STATUS reply (04 R130). -/
def verStateCode : VerState → Nat
  | .ready => 0
  | .draining => 1
  | .copying => 2

theorem bodyTableStatus_done (hlen : plen r = 8) (hmin : 1 ≤ byteAt (par r) 0) (hmax : byteAt (par r) 0 ≤ 10) :
    bodyTableStatus r s =
      done s [toBe 1 (s.table (byteAt (par r) 0)).active ++ toBe 1 (verStateCode (s.table (byteAt (par r) 0)).st) ++ zeros 2 ++
        toBe 4 (min ((s.table (byteAt (par r) 0)).inflight (1 - (s.table (byteAt (par r) 0)).active)) 0xFFFFFFFF) ++
        toBe 4 (activeEntries s (byteAt (par r) 0)) ++ zeros 4] :=
  checks_pass (by simp [hlen, hmax, Nat.pos_iff_ne_zero.1 hmin])

end

/-- An aligned range that ends at or below 0x0D00_0000 is one a register command may name (02 R71). -/
theorem badRange_eq_false {a n : Nat} (halign : a % 4 = 0) (hend : a + 4 * n ≤ 0x0D000000) : badRange a n = false := by
  simp [badRange, halign, hend]

/-- A command that begins at once, and whose body is done, is answered OK. -/
theorem command_answers {op : Nat} {t : Time} {r : KReq} {s u : State} {body : Body} {frags : List Bytes}
    (hb : begins op t r s = true) (hd : body { r with opcode := op } (taken r t s) = done u frags) :
    command op body t r s = okReply op r u frags := by
  rw [command_begins body hb, hd, okReply]

/-- A command begins only while the controller is ready. -/
theorem ready_of_begins {op : Nat} {t : Time} {r : KReq} {s : State} (hb : begins op t r s = true) : s.kry.ready = true := by
  simp only [begins, State.canBegin, Bool.and_eq_true] at hb
  obtain ⟨⟨⟨⟨-, hready, -⟩, -⟩, -⟩, -⟩ := hb
  exact hready

/-- While the controller is ready, ECHO is a command like the others (02 R64). -/
theorem exec_echo_of_ready {t : Time} {r : KReq} {s : State} (h : s.kry.ready = true) :
    exec (.echo t r) s = command 0x0105 bodyEcho t r s := by
  have hc : echo r (s.tick t) = arrive bodyEcho { r with opcode := 0x0105 } (s.tick t) := if_pos h
  exact congrArg _ hc

/-- Settles O3: each command begins at once, its checks pass, and its body is done on the state it met. -/
theorem readingCommandsAnswer : Obligations.ReadingCommandsAnswer := by
  intro t r s
  refine ⟨?deviceInfo, ?readCsr, ?echo, ?portState, ?portGauges, ?tableStatus⟩
  case deviceInfo => exact fun hb hlen => command_answers hb (bodyDeviceInfo_done hlen)
  case readCsr =>
    exact fun hb hlen hmin hmax halign hend =>
      command_answers hb (bodyReadCsr_done hlen hmin hmax (badRange_eq_false halign hend))
  case echo =>
    intro hb hmin hmax
    rw [exec_echo_of_ready (ready_of_begins hb)]
    exact command_answers hb (bodyEcho_done hmin hmax)
  case portState => exact fun hb hlen hport => command_answers hb (bodyPortState_done hlen hport)
  case portGauges =>
    intro hb hfrags hlen hmin hmax hports
    have hone : oneFrag r = true := by simp [oneFrag, hfrags]
    exact command_answers hb (bodyPortGauges_done hone hlen hmin hmax hports)
  case tableStatus => exact fun hb hlen hmin hmax => command_answers hb (bodyTableStatus_done hlen hmin hmax)

end Sys2Proof.Machine
end

section
/-! SUPPORT. Versions of the two-version tables from flip to READY (04 R126–R129, Table SWC-5): lemmas and the statement they
settle. -/

namespace Sys2Proof.Machine

/-! ### Tables, translation entries and allotments after a write -/

section
variable (s : State)

@[simp] theorem State.tick_table (t : Time) (k : Nat) : (s.tick t).table k = s.table k := rfl

@[simp] theorem State.table_setTable_self (k : Nat) (x : SwTable) : (s.setTable k x).table k = x := Tab.getD_set_self ..

@[simp] theorem State.setXl_table (v : Nat) (l : List Nat) (k : Nat) : (s.setXl v l).table k = s.table k := rfl

@[simp] theorem State.xl_setXl_self (v : Nat) (l : List Nat) : (s.setXl v l).xl v = l := by
  by_cases h : v = 0 <;> simp [State.setXl, State.xl, h]

/-- The two versions are 0 and 1: entries written to the one leave the other alone. -/
theorem State.xl_setXl_other {v : Nat} (hv : v ≤ 1) (l : List Nat) : (s.setXl (1 - v) l).xl v = s.xl v := by
  obtain rfl | rfl : v = 0 ∨ v = 1 := by omega
  all_goals simp [State.setXl, State.xl]

theorem State.modAllot_allot (a b : Nat) (f : Allot → Allot) :
    (s.modAllot a f).allot b = if a = b then (s.allot a).map f else s.allot b := Tab.get?_upd ..

@[simp] theorem State.count_sw (g : GaugeKey) (n : Nat) : (s.count g n).sw = s.sw := rfl

@[simp] theorem State.ledger_sw (type source : Nat) (b : Bytes) : (s.ledger type source b).sw = s.sw := by
  obtain ⟨h, g, e⟩ := s.ledger_eq type source b
  rw [e]

@[simp] theorem State.ledger_mem (type source : Nat) (b : Bytes) : (s.ledger type source b).mem = s.mem := by
  obtain ⟨h, g, e⟩ := s.ledger_eq type source b
  rw [e]

end

/-- A table is read from the switch core alone. -/
theorem State.table_of_sw {s u : State} (h : u.sw = s.sw) (k : Nat) : u.table k = s.table k := by
  rw [State.table, h, State.table]

/-! ### The two counts of a table -/

section
variable (x : SwTable) (v n : Nat)

@[simp] theorem SwTable.setInflight_active : (x.setInflight v n).active = x.active := by
  by_cases h : v = 0 <;> simp [SwTable.setInflight, h]

@[simp] theorem SwTable.inflight_setInflight_self : (x.setInflight v n).inflight v = n := by
  by_cases h : v = 0 <;> simp [SwTable.setInflight, SwTable.inflight, h]

/-- Writing one version's count leaves the other version's. -/
@[simp] theorem SwTable.inflight_setInflight_other : (x.setInflight v n).inflight (1 - v) = x.inflight (1 - v) := by
  obtain h | h : v = 0 ∨ 1 - v = 0 := by omega
  · simp [SwTable.setInflight, SwTable.inflight, h]
  · have hv : v ≠ 0 := by omega
    simp [SwTable.setInflight, SwTable.inflight, h, hv]

end

/-! ### The flip (R126) -/

/-- What a flip that takes effect makes of a table: the other version is active, the old one drains (R126, R129). -/
def SwTable.flipped (x : SwTable) (now limit : Nat) : SwTable :=
  { x with pending := false, active := 1 - x.active, st := .draining, flipAt := now, limitMs := limit }

theorem flipEffect_of_ne_nine {k : Nat} (s : State) (hk : k ≠ 9) :
    flipEffect k s = s.setTable k ((s.table k).flipped s.now (retireMs s)) := if_neg hk

theorem flipEffect_nine (s : State) :
    flipEffect 9 s =
      activateAllots (1 - (s.table 9).active) (s.setTable 9 ((s.table 9).flipped s.now (retireMs s))) := rfl

/-- A committed flip takes effect in a state whose other version is READY and, for SCREEN_FWD, that holds no staged forward
batch (12 R398). -/
def flipDue (k : Nat) (s : State) : Bool :=
  (s.table k).pending && (s.table k).st == .ready && !(k == 10 && s.scr.batches.any fun b => b.cls == 0)

theorem flipDue_iff (k : Nat) (s : State) :
    flipDue k s = true ↔
      (s.table k).pending = true ∧ (s.table k).st = .ready ∧ (k = 10 → ∀ b ∈ s.scr.batches, b.cls ≠ 0) := by
  simp [flipDue, imp_iff_not_or, and_assoc]

section
variable {t : Time} {k : Nat} {s : State}

theorem exec_flipEffect_of_due (h : flipDue k s = true) : exec (.flipEffect t k) s = .next (flipEffect k (s.tick t)) :=
  congrArg Host.Outcome.next (if_pos h)

theorem exec_flipEffect_of_not_due (h : ¬ flipDue k s = true) : exec (.flipEffect t k) s = .next (s.tick t) :=
  congrArg Host.Outcome.next (if_neg h)

end

/-! ### Allotments that a flip of LEVEE_XLATE makes ACTIVE (06 Table MEM-2) -/

section
variable (f : Allot → Allot) (l : List Nat) (s : State)

theorem foldl_modAllot_sw : (l.foldl (fun s a => s.modAllot a f) s).sw = s.sw :=
  List.foldlRecOn (motive := fun u : State => u.sw = s.sw) l _ rfl fun _ h _ _ => h

theorem foldl_modAllot_allot_not_mem {a : Nat} (ha : a ∉ l) : (l.foldl (fun s a => s.modAllot a f) s).allot a = s.allot a := by
  refine List.foldlRecOn (motive := fun u : State => u.allot a = s.allot a) l _ rfl fun u h b hb => ?_
  have hne : b ≠ a := fun e => ha (e ▸ hb)
  rw [State.modAllot_allot, if_neg hne, h]

/-- Allotments changed one after the other, none named twice: each listed one changes once. -/
theorem foldl_modAllot_allot_mem {a : Nat} (ha : a ∈ l) (hl : l.Nodup) :
    (l.foldl (fun s a => s.modAllot a f) s).allot a = (s.allot a).map f := by
  induction l generalizing s with
  | nil => simp at ha
  | cons b l ih =>
    obtain ⟨hb, hl⟩ := List.nodup_cons.1 hl
    rw [List.foldl_cons]
    obtain rfl | ha := List.mem_cons.1 ha
    · rw [foldl_modAllot_allot_not_mem f l _ hb, State.modAllot_allot, if_pos rfl]
    · have hne : b ≠ a := fun e => hb (e ▸ ha)
      rw [ih _ ha hl, State.modAllot_allot, if_neg hne]

end

@[simp] theorem activateAllots_table (v k : Nat) (s : State) : (activateAllots v s).table k = s.table k :=
  State.table_of_sw (foldl_modAllot_sw ..) k

theorem activateAllots_allot_pending {v a : Nat} {s : State} {y : Allot} (hy : s.allot a = some y) (hp : y.st = .pending)
    (ha : a ∈ s.xl v) (hl : (s.xl v).Nodup) : (activateAllots v s).allot a = some { y with st := .active } := by
  rw [activateAllots, foldl_modAllot_allot_mem _ _ _ ha hl, hy, Option.map_some, if_pos hp]

/-! ### SWC_RETIRE (R129) -/

/-- A write to SWC_RETIRE changes that register alone. -/
theorem writeReg_retire (mask w : Nat) (s : State) :
    writeReg s (0x02000104, mask, w) =
      { s with sw := { s.sw with retire := BitVec.ofNat 10 (merged (readSwc s 0 0x104) mask w) } } := rfl

/-- A write under the full mask takes every bit of a field that lies in the word. -/
theorem ofNat_merged_full {n : Nat} (hn : n ≤ 32) (old w : Nat) :
    BitVec.ofNat n (merged old 0xFFFFFFFF w) = BitVec.ofNat n w := by
  have hw : w &&& 0xFFFFFFFF = w % 2 ^ 32 := Nat.and_two_pow_sub_one_eq_mod w 32
  apply BitVec.eq_of_toNat_eq
  simp [merged, hw, Nat.mod_mod_of_dvd w (Nat.pow_dvd_pow 2 hn)]

/-! ### Draining (R127) -/

section
variable {t : Time} {k : Nat} {s : State}

theorem exec_versionDrained_drained (hd : (s.table k).st = .draining) (h0 : (s.table k).inflight (1 - (s.table k).active) = 0) :
    exec (.versionDrained t k) s = .next ((s.tick t).setTable k { s.table k with st := .copying }) :=
  congrArg Host.Outcome.next (if_pos ⟨hd, h0⟩)

theorem exec_versionDrained_in_flight (h0 : (s.table k).inflight (1 - (s.table k).active) ≠ 0) :
    exec (.versionDrained t k) s = .next (s.tick t) :=
  congrArg Host.Outcome.next (if_neg fun h => h0 h.2)

end

/-! ### Frames that the retire limit discards (R129) -/

theorem cutTx_sw (p : Nat) (a : State × List Tx) (x : Tx) : (cutTx p a x).1.sw = a.1.sw := by
  unfold cutTx
  split
  · rfl
  · simp only
    split <;> rfl

/-- Frames cut short on the wire leave the tables alone. -/
theorem truncateTx_tables (p : Nat) (pick : Tx → Bool) (s : State) : (truncateTx p pick s).sw.tables = s.sw.tables := by
  have hfold (l : List Tx) :
      (l.foldl (fun a x => if pick x then cutTx p a x else (a.1, a.2 ++ [x])) (s, [])).1.sw = s.sw := by
    refine List.foldlRecOn (motive := fun a : State × List Tx => a.1.sw = s.sw) l _ rfl fun a h x _ => ?_
    split
    · rw [cutTx_sw, h]
    · exact h
  unfold truncateTx
  simp only
  split
  · rw [hfold]
  · exact congrArg (·.tables) (hfold _)

/-- A frame of table `k`'s retired version: no longer counted in flight by it, and discarded when next drawn. -/
def FrameRec.retire (k : Nat) (r : FrameRec) : FrameRec :=
  { r with retired := r.retired ++ [k], stamped := clearBit r.stamped k }

/-- Discarding a version's frames touches no table. -/
theorem retireFrames_table (k v j : Nat) (s : State) : (retireFrames k v s).table j = s.table j := by
  have hfold : (s.sw.txing.foldl (fun u e => truncateTx e.1 (fun x => (framesUnder s k v).contains x.copy.fid) u) s).sw.tables =
      s.sw.tables :=
    List.foldlRecOn (motive := fun u : State => u.sw.tables = s.sw.tables) s.sw.txing _ rfl fun u h e _ => by
      rw [truncateTx_tables, h]
  unfold retireFrames
  simp only
  split
  · exact congrArg (Tab.getD · j {}) hfold
  · rw [State.table_of_sw (State.ledger_sw ..)]
    exact congrArg (Tab.getD · j {}) hfold

/-- With no frame on the wire, the frames under the version are retired where they are queued and no other changes. -/
theorem retireFrames_frames {s : State} (k v : Nat) (h : s.sw.txing = []) :
    (retireFrames k v s).sw.frames =
      s.sw.frames.map fun e => if (framesUnder s k v).contains e.1 then (e.1, e.2.retire k) else e := by
  unfold retireFrames
  simp only [h]
  split <;> simp [FrameRec.retire]

theorem clearBit_getLsbD_self {w : Nat} (b : BitVec w) (i : Nat) : (clearBit b i).getLsbD i = false := by
  rw [clearBit, BitVec.getLsbD_and, BitVec.getLsbD_not, BitVec.getLsbD_ofNat, Nat.testBit_two_pow_self]
  simp +contextual

/-- At the retire limit no frame is left in flight under the version: each has been retired (R129). -/
theorem framesUnder_of_retired {s u : State} (k v : Nat)
    (h : u.sw.frames = s.sw.frames.map fun e => if (framesUnder s k v).contains e.1 then (e.1, e.2.retire k) else e) :
    framesUnder u k v = [] := by
  unfold framesUnder at *
  rw [List.map_eq_nil_iff, List.filter_eq_nil_iff, h]
  intro e he
  obtain ⟨d, hd, rfl⟩ := List.mem_map.1 he
  split
  · simp [FrameRec.retire, clearBit_getLsbD_self]
  · rename_i hnot
    exact fun hunder => hnot (List.contains_iff_mem.2 (List.mem_map_of_mem (List.mem_filter.2 ⟨hd, hunder⟩)))

/-- Every frame of the buffer after the retire limit has been retired or is as it was. -/
theorem retired_or_mem {k : Nat} {fs : List (Nat × FrameRec)} {ids : List Nat} {e : Nat × FrameRec}
    (he : e ∈ fs.map fun e => if ids.contains e.1 then (e.1, e.2.retire k) else e) : k ∈ e.2.retired ∨ e ∈ fs := by
  obtain ⟨d, hd, rfl⟩ := List.mem_map.1 he
  split
  · exact .inl (List.mem_append_right _ (List.mem_singleton_self k))
  · exact .inr hd

/-! ### Requests that the retire limit moves to the active version of LEVEE_XLATE (R129) -/

/-- The count of the retired version goes over to the active one. -/
theorem restamp_table (v : Nat) (s : State) :
    (restamp v s).table 9 = ((s.table 9).setInflight (1 - v)
      ((s.table 9).inflight (1 - v) + (s.table 9).inflight v)).setInflight v 0 := by
  unfold restamp
  simp only
  split
  · exact State.table_setTable_self ..
  · exact (State.table_of_sw (State.ledger_sw ..) 9).trans (State.table_setTable_self ..)

/-- No live request is left under the retired version. -/
theorem restamp_live {v : Nat} {s : State} {e : Nat × Live} (he : e ∈ (restamp v s).mem.live) : e.2.req.ver ≠ v := by
  have hlive : (restamp v s).mem.live =
      Tab.mapVals s.mem.live fun _ l => if l.req.ver = v then { l with req := { l.req with ver := 1 - v } } else l := by
    unfold restamp
    simp only
    split
    · rfl
    · rw [State.ledger_mem]
      rfl
  rw [hlive, Tab.mapVals] at he
  obtain ⟨d, -, rfl⟩ := List.mem_map.1 he
  simp only
  split
  · simp only
    omega
  · assumption

/-! ### The retire limit (R129) -/

/-- What the retire limit does with what is in flight under version `v` of a table: requests of LEVEE_XLATE move to the active
version, frames of any other table are discarded. -/
def retireInFlight (k v : Nat) (s : State) : State := if k = 9 then restamp v s else retireFrames k v s

section
variable {t : Time} {k : Nat} {s : State}

theorem exec_retireLimitExpiry_early (h : (s.tick t).now < (s.table k).flipAt + ms (s.table k).limitMs) :
    exec (.retireLimitExpiry t k) s = .next (s.tick t) :=
  congrArg Host.Outcome.next (if_pos (.inr h))

/-- At the limit what is in flight under the old version is retired, and the copy begins. -/
theorem exec_retireLimitExpiry_due (hd : (s.table k).st = .draining)
    (h : (s.table k).flipAt + ms (s.table k).limitMs ≤ (s.tick t).now) :
    exec (.retireLimitExpiry t k) s = .next ((retireInFlight k (1 - (s.table k).active) (s.tick t)).setTable k
      { ((retireInFlight k (1 - (s.table k).active) (s.tick t)).table k).setInflight (1 - (s.table k).active) 0 with
        st := .copying }) :=
  congrArg Host.Outcome.next (if_neg (not_or.2 ⟨not_not.2 hd, Nat.not_lt.2 h⟩))

end

/-! ### The copy (Table SWC-5) -/

/-- The table once its copy is done: both versions hold the active one's entries. -/
def SwTable.copied (x : SwTable) : SwTable := { x with st := .ready, v0 := x.entries x.active, v1 := x.entries x.active }

section
variable (s : State)

theorem State.setXl_xl (v : Nat) : s.setXl v (s.xl v) = s := by
  by_cases h : v = 0 <;> simp [State.setXl, State.xl, h]

@[simp] theorem State.setXl_setXl (v : Nat) (l m : List Nat) : (s.setXl v l).setXl v m = s.setXl v m := by
  by_cases h : v = 0 <;> simp [State.setXl, h]

end

/-- Entries of RELEASING allotments can only leave the inactive version, and nothing else changes (06 R191). -/
theorem dropReleasing_eq {s : State} {v : Nat} (hv : s.xlInactive = v) : ∃ l ⊆ s.xl v, dropReleasing s = s.setXl v l := by
  subst hv
  unfold dropReleasing
  split
  · exact ⟨_, List.filter_subset_self _, rfl⟩
  · exact ⟨_, List.Subset.refl _, (s.setXl_xl _).symm⟩

section
variable {t : Time} {s : State}

/-- The inactive version of LEVEE_XLATE takes the active entries, but for those that leave at once. -/
theorem exec_versionCopyComplete_nine (hc : (s.table 9).st = .copying) :
    ∃ l ⊆ s.xl (s.table 9).active, exec (.versionCopyComplete t 9) s =
      .next (((s.tick t).setTable 9 (s.table 9).copied).setXl (1 - (s.table 9).active) l) := by
  obtain ⟨l, hl, h⟩ := dropReleasing_eq (v := 1 - (s.table 9).active)
    (s := ((s.tick t).setTable 9 (s.table 9).copied).setXl (1 - (s.table 9).active) (s.xl (s.table 9).active))
    (by simp [State.xlInactive, SwTable.copied])
  rw [State.xl_setXl_self] at hl
  rw [State.setXl_setXl] at h
  exact ⟨l, hl, congrArg Host.Outcome.next ((if_neg (not_not.2 hc)).trans h)⟩

theorem exec_versionCopyComplete_of_ne_nine {k : Nat} (h9 : k ≠ 9) (hc : (s.table k).st = .copying) :
    ∃ v, exec (.versionCopyComplete t k) s = .next v ∧ v.table k = (s.table k).copied ∧ v.mem = s.mem ∧
      (k ≠ 10 → v.scr = s.scr) := by
  refine ⟨_, congrArg Host.Outcome.next ((if_neg (not_not.2 hc)).trans (if_neg h9)), ?_⟩
  by_cases h10 : k = 10
  · rw [if_pos h10]
    exact ⟨State.table_setTable_self .., rfl, fun h => absurd h10 h⟩
  · rw [if_neg h10]
    exact ⟨State.table_setTable_self .., rfl, fun _ => rfl⟩

end

/-- Settles O28: each row of Table SWC-5 by its guard; at the retire limit LEVEE_XLATE's requests are moved to the active
version and any other table's frames are discarded. -/
theorem versionsFlipDrainAndCopy : Obligations.VersionsFlipDrainAndCopy := by
  intro t k s
  refine ⟨?flip, ?batchWaits, ?flipXlate, ?retireRegister, ?notCommitted, ?drained, ?inFlight, ?limit, ?early, ?copy⟩
  case flip =>
    intro hp hr h9 hb
    rw [exec_flipEffect_of_due ((flipDue_iff k s).2 ⟨hp, hr, hb⟩), flipEffect_of_ne_nine _ h9]
    rfl
  case batchWaits =>
    rintro hk ⟨b, hb, hcls⟩
    refine exec_flipEffect_of_not_due fun hdue => ?_
    obtain ⟨-, -, hnone⟩ := (flipDue_iff k s).1 hdue
    exact hnone hk b hb hcls
  case flipXlate =>
    rintro a y hp hr rfl hy hpend ha hl
    have hdue : flipDue 9 s = true := (flipDue_iff 9 s).2 ⟨hp, hr, fun h => absurd h (by decide)⟩
    refine ⟨_, exec_flipEffect_of_due hdue, ?_⟩
    rw [flipEffect_nine, activateAllots_table, State.table_setTable_self]
    exact ⟨rfl, rfl, rfl, rfl, activateAllots_allot_pending hy hpend ha hl⟩
  case retireRegister =>
    intro mask w
    rw [writeReg_retire, writeReg_retire]
    exact ⟨rfl, ofNat_merged_full (by decide) _ w⟩
  case notCommitted =>
    intro hp
    refine exec_flipEffect_of_not_due fun hdue => ?_
    obtain ⟨hpending, -, -⟩ := (flipDue_iff k s).1 hdue
    exact Bool.false_ne_true (hp.symm.trans hpending)
  case drained => exact exec_versionDrained_drained
  case inFlight => exact fun _ => exec_versionDrained_in_flight
  case limit =>
    intro hd hdue _
    refine ⟨_, exec_retireLimitExpiry_due hd hdue, ?_⟩
    by_cases h9 : k = 9
    · subst h9
      rw [retireInFlight, if_pos rfl, State.table_setTable_self, restamp_table]
      refine ⟨rfl, SwTable.inflight_setInflight_self .., ?active, fun h => absurd rfl h,
        fun _ => ⟨?moved, fun e he => restamp_live he⟩⟩
      case active => simp
      case moved =>
        exact (SwTable.inflight_setInflight_other ..).trans
          ((SwTable.inflight_setInflight_other ..).trans (SwTable.inflight_setInflight_self ..))
    · rw [retireInFlight, if_neg h9, State.table_setTable_self, retireFrames_table]
      refine ⟨rfl, SwTable.inflight_setInflight_self .., SwTable.setInflight_active .., fun _ htx => ?_, fun h => absurd h h9⟩
      have hfr := retireFrames_frames (s := s.tick t) k (1 - (s.table k).active) htx
      exact ⟨framesUnder_of_retired k _ hfr, fun e he => retired_or_mem (hfr ▸ he)⟩
  case early => exact fun _ => exec_retireLimitExpiry_early
  case copy =>
    intro hc
    by_cases h9 : k = 9
    · subst h9
      obtain ⟨l, hl, h⟩ := exec_versionCopyComplete_nine (t := t) hc
      refine ⟨_, h, ?_⟩
      rw [State.setXl_table, State.table_setTable_self, State.xl_setXl_self]
      refine ⟨rfl, rfl, fun _ => ⟨rfl, rfl⟩, fun h => absurd rfl h, fun _ => rfl, fun _ ha => ⟨?_, hl⟩⟩
      exact State.xl_setXl_other _ ha l
    · obtain ⟨v, hv, htable, hmem, hscr⟩ := exec_versionCopyComplete_of_ne_nine (t := t) h9 hc
      refine ⟨v, hv, ?_⟩
      rw [htable]
      exact ⟨rfl, rfl, fun _ => ⟨rfl, rfl⟩, fun _ => hmem, hscr, fun h => absurd h h9⟩

end Sys2Proof.Machine
end

section
/-! SUPPORT. Naming a suspect and its quarantine (17 R528): lemmas and the statement they settle. -/

namespace Sys2Proof.Machine

/-! ### A lowest value and a common mask over a list -/

/-- The lower bounds of a running minimum are those of its start and of every entry. -/
theorem le_foldl_min_iff {α : Type} (f : α → Nat) (l : List α) (c a : Nat) :
    c ≤ l.foldl (fun m e => min m (f e)) a ↔ c ≤ a ∧ ∀ e ∈ l, c ≤ f e := by
  induction l generalizing a with
  | nil => simp
  | cons x l ih => rw [List.foldl_cons, ih, Nat.le_min, List.forall_mem_cons, and_assoc]

/-- A bit of a running AND is set when its start and every entry have it. -/
theorem testBit_foldl_and_iff {α : Type} (f : α → Nat) (l : List α) (i a : Nat) :
    (l.foldl (fun m e => m &&& f e) a).testBit i = true ↔ a.testBit i = true ∧ ∀ e ∈ l, (f e).testBit i = true := by
  induction l generalizing a with
  | nil => simp
  | cons x l ih => rw [List.foldl_cons, ih, Nat.testBit_and, Bool.and_eq_true, List.forall_mem_cons, and_assoc]

/-! ### What a basin's entry is after a write -/

section
variable (s : State)

@[simp] theorem State.basin_setBasin_self (b : Nat) (x : Basin) : (s.setBasin b x).basin b = x := Tab.getD_set_self ..

@[simp] theorem State.basin_modBasin_self (b : Nat) (f : Basin → Basin) : (s.modBasin b f).basin b = f (s.basin b) :=
  s.basin_setBasin_self b _

@[simp] theorem State.ledger_bsn (type source : Nat) (body : Bytes) : (s.ledger type source body).bsn = s.bsn := by
  obtain ⟨h, g, e⟩ := s.ledger_eq type source body
  rw [e]

end

/-- A basin is read from the basins alone. -/
theorem State.basin_of_bsn {s u : State} (h : u.bsn = s.bsn) (b : Nat) : u.basin b = s.basin b := by
  rw [State.basin, h, State.basin]

/-! ### The quarantine of a basin -/

/-- State, threshold and mask of a basin's quarantine. -/
def Basin.quarantine (x : Basin) : Quar × Nat × Nat := (x.quar, x.quarTemp, x.quarMask)

theorem Basin.quarantine_eq_iff {x : Basin} {q : Quar} {temp mask : Nat} :
    x.quarantine = (q, temp, mask) ↔ x.quar = q ∧ x.quarTemp = temp ∧ x.quarMask = mask := by
  simp [Basin.quarantine]

section
variable (b : Nat) (s : State)

@[simp] theorem setPower_quarantine (p : BasinPower) : ((setPower b p s).basin b).quarantine = (s.basin b).quarantine := by
  rw [setPower, State.basin_setBasin_self]
  rfl

theorem modBasin_quarantine {f : Basin → Basin} (h : ∀ x, (f x).quarantine = x.quarantine) :
    ((s.modBasin b f).basin b).quarantine = (s.basin b).quarantine := by
  rw [State.basin_modBasin_self, h]

@[simp] theorem zeroTiles_quarantine (ts : List Nat) : ((zeroTiles b ts s).basin b).quarantine = (s.basin b).quarantine :=
  modBasin_quarantine (f := fun x => { x with
    sums := x.sums.filter fun e => !ts.contains e.1, once := x.once.filter fun t => !ts.contains t
    taint := x.taint.filter fun t => !ts.contains t }) b s fun _ => rfl

/-- A basin that goes OFF stays quarantined as it was. -/
@[simp] theorem offIfDue_quarantine : ((offIfDue b s).basin b).quarantine = (s.basin b).quarantine := by
  unfold offIfDue
  simp only
  split
  · rw [modBasin_quarantine, setPower_quarantine, zeroTiles_quarantine]
    exact fun _ => rfl
  · rfl

@[simp] theorem quarRecord_bsn (old new temp mask : Nat) : (quarRecord b old new temp mask s).bsn = s.bsn :=
  State.ledger_bsn ..

@[simp] theorem setQuar_quarantine (q : Quar) (temp mask : Nat) :
    ((setQuar b q temp mask s).basin b).quarantine = (q, temp, mask) := by
  rw [setQuar, offIfDue_quarantine, State.basin_of_bsn (quarRecord_bsn ..), State.basin_modBasin_self]
  rfl

@[simp] theorem setQuar_quar (q : Quar) (temp mask : Nat) : ((setQuar b q temp mask s).basin b).quar = q :=
  congrArg Prod.fst (setQuar_quarantine b s q temp mask)

end

/-! ### Naming a suspect -/

/-- An entry of the list of suspects: basin, when, temperature, load pattern. -/
abbrev Naming : Type := Nat × Time × Nat × Nat

/-- The state once the naming is counted and kept, before any quarantine. -/
def noteSuspect (b temp load : Nat) (s : State) : State :=
  let u := (s.modBasin b fun x => { x with suspect := x.suspect + 1 }).bsnEvent b 3
  let kept := (s.hlt.suspects ++ [(b, s.now, temp, load)]).filter fun e =>
    decide (s.now ≤ e.2.1 + sec (3600 * max 1 s.hlt.quarHours.toNat))
  { u with hlt := { u.hlt with suspects := kept } }

/-- The namings of a basin that are kept. -/
def State.namings (s : State) (b : Nat) : List Naming := s.hlt.suspects.filter fun e => e.1 == b

/-- Tmin of R528. -/
def lowestTemp (l : List Naming) : Nat := l.foldl (fun m e => min m e.2.2.1) 255

/-- M of R528. -/
def commonLoad (l : List Naming) : Nat := l.foldl (fun m e => m &&& e.2.2.2) 255

theorem lowestTemp_eq {l : List Naming} {tmin : Nat} (hle : ∀ e ∈ l, tmin ≤ e.2.2.1 ∧ e.2.2.1 ≤ 255)
    (hmem : ∃ e ∈ l, e.2.2.1 = tmin) : lowestTemp l = tmin := by
  obtain ⟨e, he, rfl⟩ := hmem
  obtain ⟨-, hlow⟩ := (le_foldl_min_iff (fun e : Naming => e.2.2.1) l (lowestTemp l) 255).1 le_rfl
  exact (hlow e he).antisymm ((le_foldl_min_iff ..).2 ⟨(hle e he).2, fun a ha => (hle a ha).1⟩)

theorem commonLoad_eq {l : List Naming} {m : Nat} (hm : m < 256)
    (hbits : ∀ i < 8, m.testBit i = true ↔ ∀ e ∈ l, e.2.2.2.testBit i = true) : commonLoad l = m := by
  refine Nat.eq_of_testBit_eq fun i => Bool.eq_iff_iff.2 ?_
  have hstart : (255 : Nat).testBit i = true ↔ i < 8 := by
    rw [show 255 = 2 ^ 8 - 1 from rfl, Nat.testBit_two_pow_sub_one, decide_eq_true_iff]
  rw [commonLoad, testBit_foldl_and_iff, hstart]
  by_cases hi : i < 8
  · rw [hbits i hi, and_iff_right hi]
  · have hhigh : m.testBit i = false :=
      Nat.testBit_lt_two_pow (hm.trans_le (Nat.pow_le_pow_right (n := 2) (by decide) (Nat.le_of_not_lt hi)))
    simp [hi, hhigh]

section
variable (b temp load : Nat) (s : State)

@[simp] theorem noteSuspect_quarantine : ((noteSuspect b temp load s).basin b).quarantine = (s.basin b).quarantine := by
  have hcount := modBasin_quarantine (f := fun x => { x with suspect := x.suspect + 1 }) b s fun _ => rfl
  exact (modBasin_quarantine (f := fun x => { x with event := setBit x.event 3 }) b _ fun _ => rfl).trans hcount

theorem noteSuspect_quar : ((noteSuspect b temp load s).basin b).quar = (s.basin b).quar :=
  congrArg Prod.fst (noteSuspect_quarantine b temp load s)

@[simp] theorem noteSuspect_quarCount : (noteSuspect b temp load s).hlt.quarCount = s.hlt.quarCount := rfl

/-- The namings kept of the basin are those within WINDOW_H hours, the present one with them. -/
theorem noteSuspect_namings (h : 1 ≤ s.hlt.quarHours.toNat) :
    (noteSuspect b temp load s).namings b = (s.hlt.suspects ++ [(b, s.now, temp, load)]).filter fun e =>
      e.1 == b && decide (s.now ≤ e.2.1 + sec (3600 * s.hlt.quarHours.toNat)) := by
  rw [State.namings, noteSuspect, max_eq_right h, List.filter_filter]

end

/-- What the kept namings of a basin bring on it (R528): the part of `nameSuspect` after the naming is kept. -/
def judgeSuspect (b : Nat) (s : State) : State :=
  let tmin := lowestTemp (s.namings b)
  let mask := commonLoad (s.namings b)
  if (s.namings b).length < max 1 s.hlt.quarCount.toNat then s
  else
    match (s.basin b).quar with
    | .none =>
      let hot := decide (s.hlt.tfloor.toNat ≤ tmin)
      if hot || mask != 0 then setQuar b .conditional (if hot then tmin - 3 else 0) mask s else setQuar b .full 0 0 s
    | .full => s
    | _ => setQuar b .full 0 0 s

theorem nameSuspect_eq (b temp load : Nat) (s : State) :
    nameSuspect b temp load s = judgeSuspect b (noteSuspect b temp load s) := rfl

section
variable {b : Nat} {s : State}

theorem judgeSuspect_few (h : (s.namings b).length < max 1 s.hlt.quarCount.toNat) : judgeSuspect b s = s := if_pos h

section
variable (h : ¬ (s.namings b).length < max 1 s.hlt.quarCount.toNat)
include h

theorem judgeSuspect_hot (hq : (s.basin b).quar = .none) (hhot : s.hlt.tfloor.toNat ≤ lowestTemp (s.namings b)) :
    judgeSuspect b s = setQuar b .conditional (lowestTemp (s.namings b) - 3) (commonLoad (s.namings b)) s := by
  simp [judgeSuspect, h, hq, hhot]

theorem judgeSuspect_loaded (hq : (s.basin b).quar = .none) (hcool : lowestTemp (s.namings b) < s.hlt.tfloor.toNat)
    (hload : commonLoad (s.namings b) ≠ 0) :
    judgeSuspect b s = setQuar b .conditional 0 (commonLoad (s.namings b)) s := by
  simp [judgeSuspect, h, hq, hload, Nat.not_le.2 hcool]

theorem judgeSuspect_no_cause (hq : (s.basin b).quar = .none) (hcool : lowestTemp (s.namings b) < s.hlt.tfloor.toNat)
    (hload : commonLoad (s.namings b) = 0) : judgeSuspect b s = setQuar b .full 0 0 s := by
  simp [judgeSuspect, h, hq, hload, Nat.not_le.2 hcool]

theorem judgeSuspect_again (hq : (s.basin b).quar = .conditional ∨ (s.basin b).quar = .heldOut) :
    judgeSuspect b s = setQuar b .full 0 0 s := by
  obtain hq | hq := hq <;> simp [judgeSuspect, h, hq]

end
end

/-- Settles O56: the naming is kept with those within the window, which leaves the quarantine as it was; their lowest
temperature and common load then decide. -/
theorem suspectsAreQuarantined : Obligations.SuspectsAreQuarantined := by
  intro b temp load tmin m s v mine hcount hhours hm hle hmem hbits
  have hv : v = judgeSuspect b (noteSuspect b temp load s) := nameSuspect_eq b temp load s
  have hmine : (noteSuspect b temp load s).namings b = mine := noteSuspect_namings b temp load s hhours
  have htmin : lowestTemp mine = tmin := lowestTemp_eq hle hmem
  have hmask : commonLoad mine = m := commonLoad_eq hm hbits
  have hquar := noteSuspect_quar b temp load s
  have hfew : ((noteSuspect b temp load s).namings b).length < max 1 (noteSuspect b temp load s).hlt.quarCount.toNat ↔
      mine.length < s.hlt.quarCount.toNat := by
    rw [hmine, noteSuspect_quarCount, max_eq_right hcount]
  rw [← hmine] at htmin hmask
  rw [hv, ← hquar]
  refine ⟨fun h => by rw [judgeSuspect_few (hfew.2 h)], fun h => ?_⟩
  have hmany := mt hfew.1 (Nat.not_lt.2 h)
  refine ⟨fun hq => ⟨fun hhot => ?hot, fun hcool hload => ?loaded, fun hcool hload => ?noCause⟩, fun hq => ?again⟩
  case hot =>
    rw [judgeSuspect_hot hmany hq (htmin.symm ▸ hhot), htmin, hmask]
    exact Basin.quarantine_eq_iff.1 (setQuar_quarantine ..)
  case loaded =>
    rw [judgeSuspect_loaded hmany hq (htmin.symm ▸ hcool) (hmask.symm ▸ hload), hmask]
    exact Basin.quarantine_eq_iff.1 (setQuar_quarantine ..)
  case noCause =>
    rw [judgeSuspect_no_cause hmany hq (htmin.symm ▸ hcool) (hmask.symm ▸ hload), setQuar_quar]
  case again => rw [judgeSuspect_again hmany hq, setQuar_quar]

end Sys2Proof.Machine
end

section
/-! SUPPORT. `Keeps b s`: the state `s` has both byte memories in canonical form where `b` has, and no flash counter below
`b`'s (O58, O60). -/

namespace Sys2Proof.Machine

/-- No monotonic counter of the flash is lower in `c` than in `b` (16 R501). -/
structure Boot.CountersLe (b : Boot) (term svnBoot svnMc svnTretu settings boot : Nat) : Prop where
  term : b.termCtr ≤ term
  svnBoot : b.svnBoot ≤ svnBoot
  svnMc : b.svnMc ≤ svnMc
  svnTretu : b.svnTretu ≤ svnTretu
  settings : b.settingsCtr ≤ settings
  boot : b.bootCtr ≤ boot

structure KeepsAt (b : State) (pool store : Mem) (term svnBoot svnMc svnTretu settings boot : Nat) : Prop where
  mem : b.memOk → Mem.wf pool = true ∧ Mem.wf store = true
  counters : b.boot.CountersLe term svnBoot svnMc svnTretu settings boot

def Keeps (b s : State) : Prop :=
  KeepsAt b s.cis.pool s.bsn.store s.boot.termCtr s.boot.svnBoot s.boot.svnMc s.boot.svnTretu s.boot.settingsCtr s.boot.bootCtr

variable {b s : State}

theorem keeps_mk {pending now fresh free out gauges kry ports rows sw trf mesh mem cis coh flm bsn col scr sec flt pwr boot hlt} :
    Keeps b (State.mk pending now fresh free out gauges kry ports rows sw trf mesh mem cis coh flm bsn col scr sec flt pwr boot hlt) ↔
      KeepsAt b cis.pool bsn.store boot.termCtr boot.svnBoot boot.svnMc boot.svnTretu boot.settingsCtr boot.bootCtr :=
        Iff.rfl

theorem keepsAt_iff :
    KeepsAt b s.cis.pool s.bsn.store s.boot.termCtr s.boot.svnBoot s.boot.svnMc s.boot.svnTretu s.boot.settingsCtr
    s.boot.bootCtr ↔ Keeps b s := Iff.rfl

theorem keeps_ite (c : Prop) [Decidable c] (u v : State) :
    Keeps b (if c then u else v) ↔ if c then Keeps b u else Keeps b v := by split <;> rfl

theorem keeps_ite_fst {α : Type} (c : Prop) [Decidable c] (u v : State × α) :
    Keeps b (if c then u else v).1 ↔ if c then Keeps b u.1 else Keeps b v.1 := by split <;> rfl

section
variable {α β : Type}

theorem keeps_foldl_iff {f : State → α → State} {l : List α} (hf : ∀ u a, Keeps b (f u a) ↔ Keeps b u) :
    Keeps b (l.foldl f s) ↔ Keeps b s := by
  induction l generalizing s with
  | nil => rfl
  | cons a l ih => rw [List.foldl_cons, ih, hf]

theorem Keeps.foldl {f : State → α → State} {l : List α} (hf : ∀ u a, Keeps b u → Keeps b (f u a)) (h : Keeps b s) :
    Keeps b (l.foldl f s) := List.foldlRecOn l f h fun u hu a _ => hf u a hu

theorem keeps_foldl_fst_iff {f : State × β → α → State × β} {l : List α} {p : State × β}
    (hf : ∀ u a, Keeps b (f u a).1 ↔ Keeps b u.1) : Keeps b (l.foldl f p).1 ↔ Keeps b p.1 := by
  induction l generalizing p with
  | nil => rfl
  | cons a l ih => rw [List.foldl_cons, ih, hf]

theorem Keeps.foldl_fst {f : State × β → α → State × β} {l : List α} {p : State × β} (hf : ∀ u a,
    Keeps b u.1 → Keeps b (f u a).1)
    (h : Keeps b p.1) : Keeps b (l.foldl f p).1 := List.foldlRecOn (motive :=
      fun p => Keeps b p.1) l f h fun u hu a _ => hf u a hu

end

theorem Keeps.of_eq {α : Type} {p : State × α} {u : State} {a : α} (e : p = (u, a)) (h : Keeps b p.1) : Keeps b u := by
  rw [e] at h
  exact h

section
variable (h : Keeps b s)
include h

/-- A write to the pool memory that leaves it in canonical form. -/
theorem Keeps.pool {m : Mem} (hm : Mem.wf s.cis.pool = true → Mem.wf m = true) :
    KeepsAt b m s.bsn.store s.boot.termCtr s.boot.svnBoot s.boot.svnMc s.boot.svnTretu s.boot.settingsCtr s.boot.bootCtr :=
  ⟨fun hb => ⟨hm (KeepsAt.mem h hb).1, (KeepsAt.mem h hb).2⟩, KeepsAt.counters h⟩

theorem Keeps.store {m : Mem} (hm : Mem.wf s.bsn.store = true → Mem.wf m = true) :
    KeepsAt b s.cis.pool m s.boot.termCtr s.boot.svnBoot s.boot.svnMc s.boot.svnTretu s.boot.settingsCtr s.boot.bootCtr :=
  ⟨fun hb => ⟨(KeepsAt.mem h hb).1, hm (KeepsAt.mem h hb).2⟩, KeepsAt.counters h⟩

theorem Keeps.counters {t v1 v2 v3 c bc : Nat} (hc : s.boot.CountersLe t v1 v2 v3 c bc) :
    KeepsAt b s.cis.pool s.bsn.store t v1 v2 v3 c bc := by
  obtain ⟨h1, h2, h3, h4, h5, h6⟩ := KeepsAt.counters h
  obtain ⟨k1, k2, k3, k4, k5, k6⟩ := hc
  exact ⟨KeepsAt.mem h, h1.trans k1, h2.trans k2, h3.trans k3, h4.trans k4, h5.trans k5, h6.trans k6⟩

end

structure Ans.Keeps (b : State) (a : Ans) : Prop where
  state : Machine.Keeps b a.s
  after : ∀ u, Machine.Keeps b u → Machine.Keeps b (a.after u)

theorem ans_keeps_mk {s st fr w k sil af} : (Ans.mk s st fr w k sil af).Keeps b ↔ Machine.Keeps b s ∧ ∀ u,
    Machine.Keeps b u → Machine.Keeps b (af u) :=
  ⟨fun h => ⟨h.1, h.2⟩, fun h => ⟨h.1, h.2⟩⟩

theorem ans_keeps_ite (c : Prop) [Decidable c] (u v : Ans) :
    (if c then u else v).Keeps b ↔ if c then u.Keeps b else v.Keeps b := by split <;> rfl

end Sys2Proof.Machine
end

section
/-! RULES. What the functions of the model's file Ops keep. -/

namespace Sys2Proof.Machine

variable {s₀ : State}

theorem State.tick_keeps (s t) : Keeps s₀ (State.tick s t) ↔ Keeps s₀ s := Iff.rfl

theorem State.mark_keeps (s addr bit) : Keeps s₀ (State.mark s addr bit) ↔ Keeps s₀ s := Iff.rfl

theorem State.emit_keeps (s o) : Keeps s₀ (State.emit s o) ↔ Keeps s₀ s := Iff.rfl

theorem State.drawn_keeps (s) : Keeps s₀ (State.drawn s) ↔ Keeps s₀ s := Iff.rfl

theorem State.count_keeps (s k n) : Keeps s₀ (State.count s k n) ↔ Keeps s₀ s := Iff.rfl

theorem ledgerDiscard_keeps (s) : Keeps s₀ (ledgerDiscard s) ↔ Keeps s₀ s := Iff.rfl

theorem State.ledger_keeps (s type source body) (h : Keeps s₀ s) : Keeps s₀ (State.ledger s type source body) := by
  unfold State.ledger
  extract_lets r b
  split
  · split
    · exact keeps_mk.2 h
    · split
      · exact (ledgerDiscard_keeps _).2 (keeps_mk.2 h)
      · exact (ledgerDiscard_keeps _).2 h
  · split
    · split
      · split
        · exact (State.count_keeps _ _ _).2 (keeps_mk.2 h)
        · exact h
      · split
        · exact keeps_mk.2 h
        · exact (ledgerDiscard_keeps _).2 h
    · split
      · exact keeps_mk.2 h
      · exact (ledgerDiscard_keeps _).2 h

theorem State.unledger_keeps (s type source) : Keeps s₀ (State.unledger s type source) ↔ Keeps s₀ s := by
  unfold State.unledger
  split <;> simp only [keeps_mk, keepsAt_iff, iff_self]

theorem State.notify_keeps (s event index desc) : Keeps s₀ (State.notify s event index desc) ↔ Keeps s₀ s := Iff.rfl

theorem State.faultEvent_keeps (s bit) : Keeps s₀ (State.faultEvent s bit) ↔ Keeps s₀ s := Iff.rfl

theorem State.secEvent_keeps (s bit) : Keeps s₀ (State.secEvent s bit) ↔ Keeps s₀ s := Iff.rfl

theorem State.setPort_keeps (s p q) : Keeps s₀ (State.setPort s p q) ↔ Keeps s₀ s := Iff.rfl

theorem State.modPort_keeps (s p f) : Keeps s₀ (State.modPort s p f) ↔ Keeps s₀ s := Iff.rfl

theorem State.portEvent_keeps (s p bit) : Keeps s₀ (State.portEvent s p bit) ↔ Keeps s₀ s := Iff.rfl

theorem State.hltEvent_keeps (s bit) : Keeps s₀ (State.hltEvent s bit) ↔ Keeps s₀ s := Iff.rfl

theorem State.pwrEvent_keeps (s bit) : Keeps s₀ (State.pwrEvent s bit) ↔ Keeps s₀ s := Iff.rfl

theorem State.setTable_keeps (s k t) : Keeps s₀ (State.setTable s k t) ↔ Keeps s₀ s := Iff.rfl

theorem State.inflightAdd_keeps (s k v) : Keeps s₀ (State.inflightAdd s k v) ↔ Keeps s₀ s := Iff.rfl

theorem State.inflightSub_keeps (s k v) : Keeps s₀ (State.inflightSub s k v) ↔ Keeps s₀ s := Iff.rfl

end Sys2Proof.Machine
end

section
/-! RULES. What the functions of the model's file Krytic keep. -/

namespace Sys2Proof.Machine

variable {s₀ : State}

theorem State.setSession_keeps (s x v) : Keeps s₀ (State.setSession s x v) ↔ Keeps s₀ s := by
  unfold State.setSession
  split <;> simp only [keeps_mk, keepsAt_iff, iff_self]

theorem State.takePn_keeps (s p) : Keeps s₀ (State.takePn s p) ↔ Keeps s₀ s := by
  unfold State.takePn
  split <;> simp only [ite_self, iff_self, keeps_ite, State.modPort_keeps, State.portEvent_keeps]

theorem State.controlSend_keeps (s p len) : Keeps s₀ (State.controlSend s p len).1 ↔ Keeps s₀ s := by
  simp only [State.controlSend, ite_self, iff_self, keeps_ite_fst, State.count_keeps, State.takePn_keeps]

theorem State.controlReply_keeps (s rp) : Keeps s₀ (State.controlReply s rp) ↔ Keeps s₀ s := by
  simp only [State.controlReply, ite_self, implies_true, iff_self, keeps_ite, keeps_foldl_fst_iff,
    State.controlSend_keeps, State.emit_keeps]

theorem State.sendReply_keeps (s rp) : Keeps s₀ (State.sendReply s rp) ↔ Keeps s₀ s := by
  simp only [State.sendReply, ite_self, iff_self, keeps_ite, State.secEvent_keeps, State.count_keeps,
    State.controlReply_keeps, State.emit_keeps]

theorem State.cacheReply_keeps (s r rp) : Keeps s₀ (State.cacheReply s r rp) ↔ Keeps s₀ s := by
  simp only [State.cacheReply, ite_self, iff_self, keeps_ite, State.setSession_keeps]

theorem State.answer_keeps (s r key status frags) : Keeps s₀ (State.answer s r key status frags) ↔ Keeps s₀ s := by
  simp only [State.answer, iff_self, State.sendReply_keeps, State.cacheReply_keeps]

theorem State.resend_keeps (s r rs) : Keeps s₀ (State.resend s r rs) ↔ Keeps s₀ s := by
  simp only [State.resend, implies_true, iff_self, keeps_foldl_iff, State.sendReply_keeps]

theorem refuse_keeps (s status) (h : Keeps s₀ s) : (refuse s status).Keeps s₀ :=
  ans_keeps_mk.2 ⟨h, fun _ hu => hu⟩

theorem done_keeps (s frags) (h : Keeps s₀ s) : (done s frags).Keeps s₀ :=
  ans_keeps_mk.2 ⟨h, fun _ hu => hu⟩

theorem defer_keeps (s w) (h : Keeps s₀ s) : (defer s w).Keeps s₀ :=
  ans_keeps_mk.2 ⟨h, fun _ hu => hu⟩

theorem guardReject_keeps (s r levee inv) (h : Keeps s₀ s) : (guardReject s r levee inv).Keeps s₀ :=
  ans_keeps_mk.2 ⟨State.ledger_keeps _ _ _ _ h, fun _ hu => hu⟩

theorem checks_keeps (s cs k) (h : Keeps s₀ s) (hk : (k ()).Keeps s₀) : (checks s cs k).Keeps s₀ := by
  induction cs with
  | nil => exact hk
  | cons c cs ih =>
    unfold checks
    split
    · exact refuse_keeps _ _ h
    · exact ih

theorem finish_keeps (r a) (h : a.Keeps s₀) : Keeps s₀ (finish r a) := by
  have hans (key) : Keeps s₀ (if a.silent then a.s else a.s.answer r key a.status a.frags) := by
    split
    · exact h.state
    · exact (State.answer_keeps _ _ _ _ _).2 h.state
  unfold finish
  extract_lets key
  split
  · exact h.after _ (hans key)
  · extract_lets
    split
    · exact h.after _ (keeps_mk.2 (hans key))
    · exact h.after _ (keeps_mk.2 h.state)

theorem State.finalReply_keeps (s run status frags) : Keeps s₀ (State.finalReply s run status frags) ↔ Keeps s₀ s := by
  simp only [State.finalReply, keeps_mk, keepsAt_iff, ite_self, iff_self, keeps_ite, State.answer_keeps]

theorem State.workDone_keeps (s w status frags) (h : Keeps s₀ s) : Keeps s₀ (State.workDone s w status frags) := by
  unfold State.workDone
  extract_lets ends s1 s2
  have h1 : Keeps s₀ s2 := keeps_mk.2 h
  clear_value s2
  split
  · split
    · exact (State.finalReply_keeps _ _ _ _).2 (keeps_mk.2 (Keeps.foldl (fun _ _ hu => (State.finalReply_keeps _ _ _ _).2 hu) h1))
    · exact Keeps.foldl (fun _ _ hu => (State.finalReply_keeps _ _ _ _).2 hu) h1
  · exact Keeps.foldl (fun _ _ hu => (State.finalReply_keeps _ _ _ _).2 hu) h1

theorem State.dropAuth_keeps (s) : Keeps s₀ (State.dropAuth s) ↔ Keeps s₀ s := Iff.rfl

theorem State.dropMal_keeps (s) : Keeps s₀ (State.dropMal s) ↔ Keeps s₀ s := Iff.rfl

theorem State.dropSeq_keeps (s) : Keeps s₀ (State.dropSeq s) ↔ Keeps s₀ s := Iff.rfl

theorem State.dropRate_keeps (s) : Keeps s₀ (State.dropRate s) ↔ Keeps s₀ s := Iff.rfl

theorem State.enqueue_keeps (s r) : Keeps s₀ (State.enqueue s r) ↔ Keeps s₀ s := by
  simp only [State.enqueue, keeps_mk, keepsAt_iff, ite_self, iff_self, keeps_ite, State.answer_keeps]

theorem seqCheck_keeps (r s) (h : Keeps s₀ s) : Keeps s₀ (seqCheck r s).1 := by
  unfold seqCheck
  extract_lets x
  split
  · exact (State.dropSeq_keeps _).2 h
  · exact (State.setSession_keeps _ _ _).2 h
  · split
    · exact (State.resend_keeps _ _ _).2 h
    · split
      · exact h
      · exact (State.setSession_keeps _ _ _).2 h

theorem judgePacket_keeps (body r s) (hb : ∀ r u, Keeps s₀ u → (body r u).Keeps s₀) (h : Keeps s₀ s) :
    Keeps s₀ (judgePacket body r s) := by
  unfold judgePacket
  split
  · exact (State.answer_keeps _ _ _ _ _).2 h
  · extract_lets a
    have h1 : a.Keeps s₀ := hb _ _ h
    clear_value a
    split
    · exact finish_keeps _ _ h1
    · split
      · exact finish_keeps _ _ h1
      · exact (State.enqueue_keeps _ _).2 h

theorem arrive_keeps (body r s) (hb : ∀ r u, Keeps s₀ u → (body r u).Keeps s₀) (h : Keeps s₀ s) :
    Keeps s₀ (arrive body r s) := by
  unfold arrive
  split
  · exact (State.dropAuth_keeps _).2 h
  · split
    · have h1 := Keeps.of_eq ‹_› (seqCheck_keeps _ _ h)
      split
      · exact judgePacket_keeps _ _ _ (fun _ _ hu => hb _ _ hu) ((State.setSession_keeps _ _ _).2 h1)
      · exact h1

theorem arriveNow_keeps (body r s) (hb : ∀ r u, Keeps s₀ u → (body r u).Keeps s₀) (h : Keeps s₀ s) :
    Keeps s₀ (arriveNow body r s) := by
  unfold arriveNow
  split
  · exact (State.dropAuth_keeps _).2 h
  · split
    · have h1 := Keeps.of_eq ‹_› (seqCheck_keeps _ _ h)
      split
      · split
        · exact (State.answer_keeps _ _ _ _ _).2 h1
        · exact finish_keeps _ _ (hb _ _ h1)
      · exact h1

end Sys2Proof.Machine
end

section
/-! RULES. What the functions of the model's file Screen keep. -/

namespace Sys2Proof.Machine

variable {s₀ : State}

theorem State.setBank_keeps (s k b) : Keeps s₀ (State.setBank s k b) ↔ Keeps s₀ s := Iff.rfl

theorem State.scrEvent_keeps (s die bit) : Keeps s₀ (State.scrEvent s die bit) ↔ Keeps s₀ s := Iff.rfl

theorem fwdPlanned_keeps (s) : Keeps s₀ (fwdPlanned s) ↔ Keeps s₀ s := by
  simp only [fwdPlanned, keeps_mk, keepsAt_iff, implies_true, iff_self, keeps_foldl_iff]

theorem wakeNeeded_keeps (k s) : Keeps s₀ (wakeNeeded k s) ↔ Keeps s₀ s := by
  simp only [wakeNeeded, ite_self, iff_self, keeps_ite, State.setBank_keeps]

theorem slotWork_keeps (bank n s) : Keeps s₀ (slotWork bank n s) ↔ Keeps s₀ s := by
  simp only [slotWork, ite_self, iff_self, keeps_ite, State.count_keeps, State.drawn_keeps]

theorem screenCommit_keeps (s) (h : Keeps s₀ s) : Keeps s₀ (screenCommit s) := by
  unfold screenCommit
  split
  · exact h
  · split
    · extract_lets s' s'2
      have h1 : Keeps s₀ s'2 := keeps_mk.2 h
      clear_value s'2
      exact State.workDone_keeps _ _ _ _ (Keeps.foldl (fun _ _ hu => (slotWork_keeps _ _ _).2 hu) h1)
    · extract_lets bank
      split
      · exact h
      · exact State.workDone_keeps _ _ _ _ ((slotWork_keeps _ _ _).2 ((State.setBank_keeps _ _ _).2 (keeps_mk.2 h)))

theorem stageBatch_keeps (s b) (h : Keeps s₀ s) : (stageBatch s b).Keeps s₀ := by
  unfold stageBatch
  extract_lets _ s'
  have h1 : Keeps s₀ s' := keeps_mk.2 h
  clear_value s'
  refine ans_keeps_mk.2 ⟨?_, fun _ hu => hu⟩
  split
  · exact h1
  · exact (wakeNeeded_keeps _ _).2 h1

theorem bodyScreenWrite_keeps (r s) (h : Keeps s₀ s) : (bodyScreenWrite r s).Keeps s₀ := by
  unfold bodyScreenWrite
  extract_lets p cls bank field t same counts
  split
  · exact refuse_keeps _ _ h
  · split
    · exact refuse_keeps _ _ h
    · split
      · split
        · exact refuse_keeps _ _ h
        · extract_lets b after
          exact checks_keeps _ _ _ h (stageBatch_keeps _ _ h)
      · split
        · extract_lets b after
          exact checks_keeps _ _ _ h (stageBatch_keeps _ _ h)
        · exact refuse_keeps _ _ h

theorem bodyScreenDelete_keeps (r s) (h : Keeps s₀ s) : (bodyScreenDelete r s).Keeps s₀ := by
  unfold bodyScreenDelete
  extract_lets p cls field n t ids l tb
  apply checks_keeps
  · exact h
  · split
    · exact stageBatch_keeps _ _ h
    · split
      · exact done_keeps _ _ h
      · exact stageBatch_keeps _ _ h

theorem bankSearch_keeps (r k s) (h : Keeps s₀ s) : Keeps s₀ (bankSearch r k s).1 := by
  unfold bankSearch
  extract_lets p max l b s1
  have h1 : Keeps s₀ s1 := (State.setBank_keeps _ _ _).2 h
  clear_value s1
  split
  · exact (State.count_keeps _ _ _).2 h1
  · exact (State.count_keeps _ _ _).2 ((State.count_keeps _ _ _).2 ((State.count_keeps _ _ _).2 h1))

theorem bodyScreenSearch_keeps (r s) (h : Keeps s₀ s) : (bodyScreenSearch r s).Keeps s₀ := by
  unfold bodyScreenSearch
  extract_lets p cls ver field max key valid t l
  apply checks_keeps
  · exact h
  · split
    · exact done_keeps _ _ h
    · split
      · exact done_keeps _ _ h
      · split
        · exact ans_keeps_mk.2 ⟨(wakeNeeded_keeps _ _).2 h, fun _ hu => hu⟩
        · split
          · have h1 := Keeps.of_eq ‹_› (bankSearch_keeps _ _ _ h)
            exact ans_keeps_mk.2 ⟨h1, fun _ hu => hu⟩

theorem bodyScreenQuotaSet_keeps (r s) (h : Keeps s₀ s) : (bodyScreenQuotaSet r s).Keeps s₀ := by
  unfold bodyScreenQuotaSet
  extract_lets p l k rows cur held
  exact checks_keeps _ _ _ h (done_keeps _ _ (keeps_mk.2 h))

theorem screenRecord_keeps (s kind bank row id diff) (h : Keeps s₀ s) : Keeps s₀ (screenRecord s kind bank row id diff) :=
  State.ledger_keeps _ _ _ _ h

theorem desiltFix_keeps (bank row id diff s) (h : Keeps s₀ s) : Keeps s₀ (desiltFix bank row id diff s).1 := by
  unfold desiltFix
  extract_lets b twice s1 s2
  have h1 : Keeps s₀ s1 := (State.setBank_keeps _ _ _).2 h
  clear_value s1
  have h2 : Keeps s₀ s2 := (State.count_keeps _ _ _).2 ((State.scrEvent_keeps _ _ _).2 h1)
  clear_value s2
  exact screenRecord_keeps _ _ _ _ _ _ h2

theorem retireNote_keeps (bank row id s) (h : Keeps s₀ s) : Keeps s₀ (retireNote bank row id s) :=
  screenRecord_keeps _ _ _ _ _ _ ((State.count_keeps _ _ _).2 ((State.scrEvent_keeps _ _ _).2 h))

theorem desiltPass_keeps (bank row diff shadowBad s) (h : Keeps s₀ s) : Keeps s₀ (desiltPass bank row diff shadowBad s) := by
  unfold desiltPass
  extract_lets s1 b s2 idx e
  have h1 : Keeps s₀ s1 := (slotWork_keeps _ _ _).2 ((State.count_keeps _ _ _).2 h)
  clear_value s1
  have h2 : Keeps s₀ s2 := (State.setBank_keeps _ _ _).2 h1
  clear_value s2
  split
  · split
    · split
      · exact h1
      · split
        · have h3 := Keeps.of_eq ‹_› (desiltFix_keeps _ _ _ _ _ h1)
          split
          · exact retireNote_keeps _ _ _ _ ((State.setBank_keeps _ _ _).2 h3)
          · exact h3
    · split
      · exact h1
      · split
        · exact screenRecord_keeps _ _ _ _ _ _ ((State.scrEvent_keeps _ _ _).2 h2)
        · split
          · exact h1
          · split
            · have h3 := Keeps.of_eq ‹_› (desiltFix_keeps _ _ _ _ _ h1)
              split
              · extract_lets b2
                split
                · exact h3
                · extract_lets b3
                  exact retireNote_keeps _ _ _ _ ((State.setBank_keeps _ _ _).2 h3)
              · exact h3
  · split
    · exact h1
    · split
      · exact h1
      · split
        · have h3 := Keeps.of_eq ‹_› (desiltFix_keeps _ _ _ _ _ h1)
          clear_value e
          split
          · split
            · exact retireNote_keeps _ _ _ _ (keeps_mk.2 h3)
            · exact h3
          · split
            · split
              · exact h3
              · extract_lets _ s3
                have h4 : Keeps s₀ s3 := keeps_mk.2 h3
                clear_value s3
                exact retireNote_keeps _ _ _ _ h4
            · exact h3

theorem bankGate_keeps (bank s) : Keeps s₀ (bankGate bank s) ↔ Keeps s₀ s := by
  simp only [bankGate, ite_self, iff_self, keeps_ite, State.setBank_keeps]

theorem searchWoken_keeps (bank s) (h : Keeps s₀ s) : Keeps s₀ (searchWoken bank s) := by
  unfold searchWoken
  split
  · split
    · split
      · have h1 := Keeps.of_eq ‹_› (bankSearch_keeps _ _ _ h)
        exact State.workDone_keeps _ _ _ _ h1
    · exact h
  · exact h

theorem bankWake_keeps (bank s) (h : Keeps s₀ s) : Keeps s₀ (bankWake bank s) := by
  unfold bankWake
  extract_lets b
  split
  · exact searchWoken_keeps _ _ ((State.setBank_keeps _ _ _).2 h)
  · exact h

theorem bankThrottle_keeps (bank temp s) : Keeps s₀ (bankThrottle bank temp s) ↔ Keeps s₀ s := Iff.rfl

end Sys2Proof.Machine
end

section
/-! RULES. What the functions of the model's file Ports keep. -/

namespace Sys2Proof.Machine

variable {s₀ : State}

theorem countTx_keeps (p cls bytes s) : Keeps s₀ (countTx p cls bytes s) ↔ Keeps s₀ s := Iff.rfl

theorem cutTx_keeps (p a x) (h : Keeps s₀ a.1) : Keeps s₀ (cutTx p a x).1 := by
  unfold cutTx
  split
  · exact h
  · extract_lets sent s1
    have h1 : Keeps s₀ s1 := (countTx_keeps _ _ _ _).2 h
    clear_value s1
    dsimp -zeta only
    split
    · exact (State.emit_keeps _ _).2 h1
    · exact h1

theorem truncateTx_keeps (p pick s) (h : Keeps s₀ s) : Keeps s₀ (truncateTx p pick s) := by
  unfold truncateTx
  extract_lets r
  have hr : Keeps s₀ r.1 := by
    refine Keeps.foldl_fst (fun u x hu => ?_) h
    split
    · exact cutTx_keeps _ _ _ hu
    · exact hu
  split
  · exact hr
  · exact keeps_mk.2 hr

theorem markStale_keeps (p s) : Keeps s₀ (markStale p s) ↔ Keeps s₀ s := Iff.rfl

theorem portDown_keeps (p reason next s) (h : Keeps s₀ s) : Keeps s₀ (portDown p reason next s) := by
  unfold portDown
  simp only [keeps_mk, keepsAt_iff, ite_self, keeps_ite, State.setPort_keeps, State.mark_keeps, markStale_keeps,
    truncateTx_keeps, State.ledger_keeps, *]

theorem linkRow_keeps (p rank f s) (hf : ∀ u, Keeps s₀ u → Keeps s₀ (f u)) (h : Keeps s₀ s) :
    Keeps s₀ (linkRow p rank f s) := by
  unfold linkRow
  extract_lets c was since u _ u2 u3 u4 t
  have h2 : Keeps s₀ u2 := keeps_mk.2 ((State.setPort_keeps _ _ _).2 h)
  have h3 : Keeps s₀ u3 := by
    unfold u3
    split
    · exact (State.unledger_keeps _ _ _).2 h2
    · exact h2
  have h4 : Keeps s₀ u4 := by
    unfold u4
    split
    · exact h3
    · exact h
  have ht : Keeps s₀ t := hf _ h4
  clear_value t
  split
  · exact h
  · split
    · exact h
    · exact keeps_mk.2 ht

theorem linkNegotiated_keeps (p s) : Keeps s₀ (linkNegotiated p s) ↔ Keeps s₀ s := by
  simp only [linkNegotiated, ite_self, iff_self, keeps_ite, State.setPort_keeps]

theorem trainingComplete_keeps (p s) : Keeps s₀ (trainingComplete p s) ↔ Keeps s₀ s := by
  simp only [trainingComplete, ite_self, iff_self, keeps_ite, State.setPort_keeps]

theorem trainTimeout_keeps (p s) : Keeps s₀ (trainTimeout p s) ↔ Keeps s₀ s := by
  simp only [trainTimeout, ite_self, iff_self, keeps_ite, State.count_keeps, State.setPort_keeps]

theorem trainingRetry_keeps (p s) : Keeps s₀ (trainingRetry p s) ↔ Keeps s₀ s := by
  simp only [trainingRetry, ite_self, iff_self, keeps_ite, State.setPort_keeps]

theorem alignmentAcquired_keeps (p s) : Keeps s₀ (alignmentAcquired p s) ↔ Keeps s₀ s := by
  simp only [alignmentAcquired, ite_self, iff_self, keeps_ite, State.setPort_keeps]

theorem linkUp_keeps (p s) : Keeps s₀ (linkUp p s) ↔ Keeps s₀ s := by
  simp only [linkUp, keeps_mk, keepsAt_iff, ite_self, iff_self, keeps_ite, State.mark_keeps, State.setPort_keeps]

theorem lossOfSignal_keeps (p s) (h : Keeps s₀ s) : Keeps s₀ (lossOfSignal p s) := by
  unfold lossOfSignal
  extract_lets q
  split
  · exact portDown_keeps _ _ _ _ h
  · exact h

theorem alignLost_keeps (p s) (h : Keeps s₀ s) : Keeps s₀ (alignLost p s) := by
  unfold alignLost
  extract_lets q
  split
  · exact portDown_keeps _ _ _ _ h
  · exact h

theorem remoteFault_keeps (p s) (h : Keeps s₀ s) : Keeps s₀ (remoteFault p s) := by
  unfold remoteFault
  extract_lets q held
  split
  · exact portDown_keeps _ _ _ _ h
  · exact h

theorem remoteFaultSignal_keeps (p on s) (h : Keeps s₀ s) : Keeps s₀ (remoteFaultSignal p on s) := by
  unfold remoteFaultSignal
  extract_lets q
  split
  · exact (State.setPort_keeps _ _ _).2 h
  · exact (State.setPort_keeps _ _ _).2 h
  · exact h

theorem fecFail_keeps (p count s) (h : Keeps s₀ s) : Keeps s₀ (fecFail p count s) := by
  unfold fecFail
  extract_lets q
  split
  · exact portDown_keeps _ _ _ _ h
  · exact h

theorem fecDegrade_keeps (p symbols s) : Keeps s₀ (fecDegrade p symbols s) ↔ Keeps s₀ s := by
  simp only [fecDegrade, ite_self, iff_self, keeps_ite, State.drawn_keeps, State.count_keeps, State.portEvent_keeps]

theorem dampingElapsed_keeps (p s) : Keeps s₀ (dampingElapsed p s) ↔ Keeps s₀ s := by
  simp only [dampingElapsed, ite_self, iff_self, keeps_ite, State.setPort_keeps]

theorem dampingReset_keeps (p s) : Keeps s₀ (dampingReset p s) ↔ Keeps s₀ s := by
  simp only [dampingReset, ite_self, iff_self, keeps_ite, State.setPort_keeps]

theorem clearPortGauges_keeps (p s) : Keeps s₀ (clearPortGauges p s) ↔ Keeps s₀ s := Iff.rfl

theorem reconfigure_keeps (cs p s) (h : Keeps s₀ s) : Keeps s₀ (reconfigure cs p s) := by
  unfold reconfigure
  simp only [*]
  split
  · simp only [ite_self, keeps_ite, State.modPort_keeps, portDown_keeps, clearPortGauges_keeps, *]
  · simp only [ite_self, keeps_ite, State.modPort_keeps, portDown_keeps, clearPortGauges_keeps, State.setPort_keeps, *]

theorem bodyPortConfig_keeps (r s) (h : Keeps s₀ s) : (bodyPortConfig r s).Keeps s₀ := by
  unfold bodyPortConfig
  extract_lets p
  split
  · exact refuse_keeps _ _ h
  · split
    · exact refuse_keeps _ _ h
    · split
      · exact refuse_keeps _ _ h
      · exact ans_keeps_mk.2 ⟨(done_keeps _ _ h).state,
        fun _ hu => Keeps.foldl (fun _ _ hu1 => linkRow_keeps _ _ _ _ (fun _ hu2 => reconfigure_keeps _ _ _ hu2) hu1) hu⟩

theorem bodyPortState_keeps (r s) (h : Keeps s₀ s) : (bodyPortState r s).Keeps s₀ := by
  unfold bodyPortState
  extract_lets p
  exact checks_keeps _ _ _ h (done_keeps _ _ h)

theorem bodyPortGauges_keeps (r s) (h : Keeps s₀ s) : (bodyPortGauges r s).Keeps s₀ := by
  unfold bodyPortGauges
  extract_lets p n ps
  exact checks_keeps _ _ _ h (done_keeps _ _ h)

theorem bodyMacsecSaSet_keeps (r s) (h : Keeps s₀ s) : (bodyMacsecSaSet r s).Keeps s₀ := by
  unfold bodyMacsecSaSet
  extract_lets p port tx sc an suite act del q inUse key
  exact checks_keeps _ _ _ h (done_keeps _ _ ((State.setPort_keeps _ _ _).2 h))

end Sys2Proof.Machine
end

section
/-! RULES. What the functions of the model's file Buffers keep. -/

namespace Sys2Proof.Machine

variable {s₀ : State}

theorem State.modSched_keeps (s p f) : Keeps s₀ (State.modSched s p f) ↔ Keeps s₀ s := Iff.rfl

theorem shapedMark_keeps (port s) : Keeps s₀ (shapedMark port s) ↔ Keeps s₀ s := by
  simp only [shapedMark, ite_self, implies_true, iff_self, keeps_ite, keeps_foldl_iff, State.modSched_keeps,
    State.count_keeps]

theorem pfcNow_keeps (p c quanta s) : Keeps s₀ (pfcNow p c quanta s) ↔ Keeps s₀ s := Iff.rfl

theorem sendPfc_keeps (p c quanta s) : Keeps s₀ (sendPfc p c quanta s) ↔ Keeps s₀ s := by
  simp only [sendPfc, ite_self, iff_self, keeps_ite, pfcNow_keeps, State.modPort_keeps]

theorem pfcXoff_keeps (p c s) : Keeps s₀ (pfcXoff p c s) ↔ Keeps s₀ s := by
  simp only [pfcXoff, ite_self, iff_self, keeps_ite, sendPfc_keeps]

theorem pfcXon_keeps (p c s) : Keeps s₀ (pfcXon p c s) ↔ Keeps s₀ s := by
  simp only [pfcXon, ite_self, iff_self, keeps_ite, sendPfc_keeps]

theorem pfcRepeat_keeps (p c s) (h : Keeps s₀ s) : Keeps s₀ (pfcRepeat p c s) := by
  unfold pfcRepeat
  extract_lets q
  split
  · exact h
  · split
    · exact (sendPfc_keeps _ _ _ _).2 h
    · exact h

theorem endPause_keeps (p c at_ s) (h : Keeps s₀ s) : Keeps s₀ (endPause p c at_ s) := by
  unfold endPause
  extract_lets q
  split
  · exact h
  · exact (State.count_keeps _ _ _).2 ((State.modPort_keeps _ _ _).2 h)

theorem pastPauses_keeps (p s) (h : Keeps s₀ s) : Keeps s₀ (pastPauses p s) :=
  Keeps.foldl (fun _ _ hu => endPause_keeps _ _ _ _ hu) h

theorem pfcReceiveClass_keeps (p c quanta s) (h : Keeps s₀ s) : Keeps s₀ (pfcReceiveClass p c quanta s) := by
  unfold pfcReceiveClass
  simp only [ite_self, keeps_ite, State.count_keeps, State.modPort_keeps, *]
  split
  · simp only [*]
  · split
    · simp only [*]
    · split
      · simp only [*]
        split
        · assumption
        · simp only [ite_self, keeps_ite, State.count_keeps, State.modPort_keeps, endPause_keeps, *]
      · simp only [*]

theorem pfcReceive_keeps (p enable times s) (h : Keeps s₀ s) : Keeps s₀ (pfcReceive p enable times s) := by
  unfold pfcReceive
  split
  · refine Keeps.foldl (fun u a hu => ?_) ?_
    · split
      · exact pfcReceiveClass_keeps _ _ _ _ hu
      · exact hu
    · exact pastPauses_keeps _ _ ((shapedMark_keeps _ _).2 h)
  · exact h

theorem pauseExpiry_keeps (p c s) (h : Keeps s₀ s) : Keeps s₀ (pauseExpiry p c s) := by
  unfold pauseExpiry
  split
  · split
    · exact endPause_keeps _ _ _ _ ((shapedMark_keeps _ _).2 h)
    · exact h
  · exact h

theorem pfcWatchdog_keeps (p c s) (h : Keeps s₀ s) : Keeps s₀ (pfcWatchdog p c s) := by
  unfold pfcWatchdog
  extract_lets q
  split
  · exact h
  · split
    · exact State.ledger_keeps _ _ _ _ ((State.portEvent_keeps _ _ _).2 ((State.modPort_keeps _ _ _).2 (endPause_keeps _ _ _ _ ((shapedMark_keeps _ _).2 h))))
    · exact h

theorem stuckRecovery_keeps (p c s) : Keeps s₀ (stuckRecovery p c s) ↔ Keeps s₀ s := by
  simp only [stuckRecovery, ite_self, iff_self, keeps_ite, State.modPort_keeps, shapedMark_keeps]

theorem bodyPfcSet_keeps (r s) (h : Keeps s₀ s) : (bodyPfcSet r s).Keeps s₀ := by
  unfold bodyPfcSet
  extract_lets p port ll xoff q s1 die old new
  have h1 : Keeps s₀ die := (State.setPort_keeps _ _ _).2 ((shapedMark_keeps _ _).2 h)
  clear_value die
  exact checks_keeps _ _ _ h (done_keeps _ _ (Keeps.foldl (fun _ _ hu => (pfcXoff_keeps _ _ _).2 hu) ((State.modPort_keeps _ _ _).2 (Keeps.foldl (fun _ _ hu => endPause_keeps _ _ _ _ hu) (pastPauses_keeps _ _ (Keeps.foldl (fun _ _ hu => (sendPfc_keeps _ _ _ _).2 hu) h1))))))

theorem settleMin_keeps (s k) : Keeps s₀ (settleMin s k) ↔ Keeps s₀ s := Iff.rfl

theorem bodyBufferSet_keeps (r s) (h : Keeps s₀ s) : (bodyBufferSet r s).Keeps s₀ := by
  unfold bodyBufferSet
  extract_lets p setG setA mc ks _ s1 s2
  have h2 : Keeps s₀ s2 := by
    have h1 : Keeps s₀ s1 := keeps_mk.2 h
    unfold s2
    split
    · exact Keeps.foldl (fun _ _ hu => (settleMin_keeps _ _).2 hu) h1
    · exact h1
  clear_value s2
  refine checks_keeps _ _ _ h ?_
  split
  · exact guardReject_keeps _ _ _ _ h
  · split
    · exact refuse_keeps _ _ h
    · exact done_keeps _ _ h2

end Sys2Proof.Machine
end

section
/-! RULES. What the functions of the model's file Traffic keep. -/

namespace Sys2Proof.Machine

variable {s₀ : State}

theorem headgate_keeps (s f cls levee) (h : Keeps s₀ s) : Keeps s₀ (headgate s f cls levee).1 := by
  unfold headgate
  extract_lets die m
  split
  · exact (State.count_keeps _ _ _).2 h
  · split
    · exact (State.count_keeps _ _ _).2 h
    · split
      · extract_lets s1 s2
        have h1 : Keeps s₀ s1 := keeps_mk.2 h
        clear_value s1
        have h2 : Keeps s₀ s2 := (State.count_keeps _ _ _).2 h1
        clear_value s2
        split
        · exact h2
        · split
          · split
            · exact (State.count_keeps _ _ _).2 h2
            · exact h2
          · split
            · exact (State.count_keeps _ _ _).2 h2
            · exact h2

theorem bodyMeterSet_keeps (r s) (h : Keeps s₀ s) : (bodyMeterSet r s).Keeps s₀ := by
  unfold bodyMeterSet
  extract_lets p m cir pir cbs pbs depthBad
  exact checks_keeps _ _ _ h (done_keeps _ _ (keeps_mk.2 h))

theorem bodyPrecolourSet_keeps (r s) (h : Keeps s₀ s) : (bodyPrecolourSet r s).Keeps s₀ := by
  unfold bodyPrecolourSet
  extract_lets p port map bad
  exact checks_keeps _ _ _ h (done_keeps _ _ (keeps_mk.2 h))

theorem meshDeliver_keeps (d s) : Keeps s₀ (meshDeliver d s) ↔ Keeps s₀ s := Iff.rfl

theorem bodySchedSet_keeps (r s) (h : Keeps s₀ s) : (bodySchedSet r s).Keeps s₀ := by
  unfold bodySchedSet
  extract_lets p port level idx parent w
  exact checks_keeps _ _ _ h (done_keeps _ _ ((State.modSched_keeps _ _ _).2 ((shapedMark_keeps _ _).2 h)))

theorem debitShapers_keeps (s port cls wire) : Keeps s₀ (debitShapers s port cls wire) ↔ Keeps s₀ s := Iff.rfl

theorem bodyShaperSet_keeps (r s) (h : Keeps s₀ s) : (bodyShaperSet r s).Keeps s₀ := by
  unfold bodyShaperSet
  extract_lets p port level idx rate burst k x s1 _
  have h1 : Keeps s₀ s1 := (shapedMark_keeps _ _).2 h
  clear_value s1
  exact checks_keeps _ _ _ h (done_keeps _ _ (keeps_mk.2 h1))

end Sys2Proof.Machine
end

section
/-! RULES. What the functions of the model's file Tables keep. -/

namespace Sys2Proof.Machine

variable {s₀ : State}

theorem bodyTableWrite_keeps (r s) (h : Keeps s₀ s) : (bodyTableWrite r s).Keeps s₀ := by
  unfold bodyTableWrite
  extract_lets k t v ops after
  split
  · exact refuse_keeps _ _ h
  · split
    · exact refuse_keeps _ _ h
    · split
      · exact refuse_keeps _ _ h
      · split
        · exact refuse_keeps _ _ h
        · split
          · exact guardReject_keeps _ _ _ _ h
          · split
            · exact refuse_keeps _ _ h
            · split
              · exact refuse_keeps _ _ h
              · exact done_keeps _ _ ((State.setTable_keeps _ _ _).2 h)

theorem bodyTableFlip_keeps (r s) (h : Keeps s₀ s) : (bodyTableFlip r s).Keeps s₀ := by
  unfold bodyTableFlip
  extract_lets k t armed
  exact checks_keeps _ _ _ h (done_keeps _ _ ((State.setTable_keeps _ _ _).2 h))

theorem bodyTableStatus_keeps (r s) (h : Keeps s₀ s) : (bodyTableStatus r s).Keeps s₀ := by
  unfold bodyTableStatus
  extract_lets k t code
  exact checks_keeps _ _ _ h (done_keeps _ _ h)

end Sys2Proof.Machine
end

section
/-! RULES. What the functions of the model's file Forward keep. -/

namespace Sys2Proof.Machine

variable {s₀ : State}

theorem stampIn_keeps (st mask s) : Keeps s₀ (stampIn st mask s) ↔ Keeps s₀ s := by
  simp only [stampIn, implies_true, iff_self, keeps_foldl_iff, State.inflightAdd_keeps]

theorem stampOut_keeps (st mask s) : Keeps s₀ (stampOut st mask s) ↔ Keeps s₀ s := by
  simp only [stampOut, implies_true, iff_self, keeps_foldl_iff, State.inflightSub_keeps]

theorem pushCopy_keeps (pipe cls c s) : Keeps s₀ (pushCopy pipe cls c s) ↔ Keeps s₀ s := Iff.rfl

theorem netFrameDone_keeps (c sup s) : Keeps s₀ (netFrameDone c sup s) ↔ Keeps s₀ s := by
  unfold netFrameDone
  split <;> simp only [keeps_mk, keepsAt_iff, iff_self]

theorem releaseCopy_keeps (fid s) : Keeps s₀ (releaseCopy fid s) ↔ Keeps s₀ s := by
  unfold releaseCopy
  split <;> simp only [keeps_mk, keepsAt_iff, ite_self, iff_self, keeps_ite, netFrameDone_keeps, stampOut_keeps]

theorem suppress_keeps (fid m s) : Keeps s₀ (suppress fid m s) ↔ Keeps s₀ s := by
  unfold suppress
  split <;> simp only [keeps_mk, keepsAt_iff, iff_self]

theorem holdFrame_keeps (x f k rsv head mirror copies s) : Keeps s₀ (holdFrame x f k rsv head mirror copies s).1 ↔
    Keeps s₀ s := by
  simp only [holdFrame, keeps_mk, keepsAt_iff, iff_self, stampIn_keeps]

theorem mirrorMatch_keeps (sel s) : Keeps s₀ (mirrorMatch sel s).1 ↔ Keeps s₀ s := Iff.rfl

theorem mirrorCopy_keeps (x f m s) (h : Keeps s₀ s) : Keeps s₀ (mirrorCopy x f m s) := by
  unfold mirrorCopy
  split
  · exact h
  · extract_lets f2 k
    split
    · exact (State.count_keeps _ _ _).2 h
    · split
      · exact (State.count_keeps _ _ _).2 h
      · split
        · exact (State.count_keeps _ _ _).2 h
        · split
          · have h1 := Keeps.of_eq ‹_› ((holdFrame_keeps _ _ _ _ _ _ _ _).2 h)
            exact (pushCopy_keeps _ _ _ _).2 h1

theorem mirrorAll_keeps (x f fired had s) (h : Keeps s₀ s) : Keeps s₀ (mirrorAll x f fired had s).1 := by
  unfold mirrorAll
  refine Keeps.foldl_fst (fun u a hu => ?_) ?_
  · split
    · exact hu
    · exact mirrorCopy_keeps _ _ _ _ hu
  · exact h

theorem mirrorIngress_keeps (x f s) (h : Keeps s₀ s) : Keeps s₀ (mirrorIngress x f s).1 := by
  unfold mirrorIngress
  split
  · exact h
  · split
    · have h1 := Keeps.of_eq ‹_› ((mirrorMatch_keeps _ _).2 h)
      exact mirrorAll_keeps _ _ _ _ _ h1

theorem fenceDrop_keeps (p s) : Keeps s₀ (fenceDrop p s) ↔ Keeps s₀ s := Iff.rfl

theorem pfcOverrun_keeps (ll s) : Keeps s₀ (pfcOverrun ll s) ↔ Keeps s₀ s := by
  unfold pfcOverrun
  split <;> simp only [iff_self, State.portEvent_keeps, State.count_keeps]

theorem lostFrame_keeps (x s) : Keeps s₀ (lostFrame x s) ↔ Keeps s₀ s := by
  simp only [lostFrame, iff_self, netFrameDone_keeps]

theorem passBox_keeps (pipe cls fid c s) : Keeps s₀ (passBox pipe cls fid c s) ↔ Keeps s₀ s := by
  unfold passBox
  split <;> simp only [keeps_mk, keepsAt_iff, iff_self, pushCopy_keeps]

theorem admitUnicast_keeps (x f port rw s) (h : Keeps s₀ s) : Keeps s₀ (admitUnicast x f port rw s) := by
  unfold admitUnicast
  extract_lets n ll k
  split
  · exact (lostFrame_keeps _ _).2 ((fenceDrop_keeps _ _).2 h)
  · split
    · exact (lostFrame_keeps _ _).2 ((State.count_keeps _ _ _).2 h)
    · split
      · exact (lostFrame_keeps _ _).2 ((pfcOverrun_keeps _ _).2 h)
      · split
        · exact (lostFrame_keeps _ _).2 ((State.count_keeps _ _ _).2 h)
        · split
          · have h1 := Keeps.of_eq ‹_› ((holdFrame_keeps _ _ _ _ _ _ _ _).2 h)
            extract_lets s1
            have h2 : Keeps s₀ s1 := (passBox_keeps _ _ _ _ _).2 h1
            clear_value s1
            split
            · exact (pfcXoff_keeps _ _ _).2 h2
            · exact h2

theorem admitTree_keeps (x f t s) (h : Keeps s₀ s) : Keeps s₀ (admitTree x f t s) := by
  unfold admitTree
  extract_lets n ll k cs
  split
  · exact (lostFrame_keeps _ _).2 ((State.count_keeps _ _ _).2 h)
  · split
    · exact (lostFrame_keeps _ _).2 h
    · split
      · exact (lostFrame_keeps _ _).2 ((pfcOverrun_keeps _ _).2 h)
      · split
        · exact (lostFrame_keeps _ _).2 ((State.count_keeps _ _ _).2 h)
        · split
          · have h1 := Keeps.of_eq ‹_› ((holdFrame_keeps _ _ _ _ _ _ _ _).2 h)
            extract_lets job s1
            split
            · exact (pfcXoff_keeps _ _ _).2 (keeps_mk.2 h1)
            · exact keeps_mk.2 h1

theorem divisionCopy_keeps (pipe s) (h : Keeps s₀ s) : Keeps s₀ (divisionCopy pipe s) := by
  unfold divisionCopy
  simp only [*]
  split
  · assumption
  · split
    · assumption
    · simp only [keeps_mk, keepsAt_iff, ite_self, keeps_ite, pushCopy_keeps, releaseCopy_keeps, suppress_keeps,
      State.count_keeps, fenceDrop_keeps, *]

theorem sprayFrame_keeps (x f g m s) (h : Keeps s₀ s) : Keeps s₀ (sprayFrame x f g m s) := by
  unfold sprayFrame
  simp only [*]
  refine Keeps.foldl (fun u a hu => ?_) ?_
  · split
    · assumption
    · simp only [keeps_mk, keepsAt_iff, ite_self, keeps_ite, State.drawn_keeps, admitUnicast_keeps, *]
  · assumption

theorem deliver_keeps (cells port cls s) (h : Keeps s₀ s) : Keeps s₀ (deliver cells port cls s) := by
  unfold deliver
  split
  · exact h
  · extract_lets data f x
    split
    · exact (fenceDrop_keeps _ _).2 h
    · exact admitUnicast_keeps _ _ _ _ _ h

theorem acceptCell_keeps (port cls a c) (h : Keeps s₀ a.1) : Keeps s₀ (acceptCell port cls a c).1 := by
  obtain ⟨s, r⟩ := a
  unfold acceptCell
  dsimp -zeta only at h ⊢
  extract_lets r1 s1
  have h1 : Keeps s₀ s1 := by
    unfold s1
    split
    · exact h
    · exact (State.count_keeps _ _ _).2 h
  clear_value s1
  split
  · split
    · exact deliver_keeps _ _ _ _ h1
    · exact h1
  · split
    · exact h
    · split
      · exact deliver_keeps _ _ _ _ h
      · exact h

theorem acceptRun_keeps (port cls fuel a) (h : Keeps s₀ a.1) : Keeps s₀ (acceptRun port cls fuel a).1 := by
  induction fuel generalizing a with
  | zero => exact h
  | succ fuel ih =>
    unfold acceptRun
    split
    · exact h
    · exact ih _ (acceptCell_keeps _ _ _ _ ((State.count_keeps _ _ _).2 h))

theorem setReorder_keeps (k a) (h : Keeps s₀ a.1) : Keeps s₀ (setReorder k a) := by
  unfold setReorder
  extract_lets _
  exact keeps_mk.2 h

theorem holdCell_keeps (k port cls r c s) (h : Keeps s₀ s) : Keeps s₀ (holdCell k port cls r c s) := by
  unfold holdCell
  extract_lets ll
  split
  · exact setReorder_keeps _ _ ((pfcOverrun_keeps _ _).2 h)
  · split
    · exact (pfcXoff_keeps _ _ _).2 (setReorder_keeps _ _ h)
    · exact setReorder_keeps _ _ h

theorem reorderCell_keeps (src port cls c s) (h : Keeps s₀ s) : Keeps s₀ (reorderCell src port cls c s) := by
  unfold reorderCell
  extract_lets k r d
  split
  · exact setReorder_keeps _ _ (acceptRun_keeps _ _ _ _ (acceptCell_keeps _ _ _ _ h))
  · split
    · exact holdCell_keeps _ _ _ _ _ _ h
    · exact setReorder_keeps _ _ ((State.count_keeps _ _ _).2 h)

theorem reorderTimeout_keeps (src port cls s) (h : Keeps s₀ s) : Keeps s₀ (reorderTimeout src port cls s) := by
  unfold reorderTimeout
  extract_lets k limit
  split
  · exact h
  · split
    · exact h
    · extract_lets dist low
      clear_value low
      split
      · exact h
      · split
        · extract_lets s1
          have h1 : Keeps s₀ s1 := (State.drawn_keeps _).2 ((State.count_keeps _ _ _).2 h)
          clear_value s1
          exact setReorder_keeps _ _ (acceptRun_keeps _ _ _ _ h1)
        · exact h

theorem reorderIdle_keeps (src port cls s) (h : Keeps s₀ s) : Keeps s₀ (reorderIdle src port cls s) := by
  unfold reorderIdle
  extract_lets k
  split
  · exact h
  · split
    · exact setReorder_keeps _ _ h
    · exact h

theorem sprayCell_keeps (f s) (h : Keeps s₀ s) : Keeps s₀ (sprayCell f s) := by
  unfold sprayCell
  simp only [ite_self, keeps_ite, State.count_keeps, reorderCell_keeps, *]
  split
  · simp only [*]
  · split
    · split
      · simp only [ite_self, keeps_ite, State.count_keeps, admitUnicast_keeps, *]
      · simp only [ite_self, keeps_ite, State.count_keeps, *]
    · simp only [*]

theorem takeLookup_keeps (pipe p start s) : Keeps s₀ (takeLookup pipe p start s) ↔ Keeps s₀ s := Iff.rfl

theorem servePipe_keeps (pipe fuel s) (h : Keeps s₀ s) : Keeps s₀ (servePipe pipe fuel s) := by
  induction fuel generalizing s with
  | zero => exact h
  | succ fuel ih =>
    unfold servePipe
    extract_lets free
    split
    · split
      · exact ih _ ((takeLookup_keeps _ _ _ _).2 h)
      · exact h
    · exact h

theorem parserFifo_keeps (f s) (h : Keeps s₀ s) (u) (hu : parserFifo f s = some u) : Keeps s₀ u := by
  unfold parserFifo at hu
  extract_lets pipe s1 s2 at hu
  have h1 : Keeps s₀ s1 := servePipe_keeps _ _ _ h
  have h2 : Keeps s₀ s2 := (State.modPort_keeps _ _ _).2 h1
  split at hu
  · cases hu
  · cases hu
    split
    · exact (takeLookup_keeps _ _ _ _).2 h2
    · exact h2

theorem badSec_keeps (p idx s) : Keeps s₀ (badSec p idx s) ↔ Keeps s₀ s := by
  simp only [badSec, ite_self, iff_self, keeps_ite, State.count_keeps, State.modPort_keeps, State.portEvent_keeps]

theorem macsecIn_keeps (f s) (h : Keeps s₀ s) : Keeps s₀ (macsecIn f s).1 := by
  unfold macsecIn
  extract_lets q
  split
  · split
    · exact h
    · exact (badSec_keeps _ _ _).2 h
  · split
    · exact (badSec_keeps _ _ _).2 h
    · split
      · exact (badSec_keeps _ _ _).2 h
      · split
        · exact (badSec_keeps _ _ _).2 h
        · split
          · exact (badSec_keeps _ _ _).2 h
          · split
            · exact (badSec_keeps _ _ _).2 h
            · extract_lets sa
              exact (State.setPort_keeps _ _ _).2 h

theorem State.hand_keeps (s hh) : Keeps s₀ (State.hand s hh) ↔ Keeps s₀ s := Iff.rfl

theorem fcsError_keeps (f s) : Keeps s₀ (fcsError f s) ↔ Keeps s₀ s := Iff.rfl

theorem toTarget_keeps (x f tgt s) (h : Keeps s₀ s) : Keeps s₀ (toTarget x f tgt s) := by
  unfold toTarget
  split
  · split
    · exact h
    · split
      · exact (State.count_keeps _ _ _).2 h
      · exact (State.hand_keeps _ _).2 h
  · split
    · exact h
    · exact (State.hand_keeps _ _).2 h
  · split
    · exact (fenceDrop_keeps _ _).2 h
    · exact (State.hand_keeps _ _).2 h
  · split
    · exact (fenceDrop_keeps _ _).2 h
    · exact admitUnicast_keeps _ _ _ _ _ h
  · split
    · exact (fenceDrop_keeps _ _).2 h
    · exact sprayFrame_keeps _ _ _ _ _ h
  · split
    · exact (fenceDrop_keeps _ _).2 h
    · exact admitTree_keeps _ _ _ _ h

theorem forwardFrame_keeps (f s) (h : Keeps s₀ s) : Keeps s₀ (forwardFrame f s) := by
  unfold forwardFrame
  extract_lets st pipe d x cutOk s1 s2
  have h1 : Keeps s₀ s1 := keeps_mk.2 h
  clear_value s1
  have h2 : Keeps s₀ s2 := (State.count_keeps _ _ _).2 h1
  clear_value s2
  split
  · exact (fcsError_keeps _ _).2 h2
  · split
    · have h3 := Keeps.of_eq ‹_› (mirrorIngress_keeps _ _ _ h2)
      extract_lets x2
      split
      · exact (State.secEvent_keeps _ _).2 ((State.count_keeps _ _ _).2 h3)
      · split
        · exact (State.count_keeps _ _ _).2 h3
        · split
          · exact (State.count_keeps _ _ _).2 h3
          · rw [State.count_keeps]
            split
            · exact headgate_keeps _ _ _ _ h3
            · exact h3
          · split
            · exact headgate_keeps _ _ _ _ h3
            · exact h3
          · split
            · exact (State.count_keeps _ _ _).2 h3
            · split
              · have h4 := Keeps.of_eq ‹_› (headgate_keeps _ _ _ _ h3)
                exact h4
              · have h4 := Keeps.of_eq ‹_› (headgate_keeps _ _ _ _ h3)
                exact toTarget_keeps _ _ _ _ h4

theorem linkControl_keeps (f s) : Keeps s₀ (linkControl f s) ↔ Keeps s₀ s := by
  simp only [linkControl, ite_self, iff_self, keeps_ite, State.count_keeps, State.hand_keeps, State.setPort_keeps]

theorem mirrorTaken_keeps (f levee s) (h : Keeps s₀ s) : Keeps s₀ (mirrorTaken f levee s) := by
  unfold mirrorTaken
  extract_lets x
  exact mirrorIngress_keeps _ _ _ h

theorem pipelineFrame_keeps (kry f s) (hk : ∀ f u, Keeps s₀ u → Keeps s₀ (kry f u)) (h : Keeps s₀ s) :
    Keeps s₀ (pipelineFrame kry f s) := by
  unfold pipelineFrame
  extract_lets krytic
  split
  · split
    · exact (fcsError_keeps _ _).2 h
    · split
      · exact hk _ _ h
      · exact (State.count_keeps _ _ _).2 h
  · split
    · split
      · exact (fcsError_keeps _ _).2 h
      · exact (linkControl_keeps _ _).2 h
    · split
      · exact (State.count_keeps _ _ _).2 h
      · have h1 := parserFifo_keeps _ _ h _ ‹_›
        split
        · split
          · exact hk _ _ (mirrorTaken_keeps _ _ _ h1)
          · exact (fcsError_keeps _ _).2 h1
        · split
          · split
            · exact (fcsError_keeps _ _).2 h1
            · split
              · exact h1
              · exact (State.hand_keeps _ _).2 (mirrorTaken_keeps _ _ _ h1)
          · split
            · exact (fenceDrop_keeps _ _).2 h1
            · split
              · exact h1
              · split
                · refine sprayCell_keeps _ _ ?_
                  split
                  · exact mirrorTaken_keeps _ _ _ h1
                  · exact h1
                · exact forwardFrame_keeps _ _ h1

theorem frameReceive_keeps (kry f s) (hk : ∀ f u, Keeps s₀ u → Keeps s₀ (kry f u)) (h : Keeps s₀ s) :
    Keeps s₀ (frameReceive kry f s) := by
  unfold frameReceive
  extract_lets p
  split
  · exact h
  · split
    · exact (State.count_keeps _ _ _).2 ((State.count_keeps _ _ _).2 ((State.count_keeps _ _ _).2 h))
    · split
      · exact (State.count_keeps _ _ _).2 ((State.count_keeps _ _ _).2 ((State.count_keeps _ _ _).2 h))
      · split
        · split
          · exact (fcsError_keeps _ _).2 ((State.count_keeps _ _ _).2 ((State.count_keeps _ _ _).2 h))
          · split
            · exact pfcReceive_keeps _ _ _ _ ((State.count_keeps _ _ _).2 ((State.count_keeps _ _ _).2 h))
            · split
              · exact (State.count_keeps _ _ _).2 ((State.count_keeps _ _ _).2 ((State.count_keeps _ _ _).2 h))
              · exact pipelineFrame_keeps _ _ _ (fun _ _ hu => hk _ _ hu) ((State.count_keeps _ _ _).2 ((State.count_keeps _ _ _).2 h))
        · split
          · exact (fcsError_keeps _ _).2 ((State.count_keeps _ _ _).2 ((State.count_keeps _ _ _).2 h))
          · split
            · have h1 := Keeps.of_eq ‹_› (macsecIn_keeps _ _ ((State.count_keeps _ _ _).2 ((State.count_keeps _ _ _).2 h)))
              exact pipelineFrame_keeps _ _ _ (fun _ _ hu => hk _ _ hu) h1
            · have h1 := Keeps.of_eq ‹_› (macsecIn_keeps _ _ ((State.count_keeps _ _ _).2 ((State.count_keeps _ _ _).2 h)))
              exact h1

theorem internalEnqueue_keeps (i s) (h : Keeps s₀ s) : Keeps s₀ (internalEnqueue i s) := by
  unfold internalEnqueue
  extract_lets x
  split
  · exact h
  · split
    · exact (lostFrame_keeps _ _).2 ((fenceDrop_keeps _ _).2 h)
    · split
      · exact admitTree_keeps _ _ _ _ h
      · exact admitUnicast_keeps _ _ _ _ _ h

theorem bodyMcastTreeSet_keeps (r s) (h : Keeps s₀ s) : (bodyMcastTreeSet r s).Keeps s₀ := by
  unfold bodyMcastTreeSet
  extract_lets p t n ms old total new
  apply checks_keeps
  · exact h
  · split
    · exact guardReject_keeps _ _ _ _ h
    · split
      · exact refuse_keeps _ _ h
      · exact done_keeps _ _ (keeps_mk.2 h)

theorem bodyMirrorSet_keeps (r s) (h : Keeps s₀ s) : (bodyMirrorSet r s).Keeps s₀ := by
  unfold bodyMirrorSet
  extract_lets p kind a src tr b6 sample isTag others
  apply checks_keeps
  · exact h
  · split
    · exact done_keeps _ _ (keeps_mk.2 h)
    · split
      · exact done_keeps _ _ (keeps_mk.2 h)
      · exact done_keeps _ _ (keeps_mk.2 h)

theorem pinFailover_keeps (p s) : Keeps s₀ (pinFailover p s) ↔ Keeps s₀ s := by
  simp only [pinFailover, keeps_mk, keepsAt_iff, ite_self, iff_self, keeps_ite]

theorem pinRestore_keeps (p s) : Keeps s₀ (pinRestore p s) ↔ Keeps s₀ s := by
  simp only [pinRestore, keeps_mk, keepsAt_iff, ite_self, iff_self, keeps_ite]

end Sys2Proof.Machine
end

section
/-! RULES. What the functions of the model's file Egress keep. -/

namespace Sys2Proof.Machine

variable {s₀ : State}

theorem popHead_keeps (port leaf s) : Keeps s₀ (popHead port leaf s) ↔ Keeps s₀ s := Iff.rfl

theorem countEpoch_keeps (fid fr s) : Keeps s₀ (countEpoch fid fr s) ↔ Keeps s₀ s := by
  simp only [countEpoch, keeps_mk, keepsAt_iff, implies_true, iff_self, keeps_foldl_iff, State.count_keeps]

theorem drawDiscard_keeps (port c fr s) (h : Keeps s₀ s) (u) (hu : drawDiscard port c fr s = some u) : Keeps s₀ u.1 := by
  unfold drawDiscard at hu
  extract_lets q at hu
  split at hu
  · cases hu
    exact (countEpoch_keeps _ _ _).2 h
  split at hu
  · split at hu
    · cases hu
      exact (suppress_keeps _ _ _).2 ((State.count_keeps _ _ _).2 h)
    · cases hu
      exact (fenceDrop_keeps _ _).2 h
  split at hu
  · cases hu
    exact (State.secEvent_keeps _ _).2 ((State.count_keeps _ _ _).2 h)
  split at hu
  · cases hu
    exact (State.count_keeps _ _ _).2 h
  split at hu
  · cases hu
    exact (State.count_keeps _ _ _).2 h
  · cases hu

theorem mirrorEgress_keeps (port fr f s) (h : Keeps s₀ s) : Keeps s₀ (mirrorEgress port fr f s) := by
  unfold mirrorEgress
  split
  · exact h
  · extract_lets r x
    have h1 : Keeps s₀ r.1 := (mirrorMatch_keeps _ _).2 h
    clear_value r
    exact mirrorAll_keeps _ _ _ _ _ h1

theorem drawHead_keeps (port leaf s) (h : Keeps s₀ s) : Keeps s₀ (drawHead port leaf s) := by
  unfold drawHead
  split
  · exact h
  · extract_lets wire s1 s2
    have h2 : Keeps s₀ s2 :=
      (State.modSched_keeps _ _ _).2 ((debitShapers_keeps _ _ _ _).2 ((popHead_keeps _ _ _).2 h))
    clear_value s2
    split
    · exact h2
    · split
      · have h3 := drawDiscard_keeps _ _ _ _ h2 _ ‹_›
        refine (releaseCopy_keeps _ _).2 ?_
        split
        · exact (State.modSched_keeps _ _ _).2 h3
        · exact h3
      · extract_lets _ f s3
        have h3 : Keeps s₀ s3 := by
          unfold s3
          split
          · exact (State.drawn_keeps _).2 h2
          · exact h2
        clear_value s3
        split
        refine (State.count_keeps _ _ _).2 (keeps_mk.2 ?_)
        exact (State.modSched_keeps _ _ _).2 (mirrorEgress_keeps _ _ _ _ ((State.takePn_keeps _ _).2 h3))

theorem joinRound_keeps (port s) : Keeps s₀ (joinRound port s) ↔ Keeps s₀ s := Iff.rfl

theorem leaveList_keeps (port leaf s) : Keeps s₀ (leaveList port leaf s) ↔ Keeps s₀ s := Iff.rfl

theorem runRound_keeps (port fuel s) (h : Keeps s₀ s) : Keeps s₀ (runRound port fuel s) := by
  induction fuel generalizing s with
  | zero => exact h
  | succ fuel ih =>
    unfold runRound
    extract_lets c
    split
    · exact (State.modSched_keeps _ _ _).2 h
    · split
      · split
        · exact ih _ ((leaveList_keeps _ _ _).2 h)
        · exact ih _ ((State.modSched_keeps _ _ _).2 h)
      · split
        · extract_lets s1
          have h1 : Keeps s₀ s1 := drawHead_keeps _ _ _ h
          clear_value s1
          split
          · exact ih _ h1
          · exact h1
        · split
          · exact ih _ ((leaveList_keeps _ _ _).2 ((State.modSched_keeps _ _ _).2 h))
          · exact ih _ ((State.modSched_keeps _ _ _).2 h)

theorem schedulerRound_keeps (port s) (h : Keeps s₀ s) : Keeps s₀ (schedulerRound port s) := by
  unfold schedulerRound
  split
  · exact h
  · extract_lets s1
    have h1 : Keeps s₀ s1 := (joinRound_keeps _ _).2 ((shapedMark_keeps _ _).2 h)
    clear_value s1
    exact runRound_keeps _ _ _ h1

theorem pfcFlush_keeps (port s) : Keeps s₀ (pfcFlush port s) ↔ Keeps s₀ s := by
  simp only [pfcFlush, ite_self, implies_true, iff_self, keeps_ite, keeps_foldl_iff, State.modPort_keeps, pfcNow_keeps]

theorem transmitEnd_keeps (port s) : Keeps s₀ (transmitEnd port s) ↔ Keeps s₀ s := by
  unfold transmitEnd
  split <;> simp only [keeps_mk, keepsAt_iff, ite_self, iff_self, keeps_ite, State.emit_keeps, countTx_keeps,
    State.count_keeps, releaseCopy_keeps, pfcFlush_keeps]

theorem discardCopy_keeps (port s c) : Keeps s₀ (discardCopy port s c) ↔ Keeps s₀ s := by
  simp only [discardCopy, ite_self, iff_self, keeps_ite, releaseCopy_keeps, suppress_keeps, State.count_keeps,
    fenceDrop_keeps]

theorem portDownDiscard_keeps (port s) : Keeps s₀ (portDownDiscard port s) ↔ Keeps s₀ s := by
  simp only [portDownDiscard, keeps_mk, keepsAt_iff, implies_true, iff_self, keeps_foldl_iff, shapedMark_keeps,
    discardCopy_keeps]

end Sys2Proof.Machine
end

section
/-! RULES. What the functions of the model's file Pool keep. -/

namespace Sys2Proof.Machine

variable {s₀ : State}

theorem State.setAllot_keeps (s a x) : Keeps s₀ (State.setAllot s a x) ↔ Keeps s₀ s := Iff.rfl

theorem State.modAllot_keeps (s a f) : Keeps s₀ (State.modAllot s a f) ↔ Keeps s₀ s := Iff.rfl

theorem State.setXl_keeps (s v l) : Keeps s₀ (State.setXl s v l) ↔ Keeps s₀ s := Iff.rfl

theorem soil_keeps (a x s) : Keeps s₀ (soil a x s) ↔ Keeps s₀ s := Iff.rfl

theorem bodyAllotCreate_keeps (r s) (h : Keeps s₀ s) : (bodyAllotCreate r s).Keeps s₀ := by
  unfold bodyAllotCreate
  extract_lets p x mine frames
  apply checks_keeps
  · exact h
  · split
    · exact guardReject_keeps _ _ _ _ h
    · exact done_keeps _ _ ((State.setXl_keeps _ _ _).2 ((State.setAllot_keeps _ _ _).2 h))

theorem bodyAllotQuery_keeps (r s) (h : Keeps s₀ s) : (bodyAllotQuery r s).Keeps s₀ := by
  unfold bodyAllotQuery
  extract_lets a own
  apply checks_keeps
  · exact h
  · clear_value a
    split
    · exact done_keeps _ _ h
    · exact done_keeps _ _ h

theorem setHost_keeps (hh s) : Keeps s₀ (setHost hh s) ↔ Keeps s₀ s := Iff.rfl

theorem setRight_keeps (x del s) : Keeps s₀ (setRight x del s) ↔ Keeps s₀ s := by
  simp only [setRight, keeps_mk, keepsAt_iff, ite_self, iff_self, keeps_ite, setHost_keeps]

theorem bodyWaterRightSet_keeps (r s) (h : Keeps s₀ s) : (bodyWaterRightSet r s).Keeps s₀ := by
  unfold bodyWaterRightSet
  extract_lets p levee die af host rate burst out del dies full_
  exact checks_keeps _ _ _ h (done_keeps _ _ (Keeps.foldl (fun _ _ hu => (setRight_keeps _ _ _).2 hu) h))

theorem noteOps_keeps (t s) : Keeps s₀ (noteOps t s) ↔ Keeps s₀ s := Iff.rfl

theorem issueOp_keeps (o s) : Keeps s₀ (issueOp o s).1 ↔ Keeps s₀ s := Iff.rfl

theorem delOp_keeps (id s) : Keeps s₀ (delOp id s) ↔ Keeps s₀ s := by
  unfold delOp
  split <;> simp only [keeps_mk, keepsAt_iff, iff_self, noteOps_keeps]

theorem delOps_keeps (p s) : Keeps s₀ (delOps p s) ↔ Keeps s₀ s := by
  simp only [delOps, implies_true, iff_self, keeps_foldl_iff, delOp_keeps]

theorem bodyTrayAttach_keeps (r s) (h : Keeps s₀ s) : (bodyTrayAttach r s).Keeps s₀ := by
  unfold bodyTrayAttach
  extract_lets p af x
  exact checks_keeps _ _ _ h (done_keeps _ _ (keeps_mk.2 h))

theorem detachIfDone_keeps (t s) (h : Keeps s₀ s) : Keeps s₀ (detachIfDone t s) := by
  unfold detachIfDone
  split
  · exact h
  · split
    · extract_lets as_ s1
      exact State.workDone_keeps _ _ _ _ (keeps_mk.2 h)
    · exact h

theorem detachDone_keeps (s) (h : Keeps s₀ s) : Keeps s₀ (detachDone s) :=
  Keeps.foldl (fun _ _ hu => detachIfDone_keeps _ _ hu) h

theorem bodyTrayDetach_keeps (r s) (h : Keeps s₀ s) : (bodyTrayDetach r s).Keeps s₀ := by
  unfold bodyTrayDetach
  extract_lets t used
  exact checks_keeps _ _ _ h (ans_keeps_mk.2 ⟨(defer_keeps _ _ (keeps_mk.2 h)).state, fun _ hu => detachIfDone_keeps _ _ hu⟩)

end Sys2Proof.Machine
end

section
/-! RULES. What the functions of the model's file Cistern keep. -/

namespace Sys2Proof.Machine

variable {s₀ : State}

theorem State.modPage_keeps (s a page f) : Keeps s₀ (State.modPage s a page f) ↔ Keeps s₀ s := Iff.rfl

theorem cisCount_keeps (s row idx x n) : Keeps s₀ (cisCount s row idx x n) ↔ Keeps s₀ s := Iff.rfl

theorem nextIv_keeps (levee die u s) : Keeps s₀ (nextIv levee die u s).1 ↔ Keeps s₀ s := Iff.rfl

theorem sealTile_keeps (a tile u s) : Keeps s₀ (sealTile a tile u s) ↔ Keeps s₀ s := by
  unfold sealTile
  split <;> simp only [keeps_mk, keepsAt_iff, ite_self, iff_self, keeps_ite, nextIv_keeps]

theorem gcmFail_keeps (x kind src off s) (h : Keeps s₀ s) : Keeps s₀ (gcmFail x kind src off s) :=
  State.ledger_keeps _ _ _ _ ((State.count_keeps _ _ _).2 ((State.secEvent_keeps _ _).2 h))

theorem poisonTile_keeps (a tile s) : Keeps s₀ (poisonTile a tile s) ↔ Keeps s₀ s := by
  unfold poisonTile
  split <;> simp only [keeps_mk, keepsAt_iff, iff_self, State.mark_keeps, State.count_keeps]

theorem hbmRecord_keeps (a tile outcome s) (h : Keeps s₀ s) : Keeps s₀ (hbmRecord a tile outcome s) := by
  unfold hbmRecord
  extract_lets t
  exact State.ledger_keeps _ _ _ _ h

theorem putTile_keeps (a tile start bs u s) (h : Keeps s₀ s) : Keeps s₀ (putTile a tile start bs u s) :=
  (sealTile_keeps _ _ _ _).2 ((State.modPage_keeps _ _ _ _).2 (keeps_mk.2 (h.pool (Mem.wf_writeN _ _))))

theorem touchPage_keeps (a page s) : Keeps s₀ (touchPage a page s) ↔ Keeps s₀ s := Iff.rfl

theorem startFill_keeps (a tile again s) (h : Keeps s₀ s) : Keeps s₀ (startFill a tile again s) := by
  unfold startFill
  split
  · exact h
  · split
    · exact h
    · extract_lets s1
      have h1 : Keeps s₀ s1 := (State.modPage_keeps _ _ _ _).2 h
      clear_value s1
      exact (issueOp_keeps _ _).2 h1

theorem openJournal_keeps (j s) (h : Keeps s₀ s) (u) (hu : openJournal j s = some u) : Keeps s₀ u.1 := by
  obtain ⟨k, -, rfl⟩ := Option.map_eq_some_iff.1 hu
  exact keeps_mk.2 h

theorem issueWb_keeps (a tile x replica d s) : Keeps s₀ (issueWb a tile x replica d s) ↔ Keeps s₀ s := Iff.rfl

theorem startWriteBack_keeps (a tile s) (h : Keeps s₀ s) : Keeps s₀ (startWriteBack a tile s) := by
  unfold startWriteBack
  split
  · exact h
  · extract_lets i ready up rep d mark j
    have hmark : ∀ u, Keeps s₀ u → Keeps s₀ (mark u) := fun _ hu => (State.modPage_keeps _ _ _ _).2 hu
    split
    · exact h
    · split
      · split
        · exact h
        · exact (issueWb_keeps _ _ _ _ _ _).2 (hmark _ (openJournal_keeps _ _ h _ ‹_›))
      · exact (issueWb_keeps _ _ _ _ _ _).2 (hmark _ h)

theorem freePage_keeps (a page s) (h : Keeps s₀ s) : Keeps s₀ (freePage a page s) := keeps_mk.2 (h.pool (Mem.wf_zero _ _))

theorem evictPage_keeps (k s) (h : Keeps s₀ s) : Keeps s₀ (evictPage k s) := by
  unfold evictPage
  extract_lets a page
  split
  · split
    · exact (cisCount_keeps _ _ _ _ _).2 (freePage_keeps _ _ _ h)
    · exact Keeps.foldl (fun _ _ hu => startWriteBack_keeps _ _ _ hu) ((State.modPage_keeps _ _ _ _).2 h)
  · exact h

theorem makeRoom_keeps (die levee n fuel s) (h : Keeps s₀ s) : Keeps s₀ (makeRoom die levee n fuel s).1 := by
  induction fuel generalizing s with
  | zero => exact h
  | succ fuel ih =>
    unfold makeRoom
    split
    · exact h
    · split
      · exact h
      · split
        · exact h
        · split
          · exact ih _ (evictPage_keeps _ _ h)
          · exact evictPage_keeps _ _ h

theorem obtainPage_keeps (a page s) (h : Keeps s₀ s) : Keeps s₀ (obtainPage a page s).1 := by
  unfold obtainPage
  split
  · exact h
  · split
    · exact h
    · split
      · have h1 := Keeps.of_eq ‹_› (makeRoom_keeps _ _ _ _ _ h)
        exact keeps_mk.2 h1
      · have h1 := Keeps.of_eq ‹_› (makeRoom_keeps _ _ _ _ _ h)
        exact h1

theorem wbFinished_keeps (a tile s) (h : Keeps s₀ s) : Keeps s₀ (wbFinished a tile s) := by
  unfold wbFinished
  extract_lets i page s1 s2
  have h1 : Keeps s₀ s2 := keeps_mk.2 h
  clear_value s2
  split
  · extract_lets s3
    have h2 : Keeps s₀ s3 := (cisCount_keeps _ _ _ _ _).2 ((State.modPage_keeps _ _ _ _).2 h1)
    clear_value s3
    split
    · exact (cisCount_keeps _ _ _ _ _).2 (freePage_keeps _ _ _ h2)
    · exact h2
  · exact (State.modPage_keeps _ _ _ _).2 h1

theorem wbAcked_keeps (a tile replica s) (h : Keeps s₀ s) : Keeps s₀ (wbAcked a tile replica s) := by
  unfold wbAcked
  split
  · split
    · extract_lets j
      exact (issueWb_keeps _ _ _ _ _ _).2 (keeps_mk.2 h)
    · exact wbFinished_keeps _ _ _ h
  · exact wbFinished_keeps _ _ _ h

theorem writeBackDeadline_keeps (a tile s) (h : Keeps s₀ s) : Keeps s₀ (writeBackDeadline a tile s) := by
  unfold writeBackDeadline
  simp only [*]
  split
  · simp only [ite_self, keeps_ite, startWriteBack_keeps, *]
  · assumption

theorem coldCompression_keeps (a page s) : Keeps s₀ (coldCompression a page s) ↔ Keeps s₀ s := by
  unfold coldCompression
  split <;> simp only [ite_self, iff_self, keeps_ite, cisCount_keeps, State.modPage_keeps]

theorem expandPage_keeps (a page s) (h : Keeps s₀ s) : Keeps s₀ (expandPage a page s).1 := by
  unfold expandPage
  split
  · split
    · exact (State.modPage_keeps _ _ _ _).2 h
    · split
      · have h1 := Keeps.of_eq ‹_› (makeRoom_keeps _ _ _ _ _ ((State.modPage_keeps _ _ _ _).2 h))
        exact (cisCount_keeps _ _ _ _ _).2 ((State.modPage_keeps _ _ _ _).2 h1)
      · have h1 := Keeps.of_eq ‹_› (makeRoom_keeps _ _ _ _ _ ((State.modPage_keeps _ _ _ _).2 h))
        exact h1
  · exact h

theorem applyHint_keeps (a page hint elem at_ s) (h : Keeps s₀ s) : Keeps s₀ (applyHint a page hint elem at_ s) := by
  unfold applyHint
  extract_lets s1
  have h1 : Keeps s₀ s1 := (State.modPage_keeps _ _ _ _).2 h
  clear_value s1
  split
  · exact Keeps.foldl (fun _ _ hu => startWriteBack_keeps _ _ _ hu) h1
  · exact h1

theorem settleHint_keeps (a page s) (h : Keeps s₀ s) : Keeps s₀ (settleHint a page s) := by
  unfold settleHint
  split
  · exact applyHint_keeps _ _ _ _ _ _ h
  · exact h

theorem repack_keeps (a page s) : Keeps s₀ (repack a page s) ↔ Keeps s₀ s := by
  unfold repack
  split <;> simp only [ite_self, iff_self, keeps_ite, State.modPage_keeps]

theorem fillArrived_keeps (a tile d s) (h : Keeps s₀ s) : Keeps s₀ (fillArrived a tile d s).1 := by
  unfold fillArrived
  split
  · rename_i op x hop hx
    extract_lets s1 i done_
    have h1 : Keeps s₀ s1 := (delOp_keeps _ _).2 h
    have hd : Keeps s₀ done_ := (State.modPage_keeps _ _ _ _).2 h1
    clear_value done_ s1
    split
    · rename_i pt _
      extract_lets s2 _ s4
      have h3 : Keeps s₀ s2 := keeps_mk.2 (Keeps.pool ((State.modPage_keeps _ _ _ _).2 hd) (Mem.wf_writeN _ _))
      have h4 : Keeps s₀ s4 := by
        unfold s4
        split
        · exact keeps_mk.2 h3
        · exact h3
      clear_value s4
      exact (cisCount_keeps _ _ _ _ _).2 (settleHint_keeps _ _ _ ((repack_keeps _ _ _).2 h4))
    · split
      · exact gcmFail_keeps _ _ _ _ _ (settleHint_keeps _ _ _ hd)
      · exact startFill_keeps _ _ _ _ h1
  · exact h

theorem prefetchGo_keeps (s) (h : Keeps s₀ s) : Keeps s₀ (prefetchGo s) := by
  unfold prefetchGo
  refine Keeps.foldl (fun u a hu => ?_) ?_
  · extract_lets a2 page
    refine Keeps.foldl (fun u a hu => ?_) ?_
    · split
      · split
        · exact startFill_keeps _ _ _ _ hu
        · exact hu
      · exact hu
    · exact hu
  · exact h

theorem prefetchPage_keeps (a page hint elem s) (h : Keeps s₀ s) : Keeps s₀ (prefetchPage a page hint elem s).1 := by
  unfold prefetchPage
  split
  · have h1 := Keeps.of_eq ‹_› (obtainPage_keeps _ _ _ h)
    exact h1
  · have h1 := Keeps.of_eq ‹_› (obtainPage_keeps _ _ _ h)
    exact (State.modPage_keeps _ _ _ _).2 h1

theorem prefetchPages_keeps (s) (h : Keeps s₀ s) : Keeps s₀ (prefetchPages s) := by
  unfold prefetchPages
  refine prefetchGo_keeps _ (Keeps.foldl (fun u q hu => ?_) (keeps_mk.2 h))
  extract_lets a page keep
  split
  · exact hu
  · split
    · exact Keeps.of_eq ‹_› (prefetchPage_keeps _ _ _ _ _ hu)
    · exact keeps_mk.2 (Keeps.of_eq ‹_› (prefetchPage_keeps _ _ _ _ _ hu))

theorem hintPage_keeps (hint elem a x page) (h : Keeps s₀ x.1) : Keeps s₀ (hintPage hint elem a x page).1 := by
  unfold hintPage
  split
  · split
    · split
      · exact (State.modPage_keeps _ _ _ _).2 h
      · exact applyHint_keeps _ _ _ _ _ _ h
    · split
      · split
        · have h1 := Keeps.of_eq ‹_› (prefetchPage_keeps _ _ _ _ _ h)
          exact h1
        · have h1 := Keeps.of_eq ‹_› (prefetchPage_keeps _ _ _ _ _ h)
          split
          · exact keeps_mk.2 h1
          · exact h1
      · exact h

theorem pinOne_keeps (s w) (h : Keeps s₀ s) : Keeps s₀ (pinOne s w) := by
  unfold pinOne
  simp only [*]
  split
  · simp only [keeps_ite, *]
    split
    · apply State.workDone_keeps
      apply prefetchGo_keeps
      refine Keeps.foldl (fun u a hu => ?_) ?_
      · simp only [ite_self, keeps_ite, prefetchPage_keeps, *]
      · assumption
    · split
      · apply State.workDone_keeps
        apply prefetchGo_keeps
        refine Keeps.foldl (fun u a hu => ?_) ?_
        · simp only [ite_self, keeps_ite, prefetchPage_keeps, *]
        · assumption
      · apply prefetchGo_keeps
        refine Keeps.foldl (fun u a hu => ?_) ?_
        · simp only [ite_self, keeps_ite, prefetchPage_keeps, *]
        · assumption
  · assumption

theorem pinProgress_keeps (s) (h : Keeps s₀ s) : Keeps s₀ (pinProgress s) :=
  Keeps.foldl (fun _ _ hu => pinOne_keeps _ _ hu) (prefetchPages_keeps _ h)

theorem bodyTierHint_keeps (r s) (h : Keeps s₀ s) : (bodyTierHint r s).Keeps s₀ := by
  unfold bodyTierHint
  extract_lets p field levee hint elem pva len a beyond
  apply checks_keeps
  · exact h
  · clear_value a
    split
    · exact refuse_keeps _ _ h
    · split
      · exact refuse_keeps _ _ h
      · split
        · exact refuse_keeps _ _ h
        · split
          · exact done_keeps _ _ h
          · extract_lets pages new _
            split
            · split
              · exact refuse_keeps _ _ h
              · exact ans_keeps_mk.2 ⟨(defer_keeps _ _ (Keeps.foldl_fst (fun _ _ hu => hintPage_keeps _ _ _ _ _ hu) h)).state, fun _ hu => pinProgress_keeps _ hu⟩
            · split
              · have h1 := Keeps.of_eq ‹_› (by exact Keeps.foldl_fst (fun _ _ hu => hintPage_keeps _ _ _ _ _ hu) h)
                exact done_keeps _ _ (prefetchGo_keeps _ h1)

theorem quotaLowered_keeps (die levee fuel s) (h : Keeps s₀ s) : Keeps s₀ (quotaLowered die levee fuel s) := by
  induction fuel generalizing s with
  | zero => exact h
  | succ fuel ih =>
    unfold quotaLowered
    split
    · exact h
    · split
      · exact h
      · exact ih _ (evictPage_keeps _ _ h)

end Sys2Proof.Machine
end

section
/-! RULES. What the functions of the model's file Live keep. -/

namespace Sys2Proof.Machine

variable {s₀ : State}

theorem State.setLive_keeps (s id l) : Keeps s₀ (State.setLive s id l) ↔ Keeps s₀ s := Iff.rfl

theorem nakQp_keeps (r nak s) : Keeps s₀ (nakQp r nak s) ↔ Keeps s₀ s := by
  simp only [nakQp, keeps_mk, keepsAt_iff, ite_self, iff_self, keeps_ite]

theorem reply_keeps (r k rd status held siphon hit src off data s) :
    Keeps s₀ (reply r k rd status held siphon hit src off data s) ↔ Keeps s₀ s := by
  unfold reply
  split <;> simp only [ite_self, iff_self, keeps_ite, nakQp_keeps, State.emit_keeps]

theorem fencedCount_keeps (levee die s) : Keeps s₀ (fencedCount levee die s) ↔ Keeps s₀ s := Iff.rfl

theorem rejectReq_keeps (r k rd status held s) (h : Keeps s₀ s) : Keeps s₀ (rejectReq r k rd status held s) := by
  unfold rejectReq
  simp only [*]
  split
  · simp only [ite_self, implies_true, iff_self, keeps_ite, keeps_foldl_iff, State.count_keeps, fencedCount_keeps,
    reply_keeps, *]
  · simp only [ite_self, keeps_ite, State.count_keeps, fencedCount_keeps, reply_keeps, *]
  · simp only [ite_self, keeps_ite, State.count_keeps, fencedCount_keeps, reply_keeps, *]

theorem readFromTray_keeps (id a key tile start len again s) (h : Keeps s₀ s) :
    Keeps s₀ (readFromTray id a key tile start len again s).1 := by
  unfold readFromTray
  split
  · exact h
  · split
    · exact h
    · extract_lets conf
      split
      · have h1 := Keeps.of_eq ‹_› ((issueOp_keeps _ _).2 h)
        exact h1

theorem lockTile_keeps (own a tile s) : Keeps s₀ (lockTile own a tile s) ↔ Keeps s₀ s := Iff.rfl

theorem openPage_keeps (a page s) (h : Keeps s₀ s) : Keeps s₀ (openPage a page s).1 := by
  unfold openPage
  split
  · split
    · split
      · have h1 := Keeps.of_eq ‹_› (expandPage_keeps _ _ _ h)
        exact h1
      · have h1 := Keeps.of_eq ‹_› (expandPage_keeps _ _ _ h)
        exact (State.modPage_keeps _ _ _ _).2 h1
    · exact h
  · exact h

theorem tileWay_keeps (own a tile need write s) (h : Keeps s₀ s) : Keeps s₀ (tileWay own a tile need write s).1 := by
  unfold tileWay
  split
  · exact h
  · extract_lets page s1
    have h1 : Keeps s₀ s1 := (touchPage_keeps _ _ _).2 h
    clear_value s1
    split
    · exact h
    · split
      · exact h
      · split
        · exact h
        · split
          · exact h1
          · split
            · have h2 := Keeps.of_eq (b := s₀) ‹_› (by
                split
                · exact openPage_keeps _ _ _ h1
                · exact h1)
              exact h2
            · have h2 := Keeps.of_eq (b := s₀) ‹_› (by
                split
                · exact openPage_keeps _ _ _ h1
                · exact h1)
              split
              · exact h2
              · split
                · exact h2
                · split
                  · exact h2
                  · split
                    · have h3 := Keeps.of_eq ‹_› (obtainPage_keeps _ _ _ h2)
                      exact h3
                    · have h3 := Keeps.of_eq ‹_› (obtainPage_keeps _ _ _ h2)
                      split
                      · exact h3
                      · split
                        · exact startFill_keeps _ _ _ _ h3
                        · exact (State.count_keeps _ _ _).2 h3

theorem planSeg_keeps (id a write st g) (h : Keeps s₀ st.1) : Keeps s₀ (planSeg id a write st g).1 := by
  obtain ⟨s, l⟩ := st
  unfold planSeg
  dsimp -zeta only
  have h1 := tileWay_keeps (liveOwner id) a g.tile (!write || !(g.start == 0 && g.len == 4096)) write s h
  extract_lets whole valid s2 miss l1 conf s3
  have h2 : Keeps s₀ s2 := by
    unfold s2
    split
    · split
      · exact (cisCount_keeps _ _ _ _ _).2 h1
      · exact h1
    · exact h1
  have h3 : Keeps s₀ s3 := by
    unfold s3
    split
    · exact (lockTile_keeps _ _ _ _).2 h2
    · exact h2
  clear_value s3 s2
  split
  · exact h2
  · exact h2
  · split
    · split
      · exact Keeps.of_eq ‹_› (readFromTray_keeps _ _ _ _ _ _ _ _ h3)
      · exact Keeps.of_eq ‹_› (readFromTray_keeps _ _ _ _ _ _ _ _ h3)
    · exact h2

theorem planHold_keeps (own a write st g) (h : Keeps s₀ st.1) : Keeps s₀ (planHold own a write st g).1 := by
  unfold planHold
  split
  · extract_lets page
    split
    · exact h
    · split
      · exact h
      · split
        · exact h
        · split
          · have h1 := Keeps.of_eq (b := s₀) ‹_› (by
              split
              · exact openPage_keeps _ _ _ h
              · exact h)
            exact h1
          · have h1 := Keeps.of_eq (b := s₀) ‹_› (by
              split
              · exact openPage_keeps _ _ _ h
              · exact h)
            exact h1

theorem planSegs_keeps (id a write gs l s) (h : Keeps s₀ s) : Keeps s₀ (planSegs id a write gs l s).1 := by
  unfold planSegs
  extract_lets s1
  have h1 : Keeps s₀ s1 := (State.setLive_keeps _ _ _).2 h
  clear_value s1
  split
  · have h2 := Keeps.of_eq ‹_› (Keeps.foldl_fst (fun _ _ hu => planHold_keeps _ _ _ _ _ hu) h1)
    split
    · exact h2
    · extract_lets busy r
      have h3 : Keeps s₀ r.1 := Keeps.foldl_fst (fun _ _ hu => planSeg_keeps _ _ _ _ _ hu) h2
      clear_value r
      split
      · exact h2
      · exact h3

theorem phaseAnswer_keeps (op m holds status s) : Keeps s₀ (phaseAnswer op m holds status s) ↔ Keeps s₀ s := by
  simp only [phaseAnswer, ite_self, iff_self, keeps_ite, State.emit_keeps]

theorem putPhased_keeps (p s) : Keeps s₀ (putPhased p s) ↔ Keeps s₀ s := Iff.rfl

theorem phaseDone_keeps (m st s) : Keeps s₀ (phaseDone m st s) ↔ Keeps s₀ s := by
  unfold phaseDone
  split <;> simp only [iff_self, putPhased_keeps, phaseAnswer_keeps]

theorem ctxDone_keeps (l status s) : Keeps s₀ (ctxDone l status s) ↔ Keeps s₀ s := by
  simp only [ctxDone, keeps_mk, keepsAt_iff, ite_self, iff_self, keeps_ite]

theorem rdmaAtomicDone_keeps (q prior s) : Keeps s₀ (rdmaAtomicDone q prior s) ↔ Keeps s₀ s := Iff.rfl

theorem pruneHandles_keeps (s) : Keeps s₀ (pruneHandles s) ↔ Keeps s₀ s := Iff.rfl

theorem endLive_keeps (id s) (h : Keeps s₀ s) : Keeps s₀ (endLive id s) := by
  unfold endLive
  simp only [*]
  split
  · assumption
  · simp only [keeps_mk, keepsAt_iff, pruneHandles_keeps, State.inflightSub_keeps, *]
    split
    · simp only [ite_self, keeps_ite, State.modAllot_keeps, *]
    · assumption

theorem respond_keeps (l st s) (h : Keeps s₀ s) : Keeps s₀ (respond l st s) := by
  unfold respond
  simp only [*]
  split
  · simp only [*]
    split
    · simp only [ite_self, keeps_ite, State.count_keeps, reply_keeps, *]
    · simp only [ite_self, implies_true, iff_self, keeps_ite, keeps_foldl_iff, State.count_keeps, reply_keeps, *]
  · simp only [*]
    split
    · simp only [ite_self, keeps_ite, State.count_keeps, reply_keeps, *]
    · simp only [ite_self, implies_true, iff_self, keeps_ite, keeps_foldl_iff, State.count_keeps, reply_keeps, *]
  · simp only [reply_keeps, *]
    split
    · simp only [ite_self, keeps_ite, State.count_keeps, rdmaAtomicDone_keeps, *]
    · simp only [ite_self, keeps_ite, State.count_keeps, *]

theorem flumeEnd_keeps (l st s) : Keeps s₀ (flumeEnd l st s) ↔ Keeps s₀ s := by
  unfold flumeEnd
  split <;> simp only [keeps_mk, keepsAt_iff, iff_self]

theorem finishLive_keeps (id st s) (h : Keeps s₀ s) : Keeps s₀ (finishLive id st s) := by
  unfold finishLive
  simp only [*]
  split
  · assumption
  · split
    · apply endLive_keeps
      simp only [ite_self, keeps_ite, fencedCount_keeps, phaseDone_keeps, *]
      split
      · simp only [ite_self, keeps_ite, cisCount_keeps, *]
      · assumption
    · simp only [keeps_ite, *]
      split
      · apply endLive_keeps
        simp only [ite_self, keeps_ite, fencedCount_keeps, flumeEnd_keeps, *]
        split
        · simp only [ite_self, keeps_ite, cisCount_keeps, *]
        · assumption
      · apply endLive_keeps
        simp only [ctxDone_keeps, *]
        apply respond_keeps
        simp only [ite_self, keeps_ite, fencedCount_keeps, *]
        split
        · simp only [ite_self, keeps_ite, cisCount_keeps, *]
        · assumption

theorem trayImage_keeps (s a l g bs) : Keeps s₀ (trayImage s a l g bs).1 ↔ Keeps s₀ s := by
  unfold trayImage
  split <;> simp only [ite_self, iff_self, keeps_ite_fst, nextIv_keeps]

theorem writeToTray_keeps (id a l g bs replica s) : Keeps s₀ (writeToTray id a l g bs replica s).1 ↔ Keeps s₀ s := by
  unfold writeToTray
  split <;> simp only [ite_self, iff_self, keeps_ite_fst, trayImage_keeps, issueOp_keeps]

theorem applySeg_keeps (id st g) (h : Keeps s₀ st.1) : Keeps s₀ (applySeg id st g).1 := by
  obtain ⟨s, l⟩ := st
  unfold applySeg
  dsimp -zeta only
  extract_lets bs _ s1 rep
  have h1 : Keeps s₀ s1 := by
    unfold s1
    split
    · exact keeps_mk.2 h
    · exact h
  clear_value s1
  split
  · exact h
  · split
    · exact putTile_keeps _ _ _ _ _ _ h
    · split
      · exact Keeps.of_eq ‹_› ((writeToTray_keeps _ _ _ _ _ _ _).2 h1)
      · exact Keeps.of_eq ‹_› ((writeToTray_keeps _ _ _ _ _ _ _).2 h1)

theorem nextPhase_keeps (l phase owner s) : Keeps s₀ (nextPhase l phase owner s) ↔ Keeps s₀ s := by
  unfold nextPhase
  split <;> simp only [keeps_mk, keepsAt_iff, iff_self]

theorem replicaPhase_keeps (id l s) (h : Keeps s₀ s) : Keeps s₀ (replicaPhase id l s) := by
  unfold replicaPhase
  extract_lets s1
  have h1 : Keeps s₀ s1 := (nextPhase_keeps _ _ _ _).2 h
  clear_value s1
  split
  · have h2 := Keeps.of_eq (b := s₀) ‹_› (by
      refine Keeps.foldl_fst (fun u a hu => ?_) ?_
      · split
        · split
          · extract_lets bs
            split
            · have h2 := Keeps.of_eq ‹_› ((writeToTray_keeps _ _ _ _ _ _ _).2 hu)
              exact h2
            · have h2 := Keeps.of_eq ‹_› ((writeToTray_keeps _ _ _ _ _ _ _).2 hu)
              exact h2
          · exact hu
      · exact h1)
    extract_lets s2
    have h3 : Keeps s₀ s2 := (State.setLive_keeps _ _ _).2 h2
    clear_value s2
    split
    · exact finishLive_keeps _ _ _ h3
    · exact h3

theorem atomicHere_keeps (id l g s) (h : Keeps s₀ s) : Keeps s₀ (atomicHere id l g s) := by
  unfold atomicHere
  extract_lets old
  split
  · extract_lets new
    split
    · exact finishLive_keeps _ _ _ ((State.setLive_keeps _ _ _).2 h)
    · exact finishLive_keeps _ _ _ (putTile_keeps _ _ _ _ _ _ ((State.setLive_keeps _ _ _).2 h))

theorem atomicOp_keeps (id l g kind data s) (h : Keeps s₀ s) : Keeps s₀ (atomicOp id l g kind data s) := by
  unfold atomicOp
  split
  · exact finishLive_keeps _ _ _ ((State.setLive_keeps _ _ _).2 h)
  · split
    · have h1 := Keeps.of_eq ‹_› ((issueOp_keeps _ _).2 h)
      exact (State.setLive_keeps _ _ _).2 h1

theorem atomicTray_keeps (id l g s) (h : Keeps s₀ s) : Keeps s₀ (atomicTray id l g s) := by
  unfold atomicTray
  split
  · extract_lets conf
    split
    · split
      · have h1 := Keeps.of_eq ‹_› ((writeToTray_keeps _ _ _ _ _ _ _).2 h)
        exact (State.setLive_keeps _ _ _).2 h1
      · have h1 := Keeps.of_eq ‹_› ((writeToTray_keeps _ _ _ _ _ _ _).2 h)
        exact finishLive_keeps _ _ _ ((State.setLive_keeps _ _ _).2 h1)
    · split
      · exact atomicOp_keeps _ _ _ _ _ _ h
      · split
        · exact atomicOp_keeps _ _ _ _ _ _ h
        · exact atomicOp_keeps _ _ _ _ _ _ h

theorem applyLive_keeps (id s) (h : Keeps s₀ s) : Keeps s₀ (applyLive id s) := by
  unfold applyLive
  split
  · exact h
  · split
    · split
      · split
        · exact finishLive_keeps _ _ _ h
        · split
          · exact atomicTray_keeps _ _ _ _ h
          · exact atomicHere_keeps _ _ _ _ h
      · exact finishLive_keeps _ _ _ h
    · split
      · have h1 := Keeps.of_eq ‹_› (Keeps.foldl_fst (fun _ _ hu => applySeg_keeps _ _ _ hu) h)
        extract_lets s1
        have h2 : Keeps s₀ s1 := (State.setLive_keeps _ _ _).2 h1
        clear_value s1
        split
        · exact finishLive_keeps _ _ _ h2
        · exact h2

theorem gatherTile_keeps (id a tile st) (h : Keeps s₀ st.1) : Keeps s₀ (gatherTile id a tile st).1 := by
  unfold gatherTile
  split
  · split
    · exact h
    · split
      · exact h
      · split
        · have h1 := Keeps.of_eq ‹_› (tileWay_keeps _ _ _ _ _ _ h)
          exact h1
        · have h1 := Keeps.of_eq ‹_› (tileWay_keeps _ _ _ _ _ _ h)
          exact h1
        · have h1 := Keeps.of_eq ‹_› (tileWay_keeps _ _ _ _ _ _ h)
          split
          · have h2 := Keeps.of_eq ‹_› (readFromTray_keeps _ _ _ _ _ _ _ _ h1)
            exact h2
          · have h2 := Keeps.of_eq ‹_› (readFromTray_keeps _ _ _ _ _ _ _ _ h1)
            exact h2

theorem copyToTray_keeps (id a tile d replica st) (h : Keeps s₀ st.1) : Keeps s₀ (copyToTray id a tile d replica st).1 := by
  unfold copyToTray
  split
  · split
    · have h1 := Keeps.of_eq ‹_› ((writeToTray_keeps _ _ _ _ _ _ _).2 h)
      exact h1
    · have h1 := Keeps.of_eq ‹_› ((writeToTray_keeps _ _ _ _ _ _ _).2 h)
      exact h1

theorem copyTile_keeps (id a i d st) (h : Keeps s₀ st.1.1) : Keeps s₀ (copyTile id a i d st).1.1 := by
  obtain ⟨⟨s, l⟩, c⟩ := st
  have hw := tileWay_keeps (liveOwner id) a (16 * c.to_ + i) false true s h
  unfold copyTile
  dsimp -zeta only
  extract_lets tile off
  split <;> rename_i heq <;> rw [heq] at hw
  · exact putTile_keeps _ _ _ _ _ _ hw
  · exact hw
  · exact copyToTray_keeps _ _ _ _ _ _ hw

theorem cowGo_keeps (id c l s) (h : Keeps s₀ s) : Keeps s₀ (cowGo id c l s).1 := by
  have hgather (tiles : List Nat) : Keeps s₀ (tiles.foldl (fun st t => gatherTile id l.allot t st) (s.setLive id l, l)).1 :=
    Keeps.foldl_fst (fun _ _ hu => gatherTile_keeps _ _ _ _ hu) ((State.setLive_keeps _ _ _).2 h)
  have hcopy (bytes : Nat → Bytes) (p : (State × Live) × Cow) (is : List Nat) (hp : Keeps s₀ p.1.1) :
      Keeps s₀ (is.foldl (fun st i => copyTile id l.allot i (bytes i) st) p).1.1 :=
    List.foldlRecOn (motive := fun p :
      (State × Live) × Cow => Keeps s₀ p.1.1) _ _ hp fun _ hu _ _ => copyTile_keeps _ _ _ _ _ hu
  have htray (bytes : Nat → Bytes) (to_ : Nat) (p : State × Live) (is : List Nat) (hp : Keeps s₀ p.1) :
      Keeps s₀ (is.foldl (fun st i => copyToTray id l.allot (16 * to_ + i) (bytes i) true st) p).1 :=
    Keeps.foldl_fst (fun _ _ hu => copyToTray_keeps _ _ _ _ _ _ hu) hp
  unfold cowGo
  extract_lets a pb tiles
  have h1 := hgather tiles
  generalize tiles.foldl (fun st t => gatherTile id a t st) (s.setLive id l, l) = p at h1 ⊢
  obtain ⟨s1, l1⟩ := p
  dsimp -zeta only at h1 ⊢
  extract_lets have_ bytes l3 _ s3 s4
  have h2 := hcopy bytes ((s1, l1), c) c.left h1
  have h4 : Keeps s₀ s4 := by
    have h3 : Keeps s₀ s3 := keeps_mk.2 h2
    unfold s4
    split
    · exact (cisCount_keeps _ _ _ _ _).2 h3
    · exact h3
  clear_value s4
  split
  · exact h1
  · split
    · exact h2
    · split
      · exact htray _ _ _ _ h2
      · exact h4

theorem cowStep_keeps (id l s) (h : Keeps s₀ s) : Keeps s₀ (cowStep id l s).1.1 := by
  unfold cowStep
  split
  · dsimp only
    exact cowGo_keeps _ _ _ _ h
  · extract_lets r
    split
    · split
      · exact h
      · extract_lets lo hi
        clear_value lo hi
        split
        · exact h
        · split
          · exact h
          · split
            · exact (cisCount_keeps _ _ _ _ _).2 h
            · dsimp only
              exact cowGo_keeps _ _ _ _ h
    · exact h

theorem planWrite_keeps (id l s) (h : Keeps s₀ s) : Keeps s₀ (planWrite id l s) := by
  unfold planWrite
  split
  · exact (State.setLive_keeps _ _ _).2 h
  · extract_lets r h2 m
    split
    · exact finishLive_keeps _ _ _ ((State.setLive_keeps _ _ _).2 h)
    · split
      · have h1 := Keeps.of_eq ‹_› (planSegs_keeps _ _ _ _ _ _ h)
        extract_lets s1
        have h3 : Keeps s₀ s1 := (State.setLive_keeps _ _ _).2 h1
        clear_value s1
        split
        · exact applyLive_keeps _ _ h3
        · exact h3

theorem startWrite_keeps (id fuel l s) (h : Keeps s₀ s) : Keeps s₀ (startWrite id fuel l s) := by
  induction fuel generalizing l s with
  | zero => exact (State.setLive_keeps _ _ _).2 h
  | succ fuel ih =>
    have hc := cowStep_keeps id l s h
    unfold startWrite
    split
    · split <;> rename_i heq <;> rw [heq] at hc
      · exact planWrite_keeps _ _ _ hc
      · exact finishLive_keeps _ _ _ ((State.setLive_keeps _ _ _).2 hc)
      · exact (State.setLive_keeps _ _ _).2 hc
      · split
        · exact finishLive_keeps _ _ _ ((State.setLive_keeps _ _ _).2 hc)
        · split
          · exact ih _ _ hc
          · exact (State.setLive_keeps _ _ _).2 hc
    · exact planWrite_keeps _ _ _ h

theorem copyGathered_keeps (id l s) (h : Keeps s₀ s) : Keeps s₀ (copyGathered id l s) := by
  unfold copyGathered
  extract_lets a bad
  split
  · exact finishLive_keeps _ _ _ ((State.setLive_keeps _ _ _).2 h)
  · split
    · exact (State.setLive_keeps _ _ _).2 h
    · exact startWrite_keeps _ _ _ _ h

theorem advance_keeps (id s) (h : Keeps s₀ s) : Keeps s₀ (advance id s) := by
  unfold advance
  split
  · exact h
  · split
    · exact h
    · split
      · split
        · exact copyGathered_keeps _ _ _ h
        · exact finishLive_keeps _ _ _ h
      · exact applyLive_keeps _ _ h
      · split
        · exact replicaPhase_keeps _ _ _ h
        · exact finishLive_keeps _ _ _ h
      · exact finishLive_keeps _ _ _ h
      · exact startWrite_keeps _ _ _ _ h
      · exact h
      · exact copyGathered_keeps _ _ _ h
      · exact h
      · exact h
      · exact h
      · exact h
      · exact finishLive_keeps _ _ _ h

theorem planRead_keeps (id a off hh l s) (h : Keeps s₀ s) : Keeps s₀ (planRead id a off hh l s) := by
  unfold planRead
  simp only [keeps_ite, finishLive_keeps, State.setLive_keeps, *]
  split
  · simp only [*]
  · split
    · assumption
    · simp only [State.setLive_keeps, planSegs_keeps, advance_keeps, *]

theorem startLive_keeps (id s) (h : Keeps s₀ s) : Keeps s₀ (startLive id s) := by
  unfold startLive
  split
  · exact h
  · extract_lets r
    split
    · split
      · exact h
      · exact planRead_keeps _ _ _ _ _ _ h
    · split
      · exact h
      · exact planRead_keeps _ _ _ _ _ _ h
    · split
      · exact h
      · split
        · exact h
        · exact planRead_keeps _ _ _ _ _ _ h
    · exact startWrite_keeps _ _ _ _ h

theorem remapRead_keeps (a id s) (h : Keeps s₀ s) : Keeps s₀ (remapRead a id s) := by
  unfold remapRead
  split
  · exact h
  · extract_lets r pva off bare gs kept l s1
    have h1 : Keeps s₀ s1 := (State.setLive_keeps _ _ _).2 h
    clear_value s1
    split
    · exact h
    · split
      · have h2 := Keeps.of_eq ‹_› (by exact Keeps.foldl_fst (fun _ _ hu => planSeg_keeps _ _ _ _ _ hu) h1)
        exact advance_keeps _ _ ((State.setLive_keeps _ _ _).2 h2)

theorem remapReads_keeps (a s) (h : Keeps s₀ s) : Keeps s₀ (remapReads a s) :=
  Keeps.foldl (fun _ _ hu => remapRead_keeps _ _ _ hu) h

theorem tokenDone_keeps (tok ok s) (h : Keeps s₀ s) : Keeps s₀ (tokenDone tok ok s) := by
  unfold tokenDone
  extract_lets ids s1
  exact Keeps.foldl (fun _ _ hu => advance_keeps _ _ hu) (keeps_mk.2 h)

theorem requestAnswered_keeps (id off opId op d s) (h : Keeps s₀ s) : Keeps s₀ (requestAnswered id off opId op d s) := by
  unfold requestAnswered
  split
  · exact h
  · extract_lets tok l
    split
    · split
      · split
        · exact atomicOp_keeps _ _ _ _ _ _ h
        · exact h
      · split
        · exact advance_keeps _ _ ((State.setLive_keeps _ _ _).2 h)
        · split
          · split
            · extract_lets part
              exact advance_keeps _ _ ((State.setLive_keeps _ _ _).2 h)
            · split
              · exact advance_keeps _ _ ((State.setLive_keeps _ _ _).2 (gcmFail_keeps _ _ _ _ _ h))
              · split
                · have h1 := Keeps.of_eq ‹_› (readFromTray_keeps _ _ _ _ _ _ _ _ h)
                  exact (State.setLive_keeps _ _ _).2 h1
                · have h1 := Keeps.of_eq ‹_› (readFromTray_keeps _ _ _ _ _ _ _ _ h)
                  exact advance_keeps _ _ ((State.setLive_keeps _ _ _).2 h1)
          · exact advance_keeps _ _ ((State.setLive_keeps _ _ _).2 h)
    · exact advance_keeps _ _ ((State.setLive_keeps _ _ _).2 h)
    · exact advance_keeps _ _ ((State.setLive_keeps _ _ _).2 h)
    · split
      · split
        · exact atomicOp_keeps _ _ _ _ _ _ h
        · exact advance_keeps _ _ ((State.setLive_keeps _ _ _).2 h)
      · exact h

end Sys2Proof.Machine
end

section
/-! RULES. What the functions of the model's file Coherence keep. -/

namespace Sys2Proof.Machine

variable {s₀ : State}

theorem State.setTrans_keeps (s k t) : Keeps s₀ (State.setTrans s k t) ↔ Keeps s₀ s := Iff.rfl

theorem State.setEntry_keeps (s k e) : Keeps s₀ (State.setEntry s k e) ↔ Keeps s₀ s := Iff.rfl

theorem State.delEntry_keeps (s k) : Keeps s₀ (State.delEntry s k) ↔ Keeps s₀ s := Iff.rfl

theorem cohCount_keeps (row idx dom die s) : Keeps s₀ (cohCount row idx dom die s) ↔ Keeps s₀ s := Iff.rfl

theorem sendCoh_keeps (die dom a type flags status txn snoopId value pva data s) :
    Keeps s₀ (sendCoh die dom a type flags status txn snoopId value pva data s) ↔ Keeps s₀ s := by
  unfold sendCoh
  split <;> simp only [ite_self, iff_self, keeps_ite, State.emit_keeps]

theorem keepResult_keeps (x s) : Keeps s₀ (keepResult x s) ↔ Keeps s₀ s := by
  simp only [keepResult, keeps_mk, keepsAt_iff, ite_self, iff_self, keeps_ite]

theorem addGrant_keeps (key a txn data s) : Keeps s₀ (addGrant key a txn data s) ↔ Keeps s₀ s := Iff.rfl

theorem emitSnoop_keeps (k s) : Keeps s₀ (emitSnoop k s) ↔ Keeps s₀ s := by
  unfold emitSnoop
  split <;> simp only [keeps_mk, keepsAt_iff, iff_self, sendCoh_keeps]

theorem addSnoop_keeps (die dom key tracker force p s) : Keeps s₀ (addSnoop die dom key tracker force p s) ↔ Keeps s₀ s := by
  simp only [addSnoop, keeps_mk, keepsAt_iff, ite_self, iff_self, keeps_ite, cohCount_keeps, emitSnoop_keeps]

theorem granuleDone_keeps (id key st s) (h : Keeps s₀ s) : Keeps s₀ (granuleDone id key st s) := by
  unfold granuleDone
  split
  · exact h
  · extract_lets g l s1
    have h1 : Keeps s₀ s1 := (State.setLive_keeps _ _ _).2 h
    clear_value s1
    split
    · exact advance_keeps _ _ h1
    · exact h1

theorem cohFinal_keeps (id key type flags status value data s) (h : Keeps s₀ s) :
    Keeps s₀ (cohFinal id key type flags status value data s) := by
  unfold cohFinal
  simp only [*]
  split
  · assumption
  · split
    · simp only [ite_self, keeps_ite, sendCoh_keeps, keepResult_keeps, cohCount_keeps, fencedCount_keeps, endLive_keeps, *]
    · assumption

theorem cohRetry_keeps (key backoff work s) (h : Keeps s₀ s) : Keeps s₀ (cohRetry key backoff work s) := by
  unfold cohRetry
  split
  · exact cohFinal_keeps _ _ _ _ _ _ _ _ h
  · exact cohFinal_keeps _ _ _ _ _ _ _ _ h
  · exact granuleDone_keeps _ _ _ _ h
  · exact h

theorem predict_keeps (key work waiting s) : Keeps s₀ (predict key work waiting s).1 ↔ Keeps s₀ s := by
  unfold predict
  split <;> simp only [ite_self, iff_self, keeps_ite_fst, State.setEntry_keeps]

theorem startTrans_keeps (key work tracker list s) (h : Keeps s₀ s) : Keeps s₀ (startTrans key work tracker list s) := by
  unfold startTrans
  simp only [implies_true, iff_self, keeps_foldl_iff, predict_keeps, addSnoop_keeps, State.setTrans_keeps, *]
  split
  · simp only [ite_self, keeps_ite, cohCount_keeps, State.setEntry_keeps, *]
  · simp only [ite_self, keeps_ite, cohCount_keeps, State.setEntry_keeps, *]

theorem cohTrayRead_keeps (key again s) (h : Keeps s₀ s) : Keeps s₀ (cohTrayRead key again s).1 := by
  unfold cohTrayRead
  simp only [*]
  split
  · assumption
  · split
    · assumption
    · simp only [ite_self, keeps_ite, lockTile_keeps, issueOp_keeps, *]

theorem cohTrayWrite_keeps (key start bs image s) (h : Keeps s₀ s) : Keeps s₀ (cohTrayWrite key start bs image s).1 := by
  unfold cohTrayWrite
  split
  · exact h
  · extract_lets tile at_
    split
    · exact h
    · split
      · split
        · have h1 := Keeps.of_eq ‹_› ((nextIv_keeps _ _ _ _).2 h)
          extract_lets c d
          split
          · have h2 := Keeps.of_eq ‹_› ((issueOp_keeps _ _).2 h1)
            exact h2
      · split
        · have h1 := Keeps.of_eq ‹_› ((issueOp_keeps _ _).2 h)
          exact h1

theorem cohTried_keeps (a tile t s) : Keeps s₀ (cohTried a tile t s).1 ↔ Keeps s₀ s := by
  unfold cohTried
  split <;> simp only [ite_self, iff_self, keeps_ite, cisCount_keeps]

theorem cohMemWrite_keeps (key start bs t s) (h : Keeps s₀ s) : Keeps s₀ (cohMemWrite key start bs t s).1 := by
  unfold cohMemWrite
  extract_lets a tile
  split
  · have h1 := Keeps.of_eq ‹_› ((cohTried_keeps _ _ _ _).2 h)
    split
    · have h2 := Keeps.of_eq ‹_› (tileWay_keeps _ _ _ _ _ _ h1)
      split
      · exact h2
      · exact putTile_keeps _ _ _ _ _ _ h2
    · have h2 := Keeps.of_eq ‹_› (tileWay_keeps _ _ _ _ _ _ h1)
      exact h2
    · have h2 := Keeps.of_eq ‹_› (tileWay_keeps _ _ _ _ _ _ h1)
      extract_lets conf t2
      split
      · split
        · have h3 := Keeps.of_eq ‹_› (cohTrayRead_keeps _ _ _ h2)
          exact h3
        · have h3 := Keeps.of_eq ‹_› (cohTrayRead_keeps _ _ _ h2)
          exact h3
      · split
        · have h3 := Keeps.of_eq ‹_› (cohTrayWrite_keeps _ _ _ _ _ h2)
          exact h3
        · have h3 := Keeps.of_eq ‹_› (cohTrayWrite_keeps _ _ _ _ _ h2)
          exact h3

theorem cohMemRead_keeps (key t s) (h : Keeps s₀ s) : Keeps s₀ (cohMemRead key t s).1 := by
  unfold cohMemRead
  extract_lets a tile
  split
  · have h1 := Keeps.of_eq ‹_› ((cohTried_keeps _ _ _ _).2 h)
    split
    · exact h1
    · split
      · have h2 := Keeps.of_eq ‹_› (tileWay_keeps _ _ _ _ _ _ h1)
        exact h2
      · have h2 := Keeps.of_eq ‹_› (tileWay_keeps _ _ _ _ _ _ h1)
        exact h2
      · have h2 := Keeps.of_eq ‹_› (tileWay_keeps _ _ _ _ _ _ h1)
        split
        · have h3 := Keeps.of_eq ‹_› (cohTrayRead_keeps _ _ _ h2)
          exact h3
        · have h3 := Keeps.of_eq ‹_› (cohTrayRead_keeps _ _ _ h2)
          exact h3

theorem modEntry_keeps (key f s) : Keeps s₀ (modEntry key f s) ↔ Keeps s₀ s := by
  unfold modEntry
  split <;> simp only [iff_self, State.setEntry_keeps]

theorem clearLost_keeps (key s) (h : Keeps s₀ s) : Keeps s₀ (clearLost key s) := by
  unfold clearLost
  extract_lets s1
  split
  · split
    · exact (State.delEntry_keeps _ _).2 (keeps_mk.2 h)
    · exact keeps_mk.2 h
  · exact keeps_mk.2 h

theorem agentEnd_keeps (key id type t s) (h : Keeps s₀ s) : Keeps s₀ (agentEnd key id type t s) := by
  unfold agentEnd
  split
  · exact h
  · extract_lets a data
    split
    · exact cohFinal_keeps _ _ _ _ _ _ _ _ h
    · split
      · exact cohFinal_keeps _ _ _ _ _ _ _ _ h
      · split
        · exact cohFinal_keeps _ _ _ _ _ _ _ _ ((addGrant_keeps _ _ _ _ _).2 ((modEntry_keeps _ _ _).2 h))
        · split
          · split
            · exact cohFinal_keeps _ _ _ _ _ _ _ _ ((addGrant_keeps _ _ _ _ _).2 ((modEntry_keeps _ _ _).2 h))
            · exact cohFinal_keeps _ _ _ _ _ _ _ _ ((addGrant_keeps _ _ _ _ _).2 ((modEntry_keeps _ _ _).2 h))
          · split
            · split
              · exact cohFinal_keeps _ _ _ _ _ _ _ _ ((cohCount_keeps _ _ _ _ _).2 ((modEntry_keeps _ _ _).2 h))
              · exact cohFinal_keeps _ _ _ _ _ _ _ _ ((cohCount_keeps _ _ _ _ _).2 ((addGrant_keeps _ _ _ _ _).2 ((modEntry_keeps _ _ _).2 h)))
            · split
              · exact cohFinal_keeps _ _ _ _ _ _ _ _ ((modEntry_keeps _ _ _).2 (clearLost_keeps _ _ h))
              · exact cohFinal_keeps _ _ _ _ _ _ _ _ ((modEntry_keeps _ _ _).2 h)

theorem transEnd_keeps (key t s) (h : Keeps s₀ s) : Keeps s₀ (transEnd key t s) := by
  unfold transEnd
  simp only [*]
  split
  · simp only [*]
    apply agentEnd_keeps
    simp only [keeps_ite, *]
    split
    · split
      · assumption
      · assumption
    · simp only [*]
  · simp only [*]
    split
    · simp only [keeps_ite, *]
      split
      · split
        · assumption
        · assumption
      · simp only [*]
    · simp only [keeps_ite, *]
      split
      · split
        · simp only [ite_self, cisCount_keeps, cohFinal_keeps, addGrant_keeps, *]
        · simp only [ite_self, cohFinal_keeps, addGrant_keeps, *]
      · simp only [ite_self, cohFinal_keeps, addGrant_keeps, *]
  · simp only [*]
    split
    · simp only [keeps_ite, *]
      split
      · split
        · assumption
        · assumption
      · simp only [*]
    · apply granuleDone_keeps
      simp only [keeps_ite, modEntry_keeps, State.setLive_keeps, *]
      split
      · split
        · simp only [ite_self, cisCount_keeps, clearLost_keeps, *]
        · simp only [ite_self, clearLost_keeps, *]
      · simp only [ite_self, clearLost_keeps, *]
  · simp only [keeps_ite, sendCoh_keeps, *]
    split
    · split
      · assumption
      · assumption
    · simp only [*]
  · simp only [keeps_ite, State.delEntry_keeps, *]
    split
    · split
      · assumption
      · assumption
    · simp only [*]
  · simp only [keeps_ite, State.delEntry_keeps, *]
    split
    · split
      · assumption
      · assumption
    · simp only [*]
  · simp only [keeps_ite, *]
    split
    · split
      · assumption
      · assumption
    · simp only [*]

theorem dieWait_keeps (die key work s) (h : Keeps s₀ s) : Keeps s₀ (dieWait die key work s) := by
  unfold dieWait
  extract_lets q
  split
  · exact keeps_mk.2 h
  · exact cohRetry_keeps _ _ _ _ h

theorem afterTrans_keeps (key t s) (h : Keeps s₀ s) : Keeps s₀ (afterTrans key t s) := by
  unfold afterTrans
  extract_lets s1 k
  have h1 : Keeps s₀ k := keeps_mk.2 h
  clear_value k
  split
  · extract_lets needsWay
    split
    · exact Keeps.foldl (fun _ _ hu => dieWait_keeps _ _ _ _ hu) h1
    · exact startTrans_keeps _ _ _ _ _ h1
  · split
    · exact h1
    · split
      · exact (State.delEntry_keeps _ _).2 h1
      · split
        · split
          · exact dieWait_keeps _ _ _ _ h1
          · exact startTrans_keeps _ _ _ _ _ h1
        · exact h1

theorem cohMicro_keeps (key t s) (h : Keeps s₀ s) : Keeps s₀ (cohMicro key t s).1 := by
  unfold cohMicro
  simp only [ite_self, keeps_ite, keeps_ite_fst, modEntry_keeps, State.setTrans_keeps, cohMemRead_keeps, transEnd_keeps,
    afterTrans_keeps, *]
  split
  · simp only [*]
  · split
    · simp only [*]
    · split
      · simp only [*]
        split
        · assumption
        · simp only [ite_self, keeps_ite_fst, State.setTrans_keeps, cohMemWrite_keeps, *]
      · split
        · simp only [*]
        · split
          · split
            · assumption
            · simp only [ite_self, keeps_ite_fst, State.setTrans_keeps, cohMemWrite_keeps, *]
          · simp only [*]

theorem cohRun_keeps (fuel key s) (h : Keeps s₀ s) : Keeps s₀ (cohRun fuel key s) := by
  induction fuel generalizing s with
  | zero => exact h
  | succ fuel ih =>
    unfold cohRun
    split
    · exact h
    · split
      · have h1 := Keeps.of_eq ‹_› (cohMicro_keeps _ _ _ h)
        exact ih _ h1
      · have h1 := Keeps.of_eq ‹_› (cohMicro_keeps _ _ _ h)
        exact h1

theorem predictBusy_keeps (key work s) : Keeps s₀ (predictBusy key work s) ↔ Keeps s₀ s := by
  unfold predictBusy
  split <;> simp only [ite_self, iff_self, keeps_ite, predict_keeps]

theorem cohEnter_keeps (key work s) (h : Keeps s₀ s) : Keeps s₀ (cohEnter key work s) := by
  unfold cohEnter
  split
  · split
    · split
      · exact cohRetry_keeps _ _ _ _ ((predictBusy_keeps _ _ _).2 h)
      · split
        · exact (State.setTrans_keeps _ _ _).2 h
        · exact cohRetry_keeps _ _ _ _ h
    · split
      · split
        · exact cohRetry_keeps _ _ _ _ h
        · exact dieWait_keeps _ _ _ _ h
      · split
        · exact cohRun_keeps _ _ _ (startTrans_keeps _ _ _ _ _ h)
        · split
          · exact cohRun_keeps _ _ _ (startTrans_keeps _ _ _ _ _ h)
          · extract_lets turn
            dsimp only [turn]
            split
            · exact cohRetry_keeps _ _ _ _ (cohRun_keeps _ _ _ ((cohCount_keeps _ _ _ _ _).2 (startTrans_keeps _ _ _ _ _ h)))
            · exact dieWait_keeps _ _ _ _ (cohRun_keeps _ _ _ ((cohCount_keeps _ _ _ _ _).2 (startTrans_keeps _ _ _ _ _ h)))
          · split
            · exact cohRetry_keeps _ _ _ _ h
            · exact dieWait_keeps _ _ _ _ h
          · split
            · exact cohRetry_keeps _ _ _ _ h
            · exact dieWait_keeps _ _ _ _ h

theorem retryDie_keeps (die s) (h : Keeps s₀ s) : Keeps s₀ (retryDie die s) := by
  unfold retryDie
  extract_lets q
  exact Keeps.foldl (fun _ _ hu => cohEnter_keeps _ _ _ hu) (keeps_mk.2 h)

theorem enterLines_keeps (id s) (h : Keeps s₀ s) : Keeps s₀ (enterLines id s) := by
  unfold enterLines
  split
  · exact h
  · exact Keeps.foldl (fun _ _ hu => cohEnter_keeps _ _ _ hu) h

theorem startLines_keeps (id a off len stage s) (h : Keeps s₀ s) : Keeps s₀ (startLines id a off len stage s) := by
  unfold startLines
  split
  · exact h
  · extract_lets ls l segs s1
    have h1 : Keeps s₀ s1 := (State.setLive_keeps _ _ _).2 h
    clear_value s1
    split
    · exact advance_keeps _ _ h1
    · exact enterLines_keeps _ _ h1

theorem startGathered_keeps (s) (h : Keeps s₀ s) : Keeps s₀ (startGathered s) := by
  unfold startGathered
  refine Keeps.foldl (fun u a hu => ?_) ?_
  · split
    · exact hu
    · exact startLines_keeps _ _ _ _ _ _ hu
  · exact h

theorem cohSettle_keeps (s) (h : Keeps s₀ s) : Keeps s₀ (cohSettle s) := by
  unfold cohSettle
  extract_lets go
  refine Keeps.foldl (fun u a hu => ?_) ?_
  · split
    · exact hu
    · dsimp only [go]
      exact startGathered_keeps _ (retryDie_keeps _ _ (retryDie_keeps _ _ hu))
  · exact h

theorem agentRequest_keeps (id key type s) (h : Keeps s₀ s) : Keeps s₀ (agentRequest id key type s) := by
  unfold agentRequest
  split
  · exact h
  · exact cohSettle_keeps _ (cohEnter_keeps _ _ _ h)

theorem cohStatus_keeps (die bit s) : Keeps s₀ (cohStatus die bit s) ↔ Keeps s₀ s := Iff.rfl

theorem cohAccept_keeps (m s) : Keeps s₀ (cohAccept m s).1 ↔ Keeps s₀ s := by
  unfold cohAccept
  split <;> simp only [ite_self, iff_self, keeps_ite_fst, cohStatus_keeps, State.count_keeps]

theorem snoopAnswered_keeps (sk n data wbSent s) (h : Keeps s₀ s) : Keeps s₀ (snoopAnswered sk n data wbSent s) := by
  unfold snoopAnswered
  extract_lets s1
  split
  · exact keeps_mk.2 h
  · extract_lets t
    exact cohSettle_keeps _ (cohRun_keeps _ _ _ ((State.setTrans_keeps _ _ _).2 ((modEntry_keeps _ _ _).2 (keeps_mk.2 h))))

theorem snoopReply_keeps (m data s) (h : Keeps s₀ s) : Keeps s₀ (snoopReply m data s) := by
  unfold snoopReply
  split
  · have h1 := Keeps.of_eq ‹_› ((cohAccept_keeps _ _).2 h)
    exact h1
  · have h1 := Keeps.of_eq ‹_› ((cohAccept_keeps _ _).2 h)
    split
    · exact (cohCount_keeps _ _ _ _ _).2 h1
    · extract_lets sk
      split
      · exact h1
      · split
        · exact h1
        · split
          · split
            · exact snoopAnswered_keeps _ _ _ _ _ h1
            · exact keeps_mk.2 h1
          · exact snoopAnswered_keeps _ _ _ _ _ h1

theorem takeWb_keeps (key t m s) : Keeps s₀ (takeWb key t m s) ↔ Keeps s₀ s := by
  simp only [takeWb, ite_self, iff_self, keeps_ite, State.setTrans_keeps]

theorem writeBackLine_keeps (m s) (h : Keeps s₀ s) : Keeps s₀ (writeBackLine m s) := by
  unfold writeBackLine
  split
  · have h1 := Keeps.of_eq ‹_› ((cohAccept_keeps _ _).2 h)
    exact h1
  · have h1 := Keeps.of_eq ‹_› ((cohAccept_keeps _ _).2 h)
    split
    · exact (cohCount_keeps _ _ _ _ _).2 h1
    · extract_lets die ack sk _
      have hf1 : ∀ u, Keeps s₀ u → Keeps s₀ (ack u) := fun _ hu => (sendCoh_keeps _ _ _ _ _ _ _ _ _ _ _ _).2 hu
      clear_value ack
      split
      · split
        · split
          · exact hf1 _ h1
          · split
            · exact snoopAnswered_keeps _ _ _ _ _ (hf1 _ h1)
            · exact hf1 _ (keeps_mk.2 h1)
        · exact hf1 _ h1
      · split
        · split
          · split
            · exact cohSettle_keeps _ (cohRun_keeps _ _ _ (startTrans_keeps _ _ _ _ _ ((State.setEntry_keeps _ _ _).2 h1)))
            · extract_lets s1 sk2 _
              have h2 : Keeps s₀ s1 := hf1 _ ((takeWb_keeps _ _ _ _).2 ((State.setEntry_keeps _ _ _).2 h1))
              clear_value s1
              split
              · split
                · exact cohSettle_keeps _ (cohRun_keeps _ _ _ h2)
                · split
                  · exact snoopAnswered_keeps _ _ _ _ _ h2
                  · exact keeps_mk.2 h2
              · exact cohSettle_keeps _ (cohRun_keeps _ _ _ h2)
          · exact hf1 _ ((cohCount_keeps _ _ _ _ _).2 h1)
        · exact hf1 _ ((cohCount_keeps _ _ _ _ _).2 h1)

theorem holdExpiry_keeps (die key s) : Keeps s₀ (holdExpiry die key s) ↔ Keeps s₀ s := by
  simp only [holdExpiry, implies_true, iff_self, keeps_foldl_iff, emitSnoop_keeps]

theorem memoryRead_keeps (die key s) (h : Keeps s₀ s) : Keeps s₀ (memoryRead die key s) := by
  unfold memoryRead
  split
  · exact h
  · split
    · extract_lets t
      split
      · exact cohSettle_keeps _ (cohRun_keeps _ _ _ ((State.setTrans_keeps _ _ _).2 h))
    · exact h

theorem transToken_keeps (tok ok s) (h : Keeps s₀ s) : Keeps s₀ (transToken tok ok s) := by
  unfold transToken
  extract_lets ks
  refine Keeps.foldl (fun u a hu => ?_) ?_
  · split
    · exact cohRun_keeps _ _ _ ((State.setTrans_keeps _ _ _).2 hu)
    · exact hu
  · exact h

theorem tokensDone_keeps (tok ok s) (h : Keeps s₀ s) : Keeps s₀ (tokensDone tok ok s) :=
  cohSettle_keeps _ (transToken_keeps _ _ _ (tokenDone_keeps _ _ _ h))

theorem cohReadAnswered_keeps (key opId op d s) (h : Keeps s₀ s) : Keeps s₀ (cohReadAnswered key opId op d s) := by
  unfold cohReadAnswered
  split
  · extract_lets tile off
    split
    · split
      · extract_lets t
        exact tokensDone_keeps _ _ _ ((State.setTrans_keeps _ _ _).2 h)
      · split
        · exact tokensDone_keeps _ _ _ (gcmFail_keeps _ _ _ _ _ h)
        · split
          · have h1 := Keeps.of_eq ‹_› (cohTrayRead_keeps _ _ _ h)
            exact (State.setTrans_keeps _ _ _).2 h1
          · have h1 := Keeps.of_eq ‹_› (cohTrayRead_keeps _ _ _ h)
            exact tokensDone_keeps _ _ _ h1
    · exact tokensDone_keeps _ _ _ ((State.setTrans_keeps _ _ _).2 h)
  · exact h

theorem cohWriteAnswered_keeps (key opId op s) (h : Keeps s₀ s) : Keeps s₀ (cohWriteAnswered key opId op s) := by
  unfold cohWriteAnswered
  split
  · split
    · split
      · have h1 := Keeps.of_eq ‹_› ((issueOp_keeps _ _).2 h)
        exact (State.setTrans_keeps _ _ _).2 h1
    · exact tokensDone_keeps _ _ _ h
  · exact h

theorem cohDetach_keeps (id s) (h : Keeps s₀ s) : Keeps s₀ (cohDetach id s) := by
  unfold cohDetach
  extract_lets mine s1 ks
  have h1 : Keeps s₀ ks := keeps_mk.2 h
  clear_value ks
  exact Keeps.foldl (fun _ _ hu => cohRun_keeps _ _ _ hu) h1

theorem markLost_keeps (key s) : Keeps s₀ (markLost key s) ↔ Keeps s₀ s := by
  simp only [markLost, keeps_mk, keepsAt_iff, ite_self, iff_self, keeps_ite, cohStatus_keeps, modEntry_keeps]

theorem agentDead_keeps (dom a s) (h : Keeps s₀ s) : Keeps s₀ (agentDead dom a s).1 := by
  unfold agentDead
  extract_lets _ s1 mine held s2 _ s3 ids s4 inDom sh ow s5 s6 sn s7 s8
  have h1 : Keeps s₀ s1 := keeps_mk.2 h
  clear_value s1
  have h2 : Keeps s₀ s2 := Keeps.foldl (fun _ _ hu => (State.inflightSub_keeps _ _ _).2 hu) h1
  clear_value s2
  have h3 : Keeps s₀ s3 := keeps_mk.2 h2
  clear_value s3
  have h4 : Keeps s₀ s4 := Keeps.foldl (fun _ _ hu => endLive_keeps _ _ (cohDetach_keeps _ _ hu)) h3
  clear_value s4
  have h5 : Keeps s₀ s5 := by
    refine Keeps.foldl (fun u k hu => ?_) h4
    have hv : Keeps s₀ (modEntry k (·.drop a) u) := (modEntry_keeps _ _ _).2 hu
    dsimp only
    split
    · exact (State.delEntry_keeps _ _).2 hv
    · exact hv
  clear_value s5
  have h6 : Keeps s₀ s6 := Keeps.foldl (fun _ _ hu => (markLost_keeps _ _).2 hu) h5
  clear_value s6
  have h7 : Keeps s₀ s7 := Keeps.foldl (fun _ _ hu => snoopAnswered_keeps _ _ _ _ _ hu) h6
  clear_value s7
  exact cohSettle_keeps _ (Keeps.foldl (fun _ _ hu => cohRun_keeps _ _ _ hu) h7)

theorem revokeLines_keeps (a s) (h : Keeps s₀ s) : Keeps s₀ (revokeLines a s) := by
  unfold revokeLines
  extract_lets s1 ks
  have h1 : Keeps s₀ ks := keeps_mk.2 h
  clear_value ks
  apply cohSettle_keeps
  refine Keeps.foldl (fun u a hu => ?_) ?_
  · split
    · split
      · exact (State.delEntry_keeps _ _).2 hu
      · exact cohEnter_keeps _ _ _ hu
    · exact hu
  · exact h1

theorem bodyDomainCreate_keeps (r s) (h : Keeps s₀ s) : (bodyDomainCreate r s).Keeps s₀ := by
  unfold bodyDomainCreate
  extract_lets p levee
  exact checks_keeps _ _ _ h (done_keeps _ _ (keeps_mk.2 h))

theorem bodyAgentAdd_keeps (r s) (h : Keeps s₀ s) : (bodyAgentAdd r s).Keeps s₀ := by
  unfold bodyAgentAdd
  extract_lets p d af ip qpn
  split
  · exact refuse_keeps _ _ h
  · extract_lets liveT
    apply checks_keeps
    · exact h
    · split
      · exact guardReject_keeps _ _ _ _ h
      · exact done_keeps _ _ (keeps_mk.2 h)

theorem bodyAgentDead_keeps (r s) (h : Keeps s₀ s) : (bodyAgentDead r s).Keeps s₀ := by
  unfold bodyAgentDead
  extract_lets p d a
  apply checks_keeps
  · exact h
  · split
    · have h1 := Keeps.of_eq ‹_› (agentDead_keeps _ _ _ h)
      extract_lets rp _
      exact ans_keeps_mk.2 ⟨(defer_keeps _ _ h1).state, fun _ hu => State.workDone_keeps _ _ _ _ hu⟩

theorem bodyDomainModeSet_keeps (r s) (h : Keeps s₀ s) : (bodyDomainModeSet r s).Keeps s₀ := by
  unfold bodyDomainModeSet
  extract_lets p d
  exact checks_keeps _ _ _ h (done_keeps _ _ (keeps_mk.2 h))

theorem bodyDomainQuery_keeps (r s) (h : Keeps s₀ s) : (bodyDomainQuery r s).Keeps s₀ := by
  unfold bodyDomainQuery
  extract_lets d
  split
  · exact refuse_keeps _ _ h
  · extract_lets own
    exact checks_keeps _ _ _ h (done_keeps _ _ h)

theorem fillComplete_keeps (a tile d s) (h : Keeps s₀ s) : Keeps s₀ (fillComplete a tile d s) := by
  unfold fillComplete
  split
  · have h1 := Keeps.of_eq ‹_› (fillArrived_keeps _ _ _ _ h)
    exact pinProgress_keeps _ (tokensDone_keeps _ _ _ h1)
  · have h1 := Keeps.of_eq ‹_› (fillArrived_keeps _ _ _ _ h)
    exact h1

theorem prefetchComplete_keeps (a page d s) (h : Keeps s₀ s) : Keeps s₀ (prefetchComplete a page d s) := by
  unfold prefetchComplete
  extract_lets n
  refine Keeps.foldl (fun u a hu => ?_) ?_
  · split
    · exact fillComplete_keeps _ _ _ _ hu
    · exact hu
  · exact h

theorem writeBackComplete_keeps (a tile s) (h : Keeps s₀ s) : Keeps s₀ (writeBackComplete a tile s) := by
  unfold writeBackComplete
  split
  · extract_lets rep
    exact pinProgress_keeps _ (wbAcked_keeps _ _ _ _ ((delOp_keeps _ _).2 h))
  · exact h

theorem pageExpansion_keeps (a page s) (h : Keeps s₀ s) : Keeps s₀ (pageExpansion a page s) := by
  unfold pageExpansion
  split
  · split
    · have h1 := Keeps.of_eq ‹_› (expandPage_keeps _ _ _ h)
      exact tokensDone_keeps _ _ _ h1
    · have h1 := Keeps.of_eq ‹_› (expandPage_keeps _ _ _ h)
      exact h1
  · exact h

theorem hbmUncorrectable_keeps (a tile s) (h : Keeps s₀ s) : Keeps s₀ (hbmUncorrectable a tile s) := by
  unfold hbmUncorrectable
  split
  · exact h
  · split
    · exact h
    · extract_lets dirty
      split
      · exact hbmRecord_keeps _ _ _ _ ((poisonTile_keeps _ _ _).2 h)
      · exact hbmRecord_keeps _ _ _ _ (startFill_keeps _ _ _ _ ((State.modPage_keeps _ _ _ _).2 h))

end Sys2Proof.Machine
end

section
/-! RULES. What the functions of the model's file Requests keep. -/

namespace Sys2Proof.Machine

variable {s₀ : State}

theorem putCtx_keeps (c s) : Keeps s₀ (putCtx c s) ↔ Keeps s₀ s := Iff.rfl

theorem endWith_keeps (id st prior s) (h : Keeps s₀ s) : Keeps s₀ (endWith id st prior s) := by
  unfold endWith
  simp only [*]
  split
  · assumption
  · simp only [keeps_ite, finishLive_keeps, *]
    split
    · simp only [*]
    · apply endLive_keeps
      split
      · simp only [rejectReq_keeps, *]
      · simp only [reply_keeps, *]

theorem sendPhase_keeps (j s) : Keeps s₀ (sendPhase j s) ↔ Keeps s₀ s := Iff.rfl

theorem serveReq_keeps (id s) (h : Keeps s₀ s) : Keeps s₀ (serveReq id s) := by
  unfold serveReq
  split
  · exact h
  · split
    · exact endWith_keeps _ _ _ _ h
    · extract_lets go ms j
      have hgo : ∀ u, Keeps s₀ u → Keeps s₀ (go u) := by
        intro u hu
        unfold go
        split
        · split
          · exact hu
          · split
            · exact cohSettle_keeps _ (startLines_keeps _ _ _ _ _ _ hu)
            · exact cohSettle_keeps _ (startLive_keeps _ _ hu)
        · split
          · exact cohSettle_keeps _ (startLines_keeps _ _ _ _ _ _ hu)
          · exact startLive_keeps _ _ hu
      clear_value go
      split
      · exact endWith_keeps _ _ _ _ ((fencedCount_keeps _ _ _).2 ((ctxDone_keeps _ _ _).2 h))
      · split
        · split
          · exact endWith_keeps _ _ _ _ ((ctxDone_keeps _ _ _).2 h)
          · have hj := openJournal_keeps _ _ h _ ‹_›
            extract_lets s1
            have h1 : Keeps s₀ s1 := (State.setLive_keeps _ _ _).2 hj
            refine hgo _ ?_
            split
            · exact (sendPhase_keeps _ _).2 h1
            · exact h1
        · exact hgo _ h

theorem acceptReq_keeps (id s) (h : Keeps s₀ s) : Keeps s₀ (acceptReq id s) := by
  have hl (l) : Keeps s₀ (s.setLive id l) := (State.setLive_keeps _ _ _).2 h
  have hput (c l) : Keeps s₀ (putCtx c (s.setLive id l)) := (putCtx_keeps _ _).2 (hl l)
  have hb (l l' l'' : Live) (u : State) (hu : Keeps s₀ u) :
      Keeps s₀ (if pubHeld u l then u.setLive id l' else if qpBusy u id l then u.setLive id l'' else serveReq id u) := by
    split
    · exact (State.setLive_keeps _ _ _).2 hu
    · split
      · exact (State.setLive_keeps _ _ _).2 hu
      · exact serveReq_keeps _ _ hu
  fun_cases acceptReq id s
  case case1 => exact h
  case case2 => exact hb _ _ _ _ (hl _)
  case case3 => exact endWith_keeps _ _ _ _ (hl _)
  case case4 => exact hb _ _ _ _ (hput _ _)
  case case5 => exact endLive_keeps _ _ ((State.count_keeps _ _ _).2 (hput _ _))
  case case6 => exact hb _ _ _ _ (hput _ _)
  case case7 => exact endLive_keeps _ _ ((State.count_keeps _ _ _).2 (hput _ _))
  case case8 => exact hb _ _ _ _ (hput _ _)
  case case9 => exact hb _ _ _ _ (hput _ _)
  case case10 => exact endWith_keeps _ _ _ _ ((State.count_keeps _ _ _).2 (hput _ _))

theorem releaseReq_keeps (l hh s) (h : Keeps s₀ s) : Keeps s₀ (releaseReq l hh s) := by
  unfold releaseReq
  simp only [*]
  split
  · split
    · simp only [keeps_ite, *]
      split
      · split
        · simp only [keeps_mk, keepsAt_iff, ite_self, keeps_ite, setHost_keeps, State.modAllot_keeps, cohFinal_keeps,
          agentRequest_keeps, *]
        · simp only [keeps_mk, keepsAt_iff, ite_self, setHost_keeps, State.modAllot_keeps, cohFinal_keeps,
          agentRequest_keeps, *]
      · split
        · simp only [keeps_mk, keepsAt_iff, ite_self, keeps_ite, setHost_keeps, State.modAllot_keeps, meshDeliver_keeps,
          cohFinal_keeps, agentRequest_keeps, *]
        · simp only [keeps_mk, keepsAt_iff, ite_self, setHost_keeps, State.modAllot_keeps, meshDeliver_keeps,
          cohFinal_keeps, agentRequest_keeps, *]
    · split
      · split
        · simp only [keeps_mk, keepsAt_iff, ite_self, keeps_ite, setHost_keeps, State.modAllot_keeps, endLive_keeps, *]
        · simp only [keeps_mk, keepsAt_iff, setHost_keeps, State.modAllot_keeps, endLive_keeps, *]
      · split
        · simp only [keeps_mk, keepsAt_iff, ite_self, keeps_ite, setHost_keeps, State.modAllot_keeps, meshDeliver_keeps,
          endLive_keeps, *]
        · simp only [keeps_mk, keepsAt_iff, setHost_keeps, State.modAllot_keeps, meshDeliver_keeps, endLive_keeps, *]
  · apply acceptReq_keeps
    simp only [keeps_mk, keepsAt_iff, ite_self, keeps_ite, meshDeliver_keeps, *]
    split
    · simp only [ite_self, keeps_ite, setHost_keeps, State.modAllot_keeps, *]
    · assumption

theorem waterRight_keeps (l s) (h : Keeps s₀ s) : Keeps s₀ (waterRight l s) := by
  unfold waterRight
  simp only [keeps_ite, State.inflightAdd_keeps, releaseReq_keeps, State.count_keeps, setHost_keeps,
    State.inflightSub_keeps, *]
  split
  · simp only [*]
  · split
    · split
      · simp only [State.inflightAdd_keeps, State.count_keeps, setHost_keeps, sendCoh_keeps, *]
      · simp only [State.inflightAdd_keeps, State.count_keeps, setHost_keeps, rejectReq_keeps, *]
    · simp only [*]

theorem rightRelease_keeps (die levee host s) (h : Keeps s₀ s) : Keeps s₀ (rightRelease die levee host s) := by
  unfold rightRelease
  extract_lets right h2
  split
  · exact h
  · split
    · exact releaseReq_keeps _ _ _ h
    · exact (setHost_keeps _ _).2 h

theorem startTurns_keeps (s) (h : Keeps s₀ s) : Keeps s₀ (startTurns s) := by
  unfold startTurns
  refine Keeps.foldl (fun u a hu => ?_) ?_
  · split
    · split
      · exact serveReq_keeps _ _ ((State.setLive_keeps _ _ _).2 hu)
      · exact hu
    · exact hu
  · exact h

theorem planAnew_keeps (s) (h : Keeps s₀ s) : Keeps s₀ (planAnew s) := by
  unfold planAnew
  refine Keeps.foldl (fun u a hu => ?_) ?_
  · split
    · split
      · exact hu
      · split
        · exact startLive_keeps _ _ ((State.setLive_keeps _ _ _).2 hu)
        · split
          · exact planWrite_keeps _ _ _ hu
          · split
            · exact startWrite_keeps _ _ _ _ hu
            · exact hu
    · exact hu
  · exact h

theorem freeHolds_keeps (s) (h : Keeps s₀ s) : Keeps s₀ (freeHolds s) := by
  unfold freeHolds
  extract_lets s1 gone
  have h1 : Keeps s₀ gone := keeps_mk.2 h
  clear_value gone
  exact Keeps.foldl (fun _ _ hu => transToken_keeps _ _ _ (keeps_mk.2 hu)) h1

theorem releaseHeld_keeps (s) (h : Keeps s₀ s) : Keeps s₀ (releaseHeld s) :=
  Keeps.foldl (fun _ _ hu => serveReq_keeps _ _ ((State.setLive_keeps _ _ _).2 hu)) h

theorem settle_keeps (s) (h : Keeps s₀ s) : Keeps s₀ (settle s) :=
  detachDone_keeps _ (prefetchPages_keeps _ (releaseHeld_keeps _ (startTurns_keeps _ (planAnew_keeps _ (freeHolds_keeps _ (cohSettle_keeps _ h))))))

theorem poolRequest_keeps (k r s) (h : Keeps s₀ s) : Keeps s₀ (poolRequest k r s) := by
  unfold poolRequest
  extract_lets r2
  split
  · split
    · exact rejectReq_keeps _ _ _ _ _ _ h
    · exact settle_keeps _ (waterRight_keeps _ _ h)

theorem atEngine_keeps (t p s) : Keeps s₀ (atEngine t p s) ↔ Keeps s₀ s := Iff.rfl

theorem reclaimCtx_keeps (die levee host q s) : Keeps s₀ (reclaimCtx die levee host q s) ↔ Keeps s₀ s := Iff.rfl

theorem nakReply_keeps (q nak s) : Keeps s₀ (nakReply q nak s) ↔ Keeps s₀ s := by
  simp only [nakReply, ite_self, iff_self, keeps_ite, nakQp_keeps, State.emit_keeps]

theorem rdmaRequest_keeps (k q s) (h : Keeps s₀ s) : Keeps s₀ (rdmaRequest k q s) := by
  unfold rdmaRequest
  simp only [*]
  split
  · assumption
  · simp only [keeps_mk, keepsAt_iff, ite_self, keeps_ite, nakReply_keeps, State.emit_keeps, rejectReq_keeps,
    settle_keeps, waterRight_keeps, *]
    split
    · simp only [*]
    · split
      · simp only [*]
      · split
        · simp only [*]
          split
          · simp only [*]
          · split
            · simp only [*]
            · split
              · simp only [*]
              · split
                · split
                  · simp only [ite_self, keeps_ite, State.emit_keeps, *]
                  · assumption
                · simp only [*]
        · simp only [*]
          split
          · simp only [*]
          · split
            · simp only [*]
            · split
              · simp only [*]
              · split
                · split
                  · simp only [ite_self, keeps_ite, State.emit_keeps, *]
                  · assumption
                · simp only [*]

theorem cohRequest_keeps (type m s) (h : Keeps s₀ s) : Keeps s₀ (cohRequest type m s) := by
  have hc {u a} (e : cohAccept m s = (u, a)) : Keeps s₀ u := Keeps.of_eq e ((cohAccept_keeps _ _).2 h)
  have refused {u a} (e : cohAccept m s = (u, a)) (die st : Nat) :
    Keeps s₀ (sendCoh die m.domain m.agent 0x39 0 st m.txn 0 0 m.pva [] u) :=
    (sendCoh_keeps _ _ _ _ _ _ _ _ _ _ _ _).2 (hc e)
  fun_cases cohRequest type m s
  case case1 | case3 | case4 => exact hc ‹_›
  case case2 | case6 | case7 | case8 => exact refused ‹_› _ _
  case case5 =>
    refine (sendCoh_keeps _ _ _ _ _ _ _ _ _ _ _ _).2 ((keeps_ite _ _ _).2 ?_)
    split
    · exact (addGrant_keeps _ _ _ _ _).2 (hc ‹_›)
    · exact hc ‹_›
  case case9 => exact settle_keeps _ (waterRight_keeps _ _ (hc ‹_›))

theorem phaseRead_keeps (die m s) (h : Keeps s₀ s) : Keeps s₀ (phaseRead die m s) := by
  unfold phaseRead
  split
  · extract_lets ver r
    split
    · exact (phaseDone_keeps _ _ _).2 h
    · split
      · exact (phaseDone_keeps _ _ _).2 h
      · extract_lets l s1
        have h1 : Keeps s₀ s1 := (State.inflightAdd_keeps _ _ _).2 ((State.modAllot_keeps _ _ _).2 h)
        clear_value s1
        exact settle_keeps _ (serveReq_keeps _ _ (keeps_mk.2 h1))

theorem phaseApply_keeps (die m s) (h : Keeps s₀ s) : Keeps s₀ (phaseApply die m s) := by
  unfold phaseApply
  split
  · exact phaseRead_keeps _ _ _ ((putPhased_keeps _ _).2 h)
  · split
    · exact h
    · split
      · exact (phaseAnswer_keeps _ _ _ _ _).2 ((putPhased_keeps _ _).2 h)
      · exact (putPhased_keeps _ _).2 h
      · exact phaseRead_keeps _ _ _ ((putPhased_keeps _ _).2 h)

theorem ownerQuery_keeps (m s) : Keeps s₀ (ownerQuery m s) ↔ Keeps s₀ s := by
  unfold ownerQuery
  split <;> simp only [ite_self, iff_self, keeps_ite, phaseAnswer_keeps, putPhased_keeps]

theorem phaseAck_keeps (die m s) (h : Keeps s₀ s) : Keeps s₀ (phaseAck die m s) := by
  unfold phaseAck
  split
  · exact h
  · split
    · exact h
    · split
      · split
        · exact finishLive_keeps _ _ _ h
        · extract_lets j s1 l s2
          have h1 : Keeps s₀ l := keeps_mk.2 h
          clear_value l
          split
          · exact settle_keeps _ ((State.setLive_keeps _ _ _).2 ((State.drawn_keeps _).2 h1))
          · exact settle_keeps _ (startWrite_keeps _ _ _ _ ((State.drawn_keeps _).2 h1))
      · exact h

theorem ownerReply_keeps (die m s) : Keeps s₀ (ownerReply die m s) ↔ Keeps s₀ s := by
  unfold ownerReply
  split <;> simp only [keeps_mk, keepsAt_iff, iff_self]

theorem phaseExpiry_keeps (die entry s) (h : Keeps s₀ s) : Keeps s₀ (phaseExpiry die entry s) := by
  unfold phaseExpiry
  extract_lets k
  split
  · exact h
  · split
    · exact h
    · extract_lets others msg s1 j s2
      have h1 : Keeps s₀ s1 := Keeps.foldl (fun _ _ hu => (State.emit_keeps _ _).2 hu) h
      clear_value s1
      split
      · exact (State.count_keeps _ _ _).2 ((sendPhase_keeps _ _).2 (keeps_mk.2 h1))
      · split
        · exact keeps_mk.2 h1
        · exact (State.count_keeps _ _ _).2 (Keeps.foldl (fun _ _ hu => (State.emit_keeps _ _).2 hu) (keeps_mk.2 h1))

theorem poolAnswered_keeps (opId op d s) (h : Keeps s₀ s) : Keeps s₀ (poolAnswered opId op d s) := by
  unfold poolAnswered
  split
  · exact fillComplete_keeps _ _ _ _ h
  · exact writeBackComplete_keeps _ _ _ h
  · exact requestAnswered_keeps _ _ _ _ _ _ ((delOp_keeps _ _).2 h)
  · exact cohReadAnswered_keeps _ _ _ _ _ ((delOp_keeps _ _).2 h)
  · exact cohWriteAnswered_keeps _ _ _ _ ((delOp_keeps _ _).2 h)
  · exact h

end Sys2Proof.Machine
end

section
/-! RULES. What the functions of the model's file Region keep. -/

namespace Sys2Proof.Machine

variable {s₀ : State}

theorem bodyRegionCreate_keeps (r s) (h : Keeps s₀ s) : (bodyRegionCreate r s).Keeps s₀ := by
  unfold bodyRegionCreate
  extract_lets p levee a size _
  split
  · exact refuse_keeps _ _ h
  · extract_lets id g id2
    exact checks_keeps _ _ _ h (done_keeps _ _ (keeps_mk.2 h))

theorem bodyRegionOpen_keeps (r s) (h : Keeps s₀ s) : (bodyRegionOpen r s).Keeps s₀ := by
  unfold bodyRegionOpen
  extract_lets p id mode _
  split
  · exact refuse_keeps _ _ h
  · extract_lets v map slot k gen h2
    exact checks_keeps _ _ _ h (done_keeps _ _ (keeps_mk.2 h))

theorem closeHandles_keeps (p s) : Keeps s₀ (closeHandles p s) ↔ Keeps s₀ s := Iff.rfl

theorem bodyRegionClose_keeps (r s) (h : Keeps s₀ s) : (bodyRegionClose r s).Keeps s₀ := by
  unfold bodyRegionClose
  split
  · exact refuse_keeps _ _ h
  · exact checks_keeps _ _ _ h (done_keeps _ _ ((pruneHandles_keeps _).2 (keeps_mk.2 h)))

theorem bodyRegionPublish_keeps (r s) (h : Keeps s₀ s) : (bodyRegionPublish r s).Keeps s₀ := by
  unfold bodyRegionPublish
  extract_lets p id levee first count
  split
  · exact refuse_keeps _ _ h
  · split
    · extract_lets keep s1
      have h1 : Keeps s₀ s1 := by
        unfold s1
        split
        · exact (cisCount_keeps _ _ _ _ _).2 h
        · exact h
      clear_value s1
      split
      · exact refuse_keeps _ _ h
      · split
        · exact ans_keeps_mk.2 ⟨h1, fun _ hu => hu⟩
        · split
          · exact refuse_keeps _ _ h
          · exact ans_keeps_mk.2 ⟨keeps_mk.2 h, fun _ hu => hu⟩
    · exact refuse_keeps _ _ h

theorem publishCommit_keeps (id s) (h : Keeps s₀ s) : Keeps s₀ (publishCommit id s) := by
  unfold publishCommit
  simp only [*]
  split
  · assumption
  · simp only [keeps_ite, *]
    split
    · simp only [*]
    · split
      · apply releaseHeld_keeps
        apply remapReads_keeps
        apply State.workDone_keeps
        split
        · assumption
        · assumption
      · simp only [keeps_mk, keepsAt_iff, releaseHeld_keeps, State.workDone_keeps, *]

theorem bodyRegionQuery_keeps (r s) (h : Keeps s₀ s) : (bodyRegionQuery r s).Keeps s₀ := by
  unfold bodyRegionQuery
  extract_lets id
  split
  · exact refuse_keeps _ _ h
  · apply checks_keeps
    · exact h
    · extract_lets es
      exact done_keeps _ _ h

theorem endRegion_keeps (a s) : Keeps s₀ (endRegion a s) ↔ Keeps s₀ s := by
  unfold endRegion
  split <;> simp only [keeps_mk, keepsAt_iff, iff_self, closeHandles_keeps]

end Sys2Proof.Machine
end

section
/-! RULES. What the functions of the model's file Versions keep. -/

namespace Sys2Proof.Machine

variable {s₀ : State}

theorem activateAllots_keeps (v s) : Keeps s₀ (activateAllots v s) ↔ Keeps s₀ s := by
  simp only [activateAllots, implies_true, iff_self, keeps_foldl_iff, State.modAllot_keeps]

theorem flipEffect_keeps (k s) : Keeps s₀ (flipEffect k s) ↔ Keeps s₀ s := by
  simp only [flipEffect, ite_self, iff_self, keeps_ite, State.setTable_keeps, activateAllots_keeps]

theorem versionDrained_keeps (k s) : Keeps s₀ (versionDrained k s) ↔ Keeps s₀ s := by
  simp only [versionDrained, ite_self, iff_self, keeps_ite, State.setTable_keeps]

theorem retireFrames_keeps (k v s) (h : Keeps s₀ s) : Keeps s₀ (retireFrames k v s) := by
  unfold retireFrames
  extract_lets ids live s1 s2 s3
  have h1 : Keeps s₀ s1 := Keeps.foldl (fun _ _ hu => truncateTx_keeps _ _ _ hu) h
  clear_value s1
  have h2 : Keeps s₀ s3 := keeps_mk.2 h1
  clear_value s3
  split
  · exact (State.count_keeps _ _ _).2 h2
  · exact State.ledger_keeps _ _ _ _ ((State.count_keeps _ _ _).2 h2)

theorem restamp_keeps (v s) (h : Keeps s₀ s) : Keeps s₀ (restamp v s) := by
  unfold restamp
  extract_lets new fix n s1 t s2 s3
  have h1 : Keeps s₀ s2 := keeps_mk.2 h
  clear_value s2
  split
  · exact (State.count_keeps _ _ _).2 ((State.setTable_keeps _ _ _).2 h1)
  · exact State.ledger_keeps _ _ _ _ ((State.count_keeps _ _ _).2 ((State.setTable_keeps _ _ _).2 h1))

theorem retireExpiry_keeps (k s) (h : Keeps s₀ s) : Keeps s₀ (retireExpiry k s) := by
  unfold retireExpiry
  simp only [ite_self, keeps_ite, restamp_keeps, retireFrames_keeps, State.setTable_keeps, *]

theorem dropReleasing_keeps (s) : Keeps s₀ (dropReleasing s) ↔ Keeps s₀ s := by
  simp only [dropReleasing, ite_self, iff_self, keeps_ite, State.setXl_keeps]

theorem copyComplete_keeps (k s) : Keeps s₀ (copyComplete k s) ↔ Keeps s₀ s := by
  simp only [copyComplete, keeps_mk, keepsAt_iff, ite_self, iff_self, keeps_ite, State.setTable_keeps,
    dropReleasing_keeps, State.setXl_keeps]

theorem heldRevoked_keeps (a s) (h : Keeps s₀ s) : Keeps s₀ (heldRevoked a s) := by
  unfold heldRevoked
  simp only [*]
  refine Keeps.foldl (fun u a hu => ?_) ?_
  · simp only [State.inflightSub_keeps, *]
    split
    · simp only [sendCoh_keeps, State.count_keeps, *]
    · simp only [rejectReq_keeps, *]
  · assumption

theorem revokeCommit_keeps (a timeout s) (h : Keeps s₀ s) : Keeps s₀ (revokeCommit a timeout s) := by
  unfold revokeCommit
  extract_lets s1 s2 s3 _ s4
  have h2 : Keeps s₀ s2 := heldRevoked_keeps _ _ ((State.modAllot_keeps _ _ _).2 h)
  have h3 : Keeps s₀ s3 := by
    unfold s3
    split
    · exact (closeHandles_keeps _ _).2 h2
    · exact h2
  exact revokeLines_keeps _ _ (keeps_mk.2 h3)

theorem emptyCistern_keeps (a s) (h : Keeps s₀ s) : Keeps s₀ (emptyCistern a s) := keeps_mk.2 (h.pool (Mem.wf_zero _ _))

theorem dropPending_keeps (a s) (h : Keeps s₀ s) : Keeps s₀ (dropPending a s) := by
  unfold dropPending
  simp only [*]
  split
  · assumption
  · simp only [keeps_mk, keepsAt_iff, ite_self, keeps_ite, emptyCistern_keeps, soil_keeps, *]

theorem revokeRelease_keeps (a s) (h : Keeps s₀ s) : Keeps s₀ (revokeRelease a s) := by
  unfold revokeRelease
  split
  · exact h
  · extract_lets s1 s2
    have h1 : Keeps s₀ s1 := (soil_keeps _ _ _).2 (emptyCistern_keeps _ _ ((endRegion_keeps _ _).2 h))
    clear_value s1
    exact (dropReleasing_keeps _).2 ((State.setAllot_keeps _ _ _).2 (keeps_mk.2 h1))

theorem bodyAllotRevoke_keeps (r s) (h : Keeps s₀ s) : (bodyAllotRevoke r s).Keeps s₀ := by
  unfold bodyAllotRevoke
  extract_lets p a timeout
  apply checks_keeps
  · exact h
  · split
    · exact refuse_keeps _ _ h
    · split
      · exact done_keeps _ _ (dropPending_keeps _ _ h)
      · exact ans_keeps_mk.2 ⟨settle_keeps _ (revokeCommit_keeps _ _ _ h), fun _ hu => hu⟩

theorem revokeReply_keeps (a n s) (h : Keeps s₀ s) : Keeps s₀ (revokeReply a n s) :=
  State.workDone_keeps _ _ _ _ h

theorem revokeDrainEnd_keeps (a s) (h : Keeps s₀ s) : Keeps s₀ (revokeDrainEnd a s) := by
  unfold revokeDrainEnd
  split
  · split
    · exact revokeReply_keeps _ _ _ (revokeRelease_keeps _ _ h)
    · exact h
  · exact h

theorem killLive_keeps (id st s) (h : Keeps s₀ s) : Keeps s₀ (killLive id st s) := by
  unfold killLive
  split
  · exact h
  · extract_lets s1
    have h1 : Keeps s₀ s1 := cohDetach_keeps _ _ h
    clear_value s1
    split
    · exact cohFinal_keeps _ _ _ _ _ _ _ _ h1
    · exact finishLive_keeps _ _ _ h1

theorem revokeKill_keeps (a s) (h : Keeps s₀ s) : Keeps s₀ (revokeKill a s).1 := by
  unfold revokeKill
  extract_lets ids
  exact Keeps.foldl (fun _ _ hu => killLive_keeps _ _ _ hu) h

theorem zeroRange_keeps (u s) : Keeps s₀ (zeroRange u s) ↔ Keeps s₀ s := by
  unfold zeroRange
  split <;> simp only [keeps_mk, keepsAt_iff, iff_self, State.emit_keeps]

theorem zeroRanges_keeps (a s) (h : Keeps s₀ s) : Keeps s₀ (zeroRanges a s) := by
  unfold zeroRanges
  extract_lets s1
  have h1 : Keeps s₀ s1 := Keeps.foldl (fun _ _ hu => (zeroRange_keeps _ _).2 hu) h
  clear_value s1
  split
  · exact h1
  · split
    · exact (State.setAllot_keeps _ _ _).2 h1
    · exact h1

theorem allotReleased_keeps (a s) : Keeps s₀ (allotReleased a s) ↔ Keeps s₀ s := by
  unfold allotReleased
  split <;> simp only [keeps_mk, keepsAt_iff, ite_self, iff_self, keeps_ite]

end Sys2Proof.Machine
end

section
/-! RULES. What the functions of the model's file Basin keep. -/

namespace Sys2Proof.Machine

variable {s₀ : State}

theorem State.setBasin_keeps (s b x) : Keeps s₀ (State.setBasin s b x) ↔ Keeps s₀ s := Iff.rfl

theorem State.modBasin_keeps (s b f) : Keeps s₀ (State.modBasin s b f) ↔ Keeps s₀ s := Iff.rfl

theorem State.bsnEvent_keeps (s b bit) : Keeps s₀ (State.bsnEvent s b bit) ↔ Keeps s₀ s := Iff.rfl

theorem bsnCount_keeps (row idx b n s) : Keeps s₀ (bsnCount row idx b n s) ↔ Keeps s₀ s := Iff.rfl

theorem setPower_keeps (b p s) : Keeps s₀ (setPower b p s) ↔ Keeps s₀ s := by
  simp only [setPower, ite_self, iff_self, keeps_ite, bsnCount_keeps, State.setBasin_keeps]

theorem zeroTiles_keeps (b ts s) (h : Keeps s₀ s) : Keeps s₀ (zeroTiles b ts s) :=
  keeps_mk.2 (((State.modBasin_keeps _ _ _).2 h).store fun hm =>
    List.foldlRecOn (motive := fun m => Mem.wf m = true) ts _ hm fun _ hm _ _ => Mem.wf_zero _ _ hm)

theorem takeTiles_keeps (b q ts s) (h : Keeps s₀ s) : Keeps s₀ (takeTiles b q ts s) := by
  unfold takeTiles
  extract_lets s1
  have h1 : Keeps s₀ s1 := zeroTiles_keeps _ _ _ h
  clear_value s1
  exact keeps_mk.2 h1

theorem returnTiles_keeps (b ts s) (h : Keeps s₀ s) : Keeps s₀ (returnTiles b ts s) := by
  unfold returnTiles
  extract_lets s1
  have h1 : Keeps s₀ s1 := zeroTiles_keeps _ _ _ h
  clear_value s1
  exact keeps_mk.2 h1

theorem saveUndo_keeps (b t s) : Keeps s₀ (saveUndo b t s).1 ↔ Keeps s₀ s := by
  simp only [saveUndo, ite_self, iff_self, keeps_ite_fst, State.bsnEvent_keeps, State.setBasin_keeps]

theorem restoreUndo_keeps (b s) (h : Keeps s₀ s) : Keeps s₀ (restoreUndo b s) :=
  Keeps.foldl (fun _ _ hu => (State.modBasin_keeps _ _ _).2 (keeps_mk.2 (Keeps.store hu (Mem.wf_writeN _ _)))) h

theorem writeTile_keeps (b t start bs s) (h : Keeps s₀ s) : Keeps s₀ (writeTile b t start bs s).1 := by
  have hw : Keeps s₀ (if s.pwr.window then saveUndo b t s else (s, false)).1 := by
    split
    · exact (saveUndo_keeps _ _ _).2 h
    · exact h
  unfold writeTile
  split
  rename_i heq
  rw [heq] at hw
  exact keeps_mk.2 (Keeps.store ((State.modBasin_keeps _ _ _).2 hw) (Mem.wf_writeN _ _))

theorem writeStore_keeps (b addr bs s) (h : Keeps s₀ s) : Keeps s₀ (writeStore b addr bs s).1 := by
  unfold writeStore
  refine Keeps.foldl_fst (fun u a hu => ?_) ?_
  · split
    · have h1 := Keeps.of_eq ‹_› (writeTile_keeps _ _ _ _ _ hu)
      exact h1
  · exact h

theorem clockGate_keeps (b s) : Keeps s₀ (clockGate b s) ↔ Keeps s₀ s := by
  simp only [clockGate, ite_self, iff_self, keeps_ite, setPower_keeps]

theorem powerGate_keeps (b s) : Keeps s₀ (powerGate b s) ↔ Keeps s₀ s := by
  simp only [powerGate, ite_self, iff_self, keeps_ite, setPower_keeps]

theorem basinWake_keeps (b s) (h : Keeps s₀ s) : Keeps s₀ (basinWake b s) := by
  unfold basinWake
  extract_lets x up
  split
  · dsimp only [up]
    exact (State.modBasin_keeps _ _ _).2 ((bsnCount_keeps _ _ _ _ _).2 ((setPower_keeps _ _ _).2 h))
  · split
    · dsimp only [up]
      exact (State.modBasin_keeps _ _ _).2 ((bsnCount_keeps _ _ _ _ _).2 ((setPower_keeps _ _ _).2 h))
    · exact h
  · split
    · exact (setPower_keeps _ _ _).2 h
    · exact h
  · exact h

theorem offIfDue_keeps (b s) (h : Keeps s₀ s) : Keeps s₀ (offIfDue b s) := by
  unfold offIfDue
  extract_lets x slots
  split
  · exact (State.modBasin_keeps _ _ _).2 ((setPower_keeps _ _ _).2 (zeroTiles_keeps _ _ _ h))
  · exact h

theorem bodyXcheckSet_keeps (r s) (h : Keeps s₀ s) : (bodyXcheckSet r s).Keeps s₀ := by
  unfold bodyXcheckSet
  extract_lets p b n
  exact checks_keeps _ _ _ h (done_keeps _ _ (Keeps.foldl (fun _ _ hu => (State.modBasin_keeps _ _ _).2 hu) h))

theorem bodyBasinState_keeps (r s) (h : Keeps s₀ s) : (bodyBasinState r s).Keeps s₀ := by
  unfold bodyBasinState
  extract_lets b x
  exact checks_keeps _ _ _ h (done_keeps _ _ h)

theorem turnAdd_keeps (c inc s) : Keeps s₀ (turnAdd c inc s) ↔ Keeps s₀ s := Iff.rfl

theorem bodyTurnAlloc_keeps (r s) (h : Keeps s₀ s) : (bodyTurnAlloc r s).Keeps s₀ := by
  unfold bodyTurnAlloc
  extract_lets p levee die free n first range run
  apply checks_keeps
  · exact h
  · split
    · exact done_keeps _ _ (keeps_mk.2 h)
    · exact done_keeps _ _ (keeps_mk.2 h)

theorem bodyTurnSet_keeps (r s) (h : Keeps s₀ s) : (bodyTurnSet r s).Keeps s₀ := by
  unfold bodyTurnSet
  extract_lets p c field levee
  exact checks_keeps _ _ _ h (done_keeps _ _ (keeps_mk.2 h))

end Sys2Proof.Machine
end

section
/-! RULES. What the functions of the model's file Flume keep. -/

namespace Sys2Proof.Machine

variable {s₀ : State}

theorem State.setQueue_keeps (s q x) : Keeps s₀ (State.setQueue s q x) ↔ Keeps s₀ s := Iff.rfl

theorem State.modQueue_keeps (s q f) : Keeps s₀ (State.modQueue s q f) ↔ Keeps s₀ s := Iff.rfl

theorem State.modChain_keeps (s c f) : Keeps s₀ (State.modChain s c f) ↔ Keeps s₀ s := Iff.rfl

theorem flmCount_keeps (row idx q n s) : Keeps s₀ (flmCount row idx q n s) ↔ Keeps s₀ s := Iff.rfl

theorem setSlot_keeps (q i x s) : Keeps s₀ (setSlot q i x s) ↔ Keeps s₀ s := Iff.rfl

theorem bodyFlumeQueueCreate_keeps (r s) (h : Keeps s₀ s) : (bodyFlumeQueueCreate r s).Keeps s₀ := by
  unfold bodyFlumeQueueCreate
  extract_lets p levee depth nt ns nsend af bs sends badFields
  apply checks_keeps
  · exact h
  · split
    · exact guardReject_keeps _ _ _ _ h
    · exact done_keeps _ _ ((State.setQueue_keeps _ _ _).2 (Keeps.foldl (fun _ _ hu => takeTiles_keeps _ _ _ _ hu) h))

theorem sendRecord_keeps (orig net qp cls bytes s) : Keeps s₀ (sendRecord orig net qp cls bytes s) ↔ Keeps s₀ s := by
  simp only [sendRecord, ite_self, iff_self, keeps_ite, State.emit_keeps]

theorem chainEnd_keeps (c st idx s) : Keeps s₀ (chainEnd c st idx s) ↔ Keeps s₀ s := Iff.rfl

theorem flumeAccess_keeps (cid key k r a s) (h : Keeps s₀ s) : Keeps s₀ (flumeAccess cid key k r a s) := by
  unfold flumeAccess
  extract_lets id r' l b s1 s2 _ s3
  have h1 : Keeps s₀ s1 := by
    unfold s1
    split
    · exact h
    · exact (meshDeliver_keeps _ _).2 h
  have h2 : Keeps s₀ s2 := (State.inflightAdd_keeps _ _ _).2 ((State.modAllot_keeps _ _ _).2 h1)
  have h3 : Keeps s₀ s3 := keeps_mk.2 h2
  clear_value s3
  refine settle_keeps _ ?_
  split
  · exact (State.setLive_keeps _ _ _).2 h3
  · exact serveReq_keeps _ _ h3

theorem flumeWrite_keeps (cid idx pva data s) (h : Keeps s₀ s) : Keeps s₀ (flumeWrite cid idx pva data s) := by
  unfold flumeWrite
  split
  · exact h
  · split
    · exact h
    · extract_lets r
      split
      · split
        · exact (State.modChain_keeps _ _ _).2 h
        · exact flumeAccess_keeps _ _ _ _ _ _ h

theorem checkFailed_keeps (reader source addr s) (h : Keeps s₀ s) : Keeps s₀ (checkFailed reader source addr s) :=
  State.ledger_keeps _ _ _ _ ((bsnCount_keeps _ _ _ _ _).2 ((State.bsnEvent_keeps _ _ _).2 h))

theorem checkRetried_keeps (reader source addr s) (h : Keeps s₀ s) : Keeps s₀ (checkRetried reader source addr s) :=
  State.ledger_keeps _ _ _ _ ((bsnCount_keeps _ _ _ _ _).2 ((State.bsnEvent_keeps _ _ _).2 h))

theorem tileFault_keeps (b t reader s) (h : Keeps s₀ s) : Keeps s₀ (tileFault b t reader s).1 := by
  unfold tileFault
  simp only [ite_self, keeps_ite, keeps_ite_fst, checkFailed_keeps, checkRetried_keeps, State.modBasin_keeps,
    State.bsnEvent_keeps, *]

theorem askBasin_keeps (reader b s) : Keeps s₀ (askBasin reader b s).1 ↔ Keeps s₀ s := by
  simp only [askBasin, ite_self, iff_self, keeps_ite_fst, State.modBasin_keeps, meshDeliver_keeps]

theorem readWindow_keeps (reader x slot off len s) (h : Keeps s₀ s) : Keeps s₀ (readWindow reader x slot off len s).1 := by
  unfold readWindow
  split
  · have h1 := Keeps.of_eq ‹_› ((askBasin_keeps _ _ _).2 h)
    exact h1
  · have h1 := Keeps.of_eq ‹_› ((askBasin_keeps _ _ _).2 h)
    extract_lets cuts
    split
    · have h2 := Keeps.of_eq (b := s₀) ‹_› (by
        refine Keeps.foldl_fst (fun u a hu => ?_) ?_
        · split
          · exact hu
          · exact tileFault_keeps _ _ _ _ hu
        · exact h1)
      split
      · exact h2
      · exact h2

theorem retain_keeps (b op key bs s) : Keeps s₀ (retain b op key bs s) ↔ Keeps s₀ s := by
  simp only [retain, ite_self, iff_self, keeps_ite, State.modBasin_keeps, State.bsnEvent_keeps, State.setBasin_keeps]

theorem poolTileFault_keeps (reader a pva tile s) (h : Keeps s₀ s) : Keeps s₀ (poolTileFault reader a pva tile s).1 := by
  unfold poolTileFault
  simp only [keeps_mk, keepsAt_iff, ite_self, keeps_ite_fst, checkFailed_keeps, checkRetried_keeps,
    hbmUncorrectable_keeps, *]
  split
  · split
    · simp only [checkFailed_keeps, *]
    · simp only [keeps_mk, keepsAt_iff, checkRetried_keeps, *]
    · assumption
  · split
    · split
      · simp only [keeps_mk, keepsAt_iff, ite_self, keeps_ite_fst, poisonTile_keeps, gcmFail_keeps, *]
      · assumption
    · simp only [*]

theorem poolFault_keeps (reader r is s) (h : Keeps s₀ s) : Keeps s₀ (poolFault reader r is s).1 := by
  unfold poolFault
  split
  · exact h
  · extract_lets off h2 m
    refine Keeps.foldl_fst (fun u a hu => ?_) ?_
    · extract_lets o
      split
      · exact hu
      · exact poolTileFault_keeps _ _ _ _ _ hu
    · exact h

theorem readRange_keeps (b cid c q key r s) (h : Keeps s₀ s) : Keeps s₀ (readRange b cid c q key r s).1 := by
  unfold readRange
  split
  · split
    · exact h
    · split
      · exact h
      · exact readWindow_keeps _ _ _ _ _ _ h
  · extract_lets base len q' take
    split
    · dsimp only [take]
      split
      · exact h
      · split
        · have h1 := Keeps.of_eq ‹_› (poolFault_keeps _ _ _ _ h)
          exact h1
        · have h1 := Keeps.of_eq ‹_› (poolFault_keeps _ _ _ _ h)
          exact h1
    · split
      · exact h
      · split
        · split
          · exact h
          · extract_lets s1
            have h1 : Keeps s₀ s1 := flumeAccess_keeps _ _ _ _ _ _ h
            clear_value s1
            split
            · dsimp only [take]
              split
              · exact h1
              · split
                · have h2 := Keeps.of_eq ‹_› (poolFault_keeps _ _ _ _ h1)
                  exact h2
                · have h2 := Keeps.of_eq ‹_› (poolFault_keeps _ _ _ _ h1)
                  exact h2
            · exact h1

theorem drive_keeps (b cid c q op got tiles fuel s) (h : Keeps s₀ s) : Keeps s₀ (drive b cid c q op got tiles fuel s).1 := by
  induction fuel generalizing c got tiles s with
  | zero => exact h
  | succ fuel ih =>
    unfold drive
    split
    · exact h
    · exact h
    · have hr (r) : Keeps s₀ (readRange b cid c q got.length r s).1 := readRange_keeps _ _ _ _ _ _ _ h
      split <;> rename_i heq
      · exact Keeps.of_eq heq (hr _)
      · exact Keeps.of_eq heq (hr _)
      · extract_lets out s2
        have hk := Keeps.of_eq heq (hr _)
        refine ih _ _ _ _ ?_
        unfold s2
        split
        · exact (retain_keeps _ _ _ _ _).2 hk
        · exact hk

theorem partialFault_keeps (reader x off len s) (h : Keeps s₀ s) : Keeps s₀ (partialFault reader x off len s).1 := by
  unfold partialFault
  refine Keeps.foldl_fst (fun u a hu => ?_) ?_
  · split
    · exact hu
    · exact tileFault_keeps _ _ _ _ hu
  · exact h

theorem checkWrites_keeps (b c q ws s) (h : Keeps s₀ s) : Keeps s₀ (checkWrites b c q ws s).1 := by
  unfold checkWrites
  refine Keeps.foldl_fst (fun u a hu => ?_) ?_
  · split
    · exact hu
    · split
      · extract_lets r st
        split
        · exact hu
        · exact poolFault_keeps _ _ _ _ hu
      · split
        · exact hu
        · split
          · exact hu
          · apply partialFault_keeps
            exact hu
  · exact h

theorem writeWindow_keeps (x off bs s) (h : Keeps s₀ s) : Keeps s₀ (writeWindow x off bs s).1 := by
  unfold writeWindow
  refine Keeps.foldl_fst (fun u a hu => ?_) ?_
  · split
    · have h1 := Keeps.of_eq ‹_› (writeTile_keeps _ _ _ _ _ hu)
      exact h1
  · exact h

theorem release_keeps (o s) (h : Keeps s₀ s) : Keeps s₀ (release o s) := by
  unfold release
  split
  · exact flumeWrite_keeps _ _ _ _ _ h
  · split
    · split
      · exact h
      · split
        · exact (State.modChain_keeps _ _ _).2 ((State.modBasin_keeps _ _ _).2 h)
        · exact writeWindow_keeps _ _ _ _ ((meshDeliver_keeps _ _).2 h)
    · exact h
  · exact internalEnqueue_keeps _ _ h
  · exact (State.count_keeps _ _ _).2 ((turnAdd_keeps _ _ _).2 h)
  · split
    · exact (sendRecord_keeps _ _ _ _ _ _).2 h
    · exact h

theorem wakeUp_keeps (b s) (h : Keeps s₀ s) : Keeps s₀ (wakeUp b s) := by
  unfold wakeUp
  extract_lets s1
  have h1 : Keeps s₀ s1 := basinWake_keeps _ _ h
  clear_value s1
  split
  · exact h1
  · refine Keeps.foldl (fun u a hu => ?_) ?_
    · split
      · exact (State.modChain_keeps _ _ _).2 (release_keeps _ _ hu)
      · exact hu
    · exact (State.modBasin_keeps _ _ _).2 h1

theorem sendOut_keeps (b os s) (h : Keeps s₀ s) : Keeps s₀ (sendOut b os s) := by
  unfold sendOut
  split
  · exact (State.modBasin_keeps _ _ _).2 h
  · exact Keeps.foldl (fun _ _ hu => release_keeps _ _ hu) h

theorem sampleCheck_keeps (b c q d o tiles s) : Keeps s₀ (sampleCheck b c q d o tiles s) ↔ Keeps s₀ s := by
  simp only [sampleCheck, ite_self, iff_self, keeps_ite, State.setBasin_keeps, State.drawn_keeps]

theorem busyFor_keeps (b op s) : Keeps s₀ (busyFor b op s) ↔ Keeps s₀ s := by
  simp only [busyFor, ite_self, iff_self, keeps_ite, State.drawn_keeps, bsnCount_keeps, State.modBasin_keeps]

theorem freeBasin_keeps (b s) : Keeps s₀ (freeBasin b s) ↔ Keeps s₀ s := Iff.rfl

theorem noteOp_keeps (b c q d tiles st s) : Keeps s₀ (noteOp b c q d tiles st s) ↔ Keeps s₀ s := by
  simp only [noteOp, ite_self, iff_self, keeps_ite, State.modBasin_keeps]

theorem tagOp_keeps (b t s) : Keeps s₀ (tagOp b t s) ↔ Keeps s₀ s := by
  simp only [tagOp, ite_self, iff_self, keeps_ite, bsnCount_keeps, State.modBasin_keeps]

theorem opFail_keeps (b cid c q d st at_ tiles s) (h : Keeps s₀ s) : Keeps s₀ (opFail b cid c q d st at_ tiles s) := by
  unfold opFail
  simp only [ite_self, keeps_ite, State.ledger_keeps, bsnCount_keeps, State.bsnEvent_keeps, freeBasin_keeps, noteOp_keeps,
    chainEnd_keeps, tagOp_keeps, *]

theorem stopChains_keeps (q s) (h : Keeps s₀ s) : Keeps s₀ (stopChains q s) := by
  unfold stopChains
  refine Keeps.foldl (fun u a hu => ?_) ?_
  · split
    · exact (chainEnd_keeps _ _ _ _).2 hu
    · split
      · exact hu
      · exact (chainEnd_keeps _ _ _ _).2 hu
    · split
      · exact hu
      · exact (chainEnd_keeps _ _ _ _).2 hu
    · exact hu
  · exact h

theorem advanceChain_keeps (cid value skip s) (h : Keeps s₀ s) : Keeps s₀ (advanceChain cid value skip s) := by
  unfold advanceChain
  split
  · exact h
  · extract_lets next jumped s1 step s2
    have h1 : Keeps s₀ s1 := (flmCount_keeps _ _ _ _ _).2 ((flmCount_keeps _ _ _ _ _).2 h)
    clear_value s1
    have h2 : Keeps s₀ s2 := (State.modChain_keeps _ _ _).2 h1
    clear_value s2
    split
    · exact (chainEnd_keeps _ _ _ _).2 h2
    · split
      · split
        · exact (chainEnd_keeps _ _ _ _).2 h2
        · exact (chainEnd_keeps _ _ _ _).2 h2
      · split
        · exact (chainEnd_keeps _ _ _ _).2 h2
        · exact h2

theorem opDone_keeps (b cid c q d o tiles s) (h : Keeps s₀ s) : Keeps s₀ (opDone b cid c q d o tiles s) := by
  unfold opDone
  simp only [keeps_ite, checkWrites_keeps, opFail_keeps, freeBasin_keeps, *]
  split
  · simp only [*]
  · apply advanceChain_keeps
    apply sendOut_keeps
    simp only [ite_self, keeps_ite, State.modChain_keeps, State.bsnEvent_keeps, bsnCount_keeps, busyFor_keeps,
      noteOp_keeps, tagOp_keeps, sampleCheck_keeps, *]
    refine Keeps.foldl_fst (fun u a hu => ?_) ?_
    · split
      · simp only [writeWindow_keeps, *]
      · assumption
    · simp only [checkWrites_keeps, *]

theorem execOp_keeps (code b s) (h : Keeps s₀ s) : Keeps s₀ (execOp code b s) := by
  unfold execOp
  extract_lets x
  split
  · exact h
  · split
    · exact h
    · split
      · exact h
      · split
        · rename_i _ cid _ _ c _ _ _ _ q d f _ _ _
          split
          · exact h
          · extract_lets ctx
            have hd := drive_keeps b cid c q (f ctx) [] [] (2 ^ 21) s h
            split
            rename_i s2 out tiles heq
            rw [heq] at hd
            extract_lets s3
            have h3 : Keeps s₀ s3 := (State.drawn_keeps _).2 hd
            clear_value s3
            split
            · exact (State.modChain_keeps _ _ _).2 h3
            · exact opFail_keeps _ _ _ _ _ _ _ _ _ h3
            · rename_i s4 _ o
              have h4 : Keeps s₀ s4 := by
                unfold s4
                split
                · exact (State.count_keeps _ _ _).2 h3
                · exact h3
              clear_value s4
              split
              · exact (freeBasin_keeps _ _).2 ((State.modChain_keeps _ _ _).2 h4)
              · split
                · exact opDone_keeps _ _ _ _ _ _ _ _ h4
                · exact (State.modChain_keeps _ _ _).2 h4
        · exact h

theorem askKeys_keeps (cid s) (h : Keeps s₀ s) : Keeps s₀ (askKeys cid s) := by
  unfold askKeys
  split
  · exact h
  · split
    · exact h
    · extract_lets bk mine all n new
      exact (wakeNeeded_keeps _ _).2 ((State.modChain_keeps _ _ _).2 ((State.setBank_keeps _ _ _).2 h))

theorem queryDone_keeps (cid s) (h : Keeps s₀ s) : Keeps s₀ (queryDone cid s) := by
  unfold queryDone
  split
  · exact h
  · split
    · split
      · exact h
      · extract_lets s1
        have h1 : Keeps s₀ s1 := (State.modChain_keeps _ _ _).2 h
        clear_value s1
        split
        · exact opFail_keeps _ _ _ _ _ _ _ _ _ ((State.modChain_keeps _ _ _).2 h1)
        · split
          · exact opFail_keeps _ _ _ _ _ _ _ _ _ h1
          · extract_lets out
            exact opDone_keeps _ _ _ _ _ _ _ _ ((retain_keeps _ _ _ _ _).2 h1)
    · exact h

theorem screenQuery_keeps (b s) (h : Keeps s₀ s) : Keeps s₀ (screenQuery b s) := by
  unfold screenQuery
  extract_lets s1
  have h1 : Keeps s₀ s1 := execOp_keeps _ _ _ h
  clear_value s1
  split
  · exact h1
  · split
    · exact h1
    · split
      · exact h1
      · split
        · exact queryDone_keeps _ _ ((State.modChain_keeps _ _ _).2 h1)
        · exact askKeys_keeps _ _ h1

theorem throttledFor_keeps (k d s) : Keeps s₀ (throttledFor k d s) ↔ Keeps s₀ s := by
  simp only [throttledFor, ite_self, iff_self, keeps_ite, State.count_keeps, State.scrEvent_keeps, State.setBank_keeps]

theorem tenantSearch_keeps (k s) (h : Keeps s₀ s) : Keeps s₀ (tenantSearch k s) := by
  unfold tenantSearch
  simp only [*]
  split
  · assumption
  · simp only [ite_self, keeps_ite, State.scrEvent_keeps, throttledFor_keeps, State.setBank_keeps, State.count_keeps,
    State.modChain_keeps, askKeys_keeps, queryDone_keeps, *]

theorem rejectPost_keeps (p seq retQp st slot keep s) : Keeps s₀ (rejectPost p seq retQp st slot keep s) ↔ Keeps s₀ s := by
  simp only [rejectPost, ite_self, iff_self, keeps_ite, State.modQueue_keeps, sendRecord_keeps, flmCount_keeps]

theorem acceptPost_keeps (p x seq s) (h : Keeps s₀ s) : Keeps s₀ (acceptPost p x seq s) := by
  unfold acceptPost
  extract_lets b n inline
  split
  · exact (rejectPost_keeps _ _ _ _ _ _ _).2 h
  · split
    · exact (rejectPost_keeps _ _ _ _ _ _ _).2 h
    · extract_lets c
      exact (State.inflightAdd_keeps _ _ _).2 (keeps_mk.2 h)

theorem flumePost_keeps (p s) (h : Keeps s₀ s) : Keeps s₀ (flumePost p s) := by
  have hgo (q : Queue) (b : Bytes) (seq qp : Nat) (f : Queue → Queue) :
      let u := flmCount 0 0 p.queue 1 (s.modQueue p.queue f)
      Keeps s₀ (if q.group.isSome || !postOk q b then rejectPost p seq qp St.badParam 0xFF true u
        else if q.depth ≤ (u.flm.chains.filter fun e => e.2.queue == p.queue).length then
          rejectPost p seq qp St.busy 0xFF true (flmCount 2 0 p.queue 1 u)
        else acceptPost p q seq u) := by
    intro u
    have hu : Keeps s₀ u := (flmCount_keeps _ _ _ _ _).2 ((State.modQueue_keeps _ _ _).2 h)
    clear_value u
    split
    · exact (rejectPost_keeps _ _ _ _ _ _ _).2 hu
    · split
      · exact (rejectPost_keeps _ _ _ _ _ _ _).2 ((flmCount_keeps _ _ _ _ _).2 hu)
      · exact acceptPost_keeps _ _ _ _ hu
  fun_cases flumePost p s
  case case1 => exact (rejectPost_keeps _ _ _ _ _ _ _).2 ((fencedCount_keeps _ _ _).2 h)
  case case2 | case3 | case4 => exact (rejectPost_keeps _ _ _ _ _ _ _).2 h
  case case5 | case7 | case10 => exact hgo _ _ _ _ _
  case case6 | case8 => exact (flmCount_keeps _ _ _ _ _).2 h
  case case9 => exact (sendRecord_keeps _ _ _ _ _ _).2 ((flmCount_keeps _ _ _ _ _).2 h)

theorem reclaimPoster_keeps (q ip s) : Keeps s₀ (reclaimPoster q ip s) ↔ Keeps s₀ s := Iff.rfl

theorem takeTile_keeps (cid i s) (h : Keeps s₀ s) : Keeps s₀ (takeTile cid i s) := by
  unfold takeTile
  simp only [*]
  split
  · assumption
  · split
    · assumption
    · simp only [ite_self, keeps_ite, keeps_ite_fst, chainEnd_keeps, State.modChain_keeps, *]
      split
      · simp only [*]
      · split
        · simp only [poolFault_keeps, *]
        · assumption

theorem fetchTile_keeps (cid i s) (h : Keeps s₀ s) : Keeps s₀ (fetchTile cid i s) := by
  unfold fetchTile
  split
  · exact h
  · split
    · exact h
    · extract_lets key
      split
      · exact h
      · split
        · exact takeTile_keeps _ _ _ h
        · split
          · exact h
          · split
            · split
              · exact (chainEnd_keeps _ _ _ _).2 h
              · exact takeTile_keeps _ _ _ (flumeAccess_keeps _ _ _ _ _ _ h)

theorem chainTileFetch_keeps (cid s) (h : Keeps s₀ s) : Keeps s₀ (chainTileFetch cid s) := by
  unfold chainTileFetch
  split
  · exact h
  · split
    · exact h
    · exact fetchTile_keeps _ _ _ h

theorem prepare_keeps (b s) (h : Keeps s₀ s) : Keeps s₀ (prepare b s) := by
  unfold prepare
  refine Keeps.foldl (fun u a hu => ?_) ?_
  · split
    · exact hu
    · split
      · exact (chainEnd_keeps _ _ _ _).2 hu
      · exact fetchTile_keeps _ _ _ hu
  · exact h

theorem descriptorBegin_keeps (b s) (h : Keeps s₀ s) : Keeps s₀ (descriptorBegin b s) := by
  unfold descriptorBegin
  extract_lets x
  split
  · exact h
  · split
    · exact prepare_keeps _ _ h
    · split
      · exact prepare_keeps _ _ h
      · extract_lets s1 op
        have h1 : Keeps s₀ s1 := keeps_mk.2 (prepare_keeps _ _ h)
        clear_value s1
        split
        · exact (chainEnd_keeps _ _ _ _).2 h1
        · exact (State.modBasin_keeps _ _ _).2 ((State.modChain_keeps _ _ _).2 h1)

theorem turnSatisfied_keeps (cid s) (h : Keeps s₀ s) : Keeps s₀ (turnSatisfied cid s) := by
  unfold turnSatisfied
  split
  · exact h
  · split
    · split
      · split
        · extract_lets report outs
          split
          · exact h
          · split
            · exact h
            · exact advanceChain_keeps _ _ _ _ (sendOut_keeps _ _ _ ((tagOp_keeps _ _ _).2 h))
        · exact h
      · exact h
    · exact h

theorem turnTimeout_keeps (cid s) (h : Keeps s₀ s) : Keeps s₀ (turnTimeout cid s) := by
  unfold turnTimeout
  split
  · exact h
  · split
    · extract_lets b
      split
      · exact h
      · exact (chainEnd_keeps _ _ _ _).2 ((flmCount_keeps _ _ _ _ _).2 ((tagOp_keeps _ _ _).2 h))
    · exact h

theorem netReports_keeps (cid s) (h : Keeps s₀ s) : Keeps s₀ (netReports cid s) := by
  unfold netReports
  split
  · exact h
  · extract_lets due s1
    have h1 : Keeps s₀ s1 := Keeps.foldl (fun _ _ hu => release_keeps _ _ hu) h
    clear_value s1
    exact (State.modChain_keeps _ _ _).2 h1

theorem writeAcknowledged_keeps (cid s) (h : Keeps s₀ s) : Keeps s₀ (writeAcknowledged cid s) := by
  unfold writeAcknowledged
  extract_lets s1
  have h1 : Keeps s₀ s1 := (State.modChain_keeps _ _ _).2 h
  clear_value s1
  exact netReports_keeps _ _ h1

theorem destroyProgress_keeps (s) (h : Keeps s₀ s) : Keeps s₀ (destroyProgress s) := by
  unfold destroyProgress
  simp only [*]
  refine Keeps.foldl (fun u a hu => ?_) ?_
  · simp only [keeps_ite, stopChains_keeps, *]
    split
    · simp only [*]
    · apply State.workDone_keeps
      simp only [keeps_mk, keepsAt_iff, *]
      refine Keeps.foldl (fun u a hu => ?_) ?_
      · simp only [ite_self, keeps_ite, offIfDue_keeps, returnTiles_keeps, *]
      · simp only [stopChains_keeps, *]
  · assumption

theorem chainCompletion_keeps (cid s) (h : Keeps s₀ s) : Keeps s₀ (chainCompletion cid s) := by
  unfold chainCompletion
  split
  · exact h
  · split
    · exact h
    · extract_lets c s1 r st s2 s3 s4 s5
      have h1 : Keeps s₀ s1 := netReports_keeps _ _ ((State.modChain_keeps _ _ _).2 h)
      clear_value s1
      have h2 : Keeps s₀ s2 := (flmCount_keeps _ _ _ _ _).2 h1
      clear_value s2
      have h3 : Keeps s₀ s3 := (State.modQueue_keeps _ _ _).2 h2
      clear_value s3
      have h4 : Keeps s₀ s4 := (sendRecord_keeps _ _ _ _ _ _).2 h3
      clear_value s4
      exact destroyProgress_keeps _ ((State.inflightSub_keeps _ _ _).2 (keeps_mk.2 h4))

theorem bodyFlumeQueueDestroy_keeps (r s) (h : Keeps s₀ s) : (bodyFlumeQueueDestroy r s).Keeps s₀ := by
  unfold bodyFlumeQueueDestroy
  extract_lets q
  exact checks_keeps _ _ _ h (ans_keeps_mk.2 ⟨(defer_keeps _ _ (stopChains_keeps _ _ ((State.modQueue_keeps _ _ _).2 h))).state, fun _ hu => destroyProgress_keeps _ hu⟩)

theorem loseSlot_keeps (q i x s) (h : Keeps s₀ s) : Keeps s₀ (loseSlot q i x s) := by
  unfold loseSlot
  extract_lets s1 s2 s3 s4
  have h1 : Keeps s₀ s1 := (setSlot_keeps _ _ _ _).2 (returnTiles_keeps _ _ _ h)
  clear_value s1
  have h2 : Keeps s₀ s2 := (flmCount_keeps _ _ _ _ _).2 h1
  clear_value s2
  have h3 : Keeps s₀ s3 := (State.modBasin_keeps _ _ _).2 h2
  clear_value s3
  have h4 : Keeps s₀ s4 := Keeps.foldl (fun _ _ hu => (chainEnd_keeps _ _ _ _).2 hu) h3
  clear_value s4
  exact offIfDue_keeps _ _ h4

theorem slotMove_keeps (q i s) (h : Keeps s₀ s) : Keeps s₀ (slotMove q i s) := by
  unfold slotMove
  split
  · exact h
  · split
    · exact h
    · split
      · exact h
      · split
        · split
          · exact h
          · exact loseSlot_keeps _ _ _ _ h
        · extract_lets ts
          exact (flmCount_keeps _ _ _ _ _).2 ((setSlot_keeps _ _ _ _).2 (takeTiles_keeps _ _ _ _ h))

theorem slotCopied_keeps (q i s) (h : Keeps s₀ s) : Keeps s₀ (slotCopied q i s) := by
  fun_cases slotCopied q i s
  case case5 =>
    refine offIfDue_keeps _ _ ((setSlot_keeps _ _ _ _).2 (returnTiles_keeps _ _ _ ((State.modBasin_keeps _ _ _).2 ?_)))
    refine Keeps.foldl (fun u p hu => keeps_mk.2 (Keeps.store hu fun hw => ?_)) h
    generalize readStore u _ _ 4096 = bs
    exact Mem.wf_writeN _ bs hw
  all_goals exact h

theorem revokeTimeout_keeps (a s) (h : Keeps s₀ s) : Keeps s₀ (revokeTimeout a s) := by
  unfold revokeTimeout
  split
  · exact h
  · split
    · exact h
    · split
      · have h1 := Keeps.of_eq ‹_› (revokeKill_keeps _ _ h)
        exact settle_keeps _ (revokeReply_keeps _ _ _ (revokeRelease_keeps _ _ h1))

end Sys2Proof.Machine
end

section
/-! RULES. What the functions of the model's file Recorder keep. -/

namespace Sys2Proof.Machine

variable {s₀ : State}

theorem takeCapture_keeps (trigger set rseq b queue levee crc1 crc2 d tiles s) :
    Keeps s₀ (takeCapture trigger set rseq b queue levee crc1 crc2 d tiles s).1 ↔ Keeps s₀ s := by
  unfold takeCapture
  split <;> simp only [keeps_mk, keepsAt_iff, iff_self, State.count_keeps, State.drawn_keeps]

theorem quarRecord_keeps (b old new temp mask s) (h : Keeps s₀ s) : Keeps s₀ (quarRecord b old new temp mask s) := by
  unfold quarRecord
  extract_lets s1 s2
  have h1 : Keeps s₀ s1 := State.ledger_keeps _ _ _ _ h
  clear_value s1
  have h2 : Keeps s₀ s2 := (State.hltEvent_keeps _ _).2 h1
  clear_value s2
  exact keeps_mk.2 h2

theorem setQuar_keeps (b q temp mask s) (h : Keeps s₀ s) : Keeps s₀ (setQuar b q temp mask s) := by
  unfold setQuar
  extract_lets old s1
  have h1 : Keeps s₀ s1 := (State.modBasin_keeps _ _ _).2 h
  clear_value s1
  exact offIfDue_keeps _ _ (quarRecord_keeps _ _ _ _ _ _ h1)

theorem nameSuspect_keeps (b temp load s) (h : Keeps s₀ s) : Keeps s₀ (nameSuspect b temp load s) := by
  unfold nameSuspect
  extract_lets s1 hours all s2 mine
  have h1 : Keeps s₀ s1 := (State.bsnEvent_keeps _ _ _).2 ((State.modBasin_keeps _ _ _).2 h)
  clear_value s1
  have h2 : Keeps s₀ mine := keeps_mk.2 h1
  clear_value mine
  split
  · exact h2
  · split
    · split
      · exact setQuar_keeps _ _ _ _ _ h2
      · exact setQuar_keeps _ _ _ _ _ h2
    · exact h2
    · exact setQuar_keeps _ _ _ _ _ h2

theorem holdOut_keeps (b temp load s) (h : Keeps s₀ s) : Keeps s₀ (holdOut b temp load s) := by
  unfold holdOut
  extract_lets x due s1
  have h1 : Keeps s₀ s1 := (State.modBasin_keeps _ _ _).2 h
  clear_value s1
  split
  · exact (State.count_keeps _ _ _).2 ((State.modBasin_keeps _ _ _).2 (setQuar_keeps _ _ _ _ _ h1))
  · exact h1

theorem holdOutEnd_keeps (b temp s) (h : Keeps s₀ s) : Keeps s₀ (holdOutEnd b temp s) := by
  unfold holdOutEnd
  extract_lets x s1
  have h1 : Keeps s₀ s1 := (State.modBasin_keeps _ _ _).2 h
  clear_value s1
  split
  · exact h1
  · split
    · exact (State.modBasin_keeps _ _ _).2 h1
    · split
      · exact setQuar_keeps _ _ _ _ _ h1
      · exact (State.modBasin_keeps _ _ _).2 h1

theorem checkBegin_keeps (b s) (h : Keeps s₀ s) : Keeps s₀ (checkBegin b s) := by
  unfold checkBegin
  extract_lets x
  split
  · exact h
  · split
    · exact h
    · split
      · exact (bsnCount_keeps _ _ _ _ _).2 ((State.setBasin_keeps _ _ _).2 h)
      · exact (State.setBasin_keeps _ _ _).2 ((State.drawn_keeps _).2 h)

theorem mismatch_keeps (b cb c cres tres s) (h : Keeps s₀ s) : Keeps s₀ (mismatch b cb c cres tres s) := by
  unfold mismatch
  simp only [keeps_mk, keepsAt_iff, ite_self, keeps_ite, keeps_ite_fst, takeCapture_keeps, bsnCount_keeps,
    State.ledger_keeps, nameSuspect_keeps, *]
  split
  · simp only [*]
    apply nameSuspect_keeps
    simp only [keeps_mk, keepsAt_iff, ite_self, keeps_ite, keeps_ite_fst, takeCapture_keeps, bsnCount_keeps,
      State.ledger_keeps, nameSuspect_keeps, *]
  · simp only [*]

theorem checkOver_keeps (b cb s) : Keeps s₀ (checkOver b cb s) ↔ Keeps s₀ s := Iff.rfl

theorem checkAbandoned_keeps (b s) (h : Keeps s₀ s) : Keeps s₀ (checkAbandoned b s) := by
  unfold checkAbandoned
  split
  · exact h
  · split
    · exact h
    · split
      · exact (bsnCount_keeps _ _ _ _ _).2 ((checkOver_keeps _ _ _).2 h)
      · exact h

theorem checkComplete_keeps (b checking third s) (h : Keeps s₀ s) : Keeps s₀ (checkComplete b checking third s) := by
  unfold checkComplete
  split
  · exact h
  · split
    · exact h
    · split
      · exact checkAbandoned_keeps _ _ h
      · extract_lets n s1
        have h1 : Keeps s₀ s1 := (bsnCount_keeps _ _ _ _ _).2 ((State.modBasin_keeps _ _ _).2 ((checkOver_keeps _ _ _).2 h))
        clear_value s1
        split
        · exact h1
        · exact mismatch_keeps _ _ _ _ _ _ h1

theorem capture_keeps (b trigger s) : Keeps s₀ (capture b trigger s) ↔ Keeps s₀ s := by
  unfold capture
  split <;> simp only [keeps_mk, keepsAt_iff, ite_self, iff_self, keeps_ite, takeCapture_keeps]

theorem bodyRecArm_keeps (r s) (h : Keeps s₀ s) : (bodyRecArm r s).Keeps s₀ := by
  unfold bodyRecArm
  extract_lets p tr set b
  apply checks_keeps
  · exact h
  · split
    · exact done_keeps _ _ (keeps_mk.2 h)
    · split
      · split
        · exact done_keeps _ _ ((takeCapture_keeps _ _ _ _ _ _ _ _ _ _ _).2 (keeps_mk.2 h))
        · exact done_keeps _ _ ((takeCapture_keeps _ _ _ _ _ _ _ _ _ _ _).2 (keeps_mk.2 h))
      · exact done_keeps _ _ (keeps_mk.2 h)

theorem bodyRecRead_keeps (r s) (h : Keeps s₀ s) : (bodyRecRead r s).Keeps s₀ := by
  unfold bodyRecRead
  extract_lets p k off len c rel _
  apply checks_keeps
  · exact h
  · clear_value c
    split
    · exact refuse_keeps _ _ h
    · extract_lets data ps frags
      apply done_keeps
      split
      · exact keeps_mk.2 h
      · exact h

theorem moveSlots_keeps (b s) (h : Keeps s₀ s) (u) (hu : moveSlots b s = some u) : Keeps s₀ u := by
  refine List.foldlRecOn (motive := fun o : Option State => ∀ u, o = some u → Keeps s₀ u) _ _ ?_ ?_ u hu
  · rintro _ ⟨⟩
    exact h
  · rintro (_ | v) ho x - w hw
    · cases hw
    · have hv := ho v rfl
      rw [Option.bind_some] at hw
      split at hw
      · cases hw
        exact hv
      · obtain ⟨y, -, hy⟩ := Option.bind_eq_some_iff.1 hw
        obtain ⟨-, -, rfl⟩ := Option.map_eq_some_iff.1 hy
        exact slotMove_keeps _ _ _ hv

theorem bodyRecReplay_keeps (r s0) (h : Keeps s₀ s0) : (bodyRecReplay r s0).Keeps s₀ := by
  unfold bodyRecReplay
  extract_lets p k b temp c _ s1 drain s'
  have h1 : Keeps s₀ s' := (State.modBasin_keeps _ _ _).2 ((State.modBasin_keeps _ _ _).2 (keeps_mk.2 h))
  clear_value s'
  refine checks_keeps _ _ _ h ?_
  split
  · split
    · exact refuse_keeps _ _ h
    · obtain ⟨v, hv, hu⟩ := Option.bind_eq_some_iff.1 ‹_›
      exact defer_keeps _ _ (moveSlots_keeps _ _ (moveSlots_keeps _ _ h1 _ hv) _ hu)
  · exact defer_keeps _ _ h1

theorem replayComplete_keeps (runs mism temp crc s) (h : Keeps s₀ s) : Keeps s₀ (replayComplete runs mism temp crc s) := by
  unfold replayComplete
  split
  · exact h
  · split
    · exact h
    · extract_lets free s1 s2 s3
      have h1 : Keeps s₀ s2 := keeps_mk.2 h
      clear_value s2
      have h2 : Keeps s₀ s3 := (State.modBasin_keeps _ _ _).2 ((State.modBasin_keeps _ _ _).2 h1)
      clear_value s3
      exact offIfDue_keeps _ _ (State.workDone_keeps _ _ _ _ (State.ledger_keeps _ _ _ _ ((State.count_keeps _ _ _).2 h2)))

end Sys2Proof.Machine
end

section
/-! RULES. What the functions of the model's file Collective keep. -/

namespace Sys2Proof.Machine

variable {s₀ : State}

theorem State.setGroup_keeps (s g x) : Keeps s₀ (State.setGroup s g x) ↔ Keeps s₀ s := Iff.rfl

theorem State.modGroup_keeps (s g f) : Keeps s₀ (State.modGroup s g f) ↔ Keeps s₀ s := Iff.rfl

theorem State.modOp_keeps (s g q f) : Keeps s₀ (State.modOp s g q f) ↔ Keeps s₀ s := Iff.rfl

theorem colCount_keeps (row idx g n s) : Keeps s₀ (colCount row idx g n s) ↔ Keeps s₀ s := Iff.rfl

theorem colStatus_keeps (bit s) : Keeps s₀ (colStatus bit s) ↔ Keeps s₀ s := Iff.rfl

theorem bodyGroupCreate_keeps (r s) (h : Keeps s₀ s) : (bodyGroupCreate r s).Keeps s₀ := by
  unfold bodyGroupCreate
  extract_lets p x
  apply checks_keeps
  · exact h
  · split
    · exact guardReject_keeps _ _ _ _ h
    · exact done_keeps _ _ ((State.modAllot_keeps _ _ _).2 ((State.modQueue_keeps _ _ _).2 ((State.setGroup_keeps _ _ _).2 h)))

theorem colSend_keeps (g dest mtype kind opseq status flags hdr body s) (h : Keeps s₀ s) :
    Keeps s₀ (colSend g dest mtype kind opseq status flags hdr body s) := by
  unfold colSend
  split
  · exact h
  · split
    · exact h
    · split
      · exact h
      · exact (State.emit_keeps _ _).2 h

theorem sendBlocks_keeps (g o dest first bs s) (h : Keeps s₀ s) : Keeps s₀ (sendBlocks g o dest first bs s) :=
  (colCount_keeps _ _ _ _ _).2 (colSend_keeps _ _ _ _ _ _ _ _ _ _ h)

theorem sendCredits_keeps (g x o s) (h : Keeps s₀ s) : Keeps s₀ (sendCredits g x o s) :=
  Keeps.foldl (fun _ _ hu => colSend_keeps _ _ _ _ _ _ _ _ _ _ hu) h

theorem failOp_keeps (g q st s) : Keeps s₀ (failOp g q st s) ↔ Keeps s₀ s := Iff.rfl

theorem failAll_keeps (g st s) : Keeps s₀ (failAll g st s) ↔ Keeps s₀ s := Iff.rfl

theorem mismatchOp_keeps (g q s) : Keeps s₀ (mismatchOp g q s) ↔ Keeps s₀ s := by
  unfold mismatchOp
  split <;> simp only [iff_self, failOp_keeps, State.count_keeps, colStatus_keeps]

theorem endOp_keeps (g q s) (h : Keeps s₀ s) : Keeps s₀ (endOp g q s) := by
  unfold endOp
  simp only [*]
  split
  · simp only [ite_self, keeps_ite, colCount_keeps, fencedCount_keeps, turnAdd_keeps, *]
    split
    · simp only [*]
    · refine Keeps.foldl (fun u a hu => ?_) ?_
      · simp only [colSend_keeps, *]
      · simp only [ite_self, keeps_ite, State.modOp_keeps, *]
  · assumption

theorem repeatDone_keeps (g m o s) (h : Keeps s₀ s) : Keeps s₀ (repeatDone g m o s) :=
  colSend_keeps _ _ _ _ _ _ _ _ _ _ h

theorem groupStop_keeps (g st s) (h : Keeps s₀ s) : Keeps s₀ (groupStop g st s) := by
  unfold groupStop
  split
  · exact h
  · extract_lets s1 s2
    have h1 : Keeps s₀ s1 := (failAll_keeps _ _ _).2 h
    clear_value s1
    have h2 : Keeps s₀ s2 := Keeps.foldl (fun _ _ hu => endOp_keeps _ _ _ hu) h1
    clear_value s2
    exact (State.modGroup_keeps _ _ _).2 h2

theorem scrambleCtx_keeps (x k s) (h : Keeps s₀ s) : Keeps s₀ (scrambleCtx x k s) :=
  (State.drawn_keeps _).2 (keeps_mk.2 (h.pool (Mem.wf_writeN _ _)))

theorem groupProgress_keeps (s) (h : Keeps s₀ s) : Keeps s₀ (groupProgress s) := by
  unfold groupProgress
  simp only [*]
  refine Keeps.foldl (fun u a hu => ?_) ?_
  · simp only [keeps_ite, *]
    split
    · simp only [*]
    · apply State.workDone_keeps
      simp only [keeps_mk, keepsAt_iff, keeps_ite, State.modQueue_keeps, State.modAllot_keeps, *]
      split
      · refine Keeps.foldl (fun u a hu => ?_) ?_
        · simp only [scrambleCtx_keeps, *]
        · assumption
      · simp only [*]
  · assumption

theorem bodyGroupDestroy_keeps (r s) (h : Keeps s₀ s) : (bodyGroupDestroy r s).Keeps s₀ := by
  unfold bodyGroupDestroy
  extract_lets g
  exact checks_keeps _ _ _ h (ans_keeps_mk.2 ⟨(defer_keeps _ _ (groupStop_keeps _ _ _ h)).state,
    fun _ hu => groupProgress_keeps _ hu⟩)

theorem bodyRevokeWork_keeps (r s) (h : Keeps s₀ s) : (bodyRevokeWork r s).Keeps s₀ := by
  unfold bodyRevokeWork
  extract_lets a gs x
  have h1 : x.Keeps s₀ := bodyAllotRevoke_keeps _ _ h
  clear_value x
  split
  · exact ans_keeps_mk.2 ⟨groupProgress_keeps _ (Keeps.foldl (fun _ _ hu => groupStop_keeps _ _ _ hu) (h1.state)), h1.after⟩
  · exact h1

theorem slotMoveGroup_keeps (q i s) (h : Keeps s₀ s) : Keeps s₀ (slotMoveGroup q i s) := by
  unfold slotMoveGroup
  extract_lets was s1
  have h1 : Keeps s₀ s1 := slotMove_keeps _ _ _ h
  clear_value s1 was
  split
  · split
    · rename_i y _ _
      cases y.group with
      | none => exact h1
      | some g => exact (failAll_keeps _ _ _).2 h1
    · exact h1
  · exact h1

theorem setGens_keeps (slot levee l s) : Keeps s₀ (setGens slot levee l s) ↔ Keeps s₀ s := Iff.rfl

theorem bodyDecodeTableLoad_keeps (r s) (h : Keeps s₀ s) : (bodyDecodeTableLoad r s).Keeps s₀ := by
  unfold bodyDecodeTableLoad
  extract_lets p slot gen hold release field levee cur gs img mine new
  apply checks_keeps
  · exact h
  · split
    · exact done_keeps _ _ ((setGens_keeps _ _ _ _).2 h)
    · clear_value mine
      split
      · split
        · exact refuse_keeps _ _ h
        · exact done_keeps _ _ ((setGens_keeps _ _ _ _).2 h)
      · split
        · exact done_keeps _ _ ((setGens_keeps _ _ _ _).2 h)
        · split
          · exact done_keeps _ _ ((setGens_keeps _ _ _ _).2 h)
          · exact refuse_keeps _ _ h

theorem writeWork_keeps (a off bs s) (h : Keeps s₀ s) : Keeps s₀ (writeWork a off bs s) :=
  Keeps.foldl (fun _ _ hu => putTile_keeps _ _ _ _ _ _ hu) h

theorem bodyResidualReset_keeps (r s) (h : Keeps s₀ s) : (bodyResidualReset r s).Keeps s₀ := by
  unfold bodyResidualReset
  extract_lets p g tensor x own
  apply checks_keeps
  · exact h
  · clear_value x
    split
    · exact refuse_keeps _ _ h
    · extract_lets off
      exact done_keeps _ _ (Keeps.foldl (fun _ _ hu => putTile_keeps _ _ _ _ _ _ hu) h)

theorem blockFails_keeps (g q m i x o s) (h : Keeps s₀ s) : Keeps s₀ (blockFails g q m i x o s) := by
  unfold blockFails
  simp only [ite_self, keeps_ite, failOp_keeps, State.modOp_keeps, *]
  split
  · simp only [colCount_keeps, colStatus_keeps, State.drawn_keeps, State.ledger_keeps, bsnCount_keeps,
    State.bsnEvent_keeps, *]
  · assumption

theorem advanceFrontier_keeps (g q s) (h : Keeps s₀ s) : Keeps s₀ (advanceFrontier g q s) := by
  unfold advanceFrontier
  split
  · extract_lets f o now due s1
    have h1 : Keeps s₀ s1 := (State.modOp_keeps _ _ _ _).2 h
    clear_value s1
    split
    · exact sendCredits_keeps _ _ _ _ h1
    · exact h1
  · exact h

theorem takeBlock_keeps (g q m i b s) (h : Keeps s₀ s) : Keeps s₀ (takeBlock g q m i b s).1 := by
  unfold takeBlock
  simp only [*]
  split
  · simp only [ite_self, keeps_ite, keeps_ite_fst, colCount_keeps, mismatchOp_keeps, State.modOp_keeps, failOp_keeps, *]
    split
    · simp only [*]
    · split
      · simp only [*]
      · split
        · simp only [*]
        · split
          · split
            · simp only [keeps_ite, mismatchOp_keeps, *]
              split
              · apply blockFails_keeps
                split
                · simp only [retain_keeps, *]
                · assumption
              · split
                · simp only [retain_keeps, *]
                · assumption
            · simp only [colCount_keeps, State.modOp_keeps, *]
              split
              · simp only [retain_keeps, *]
              · assumption
          · split
            · split
              · apply blockFails_keeps
                split
                · simp only [retain_keeps, *]
                · assumption
              · split
                · simp only [retain_keeps, *]
                · assumption
            · split
              · simp only [retain_keeps, *]
              · assumption
  · assumption

theorem relay_keeps (g q m is s) (h : Keeps s₀ s) : Keeps s₀ (relay g q m is s) := by
  unfold relay
  split
  · exact Keeps.foldl (fun _ _ hu => Keeps.foldl (fun _ _ hu1 => sendBlocks_keeps _ _ _ _ _ _ hu1) hu) h
  · exact h

theorem tagBlock_keeps (g q i n x s) : Keeps s₀ (tagBlock g q i n x s) ↔ Keeps s₀ s := by
  unfold tagBlock
  split <;> simp only [ite_self, iff_self, keeps_ite, tagOp_keeps, State.modBasin_keeps]

theorem passOn_keeps (g q m is x s) (h : Keeps s₀ s) : Keeps s₀ (passOn g q m is x s) := by
  unfold passOn
  split
  · exact h
  · split
    · exact Keeps.foldl (fun _ _ hu => (tagBlock_keeps _ _ _ _ _ _).2 hu) h
    · exact relay_keeps _ _ _ _ _ h

theorem contribBlocks_keeps (g q m s) (h : Keeps s₀ s) : Keeps s₀ (contribBlocks g q m s) := by
  unfold contribBlocks
  simp only [*]
  split
  · split
    · simp only [mismatchOp_keeps, *]
    · simp only [keeps_ite, mismatchOp_keeps, *]
      split
      · simp only [*]
      · split
        · refine Keeps.foldl_fst (fun u a hu => ?_) ?_
          · simp only [takeBlock_keeps, *]
          · assumption
        · apply advanceFrontier_keeps
          apply passOn_keeps
          refine Keeps.foldl_fst (fun u a hu => ?_) ?_
          · simp only [takeBlock_keeps, *]
          · assumption
  · assumption

theorem upSend_keeps (x o mtype hdr body s) : Keeps s₀ (upSend x o mtype hdr body s) ↔ Keeps s₀ s := by
  simp only [upSend, ite_self, iff_self, keeps_ite, State.emit_keeps]

theorem upBlock_keeps (x o i s) : Keeps s₀ (upBlock x o i s) ↔ Keeps s₀ s := by
  simp only [upBlock, iff_self, upSend_keeps]

theorem contribBarrier_keeps (g q m s) : Keeps s₀ (contribBarrier g q m s) ↔ Keeps s₀ s := by
  unfold contribBarrier
  split <;> simp only [ite_self, iff_self, keeps_ite, mismatchOp_keeps, colCount_keeps, State.modOp_keeps, upSend_keeps]

theorem flushResults_keeps (g q fuel s) (h : Keeps s₀ s) : Keeps s₀ (flushResults g q fuel s) := by
  induction fuel generalizing s with
  | zero => exact h
  | succ fuel ih =>
    unfold flushResults
    split
    · extract_lets owner end_
      clear_value owner end_
      split
      extract_lets s2
      split
      · exact h
      · refine ih _ ((State.modOp_keeps _ _ _ _).2 ?_)
        unfold s2
        split
        · exact Keeps.foldl (fun _ _ hu => sendBlocks_keeps _ _ _ _ _ _ hu) h
        · exact h
    · exact h

theorem blockSample_keeps (x i acc depends s) : Keeps s₀ (blockSample x i acc depends s) ↔ Keeps s₀ s := by
  unfold blockSample
  split <;> simp only [ite_self, iff_self, keeps_ite, State.setBasin_keeps]

theorem residualFault_keeps (x o i s) (h : Keeps s₀ s) : Keeps s₀ (residualFault x o i s).1 := by
  unfold residualFault
  extract_lets b pva
  refine Keeps.foldl_fst (fun u a hu => ?_) ?_
  · split
    · exact hu
    · exact poolTileFault_keeps _ _ _ _ _ hu
  · exact h

theorem blockRun_keeps (g q i s) (h : Keeps s₀ s) : Keeps s₀ (blockRun g q i s) := by
  unfold blockRun
  split
  · rename_i x o _ _
    extract_lets k
    split
    · exact h
    · split
      · exact (failOp_keeps _ _ _ _).2 h
      · have hr := residualFault_keeps x o i _ h
        split
        · rename_i heq
          rw [heq] at hr
          extract_lets y res v new s1 s2 s3 s4
          have h1 : Keeps s₀ s1 := by
            unfold s1
            split
            · exact writeWork_keeps _ _ _ _ hr
            · exact hr
          have h2 : Keeps s₀ s2 := (State.modOp_keeps _ _ _ _).2 h1
          have h3 : Keeps s₀ s3 := by
            unfold s3
            split
            · exact h2
            · exact (blockSample_keeps _ _ _ _ _).2 h2
          have h4 : Keeps s₀ s4 := by
            unfold s4
            split
            · exact (upBlock_keeps _ _ _ _).2 h3
            · exact h3
          clear_value s4
          refine advanceFrontier_keeps _ _ _ ?_
          split
          · exact h4
          · exact flushResults_keeps _ _ _ _ h4
        · rename_i heq
          rw [heq] at hr
          exact (failOp_keeps _ _ _ _).2 hr
  · exact h

theorem blockComplete_keeps (g q i s) (h : Keeps s₀ s) : Keeps s₀ (blockComplete g q i s) := by
  unfold blockComplete
  split
  · split
    · exact h
    · split
      · split
        · extract_lets res
          rw [tagBlock_keeps]
          split
          · exact (retain_keeps _ _ _ _ _).2 h
          · exact h
        · exact h
      · exact blockRun_keeps _ _ _ _ h
  · exact h

theorem replayOp_keeps (b t s) (h : Keeps s₀ s) : Keeps s₀ (replayOp b t s) := by
  unfold replayOp
  extract_lets s1
  have h1 : Keeps s₀ s1 := (bsnCount_keeps _ _ _ _ _).2 h
  clear_value s1
  split
  · exact Keeps.foldl (fun _ _ hu => release_keeps _ _ hu) ((State.modChain_keeps _ _ _).2 (Keeps.foldl (fun _ _ hu => writeStore_keeps _ _ _ _ hu) h1))
  · split
    · split
      · exact h1
      · split
        · exact blockRun_keeps _ _ _ _ h1
        · split
          · exact relay_keeps _ _ _ _ _ h1
          · exact h1
    · exact h1

theorem retryOp_keeps (b t s) (h : Keeps s₀ s) : Keeps s₀ (retryOp b t s) := by
  unfold retryOp
  extract_lets s1
  have h1 : Keeps s₀ s1 := (bsnCount_keeps _ _ _ _ _).2 ((State.bsnEvent_keeps _ _ _).2 h)
  clear_value s1
  split
  · exact (failOp_keeps _ _ _ _).2 h1
  · split
    · exact h1
    · extract_lets s2
      have h2 : Keeps s₀ s2 := (State.modChain_keeps _ _ _).2 h1
      clear_value s2
      split
      · exact h2
      · exact (State.modChain_keeps _ _ _).2 ((chainEnd_keeps _ _ _ _).2 ((State.modBasin_keeps _ _ _).2 h2))

theorem windowReplay_keeps (b s) (h : Keeps s₀ s) : Keeps s₀ (windowReplay b s) := by
  unfold windowReplay
  extract_lets x
  split
  · exact h
  · rename_i good rest left s1 s2 s3 s4 _
    have h1 : Keeps s₀ s1 := (State.modBasin_keeps _ _ _).2 (restoreUndo_keeps _ _ h)
    have h2 : Keeps s₀ s2 := Keeps.foldl (fun _ _ hu => replayOp_keeps _ _ _ hu) h1
    have h3 : Keeps s₀ s3 := Keeps.foldl (fun _ _ hu => retryOp_keeps _ _ _ hu) h2
    refine destroyProgress_keeps _ ?_
    unfold s4
    split
    · exact queryDone_keeps _ _ h3
    · exact h3

end Sys2Proof.Machine
end

section
/-! RULES. What the functions of the model's file Expert keep. -/

namespace Sys2Proof.Machine

variable {s₀ : State}

theorem bodyExpertMapSet_keeps (r s) (h : Keeps s₀ s) : (bodyExpertMapSet r s).Keeps s₀ := by
  unfold bodyExpertMapSet
  extract_lets p g n cap owners x own
  exact checks_keeps _ _ _ h (done_keeps _ _ ((State.modGroup_keeps _ _ _).2 h))

theorem sendPiece_keeps (g o e pos piece s) (h : Keeps s₀ s) : Keeps s₀ (sendPiece g o e pos piece s) := by
  unfold sendPiece
  split
  · exact colSend_keeps _ _ _ _ _ _ _ _ _ _ h
  · exact h

theorem takePiece_keeps (g q m tok piece logits data s) (h : Keeps s₀ s) :
    Keeps s₀ (takePiece g q m tok piece logits data s) := by
  unfold takePiece
  simp only [*]
  split
  · assumption
  · simp only [keeps_ite, colCount_keeps, *]
    split
    · simp only [*]
    · refine Keeps.foldl (fun u a hu => ?_) ?_
      · simp only [sendPiece_keeps, *]
      · simp only [ite_self, keeps_ite, colCount_keeps, State.modOp_keeps, *]

theorem contribDispatch_keeps (g q m s) (h : Keeps s₀ s) : Keeps s₀ (contribDispatch g q m s) := by
  unfold contribDispatch
  split
  · exact h
  · extract_lets total tok piece lg n known whole
    split
    · exact (mismatchOp_keeps _ _ _).2 h
    · split
      · exact (colCount_keeps _ _ _ _ _).2 h
      · split
        · exact (State.modOp_keeps _ _ _ _).2 h
        · split
          · exact (failOp_keeps _ _ _ _).2 ((State.modOp_keeps _ _ _ _).2 h)
          · exact takePiece_keeps _ _ _ _ _ _ _ _ ((State.modOp_keeps _ _ _ _).2 h)

theorem sendToken_keeps (g o key s) (h : Keeps s₀ s) : Keeps s₀ (sendToken g o key s) := by
  unfold sendToken
  extract_lets ps
  split
  · exact h
  · exact Keeps.foldl (fun _ _ hu => colSend_keeps _ _ _ _ _ _ _ _ _ _ hu) h

theorem combineSweep_keeps (g q s) (h : Keeps s₀ s) : Keeps s₀ (combineSweep g q s) := by
  unfold combineSweep
  split
  · split
    · exact h
    · split
      · exact h
      · refine Keeps.foldl (fun u a hu => ?_) ?_
        · extract_lets s1
          have h1 : Keeps s₀ s1 := sendToken_keeps _ _ _ _ hu
          clear_value s1
          exact (State.modOp_keeps _ _ _ _).2 h1
        · exact h
  · exact h

theorem sweepAll_keeps (g s) (h : Keeps s₀ s) : Keeps s₀ (sweepAll g s) := by
  unfold sweepAll
  refine Keeps.foldl (fun u a hu => ?_) ?_
  · split
    · exact combineSweep_keeps _ _ _ hu
    · exact hu
  · exact h

theorem contribCombine_keeps (g q m s) (h : Keeps s₀ s) : Keeps s₀ (contribCombine g q m s) := by
  unfold contribCombine
  split
  · split
    · exact (mismatchOp_keeps _ _ _).2 h
    · extract_lets e pos piece bytes want
      split
      · exact (mismatchOp_keeps _ _ _).2 h
      · split
        · exact (mismatchOp_keeps _ _ _).2 h
        · extract_lets y
          split
          · exact (colCount_keeps _ _ _ _ _).2 h
          · split
            · exact (failOp_keeps _ _ _ _).2 h
            · exact combineSweep_keeps _ _ _ ((State.modOp_keeps _ _ _ _).2 h)
  · exact h

theorem siphonDone_keeps (g m q kind s) (h : Keeps s₀ s) : Keeps s₀ (siphonDone g m q kind s) :=
  colSend_keeps _ _ _ _ _ _ _ _ _ _ h

theorem siphonOp_keeps (g x m s) (h : Keeps s₀ s) : Keeps s₀ (siphonOp g x m s) := by
  unfold siphonOp
  extract_lets ms entry keep s1
  have h1 : Keeps s₀ s1 := (State.modGroup_keeps _ _ _).2 h
  clear_value s1
  exact Keeps.foldl (fun _ _ hu => siphonDone_keeps _ _ _ _ _ hu) ((colCount_keeps _ _ _ _ _).2 ((colStatus_keeps _ _).2 h1))

theorem siphonAgain_keeps (g x m e s) (h : Keeps s₀ s) : Keeps s₀ (siphonAgain g x m e s) := by
  unfold siphonAgain
  split
  · exact h
  · extract_lets upd
    exact siphonDone_keeps _ _ _ _ _ ((State.modGroup_keeps _ _ _).2 h)

theorem startOp_keeps (g x m s) (h : Keeps s₀ s) : Keeps s₀ (startOp g x m s) := by
  unfold startOp
  split
  · exact h
  · extract_lets o o2 s1 s2 bad lost
    have h1 : Keeps s₀ s1 := (State.modGroup_keeps _ _ _).2 h
    clear_value s1
    have h2 : Keeps s₀ s2 := Keeps.foldl (fun _ _ hu => (mismatchOp_keeps _ _ _).2 hu) h1
    clear_value s2
    split
    · exact (mismatchOp_keeps _ _ _).2 h2
    · split
      · exact (failOp_keeps _ _ _ _).2 h2
      · split
        · exact (failOp_keeps _ _ _ _).2 h2
        · split
          · exact combineSweep_keeps _ _ _ ((State.modOp_keeps _ _ _ _).2 h2)
          · exact h2

theorem contributeTo_keeps (g m s) (h : Keeps s₀ s) : Keeps s₀ (contributeTo g m s) := by
  unfold contributeTo
  split
  · split
    · exact (colCount_keeps _ _ _ _ _).2 h
    · split
      · exact (mismatchOp_keeps _ _ _).2 h
      · split
        · exact sweepAll_keeps _ _ (contribDispatch_keeps _ _ _ _ h)
        · split
          · exact contribCombine_keeps _ _ _ _ h
          · split
            · exact (contribBarrier_keeps _ _ _ _).2 h
            · exact contribBlocks_keeps _ _ _ _ h
  · exact h

theorem heard_keeps (g m s) : Keeps s₀ (heard g m s) ↔ Keeps s₀ s := Iff.rfl

theorem resendTo_keeps (g m o s) (h : Keeps s₀ s) : Keeps s₀ (resendTo g m o s) := by
  unfold resendTo
  split
  · exact h
  · extract_lets count first s1
    have h1 : Keeps s₀ s1 := (colCount_keeps _ _ _ _ _).2 h
    clear_value s1
    split
    · split
      · exact repeatDone_keeps _ _ _ _ h1
      · exact h1
    · split
      · split
        · exact h1
        · exact Keeps.foldl (fun _ _ hu => Keeps.foldl (fun _ _ hu1 => sendPiece_keeps _ _ _ _ _ _ hu1) hu) h1
      · split
        · refine Keeps.foldl (fun u a hu => ?_) ?_
          · extract_lets key
            split
            · exact sendToken_keeps _ _ _ _ hu
            · exact hu
          · exact h1
        · refine Keeps.foldl (fun u a hu => ?_) ?_
          · extract_lets bs
            exact Keeps.foldl (fun _ _ hu1 => sendBlocks_keeps _ _ _ _ _ _ hu1) hu
          · exact h1

theorem colMessage_keeps (m s) (h : Keeps s₀ s) : Keeps s₀ (colMessage m s) := by
  unfold colMessage
  split
  · exact (State.count_keeps _ _ _).2 h
  · exact h
  · split
    · exact h
    · extract_lets g s1
      have h1 : Keeps s₀ s1 := (heard_keeps _ _ _).2 h
      clear_value s1
      split
      · split
        · exact resendTo_keeps _ _ _ _ h1
        · exact contributeTo_keeps _ _ _ h1
      · split
        · exact siphonAgain_keeps _ _ _ _ _ h1
        · split
          · split
            · exact h1
            · split
              · exact siphonOp_keeps _ _ _ _ h1
              · exact contributeTo_keeps _ _ _ (startOp_keeps _ _ _ _ h1)
          · split
            · exact colSend_keeps _ _ _ _ _ _ _ _ _ _ ((colCount_keeps _ _ _ _ _).2 h1)
            · exact (colCount_keeps _ _ _ _ _).2 h1

theorem contrib_keeps (kind p s) (h : Keeps s₀ s) : Keeps s₀ (contrib kind p s) := by
  unfold contrib
  extract_lets m
  split
  · exact colMessage_keeps _ _ h
  · exact h

theorem expertCredits_keeps (g x o s) (h : Keeps s₀ s) : Keeps s₀ (expertCredits g x o s) :=
  Keeps.foldl (fun _ _ hu => colSend_keeps _ _ _ _ _ _ _ _ _ _ hu) h

theorem stallCredit_keeps (g q s) (h : Keeps s₀ s) : Keeps s₀ (stallCredit g q s) := by
  unfold stallCredit
  split
  · split
    · exact h
    · extract_lets s1 s2
      have h1 : Keeps s₀ s1 := (State.modOp_keeps _ _ _ _).2 h
      clear_value s1
      have h2 : Keeps s₀ s2 := (colCount_keeps _ _ _ _ _).2 h1
      clear_value s2
      split
      · exact expertCredits_keeps _ _ _ _ h2
      · exact sendCredits_keeps _ _ _ _ h2
  · exact h

theorem operationComplete_keeps (g q s) (h : Keeps s₀ s) : Keeps s₀ (operationComplete g q s) := by
  unfold operationComplete
  split
  · split
    · exact endOp_keeps _ _ _ h
    · exact h
  · exact h

theorem upDiscard_keeps (m s) : Keeps s₀ (upDiscard m s) ↔ Keeps s₀ s := Iff.rfl

theorem upstream_keeps (mtype f p s) (hf : ∀ m u, Keeps s₀ u → Keeps s₀ (f m u)) (h : Keeps s₀ s) :
    Keeps s₀ (upstream mtype f p s) := by
  unfold upstream
  split
  · exact hf _ _ h
  · exact h

theorem upstreamResult_keeps (m s) (h : Keeps s₀ s) : Keeps s₀ (upstreamResult m s) := by
  unfold upstreamResult
  split
  · exact (upDiscard_keeps _ _).2 h
  · split
    · exact h
    · extract_lets first
      split
      · exact h
      · split
        · exact h
        · extract_lets keep s1
          have h1 : Keeps s₀ s1 := (State.modOp_keeps _ _ _ _).2 h
          clear_value s1
          exact Keeps.foldl (fun _ _ hu => sendBlocks_keeps _ _ _ _ _ _ hu) h1

theorem upstreamCredit_keeps (m s) (h : Keeps s₀ s) : Keeps s₀ (upstreamCredit m s) := by
  unfold upstreamCredit
  split
  · exact (upDiscard_keeps _ _).2 h
  · split
    · exact h
    · extract_lets f
      split
      · exact h
      · split
        · split
          · exact (upSend_keeps _ _ _ _ _ _).2 h
          · exact h
        · split
          · exact Keeps.foldl (fun _ _ hu => (upBlock_keeps _ _ _ _).2 hu) h
          · exact advanceFrontier_keeps _ _ _ ((State.modOp_keeps _ _ _ _).2 h)

theorem upstreamDone_keeps (m s) (h : Keeps s₀ s) : Keeps s₀ (upstreamDone m s) := by
  unfold upstreamDone
  simp only [*]
  split
  · assumption
  · split
    · assumption
    · simp only [ite_self, keeps_ite, State.modOp_keeps, failOp_keeps, endOp_keeps, *]

theorem memberRemoval_keeps (g i s) (h : Keeps s₀ s) : Keeps s₀ (memberRemoval g i s) := by
  unfold memberRemoval
  simp only [*]
  split
  · assumption
  · split
    · simp only [ite_self, keeps_ite, failAll_keeps, *]
    · simp only [keeps_ite, *]
      split
      · simp only [*]
      · apply sweepAll_keeps
        refine Keeps.foldl (fun u a hu => ?_) ?_
        · split
          · simp only [ite_self, keeps_ite, upSend_keeps, *]
          · assumption
        · refine Keeps.foldl (fun u a hu => ?_) ?_
          · simp only [ite_self, keeps_ite, advanceFrontier_keeps, *]
          · assumption

end Sys2Proof.Machine
end

section
/-! RULES. What the functions of the model's file Fault keep. -/

namespace Sys2Proof.Machine

variable {s₀ : State}

theorem fenceRecord_keeps (event i d s) (h : Keeps s₀ s) : Keeps s₀ (fenceRecord event i d s) :=
  State.ledger_keeps _ _ _ _ h

theorem addFence_keeps (d auto i s) (h : Keeps s₀ s) : Keeps s₀ (addFence d auto i s) := by
  unfold addFence
  simp only [keeps_mk, keepsAt_iff, ite_self, keeps_ite, State.count_keeps, State.faultEvent_keeps, State.notify_keeps,
    fenceRecord_keeps, *]

theorem dropFence_keeps (i d s) (h : Keeps s₀ s) : Keeps s₀ (dropFence i d s) := by
  unfold dropFence
  simp only [keeps_mk, keepsAt_iff, ite_self, keeps_ite, State.notify_keeps, fenceRecord_keeps, State.count_keeps, *]

theorem tryFence_keeps (d s) (h : Keeps s₀ s) : Keeps s₀ (tryFence d s).1 := by
  unfold tryFence
  split
  · exact h
  · split
    · exact addFence_keeps _ _ _ _ h
    · extract_lets again s'
      dsimp -zeta only
      split
      · exact keeps_mk.2 h
      · exact fenceRecord_keeps _ _ _ _ ((State.faultEvent_keeps _ _).2 (keeps_mk.2 h))

theorem poolLost_keeps (member id s) (h : Keeps s₀ s) : Keeps s₀ (poolLost member id s) := by
  unfold poolLost
  split
  · exact h
  · exact tryFence_keeps _ _ ((State.count_keeps _ _ _).2 (killLive_keeps _ _ _ h))

theorem endpointDead_keeps (a s) (h : Keeps s₀ s) : Keeps s₀ (endpointDead a s) := by
  unfold endpointDead
  extract_lets ags
  exact (closeHandles_keeps _ _).2 (Keeps.foldl (fun _ _ hu => agentDead_keeps _ _ _ hu) h)

theorem fenceEffects_keeps (d s) (h : Keeps s₀ s) : Keeps s₀ (fenceEffects d s) := by
  unfold fenceEffects
  extract_lets id
  split
  · exact (portDownDiscard_keeps _ _).2 h
  · split
    · exact h
    · exact settle_keeps _ (endpointDead_keeps _ _ h)
  · exact settle_keeps _ (Keeps.foldl (fun _ _ hu => poolLost_keeps _ _ _ hu) h)
  · exact h

theorem autoFence_keeps (d s) (h : Keeps s₀ s) : Keeps s₀ (autoFence d s) := by
  unfold autoFence
  split
  · have h1 := Keeps.of_eq ‹_› (tryFence_keeps _ _ h)
    exact fenceEffects_keeps _ _ h1
  · have h1 := Keeps.of_eq ‹_› (tryFence_keeps _ _ h)
    exact h1

theorem fenceRetry_keeps (s) (h : Keeps s₀ s) : Keeps s₀ (fenceRetry s) :=
  Keeps.foldl (fun _ _ hu => autoFence_keeps _ _ hu) h

theorem bodyFenceSet_keeps (r s) (h : Keeps s₀ s) : (bodyFenceSet r s).Keeps s₀ := by
  unfold bodyFenceSet
  extract_lets d
  apply checks_keeps
  · exact h
  · split
    · exact done_keeps _ _ h
    · split
      · exact refuse_keeps _ _ h
      · exact done_keeps _ _ (fenceEffects_keeps _ _ (addFence_keeps _ _ _ _ h))

theorem bodyFenceClear_keeps (r s) (h : Keeps s₀ s) : (bodyFenceClear r s).Keeps s₀ := by
  unfold bodyFenceClear
  extract_lets d
  apply checks_keeps
  · exact h
  · split
    · exact refuse_keeps _ _ h
    · split
      · exact guardReject_keeps _ _ _ _ h
      · exact done_keeps _ _ (dropFence_keeps _ _ _ h)

theorem portFenceDelay_keeps (p s) (h : Keeps s₀ s) : Keeps s₀ (portFenceDelay p s) := by
  unfold portFenceDelay
  split
  · split
    · exact autoFence_keeps _ _ (keeps_mk.2 h)
    · exact h
  · exact h

theorem trayTimeout_keeps (tray id s) (h : Keeps s₀ s) : Keeps s₀ (trayTimeout tray id s) := by
  unfold trayTimeout
  split
  · split
    · exact autoFence_keeps _ _ h
    · exact h
  · exact h

theorem snoopRetransmit_keeps (die k s) (h : Keeps s₀ s) : Keeps s₀ (snoopRetransmit die k s) := by
  unfold snoopRetransmit
  extract_lets sk
  split
  · exact h
  · split
    · exact h
    · split
      · extract_lets s1
        have h1 : Keeps s₀ s1 := keeps_mk.2 h
        clear_value s1
        exact (cohCount_keeps _ _ _ _ _).2 ((emitSnoop_keeps _ _).2 h1)
      · split
        · exact autoFence_keeps _ _ ((cohStatus_keeps _ _ _).2 h)
        · exact (cohStatus_keeps _ _ _).2 h

theorem peerSilent_keeps (die entry s) (h : Keeps s₀ s) : Keeps s₀ (peerSilent die entry s) := by
  unfold peerSilent
  split
  · exact h
  · extract_lets n silent
    exact Keeps.foldl (fun _ _ hu => autoFence_keeps _ _ hu) h

theorem memberSilent_keeps (g m s) (h : Keeps s₀ s) : Keeps s₀ (memberSilent g m s) := by
  unfold memberSilent
  split
  · exact h
  · extract_lets n
    split
    · exact h
    · split
      · exact autoFence_keeps _ _ h
      · exact h

theorem tokenFail_keeps (tok st s) (h : Keeps s₀ s) : Keeps s₀ (tokenFail tok st s) := by
  unfold tokenFail
  extract_lets ids s1 ks
  have h1 : Keeps s₀ s1 := Keeps.foldl (fun _ _ hu => killLive_keeps _ _ _ hu) h
  clear_value s1
  refine Keeps.foldl (fun u a hu => ?_) ?_
  · split
    · exact cohRun_keeps _ _ _ ((State.setTrans_keeps _ _ _).2 hu)
    · exact hu
  · exact h1

theorem moveOp_keeps (x op s) : Keeps s₀ (moveOp x op s).1 ↔ Keeps s₀ s := by
  unfold moveOp
  split <;> simp only [iff_self, issueOp_keeps]

theorem wbFenced_keeps (a tile replica s) (h : Keeps s₀ s) : Keeps s₀ (wbFenced a tile replica s) := by
  unfold wbFenced
  extract_lets keep
  split
  · split
    · exact wbAcked_keeps _ _ _ _ h
    · dsimp only [keep]
      exact (State.modPage_keeps _ _ _ _).2 (keeps_mk.2 h)
  · dsimp only [keep]
    exact (State.modPage_keeps _ _ _ _).2 (keeps_mk.2 h)

theorem moveOwner_keeps (x op l s) : Keeps s₀ (moveOwner x op l s) ↔ Keeps s₀ s := by
  unfold moveOwner
  split <;> simp only [ite_self, iff_self, keeps_ite, nextPhase_keeps]

theorem requestFenced_keeps (id opId op s) (h : Keeps s₀ s) : Keeps s₀ (requestFenced id opId op s) := by
  unfold requestFenced
  split
  · exact h
  · split
    · exact killLive_keeps _ _ _ h
    · extract_lets atomic
      split
      · exact requestAnswered_keeps _ _ _ _ _ _ h
      · split
        · exact replicaPhase_keeps _ _ _ ((delOps_keeps _ _).2 h)
        · split
          · split
            · have h1 := Keeps.of_eq ‹_› ((moveOp_keeps _ _ _).2 h)
              exact (State.setLive_keeps _ _ _).2 ((moveOwner_keeps _ _ _ _).2 h1)
            · have h1 := Keeps.of_eq ‹_› ((moveOp_keeps _ _ _).2 h)
              split
              · exact poolLost_keeps _ _ _ h1
              · exact killLive_keeps _ _ _ h1
          · split
            · exact poolLost_keeps _ _ _ h
            · exact killLive_keeps _ _ _ h

theorem opFenced_keeps (s e) (h : Keeps s₀ s) : Keeps s₀ (opFenced s e) := by
  unfold opFenced
  split
  · split
    · exact h
    · extract_lets s1
      have h1 : Keeps s₀ s1 := (delOp_keeps _ _).2 h
      clear_value s1
      split
      · split
        · exact startFill_keeps _ _ _ _ h1
        · exact tokenFail_keeps _ _ _ (settleHint_keeps _ _ _ ((State.modPage_keeps _ _ _ _).2 h1))
      · exact wbFenced_keeps _ _ _ _ h1
      · exact requestFenced_keeps _ _ _ _ h1
      · split
        · split
          · have h2 := Keeps.of_eq ‹_› ((moveOp_keeps _ _ _).2 h1)
            exact (State.setTrans_keeps _ _ _).2 h2
          · have h2 := Keeps.of_eq ‹_› ((moveOp_keeps _ _ _).2 h1)
            exact tokenFail_keeps _ _ _ h2
        · exact h1
      · split
        · exact h1
        · split
          · exact cohWriteAnswered_keeps _ _ _ _ h1
          · split
            · exact tokensDone_keeps _ _ _ h1
            · exact tokenFail_keeps _ _ _ h1
      · exact h1

theorem dropHeld_keeps (die s) : Keeps s₀ (dropHeld die s) ↔ Keeps s₀ s := by
  simp only [dropHeld, keeps_mk, keepsAt_iff, implies_true, iff_self, keeps_foldl_iff, fencedCount_keeps,
    State.inflightSub_keeps]

theorem fencedCompletion_keeps (die s) (h : Keeps s₀ s) : Keeps s₀ (fencedCompletion die s) := by
  unfold fencedCompletion
  extract_lets s1 ids
  have h1 : Keeps s₀ s1 := Keeps.foldl (fun _ _ hu => opFenced_keeps _ _ hu) h
  clear_value s1
  exact settle_keeps _ ((dropHeld_keeps _ _).2 (Keeps.foldl (fun _ _ hu => killLive_keeps _ _ _ hu) h1))

theorem trayFailed_keeps (t s) (h : Keeps s₀ s) : Keeps s₀ (trayFailed t s) := by
  unfold trayFailed
  split
  · exact h
  · extract_lets s1 s2 clean
    have h1 : Keeps s₀ s1 := Keeps.foldl (fun _ _ hu => opFenced_keeps _ _ hu) h
    clear_value s1
    have h2 : Keeps s₀ clean := keeps_mk.2 h1
    clear_value clean
    exact detachIfDone_keeps _ _ (pinProgress_keeps _ (settle_keeps _ (Keeps.foldl (fun _ _ hu => freePage_keeps _ _ _ hu) h2)))

theorem sendNotice_keeps (n s) (h : Keeps s₀ s) : Keeps s₀ (sendNotice n s).1 := by
  unfold sendNotice
  simp only [*]
  split
  · assumption
  · split
    · assumption
    · simp only [ite_self, keeps_ite, keeps_ite_fst, State.controlSend_keeps, State.count_keeps, State.emit_keeps, *]

theorem fenceNotice_keeps (s) (h : Keeps s₀ s) : Keeps s₀ (fenceNotice s) := by
  unfold fenceNotice
  split
  · exact h
  · extract_lets put
    split
    · have h1 := Keeps.of_eq ‹_› (sendNotice_keeps _ _ h)
      dsimp only [put]
      exact keeps_mk.2 h1
    · have h1 := Keeps.of_eq ‹_› (sendNotice_keeps _ _ h)
      dsimp only [put]
      exact keeps_mk.2 h1

theorem noticeRepeat_keeps (s) (h : Keeps s₀ s) : Keeps s₀ (noticeRepeat s) := by
  unfold noticeRepeat
  split
  · exact h
  · extract_lets s1 bump
    have h1 : Keeps s₀ s1 := sendNotice_keeps _ _ h
    clear_value s1
    exact keeps_mk.2 h1

theorem stateRecord_keeps (event s) (h : Keeps s₀ s) : Keeps s₀ (stateRecord event s) :=
  State.ledger_keeps _ _ _ _ h

theorem haltDevice_keeps (s) (h : Keeps s₀ s) : Keeps s₀ (haltDevice s) := by
  unfold haltDevice
  split
  · exact h
  · extract_lets s1 s2 empty noOps idle
    have h1 : Keeps s₀ s1 := (State.notify_keeps _ _ _ _).2 (stateRecord_keeps _ _ ((State.faultEvent_keeps _ _).2 h))
    clear_value s1
    have h2 : Keeps s₀ s2 := (State.emit_keeps _ _).2 h1
    clear_value s2
    exact keeps_mk.2 h2

theorem halt_keeps (cause s) (h : Keeps s₀ s) : Keeps s₀ (halt cause s) := by
  unfold halt
  split
  · exact h
  · exact haltDevice_keeps _ h

theorem culvertFailure_keeps (dir s) (h : Keeps s₀ s) : Keeps s₀ (culvertFailure dir s) := by
  unfold culvertFailure
  simp only [keeps_mk, keepsAt_iff, ite_self, keeps_ite, haltDevice_keeps, *]

theorem flitReplay_keeps (dir b s) : Keeps s₀ (flitReplay dir b s) ↔ Keeps s₀ s := by
  simp only [flitReplay, keeps_mk, keepsAt_iff, ite_self, iff_self, keeps_ite]

theorem bundleRetirement_keeps (dir b cause s) (h : Keeps s₀ s) : Keeps s₀ (bundleRetirement dir b cause s) := by
  unfold bundleRetirement
  extract_lets k
  split
  · exact h
  · exact State.ledger_keeps _ _ _ _ (keeps_mk.2 (keeps_mk.2 h))

end Sys2Proof.Machine
end

section
/-! RULES. What the functions of the model's file Lock keep. -/

namespace Sys2Proof.Machine

variable {s₀ : State}

theorem endLoad_keeps (st s) (h : Keeps s₀ s) : Keeps s₀ (endLoad st s) := by
  unfold endLoad
  simp only [*]
  split
  · assumption
  · simp only [keeps_mk, keepsAt_iff, ite_self, keeps_ite, State.count_keeps, State.notify_keeps, stateRecord_keeps,
    State.faultEvent_keeps, State.workDone_keeps, State.drawn_keeps, *]

theorem lockNext_keeps (fuel s) (h : Keeps s₀ s) : Keeps s₀ (lockNext fuel s) := by
  induction fuel generalizing s with
  | zero => exact h
  | succ fuel ih =>
    unfold lockNext
    cases hl : s.flt.load with
    | none => exact h
    | some l =>
      dsimp -zeta only
      split
      · exact endLoad_keeps _ _ h
      · extract_lets left _ n s1
        have h1 : Keeps s₀ s1 := keeps_mk.2 h
        split
        · exact ih _ (keeps_mk.2 h)
        · split
          · exact (State.emit_keeps _ _).2 h1
          · exact (issueOp_keeps _ _).2 h1

theorem placeTile_keeps (a tile i bs s) (h : Keeps s₀ s) : Keeps s₀ (placeTile a tile i bs s) := by
  unfold placeTile
  split
  · exact h
  · extract_lets s1
    have h1 : Keeps s₀ s1 := (State.modAllot_keeps _ _ _).2 h
    clear_value s1
    split
    · exact putTile_keeps _ _ _ _ _ _ h1
    · split
      · have h2 := Keeps.of_eq ‹_› (obtainPage_keeps _ _ _ h1)
        exact putTile_keeps _ _ _ _ _ _ h2
      · have h2 := Keeps.of_eq ‹_› (obtainPage_keeps _ _ _ h1)
        split
        · have h3 := Keeps.of_eq (b := s₀) ‹_› (by
            split
            · split
              · have h3 := Keeps.of_eq ‹_› ((nextIv_keeps _ _ _ _).2 h2)
                extract_lets c
                exact h3
            · exact h2)
          extract_lets ts
          exact Keeps.foldl (fun _ _ hu => (issueOp_keeps _ _).2 hu) h3

theorem partnerFails_keeps (s) (h : Keeps s₀ s) : Keeps s₀ (partnerFails s) := by
  unfold partnerFails
  simp only [*]
  split
  · assumption
  · simp only [keeps_mk, keepsAt_iff, ite_self, keeps_ite, autoFence_keeps, endLoad_keeps, *]

theorem placeTiles_keeps (a first i d s) (h : Keeps s₀ s) : Keeps s₀ (placeTiles a first i d s) :=
  Keeps.foldl (fun _ _ hu => placeTile_keeps _ _ _ _ _ hu) h

theorem shardRead_keeps (i st d s) (h : Keeps s₀ s) : Keeps s₀ (shardRead i st d s) := by
  unfold shardRead
  split
  · split
    · exact h
    · split
      · exact h
      · split
        · exact partnerFails_keeps _ h
        · split
          · exact endLoad_keeps _ _ (keeps_mk.2 h)
          · extract_lets n s1
            have h1 : Keeps s₀ s1 := placeTiles_keeps _ _ _ _ _ h
            clear_value s1
            exact lockNext_keeps _ _ (keeps_mk.2 h1)
  · exact h

theorem partnerLost_keeps (s) (h : Keeps s₀ s) : Keeps s₀ (partnerLost s) := by
  unfold partnerLost
  split
  · split
    · exact settle_keeps _ (partnerFails_keeps _ h)
    · exact h
  · exact h

theorem lockRevoked_keeps (s) (h : Keeps s₀ s) : Keeps s₀ (lockRevoked s) := by
  unfold lockRevoked
  split
  · extract_lets gone
    split
    · exact endLoad_keeps _ _ (keeps_mk.2 h)
    · exact h
  · exact h

theorem bodyRevoke_keeps (r s) (h : Keeps s₀ s) : (bodyRevoke r s).Keeps s₀ := by
  unfold bodyRevoke
  extract_lets a
  have h1 : a.Keeps s₀ := bodyRevokeWork_keeps _ _ h
  clear_value a
  exact ans_keeps_mk.2 ⟨lockRevoked_keeps _ (h1.state), h1.after⟩

theorem trayResponse_keeps (tray id d s) (h : Keeps s₀ s) : Keeps s₀ (trayResponse tray id d s) := by
  unfold trayResponse
  split
  · exact h
  · split
    · exact h
    · split
      · apply detachIfDone_keeps
        split
        · exact shardRead_keeps _ _ _ _ ((delOp_keeps _ _).2 h)
        · exact (delOp_keeps _ _).2 h
      · exact detachIfDone_keeps _ _ (pinProgress_keeps _ (settle_keeps _ (poolAnswered_keeps _ _ _ _ h)))

theorem bodyLockLoad_keeps (r s) (h : Keeps s₀ s) : (bodyLockLoad r s).Keeps s₀ := by
  unfold bodyLockLoad
  extract_lets l
  exact checks_keeps _ _ _ h (ans_keeps_mk.2 ⟨(defer_keeps _ _ (keeps_mk.2 h)).state, fun _ hu => lockNext_keeps _ _ hu⟩)

theorem admitNow_keeps (s) (h : Keeps s₀ s) : Keeps s₀ (admitNow s) := by
  unfold admitNow
  simp only [*]
  split
  · simp only [keeps_ite, State.count_keeps, State.notify_keeps, *]
    split
    · simp only [*]
    · apply stateRecord_keeps
      simp only [keeps_mk, keepsAt_iff, State.faultEvent_keeps, *]
      refine Keeps.foldl (fun u a hu => ?_) ?_
      · simp only [dropFence_keeps, *]
      · simp only [ite_self, keeps_ite, flipEffect_keeps, *]
  · assumption

theorem bodyLockAdmit_keeps (r s) (h : Keeps s₀ s) : (bodyLockAdmit r s).Keeps s₀ := by
  unfold bodyLockAdmit
  extract_lets p n levee ds found flip idle
  exact checks_keeps _ _ _ h (ans_keeps_mk.2 ⟨(done_keeps _ _ (keeps_mk.2 h)).state, fun _ hu => admitNow_keeps _ hu⟩)

theorem disarm_keeps (s) : Keeps s₀ (disarm s) ↔ Keeps s₀ s := by
  simp only [disarm, keeps_mk, keepsAt_iff, ite_self, iff_self, keeps_ite]

end Sys2Proof.Machine
end

section
/-! RULES. What the functions of the model's file Lease keep. -/

namespace Sys2Proof.Machine

variable {s₀ : State}

theorem autonomous_keeps (s) (h : Keeps s₀ s) : Keeps s₀ (autonomous s) := by
  unfold autonomous
  extract_lets s1
  exact (disarm_keeps _).2 ((State.notify_keeps _ _ _ _).2 (stateRecord_keeps _ _ ((State.faultEvent_keeps _ _).2 (keeps_mk.2 h))))

theorem leaseExpiry_keeps (s) (h : Keeps s₀ s) : Keeps s₀ (leaseExpiry s) := by
  unfold leaseExpiry
  split
  · exact autonomous_keeps _ (admitNow_keeps _ h)
  · exact h

theorem takeover_keeps (k term ttl r s) (ht : s.boot.termCtr ≤ term) (h : Keeps s₀ s) : Keeps s₀ (takeover k term ttl r s) :=
  keeps_mk.2 (h.counters ⟨ht, le_rfl, le_rfl, le_rfl, le_rfl, le_rfl⟩)

theorem leaseAcquire_keeps (r s) (h : Keeps s₀ s) : Keeps s₀ (leaseAcquire r s) := by
  unfold leaseAcquire
  extract_lets p reply seen _ s1 ss k s2
  have h1 : Keeps s₀ s1 := keeps_mk.2 h
  have hterm : s1.boot.termCtr = s.boot.termCtr := rfl
  have hreply : ∀ st fs u, Keeps s₀ u → Keeps s₀ (reply k st fs u) := fun _ _ _ hu => (State.sendReply_keeps _ _).2 hu
  clear_value s1 reply
  split
  · exact (State.dropAuth_keeps _).2 h
  split
  · exact (State.dropRate_keeps _).2 h
  split
  · exact (State.dropAuth_keeps _).2 h1
  split
  · exact (State.dropAuth_keeps _).2 h1
  split
  · exact hreply _ _ _ h1
  split
  · exact hreply _ _ _ h1
  split
  · exact hreply _ _ _ h1
  split
  · exact hreply _ _ _ h1
  split
  · exact hreply _ _ _ h1
  split
  · exact hreply _ _ _ h1
  · refine hreply _ _ _ (takeover_keeps _ _ _ _ _ ?_ h1)
    omega

theorem acquire_keeps (r s) (h : Keeps s₀ s) : Keeps s₀ (acquire r s) := by
  unfold acquire
  split
  · exact leaseAcquire_keeps _ _ h
  · exact arrive_keeps _ _ _ (fun _ _ hu => refuse_keeps _ _ hu) h

theorem bodyLeaseRenew_keeps (r s) (h : Keeps s₀ s) : (bodyLeaseRenew r s).Keeps s₀ := by
  unfold bodyLeaseRenew
  apply checks_keeps
  · exact h
  · extract_lets l
    exact done_keeps _ _ (keeps_mk.2 h)

theorem bodyLeaseRelease_keeps (r s) (h : Keeps s₀ s) : (bodyLeaseRelease r s).Keeps s₀ := by
  unfold bodyLeaseRelease
  apply checks_keeps
  · exact h
  · extract_lets _
    exact ans_keeps_mk.2 ⟨(done_keeps _ _ h).state, fun _ hu => autonomous_keeps _ (admitNow_keeps _ hu)⟩

theorem bodyEcho_keeps (r s) (h : Keeps s₀ s) : (bodyEcho r s).Keeps s₀ :=
  checks_keeps _ _ _ h (done_keeps _ _ h)

theorem echo_keeps (r s) (h : Keeps s₀ s) : Keeps s₀ (echo r s) := by
  unfold echo
  split
  · exact arrive_keeps _ _ _ (fun _ _ hu => bodyEcho_keeps _ _ hu) h
  · exact arriveNow_keeps _ _ _ (fun _ _ hu => bodyEcho_keeps _ _ hu) h

theorem mcReset_keeps (cause s) (h : Keeps s₀ s) : Keeps s₀ (mcReset cause s) := by
  unfold mcReset
  extract_lets s1 _ s2 pub _ s3
  have h1 : Keeps s₀ s1 := State.ledger_keeps _ _ _ _ h
  clear_value s1
  have h2 : Keeps s₀ s2 := keeps_mk.2 h1
  clear_value s2
  have h3 : Keeps s₀ s3 := keeps_mk.2 h2
  clear_value s3
  split
  · exact settle_keeps _ (releaseHeld_keeps _ (State.workDone_keeps _ _ _ _ h3))
  · exact h2

theorem watchdogExpiry_keeps (s) (h : Keeps s₀ s) : Keeps s₀ (watchdogExpiry s) := by
  unfold watchdogExpiry
  split
  · exact h
  · apply mcReset_keeps
    extract_lets _
    exact keeps_mk.2 ((State.secEvent_keeps _ _).2 h)

theorem controllerReset_keeps (cause s) (h : Keeps s₀ s) : Keeps s₀ (controllerReset cause s) := by
  unfold controllerReset
  split
  · exact mcReset_keeps _ _ h
  · exact h

theorem controllerReady_keeps (s) : Keeps s₀ (controllerReady s) ↔ Keeps s₀ s := by
  simp only [controllerReady, keeps_mk, keepsAt_iff, implies_true, iff_self, keeps_foldl_iff, State.sendReply_keeps,
    State.cacheReply_keeps]

theorem heartbeat_keeps (s) : Keeps s₀ (heartbeat s) ↔ Keeps s₀ s := by
  simp only [heartbeat, keeps_mk, keepsAt_iff, ite_self, iff_self, keeps_ite, controllerReady_keeps]

end Sys2Proof.Machine
end

section
/-! RULES. What the functions of the model's file Levee keep. -/

namespace Sys2Proof.Machine

variable {s₀ : State}

theorem admitLevee_keeps (l conf maxAllot q0 q1 s) : Keeps s₀ (admitLevee l conf maxAllot q0 q1 s) ↔ Keeps s₀ s := Iff.rfl

theorem bodyLeveeAdmit_keeps (r s) (h : Keeps s₀ s) : (bodyLeveeAdmit r s).Keeps s₀ := by
  unfold bodyLeveeAdmit
  extract_lets p l conf
  apply checks_keeps
  · exact h
  · split
    · exact guardReject_keeps _ _ _ _ h
    · exact done_keeps _ _ ((admitLevee_keeps _ _ _ _ _ _).2 h)

theorem retireWipe_keeps (l s) : Keeps s₀ (retireWipe l s) ↔ Keeps s₀ s := Iff.rfl

theorem retireEnd_keeps (l s) (h : Keeps s₀ s) : Keeps s₀ (retireEnd l s) := by
  unfold retireEnd
  extract_lets s1
  exact State.workDone_keeps _ _ _ _ (keeps_mk.2 h)

theorem retireOne_keeps (l s) (h : Keeps s₀ s) : Keeps s₀ (retireOne l s) := by
  unfold retireOne
  split
  · exact h
  · extract_lets s1
    have h1 : Keeps s₀ s1 := (retireWipe_keeps _ _).2 h
    clear_value s1
    split
    · exact h1
    · exact retireEnd_keeps _ _ h1

theorem retireProgress_keeps (s) (h : Keeps s₀ s) : Keeps s₀ (retireProgress s) :=
  Keeps.foldl (fun _ _ hu => retireOne_keeps _ _ hu) h

theorem dropTenant_keeps (l s) (h : Keeps s₀ s) : Keeps s₀ (dropTenant l s) := by
  unfold dropTenant
  simp only [keeps_mk, keepsAt_iff, ite_self, keeps_ite, releaseHeld_keeps, *]

theorem retireBegin_keeps (l s) (h : Keeps s₀ s) : Keeps s₀ (retireBegin l s) := by
  unfold retireBegin
  extract_lets _ s1 gs s2 qs s3 s4 as s5
  have h1 : Keeps s₀ s1 := dropTenant_keeps _ _ (keeps_mk.2 h)
  have h2 : Keeps s₀ s2 := Keeps.foldl (fun _ _ hu => groupStop_keeps _ _ _ hu) h1
  have h3 : Keeps s₀ s3 := Keeps.foldl (fun _ _ hu => stopChains_keeps _ _ ((State.modQueue_keeps _ _ _).2 hu)) h2
  have h4 : Keeps s₀ s4 := (closeHandles_keeps _ _).2 h3
  have h5 : Keeps s₀ s5 := by
    refine Keeps.foldl (fun u e hu => ?_) h4
    split
    · exact dropPending_keeps _ _ hu
    · split
      · exact revokeCommit_keeps _ _ _ hu
      · exact hu
  exact lockRevoked_keeps _ (destroyProgress_keeps _ (groupProgress_keeps _ (settle_keeps _ h5)))

theorem bodyLeveeRetire_keeps (r s) (h : Keeps s₀ s) : (bodyLeveeRetire r s).Keeps s₀ := by
  unfold bodyLeveeRetire
  extract_lets l
  exact checks_keeps _ _ _ h (ans_keeps_mk.2 ⟨(defer_keeps _ _ (retireBegin_keeps _ _ h)).state,
    fun _ hu => retireProgress_keeps _ hu⟩)

theorem setLeveeKey_keeps (l k x s) : Keeps s₀ (setLeveeKey l k x s) ↔ Keeps s₀ s := Iff.rfl

theorem bodyLeveeKeySet_keeps (r s) (h : Keeps s₀ s) : (bodyLeveeKeySet r s).Keeps s₀ := by
  unfold bodyLeveeKeySet
  extract_lets p l key
  apply checks_keeps
  · exact h
  · split
    · exact guardReject_keeps _ _ _ _ h
    · split
      · exact refuse_keeps _ _ h
      · exact done_keeps _ _ ((setLeveeKey_keeps _ _ _ _).2 h)

theorem State.modLevee_keeps (s l f) : Keeps s₀ (State.modLevee s l f) ↔ Keeps s₀ s := Iff.rfl

theorem kexRefused_keeps (l s) (h : Keeps s₀ s) : Keeps s₀ (kexRefused l s) :=
  State.ledger_keeps _ _ _ _ ((State.count_keeps _ _ _).2 ((State.secEvent_keeps _ _).2 h))

theorem bodyBind_keeps (k r s) (h : Keeps s₀ s) : (bodyBind k r s).Keeps s₀ := by
  unfold bodyBind
  extract_lets l
  split
  · exact ans_keeps_mk.2 ⟨(refuse_keeps _ _ h).state, (refuse_keeps _ _ h).after⟩
  · split
    · exact ans_keeps_mk.2 ⟨(refuse_keeps _ _ h).state, (refuse_keeps _ _ h).after⟩
    · split
      · exact ans_keeps_mk.2 ⟨kexRefused_keeps _ _ h, fun _ hu => hu⟩
      · exact ans_keeps_mk.2 ⟨(done_keeps _ _ ((State.count_keeps _ _ _).2 ((setLeveeKey_keeps _ _ _ _).2 ((State.modLevee_keeps _ _ _).2 h)))).state, (done_keeps _ _ ((State.count_keeps _ _ _).2 ((setLeveeKey_keeps _ _ _ _).2 ((State.modLevee_keeps _ _ _).2 h)))).after⟩

theorem bodyRekey_keeps (r s) (h : Keeps s₀ s) : (bodyRekey r s).Keeps s₀ := by
  unfold bodyRekey
  extract_lets l
  split
  · split
    · exact refuse_keeps _ _ h
    · apply checks_keeps
      · exact h
      · extract_lets rp s1 _
        have h1 : Keeps s₀ s1 := (State.modLevee_keeps _ _ _).2 h
        clear_value s1
        exact ans_keeps_mk.2 ⟨(done_keeps _ _ ((State.count_keeps _ _ _).2 ((setLeveeKey_keeps _ _ _ _).2 h1))).state,
          fun _ hu => (State.sendReply_keeps _ _).2 hu⟩
  · exact refuse_keeps _ _ h

theorem kexUnder_keeps (k r s) (h : Keeps s₀ s) : Keeps s₀ (kexUnder k r s) := by
  unfold kexUnder
  extract_lets l reply
  split
  · exact (State.dropAuth_keeps _).2 h
  · split
    · dsimp only [reply]
      exact (State.sendReply_keeps _ _).2 h
    · split
      · dsimp only [reply]
        exact (State.sendReply_keeps _ _).2 (kexRefused_keeps _ _ h)
      · split
        · exact finish_keeps _ _ (bodyBind_keeps _ _ _ h)
        · split
          · exact keeps_mk.2 h
          · dsimp only [reply]
            exact (State.sendReply_keeps _ _).2 h

theorem keyExchange_keeps (r s) (h : Keeps s₀ s) : Keeps s₀ (keyExchange r s) := by
  unfold keyExchange
  extract_lets r2 l cur w fresh
  split
  · exact (State.dropAuth_keeps _).2 h
  · split
    · exact (State.dropAuth_keeps _).2 h
    · split
      · exact arrive_keeps _ _ _ (fun _ _ hu => bodyRekey_keeps _ _ hu) h
      · split
        · extract_lets seen
          split
          · exact arrive_keeps _ _ _ (fun _ _ hu => bodyRekey_keeps _ _ hu) h
          · split
            · exact (State.dropRate_keeps _).2 h
            · exact arrive_keeps _ _ _ (fun _ _ hu => bodyRekey_keeps _ _ hu) ((State.modLevee_keeps _ _ _).2 h)
        · extract_lets again seen
          clear_value again
          split
          · exact (State.resend_keeps _ _ _).2 h
          · split
            · exact (State.dropRate_keeps _).2 h
            · exact kexUnder_keeps _ _ _ ((State.modLevee_keeps _ _ _).2 h)

theorem formerKeyExpiry_keeps (l s) (h : Keeps s₀ s) : Keeps s₀ (formerKeyExpiry l s) :=
  (State.modLevee_keeps _ _ _).2 h

end Sys2Proof.Machine
end

section
/-! RULES. What the functions of the model's file Ledger keep. -/

namespace Sys2Proof.Machine

variable {s₀ : State}

theorem writeRec_keeps (x s) : Keeps s₀ (writeRec x s) ↔ Keeps s₀ s := Iff.rfl

theorem ledgerFlashWrite_keeps (s) : Keeps s₀ (ledgerFlashWrite s) ↔ Keeps s₀ s := by
  unfold ledgerFlashWrite
  split <;> simp only [keeps_mk, keepsAt_iff, iff_self, writeRec_keeps]

theorem ledgerEvent_keeps (e s) (h : Keeps s₀ s) : Keeps s₀ (ledgerEvent e s) := by
  unfold ledgerEvent
  split
  · exact State.ledger_keeps _ _ _ _ h
  · exact h

theorem holdupWrite_keeps (body s) : Keeps s₀ (holdupWrite body s) ↔ Keeps s₀ s := by
  simp only [holdupWrite, keeps_mk, keepsAt_iff, implies_true, iff_self, keeps_foldl_iff, writeRec_keeps]

theorem bodyLedgerRead_keeps (r s) (h : Keeps s₀ s) : (bodyLedgerRead r s).Keeps s₀ := by
  unfold bodyLedgerRead
  extract_lets p start n
  apply checks_keeps
  · exact h
  · split
    · exact done_keeps _ _ h
    · exact done_keeps _ _ h

theorem bodyMarginRead_keeps (r s) (h : Keeps s₀ s) : (bodyMarginRead r s).Keeps s₀ := by
  unfold bodyMarginRead
  extract_lets die
  exact checks_keeps _ _ _ h (done_keeps _ _ h)

theorem marginRecord_keeps (body low s) (h : Keeps s₀ s) : Keeps s₀ (marginRecord body low s) := by
  unfold marginRecord
  split
  · exact (State.hltEvent_keeps _ _).2 (State.ledger_keeps _ _ _ _ h)
  · split
    · extract_lets s1
      have h1 : Keeps s₀ s1 := State.ledger_keeps _ _ _ _ h
      clear_value s1
      exact keeps_mk.2 h1
    · exact h

end Sys2Proof.Machine
end

section
/-! RULES. What the functions of the model's file Power keep. -/

namespace Sys2Proof.Machine

variable {s₀ : State}

theorem sampleIn_keeps (p s) : Keeps s₀ (sampleIn p s) ↔ Keeps s₀ s := Iff.rfl

theorem windowOpen_keeps (mv s) : Keeps s₀ (windowOpen mv s) ↔ Keeps s₀ s := Iff.rfl

theorem dipStart_keeps (p s) : Keeps s₀ (dipStart p s) ↔ Keeps s₀ s := by
  simp only [dipStart, keeps_mk, keepsAt_iff, ite_self, iff_self, keeps_ite, sampleIn_keeps, windowOpen_keeps]

theorem dipRecovery_keeps (p s) : Keeps s₀ (dipRecovery p s) ↔ Keeps s₀ s := by
  simp only [dipRecovery, keeps_mk, keepsAt_iff, ite_self, iff_self, keeps_ite, sampleIn_keeps]

theorem clockRestore_keeps (s) : Keeps s₀ (clockRestore s) ↔ Keeps s₀ s := by
  unfold clockRestore
  split <;> simp only [keeps_mk, keepsAt_iff, ite_self, iff_self, keeps_ite]

theorem retainArrived_keeps (b o s) : Keeps s₀ (retainArrived b o s) ↔ Keeps s₀ s := by
  unfold retainArrived
  split <;> simp only [implies_true, iff_self, keeps_foldl_iff, retain_keeps]

theorem basinShut_keeps (b s) : Keeps s₀ (basinShut b s) ↔ Keeps s₀ s := by
  simp only [basinShut, implies_true, iff_self, keeps_foldl_iff, tagOp_keeps, retainArrived_keeps, State.modBasin_keeps]

theorem windowClose_keeps (s) (h : Keeps s₀ s) : Keeps s₀ (windowClose s) := by
  unfold windowClose
  extract_lets units s1
  have h1 : Keeps s₀ s1 := Keeps.foldl (fun _ _ hu => (basinShut_keeps _ _).2 hu) h
  clear_value s1
  split
  · extract_lets s2 s3 s4
    have h2 : Keeps s₀ s2 := State.ledger_keeps _ _ _ _ h1
    clear_value s2
    have h3 : Keeps s₀ s3 := (State.count_keeps _ _ _).2 ((State.count_keeps _ _ _).2 h2)
    clear_value s3
    exact retireProgress_keeps _ (groupProgress_keeps _ (destroyProgress_keeps _ (keeps_mk.2 h3)))

theorem dipWindowClose_keeps (s) (h : Keeps s₀ s) : Keeps s₀ (dipWindowClose s) := by
  unfold dipWindowClose
  split
  · split
    · exact windowClose_keeps _ h
    · exact h
  · exact h

theorem sustainedDip_keeps (s) (h : Keeps s₀ s) : Keeps s₀ (sustainedDip s) := by
  unfold sustainedDip
  split
  · extract_lets s1
    have h1 : Keeps s₀ s1 := State.ledger_keeps _ _ _ _ h
    clear_value s1
    exact (State.count_keeps _ _ _).2 (keeps_mk.2 h1)
  · exact h

theorem lowInput_keeps (p s) : Keeps s₀ (lowInput p s) ↔ Keeps s₀ s := by
  simp only [lowInput, keeps_mk, keepsAt_iff, ite_self, iff_self, keeps_ite, sampleIn_keeps]

theorem countReset_keeps (cause s) : Keeps s₀ (countReset cause s) ↔ Keeps s₀ s := Iff.rfl

theorem poweredOff_keeps (s) (h : Keeps s₀ s) : Keeps s₀ (poweredOff s) :=
  ⟨fun _ => ⟨rfl, rfl⟩, KeepsAt.counters h⟩

theorem enterReset_keeps (cause p s) (h : Keeps s₀ s) : Keeps s₀ (enterReset cause p s) := by
  unfold enterReset
  extract_lets mv s1 s2 w
  have h1 : Keeps s₀ s1 := (countReset_keeps _ _).2 ((State.emit_keeps _ _).2 h)
  clear_value s1
  have h2 : Keeps s₀ s2 := (holdupWrite_keeps _ _).2 h1
  clear_value s2
  exact poweredOff_keeps _ (keeps_mk.2 h2)

theorem overInReset_keeps (p s) : Keeps s₀ (overInReset p s) ↔ Keeps s₀ s := by
  simp only [overInReset, keeps_mk, keepsAt_iff, ite_self, iff_self, keeps_ite, countReset_keeps, writeRec_keeps]

theorem supplyReset_keeps (p s) (h : Keeps s₀ s) : Keeps s₀ (supplyReset p s) := by
  unfold supplyReset
  split
  · split
    · exact (overInReset_keeps _ _).2 h
    · exact keeps_mk.2 h
  · split
    · exact enterReset_keeps _ _ _ h
    · split
      · exact enterReset_keeps _ _ _ h
      · exact (sampleIn_keeps _ _).2 h

theorem thermalReset_keeps (p s) (h : Keeps s₀ s) : Keeps s₀ (thermalReset p s) := by
  unfold thermalReset
  split
  · exact enterReset_keeps _ _ _ h
  · exact (sampleIn_keeps _ _).2 h

theorem resetRelease_keeps (p s) : Keeps s₀ (resetRelease p s) ↔ Keeps s₀ s := by
  simp only [resetRelease, keeps_mk, keepsAt_iff, ite_self, iff_self, keeps_ite, sampleIn_keeps]

theorem droopStretch_keeps (die s) : Keeps s₀ (droopStretch die s) ↔ Keeps s₀ s := by
  simp only [droopStretch, keeps_mk, keepsAt_iff, ite_self, iff_self, keeps_ite, State.count_keeps]

theorem stretchEnd_keeps (die s) : Keeps s₀ (stretchEnd die s) ↔ Keeps s₀ s := by
  simp only [stretchEnd, keeps_mk, keepsAt_iff, ite_self, iff_self, keeps_ite]

theorem setLevel_keeps (n s) : Keeps s₀ (setLevel n s) ↔ Keeps s₀ s := by
  simp only [setLevel, keeps_mk, keepsAt_iff, ite_self, iff_self, keeps_ite, State.count_keeps]

theorem droopInterval_keeps (die stretched s) : Keeps s₀ (droopInterval die stretched s) ↔ Keeps s₀ s := by
  simp only [droopInterval, keeps_mk, keepsAt_iff, ite_self, iff_self, keeps_ite, State.count_keeps, State.pwrEvent_keeps,
    setLevel_keeps]

theorem throttleReading_keeps (p s) : Keeps s₀ (throttleReading p s) ↔ Keeps s₀ s := Iff.rfl

theorem throttleRaise_keeps (p s) : Keeps s₀ (throttleRaise p s) ↔ Keeps s₀ s := by
  simp only [throttleRaise, ite_self, iff_self, keeps_ite, throttleReading_keeps, setLevel_keeps]

theorem throttleLower_keeps (p s) : Keeps s₀ (throttleLower p s) ↔ Keeps s₀ s := by
  simp only [throttleLower, ite_self, iff_self, keeps_ite, throttleReading_keeps, setLevel_keeps]

theorem level5_keeps (p s) (h : Keeps s₀ s) : Keeps s₀ (level5 p s) := by
  unfold level5
  extract_lets s1
  have h1 : Keeps s₀ s1 := (throttleReading_keeps _ _).2 h
  clear_value s1
  split
  · exact h1
  · exact (State.pwrEvent_keeps _ _).2 (State.ledger_keeps _ _ _ _ ((setLevel_keeps _ _).2 h1))

theorem level5Exit_keeps (p s) : Keeps s₀ (level5Exit p s) ↔ Keeps s₀ s := by
  simp only [level5Exit, ite_self, iff_self, keeps_ite, throttleReading_keeps, setLevel_keeps]

end Sys2Proof.Machine
end

section
/-! RULES. What the functions of the model's file Attest keep. -/

namespace Sys2Proof.Machine

variable {s₀ : State}

theorem bodyDeviceInfo_keeps (r s) (h : Keeps s₀ s) : (bodyDeviceInfo r s).Keeps s₀ := by
  unfold bodyDeviceInfo
  apply checks_keeps
  · exact h
  · extract_lets fw
    exact done_keeps _ _ h

theorem setMeasure_keeps (i svn digest s) : Keeps s₀ (setMeasure i svn digest s) ↔ Keeps s₀ s := Iff.rfl

theorem bodyAttestReport_keeps (r s) (h : Keeps s₀ s) : (bodyAttestReport r s).Keeps s₀ := by
  unfold bodyAttestReport
  extract_lets p sel l named seen
  apply checks_keeps
  · exact h
  · split
    · exact done_keeps _ _ h
    · exact done_keeps _ _ ((State.count_keeps _ _ _).2 (keeps_mk.2 h))

theorem gaugeSnapshot_keeps (s) (h : Keeps s₀ s) : Keeps s₀ (gaugeSnapshot s) :=
  keeps_mk.2 h

end Sys2Proof.Machine
end

section
/-! RULES. What the functions of the model's file Firmware keep. -/

namespace Sys2Proof.Machine

variable {s₀ : State}

theorem stageWrite_keeps (target off bs s) : Keeps s₀ (stageWrite target off bs s) ↔ Keeps s₀ s := by
  simp only [stageWrite, keeps_mk, keepsAt_iff, ite_self, iff_self, keeps_ite]

theorem stageClear_keeps (target ff s) : Keeps s₀ (stageClear target ff s) ↔ Keeps s₀ s := by
  simp only [stageClear, keeps_mk, keepsAt_iff, ite_self, iff_self, keeps_ite]

theorem bodyFwStage_keeps (r s) (h : Keeps s₀ s) : (bodyFwStage r s).Keeps s₀ := by
  unfold bodyFwStage
  extract_lets p t off len s1
  have h1 : Keeps s₀ s1 := by
    unfold s1
    split
    · exact (stageClear_keeps _ _ _).2 h
    · exact h
  exact checks_keeps _ _ _ h (done_keeps _ _ ((stageWrite_keeps _ _ _ _).2 h1))

theorem setSlotSet_keeps (i x s) : Keeps s₀ (setSlotSet i x s) ↔ Keeps s₀ s := by
  simp only [setSlotSet, keeps_mk, keepsAt_iff, ite_self, iff_self, keeps_ite]

theorem dirWrite_keeps (s) : Keeps s₀ (dirWrite s) ↔ Keeps s₀ s := Iff.rfl

theorem imageRecord_keeps (comp slot svn outcome s) (h : Keeps s₀ s) : Keeps s₀ (imageRecord comp slot svn outcome s) :=
  State.ledger_keeps _ _ _ _ h

theorem refuseImage_keeps (rollback slot x s) (h : Keeps s₀ s) : (refuseImage rollback slot x s).Keeps s₀ := by
  unfold refuseImage
  extract_lets s1
  have h1 : Keeps s₀ s1 := (State.secEvent_keeps _ _).2 h
  clear_value s1
  exact refuse_keeps _ _ (imageRecord_keeps _ _ _ _ _ h1)

theorem activateSet_keeps (digest s) (h : Keeps s₀ s) : (activateSet digest s).Keeps s₀ := by
  unfold activateSet
  extract_lets xs slot
  split
  · exact refuse_keeps _ _ h
  · split
    · exact refuseImage_keeps _ _ _ _ h
    · split
      · exact refuseImage_keeps _ _ _ _ h
      · split
        · exact refuse_keeps _ _ h
        · exact defer_keeps _ _ ((dirWrite_keeps _).2 ((setSlotSet_keeps _ _ _).2 h))

theorem activateSettings_keeps (digest s) (h : Keeps s₀ s) : (activateSettings digest s).Keeps s₀ := by
  unfold activateSettings
  extract_lets x
  split
  · exact refuse_keeps _ _ h
  · split
    · exact refuseImage_keeps _ _ _ _ h
    · split
      · exact refuseImage_keeps _ _ _ _ h
      · split
        · exact refuse_keeps _ _ h
        · split
          · exact refuse_keeps _ _ h
          · exact defer_keeps _ _ h

theorem bodyFwActivate_keeps (r s) (h : Keeps s₀ s) : (bodyFwActivate r s).Keeps s₀ := by
  unfold bodyFwActivate
  extract_lets p t
  apply checks_keeps
  · exact h
  · split
    · exact activateSet_keeps _ _ h
    · exact activateSettings_keeps _ _ h

theorem loadSlot_keeps (i s) : Keeps s₀ (loadSlot i s) ↔ Keeps s₀ s := Iff.rfl

theorem imageWritten_keeps (s) (h : Keeps s₀ s) : Keeps s₀ (imageWritten s) := by
  unfold imageWritten
  split
  · exact h
  · extract_lets i xs s1
    have h1 : Keeps s₀ s1 := (dirWrite_keeps _).2 ((setSlotSet_keeps _ _ _).2 h)
    clear_value s1
    split
    · exact poweredOff_keeps _ ((State.emit_keeps _ _).2 h1)
    · exact mcReset_keeps _ _ ((loadSlot_keeps _ _).2 h1)

theorem activated_keeps (target status s) (h : Keeps s₀ s) : Keeps s₀ (activated target status s) :=
  State.workDone_keeps _ _ _ _ ((stageClear_keeps _ _ _).2 h)

theorem commitTrial_keeps (s) (h : Keeps s₀ s) : Keeps s₀ (commitTrial s) := by
  unfold commitTrial
  extract_lets i x y n _ s1 current y1 s2
  have h1 : Keeps s₀ s1 :=
    keeps_mk.2 (Keeps.counters h ⟨le_rfl, le_max_left _ _, le_max_left _ _, le_max_left _ _, le_rfl, le_rfl⟩)
  have h2 : Keeps s₀ s2 := (dirWrite_keeps _).2 ((setSlotSet_keeps _ _ _).2 ((setSlotSet_keeps _ _ _).2 h1))
  exact activated_keeps _ _ _ (imageRecord_keeps _ _ _ _ _ (imageRecord_keeps _ _ _ _ _ (imageRecord_keeps _ _ _ _ _ h2)))

theorem trialEnd_keeps (s) (h : Keeps s₀ s) : Keeps s₀ (trialEnd s) := by
  unfold trialEnd
  split
  · split
    · exact commitTrial_keeps _ h
    · exact h
  · exact h

theorem trialFailure_keeps (cause s) (h : Keeps s₀ s) : Keeps s₀ (trialFailure cause s) := by
  unfold trialFailure
  split
  · exact h
  · extract_lets i x s1
    have h1 : Keeps s₀ s1 := (dirWrite_keeps _).2 ((setSlotSet_keeps _ _ _).2 h)
    clear_value s1
    exact activated_keeps _ _ _ (imageRecord_keeps _ _ _ _ _ (mcReset_keeps _ _ ((loadSlot_keeps _ _).2 h1)))

theorem settingsWritten_keeps (s) (h : Keeps s₀ s) : Keeps s₀ (settingsWritten s) := by
  unfold settingsWritten
  extract_lets x
  split
  · exact h
  · rename_i _ s1 _ _
    have h1 : Keeps s₀ s1 := by
      unfold s1
      split
      · exact keeps_mk.2 h
      · exact keeps_mk.2 h
    exact activated_keeps _ _ _ (keeps_mk.2 (Keeps.counters h1 ⟨le_rfl, le_rfl, le_rfl, le_rfl, le_max_left _ _, le_rfl⟩))

end Sys2Proof.Machine
end

section
/-! RULES. What the functions of the model's file Boot keep. -/

namespace Sys2Proof.Machine

variable {s₀ : State}

theorem failSlot_keeps (i sigOk s) (h : Keeps s₀ s) : Keeps s₀ (failSlot i sigOk s) := by
  unfold failSlot
  extract_lets x s1
  have h1 : Keeps s₀ s1 := (dirWrite_keeps _).2 ((setSlotSet_keeps _ _ _).2 h)
  clear_value s1
  split
  · exact imageRecord_keeps _ _ _ _ _ ((State.secEvent_keeps _ _).2 h1)
  · exact Keeps.foldl (fun _ _ hu => imageRecord_keeps _ _ _ _ _ hu) ((State.secEvent_keeps _ _).2 h1)

theorem chooseSlot_keeps (f a a2) (h : Keeps s₀ a2) : Keeps s₀ (chooseSlot f a a2).1 := by
  induction a generalizing a2 with
  | nil => exact h
  | cons i r ih =>
    unfold chooseSlot
    extract_lets sigOk
    split
    · exact h
    · exact ih _ (failSlot_keeps _ _ _ h)

theorem applySettings_keeps (i s) (h : Keeps s₀ s) : Keeps s₀ (applySettings i s) :=
  keeps_mk.2 (h.counters ⟨le_rfl, le_rfl, le_rfl, le_rfl, le_max_left _ _, le_rfl⟩)

theorem measureBoot_keeps (slot s) : Keeps s₀ (measureBoot slot s) ↔ Keeps s₀ s := Iff.rfl

theorem trainCulvert_keeps (f s) (h : Keeps s₀ s) : Keeps s₀ (trainCulvert f s) := by
  unfold trainCulvert
  simp only [*]
  refine Keeps.foldl (fun u a hu => ?_) ?_
  · simp only [State.ledger_keeps, *]
  · refine Keeps.foldl (fun u a hu => ?_) ?_
    · simp only [State.ledger_keeps, *]
    · assumption

theorem testRecord_keeps (cmd kind id result action micros detail s) (h : Keeps s₀ s) :
    Keeps s₀ (testRecord cmd kind id result action micros detail s) :=
  State.ledger_keeps _ _ _ _ h

theorem retireResource_keeps (kind id s) (h : Keeps s₀ s) : Keeps s₀ (retireResource kind id s) := by
  unfold retireResource
  split
  · exact setQuar_keeps _ _ _ _ _ h
  · extract_lets s1 s2 h2 add
    have h1 : Keeps s₀ s1 := State.ledger_keeps _ _ _ _ h
    clear_value s1
    have h3 : Keeps s₀ s2 := (State.hltEvent_keeps _ _).2 ((State.hltEvent_keeps _ _).2 h1)
    clear_value s2
    exact keeps_mk.2 h3

theorem selfTest_keeps (f s) (h : Keeps s₀ s) : Keeps s₀ (selfTest f s) := by
  unfold selfTest
  extract_lets fresh pass s1 s2
  have h1 : Keeps s₀ s1 := Keeps.foldl (fun _ _ hu => retireResource_keeps _ _ _ (testRecord_keeps _ _ _ _ _ _ _ _ hu)) h
  clear_value s1
  have h2 : Keeps s₀ s2 := testRecord_keeps _ _ _ _ _ _ _ _ h1
  clear_value s2
  exact keeps_mk.2 h2

theorem powerOnRecords_keeps (s) (h : Keeps s₀ s) : Keeps s₀ (powerOnRecords s) := by
  unfold powerOnRecords
  extract_lets s1
  have h1 : Keeps s₀ s1 := State.ledger_keeps _ _ _ _ (State.ledger_keeps _ _ _ _ h)
  clear_value s1
  exact keeps_mk.2 h1

theorem wake_keeps (f s) (h : Keeps s₀ s) : Keeps s₀ (wake f s) := by
  unfold wake
  extract_lets s1
  have h1 : Keeps s₀ s1 := poweredOff_keeps _ (keeps_mk.2 h)
  clear_value s1
  exact keeps_mk.2 h1

theorem bootNoIdentity_keeps (cause s) (h : Keeps s₀ s) : Keeps s₀ (bootNoIdentity cause s) :=
  powerOnRecords_keeps _ (keeps_mk.2 h)

theorem bootIdentified_keeps (f s) (h : Keeps s₀ s) : Keeps s₀ (bootIdentified f s) := by
  unfold bootIdentified
  extract_lets _ s1 order
  have h1 : Keeps s₀ s1 := keeps_mk.2 (Keeps.counters h ⟨le_rfl, le_rfl, le_rfl, le_rfl, le_rfl, Nat.le_succ _⟩)
  clear_value s1
  have hc := chooseSlot_keeps f order s1 h1
  split
  rename_i s2 slot heq
  rw [heq] at hc
  extract_lets s3 _ s4 s5 _ s6 s7
  have h3 : Keeps s₀ s3 := applySettings_keeps _ _ hc
  have h4 : Keeps s₀ s4 := (measureBoot_keeps _ _).2 (keeps_mk.2 h3)
  have h5 : Keeps s₀ s5 := trainCulvert_keeps _ _ h4
  have h6 : Keeps s₀ s6 := by
    unfold s6
    split
    · exact selfTest_keeps _ _ h5
    · exact keeps_mk.2 h5
  exact powerOnRecords_keeps _ (keeps_mk.2 h6)

theorem powerOn_keeps (f s) (h : Keeps s₀ s) : Keeps s₀ (powerOn f s) := by
  unfold powerOn
  split
  · exact h
  · extract_lets s1
    have h1 : Keeps s₀ s1 := wake_keeps _ _ h
    clear_value s1
    split
    · exact bootIdentified_keeps _ _ h1
    · exact bootNoIdentity_keeps _ _ h1

theorem beacon_keeps (port s) : Keeps s₀ (beacon port s) ↔ Keeps s₀ s := by
  simp only [beacon, keeps_mk, keepsAt_iff, ite_self, iff_self, keeps_ite, State.controlSend_keeps, State.emit_keeps]

end Sys2Proof.Machine
end

section
/-! RULES. What the functions of the model's file Health keep. -/

namespace Sys2Proof.Machine

variable {s₀ : State}

theorem moveRows_keeps (bank s) (h : Keeps s₀ s) (u) (hu : moveRows bank s = some u) : Keeps s₀ u := by
  unfold moveRows at hu
  extract_lets b ls need room at hu
  split at hu
  · cases hu
    exact h
  · split at hu
    · cases hu
    · cases hu
      exact (wakeNeeded_keeps _ _).2 (keeps_mk.2 ((State.setBank_keeps _ _ _).2 ((State.setBank_keeps _ _ _).2 h)))

theorem testPortDown_keeps (p s) (h : Keeps s₀ s) : Keeps s₀ (testPortDown p s) :=
  portDown_keeps _ _ _ _ ((State.modPort_keeps _ _ _).2 h)

theorem testPortUp_keeps (p s) : Keeps s₀ (testPortUp p s) ↔ Keeps s₀ s := Iff.rfl

theorem rehome_keeps (kind id s) (h : Keeps s₀ s) (u) (hu : rehome kind id s = some u) : Keeps s₀ u := by
  unfold rehome at hu
  split at hu
  · cases hu
    exact Keeps.foldl (fun _ _ hv => testPortDown_keeps _ _ hv) h
  split at hu
  · exact moveSlots_keeps _ _ h _ hu
  split at hu
  · split at hu
    · exact moveRows_keeps _ _ h _ hu
    · cases hu
      exact keeps_mk.2 h
  split at hu
  · split at hu
    · cases hu
      exact h
    · split at hu
      · cases hu
      · cases hu
        exact (State.count_keeps _ _ _).2 (keeps_mk.2 h)
  · split at hu
    · cases hu
      exact h
    · split at hu
      · cases hu
        exact testPortDown_keeps _ _ h
      · cases hu

theorem State.modTest_keeps (s kind id f) : Keeps s₀ (State.modTest s kind id f) ↔ Keeps s₀ s := Iff.rfl

theorem testBegin_keeps (kind id s) : Keeps s₀ (testBegin kind id s) ↔ Keeps s₀ s := Iff.rfl

theorem bodyTest_keeps (cal r s) (h : Keeps s₀ s) : (bodyTest cal r s).Keeps s₀ := by
  unfold bodyTest
  extract_lets p kind flags id same t begun
  have hbegun : Keeps s₀ (begun s) := by
    unfold begun
    extract_lets _ s1
    have h1 : Keeps s₀ s1 := keeps_mk.2 h
    split
    · exact (State.modBasin_keeps _ _ _).2 h1
    · exact h1
  clear_value begun
  refine checks_keeps _ _ _ h ?_
  split
  · split
    · exact refuse_keeps _ _ h
    · exact defer_keeps _ _ (rehome_keeps _ _ _ ((testBegin_keeps _ _ _).2 hbegun) _ ‹_›)
  · exact defer_keeps _ _ hbegun

theorem bodySelftest_keeps (r s) (h : Keeps s₀ s) : (bodySelftest r s).Keeps s₀ :=
  bodyTest_keeps _ _ _ h

theorem bodyCalibrate_keeps (r s) (h : Keeps s₀ s) : (bodyCalibrate r s).Keeps s₀ :=
  bodyTest_keeps _ _ _ h

theorem giveBack_keeps (kind id s) (h : Keeps s₀ s) : Keeps s₀ (giveBack kind id s) := by
  unfold giveBack
  simp only [keeps_mk, keepsAt_iff, implies_true, iff_self, keeps_ite, keeps_foldl_iff, testPortUp_keeps, offIfDue_keeps,
    State.modBasin_keeps, *]
  split
  · simp only [*]
  · split
    · simp only [*]
    · split
      · simp only [*]
      · split
        · simp only [*]
        · split
          · assumption
          · assumption

theorem drainWaitExpiry_keeps (kind id s) (h : Keeps s₀ s) : Keeps s₀ (drainWaitExpiry kind id s) := by
  unfold drainWaitExpiry
  split
  · exact h
  · extract_lets late
    split
    · exact h
    · split
      · rename_i heq
        exact rehome_keeps _ _ _ ((testBegin_keeps _ _ _).2 h) _ heq
      · split
        · exact State.workDone_keeps _ _ _ _ (giveBack_keeps _ _ _ h)
        · exact h

theorem reinstate_keeps (kind id s) (h : Keeps s₀ s) : Keeps s₀ (reinstate kind id s) := by
  unfold reinstate
  split
  · exact (State.modBasin_keeps _ _ _).2 (setQuar_keeps _ _ _ _ _ h)
  · extract_lets s1 s2 h2 drop
    have h1 : Keeps s₀ s1 := State.ledger_keeps _ _ _ _ h
    clear_value s1
    have h3 : Keeps s₀ s2 := (State.hltEvent_keeps _ _).2 h1
    clear_value s2
    exact keeps_mk.2 h3

theorem verdict_keeps (t result s) (h : Keeps s₀ s) : Keeps s₀ (verdict t result s).2 := by
  unfold verdict
  split
  · extract_lets s1
    have h1 : Keeps s₀ s1 := (State.count_keeps _ _ _).2 ((State.hltEvent_keeps _ _).2 h)
    clear_value s1
    split
    · split
      · exact h1
      · exact retireResource_keeps _ _ _ h1
    · split
      · exact h1
      · exact retireResource_keeps _ _ _ h1
  · split
    · exact reinstate_keeps _ _ _ h
    · split
      · exact keeps_mk.2 h
      · exact h

theorem testComplete_keeps (kind id result detail s) (h : Keeps s₀ s) : Keeps s₀ (testComplete kind id result detail s) := by
  unfold testComplete
  simp only [*]
  split
  · assumption
  · simp only [keeps_ite, State.modTest_keeps, *]
    split
    · simp only [*]
    · split
      · simp only [*]
      · apply State.workDone_keeps
        apply testRecord_keeps
        simp only [State.count_keeps, verdict_keeps, giveBack_keeps, *]

theorem bodyGaugesRead_keeps (r s) (h : Keeps s₀ s) : (bodyGaugesRead r s).Keeps s₀ := by
  unfold bodyGaugesRead
  extract_lets p n items
  exact checks_keeps _ _ _ h (done_keeps _ _ h)

theorem tapOperation_keeps (instr s) (h : Keeps s₀ s) : Keeps s₀ (tapOperation instr s) := by
  unfold tapOperation
  split
  · exact (State.emit_keeps _ _).2 h
  · split
    · exact (State.emit_keeps _ _).2 ((State.drawn_keeps _).2 h)
    · exact (State.emit_keeps _ _).2 h

end Sys2Proof.Machine
end

section
/-! RULES. What the functions of the model's file Csr keep. -/

namespace Sys2Proof.Machine

variable {s₀ : State}

theorem writeHdw_keeps (a mask v s) : Keeps s₀ (writeHdw a mask v s) ↔ Keeps s₀ s := by
  simp only [writeHdw, keeps_mk, keepsAt_iff, ite_self, iff_self, keeps_ite]

theorem writePort_keeps (n off mask v s) : Keeps s₀ (writePort n off mask v s) ↔ Keeps s₀ s := by
  simp only [writePort, ite_self, iff_self, keeps_ite, State.modPort_keeps]

theorem writeSwc_keeps (d off mask v s) : Keeps s₀ (writeSwc d off mask v s) ↔ Keeps s₀ s := by
  simp only [writeSwc, keeps_mk, keepsAt_iff, ite_self, iff_self, keeps_ite]

theorem writeMesh_keeps (d off mask v s) : Keeps s₀ (writeMesh d off mask v s) ↔ Keeps s₀ s := by
  simp only [writeMesh, keeps_mk, keepsAt_iff, ite_self, iff_self, keeps_ite]

theorem writeQpc_keeps (n k mask v s) : Keeps s₀ (writeQpc n k mask v s) ↔ Keeps s₀ s := by
  simp only [writeQpc, keeps_mk, keepsAt_iff, ite_self, iff_self, keeps_ite]

theorem writeMem_keeps (off mask v s) : Keeps s₀ (writeMem off mask v s) ↔ Keeps s₀ s := by
  simp only [writeMem, keeps_mk, keepsAt_iff, ite_self, iff_self, keeps_ite, writeQpc_keeps]

theorem writeQuota_keeps (d l n s) (h : Keeps s₀ s) : Keeps s₀ (writeQuota d l n s) := by
  unfold writeQuota
  simp only [keeps_mk, keepsAt_iff, quotaLowered_keeps, *]

theorem writeCis_keeps (d off mask v s) (h : Keeps s₀ s) : Keeps s₀ (writeCis d off mask v s) := by
  unfold writeCis
  simp only [keeps_mk, keepsAt_iff, ite_self, keeps_ite, writeQuota_keeps, *]

theorem writeCoh_keeps (d off mask v s) : Keeps s₀ (writeCoh d off mask v s) ↔ Keeps s₀ s := by
  simp only [writeCoh, keeps_mk, keepsAt_iff, ite_self, iff_self, keeps_ite]

theorem writeBsn_keeps (b off mask v s) : Keeps s₀ (writeBsn b off mask v s) ↔ Keeps s₀ s := by
  simp only [writeBsn, ite_self, iff_self, keeps_ite, State.modBasin_keeps]

theorem writeScr_keeps (d off mask v s) : Keeps s₀ (writeScr d off mask v s) ↔ Keeps s₀ s := by
  simp only [writeScr, keeps_mk, keepsAt_iff, ite_self, iff_self, keeps_ite]

theorem writeSec_keeps (off mask v s) : Keeps s₀ (writeSec off mask v s) ↔ Keeps s₀ s := by
  simp only [writeSec, keeps_mk, keepsAt_iff, ite_self, iff_self, keeps_ite]

theorem writePwr_keeps (off mask v s) : Keeps s₀ (writePwr off mask v s) ↔ Keeps s₀ s := by
  simp only [writePwr, keeps_mk, keepsAt_iff, ite_self, iff_self, keeps_ite]

theorem writeHlt_keeps (off mask v s) : Keeps s₀ (writeHlt off mask v s) ↔ Keeps s₀ s := by
  simp only [writeHlt, keeps_mk, keepsAt_iff, ite_self, iff_self, keeps_ite]

theorem writeReg_keeps (s w) (h : Keeps s₀ s) : Keeps s₀ (writeReg s w) := by
  unfold writeReg
  split
  · extract_lets mask off d lo
    split
    · exact (writeHdw_keeps _ _ _ _).2 h
    · exact (writePort_keeps _ _ _ _ _).2 h
    · exact (writeSwc_keeps _ _ _ _ _).2 h
    · exact (writeMesh_keeps _ _ _ _ _).2 h
    · exact (writeMem_keeps _ _ _ _).2 h
    · exact writeCis_keeps _ _ _ _ _ h
    · exact (writeCoh_keeps _ _ _ _ _).2 h
    · exact (writeBsn_keeps _ _ _ _ _).2 h
    · exact (writeScr_keeps _ _ _ _ _).2 h
    · exact (writeSec_keeps _ _ _ _).2 h
    · exact (writePwr_keeps _ _ _ _).2 h
    · exact (writeHlt_keeps _ _ _ _).2 h
    · exact h

theorem guardedWrite_keeps (r ws frags s) (h : Keeps s₀ s) : (guardedWrite r ws frags s).Keeps s₀ := by
  unfold guardedWrite
  extract_lets t
  have h1 : Keeps s₀ t := Keeps.foldl (fun _ _ hu => writeReg_keeps _ _ hu) h
  clear_value t
  split
  · exact guardReject_keeps _ _ _ _ h
  · split
    · exact guardReject_keeps _ _ _ _ h
    · exact done_keeps _ _ h1

theorem bodyReadCsr_keeps (r s) (h : Keeps s₀ s) : (bodyReadCsr r s).Keeps s₀ := by
  unfold bodyReadCsr
  extract_lets p a n
  exact checks_keeps _ _ _ h (done_keeps _ _ h)

theorem bodyWriteCsr_keeps (r s) (h : Keeps s₀ s) : (bodyWriteCsr r s).Keeps s₀ := by
  unfold bodyWriteCsr
  extract_lets p n
  exact checks_keeps _ _ _ h (guardedWrite_keeps _ _ _ _ h)

theorem bodyWriteCsrMasked_keeps (r s) (h : Keeps s₀ s) : (bodyWriteCsrMasked r s).Keeps s₀ := by
  unfold bodyWriteCsrMasked
  extract_lets a
  exact checks_keeps _ _ _ h (guardedWrite_keeps _ _ _ _ h)

end Sys2Proof.Machine
end

section
/-! RULES. What the functions of the model's file Commands keep. -/

namespace Sys2Proof.Machine

variable {s₀ : State}

theorem bodyOf_keeps (op a a2) (h : Keeps s₀ a2) : (bodyOf op a a2).Keeps s₀ := by
  unfold bodyOf
  split
  · exact bodyDeviceInfo_keeps _ _ h
  · exact bodyReadCsr_keeps _ _ h
  · exact bodyWriteCsr_keeps _ _ h
  · exact bodyWriteCsrMasked_keeps _ _ h
  · exact bodyLeveeAdmit_keeps _ _ h
  · exact bodyLeveeRetire_keeps _ _ h
  · exact bodyLeveeKeySet_keeps _ _ h
  · exact bodyFenceSet_keeps _ _ h
  · exact bodyFenceClear_keeps _ _ h
  · exact bodyLockLoad_keeps _ _ h
  · exact bodyLockAdmit_keeps _ _ h
  · exact bodyPortConfig_keeps _ _ h
  · exact bodyPortState_keeps _ _ h
  · exact bodyPortGauges_keeps _ _ h
  · exact bodyMacsecSaSet_keeps _ _ h
  · exact bodyPfcSet_keeps _ _ h
  · exact bodyTableWrite_keeps _ _ h
  · exact bodyTableFlip_keeps _ _ h
  · exact bodyTableStatus_keeps _ _ h
  · exact bodyMcastTreeSet_keeps _ _ h
  · exact bodyMirrorSet_keeps _ _ h
  · exact bodyMeterSet_keeps _ _ h
  · exact bodyShaperSet_keeps _ _ h
  · exact bodySchedSet_keeps _ _ h
  · exact bodyBufferSet_keeps _ _ h
  · exact bodyPrecolourSet_keeps _ _ h
  · exact bodyAllotCreate_keeps _ _ h
  · exact bodyRevoke_keeps _ _ h
  · exact bodyAllotQuery_keeps _ _ h
  · exact bodyWaterRightSet_keeps _ _ h
  · exact bodyTrayAttach_keeps _ _ h
  · exact bodyTrayDetach_keeps _ _ h
  · exact bodyTierHint_keeps _ _ h
  · exact bodyRegionCreate_keeps _ _ h
  · exact bodyRegionOpen_keeps _ _ h
  · exact bodyRegionClose_keeps _ _ h
  · exact bodyRegionPublish_keeps _ _ h
  · exact bodyRegionQuery_keeps _ _ h
  · exact bodyDomainCreate_keeps _ _ h
  · exact bodyAgentAdd_keeps _ _ h
  · exact bodyAgentDead_keeps _ _ h
  · exact bodyDomainModeSet_keeps _ _ h
  · exact bodyDomainQuery_keeps _ _ h
  · exact bodyFlumeQueueCreate_keeps _ _ h
  · exact bodyFlumeQueueDestroy_keeps _ _ h
  · exact bodyTurnAlloc_keeps _ _ h
  · exact bodyTurnSet_keeps _ _ h
  · exact bodyXcheckSet_keeps _ _ h
  · exact bodyBasinState_keeps _ _ h
  · exact bodyGroupCreate_keeps _ _ h
  · exact bodyGroupDestroy_keeps _ _ h
  · exact bodyDecodeTableLoad_keeps _ _ h
  · exact bodyExpertMapSet_keeps _ _ h
  · exact bodyResidualReset_keeps _ _ h
  · exact bodyScreenWrite_keeps _ _ h
  · exact bodyScreenDelete_keeps _ _ h
  · exact bodyScreenSearch_keeps _ _ h
  · exact bodyScreenQuotaSet_keeps _ _ h
  · exact bodyAttestReport_keeps _ _ h
  · exact bodyFwStage_keeps _ _ h
  · exact bodyFwActivate_keeps _ _ h
  · exact bodySelftest_keeps _ _ h
  · exact bodyCalibrate_keeps _ _ h
  · exact bodyGaugesRead_keeps _ _ h
  · exact bodyLedgerRead_keeps _ _ h
  · exact bodyMarginRead_keeps _ _ h
  · exact bodyRecArm_keeps _ _ h
  · exact bodyRecRead_keeps _ _ h
  · exact bodyRecReplay_keeps _ _ h
  · exact bodyEcho_keeps _ _ h
  · exact bodyRekey_keeps _ _ h
  · exact refuse_keeps _ _ h

theorem gateway_keeps (f s) (h : Keeps s₀ s) (u) (hu : gateway f s = some u) : Keeps s₀ u := by
  unfold gateway at hu
  split at hu
  · cases hu
    exact h
  · dsimp only at hu
    split at hu
    · cases hu
    · cases hu
      exact keeps_mk.2 h

theorem endReasm_keeps (x more s) : Keeps s₀ (endReasm x more s) ↔ Keeps s₀ s := by
  unfold endReasm
  split <;> simp only [iff_self, State.answer_keeps]

theorem setReasm_keeps (x l s) : Keeps s₀ (setReasm x l s) ↔ Keeps s₀ s := by
  simp only [setReasm, iff_self, State.setSession_keeps]

theorem joinReasm_keeps (r s) (h : Keeps s₀ s) : Keeps s₀ (joinReasm r s) := by
  unfold joinReasm
  extract_lets i n l rest go
  split
  · split
    · exact (endReasm_keeps _ _ _).2 ((setReasm_keeps _ _ _).2 h)
    · dsimp only [go]
      split
      · exact (setReasm_keeps _ _ _).2 h
      · split
        · exact judgePacket_keeps _ _ _ (fun _ _ hu => bodyOf_keeps _ _ _ hu) ((setReasm_keeps _ _ _).2 h)
        · exact (setReasm_keeps _ _ _).2 h
  · split
    · exact (State.answer_keeps _ _ _ _ _).2 h
    · dsimp only [go]
      split
      · exact (setReasm_keeps _ _ _).2 h
      · split
        · exact judgePacket_keeps _ _ _ (fun _ _ hu => bodyOf_keeps _ _ _ hu) ((setReasm_keeps _ _ _).2 h)
        · exact (setReasm_keeps _ _ _).2 h

theorem fragArrive_keeps (r s) (h : Keeps s₀ s) : Keeps s₀ (fragArrive r s) := by
  unfold fragArrive
  split
  · have h1 := Keeps.of_eq ‹_› (seqCheck_keeps _ _ h)
    split
    · exact h1
    · split
      · exact (State.answer_keeps _ _ _ _ _).2 h1
      · split
        · exact (State.answer_keeps _ _ _ _ _).2 h1
        · exact joinReasm_keeps _ _ h1

theorem reasmExpiry_keeps (x tag s) (h : Keeps s₀ s) : Keeps s₀ (reasmExpiry x tag s) := by
  unfold reasmExpiry
  extract_lets l
  split
  · split
    · exact (endReasm_keeps _ _ _).2 ((setReasm_keeps _ _ _).2 h)
    · exact h
  · exact h

theorem kryticServe_keeps (r s) (h : Keeps s₀ s) : Keeps s₀ (kryticServe r s) := by
  unfold kryticServe
  split
  · exact arriveNow_keeps _ _ _ (fun _ _ hu => bodyLeaseRenew_keeps _ _ hu) h
  · split
    · exact arriveNow_keeps _ _ _ (fun _ _ hu => bodyLeaseRelease_keeps _ _ hu) h
    · split
      · exact echo_keeps _ _ h
      · split
        · exact fragArrive_keeps _ _ h
        · exact arrive_keeps _ _ _ (fun _ _ hu => bodyOf_keeps _ _ _ hu) h

theorem kryticFrame_keeps (f s) (h : Keeps s₀ s) : Keeps s₀ (kryticFrame f s) := by
  unfold kryticFrame
  split
  · exact (State.dropRate_keeps _).2 h
  · have h1 := gateway_keeps _ _ h _ ‹_›
    extract_lets r
    split
    · exact (State.dropMal_keeps _).2 h1
    · split
      · exact (State.secEvent_keeps _ _).2 ((State.count_keeps _ _ _).2 h1)
      · split
        · exact leaseAcquire_keeps _ _ h1
        · split
          · exact keyExchange_keeps _ _ h1
          · split
            · exact (State.dropAuth_keeps _).2 h1
            · exact kryticServe_keeps _ _ h1

theorem unqueue_keeps (w s) : Keeps s₀ (unqueue w s) ↔ Keeps s₀ s := Iff.rfl

theorem letGo_keeps (w s) (h : Keeps s₀ s) : Keeps s₀ (letGo w s) := by
  unfold letGo
  split
  · exact settle_keeps _ h
  · exact h

theorem beginCommand_keeps (w s) (h : Keeps s₀ s) : Keeps s₀ (beginCommand w s) := by
  unfold beginCommand
  extract_lets r l current binding
  split
  · exact finish_keeps _ _ (bodyBind_keeps _ _ _ h)
  · split
    · apply finish_keeps
      extract_lets _
      exact ans_keeps_mk.2 ⟨(refuse_keeps _ _ h).state, (refuse_keeps _ _ h).after⟩
    · exact finish_keeps _ _ (ans_keeps_mk.2 ⟨(bodyOf_keeps _ _ _ h).state, (bodyOf_keeps _ _ _ h).after⟩)

theorem commandBegin_keeps (s) (h : Keeps s₀ s) : Keeps s₀ (commandBegin s) := by
  unfold commandBegin
  split
  · exact h
  · split
    · exact h
    · exact letGo_keeps _ _ (beginCommand_keeps _ _ ((unqueue_keeps _ _).2 h))

theorem waitExpiry_keeps (s) (h : Keeps s₀ s) : Keeps s₀ (waitExpiry s) := by
  unfold waitExpiry
  extract_lets old
  refine Keeps.foldl (fun u a hu => ?_) ?_
  · extract_lets s1
    have h1 : Keeps s₀ s1 := (unqueue_keeps _ _).2 hu
    clear_value s1
    apply letGo_keeps
    split
    · exact (State.answer_keeps _ _ _ _ _).2 h1
    · split
      · exact (State.sendReply_keeps _ _).2 h1
      · exact h1
  · exact h

end Sys2Proof.Machine
end

section
/-! RULES. What every command keeps, and so every step. -/

namespace Sys2Proof.Machine

variable {s₀ : State}

/-- An outcome that is a next state keeps what `Keeps` says; a fault or a refusal gives none. -/
def NextKeeps (b : State) (o : Host.Outcome State Fault Refusal) : Prop := ∀ u, o = .next u → Keeps b u

theorem nextKeeps_next {b u : State} (h : Keeps b u) : NextKeeps b (.next u) := by
  rintro _ ⟨⟩
  exact h

theorem keeps_of_ite {b u v : State} {c : Prop} [Decidable c] (hu : Keeps b u) (hv : Keeps b v) :
    Keeps b (if c then u else v) := by
  split
  · exact hu
  · exact hv

theorem command_nextKeeps {body : Body} {t r s} (op) (hb : ∀ r u, Keeps s₀ u → (body r u).Keeps s₀) (h : Keeps s₀ s) :
    NextKeeps s₀ (command op body t r s) :=
  nextKeeps_next (arrive_keeps _ _ _ hb ((State.tick_keeps _ _).2 h))

theorem registerWrite_nextKeeps (t r s) (h : Keeps s₀ s) : NextKeeps s₀ (registerWrite t r s) := by
  unfold registerWrite
  split
  · exact command_nextKeeps _ bodyWriteCsrMasked_keeps h
  · exact command_nextKeeps _ bodyWriteCsr_keeps h

theorem exec_nextKeeps (c s) (h : Keeps s₀ s) : NextKeeps s₀ (exec c s) := by
  have ht (t) : Keeps s₀ (s.tick t) := (State.tick_keeps _ _).2 h
  cases c with
  | deviceInfo _ _ => exact command_nextKeeps _ bodyDeviceInfo_keeps h
  | readCsr _ _ => exact command_nextKeeps _ bodyReadCsr_keeps h
  | writeCsr _ _ => exact command_nextKeeps _ bodyWriteCsr_keeps h
  | writeCsrMasked _ _ => exact command_nextKeeps _ bodyWriteCsrMasked_keeps h
  | echo _ _ => exact nextKeeps_next (echo_keeps _ _ (ht _))
  | leaseAcquire _ _ => exact nextKeeps_next (acquire_keeps _ _ (ht _))
  | leaseRenew _ _ => exact nextKeeps_next (arriveNow_keeps _ _ _ (fun _ _ hu => bodyLeaseRenew_keeps _ _ hu) (ht _))
  | leaseRelease _ _ => exact nextKeeps_next (arriveNow_keeps _ _ _ (fun _ _ hu => bodyLeaseRelease_keeps _ _ hu) (ht _))
  | leveeAdmit _ _ => exact command_nextKeeps _ bodyLeveeAdmit_keeps h
  | leveeRetire _ _ => exact command_nextKeeps _ bodyLeveeRetire_keeps h
  | leveeKeySet _ _ => exact command_nextKeeps _ bodyLeveeKeySet_keeps h
  | fenceSet _ _ => exact command_nextKeeps _ bodyFenceSet_keeps h
  | fenceClear _ _ => exact command_nextKeeps _ bodyFenceClear_keeps h
  | lockLoad _ _ => exact command_nextKeeps _ bodyLockLoad_keeps h
  | lockAdmit _ _ => exact command_nextKeeps _ bodyLockAdmit_keeps h
  | portConfig _ _ => exact command_nextKeeps _ bodyPortConfig_keeps h
  | portState _ _ => exact command_nextKeeps _ bodyPortState_keeps h
  | portGauges _ _ => exact command_nextKeeps _ bodyPortGauges_keeps h
  | macsecSaSet _ _ => exact command_nextKeeps _ bodyMacsecSaSet_keeps h
  | pfcSet _ _ => exact command_nextKeeps _ bodyPfcSet_keeps h
  | tableWrite _ _ => exact command_nextKeeps _ bodyTableWrite_keeps h
  | tableFlip _ _ => exact command_nextKeeps _ bodyTableFlip_keeps h
  | tableStatus _ _ => exact command_nextKeeps _ bodyTableStatus_keeps h
  | mcastTreeSet _ _ => exact command_nextKeeps _ bodyMcastTreeSet_keeps h
  | mirrorSet _ _ => exact command_nextKeeps _ bodyMirrorSet_keeps h
  | meterSet _ _ => exact command_nextKeeps _ bodyMeterSet_keeps h
  | shaperSet _ _ => exact command_nextKeeps _ bodyShaperSet_keeps h
  | schedSet _ _ => exact command_nextKeeps _ bodySchedSet_keeps h
  | bufferSet _ _ => exact command_nextKeeps _ bodyBufferSet_keeps h
  | precolourSet _ _ => exact command_nextKeeps _ bodyPrecolourSet_keeps h
  | allotCreate _ _ => exact command_nextKeeps _ bodyAllotCreate_keeps h
  | allotRevoke _ _ => exact command_nextKeeps _ bodyRevoke_keeps h
  | allotQuery _ _ => exact command_nextKeeps _ bodyAllotQuery_keeps h
  | waterRightSet _ _ => exact command_nextKeeps _ bodyWaterRightSet_keeps h
  | trayAttach _ _ => exact command_nextKeeps _ bodyTrayAttach_keeps h
  | trayDetach _ _ => exact command_nextKeeps _ bodyTrayDetach_keeps h
  | tierHint _ _ => exact command_nextKeeps _ bodyTierHint_keeps h
  | regionCreate _ _ => exact command_nextKeeps _ bodyRegionCreate_keeps h
  | regionOpen _ _ => exact command_nextKeeps _ bodyRegionOpen_keeps h
  | regionClose _ _ => exact command_nextKeeps _ bodyRegionClose_keeps h
  | regionPublish _ _ => exact command_nextKeeps _ bodyRegionPublish_keeps h
  | regionQuery _ _ => exact command_nextKeeps _ bodyRegionQuery_keeps h
  | domainCreate _ _ => exact command_nextKeeps _ bodyDomainCreate_keeps h
  | agentAdd _ _ => exact command_nextKeeps _ bodyAgentAdd_keeps h
  | agentDead _ _ => exact command_nextKeeps _ bodyAgentDead_keeps h
  | domainModeSet _ _ => exact command_nextKeeps _ bodyDomainModeSet_keeps h
  | domainQuery _ _ => exact command_nextKeeps _ bodyDomainQuery_keeps h
  | flumeQueueCreate _ _ => exact command_nextKeeps _ bodyFlumeQueueCreate_keeps h
  | flumeQueueDestroy _ _ => exact command_nextKeeps _ bodyFlumeQueueDestroy_keeps h
  | turnAlloc _ _ => exact command_nextKeeps _ bodyTurnAlloc_keeps h
  | turnSet _ _ => exact command_nextKeeps _ bodyTurnSet_keeps h
  | xcheckSet _ _ => exact command_nextKeeps _ bodyXcheckSet_keeps h
  | basinState _ _ => exact command_nextKeeps _ bodyBasinState_keeps h
  | groupCreate _ _ => exact command_nextKeeps _ bodyGroupCreate_keeps h
  | groupDestroy _ _ => exact command_nextKeeps _ bodyGroupDestroy_keeps h
  | decodeTableLoad _ _ => exact command_nextKeeps _ bodyDecodeTableLoad_keeps h
  | expertMapSet _ _ => exact command_nextKeeps _ bodyExpertMapSet_keeps h
  | residualReset _ _ => exact command_nextKeeps _ bodyResidualReset_keeps h
  | screenWrite _ _ => exact command_nextKeeps _ bodyScreenWrite_keeps h
  | screenDelete _ _ => exact command_nextKeeps _ bodyScreenDelete_keeps h
  | screenSearch _ _ => exact command_nextKeeps _ bodyScreenSearch_keeps h
  | screenQuotaSet _ _ => exact command_nextKeeps _ bodyScreenQuotaSet_keeps h
  | attestReport _ _ => exact command_nextKeeps _ bodyAttestReport_keeps h
  | leveeKeyExchange _ _ => exact nextKeeps_next (keyExchange_keeps _ _ (ht _))
  | fwStage _ _ => exact command_nextKeeps _ bodyFwStage_keeps h
  | fwActivate _ _ => exact command_nextKeeps _ bodyFwActivate_keeps h
  | selftest _ _ => exact command_nextKeeps _ bodySelftest_keeps h
  | calibrate _ _ => exact command_nextKeeps _ bodyCalibrate_keeps h
  | gaugesRead _ _ => exact command_nextKeeps _ bodyGaugesRead_keeps h
  | ledgerRead _ _ => exact command_nextKeeps _ bodyLedgerRead_keeps h
  | marginRead _ _ => exact command_nextKeeps _ bodyMarginRead_keeps h
  | recArm _ _ => exact command_nextKeeps _ bodyRecArm_keeps h
  | recRead _ _ => exact command_nextKeeps _ bodyRecRead_keeps h
  | recReplay _ _ => exact command_nextKeeps _ bodyRecReplay_keeps h
  | fragmentReassemblyExpiry _ _ _ => exact nextKeeps_next (reasmExpiry_keeps _ _ _ (ht _))
  | commandWaitExpiry _ => exact nextKeeps_next (waitExpiry_keeps _ (ht _))
  | commandBegin _ => exact nextKeeps_next (commandBegin_keeps _ (ht _))
  | leaseExpiry _ => exact nextKeeps_next (leaseExpiry_keeps _ (ht _))
  | mcReset _ _ => exact nextKeeps_next (keeps_of_ite (watchdogExpiry_keeps _ (ht _)) (controllerReset_keeps _ _ (ht _)))
  | heartbeat _ => exact nextKeeps_next ((heartbeat_keeps _).2 (ht _))
  | watchdogExpiry _ => exact nextKeeps_next (watchdogExpiry_keeps _ (ht _))
  | lockstepMismatch _ => exact nextKeeps_next (controllerReset_keeps _ _ (ht _))
  | controllerReady _ => exact nextKeeps_next (keeps_of_ite (ht _) ((heartbeat_keeps _).2 (ht _)))
  | frameReceive _ _ => exact nextKeeps_next (frameReceive_keeps _ _ _ (fun _ _ hu => kryticFrame_keeps _ _ hu) (ht _))
  | internalFrameEnqueue _ _ => exact nextKeeps_next (internalEnqueue_keeps _ _ (ht _))
  | sprayCellReceive _ _ => exact nextKeeps_next (sprayCell_keeps _ _ (ht _))
  | reorderTimeout _ _ _ _ => exact nextKeeps_next (reorderTimeout_keeps _ _ _ _ (ht _))
  | reorderContextIdle _ _ _ _ => exact nextKeeps_next (reorderIdle_keeps _ _ _ _ (ht _))
  | divisionBoxCopy _ _ => exact nextKeeps_next (divisionCopy_keeps _ _ (ht _))
  | schedulerRound _ _ => exact nextKeeps_next (schedulerRound_keeps _ _ (ht _))
  | frameTransmitEnd _ _ => exact nextKeeps_next ((transmitEnd_keeps _ _).2 (ht _))
  | pfcXon _ _ _ => exact nextKeeps_next ((pfcXon_keeps _ _ _).2 (ht _))
  | pfcRepeat _ _ _ => exact nextKeeps_next (pfcRepeat_keeps _ _ _ (ht _))
  | pfcFrameReceive _ _ _ _ => exact nextKeeps_next (pfcReceive_keeps _ _ _ _ ((State.count_keeps _ _ _).2 ((State.count_keeps _ _ _).2 (ht _))))
  | pauseExpiry _ _ _ => exact nextKeeps_next (pauseExpiry_keeps _ _ _ (ht _))
  | pfcWatchdogTrip _ _ _ => exact nextKeeps_next (pfcWatchdog_keeps _ _ _ (ht _))
  | stuckClassRecovery _ _ _ => exact nextKeeps_next ((stuckRecovery_keeps _ _ _).2 (ht _))
  | linkNegotiated _ _ => exact nextKeeps_next (linkRow_keeps _ _ _ _ (fun _ hu => (linkNegotiated_keeps _ _).2 hu) (ht _))
  | trainingComplete _ _ => exact nextKeeps_next (linkRow_keeps _ _ _ _ (fun _ hu => (trainingComplete_keeps _ _).2 hu) (ht _))
  | trainTimeout _ _ => exact nextKeeps_next (linkRow_keeps _ _ _ _ (fun _ hu => (trainTimeout_keeps _ _).2 hu) (ht _))
  | trainingRetry _ _ => exact nextKeeps_next ((trainingRetry_keeps _ _).2 (ht _))
  | linkUp _ _ => exact nextKeeps_next (linkRow_keeps _ _ _ _ (fun _ hu => (linkUp_keeps _ _).2 hu) (ht _))
  | lossOfSignal _ _ => exact nextKeeps_next (linkRow_keeps _ _ _ _ (fun _ hu => lossOfSignal_keeps _ _ hu) (ht _))
  | alignLost _ _ => exact nextKeeps_next (linkRow_keeps _ _ _ _ (fun _ hu => alignLost_keeps _ _ hu) (ht _))
  | remoteFault _ _ => exact nextKeeps_next (linkRow_keeps _ _ _ _ (fun _ hu => remoteFault_keeps _ _ hu) (ht _))
  | fecFail _ _ _ => exact nextKeeps_next (linkRow_keeps _ _ _ _ (fun _ hu => fecFail_keeps _ _ _ hu) ((State.count_keeps _ _ _).2 (ht _)))
  | fecDegrade _ _ _ => exact nextKeeps_next ((fecDegrade_keeps _ _ _).2 (ht _))
  | dampingElapsed _ _ => exact nextKeeps_next (linkRow_keeps _ _ _ _ (fun _ hu => (dampingElapsed_keeps _ _).2 hu) (ht _))
  | dampingReset _ _ => exact nextKeeps_next ((dampingReset_keeps _ _).2 (ht _))
  | portDownDiscard _ _ => exact nextKeeps_next ((portDownDiscard_keeps _ _).2 (ht _))
  | pinMemberFailover _ _ => exact nextKeeps_next ((pinFailover_keeps _ _).2 (ht _))
  | pinMemberRestore _ _ => exact nextKeeps_next ((pinRestore_keeps _ _).2 (ht _))
  | flipEffect _ _ => exact nextKeeps_next (keeps_of_ite ((flipEffect_keeps _ _).2 (ht _)) (ht _))
  | versionDrained _ _ => exact nextKeeps_next ((versionDrained_keeps _ _).2 (ht _))
  | retireLimitExpiry _ _ => exact nextKeeps_next (retireExpiry_keeps _ _ (ht _))
  | versionCopyComplete _ _ => exact nextKeeps_next ((copyComplete_keeps _ _).2 (ht _))
  | culvertFlitReplay _ _ _ => exact nextKeeps_next ((flitReplay_keeps _ _ _).2 (ht _))
  | bundleRetirement _ _ _ _ => exact nextKeeps_next (bundleRetirement_keeps _ _ _ _ (ht _))
  | culvertFailure _ _ => exact nextKeeps_next (culvertFailure_keeps _ _ (ht _))
  | pRead _ _ => exact nextKeeps_next (poolRequest_keeps _ _ _ ((atEngine_keeps _ _ _).2 h))
  | pWrite _ _ => exact nextKeeps_next (poolRequest_keeps _ _ _ ((atEngine_keeps _ _ _).2 h))
  | pAtomic _ _ => exact nextKeeps_next (poolRequest_keeps _ _ _ ((atEngine_keeps _ _ _).2 h))
  | pCopy _ _ => exact nextKeeps_next (poolRequest_keeps _ _ _ ((atEngine_keeps _ _ _).2 h))
  | rdmaWrite _ _ => exact nextKeeps_next (rdmaRequest_keeps _ _ _ ((meshDeliver_keeps _ _).2 (ht _)))
  | rdmaRead _ _ => exact nextKeeps_next (rdmaRequest_keeps _ _ _ ((meshDeliver_keeps _ _).2 (ht _)))
  | rdmaAtomic _ _ => exact nextKeeps_next (rdmaRequest_keeps _ _ _ ((meshDeliver_keeps _ _).2 (ht _)))
  | waterRightRelease _ _ _ _ => exact nextKeeps_next (settle_keeps _ (rightRelease_keeps _ _ _ _ (ht _)))
  | queueContextReclaim _ _ _ _ _ => exact nextKeeps_next ((reclaimCtx_keeps _ _ _ _ _).2 (ht _))
  | trayResponse _ _ _ _ => exact nextKeeps_next (trayResponse_keeps _ _ _ _ (ht _))
  | trayOperationTimeout _ _ _ => exact nextKeeps_next (trayTimeout_keeps _ _ _ (ht _))
  | revokeDrainEnd _ _ => exact nextKeeps_next (retireProgress_keeps _ (settle_keeps _ (revokeDrainEnd_keeps _ _ (ht _))))
  | revokeTimeout _ _ => exact nextKeeps_next (retireProgress_keeps _ (revokeTimeout_keeps _ _ (ht _)))
  | allotmentReleased _ _ => exact nextKeeps_next ((allotReleased_keeps _ _).2 (ht _))
  | trayRangeZeroing _ _ => exact nextKeeps_next (retireProgress_keeps _ (zeroRanges_keeps _ _ (ht _)))
  | pPhase _ _ _ => exact nextKeeps_next (phaseApply_keeps _ _ _ ((atEngine_keeps _ _ _).2 h))
  | pPhaseAck _ _ _ => exact nextKeeps_next (phaseAck_keeps _ _ _ ((atEngine_keeps _ _ _).2 h))
  | pOwnerQuery _ _ _ => exact nextKeeps_next ((ownerQuery_keeps _ _).2 ((atEngine_keeps _ _ _).2 h))
  | pOwnerReply _ _ _ => exact nextKeeps_next ((ownerReply_keeps _ _ _).2 ((atEngine_keeps _ _ _).2 h))
  | phaseDeadlineExpiry _ _ _ => exact nextKeeps_next (phaseExpiry_keeps _ _ _ (ht _))
  | fillComplete _ _ _ _ => exact nextKeeps_next (settle_keeps _ (fillComplete_keeps _ _ _ _ (ht _)))
  | writeBackDeadline _ _ _ => exact nextKeeps_next (writeBackDeadline_keeps _ _ _ (ht _))
  | writeBackComplete _ _ _ => exact nextKeeps_next (settle_keeps _ (writeBackComplete_keeps _ _ _ (ht _)))
  | coldCompression _ _ _ => exact nextKeeps_next ((coldCompression_keeps _ _ _).2 (ht _))
  | pageExpansion _ _ _ => exact nextKeeps_next (settle_keeps _ (pageExpansion_keeps _ _ _ (ht _)))
  | prefetchComplete _ _ _ _ => exact nextKeeps_next (settle_keeps _ (prefetchComplete_keeps _ _ _ _ (ht _)))
  | quotaLowered _ _ _ => exact nextKeeps_next (quotaLowered_keeps _ _ _ _ (ht _))
  | hbmUncorrectable _ _ _ => exact nextKeeps_next (settle_keeps _ (hbmUncorrectable_keeps _ _ _ (ht _)))
  | trayFailed _ _ => exact nextKeeps_next (trayFailed_keeps _ _ (ht _))
  | publishCommit _ _ => exact nextKeeps_next (settle_keeps _ (publishCommit_keeps _ _ (ht _)))
  | cRdShared _ _ => exact nextKeeps_next (cohRequest_keeps _ _ _ ((atEngine_keeps _ _ _).2 h))
  | cRdOwn _ _ => exact nextKeeps_next (cohRequest_keeps _ _ _ ((atEngine_keeps _ _ _).2 h))
  | cUpgrade _ _ => exact nextKeeps_next (cohRequest_keeps _ _ _ ((atEngine_keeps _ _ _).2 h))
  | cAtomic _ _ => exact nextKeeps_next (cohRequest_keeps _ _ _ ((atEngine_keeps _ _ _).2 h))
  | cWriteFull _ _ => exact nextKeeps_next (cohRequest_keeps _ _ _ ((atEngine_keeps _ _ _).2 h))
  | cEvictClean _ _ => exact nextKeeps_next (cohRequest_keeps _ _ _ ((atEngine_keeps _ _ _).2 h))
  | cWb _ _ => exact nextKeeps_next (settle_keeps _ (writeBackLine_keeps _ _ ((atEngine_keeps _ _ _).2 h)))
  | cSnpData _ _ => exact nextKeeps_next (settle_keeps _ (snoopReply_keeps _ _ _ ((atEngine_keeps _ _ _).2 h)))
  | cSnpAck _ _ => exact nextKeeps_next (settle_keeps _ (snoopReply_keeps _ _ _ ((atEngine_keeps _ _ _).2 h)))
  | snoopRetransmit _ _ _ => exact nextKeeps_next (snoopRetransmit_keeps _ _ _ (ht _))
  | holdWindowExpiry _ _ _ => exact nextKeeps_next (settle_keeps _ ((holdExpiry_keeps _ _ _).2 (ht _)))
  | memoryReadComplete _ _ _ => exact nextKeeps_next (settle_keeps _ (memoryRead_keeps _ _ _ (ht _)))
  | flumePost _ _ => exact nextKeeps_next (flumePost_keeps _ _ (ht _))
  | chainTileFetch _ _ => exact nextKeeps_next (chainTileFetch_keeps _ _ (ht _))
  | descriptorBegin _ _ => exact nextKeeps_next (descriptorBegin_keeps _ _ (ht _))
  | load _ _ => exact nextKeeps_next (execOp_keeps _ _ _ (ht _))
  | store _ _ => exact nextKeeps_next (execOp_keeps _ _ _ (ht _))
  | reduce _ _ => exact nextKeeps_next (execOp_keeps _ _ _ (ht _))
  | axpy _ _ => exact nextKeeps_next (execOp_keeps _ _ _ (ht _))
  | gemm _ _ => exact nextKeeps_next (execOp_keeps _ _ _ (ht _))
  | gemv _ _ => exact nextKeeps_next (execOp_keeps _ _ _ (ht _))
  | topk _ _ => exact nextKeeps_next (execOp_keeps _ _ _ (ht _))
  | gather _ _ => exact nextKeeps_next (execOp_keeps _ _ _ (ht _))
  | scatter _ _ => exact nextKeeps_next (execOp_keeps _ _ _ (ht _))
  | filter _ _ => exact nextKeeps_next (execOp_keeps _ _ _ (ht _))
  | scan _ _ => exact nextKeeps_next (execOp_keeps _ _ _ (ht _))
  | quantise _ _ => exact nextKeeps_next (execOp_keeps _ _ _ (ht _))
  | dequantise _ _ => exact nextKeeps_next (execOp_keeps _ _ _ (ht _))
  | compress _ _ => exact nextKeeps_next (execOp_keeps _ _ _ (ht _))
  | expand _ _ => exact nextKeeps_next (execOp_keeps _ _ _ (ht _))
  | screenQuery _ _ => exact nextKeeps_next (screenQuery_keeps _ _ (ht _))
  | turnWait _ _ => exact nextKeeps_next (execOp_keeps _ _ _ (ht _))
  | turnSignal _ _ => exact nextKeeps_next (execOp_keeps _ _ _ (ht _))
  | skip _ _ => exact nextKeeps_next (execOp_keeps _ _ _ (ht _))
  | turnWaitSatisfied _ _ => exact nextKeeps_next (turnSatisfied_keeps _ _ (ht _))
  | turnWaitTimeout _ _ => exact nextKeeps_next (turnTimeout_keeps _ _ (ht _))
  | writeAcknowledged _ _ => exact nextKeeps_next (writeAcknowledged_keeps _ _ (ht _))
  | chainCompletion _ _ => exact nextKeeps_next (retireProgress_keeps _ (chainCompletion_keeps _ _ (ht _)))
  | posterContextReclaim _ _ _ => exact nextKeeps_next ((reclaimPoster_keeps _ _ _).2 (ht _))
  | slotMove _ _ _ => exact nextKeeps_next (slotMoveGroup_keeps _ _ _ (ht _))
  | windowReplay _ _ => exact nextKeeps_next (retireProgress_keeps _ (groupProgress_keeps _ (windowReplay_keeps _ _ (ht _))))
  | xcheckCountdown _ _ => exact nextKeeps_next (checkBegin_keeps _ _ (ht _))
  | xcheckComplete _ _ _ _ => exact nextKeeps_next (checkComplete_keeps _ _ _ _ (ht _))
  | xcheckAbandoned _ _ => exact nextKeeps_next (checkAbandoned_keeps _ _ (ht _))
  | basinClockGate _ _ => exact nextKeeps_next ((clockGate_keeps _ _).2 (ht _))
  | basinPowerGate _ _ => exact nextKeeps_next ((powerGate_keeps _ _).2 (ht _))
  | basinWake _ _ => exact nextKeeps_next (wakeUp_keeps _ _ (ht _))
  | allReduce _ _ => exact nextKeeps_next (contrib_keeps _ _ _ (ht _))
  | reduceScatter _ _ => exact nextKeeps_next (contrib_keeps _ _ _ (ht _))
  | allGather _ _ => exact nextKeeps_next (contrib_keeps _ _ _ (ht _))
  | broadcast _ _ => exact nextKeeps_next (contrib_keeps _ _ _ (ht _))
  | dispatch _ _ => exact nextKeeps_next (contrib_keeps _ _ _ (ht _))
  | combine _ _ => exact nextKeeps_next (contrib_keeps _ _ _ (ht _))
  | barrier _ _ => exact nextKeeps_next (contrib_keeps _ _ _ (ht _))
  | resend _ _ => exact nextKeeps_next (keeps_of_ite (colMessage_keeps _ _ (ht _)) (ht _))
  | blockComplete _ _ _ _ => exact nextKeeps_next (blockComplete_keeps _ _ _ _ (ht _))
  | stallCredit _ _ _ => exact nextKeeps_next (stallCredit_keeps _ _ _ (ht _))
  | operationComplete _ _ _ => exact nextKeeps_next (operationComplete_keeps _ _ _ (ht _))
  | upstreamDone _ _ => exact nextKeeps_next (upstream_keeps _ _ _ _ (fun _ _ hu => upstreamDone_keeps _ _ hu) (ht _))
  | memberRemoval _ _ _ => exact nextKeeps_next (memberRemoval_keeps _ _ _ (ht _))
  | tenantSearch _ _ => exact nextKeeps_next (tenantSearch_keeps _ _ (ht _))
  | screenCommit _ => exact nextKeeps_next (screenCommit_keeps _ (ht _))
  | desiltPass _ _ _ _ _ => exact nextKeeps_next (desiltPass_keeps _ _ _ _ _ (ht _))
  | bankClockGate _ _ => exact nextKeeps_next ((bankGate_keeps _ _).2 (ht _))
  | bankWake _ _ => exact nextKeeps_next (bankWake_keeps _ _ (ht _))
  | bankThrottleChange _ _ _ => exact nextKeeps_next ((bankThrottle_keeps _ _ _).2 (ht _))
  | portFenceDelay _ _ => exact nextKeeps_next (portFenceDelay_keeps _ _ (ht _))
  | peerSilent _ _ _ => exact nextKeeps_next (peerSilent_keeps _ _ _ (ht _))
  | memberSilent _ _ _ => exact nextKeeps_next (memberSilent_keeps _ _ _ (ht _))
  | fenceRetry _ => exact nextKeeps_next (fenceRetry_keeps _ (ht _))
  | fencedRequestCompletion _ _ => exact nextKeeps_next (fencedCompletion_keeps _ _ (ht _))
  | fenceNotice _ => exact nextKeeps_next (fenceNotice_keeps _ (ht _))
  | fenceNoticeRepeat _ => exact nextKeeps_next (noticeRepeat_keeps _ (ht _))
  | halt _ _ => exact nextKeeps_next (halt_keeps _ _ (ht _))
  | shardReadComplete _ _ _ _ => exact nextKeeps_next (detachDone_keeps _ (shardRead_keeps _ _ _ _ ((delOps_keeps _ _).2 (ht _))))
  | partnerLost _ => exact nextKeeps_next (partnerLost_keeps _ (ht _))
  | admission _ => exact nextKeeps_next (admitNow_keeps _ (ht _))
  | dipStart _ _ => exact nextKeeps_next ((dipStart_keeps _ _).2 (ht _))
  | dipRecovery _ _ => exact nextKeeps_next ((dipRecovery_keeps _ _).2 (ht _))
  | clockRestore _ => exact nextKeeps_next ((clockRestore_keeps _).2 (ht _))
  | dipWindowClose _ => exact nextKeeps_next (dipWindowClose_keeps _ (ht _))
  | sustainedDip _ => exact nextKeeps_next (sustainedDip_keeps _ (ht _))
  | lowInput _ _ => exact nextKeeps_next ((lowInput_keeps _ _).2 (ht _))
  | supplyReset _ _ => exact nextKeeps_next (supplyReset_keeps _ _ (ht _))
  | resetRelease _ _ => exact nextKeeps_next ((resetRelease_keeps _ _).2 (ht _))
  | droopStretch _ _ => exact nextKeeps_next ((droopStretch_keeps _ _).2 (ht _))
  | droopInterval _ _ _ => exact nextKeeps_next ((droopInterval_keeps _ _ _).2 (ht _))
  | throttleRaise _ _ => exact nextKeeps_next ((throttleRaise_keeps _ _).2 (ht _))
  | throttleLower _ _ => exact nextKeeps_next ((throttleLower_keeps _ _).2 (ht _))
  | level5 _ _ => exact nextKeeps_next (level5_keeps _ _ (ht _))
  | level5Exit _ _ => exact nextKeeps_next ((level5Exit_keeps _ _).2 (ht _))
  | thermalReset _ _ => exact nextKeeps_next (thermalReset_keeps _ _ (ht _))
  | powerOn _ _ => exact nextKeeps_next (powerOn_keeps _ _ (ht _))
  | beacon _ _ => exact nextKeeps_next ((beacon_keeps _ _).2 (ht _))
  | imageWriteComplete _ => exact nextKeeps_next (imageWritten_keeps _ (ht _))
  | trialEnd _ => exact nextKeeps_next (trialEnd_keeps _ (ht _))
  | trialFailure _ _ => exact nextKeeps_next (trialFailure_keeps _ _ (ht _))
  | settingsWriteComplete _ => exact nextKeeps_next (settingsWritten_keeps _ (ht _))
  | ledgerEvent _ _ => exact nextKeeps_next (ledgerEvent_keeps _ _ (ht _))
  | ledgerFlashWrite _ => exact nextKeeps_next ((ledgerFlashWrite_keeps _).2 (ht _))
  | marginRecord _ _ _ => exact nextKeeps_next (marginRecord_keeps _ _ _ (ht _))
  | testComplete _ _ _ _ _ => exact nextKeeps_next (testComplete_keeps _ _ _ _ _ (ht _))
  | drainWaitExpiry _ _ _ => exact nextKeeps_next (drainWaitExpiry_keeps _ _ _ (ht _))
  | holdOut _ _ _ _ => exact nextKeeps_next (holdOut_keeps _ _ _ _ (ht _))
  | holdOutEnd _ _ _ => exact nextKeeps_next (holdOutEnd_keeps _ _ _ (ht _))
  | capture _ _ _ => exact nextKeeps_next ((capture_keeps _ _ _).2 (ht _))
  | replayComplete _ _ _ _ _ => exact nextKeeps_next (replayComplete_keeps _ _ _ _ _ (ht _))
  | cisQuotaWrite _ _ => exact registerWrite_nextKeeps _ _ _ h
  | responderContextWrite _ _ => exact registerWrite_nextKeeps _ _ _ h
  | alignmentAcquired _ _ => exact nextKeeps_next ((alignmentAcquired_keeps _ _).2 (ht _))
  | remoteFaultSignalChange _ _ _ => exact nextKeeps_next (remoteFaultSignal_keeps _ _ _ (ht _))
  | clockStretchEnd _ _ => exact nextKeeps_next ((stretchEnd_keeps _ _).2 (ht _))
  | slotCopyComplete _ _ _ => exact nextKeeps_next (slotCopied_keeps _ _ _ (ht _))
  | upstreamResult _ _ => exact nextKeeps_next (upstream_keeps _ _ _ _ (fun _ _ hu => upstreamResult_keeps _ _ hu) (ht _))
  | upstreamCredit _ _ => exact nextKeeps_next (upstream_keeps _ _ _ _ (fun _ _ hu => upstreamCredit_keeps _ _ hu) (ht _))
  | formerKeyExpiry _ _ => exact nextKeeps_next (formerKeyExpiry_keeps _ _ (ht _))
  | gaugeSnapshot _ => exact nextKeeps_next (gaugeSnapshot_keeps _ (ht _))
  | tapOperation _ _ => exact nextKeeps_next (tapOperation_keeps _ _ (ht _))

theorem step_nextKeeps (s) : NextKeeps s (step s) := by
  have hs : Keeps s s := ⟨fun h => ⟨h.1, h.2⟩, ⟨le_rfl, le_rfl, le_rfl, le_rfl, le_rfl, le_rfl⟩⟩
  unfold step
  split
  · exact nextKeeps_next ((State.tick_keeps _ _).2 hs)
  · exact exec_nextKeeps _ _ (keeps_mk.2 hs)

end Sys2Proof.Machine
end

section
/-! PROOFS. Every step keeps both byte memories in canonical form and lowers no flash counter (O58, O60). -/

namespace Sys2Proof.Machine

/-- Settles O58: every function of the model that writes a byte memory does so by `Mem.write` and `Mem.writeN`. -/
theorem everyStepKeepsBothMemories : Obligations.EveryStepKeepsBothMemories := by
  intro s s' hs h
  obtain ⟨hpool, hstore⟩ := KeepsAt.mem (step_nextKeeps s s' h) hs
  exact ⟨hpool, hstore⟩

/-- Settles O60: a counter of the flash is written as its successor or as a maximum with its own value alone. -/
theorem flashCountersNeverFall : Obligations.FlashCountersNeverFall := by
  intro s s' h
  obtain ⟨hterm, hboot, hmc, htretu, hsettings, hctr⟩ := KeepsAt.counters (step_nextKeeps s s' h)
  exact ⟨hterm, hboot, hmc, htretu, hsettings, hctr⟩

end Sys2Proof.Machine
end

section
/-! PROOFS. The step and the reset state (O1, O59). -/

namespace Sys2Proof.Machine

theorem idle_eq (s : State) : idle s = { s with now := s.now + 480 } := by
  have h : max s.now (s.now + 480) = s.now + 480 := Nat.max_eq_right (Nat.le_add_right _ _)
  show { s with now := max s.now (s.now + 480) } = _
  rw [h]

/-- Settles O1: both equations of `step`; one cycle of the always-on clock is 480 units of time. -/
theorem stepRunsTheFrontCommand : Obligations.StepRunsTheFrontCommand := by
  intro c rest s
  exact ⟨rfl, congrArg Host.Outcome.next (idle_eq _)⟩

/-- Settles O59: the memories of the reset state list nothing. -/
theorem resetHasBothMemories : Obligations.ResetHasBothMemories := ⟨⟨rfl, rfl⟩, rfl, rfl, rfl⟩

end Sys2Proof.Machine
end

section
/-! RULES. What the counting of a gauge and a record of the ledger leave. -/

namespace Sys2Proof.Machine

section
variable (s : State)

@[simp] theorem State.count_pending (k : GaugeKey) (n : Nat) : (s.count k n).pending = s.pending := rfl
@[simp] theorem State.count_now (k : GaugeKey) (n : Nat) : (s.count k n).now = s.now := rfl
@[simp] theorem State.count_fresh (k : GaugeKey) (n : Nat) : (s.count k n).fresh = s.fresh := rfl
@[simp] theorem State.count_free (k : GaugeKey) (n : Nat) : (s.count k n).free = s.free := rfl
@[simp] theorem State.count_out (k : GaugeKey) (n : Nat) : (s.count k n).out = s.out := rfl
@[simp] theorem State.count_kry (k : GaugeKey) (n : Nat) : (s.count k n).kry = s.kry := rfl
@[simp] theorem State.count_ports (k : GaugeKey) (n : Nat) : (s.count k n).ports = s.ports := rfl
@[simp] theorem State.count_rows (k : GaugeKey) (n : Nat) : (s.count k n).rows = s.rows := rfl
@[simp] theorem State.count_trf (k : GaugeKey) (n : Nat) : (s.count k n).trf = s.trf := rfl
@[simp] theorem State.count_mesh (k : GaugeKey) (n : Nat) : (s.count k n).mesh = s.mesh := rfl
@[simp] theorem State.count_mem (k : GaugeKey) (n : Nat) : (s.count k n).mem = s.mem := rfl
@[simp] theorem State.count_cis (k : GaugeKey) (n : Nat) : (s.count k n).cis = s.cis := rfl
@[simp] theorem State.count_coh (k : GaugeKey) (n : Nat) : (s.count k n).coh = s.coh := rfl
@[simp] theorem State.count_flm (k : GaugeKey) (n : Nat) : (s.count k n).flm = s.flm := rfl
@[simp] theorem State.count_bsn (k : GaugeKey) (n : Nat) : (s.count k n).bsn = s.bsn := rfl
@[simp] theorem State.count_col (k : GaugeKey) (n : Nat) : (s.count k n).col = s.col := rfl
@[simp] theorem State.count_scr (k : GaugeKey) (n : Nat) : (s.count k n).scr = s.scr := rfl
@[simp] theorem State.count_sec (k : GaugeKey) (n : Nat) : (s.count k n).sec = s.sec := rfl
@[simp] theorem State.count_flt (k : GaugeKey) (n : Nat) : (s.count k n).flt = s.flt := rfl
@[simp] theorem State.count_pwr (k : GaugeKey) (n : Nat) : (s.count k n).pwr = s.pwr := rfl
@[simp] theorem State.count_boot (k : GaugeKey) (n : Nat) : (s.count k n).boot = s.boot := rfl
@[simp] theorem State.count_hlt (k : GaugeKey) (n : Nat) : (s.count k n).hlt = s.hlt := rfl

/-- Writes `h` under the field rules of `State.ledger`: a record changes the ledger and its gauges alone. -/
theorem State.ledger_field {α : Type} (g : State → α) (hg : ∀ (u : State) h k, g { u with hlt := h, gauges := k } = g u)
    (type source : Nat) (body : Bytes) : g (s.ledger type source body) = g s := by
  obtain ⟨h, k, e⟩ := s.ledger_eq type source body
  rw [e, hg]

@[simp] theorem State.ledger_pending (type source : Nat) (body : Bytes) : (s.ledger type source body).pending = s.pending :=
  s.ledger_field _ (fun _ _ _ => rfl) ..
@[simp] theorem State.ledger_now (type source : Nat) (body : Bytes) : (s.ledger type source body).now = s.now :=
  s.ledger_field _ (fun _ _ _ => rfl) ..
@[simp] theorem State.ledger_fresh (type source : Nat) (body : Bytes) : (s.ledger type source body).fresh = s.fresh :=
  s.ledger_field _ (fun _ _ _ => rfl) ..
@[simp] theorem State.ledger_free (type source : Nat) (body : Bytes) : (s.ledger type source body).free = s.free :=
  s.ledger_field _ (fun _ _ _ => rfl) ..
@[simp] theorem State.ledger_out (type source : Nat) (body : Bytes) : (s.ledger type source body).out = s.out :=
  s.ledger_field _ (fun _ _ _ => rfl) ..
@[simp] theorem State.ledger_kry (type source : Nat) (body : Bytes) : (s.ledger type source body).kry = s.kry :=
  s.ledger_field _ (fun _ _ _ => rfl) ..
@[simp] theorem State.ledger_ports (type source : Nat) (body : Bytes) : (s.ledger type source body).ports = s.ports :=
  s.ledger_field _ (fun _ _ _ => rfl) ..
@[simp] theorem State.ledger_rows (type source : Nat) (body : Bytes) : (s.ledger type source body).rows = s.rows :=
  s.ledger_field _ (fun _ _ _ => rfl) ..
@[simp] theorem State.ledger_trf (type source : Nat) (body : Bytes) : (s.ledger type source body).trf = s.trf :=
  s.ledger_field _ (fun _ _ _ => rfl) ..
@[simp] theorem State.ledger_mesh (type source : Nat) (body : Bytes) : (s.ledger type source body).mesh = s.mesh :=
  s.ledger_field _ (fun _ _ _ => rfl) ..
@[simp] theorem State.ledger_cis (type source : Nat) (body : Bytes) : (s.ledger type source body).cis = s.cis :=
  s.ledger_field _ (fun _ _ _ => rfl) ..
@[simp] theorem State.ledger_coh (type source : Nat) (body : Bytes) : (s.ledger type source body).coh = s.coh :=
  s.ledger_field _ (fun _ _ _ => rfl) ..
@[simp] theorem State.ledger_flm (type source : Nat) (body : Bytes) : (s.ledger type source body).flm = s.flm :=
  s.ledger_field _ (fun _ _ _ => rfl) ..
@[simp] theorem State.ledger_col (type source : Nat) (body : Bytes) : (s.ledger type source body).col = s.col :=
  s.ledger_field _ (fun _ _ _ => rfl) ..
@[simp] theorem State.ledger_scr (type source : Nat) (body : Bytes) : (s.ledger type source body).scr = s.scr :=
  s.ledger_field _ (fun _ _ _ => rfl) ..
@[simp] theorem State.ledger_sec (type source : Nat) (body : Bytes) : (s.ledger type source body).sec = s.sec :=
  s.ledger_field _ (fun _ _ _ => rfl) ..
@[simp] theorem State.ledger_flt (type source : Nat) (body : Bytes) : (s.ledger type source body).flt = s.flt :=
  s.ledger_field _ (fun _ _ _ => rfl) ..
@[simp] theorem State.ledger_pwr (type source : Nat) (body : Bytes) : (s.ledger type source body).pwr = s.pwr :=
  s.ledger_field _ (fun _ _ _ => rfl) ..
@[simp] theorem State.ledger_boot (type source : Nat) (body : Bytes) : (s.ledger type source body).boot = s.boot :=
  s.ledger_field _ (fun _ _ _ => rfl) ..

@[simp] theorem State.tick_port (t : Time) (p : Nat) : (s.tick t).port p = s.port p := rfl
@[simp] theorem State.tick_portUp (t : Time) (p : Nat) : (s.tick t).portUp p = s.portUp p := rfl
@[simp] theorem State.count_port (k : GaugeKey) (n p : Nat) : (s.count k n).port p = s.port p := rfl

@[simp] theorem State.ledger_port (type source : Nat) (body : Bytes) (p : Nat) : (s.ledger type source body).port p = s.port p :=
  s.ledger_field (State.port · p) (fun _ _ _ => rfl) ..

@[simp] theorem State.port_setPort_self (p : Nat) (q : Port) : (s.setPort p q).port p = q := Tab.getD_set_self ..

theorem State.port_setPort_ne {p n : Nat} (q : Port) (h : n ≠ p) : (s.setPort p q).port n = s.port n :=
  Tab.getD_set_ne _ _ _ (Ne.symm h)

/-- A port is read from the ports alone. -/
theorem State.port_of_ports {s u : State} (h : u.ports = s.ports) (p : Nat) : u.port p = s.port p := by
  rw [State.port, h, State.port]

end

theorem getLsbD_setBit {n : Nat} (x : BitVec n) (i j : Nat) :
    (setBit x i).getLsbD j = (x.getLsbD j || (decide (j < n) && decide (i = j))) := by
  rw [setBit, BitVec.getLsbD_or, BitVec.getLsbD_ofNat, Nat.testBit_two_pow]

theorem getLsbD_clearBit {n : Nat} (x : BitVec n) (i j : Nat) :
    (clearBit x i).getLsbD j = (x.getLsbD j && !decide (i = j)) := by
  rw [clearBit, BitVec.getLsbD_and, BitVec.getLsbD_not, BitVec.getLsbD_ofNat, Nat.testBit_two_pow]
  by_cases hj : j < n
  · simp [hj]
  · simp [BitVec.getLsbD_of_ge _ _ (Nat.not_lt.1 hj)]

theorem getLsbD_setBit_self {n : Nat} (x : BitVec n) {i : Nat} (hi : i < n) : (setBit x i).getLsbD i = true := by
  rw [getLsbD_setBit, decide_eq_true hi, decide_eq_true rfl, Bool.and_self, Bool.or_true]

theorem gaugeVal_gaugeAdd_self (g : List (GaugeKey × Nat)) (k : GaugeKey) (n : Nat) :
    gaugeVal (gaugeAdd g k n) k = (gaugeVal g k + n) % 2 ^ 64 := by
  induction g with
  | nil => simp [gaugeAdd, gaugeVal]
  | cons e r ih =>
    by_cases h : e.1 = k
    · simp [gaugeAdd, gaugeVal, h]
    · simp [gaugeAdd, gaugeVal, h, ih]

theorem gaugeVal_gaugeAdd_ne (g : List (GaugeKey × Nat)) {k j : GaugeKey} (n : Nat) (hj : j ≠ k) :
    gaugeVal (gaugeAdd g k n) j = gaugeVal g j := by
  induction g with
  | nil => simp [gaugeAdd, gaugeVal, Ne.symm hj]
  | cons e r ih =>
    by_cases h : e.1 = k
    · simp [gaugeAdd, gaugeVal, h, Ne.symm hj]
    · simp [gaugeAdd, gaugeVal, h, ih]

/-- Counting some events adds their number, at 64 bits. -/
theorem State.gaugeVal_count_self (s : State) (k : GaugeKey) {n : Nat} (hn : n ≠ 0) :
    gaugeVal (s.count k n).gauges k = (gaugeVal s.gauges k + n) % 2 ^ 64 := by
  rw [State.count, if_neg hn, gaugeVal_gaugeAdd_self]

@[simp] theorem State.gaugeVal_count_ne (s : State) {k j : GaugeKey} (n : Nat) (hj : j ≠ k) :
    gaugeVal (s.count k n).gauges j = gaugeVal s.gauges j := by
  unfold State.count
  split
  · rfl
  · exact gaugeVal_gaugeAdd_ne _ _ hj

end Sys2Proof.Machine
end

section
/-! PROOFS. The forwarding decision (04 R119; O20). -/

namespace Sys2Proof.Machine

section
variable {s : State} {st : BitVec 16} {f : Frame} {e : Bytes} {pre : Option Row}

/-- The L2 table's entry decides step 5 where its action is none of those that leave it to step 6. -/
theorem stepsFive_l2 (hl : lookup s st 1 (toBe 2 (Frame_vid f % 4096) ++ toBe 6 f.dmac ++ zeros 16) = some e) :
    (byteAt e 0 = 0 → stepsFive s st f pre = .go (.port (be e 2 2) {})) ∧
    (byteAt e 0 = 1 → (Tab.get? s.sw.trees (be e 2 2)).isSome = true → stepsFive s st f pre = .go (.tree (be e 2 2))) ∧
    (byteAt e 0 = 2 → stepsFive s st f pre = .drop true) ∧ (byteAt e 0 = 3 → stepsFive s st f pre = .go .headworks) := by
  refine ⟨fun ha => ?_, fun ha htree => ?_, fun ha => ?_, fun ha => ?_⟩
  case refine_2 => simp only [stepsFive, hl, ha, htree, if_true]
  all_goals simp only [stepsFive, hl, ha]

variable {i : IpHdr}

/-- Without an L2 entry the L3 table's entry decides step 6. -/
theorem stepsFive_l3 (hip : f.ip = some i)
    (hl2 : lookup s st 1 (toBe 2 (Frame_vid f % 4096) ++ toBe 6 f.dmac ++ zeros 16) = none)
    (hl3 : lookup s st 2 (toBe 2 (vrfOf f) ++ toBe 1 i.dst.af ++ zeros 1 ++ toBe 16 i.dst.val ++ zeros 4) = some e) :
    (byteAt e 0 = 2 → stepsFive s st f pre = .drop false) ∧
    (byteAt e 0 = 0 → stepsFive s st f pre = ttlStep f (viaHop s st (be e 2 2) false)) := by
  constructor
  all_goals
    intro ha
    simp only [stepsFive, hl2, hip, Option.bind_some, hl3, ha]

theorem viaHop_eq {j : Nat} {metered : Bool} {p : Nat} {rw_ : Rewrite} (h : nextHop s st j = some (p, rw_)) :
    viaHop s st j metered = .go (.port p rw_) := by
  rw [viaHop, h]

theorem ttlStep_expired {p : Nat} {rw_ : Rewrite} (hip : f.ip = some i) (hdec : rw_.ttlDec = true) (httl : i.ttl ≤ 1) :
    ttlStep f (.go (.port p rw_)) = .ttl := by
  simp [ttlStep, hip, hdec, httl]

theorem ttlStep_live {p : Nat} {rw_ : Rewrite} (hip : f.ip = some i) (httl : 2 ≤ i.ttl) :
    ttlStep f (.go (.port p rw_)) = .go (.port p rw_) := by
  have h : ¬ i.ttl ≤ 1 := by omega
  simp [ttlStep, hip, h]

variable {x : Entry}

theorem decideFrame_steer_pool (hs : steerOf s st f = some x) (ht : steerTarget x = 0) :
    (decideFrame s st f).fate = .go .pool ∧ (decideFrame s st f).levee = steerLevee x := by
  simp only [decideFrame, hs, ht, Option.elim_some, and_self]

theorem decideFrame_steer_flume (hs : steerOf s st f = some x) (ht : steerTarget x = 1) :
    (decideFrame s st f).fate = .go (.flume (steerQueue x)) := by
  simp only [decideFrame, hs, ht]

end

/-- Settles O20: the tables' entries by their actions, TTL on the L3 route, and the two steering targets inside the device. -/
theorem forwardingFollowsTheTables : Obligations.ForwardingFollowsTheTables := by
  intro s st f e pre
  refine ⟨stepsFive_l2, fun i hip hl2 hl3 => ?_, ?_, ?_⟩
  · obtain ⟨hdrop, hhop⟩ := stepsFive_l3 (pre := pre) hip hl2 hl3
    refine ⟨hdrop, ?_, ?_⟩
    · rintro h p rw_ ha hn rfl hdec httl
      rw [hhop ha, viaHop_eq hn, ttlStep_expired hip hdec httl]
    · rintro h p rw_ ha hn rfl httl
      rw [hhop ha, viaHop_eq hn, ttlStep_live hip httl]
  · rintro x _ hs ht rfl
    exact decideFrame_steer_pool hs ht
  · rintro x _ hs ht rfl
    exact decideFrame_steer_flume hs ht

end Sys2Proof.Machine
end

section
/-! PROOFS. Pinned slots pass to survivors and return (04 R138, R139; O22). -/

namespace Sys2Proof.Machine



/-! ### Slots dealt to the survivors -/

theorem length_dealSlots (live : List Nat) (j : Nat) (slots : List Nat) (k : Nat) :
    (dealSlots live j slots k).length = slots.length := by
  induction slots generalizing k with
  | nil => rfl
  | cons x r ih =>
    unfold dealSlots
    split <;> simp [ih]

/-- A slot that member `j` does not hold keeps its member. -/
theorem getD_dealSlots_of_ne {live slots : List Nat} {i j k : Nat} (h : slots.getD i 0 ≠ j) :
    (dealSlots live j slots k).getD i 0 = slots.getD i 0 := by
  induction slots generalizing i k with
  | nil => rfl
  | cons x r ih =>
    unfold dealSlots
    cases i with
    | zero => rw [if_neg (show x ≠ j from h), List.getD_cons_zero, List.getD_cons_zero]
    | succ i => split <;> exact ih h

/-- A slot that member `j` holds passes to a survivor. -/
theorem getD_dealSlots_of_eq {live slots : List Nat} {i j k : Nat} (hlive : live ≠ []) (hi : i < slots.length)
    (h : slots.getD i 0 = j) : (dealSlots live j slots k).getD i 0 ∈ live := by
  induction slots generalizing i k with
  | nil => simp at hi
  | cons x r ih =>
    unfold dealSlots
    cases i with
    | zero =>
      have hk : k % live.length < live.length := Nat.mod_lt _ (List.length_pos_iff.2 hlive)
      rw [if_pos (show x = j from h), List.getD_cons_zero, List.getD_eq_getElem _ _ hk]
      exact List.getElem_mem hk
    | succ i => split <;> exact ih (Nat.lt_of_succ_lt_succ hi) h

section
variable {live js l : List Nat} {i : Nat}

theorem getD_deal_of_not_mem (h : l.getD i 0 ∉ js) :
    (js.foldl (fun l j => dealSlots live j l 0) l).getD i 0 = l.getD i 0 := by
  induction js generalizing l with
  | nil => rfl
  | cons j js ih =>
    obtain ⟨hne, hmem⟩ := not_or.1 (mt List.mem_cons.2 h)
    have hstep : (dealSlots live j l 0).getD i 0 = l.getD i 0 := getD_dealSlots_of_ne hne
    rw [List.foldl_cons, ih (hstep ▸ hmem), hstep]

/-- Members that hold no slot of a survivor pass every slot they hold to the survivors. -/
theorem getD_deal_of_mem (hlive : live ≠ []) (hout : ∀ j ∈ js, j ∉ live) (hi : i < l.length) (h : l.getD i 0 ∈ js) :
    (js.foldl (fun l j => dealSlots live j l 0) l).getD i 0 ∈ live := by
  induction js generalizing l with
  | nil => simp at h
  | cons j js ih =>
    rw [List.foldl_cons]
    by_cases hj : l.getD i 0 = j
    · have hstep := getD_dealSlots_of_eq (k := 0) hlive hi hj
      rw [getD_deal_of_not_mem fun hm => hout _ (List.mem_cons_of_mem _ hm) hstep]
      exact hstep
    · refine ih (fun a ha => hout a (List.mem_cons_of_mem _ ha)) (by rwa [length_dealSlots]) ?_
      rw [getD_dealSlots_of_ne hj]
      exact (List.mem_cons.1 h).resolve_left hj

end

section
variable {port : Nat → Option Nat} {m i : Nat} {lost slots : List Nat}

theorem mem_survivors {j : Nat} : j ∈ survivors port m lost ↔ j < m ∧ (port j).elim false lost.contains = false := by
  simp [survivors]

theorem getD_passSlots_of_not_lost (h : (port (slots.getD i 0)).elim false lost.contains = false) :
    (passSlots port m lost slots).getD i 0 = slots.getD i 0 := by
  unfold passSlots
  dsimp only
  split
  · rfl
  · refine getD_deal_of_not_mem fun hm => ?_
    rw [List.mem_filter, h] at hm
    exact absurd hm.2 (by decide)

theorem getD_passSlots_mem_survivors (hi : i < slots.length) (hm : slots.getD i 0 < m) (hlive : survivors port m lost ≠ []) :
    (passSlots port m lost slots).getD i 0 ∈ survivors port m lost := by
  cases hl : (port (slots.getD i 0)).elim false lost.contains with
  | false =>
    rw [getD_passSlots_of_not_lost hl]
    exact mem_survivors.2 ⟨hm, hl⟩
  | true =>
    unfold passSlots
    dsimp only
    rw [if_neg (by simpa using hlive)]
    refine getD_deal_of_mem hlive (fun j hj hlj => ?_) hi (List.mem_filter.2 ⟨List.mem_range.2 hm, hl⟩)
    rw [List.mem_filter, (mem_survivors.1 hlj).2] at hj
    exact absurd hj.2 (by decide)

end

/-! ### The ports that are lost -/

theorem lostPorts_snoc (moves : List (Nat × Bool)) (e : Nat × Bool) :
    lostPorts (moves ++ [e]) = if e.2 then e.1 :: lostPorts moves else (lostPorts moves).filter (· != e.1) := by
  simp [lostPorts]

/-- The moves are forgotten once no port is lost, which leaves no port lost. -/
theorem lostPorts_forget (moves : List (Nat × Bool)) :
    lostPorts (if (lostPorts moves).isEmpty then [] else moves) = lostPorts moves := by
  split
  · exact (List.isEmpty_iff.1 ‹_›).symm
  · rfl

/-- Settles O22: the two rows by their guards; a slot passes on exactly where its member's port is lost. -/
theorem pinnedSlotsFailOverAndReturn : Obligations.PinnedSlotsFailOverAndReturn := by
  intro t p s u
  refine ⟨?failover, ?restore, ?early, ?keeps, ?passes, ?returns, ?home⟩
  case failover =>
    intro hdown hlost
    show Host.Outcome.next (pinFailover p u) = _
    rw [pinFailover, if_pos (by simpa [u] using ⟨hdown, hlost⟩)]
  case restore =>
    intro hup hsince hlost
    refine ⟨_, rfl, ?_⟩
    have hg : (u.portUp p && decide ((u.port p).since + sec 1 ≤ u.now) && (lostPorts u.sw.moves).contains p) = true := by
      rw [show u.portUp p = true from hup, decide_eq_true (show (u.port p).since + sec 1 ≤ u.now from hsince)]
      simpa [u] using hlost
    rw [show pinRestore p u = _ from if_pos hg]
    refine ⟨fun q => ?_, rfl⟩
    rw [lostPorts_forget, lostPorts_snoc]
    simp [u]
  case early =>
    intro _ hearly
    show Host.Outcome.next (pinRestore p u) = _
    have hg : decide ((u.port p).since + sec 1 ≤ u.now) = false := decide_eq_false (Nat.not_le.2 hearly)
    rw [pinRestore, hg, Bool.and_false, Bool.false_and, if_neg Bool.false_ne_true]
  case keeps =>
    intro port m a i _ hp hl
    refine getD_passSlots_of_not_lost ?_
    cases h : port (a.1.getD i 0) with
    | none => rfl
    | some k => simp_all
  case passes => exact fun port m a i hi hm hlive => getD_passSlots_mem_survivors hi hm hlive
  case returns =>
    intro port m a i hi hp
    have hhome : ((List.range a.1.length).map fun i => if port (i % m) = some p then i % m else a.1.getD i 0).getD i 0 = i % m := by
      simp [List.getD_eq_getElem?_getD, hi, hp]
    refine (getD_passSlots_of_not_lost ?_).trans hhome
    rw [hhome, hp]
    simp
  case home =>
    intro port m i hi
    have hj : ((List.range 256).map (· % m)).getD i 0 = i % m := by simp [List.getD_eq_getElem?_getD, hi]
    simp only [slotMember, pinMap, List.foldl_nil, hj]
    cases port (i % m) <;> rfl

end Sys2Proof.Machine
end

section
/-! PROOFS. A port trains step by step (03 R92–R95, Table PRT-3; O12). -/

namespace Sys2Proof.Machine

/-! ### Rows of Table PRT-3 in one cycle -/

section
variable {p rank : Nat} {f : State → State} {s : State}

/-- A row no lower than the one that governs the cycle does nothing (R95). -/
theorem linkRow_governed {c : LinkRow} (hc : Tab.get? s.rows p = some c) (hat : c.at_ = s.now) (hr : rank ≤ c.rank) :
    linkRow p rank f s = s := by
  have hcur : (Tab.get? s.rows p).filter (fun c => c.at_ == s.now) = some c := by simp [hc, Option.filter, hat]
  simp only [linkRow, hcur, Option.elim_some, decide_eq_true hr, if_true]

theorem State.freshCycle.filter_none (h : s.freshCycle p) :
    (Tab.get? s.rows p).filter (fun c => c.at_ == s.now) = none := by
  cases hc : Tab.get? s.rows p with
  | none => rfl
  | some c => simp [Option.filter, h c hc]

/-- The first row of a cycle that changes the port governs it. -/
theorem linkRow_fresh (h : s.freshCycle p) (hne : (f s).port p ≠ s.port p) : linkRow p rank f s = (f s).ruled s p rank := by
  simp [linkRow, h.filter_none, hne, State.ruled]

/-- A row that leaves the port as it is leaves the state. -/
theorem linkRow_unchanged (h : s.freshCycle p) (he : f s = s) : linkRow p rank f s = s := by
  simp [linkRow, h.filter_none, he]

end

@[simp] theorem State.ruled_port (t s : State) (p rank n : Nat) : (t.ruled s p rank).port n = t.port n := rfl

/-- A row whose port ends in another link state has changed it. -/
theorem port_ne_of_st {q q' : Port} (h : q.st ≠ q'.st) : q ≠ q' := fun e => h (congrArg Port.st e)

/-! ### The rows -/

section
variable {p : Nat} {s : State}

theorem linkNegotiated_eq (hst : (s.port p).st = .negotiate) (hr : (s.port p).retry = false) :
    linkNegotiated p s = s.setPort p { s.port p with st := .train, anDone := true, since := s.now } := by
  simp [linkNegotiated, hst, hr]

theorem trainingComplete_eq (hst : (s.port p).st = .train) (hr : (s.port p).retry = false) :
    trainingComplete p s =
      s.setPort p { s.port p with st := .align, since := s.now, aligned := false, alignedSince := none } := by
  simp [trainingComplete, hst, hr]

theorem trainTimeout_eq (hst : (s.port p).st = .train) (hr : (s.port p).retry = false)
    (hms : (s.port p).since + ms (s.port p).trainMs ≤ s.now) :
    trainTimeout p s = (s.setPort p { s.port p with
      st := (s.port p).restart, lastDown := 5, retry := true, since := s.now, anDone := false }).count (gk 0 0 11 p) 1 := by
  simp [trainTimeout, hst, hr, hms]

variable {a : Time} (ha : (s.port p).alignedSince = some a)
include ha

theorem linkUp_early (h : s.now < a + ms 100) : linkUp p s = s := by
  have hheld : (s.port p).alignedSince.elim false (fun a => decide (a + ms 100 ≤ s.now)) = false := by
    rw [ha, Option.elim_some, decide_eq_false (Nat.not_le.2 h)]
  simp only [linkUp, hheld, Bool.and_false, Bool.false_and, Bool.false_eq_true, if_false]

/-- The port comes UP, its bit of PRT_EVENT is set and its fence delay ends. -/
theorem linkUp_eq (hst : (s.port p).st = .align) (h : a + ms 100 ≤ s.now) (hf : (s.port p).remoteFault = false) (ht : (s.port p).testDown = false) :
    linkUp p s =
      { (s.setPort p { (s.port p).setEvent 3 with st := .up, since := s.now, faultSince := none }).mark (Reg.port p) 3 with
        flt := { s.flt with downSince := Tab.del s.flt.downSince p } } := by
  have hheld : (s.port p).alignedSince.elim false (fun a => decide (a + ms 100 ≤ s.now)) = true := by
    rw [ha, Option.elim_some, decide_eq_true h]
  simp only [linkUp, hst, hheld, hf, ht, beq_self_eq_true, Bool.and_true, Bool.not_false, if_true]
  rfl

end

/-- Settles O12: each row's guard opens its step, which changes the port, so the row governs the cycle. -/
theorem linkTrainsStepByStep : Obligations.LinkTrainsStepByStep := by
  intro t p s u q
  refine ⟨fun f rank c hc hat hr => linkRow_governed hc hat hr, ?retry, ?acquired, fun hfresh => ⟨?negotiated, ?complete, ?timeout, ?up, ?early⟩⟩
  case retry =>
    intro hr hsince
    have hg : (q.retry && decide (q.since + sec 1 ≤ u.now)) = true := by rw [hr, decide_eq_true hsince]; rfl
    exact congrArg Host.Outcome.next (if_pos hg)
  case acquired =>
    intro hst hal
    have hg : (q.st == .align && !q.aligned) = true := by rw [hst, hal]; rfl
    exact congrArg Host.Outcome.next (if_pos hg)
  case negotiated =>
    intro hst hr
    have he : linkNegotiated p u = _ := linkNegotiated_eq (s := u) hst hr
    refine congrArg Host.Outcome.next ((linkRow_fresh hfresh ?_).trans (by rw [he]; rfl))
    rw [he, State.port_setPort_self]
    exact port_ne_of_st fun e => LinkState.noConfusion (e.trans hst)
  case complete =>
    intro hst hr
    have he : trainingComplete p u = _ := trainingComplete_eq (s := u) hst hr
    refine congrArg Host.Outcome.next ((linkRow_fresh hfresh ?_).trans (by rw [he]; rfl))
    rw [he, State.port_setPort_self]
    exact port_ne_of_st fun e => LinkState.noConfusion (e.trans hst)
  case timeout =>
    intro hst hr hms
    have he : trainTimeout p u = _ := trainTimeout_eq (s := u) hst hr hms
    have hport : (trainTimeout p u).port p =
        { q with st := q.restart, lastDown := 5, retry := true, since := u.now, anDone := false } := by
      rw [he]; exact State.port_setPort_self ..
    have hrow : linkRow p 4 (trainTimeout p) u = (trainTimeout p u).ruled u p 4 := linkRow_fresh hfresh (by
      rw [hport]
      exact fun e => Bool.noConfusion ((congrArg Port.retry e).trans hr))
    refine ⟨_, congrArg Host.Outcome.next hrow, hport, ?_⟩
    show gaugeVal (trainTimeout p u).gauges _ = _ ∧ _
    rw [he]
    exact ⟨State.gaugeVal_count_self _ _ Nat.one_ne_zero, fun n hn => State.port_setPort_ne _ _ hn, rfl, rfl⟩
  case up =>
    intro a hst ha hle hf ht
    have he : linkUp p u = _ := linkUp_eq (s := u) ha hst hle hf ht
    have hport : (linkUp p u).port p = { q.setEvent 3 with st := .up, since := u.now, faultSince := none } := by
      rw [he]; exact State.port_setPort_self ..
    have hrow : linkRow p 5 (linkUp p) u = (linkUp p u).ruled u p 5 := linkRow_fresh hfresh (by
      rw [hport]
      exact port_ne_of_st fun e => LinkState.noConfusion (e.trans hst))
    refine ⟨_, congrArg Host.Outcome.next hrow, ?_⟩
    rw [State.ruled_port, hport]
    refine ⟨rfl, rfl, getLsbD_setBit_self _ (by decide), rfl, ?_⟩
    rw [he]
    exact ⟨(Tab.get?_del ..).trans (if_pos rfl), fun n hn => State.port_setPort_ne _ _ hn, rfl, rfl, rfl⟩
  case early =>
    exact fun a _ ha hlt => congrArg Host.Outcome.next (linkRow_unchanged hfresh (linkUp_early (s := u) ha hlt))

end Sys2Proof.Machine
end

section
/-! PROOFS. Leaving UP: losses, damping, remote fault and degraded FEC (03 R95–R98, R112, R114; O13, O14). -/

namespace Sys2Proof.Machine

/-! ### A port going down -/

section
variable (p : Nat) (pick : Tx → Bool) (s : State)

@[simp] theorem countTx_ports (cls bytes : Nat) : (countTx p cls bytes s).ports = s.ports := rfl

theorem cutTx_ports (a : State × List Tx) (x : Tx) : (cutTx p a x).1.ports = a.1.ports := by
  unfold cutTx
  split
  · rfl
  · dsimp only
    split <;> rfl

@[simp] theorem truncateTx_ports : (truncateTx p pick s).ports = s.ports := by
  have hfold (l : List Tx) (a : State × List Tx) :
      (l.foldl (fun a x => if pick x then cutTx p a x else (a.1, a.2 ++ [x])) a).1.ports = a.1.ports := by
    induction l generalizing a with
    | nil => rfl
    | cons x l ih =>
      rw [List.foldl_cons, ih]
      split
      · exact cutTx_ports ..
      · rfl
  unfold truncateTx
  dsimp only
  split
  · exact hfold ..
  · exact hfold ..

theorem truncateTx_idle (h : Tab.get? s.sw.txing p = none) : truncateTx p pick s = s := by
  simp [truncateTx, Tab.getD, h]

@[simp] theorem markStale_ports : (markStale p s).ports = s.ports := rfl

theorem unledger_ports (type source : Nat) : (s.unledger type source).ports = s.ports := by
  unfold State.unledger
  split <;> rfl

theorem unledger_now (type source : Nat) : (s.unledger type source).now = s.now := by
  unfold State.unledger
  split <;> rfl

end

section
variable {p reason : Nat} {next : LinkState} {s : State}

/-- The port as it is once it has gone down. -/
theorem portDown_port :
    (portDown p reason next s).port p = { (s.port p).down s.now reason next with pfcWait := [] } := by
  unfold portDown
  extract_lets q _ q' s1 s2 s3 s4 s5
  have h1 : s1.port p = q' := State.port_setPort_self ..
  split
  · have h2 : s2.port p = q' := h1
    have h3 : s3.port p = q' := by
      unfold s3
      split
      · exact h2
      · exact h2
    have h5 : s5.port p = q' := by
      rw [State.ledger_port, State.port_of_ports ((markStale_ports ..).trans (truncateTx_ports ..)), h3]
    clear_value s5
    split
    · exact h5
    · exact h5
  · exact h1

/-- A port that is UP and goes down with nothing on its wire: what else changes. -/
theorem portDown_up (hst : (s.port p).st = .up) (hp : p < 512) (ht : (s.port p).testDown = false)
    (hwire : Tab.get? s.sw.txing p = none) :
    let v := portDown p reason next s
    Tab.get? v.flt.downSince p = some s.now ∧ (∀ n, n ≠ p → v.port n = s.port n) ∧ v.sw = (markStale p s).sw ∧
      v.mem = s.mem ∧ v.flt.fences = s.flt.fences ∧ v.out = s.out := by
  intro v
  have hv : v = portDown p reason next s := rfl
  unfold portDown at hv
  extract_lets q _ q' s1 s2 s3 s4 s5 at hv
  rw [if_pos (show (q.st == .up) = true by rw [hst]; rfl), if_pos ⟨hp, by rw [ht]; rfl⟩] at hv
  have h3 : s3.ports = s1.ports ∧ s3.sw = s.sw ∧ s3.mem = s.mem ∧ s3.flt = s.flt ∧ s3.out = s.out := by
    unfold s3
    split
    · exact ⟨rfl, rfl, rfl, rfl, rfl⟩
    · exact ⟨rfl, rfl, rfl, rfl, rfl⟩
  obtain ⟨hports, hsw, hmem, hflt, hout⟩ := h3
  have h4 : s4 = markStale p s3 := by
    unfold s4
    rw [truncateTx_idle _ _ _ (by rw [hsw]; exact hwire)]
  have h5 : s5.flt = s.flt ∧ (∀ n, n ≠ p → s5.port n = s.port n) ∧ s5.sw = (markStale p s).sw ∧ s5.mem = s.mem ∧
      s5.out = s.out := by
    unfold s5
    rw [State.ledger_flt, State.ledger_sw, State.ledger_mem, State.ledger_out, h4]
    refine ⟨hflt, fun n hn => ?_, ?_, hmem, hout⟩
    · rw [State.ledger_port, State.port_of_ports ((markStale_ports ..).trans hports)]
      exact State.port_setPort_ne _ _ hn
    · rw [markStale, hsw]
      rfl
  obtain ⟨h5flt, h5port, h5sw, h5mem, h5out⟩ := h5
  have hfences : s5.flt.fences = s.flt.fences := congrArg Faults.fences h5flt
  clear_value s5
  rw [hv]
  exact ⟨Tab.get?_set_self .., h5port, h5sw, h5mem, hfences, h5out⟩

end

/-! ### The port's own record of leaving UP -/

section
variable {q : Port} {now : Time} {reason : Nat} {next : LinkState}

@[simp] theorem Port.down_lastDown : (q.down now reason next).lastDown = reason := by
  unfold Port.down
  dsimp only
  split
  · split <;> rfl
  · rfl

variable (hst : q.st = .up)
include hst

theorem Port.down_downCount : (q.down now reason next).downCount = q.downCount + 1 := by
  unfold Port.down
  rw [hst, if_pos (by rfl)]
  dsimp only
  split <;> rfl

/-- The fifth counting departure within 60 s damps the port (R97). -/
theorem Port.down_damped (hr : reason ≠ 6) (hn : 5 ≤ (q.outsNow now reason).length) :
    (q.down now reason next).st = .damped ∧ (q.down now reason next).dampUntil = now + sec q.dampS ∧
      (q.down now reason next).dampS = min 64 (2 * q.dampS) ∧ (q.down now reason next).event.getLsbD 5 = true ∧
      (q.down now reason next).outs = [] := by
  unfold Port.down
  rw [hst, if_pos (by rfl), if_pos ⟨hr, hn⟩]
  exact ⟨rfl, rfl, rfl, getLsbD_setBit_self _ (by decide), rfl⟩

theorem Port.down_undamped (h : reason = 6 ∨ (q.outsNow now reason).length < 5) :
    (q.down now reason next).st = next ∧ (q.down now reason next).aligned = false ∧ (q.down now reason next).since = now ∧
      (q.down now reason next).event.getLsbD 2 = true := by
  have hn : ¬(reason ≠ 6 ∧ 5 ≤ (q.outsNow now reason).length) := by omega
  unfold Port.down
  rw [hst, if_pos (by rfl), if_neg hn]
  exact ⟨rfl, rfl, rfl, getLsbD_setBit_self _ (by decide)⟩

end

theorem Port.outsNow_eq {q : Port} {now : Time} {reason : Nat} (hr : reason ≠ 6) : q.outsNow now reason = q.outsNow now 1 := by
  simp [Port.outsNow, hr]

/-! ### The losses of Table PRT-3 -/

/-- A port that its own departure row has left is another port. -/
theorem portDown_port_ne {p reason : Nat} {next : LinkState} {s : State} (hst : (s.port p).st = .up) :
    (portDown p reason next s).port p ≠ s.port p := by
  intro e
  have hc := congrArg Port.downCount (portDown_port.symm.trans e)
  rw [show Port.downCount _ = _ from Port.down_downCount hst] at hc
  revert hc
  generalize (s.port p).downCount = x
  revert x
  decide

/-- What a loss of the statement does to the port and to the rest. -/
def LinkLost (s : State) (p reason : Nat) (now : Time) (v : State) : Prop :=
  (v.port p).st = (if (s.port p).an then .negotiate else .train) ∧ (v.port p).lastDown = reason ∧
    (v.port p).downCount = (s.port p).downCount + 1 ∧ (v.port p).aligned = false ∧ (v.port p).since = now ∧
    (v.port p).event.getLsbD 2 = true ∧ Tab.get? v.flt.downSince p = some now ∧
    (∀ n, n ≠ p → v.port n = s.port n) ∧ v.sw = (markStale p s).sw ∧ v.mem = s.mem ∧ v.flt.fences = s.flt.fences ∧ v.out = s.out

/-- A row that takes an UP port down, alone in its cycle, loses the link with the row's reason. -/
theorem linkRow_lost {p rank reason : Nat} {f : State → State} {s : State} (hfresh : s.freshCycle p)
    (hst : (s.port p).st = .up) (hp : p < 512) (ht : (s.port p).testDown = false) (hr : reason ≠ 6)
    (houts : ((s.port p).outsNow s.now 1).length < 5) (hwire : Tab.get? s.sw.txing p = none)
    (hf : f s = portDown p reason (s.port p).restart s) : LinkLost s p reason s.now (linkRow p rank f s) := by
  have hrow : linkRow p rank f s = (portDown p reason (s.port p).restart s).ruled s p rank := by
    rw [← hf]
    exact linkRow_fresh hfresh (hf ▸ portDown_port_ne hst)
  have hport : (linkRow p rank f s).port p = { (s.port p).down s.now reason (s.port p).restart with pfcWait := [] } := by
    rw [hrow, State.ruled_port, portDown_port]
  obtain ⟨hnext, hal, hsince, hev⟩ := Port.down_undamped (next := (s.port p).restart) hst
    (Or.inr (by rwa [Port.outsNow_eq (now := s.now) hr]))
  unfold LinkLost
  rw [hport]
  refine ⟨hnext, Port.down_lastDown, Port.down_downCount hst, hal, hsince, hev, ?_⟩
  rw [hrow]
  exact portDown_up hst hp ht hwire

/-- A row that overrides a higher one of its cycle starts again from the port as the cycle found it. -/
theorem alignLost_overrides {p : Nat} {s : State} {c : LinkRow} (hc : Tab.get? s.rows p = some c) (hat : c.at_ = s.now)
    (hst : c.was.st = .up) (hr : c.rank < 8) :
    ((linkRow p 8 (alignLost p) s).port p).lastDown = 2 ∧
      ((linkRow p 8 (alignLost p) s).port p).downCount = c.was.downCount + 1 := by
  have hcur : (Tab.get? s.rows p).filter (fun c => c.at_ == s.now) = some c := by simp [hc, Option.filter, hat]
  unfold linkRow
  rw [hcur]
  extract_lets c' was since u1 _ u2 u3 u4 u5
  rw [if_neg (by simpa [c'] using hr)]
  have h4 : u4.port p = c.was := by
    have h3 : u2.port p = c.was := State.port_setPort_self ..
    show u3.port p = _
    unfold u3
    split
    · rw [State.port_of_ports (unledger_ports ..), h3]
    · exact h3
  have h5 : u5 = portDown p 2 (u4.port p).restart u4 := if_pos (by rw [h4, hst]; rfl)
  have hport : u5.port p = { (u4.port p).down u4.now 2 (u4.port p).restart with pfcWait := [] } := by rw [h5, portDown_port]
  have hst4 : (u4.port p).st = .up := by rw [h4]; exact hst
  rw [if_neg (by rw [h5, show was = u4.port p from h4.symm]; exact portDown_port_ne hst4)]
  show (u5.port p).lastDown = _ ∧ (u5.port p).downCount = _
  rw [hport, ← h4]
  exact ⟨Port.down_lastDown, Port.down_downCount hst4⟩

/-- Settles O13: every row of a loss takes the port down by `portDown`, whose record of the port the lemmas above read. -/
theorem linkLossLeavesUpWithItsReason : Obligations.LinkLossLeavesUpWithItsReason := by
  intro t p count a s u q
  refine ⟨fun c hc hat hst hr => ⟨_, rfl, alignLost_overrides (s := u) hc hat hst hr⟩, ?_⟩
  intro hfresh hst hp ht houts hwire lost
  have hlost (rank reason : Nat) (f : State → State) (c : Instr) (he : exec c s = .next (linkRow p rank f u)) (hr : reason ≠ 6)
      (hf : f u = portDown p reason q.restart u) : lost reason c :=
    ⟨_, he, linkRow_lost (s := u) hfresh hst hp ht hr houts hwire hf⟩
  refine ⟨hlost 7 1 _ _ rfl (by decide) (if_pos ?_), hlost 8 2 _ _ rfl (by decide) (if_pos ?_), fun ha hle => ?fault, fun hc => ?fec, fun hc => ?few⟩
  · rw [show (u.port p).st = _ from hst]; rfl
  · rw [show (u.port p).st = _ from hst]; rfl
  case fault =>
    refine hlost 9 3 _ _ rfl (by decide) (if_pos ?_)
    rw [show (u.port p).st = _ from hst, show (u.port p).faultSince = _ from ha, Option.elim_some, decide_eq_true hle]
    rfl
  case fec =>
    refine ⟨_, rfl, linkRow_lost (s := u.count (gk 0 0 9 p) count) hfresh hst hp ht (by decide) houts hwire (if_pos ?_)⟩
    rw [show ((u.count (gk 0 0 9 p) count).port p).st = _ from hst, decide_eq_true hc]
    rfl
  case few =>
    refine congrArg Host.Outcome.next (linkRow_unchanged hfresh (if_neg ?_))
    rw [decide_eq_false (Nat.not_lt.2 hc), Bool.and_false]
    exact Bool.false_ne_true

end Sys2Proof.Machine
end

section
/-! PROOFS. Damping, remote fault and degraded FEC (03 R97, R112, R114; O14). -/

namespace Sys2Proof.Machine

section
variable {p : Nat} {s : State}

theorem dampingElapsed_eq (hst : (s.port p).st = .damped) (h : (s.port p).dampUntil ≤ s.now) :
    dampingElapsed p s = s.setPort p { s.port p with st := (s.port p).restart, since := s.now } := by
  simp only [dampingElapsed, hst, decide_eq_true h, beq_self_eq_true, Bool.and_self, if_true]

theorem dampingElapsed_early (h : s.now < (s.port p).dampUntil) : dampingElapsed p s = s := by
  simp only [dampingElapsed, decide_eq_false (Nat.not_le.2 h), Bool.and_false, Bool.false_eq_true, if_false]

theorem dampingReset_eq (hst : (s.port p).st = .up) (h : (s.port p).since + sec 600 ≤ s.now) :
    dampingReset p s = s.setPort p { s.port p with dampS := 1 } := by
  simp only [dampingReset, hst, decide_eq_true h, beq_self_eq_true, Bool.and_self, if_true]

/-- A damped port does not restart as damped. -/
theorem Port.restart_ne_damped (q : Port) : q.restart ≠ .damped := by
  unfold Port.restart
  split
  · decide
  · decide

theorem correctedCw_bounds {n : Nat} (hn : 0 < n) : 1 ≤ correctedCw s n ∧ correctedCw s n ≤ n := by
  have h := Nat.mod_lt s.peekFree hn
  rw [correctedCw, if_neg hn.ne']
  omega

/-- The symbols and the codewords they lay in are counted, and the port's event is raised. -/
theorem fecDegrade_raises {symbols : Nat} (hst : (s.port p).st = .up) (hd : 0 < (s.port p).degrade)
    (hs : (s.port p).degrade < symbols) :
    fecDegrade p symbols s = ((((s.count (gk 0 0 10 p) symbols).count (gk 0 0 8 p) (correctedCw s symbols)).drawn).portEvent p 4) := by
  simp only [fecDegrade, hst, decide_eq_true hs, bne_iff_ne.2 hd.ne', beq_self_eq_true, Bool.and_self, if_true]

end

/-- Settles O14: the port's own record of a departure, the guards of the two damping rows, and what the two signals note. -/
theorem flapsAreDampedAndSignalsNoted : Obligations.FlapsAreDampedAndSignalsNoted := by
  constructor
  case' left => intro t p s u q; refine ⟨?damps, ?kept, ?elapsed, ?early, ?reset⟩
  case' right => intro t p symbols s u q; refine ⟨?on, ?off, ?realign, ?degrade⟩
  case damps => exact fun _ _ _ hst hr hn => Port.down_damped hst hr hn
  case kept => exact fun _ _ hst => (Port.down_undamped hst (Or.inl rfl)).1
  case elapsed =>
    intro hfresh hst hle
    have he : dampingElapsed p u = _ := dampingElapsed_eq (s := u) hst hle
    refine congrArg Host.Outcome.next ((linkRow_fresh hfresh ?_).trans (by rw [he]; rfl))
    rw [he, State.port_setPort_self]
    refine port_ne_of_st ?_
    rw [show (u.port p).st = _ from hst]
    exact Port.restart_ne_damped _
  case early =>
    exact fun hfresh _ hlt => congrArg Host.Outcome.next (linkRow_unchanged hfresh (dampingElapsed_early (s := u) hlt))
  case reset => exact fun hst hle => congrArg Host.Outcome.next (dampingReset_eq (s := u) hst hle)
  case on =>
    intro hst hf
    show Host.Outcome.next (remoteFaultSignal p true u) = _
    simp only [remoteFaultSignal, show u.port p = q from rfl, hst, hf, if_true, Option.isSome_none, Bool.false_eq_true, if_false]
  case off =>
    intro hst
    show Host.Outcome.next (remoteFaultSignal p false u) = _
    simp only [remoteFaultSignal, show u.port p = q from rfl, hst, Bool.false_eq_true, if_false]
  case realign =>
    intro hst hal hf
    show Host.Outcome.next (remoteFaultSignal p false u) = _
    simp only [remoteFaultSignal, show u.port p = q from rfl, hst, hal, hf, Bool.and_self, Bool.not_false, if_true]
  case degrade =>
    intro hst hd hs
    have hn : 0 < symbols := hd.trans hs
    obtain ⟨hlo, hhi⟩ := correctedCw_bounds (s := u) hn
    refine ⟨_, rfl, ?_⟩
    rw [show fecDegrade p symbols u = _ from fecDegrade_raises (s := u) hst hd hs]
    generalize correctedCw u symbols = cw at hlo hhi
    refine ⟨State.port_setPort_self .., fun n hne => State.port_setPort_ne _ _ hne, ?_, ⟨cw, hlo, hhi, ?_⟩, rfl, rfl⟩
    · exact (State.gaugeVal_count_ne _ _ (by simp [gk])).trans (State.gaugeVal_count_self _ _ hn.ne')
    · exact (State.gaugeVal_count_self _ _ (Nat.one_le_iff_ne_zero.1 hlo)).trans
        (by rw [State.gaugeVal_count_ne _ _ (by simp [gk])]; rfl)

end Sys2Proof.Machine
end

section
/-! PROOFS. Priority flow control (03 R105–R111; O15). -/

namespace Sys2Proof.Machine

/-- What the pauses, the repeats and the shaper marks of a port leave: every other port, the settings of its PFC and all that
is not its PFC. -/
structure PfcKept (p : Nat) (s v : State) : Prop where
  sw : v.sw = s.sw
  mem : v.mem = s.mem
  flt : v.flt = s.flt
  kry : v.kry = s.kry
  now : v.now = s.now
  others : ∀ k, k ≠ p → v.port k = s.port k
  port : ∃ w f, v.port p = { s.port p with pfcWait := w, pfc := f }
  lossless : (v.port p).pfc.lossless = (s.port p).pfc.lossless
  wdMs : (v.port p).pfc.wdMs = (s.port p).pfc.wdMs
  xoff : (v.port p).pfc.xoff = (s.port p).pfc.xoff
  hyst : (v.port p).pfc.hyst = (s.port p).pfc.hyst
  headroom : (v.port p).pfc.headroom = (s.port p).pfc.headroom
  stuck : (v.port p).pfc.stuck = (s.port p).pfc.stuck

section
variable {p : Nat} {s u v : State}

theorem PfcKept.refl : PfcKept p s s :=
  ⟨rfl, rfl, rfl, rfl, rfl, fun _ _ => rfl, ⟨_, _, rfl⟩, rfl, rfl, rfl, rfl, rfl, rfl⟩

theorem PfcKept.trans (h : PfcKept p s u) (k : PfcKept p u v) : PfcKept p s v where
  sw := k.sw.trans h.sw
  mem := k.mem.trans h.mem
  flt := k.flt.trans h.flt
  kry := k.kry.trans h.kry
  now := k.now.trans h.now
  others n hn := (k.others n hn).trans (h.others n hn)
  port := by
    obtain ⟨w, f, hw⟩ := h.port
    obtain ⟨w', f', hw'⟩ := k.port
    exact ⟨w', f', by rw [hw', hw]⟩
  lossless := k.lossless.trans h.lossless
  wdMs := k.wdMs.trans h.wdMs
  xoff := k.xoff.trans h.xoff
  hyst := k.hyst.trans h.hyst
  headroom := k.headroom.trans h.headroom
  stuck := k.stuck.trans h.stuck

/-- A change outside the ports, the switch core, the memories, the faults and the commands keeps the PFC. -/
theorem PfcKept.of_ports (hp : v.ports = s.ports) (hs : v.sw = s.sw) (hm : v.mem = s.mem) (hf : v.flt = s.flt) (hk : v.kry = s.kry)
    (hn : v.now = s.now) : PfcKept p s v := by
  have h := State.port_of_ports hp
  exact ⟨hs, hm, hf, hk, hn, fun k _ => h k, ⟨_, _, h p⟩, by rw [h], by rw [h], by rw [h], by rw [h], by rw [h], by rw [h]⟩

/-- A write of the port's pauses keeps the PFC where it keeps its settings. -/
theorem PfcKept.modPort {w : List (Nat × Nat)} {f : Pfc} (h1 : f.lossless = (s.port p).pfc.lossless)
    (h2 : f.wdMs = (s.port p).pfc.wdMs) (h3 : f.xoff = (s.port p).pfc.xoff) (h4 : f.hyst = (s.port p).pfc.hyst)
    (h5 : f.headroom = (s.port p).pfc.headroom) (h6 : f.stuck = (s.port p).pfc.stuck) :
    PfcKept p s (s.setPort p { s.port p with pfcWait := w, pfc := f }) := by
  have h : (s.setPort p { s.port p with pfcWait := w, pfc := f }).port p = _ := State.port_setPort_self ..
  refine ⟨rfl, rfl, rfl, rfl, rfl, fun k hk => State.port_setPort_ne _ _ hk, ⟨w, f, h⟩, ?_, ?_, ?_, ?_, ?_, ?_⟩
  all_goals rw [h]; assumption

theorem PfcKept.counted (k : GaugeKey) (n : Nat) (h : PfcKept p s u) : PfcKept p s (u.count k n) :=
  h.trans (PfcKept.of_ports rfl rfl rfl rfl rfl rfl)

theorem PfcKept.foldl {α : Type} {f : State → α → State} (l : List α) (hf : ∀ u a, PfcKept p u (f u a)) :
    PfcKept p s (l.foldl f s) :=
  List.foldlRecOn (motive := PfcKept p s) l f PfcKept.refl fun _ hu _ _ => hu.trans (hf _ _)

end

theorem foldl_out {α : Type} {f : State → α → State} (l : List α) (s : State) (hf : ∀ u a, (f u a).out = u.out) :
    (l.foldl f s).out = s.out :=
  List.foldlRecOn (motive := fun u => u.out = s.out) l f rfl fun _ hu _ _ => (hf _ _).trans hu

section
variable (p c : Nat) (s : State)

theorem shapedMark_step (cls : Nat) (u : State) :
    ∃ x g, (if classQueued u p cls then
        (u.count (gk 2 2 0 p cls) (shapedNow u p cls)).modSched p fun x => { x with shaped := Tab.set x.shaped cls u.now }
      else if (Tab.get? (u.schedOf p).shaped cls).isSome then u.modSched p fun x => { x with shaped := Tab.del x.shaped cls }
      else u) = { u with trf := { u.trf with sched := x }, gauges := g } := by
  split
  · exact ⟨_, _, rfl⟩
  · split
    · exact ⟨_, _, rfl⟩
    · exact ⟨_, _, rfl⟩

/-- Counting SHAPED_NS touches the marks of the port's classes and gauges alone. -/
theorem shapedMark_eq : ∃ x g, shapedMark p s = { s with trf := { s.trf with sched := x }, gauges := g } := by
  refine List.foldlRecOn (motive := fun u => ∃ (x : Tab Sched) (g : List (GaugeKey × Nat)), u = { s with trf := { s.trf with sched := x }, gauges := g }) _ _
    ⟨s.trf.sched, s.gauges, rfl⟩ ?_
  rintro u ⟨x, g, rfl⟩ cls _
  obtain ⟨x', g', h⟩ := shapedMark_step p cls { s with trf := { s.trf with sched := x }, gauges := g }
  exact ⟨x', g', h⟩

theorem shapedMark_kept : PfcKept p s (shapedMark p s) := by
  obtain ⟨t, g, h⟩ := shapedMark_eq p s
  rw [h]
  exact PfcKept.of_ports rfl rfl rfl rfl rfl rfl

theorem shapedMark_port (n : Nat) : (shapedMark p s).port n = s.port n := by
  obtain ⟨t, g, h⟩ := shapedMark_eq p s
  rw [h]
  rfl

theorem shapedMark_out : (shapedMark p s).out = s.out := by
  obtain ⟨t, g, h⟩ := shapedMark_eq p s
  rw [h]

variable (at_ : Time)

theorem endPause_kept : PfcKept p s (endPause p c at_ s) := by
  unfold endPause
  dsimp only
  split
  · exact PfcKept.refl
  · exact PfcKept.counted _ _ (PfcKept.modPort rfl rfl rfl rfl rfl rfl)

theorem endPause_out : (endPause p c at_ s).out = s.out := by
  unfold endPause
  dsimp only
  split <;> rfl

theorem pastPauses_kept : PfcKept p s (pastPauses p s) := PfcKept.foldl _ fun _ _ => endPause_kept ..

theorem pastPauses_out : (pastPauses p s).out = s.out := foldl_out _ _ fun _ _ => endPause_out ..

/-- An ended pause holds its class no more. -/
theorem endPause_ends {e : Time} (h : Tab.get? (s.port p).pfc.pausedUntil c = some e) :
    Tab.get? ((endPause p c at_ s).port p).pfc.pausedUntil c = none ∧
      Tab.get? ((endPause p c at_ s).port p).pfc.pausedSince c = none := by
  simp only [endPause, h]
  rw [State.count_port, State.modPort, State.port_setPort_self]
  exact ⟨(Tab.get?_del ..).trans (if_pos rfl), (Tab.get?_del ..).trans (if_pos rfl)⟩

end

/-! ### PFC frames sent -/

section
variable {p c quanta : Nat} {s : State}

/-- The instants of the PFC frames sent, once one of `quanta` has been sent for class `c`. -/
def Pfc.sentNow (f : Pfc) (c quanta : Nat) (now : Time) : Pfc :=
  { f with sent := if quanta = 0 then Tab.del f.sent c else Tab.set f.sent c now }

theorem sendPfc_idle (hup : s.portUp p = true) (hw : Tab.getD s.sw.txing p [] = []) :
    sendPfc p c quanta s = (pfcNow p c quanta s).modPort p fun q => { q with pfc := q.pfc.sentNow c quanta s.now } := by
  simp only [sendPfc, hup, hw, Bool.not_true, Bool.false_eq_true, if_false, List.isEmpty_nil, if_true]
  rfl

theorem sendPfc_busy (hup : s.portUp p = true) (hw : Tab.getD s.sw.txing p [] ≠ []) :
    sendPfc p c quanta s =
      (s.modPort p fun q => { q with pfcWait := q.pfcWait ++ [(c, quanta)] }).modPort p fun q =>
        { q with pfc := q.pfc.sentNow c quanta s.now } := by
  have he : (Tab.getD s.sw.txing p []).isEmpty = false := by simpa using hw
  simp only [sendPfc, hup, he, Bool.not_true, Bool.false_eq_true, if_false]
  rfl

/-- A PFC frame of an UP port leaves at once on a free wire, and else waits; its instant is kept either way (R107). -/
theorem sendPfc_up (hup : s.portUp p = true) :
    let v := sendPfc p c quanta s
    (Tab.getD s.sw.txing p [] = [] → v.out = s.out ++ [.pfc p (s.portMac p) c quanta] ∧ (v.port p).pfcWait = (s.port p).pfcWait) ∧
      (Tab.getD s.sw.txing p [] ≠ [] → v.out = s.out ∧ (v.port p).pfcWait = (s.port p).pfcWait ++ [(c, quanta)]) ∧
      (v.port p).pfc = (s.port p).pfc.sentNow c quanta s.now ∧ v.sw = s.sw := by
  intro v
  by_cases hw : Tab.getD s.sw.txing p [] = []
  · have hport : v.port p = { s.port p with pfc := (s.port p).pfc.sentNow c quanta s.now } := by
      rw [show v = _ from sendPfc_idle hup hw]
      exact State.port_setPort_self ..
    have hv : v = _ := sendPfc_idle hup hw
    refine ⟨fun _ => ⟨by rw [hv]; rfl, by rw [hport]⟩, fun h => absurd hw h, by rw [hport], by rw [hv]; rfl⟩
  · have hv : v = _ := sendPfc_busy hup hw
    have hport : v.port p =
        { s.port p with pfcWait := (s.port p).pfcWait ++ [(c, quanta)], pfc := (s.port p).pfc.sentNow c quanta s.now } := by
      rw [hv, State.modPort, State.port_setPort_self, State.modPort, State.port_setPort_self]
    exact ⟨fun h => absurd h hw, fun _ => ⟨by rw [hv]; rfl, by rw [hport]⟩, by rw [hport], by rw [hv]; rfl⟩

theorem sendPfc_kept : PfcKept p s (sendPfc p c quanta s) := by
  have hsent (u : State) : PfcKept p u (u.modPort p fun q => { q with pfc := { q.pfc with
      sent := if quanta = 0 then Tab.del q.pfc.sent c else Tab.set q.pfc.sent c u.now } }) :=
    PfcKept.modPort rfl rfl rfl rfl rfl rfl
  unfold sendPfc
  dsimp only
  refine PfcKept.trans ?_ (hsent _)
  split
  · exact PfcKept.refl
  · split
    · exact PfcKept.of_ports rfl rfl rfl rfl rfl rfl
    · exact PfcKept.modPort rfl rfl rfl rfl rfl rfl

theorem pfcXoff_kept : PfcKept p s (pfcXoff p c s) := by
  unfold pfcXoff
  dsimp only
  split
  · exact sendPfc_kept
  · exact PfcKept.refl

end

/-! ### PFC frames received -/

section
variable {p c n : Nat} {s : State}

/-- Of a PFC frame that enables one class, that class alone is taken in. -/
theorem foldl_enable_one (hc : c < 8) (f : State → Nat → State) :
    (List.range 8).foldl (fun s k => if (BitVec.ofNat 8 (2 ^ c)).getLsbD k then f s k else s) s = f s c := by
  have hbit (k : Nat) (hk : k < 8) : (BitVec.ofNat 8 (2 ^ c)).getLsbD k = decide (c = k) := by
    rw [BitVec.getLsbD_ofNat, Nat.testBit_two_pow, decide_eq_true hk, Bool.true_and]
  have hrange : List.range 8 = [0, 1, 2, 3, 4, 5, 6, 7] := rfl
  rw [hrange]
  simp only [List.foldl_cons, List.foldl_nil, hbit 0 (by decide), hbit 1 (by decide), hbit 2 (by decide), hbit 3 (by decide),
    hbit 4 (by decide), hbit 5 (by decide), hbit 6 (by decide), hbit 7 (by decide), decide_eq_true_eq]
  interval_cases c <;> rfl

/-- A pausing frame holds a lossless class that is not STUCK for its time. -/
theorem pfcReceiveClass_pauses (hl : (s.port p).pfc.lossless.getLsbD c = true) (hs : (s.port p).pfc.stuck.getLsbD c = false)
    (hn : 0 < n) :
    let v := pfcReceiveClass p c n s
    Tab.get? (v.port p).pfc.pausedUntil c = some (s.now + quantaTicks n (s.port p).lanes) ∧
      Tab.get? (v.port p).pfc.lastPause c = some s.now ∧ (v.port p).pfc.lossless = (s.port p).pfc.lossless ∧
      (v.port p).pfc.stuck = (s.port p).pfc.stuck ∧ v.sw = s.sw ∧ v.out = s.out := by
  intro v
  have hv : v = pfcReceiveClass p c n s := rfl
  rw [pfcReceiveClass, Port.lossless, hl] at hv
  simp only [Bool.not_true, Bool.false_eq_true, if_false, hs, ne_eq, hn.ne', not_false_eq_true, if_true] at hv
  rw [hv, State.modPort, State.port_setPort_self, State.modPort, State.port_setPort_self]
  exact ⟨Tab.get?_set_self .., Tab.get?_set_self .., rfl, rfl, rfl, rfl⟩

end

/-! ### PFC_SET -/

section
variable {r : KReq} {s : State}

/-- The port as PFC_SET first leaves it. -/
def pfcSetPort (r : KReq) (s : State) : Port :=
  { s.port (be (par r) 0 2) with pfc := { (s.port (be (par r) 0 2)).pfc with
    lossless := BitVec.ofNat 8 (byteAt (par r) 2), wdMs := be (par r) 4 2, xoff := be (par r) 8 4, hyst := be (par r) 12 2,
    headroom := be (par r) 14 2 } }

/-- What PFC_SET makes of the port's pauses once its settings stand. -/
def pfcSetRest (n : Nat) (ll : BitVec 8) (gone : List Nat) (now : Time) (s1 : State) : State :=
  let s2 := gone.foldl (fun s c => sendPfc n c 0 s) s1
  let s2 := ((List.range 8).filter fun c => !ll.getLsbD c).foldl (fun s c => endPause n c s.now s) (pastPauses n s2)
  let s3 := s2.modPort n fun q => { q with pfc := { q.pfc with
    stuck := 0, pausedSince := q.pfc.pausedSince.map (fun e => (e.1, now)), ended := [] } }
  (List.range 8).foldl (fun s c => pfcXoff n c s) s3

theorem byteAt_lt (b : Bytes) (i : Nat) : byteAt b i < 256 := (b.getD i 0).isLt

/-- PFC_SET keeps the settings written and clears STUCK (R111). -/
theorem pfcSetRest_kept (n : Nat) (ll : BitVec 8) (gone : List Nat) (now : Time) (s1 : State) :
    let w := pfcSetRest n ll gone now s1
    ((w.port n).pfc.lossless = (s1.port n).pfc.lossless ∧ (w.port n).pfc.wdMs = (s1.port n).pfc.wdMs ∧
      (w.port n).pfc.xoff = (s1.port n).pfc.xoff ∧ (w.port n).pfc.hyst = (s1.port n).pfc.hyst ∧
      (w.port n).pfc.headroom = (s1.port n).pfc.headroom ∧ (w.port n).pfc.stuck = 0) ∧
    (∀ k, k ≠ n → w.port k = s1.port k) ∧ w.sw = s1.sw ∧ w.mem = s1.mem ∧ w.flt = s1.flt ∧ w.kry = s1.kry := by
  unfold pfcSetRest
  extract_lets s2 s2' s3 w
  have h2 : PfcKept n s1 s2' :=
    ((PfcKept.foldl _ fun _ _ => sendPfc_kept).trans (pastPauses_kept n s2)).trans (PfcKept.foldl _ fun _ _ => endPause_kept ..)
  have h3 : s3.port n = { s2'.port n with pfc := { (s2'.port n).pfc with
      stuck := 0, pausedSince := (s2'.port n).pfc.pausedSince.map (fun e => (e.1, now)), ended := [] } } :=
    State.port_setPort_self ..
  have hw : PfcKept n s3 w := PfcKept.foldl _ fun _ _ => pfcXoff_kept
  rw [hw.lossless, hw.wdMs, hw.xoff, hw.hyst, hw.headroom, hw.stuck, h3]
  refine ⟨⟨h2.lossless, h2.wdMs, h2.xoff, h2.hyst, h2.headroom, rfl⟩, fun k hk => ?_, hw.sw.trans h2.sw, hw.mem.trans h2.mem,
    hw.flt.trans h2.flt, hw.kry.trans h2.kry⟩
  rw [hw.others k hk, ← h2.others k hk]
  exact State.port_setPort_ne _ _ hk

/-- The reserve a port's settings take: headroom for each lossless class. -/
theorem pfcSetPort_reserve : (pfcSetPort r s).pfc.headroom * (pfcSetPort r s).losslessCount =
    be (par r) 14 2 * popcount 8 (byteAt (par r) 2) := by
  have h : (BitVec.ofNat 8 (byteAt (par r) 2)).toNat = byteAt (par r) 2 := by
    rw [BitVec.toNat_ofNat, Nat.mod_eq_of_lt (byteAt_lt ..)]
  simp only [pfcSetPort, Port.losslessCount, h]

theorem bodyPfcSet_done (hlen : plen r = 16) (hn : be (par r) 0 2 ≤ 511) (hport : s.portExists (be (par r) 0 2) = true)
    (hll : popcount 8 (byteAt (par r) 2) ≤ 4) (hwd : 1 ≤ be (par r) 4 2) (hwd' : be (par r) 4 2 ≤ 1000)
    (hx : 8 ≤ be (par r) 8 4) (hx' : be (par r) 8 4 ≤ 65535) (hh : 1 ≤ be (par r) 12 2) (hh' : be (par r) 12 2 ≤ be (par r) 8 4)
    (hroom : be (par r) 14 2 * popcount 8 (byteAt (par r) 2) -
      (s.port (be (par r) 0 2)).pfc.headroom * (s.port (be (par r) 0 2)).losslessCount ≤ s.rsvFree (portDie (be (par r) 0 2))) :
    ∃ gone, bodyPfcSet r s = done (pfcSetRest (be (par r) 0 2) (BitVec.ofNat 8 (byteAt (par r) 2)) gone s.now
      ((shapedMark (be (par r) 0 2) s).setPort (be (par r) 0 2) (pfcSetPort r s))) := by
  have hll' : popcount 8 (BitVec.ofNat 8 (byteAt (par r) 2)).toNat ≤ 4 := by
    rwa [BitVec.toNat_ofNat, Nat.mod_eq_of_lt (byteAt_lt ..)]
  refine ⟨(List.range 8).filter fun c => !(BitVec.ofNat 8 (byteAt (par r) 2)).getLsbD c &&
    (Tab.get? (s.port (be (par r) 0 2)).pfc.sent c).isSome, ?_⟩
  have hres := pfcSetPort_reserve (r := r) (s := s)
  unfold bodyPfcSet
  dsimp only
  rw [State.port_setPort_self, checks_pass]
  · rfl
  intro c hc
  simp only [List.mem_cons, List.not_mem_nil, or_false] at hc
  rcases hc with rfl | rfl | rfl | rfl
  · simp [hlen]
  · simp [hport, Nat.mod_eq_of_lt (byteAt_lt ..)]
    omega
  · simp
    omega
  · refine decide_eq_false (Nat.not_lt.2 ?_)
    show (pfcSetPort r s).pfc.headroom * (pfcSetPort r s).losslessCount - _ ≤ _
    rw [hres]
    exact hroom

end

/-! ### The watchdog and the recovery -/

section
variable {p c : Nat} {a e : Time} {u : State}

/-- A pause that has lasted the watchdog's time makes its class STUCK, with its event (R113). -/
theorem pfcWatchdog_sticks (hc : c < 8) (huntil : Tab.get? (u.port p).pfc.pausedUntil c = some e) (hle : u.now ≤ e)
    (hsince : Tab.get? (u.port p).pfc.pausedSince c = some a) (hl : (u.port p).pfc.lossless.getLsbD c = true)
    (hs : (u.port p).pfc.stuck.getLsbD c = false) (hwd : a + ms (u.port p).pfc.wdMs ≤ u.now) (now : Time) :
    let v := pfcWatchdog p c u
    (v.port p).pfc.stuck.getLsbD c = true ∧ (v.port p).event.getLsbD (24 + c) = true ∧
      (v.port p).paused c now = false ∧ v.sw = u.sw := by
  have hheld : (u.port p).heldFrom c u.now = some a := by
    rw [Port.heldFrom, huntil, Option.elim_some, decide_eq_true hle]
    exact hsince
  let w := endPause p c u.now (shapedMark p u)
  have hk : PfcKept p u w := (shapedMark_kept p u).trans (endPause_kept ..)
  have hguard : ((u.port p).lossless c && !(u.port p).pfc.stuck.getLsbD c && decide (a + ms (u.port p).pfc.wdMs ≤ u.now)) = true := by
    rw [Port.lossless, hl, hs, decide_eq_true hwd]
    rfl
  have hv : pfcWatchdog p c u = (((w.modPort p fun q => { q with pfc := { q.pfc with stuck := setBit q.pfc.stuck c } }).portEvent p
      (24 + c)).ledger 0x0012 (srcOf 3 p) (recBody [(32, 2, p), (34, 1, c)])) := by
    simp only [pfcWatchdog, hheld, hguard, if_true]
    rfl
  rw [hv]
  dsimp only
  rw [State.ledger_port, State.ledger_sw, State.portEvent, State.mark_sw, State.modPort, State.setPort_sw, State.modPort,
    State.setPort_sw, State.port_of_ports (State.mark_ports ..), State.port_setPort_self, State.port_setPort_self]
  have hst : (setBit (w.port p).pfc.stuck c).getLsbD c = true := getLsbD_setBit_self _ hc
  refine ⟨hst, getLsbD_setBit_self _ (by omega), ?_, hk.sw⟩
  rw [Port.paused, hst, Bool.not_true, Bool.and_false, Bool.false_and]

/-- A class that is not held does not trip the watchdog. -/
theorem pfcWatchdog_idle (huntil : Tab.get? (u.port p).pfc.pausedUntil c = none) (hended : Tab.get? (u.port p).pfc.ended c = none) :
    pfcWatchdog p c u = u := by
  have hheld : (u.port p).heldFrom c u.now = none := by
    rw [Port.heldFrom, huntil, hended]
    rfl
  simp only [pfcWatchdog, hheld]

/-- A STUCK class is lossless again once no pause has come for the watchdog's time (R114). -/
theorem stuckRecovery_recovers (hs : (u.port p).pfc.stuck.getLsbD c = true) (hlast : Tab.get? (u.port p).pfc.lastPause c = some a)
    (hwd : a + ms (u.port p).pfc.wdMs ≤ u.now) :
    let v := stuckRecovery p c u
    (v.port p).pfc.stuck.getLsbD c = false ∧ (v.port p).pfc.lossless = (u.port p).pfc.lossless ∧ v.sw = u.sw ∧ v.out = u.out := by
  have hv : stuckRecovery p c u =
      (shapedMark p u).modPort p fun q => { q with pfc := { q.pfc with stuck := clearBit q.pfc.stuck c } } := if_pos (by
    rw [hs, hlast, Option.elim_some, decide_eq_true hwd]
    rfl)
  have hbit (x : BitVec 8) : (clearBit x c).getLsbD c = false := by
    rw [getLsbD_clearBit, decide_eq_true rfl, Bool.not_true, Bool.and_false]
  rw [hv]
  dsimp only
  rw [State.modPort, State.port_setPort_self, State.setPort_sw, State.setPort_out, shapedMark_port]
  exact ⟨hbit _, rfl, (shapedMark_kept p u).sw, shapedMark_out p u⟩

/-- At its end a pause is gone, and its class is not held (R111). -/
theorem pauseExpiry_ends (huntil : Tab.get? (u.port p).pfc.pausedUntil c = some a) (hle : a ≤ u.now) (now : Time) :
    let v := pauseExpiry p c u
    Tab.get? (v.port p).pfc.pausedUntil c = none ∧ Tab.get? (v.port p).pfc.pausedSince c = none ∧
      (v.port p).paused c now = false ∧ v.sw = u.sw ∧ v.out = u.out := by
  have hv : pauseExpiry p c u = endPause p c a (shapedMark p u) := by
    simp only [pauseExpiry, huntil]
    exact if_pos hle
  have hk : PfcKept p u (endPause p c a (shapedMark p u)) := (shapedMark_kept p u).trans (endPause_kept ..)
  obtain ⟨h1, h2⟩ := endPause_ends p c (shapedMark p u) a (e := a) (by rw [shapedMark_port]; exact huntil)
  rw [hv]
  refine ⟨h1, h2, ?_, hk.sw, ?_⟩
  · rw [Port.paused, h1, Option.elim_none, Bool.and_false]
  · rw [endPause_out, shapedMark_out]

end

section
variable {p c n : Nat} {a : Time} {times : List Nat} {w : State}

/-- A received PFC frame that enables one lossless class alone holds it for its time. -/
theorem pfcReceive_pauses (hc : c < 8) (hup : (w.port p).st = .up) (hl : (w.port p).pfc.lossless.getLsbD c = true)
    (hs : (w.port p).pfc.stuck.getLsbD c = false) (hn : times.getD c 0 = n) (hpos : 0 < n) :
    let v := pfcReceive p (BitVec.ofNat 8 (2 ^ c)) times w
    Tab.get? (v.port p).pfc.pausedUntil c = some (w.now + quantaTicks n (w.port p).lanes) ∧
      (v.port p).paused c w.now = decide (0 < quantaTicks n (w.port p).lanes) ∧
      Tab.get? (v.port p).pfc.lastPause c = some w.now ∧ v.sw = w.sw ∧ v.out = w.out := by
  have hk : PfcKept p w (pastPauses p (shapedMark p w)) := (shapedMark_kept p w).trans (pastPauses_kept ..)
  have hv : pfcReceive p (BitVec.ofNat 8 (2 ^ c)) times w = pfcReceiveClass p c n (pastPauses p (shapedMark p w)) := by
    rw [pfcReceive, if_pos (by simp [State.portUp, hup]), foldl_enable_one hc fun s c => pfcReceiveClass p c (times.getD c 0) s, hn]
  obtain ⟨w', f, hport⟩ := hk.port
  have hlanes : ((pastPauses p (shapedMark p w)).port p).lanes = (w.port p).lanes := by
    rw [hport]
    rfl
  obtain ⟨huntil, hlast, hless, hstuck, hsw, hout⟩ := pfcReceiveClass_pauses (s := pastPauses p (shapedMark p w))
    (by rw [hk.lossless]; exact hl) (by rw [hk.stuck]; exact hs) hpos
  rw [hk.now, hlanes] at huntil
  rw [hk.now] at hlast
  rw [hv]
  refine ⟨huntil, ?_, hlast, hsw.trans hk.sw, ?_⟩
  · rw [Port.paused, Port.lossless, hless, hstuck, hk.lossless, hk.stuck, huntil, Option.elim_some, hl, hs]
    simp
  · rw [hout, pastPauses_out, shapedMark_out]

theorem pfcXon_sends (hsent : Tab.get? (w.port p).pfc.sent c = some a)
    (hcount : w.pfcCount p c ≤ (w.port p).pfc.xoff - (w.port p).pfc.hyst) : pfcXon p c w = sendPfc p c 0 w := if_pos (by
  rw [hsent, Option.isSome_some, Bool.true_and]
  exact decide_eq_true hcount)

theorem pfcRepeat_sends (hsent : Tab.get? (w.port p).pfc.sent c = some a)
    (hcount : (w.port p).pfc.xoff - (w.port p).pfc.hyst ≤ w.pfcCount p c)
    (hlate : a + quantaTicks 0x8000 (w.port p).lanes ≤ w.now) : pfcRepeat p c w = sendPfc p c 0xFFFF w := by
  simp only [pfcRepeat, hsent]
  exact if_pos ⟨hcount, hlate⟩

end

/-- Settles O15: each row by the guard it opens, PFC_SET by the settings that its later pauses and frames keep. -/
theorem pfcIsSetPausesAndRecovers : Obligations.PfcIsSetPausesAndRecovers := by
  constructor
  case' left => intro t p c a s hc u q; refine ⟨?xon, ?repeats, ?receive, ?expiry, ?watchdog, ?idle, ?recovery⟩
  case xon =>
    intro hsent hcount hup
    refine ⟨_, congrArg Host.Outcome.next (pfcXon_sends (w := u) hsent hcount), ?_⟩
    exact sendPfc_up (s := u) (by simp [u, State.portUp, show (s.port p).st = _ from hup])
  case repeats =>
    intro hsent hcount hlate hup
    refine ⟨_, congrArg Host.Outcome.next (pfcRepeat_sends (w := u) hsent hcount hlate), ?_⟩
    exact sendPfc_up (s := u) (by simp [u, State.portUp, show (s.port p).st = _ from hup])
  case receive =>
    intro times n hup hl hs hn hpos
    exact ⟨_, rfl, pfcReceive_pauses (w := (u.count (gk 0 0 0 p) 1).count (gk 0 0 1 p) 64) hc hup hl hs hn hpos⟩
  case expiry => exact fun huntil hle => ⟨_, rfl, pauseExpiry_ends (u := u) huntil hle u.now⟩
  case watchdog => exact fun e huntil hle hsince hl hs hwd => ⟨_, rfl, pfcWatchdog_sticks (u := u) hc huntil hle hsince hl hs hwd u.now⟩
  case idle => exact fun huntil hended => congrArg Host.Outcome.next (pfcWatchdog_idle (u := u) huntil hended)
  case recovery => exact fun hs hlast hwd => ⟨_, rfl, stuckRecovery_recovers (u := u) hs hlast hwd⟩
  case right =>
    intro t r s u p n hb hlen hn hport hll hwd hwd' hx hx' hh hh' hroom
    obtain ⟨gone, hd⟩ := bodyPfcSet_done (r := { r with opcode := 0x0205 }) (s := u) hlen hn hport hll hwd hwd' hx hx' hh hh' hroom
    have hk := shapedMark_kept n u
    let s1 := (shapedMark n u).setPort n (pfcSetPort r u)
    have h1 : s1.port n = pfcSetPort r u := State.port_setPort_self ..
    have hothers1 (k : Nat) (hkn : k ≠ n) : s1.port k = u.port k := (State.port_setPort_ne _ _ hkn).trans (hk.others k hkn)
    have hrest := pfcSetRest_kept n (BitVec.ofNat 8 (byteAt p 2)) gone u.now s1
    change bodyPfcSet _ _ = done (pfcSetRest n (BitVec.ofNat 8 (byteAt p 2)) gone u.now s1) at hd
    generalize pfcSetRest n (BitVec.ofNat 8 (byteAt p 2)) gone u.now s1 = w at hd hrest
    obtain ⟨⟨hl, hw, hxo, hhy, hhd, hst⟩, hothers, hsw, hmem, hflt, hkry⟩ := hrest
    rw [h1] at hl hw hxo hhy hhd
    exact ⟨w, command_answers hb hd, hl, hw, hxo, hhy, hhd, hst, fun k hkn => (hothers k hkn).trans (hothers1 k hkn),
      hsw.trans ((State.setPort_sw ..).trans hk.sw), hmem.trans ((State.setPort_mem ..).trans hk.mem),
      hflt.trans ((State.setPort_flt ..).trans hk.flt), hkry.trans ((State.setPort_kry ..).trans hk.kry)⟩

end Sys2Proof.Machine
end

section
/-! PROOFS. Waiting commands and reassemblies (02 R43, R62–R64). -/

namespace Sys2Proof.Machine

section
variable {w : Waiting} {s : State}

/-- Taking a command out of its queue touches no session. -/
theorem unqueue_sessKey (w : Waiting) (x : Sess) (s : State) : (unqueue w s).sessKey x = s.sessKey x := by
  cases x <;> rfl

/-- A command under its session's key that is no binding begins with its body. -/
theorem beginCommand_runs (hk : w.key = s.sessKey w.req.sess) (hop : w.req.opcode ≠ 0x0B02) (hc : chkBegin w.req s = none) :
    beginCommand w s = finish w.req (bodyOf w.req.opcode w.req s) := by
  have hcur : (w.key == s.sessKey w.req.sess) = true := beq_iff_eq.2 hk
  have hbind : (w.req.opcode == 0x0B02) = false := beq_eq_false_iff_ne.2 hop
  unfold beginCommand
  simp only [hcur, hbind, hc, Bool.false_and, Bool.not_true, Bool.or_false]
  cases w.key <;> rfl

/-- The only command in the queues is taken out of them. -/
theorem unqueue_only (hu : s.kry.urgent = []) (hn : s.kry.normal = [w]) :
    unqueue w s = { s with kry := { s.kry with normal := [] } } := by
  simp [unqueue, hu, hn]

/-- The only waiting command, once it has waited 100 ms, is answered BUSY. -/
theorem waitExpiry_only (hu : s.kry.urgent = []) (hn : s.kry.normal = [w]) (hold : w.arrived + ms 100 ≤ s.now)
    (hk : w.key = s.sessKey w.req.sess) :
    waitExpiry s = letGo w ({ s with kry := { s.kry with normal := [] } }.answer w.req w.key St.busy []) := by
  have hl : (s.kry.urgent ++ s.kry.normal).filter (fun w => decide (w.arrived + ms 100 ≤ s.now)) = [w] := by
    rw [hu, hn, List.nil_append, List.filter_cons, decide_eq_true hold]
    rfl
  have hk' : w.key = (unqueue w s).sessKey w.req.sess := hk.trans (unqueue_sessKey ..).symm
  rw [waitExpiry, hl, List.foldl_cons, List.foldl_nil, ← unqueue_only hu hn]
  exact congrArg (letGo w) (if_pos hk')

/-- The only reassembly of a session, once it is 1 ms old, ends with BAD_LENGTH for the fragment it holds. -/
theorem reasmExpiry_only {x : Sess} {y : Reasm} {q : KReq} (hr : (s.session x).reasm = [y]) (hp : y.parts = [(0, q)])
    (hx : q.sess = x) (hq : q.seqs = []) (hold : y.opened + ms 1 ≤ s.now) :
    reasmExpiry x y.tag s = (s.setSession x { s.session x with reasm := [] }).answer q (s.sessKey x) St.badLength [] := by
  subst hx
  have hkey (v : Session) : (s.setSession q.sess v).sessKey q.sess = s.sessKey q.sess := by cases q.sess <;> rfl
  have hlist : [y].filter (fun z => z.tag != y.tag) = [] := by simp
  have hend : endReasm y [] (setReasm q.sess [] s) =
      (s.setSession q.sess { s.session q.sess with reasm := [] }).answer q (s.sessKey q.sess) St.badLength [] := by
    simp only [endReasm, hp, List.map_cons, List.map_nil, List.append_nil, List.foldl_cons, List.foldl_nil, laterSeq, ite_self, bne_self_eq_false,
      List.filter_cons, List.filter_nil, Bool.false_eq_true, if_false, setReasm, hkey]
    rw [← hq]
  simp only [reasmExpiry, hr, List.find?_cons, beq_self_eq_true, hlist, hend]
  exact if_pos hold

end

/-- Settles O9. -/
theorem waitingCommandsBeginOrExpire : Obligations.WaitingCommandsBeginOrExpire := by
  intro t w s u
  refine ⟨fun hb hw hk hop hc => ?_, fun hu hn hold hk => congrArg _ (waitExpiry_only (s := u) hu hn hold hk),
    fun x y q hr hp hx hq hold => congrArg _ (reasmExpiry_only (s := u) ?_ hp hx hq hold), fun hx => ?_⟩
  · have hbegin : beginCommand w (unqueue w u) = finish w.req (bodyOf w.req.opcode w.req (unqueue w u)) :=
      beginCommand_runs (hk.trans (unqueue_sessKey w _ u).symm) hop hc
    show Host.Outcome.next (commandBegin u) = _
    have hb' : u.canBegin = true := hb
    have hw' : nextWaiting u = some w := hw
    simp only [commandBegin, hb', hw', Bool.not_true, Bool.false_eq_true, if_false, hbegin]
  · exact (congrArg Session.reasm (s.tick_session t x)).trans hr
  · have hb : u.canBegin = false := by
      simp [State.canBegin, u, hx]
    show Host.Outcome.next (commandBegin u) = _
    rw [commandBegin, hb]
    rfl

end Sys2Proof.Machine
end

section
/-! PROOFS. Resets of the controller and its first heartbeat (02 R63, 13 R441–R443). -/

namespace Sys2Proof.Machine

section
variable {cause : Nat} {s : State}

/-- What a reset makes of the controller: not ready, with no heartbeat. -/
def controllerDown (v : State) : State := { v with kry := { v.kry with ready := false, leftReset := v.now, lastBeat := none } }

/-- A reset that interrupts no publication records its cause and ends the controller's readiness. -/
theorem mcReset_of_no_publication (hx : ∀ x g, s.kry.executing = some x → x.work ≠ .publish g) (cause : Nat) :
    mcReset cause s = controllerDown (s.ledger 0x0021 (srcOf 0 0) (recBody [(32, 1, cause)])) := by
  have hkry : (s.ledger 0x0021 (srcOf 0 0) (recBody [(32, 1, cause)])).kry = s.kry := State.ledger_kry ..
  generalize hv : s.ledger 0x0021 (srcOf 0 0) (recBody [(32, 1, cause)]) = v at hkry
  simp only [mcReset, hv, controllerDown]
  refine if_neg fun h => ?_
  rw [hkry] at h
  cases he : s.kry.executing with
  | none =>
    rw [he] at h
    exact Bool.noConfusion h
  | some x =>
    rw [he, Option.elim_some] at h
    split at h
    · next g hg => exact hx x g he hg
    · exact Bool.noConfusion h

theorem controllerReset_of_no_publication (hm : s.boot.mode = .normal)
    (hx : ∀ x g, s.kry.executing = some x → x.work ≠ .publish g) (cause : Nat) :
    controllerReset cause s = controllerDown (s.ledger 0x0021 (srcOf 0 0) (recBody [(32, 1, cause)])) :=
  (if_pos hm).trans (mcReset_of_no_publication hx cause)

/-- A watchdog that is due counts, sets its event and resets the controller (13 R442). -/
theorem watchdogExpiry_due {b : Time} (hm : s.boot.mode = .normal)
    (hx : ∀ x g, s.kry.executing = some x → x.work ≠ .publish g) (hb : s.kry.lastBeat = some b) (hd : b + ms 250 ≤ s.now) :
    let v := watchdogExpiry s
    v.kry.ready = false ∧ v.kry.lastBeat = none ∧ v.sec.wdResets = s.sec.wdResets + 1 ∧ v.sec.event.getLsbD 3 = true ∧
      v.kry.leftReset = s.now ∧ v.mem = s.mem ∧ v.sw = s.sw ∧ v.kry.lease = s.kry.lease := by
  let w : State := { s.secEvent 3 with sec := { (s.secEvent 3).sec with wdResets := s.sec.wdResets + 1 } }
  have hdue : watchdogDue s = true := by
    rw [watchdogDue, hb]
    exact decide_eq_true hd
  have hw : watchdogExpiry s = controllerDown (w.ledger 0x0021 (srcOf 0 0) (recBody [(32, 1, 1)])) := by
    rw [watchdogExpiry, hdue, hm]
    exact mcReset_of_no_publication (s := w) hx 1
  rw [hw]
  dsimp only [controllerDown]
  rw [State.ledger_sec, State.ledger_now, State.ledger_mem, State.ledger_sw, State.ledger_kry]
  exact ⟨rfl, rfl, rfl, getLsbD_setBit_self _ (by decide), rfl, rfl, rfl, rfl⟩

theorem watchdogExpiry_early {b : Time} (hb : s.kry.lastBeat = some b) (hd : s.now < b + ms 250) : watchdogExpiry s = s := by
  have hdue : watchdogDue s = false := by
    rw [watchdogDue, hb]
    exact decide_eq_false (Nat.not_le.2 hd)
  rw [watchdogExpiry, hdue]
  rfl

theorem heartbeat_ready (hr : s.kry.ready = true) : heartbeat s = { s with kry := { s.kry with lastBeat := some s.now } } := by
  simp only [heartbeat, hr, Bool.not_true, Bool.false_and, Bool.false_eq_true, if_false]

/-- The first heartbeat of a controller that owes no reply makes it ready again. -/
theorem heartbeat_first (hr : s.kry.ready = false) (ho : s.kry.owed = []) (ha : s.boot.a.st = .active) (hs : s.boot.slot = 0) :
    heartbeat s = { s with kry := { s.kry with lastBeat := some s.now, ready := true } } := by
  have htrial : (SlotState.active == SlotState.trial) = false := rfl
  simp only [heartbeat, hr, hs, ha, if_true, htrial, Bool.not_false, Bool.and_false, Bool.false_and, Bool.false_eq_true, if_false,
    controllerReady, ho, List.foldl_nil]

end

/-- Settles O8: a reset by what is recorded first, the watchdog by its due time, a heartbeat by whether it is the first. -/
theorem controllerResetsAndReturns : Obligations.ControllerResetsAndReturns := by
  intro t cause s reset hm hx
  refine ⟨fun hc => ?_, ?_, fun b hb hd => ⟨_, rfl, watchdogExpiry_due (s := s.tick t) hm hx hb hd⟩,
    fun b hb hd => congrArg _ (watchdogExpiry_early (s := s.tick t) hb hd), fun hr => ?_, fun hr ho ha hs => ⟨?_, ?_⟩⟩
  · exact congrArg Host.Outcome.next ((if_neg hc).trans (controllerReset_of_no_publication (s := s.tick t) hm hx cause))
  · exact congrArg Host.Outcome.next (controllerReset_of_no_publication (s := s.tick t) hm hx 2)
  · exact congrArg Host.Outcome.next (heartbeat_ready (s := s.tick t) hr)
  · exact congrArg Host.Outcome.next (heartbeat_first (s := s.tick t) hr ho ha hs)
  · refine congrArg Host.Outcome.next ((if_neg ?_).trans (heartbeat_first (s := s.tick t) hr ho ha hs))
    exact fun h => Bool.noConfusion (hr.symm.trans h)

end Sys2Proof.Machine
end

section
/-! PROOFS. Renewal, release and expiry of the lease; autonomous mode (02 R56–R58, 14 R469–R471). -/

namespace Sys2Proof.Machine

section
variable {r : KReq} {s : State}

theorem taken_now (r : KReq) (t : Time) (s : State) : (taken r t s).now = max s.now t := by
  cases hx : r.sess <;> simp only [taken, hx, State.setSession] <;> rfl

theorem bodyLeaseRenew_done (hlen : plen r = 0) :
    bodyLeaseRenew r s = done { s with kry := { s.kry with
      lease := { s.kry.lease with expiry := s.now + ms s.kry.lease.ttlMs }, lastLease := some (r.net, r.port, r.cls) } }
      [toBe 4 s.kry.lease.ttlMs ++ zeros 4] :=
  checks_pass (by simp [hlen])

theorem bodyLeaseRelease_done (hlen : plen r = 0) :
    bodyLeaseRelease r s = { done s with after := fun s => autonomous (admitNow s) } :=
  checks_pass (by simp [hlen])

/-- No admission is made while none is armed or the armed one's counter has not come. -/
theorem admitNow_of_not_due (h : ∀ a, s.flt.armed = some a → admissionDue s a = false) : admitNow s = s := by
  unfold admitNow
  split
  · next a _ ha => simp only [h a ha, Bool.not_false, if_true]
  · rfl

theorem disarm_kept (s : State) :
    (disarm s).kry = s.kry ∧ (disarm s).flt.event = s.flt.event ∧ (disarm s).flt.notices = s.flt.notices ∧
      (disarm s).flt.nseq = s.flt.nseq ∧ (disarm s).mem = s.mem ∧ (disarm s).sw = s.sw := by
  unfold disarm
  split <;> exact ⟨rfl, rfl, rfl, rfl, rfl, rfl⟩

/-- Autonomous mode: the lease's state, its event, one notice, and no other part of the state (14 R469). -/
theorem autonomous_effect (s : State) :
    (autonomous s).kry.lease.st = .autonomous ∧ (autonomous s).flt.event.getLsbD 3 = true ∧
      (autonomous s).flt.notices.length = s.flt.notices.length + 1 ∧ (autonomous s).flt.nseq = s.flt.nseq + 1 ∧
      (autonomous s).kry.lease.key = s.kry.lease.key ∧ (autonomous s).mem = s.mem ∧ (autonomous s).sw = s.sw := by
  let v : State := { s with kry := { s.kry with lease := { s.kry.lease with st := .autonomous } } }
  let w := (stateRecord 2 (v.faultEvent 3)).notify 2 0 (zeros 32)
  have hw : autonomous s = disarm w := rfl
  have hf : (stateRecord 2 (v.faultEvent 3)).flt = (v.faultEvent 3).flt := State.ledger_flt ..
  have hwkry : w.kry = v.kry := State.ledger_kry ..
  have hwmem : w.mem = s.mem := State.ledger_mem ..
  have hwsw : w.sw = s.sw := State.ledger_sw ..
  have hevent : w.flt.event = setBit s.flt.event 3 := congrArg (·.event) hf
  have hnotices : w.flt.notices.length = s.flt.notices.length + 1 := by
    simp only [w, State.notify, hf, List.length_append, List.length_singleton]
    rfl
  have hnseq : w.flt.nseq = s.flt.nseq + 1 := congrArg (·.nseq + 1) hf
  obtain ⟨hk, he, hn, hq, hm, hs⟩ := disarm_kept w
  rw [hw, hk, he, hn, hq, hm, hs, hwkry, hevent, hnotices, hnseq, hwmem, hwsw]
  exact ⟨rfl, getLsbD_setBit_self _ (by decide), rfl, rfl, rfl, rfl, rfl⟩

/-- A reply leaves the turn counters and the lock cycle alone. -/
theorem answer_flm_flt (s : State) (r : KReq) (key : Option Key) (st : Nat) (frags : List Bytes) :
    (s.answer r key st frags).flm = s.flm ∧ (s.answer r key st frags).flt = s.flt := by
  obtain ⟨k, o, g, p, ro, se, he⟩ := s.answer_step r key st frags
  rw [he]
  exact ⟨rfl, rfl⟩

theorem taken_flm_flt (r : KReq) (t : Time) (s : State) : (taken r t s).flm = s.flm ∧ (taken r t s).flt = s.flt := by
  cases hx : r.sess <;> simp only [taken, hx, State.setSession] <;> exact ⟨rfl, rfl⟩

theorem admissionDue_of_flm {u : State} (h : u.flm = s.flm) (a : Armed) : admissionDue u a = admissionDue s a := by
  simp only [admissionDue, State.turn, h]

end

/-- Settles O7: the bodies as they are done, the admission that release and expiry make first being none here. -/
theorem leaseRenewReleaseExpire : Obligations.LeaseRenewReleaseExpire := by
  intro t r s u
  refine ⟨fun ha hq hlen => ?_, fun ha hq hlen hd => ?_, fun hst hexp hd => ?_, fun hexp => ?_, autonomous_effect s⟩
  · refine congrArg Host.Outcome.next ((arriveNow_arrives bodyLeaseRenew ha hq).trans ?_)
    rw [bodyLeaseRenew_done (r := { r with opcode := 0x0111 }) hlen]
  · refine ⟨_, rfl, congrArg Host.Outcome.next ((arriveNow_arrives bodyLeaseRelease ha hq).trans ?_)⟩
    rw [bodyLeaseRelease_done (r := { r with opcode := 0x0112 }) hlen]
    obtain ⟨hm, hf⟩ := answer_flm_flt u { r with opcode := 0x0112 } (u.sessKey r.sess) St.ok []
    obtain ⟨hm', hf'⟩ := taken_flm_flt r t s
    refine congrArg autonomous (admitNow_of_not_due fun a hka => ?_)
    exact (admissionDue_of_flm (hm.trans hm') a).trans (hd a (by rw [← hf', ← hf]; exact hka))
  · refine congrArg Host.Outcome.next ((if_pos ⟨hst, hexp⟩).trans ?_)
    exact congrArg autonomous (admitNow_of_not_due fun a hka => hd a hka)
  · exact congrArg Host.Outcome.next (if_neg fun h => absurd hexp (Nat.not_lt.2 h.2))

end Sys2Proof.Machine
end

section
/-! PROOFS. Register commands that the guard lets through (02 R71, R72, 13 R430). -/

namespace Sys2Proof.Machine

section
variable {r : KReq} {s : State}

/-- Writes that break no queue context and set no debug bit under confidential mode are all made. -/
theorem guardedWrite_done {ws : List (Nat × Nat × Nat)} {frags : List Bytes} (hq : brokenQpc ws (ws.foldl writeReg s) = false)
    (hd : s.confActive = true → ws.any setsDebug = false) : guardedWrite r ws frags s = done (ws.foldl writeReg s) frags := by
  have hdebug : (s.confActive && ws.any setsDebug) = false := by
    cases hc : s.confActive with
    | false => rfl
    | true => rw [hd hc, Bool.and_false]
  simp only [guardedWrite, hq, hdebug, Bool.false_eq_true, if_false]

theorem bodyWriteCsr_done (hlen : plen r = 8 + roundUp (4 * be (par r) 4 2) 8) (hmin : 1 ≤ be (par r) 4 2)
    (hmax : be (par r) 4 2 ≤ 1010) (hrange : badRange (be (par r) 0 4) (be (par r) 4 2) = false)
    (hq : brokenQpc (csrWrites r) ((csrWrites r).foldl writeReg s) = false)
    (hd : s.confActive = true → (csrWrites r).any setsDebug = false) :
    bodyWriteCsr r s = done ((csrWrites r).foldl writeReg s) [] :=
  (checks_pass (by simp [hlen, hmax, hrange, Nat.pos_iff_ne_zero.1 hmin])).trans (guardedWrite_done hq hd)

theorem bodyWriteCsrMasked_done (hlen : plen r = 16) (hrange : badRange (be (par r) 0 4) 1 = false)
    (hq : brokenQpc (csrWrites r) ((csrWrites r).foldl writeReg s) = false)
    (hd : s.confActive = true → (csrWrites r).any setsDebug = false) :
    bodyWriteCsrMasked r s = done ((csrWrites r).foldl writeReg s) [toBe 4 (readReg s (be (par r) 0 4)) ++ zeros 4] :=
  (checks_pass (by simp [hlen, hrange])).trans (guardedWrite_done hq hd)

end

/-- Settles O4: the body's checks pass, the guard lets the writes through, and the two other rows run the same command. -/
theorem registerCommandsWriteInOrder : Obligations.RegisterCommandsWriteInOrder := by
  intro t r s u p writes masked
  refine ⟨fun hb hlen hmin hmax halign hend hq hd => ?_, fun hb hlen halign hend hq hd => ?_⟩
  · have hanswer : exec (.writeCsr t r) s = okReply 0x0103 r (writes.foldl writeReg u) [] :=
      command_answers hb (bodyWriteCsr_done (r := { r with opcode := 0x0103 }) hlen hmin hmax (badRange_eq_false halign hend) hq hd)
    have hrow (hop : r.opcode = 0x0103) : registerWrite t r s = exec (.writeCsr t r) s := by
      rw [registerWrite, if_neg (by rw [hop]; decide)]
      rfl
    exact ⟨hanswer, fun hop => ⟨(hrow hop).trans hanswer, (hrow hop).trans hanswer⟩⟩
  · have hanswer : exec (.writeCsrMasked t r) s = okReply 0x0104 r (writeReg u (be p 0 4, be p 8 4, be p 12 4))
        [toBe 4 (readReg u (be p 0 4)) ++ zeros 4] :=
      command_answers hb (bodyWriteCsrMasked_done (r := { r with opcode := 0x0104 }) hlen (badRange_eq_false halign hend) hq hd)
    have hrow (hop : r.opcode = 0x0104) : registerWrite t r s = exec (.writeCsrMasked t r) s := by
      rw [registerWrite, if_pos hop]
      rfl
    exact ⟨hanswer, fun hop => ⟨hrow hop, hrow hop⟩⟩

end Sys2Proof.Machine
end

section
/-! PROOFS. Registers read back, W1C and RO (00 R6–R9). -/

namespace Sys2Proof.Machine

section
variable {s : State} {mask v i : Nat}

/-! ### Plain registers -/

theorem writeReg_pwrLimit (mask v : Nat) (s : State) :
    writeReg s (0x0A000004, mask, v) = { s with pwr := { s.pwr with limitW := BitVec.ofNat 12 (merged (readPwr s 4) mask v) } } := rfl

theorem writeReg_secDebug (mask v : Nat) (s : State) :
    writeReg s (0x09000004, mask, v) = { s with sec := { s.sec with dbg := BitVec.ofNat 4 (merged (readSec s 4) mask v) } } := rfl

theorem readReg_pwrLimit (s : State) : readReg s 0x0A000004 = s.pwr.limitW.toNat := rfl

theorem readReg_secDebug (s : State) : readReg s 0x09000004 = s.sec.dbg.toNat := rfl

theorem readReg_retire (s : State) : readReg s 0x02000104 = s.sw.retire.toNat := rfl

/-! ### Registers that a write of 1 clears -/

/-- The bits held are those set at this instant for the register. -/
theorem testBit_heldBits (s : State) (a i : Nat) :
    (heldBits s a).testBit i = true ↔ ∃ e ∈ s.fresh, e.1 = s.now ∧ e.2.1 = a ∧ e.2.2 = i := by
  have hfold (l : List (Time × Nat × Nat)) (m : Nat) :
      (l.foldl (fun m e => m ||| 2 ^ e.2.2) m).testBit i = true ↔ m.testBit i = true ∨ ∃ e ∈ l, e.2.2 = i := by
    induction l generalizing m with
    | nil => simp
    | cons e l ih =>
      rw [List.foldl_cons, ih, Nat.testBit_or, Bool.or_eq_true, Nat.testBit_two_pow, decide_eq_true_eq, or_assoc]
      simp only [List.mem_cons, exists_eq_or_imp]
  rw [heldBits, hfold]
  simp only [Nat.zero_testBit, Bool.false_eq_true, false_or, List.mem_filter, Bool.and_eq_true, beq_iff_eq]
  constructor
  · rintro ⟨e, ⟨he, hn, ha⟩, hi⟩
    exact ⟨e, he, hn, ha, hi⟩
  · rintro ⟨e, he, hn, ha, hi⟩
    exact ⟨e, ⟨he, hn, ha⟩, hi⟩

/-- Of a register of `w` bits a write of 1 clears the bits written, but those held. -/
theorem getLsbD_w1c {w : Nat} (old : BitVec w) (held : Nat) (hi : i < w) (hw : i < 32) :
    (w1c old ((mask &&& (0xFFFFFFFF ^^^ held)) &&& v)).getLsbD i =
      (old.getLsbD i && !(mask.testBit i && v.testBit i && !held.testBit i)) := by
  have hone : Nat.testBit 0xFFFFFFFF i = true := by
    rw [show (0xFFFFFFFF : Nat) = 2 ^ 32 - 1 from rfl, Nat.testBit_two_pow_sub_one, decide_eq_true hw]
  rw [w1c, BitVec.getLsbD_and, BitVec.getLsbD_not, BitVec.getLsbD_ofNat, decide_eq_true hi, Nat.testBit_and, Nat.testBit_and,
    Nat.testBit_xor, hone, Bool.true_and, Bool.true_and, Bool.true_xor, Bool.and_right_comm]

end

/-- Settles O5: a merged word keeps the field's bits, a cleared word the bits not written or held. -/
theorem registerWritesFollowTheirAccessCodes : Obligations.RegisterWritesFollowTheirAccessCodes := by
  intro s mask v hv hm
  refine ⟨?_, ?_, ?_, fun i hi => getLsbD_w1c _ _ hi (by omega), fun i hi => getLsbD_w1c _ _ hi (by omega),
    testBit_heldBits s _, rfl, rfl, rfl⟩
  · rw [readReg_pwrLimit, writeReg_pwrLimit, ofNat_merged_full (by decide), BitVec.toNat_ofNat]
  · rw [readReg_retire, writeReg_retire, ofNat_merged_full (by decide), BitVec.toNat_ofNat]
  · rw [readReg_secDebug, writeReg_secDebug, BitVec.toNat_ofNat]
    rfl

end Sys2Proof.Machine
end

section
/-! PROOFS. What a finished command leaves: its reply on its port, and the reply kept (02 R39, R46, R50, R53). -/

namespace Sys2Proof.Machine

/-! ### Sessions -/

section
variable (s : State) (x y : Sess) (v : Session)

theorem session_setSession_ne (h : y ≠ x) : (s.setSession x v).session y = s.session y := by
  cases x <;> cases y
  case levee.levee l m => exact Tab.getD_set_ne _ _ _ fun e => h (congrArg Sess.levee e.symm)
  case lease.lease => exact absurd rfl h
  case preceding.preceding => exact absurd rfl h
  all_goals rfl

/-- Keeping a session changes neither the lease, nor a key, nor what executes. -/
theorem setSession_kry : (s.setSession x v).kry.lease = s.kry.lease ∧ (s.setSession x v).kry.keys = s.kry.keys ∧
    (s.setSession x v).kry.executing = s.kry.executing := by
  cases x <;> exact ⟨rfl, rfl, rfl⟩

end

/-- Replies kept under several SEQUENCEs are found under each. -/
theorem Session.get?_put_head (x : Session) (q : Nat) (qs : List Nat) (rs : List Reply) :
    Tab.get? (x.put (q :: qs) rs).cache q = some rs := by
  have hkeep (l : List Nat) (c : Tab (List Reply)) (hc : Tab.get? c q = some rs) :
      Tab.get? (l.foldl (fun c q => Tab.set c q rs) c) q = some rs := by
    induction l generalizing c with
    | nil => exact hc
    | cons k l ih =>
      refine ih _ ?_
      rw [Tab.get?_set]
      split
      · rfl
      · exact hc
  exact hkeep qs _ (Tab.get?_set_self ..)

/-! ### The packets of a reply -/

theorem replyHeader_length (r : KReq) (status n : Nat) (more : Bool) : (replyHeader r status n more).length = 32 := by
  simp [replyHeader, toBe, zeros]

section
variable {r : KReq} {k : Key} {status : Nat} {fs : List Bytes}

theorem replyPackets_length : (replyPackets r k status fs).length = fs.length := by simp [replyPackets]

theorem replyPackets_getD {i : Nat} (hi : i < fs.length) :
    (replyPackets r k status fs).getD i [] =
      (replyHeader r status (fs.getD i []).length (decide (i + 1 < fs.length)) ++ fs.getD i []) ++
        kryticTag k (replyHeader r status (fs.getD i []).length (decide (i + 1 < fs.length)) ++ fs.getD i []) := by
  simp [replyPackets, List.getD_eq_getElem?_getD, hi]

theorem replyParams_ne_nil (frags : List Bytes) : replyParams r frags ≠ [] := by
  have h : (if frags.isEmpty then [[]] else frags) ≠ [] := by
    cases frags <;> simp
  unfold replyParams
  dsimp only
  split
  · simpa using h
  · simpa using h

end

/-! ### What a control port sends -/

/-- What the frames of a control port change: gauges, ports with their packet numbers, and the instants of event bits. -/
def ControlStep (s t : State) : Prop := ∃ g f p, t = { s with gauges := g, fresh := f, ports := p }

namespace ControlStep

variable {s t u : State}

theorem refl : ControlStep s s := ⟨_, _, _, rfl⟩

theorem trans (h : ControlStep s t) (k : ControlStep t u) : ControlStep s u := by
  obtain ⟨_, _, _, rfl⟩ := h
  obtain ⟨_, _, _, rfl⟩ := k
  exact ⟨_, _, _, rfl⟩

theorem count (h : ControlStep s t) (k : GaugeKey) (n : Nat) : ControlStep s (t.count k n) := h.trans ⟨_, t.fresh, t.ports, rfl⟩

theorem modPort (h : ControlStep s t) (p : Nat) (f : Port → Port) : ControlStep s (t.modPort p f) :=
  h.trans ⟨t.gauges, t.fresh, _, rfl⟩

theorem portEvent (h : ControlStep s t) (p b : Nat) : ControlStep s (t.portEvent p b) := h.trans ⟨t.gauges, _, _, rfl⟩

theorem takePn (h : ControlStep s t) (p : Nat) : ControlStep s (t.takePn p) := by
  have hmaybe {c : Prop} [Decidable c] {w : State} (b : Nat) (hw : ControlStep s w) :
      ControlStep s (if c then w.portEvent p b else w) := by
    split
    · exact hw.portEvent p b
    · exact hw
  unfold State.takePn
  split
  · exact hmaybe 8 (hmaybe 7 (h.modPort p _))
  · exact h

theorem controlSend (h : ControlStep s t) (p n : Nat) : ControlStep s (t.controlSend p n).1 := by
  unfold State.controlSend
  split
  · exact h.count _ 1
  · exact ((h.takePn p).count _ 1).count _ n

end ControlStep

/-- The frames of a reply on a control port, with what became of each. -/
def controlFrames (net : Net) (p : Nat) (fs : List Bytes) (s : State) : State × List Bool :=
  fs.foldl (fun (a : State × List Bool) f =>
    let x := a.1.controlSend p (udFrameLen net (48 + f.length))
    (x.1, a.2 ++ [x.2])) (s, [])

/-- A port that has no transmit association spends no packet number. -/
theorem controlSend_of_no_sa {s : State} {p n : Nat} (h : (s.port p).txSa = none) :
    s.controlSend p n = ((s.count (gk 0 0 2 p) 1).count (gk 0 0 3 p) n, true) := by
  have hspent : (s.port p).pnSpent = false := by rw [Port.pnSpent, h]; rfl
  have htake : s.takePn p = s := by
    unfold State.takePn
    rw [h]
    split
    · contradiction
    · rfl
  simp only [State.controlSend, hspent, htake, Bool.false_eq_true, if_false]

section
variable {rp : Reply} {s : State}

/-- Every frame sent, the reply leaves whole. -/
theorem controlReply_all (h : (controlFrames rp.net rp.port rp.frags s).2.all id = true) :
    s.controlReply rp = (controlFrames rp.net rp.port rp.frags s).1.emit (.krytic rp) := if_pos h

theorem controlFrames_step (net : Net) (p : Nat) (fs : List Bytes) (s : State) : ControlStep s (controlFrames net p fs s).1 := by
  have hfold (l : List Bytes) (a : State × List Bool) (ha : ControlStep s a.1) :
      ControlStep s (l.foldl (fun (a : State × List Bool) f =>
        ((a.1.controlSend p (udFrameLen net (48 + f.length))).1,
          a.2 ++ [(a.1.controlSend p (udFrameLen net (48 + f.length))).2])) a).1 := by
    induction l generalizing a with
    | nil => exact ha
    | cons f l ih => exact ih _ (ha.controlSend ..)
  exact hfold fs (s, []) ControlStep.refl

/-- A reply on a control port leaves whole, in part, or not at all; nothing else follows its frames. -/
theorem controlReply_step : ∃ w o, ControlStep s w ∧ s.controlReply rp = { w with out := o } := by
  have h := controlFrames_step rp.net rp.port rp.frags s
  unfold State.controlReply
  change ∃ w o, _ ∧ (if (controlFrames rp.net rp.port rp.frags s).2.all id then _ else if
    (controlFrames rp.net rp.port rp.frags s).2.any id then _ else (controlFrames rp.net rp.port rp.frags s).1) = _
  split
  · exact ⟨_, _, h, rfl⟩
  · split
    · exact ⟨_, _, h, rfl⟩
    · exact ⟨_, _, h, rfl⟩

/-- On a port without a transmit association every frame is sent and counted. -/
theorem controlFrames_of_no_sa {net : Net} {p : Nat} {fs : List Bytes} (h : (s.port p).txSa = none) :
    (controlFrames net p fs s).2.all id = true ∧ (controlFrames net p fs s).1.ports = s.ports ∧
      (fs ≠ [] → gaugeVal (controlFrames net p fs s).1.gauges (gk 0 0 2 p) = (gaugeVal s.gauges (gk 0 0 2 p) + fs.length) % 2 ^ 64) := by
  have hfold (l : List Bytes) (a : State × List Bool) (hp : a.1.ports = s.ports) (ha : a.2.all id = true) :
      let b := l.foldl (fun (a : State × List Bool) f =>
        ((a.1.controlSend p (udFrameLen net (48 + f.length))).1,
          a.2 ++ [(a.1.controlSend p (udFrameLen net (48 + f.length))).2])) a
      b.2.all id = true ∧ b.1.ports = s.ports ∧
        (l ≠ [] → gaugeVal b.1.gauges (gk 0 0 2 p) = (gaugeVal a.1.gauges (gk 0 0 2 p) + l.length) % 2 ^ 64) := by
    induction l generalizing a with
    | nil => exact ⟨ha, hp, fun hl => absurd rfl hl⟩
    | cons f l ih =>
      have hsend := controlSend_of_no_sa (s := a.1) (p := p) (n := udFrameLen net (48 + f.length))
        (by rw [State.port_of_ports hp]; exact h)
      rw [List.foldl_cons, hsend]
      obtain ⟨h1, h2, h3⟩ := ih (((a.1.count (gk 0 0 2 p) 1).count (gk 0 0 3 p) (udFrameLen net (48 + f.length))), a.2 ++ [true]) hp
        (by rw [List.all_append, ha]; rfl)
      refine ⟨h1, h2, fun _ => ?_⟩
      have hkey : gk 0 0 2 p ≠ gk 0 0 3 p := by simp [gk]
      by_cases hl : l = []
      · subst hl
        rw [List.foldl_nil, State.gaugeVal_count_ne _ _ hkey, State.gaugeVal_count_self _ _ Nat.one_ne_zero]
        rfl
      · rw [h3 hl, State.gaugeVal_count_ne _ _ hkey, State.gaugeVal_count_self _ _ Nat.one_ne_zero, Nat.mod_add_mod, List.length_cons,
          Nat.add_assoc, Nat.add_comm 1]
  exact hfold fs (s, []) rfl rfl

/-- One frame whose port has packet numbers left is sent. -/
theorem controlFrames_one {net : Net} {p : Nat} {fs : List Bytes} (h : (s.port p).pnSpent = false) (hl : fs.length = 1) :
    (controlFrames net p fs s).2.all id = true := by
  obtain ⟨f, rfl⟩ := List.length_eq_one_iff.1 hl
  simp [controlFrames, State.controlSend, h]

/-- A reply on a fabric port leaves as it is; on a control port through `controlReply` (02 R39, 13 R435). -/
theorem sendReply_up (hk : rp.key.isSome = true) (hu : s.portUp rp.port = true) (hh : s.halted = false)
    (hc : s.confidential rp.levee = false) :
    s.sendReply rp = if 512 ≤ rp.port then s.controlReply rp else s.emit (.krytic rp) := by
  simp only [State.sendReply, hk, hu, hh, hc, Bool.false_and, Bool.not_false, Bool.and_true, if_true, Bool.false_eq_true, if_false]

theorem sendReply_down (hu : s.portUp rp.port = false) : s.sendReply rp = s := by
  simp only [State.sendReply, hu, Bool.and_false, Bool.false_and, Bool.false_eq_true, if_false]

theorem sendReply_up_step (hk : rp.key.isSome = true) (hu : s.portUp rp.port = true) (hh : s.halted = false)
    (hc : s.confidential rp.levee = false) : ∃ w o, ControlStep s w ∧ s.sendReply rp = { w with out := o } := by
  rw [sendReply_up hk hu hh hc]
  split
  · exact controlReply_step
  · exact ⟨_, _, ControlStep.refl, rfl⟩

end

section
variable {op : Nat} {r : KReq} {u : State} {frags : List Bytes} {k : Key}

/-- A finished command keeps its reply under its SEQUENCEs and sends it. -/
theorem okReply_answers (hk : u.sessKey r.sess = some k) :
    let rp := mkReply { r with opcode := op } (some k) St.ok frags
    okReply op r u frags =
      .next ((u.setSession r.sess ((u.session r.sess).put (r.seq :: r.seqs) [rp])).sendReply rp) := by
  intro rp
  have hcache : u.cacheReply { r with opcode := op } rp = u.setSession r.sess ((u.session r.sess).put (r.seq :: r.seqs) [rp]) :=
    if_pos (by rw [hk]; rfl)
  rw [← hcache, okReply]
  simp only [finish, done, hk, State.answer]
  rfl

end

/-- Settles O2: the reply kept by the session's table, the reply sent by what its port lets out. -/
theorem repliesLeaveAndAreKept : Obligations.RepliesLeaveAndAreKept := by
  refine ⟨fun op r u frags k hk hu hh hc => ?_, fun op r u frags k hk hu => ?_⟩
  · let rp := mkReply { r with opcode := op } (some k) St.ok frags
    let w := u.setSession r.sess ((u.session r.sess).put (r.seq :: r.seqs) [rp])
    obtain ⟨κ, hw⟩ : ∃ κ, w = { u with kry := κ } := State.setSession_eq ..
    obtain ⟨hlease, hkeys, hexec⟩ := setSession_kry u r.sess ((u.session r.sess).put (r.seq :: r.seqs) [rp])
    have hwu : w.portUp rp.port = true := by rw [hw]; exact hu
    have hwh : w.halted = false := by rw [hw]; exact hh
    have hwc : w.confidential rp.levee = false := by rw [hw]; exact hc
    have hports : w.ports = u.ports := by rw [hw]
    have hgauges : w.gauges = u.gauges := by rw [hw]
    have hout : w.out = u.out := by rw [hw]
    have hport : w.port r.port = u.port r.port := State.port_of_ports hports _
    have hsend := sendReply_up rfl hwu hwh hwc
    obtain ⟨x, o, ⟨g, f, p, hx⟩, hv⟩ := sendReply_up_step rfl hwu hwh hwc
    have hself : w.session r.sess = (u.session r.sess).put (r.seq :: r.seqs) [rp] := State.session_setSession_self ..
    have hv' : w.sendReply rp = { u with out := o, gauges := g, fresh := f, ports := p, kry := w.kry } := by rw [hv, hx, hw]
    have hses (y : Sess) : (w.sendReply rp).session y = w.session y := by rw [hv']; cases y <;> rfl
    refine ⟨_, rp, okReply_answers hk, rfl, rfl, rfl, rfl, rfl, rfl, rfl, replyPackets_length,
      fun i hi => ⟨_, rfl, replyHeader_length .., replyPackets_getD hi⟩, fun hp => ?fabric, fun hp hsa => ?noSa, fun hp hpn hl => ?one,
      ?kept, ?high, fun y hy => ?other, ?rest⟩
    case fabric =>
      rw [hsend, if_neg (show ¬ 512 ≤ rp.port from Nat.not_le.2 hp)]
      exact ⟨congrArg (· ++ _) hout, hgauges, hports⟩
    case noSa =>
      obtain ⟨hall, hpo, hg⟩ := controlFrames_of_no_sa (s := w) (net := rp.net) (p := rp.port) (fs := rp.frags)
        ((congrArg Port.txSa hport).trans hsa)
      obtain ⟨g', f', p', hfr⟩ := controlFrames_step rp.net rp.port rp.frags w
      rw [hsend, if_pos (show 512 ≤ rp.port from hp), controlReply_all hall]
      refine ⟨?_, hpo.trans hports, ?_⟩
      · show (controlFrames rp.net rp.port rp.frags w).1.out ++ _ = _
        rw [hfr, hout]
      · rw [← hgauges]
        exact hg (replyParams_ne_nil _)
    case one =>
      have hall := controlFrames_one (s := w) (net := rp.net) (p := rp.port) (fs := rp.frags)
        ((congrArg Port.pnSpent hport).trans hpn) hl
      obtain ⟨g', f', p', hfr⟩ := controlFrames_step rp.net rp.port rp.frags w
      rw [hsend, if_pos (show 512 ≤ rp.port from hp), controlReply_all hall]
      show (controlFrames rp.net rp.port rp.frags w).1.out ++ _ = _
      rw [hfr, hout]
    case kept => rw [hses, hself, Session.get?_put_head]
    case high => rw [hses, hself]; rfl
    case other => rw [hses]; exact session_setSession_ne u r.sess y _ hy
    case rest =>
      rw [hv']
      exact ⟨hlease, hkeys, hexec, rfl, rfl, rfl, rfl, rfl, rfl, rfl, rfl, rfl, rfl, rfl, rfl, rfl, rfl, rfl⟩
  · let rp := mkReply { r with opcode := op } (some k) St.ok frags
    let w := u.setSession r.sess ((u.session r.sess).put (r.seq :: r.seqs) [rp])
    obtain ⟨κ, hw⟩ : ∃ κ, w = { u with kry := κ } := State.setSession_eq ..
    have hlost : w.sendReply rp = w := sendReply_down (by rw [hw]; exact hu)
    have hself : w.session r.sess = (u.session r.sess).put (r.seq :: r.seqs) [rp] := State.session_setSession_self ..
    refine ⟨w, (okReply_answers hk).trans (congrArg _ hlost), by rw [hw], ?_⟩
    rw [hself, Session.get?_put_head]

end Sys2Proof.Machine
end

section
/-! PROOFS. LEASE_ACQUIRE (02 R55). -/

namespace Sys2Proof.Machine

section
variable {r : KReq} {s : State} {k : Key}

/-- The key a LEASE_ACQUIRE's parameters give (02 R55). -/
def acquireKey (p : Bytes) : Key :=
  Config.kmacKey (Config.lkexDecap (slice p 40 1568)) (ascii "LEASE" ++ slice p 0 4 ++ slice p 8 32 ++ Config.devid) "KRYTIC"

/-- The state in which an attempt at the lease has been counted. -/
def countAcquire (r : KReq) (s : State) : State :=
  { s with kry := { s.kry with
      acquires := Tab.set s.kry.acquires r.port (lastSecond s (Tab.getD s.kry.acquires r.port []) ++ [s.now]) } }

/-- A LEASE_ACQUIRE that passes every check takes over and is answered under the fresh key. -/
theorem leaseAcquire_takes (hp : 512 ≤ r.port) (hm : s.boot.mode ≠ .noIdentity)
    (hrate : (lastSecond s (Tab.getD s.kry.acquires r.port [])).length < 64)
    (hauth : Config.kmac (acquireKey (par r)) (r.hdr ++ par r) 128 "KRYTIC" = r.auth) (hdev : slice (par r) 1608 32 = Config.devid)
    (hsig : Config.falconVerify (operatorKey s) (slice (par r) 0 1640) (slice (par r) 1640 1280) = true) (hv : r.version = 1)
    (hterm : s.boot.termCtr < be (par r) 0 4) (hh : s.halted = false) (hu : r.urgent = false) (hlen : plen r = 2920)
    (hterm' : be (par r) 0 4 = r.term) (hmin : 20 ≤ be (par r) 4 4) (hmax : be (par r) 4 4 ≤ 10000) :
    leaseAcquire r s = (takeover (acquireKey (par r)) r.term (be (par r) 4 4) r (countAcquire r s)).sendReply
      (mkReply r (some (acquireKey (par r))) St.ok [toBe 4 (be (par r) 4 4) ++ zeros 4]) := by
  have h1 : ¬ (r.port < 512 ∨ s.boot.mode = .noIdentity) := fun h => h.elim (Nat.not_lt.2 hp) hm
  have h2 : ¬ 64 ≤ (lastSecond s (Tab.getD s.kry.acquires r.port [])).length := Nat.not_le.2 hrate
  have h4 : ¬ (slice (par r) 1608 32 ≠ Config.devid ∨
      (!Config.falconVerify (operatorKey (countAcquire r s)) (slice (par r) 0 1640) (slice (par r) 1640 1280)) = true) := by
    rw [show operatorKey (countAcquire r s) = operatorKey s from rfl, hsig]
    exact fun h => h.elim (fun h => h hdev) (fun h => Bool.noConfusion h)
  have h5 : ¬ (be (par r) 0 4 ≠ r.term ∨ be (par r) 4 4 < 20 ∨ 10000 < be (par r) 4 4) := fun h =>
    h.elim (fun h => h hterm') fun h => h.elim (Nat.not_lt.2 hmin) (Nat.not_lt.2 hmax)
  have hh' : (countAcquire r s).halted = false := hh
  unfold leaseAcquire
  dsimp only
  refine (if_neg h1).trans ((if_neg h2).trans ((if_neg (not_not.2 hauth)).trans ((if_neg h4).trans ((if_neg (not_not.2 hv)).trans
    ((if_neg (Nat.not_le.2 hterm)).trans ((if_neg ?_).trans ((if_neg ?_).trans ((if_neg (not_not.2 hlen)).trans (if_neg h5)))))))))
  · exact fun h => Bool.noConfusion (hh'.symm.trans h)
  · exact fun h => Bool.noConfusion (hu.symm.trans h)

/-- What an attempt at the lease that fails leaves as it was: the lease, both manager sessions and the boot state. -/
def LeaseKept (s v : State) : Prop :=
  v.kry.lease = s.kry.lease ∧ v.boot = s.boot ∧ v.kry.cur = s.kry.cur ∧ v.kry.prev = s.kry.prev

theorem LeaseKept.sendReply (rp : Reply) {w : State} (h : LeaseKept s w) : LeaseKept s (w.sendReply rp) := by
  obtain ⟨o, g, c, f, p, he⟩ := State.sendReply_step (s := w) rp
  rw [he]
  exact h

theorem LeaseKept.dropAuth {w : State} (h : LeaseKept s w) : LeaseKept s w.dropAuth := by
  obtain ⟨h1, h2, h3, h4⟩ := h
  exact ⟨h1, h2, h3, h4⟩

/-- A TERM that is not above the counter takes nothing over (02 R55 step 5). -/
theorem leaseAcquire_stale (hterm : be (par r) 0 4 ≤ s.boot.termCtr) : LeaseKept s (leaseAcquire r s) := by
  have hs : LeaseKept s s := ⟨rfl, rfl, rfl, rfl⟩
  have hc : LeaseKept s (countAcquire r s) := ⟨rfl, rfl, rfl, rfl⟩
  unfold leaseAcquire
  dsimp only
  split
  · exact hs.dropAuth
  split
  · exact hs
  split
  · exact hc.dropAuth
  split
  · exact hc.dropAuth
  split
  · exact hc.sendReply _
  · exact hc.sendReply _

theorem replyParams_singleton_length (b : Bytes) : (replyParams r [b]).length = 1 := by
  unfold replyParams
  dsimp only
  split <;> rfl

end

/-- Settles O6: an acquisition that passes every check by what `takeover` makes and its reply leaves; a stale TERM by the two
replies and the drops it can come to. -/
theorem leaseAcquireTakesOverByARisingTerm : Obligations.LeaseAcquireTakesOverByARisingTerm := by
  refine ⟨fun t r s => ?_, fun t r s v hl hterm he => ?_⟩
  · intro u p k hl hp hm hrate hauth hdev hsig hv hterm hh hc hu hlen hterm' hmin hmax hup
    let q : KReq := { r with opcode := 0x0110 }
    let w := takeover k r.term (be p 4 4) q (countAcquire q u)
    let rp := mkReply q (some k) St.ok [toBe 4 (be p 4 4) ++ zeros 4]
    have hrow : acquire r u = w.sendReply rp :=
      (if_pos hl).trans (leaseAcquire_takes (r := q) (s := u) hp hm hrate hauth hdev hsig hv hterm hh hu hlen hterm' hmin hmax)
    have hwc : w.confidential rp.levee = false := (congrArg u.confidential hl).trans hc
    have hsend := sendReply_up (rp := rp) (s := w) rfl hup hh hwc
    obtain ⟨x, o, ⟨g, f, po, hx⟩, hstep⟩ := sendReply_up_step (rp := rp) (s := w) rfl hup hh hwc
    have hv' : w.sendReply rp = { w with out := o, gauges := g, fresh := f, ports := po } := by rw [hstep, hx]
    refine ⟨_, congrArg Host.Outcome.next hrow, ?_⟩
    have hout (hpn : (s.port r.port).pnSpent = false) : (w.sendReply rp).out = s.out ++ [.krytic rp] := by
      have hall := controlFrames_one (s := w) (net := rp.net) (p := rp.port) (fs := rp.frags) hpn (replyParams_singleton_length (r := q) _)
      obtain ⟨g', f', p', hfr⟩ := controlFrames_step rp.net rp.port rp.frags w
      rw [hsend, if_pos (show 512 ≤ rp.port from hp), controlReply_all hall]
      show (controlFrames rp.net rp.port rp.frags w).1.out ++ _ = _
      rw [hfr]
      rfl
    have hports (hsa : (s.port r.port).txSa = none) : (w.sendReply rp).ports = s.ports := by
      obtain ⟨hall, hpo, -⟩ := controlFrames_of_no_sa (s := w) (net := rp.net) (p := rp.port) (fs := rp.frags) hsa
      rw [hsend, if_pos (show 512 ≤ rp.port from hp), controlReply_all hall]
      exact hpo
    have hkry : (w.sendReply rp).kry = w.kry := by rw [hv']
    have hboot : (w.sendReply rp).boot = w.boot := by rw [hv']
    rw [hkry, hboot]
    refine ⟨rfl, rfl, rfl, rfl, rfl, rfl, rfl, rfl, hout, hports, ?_⟩
    rw [hv']
    exact ⟨rfl, rfl, rfl, rfl, rfl, rfl, rfl, rfl, rfl, rfl, rfl, rfl, rfl⟩
  · have hv : acquire r (s.tick t) = v := by injection he
    have h := leaseAcquire_stale (r := { r with opcode := 0x0110 }) (s := s.tick t) hterm
    rw [← hv, acquire, if_pos hl]
    exact h

end Sys2Proof.Machine
end

section
/-! PROOFS. Meters, pre-colour and shapers (05 R170–R178). -/

namespace Sys2Proof.Machine

section
variable {r : KReq} {s : State}

/-! ### Meters -/

/-- The meter a METER_SET describes, its buckets full where it is enabled (R171). -/
def meterOf (p : Bytes) (now : Time) : Meter :=
  { enable := bitOf (byteAt p 3) 0, aware := bitOf (byteAt p 3) 1, yellowAct := byteAt p 4, redAct := byteAt p 5,
    yellowDscp := byteAt p 6, redDscp := byteAt p 7, cir := be p 8 4, pir := be p 12 4, cbs := be p 16 4, pbs := be p 20 4,
    tc := if bitOf (byteAt p 3) 0 then be p 16 4 * byteTokens else 0,
    tp := if bitOf (byteAt p 3) 0 then be p 20 4 * byteTokens else 0, last := now }

/-- The dies a METER_SET names. -/
def meterDies (p : Bytes) : List Nat := if byteAt p 2 = 2 then [0, 1] else [byteAt p 2]

theorem bodyMeterSet_done (hlen : plen r = 24) (hn : be (par r) 0 2 ≤ 8191) (hdie : byteAt (par r) 2 ≤ 2) (hy : byteAt (par r) 4 ≤ 2)
    (hr : byteAt (par r) 5 ≤ 1) (hyd : byteAt (par r) 6 ≤ 63) (hrd : byteAt (par r) 7 ≤ 63) (hcir : 1 ≤ be (par r) 8 4)
    (hpir : be (par r) 8 4 ≤ be (par r) 12 4) (hpir' : be (par r) 12 4 ≤ 512000000) (hcbs : 9216 ≤ be (par r) 16 4)
    (hcbs' : be (par r) 16 4 ≤ 268435456) (hpbs : 9216 ≤ be (par r) 20 4) (hpbs' : be (par r) 20 4 ≤ 268435456) :
    bodyMeterSet r s = done { s with trf := { s.trf with
      meters := (meterDies (par r)).foldl (fun t d => Tab.set t (meterKey d (be (par r) 0 2)) (meterOf (par r) s.now)) s.trf.meters } } :=
  checks_pass (by simp [hlen]; omega)

/-- A meter stored on every die named is found on each of them. -/
theorem get?_meterDies {p : Bytes} {d n : Nat} (m : Meter) (t : Tab Meter) (hd : d < 2) (h : byteAt p 2 = d ∨ byteAt p 2 = 2) :
    Tab.get? ((meterDies p).foldl (fun t d => Tab.set t (meterKey d n) m) t) (meterKey d n) = some m := by
  rw [meterDies]
  split
  · rw [List.foldl_cons, List.foldl_cons, List.foldl_nil]
    obtain rfl | rfl : d = 0 ∨ d = 1 := by omega
    · rw [Tab.get?_set_ne _ _ (by simp [meterKey]), Tab.get?_set_self]
    · rw [Tab.get?_set_self]
  · next hne =>
    rw [List.foldl_cons, List.foldl_nil, h.resolve_right hne, Tab.get?_set_self]

/-- Colour by the two buckets: red where the peak one does not hold the frame, yellow where the committed one does not (R172). -/
theorem Meter.colour_cases (m : Meter) (pre b : Nat) :
    let need := b * byteTokens
    let isRed := m.tp < need ∨ m.aware = true ∧ pre = 2
    let isYellow := m.tc < need ∨ m.aware = true ∧ pre = 1
    (isRed → m.colour pre b = (2, m)) ∧
    (¬isRed → isYellow → m.colour pre b = (1, { m with tp := m.tp - need })) ∧
    (¬isRed → ¬isYellow → m.colour pre b = (0, { m with tp := m.tp - need, tc := m.tc - need })) := by
  intro need isRed isYellow
  have hred : (((m.aware && pre == Col.red) || decide (m.tp < need)) = true) ↔ isRed := by
    simp only [isRed, Bool.or_eq_true, Bool.and_eq_true, beq_iff_eq, decide_eq_true_eq, Col.red]
    exact or_comm
  have hyellow : (((m.aware && pre == Col.yellow) || decide (m.tc < need)) = true) ↔ isYellow := by
    simp only [isYellow, Bool.or_eq_true, Bool.and_eq_true, beq_iff_eq, decide_eq_true_eq, Col.yellow]
    exact or_comm
  refine ⟨fun h => if_pos (hred.2 h), fun h hy => ?_, fun h hy => ?_⟩
  · exact (if_neg (fun e => h (hred.1 e))).trans (if_pos (hyellow.2 hy))
  · exact (if_neg (fun e => h (hred.1 e))).trans (if_neg (fun e => hy (hyellow.1 e)))

/-! ### Pre-colour and shapers -/

/-- The pre-colour a PRECOLOUR_SET describes. -/
def precolourOf (p : Bytes) : Precolour := { source := byteAt p 2, dscpMap := slice p 4 16, deiMap := byteAt p 20 }

theorem bodyPrecolourSet_done (hlen : plen r = 24) (hn : be (par r) 0 2 ≤ 511) (hport : s.portExists (be (par r) 0 2) = true)
    (hsrc : byteAt (par r) 2 ≤ 2)
    (hmap : ∀ c < 64, bitsOf (byteAt (slice (par r) 4 16) (c / 4)) (7 - 2 * (c % 4)) (6 - 2 * (c % 4)) ≠ 3)
    (hdei : byteAt (par r) 20 % 4 ≠ 3) (hdei' : byteAt (par r) 20 / 4 % 4 ≠ 3) (hmax : byteAt (par r) 20 ≤ 15) :
    bodyPrecolourSet r s = done { s with trf := { s.trf with precolour := Tab.set s.trf.precolour (be (par r) 0 2) (precolourOf (par r)) } } := by
  have hbad : ((List.range 64).any fun c =>
      bitsOf (byteAt (slice (par r) 4 16) (c / 4)) (7 - 2 * (c % 4)) (6 - 2 * (c % 4)) == 3) = false := by
    rw [List.any_eq_false]
    exact fun c hc => by simpa using hmap c (List.mem_range.1 hc)
  refine checks_pass (fun c hc => ?_)
  simp only [hbad, List.mem_cons, List.not_mem_nil, or_false] at hc
  rcases hc with rfl | rfl
  · simp [hlen]
  · simp [hport, hdei, hdei', hn, hsrc, hmax]

/-- Which of a port's shapers a SHAPER_SET names. -/
def shaperOf (p : Bytes) : Nat := if byteAt p 2 = 0 then 0 else if byteAt p 2 = 1 then 1 + byteAt p 3 else 9 + byteAt p 3

/-- The shaper a SHAPER_SET describes, its bucket full where FILL says so. -/
def shaperFrom (p : Bytes) (now : Time) : Shaper :=
  { rate := be p 8 4, burst := be p 12 4, tokens := if byteAt p 4 = 1 then be p 12 4 * byteTokens else 0, last := now, fresh := true }

/-- A shaper is stored under its number. -/
def setShaper (k : Nat) (x : Shaper) (s : State) : State := { s with trf := { s.trf with shapers := Tab.set s.trf.shapers k x } }

theorem bodyShaperSet_done (hlen : plen r = 16) (hn : be (par r) 0 2 ≤ 511) (hport : s.portExists (be (par r) 0 2) = true)
    (hlevel : byteAt (par r) 2 ≤ 2) (hidx : byteAt (par r) 3 ≤ if byteAt (par r) 2 = 0 then 0 else 7)
    (hfill : byteAt (par r) 4 = 1 ∨ byteAt (par r) 4 = 2) (hrate : be (par r) 8 4 ≤ 16000000) (hmin : 10240 ≤ be (par r) 12 4)
    (hmax : be (par r) 12 4 ≤ 16777216) :
    bodyShaperSet r s =
      done (setShaper (be (par r) 0 2 * 17 + shaperOf (par r)) (shaperFrom (par r) s.now) (shapedMark (be (par r) 0 2) s)) := by
  refine checks_pass (fun c hc => ?_)
  simp only [List.mem_cons, List.not_mem_nil, or_false] at hc
  rcases hc with rfl | rfl | rfl
  · simp [hlen]
  · rw [decide_eq_false (Nat.not_lt.2 hn), hport, decide_eq_false (Nat.not_lt.2 hlevel), decide_eq_false (Nat.not_lt.2 hidx)]
    rcases hfill with h | h <;> rw [h] <;> rfl
  · simp
    omega

end

/-- Settles O16: each command's checks pass and its body stores what it describes; a meter by the branches of its colour. -/
theorem metersAndShapersAreSetAndApply : Obligations.MetersAndShapersAreSetAndApply := by
  refine ⟨fun t r s => ?_, fun m pre b => ?_⟩
  · intro u p n
    refine ⟨?meter, ?precolour, ?shaper⟩
    case meter =>
      intro hb hlen hn hdie hy hr hyd hrd hcir hpir hpir' hcbs hcbs' hpbs hpbs'
      refine ⟨_, command_answers hb (bodyMeterSet_done (r := { r with opcode := 0x0401 }) hlen hn hdie hy hr hyd hrd hcir hpir hpir' hcbs
        hcbs' hpbs hpbs'), ⟨_, rfl⟩, fun d hd h => ?_⟩
      refine ⟨meterOf p u.now, get?_meterDies _ _ hd h, rfl, rfl, rfl, rfl, rfl, rfl, rfl, fun he => ?_⟩
      exact ⟨if_pos he, if_pos he⟩
    case precolour =>
      intro hb hlen hn hport hsrc hmap hdei hdei' hmax c
      have hd := bodyPrecolourSet_done (r := { r with opcode := 0x0405 }) (s := u) hlen hn hport hsrc hmap hdei hdei' hmax
      exact command_answers hb hd
    case shaper =>
      intro hb hlen hn hport hlevel hidx hfill hrate hmin hmax k x w
      have hd := bodyShaperSet_done (r := { r with opcode := 0x0402 }) (s := u) hlen hn hport hlevel hidx hfill hrate hmin hmax
      obtain ⟨y, g, hw⟩ := shapedMark_eq n u
      refine ⟨(command_answers hb hd : _ = okReply 0x0402 r (setShaper k x w) []), ?_⟩
      change w = _ at hw
      rw [hw]
      exact ⟨rfl, rfl, rfl, rfl, rfl⟩
  · obtain ⟨h1, h2, h3⟩ := m.colour_cases pre b
    exact ⟨h1, h2, h3, fun now => ⟨Nat.min_le_left .., Nat.min_le_left .., rfl⟩⟩

end Sys2Proof.Machine
end

section
/-! PROOFS. Table entries, multicast trees and mirrors (04 R123–R125, R140, R141, R150–R152). -/

namespace Sys2Proof.Machine

/-! ### Entries under a key -/

/-- The result a table holds under a key. -/
def entryResult (l : List Entry) (key : Bytes) : Option Bytes := (l.find? fun x => x.key == key).map (·.res)

theorem entryResult_cons (x : Entry) (l : List Entry) (key : Bytes) :
    entryResult (x :: l) key = if x.key = key then some x.res else entryResult l key := by
  unfold entryResult
  rw [List.find?_cons]
  by_cases h : x.key = key
  · rw [if_pos h, beq_iff_eq.2 h]
    rfl
  · rw [if_neg h, beq_eq_false_iff_ne.2 h]

theorem entryResult_delEntry_self (l : List Entry) (key : Bytes) : entryResult (delEntry l key) key = none := by
  have h : (delEntry l key).find? (fun x => x.key == key) = none := by
    rw [List.find?_eq_none]
    intro x hx hk
    obtain ⟨-, hne⟩ := List.mem_filter.1 hx
    rw [bne, hk] at hne
    exact Bool.noConfusion hne
  rw [entryResult, h]
  rfl

theorem entryResult_delEntry_ne (l : List Entry) {key k : Bytes} (h : k ≠ key) : entryResult (delEntry l key) k = entryResult l k := by
  induction l with
  | nil => rfl
  | cons x l ih =>
    rw [delEntry, List.filter_cons]
    by_cases hx : x.key = key
    · rw [if_neg (by simp [hx]), entryResult_cons, if_neg fun e => h (e.symm.trans hx)]
      exact ih
    · rw [if_pos (by simp [hx]), entryResult_cons, entryResult_cons]
      exact congrArg _ ih

theorem entryResult_map_put (l : List Entry) (e : Entry) (k : Bytes) :
    entryResult (l.map fun x => if x.key = e.key then e else x) k =
      if k = e.key then (entryResult l k).map fun _ => e.res else entryResult l k := by
  induction l with
  | nil => simp [entryResult]
  | cons x l ih =>
    rw [List.map_cons, entryResult_cons, entryResult_cons, ih]
    by_cases hx : x.key = e.key <;> by_cases hk : k = e.key <;> by_cases hxk : x.key = k <;> simp_all

theorem entryResult_append_new (l : List Entry) (e : Entry) (hl : (l.any fun x => x.key == e.key) = false) (k : Bytes) :
    entryResult (l ++ [e]) k = if k = e.key then some e.res else entryResult l k := by
  induction l with
  | nil =>
    rw [List.nil_append, entryResult_cons]
    exact if_congr eq_comm rfl rfl
  | cons x l ih =>
    rw [List.any_cons, Bool.or_eq_false_iff] at hl
    obtain ⟨hx, hl⟩ := hl
    rw [List.cons_append, entryResult_cons, entryResult_cons, ih hl]
    by_cases hk : k = e.key
    · rw [if_pos hk, if_neg (hk ▸ beq_eq_false_iff_ne.1 hx)]
      simp [hk]
    · rw [if_neg hk, if_neg hk]

theorem entryResult_of_any {l : List Entry} {key : Bytes} (hl : (l.any fun x => x.key == key) = true) :
    (entryResult l key).isSome = true := by
  rw [entryResult, Option.isSome_map, List.find?_isSome]
  exact List.any_eq_true.1 hl

theorem entryResult_putEntry_self (l : List Entry) (e : Entry) : entryResult (putEntry l e) e.key = some e.res := by
  unfold putEntry
  split
  · next h =>
    obtain ⟨x, hx⟩ := Option.isSome_iff_exists.1 (entryResult_of_any h)
    rw [entryResult_map_put, if_pos rfl, hx]
    rfl
  · next h => rw [entryResult_append_new l e (Bool.eq_false_iff.2 h), if_pos rfl]

theorem entryResult_putEntry_ne (l : List Entry) {e : Entry} {k : Bytes} (h : k ≠ e.key) :
    entryResult (putEntry l e) k = entryResult l k := by
  unfold putEntry
  split
  · rw [entryResult_map_put, if_neg h]
  · next hl => rw [entryResult_append_new l e (Bool.eq_false_iff.2 hl), if_neg h]

section
variable {r : KReq} {s : State}

/-! ### Trees -/

theorem bodyMcastTreeSet_done (ht : be (par r) 0 2 ≤ 16383) (hn : be (par r) 2 2 ≤ 504) (hlen : plen r = 8 + 8 * be (par r) 2 2)
    (hms : ∀ m ∈ treeMembers (par r), m.port ≤ 511 ∧ s.portExists m.port = true ∧
      (((Tab.getD s.sw.trees (be (par r) 0 2) []).any fun o => o.port == m.port && o.endpoint == m.endpoint) = true ∨
        memberFenced s m = false))
    (hcap : sumL (s.sw.trees.map fun e => e.2.length) - (Tab.getD s.sw.trees (be (par r) 0 2) []).length + be (par r) 2 2 ≤ 262144) :
    bodyMcastTreeSet r s = done { s with sw := { s.sw with
      trees := if be (par r) 2 2 = 0 then Tab.del s.sw.trees (be (par r) 0 2)
        else Tab.set s.sw.trees (be (par r) 0 2) (treeMembers (par r)) } } := by
  have hports : ((treeMembers (par r)).any fun m => decide (511 < m.port) || !s.portExists m.port) = false := by
    rw [List.any_eq_false]
    intro m hm
    obtain ⟨hp, he, -⟩ := hms m hm
    rw [decide_eq_false (Nat.not_lt.2 hp), he]
    exact Bool.false_ne_true
  have hnew : (((treeMembers (par r)).filter fun m =>
      !(Tab.getD s.sw.trees (be (par r) 0 2) []).any fun o => o.port == m.port && o.endpoint == m.endpoint).any
        (memberFenced s)) = false := by
    rw [List.any_eq_false]
    intro m hm hf
    obtain ⟨hmem, hold⟩ := List.mem_filter.1 hm
    obtain ⟨-, -, h⟩ := hms m hmem
    rcases h with h | h
    · rw [h] at hold
      exact Bool.noConfusion hold
    · exact Bool.noConfusion (h.symm.trans hf)
  unfold bodyMcastTreeSet
  dsimp only
  rw [checks_pass, hnew, if_neg Bool.false_ne_true, if_neg (Nat.not_lt.2 hcap)]
  intro c hc
  simp only [hports, List.mem_cons, List.not_mem_nil, or_false] at hc
  rcases hc with rfl | rfl
  · simp [hlen]
  · simp [ht, hn]

/-! ### Mirrors -/

/-- The mirror source a MIRROR_SET describes. -/
def mirrorOf (p : Bytes) : MirrorSrc :=
  { kind := byteAt p 0, source := be p 2 2, analysis := byteAt p 1, truncate := be p 4 2, sample := be p 8 4, count := 0 }

/-- The mirror sources a MIRROR_SET of this kind and source leaves. -/
def mirrorOthers (p : Bytes) (s : State) : List MirrorSrc :=
  s.sw.mirrors.filter fun m => !(m.kind == byteAt p 0 && m.source == be p 2 2)

theorem bodyMirrorSet_source (hlen : plen r = 16) (hk : byteAt (par r) 0 ≤ 2) (ha : byteAt (par r) 1 ≤ 7)
    (hsrc : if byteAt (par r) 0 = 2 then be (par r) 2 2 ≤ 4095 else be (par r) 2 2 ≤ 511 ∧ s.portExists (be (par r) 2 2) = true)
    (htr : be (par r) 4 2 = 0 ∨ 64 ≤ be (par r) 4 2 ∧ be (par r) 4 2 ≤ 9216) (hsample : 1 ≤ be (par r) 8 4)
    (hsample' : be (par r) 8 4 ≤ 65536) (hbind : (Tab.get? s.sw.binds (byteAt (par r) 1)).isSome = true)
    (hcap : byteAt (par r) 0 ≤ 1 → ((mirrorOthers (par r) s).filter fun m => m.kind != 2).length < 512) :
    bodyMirrorSet r s = done { s with sw := { s.sw with mirrors := mirrorOthers (par r) s ++ [mirrorOf (par r)] } } := by
  unfold bodyMirrorSet
  dsimp only
  rw [checks_pass, if_pos hk]
  · rfl
  intro c hc
  have h4 : (byteAt (par r) 0 == 4) = false := beq_eq_false_iff_ne.2 (by omega)
  have h3 : (byteAt (par r) 0 == 3) = false := beq_eq_false_iff_ne.2 (by omega)
  simp only [h4, h3, List.mem_cons, List.not_mem_nil, or_false, Bool.false_and, Bool.or_false] at hc
  rcases hc with rfl | rfl | rfl | rfl | rfl
  · simp [hlen]
  · by_cases h2 : byteAt (par r) 0 = 2
    · rw [if_pos h2] at hsrc
      simp [h2, hsrc, ha]
    · rw [if_neg h2] at hsrc
      simp [h2, hsrc, ha]
      omega
  · have hnone : (Tab.get? s.sw.binds (byteAt (par r) 1)).isNone = false := by
      rw [← Option.not_isSome, hbind]; rfl
    simp only [hnone]
    simp
    omega
  · rfl
  · by_cases h1 : byteAt (par r) 0 ≤ 1
    · show (_ && decide (512 ≤ ((mirrorOthers (par r) s).filter fun m => m.kind != 2).length)) = false
      rw [decide_eq_false (Nat.not_le.2 (hcap h1)), Bool.and_false]
    · rw [decide_eq_false h1, Bool.false_and]

theorem bodyMirrorSet_bind (hlen : plen r = 16) (hk : byteAt (par r) 0 = 3) (ha : byteAt (par r) 1 ≤ 7) (hsrc : be (par r) 2 2 ≤ 511)
    (hport : s.portExists (be (par r) 2 2) = true) (hcls : byteAt (par r) 6 ≤ 7)
    (hlossy : (s.port (be (par r) 2 2)).lossless (byteAt (par r) 6) = false) :
    bodyMirrorSet r s = done { s with sw := { s.sw with
      binds := Tab.set s.sw.binds (byteAt (par r) 1) (be (par r) 2 2, byteAt (par r) 6) } } := by
  unfold bodyMirrorSet
  dsimp only
  rw [checks_pass, hk]
  · rfl
  · simp [hk, hlen, ha, hsrc, hport, hcls, hlossy]

theorem bodyMirrorSet_untag (hlen : plen r = 16) (hk : byteAt (par r) 0 = 4) (h6 : byteAt (par r) 6 = 1) (hsrc : be (par r) 2 2 ≤ 4095) :
    bodyMirrorSet r s = done { s with sw := { s.sw with
      mirrors := s.sw.mirrors.filter fun m => !(m.source == be (par r) 2 2 && m.kind == 2) } } := by
  unfold bodyMirrorSet
  dsimp only
  rw [checks_pass, hk, h6]
  · rfl
  · simp [hk, h6, hlen, hsrc]

theorem bodyMirrorSet_unport (hlen : plen r = 16) (hk : byteAt (par r) 0 = 4) (h6 : byteAt (par r) 6 = 0) (hsrc : be (par r) 2 2 ≤ 511)
    (hport : s.portExists (be (par r) 2 2) = true) :
    bodyMirrorSet r s = done { s with sw := { s.sw with
      mirrors := s.sw.mirrors.filter fun m => !(m.source == be (par r) 2 2 && m.kind != 2) } } := by
  unfold bodyMirrorSet
  dsimp only
  rw [checks_pass, hk, h6]
  · rfl
  · simp [hk, h6, hlen, hsrc, hport]

end

/-- Settles O18: a write by what each of its two kinds of entry leaves under a key; trees and mirrors by their bodies. -/
theorem tablesTreesAndMirrorsAreWritten : Obligations.TablesTreesAndMirrorsAreWritten := by
  constructor
  case left =>
    intro k l e key get
    refine ⟨entryResult_putEntry_self l ⟨normKey k e, normRes k (slice e 24 40)⟩, entryResult_delEntry_self l _, fun hne del => ?_⟩
    cases del with
    | true => exact entryResult_delEntry_ne l hne
    | false => exact entryResult_putEntry_ne l hne
  case' right => intro t r s u p; refine ⟨?tree, ?mirror⟩
  case tree =>
    intro hb ht hn hlen hms hcap trees
    exact command_answers hb (bodyMcastTreeSet_done (r := { r with opcode := 0x0304 }) (s := u) ht hn hlen hms hcap)
  case mirror =>
    intro src others hb hlen
    let q : KReq := { r with opcode := 0x0305 }
    refine ⟨fun hk ha hsrc htr hsm hsm' hbind hcap => ?_, fun hk ha hsrc hport hcls hlossy => ?_, fun hk h6 hsrc => ?_,
      fun hk h6 hsrc hport => ?_⟩
    · exact command_answers hb (bodyMirrorSet_source (r := q) (s := u) hlen hk ha hsrc htr hsm hsm' hbind hcap)
    · exact command_answers hb (bodyMirrorSet_bind (r := q) (s := u) hlen hk ha hsrc hport hcls hlossy)
    · exact command_answers hb (bodyMirrorSet_untag (r := q) (s := u) hlen hk h6 hsrc)
    · exact command_answers hb (bodyMirrorSet_unport (r := q) (s := u) hlen hk h6 hsrc hport)

end Sys2Proof.Machine
end

section
/-! PROOFS. Scheduler weights, buffer minimums, table writes and flips (04 R123–R128, 05 R176, R186). -/

namespace Sys2Proof.Machine

section
variable {r : KReq} {s : State}

/-! ### Scheduler weights -/

/-- What a SCHED_SET makes of its port's scheduler. -/
def schedSetting (p : Bytes) (c : Sched) : Sched :=
  if byteAt p 2 = 1 then { c with groupW := Tab.set c.groupW (byteAt p 3) (be p 6 2) }
  else if byteAt p 2 = 2 then
    { c with classParent := Tab.set c.classParent (byteAt p 3) (byteAt p 4), classW := Tab.set c.classW (byteAt p 3) (be p 6 2) }
  else { c with queueW := Tab.set c.queueW (byteAt p 4 * 16 + byteAt p 3) (be p 6 2) }

theorem bodySchedSet_done (hlen : plen r = 8) (hn : be (par r) 0 2 ≤ 511) (hport : s.portExists (be (par r) 0 2) = true)
    (hw : 1 ≤ be (par r) 6 2) (hmin : 1 ≤ byteAt (par r) 2) (hmax : byteAt (par r) 2 ≤ 3)
    (hidx : byteAt (par r) 3 ≤ if byteAt (par r) 2 = 3 then 15 else 7)
    (hparent : byteAt (par r) 4 ≤ if byteAt (par r) 2 = 1 then 0 else 7) :
    bodySchedSet r s = done ((shapedMark (be (par r) 0 2) s).modSched (be (par r) 0 2) (schedSetting (par r))) := by
  refine checks_pass fun c hc => ?_
  simp only [List.mem_cons, List.not_mem_nil, or_false] at hc
  rcases hc with rfl | rfl | rfl
  · simp [hlen]
  · simp [hn, hport]
    omega
  · rw [decide_eq_false (Nat.not_lt.2 hidx), decide_eq_false (Nat.not_lt.2 hparent)]
    rfl

/-! ### Buffer settings -/

/-- The state a BUFFER_SET's minimums and thresholds make, the minimums in use settled. -/
def bufferSetting (p : Bytes) (s : State) : State :=
  let w : State := { s with sw := { s.sw with
    gmin := if bitOf (byteAt p 7) 0 then setAll 0 (be p 8 2) (bufferKeys p) s.sw.gmin else s.sw.gmin,
    alpha := if bitOf (byteAt p 7) 1 then setAll 6 (byteAt p 10) (bufferKeys p) s.sw.alpha else s.sw.alpha } }
  if bitOf (byteAt p 7) 0 then ((w.sw.frames.map (·.2.acct)).eraseDups).foldl settleMin w else w

theorem bodyBufferSet_done (hlen : plen r = 16) (hset : bitOf (byteAt (par r) 7) 0 = true ∨ bitOf (byteAt (par r) 7) 1 = true)
    (hports : bitOf (byteAt (par r) 7) 2 = false → be (par r) 2 2 ≤ be (par r) 4 2 ∧ be (par r) 4 2 ≤ 511)
    (halpha : bitOf (byteAt (par r) 7) 1 = true → byteAt (par r) 10 ≤ 9) (h0 : (bufferSetting (par r) s).gminSum 0 ≤ 393216)
    (h1 : (bufferSetting (par r) s).gminSum 1 ≤ 393216)
    (hroom : bitOf (byteAt (par r) 7) 0 = true → 0 ≤ rsvLeft (bufferSetting (par r) s) 0 ∧ 0 ≤ rsvLeft (bufferSetting (par r) s) 1) :
    bodyBufferSet r s = done (bufferSetting (par r) s) := by
  have hsum : ¬ (393216 < (bufferSetting (par r) s).gminSum 0 ∨ 393216 < (bufferSetting (par r) s).gminSum 1) := by omega
  have hleft : ¬ (bitOf (byteAt (par r) 7) 0 &&
      (decide (rsvLeft (bufferSetting (par r) s) 0 < 0) || decide (rsvLeft (bufferSetting (par r) s) 1 < 0))) = true := by
    intro h
    rw [Bool.and_eq_true, Bool.or_eq_true, decide_eq_true_eq, decide_eq_true_eq] at h
    have := hroom h.1
    omega
  refine (checks_pass fun c hc => ?_).trans ((if_neg hsum).trans (if_neg hleft))
  simp only [List.mem_cons, List.not_mem_nil, or_false] at hc
  rcases hc with rfl | rfl
  · simp [hlen]
  · have ha : (bitOf (byteAt (par r) 7) 1 && decide (9 < byteAt (par r) 10)) = false := by
      cases h : bitOf (byteAt (par r) 7) 1 with
      | false => rfl
      | true => rw [decide_eq_false (Nat.not_lt.2 (halpha h))]; rfl
    have hp : (!bitOf (byteAt (par r) 7) 2 && (decide (511 < be (par r) 4 2) || decide (be (par r) 4 2 < be (par r) 2 2))) = false := by
      cases h : bitOf (byteAt (par r) 7) 2 with
      | true => rfl
      | false => rw [decide_eq_false (Nat.not_lt.2 (hports h).2), decide_eq_false (Nat.not_lt.2 (hports h).1)]; rfl
    rw [ha, hp]
    rcases hset with h | h <;> rw [h] <;> simp

/-! ### Table writes and flips -/

theorem bodyTableWrite_done {k : Nat} (hk : k = byteAt (par r) 8) (hmin : 1 ≤ k) (hmax : k ≤ 8)
    (hfrags : ∀ q ∈ r.frags, q.length = 16 + 64 * be q 10 2 ∧ byteAt q 8 = k ∧ byteAt q 9 ≤ 1 ∧ 1 ≤ be q 10 2 ∧ be q 10 2 ≤ 63)
    (hops : ∀ o ∈ writeOps r, keyOk s k o.2 = true ∧ (o.1 = false → resOk s k (slice o.2 24 40) = true))
    (hst : (s.table k).st = .ready) (hpend : (s.table k).pending = false)
    (hsteer : k = 6 → steerBreaks s ((s.table k).entries (1 - (s.table k).active))
      ((writeOps r).foldl (applyOp k) ((s.table k).entries (1 - (s.table k).active))) = false)
    (hcap : ((writeOps r).foldl (applyOp k) ((s.table k).entries (1 - (s.table k).active))).length ≤ tableCap k) :
    bodyTableWrite r s = done (s.setTable k (if 1 - (s.table k).active = 0 then
      { s.table k with v0 := (writeOps r).foldl (applyOp k) ((s.table k).entries (1 - (s.table k).active)) }
      else { s.table k with v1 := (writeOps r).foldl (applyOp k) ((s.table k).entries (1 - (s.table k).active)) })) := by
  have hlen : writeLenOk r = true := by
    rw [writeLenOk, List.all_eq_true]
    exact fun q hq => beq_iff_eq.2 (hfrags q hq).1
  have hhead : (r.frags.any fun p => byteAt p 8 != k || decide (1 < byteAt p 9) || be p 10 2 == 0 || decide (63 < be p 10 2)) = false := by
    rw [List.any_eq_false]
    intro q hq
    obtain ⟨-, h8, h9, hn, hn'⟩ := hfrags q hq
    simp [h8, h9, hn', Nat.pos_iff_ne_zero.1 hn]
  have hbad : ((writeOps r).any fun o => !keyOk s k o.2 || (!o.1 && !resOk s k (slice o.2 24 40))) = false := by
    rw [List.any_eq_false]
    intro o ho
    obtain ⟨hkey, hres⟩ := hops o ho
    rw [hkey]
    cases h : o.1 with
    | true => exact Bool.false_ne_true
    | false => rw [hres h]; exact Bool.false_ne_true
  unfold bodyTableWrite
  rw [← hk]
  refine (if_neg (by simp [hlen])).trans ((if_neg (by omega)).trans ((if_neg ?_).trans ((if_neg ?_).trans ((if_neg ?_).trans
    ((if_neg (by simp [hst, hpend])).trans (if_neg (Nat.not_lt.2 hcap)))))))
  · exact fun h => Bool.noConfusion (hhead.symm.trans h)
  · exact fun h => Bool.noConfusion (hbad.symm.trans h)
  · exact fun ⟨h6, h⟩ => Bool.noConfusion ((hsteer h6).symm.trans h)

theorem bodyTableFlip_done {k : Nat} (hk : k = byteAt (par r) 0) (hmin : 1 ≤ k) (hmax : k ≤ 10) (harm : k = 9 → s.flt.lock ≠ .armed)
    (hlen : plen r = 8) (hst : (s.table k).st = .ready) (hpend : (s.table k).pending = false) :
    bodyTableFlip r s = done (s.setTable k { s.table k with pending := true }) := by
  have harmed : (k == 9 && s.flt.lock == .armed && (s.flt.armed.elim false (·.flip))) = false := by
    by_cases h : k = 9
    · rw [beq_eq_false_iff_ne.2 (harm h), Bool.and_false, Bool.false_and]
    · rw [beq_eq_false_iff_ne.2 h, Bool.false_and, Bool.false_and]
  unfold bodyTableFlip
  rw [← hk]
  refine checks_pass fun c hc => ?_
  simp only [harmed, hst, hpend, List.mem_cons, List.not_mem_nil, or_false] at hc
  rcases hc with rfl | rfl | rfl
  · simp [hlen]
  · simp [hmax]
    omega
  · rfl

/-- A flip of a table that is not READY is answered TABLE_BUSY. -/
theorem bodyTableFlip_busy (hlen : plen r = 8) (hmin : 1 ≤ byteAt (par r) 0) (hmax : byteAt (par r) 0 ≤ 10)
    (hst : (s.table (byteAt (par r) 0)).st ≠ .ready) : bodyTableFlip r s = refuse s 0x41 := by
  have hlen' : (plen r != 8) = false := by rw [hlen]; rfl
  have hk : (byteAt (par r) 0 == 0 || decide (10 < byteAt (par r) 0)) = false := by
    rw [beq_eq_false_iff_ne.2 (by omega), decide_eq_false (Nat.not_lt.2 hmax)]
    rfl
  have hready : ((s.table (byteAt (par r) 0)).st != .ready) = true := bne_iff_ne.2 hst
  simp only [bodyTableFlip, checks, hlen', hk, hready, Bool.true_or, Bool.false_eq_true, if_false, if_true]

end

/-- Settles O17: each command's checks pass and its body makes the setting; a flip of a table that is not READY is refused. -/
theorem switchSettingsTakeEffect : Obligations.SwitchSettingsTakeEffect := by
  intro t r s u p n m
  refine ⟨?sched, ?buffer, ?write, ?flip, ?busy⟩
  case sched =>
    intro hb hlen hn hport hw
    have hd (hmin : 1 ≤ byteAt p 2) (hmax : byteAt p 2 ≤ 3) (hidx : byteAt p 3 ≤ if byteAt p 2 = 3 then 15 else 7)
        (hparent : byteAt p 4 ≤ if byteAt p 2 = 1 then 0 else 7) :
        exec (.schedSet t r) s = okReply 0x0403 r (m.modSched n (schedSetting p)) [] :=
      command_answers hb (bodySchedSet_done (r := { r with opcode := 0x0403 }) (s := u) hlen hn hport hw hmin hmax hidx hparent)
    refine ⟨fun h2 hi hp => ?_, fun h2 hi hp => ?_, fun h2 hi hp => ?_⟩
    · rw [hd (by omega) (by omega) (by simp [h2, hi]) (by simp [h2, hp])]
      have hf : schedSetting p = fun c => { c with groupW := Tab.set c.groupW (byteAt p 3) (be p 6 2) } := funext fun c => if_pos h2
      rw [hf]
    · rw [hd (by omega) (by omega) (by simp [h2, hi]) (by simp [h2, hp])]
      have hf : schedSetting p = fun c => { c with
          classParent := Tab.set c.classParent (byteAt p 3) (byteAt p 4), classW := Tab.set c.classW (byteAt p 3) (be p 6 2) } :=
        funext fun c => (if_neg (by omega)).trans (if_pos h2)
      rw [hf]
    · rw [hd (by omega) (by omega) (by simp [h2, hi]) (by simp [h2, hp])]
      have hf : schedSetting p = fun c => { c with queueW := Tab.set c.queueW (byteAt p 4 * 16 + byteAt p 3) (be p 6 2) } :=
        funext fun c => (if_neg (by omega)).trans (if_neg (by omega))
      rw [hf]
  case buffer =>
    exact fun hb hlen hset hports halpha h0 h1 hroom => command_answers hb
      (bodyBufferSet_done (r := { r with opcode := 0x0404 }) (s := u) hlen hset hports halpha h0 h1 hroom)
  case write =>
    exact fun k hk hmin hmax hb hfrags hops hst hpend hsteer hcap => command_answers hb
      (bodyTableWrite_done (r := { r with opcode := 0x0301 }) (s := u) hk hmin hmax hfrags hops hst hpend hsteer hcap)
  case flip =>
    exact fun k hk hmin hmax harm hb hlen hst hpend => command_answers hb
      (bodyTableFlip_done (r := { r with opcode := 0x0302 }) (s := u) hk hmin hmax harm hlen hst hpend)
  case busy =>
    intro hb hlen hmin hmax hst
    refine (command_begins bodyTableFlip hb).trans ?_
    rw [bodyTableFlip_busy (r := { r with opcode := 0x0302 }) (s := taken r t s) hlen hmin hmax hst]
    rfl

end Sys2Proof.Machine
end

section
/-! PROOFS. Frames from inside the device and copies queued in VOQs (04 R119, R133–R135, R146; 05 R187). -/

namespace Sys2Proof.Machine

section
variable {s : State} {x : Src} {f : Frame} {c : Copy} {pipe cls port n : Nat}

/-- Stamping a frame counts it in the tables alone. -/
theorem stampIn_eq (st mask : BitVec 16) (s : State) : ∃ t, stampIn st mask s = { s with sw := { s.sw with tables := t } } :=
  List.foldlRecOn (motive := fun u => ∃ t, u = { s with sw := { s.sw with tables := t } }) (bitList 11 mask.toNat)
    (fun s k => s.inflightAdd k (stampVer st k)) ⟨_, rfl⟩ fun u ⟨t, h⟩ k _ => by rw [h]; exact ⟨_, rfl⟩

/-- The record a held frame is given. -/
def heldFrame (x : Src) (f : Frame) (k rsv head : Nat) (mirror : Bool) (copies : Nat) (now : Time) : FrameRec :=
  { frame := f, orig := x.orig, pipe := x.pipe, cls := x.cls, levee := x.levee, cells := cellsOf f.len, stamp := x.stamp,
    stamped := x.stamped, acct := k, fromRsv := rsv, fromHead := head, copies := copies, tag := x.tag, mirror := mirror,
    mirrored := x.mirrored, suppressed := [], chain := x.chain, retired := [], counted := [], cut := x.cut, arrived := now }

/-- A held frame takes the next frame number. -/
theorem holdFrame_eq (x : Src) (f : Frame) (k rsv head : Nat) (mirror : Bool) (copies : Nat) (s : State) :
    ∃ t, holdFrame x f k rsv head mirror copies s =
      ({ s with sw := { s.sw with
          nextFid := s.sw.nextFid + 1, tables := t,
          frames := Tab.set s.sw.frames s.sw.nextFid (heldFrame x f k rsv head mirror copies s.now) } }, s.sw.nextFid) := by
  obtain ⟨t, h⟩ := stampIn_eq x.stamp x.stamped { s with sw := { s.sw with
    nextFid := s.sw.nextFid + 1, frames := Tab.set s.sw.frames s.sw.nextFid (heldFrame x f k rsv head mirror copies s.now) } }
  exact ⟨t, congrArg (·, s.sw.nextFid) h⟩

/-- A copy joins the end of its VOQ and its port's scheduler; nothing else changes. -/
theorem pushCopy_eq (pipe cls : Nat) (c : Copy) (s : State) :
    ∃ x, pushCopy pipe cls c s = { s with
      sw := { s.sw with voqs := Tab.set s.sw.voqs (voqKey pipe c.port cls) (Tab.getD s.sw.voqs (voqKey pipe c.port cls) [] ++ [c]) },
      trf := { s.trf with sched := x } } := ⟨_, rfl⟩

/-- What a change of a port's scheduler that keeps its class parents leaves eligible. -/
theorem eligible_modSched (g : Sched → Sched) (hg : (g (s.schedOf port)).classParent = (s.schedOf port).classParent) (leaf : Nat) :
    eligible (s.modSched port g) port leaf = eligible s port leaf := by
  have hsched : (s.modSched port g).schedOf port = g (s.schedOf port) := Tab.getD_set_self ..
  have hpath (k : Nat) : shaperPath (s.modSched port g) port k = shaperPath s port k := by
    simp only [shaperPath, Sched.parent, hsched, hg]
  simp only [eligible, shapersOpen, hpath]
  rfl

/-- A leaf whose copy makes it eligible joins the round's list (05 R187). -/
theorem mem_pushCopy_active :
    cls * 16 + pipe ∈ ((pushCopy pipe cls c s).schedOf c.port).active ↔
      cls * 16 + pipe ∈ (s.schedOf c.port).active ∨ eligible (pushCopy pipe cls c s) c.port (cls * 16 + pipe) = true := by
  let w : State := { s with sw := { s.sw with
    voqs := Tab.set s.sw.voqs (voqKey pipe c.port cls) (Tab.getD s.sw.voqs (voqKey pipe c.port cls) [] ++ [c]) } }
  let g (x : Sched) : Sched := { x with
    active := if x.active.contains (cls * 16 + pipe) || !eligible w c.port (cls * 16 + pipe) then x.active
      else x.active ++ [cls * 16 + pipe]
    deficit := if (Tab.getD s.sw.voqs (voqKey pipe c.port cls) []).isEmpty then Tab.del x.deficit (cls * 16 + pipe) else x.deficit
    shaped := if !classQueued s c.port cls then Tab.set x.shaped cls s.now else x.shaped }
  have hpush : pushCopy pipe cls c s = w.modSched c.port g := rfl
  have hsched : (pushCopy pipe cls c s).schedOf c.port = g (s.schedOf c.port) := Tab.getD_set_self ..
  rw [hsched, hpush, eligible_modSched g rfl]
  show _ ∈ (if (s.schedOf c.port).active.contains (cls * 16 + pipe) || !eligible w c.port (cls * 16 + pipe) then
    (s.schedOf c.port).active else (s.schedOf c.port).active ++ [cls * 16 + pipe]) ↔ _
  by_cases hmem : cls * 16 + pipe ∈ (s.schedOf c.port).active
  · simp [hmem]
  · cases helig : eligible w c.port (cls * 16 + pipe) <;> simp [hmem]

/-- The one copy of a frame for one port, with its rewrite. -/
def unicastCopy (fid port : Nat) (rw_ : Rewrite) : Copy :=
  { fid := fid, port := port, vlan := rw_.vlan, dmac := rw_.dmac, smac := rw_.smac, ttlDec := rw_.ttlDec, endpoint := none, mem := none }

/-- A frame that is admitted for one port, with no box before it, is held and its copy queued (R133). -/
theorem admitUnicast_admits {rw_ : Rewrite} {rsv head : Nat} (hf : s.portFenced port = false) (hu : s.portUp port = true)
    (hov : overruns s (losslessOf s x f) (cellsOf f.len) = false) (hbox : Tab.getD s.sw.boxes x.pipe [] = [])
    (hadm : admission s (voqKey x.pipe port x.cls) (cellsOf f.len) (s.alpha (voqKey x.pipe port x.cls)) (losslessOf s x f) =
      some (rsv, head)) :
    let w := pushCopy x.pipe x.cls (unicastCopy s.sw.nextFid port rw_) (holdFrame x f (voqKey x.pipe port x.cls) rsv head false 1 s).1
    admitUnicast x f port rw_ s = if x.orig.isNone then pfcXoff f.port x.cls w else w := by
  intro w
  obtain ⟨t, hhold⟩ := holdFrame_eq x f (voqKey x.pipe port x.cls) rsv head false 1 s
  have hpass : passBox x.pipe x.cls s.sw.nextFid (unicastCopy s.sw.nextFid port rw_) (holdFrame x f (voqKey x.pipe port x.cls) rsv head false 1 s).1 = w := by
    have hb : Tab.getD (holdFrame x f (voqKey x.pipe port x.cls) rsv head false 1 s).1.sw.boxes x.pipe [] = [] := by
      rw [hhold]
      exact hbox
    rw [passBox, hb]
  rw [← hpass]
  simp only [admitUnicast, hf, hu, hov, hadm, Bool.false_eq_true, Bool.not_true, if_false]
  rfl

/-- What is found once a frame is held and its one copy queued. -/
theorem heldAndQueued (k rsv head : Nat) (hc : c.port = port) :
    let v := pushCopy pipe cls c (holdFrame x f k rsv head false 1 s).1
    Tab.get? v.sw.frames s.sw.nextFid = some (heldFrame x f k rsv head false 1 s.now) ∧
      Tab.getD v.sw.voqs (voqKey pipe port cls) [] = Tab.getD s.sw.voqs (voqKey pipe port cls) [] ++ [c] ∧
      v.out = s.out ∧ v.mem = s.mem ∧ v.gauges = s.gauges ∧ v.ports = s.ports ∧ v.cis = s.cis ∧ v.bsn = s.bsn ∧ v.kry = s.kry := by
  intro v
  obtain ⟨t, hhold⟩ := holdFrame_eq x f k rsv head false 1 s
  obtain ⟨y, hpush⟩ := pushCopy_eq pipe cls c (holdFrame x f k rsv head false 1 s).1
  have hv : v = _ := hpush
  rw [hv, hhold, hc]
  exact ⟨Tab.get?_set_self .., Tab.getD_set_self .., rfl, rfl, rfl, rfl, rfl, rfl, rfl⟩

end

/-- Settles O21: a frame from inside through its admission, a port that is down by the loss, the box by its first copy. -/
theorem internalFramesAndTreesAreQueued : Obligations.InternalFramesAndTreesAreQueued := by
  intro t i s u pipe hh hf hchain
  let x : Src := { orig := some i.orig, pipe := pipe, cls := i.cls, levee := i.levee, stamp := u.stampNow, stamped := frameTables,
                   chain := i.chain }
  have hhalt : u.halted = false := hh
  have hfence : frameFenced u i.frame = false := hf
  have hrow (htree : i.tree = none) : internalEnqueue i u = admitUnicast x i.frame i.port {} u := by
    simp only [internalEnqueue, hhalt, hfence, htree, Bool.false_eq_true, if_false]
    rfl
  refine ⟨fun rsv head htree hpf hup hbox hadm => ?queued, fun htree hpf hup => ?down, fun j c more rest hj htodo hup => ?box, fun c => ?push⟩
  case queued =>
    have hll : losslessOf u x i.frame = none := rfl
    have hadmit := admitUnicast_admits (s := u) (x := x) (f := i.frame) (rw_ := {}) hpf hup rfl hbox (hll ▸ hadm)
    obtain ⟨h1, h2, h3, h4, h5, -⟩ := heldAndQueued (s := u) (x := x) (f := i.frame) (pipe := x.pipe) (cls := x.cls) (port := i.port)
      (voqKey x.pipe i.port x.cls) rsv head (c := unicastCopy u.sw.nextFid i.port {}) rfl
    exact ⟨_, _, _, congrArg Host.Outcome.next ((hrow htree).trans hadmit), h1, rfl, rfl, rfl, rfl, rfl, rfl, h2, rfl, rfl, h3, h4, h5⟩
  case down =>
    have hlost : admitUnicast x i.frame i.port {} u = lostFrame x (u.count (gk 1 3 0 i.port) 1) := by
      have hpf' : u.portFenced i.port = false := hpf
      have hup' : u.portUp i.port = false := hup
      simp only [admitUnicast, hpf', hup', Bool.false_eq_true, if_false, Bool.not_false, if_true]
    refine congrArg Host.Outcome.next ((hrow htree).trans (hlost.trans ?_))
    rw [lostFrame, show x.chain = none from hchain]
    rfl
  case box =>
    show Host.Outcome.next (divisionCopy pipe u) = _
    have hj' : Tab.getD u.sw.boxes pipe [] = j :: rest := hj
    have htodo' : more.isEmpty = decide (more = []) := by cases more <;> rfl
    have hup2 (l : List DivJob) : ({ u with sw := { u.sw with boxes := Tab.set u.sw.boxes pipe l } } : State).portUp c.port = true := hup
    simp only [divisionCopy, hj', htodo, hup2, if_true, htodo', decide_eq_true_eq]
    rfl
  case push =>
    obtain ⟨y, hpush⟩ := pushCopy_eq pipe i.cls c s
    refine ⟨_, rfl, ?_, mem_pushCopy_active, ?_⟩
    · rw [hpush]
      exact Tab.getD_set_self ..
    · rw [hpush]
      exact ⟨rfl, rfl, rfl⟩

end Sys2Proof.Machine
end

section
/-! PROOFS. Frames received: their first checks, their lookup, and the queue of a frame for one port (04 R116–R119, R133). -/

namespace Sys2Proof.Machine

section
variable {s w : State} {f : Frame} {x : Src}

/-! ### Up to the lookup -/

/-- Serving a pipeline takes frames out of its ports' FIFOs and moves its slots on; nothing else changes. -/
theorem servePipe_eq (pipe fuel : Nat) (s : State) :
    ∃ p a b, servePipe pipe fuel s = { s with ports := p, sw := { s.sw with pipeFree := a, pipeLast := b } } := by
  induction fuel generalizing s with
  | zero => exact ⟨_, _, _, rfl⟩
  | succ fuel ih =>
    unfold servePipe
    dsimp only
    split
    · split
      · next q hq hfree =>
        obtain ⟨p, a, b, h⟩ := ih (takeLookup pipe q (Tab.getD s.sw.pipeFree pipe 0) s)
        exact ⟨p, a, b, h⟩
      · exact ⟨_, _, _, rfl⟩
    · exact ⟨_, _, _, rfl⟩

/-- A frame put into its port's FIFO changes no fence. -/
theorem parserFifo_flt (h : parserFifo f s = some w) : w.flt = s.flt := by
  obtain ⟨p, a, b, hserve⟩ := servePipe_eq (portPipe f.port) (pipeWaiting s (portPipe f.port)) s
  unfold parserFifo at h
  dsimp only at h
  rw [hserve] at h
  split at h
  · cases h
  · split at h <;> cases h <;> rfl

section
variable (kry : Frame → State → State) (h512 : f.port < 512) (hmac : f.dmac < 0x0180C2000000 ∨ 0x0180C200000F < f.dmac)

include h512 hmac

/-- A frame of a fabric port that is not link control goes to its FIFO. -/
theorem pipelineFrame_full (hp : parserFifo f s = none) : pipelineFrame kry f s = s.count (gk 1 0 0 f.port) 1 := by
  have hctl (b : Bool) : (!b && decide (0x0180C2000000 ≤ f.dmac) && decide (f.dmac ≤ 0x0180C200000F)) = false := by
    rcases hmac with h | h
    · rw [decide_eq_false (Nat.not_le.2 h), Bool.and_false, Bool.false_and]
    · rw [decide_eq_false (Nat.not_le.2 h), Bool.and_false]
  simp only [pipelineFrame, if_neg (Nat.not_le.2 h512), hctl, hp, Bool.false_eq_true, if_false]

/-- A frame without transport header that no earlier step takes is forwarded. -/
theorem pipelineFrame_forwards (hbth : f.bth = none) (hspray : f.etype ≠ 0x88B5) (hfence : s.portFenced f.port = false)
    (hhalt : s.halted = false) (hp : parserFifo f s = some w) : pipelineFrame kry f s = forwardFrame f w := by
  have hctl (b : Bool) : (!b && decide (0x0180C2000000 ≤ f.dmac) && decide (f.dmac ≤ 0x0180C200000F)) = false := by
    rcases hmac with h | h
    · rw [decide_eq_false (Nat.not_le.2 h), Bool.and_false, Bool.false_and]
    · rw [decide_eq_false (Nat.not_le.2 h), Bool.and_false]
  have hkry : (isRoce f && (f.bth.elim false fun b => b.dqp == 0x100)) = false := by
    rw [hbth, Option.elim_none, Bool.and_false]
  have htray : trayOf w f = none := by
    rw [trayOf, hbth]
  have hflt := parserFifo_flt hp
  have hfence' : w.portFenced f.port = false := by
    rw [State.portFenced, State.fencedBy, hflt]
    exact hfence
  have hhalt' : w.halted = false := by
    rw [State.halted, hflt]
    exact hhalt
  simp only [pipelineFrame, if_neg (Nat.not_le.2 h512), hctl, hp, hkry, htray, hfence', hhalt', if_neg hspray, Bool.false_eq_true,
    if_false]

end

/-- A control port takes KRYTIC frames alone. -/
theorem pipelineFrame_control (kry : Frame → State → State) (h512 : 512 ≤ f.port) (hbth : f.bth = none) (hfcs : f.fcsOk = true) :
    pipelineFrame kry f s = s.count (gk 0 0 38 f.port) 1 := by
  have hkry : (isRoce f && (f.bth.elim false fun b => b.dqp == 0x100)) = false := by
    rw [hbth, Option.elim_none, Bool.and_false]
  simp only [pipelineFrame, if_pos h512, hkry, hfcs, Bool.not_true, Bool.false_eq_true, if_false]

/-- A received frame of a port that is UP, as it has been counted. -/
def countedIn (f : Frame) (s : State) : State := (s.count (gk 0 0 0 f.port) 1).count (gk 0 0 1 f.port) f.len

/-- A sound frame in the clear on a port without associations comes to its pipeline. -/
theorem frameReceive_pipeline (kry : Frame → State → State) (hup : s.portUp f.port = true) (hmin : 64 ≤ f.len) (hmax : f.len ≤ 9216)
    (hpfc : f.etype ≠ 0x8808) (hsec : f.sec = none) (hrx : (s.port f.port).rx = []) (hfcs : f.fcsOk = true) :
    frameReceive kry f s = pipelineFrame kry f (countedIn f s) := by
  have hmacsec : macsecIn f (countedIn f s) = (countedIn f s, true) := by
    have hrx' : ((countedIn f s).port f.port).rx = [] := hrx
    simp only [macsecIn, hrx', hsec, List.isEmpty_nil, Option.isNone_none, if_true]
  unfold frameReceive
  dsimp only
  refine (if_neg (by simp [hup])).trans ((if_neg (Nat.not_lt.2 hmin)).trans ((if_neg (Nat.not_lt.2 hmax)).trans ((if_neg hpfc).trans
    ((if_neg (by simp [hfcs])).trans ?_))))
  change (match macsecIn f (countedIn f s) with
    | (s, true) => pipelineFrame kry f s
    | (s, false) => s) = _
  rw [hmacsec]

/-! ### From the lookup to the queue -/

/-- Without mirrors no copy is mirrored. -/
theorem mirrorIngress_none (hm : s.sw.mirrors = []) : mirrorIngress x f s = (s, []) := by
  have hs : ({ s with sw := { s.sw with mirrors := [] } } : State) = s := by rw [← hm]
  unfold mirrorIngress
  split
  · rfl
  · simp only [mirrorMatch, hm, List.filter_nil, List.map_nil, mirrorAll, List.foldl_nil, hs]

/-- A frame on a class that is not lossless sends no XOFF. -/
theorem pfcXoff_lossy {p c : Nat} (h : (s.port p).lossless c = false) : pfcXoff p c s = s := by
  simp only [pfcXoff, h, Bool.false_and, Bool.false_eq_true, if_false]

/-- The source of a received frame that its lookups send to one port. -/
def receivedSrc (f : Frame) (cls levee e : Nat) (s : State) : Src :=
  let x : Src := { orig := none, pipe := portPipe f.port, cls := cls, levee := levee, stamp := s.stampNow, stamped := frameTables, tag := none }
  { x with mirrored := [], cut := mayCut s x f e }

/-- A frame whose fate is a port, unmetered and unmirrored, comes to its admission with nothing but gauges changed. -/
theorem forwardFrame_port {e cls levee : Nat} {rw_ : Rewrite} (hfcs : f.fcsOk = true)
    (hd : decideFrame w w.stampNow f = ⟨.go (.port e rw_), cls, levee, none, false⟩) (hm : w.sw.mirrors = [])
    (hconf : w.confidential levee = false) (hmeter : Tab.get? w.trf.meters (meterKey (portDie f.port) (8 * levee + cls)) = none)
    (hf : frameFenced w f = false) :
    ∃ g, forwardFrame f w = admitUnicast (receivedSrc f cls levee e w) f e rw_ { w with gauges := g } := by
  let v (g : List (GaugeKey × Nat)) : State := { w with gauges := g }
  have hmirror (x : Src) (g) : mirrorIngress x f (v g) = (v g, []) := mirrorIngress_none hm
  have hgate (g) : ∃ g', headgate (v g) f cls levee = (v g', some f) := by
    have hmeter' : Tab.get? (v g).trf.meters (meterKey (portDie f.port) (8 * levee + cls)) = none := hmeter
    refine ⟨((v g).count (gk 2 0 0 (8 * levee + cls) (portDie f.port)) f.len).gauges, ?_⟩
    simp only [headgate, hmeter']
    rfl
  have hconf' (g) : (v g).confidential levee = false := hconf
  obtain ⟨g1, hg1⟩ : ∃ g1, State.count { w with gauges := gaugeAdd w.gauges (gk 9 0 0 (portDie f.port)) 1 } (gk 9 0 1 (portDie f.port))
      (typeBlocks w.scr.fwd ((fwdKey f cls).toNat / 2 ^ 140)) = v g1 := ⟨_, rfl⟩
  obtain ⟨g2, hg2⟩ := hgate g1
  refine ⟨g2, ?_⟩
  have hf' : frameFenced (v g2) f = false := hf
  simp only [forwardFrame, hd, hfcs, Bool.not_true, Bool.false_and, Bool.false_eq_true, if_false, hg1, hmirror, hconf', sprayTtl, hg2,
    toTarget, hf']
  rfl

end

/-- Settles O19: the first checks by the branch taken; a frame for a port by its admission, which its gauges do not change. -/
theorem receivedFramesAreQueued : Obligations.ReceivedFramesAreQueued := by
  intro t f s u hup
  have hup' : (s.tick t).portUp f.port = true := hup
  refine ⟨fun hlen => ?short, fun hlen => ?long, fun hmin hmax hpfc hsec hrx hfcs => ⟨fun hp hbth => ?control, ?forward, ?full⟩, ?queued⟩
  case short =>
    refine congrArg Host.Outcome.next ((if_neg (by simp [hup'])).trans (if_pos hlen))
  case long =>
    refine congrArg Host.Outcome.next ((if_neg (by simp [hup'])).trans ((if_neg (by omega)).trans (if_pos hlen)))
  case control =>
    exact congrArg Host.Outcome.next ((frameReceive_pipeline (s := s.tick t) kryticFrame hup' hmin hmax hpfc hsec hrx hfcs).trans
      (pipelineFrame_control kryticFrame hp hbth hfcs))
  case forward =>
    intro w hp hmac hbth hspray hfence hhalt hfifo
    exact congrArg Host.Outcome.next ((frameReceive_pipeline (s := s.tick t) kryticFrame hup' hmin hmax hpfc hsec hrx hfcs).trans
      (pipelineFrame_forwards kryticFrame hp hmac hbth hspray hfence hhalt hfifo))
  case full =>
    intro hp hmac hfifo
    exact congrArg Host.Outcome.next ((frameReceive_pipeline (s := s.tick t) kryticFrame hup' hmin hmax hpfc hsec hrx hfcs).trans
      (pipelineFrame_full kryticFrame hp hmac hfifo))
  case queued =>
    intro w e rw_ cls levee rsv head hfcs hd hm hconf hmeter hf hpf hupe hlossy hbox hadm
    obtain ⟨g, hrow⟩ := forwardFrame_port hfcs hd hm hconf hmeter hf
    let x := receivedSrc f cls levee e w
    let w' : State := { w with gauges := g }
    have hll : losslessOf w' x f = none := by
      have hl : (w'.port f.port).lossless x.cls = false := hlossy
      simp only [losslessOf, hl, Bool.and_false, Bool.false_eq_true, if_false]
    have hadmit := admitUnicast_admits (s := w') (x := x) (f := f) (rw_ := rw_) hpf hupe (by rw [hll]; rfl) hbox (hll ▸ hadm)
    obtain ⟨h1, h2, h3, h4, -, h6, h7, h8, h9⟩ := heldAndQueued (s := w') (x := x) (f := f) (pipe := x.pipe) (cls := x.cls) (port := e)
      (voqKey x.pipe e x.cls) rsv head (c := unicastCopy w'.sw.nextFid e rw_) rfl
    have hxoff := pfcXoff_lossy (p := f.port) (c := x.cls)
      (s := pushCopy x.pipe x.cls (unicastCopy w'.sw.nextFid e rw_) (holdFrame x f (voqKey x.pipe e x.cls) rsv head false 1 w').1)
      (by rw [State.port_of_ports h6]; exact hlossy)
    refine ⟨_, _, _, hrow.trans (hadmit.trans hxoff), h1, rfl, rfl, rfl, rfl, rfl, rfl, rfl, rfl, h2, rfl, rfl, rfl, rfl, rfl, rfl,
      h3, h4, h7, h8, h9⟩

end Sys2Proof.Machine
end

section
/-! PROOFS. The egress round, the end of a transmission, and the discard of a port that is down (05 R166–R171, 04 R135). -/

namespace Sys2Proof.Machine

/-! ### Tables under a change that keeps their numbers -/

theorem Tab.get?_map_filter {α : Type} (g : Nat × α → α) (p : Nat × α → Bool) (k : Nat) (t : Tab α)
    (hp : ∀ e : Nat × α, e.1 = k → p (e.1, g e) = true) :
    Tab.get? ((t.map fun e => (e.1, g e)).filter p) k = (t.find? fun e => e.1 == k).map g := by
  induction t with
  | nil => rfl
  | cons e t ih =>
    rw [List.map_cons, List.filter_cons, List.find?_cons]
    by_cases hk : e.1 = k
    · rw [if_pos (hp e hk), Tab.get?_cons, if_pos hk, beq_iff_eq.2 hk]
      rfl
    · rw [beq_eq_false_iff_ne.2 hk]
      split
      · rw [Tab.get?_cons, if_neg hk]
        exact ih
      · exact ih

theorem Tab.get?_eq_find? {α : Type} (t : Tab α) (k : Nat) : Tab.get? t k = (t.find? fun e => e.1 == k).map (·.2) := by
  induction t with
  | nil => rfl
  | cons e t ih =>
    rw [Tab.get?_cons, List.find?_cons]
    by_cases hk : e.1 = k
    · rw [if_pos hk, beq_iff_eq.2 hk]
      rfl
    · rw [if_neg hk, beq_eq_false_iff_ne.2 hk, ih]

theorem Tab.get?_none_of_keys {α : Type} {t : Tab α} {k : Nat} (h : ∀ e ∈ t, e.1 ≠ k) : Tab.get? t k = none := by
  rw [Tab.get?_eq_find?, List.find?_eq_none.2 fun e he => by simpa using h e he]
  rfl

/-! ### Frames released -/

section
variable {s : State}

theorem stampOut_eq (st mask : BitVec 16) (s : State) : ∃ t, stampOut st mask s = { s with sw := { s.sw with tables := t } } :=
  List.foldlRecOn (motive := fun u => ∃ t, u = { s with sw := { s.sw with tables := t } }) (bitList 11 mask.toNat)
    (fun s k => s.inflightSub k (stampVer st k)) ⟨_, rfl⟩ fun u ⟨t, h⟩ k _ => by rw [h]; exact ⟨_, rfl⟩

theorem netFrameDone_eq (c : Option (Nat × Nat)) (sup : List Nat) (s : State) : ∃ fl, netFrameDone c sup s = { s with flm := fl } := by
  cases c <;> exact ⟨_, rfl⟩

/-- Releasing a copy touches its frame, the tables' counts and the chain that sent it. -/
theorem releaseCopy_eq (fid : Nat) (s : State) :
    ∃ fr tb fl, releaseCopy fid s = { s with sw := { s.sw with frames := fr, tables := tb }, flm := fl } := by
  unfold releaseCopy
  split
  · exact ⟨_, _, _, rfl⟩
  · next fr _ =>
    split
    · exact ⟨_, _, _, rfl⟩
    · obtain ⟨t, h⟩ := stampOut_eq fr.stamp fr.stamped { s with sw := { s.sw with frames := Tab.del s.sw.frames fid } }
      obtain ⟨fl, h'⟩ := netFrameDone_eq fr.chain fr.suppressed (stampOut fr.stamp fr.stamped
        { s with sw := { s.sw with frames := Tab.del s.sw.frames fid } })
      rw [h', h]
      exact ⟨_, _, _, rfl⟩

/-- Discarding a copy counts it and releases it. -/
theorem discardCopy_eq (port : Nat) (c : Copy) (s : State) :
    ∃ fr tb fl g, discardCopy port s c = { s with sw := { s.sw with frames := fr, tables := tb }, flm := fl, gauges := g } := by
  unfold discardCopy
  split
  · split
    · next m hm =>
      obtain ⟨j, hj⟩ := Option.isSome_iff_exists.1 hm
      obtain ⟨fr, tb, fl, h⟩ := releaseCopy_eq c.fid (suppress c.fid c.mem (s.count (gk 1 3 1 port) 1))
      rw [h, hj]
      exact ⟨_, _, _, _, rfl⟩
    · obtain ⟨fr, tb, fl, h⟩ := releaseCopy_eq c.fid (fenceDrop port s)
      rw [h]
      exact ⟨_, _, _, _, rfl⟩
  · obtain ⟨fr, tb, fl, h⟩ := releaseCopy_eq c.fid (s.count (gk 1 3 0 port) 1)
    rw [h]
    exact ⟨_, _, _, _, rfl⟩

theorem discardCopies_eq (port : Nat) (l : List Copy) (s : State) :
    ∃ fr tb fl g, l.foldl (discardCopy port) s = { s with sw := { s.sw with frames := fr, tables := tb }, flm := fl, gauges := g } := by
  induction l generalizing s with
  | nil => exact ⟨_, _, _, _, rfl⟩
  | cons c l ih =>
    obtain ⟨fr, tb, fl, g, h⟩ := discardCopy_eq port c s
    obtain ⟨fr', tb', fl', g', h'⟩ := ih (discardCopy port s c)
    rw [List.foldl_cons, h', h]
    exact ⟨_, _, _, _, rfl⟩

/-- A port that is down loses what is queued for it, and no other port does (04 R135). -/
theorem portDownDiscard_down {port : Nat} (h : s.portUp port = false) :
    let v := portDownDiscard port s
    (∀ k, k / 8 % 512 = port → Tab.get? v.sw.voqs k = none) ∧ (∀ k, k / 8 % 512 ≠ port → Tab.get? v.sw.voqs k = Tab.get? s.sw.voqs k) ∧
      v.out = s.out ∧ v.ports = s.ports ∧ v.mem = s.mem := by
  let gone (e : Nat × List Copy) : Nat := if e.1 / 8 % 512 = port then e.2.length else 0
  let keep (e : Nat × List Copy) : Bool := e.1 / 8 % 512 != port || !e.2.isEmpty
  let voqs := (s.sw.voqs.map fun (e : Nat × List Copy) => (e.1, e.2.drop (gone e))).filter keep
  obtain ⟨x, g, hmark⟩ := shapedMark_eq port s
  let l := s.sw.voqs.flatMap fun e => e.2.take (gone e)
  let y := s.sw.stale.filter fun e => e.1 / 8 % 512 != port
  have hv : portDownDiscard port s = l.foldl (discardCopy port)
      { shapedMark port s with sw := { (shapedMark port s).sw with voqs := voqs, stale := y } } := by
    unfold portDownDiscard
    rw [h, hmark]
    rfl
  obtain ⟨fr, tb, fl, g', hd⟩ := discardCopies_eq port l
    { shapedMark port s with sw := { (shapedMark port s).sw with voqs := voqs, stale := y } }
  rw [hv, hd, hmark]
  refine ⟨fun k hk => ?_, fun k hk => ?_, rfl, rfl, rfl⟩
  · refine Tab.get?_none_of_keys fun e he hek => ?_
    obtain ⟨hmem, hkeep⟩ := List.mem_filter.1 he
    obtain ⟨e', -, rfl⟩ := List.mem_map.1 hmem
    have hport : e'.1 / 8 % 512 = port := by
      rw [show e'.1 = k from hek, hk]
    simp [keep, gone, hport] at hkeep
  · refine (Tab.get?_map_filter (fun e => e.2.drop (gone e)) keep k s.sw.voqs fun e he => ?_).trans ?_
    · simp [keep, he, hk]
    · rw [Tab.get?_eq_find?]
      cases hfind : s.sw.voqs.find? fun e => e.1 == k with
      | none => rfl
      | some e =>
        have hek : e.1 = k := by simpa using List.find?_some hfind
        simp [gone, hek, hk]

end

/-! ### The end of a transmission -/

section
variable {port : Nat} {x : Tx} {rest : List Tx} {s : State}

/-- PFC frames sent now leave in order, counted and timed. -/
theorem foldl_pfcNow_eq (l : List (Nat × Nat)) (s : State) :
    ∃ g tr, l.foldl (fun s e => pfcNow port e.1 e.2 s) s =
      { s with out := s.out ++ l.map (fun e => .pfc port (s.portMac port) e.1 e.2), gauges := g, trf := tr } := by
  induction l generalizing s with
  | nil => exact ⟨s.gauges, s.trf, by rw [List.map_nil, List.append_nil]; rfl⟩
  | cons e l ih =>
    obtain ⟨g, tr, h⟩ : ∃ g tr, pfcNow port e.1 e.2 s =
      { s with out := s.out ++ [.pfc port (s.portMac port) e.1 e.2], gauges := g, trf := tr } := ⟨_, _, rfl⟩
    obtain ⟨g', tr', h'⟩ := ih (pfcNow port e.1 e.2 s)
    refine ⟨g', tr', ?_⟩
    rw [List.foldl_cons, h', h, List.map_cons]
    show State.mk .. = State.mk ..
    rw [List.append_assoc]
    rfl

/-- The PFC frames that waited for the wire leave, and wait no longer. -/
theorem pfcFlush_effect (s : State) :
    let v := pfcFlush port s
    v.out = s.out ++ (s.port port).pfcWait.map (fun e => .pfc port (s.portMac port) e.1 e.2) ∧ v.sw = s.sw ∧ v.mem = s.mem ∧
      (∀ n, n ≠ port → v.port n = s.port n) ∧
      v.port port = if (s.port port).pfcWait = [] then s.port port else { s.port port with pfcWait := [] } := by
  intro v
  by_cases hw : (s.port port).pfcWait = []
  · have hv : v = s := by
      show pfcFlush port s = s
      simp only [pfcFlush, hw, List.isEmpty_nil, if_true, List.foldl_nil]
    rw [hv, hw, if_pos rfl, List.map_nil, List.append_nil]
    exact ⟨rfl, rfl, rfl, fun _ _ => rfl, rfl⟩
  · let w := s.modPort port fun q => { q with pfcWait := [] }
    obtain ⟨g, tr, h⟩ := foldl_pfcNow_eq (port := port) (s.port port).pfcWait w
    have hv : v = (s.port port).pfcWait.foldl (fun s e => pfcNow port e.1 e.2 s) w := by
      have hne : (s.port port).pfcWait.isEmpty = false := by
        cases hl : (s.port port).pfcWait with
        | nil => exact absurd hl hw
        | cons _ _ => rfl
      show pfcFlush port s = _
      simp only [pfcFlush, hne, Bool.false_eq_true, if_false]
      rfl
    rw [hv, h, if_neg hw]
    exact ⟨rfl, rfl, rfl, fun n hn => State.port_setPort_ne _ _ hn, State.port_setPort_self ..⟩

theorem Tab.getD_del_self {α : Type} (t : Tab α) (k : Nat) (d : α) : Tab.getD (Tab.del t k) k d = d := by
  simp [Tab.getD, Tab.get?_del]

/-- The transmit path once its first frame has left. -/
theorem transmitEnd_released (hx : Tab.getD s.sw.txing port [] = x :: rest) (hends : x.ends ≤ s.now) (hcut : x.cut = false) :
    ∃ fr tb fl g tx, Tab.getD tx port [] = rest ∧
      transmitEnd port s = (if rest.isEmpty then pfcFlush port else id) { s with
        out := s.out ++ [.frame port x.frame (!x.frame.fcsOk)], gauges := g, flm := fl,
        sw := { s.sw with frames := fr, tables := tb, txing := tx } } := by
  let s1 := (countTx port (s.fidClass x.copy.fid) x.frame.len s).emit (.frame port x.frame (!x.frame.fcsOk))
  let s2 := if x.frame.fcsOk then s1 else s1.count (gk 1 0 1 ((Tab.get? s.sw.frames x.copy.fid).elim 0 (·.frame.port))) 1
  let tx := if rest.isEmpty then Tab.del s2.sw.txing port else Tab.set s2.sw.txing port rest
  have htx : Tab.getD tx port [] = rest := by
    cases rest with
    | nil => exact Tab.getD_del_self ..
    | cons y l => exact Tab.getD_set_self ..
  obtain ⟨g, hg⟩ : ∃ g, s2 = { s with out := s.out ++ [.frame port x.frame (!x.frame.fcsOk)], gauges := g } := by
    show ∃ g, (if x.frame.fcsOk then _ else _) = _
    split
    · exact ⟨_, rfl⟩
    · exact ⟨_, rfl⟩
  obtain ⟨fr, tb, fl, h⟩ := releaseCopy_eq x.copy.fid { s2 with sw := { s2.sw with txing := tx } }
  refine ⟨fr, tb, fl, g, tx, htx, ?_⟩
  have hrow : transmitEnd port s =
      if rest.isEmpty then pfcFlush port (releaseCopy x.copy.fid { s2 with sw := { s2.sw with txing := tx } })
      else releaseCopy x.copy.fid { s2 with sw := { s2.sw with txing := tx } } := by
    unfold transmitEnd
    rw [hx]
    dsimp only
    rw [if_neg (Nat.not_lt.2 hends), hcut]
    rfl
  rw [hrow, h, hg]
  split <;> rfl

/-- The first frame of the transmit path leaves at its end, PFC frames that waited for the wire after the last. -/
theorem transmitEnd_leaves (hx : Tab.getD s.sw.txing port [] = x :: rest) (hends : x.ends ≤ s.now) (hcut : x.cut = false) :
    let waiting := if rest = [] then (s.port port).pfcWait else []
    let v := transmitEnd port s
    v.out = s.out ++ [.frame port x.frame (!x.frame.fcsOk)] ++ waiting.map (fun e => .pfc port (s.portMac port) e.1 e.2) ∧
      Tab.getD v.sw.txing port [] = rest ∧ v.mem = s.mem ∧ (∀ n, n ≠ port → v.port n = s.port n) ∧
      v.port port = (if waiting = [] then s.port port else { s.port port with pfcWait := [] }) := by
  intro waiting v
  obtain ⟨fr, tb, fl, g, tx, htx, h⟩ := transmitEnd_released hx hends hcut
  have hv : v = _ := h
  rw [hv]
  cases hr : rest with
  | nil =>
    have hwait : waiting = (s.port port).pfcWait := if_pos hr
    rw [hwait]
    obtain ⟨h1, h2, h3, h4, h5⟩ := pfcFlush_effect (port := port) { s with
      out := s.out ++ [.frame port x.frame (!x.frame.fcsOk)], gauges := g, flm := fl,
      sw := { s.sw with frames := fr, tables := tb, txing := tx } }
    exact ⟨h1, (congrArg (fun y : Switch => Tab.getD y.txing port []) h2).trans (htx.trans hr), h3, h4, h5⟩
  | cons y l =>
    have hwait : waiting = [] := if_neg (by rw [hr]; exact List.cons_ne_nil _ _)
    rw [hwait, List.map_nil, List.append_nil, if_pos rfl]
    exact ⟨rfl, htx.trans hr, rfl, fun _ _ => rfl, rfl⟩

theorem transmitEnd_early (hx : Tab.getD s.sw.txing port [] = x :: rest) (hends : s.now < x.ends) : transmitEnd port s = s := by
  simp only [transmitEnd, hx, if_pos hends]

end

/-! ### The round of a port with one frame queued -/

section
variable {port leaf pipe cls : Nat} {c : Copy} {fr : FrameRec} {s : State}

/-- A scheduler whose weights and parents are all as at reset. -/
structure Sched.Plain (x : Sched) : Prop where
  groupW : x.groupW = []
  classParent : x.classParent = []
  classW : x.classW = []
  queueW : x.queueW = []

/-- Under equal weights every leaf's quantum is 16,384 bytes. -/
theorem Sched.Plain.quantum {x : Sched} (h : x.Plain) (leaf : Nat) : x.quantum leaf = 16384 * 256 := by
  obtain ⟨hg, hp, hc, hq⟩ := h
  have hprod (i : Nat) : x.product i = (1, 128) := by
    have hparent : x.parent = fun _ => 0 := funext fun k => by rw [Sched.parent, hp]; rfl
    have hqw : x.qw = fun _ => 1 := funext fun k => by rw [Sched.qw, hq]; rfl
    have hcw : x.cw = fun _ => 1 := funext fun k => by rw [Sched.cw, hc]; rfl
    have hgw : x.gw = fun _ => 1 := funext fun k => by rw [Sched.gw, hg]; rfl
    have hlive : x.live = fun g => (List.range 8).any fun _ => 0 == g := funext fun g => by simp only [Sched.live, hparent]
    simp only [Sched.product, hparent, hqw, hcw, hgw, hlive]
    rfl
  have hfold (l : List Nat) : l.foldl (fun m i => let y := x.product i; if m.1 * y.2 < y.1 * m.2 then y else m) (1, 128) = (1, 128) := by
    induction l with
    | nil => rfl
    | cons i l ih => rw [List.foldl_cons, hprod]; exact ih
  have hmax : x.maxProduct = (1, 128) := by
    rw [Sched.maxProduct, List.range_succ_eq_map, List.foldl_cons, hprod]
    exact hfold _
  simp only [Sched.quantum, hprod, hmax]
  decide

theorem schedOf_modSched_self (f : Sched → Sched) : (s.modSched port f).schedOf port = f (s.schedOf port) := Tab.getD_set_self ..

/-- Counting SHAPED_NS changes a scheduler's marks alone. -/
theorem shapedMark_schedOf : ∃ y, (shapedMark port s).schedOf port = { s.schedOf port with shaped := y } := by
  refine List.foldlRecOn (motive := fun u : State => ∃ y, u.schedOf port = { s.schedOf port with shaped := y }) _ _
    ⟨(s.schedOf port).shaped, rfl⟩ ?_
  rintro u ⟨y, hy⟩ cls _
  split
  · refine ⟨Tab.set y cls u.now, (schedOf_modSched_self ..).trans ?_⟩
    show ({ u.schedOf port with shaped := Tab.set (u.schedOf port).shaped cls u.now } : Sched) = _
    rw [hy]
  · split
    · refine ⟨Tab.del y cls, (schedOf_modSched_self ..).trans ?_⟩
      rw [hy]
    · exact ⟨y, hy⟩

/-- A head frame that no pause, discard or shaper holds back is eligible. -/
theorem eligible_of_head (hc : headCopy s port leaf = some c) (hp : (s.port port).paused (leaf / 16) s.now = false)
    (hst : s.sw.stale = []) (hsh : s.trf.shapers = []) : eligible s port leaf = true := by
  have hopen : shapersOpen s port (leaf / 16) = true := by
    rw [shapersOpen, hsh, List.all_eq_true]
    exact fun k _ => rfl
  simp only [eligible, hc, hp, waitsDiscard, hst, hopen, Option.isSome_some, Bool.not_false, List.any_nil, Bool.and_true]

theorem eligible_of_no_head (hc : headCopy s port leaf = none) : eligible s port leaf = false := by
  simp only [eligible, hc, Option.isSome_none, Bool.false_and]

theorem filter_range_eq {n a : Nat} (h : a < n) (p : Nat → Bool) (hp : ∀ i < n, p i = decide (i = a)) :
    (List.range n).filter p = [a] := by
  have hq : (List.range n).filter p = (List.range n).filter (· == a) :=
    List.filter_congr fun i hi => (hp i (List.mem_range.1 hi)).trans (by simp [beq_eq_decide])
  rw [hq, List.filter_beq, List.count_eq_one_of_mem List.nodup_range (List.mem_range.2 h)]
  rfl

/-- The one eligible leaf joins an empty list. -/
theorem joinRound_one (hl : leaf < 128) (ha : (s.schedOf port).active = []) (he : eligible s port leaf = true)
    (hne : ∀ i < 128, i ≠ leaf → eligible s port i = false) :
    joinRound port s = s.modSched port fun x => { x with active := [leaf] } := by
  have hnew : ((List.range 128).filter fun i => !(s.schedOf port).active.contains i && eligible s port i) = [leaf] := by
    refine filter_range_eq hl _ fun i hi => ?_
    rw [ha]
    by_cases h : i = leaf
    · rw [h, he]
      simp
    · rw [hne i hi h, decide_eq_false h, Bool.and_false]
  unfold joinRound
  dsimp only
  rw [hnew, ha]
  rfl

/-- A round at its one leaf grants the quantum, draws the head frame and stops where the wire is then taken. -/
theorem runRound_draws (n : Nat) (ha : (s.schedOf port).active = [leaf]) (hpos : (s.schedOf port).pos = 0)
    (hturn : (s.schedOf port).turn = false) (hplain : (s.schedOf port).Plain)
    (he : ∀ f : Sched → Sched, eligible (s.modSched port f) port leaf = true) (he0 : eligible s port leaf = true)
    (hw : ∀ f : Sched → Sched, headWire (s.modSched port f) port leaf ≤ 16384) :
    let granted := s.modSched port fun x => { x with
      deficit := Tab.set x.deficit leaf (Tab.getD x.deficit leaf 0 + x.quantum leaf), turn := true }
    wireFree (drawHead port leaf granted) port = false → runRound port (n + 2) s = drawHead port leaf granted := by
  intro granted hwire
  have hc : granted.schedOf port = { s.schedOf port with
      deficit := Tab.set (s.schedOf port).deficit leaf
        (Tab.getD (s.schedOf port).deficit leaf 0 + (s.schedOf port).quantum leaf), turn := true } := schedOf_modSched_self ..
  have hat : (s.schedOf port).active[(s.schedOf port).pos]? = some leaf := by rw [ha, hpos]; rfl
  have hat' : (granted.schedOf port).active[(granted.schedOf port).pos]? = some leaf := by rw [hc]; exact hat
  have hturn' : (granted.schedOf port).turn = true := by rw [hc]
  have hdef : 256 * headWire granted port leaf ≤ Tab.getD (granted.schedOf port).deficit leaf 0 := by
    rw [hc, Tab.getD_set_self, hplain.quantum]
    have : headWire granted port leaf ≤ 16384 := hw _
    omega
  have hgo : (eligible granted port leaf && decide (256 * headWire granted port leaf ≤ Tab.getD (granted.schedOf port).deficit leaf 0)) =
      true := by rw [he, decide_eq_true hdef]; rfl
  have hstep1 : runRound port (n + 2) s = runRound port (n + 1) granted := by
    rw [runRound]
    simp only [hat, hturn, he0, Bool.not_false, Bool.not_true, if_true, Bool.false_eq_true, if_false]
    rfl
  rw [hstep1, runRound]
  simp only [hat', hturn', hgo, Bool.not_true, Bool.false_eq_true, if_false, if_true, hwire]

/-- What a head frame must meet so that its draw begins its transmission (R170). -/
structure Sendable (s : State) (port leaf : Nat) (c : Copy) (fr : FrameRec) : Prop where
  head : headCopy s port leaf = some c
  frame : Tab.get? s.sw.frames c.fid = some fr
  retired : fr.retired = []
  unfenced : s.portFenced port = false
  endpoint : c.endpoint = none
  addr : frameFenced s fr.frame = false
  conf : s.confidential fr.levee = false
  stuck : (s.port port).pfc.stuck.getLsbD fr.cls = false
  tx : (s.port port).tx = none
  mirrors : s.sw.mirrors = []
  vlan : c.vlan = none
  len : 64 ≤ fr.frame.len

theorem rewriteFrame_len (hv : c.vlan = none) (hlen : 64 ≤ fr.frame.len) : (rewriteFrame s fr.frame c).len = fr.frame.len := by
  have h : rewriteVlan s fr.frame.vlan c.vlan = fr.frame.vlan := by rw [hv]; rfl
  simp only [rewriteFrame, h]
  cases fr.frame.vlan <;> simp [hlen]

theorem Port.txSa_of_no_tx {q : Port} (h : q.tx = none) : q.txSa = none := by
  unfold Port.txSa
  rw [h]

theorem Sendable.headWire (h : Sendable s port leaf c fr) : headWire s port leaf = fr.frame.len + 20 := by
  simp only [Machine.headWire, h.head, h.frame, wireLen, Port.txSa_of_no_tx h.tx, rewriteFrame_len h.vlan h.len, Option.isSome_none,
    Bool.false_eq_true, if_false, Nat.add_zero]

/-- Mirrors apart, the egress copies of a frame are none. -/
theorem mirrorEgress_none {f : Frame} (hm : s.sw.mirrors = []) : mirrorEgress port fr f s = s := by
  have hs : ({ s with sw := { s.sw with mirrors := [] } } : State) = s := by rw [← hm]
  unfold mirrorEgress
  split
  · rfl
  · simp only [mirrorMatch, hm, List.filter_nil, List.map_nil, mirrorAll, List.foldl_nil, hs]

theorem takePn_none (h : (s.port port).tx = none) : s.takePn port = s := by
  unfold State.takePn
  rw [h]

/-- The draw of a sendable head takes it off its VOQ and puts it on the wire. -/
theorem drawHead_sends (h : Sendable s port leaf c fr) :
    ∃ (x : Tx) (tr : Traffic) (g : List (GaugeKey × Nat)), drawHead port leaf s = { s with
        trf := tr, gauges := g,
        sw := { s.sw with
          voqs := Tab.set s.sw.voqs (voqKey (leaf % 16) port (leaf / 16))
            ((Tab.getD s.sw.voqs (voqKey (leaf % 16) port (leaf / 16)) []).drop 1),
          txing := Tab.set s.sw.txing port (Tab.getD s.sw.txing port [] ++ [x]) } } ∧
      x.copy = c ∧ x.start = max s.now (s.schedOf port).busy ∧
      x.ends = x.start + wireTicks (fr.frame.len + 20) (s.port port).lanes ∧ x.frame.len = fr.frame.len ∧
      (Tab.getD tr.sched port {}).busy = x.ends := by
  let w := debitShapers (popHead port leaf s) port (leaf / 16) (fr.frame.len + 20)
  let d := w.modSched port fun x => { x with
    deficit := Tab.set x.deficit leaf (Tab.getD x.deficit leaf 0 - 256 * (fr.frame.len + 20)) }
  let start := max s.now (s.schedOf port).busy
  let ends := start + wireTicks (fr.frame.len + 20) (s.port port).lanes
  let f : Frame := { rewriteFrame d fr.frame c with sec := outTag (d.port port), port := port }
  let x : Tx := { copy := c, frame := f, start := start, ends := ends }
  have hframe : Tab.get? d.sw.frames c.fid = some fr := h.frame
  have hspent : (d.port port).pnSpent = false := by
    rw [Port.pnSpent, Port.txSa_of_no_tx (q := d.port port) h.tx]
    rfl
  have hdiscard : drawDiscard port c fr d = none := by
    have hfenced : copyFenced d port c fr.frame = false := by
      have hp : d.portFenced port = false := h.unfenced
      have ha : frameFenced d fr.frame = false := h.addr
      rw [copyFenced, hp, h.endpoint, ha]
      rfl
    have hconf : d.confidential fr.levee = false := h.conf
    have hstuck : (d.port port).pfc.stuck.getLsbD fr.cls = false := h.stuck
    simp only [drawDiscard, h.retired, hfenced, hconf, hstuck, hspent, List.isEmpty_nil, Bool.not_true, Bool.false_and,
      Bool.false_eq_true, if_false]
  have hbusy : busyUntil d port (fr.frame.len + 20) = (start, ends) := by
    have hs : (d.schedOf port).busy = (s.schedOf port).busy := by
      rw [schedOf_modSched_self]
      rfl
    rw [busyUntil, hs]
    rfl
  have hvlan : ((rewriteVlan d fr.frame.vlan c.vlan).isSome && fr.frame.vlan.isNone) = false := by
    have hr : rewriteVlan d fr.frame.vlan c.vlan = fr.frame.vlan := by rw [h.vlan]; rfl
    rw [hr]
    cases fr.frame.vlan <;> rfl
  have hpn : d.takePn port = d := takePn_none h.tx
  have hmirror : mirrorEgress port fr f d = d := mirrorEgress_none h.mirrors
  have hrow : drawHead port leaf s = ({ d.modSched port (fun x => { x with busy := ends }) with
      sw := { (d.modSched port (fun x => { x with busy := ends })).sw with
        txing := Tab.set d.sw.txing port (Tab.getD d.sw.txing port [] ++ [x]) } } : State).count (gk 0 0 2 port) 1 := by
    unfold drawHead
    rw [h.head]
    dsimp -zeta only
    extract_lets wire s1 s2
    have hd : s2 = d := by
      show (debitShapers (popHead port leaf s) port (leaf / 16) (Machine.headWire s port leaf)).modSched port _ = _
      simp only [wire, h.headWire]
      rfl
    rw [hd, hframe]
    dsimp only
    rw [hdiscard]
    dsimp only
    rw [hvlan, if_neg Bool.false_ne_true, hpn, show wire = fr.frame.len + 20 from h.headWire, hbusy]
    change ({ (mirrorEgress port fr f d).modSched port _ with sw := _ } : State).count _ _ = _
    rw [hmirror]
    rfl
  refine ⟨x, (d.modSched port fun x => { x with busy := ends }).trf, (d.count (gk 0 0 2 port) 1).gauges, hrow, rfl, rfl, rfl,
    rewriteFrame_len h.vlan h.len, ?_⟩
  exact congrArg Sched.busy (schedOf_modSched_self (s := d) (port := port) fun x => { x with busy := ends })

/-- The state with other schedulers and gauges. -/
def withSched (s : State) (tr : Tab Sched) (g : List (GaugeKey × Nat)) : State :=
  { s with trf := { s.trf with sched := tr }, gauges := g }

theorem withSched_modSched {w : State} {tr : Tab Sched} {g : List (GaugeKey × Nat)} (hw : w = withSched s tr g) (f : Sched → Sched) :
    ∃ tr', w.modSched port f = withSched s tr' g := by
  rw [hw]
  exact ⟨_, rfl⟩

/-- A port whose one queued frame is sendable and eligible sends it in its round (05 R168). -/
theorem schedulerRound_sends (hu : s.portUp port = true) (hp : port < 512) (hh : s.halted = false) (hl : leaf < 128)
    (hsched : s.schedOf port = {}) (hshapers : s.trf.shapers = []) (hstale : s.sw.stale = [])
    (hpause : (s.port port).paused (leaf / 16) s.now = false) (htx : Tab.getD s.sw.txing port [] = [])
    (hother : ∀ i < 128, i ≠ leaf → headCopy s port i = none) (hmax : fr.frame.len ≤ 9216) (h : Sendable s port leaf c fr) :
    ∃ (x : Tx) (tr : Traffic) (g : List (GaugeKey × Nat)), schedulerRound port s = { s with
        trf := tr, gauges := g,
        sw := { s.sw with
          voqs := Tab.set s.sw.voqs (voqKey (leaf % 16) port (leaf / 16))
            ((Tab.getD s.sw.voqs (voqKey (leaf % 16) port (leaf / 16)) []).drop 1),
          txing := Tab.set s.sw.txing port [x] } } ∧
      x.copy = c ∧ x.start = s.now ∧ x.ends = x.start + wireTicks (fr.frame.len + 20) (s.port port).lanes ∧
      x.frame.len = fr.frame.len ∧ (Tab.getD tr.sched port {}).busy = x.ends := by
  obtain ⟨sc, g0, hmark⟩ := shapedMark_eq port s
  obtain ⟨y, hmarked⟩ := shapedMark_schedOf (port := port) (s := s)
  rw [hsched] at hmarked
  let m := shapedMark port s
  -- what the draw asks of the state is the same in every state that differs from `s` in schedulers and gauges
  have helig (tr : Tab Sched) (g) : eligible (withSched s tr g) port leaf = true :=
    eligible_of_head (c := c) h.head hpause hstale hshapers
  have hne (tr : Tab Sched) (g) (i : Nat) (hi : i < 128) (hil : i ≠ leaf) : eligible (withSched s tr g) port i = false :=
    eligible_of_no_head (hother i hi hil)
  have hsend (tr : Tab Sched) (g) : Sendable (withSched s tr g) port leaf c fr := by
    obtain ⟨h1, h2, h3, h4, h5, h6, h7, h8, h9, h10, h11, h12⟩ := h
    exact ⟨h1, h2, h3, h4, h5, h6, h7, h8, h9, h10, h11, h12⟩
  have hm : m = withSched s sc g0 := hmark
  have hjoin : joinRound port m = m.modSched port fun x => { x with active := [leaf] } := by
    refine joinRound_one hl (by rw [hmarked]) ?_ fun i hi hil => ?_
    · rw [hm]; exact helig _ _
    · rw [hm]; exact hne _ _ i hi hil
  let j := joinRound port m
  obtain ⟨trj, hj⟩ : ∃ tr, j = withSched s tr g0 := by
    show ∃ tr, joinRound port m = _
    rw [hjoin]
    exact withSched_modSched hm _
  have hjs : j.schedOf port = { active := [leaf], shaped := y } := by
    show (joinRound port m).schedOf port = _
    rw [hjoin, schedOf_modSched_self, hmarked]
  let granted := j.modSched port fun x => { x with
    deficit := Tab.set x.deficit leaf (Tab.getD x.deficit leaf 0 + x.quantum leaf), turn := true }
  obtain ⟨trg, hg⟩ : ∃ tr, granted = withSched s tr g0 := withSched_modSched hj _
  have hgbusy : (granted.schedOf port).busy = 0 := by
    show ((State.modSched j port _).schedOf port).busy = 0
    rw [schedOf_modSched_self, hjs]
  obtain ⟨x, tr, g, hdraw, hcopy, hstart, hends, hlen, hbusy⟩ := drawHead_sends (hg ▸ hsend trg g0)
  have hfuel : 2 ≤ roundFuel j port := by
    rw [roundFuel, hjs, List.length_singleton]
    omega
  have hround : runRound port (roundFuel j port) j = drawHead port leaf granted := by
    obtain ⟨n, hn⟩ := Nat.exists_eq_add_of_le' hfuel
    rw [hn]
    refine runRound_draws n (by rw [hjs]) (by rw [hjs]) (by rw [hjs]) (by rw [hjs]; exact ⟨rfl, rfl, rfl, rfl⟩) (fun f => ?_) ?_ (fun f => ?_) ?_
    · obtain ⟨tr', h'⟩ := withSched_modSched (port := port) hj f
      rw [h']
      exact helig _ _
    · rw [hj]; exact helig _ _
    · obtain ⟨tr', h'⟩ := withSched_modSched (port := port) hj f
      rw [h', (hsend _ _).headWire]
      omega
    · show wireFree (drawHead port leaf granted) port = false
      rw [hdraw, wireFree, Tab.getD_set_self]
      simp
  have hfree : wireFree s port = true := by
    rw [wireFree, htx, hsched]
    exact decide_eq_true (Nat.zero_le s.now)
  have hguard : (!s.portUp port || decide (511 < port) || s.halted || !wireFree s port) = false := by
    rw [hu, hh, hfree, decide_eq_false (by omega : ¬ 511 < port)]
    rfl
  have hrow : schedulerRound port s = drawHead port leaf granted := by
    rw [schedulerRound, hguard, if_neg Bool.false_ne_true]
    exact hround
  refine ⟨x, tr, g, ?_, hcopy, ?_, ?_, hlen, hbusy⟩
  · have htx' : Tab.getD (withSched s trg g0).sw.txing port [] = [] := htx
    rw [hrow, hdraw, hg, htx', List.nil_append]
    rfl
  · rw [hstart, hgbusy, hg]
    exact Nat.max_eq_left (Nat.zero_le _)
  · rw [hends, hg]
    rfl

/-- A port that is not UP, or whose wire is not free, draws nothing. -/
theorem schedulerRound_idle (h : s.portUp port = false ∨ wireFree s port = false) : schedulerRound port s = s := by
  have hguard : (!s.portUp port || decide (511 < port) || s.halted || !wireFree s port) = true := by
    rcases h with h | h <;> rw [h] <;> simp
  rw [schedulerRound, hguard]
  rfl

end

/-- Settles O24: a round by its guard or by its one leaf, the end of a transmission by its first frame, the discard by keys. -/
theorem schedulerSendsEligibleFrames : Obligations.SchedulerSendsEligibleFrames := by
  intro t port s u
  refine ⟨fun h => congrArg _ (schedulerRound_idle (s := u) (.inl h)), fun h => congrArg _ (schedulerRound_idle (s := u) (.inr ?busy)),
    ?sends, fun x rest hx hends hcut => ⟨_, rfl, transmitEnd_leaves (s := u) hx hends hcut⟩,
    fun x rest hx hends => congrArg _ (transmitEnd_early (s := u) hx hends),
    fun h => ⟨_, rfl, portDownDiscard_down (s := u) h⟩⟩
  case busy =>
    rcases h with h | h
    · cases hl : Tab.getD s.sw.txing port [] with
      | nil => exact absurd hl h
      | cons x l =>
        rw [wireFree, show Tab.getD u.sw.txing port [] = _ from hl]
        rfl
    · have hbusy : decide ((u.schedOf port).busy ≤ u.now) = false := decide_eq_false (Nat.not_le.2 h)
      rw [wireFree, hbusy, Bool.and_false]
  case sends =>
    intro pipe cls c fr hup hp hh hpipe hcls hvoqs hstale hfr hsched hshapers hpause hfence hep haddr hret hconf hstuck htx hm hv hmem
      hlen hmax htxing
    have hleaf : (cls * 16 + pipe) / 16 = cls := by omega
    have hleaf' : (cls * 16 + pipe) % 16 = pipe := by omega
    have hhead (i : Nat) : headCopy u port i = if voqKey pipe port cls = voqKey (i % 16) port (i / 16) then some c else none := by
      rw [headCopy, Tab.getD, show u.sw.voqs = _ from hvoqs, Tab.get?_cons]
      split <;> rfl
    have hself : headCopy u port (cls * 16 + pipe) = some c := by
      rw [hhead, hleaf, hleaf', if_pos rfl]
    have hother : ∀ i < 128, i ≠ cls * 16 + pipe → headCopy u port i = none := by
      intro i hi hne
      rw [hhead, if_neg]
      simp only [voqKey]
      omega
    obtain ⟨x, tr, g, hrow, hcopy, hstart, hends, hxlen, hbusy⟩ := schedulerRound_sends (s := u) (leaf := cls * 16 + pipe) hup hp hh (by omega)
      hsched hshapers hstale (by rw [hleaf]; exact hpause) htxing hother hmax
      ⟨hself, hfr, hret, hfence, hep, haddr, hconf, hstuck, htx, hm, hv, hlen⟩
    refine ⟨_, x, congrArg Host.Outcome.next hrow, Tab.getD_set_self .., hcopy, hstart, hstart ▸ hends, hxlen, ?_, hbusy, rfl, rfl, rfl⟩
    rw [hleaf, hleaf', Tab.getD_set_self, Tab.getD, show u.sw.voqs = _ from hvoqs, Tab.get?_cons, if_pos rfl]
    rfl

end Sys2Proof.Machine
end

section
/-! PROOFS. Spray cells and their reordering (04 R141–R143). -/

namespace Sys2Proof.Machine

section
variable {port cls src k : Nat} {c : Cell} {r : Reorder} {s : State}

theorem slice_length (p : Bytes) (off n : Nat) : (slice p off n).length = n := by
  simp [slice, zeros]

theorem seqDist_self (q : Nat) : seqDist q q = 0 := by simp [seqDist]

theorem cellsOf_mono {a b : Nat} (h : a ≤ b) : cellsOf a ≤ cellsOf b := by
  simp only [cellsOf, ceilDiv]
  omega

/-- The first cell of a frame that more cells follow opens it, in a context with no frame open. -/
theorem acceptCell_opens (hf : c.first = true) (hl : c.last = false) (ho : r.open_ = []) :
    acceptCell port cls (s, r) c = (s, { r with next := some ((c.seq + 1) % 2 ^ 32), open_ := [c], losing := false }) := by
  simp only [acceptCell, hf, hl, ho, List.isEmpty_nil, if_true, Bool.false_eq_true, if_false]

/-- A context that is met afresh takes the SEQ of its first cell. -/
theorem meet_fresh (now : Time) (q : Nat) : ({} : Reorder).meet now q = { next := some q, last := now } := by
  have h : (if now < ({} : Reorder).last + ms 1 then ({} : Reorder).next.getD q else q) = q := by
    split <;> rfl
  rw [Reorder.meet, h]

/-- The first cell of a new context is accepted (R142). -/
theorem reorderCell_first (hk : Tab.get? s.sw.reorder (sprayKey src port cls) = none) (hf : c.first = true) (hl : c.last = false) :
    reorderCell src port cls c s = setReorder (sprayKey src port cls)
      (s, { next := some ((c.seq + 1) % 2 ^ 32), open_ := [c], last := s.now }) := by
  have hr : Tab.getD s.sw.reorder (sprayKey src port cls) {} = {} := by rw [Tab.getD, hk]; rfl
  have hacc := acceptCell_opens (port := port) (cls := cls) (s := s) (r := { next := some c.seq, last := s.now }) hf hl rfl
  simp only [reorderCell, hr, meet_fresh, Option.getD_some, seqDist_self, if_true, hacc, List.length_nil, acceptRun]

/-- A cell ahead of the sequence is held where the reservoir has room for it (R142, R143). -/
theorem reorderCell_ahead {n : Nat} (hk : Tab.get? s.sw.reorder (sprayKey src port cls) = some r) (hlive : s.now < r.last + ms 1)
    (hn : r.next = some n) (hne : seqDist c.seq n ≠ 0) (hlt : seqDist c.seq n < 2 ^ 31)
    (hroom : s.reorderCells (portDie port) + cellsOf c.data.length ≤ 32768) (hlossy : (s.port c.port).lossless cls = false) :
    reorderCell src port cls c s = setReorder (sprayKey src port cls) (s, { r with next := some n, last := s.now, held := r.held ++ [c] }) := by
  have hr : Tab.getD s.sw.reorder (sprayKey src port cls) {} = r := by rw [Tab.getD, hk]; rfl
  have hmeet : r.meet s.now c.seq = { r with next := some n, last := s.now } := by
    rw [Reorder.meet, if_pos hlive, hn]
    rfl
  have hhold : holdCell (sprayKey src port cls) port cls { r with next := some n, last := s.now } c s =
      setReorder (sprayKey src port cls) (s, { r with next := some n, last := s.now, held := r.held ++ [c] }) := by
    have hov : overruns s (if (s.port c.port).lossless cls then some (c.port, cls) else none) (cellsOf c.data.length) = false := by
      rw [hlossy]
      rfl
    simp only [holdCell, hov, Bool.false_eq_true, if_false, if_pos hroom]
    exact pfcXoff_lossy hlossy
  have hlt' : seqDist c.seq n < 2147483648 := hlt
  simp only [reorderCell, hr, hmeet, Option.getD_some, if_neg hne, if_pos hlt', hhold]

/-- A held cell that has waited beyond REORDER moves the sequence on, the frames skipped being counted lost (R143). -/
theorem reorderTimeout_one {n : Nat} (hk : Tab.get? s.sw.reorder (sprayKey src port cls) = some r) (hh : r.held = [c])
    (hn : r.next = some n) (hf : c.first = true) (hl : c.last = false) (hlate : c.at_ + us (2 * (s.sw.podReorder.toNat + 1)) < s.now) :
    reorderTimeout src port cls s = setReorder (sprayKey src port cls)
      ((s.count (gk 1 5 1 (portDie port)) (skippedFrames s r (seqDist c.seq n))).drawn,
        { r with next := some ((c.seq + 1) % 2 ^ 32), held := [], open_ := [c], losing := false }) := by
  have hany : ([c].any fun x => decide (x.at_ + us (2 * (s.sw.podReorder.toNat + 1)) < s.now)) = true := by
    rw [List.any_cons, decide_eq_true hlate]
    rfl
  have hrun (w : State) : acceptRun port cls 1 (w, { r with next := some c.seq, held := [c], open_ := [], losing := !c.first }) =
      (w, { r with next := some ((c.seq + 1) % 2 ^ 32), held := [], open_ := [c], losing := false }) := by
    have hfilter : [c].filter (fun x => x.seq != c.seq) = [] := by simp
    have htwins : w.count (gk 1 5 0 (portDie port)) (([c].filter fun x => x.seq == c.seq).length - 1) = w := by simp [State.count]
    have hacc := acceptCell_opens (port := port) (cls := cls) (s := w)
      (r := { r with next := some c.seq, open_ := [], losing := !c.first, held := [] }) hf hl rfl
    simp only [acceptRun, List.find?_cons, beq_self_eq_true, hfilter, htwins, hacc]
  simp only [reorderTimeout, hk, hn, hh, List.foldl_cons, List.foldl_nil, hany, if_true, List.length_singleton]
  exact congrArg _ (hrun _)

/-- At least one frame is lost where the sequence skips, and at most one a cell (assumption 93). -/
theorem skippedFrames_bounds {gap : Nat} (hg : gap ≠ 0) (hr : r.losing = false) :
    1 ≤ skippedFrames s r gap ∧ skippedFrames s r gap ≤ gap := by
  have h : skippedFrames s r gap = 1 + s.peekFree % gap := by
    simp only [skippedFrames, if_neg hg, hr, Bool.false_eq_true, if_false]
  have := Nat.mod_lt s.peekFree (Nat.pos_of_ne_zero hg)
  omega

end

/-- The cell a spray frame carries (R141). -/
def cellOf (f : Frame) (now : Time) : Cell :=
  { seq := be f.payload 8 4, first := bitOf (byteAt f.payload 0) 0, last := bitOf (byteAt f.payload 0) 1,
    data := slice f.payload 16 (be f.payload 6 2 % 2048), port := f.port, at_ := now, net := f }

theorem sprayCell_here {f : Frame} {s : State} (hfcs : f.fcsOk = true) (hkind : byteAt f.payload 0 / 16 = 1)
    (hdst : byteAt f.payload 3 % 128 = s.sw.switchId.toNat) :
    sprayCell f s = reorderCell (byteAt f.payload 2 % 128) (be f.payload 4 2 % 512) (byteAt f.payload 1 / 32) (cellOf f s.now) s := by
  unfold sprayCell
  dsimp only
  refine (if_neg (not_not.2 hkind)).trans ((if_neg (not_not.2 hdst)).trans (if_neg ?_))
  rw [hfcs]
  exact Bool.false_ne_true

/-- Settles O23: a cell by where its SEQ lies, the timeout by its one held cell. -/
theorem sprayCellsAreReordered : Obligations.SprayCellsAreReordered := by
  intro t f src port cls s u h k hfcs
  refine ⟨fun hkind => ?bad, fun hkind hdst hsrc hport hcls hfirst hlast => ⟨fun hk => ?first, ?ahead⟩, ?timeout, fun r hk hidle => ?idle⟩
  case bad =>
    refine congrArg Host.Outcome.next ((if_pos hkind).trans ?_)
    rw [hfcs]
    rfl
  case first =>
    subst hsrc hport hcls
    have hrow := (sprayCell_here (s := u) hfcs hkind hdst).trans (reorderCell_first (s := u) (c := cellOf f u.now) hk hfirst hlast)
    exact ⟨_, _, congrArg Host.Outcome.next hrow, Tab.get?_set_self .., rfl, rfl, rfl, rfl, rfl⟩
  case ahead =>
    intro r0 n hk hlive hn hn32 hheld hne hlt hroom hcells hlossy
    subst hsrc hport hcls
    have hlen : (cellOf f u.now).data.length ≤ be h 6 2 % 2048 := (slice_length ..).le
    have hrow := (sprayCell_here (s := u) hfcs hkind hdst).trans (reorderCell_ahead (s := u) (c := cellOf f u.now) hk hlive hn hne hlt
      (Nat.le_trans (Nat.add_le_add_left (Nat.le_trans (cellsOf_mono hlen) hcells) _) hroom) hlossy)
    refine ⟨_, _, congrArg Host.Outcome.next hrow, Tab.get?_set_self .., rfl, ?_, rfl⟩
    rw [hheld]
    rfl
  case timeout =>
    intro r c n hk hheld hn hf hl hlate
    have hrow := reorderTimeout_one (s := u) hk hheld hn hf hl hlate
    refine ⟨_, _, congrArg Host.Outcome.next hrow, Tab.get?_set_self .., rfl, rfl, rfl, fun hlosing hgap => ?_⟩
    obtain ⟨h1, h2⟩ := skippedFrames_bounds (s := u) hgap hlosing
    exact ⟨_, h1, h2, State.gaugeVal_count_self _ _ (by omega)⟩
  case idle =>
    show Host.Outcome.next (reorderIdle src port cls u) = _
    have hk' : Tab.get? u.sw.reorder (sprayKey src port cls) = some r := hk
    simp only [reorderIdle, hk']
    exact congrArg Host.Outcome.next (if_pos hidle)

end Sys2Proof.Machine
end

section
/-! RULES. Reading fields of byte strings that were spliced, sliced or encoded. -/

namespace Sys2Proof.Machine

@[simp] theorem length_toLe (n v : Nat) : (toLe n v).length = n := by simp [toLe]
@[simp] theorem length_toBe (n v : Nat) : (toBe n v).length = n := by simp [toBe]
@[simp] theorem length_zeros (n : Nat) : (zeros n).length = n := by simp [zeros]

theorem byteAt_of_le {p : Bytes} {i : Nat} (h : p.length ≤ i) : byteAt p i = 0 := by
  rw [byteAt, List.getD_eq_getElem?_getD, List.getElem?_eq_none h]
  rfl

theorem byteAt_append_left {p q : Bytes} {i : Nat} (h : i < p.length) : byteAt (p ++ q) i = byteAt p i := by
  simp only [byteAt, List.getD_eq_getElem?_getD, List.getElem?_append_left h]

theorem byteAt_append_right {p q : Bytes} {i : Nat} (h : p.length ≤ i) : byteAt (p ++ q) i = byteAt q (i - p.length) := by
  simp only [byteAt, List.getD_eq_getElem?_getD, List.getElem?_append_right h]

@[simp] theorem byteAt_zeros (n i : Nat) : byteAt (zeros n) i = 0 := by
  by_cases h : i < n
  · simp [byteAt, zeros, h]
  · exact byteAt_of_le (by simpa using h)

theorem byteAt_append_zeros (p : Bytes) (n i : Nat) : byteAt (p ++ zeros n) i = byteAt p i := by
  by_cases h : i < p.length
  · exact byteAt_append_left h
  · rw [byteAt_append_right (Nat.le_of_not_lt h), byteAt_zeros, byteAt_of_le (Nat.le_of_not_lt h)]

theorem byteAt_take {p : Bytes} {n i : Nat} (h : i < n) : byteAt (p.take n) i = byteAt p i := by
  simp only [byteAt, List.getD_eq_getElem?_getD, List.getElem?_take_of_lt h]

theorem byteAt_drop (p : Bytes) (n i : Nat) : byteAt (p.drop n) i = byteAt p (n + i) := by
  simp only [byteAt, List.getD_eq_getElem?_getD, List.getElem?_drop]

theorem byteAt_slice {p : Bytes} {off n i : Nat} (h : i < n) : byteAt (slice p off n) i = byteAt p (off + i) := by
  rw [slice, byteAt_append_zeros, byteAt_take h, byteAt_drop]

theorem byteAt_toLe {n v i : Nat} (h : i < n) : byteAt (toLe n v) i = v / 256 ^ i % 256 := by
  simp [byteAt, toLe, h]

/-- Within the bytes written the new ones are read. -/
theorem byteAt_splice_in {p q : Bytes} {off i : Nat} (h : i < q.length) : byteAt (splice p off q) (off + i) = byteAt q i := by
  have hlen : ((p ++ zeros (off + q.length - p.length)).take off).length = off := by
    rw [List.length_take, List.length_append, length_zeros]
    omega
  rw [splice, List.append_assoc, byteAt_append_right (by omega), hlen, Nat.add_sub_cancel_left, byteAt_append_left h]

/-- Outside the bytes written the old ones are read. -/
theorem byteAt_splice_out {p q : Bytes} {off i : Nat} (h : i < off ∨ off + q.length ≤ i) :
    byteAt (splice p off q) i = byteAt p i := by
  have hlen : ((p ++ zeros (off + q.length - p.length)).take off).length = off := by
    rw [List.length_take, List.length_append, length_zeros]
    omega
  rw [splice, List.append_assoc]
  rcases h with h | h
  · rw [byteAt_append_left (by omega), byteAt_take h, byteAt_append_zeros]
  · rw [byteAt_append_right (by omega), byteAt_append_right (by omega), byteAt_drop, hlen]
    have : off + q.length + (i - off - q.length) = i := by omega
    rw [this, byteAt_append_zeros]

/-! ### Little-endian fields -/

theorem le_congr {p q : Bytes} {off off' n : Nat} (h : ∀ i < n, byteAt p (off + i) = byteAt q (off' + i)) : le p off n = le q off' n := by
  unfold le
  refine List.foldr_ext _ _ _ fun i hi a => ?_
  rw [h i (List.mem_range.1 hi)]

theorem le_splice_in {p q : Bytes} {off n : Nat} (h : n ≤ q.length) : le (splice p off q) off n = le q 0 n :=
  le_congr fun i hi => by rw [byteAt_splice_in (by omega), Nat.zero_add]

theorem le_splice_out {p q : Bytes} {off at_ n : Nat} (h : at_ + n ≤ off ∨ off + q.length ≤ at_) :
    le (splice p off q) at_ n = le p at_ n :=
  le_congr fun i hi => byteAt_splice_out (by omega)

theorem le_slice {p : Bytes} {off n at_ m : Nat} (h : at_ + m ≤ n) : le (slice p off n) at_ m = le p (off + at_) m :=
  le_congr fun i hi => by rw [byteAt_slice (by omega), Nat.add_assoc]

/-- A number written in `n` bytes reads back, its higher bytes lost. -/
theorem le_toLe (n v : Nat) : le (toLe n v) 0 n = v % 256 ^ n := by
  have hsum (m k : Nat) : (List.range' k m).foldr (fun i acc => acc * 256 + v / 256 ^ i % 256) 0 = v / 256 ^ k % 256 ^ m := by
    induction m generalizing k with
    | zero => simp [Nat.mod_one]
    | succ m ih =>
      rw [List.range'_succ, List.foldr_cons, ih (k + 1), Nat.pow_succ, ← Nat.div_div_eq_div_mul, Nat.pow_succ,
        Nat.mul_comm (256 ^ m) 256, Nat.mod_mul, Nat.mul_comm 256, Nat.add_comm]
  have h : le (toLe n v) 0 n = (List.range n).foldr (fun i acc => acc * 256 + v / 256 ^ i % 256) 0 := by
    unfold le
    refine List.foldr_ext _ _ _ fun i hi a => ?_
    rw [Nat.zero_add, byteAt_toLe (List.mem_range.1 hi)]
  rw [h, List.range_eq_range', hsum n 0, Nat.pow_zero, Nat.div_one]

/-! ### Bodies of records -/

/-- The last field written into a record's body reads back. -/
theorem le_recBody_last (fs : List (Nat × Nat × Nat)) (off n v : Nat) :
    le (recBody (fs ++ [(off + 32, n, v)])) off n = v % 256 ^ n := by
  rw [recBody, List.foldl_append, List.foldl_cons, List.foldl_nil]
  simp only [Nat.add_sub_cancel]
  rw [le_splice_in (by simp), le_toLe]

/-- A field written elsewhere leaves the others. -/
theorem le_recBody_other (fs : List (Nat × Nat × Nat)) {off n v at_ m : Nat} (h : at_ + m ≤ off ∨ off + n ≤ at_) :
    le (recBody (fs ++ [(off + 32, n, v)])) at_ m = le (recBody fs) at_ m := by
  rw [recBody, List.foldl_append, List.foldl_cons, List.foldl_nil]
  simp only [Nat.add_sub_cancel]
  rw [le_splice_out (by simpa using h)]
  rfl

theorem byteAt_eq_le (p : Bytes) (i : Nat) : byteAt p i = le p i 1 := by
  simp [le, List.range_succ]

end Sys2Proof.Machine
end

section
/-! PROOFS. Supply and thermal resets, droop, and the throttle level (15 R483–R489). -/

namespace Sys2Proof.Machine

/-! ### Resets -/

section
variable {p : Sample} {s : State} {cause : Nat} {x : Rec} {body : Bytes}

/-- A record as it is written: numbered, with what was lost before it, tagged (17 R516). -/
def writtenRec (x : Rec) (s : State) : Rec :=
  let y := { x with rseq := s.hlt.next, lost := min s.hlt.lostNext 0xFFFFFFFF }
  { y with tag := recTag y }

/-- A written record goes to the permanent region or the ring, in the order written; beside the ledger and its count nothing
changes. -/
theorem writeRec_eq (x : Rec) (s : State) :
    ∃ (e l : List Rec) (g : List (GaugeKey × Nat)), writeRec x s = { s with
      hlt := { s.hlt with perm := s.hlt.perm ++ e, ring := l, next := s.hlt.next + 1, lostNext := 0 }, gauges := g } := by
  unfold writeRec
  dsimp only
  split
  · exact ⟨[writtenRec x s], s.hlt.ring, (s.count (gk 0x0D 0 0) 1).gauges, rfl⟩
  · refine ⟨[], (if s.hlt.ring.length < 229376 then s.hlt.ring else s.hlt.ring.drop 512) ++ [writtenRec x s],
      (s.count (gk 0x0D 0 0) 1).gauges, ?_⟩
    rw [List.append_nil]
    rfl

/-- A record of a permanent type is kept while the permanent region has room. -/
theorem writeRec_perm (ht : permType x.type = true) (hroom : s.hlt.perm.length < 32768) :
    ∃ y, (writeRec x s).hlt.perm = s.hlt.perm ++ [y] ∧ y.type = x.type ∧ y.rseq = s.hlt.next ∧ y.body = x.body := by
  refine ⟨writtenRec x s, ?_, rfl, rfl, rfl⟩
  unfold writeRec
  dsimp only
  exact congrArg Health.perm (if_pos ⟨ht, hroom⟩)

/-- Records written one after the other lengthen the permanent region. -/
theorem foldl_writeRec_eq (l : List Rec) (s : State) :
    ∃ (e r : List Rec) (n m : Nat) (g : List (GaugeKey × Nat)), l.foldl (fun s x => writeRec x s) s =
      { s with hlt := { s.hlt with perm := s.hlt.perm ++ e, ring := r, next := n, lostNext := m }, gauges := g } := by
  induction l generalizing s with
  | nil =>
    refine ⟨[], s.hlt.ring, s.hlt.next, s.hlt.lostNext, s.gauges, ?_⟩
    rw [List.append_nil]
    rfl
  | cons x l ih =>
    obtain ⟨e, r, g, h⟩ := writeRec_eq x s
    obtain ⟨e', r', n, m, g', h'⟩ := ih (writeRec x s)
    refine ⟨e ++ e', r', n, m, g', ?_⟩
    rw [List.foldl_cons, h', h, ← List.append_assoc]

/-- The holdup write: the RESET record first, the buffer emptied (17 R517). -/
theorem holdupWrite_eq (body : Bytes) (s : State) :
    ∃ (h : Health) (g : List (GaugeKey × Nat)), holdupWrite body s = { s with hlt := h, gauges := g } ∧ h.buf = [] ∧
      (s.hlt.perm.length < 32768 → ∃ x, (s.hlt.perm ++ [x]) <+: h.perm ∧ x.type = 0x0002 ∧ x.rseq = s.hlt.next ∧
        x.body = slice body 0 80) := by
  let w : State := { s with hlt := { s.hlt with buf := [], lostAtReset := ringCount s.hlt.buf } }
  let rec_ := mkRec w 0x0002 (srcOf 0 0) body
  obtain ⟨e, r, g, h⟩ := writeRec_eq rec_ w
  obtain ⟨e', r', n, m, g', h'⟩ := foldl_writeRec_eq (s.hlt.buf.filter fun x => permType x.type) (writeRec rec_ w)
  have hrow : holdupWrite body s =
      (s.hlt.buf.filter fun x => permType x.type).foldl (fun s x => writeRec x s) (writeRec rec_ w) := rfl
  refine ⟨{ (writeRec rec_ w).hlt with perm := (writeRec rec_ w).hlt.perm ++ e', ring := r', next := n, lostNext := m }, g', ?_, ?_, fun hroom => ?_⟩
  · rw [hrow, h', h]
  · rw [h]
  · obtain ⟨y, hperm, htype, hseq, hbody⟩ := writeRec_perm (x := rec_) (s := w) rfl hroom
    exact ⟨y, ⟨e', by rw [hperm]⟩, htype, hseq, hbody⟩

/-- The body of a RESET record reads back its cause, input and hottest sensor. -/
theorem resetBody_reads (cause mv tmax : Nat) :
    byteAt (slice (resetBody cause mv tmax) 0 80) 0 = cause % 256 ∧ le (slice (resetBody cause mv tmax) 0 80) 2 2 = mv / 10 % 2 ^ 16 ∧
      byteAt (slice (resetBody cause mv tmax) 0 80) 4 = tmax % 256 := by
  have h3 : resetBody cause mv tmax = recBody ([(0 + 32, 1, cause), (2 + 32, 2, mv / 10)] ++ [(4 + 32, 1, tmax)]) := rfl
  have h2 : ([(0 + 32, 1, cause), (2 + 32, 2, mv / 10)] : List (Nat × Nat × Nat)) = [(0 + 32, 1, cause)] ++ [(2 + 32, 2, mv / 10)] := rfl
  have h1 : ([(0 + 32, 1, cause)] : List (Nat × Nat × Nat)) = [] ++ [(0 + 32, 1, cause)] := rfl
  refine ⟨?_, ?_, ?_⟩
  · rw [byteAt_slice (by decide), byteAt_eq_le, h3, le_recBody_other _ (by decide), h2, le_recBody_other _ (by decide), h1,
      le_recBody_last]
    rfl
  · rw [le_slice (by decide), h3, le_recBody_other _ (by decide), h2, le_recBody_last]
    rfl
  · rw [byteAt_slice (by decide), byteAt_eq_le, h3, le_recBody_last]
    rfl

/-- What a reset leaves: the flash, the instant, the queue, and a RESET record first (R483, R489). -/
theorem enterReset_effect (hc : cause < 256) :
    let v := enterReset cause p s
    let mv := if s.pwr.window then min s.pwr.minMv p.mv else p.mv
    v.pwr.inReset = true ∧ v.pwr.resetCause = cause ∧ v.ports = [] ∧ v.out = s.out ++ [.silence] ∧ v.hlt.buf = [] ∧
      v.kry = State.reset.kry ∧ v.mem = State.reset.mem ∧ v.cis = State.reset.cis ∧ v.bsn.store = [] ∧ v.sec.levees = [] ∧
      v.boot.termCtr = s.boot.termCtr ∧ v.boot.bootCtr = s.boot.bootCtr ∧ v.boot.a = s.boot.a ∧ v.boot.b = s.boot.b ∧ v.boot.c0 = s.boot.c0 ∧
      v.boot.c1 = s.boot.c1 ∧ v.now = s.now ∧ v.pending = s.pending ∧
      (s.hlt.perm.length < 32768 → ∃ x, (s.hlt.perm ++ [x]) <+: v.hlt.perm ∧ x.type = 0x0002 ∧ x.rseq = s.hlt.next ∧
        byteAt x.body 0 = cause ∧ le x.body 2 2 = mv / 10 % 2 ^ 16 ∧ byteAt x.body 4 = p.tmax % 256) := by
  intro v mv
  obtain ⟨h, g, hw, hbuf, hrec⟩ := holdupWrite_eq (resetBody cause mv p.tmax) (countReset cause (s.emit .silence))
  obtain ⟨hb0, hb2, hb4⟩ := resetBody_reads cause mv p.tmax
  have hv : v = poweredOff { holdupWrite (resetBody cause mv p.tmax) (countReset cause (s.emit .silence)) with
      pwr := { (holdupWrite (resetBody cause mv p.tmax) (countReset cause (s.emit .silence))).pwr with
        sample := p, inReset := true, resetCause := cause, cooling := cause == 3,
        outAt := (holdupWrite (resetBody cause mv p.tmax) (countReset cause (s.emit .silence))).now, lastOverRec := none } } := rfl
  rw [hv, hw]
  refine ⟨rfl, rfl, rfl, rfl, hbuf, rfl, rfl, rfl, rfl, rfl, rfl, rfl, rfl, rfl, rfl, rfl, rfl, rfl, fun hroom => ?_⟩
  obtain ⟨x, hpre, htype, hseq, hbody⟩ := hrec hroom
  refine ⟨x, hpre, htype, hseq, ?_⟩
  rw [hbody, hb0, hb2, hb4]
  exact ⟨Nat.mod_eq_of_lt hc, rfl, rfl⟩

theorem supplyReset_low (h : s.pwr.inReset = false) (hp : p.mv < 10200) : supplyReset p s = enterReset 1 p s := by
  simp only [supplyReset, h, Bool.false_eq_true, if_false, if_pos hp]

theorem supplyReset_high (h : s.pwr.inReset = false) (hp : 13000 < p.mv) : supplyReset p s = enterReset 2 p s := by
  simp only [supplyReset, h, Bool.false_eq_true, if_false, if_neg (show ¬ p.mv < 10200 by omega), if_pos hp]

theorem supplyReset_in_range (h : s.pwr.inReset = false) (hp : 10200 ≤ p.mv) (hp' : p.mv ≤ 13000) : supplyReset p s = sampleIn p s := by
  simp only [supplyReset, h, Bool.false_eq_true, if_false, if_neg (Nat.not_lt.2 hp), if_neg (Nat.not_lt.2 hp')]

theorem thermalReset_hot (h : s.pwr.inReset = false) (hp : 105 ≤ p.tmax) : thermalReset p s = enterReset 3 p s :=
  if_pos ⟨hp, by rw [h]; rfl⟩

theorem thermalReset_cool (hp : p.tmax < 105) : thermalReset p s = sampleIn p s := if_neg fun h => absurd h.1 (Nat.not_le.2 hp)

theorem resetRelease_idle (h : s.pwr.inReset = false) : resetRelease p s = sampleIn p s := by
  simp only [resetRelease, h, Bool.not_false, if_true]

theorem resetRelease_out (h : s.pwr.inReset = true) (hp : p.mv < 11400 ∨ 12600 < p.mv) :
    resetRelease p s = { s with pwr := { s.pwr with sample := p, outAt := s.now } } := by
  simp only [resetRelease, h, Bool.not_true, Bool.false_eq_true, if_false, if_pos hp]

theorem resetRelease_in (h : s.pwr.inReset = true) (hp : ¬ (p.mv < 11400 ∨ 12600 < p.mv)) :
    resetRelease p s = if s.pwr.outAt + ms 100 ≤ s.now ∧ (!s.pwr.cooling || decide (p.tmax < 90)) = true then
      { sampleIn p s with pwr := { (sampleIn p s).pwr with inReset := false, cooling := false } } else sampleIn p s := by
  simp only [resetRelease, h, Bool.not_true, Bool.false_eq_true, if_false, if_neg hp]
  rfl

theorem supplyReset_over (h : s.pwr.inReset = true) (hp : 13000 < p.mv) : supplyReset p s = overInReset p s := by
  simp only [supplyReset, h, if_true, if_pos hp]

theorem overInReset_records (hl : s.pwr.lastOverRec = none) :
    (overInReset p s).hlt.next = s.hlt.next + 1 ∧ (overInReset p s).pwr.lastOverRec = some s.now ∧
      (overInReset p s).pwr.inReset = s.pwr.inReset := by
  let w : State := { s with pwr := { s.pwr with sample := p, outAt := s.now } }
  obtain ⟨e, r, g, hw⟩ := writeRec_eq (mkRec w 0x0002 (srcOf 0 0) (resetBody 2 p.mv p.tmax)) w
  have hrow : overInReset p s = { countReset 2 (writeRec (mkRec w 0x0002 (srcOf 0 0) (resetBody 2 p.mv p.tmax)) w) with
      pwr := { (countReset 2 (writeRec (mkRec w 0x0002 (srcOf 0 0) (resetBody 2 p.mv p.tmax)) w)).pwr with
        lastOverRec := some (countReset 2 (writeRec (mkRec w 0x0002 (srcOf 0 0) (resetBody 2 p.mv p.tmax)) w)).now, resetCause := 2 } } := by
    simp only [overInReset, hl, Option.elim_none, if_true]
    rfl
  rw [hrow, hw]
  exact ⟨rfl, rfl, rfl⟩

theorem overInReset_early {a : Time} (hl : s.pwr.lastOverRec = some a) (ha : s.now < a + sec 1) :
    overInReset p s = { s with pwr := { s.pwr with sample := p, outAt := s.now } } := by
  refine if_neg fun h => ?_
  rw [hl, Option.elim_some] at h
  exact absurd (of_decide_eq_true h) (Nat.not_le.2 ha)

end

/-! ### Droop and the throttle level -/

section
variable {p : Sample} {s : State} {die stretched : Nat}

theorem ms_pos {n : Nat} (h : 0 < n) : 0 < ms n := Nat.mul_pos h (by decide)

theorem setLevel_pwr (n : Nat) (s : State) : (setLevel n s).pwr = { s.pwr with level := n, lastStep := s.now } := by
  unfold setLevel
  dsimp only
  split <;> rfl

theorem setLevel_now (n : Nat) (s : State) : (setLevel n s).now = s.now := by
  unfold setLevel
  dsimp only
  split <;> rfl

/-- A reading moves the causes and instants it speaks of. -/
theorem throttleReading_pwr :
    (throttleReading p s).pwr.cause = causesNow p s ∧ (throttleReading p s).pwr.level = s.pwr.level ∧
      (throttleReading p s).pwr.lastStep = s.pwr.lastStep ∧
      (throttleReading p s).pwr.causeAt = (if notCalm p s then s.now else s.pwr.causeAt) ∧
      (throttleReading p s).pwr.hotAt = (if 100 ≤ p.tmax then s.now else s.pwr.hotAt) ∧ (throttleReading p s).now = s.now :=
  ⟨rfl, rfl, rfl, rfl, rfl, rfl⟩

/-- THROTTLE_RAISE goes up by one where a cause holds and 1 ms has passed (R487). -/
theorem throttleRaise_level :
    (throttleRaise p s).pwr.cause = causesNow p s ∧ (throttleRaise p s).pwr.level =
      if causesNow p s ≠ 0 ∧ s.pwr.level < 4 ∧ s.pwr.lastStep + ms 1 ≤ s.now then s.pwr.level + 1 else s.pwr.level := by
  obtain ⟨hcause, hlevel, hstep, -, -, hnow⟩ := throttleReading_pwr (p := p) (s := s)
  have hcond : ((throttleReading p s).pwr.cause != 0 ∧ (throttleReading p s).pwr.level < 4 ∧
      (throttleReading p s).pwr.lastStep + ms 1 ≤ (throttleReading p s).now) ↔
      causesNow p s ≠ 0 ∧ s.pwr.level < 4 ∧ s.pwr.lastStep + ms 1 ≤ s.now := by
    rw [hcause, hlevel, hstep, hnow, bne_iff_ne]
  by_cases h : causesNow p s ≠ 0 ∧ s.pwr.level < 4 ∧ s.pwr.lastStep + ms 1 ≤ s.now
  · rw [if_pos h, throttleRaise, if_pos (hcond.2 h), setLevel_pwr]
    exact ⟨hcause, congrArg (· + 1) hlevel⟩
  · rw [if_neg h, throttleRaise, if_neg fun e => h (hcond.1 e)]
    exact ⟨hcause, hlevel⟩

/-- THROTTLE_LOWER goes down by one where no reading of the last 10 ms kept the level. -/
theorem throttleLower_level : (throttleLower p s).pwr.level =
    if notCalm p s = false ∧ 0 < s.pwr.level ∧ s.pwr.level < 5 ∧ s.pwr.causeAt + ms 10 ≤ s.now ∧ s.pwr.lastStep + ms 10 ≤ s.now then
      s.pwr.level - 1 else s.pwr.level := by
  obtain ⟨-, hlevel, hstep, hat, -, hnow⟩ := throttleReading_pwr (p := p) (s := s)
  have hpos : 0 < ms 10 := ms_pos (by decide)
  have hcond : (0 < (throttleReading p s).pwr.level ∧ (throttleReading p s).pwr.level < 5 ∧
      (throttleReading p s).pwr.causeAt + ms 10 ≤ (throttleReading p s).now ∧
      (throttleReading p s).pwr.lastStep + ms 10 ≤ (throttleReading p s).now) ↔
      notCalm p s = false ∧ 0 < s.pwr.level ∧ s.pwr.level < 5 ∧ s.pwr.causeAt + ms 10 ≤ s.now ∧ s.pwr.lastStep + ms 10 ≤ s.now := by
    rw [hlevel, hstep, hnow, hat]
    generalize ms 10 = d at hpos ⊢
    cases notCalm p s with
    | false => simp
    | true =>
      rw [if_pos rfl]
      exact ⟨fun h => absurd h.2.2.1 (Nat.not_le.2 (Nat.lt_add_of_pos_right hpos)), fun h => absurd h.1 (by decide)⟩
  by_cases h : notCalm p s = false ∧ 0 < s.pwr.level ∧ s.pwr.level < 5 ∧ s.pwr.causeAt + ms 10 ≤ s.now ∧ s.pwr.lastStep + ms 10 ≤ s.now
  · rw [if_pos h, throttleLower, if_pos (hcond.2 h), setLevel_pwr]
    exact congrArg (· - 1) hlevel
  · rw [if_neg h, throttleLower, if_neg fun e => h (hcond.1 e)]
    exact hlevel

/-- LEVEL5 at 103 °C, with its event where the level was another (R488). -/
theorem level5_level : (level5 p s).pwr.level = (if 103 ≤ p.tmax then 5 else s.pwr.level) ∧
    (103 ≤ p.tmax → s.pwr.level ≠ 5 → (level5 p s).pwr.event.getLsbD 2 = true) := by
  obtain ⟨-, hlevel, -⟩ := throttleReading_pwr (p := p) (s := s)
  by_cases h : p.tmax < 103 ∨ (throttleReading p s).pwr.level = 5
  · rw [level5, if_pos h, hlevel]
    refine ⟨?_, fun ht hl => absurd h (by rw [hlevel]; omega)⟩
    rw [hlevel] at h
    split <;> omega
  · let w := (setLevel 5 (throttleReading p s)).ledger 0x0004 (srcOf 0 0)
      (recBody [(32, 1, (setLevel 5 (throttleReading p s)).pwr.cause.toNat), (33, 1, p.tmax)])
    have hw : level5 p s = w.pwrEvent 2 := if_neg h
    have hwl : w.pwr.level = 5 := by
      show (State.ledger ..).pwr.level = 5
      rw [State.ledger_pwr, setLevel_pwr]
    rw [hw, if_pos (by omega)]
    exact ⟨hwl, fun _ _ => getLsbD_setBit_self _ (by decide)⟩

/-- LEVEL5_EXIT to level 4 after 10 ms below 100 °C. -/
theorem level5Exit_level : (level5Exit p s).pwr.level =
    if s.pwr.level = 5 ∧ p.tmax < 100 ∧ s.pwr.hotAt + ms 10 ≤ s.now then 4 else s.pwr.level := by
  obtain ⟨-, hlevel, -, -, hhot, hnow⟩ := throttleReading_pwr (p := p) (s := s)
  have hpos : 0 < ms 10 := ms_pos (by decide)
  have hcond : ((throttleReading p s).pwr.level = 5 ∧ (throttleReading p s).pwr.hotAt + ms 10 ≤ (throttleReading p s).now) ↔
      s.pwr.level = 5 ∧ p.tmax < 100 ∧ s.pwr.hotAt + ms 10 ≤ s.now := by
    rw [hlevel, hnow, hhot]
    generalize ms 10 = d at hpos ⊢
    by_cases hot : 100 ≤ p.tmax
    · rw [if_pos hot]
      exact ⟨fun h => absurd h.2 (Nat.not_le.2 (Nat.lt_add_of_pos_right hpos)), fun h => absurd h.2.1 (Nat.not_lt.2 hot)⟩
    · rw [if_neg hot]
      exact ⟨fun h => ⟨h.1, Nat.not_le.1 hot, h.2⟩, fun h => ⟨h.1, h.2.2⟩⟩
  by_cases h : s.pwr.level = 5 ∧ p.tmax < 100 ∧ s.pwr.hotAt + ms 10 ≤ s.now
  · rw [if_pos h, level5Exit, if_pos (hcond.2 h), setLevel_pwr]
  · rw [if_neg h, level5Exit, if_neg fun e => h (hcond.1 e)]
    exact hlevel

/-- An interval over the limit raises the level by one, up to 4, and sets DROOP (R485). -/
theorem droopInterval_high (hd : die ≤ 1) (h : arithMhz s * 1000 < 1024 * stretched) :
    (droopInterval die stretched s).pwr.level = (if s.pwr.level < 4 then s.pwr.level + 1 else s.pwr.level) ∧
      (droopInterval die stretched s).pwr.cause.getLsbD 2 = true ∧ (droopInterval die stretched s).pwr.droop.getLsbD die = true := by
  let w : State := { s.count (gk 0x0C 1 0 die) stretched with pwr := { s.pwr with
    droop := setBit s.pwr.droop die, cause := setBit s.pwr.cause 2, causeAt := s.now } }
  have hrow : droopInterval die stretched s = if s.pwr.level < 4 then (setLevel (s.pwr.level + 1) w).pwrEvent 1 else w := by
    unfold droopInterval
    dsimp only
    rw [if_neg (Nat.not_lt.2 hd), decide_eq_true h]
    rfl
  have hcause : w.pwr.cause.getLsbD 2 = true := getLsbD_setBit_self _ (by decide)
  have hdroop : w.pwr.droop.getLsbD die = true := getLsbD_setBit_self _ (by omega)
  rw [hrow]
  split
  · rw [State.pwrEvent, State.mark]
    dsimp only
    rw [setLevel_pwr]
    exact ⟨rfl, hcause, hdroop⟩
  · exact ⟨rfl, hcause, hdroop⟩

theorem droopInterval_low (hd : die ≤ 1) (h : 1024 * stretched ≤ arithMhz s * 1000) :
    (droopInterval die stretched s).pwr.level = s.pwr.level ∧ (droopInterval die stretched s).pwr.droop.getLsbD die = false := by
  have hrow : droopInterval die stretched s =
      { s.count (gk 0x0C 1 0 die) stretched with pwr := { s.pwr with droop := clearBit s.pwr.droop die } } := by
    unfold droopInterval
    dsimp only
    rw [if_neg (Nat.not_lt.2 hd), decide_eq_false (Nat.not_lt.2 h)]
    rfl
  rw [hrow]
  refine ⟨rfl, ?_⟩
  rw [getLsbD_clearBit, decide_eq_true rfl, Bool.not_true, Bool.and_false]

end

/-- Settles O52: resets by what is left with the rails off and the record written first; the levels by their readings. -/
theorem resetsAndThrottling : Obligations.ResetsAndThrottling := by
  intro t p s u mv resets
  refine ⟨fun h => ⟨fun hp => ⟨_, congrArg Host.Outcome.next (supplyReset_low (s := u) h hp), enterReset_effect (s := u) (cause := 1) (by decide)⟩,
      fun hp => ⟨_, congrArg Host.Outcome.next (supplyReset_high (s := u) h hp), enterReset_effect (s := u) (cause := 2) (by decide)⟩,
      fun hp hp' => ⟨_, congrArg Host.Outcome.next (supplyReset_in_range (s := u) h hp hp'), h, rfl, rfl, rfl, rfl⟩,
      fun hp => ⟨_, congrArg Host.Outcome.next (thermalReset_hot (s := u) h hp), enterReset_effect (s := u) (cause := 3) (by decide)⟩,
      fun hp => ⟨_, congrArg Host.Outcome.next (thermalReset_cool (s := u) hp), h, rfl, rfl⟩,
      ⟨_, congrArg Host.Outcome.next (resetRelease_idle (s := u) h), h, rfl⟩⟩,
    fun h => ⟨fun hmin hmax hout hcool => ?release, fun hp => congrArg Host.Outcome.next (resetRelease_out (s := u) h hp), fun hlate => ?held,
      fun hp => ⟨fun hl => ?records, fun a hl ha => ?early⟩⟩, ?droop, ⟨_, rfl, throttleRaise_level (s := u)⟩,
    ⟨_, rfl, throttleLower_level (s := u)⟩, ⟨_, rfl, level5_level (s := u)⟩, ⟨_, rfl, level5Exit_level (s := u)⟩⟩
  case release =>
    have hc : (!u.pwr.cooling || decide (p.tmax < 90)) = true := by
      cases hco : u.pwr.cooling with
      | false => rfl
      | true => exact decide_eq_true (hcool hco)
    have hrow := (resetRelease_in (s := u) (p := p) h (by omega)).trans (if_pos ⟨hout, hc⟩)
    exact ⟨_, congrArg Host.Outcome.next hrow, rfl, rfl, rfl⟩
  case held =>
    by_cases hp : p.mv < 11400 ∨ 12600 < p.mv
    · exact ⟨_, congrArg Host.Outcome.next (resetRelease_out (s := u) h hp), h⟩
    · refine ⟨_, congrArg Host.Outcome.next ((resetRelease_in (s := u) (p := p) h hp).trans (if_neg fun hc => ?_)), h⟩
      obtain ⟨h1, h2⟩ := hc
      rcases hlate with hl | ⟨hco, ht⟩
      · exact absurd h1 (Nat.not_le.2 hl)
      · rw [show u.pwr.cooling = true from hco, decide_eq_false (Nat.not_lt.2 ht)] at h2
        exact Bool.noConfusion h2
  case records =>
    obtain ⟨h1, h2, h3⟩ := overInReset_records (s := u) (p := p) hl
    exact ⟨_, congrArg Host.Outcome.next (supplyReset_over (s := u) h hp), h1, h2, h3.trans h⟩
  case early =>
    have hrow := (supplyReset_over (s := u) (p := p) h hp).trans (overInReset_early (s := u) hl ha)
    exact ⟨_, congrArg Host.Outcome.next hrow, rfl, h⟩
  case droop =>
    intro die stretched hd
    refine ⟨⟨_, congrArg Host.Outcome.next (if_neg (Nat.not_lt.2 hd)), rfl, rfl⟩, congrArg Host.Outcome.next (if_neg (Nat.not_lt.2 hd)),
      fun h => ⟨_, rfl, droopInterval_high (s := u) hd h⟩, fun h => ⟨_, rfl, droopInterval_low (s := u) hd h⟩⟩

end Sys2Proof.Machine
end

section
/-! PROOFS. Rules for records of an empty ledger buffer and for the basins' table. -/

namespace Sys2Proof.Machine

/-! ### The ledger buffer -/

/-- A record that finds the buffer empty is buffered as it is. -/
theorem State.ledger_buf_of_empty {s : State} (h : s.hlt.buf = []) (type source : Nat) (body : Bytes) :
    (s.ledger type source body).hlt.buf = [mkRec s type source body] := by
  unfold State.ledger
  dsimp only
  split
  · rw [if_pos (by rw [h]; decide), h]
    rfl
  · rw [h]
    exact congrArg (fun w : State => w.hlt.buf) (if_pos (by decide))

/-- A field of a record reads back through the body the record keeps. -/
theorem le_mkRec_body (s : State) (type source : Nat) (body : Bytes) {off n : Nat} (h : off + n ≤ 80) :
    le (mkRec s type source body).body off n = le body off n := by
  rw [mkRec, le_slice h, Nat.zero_add]

/-- A field of a record's body reads back where no later field lies on it. -/
theorem le_recBody_field {fs pre post : List (Nat × Nat × Nat)} {off n v : Nat} (hfs : fs = pre ++ (off + 32, n, v) :: post)
    (h : ∀ f ∈ post, off + n ≤ f.1 - 32 ∨ f.1 - 32 + f.2.1 ≤ off) : le (recBody fs) off n = v % 256 ^ n := by
  have hkeep : ∀ b : Bytes, le (post.foldl (fun b f => splice b (f.1 - 32) (toLe f.2.1 f.2.2)) b) off n = le b off n := by
    induction post generalizing fs with
    | nil => exact fun _ => rfl
    | cons f post ih =>
      intro b
      rw [List.foldl_cons, ih rfl fun g hg => h g (List.mem_cons_of_mem f hg)]
      exact le_splice_out (by simpa using h f List.mem_cons_self)
  have hsplit : fs = (pre ++ [(off + 32, n, v)]) ++ post := by rw [hfs, List.append_assoc]; rfl
  rw [recBody, hsplit, List.foldl_append, hkeep]
  exact le_recBody_last pre off n v

/-! ### The basins' table -/

theorem Tab.get?_mapVals {α : Type} (t : Tab α) (f : Nat → α → α) (k : Nat) :
    Tab.get? (Tab.mapVals t f) k = (Tab.get? t k).map (f k) := by
  induction t with
  | nil => rfl
  | cons e r ih =>
    obtain ⟨i, w⟩ := e
    simp only [Tab.mapVals, List.map_cons, Tab.get?_cons] at ih ⊢
    split
    next h => rw [h, Option.map_some]
    next => exact ih

theorem State.basin_setBasin (s : State) (b : Nat) (x : Basin) (c : Nat) :
    (s.setBasin b x).basin c = if b = c then x else s.basin c := by
  by_cases h : b = c
  · rw [if_pos h, h, State.basin_setBasin_self]
  · rw [if_neg h]
    exact Tab.getD_set_ne _ _ _ h

theorem State.basin_modBasin (s : State) (b : Nat) (f : Basin → Basin) (c : Nat) :
    (s.modBasin b f).basin c = if b = c then f (s.basin c) else s.basin c := by
  rw [State.modBasin, State.basin_setBasin]
  split
  next h => rw [h]
  next => rfl

end Sys2Proof.Machine
end

section
/-! PROOFS. The dip window (15 R479–R482). -/

namespace Sys2Proof.Machine

section
variable {p : Sample} {s : State}

/-! ### The window opens and the input rises -/

theorem dipStart_high (h : s.pwr.window = false) (hp : 11000 ≤ p.mv) :
    dipStart p s = { s with pwr := { s.pwr with sample := p } } := by
  rw [dipStart, if_pos hp, sampleIn, h]
  rfl

theorem dipStart_opens (hr : s.pwr.inReset = false) (hw : s.pwr.window = false) (hp : p.mv < 11000) :
    dipStart p s = windowOpen p.mv (sampleIn p s) := by
  rw [dipStart, if_neg (Nat.not_le.2 hp)]
  exact (if_neg fun h => Bool.noConfusion (hr.symm.trans h)).trans (if_neg fun h => Bool.noConfusion (hw.symm.trans h))

/-- A basin whose replay a new window interrupts (09 R300). -/
def restarted (x : Basin) : Basin := if x.replaying then { x with restarts := x.restarts + 1 } else x

/-- A window opened over a pending replay starts that replay again (09 R300). -/
theorem windowOpen_restarts (mv b : Nat) :
    ((windowOpen mv s).basin b).restarts = (s.basin b).restarts + if (s.basin b).replaying then 1 else 0 := by
  have hget : (windowOpen mv s).basin b = ((Tab.get? s.bsn.tab b).map restarted).getD {} :=
    congrArg (fun o : Option Basin => o.getD {}) (Tab.get?_mapVals s.bsn.tab (fun _ => restarted) b)
  rw [hget, State.basin, Tab.getD]
  cases Tab.get? s.bsn.tab b with
  | none => rfl
  | some x =>
    rw [Option.map_some, Option.getD_some, Option.getD_some]
    unfold restarted
    cases x.replaying <;> rfl

theorem windowOpen_effect (mv : Nat) :
    let v := windowOpen mv s
    v.pwr.window = true ∧ v.pwr.halved = true ∧ v.pwr.warnedAt = s.now + ns 40 ∧ v.pwr.frozenAt = s.now + ns 80 ∧ v.pwr.minMv = mv ∧
      v.pwr.event.getLsbD 0 = true ∧ v.pwr.level = s.pwr.level ∧
      (∀ b, (v.basin b).restarts = (s.basin b).restarts + (if (s.basin b).replaying then 1 else 0)) ∧ v.mem = s.mem ∧ v.cis = s.cis ∧
      v.bsn.store = s.bsn.store ∧ v.flm = s.flm ∧ v.kry = s.kry ∧ v.out = s.out :=
  ⟨rfl, rfl, rfl, rfl, rfl, getLsbD_setBit_self _ (by decide), rfl, windowOpen_restarts mv, rfl, rfl, rfl, rfl, rfl, rfl⟩

theorem dipRecovery_rise (hw : s.pwr.window = true) (hh : s.pwr.halved = true) (hp : 11200 < p.mv) :
    dipRecovery p s =
      { sampleIn p s with pwr := { (sampleIn p s).pwr with riseAt := some (s.pwr.riseAt.getD s.now) } } :=
  (if_pos (show (s.pwr.window && s.pwr.halved) = true by rw [hw, hh]; rfl)).trans (if_pos hp)

theorem dipRecovery_fall (hw : s.pwr.window = true) (hh : s.pwr.halved = true) (hp : p.mv ≤ 11200) :
    dipRecovery p s = { s with pwr := { s.pwr with sample := p, minMv := min s.pwr.minMv p.mv, riseAt := none } } := by
  have h : dipRecovery p s = { sampleIn p s with pwr := { (sampleIn p s).pwr with riseAt := none } } :=
    (if_pos (show (s.pwr.window && s.pwr.halved) = true by rw [hw, hh]; rfl)).trans (if_neg (Nat.not_lt.2 hp))
  rw [h, sampleIn, hw]
  rfl

/-- The clocks come back 10 µs after the rise, not before. -/
theorem clockRestore_eq {a : Time} (hw : s.pwr.window = true) (hh : s.pwr.halved = true) (ha : s.pwr.riseAt = some a) :
    clockRestore s = if a + us 10 ≤ s.now then { s with pwr := { s.pwr with halved := false, restoredAt := some s.now } } else s := by
  unfold clockRestore
  rw [ha]
  dsimp only
  rw [hw, hh]
  by_cases h : a + us 10 ≤ s.now
  · rw [if_pos h, decide_eq_true h]
    rfl
  · rw [if_neg h, decide_eq_false h]
    rfl

/-! ### The window closes -/

/-- A basin with nothing under way, no chains and no blocks taken in has nothing unfinished. -/
theorem unfinished_idle {b : Nat} (hc : s.flm.chains = []) (hi : (s.basin b).inbound = []) : unfinished s b = [] := by
  have hcur : (s.basin b).current.bind (fun c => (s.chain c).map fun y => BasinOp.desc c y.idx) = none := by
    cases (s.basin b).current with
    | none => rfl
    | some c => rw [Option.bind_some, State.chain, hc]; rfl
  have hwait : chainsOn s b = [] := by rw [chainsOn, hc]; rfl
  unfold unfinished
  dsimp only
  rw [hcur, hwait, hi]
  rfl

/-- What an idle basin holds when the window closes: it replays what it tagged, else it lets its retention go (09 R297). -/
def shutBasin (x : Basin) : Basin :=
  if x.tagged.isEmpty then { x with inbound := [], holdBytes := 0, undo := [], replaying := false } else { x with replaying := true }

theorem basinShut_idle {b : Nat} (hc : s.flm.chains = []) (hi : (s.basin b).inbound = []) : basinShut b s = s.modBasin b shutBasin := by
  unfold basinShut
  rw [unfinished_idle hc hi]
  rfl

theorem shutBasin_tagged (x : Basin) : (shutBasin x).tagged = x.tagged := by
  unfold shutBasin
  split <;> rfl

theorem shutBasin_replaying (x : Basin) : (shutBasin x).replaying = !x.tagged.isEmpty := by
  unfold shutBasin
  split
  next h => rw [h]; rfl
  next h => rw [Bool.eq_false_iff.2 h]; rfl

theorem shutBasin_inbound {x : Basin} (h : x.inbound = []) : (shutBasin x).inbound = [] := by
  unfold shutBasin
  split
  · rfl
  · exact h

/-- The idle basins of a list shut: the basins' table alone changes, each of them to what it holds shut. -/
theorem foldl_basinShut (l : List Nat) (hc : s.flm.chains = []) (hi : ∀ b, (s.basin b).inbound = []) :
    ∃ tab, l.foldl (fun s b => basinShut b s) s = { s with bsn := { s.bsn with tab := tab } } ∧
      ∀ b, (Tab.getD tab b {}).tagged = (s.basin b).tagged ∧
        (Tab.getD tab b {}).replaying = if b ∈ l then !(s.basin b).tagged.isEmpty else (s.basin b).replaying := by
  induction l generalizing s with
  | nil => exact ⟨s.bsn.tab, rfl, fun b => ⟨rfl, rfl⟩⟩
  | cons a l ih =>
    let w := s.modBasin a shutBasin
    have hw : ∀ b, w.basin b = if a = b then shutBasin (s.basin b) else s.basin b := State.basin_modBasin s a shutBasin
    obtain ⟨tab, hfold, hread⟩ := ih (s := w) hc fun b => by
      rw [hw]
      split
      · exact shutBasin_inbound (hi b)
      · exact hi b
    refine ⟨tab, ?_, fun b => ?_⟩
    · rw [List.foldl_cons, basinShut_idle hc (hi a)]
      exact hfold
    · obtain ⟨htag, hrep⟩ := hread b
      have htag' : (w.basin b).tagged = (s.basin b).tagged := by
        rw [hw]
        split
        · exact shutBasin_tagged _
        · rfl
      refine ⟨htag.trans htag', ?_⟩
      rw [hrep, htag', hw]
      by_cases hab : a = b
      · rw [if_pos hab, shutBasin_replaying, if_pos (List.mem_cons.2 (Or.inl hab.symm)), ite_self]
      · rw [if_neg hab]
        simp only [List.mem_cons, Ne.symm hab, false_or]

/-- A table with nothing under a number has no entry of that number: its default is read. -/
theorem Tab.getD_of_not_mem_keys {α : Type} {t : Tab α} {k : Nat} (h : k ∉ t.map (·.1)) (d : α) : Tab.getD t k d = d := by
  have hnone : Tab.get? t k = none := Tab.get?_none_of_keys fun e he heq => h (List.mem_map.2 ⟨e, he, heq⟩)
  rw [Tab.getD, hnone]
  rfl

/-- A window closed on basins that have shut: the record, the gauges, and what the power manager keeps of it (R482). -/
def dipClosed (units : Nat) (s : State) : State :=
  let s := s.ledger 0x0003 (srcOf 0 0) (dipBody s s.pwr.minMv units s.pwr.sustained false (replayCounts s).1 (replayCounts s).2)
  let s := (s.count (gk 0x0C 0 1) (nsOf (s.now - s.pwr.warnedAt))).count (gk 0x0C 0 3) (nsOf (s.now - s.pwr.frozenAt))
  { s with
    hlt := { s.hlt with totals := s.hlt.totals.set 2 (s.hlt.totals.getD 2 0 + 1) },
    pwr := { s.pwr with
      window := false, riseAt := none, restoredAt := none, sustained := false,
      dipMin := BitVec.ofNat 12 (s.pwr.minMv / 10), dipDur := BitVec.ofNat 20 (min units 0xFFFFF) } }

theorem windowClose_eq : windowClose s = retireProgress (groupProgress (destroyProgress
    (dipClosed (dipUnits s) ((s.bsn.tab.map (·.1)).foldl (fun s b => basinShut b s) s)))) := rfl

/-- Beside the power manager, the ledger and the gauges a window closed on shut basins changes nothing. -/
theorem dipClosed_eq (units : Nat) : ∃ h g, dipClosed units s = { s with hlt := h, gauges := g, pwr := { s.pwr with
    window := false, riseAt := none, restoredAt := none, sustained := false, dipMin := BitVec.ofNat 12 (s.pwr.minMv / 10),
    dipDur := BitVec.ofNat 20 (min units 0xFFFFF) } } := by
  unfold dipClosed
  dsimp only
  obtain ⟨h, g, e⟩ := s.ledger_eq 0x0003 (srcOf 0 0)
    (dipBody s s.pwr.minMv units s.pwr.sustained false (replayCounts s).1 (replayCounts s).2)
  rw [e]
  exact ⟨_, _, rfl⟩

/-- The DIP record of a window closed over an empty buffer. -/
theorem dipClosed_record (units : Nat) (hbuf : s.hlt.buf = []) : ∃ x, (dipClosed units s).hlt.buf = [x] ∧ x.type = 0x0003 ∧
    x.time = s.usec ∧ le x.body 0 2 = s.pwr.minMv / 10 % 2 ^ 16 ∧ le x.body 2 4 = units % 2 ^ 32 := by
  let body := dipBody s s.pwr.minMv units s.pwr.sustained false (replayCounts s).1 (replayCounts s).2
  let flags := ofBool s.pwr.sustained + 2 * ofBool false
  let tail : List (Nat × Nat × Nat) :=
    [(38, 1, s.pwr.level), (39, 1, flags), (40, 4, (replayCounts s).1), (44, 4, (replayCounts s).2)]
  have hmv : body = recBody ([] ++ (0 + 32, 2, s.pwr.minMv / 10) :: (2 + 32, 4, units) :: tail) := rfl
  have hunits : body = recBody ([(0 + 32, 2, s.pwr.minMv / 10)] ++ (2 + 32, 4, units) :: tail) := rfl
  refine ⟨mkRec s 0x0003 (srcOf 0 0) body, State.ledger_buf_of_empty hbuf .., rfl, rfl, ?_, ?_⟩
  · rw [le_mkRec_body _ _ _ _ (by decide), hmv, le_recBody_field rfl (by simp [tail])]
    rfl
  · rw [le_mkRec_body _ _ _ _ (by decide), hunits, le_recBody_field rfl (by simp [tail])]
    rfl

/-- Nothing to destroy and nothing to retire: the close ends there. -/
theorem progress_idle (hq : s.flm.queues = []) (hg : s.col.groups = []) (hl : ∀ e ∈ s.sec.levees, e.2.retiring = false) :
    retireProgress (groupProgress (destroyProgress s)) = s := by
  have hlev : s.sec.levees.filter (fun e => e.2.retiring) = [] :=
    List.filter_eq_nil_iff.2 fun e he h => Bool.noConfusion ((hl e he).symm.trans h)
  rw [destroyProgress, hq, List.filter_nil, List.foldl_nil, groupProgress, hg, List.filter_nil, List.foldl_nil,
    retireProgress, hlev, List.foldl_nil]

/-- With no queues, groups or retiring levees the window closes on the basins, the record, the gauges and the ledger alone. -/
theorem windowClose_idle (hbuf : s.hlt.buf = []) (hq : s.flm.queues = []) (hc : s.flm.chains = []) (hg : s.col.groups = [])
    (hi : ∀ b, (s.basin b).inbound = []) (hl : ∀ e ∈ s.sec.levees, e.2.retiring = false) :
    ∃ x, (windowClose s).pwr.window = false ∧ (windowClose s).pwr.halved = s.pwr.halved ∧
      (windowClose s).pwr.dipMin = BitVec.ofNat 12 (s.pwr.minMv / 10) ∧
      (windowClose s).pwr.dipDur = BitVec.ofNat 20 (min (dipUnits s) 0xFFFFF) ∧
      (windowClose s).hlt.buf = [x] ∧ x.type = 0x0003 ∧ x.time = s.usec ∧ le x.body 0 2 = s.pwr.minMv / 10 % 2 ^ 16 ∧
      le x.body 2 4 = dipUnits s % 2 ^ 32 ∧
      (∀ b, ((windowClose s).basin b).replaying = !(s.basin b).tagged.isEmpty ∧
        ((windowClose s).basin b).tagged = (s.basin b).tagged) ∧
      (windowClose s).bsn.store = s.bsn.store ∧ (windowClose s).cis = s.cis ∧ (windowClose s).out = s.out := by
  obtain ⟨tab, hfold, hread⟩ := foldl_basinShut (s := s) (s.bsn.tab.map (·.1)) hc hi
  let w : State := { s with bsn := { s.bsn with tab := tab } }
  obtain ⟨h, g, hclosed⟩ := dipClosed_eq (s := w) (dipUnits s)
  obtain ⟨x, hx⟩ := dipClosed_record (s := w) (dipUnits s) hbuf
  have hclose : windowClose s = dipClosed (dipUnits s) w := by
    rw [windowClose_eq, hfold]
    refine progress_idle ?_ ?_ ?_ <;> rw [hclosed]
    exacts [hq, hg, hl]
  refine ⟨x, ?_⟩
  rw [hclose]
  obtain ⟨hbuf', htype, htime, hmv, hunits⟩ := hx
  refine ⟨?_, ?_, ?_, ?_, hbuf', htype, htime, hmv, hunits, fun b => ?basins, ?_, ?_, ?_⟩
  case basins =>
    rw [hclosed]
    obtain ⟨htag, hrep⟩ := hread b
    refine ⟨hrep.trans ?_, htag⟩
    split
    · rfl
    next hmem =>
      rw [State.basin, Tab.getD_of_not_mem_keys hmem]
      rfl
  all_goals rw [hclosed]

theorem dipWindowClose_eq {a : Time} (hw : s.pwr.window = true) (hh : s.pwr.halved = false) (ha : s.pwr.restoredAt = some a) :
    dipWindowClose s = if a + ns 200 ≤ s.now then windowClose s else s := by
  unfold dipWindowClose
  rw [ha]
  dsimp only
  rw [hw, hh]
  by_cases h : a + ns 200 ≤ s.now
  · rw [if_pos h, decide_eq_true h]
    rfl
  · rw [if_neg h, decide_eq_false h]
    rfl

/-! ### Sustained dips and low input -/

theorem sustainedDip_late (hw : s.pwr.window = true) (hs : s.pwr.sustained = false) (h : s.pwr.frozenAt + ms 100 ≤ s.now) :
    (sustainedDip s).pwr.sustained = true ∧ (sustainedDip s).pwr.window = true ∧
      (s.hlt.buf = [] → ∃ x, (sustainedDip s).hlt.buf = [x] ∧ x.type = 0x0003) := by
  let w := s.ledger 0x0003 (srcOf 0 0) (dipBody s s.pwr.minMv (dipUnits s) true true 0 0)
  have hrow : sustainedDip s = { w with pwr := { w.pwr with sustained := true } }.count (gk 0x0C 0 2) 1 :=
    if_pos (by rw [hw, hs, decide_eq_true h]; rfl)
  rw [hrow]
  refine ⟨rfl, ?_, fun hbuf => ⟨_, State.ledger_buf_of_empty hbuf .., rfl⟩⟩
  show w.pwr.window = true
  rw [State.ledger_pwr, hw]

theorem sustainedDip_early (h : s.now < s.pwr.frozenAt + ms 100) : sustainedDip s = s :=
  if_neg fun e => absurd (of_decide_eq_true (Bool.and_eq_true_iff.1 e).2) (Nat.not_le.2 h)

theorem lowInput_flag : (lowInput p s).pwr.sample = p ∧
    (lowInput p s).pwr.lowInput = (if p.mv < 11400 then true else if 11500 < p.mv then false else s.pwr.lowInput) := by
  unfold lowInput
  dsimp only
  split
  · exact ⟨rfl, rfl⟩
  · split
    · exact ⟨rfl, rfl⟩
    · exact ⟨rfl, rfl⟩

end

/-- Settles O51: the window's opening and close by what they leave, the close over basins with nothing unfinished. -/
theorem dipsHalveTheClocksAndClose : Obligations.DipsHalveTheClocksAndClose := by
  intro t p s u
  refine ⟨fun hr hw => ⟨fun hp => ⟨_, congrArg Host.Outcome.next (dipStart_opens (s := u) hr hw hp), windowOpen_effect p.mv⟩,
      fun hp => congrArg Host.Outcome.next (dipStart_high (s := u) hw hp)⟩,
    fun hw hh => ⟨fun hp => ⟨_, congrArg Host.Outcome.next (dipRecovery_rise (s := u) hw hh hp), rfl, hh⟩,
      fun hp => ⟨_, congrArg Host.Outcome.next (dipRecovery_fall (s := u) hw hh hp), rfl, rfl⟩,
      fun a ha => ⟨fun he => ?early, fun hl => ?restored⟩⟩,
    fun a hw hh ha => ⟨fun he => ?open_, fun hl hbuf hq hc hg hi hlev => ?closed⟩,
    fun hw hs => ⟨fun hl => ⟨_, rfl, sustainedDip_late (s := u) hw hs hl⟩,
      fun he => congrArg Host.Outcome.next (sustainedDip_early (s := u) he)⟩,
    ⟨_, rfl, lowInput_flag (s := u)⟩⟩
  case early => exact congrArg Host.Outcome.next ((clockRestore_eq (s := u) hw hh ha).trans (if_neg (Nat.not_le.2 he)))
  case restored => exact congrArg Host.Outcome.next ((clockRestore_eq (s := u) hw hh ha).trans (if_pos hl))
  case open_ => exact congrArg Host.Outcome.next ((dipWindowClose_eq (s := u) hw hh ha).trans (if_neg (Nat.not_le.2 he)))
  case closed =>
    obtain ⟨x, hwin, hhalved, hrest⟩ := windowClose_idle (s := u) hbuf hq hc hg hi hlev
    have hrow := (dipWindowClose_eq (s := u) hw hh ha).trans (if_pos hl)
    exact ⟨_, x, congrArg Host.Outcome.next hrow, hwin, hhalved.trans hh, hrest⟩

end Sys2Proof.Machine
end

section
/-! PROOFS. The ledger, its readout, margins, gauges and the TAP (17 R510–R521, 18 R544). -/

namespace Sys2Proof.Machine

/-! ### Records into the buffer -/

section
variable {s : State} {type source : Nat} {body : Bytes}

/-- A record of a permanent type is buffered while the buffer has room. -/
theorem State.ledger_perm (hp : permType type = true) (hroom : s.hlt.buf.length < 512) :
    (s.ledger type source body).hlt.buf = s.hlt.buf ++ [mkRec s type source body] := by
  have h : s.ledger type source body = { s with hlt := { s.hlt with buf := s.hlt.buf ++ [mkRec s type source body] } } :=
    (if_pos hp).trans (if_pos hroom)
  rw [h]

/-- The record an event of a ring type may join: of its type and source, a second old at most (17 R514). -/
def coalesces (s : State) (type source : Nat) (x : Rec) : Bool :=
  !permType x.type && x.type == type && x.source == source && decide (s.usec < x.time + 1000000)

/-- A record of a ring type, by the youngest buffered one it may join. -/
theorem State.ledger_ring (hp : permType type = false) : s.ledger type source body =
    match s.hlt.buf.reverse.find? (coalesces s type source) with
    | some x =>
      if x.count < 255 then
        match updLast (coalesces s type source) (fun y => { y with count := y.count + 1 }) s.hlt.buf with
        | some b => { s with hlt := { s.hlt with buf := b } }.count (gk 0x0D 0 1) 1
        | none => s
      else if ringCount s.hlt.buf < 448 ∧ s.hlt.buf.length < 512 then
        { s with hlt := { s.hlt with buf := s.hlt.buf ++ [mkRec s type source body] } }
      else ledgerDiscard s
    | none =>
      if ringCount s.hlt.buf < 448 ∧ s.hlt.buf.length < 512 then
        { s with hlt := { s.hlt with buf := s.hlt.buf ++ [mkRec s type source body] } }
      else ledgerDiscard s := by
  refine (if_neg fun h => Bool.noConfusion (hp.symm.trans h)).trans ?_
  rfl

/-- No buffered record of the type: none to join. -/
theorem find_coalesces_none (h : ∀ x ∈ s.hlt.buf, x.type ≠ type) :
    s.hlt.buf.reverse.find? (coalesces s type source) = none := by
  refine List.find?_eq_none.2 fun x hx hc => ?_
  simp only [coalesces, Bool.and_eq_true, beq_iff_eq] at hc
  exact h x (List.mem_reverse.1 hx) hc.1.1.2

theorem State.ledger_ring_fresh (hp : permType type = false) (h : ∀ x ∈ s.hlt.buf, x.type ≠ type) : s.ledger type source body =
    if ringCount s.hlt.buf < 448 ∧ s.hlt.buf.length < 512 then
      { s with hlt := { s.hlt with buf := s.hlt.buf ++ [mkRec s type source body] } }
    else ledgerDiscard s := by
  rw [State.ledger_ring hp, find_coalesces_none h]

theorem State.ledger_ring_joins {x : Rec} (hp : permType type = false) (hbuf : s.hlt.buf = [x]) (ht : x.type = type)
    (hs : x.source = source) (hu : s.usec < x.time + 1000000) (hc : x.count < 255) :
    (s.ledger type source body).hlt.buf = [{ x with count := x.count + 1 }] := by
  have hfit : coalesces s type source x = true := by
    rw [coalesces, ht, hp, hs, decide_eq_true hu, beq_self_eq_true, beq_self_eq_true]
    rfl
  have hfind : [x].reverse.find? (coalesces s type source) = some x := by
    rw [List.reverse_singleton, List.find?_cons_of_pos hfit]
  have hupd : updLast (coalesces s type source) (fun y => { y with count := y.count + 1 }) [x] = some [{ x with count := x.count + 1 }] := by
    rw [updLast, updLast, hfit]
    rfl
  rw [State.ledger_ring hp, hbuf, hfind]
  dsimp only
  rw [if_pos hc, hupd]
  rfl

/-- A record leaves the instant of the last margin record. -/
theorem State.ledger_lastMargin : (s.ledger type source body).hlt.lastMargin = s.hlt.lastMargin := by
  unfold State.ledger
  dsimp only
  repeat' split
  all_goals rfl

theorem ledgerEvent_other {e : LedgerEv} (h : ledgerType e.type = false) : ledgerEvent e s = s :=
  if_neg fun e => Bool.noConfusion (h.symm.trans e)

theorem ledgerEvent_known {e : LedgerEv} (h : ledgerType e.type = true) : ledgerEvent e s = s.ledger e.type e.source e.body := if_pos h

/-! ### Records into the flash -/

theorem ledgerFlashWrite_next {x : Rec} {rest : List Rec} (h : s.hlt.buf = x :: rest) :
    ledgerFlashWrite s = writeRec x { s with hlt := { s.hlt with buf := rest } } := by
  unfold ledgerFlashWrite
  rw [h]

/-- A written record is numbered and tagged, and goes to the permanent region or the ring (17 R516). -/
theorem writeRec_places (x : Rec) : (writeRec x s).hlt.buf = s.hlt.buf ∧ (writeRec x s).hlt.next = s.hlt.next + 1 ∧
    (writeRec x s).hlt.lostNext = 0 ∧
    (permType x.type = true ∧ s.hlt.perm.length < 32768 →
      (writeRec x s).hlt.perm = s.hlt.perm ++ [writtenRec x s] ∧ (writeRec x s).hlt.ring = s.hlt.ring) ∧
    (¬(permType x.type = true ∧ s.hlt.perm.length < 32768) → (writeRec x s).hlt.perm = s.hlt.perm ∧
      (writeRec x s).hlt.ring = (if s.hlt.ring.length < 229376 then s.hlt.ring else s.hlt.ring.drop 512) ++ [writtenRec x s]) := by
  unfold writeRec
  dsimp only
  split
  next h => exact ⟨rfl, rfl, rfl, fun _ => ⟨rfl, rfl⟩, fun hn => absurd h hn⟩
  next h => exact ⟨rfl, rfl, rfl, fun hp => absurd hp h, fun _ => ⟨rfl, rfl⟩⟩

/-! ### What the ledger holds, in order -/

theorem recInsert_perm (x : Rec) (l : List Rec) : (recInsert x l).Perm (x :: l) := by
  induction l with
  | nil => exact List.Perm.refl _
  | cons y l ih =>
    rw [recInsert]
    split
    · exact List.Perm.refl _
    · exact (ih.cons y).trans (List.Perm.swap x y l)

theorem recInsert_sorted {x : Rec} {l : List Rec} (h : l.Pairwise fun a b => a.rseq ≤ b.rseq) :
    (recInsert x l).Pairwise fun a b => a.rseq ≤ b.rseq := by
  induction l with
  | nil => exact List.pairwise_singleton _ _
  | cons y l ih =>
    obtain ⟨hy, hl⟩ := List.pairwise_cons.1 h
    rw [recInsert]
    split
    next hle =>
      refine List.pairwise_cons.2 ⟨fun z hz => ?_, h⟩
      rcases List.mem_cons.1 hz with rfl | hz
      · exact hle
      · exact Nat.le_trans hle (hy z hz)
    next hgt =>
      refine List.pairwise_cons.2 ⟨fun z hz => ?_, ih hl⟩
      rcases List.mem_cons.1 ((recInsert_perm x l).mem_iff.1 hz) with rfl | hz
      · exact Nat.le_of_lt (Nat.not_le.1 hgt)
      · exact hy z hz

theorem foldr_recInsert_perm (l ring : List Rec) : (l.foldr recInsert ring).Perm (l ++ ring) := by
  induction l with
  | nil => exact List.Perm.refl _
  | cons x l ih => exact (recInsert_perm x _).trans (ih.cons x)

theorem foldr_recInsert_sorted {ring : List Rec} (l : List Rec) (h : ring.Pairwise fun a b => a.rseq ≤ b.rseq) :
    (l.foldr recInsert ring).Pairwise fun a b => a.rseq ≤ b.rseq := by
  induction l with
  | nil => exact h
  | cons x l ih => exact recInsert_sorted ih

/-! ### Margins, gauges and the TAP -/

theorem marginRecord_low : (marginRecord body true s).hlt.event.getLsbD 0 = true ∧
    (marginRecord body true s).hlt.lastMargin = s.hlt.lastMargin ∧
    (s.hlt.buf = [] → (marginRecord body true s).hlt.buf = [mkRec s 0x0052 (srcOf 0 0) body]) :=
  ⟨getLsbD_setBit_self _ (by decide), State.ledger_lastMargin, fun h => State.ledger_buf_of_empty h ..⟩

theorem marginRecord_due (h : s.hlt.lastMargin + sec 86400 ≤ s.now) :
    (marginRecord body false s).hlt.lastMargin = s.now ∧
    (s.hlt.buf = [] → (marginRecord body false s).hlt.buf = [mkRec s 0x0052 (srcOf 0 0) body]) := by
  let w := s.ledger 0x0052 (srcOf 0 0) body
  have hrow : marginRecord body false s = { w with hlt := { w.hlt with lastMargin := w.now } } :=
    (if_neg Bool.false_ne_true).trans (if_pos h)
  rw [hrow]
  exact ⟨State.ledger_now s _ _ _, fun hbuf => State.ledger_buf_of_empty hbuf ..⟩

theorem marginRecord_early (h : s.now < s.hlt.lastMargin + sec 86400) : marginRecord body false s = s :=
  (if_neg Bool.false_ne_true).trans (if_neg (Nat.not_le.2 h))

theorem runningSpan_count (s : State) (k j : GaugeKey) (n : Nat) : runningSpan (s.count k n) j = runningSpan s j := rfl

/-- A count shows in its own gauge alone (17 R511). -/
theorem gaugeRead_count (k : GaugeKey) (n : Nat) : gaugeRead (s.count k n) none k = (gaugeRead s none k + n) % 2 ^ 64 ∧
    ∀ j, j ≠ k → gaugeRead (s.count k n) none j = gaugeRead s none j := by
  refine ⟨?_, fun j hj => ?_⟩
  · simp only [gaugeRead, runningSpan_count]
    by_cases hn : n = 0
    · rw [hn]
      exact (Nat.mod_mod _ _).symm
    · rw [s.gaugeVal_count_self k hn]
      omega
  · simp only [gaugeRead, runningSpan_count]
    rw [s.gaugeVal_count_ne n hj]

theorem tapOperation_closed {instr : Nat} (h1 : instr ≠ 1) (h : (instr ≠ 2 ∧ instr ≠ 3) ∨ s.sec.dbg.getLsbD 1 = false) :
    tapOperation instr s = s.emit (.tap 0) := by
  refine (if_neg h1).trans (if_neg fun hc => ?_)
  rcases h with ⟨h2, h3⟩ | hd
  · exact hc.1.elim h2 h3
  · exact Bool.noConfusion (hd.symm.trans hc.2)

theorem tapOperation_debug {instr : Nat} (h : instr = 2 ∨ instr = 3) (hd : s.sec.dbg.getLsbD 1 = true) :
    tapOperation instr s = s.drawn.emit (.tap (BitVec.ofNat 32 s.peekFree)) :=
  (if_neg (by omega)).trans (if_pos ⟨h, hd⟩)

end

/-! ### The commands -/

section
variable {t : Time} {r : KReq} {s : State}

theorem ledgerRead_body (hf : r.frags = [par r]) (hl : plen r = 24) (h1 : 1 ≤ be (par r) 16 4) (h2 : be (par r) 16 4 ≤ 496) :
    let rs := ((heldRecs s).filter fun x => decide (be (par r) 8 8 ≤ x.rseq)).take (be (par r) 16 4)
    bodyLedgerRead r s = if rs.isEmpty then done s [toBe 8 (oldestRseq s)]
      else done s ((runs 31 rs rs.length).map fun c => toBe 8 (oldestRseq s) ++ c.flatMap recReturned) := by
  intro rs
  refine checks_pass fun c hc => ?_
  simp only [List.mem_cons, List.not_mem_nil, or_false] at hc
  rcases hc with rfl | rfl
  · simp [oneFrag, hf, hl]
  · simp; omega

theorem marginRead_body (hl : plen r = 8) (hd : byteAt (par r) 0 ≤ 1) :
    bodyMarginRead r s = done s [marginBytes s (byteAt (par r) 0)] := checks_pass (by simp [hl]; omega)

theorem gaugesRead_body (hf : r.frags = [par r]) (h1 : 1 ≤ be (par r) 8 2) (h2 : be (par r) 8 2 ≤ 500)
    (hl : plen r = 16 + 8 * be (par r) 8 2) (hok : ∀ i < be (par r) 8 2, itemOk s (tenant r) (gaugeItem (par r) i) = true) :
    bodyGaugesRead r s = done s
      ((packItems ((List.range (be (par r) 8 2)).map fun i => itemBytes s (tenant r) (gaugeItem (par r) i))).map fun c =>
        toBe 2 c.length ++ zeros 6 ++ c.flatMap id) := by
  have hpass : bodyGaugesRead r s = done s
      ((packItems (((List.range (be (par r) 8 2)).map (gaugeItem (par r))).map (itemBytes s (tenant r)))).map fun c =>
        toBe 2 c.length ++ zeros 6 ++ c.flatMap id) := by
    refine checks_pass fun c hc => ?_
    simp only [List.mem_cons, List.not_mem_nil, or_false] at hc
    rcases hc with rfl | rfl
    · simp [oneFrag, hf, hl]; omega
    · simp only [Bool.or_eq_false_iff, List.any_eq_false, List.mem_map, List.mem_range]
      refine ⟨by simp; omega, ?_⟩
      rintro _ ⟨i, hi, rfl⟩
      rw [hok i hi]
      decide
  rw [hpass, List.map_map]
  rfl

end

/-- Settles O54: the ledger by where a record lands, the readouts by their bodies' replies. -/
theorem ledgerKeepsAndReadsRecords : Obligations.LedgerKeepsAndReadsRecords := by
  intro t r s u w p
  refine ⟨fun e => ⟨fun h => congrArg Host.Outcome.next (ledgerEvent_other (s := w) h), fun h => ?events⟩,
    fun h => ?empty, fun x rest h => ?flash, ⟨foldr_recInsert_perm _ _, foldr_recInsert_sorted _⟩,
    fun hb hf hl h1 h2 => ?ledgerRead, fun hb hl hd => command_answers hb (marginRead_body (r := { r with opcode := 0x0C05 }) hl hd),
    fun body => ⟨⟨_, rfl, marginRecord_low (s := w)⟩, fun h => ⟨_, rfl, marginRecord_due (s := w) h⟩,
      fun h => congrArg Host.Outcome.next (marginRecord_early (s := w) h)⟩,
    fun hb hf h1 h2 hl hok => command_answers hb (gaugesRead_body (r := { r with opcode := 0x0C03 }) hf h1 h2 hl hok),
    fun k n => gaugeRead_count k n, rfl,
    fun instr h1 => ⟨fun h => congrArg Host.Outcome.next (tapOperation_closed (s := w) h1 h),
      fun h hd => ⟨_, _, congrArg Host.Outcome.next (tapOperation_debug (s := w) h hd), rfl, rfl, rfl⟩⟩⟩
  case events =>
    have hrow : exec (.ledgerEvent t e) s = .next (w.ledger e.type e.source e.body) :=
      congrArg Host.Outcome.next (ledgerEvent_known (s := w) h)
    refine ⟨fun hp hroom => ⟨_, hrow, State.ledger_perm (s := w) hp hroom⟩, fun hp hnew hring hroom => ⟨_, hrow, ?_⟩,
      fun hp hnew hring => ⟨_, hrow, ?_⟩,
      fun x hp hbuf ht hs hu hc => ⟨_, hrow, State.ledger_ring_joins (s := w) hp hbuf ht hs hu hc⟩⟩
    · rw [State.ledger_ring_fresh (s := w) hp hnew, if_pos ⟨hring, hroom⟩]
      rfl
    · rw [State.ledger_ring_fresh (s := w) hp hnew, if_neg fun hc => absurd hc.1 (Nat.not_lt.2 hring)]
      exact ⟨rfl, rfl⟩
  case empty =>
    refine congrArg Host.Outcome.next ?_
    unfold ledgerFlashWrite
    rw [show (s.tick t).hlt.buf = [] from h]
  case flash =>
    obtain ⟨hbuf, hnext, hlost, hperm, hring⟩ := writeRec_places (s := { w with hlt := { w.hlt with buf := rest } }) x
    exact ⟨_, _, congrArg Host.Outcome.next (ledgerFlashWrite_next (s := w) h), hbuf, hnext, hlost, rfl, rfl, hperm, hring⟩
  case ledgerRead =>
    intro rs
    have hbody := ledgerRead_body (r := { r with opcode := 0x0C04 }) (s := u) hf hl h1 h2
    refine ⟨fun he => command_answers hb (hbody.trans ?_), fun hne => command_answers hb (hbody.trans ?_)⟩
    · exact if_pos (show rs.isEmpty = true by rw [he]; rfl)
    · exact if_neg fun h => hne (List.isEmpty_iff.1 h)

end Sys2Proof.Machine
end

section
/-! PROOFS. Rules for little-endian numbers and for what a record leaves of the ledger. -/

namespace Sys2Proof.Machine

/-! ### Numbers read from bytes and written again -/

theorem le_succ (p : Bytes) (off n : Nat) : le p off (n + 1) = byteAt p off + 256 * le p (off + 1) n := by
  unfold le
  rw [List.range_succ_eq_map, List.foldr_cons, List.foldr_map]
  have hshift : (fun i acc => acc * 256 + byteAt p (off + Nat.succ i)) = fun i acc => acc * 256 + byteAt p (off + 1 + i) := by
    funext i acc
    rw [Nat.add_right_comm]
    rfl
  rw [hshift, Nat.mul_comm, Nat.add_comm]
  rfl

/-- A digit of a little-endian number is the byte it came from. -/
theorem le_digit (p : Bytes) {off n i : Nat} (h : i < n) : le p off n / 256 ^ i % 256 = byteAt p (off + i) := by
  induction n generalizing off i with
  | zero => omega
  | succ n ih =>
    have hb := byteAt_lt p off
    rw [le_succ]
    cases i with
    | zero =>
      rw [Nat.pow_zero, Nat.div_one, Nat.add_mul_mod_self_left, Nat.mod_eq_of_lt hb]
      rfl
    | succ i =>
      rw [Nat.pow_succ', ← Nat.div_div_eq_div_mul, show (byteAt p off + 256 * le p (off + 1) n) / 256 = le p (off + 1) n by omega,
        ih (Nat.lt_of_succ_lt_succ h)]
      congr 1
      omega

/-- A byte string written out again from the number it reads as. -/
theorem toLe_le (p : Bytes) : toLe p.length (le p 0 p.length) = p := by
  refine List.ext_getElem (length_toLe _ _) fun i h1 h2 => ?_
  apply BitVec.eq_of_toNat_eq
  have hdigit := le_digit p (off := 0) h2
  simp only [toLe, List.getElem_map, List.getElem_range, BitVec.toNat_ofNat]
  rw [show (2 : Nat) ^ 8 = 256 from rfl, hdigit, Nat.zero_add, byteAt, List.getD_eq_getElem?_getD, List.getElem?_eq_getElem h2]
  rfl

/-! ### What a record leaves -/

/-- A record changes the buffer, the counts of lost records and the gauges alone. -/
theorem State.ledger_buffers (s : State) (type source : Nat) (body : Bytes) : ∃ b l d g, s.ledger type source body =
    { s with hlt := { s.hlt with buf := b, lostNext := l, dropped := d }, gauges := g } := by
  unfold State.ledger
  dsimp only
  repeat' split
  all_goals exact ⟨_, _, _, _, rfl⟩

end Sys2Proof.Machine
end

section
/-! PROOFS. Basins gated and woken, and operations cross-checked (09 R301–R308, 01 R34). -/

namespace Sys2Proof.Machine

/-! ### Power states -/

section
variable {s : State} {b : Nat}

/-- A change of power state changes the basin's entry and the gauges alone. -/
theorem setPower_eq (p : BasinPower) : ∃ g, setPower b p s =
    { s.setBasin b { s.basin b with power := p, since := s.now } with gauges := g } := by
  unfold setPower
  dsimp only
  split <;> split <;> exact ⟨_, rfl⟩

theorem State.basin_setBasin_ne {x : Basin} {k : Nat} (h : k ≠ b) : (s.setBasin b x).basin k = s.basin k := by
  rw [State.basin_setBasin, if_neg (Ne.symm h)]

/-- What a change of power state leaves: the state and its instant on the basin, and the rest. -/
theorem setPower_effect (p : BasinPower) : (setPower b p s).basin b = { s.basin b with power := p, since := s.now } ∧
    (setPower b p s).bsn.store = s.bsn.store ∧ (∀ k, k ≠ b → (setPower b p s).basin k = s.basin k) ∧ (setPower b p s).flm = s.flm ∧
    (setPower b p s).now = s.now := by
  obtain ⟨g, h⟩ := setPower_eq (s := s) (b := b) p
  rw [h]
  exact ⟨State.basin_setBasin_self s b _, rfl, fun k hk => State.basin_setBasin_ne (s := s) hk, rfl, rfl⟩

theorem clockGate_idle (hp : (s.basin b).power = .active) (hw : basinWork s b = false) :
    clockGate b s = if (s.basin b).idleSince + clockGateAfter s (s.basin b) ≤ s.now then setPower b .clockGated s else s := by
  unfold clockGate
  simp only [hp, hw, Bool.not_false, true_and]

theorem powerGate_idle (hp : (s.basin b).power = .clockGated) (hw : basinWork s b = false) (hpg : (s.basin b).idlePg ≠ 0)
    (h : (s.basin b).since + us (s.basin b).idlePg.toNat ≤ s.now) : powerGate b s = setPower b .powerGated s :=
  if_pos ⟨hp, by rw [hw]; rfl, hpg, h⟩

theorem powerGate_never (hpg : (s.basin b).idlePg = 0) : powerGate b s = s := if_neg fun h => h.2.2.1 hpg

/-- A basin comes up: active, idle from now, with nothing asked of it. -/
def basinUp (b : Nat) (s : State) : State :=
  (bsnCount 1 0 b 1 (setPower b .active s)).modBasin b fun x => { x with idleSince := s.now, asked := false }

theorem basinWake_waking (hp : (s.basin b).power = .waking) : basinWake b s = basinUp b s := by
  unfold basinWake
  dsimp only
  rw [hp]
  rfl

theorem basinWake_clockGated (hp : (s.basin b).power = .clockGated) (hw : basinWork s b = true) : basinWake b s = basinUp b s := by
  unfold basinWake
  dsimp only
  rw [hp]
  exact if_pos hw

theorem basinWake_powerGated (hp : (s.basin b).power = .powerGated) (hw : basinWork s b = true) :
    basinWake b s = setPower b .waking s := by
  unfold basinWake
  dsimp only
  rw [hp]
  exact if_pos hw

/-- What coming up leaves: the basin active and idle from now; the store, the chains and the power manager unchanged. -/
theorem basinUp_effect :
    (basinUp b s).basin b = { s.basin b with power := .active, since := s.now, idleSince := s.now, asked := false } ∧
      (basinUp b s).bsn.store = s.bsn.store ∧ (basinUp b s).flm = s.flm ∧ (basinUp b s).pwr = s.pwr := by
  obtain ⟨g, h⟩ := setPower_eq (s := s) (b := b) .active
  refine ⟨?_, ?_, ?_, ?_⟩
  · have hself : (bsnCount 1 0 b 1 (setPower b .active s)).basin b = (setPower b .active s).basin b := rfl
    rw [basinUp, State.basin_modBasin_self, hself, (setPower_effect .active).1]
  all_goals
    rw [basinUp, h]
    rfl

theorem asleep_eq_false (h : (s.basin b).power = .active) : asleep s b = false := by
  rw [asleep, h]
  rfl

theorem wakeUp_asleep (h : asleep (basinWake b s) b = true) : wakeUp b s = basinWake b s := if_pos h

/-- A basin awake with no mail is only woken. -/
theorem wakeUp_awake (h : ((basinWake b s).basin b).power = .active) (hm : ((basinWake b s).basin b).mail = []) :
    wakeUp b s = (basinWake b s).modBasin b fun x => { x with mail := [] } := by
  refine (if_neg fun hs => Bool.noConfusion ((asleep_eq_false h).symm.trans hs)).trans ?_
  rw [hm]
  rfl

/-- A wake with nothing held: the basin active and idle from now, nothing else of it or of the chains changed. -/
theorem wakeUp_up (h : basinWake b s = basinUp b s) (hm : (s.basin b).mail = []) :
    ((wakeUp b s).basin b).power = .active ∧ ((wakeUp b s).basin b).idleSince = s.now ∧
      (wakeUp b s).bsn.store = s.bsn.store ∧ (wakeUp b s).flm = s.flm := by
  obtain ⟨hbasin, hstore, hflm, -⟩ := basinUp_effect (s := s) (b := b)
  have hw : wakeUp b s = (basinUp b s).modBasin b fun x => { x with mail := [] } := by
    rw [← h]
    refine wakeUp_awake ?_ ?_ <;> rw [h, hbasin]
    exact hm
  rw [hw, State.basin_modBasin_self, hbasin]
  exact ⟨rfl, rfl, hstore, hflm⟩

end

/-! ### A write held for a sleeping basin -/

section
variable {s : State}

/-- The store after the pieces of a write of a window (10 R341). -/
def windowStore (x : Slot) (off : Nat) (bs : Bytes) (m : Mem) : Mem :=
  (windowCuts x off bs.length).foldl (fun m c => m.writeN (storeKey x.basin (4096 * c.1 + c.2.1)) (slice bs c.2.2.1 c.2.2.2)) m

/-- Two basins' tables that agree in the power states and the mail. -/
def Basins.alike (x y : Basins) : Prop := x.owner = y.owner ∧
  ∀ k, (Tab.getD x.tab k {}).power = (Tab.getD y.tab k {}).power ∧ (Tab.getD x.tab k {}).mail = (Tab.getD y.tab k {}).mail

theorem Basins.alike_trans {x y z : Basins} (h : x.alike y) (g : y.alike z) : x.alike z :=
  ⟨h.1.trans g.1, fun k => ⟨(h.2 k).1.trans (g.2 k).1, (h.2 k).2.trans (g.2 k).2⟩⟩

theorem modBasin_alike (s : State) (b : Nat) {f : Basin → Basin} (hp : ∀ x, (f x).power = x.power) (hm : ∀ x, (f x).mail = x.mail) :
    (s.modBasin b f).bsn.alike s.bsn := by
  refine ⟨rfl, fun k => ?_⟩
  have h := State.basin_modBasin s b f k
  rw [State.basin] at h
  rw [h]
  split
  · exact ⟨hp _, hm _⟩
  · exact ⟨rfl, rfl⟩

/-- The marks of a written tile (09 R294, R295, R299). -/
def marksWritten (t : Nat) (whole : Bool) (x : Basin) : Basin := { x with
  sums := Tab.del x.sums t, once := if whole then x.once.filter (· != t) else x.once,
  taint := if whole && !false then x.taint.filter (· != t) else x.taint }

/-- A write of a tile outside a dip window: its bytes in the store, its marks, and no change of power or mail. -/
theorem writeTile_eq (b t start : Nat) (bs : Bytes) (h : s.pwr.window = false) : ∃ y : Basins,
    (writeTile b t start bs s).1 = { s with bsn := y } ∧ y.store = s.bsn.store.writeN (storeKey b (4096 * t + start)) bs ∧
      y.alike s.bsn := by
  let w := s.modBasin b (marksWritten t (start == 0 && decide (4096 ≤ bs.length)))
  have hrow : (writeTile b t start bs s).1 =
      { w with bsn := { w.bsn with store := s.bsn.store.writeN (storeKey b (4096 * t + start)) bs } } := by
    unfold writeTile
    rw [h]
    dsimp only
    rw [if_neg Bool.false_ne_true]
    dsimp only
    rw [h]
    rfl
  rw [hrow]
  exact ⟨_, rfl, rfl, modBasin_alike s b (fun _ => rfl) fun _ => rfl⟩

theorem foldl_writeTile_eq (x : Slot) (bs : Bytes) (l : List (Nat × Nat × Nat × Nat)) (lost : Bool) (h : s.pwr.window = false) :
    ∃ y : Basins, (l.foldl (fun st c =>
      let (s, lost) := writeTile x.basin c.1 c.2.1 (slice bs c.2.2.1 c.2.2.2) st.1
      (s, st.2 || lost)) (s, lost)).1 = { s with bsn := y } ∧
      y.store = l.foldl (fun m c => m.writeN (storeKey x.basin (4096 * c.1 + c.2.1)) (slice bs c.2.2.1 c.2.2.2)) s.bsn.store ∧
      y.alike s.bsn := by
  induction l generalizing s lost with
  | nil => exact ⟨s.bsn, rfl, rfl, rfl, fun _ => ⟨rfl, rfl⟩⟩
  | cons c l ih =>
    obtain ⟨y, hy, hstore, halike⟩ := writeTile_eq (s := s) x.basin c.1 c.2.1 (slice bs c.2.2.1 c.2.2.2) h
    obtain ⟨z, hz, hstore', halike'⟩ := ih (s := (writeTile x.basin c.1 c.2.1 (slice bs c.2.2.1 c.2.2.2) s).1)
      (lost || (writeTile x.basin c.1 c.2.1 (slice bs c.2.2.1 c.2.2.2) s).2) (by rw [hy]; exact h)
    rw [hy] at hstore' halike'
    refine ⟨z, ?_, ?_, Basins.alike_trans halike' halike⟩
    · rw [List.foldl_cons]
      refine hz.trans ?_
      rw [hy]
    · rw [List.foldl_cons, hstore', hstore]

theorem writeWindow_eq (x : Slot) (off : Nat) (bs : Bytes) (h : s.pwr.window = false) : ∃ y : Basins,
    (writeWindow x off bs s).1 = { s with bsn := y } ∧ y.store = windowStore x off bs s.bsn.store ∧ y.alike s.bsn :=
  foldl_writeTile_eq x bs _ false h

/-- A write of another basin's window whose basin is awake reaches its store (10 R341). -/
theorem release_peerWrite_awake {ch i off : Nat} {d : Bytes} {c : Chain} {q : Queue} {y : Slot} (hc : s.chain ch = some c)
    (hq : s.queue c.queue = some q) (hy : q.slots[i]? = some y) (hl : y.lost = false) (ha : asleep s y.basin = false) :
    release (.peerWrite ch i off d) s = (writeWindow y off d (meshDeliver (basinDie y.basin) s)).1 := by
  unfold release
  dsimp only
  rw [hc, Option.bind_some, hq, Option.bind_some, hy]
  exact (if_neg fun h => Bool.noConfusion (hl.symm.trans h)).trans (if_neg fun h => Bool.noConfusion (ha.symm.trans h))

theorem State.chain_modChain (s : State) {ch : Nat} {c : Chain} (f : Chain → Chain) (hc : s.chain ch = some c) :
    (s.modChain ch f).chain ch = some (f c) := by
  refine (Tab.get?_upd s.flm.chains ch ch f).trans ?_
  rw [if_pos rfl, show Tab.get? s.flm.chains ch = some c from hc, Option.map_some]

/-- A waking basin takes the write that waited for it. -/
theorem wakeUp_mail {b ch i off : Nat} {d : Bytes} {c : Chain} {q : Queue} {y : Slot} (hp : (s.basin b).power = .waking)
    (hm : (s.basin b).mail = [.peerWrite ch i off d]) (hwin : s.pwr.window = false) (hc : s.chain ch = some c)
    (hq : s.queue c.queue = some q) (hy : q.slots[i]? = some y) (hb : y.basin = b) (hl : y.lost = false) :
    ((wakeUp b s).basin b).power = .active ∧ ((wakeUp b s).basin b).mail = [] ∧
      (wakeUp b s).bsn.store = windowStore y off d s.bsn.store ∧
      (wakeUp b s).chain ch = some { c with unacked := c.unacked - 1 } := by
  obtain ⟨hup, hstore, hflm, hpwr⟩ := basinUp_effect (s := s) (b := b)
  have hactive : ((basinUp b s).basin b).power = .active := by rw [hup]
  have hmail : ((basinUp b s).basin b).mail = [.peerWrite ch i off d] := by rw [hup, ← hm]
  let w := (basinUp b s).modBasin b fun x => { x with mail := [] }
  have hwb : w.basin b = { (basinUp b s).basin b with mail := [] } := State.basin_modBasin_self _ b _
  have hchain : w.chain ch = some c := by
    show Tab.get? (basinUp b s).flm.chains ch = some c
    rw [hflm]
    exact hc
  have hqueue : w.queue c.queue = some q := by
    show Tab.get? (basinUp b s).flm.queues c.queue = some q
    rw [hflm]
    exact hq
  have hawake : asleep w y.basin = false := by
    rw [hb]
    exact asleep_eq_false (by rw [hwb, hactive])
  let z := meshDeliver (basinDie y.basin) w
  have hw : wakeUp b s = ((writeWindow y off d z).1).modChain ch fun c => { c with unacked := c.unacked - 1 } := by
    unfold wakeUp
    rw [basinWake_waking hp]
    dsimp only
    rw [asleep_eq_false hactive, hmail]
    exact congrArg (·.modChain ch fun c => { c with unacked := c.unacked - 1 }) (release_peerWrite_awake hchain hqueue hy hl hawake)
  obtain ⟨x, hx, hxs, hxo, hxa⟩ := writeWindow_eq (s := z) y off d (by show (basinUp b s).pwr.window = false; rw [hpwr]; exact hwin)
  have hzb : Tab.getD z.bsn.tab b {} = { (basinUp b s).basin b with mail := [] } := hwb
  rw [hw, hx]
  refine ⟨?_, ?_, ?_, State.chain_modChain _ _ hchain⟩
  · refine (hxa b).1.trans ?_
    rw [hzb, hactive]
  · refine (hxa b).2.trans ?_
    rw [hzb]
  · exact hxs.trans <| congrArg (windowStore y off d) hstore

end

/-! ### Cross-checks -/

section
variable {s : State} {b cb : Nat} {c : XCheck}

theorem checkBegin_sends (hc : (s.basin b).check = some c) (hn : c.checking = none) (hd : c.depends ≤ 16777216)
    (hcb : checkingBasin s b = some cb) : checkBegin b s = s.drawn.setBasin b { s.basin b with
      check := some { c with checking := some cb, started := s.now },
      countdown := (s.basin b).interval / 2 + s.peekFree % (s.basin b).interval } := by
  unfold checkBegin
  dsimp only
  rw [hc]
  dsimp only
  rw [hn, hcb]
  exact (if_neg Bool.false_ne_true).trans (if_neg fun h => h.elim (Nat.not_lt.2 hd) Bool.false_ne_true)

theorem checkBegin_effect (hc : (s.basin b).check = some c) (hn : c.checking = none) (hd : c.depends ≤ 16777216)
    (hcb : checkingBasin s b = some cb) :
    ((checkBegin b s).basin b).check = some { c with checking := some cb, started := s.now } ∧
      (s.basin b).interval / 2 ≤ ((checkBegin b s).basin b).countdown ∧
      (0 < (s.basin b).interval → ((checkBegin b s).basin b).countdown < (s.basin b).interval / 2 + (s.basin b).interval) ∧
      (checkBegin b s).bsn.store = s.bsn.store ∧ (checkBegin b s).flm = s.flm := by
  rw [checkBegin_sends hc hn hd hcb, State.basin_setBasin_self]
  exact ⟨rfl, Nat.le_add_right _ _, fun h => Nat.add_lt_add_left (Nat.mod_lt _ h) _, rfl, rfl⟩

theorem checkBegin_skips (hc : (s.basin b).check = some c) (hn : c.checking = none) (hd : 16777216 < c.depends) :
    checkBegin b s = bsnCount 4 1 b 1 (s.setBasin b { s.basin b with check := none, idleSince := s.now }) := by
  unfold checkBegin
  dsimp only
  rw [hc]
  dsimp only
  rw [hn]
  exact (if_neg (by decide)).trans (if_pos (Or.inl hd))

theorem basin_checkOver (b cb k : Nat) : (checkOver b cb s).basin k =
    if k = b then { s.basin b with check := none, idleSince := s.now }
    else if k = cb then { s.basin cb with idleSince := s.now } else s.basin k := by
  unfold checkOver
  rw [State.basin_modBasin]
  by_cases hk : b = k
  · rw [if_pos hk, if_pos hk.symm, State.basin_modBasin, ← hk]
    split <;> rfl
  · rw [if_neg hk, if_neg (Ne.symm hk), State.basin_modBasin]
    by_cases hc : cb = k
    · rw [if_pos hc, if_pos hc.symm, hc]
    · rw [if_neg hc, if_neg (Ne.symm hc)]

/-- A check that its basins finished in time, counted (09 R304). -/
def checkCounted (b cb : Nat) (s : State) : State :=
  bsnCount 4 0 b 1 ((checkOver b cb s).modBasin b fun x => { x with checks := x.checks + 1 })

theorem basin_checkCounted (b cb k : Nat) : (checkCounted b cb s).basin k =
    if k = b then { s.basin b with check := none, idleSince := s.now, checks := (s.basin b).checks + 1 }
    else if k = cb then { s.basin cb with idleSince := s.now } else s.basin k := by
  have hrow : (checkCounted b cb s).basin k = ((checkOver b cb s).modBasin b fun x => { x with checks := x.checks + 1 }).basin k := rfl
  rw [hrow, State.basin_modBasin, basin_checkOver]
  by_cases hk : b = k
  · rw [if_pos hk, if_pos hk.symm, if_pos hk.symm]
  · rw [if_neg hk, if_neg (Ne.symm hk), if_neg (Ne.symm hk)]

theorem checkComplete_in_time {res third : Nat} (hc : (s.basin b).check = some c) (hcb : c.checking = some cb)
    (ht : s.now ≤ c.started + ms 1) : checkComplete b res third s =
      if toLe c.result.length res = c.result then checkCounted b cb s
      else mismatch b cb c (toLe c.result.length res) (toLe c.result.length third) (checkCounted b cb s) := by
  unfold checkComplete
  rw [hc]
  dsimp only
  rw [hcb]
  exact if_neg (Nat.not_lt.2 ht)

theorem checkComplete_late {res third : Nat} (hc : (s.basin b).check = some c) (hcb : c.checking = some cb)
    (ht : c.started + ms 1 < s.now) : checkComplete b res third s = checkAbandoned b s := by
  unfold checkComplete
  rw [hc]
  dsimp only
  rw [hcb]
  exact if_pos ht

theorem checkAbandoned_eq (hc : (s.basin b).check = some c) (hcb : c.checking = some cb) :
    checkAbandoned b s = if c.started + ms 1 ≤ s.now then bsnCount 4 2 b 1 (checkOver b cb s) else s := by
  unfold checkAbandoned
  rw [hc]
  dsimp only
  rw [hcb]

/-- The third basin is found as before where the power states, quarantines and drains are as before. -/
theorem thirdBasin_congr {u : State} (h : ∀ k, (u.basin k).power = (s.basin k).power ∧ (u.basin k).quar = (s.basin k).quar ∧
    (u.basin k).draining = (s.basin k).draining) : thirdBasin u b cb = thirdBasin s b cb := by
  unfold thirdBasin
  congr 1
  funext k
  obtain ⟨hp, hq, hd⟩ := h k
  rw [checkAvailable, hp, hq, hd, checkAvailable]

theorem thirdBasin_checkCounted : thirdBasin (checkCounted b cb s) b cb = thirdBasin s b cb := by
  refine thirdBasin_congr fun k => ?_
  rw [basin_checkCounted]
  split
  next h => rw [h]; exact ⟨rfl, rfl, rfl⟩
  next =>
    split
    next h => rw [h]; exact ⟨rfl, rfl, rfl⟩
    next => exact ⟨rfl, rfl, rfl⟩

/-- A capture changes the captures, the free values and the gauges alone. -/
theorem takeCapture_eq (trigger set rseq b queue levee crc1 crc2 : Nat) (d : Desc) (tiles : List (Nat × Bytes)) :
    ∃ caps n g, (takeCapture trigger set rseq b queue levee crc1 crc2 d tiles s).1 =
      { s with hlt := { s.hlt with captures := caps }, free := n, gauges := g } := by
  unfold takeCapture
  split
  · exact ⟨s.hlt.captures, s.free, _, rfl⟩
  · exact ⟨_, _, _, rfl⟩

/-- The first mismatch that names a basin does not quarantine it (17 R528). -/
theorem nameSuspect_first {temp load : Nat} (h : s.hlt.suspects = []) (hq : 1 < s.hlt.quarCount.toNat) :
    ∃ l, nameSuspect b temp load s = { (s.modBasin b fun x => { x with suspect := x.suspect + 1 }).bsnEvent b 3 with
      hlt := { s.hlt with suspects := l } } := by
  let hours := max 1 s.hlt.quarHours.toNat
  let all := (s.hlt.suspects ++ [(b, s.now, temp, load)]).filter fun e => decide (s.now ≤ e.2.1 + sec (3600 * hours))
  refine ⟨all, if_pos ?_⟩
  have hall : all.length ≤ 1 := by
    refine (List.length_filter_le _ _).trans ?_
    rw [h]
    exact Nat.le_refl 1
  calc (all.filter fun e => e.1 == b).length ≤ all.length := List.length_filter_le _ _
    _ ≤ 1 := hall
    _ < s.hlt.quarCount.toNat := hq
    _ ≤ max 1 s.hlt.quarCount.toNat := Nat.le_max_right _ _

/-- A mismatch in which the checking basin is the odd one out: it alone is named (09 R306). -/
theorem mismatch_names {k : Nat} {cres : Bytes} (hth : thirdBasin s b cb = some k) (hne : cres ≠ c.result)
    (hsus : s.hlt.suspects = []) (hq : 1 < s.hlt.quarCount.toNat) :
    ∃ (u : State) (l : Health), mismatch b cb c cres c.result s =
      { (u.modBasin cb fun x => { x with suspect := x.suspect + 1 }).bsnEvent cb 3 with hlt := l } ∧ u.bsn = s.bsn ∧ u.flm = s.flm := by
  have hother : (c.result != cres) = true := bne_iff_ne.2 (Ne.symm hne)
  have hfirst : ∀ (u : State) (temp load : Nat), u.hlt.suspects = [] → 1 < u.hlt.quarCount.toNat → u.bsn = s.bsn → u.flm = s.flm →
      ∃ (w : State) (l : Health), nameSuspect cb temp load u =
        { (w.modBasin cb fun x => { x with suspect := x.suspect + 1 }).bsnEvent cb 3 with hlt := l } ∧ w.bsn = s.bsn ∧ w.flm = s.flm := by
    intro u temp load h1 h2 h3 h4
    obtain ⟨l, hl⟩ := nameSuspect_first (b := cb) (temp := temp) (load := load) h1 h2
    exact ⟨u, _, hl, h3, h4⟩
  unfold mismatch
  dsimp only
  rw [hth, Option.isSome_some, bne_self_eq_false, hother, Bool.true_and, Bool.true_and, if_neg Bool.false_ne_true, if_pos rfl]
  generalize hpr : (if s.confActive = true then (s, none) else takeCapture 1 1 s.nextRseq b c.queue c.levee (crc32c c.result).toNat
    (crc32c cres).toNat c.desc c.operands s) = pr
  have hcap : ∃ caps n g, pr.1 = { s with hlt := { s.hlt with captures := caps }, free := n, gauges := g } := by
    rw [← hpr]
    split
    · exact ⟨s.hlt.captures, s.free, s.gauges, rfl⟩
    · exact takeCapture_eq ..
  obtain ⟨caps, n, g, hcap⟩ := hcap
  rw [hcap]
  generalize hw : State.ledger _ _ _ _ = w
  obtain ⟨bf, l, d, g', hl⟩ := State.ledger_buffers { s with hlt := { s.hlt with captures := caps }, free := n, gauges := g } 0x0033
    (srcOf 2 b) _
  rw [hw] at hl
  rw [hl]
  exact hfirst _ _ _ hsus hq rfl rfl

theorem basin_named (s : State) (b k : Nat) :
    ((s.modBasin b fun x => { x with suspect := x.suspect + 1 }).bsnEvent b 3).basin k =
      if k = b then { s.basin b with suspect := (s.basin b).suspect + 1, event := setBit (s.basin b).event 3 } else s.basin k := by
  have hrow : ((s.modBasin b fun x => { x with suspect := x.suspect + 1 }).bsnEvent b 3).basin k =
      ((s.modBasin b fun x => { x with suspect := x.suspect + 1 }).modBasin b fun x => { x with event := setBit x.event 3 }).basin k := rfl
  rw [hrow, State.basin_modBasin, State.basin_modBasin]
  by_cases hk : b = k
  · rw [if_pos hk, if_pos hk, if_pos hk.symm, hk]
  · rw [if_neg hk, if_neg hk, if_neg (Ne.symm hk)]

end

/-- Settles O41: gating and waking by the basin's entry, the mail through the writes of its store, the checks by whom they name. -/
theorem basinsGateWakeAndCheck : Obligations.BasinsGateWakeAndCheck := by
  intro t b x s u hx
  subst hx
  refine ⟨fun hp hw => ⟨fun h => ?clock, fun h => ?clockEarly⟩, fun hp hw => ⟨fun hpg h => ?power, fun hpg => ?never⟩,
    fun hw hm => ⟨fun hp => ?fromClock, fun hp => ?fromPower⟩, fun hp hm => ?fromWaking,
    fun ch c q i y off d hp hm hwin hc hq hy hb hl => ?mail,
    fun c cb hc hn hd hcb => ⟨_, rfl, checkBegin_effect (s := u) hc hn hd hcb⟩, fun c hc hn hd => ?skips,
    fun c cb hc hcb => ⟨fun res third hres ht => ?equal, fun res third ht => congrArg Host.Outcome.next (checkComplete_late (s := u) hc hcb ht),
      fun res k hres hth hkb hne hsus hq ht => ?odd, fun ht => ?abandoned, fun ht => ?early⟩⟩
  case clock =>
    obtain ⟨hself, hstore, hother, hflm, -⟩ := setPower_effect (s := u) (b := b) .clockGated
    refine ⟨_, congrArg Host.Outcome.next ((clockGate_idle (s := u) hp hw).trans (if_pos h)), ?_, ?_, hstore, hother, hflm⟩ <;> rw [hself]
  case clockEarly => exact congrArg Host.Outcome.next ((clockGate_idle (s := u) hp hw).trans (if_neg (Nat.not_le.2 h)))
  case power =>
    obtain ⟨hself, hstore, hother, -, -⟩ := setPower_effect (s := u) (b := b) .powerGated
    refine ⟨_, congrArg Host.Outcome.next (powerGate_idle (s := u) hp hw hpg h), ?_, hstore, hother⟩
    rw [hself]
  case never => exact congrArg Host.Outcome.next (powerGate_never (s := u) hpg)
  case fromClock => exact ⟨_, rfl, wakeUp_up (s := u) (basinWake_clockGated (s := u) hp hw) hm⟩
  case fromPower =>
    obtain ⟨hself, hstore, -, hflm, -⟩ := setPower_effect (s := u) (b := b) .waking
    have hwake : basinWake b u = setPower b .waking u := basinWake_powerGated (s := u) hp hw
    have hrow : wakeUp b u = setPower b .waking u := (wakeUp_asleep (by rw [hwake, asleep, hself]; rfl)).trans hwake
    refine ⟨_, congrArg Host.Outcome.next hrow, ?_, hstore, hflm⟩
    rw [hself]
  case fromWaking =>
    obtain ⟨hpow, -, hstore, -⟩ := wakeUp_up (s := u) (basinWake_waking (s := u) hp) hm
    exact ⟨_, rfl, hpow, hstore⟩
  case mail =>
    obtain ⟨hpow, hmail, hstore, hchain⟩ := wakeUp_mail (s := u) hp hm hwin hc hq hy hb hl
    obtain ⟨z, hz, hzs, -⟩ := writeWindow_eq (s := s) y off d hwin
    refine ⟨_, rfl, hpow, hmail, hstore.trans ?_, hchain⟩
    rw [hz, hzs]
    rfl
  case skips =>
    refine ⟨_, congrArg Host.Outcome.next (checkBegin_skips (s := u) hc hn hd), ?_, State.gaugeVal_count_self _ _ (by decide)⟩
    exact congrArg Basin.check (State.basin_setBasin_self u b _)
  case equal =>
    have hrow := (checkComplete_in_time (s := u) (res := res) (third := third) hc hcb ht).trans (if_pos hres)
    have hb := basin_checkCounted (s := u) b cb b
    have hcb' := basin_checkCounted (s := u) b cb cb
    rw [if_pos rfl] at hb
    refine ⟨_, congrArg Host.Outcome.next hrow, ?_, ?_, ?_, ?_, rfl, rfl, rfl⟩
    · rw [hb]
    · rw [hb]; rfl
    · rw [hb]
    · rw [hcb', if_pos rfl]
      split <;> rfl
  case odd =>
    have hthird : toLe c.result.length (le c.result 0 c.result.length) = c.result := toLe_le _
    have hrow := (checkComplete_in_time (s := u) (res := res) (third := le c.result 0 c.result.length) hc hcb ht).trans (if_neg hres)
    rw [hthird] at hrow
    obtain ⟨w, l, hnamed, hbsn, hflm⟩ := mismatch_names (s := checkCounted b cb u) (b := b) (cb := cb) (c := c)
      (thirdBasin_checkCounted.trans hth) hres hsus hq
    have hbasin := fun k => basin_named w cb k
    have hw : ∀ k, w.basin k = (checkCounted b cb u).basin k := State.basin_of_bsn hbsn
    refine ⟨_, congrArg Host.Outcome.next (hrow.trans hnamed), ?_, ?_, ?_, ?_, ?_, hflm⟩
    · refine (congrArg Basin.check (hbasin b)).trans ?_
      rw [if_neg (Ne.symm hne), hw, basin_checkCounted, if_pos rfl]
    · refine (congrArg Basin.suspect (hbasin b)).trans ?_
      rw [if_neg (Ne.symm hne), hw, basin_checkCounted, if_pos rfl]
      rfl
    · refine (congrArg Basin.suspect (hbasin cb)).trans ?_
      rw [if_pos rfl, hw, basin_checkCounted, if_neg hne, if_pos rfl]
      rfl
    · refine (congrArg (fun x : Basin => x.event.getLsbD 3) (hbasin cb)).trans ?_
      rw [if_pos rfl]
      exact getLsbD_setBit_self _ (by decide)
    · exact (congrArg Basins.store hbsn :)
  case abandoned =>
    have hb := basin_checkOver (s := u) b cb b
    rw [if_pos rfl] at hb
    refine ⟨_, congrArg Host.Outcome.next ((checkAbandoned_eq (s := u) hc hcb).trans (if_pos ht)), ?_, ?_, rfl⟩
    · exact congrArg Basin.check hb
    · exact (congrArg Basin.checks hb :)
  case early => exact congrArg Host.Outcome.next ((checkAbandoned_eq (s := u) hc hcb).trans (if_neg (Nat.not_le.2 ht)))

end Sys2Proof.Machine
end

section
/-! PROOFS. What the end of a deferred or running command leaves: its reply, and the command no longer under way (02 R64, R65). -/

namespace Sys2Proof.Machine

section
variable {s : State} {x : Running} {st : Nat} {frags : List Bytes}

/-- Two headworks' states that agree but for their sessions and the replies they owe. -/
def Krytic.underWayAs (k l : Krytic) : Prop :=
  k.deferred = l.deferred ∧ k.executing = l.executing ∧ k.ready = l.ready ∧ k.urgent = l.urgent ∧ k.normal = l.normal ∧
    k.lease = l.lease ∧ k.lastLease = l.lastLease ∧ k.lastKey = l.lastKey

theorem Krytic.underWayAs_refl (k : Krytic) : Krytic.underWayAs k k := ⟨rfl, rfl, rfl, rfl, rfl, rfl, rfl, rfl⟩

theorem Krytic.underWayAs_trans {k l m : Krytic} (h : Krytic.underWayAs k l) (g : Krytic.underWayAs l m) :
    Krytic.underWayAs k m := by
  obtain ⟨h1, h2, h3, h4, h5, h6, h7, h8⟩ := h
  obtain ⟨g1, g2, g3, g4, g5, g6, g7, g8⟩ := g
  exact ⟨h1.trans g1, h2.trans g2, h3.trans g3, h4.trans g4, h5.trans g5, h6.trans g6, h7.trans g7, h8.trans g8⟩

/-- A state after replies: beside what a reply changes, sessions and owed replies. -/
def Answered (s t : State) : Prop := ∃ k, Krytic.underWayAs k s.kry ∧ ReplyStep { s with kry := k } t

theorem Answered.refl : Answered s s := ⟨s.kry, Krytic.underWayAs_refl _, ReplyStep.refl⟩

theorem Answered.trans {t u : State} (h : Answered s t) (g : Answered t u) : Answered s u := by
  obtain ⟨k, hk, o, ga, c, f, p, rfl⟩ := h
  obtain ⟨l, hl, o', ga', c', f', p', rfl⟩ := g
  exact ⟨l, Krytic.underWayAs_trans hl hk, _, _, _, _, _, rfl⟩

theorem setSession_underWayAs (s : State) (y : Sess) (v : Session) : Krytic.underWayAs (s.setSession y v).kry s.kry := by
  cases y <;> exact Krytic.underWayAs_refl _

theorem State.answer_answered (s : State) (r : KReq) (key : Option Key) (st : Nat) (frags : List Bytes) :
    Answered s (s.answer r key st frags) := by
  unfold State.answer State.cacheReply
  dsimp only
  split
  · obtain ⟨k, hk⟩ := State.setSession_eq s r.sess ((s.session r.sess).put (r.seq :: r.seqs) [mkReply r key st frags])
    have hu := setSession_underWayAs s r.sess ((s.session r.sess).put (r.seq :: r.seqs) [mkReply r key st frags])
    rw [hk] at hu ⊢
    exact ⟨k, hu, State.sendReply_step _⟩
  · exact ⟨s.kry, Krytic.underWayAs_refl _, State.sendReply_step _⟩

theorem State.finalReply_answered (s : State) (x : Running) (st : Nat) (frags : List Bytes) :
    Answered s (s.finalReply x st frags) := by
  unfold State.finalReply
  split
  · exact Answered.refl
  · split
    · exact s.answer_answered ..
    · exact ⟨{ s.kry with owed := s.kry.owed ++ [(x.req, mkReply x.req x.key st frags)] },
        ⟨rfl, rfl, rfl, rfl, rfl, rfl, rfl, rfl⟩, ReplyStep.refl⟩

theorem foldl_finalReply_answered (l : List Running) (s : State) :
    Answered s (l.foldl (fun s x => s.finalReply x st frags) s) := by
  induction l generalizing s with
  | nil => exact Answered.refl
  | cons x l ih => exact (s.finalReply_answered x st frags).trans (ih _)

/-- The headworks once a command's work is over: it is neither deferred nor executing. -/
def workOver (w : Work → Bool) (k : Krytic) : Krytic :=
  { k with deferred := k.deferred.filter fun x => !w x.work, executing := k.executing.filter fun x => !w x.work }

/-- The end of a work changes what its replies change, and the command is no longer under way. -/
theorem State.workDone_answered (s : State) (w : Work → Bool) (st : Nat) (frags : List Bytes) :
    Answered { s with kry := workOver w s.kry } (s.workDone w st frags) := by
  let u : State := { s with kry := { s.kry with deferred := s.kry.deferred.filter fun x => !w x.work } }
  obtain ⟨k, hk, hstep⟩ := foldl_finalReply_answered (st := st) (frags := frags) (s.kry.deferred.filter fun x => w x.work) u
  obtain ⟨o, g, c, f, p, hv⟩ := hstep
  have hexec : k.executing = s.kry.executing := hk.2.1
  unfold State.workDone
  dsimp only
  rw [hv]
  dsimp only
  rw [hexec]
  obtain ⟨h1, h2, h3, h4, h5, h6, h7, h8⟩ := hk
  cases hx : s.kry.executing with
  | none =>
    refine ⟨k, ⟨h1, ?_, h3, h4, h5, h6, h7, h8⟩, o, g, c, f, p, rfl⟩
    rw [hexec, hx, workOver, hx]
    rfl
  | some x =>
    dsimp only
    split
    next hw =>
      refine Answered.trans ⟨{ k with executing := none }, ⟨h1, ?_, h3, h4, h5, h6, h7, h8⟩, o, g, c, f, p, rfl⟩
        (State.finalReply_answered ..)
      rw [workOver, hx, Option.filter_some, hw]
      rfl
    next hw =>
      refine ⟨k, ⟨h1, ?_, h3, h4, h5, h6, h7, h8⟩, o, g, c, f, p, rfl⟩
      rw [hexec, hx, workOver, hx, Option.filter_some, Bool.eq_false_iff.2 hw]
      rfl

/-- With no command under way the end of a work changes nothing. -/
theorem State.workDone_idle (w : Work → Bool) (hd : s.kry.deferred = []) (hx : s.kry.executing = none) : s.workDone w st frags = s := by
  unfold State.workDone
  dsimp only
  rw [hd, List.filter_nil, List.filter_nil, List.foldl_nil]
  split
  next x hx' =>
    have hsome : s.kry.executing = some x := hx'
    rw [hx] at hsome
    contradiction
  next =>
    exact congrArg (fun d => { s with kry := { s.kry with deferred := d } }) hd.symm

/-- A reply of one packet whose port may answer leaves. -/
theorem sendReply_leaves {rp : Reply} (hk : rp.key.isSome = true) (hu : s.portUp rp.port = true) (hm : s.mayReply rp.port)
    (hh : s.halted = false) (hc : s.confidential rp.levee = false) (hf : rp.frags.length = 1) :
    (s.sendReply rp).out = s.out ++ [.krytic rp] := by
  rw [sendReply_up hk hu hh hc]
  split
  next h512 =>
    have hspent : (s.port rp.port).pnSpent = false := hm.resolve_left (Nat.not_lt.2 h512)
    rw [controlReply_all (controlFrames_one hspent hf)]
    obtain ⟨g, f, p, hw⟩ := controlFrames_step rp.net rp.port rp.frags s
    rw [hw]
    rfl
  next => rfl

/-- Reply parameters of one packet make one fragment. -/
theorem replyParams_length {r : KReq} {f : Bytes} : (replyParams r [f]).length = 1 := by
  unfold replyParams
  dsimp only
  split <;> rfl

theorem State.answer_leaves {r : KReq} {key : Key} {f : Bytes} (hu : s.portUp r.port = true) (hm : s.mayReply r.port)
    (hh : s.halted = false) (hc : s.confidential r.levee = false) :
    (s.answer r (some key) st [f]).out = s.out ++ [.krytic (mkReply r (some key) st [f])] := by
  have hw : ∃ k, s.cacheReply r (mkReply r (some key) st [f]) = { s with kry := k } := by
    unfold State.cacheReply
    split
    · exact State.setSession_eq ..
    · exact ⟨s.kry, rfl⟩
  obtain ⟨k, hk⟩ := hw
  unfold State.answer
  dsimp only
  rw [hk]
  exact sendReply_leaves (s := { s with kry := k }) rfl hu hm hh hc replyParams_length

theorem State.finalReply_leaves {key : Key} {f : Bytes} (hk : x.key = some key) (hr : s.kry.ready = true)
    (hu : s.portUp x.req.port = true) (hm : s.mayReply x.req.port) (hh : s.halted = false) (hc : s.confidential x.req.levee = false) :
    (s.finalReply x st [f]).out = s.out ++ [.krytic (mkReply x.req (some key) st [f])] := by
  unfold State.finalReply
  rw [hk, hr]
  exact State.answer_leaves hu hm hh hc

/-- The end of the one deferred command's work: its final reply leaves. -/
theorem State.workDone_deferred_leaves {w : Work → Bool} {key : Key} {f : Bytes} (hd : s.kry.deferred = [x]) (hw : w x.work = true)
    (hx : s.kry.executing = none) (hk : x.key = some key) (hr : s.kry.ready = true) (hu : s.portUp x.req.port = true)
    (hm : s.mayReply x.req.port) (hh : s.halted = false) (hc : s.confidential x.req.levee = false) :
    (s.workDone w st [f]).out = s.out ++ [.krytic (mkReply x.req (some key) st [f])] := by
  let u : State := { s with kry := { s.kry with deferred := [x].filter fun x => !w x.work } }
  obtain ⟨k, hk', -⟩ := u.finalReply_answered x st [f]
  have hexec : (u.finalReply x st [f]).kry.executing = none := by
    obtain ⟨k, hk', o, g, c, fr, p, hv⟩ := u.finalReply_answered x st [f]
    rw [hv]
    exact hk'.2.1.trans hx
  have hrow : s.workDone w st [f] = u.finalReply x st [f] := by
    unfold State.workDone
    dsimp only
    rw [hd, List.filter_cons_of_pos (p := fun x : Running => w x.work) hw, List.filter_nil, List.foldl_cons, List.foldl_nil]
    show (match (u.finalReply x st [f]).kry.executing with | some _ => _ | none => _) = _
    rw [hexec]
  rw [hrow]
  exact State.finalReply_leaves (s := u) hk hr hu hm hh hc

/-- The end of the executing command's work: its reply leaves. -/
theorem State.workDone_executing_leaves {w : Work → Bool} {key : Key} {f : Bytes} (hd : s.kry.deferred.filter (fun y => w y.work) = [])
    (hx : s.kry.executing = some x) (hw : w x.work = true) (hk : x.key = some key) (hr : s.kry.ready = true)
    (hu : s.portUp x.req.port = true) (hm : s.mayReply x.req.port) (hh : s.halted = false) (hc : s.confidential x.req.levee = false) :
    (s.workDone w st [f]).out = s.out ++ [.krytic (mkReply x.req (some key) st [f])] := by
  let u : State := { s with kry := { s.kry with deferred := s.kry.deferred.filter (fun y => !w y.work), executing := none } }
  have hrow : s.workDone w st [f] = u.finalReply x st [f] := by
    unfold State.workDone
    dsimp only
    rw [hd, List.foldl_nil]
    dsimp only
    rw [hx]
    exact if_pos hw
  rw [hrow]
  exact State.finalReply_leaves (s := u) hk hr hu hm hh hc

end

/-! ### Commands that begin at once and are not done -/

section
variable {op : Nat} {t : Time} {r : KReq} {s u : State} {body : Body} {st : Nat} {w : Work}

theorem command_refuses (hb : begins op t r s = true) (hd : body { r with opcode := op } (taken r t s) = refuse u st) :
    command op body t r s = refuseReply op r u st := by
  rw [command_begins body hb, hd, refuseReply]

theorem command_defers (hb : begins op t r s = true) (hd : body { r with opcode := op } (taken r t s) = defer u w) :
    command op body t r s = deferReply op r u w := by
  rw [command_begins body hb, hd, deferReply]

theorem command_keepsRunning (hb : begins op t r s = true)
    (hd : body { r with opcode := op } (taken r t s) = { s := u, status := St.ok, work := some w }) :
    command op body t r s = keepsRunning op r u w := by
  rw [command_begins body hb, hd, keepsRunning]

end

end Sys2Proof.Machine
end

section
/-! PROOFS. The recorder: captures, their readout, and replay (17 R530–R534). -/

namespace Sys2Proof.Machine

/-! ### Captures -/

section
variable {s : State} {b trigger : Nat} {a : RecArm} {l : LastOp}

/-- A capture takes the lowest free slot. -/
theorem takeCapture_free {k trig set rseq levee queue crc1 crc2 : Nat} {d : Desc} {tiles : List (Nat × Bytes)}
    (h : Tab.lowestFree s.hlt.captures 16 = some k) :
    ∃ c : CaptureRec, (takeCapture trig set rseq b queue levee crc1 crc2 d tiles s).1 =
      (({ s with hlt := { s.hlt with captures := Tab.set s.hlt.captures k c } }).drawn).count (gk 0x0D 3 0) 1 ∧
      c.trigger = trig ∧ c.set = set ∧ c.desc = d := by
  unfold takeCapture
  rw [h]
  exact ⟨_, rfl, rfl, rfl, rfl⟩

theorem takeCapture_full {trig set rseq levee queue crc1 crc2 : Nat} {d : Desc} {tiles : List (Nat × Bytes)}
    (h : Tab.lowestFree s.hlt.captures 16 = none) :
    (takeCapture trig set rseq b queue levee crc1 crc2 d tiles s).1 = s.count (gk 0x0D 3 1) 1 := by
  unfold takeCapture
  rw [h]

theorem capture_unarmed (h : s.hlt.arm = none) : capture b trigger s = s := by
  unfold capture
  rw [h]

/-- An armed trigger that its basin's last operation meets fires once. -/
theorem capture_fires (ha : s.hlt.arm = some a) (hl : (s.basin b).last = some l) (ht : a.trigger = trigger)
    (hb : a.basin = 0xFFFF ∨ a.basin = b) (hm : triggerMet a l = true) (hc : s.confActive = false) :
    capture b trigger s = (takeCapture trigger a.set (s.nextRseq - 1) b l.queue l.levee 0 0 l.desc l.tiles
      { s with hlt := { s.hlt with arm := none } }).1 := by
  unfold capture
  rw [ha, hl]
  exact if_pos ⟨ht, hb, hm, by rw [hc]; rfl⟩

theorem capture_not_met (ha : s.hlt.arm = some a) (hl : (s.basin b).last = some l)
    (h : triggerMet a l = false ∨ s.confActive = true) : capture b trigger s = s := by
  unfold capture
  rw [ha, hl]
  refine if_neg fun hc => ?_
  obtain ⟨-, -, hm, hconf⟩ := hc
  rcases h with h | h
  · exact Bool.noConfusion (h.symm.trans hm)
  · rw [h] at hconf
    exact Bool.noConfusion hconf

end

/-! ### The commands -/

section
variable {r : KReq} {s : State}

theorem recArm_body (hl : plen r = 16) (h6 : byteAt (par r) 0 ≤ 6) (h1 : byteAt (par r) 0 ≠ 1) (hb : be (par r) 2 2 ≤ 255 ∨ be (par r) 2 2 = 0xFFFF)
    (hq : be (par r) 4 2 ≤ 4095) : bodyRecArm r s =
      if byteAt (par r) 0 = 0 then done { s with hlt := { s.hlt with arm := none } }
      else if byteAt (par r) 0 = 6 then
        match if be (par r) 2 2 = 0xFFFF then none else (s.basin (be (par r) 2 2)).last with
        | some l => done (takeCapture 6 (byteAt (par r) 1 % 4) (s.nextRseq - 1) (be (par r) 2 2) l.queue l.levee 0 0 l.desc l.tiles
            { s with hlt := { s.hlt with arm := none } }).1
        | none => done (takeCapture 6 (byteAt (par r) 1 % 4) (s.nextRseq - 1) (be (par r) 2 2) 0 0 0 0 (zeros 64) []
            { s with hlt := { s.hlt with arm := none } }).1
      else done { s with hlt := { s.hlt with
        arm := some ⟨byteAt (par r) 0, byteAt (par r) 1 % 4, be (par r) 2 2, be (par r) 4 2, be (par r) 8 4⟩ } } := by
  refine (checks_pass fun c hc => ?_).trans rfl
  simp only [List.mem_cons, List.not_mem_nil, or_false] at hc
  rcases hc with rfl | rfl
  · simp [hl]
  · simp only [Bool.or_eq_false_iff, Bool.and_eq_false_iff, decide_eq_false_iff_not, beq_eq_false_iff_ne, bne_eq_false_iff_eq]
    omega

theorem recArm_refused (hl : plen r = 16) (h1 : byteAt (par r) 0 = 1) : bodyRecArm r s = refuse s 0x11 := by
  unfold bodyRecArm
  simp [checks, hl, h1]

/-- What REC_READ returns of a capture, in packets of 4,032 bytes (R533). -/
def recReadFrags (p : Bytes) (c : CaptureRec) : List Bytes :=
  let ps := chunks 4032 ((c.bytes.drop (be p 12 4)).take (be p 16 4))
  (List.range ps.length).map fun i => toBe 4 c.bytes.length ++ toBe 4 (be p 12 4 + 4032 * i) ++ pad8 (ps.getD i [])

theorem recRead_body {c : CaptureRec} (hf : r.frags = [par r]) (hl : plen r = 24) (hk : byteAt (par r) 8 ≤ 15)
    (hc : Tab.get? s.hlt.captures (byteAt (par r) 8) = some c) (ho : be (par r) 12 4 % 8 = 0) (hn : be (par r) 16 4 % 8 = 0)
    (h1 : 1 ≤ be (par r) 16 4) (h2 : be (par r) 16 4 ≤ 64512) (hlt : be (par r) 12 4 < c.bytes.length) :
    bodyRecRead r s = done (if bitOf (byteAt (par r) 9) 0 then
      { s with hlt := { s.hlt with captures := Tab.del s.hlt.captures (byteAt (par r) 8) } } else s) (recReadFrags (par r) c) := by
  unfold bodyRecRead
  dsimp only
  rw [checks_pass, hc]
  · exact congrArg (fun l : List Bytes => done _ l) (List.map_id' _)
  · intro d hd
    simp only [List.mem_cons, List.not_mem_nil, or_false] at hd
    rcases hd with rfl | rfl
    · simp [oneFrag, hf, hl]
    · rw [hc, Option.elim_some]
      simp [ho, hn]
      omega

/-- A basin drains for a test or a replay. -/
def Basin.drain (x : Basin) : Basin := { x with draining := true }

/-- The replay asked for and both basins of its mesh stop draining (R534). -/
def replayStarts (y : Replay) (s : State) : State :=
  (({ s with hlt := { s.hlt with replay := some y } } : State).modBasin y.basin Basin.drain).modBasin (y.basin ^^^ 1) Basin.drain

theorem replayStarts_effect (y : Replay) (s : State) : (replayStarts y s).hlt.replay = some y ∧
    ((replayStarts y s).basin y.basin).draining = true ∧ ((replayStarts y s).basin (y.basin ^^^ 1)).draining = true := by
  refine ⟨rfl, ?_, ?_⟩
  · rw [replayStarts, State.basin_modBasin]
    split
    · rfl
    · rw [State.basin_modBasin_self]
      rfl
  · rw [replayStarts, State.basin_modBasin_self]
    rfl

/-- A basin of a device without queues has no slot to move. -/
theorem moveSlots_none (b : Nat) (h : s.flm.queues = []) : moveSlots b s = some s := by
  unfold moveSlots
  rw [h]
  rfl

theorem recReplay_body {c : CaptureRec} (hl : plen r = 16) (hc : Tab.get? s.hlt.captures (byteAt (par r) 0) = some c)
    (ht : c.trunc = false) (hb : be (par r) 2 2 ≤ 255) (hv : voffMv (byteAt (par r) 4) ≤ 60) (hv5 : voffMv (byteAt (par r) 4) % 5 = 0)
    (htemp : byteAt (par r) 5 = 0 ∨ (40 ≤ byteAt (par r) 5 ∧ byteAt (par r) 5 ≤ 100)) (hm1 : 1500 ≤ be (par r) 6 2)
    (hm2 : be (par r) 6 2 ≤ 3450) (hn : 1 ≤ be (par r) 8 2) (hr : s.hlt.replay = none)
    (hq : bitOf (byteAt (par r) 1) 0 = true → s.flm.queues = []) :
    bodyRecReplay r s = defer (replayStarts ⟨byteAt (par r) 0, be (par r) 2 2, byteAt (par r) 4, byteAt (par r) 5, be (par r) 6 2,
      be (par r) 8 2⟩ s) .replay := by
  unfold bodyRecReplay
  dsimp only
  rw [checks_pass]
  · split
    next hforce =>
      have hstart : ∀ y, (replayStarts y s).flm.queues = [] := fun _ => hq hforce
      have hmove : ∀ y, (moveSlots y.basin (replayStarts y s)).bind (moveSlots (y.basin ^^^ 1)) = some (replayStarts y s) := fun y => by
        rw [moveSlots_none _ (hstart y), Option.bind_some, moveSlots_none _ (hstart y)]
      have hrow := hmove ⟨byteAt (par r) 0, be (par r) 2 2, byteAt (par r) 4, byteAt (par r) 5, be (par r) 6 2, be (par r) 8 2⟩
      rw [replayStarts] at hrow
      exact hrow ▸ rfl
    next => rfl
  · intro d hd
    simp only [List.mem_cons, List.not_mem_nil, or_false] at hd
    rcases hd with rfl | rfl | rfl
    · simp [hl]
    · rw [hc, Option.elim_some, ht]
      simp [hv5]
      omega
    · rw [hr]
      rfl

/-! ### The end of a replay -/

/-- The basins of a replay serve again, and the replay is over. -/
def replayOver (y : Replay) (s : State) : State :=
  (({ s with hlt := { s.hlt with replay := none } } : State).modBasin y.basin fun x => { x with draining := false }).modBasin
    (y.basin ^^^ 1) fun x => { x with draining := false }

theorem replayComplete_waits {y : Replay} {runs mism temp : Nat} {crc : Word} (hr : s.hlt.replay = some y)
    (h : drained s y.basin = false ∨ drained s (y.basin ^^^ 1) = false) : replayComplete runs mism temp crc s = s := by
  unfold replayComplete
  rw [hr]
  refine if_pos ?_
  rcases h with h | h <;> rw [h]
  · rfl
  · exact Bool.or_true _

/-- The reply of a replay (R534). -/
def replayReply (runs mism temp : Nat) (crc : Word) : Bytes := toBe 4 runs ++ toBe 4 mism ++ toBe 1 temp ++ zeros 3 ++ toBe 4 crc.toNat

/-- The record a replay leaves (17 Table HLT-2). -/
def replayRecord (y : Replay) (runs mism temp : Nat) : Bytes :=
  recBody [(32, 1, y.capture), (33, 2, y.basin), (36, 4, runs), (40, 4, mism), (44, 1, temp), (45, 1, y.voff), (46, 2, y.mhz)]

theorem replayComplete_done {y : Replay} {runs mism temp : Nat} {crc : Word} (hr : s.hlt.replay = some y)
    (h1 : drained s y.basin = true) (h2 : drained s (y.basin ^^^ 1) = true) : replayComplete runs mism temp crc s =
      offIfDue y.basin (((((replayOver y s).count (gk 0x0D 3 2) 1).ledger 0x0053 (srcOf 2 y.basin)
        (replayRecord y runs mism temp)).workDone (fun w => w == .replay) St.ok [replayReply runs mism temp crc])) := by
  unfold replayComplete
  rw [hr]
  dsimp only
  rw [h1, h2]
  rfl

/-- What a write of one basin's entry leaves alone it leaves alone of every basin. -/
theorem modBasin_proj {α : Type} (π : Basin → α) {f : Basin → Basin} (hf : ∀ x, π (f x) = π x) (s : State) (b k : Nat) :
    π ((s.modBasin b f).basin k) = π (s.basin k) := by
  rw [State.basin_modBasin]
  split
  · exact hf _
  · rfl

theorem setPower_proj {α : Type} (π : Basin → α) (hp : ∀ (x : Basin) p t, π { x with power := p, since := t } = π x) (p : BasinPower)
    (s : State) (b k : Nat) : π ((setPower b p s).basin k) = π (s.basin k) := by
  obtain ⟨g, h⟩ := setPower_eq (s := s) (b := b) p
  have hrow : (setPower b p s).basin k = (s.modBasin b fun x => { x with power := p, since := s.now }).basin k := by
    rw [h]
    rfl
  rw [hrow]
  exact modBasin_proj π (fun x => hp x p s.now) s b k

theorem zeroTiles_proj {α : Type} (π : Basin → α) (hz : ∀ (x : Basin) u v w, π { x with sums := u, once := v, taint := w } = π x)
    (b k : Nat) (ts : List Nat) (s : State) : π ((zeroTiles b ts s).basin k) = π (s.basin k) :=
  modBasin_proj π (f := fun x : Basin => { x with
    sums := x.sums.filter (fun e => !ts.contains e.1), once := x.once.filter (fun t => !ts.contains t),
    taint := x.taint.filter fun t => !ts.contains t }) (fun x => hz x _ _ _) s b k

/-- A basin goes off, or nothing happens. -/
theorem offIfDue_cases (b : Nat) (s : State) : offIfDue b s = s ∨ ∃ ts, offIfDue b s =
    (setPower b .off (zeroTiles b ts s)).modBasin b fun x => { x with undo := [], check := none } := by
  unfold offIfDue
  dsimp only
  split
  · exact Or.inr ⟨_, rfl⟩
  · exact Or.inl rfl

/-- What a basin going off changes is its power state, marks, check and undo alone. -/
theorem offIfDue_proj {α : Type} (π : Basin → α) (hp : ∀ (x : Basin) p t, π { x with power := p, since := t } = π x)
    (hz : ∀ (x : Basin) u v w, π { x with sums := u, once := v, taint := w } = π x)
    (hu : ∀ x : Basin, π { x with undo := [], check := none } = π x) (b k : Nat) (s : State) :
    π ((offIfDue b s).basin k) = π (s.basin k) := by
  rcases offIfDue_cases b s with h | ⟨ts, h⟩
  · rw [h]
  · rw [h]
    have hoff := modBasin_proj π (f := fun x : Basin => { x with undo := [], check := none }) hu (setPower b .off (zeroTiles b ts s)) b k
    exact hoff.trans ((setPower_proj π hp .off (zeroTiles b ts s) b k).trans (zeroTiles_proj π hz b k ts s))

/-- A basin that goes off, or not, drains as it did; nothing leaves and the health record and the headworks stand. -/
theorem offIfDue_effect (b k : Nat) (s : State) : ((offIfDue b s).basin k).draining = (s.basin k).draining ∧
    (offIfDue b s).hlt = s.hlt ∧ (offIfDue b s).out = s.out ∧ (offIfDue b s).kry = s.kry ∧ (offIfDue b s).flm = s.flm := by
  refine ⟨offIfDue_proj (·.draining) (fun _ _ _ => rfl) (fun _ _ _ _ => rfl) (fun _ => rfl) b k s, ?_⟩
  rcases offIfDue_cases b s with h | ⟨ts, h⟩
  · rw [h]
    exact ⟨rfl, rfl, rfl, rfl⟩
  · obtain ⟨g, hset⟩ := setPower_eq (s := zeroTiles b ts s) (b := b) .off
    rw [h, hset]
    exact ⟨rfl, rfl, rfl, rfl⟩

theorem replayOver_effect (y : Replay) (s : State) : ((replayOver y s).basin y.basin).draining = false ∧
    ((replayOver y s).basin (y.basin ^^^ 1)).draining = false := by
  refine ⟨?_, ?_⟩
  · rw [replayOver, State.basin_modBasin]
    split
    · rfl
    · rw [State.basin_modBasin_self]
  · rw [replayOver, State.basin_modBasin_self]

/-- A replay ends: its basins serve again, and its reply leaves. -/
theorem replayComplete_effect {y : Replay} {runs mism temp : Nat} {crc : Word} (hr : s.hlt.replay = some y)
    (h1 : drained s y.basin = true) (h2 : drained s (y.basin ^^^ 1) = true) :
    let v := replayComplete runs mism temp crc s
    v.hlt.replay = none ∧ (v.basin y.basin).draining = false ∧ (v.basin (y.basin ^^^ 1)).draining = false ∧
      (∀ x key, s.kry.deferred = [x] → x.work = .replay → x.key = some key → s.kry.ready = true → s.portUp x.req.port = true →
        s.mayReply x.req.port → s.halted = false → s.confidential x.req.levee = false → s.kry.executing = none →
        v.out = s.out ++ [.krytic (mkReply x.req (some key) 0x00 [replayReply runs mism temp crc])]) := by
  intro v
  obtain ⟨bf, l, d, g, hled⟩ := State.ledger_buffers ((replayOver y s).count (gk 0x0D 3 2) 1) 0x0053 (srcOf 2 y.basin)
    (replayRecord y runs mism temp)
  obtain ⟨k, hk, o, g', c, f, p, hdone⟩ := State.workDone_answered (((replayOver y s).count (gk 0x0D 3 2) 1).ledger 0x0053
    (srcOf 2 y.basin) (replayRecord y runs mism temp)) (fun w => w == .replay) St.ok [replayReply runs mism temp crc]
  obtain ⟨hd1, hd2⟩ := replayOver_effect y s
  have hv : v = _ := replayComplete_done (runs := runs) (mism := mism) (temp := temp) (crc := crc) hr h1 h2
  have hbasin : ∀ b, (v.basin b).draining = ((replayOver y s).basin b).draining := fun b => by
    rw [hv, (offIfDue_effect y.basin b _).1, hdone, hled]
    rfl
  refine ⟨?_, (hbasin _).trans hd1, (hbasin _).trans hd2, fun x key hdef hw hkey hready hu hm hh hconf hx => ?_⟩
  · rw [hv, (offIfDue_effect y.basin 0 _).2.1, hdone, hled]
    rfl
  · rw [hv, (offIfDue_effect y.basin 0 _).2.2.1, hled]
    exact State.workDone_deferred_leaves (x := x) hdef (by rw [hw]; rfl) hx hkey hready hu hm hh hconf

end

/-- Settles O57: a capture by the slot it takes, the commands by their bodies, a replay by its drain and its end. -/
theorem recorderCapturesAndReplays : Obligations.RecorderCapturesAndReplays := by
  intro t r s u w p tr
  refine ⟨fun b trigger a l ha hl ht hb => ⟨fun hm hc => ⟨fun k hk => ?takes, fun hk => ?full⟩,
      fun h => congrArg Host.Outcome.next (capture_not_met (s := w) ha hl h)⟩,
    fun b trigger h => congrArg Host.Outcome.next (capture_unarmed (s := w) h), fun hb hl hba hq => ?arm,
    fun c hb hf hl hk hc ho hn h1 h2 hlt => command_answers hb
      (recRead_body (r := { r with opcode := 0x0D02 }) (s := u) hf hl hk hc ho hn h1 h2 hlt),
    fun c hb hl hc ht hba hv hv5 htemp hm1 hm2 hn hr hq => ?replay,
    fun y runs mism temp crc hr => ⟨fun h => congrArg Host.Outcome.next (replayComplete_waits (s := w) hr h),
      fun h1 h2 => ⟨_, rfl, replayComplete_effect (s := w) hr h1 h2⟩⟩⟩
  case takes =>
    obtain ⟨c, hcap, htrig, hset, hdesc⟩ := takeCapture_free (s := { w with hlt := { w.hlt with arm := none } }) (b := b) (trig := trigger)
      (set := a.set) (rseq := w.nextRseq - 1) (levee := l.levee) (queue := l.queue) (crc1 := 0) (crc2 := 0) (d := l.desc) (tiles := l.tiles) hk
    refine ⟨_, c, congrArg Host.Outcome.next ((capture_fires (s := w) ha hl ht hb hm hc).trans hcap), rfl, Tab.get?_set_self .., htrig, hset, hdesc,
      fun j hj => Tab.get?_set_ne _ _ (Ne.symm hj)⟩
  case full =>
    have hcap := takeCapture_full (s := { w with hlt := { w.hlt with arm := none } }) (b := b) (trig := trigger)
      (set := a.set) (rseq := w.nextRseq - 1) (levee := l.levee) (queue := l.queue) (crc1 := 0) (crc2 := 0) (d := l.desc) (tiles := l.tiles) hk
    exact ⟨_, congrArg Host.Outcome.next ((capture_fires (s := w) ha hl ht hb hm hc).trans hcap), rfl, rfl⟩
  case arm =>
    have hbody := fun h6 h1 => recArm_body (r := { r with opcode := 0x0D01 }) (s := u) hl h6 h1 hba hq
    refine ⟨fun h => command_answers hb ((hbody ?_ ?_).trans (if_pos h)), fun h => ?refused, fun h2 h5 => ?armed, fun k h hk => ?atOnce⟩
    · show tr ≤ 6; omega
    · show tr ≠ 1; omega
    case armed =>
      refine command_answers hb ((hbody ?_ ?_).trans ((if_neg ?_).trans (if_neg ?_)))
      · show tr ≤ 6; omega
      · show tr ≠ 1; omega
      · show tr ≠ 0; omega
      · show tr ≠ 6; omega
    case refused => exact command_refuses hb (recArm_refused (r := { r with opcode := 0x0D01 }) hl h)
    case atOnce =>
      have hrow := (hbody (Nat.le_of_eq h) (by show tr ≠ 1; omega)).trans ((if_neg (by show tr ≠ 0; omega)).trans (if_pos h))
      split at hrow
      next l _ =>
        obtain ⟨c, hcap, htrig, -, -⟩ := takeCapture_free (s := { u with hlt := { u.hlt with arm := none } }) (b := be p 2 2) (trig := 6)
          (set := byteAt p 1 % 4) (rseq := u.nextRseq - 1) (levee := l.levee) (queue := l.queue) (crc1 := 0) (crc2 := 0) (d := l.desc)
          (tiles := l.tiles) hk
        exact ⟨_, c, command_answers hb (hrow.trans (congrArg done hcap)), rfl, Tab.get?_set_self .., htrig⟩
      next _ =>
        obtain ⟨c, hcap, htrig, -, -⟩ := takeCapture_free (s := { u with hlt := { u.hlt with arm := none } }) (b := be p 2 2) (trig := 6)
          (set := byteAt p 1 % 4) (rseq := u.nextRseq - 1) (levee := 0) (queue := 0) (crc1 := 0) (crc2 := 0) (d := zeros 64)
          (tiles := []) hk
        exact ⟨_, c, command_answers hb (hrow.trans (congrArg done hcap)), rfl, Tab.get?_set_self .., htrig⟩
  case replay =>
    have hbody := recReplay_body (r := { r with opcode := 0x0D03 }) (s := u) hl hc ht hba hv hv5 htemp hm1 hm2 hn hr hq
    exact ⟨_, command_defers hb hbody, replayStarts_effect _ u⟩

end Sys2Proof.Machine
end

section
/-! PROOFS. Ports configured, and MACsec associations installed, activated and deleted (03 R88–R104). -/

namespace Sys2Proof.Machine

/-! ### A port brought to its configuration -/

section
variable {cs : List PortCfg} {c : PortCfg} {n k : Nat} {s : State}

/-- A port that goes down leaves every other port as it was. -/
theorem portDown_other {p reason : Nat} {next : LinkState} (h : k ≠ p) : (portDown p reason next s).port k = s.port k := by
  unfold portDown
  extract_lets q _ q' s1 s2 s3 s4 s5
  have h1 : s1.port k = s.port k := State.port_setPort_ne _ _ h
  split
  · have h3 : s3.port k = s.port k := by
      unfold s3
      split
      · exact h1
      · exact h1
    have h5 : s5.port k = s.port k := by
      rw [State.ledger_port, State.port_of_ports ((markStale_ports ..).trans (truncateTx_ports ..)), h3]
    clear_value s5
    split
    · exact h5
    · exact h5
  · exact h1

/-- A port taken down by its configuration is never damped (R97). -/
theorem portDown_configured_st {next : LinkState} : ((portDown n 6 next s).port n).st = next := by
  rw [portDown_port]
  cases h : (s.port n).st == .up with
  | true => exact (Port.down_undamped (beq_iff_eq.1 h) (Or.inl rfl)).1
  | false =>
    unfold Port.down
    dsimp only
    rw [h]
    rfl

/-- A port the vector leaves out goes (R90). -/
theorem reconfigure_left_out (hc : cs.find? (fun x => x.port == n) = none) (hm : (s.port n).mode ≠ 0) :
    reconfigure cs n s = (portDown n 6 .disabled (clearPortGauges n s)).modPort n fun q => { q with mode := 0 } := by
  unfold reconfigure
  rw [hc]
  exact if_neg hm

theorem State.port_modPort_self (s : State) (n : Nat) (f : Port → Port) : (s.modPort n f).port n = f (s.port n) :=
  State.port_setPort_self ..

theorem State.port_modPort_ne (s : State) {n k : Nat} (f : Port → Port) (h : k ≠ n) : (s.modPort n f).port k = s.port k :=
  State.port_setPort_ne _ _ h

theorem reconfigure_left_out_effect (hc : cs.find? (fun x => x.port == n) = none) (hm : (s.port n).mode ≠ 0) :
    ((reconfigure cs n s).port n).mode = 0 ∧ ((reconfigure cs n s).port n).st = .disabled ∧
      ∀ k, k ≠ n → (reconfigure cs n s).port k = s.port k := by
  rw [reconfigure_left_out hc hm, State.port_modPort_self]
  refine ⟨rfl, portDown_configured_st, fun k hk => ?_⟩
  rw [State.port_modPort_ne _ _ hk, portDown_other hk]
  rfl

/-- A port as its configuration starts it. -/
def configured (c : PortCfg) (now : Time) (q : Port) : Port := { q with
  mode := c.mode, medium := c.medium, an := c.an, txInvert := c.tx, rxInvert := c.rx, trainMs := c.trainMs,
  degrade := c.degrade, since := now, st := if c.an then .negotiate else .train }

/-- A port that was not configured starts (R90). -/
theorem reconfigure_starts (hc : cs.find? (fun x => x.port == c.port) = some c) (h0 : (s.port c.port).mode = 0) (hm : c.mode ≠ 0) :
    reconfigure cs c.port s = (clearPortGauges c.port s).modPort c.port (configured c s.now) := by
  unfold reconfigure
  dsimp only
  rw [hc]
  dsimp only
  rw [if_neg fun h => hm (h.1.symm.trans h0), if_pos h0]
  rfl

/-- Alone in its cycle the change of configuration governs it (R95). -/
theorem linkRow_port_fresh {rank : Nat} {f : State → State} (h : s.freshCycle n) : (linkRow n rank f s).port n = (f s).port n := by
  by_cases he : (f s).port n = s.port n
  · have hrow : linkRow n rank f s = s := by simp [linkRow, h.filter_none, he]
    rw [hrow, he]
  · rw [linkRow_fresh h he, State.ruled_port]

end

/-! ### Associations -/

section
variable (q : Port) (sci an sc : Nat) (sa : Sa)

theorem txSaSet_installed : ∃ sas, (txSaSet q sci an (some sa) true).tx = some (sci, sas, some an) ∧ Tab.get? sas an = some sa :=
  ⟨_, rfl, Tab.get?_set_self ..⟩

theorem rxSaSet_installed : ∃ c, Tab.get? (rxSaSet q sc sci an (some sa)).rx sc = some c ∧ c.sci = sci ∧ Tab.get? c.sas an = some sa :=
  ⟨_, Tab.get?_set_self .., rfl, Tab.get?_set_self ..⟩

theorem txSaSet_deleted {x : Nat} {sas : Tab Sa} {cur : Option Nat} (h : (txSaSet q sci an none false).tx = some (x, sas, cur)) :
    Tab.get? sas an = none ∧ cur ≠ some an := by
  unfold txSaSet at h
  dsimp only at h
  split at h
  · contradiction
  · obtain ⟨-, hsas, hcur⟩ : _ ∧ _ = sas ∧ _ = cur := by simpa using h
    rw [← hsas, ← hcur, Tab.get?_del, if_pos rfl]
    refine ⟨rfl, ?_⟩
    split
    · exact Option.some_ne_none an |>.symm
    next hne => exact hne

theorem rxSaSet_deleted {c : RxSc} (h : Tab.get? (rxSaSet q sc sci an none).rx sc = some c) : Tab.get? c.sas an = none := by
  unfold rxSaSet at h
  cases hq : Tab.get? q.rx sc with
  | none =>
    rw [hq] at h
    exact absurd (hq.symm.trans h) (by simp)
  | some y =>
    rw [hq] at h
    dsimp only at h
    split at h
    · rw [Tab.get?_del, if_pos rfl] at h
      contradiction
    · rw [Tab.get?_set_self, Option.some.injEq] at h
      rw [← h, Tab.get?_del, if_pos rfl]

end

/-! ### The commands -/

section
variable {r : KReq} {s : State}

theorem portConfig_body {cs : List PortCfg} (hl : plen r = 32) (hc : portCfgs (par r) = some cs)
    (hlanes : ∀ c ∈ cs, c.port < 512 → ∀ i < modeLanes c.mode, (c.port + i) ∉ s.hlt.retiredLanes) :
    bodyPortConfig r s = { done s with after := fun s => (groupPorts (byteAt (par r) 0)).foldl (fun s n => linkRow n 13 (reconfigure cs n) s) s } := by
  unfold bodyPortConfig
  dsimp only
  rw [hc]
  dsimp only
  rw [if_neg fun h => h hl, if_neg]
  simp only [List.any_eq_true, Bool.and_eq_true, decide_eq_true_eq, List.mem_range, List.contains_iff_mem, not_exists, not_and]
  exact fun c hcs hp i hi => hlanes c hcs hp i hi

/-- The association MACSEC_SA_SET's parameters give (03 Table PRT-5). -/
def saGiven (p : Bytes) (k : Key) : Sa :=
  { suite := byteAt p 5, nextPn := be p 16 8, ssci := be p 24 4, salt := slice p 28 12, key := k, window := be p 40 4 }

theorem macsecSaSet_body {k : Key} (hl : plen r = 112) (hp : s.portExists (be (par r) 0 2) = true) (han : byteAt (par r) 4 ≤ 3)
    (hs : byteAt (par r) 5 = 2 ∨ byteAt (par r) 5 = 1 ∧ be (par r) 16 4 = 0 ∧ be (par r) 24 16 = 0)
    (hk : s.unwrap r.sess (slice (par r) 48 64) = some k)
    (hdir : (byteAt (par r) 2 = 0 ∧ byteAt (par r) 3 = 0 ∧
        (((s.port (be (par r) 0 2)).tx.map (·.2.2)).getD none = some (byteAt (par r) 4) → bitOf (byteAt (par r) 6) 0 = true)) ∨
      (byteAt (par r) 2 = 1 ∧ byteAt (par r) 3 ≤ 3 ∧ bitOf (byteAt (par r) 6) 0 = false ∧ be (par r) 40 4 ≤ 65535)) :
    bodyMacsecSaSet r s = done (s.setPort (be (par r) 0 2) (if (byteAt (par r) 2 == 0) = true then
      txSaSet (s.port (be (par r) 0 2)) (be (par r) 8 8) (byteAt (par r) 4)
        (if bitOf (byteAt (par r) 6) 1 then none else some (saGiven (par r) k)) (bitOf (byteAt (par r) 6) 0)
      else rxSaSet (s.port (be (par r) 0 2)) (byteAt (par r) 3) (be (par r) 8 8) (byteAt (par r) 4)
        (if bitOf (byteAt (par r) 6) 1 then none else some (saGiven (par r) k)))) := by
  unfold bodyMacsecSaSet
  dsimp only
  rw [hk]
  refine checks_pass fun c hc => ?_
  simp only [List.mem_cons, List.not_mem_nil, or_false] at hc
  rcases hc with rfl | rfl | rfl | rfl | rfl | rfl | rfl
  · simp [hl]
  · rcases hdir with ⟨h2, h3, -⟩ | ⟨h2, h3, -⟩
    · simp [hp, h2, h3]
      omega
    · simp [hp, h2]
      omega
  · rcases hs with h | ⟨h, -⟩ <;> simp [h]
  · rcases hs with h | ⟨h, h1, h2⟩
    · simp [h]
    · simp [h1, h2]
  · rcases hdir with ⟨h2, -⟩ | ⟨h2, -, ha, hw⟩
    · simp [h2]
    · simp [ha]
      omega
  · rcases hdir with ⟨h2, -, ha⟩ | ⟨h2, -⟩
    · cases hact : bitOf (byteAt (par r) 6) 0 with
      | true => simp
      | false =>
        simp only [Bool.not_false, Bool.and_true, Bool.and_eq_false_iff, beq_eq_false_iff_ne]
        exact Or.inr fun h => Bool.noConfusion (hact.symm.trans (ha h))
    · simp [h2]
  · simp

end

/-- Settles O11: the ports by what one change of configuration leaves, the associations by the port they are set on. -/
theorem portsAndAssociationsAreConfigured : Obligations.PortsAndAssociationsAreConfigured := by
  refine ⟨⟨fun t r s cs hb hl hc hlanes => ⟨_, rfl, ?config⟩, fun cs n v h => linkRow_port_fresh h,
    fun cs c v hc h0 hm => ⟨_, rfl, ?starts⟩, fun cs n v hc hm => reconfigure_left_out_effect hc hm⟩, fun t r s k => ?sa⟩
  case config =>
    refine (command_begins bodyPortConfig hb).trans (congrArg Host.Outcome.next ?_)
    rw [portConfig_body (r := { r with opcode := 0x0201 }) hl hc]
    · rfl
    · intro c hcs hp i hi
      have hret : (taken r t s).hlt.retiredLanes = s.hlt.retiredLanes := by
        cases hx : r.sess <;> simp only [taken, hx, State.setSession] <;> rfl
      rw [hret]
      exact hlanes c hcs hp i hi
  case starts =>
    rw [reconfigure_starts hc h0 hm, State.port_modPort_self]
    exact ⟨rfl, rfl, rfl, rfl, rfl, rfl, rfl, rfl, rfl, fun n hn => State.port_modPort_ne _ _ hn, rfl, rfl, rfl, rfl⟩
  case sa =>
    intro u p q sa hb hl hp han hs hk
    have hbody := macsecSaSet_body (r := { r with opcode := 0x0204 }) (s := u) hl hp han hs hk
    refine ⟨fun h2 h3 ha => command_answers hb ((hbody (Or.inl ⟨h2, h3, ha⟩)).trans ?_),
      fun h2 h3 ha hw => command_answers hb ((hbody (Or.inr ⟨h2, h3, ha, hw⟩)).trans ?_),
      fun sci an sc => ⟨txSaSet_installed q sci an sa, rxSaSet_installed q sci an sc sa, fun x sas cur => txSaSet_deleted q sci an,
        fun c => rxSaSet_deleted q sci an sc⟩⟩
    · exact congrArg (fun q => done (u.setPort (be p 0 2) q)) (if_pos (beq_iff_eq.2 h2))
    · have hrx : ¬ (byteAt p 2 == 0) = true := fun h => absurd (beq_iff_eq.1 h) (by rw [h2]; decide)
      exact congrArg (fun q => done (u.setPort (be p 0 2) q)) (if_neg hrx)

end Sys2Proof.Machine
end

section
/-! PROOFS. Tests in service: their drain, their run, their verdict, and the hold-out of a basin (17 R522–R529). -/

namespace Sys2Proof.Machine

/-! ### A test begins -/

section
variable {r : KReq} {s : State} {cal : Bool}

/-- The resource SELFTEST and CALIBRATE name (17 Table HLT-5). -/
def testId (p : Bytes) : Nat := if byteAt p 0 = 0 then 0 else be p 2 2

/-- A test joins those under way, its basin draining (R522). -/
def testJoins (x : Test) (s : State) : State :=
  let s := { s with hlt := { s.hlt with tests := s.hlt.tests ++ [x] } }
  if x.kind = 1 then s.modBasin x.id fun b => { b with draining := true } else s

theorem testJoins_effect (x : Test) (s : State) : (testJoins x s).hlt.tests = s.hlt.tests ++ [x] ∧
    (x.kind = 1 → ((testJoins x s).basin x.id).draining = true) ∧ (testJoins x s).ports = s.ports ∧ (testJoins x s).scr = s.scr := by
  unfold testJoins
  dsimp only
  split
  · exact ⟨rfl, fun _ => congrArg Basin.draining (State.basin_modBasin_self _ _ _), rfl, rfl⟩
  next h => exact ⟨rfl, fun hk => absurd hk h, rfl, rfl⟩

theorem test_body (hx : testExists (byteAt (par r) 0) (testId (par r)) = true) (hl : plen r = 8)
    (h0 : bitOf (byteAt (par r) 1 % 8) 0 = false) (hd : byteAt (par r) 0 = 0 → byteAt (par r) 1 % 8 = 0 ∧ s.sec.levees = [])
    (hsame : ∀ x ∈ s.hlt.tests, ¬(x.kind = byteAt (par r) 0 ∧ testDie x.kind x.id = testDie (byteAt (par r) 0) (testId (par r))))
    (hrep : byteAt (par r) 0 = 1 → ∀ y, s.hlt.replay = some y → y.basin / 2 ≠ testId (par r) / 2)
    (hre : bitOf (byteAt (par r) 1 % 8) 1 = true → cal = false ∧ heldOut s (byteAt (par r) 0) (testId (par r)) = true) :
    bodyTest cal r s = defer (testJoins ⟨byteAt (par r) 0, testId (par r), byteAt (par r) 1 % 8, cal, s.now, true, false⟩ s)
      (.test (byteAt (par r) 0) (testId (par r))) := by
  unfold bodyTest
  dsimp only
  rw [checks_pass, if_neg fun h => Bool.noConfusion (h0.symm.trans h)]
  · rfl
  · intro c hc
    simp only [List.mem_cons, List.not_mem_nil, or_false] at hc
    rcases hc with rfl | rfl | rfl
    · simp [hl]
    · change (!testExists (byteAt (par r) 0) (testId (par r)) || (byteAt (par r) 0 == 0 && byteAt (par r) 1 % 8 != 0) ||
        (bitOf (byteAt (par r) 1 % 8) 1 && (cal || !heldOut s (byteAt (par r) 0) (testId (par r))))) = false
      rw [hx, Bool.or_eq_false_iff, Bool.or_eq_false_iff]
      refine ⟨⟨rfl, ?_⟩, ?_⟩
      · by_cases hk : byteAt (par r) 0 = 0
        · rw [(hd hk).1]
          exact Bool.and_false _
        · rw [beq_eq_false_iff_ne.2 hk]
          rfl
      · cases hb : bitOf (byteAt (par r) 1 % 8) 1 with
        | false => rfl
        | true =>
          rw [(hre hb).1, (hre hb).2]
          rfl
    · change ((byteAt (par r) 0 == 0 && !s.sec.levees.isEmpty) || (s.hlt.tests.any fun x => x.kind == byteAt (par r) 0 &&
        testDie x.kind x.id == testDie (byteAt (par r) 0) (testId (par r))) ||
        (byteAt (par r) 0 == 1 && s.hlt.replay.elim false fun y => y.basin / 2 == testId (par r) / 2)) = false
      rw [Bool.or_eq_false_iff, Bool.or_eq_false_iff]
      refine ⟨⟨?_, ?_⟩, ?_⟩
      · by_cases hk : byteAt (par r) 0 = 0
        · rw [(hd hk).2]
          exact Bool.and_false _
        · rw [beq_eq_false_iff_ne.2 hk]
          rfl
      · rw [List.any_eq_false]
        intro x hx h
        simp only [Bool.and_eq_true, beq_iff_eq] at h
        exact hsame x hx h
      · by_cases hk : byteAt (par r) 0 = 1
        · cases hy : s.hlt.replay with
          | none => exact Bool.and_false _
          | some y =>
            rw [Option.elim_some, beq_eq_false_iff_ne.2 (hrep hk y hy)]
            exact Bool.and_false _
        · rw [beq_eq_false_iff_ne.2 hk]
          rfl

/-- A test of the kind is under way on the die: BUSY (R522). -/
theorem test_busy (hl : plen r = 8) (hx : testExists (byteAt (par r) 0) (testId (par r)) = true) (hf : byteAt (par r) 1 % 8 = 0)
    (hsame : ∃ x ∈ s.hlt.tests, x.kind = byteAt (par r) 0 ∧ testDie x.kind x.id = testDie (byteAt (par r) 0) (testId (par r))) :
    bodyTest cal r s = refuse s 0x40 := by
  obtain ⟨x, hmem, hk, hdie⟩ := hsame
  have hany : (s.hlt.tests.any fun x => x.kind == byteAt (par r) 0 &&
      testDie x.kind x.id == testDie (byteAt (par r) 0) (testId (par r))) = true :=
    List.any_eq_true.2 ⟨x, hmem, by rw [hdie, hk, beq_self_eq_true, beq_self_eq_true]; rfl⟩
  have hparam : (!testExists (byteAt (par r) 0) (testId (par r)) || (byteAt (par r) 0 == 0 && byteAt (par r) 1 % 8 != 0) ||
      (bitOf (byteAt (par r) 1 % 8) 1 && (cal || !heldOut s (byteAt (par r) 0) (testId (par r))))) = false := by
    rw [hx, hf, bne_self_eq_false, Bool.and_false]
    rfl
  have hbusy : ((byteAt (par r) 0 == 0 && !s.sec.levees.isEmpty) || (s.hlt.tests.any fun x => x.kind == byteAt (par r) 0 &&
      testDie x.kind x.id == testDie (byteAt (par r) 0) (testId (par r))) ||
      (byteAt (par r) 0 == 1 && s.hlt.replay.elim false fun y => y.basin / 2 == testId (par r) / 2)) = true := by
    rw [hany, Bool.or_true, Bool.true_or]
  exact (if_neg (by simp [hl])).trans ((if_neg fun h => Bool.noConfusion (hparam.symm.trans h)).trans (if_pos hbusy))

end

/-! ### The drain ends -/

section
variable {s : State} {k i : Nat} {x : Test}

theorem findTest_kind (h : findTest s k i = some x) : x.kind = k ∧ x.id = i := by
  have hx := List.find?_some h
  simpa using hx

/-- A change of the test of a resource that keeps its kind and number is found again. -/
theorem findTest_modTest {f : Test → Test} (hf : ∀ x, (f x).kind = x.kind ∧ (f x).id = x.id) (h : findTest s k i = some x) :
    findTest (s.modTest k i f) k i = some (f x) := by
  have hp : ((fun t : Test => t.kind == k && t.id == i) ∘ fun t => if t.kind = k ∧ t.id = i then f t else t) =
      fun t => t.kind == k && t.id == i := by
    funext t
    simp only [Function.comp_apply]
    split
    · rw [(hf t).1, (hf t).2]
    · rfl
  have hx := findTest_kind h
  unfold findTest State.modTest
  dsimp only
  rw [List.find?_map, hp, show s.hlt.tests.find? _ = some x from h, Option.map_some, if_pos hx]

/-- The drain has nothing more to wait for. -/
def drainOver (s : State) (k i : Nat) (x : Test) : Prop := x.started + sec 1 ≤ s.now ∨ resourceIdle s k i = true

theorem drainWaitExpiry_waits (h : findTest s k i = some x) (hi : resourceIdle s k i = false) (hn : s.now < x.started + sec 1) :
    drainWaitExpiry k i s = s := by
  unfold drainWaitExpiry
  rw [h]
  dsimp only
  rw [hi, decide_eq_false (Nat.not_le.2 hn)]
  exact if_pos (by simp)

theorem drainWaitExpiry_rehomes {v : State} (h : findTest s k i = some x) (hd : x.draining = true) (ho : drainOver s k i x)
    (hv : rehome k i (testBegin k i s) = some v) : drainWaitExpiry k i s = v := by
  have hgo : (!x.draining || !(decide (x.started + sec 1 ≤ s.now) || resourceIdle s k i)) = false := by
    rw [hd]
    rcases ho with ho | ho
    · rw [decide_eq_true ho]
      rfl
    · rw [ho, Bool.or_true]
      rfl
  unfold drainWaitExpiry
  rw [h]
  dsimp only
  rw [hgo, hv]
  rfl

theorem drainWaitExpiry_fails (h : findTest s k i = some x) (hd : x.draining = true) (hl : x.started + sec 1 ≤ s.now)
    (hv : rehome k i (testBegin k i s) = none) :
    drainWaitExpiry k i s = (giveBack k i s).workDone (fun w => w == .test k i) St.exhausted [] := by
  unfold drainWaitExpiry
  rw [h]
  dsimp only
  rw [hd, decide_eq_true hl, hv]
  rfl

theorem findTest_testBegin (h : findTest s k i = some x) :
    findTest (testBegin k i s) k i = some { x with draining := false, started := s.now } :=
  findTest_modTest (f := fun t => { t with draining := false, started := s.now }) (fun _ => ⟨rfl, rfl⟩) h

/-- A half of a bank that holds no tenant rows is taken out of the searches (12 R410). -/
theorem rehome_half (ht : isTenantBank (i / 2) = false) : rehome 2 i s =
    some { s with scr := { s.scr with out := if s.scr.out.contains i then s.scr.out else s.scr.out ++ [i] } } :=
  if_neg fun h => Bool.noConfusion (ht.symm.trans h)

theorem mem_insert_half (l : List Nat) : i ∈ if l.contains i then l else l ++ [i] := by
  split
  next h => exact List.contains_iff_mem.1 h
  next => exact List.mem_append_right _ (List.mem_singleton.2 rfl)

theorem rehome_channel_full (h1 : i ∉ s.hlt.retiredChannels) (h2 : i ∉ s.cis.relocated) (hf : s.freeFrames (testDie 3 i) < 531) :
    rehome 3 i s = none := by
  have hno : ¬ (s.hlt.retiredChannels.contains i = true ∨ s.cis.relocated.contains i = true) := by
    simp only [List.contains_iff_mem]
    exact fun h => h.elim h1 h2
  exact (if_neg hno).trans (if_pos hf)

/-- Where no test of the resource is under way, none is found. -/
theorem find_filtered (l : List Test) :
    (l.filter fun t => !(t.kind == k && t.id == i)).find? (fun t => t.kind == k && t.id == i) = none := by
  rw [List.find?_filter]
  exact List.find?_eq_none.2 fun t _ => by cases (t.kind == k && t.id == i) <;> simp

/-- The gift back of a half or a channel: the test is over, and the rest by its kind. -/
theorem giveBack_half : giveBack 2 i s = { s with
    hlt := { s.hlt with tests := s.hlt.tests.filter fun t => !(t.kind == 2 && t.id == i) }
    scr := { s.scr with out := s.scr.out.filter fun h => h != i } } := rfl

theorem giveBack_channel : giveBack 3 i s = { s with
    hlt := { s.hlt with tests := s.hlt.tests.filter fun t => !(t.kind == 3 && t.id == i) }
    cis := { s.cis with relocated := s.cis.relocated.filter fun c => c != i } } := rfl

theorem giveBack_basin : giveBack 1 i s = offIfDue i (({ s with
    hlt := { s.hlt with tests := s.hlt.tests.filter fun t => !(t.kind == 1 && t.id == i) } } : State).modBasin i
      fun x => { x with draining := false, idleSince := s.now }) := rfl

end

/-! ### The test ends -/

section
variable {s : State} {k i : Nat} {x : Test} {result : Nat} {detail : Bytes}

/-- The state a test's result is judged in: the count kept and the resource given back. -/
def testOver (x : Test) (k i : Nat) (s : State) : State := giveBack k i (s.count (gk 0x0D 1 (if x.cal then 1 else 0) k) 1)

/-- The reply of a test (Table HLT-6). -/
def testReply (s : State) (x : Test) (result action : Nat) (detail : Bytes) : Bytes :=
  toBe 1 result ++ toBe 1 action ++ zeros 2 ++ toBe 4 ((s.now - x.started) / us 1) ++ slice detail 0 8

/-- The record and the reply of a verdict. -/
def testEnds (x : Test) (k i result : Nat) (detail : Bytes) (s : State) (v : Nat × State) : State :=
  (testRecord (if x.cal then 2 else 1) k i result v.1 ((s.now - x.started) / us 1) detail v.2).workDone (fun w => w == .test k i) St.ok
    [testReply s x result v.1 detail]

theorem testComplete_guard (hd : x.draining = false) (hw : s.pwr.window = false) (hr : result ≤ 2) (ht : testReady s x = true) :
    (x.draining || s.pwr.window || decide (2 < result) || !testReady s x) = false := by
  rw [hd, hw, ht, decide_eq_false (Nat.not_lt.2 hr)]
  rfl

theorem testComplete_reruns (h : findTest s k i = some x) (hd : x.draining = false) (hw : s.pwr.window = false) (hr : result ≤ 2)
    (ht : testReady s x = true) (hre : x.rerun = true) :
    testComplete k i result detail s = s.modTest k i fun t => { t with rerun := false, started := s.now } := by
  unfold testComplete
  rw [h]
  dsimp only
  rw [testComplete_guard hd hw hr ht, hre]
  rfl

theorem testComplete_ends (h : findTest s k i = some x) (hd : x.draining = false) (hw : s.pwr.window = false) (hr : result ≤ 2)
    (ht : testReady s x = true) (hre : x.rerun = false) :
    testComplete k i result detail s = testEnds x k i result detail s (verdict x result (testOver x k i s)) := by
  unfold testComplete
  rw [h]
  dsimp only
  rw [testComplete_guard hd hw hr ht, hre]
  rfl

theorem testRecord_eq (cmd k i result action micros : Nat) (detail : Bytes) (s : State) : ∃ buf lostNext dropped gauges,
    testRecord cmd k i result action micros detail s =
      { s with hlt := { s.hlt with buf := buf, lostNext := lostNext, dropped := dropped }, gauges := gauges } :=
  State.ledger_buffers ..

theorem testReady_basin (hk : x.kind = 1) (h : testReady s x = true) : drained s x.id = true := by
  unfold testReady at h
  rwa [if_pos hk] at h

/-- The record and the reply of a verdict leave what its state holds of tests, events, retired resources, basins and searches. -/
theorem testEnds_effect (v : Nat × State) : let z := testEnds x k i result detail s v
    (∀ a b, findTest z a b = findTest v.2 a b) ∧ z.hlt.retiredHalves = v.2.hlt.retiredHalves ∧ z.hlt.event = v.2.hlt.event ∧
      z.scr = v.2.scr ∧ z.bsn = v.2.bsn := by
  intro z
  obtain ⟨b, l, d, g, hled⟩ := State.ledger_buffers v.2 0x0050 (testSource k i) (recBody [(32, 1, if x.cal then 2 else 1), (33, 1, k), (34, 2, i),
    (36, 1, result), (37, 1, v.1), (40, 4, (s.now - x.started) / us 1), (44, 8, le detail 0 8)])
  obtain ⟨kr, -, o, g', c, f, p, hdone⟩ := State.workDone_answered (testRecord (if x.cal then 2 else 1) k i result v.1
    ((s.now - x.started) / us 1) detail v.2) (fun w => w == .test k i) St.ok [testReply s x result v.1 detail]
  have hz : z = _ := hdone
  have hrec : testRecord (if x.cal then 2 else 1) k i result v.1 ((s.now - x.started) / us 1) detail v.2 = _ := hled
  rw [hz, hrec]
  exact ⟨fun _ _ => rfl, rfl, rfl, rfl, rfl⟩

theorem findTest_giveBack : findTest (giveBack k i s) k i = none := by
  let w : State := { s with hlt := { s.hlt with tests := s.hlt.tests.filter fun t => !(t.kind == k && t.id == i) } }
  have hw : findTest w k i = none := find_filtered _
  have hport : ∀ p (y : State), (testPortUp p y).hlt = y.hlt := fun _ _ => rfl
  have hkeep : (giveBack k i s).hlt = w.hlt := by
    unfold giveBack
    dsimp only
    split
    · exact List.foldlRecOn _ (fun (s : State) (e : Nat × Port) => testPortUp e.1 s) (motive := fun y => y.hlt = w.hlt) rfl
        fun y hy e _ => (hport e.1 y).trans hy
    · split
      · exact (offIfDue_effect i i _).2.1
      · split
        · rfl
        · split
          · rfl
          · split
            · exact hport _ _
            · rfl
  unfold findTest
  rw [hkeep]
  exact hw

theorem getLsbD_setBit_of {n : Nat} {v : BitVec n} {a b : Nat} (h : v.getLsbD a = true) : (setBit v b).getLsbD a = true := by
  rw [getLsbD_setBit, h]
  simp

/-- A half that passes, with nothing to reinstate. -/
theorem verdict_passes (hk : x.kind ≠ 0) (hr : result ≠ 2) (hf : x.flags = 0) : verdict x result s = (0, s) :=
  (if_neg hr).trans ((if_neg (by rw [hf]; decide)).trans (if_neg hk))

theorem verdict_reinstates (hr : result ≠ 2) (hf : bitOf x.flags 1 = true) : verdict x result s = (3, reinstate x.kind x.id s) :=
  (if_neg hr).trans (if_pos hf)

/-- A failure of a half in service withdraws it (R525). -/
theorem verdict_fails_half (hk : x.kind = 2) (hi : x.id ∉ s.hlt.retiredHalves) : verdict x 2 s =
    (2, retireResource 2 x.id ((s.hltEvent 1).count (gk 0x0D 1 2 2) 1)) := by
  have hheld : heldOut ((s.hltEvent 1).count (gk 0x0D 1 2 2) 1) 2 x.id = false := by
    show s.hlt.retiredHalves.contains x.id = false
    exact Bool.eq_false_iff.2 fun h => hi (List.contains_iff_mem.1 h)
  unfold verdict
  rw [hk, if_pos rfl]
  dsimp only
  refine if_neg ?_
  rintro (h | h)
  · exact absurd h (by decide)
  · exact Bool.noConfusion (hheld.symm.trans h)

theorem retireResource_half (hi : i ∉ s.hlt.retiredHalves) : i ∈ (retireResource 2 i s).hlt.retiredHalves ∧
    (retireResource 2 i s).hlt.event.getLsbD 3 = true ∧ (∀ b, s.hlt.event.getLsbD b = true → (retireResource 2 i s).hlt.event.getLsbD b = true) ∧
    (∀ a b, findTest (retireResource 2 i s) a b = findTest s a b) := by
  obtain ⟨b, l, d, g, hled⟩ := State.ledger_buffers s 0x0051 (testSource 2 i) (recBody [(32, 1, 2), (34, 2, i), (37, 1, 3)])
  unfold retireResource
  dsimp only
  rw [if_neg (by decide), if_pos rfl, hled]
  refine ⟨?_, getLsbD_setBit_self _ (by decide), fun b hb => getLsbD_setBit_of (getLsbD_setBit_of hb), fun _ _ => rfl⟩
  have hno : s.hlt.retiredHalves.contains i = false := Bool.eq_false_iff.2 fun h => hi (List.contains_iff_mem.1 h)
  show i ∈ if s.hlt.retiredHalves.contains i = true then _ else _
  rw [hno]
  exact List.mem_append_right _ (List.mem_singleton.2 rfl)

end

/-! ### A basin tested -/

/-- The rest of a basin's entry that a test's end leaves (09 R296). -/
theorem setQuar_proj {α : Type} (π : Basin → α) (hp : ∀ (x : Basin) p t, π { x with power := p, since := t } = π x)
    (hz : ∀ (x : Basin) u v w, π { x with sums := u, once := v, taint := w } = π x)
    (hu : ∀ x : Basin, π { x with undo := [], check := none } = π x)
    (hq : ∀ (x : Basin) q t m, π { x with quar := q, quarTemp := t, quarMask := m } = π x) (b k : Nat) (q : Quar) (temp mask : Nat)
    (s : State) : π ((setQuar b q temp mask s).basin k) = π (s.basin k) := by
  unfold setQuar
  dsimp only
  rw [offIfDue_proj π hp hz hu, State.basin_of_bsn (quarRecord_bsn ..)]
  exact modBasin_proj π (fun x => hq x q temp mask) s b k

theorem setQuar_event (b : Nat) (q : Quar) (temp mask : Nat) (s : State) : (setQuar b q temp mask s).hlt.event.getLsbD 2 = true := by
  unfold setQuar
  dsimp only
  rw [(offIfDue_effect b 0 _).2.1]
  exact getLsbD_setBit_self _ (by decide)

/-- A basin in full quarantine with nothing left on it is off. -/
theorem offIfDue_off {b : Nat} {s : State} (hq : (s.basin b).quar = .full) (hs : s.flm.queues = []) (hc : (s.basin b).current.isNone = true)
    (ht : (s.basin b).tagged.isEmpty = true) (hr : (s.basin b).replaying = false) (hd : (s.basin b).draining = false) :
    ((offIfDue b s).basin b).power = .off := by
  by_cases hp : (s.basin b).power = .off
  · have hrow : offIfDue b s = s := if_neg fun h => h.2.1 hp
    rw [hrow, hp]
  · have hrow : offIfDue b s = (setPower b .off (zeroTiles b (List.range 512) s)).modBasin b fun x => { x with undo := [], check := none } :=
      if_pos ⟨hq, hp, by rw [hs]; rfl, hc, ht, by rw [hr]; rfl, by rw [hd]; rfl⟩
    generalize List.range 512 = ts at hrow
    rw [hrow, State.basin_modBasin_self]
    show ((setPower b .off (zeroTiles b ts s)).basin b).power = .off
    rw [(setPower_effect .off).1]

/-- A basin put in full quarantine with nothing left on it is off. -/
theorem setQuar_full_off {b : Nat} {s : State} (hs : s.flm.queues = []) (hc : (s.basin b).current.isNone = true)
    (ht : (s.basin b).tagged.isEmpty = true) (hr : (s.basin b).replaying = false) (hd : (s.basin b).draining = false) (temp mask : Nat) :
    ((setQuar b .full temp mask s).basin b).power = .off := by
  have hb : (quarRecord b (s.basin b).quar.code Quar.full.code temp mask
      (s.modBasin b fun x => { x with quar := .full, quarTemp := temp, quarMask := mask })).basin b =
      { s.basin b with quar := .full, quarTemp := temp, quarMask := mask } := by
    rw [State.basin_of_bsn (quarRecord_bsn ..), State.basin_modBasin_self]
  unfold setQuar
  dsimp only
  refine offIfDue_off ?_ ?_ ?_ ?_ ?_ ?_
  case refine_2 =>
    obtain ⟨bf, l, d, g, hled⟩ := State.ledger_buffers (s.modBasin b fun x => { x with quar := .full, quarTemp := temp, quarMask := mask })
      0x0051 (srcOf 2 b) (recBody [(32, 1, 1), (34, 2, b), (36, 1, (s.basin b).quar.code), (37, 1, Quar.full.code), (38, 1, temp), (39, 1, mask)])
    unfold quarRecord
    dsimp only
    rw [hled]
    exact hs
  all_goals rw [hb]
  exacts [hc, ht, hr, hd]

section
variable {s : State} {i : Nat}

/-- The basin given back drains no more; what it runs, and its quarantine, are as they were. -/
theorem giveBack_basin_effect : ((giveBack 1 i s).basin i).draining = false ∧ ((giveBack 1 i s).basin i).current = (s.basin i).current ∧
    ((giveBack 1 i s).basin i).tagged = (s.basin i).tagged ∧ ((giveBack 1 i s).basin i).replaying = (s.basin i).replaying ∧
    ((giveBack 1 i s).basin i).quar = (s.basin i).quar ∧ (giveBack 1 i s).flm = s.flm := by
  let w : State := { s with hlt := { s.hlt with tests := s.hlt.tests.filter fun t => !(t.kind == 1 && t.id == i) } }
  let u : State := w.modBasin i fun x => { x with draining := false, idleSince := w.now }
  have hself : u.basin i = { s.basin i with draining := false, idleSince := s.now } := State.basin_modBasin_self w i _
  have hrow : giveBack 1 i s = offIfDue i u := rfl
  rw [hrow]
  refine ⟨?_, ?_, ?_, ?_, ?_, ?_⟩
  · refine (offIfDue_proj (·.draining) (fun _ _ _ => rfl) (fun _ _ _ _ => rfl) (fun _ => rfl) i i u).trans ?_
    rw [hself]
  · refine (offIfDue_proj (·.current) (fun _ _ _ => rfl) (fun _ _ _ _ => rfl) (fun _ => rfl) i i u).trans ?_
    rw [hself]
  · refine (offIfDue_proj (·.tagged) (fun _ _ _ => rfl) (fun _ _ _ _ => rfl) (fun _ => rfl) i i u).trans ?_
    rw [hself]
  · refine (offIfDue_proj (·.replaying) (fun _ _ _ => rfl) (fun _ _ _ _ => rfl) (fun _ => rfl) i i u).trans ?_
    rw [hself]
  · refine (offIfDue_proj (·.quar) (fun _ _ _ => rfl) (fun _ _ _ _ => rfl) (fun _ => rfl) i i u).trans ?_
    rw [hself]
  · exact (offIfDue_effect i i u).2.2.2.2

/-- A basin ready for its verdict runs nothing. -/
theorem drained_runs_nothing (h : drained s i = true) :
    (s.basin i).current.isNone = true ∧ (s.basin i).tagged.isEmpty = true ∧ (s.basin i).replaying = false := by
  unfold drained at h
  dsimp only at h
  simp only [Bool.and_eq_true, Bool.not_eq_true'] at h
  obtain ⟨⟨⟨⟨⟨hc, ht⟩, hr⟩, -⟩, -⟩, -⟩ := h
  exact ⟨hc, ht, hr⟩

/-- A basin that fails goes to full quarantine and is off (R525, R528). -/
theorem verdict_fails_basin {x : Test} (hk : x.kind = 1) (hi : x.id = i) (hq : (s.basin i).quar ≠ .full) :
    verdict x 2 s = (1, setQuar i .full 0 0 ((s.hltEvent 1).count (gk 0x0D 1 2 1) 1)) := by
  unfold verdict
  rw [hk, hi, if_pos rfl]
  dsimp only
  refine if_neg ?_
  rintro (h | h)
  · exact absurd h (by decide)
  · rw [if_pos rfl] at h
    exact hq (beq_iff_eq.1 h)

/-- A basin reinstated serves again. -/
theorem reinstate_basin_effect : ((reinstate 1 i s).basin i).quar = .none ∧ ((reinstate 1 i s).basin i).power ≠ .off ∧
    ((reinstate 1 i s).basin i).draining = (s.basin i).draining := by
  have hrow : (reinstate 1 i s).basin i = { (setQuar i .none 0 0 s).basin i with
      power := if ((setQuar i .none 0 0 s).basin i).power = .off then .clockGated else ((setQuar i .none 0 0 s).basin i).power
      since := s.now } := by
    unfold reinstate
    rw [if_pos rfl]
    exact State.basin_modBasin_self (setQuar i .none 0 0 s) i fun x =>
      { x with power := if x.power = .off then .clockGated else x.power, since := s.now }
  rw [hrow]
  refine ⟨setQuar_quar i s _ _ _, ?_, setQuar_proj (·.draining) (fun _ _ _ => rfl) (fun _ _ _ _ => rfl) (fun _ => rfl)
    (fun _ _ _ _ => rfl) i i _ _ _ s⟩
  dsimp only
  split
  · decide
  next h => exact h

end

/-! ### The hold-out of a basin -/

section
variable {s : State} {b temp load : Nat}

/-- A reading reaches a CONDITIONAL basin's threshold or its load pattern (R529). -/
def holdOutDue (x : Basin) (temp load : Nat) : Prop :=
  (x.quarTemp ≠ 0 ∧ x.quarTemp ≤ temp) ∨ (x.quarMask ≠ 0 ∧ load &&& x.quarMask = x.quarMask)

theorem holdOutDue_iff (x : Basin) : ((x.quarTemp != 0 && decide (x.quarTemp ≤ temp)) ||
    (x.quarMask != 0 && (load &&& x.quarMask) == x.quarMask)) = true ↔ holdOutDue x temp load := by
  simp [holdOutDue]

theorem holdOut_idle (h : (s.basin b).quar ≠ .conditional ∨ ¬ holdOutDue (s.basin b) temp load) :
    holdOut b temp load s = s.modBasin b fun x => { x with temp := temp, load := BitVec.ofNat 8 load } := by
  unfold holdOut
  dsimp only
  refine if_neg fun hc => ?_
  rcases h with h | h
  · exact h hc.1
  · exact h ((holdOutDue_iff _).1 hc.2)

theorem holdOut_held (hq : (s.basin b).quar = .conditional) (h : holdOutDue (s.basin b) temp load) : holdOut b temp load s =
    ((setQuar b .heldOut (s.basin b).quarTemp (s.basin b).quarMask
      (s.modBasin b fun x => { x with temp := temp, load := BitVec.ofNat 8 load })).modBasin b fun x =>
        { x with heldAt := s.now, coolSince := none }).count (gk 0x0D 2 0 (basinDie b)) 1 := by
  unfold holdOut
  dsimp only
  exact if_pos ⟨hq, (holdOutDue_iff _).2 h⟩

theorem holdOut_held_effect (hq : (s.basin b).quar = .conditional) (h : holdOutDue (s.basin b) temp load) :
    ((holdOut b temp load s).basin b).temp = temp ∧ ((holdOut b temp load s).basin b).quar = .heldOut ∧
      ((holdOut b temp load s).basin b).heldAt = s.now ∧ ((holdOut b temp load s).basin b).quarTemp = (s.basin b).quarTemp := by
  let w := s.modBasin b fun x => { x with temp := temp, load := BitVec.ofNat 8 load }
  have hw : w.basin b = { s.basin b with temp := temp, load := BitVec.ofNat 8 load } := State.basin_modBasin_self s b _
  have hb : (holdOut b temp load s).basin b = { (setQuar b .heldOut (s.basin b).quarTemp (s.basin b).quarMask w).basin b with
      heldAt := s.now, coolSince := none } := by
    rw [holdOut_held hq h]
    exact State.basin_modBasin_self (setQuar b .heldOut (s.basin b).quarTemp (s.basin b).quarMask w) b fun x =>
      { x with heldAt := s.now, coolSince := none }
  have hquar := setQuar_quarantine b w .heldOut (s.basin b).quarTemp (s.basin b).quarMask
  rw [Basin.quarantine_eq_iff] at hquar
  rw [hb]
  refine ⟨(setQuar_proj (·.temp) (fun _ _ _ => rfl) (fun _ _ _ _ => rfl) (fun _ => rfl) (fun _ _ _ _ => rfl) b b _ _ _ w).trans ?_,
    hquar.1, rfl, hquar.2.1⟩
  rw [hw]

theorem holdOutEnd_not_held (h : (s.basin b).quar ≠ .heldOut) : holdOutEnd b temp s = s.modBasin b fun x => { x with temp := temp } := by
  unfold holdOutEnd
  exact if_pos h

theorem holdOutEnd_warm (h : (s.basin b).quar = .heldOut) (hq : (s.basin b).quarTemp ≠ 0) (ht : (s.basin b).quarTemp < temp + 3) :
    holdOutEnd b temp s = (s.modBasin b fun x => { x with temp := temp }).modBasin b fun x => { x with coolSince := none } := by
  have hcool : ((s.basin b).quarTemp == 0 || decide (temp + 3 ≤ (s.basin b).quarTemp)) = false := by
    rw [beq_eq_false_iff_ne.2 hq, decide_eq_false (Nat.not_le.2 ht)]
    rfl
  unfold holdOutEnd
  dsimp only
  rw [if_neg fun hn => hn h, hcool]
  rfl

theorem holdOutEnd_cool (h : (s.basin b).quar = .heldOut) (hq : (s.basin b).quarTemp = 0 ∨ temp + 3 ≤ (s.basin b).quarTemp) :
    holdOutEnd b temp s =
      if (s.basin b).coolSince.getD s.now + ms 10 ≤ s.now ∧ decide ((s.basin b).heldAt + ms s.hlt.holdMs.toNat ≤ s.now) = true then
        setQuar b .conditional (s.basin b).quarTemp (s.basin b).quarMask (s.modBasin b fun x => { x with temp := temp })
      else (s.modBasin b fun x => { x with temp := temp }).modBasin b fun x =>
        { x with coolSince := some ((s.basin b).coolSince.getD s.now) } := by
  have hcool : ((s.basin b).quarTemp == 0 || decide (temp + 3 ≤ (s.basin b).quarTemp)) = true := by
    rcases hq with hq | hq
    · rw [hq]
      rfl
    · rw [decide_eq_true hq, Bool.or_true]
  have hwarm : (!((s.basin b).quarTemp == 0 || decide (temp + 3 ≤ (s.basin b).quarTemp))) ≠ true := by
    rw [hcool]
    decide
  unfold holdOutEnd
  exact (if_neg fun hn => hn h).trans (if_neg hwarm)

/-- A held-out basin that has been cool long enough is CONDITIONAL again. -/
theorem holdOutEnd_back (h : (s.basin b).quar = .heldOut) (hq : (s.basin b).quarTemp = 0 ∨ temp + 3 ≤ (s.basin b).quarTemp)
    (ho : (s.basin b).coolSince.getD s.now + ms 10 ≤ s.now ∧ (s.basin b).heldAt + ms s.hlt.holdMs.toNat ≤ s.now) :
    holdOutEnd b temp s =
      setQuar b .conditional (s.basin b).quarTemp (s.basin b).quarMask (s.modBasin b fun x => { x with temp := temp }) :=
  (holdOutEnd_cool h hq).trans (if_pos ⟨ho.1, decide_eq_true ho.2⟩)

theorem holdOutEnd_cools (h : (s.basin b).quar = .heldOut) (hq : (s.basin b).quarTemp = 0 ∨ temp + 3 ≤ (s.basin b).quarTemp)
    (ho : ¬ ((s.basin b).coolSince.getD s.now + ms 10 ≤ s.now ∧ (s.basin b).heldAt + ms s.hlt.holdMs.toNat ≤ s.now)) :
    holdOutEnd b temp s = (s.modBasin b fun x => { x with temp := temp }).modBasin b fun x =>
      { x with coolSince := some ((s.basin b).coolSince.getD s.now) } :=
  (holdOutEnd_cool h hq).trans (if_neg fun hc => ho ⟨hc.1, of_decide_eq_true hc.2⟩)

end

/-! ### The verdicts -/

section
variable {w : State} {i : Nat} {x : Test} {detail : Bytes}

/-- A half that passes is searched again, and its reply says so. -/
theorem testComplete_passes_half (hx : findTest w 2 i = some x) (hd : x.draining = false) (hwin : w.pwr.window = false)
    (ht : testReady w x = true) (hre : x.rerun = false) (hf : x.flags = 0) : ∃ v, testComplete 2 i 0 detail w = v ∧ findTest v 2 i = none ∧
      i ∉ v.scr.out ∧ v.hlt.retiredHalves = w.hlt.retiredHalves ∧
      (∀ y key, w.kry.deferred = [y] → y.work = .test 2 i → y.key = some key → w.kry.ready = true → w.portUp y.req.port = true →
        w.mayReply y.req.port → w.halted = false → w.confidential y.req.levee = false → w.kry.executing = none →
        v.out = w.out ++ [.krytic (mkReply y.req (some key) 0x00 [[0, 0, 0, 0] ++ toBe 4 ((w.now - x.started) / us 1) ++ slice detail 0 8])]) := by
  obtain ⟨hk, hi⟩ := findTest_kind hx
  have hver := verdict_passes (result := 0) (s := testOver x 2 i w) (by rw [hk]; decide) (by decide) hf
  have hrow := testComplete_ends (detail := detail) (s := w) hx hd hwin (Nat.zero_le 2) ht hre
  rw [hver] at hrow
  obtain ⟨hfind, hret, -, hscr, -⟩ := testEnds_effect (x := x) (k := 2) (i := i) (result := 0) (detail := detail) (s := w)
    (0, testOver x 2 i w)
  refine ⟨_, hrow, (hfind 2 i).trans findTest_giveBack, ?_, hret, ?_⟩
  · rw [hscr]
    exact fun h => by simpa using (List.mem_filter.1 h).2
  · intro y key h1 h2 h3 h4 h5 h6 h7 h8 h9
    obtain ⟨bf, l, d, g, hled⟩ := testRecord_eq (if x.cal then 2 else 1) 2 i 0 0 ((w.now - x.started) / us 1) detail (testOver x 2 i w)
    have hleaves := State.workDone_deferred_leaves (s := testRecord (if x.cal then 2 else 1) 2 i 0 0 ((w.now - x.started) / us 1) detail
      (testOver x 2 i w)) (w := fun z => z == .test 2 i) (st := St.ok) (f := testReply w x 0 0 detail) (x := y) (key := key)
    rw [hled] at hleaves
    unfold testEnds
    dsimp only
    rw [hled]
    exact hleaves h1 (by rw [h2]; exact beq_self_eq_true _) h9 h3 h4 h5 h6 h7 h8

/-- A half that fails is retired. -/
theorem testComplete_fails_half (hx : findTest w 2 i = some x) (hd : x.draining = false) (hwin : w.pwr.window = false)
    (ht : testReady w x = true) (hre : x.rerun = false) (hi : i ∉ w.hlt.retiredHalves) : ∃ v, testComplete 2 i 2 detail w = v ∧
      findTest v 2 i = none ∧ i ∈ v.hlt.retiredHalves ∧ v.hlt.event.getLsbD 1 = true ∧ v.hlt.event.getLsbD 3 = true := by
  obtain ⟨hk, hid⟩ := findTest_kind hx
  have hver := verdict_fails_half (s := testOver x 2 i w) hk (by rw [hid]; exact hi)
  obtain ⟨hin, hev3, hev, hfind'⟩ := retireResource_half (s := ((testOver x 2 i w).hltEvent 1).count (gk 0x0D 1 2 2) 1) (i := x.id)
    (by rw [hid]; exact hi)
  have hrow := testComplete_ends (detail := detail) (s := w) hx hd hwin (Nat.le_refl 2) ht hre
  rw [hver] at hrow
  obtain ⟨hfind, hret, hevent, -⟩ := testEnds_effect (x := x) (k := 2) (i := i) (result := 2) (detail := detail) (s := w)
    (2, retireResource 2 x.id (((testOver x 2 i w).hltEvent 1).count (gk 0x0D 1 2 2) 1))
  refine ⟨_, hrow, (hfind 2 i).trans ((hfind' 2 i).trans findTest_giveBack), ?_, ?_, ?_⟩
  · rw [hret]
    exact hid ▸ hin
  · rw [hevent]
    exact hev 1 (getLsbD_setBit_self _ (by decide))
  · rw [hevent]
    exact hev3

/-- A basin that fails is off, in full quarantine. -/
theorem testComplete_fails_basin (hx : findTest w 1 i = some x) (hd : x.draining = false) (hwin : w.pwr.window = false)
    (ht : testReady w x = true) (hre : x.rerun = false) (hq : (w.basin i).quar = .none) (hs : w.flm.queues = []) :
    ∃ v, testComplete 1 i 2 detail w = v ∧ (v.basin i).quar = .full ∧ (v.basin i).power = .off ∧ (v.basin i).draining = false ∧
      v.hlt.event.getLsbD 2 = true := by
  obtain ⟨hk, hid⟩ := findTest_kind hx
  obtain ⟨hdr, hcur, htag, hrep, hquar, hflm⟩ := giveBack_basin_effect (s := w.count (gk 0x0D 1 (if x.cal then 1 else 0) 1) 1) (i := i)
  obtain ⟨hn1, hn2, hn3⟩ := drained_runs_nothing (s := w) (i := i) (by rw [← hid]; exact testReady_basin hk ht)
  have hver := verdict_fails_basin (s := testOver x 1 i w) hk hid (fun h => by
    have : (w.basin i).quar = .full := hquar.symm.trans h
    have hq' : (w.basin i).quar = .none := hq
    rw [hq'] at this
    contradiction)
  have hrow := testComplete_ends (detail := detail) (s := w) hx hd hwin (Nat.le_refl 2) ht hre
  rw [hver] at hrow
  obtain ⟨-, -, hevent, -, hbsn⟩ := testEnds_effect (x := x) (k := 1) (i := i) (result := 2) (detail := detail) (s := w)
    (1, setQuar i .full 0 0 (((testOver x 1 i w).hltEvent 1).count (gk 0x0D 1 2 1) 1))
  refine ⟨_, hrow, ?_, ?_, ?_, ?_⟩
  · rw [State.basin_of_bsn hbsn]
    exact setQuar_quar ..
  · rw [State.basin_of_bsn hbsn]
    refine setQuar_full_off (s := ((testOver x 1 i w).hltEvent 1).count (gk 0x0D 1 2 1) 1) ?_ ?_ ?_ ?_ ?_ 0 0
    · exact (congrArg (·.queues) hflm).trans hs
    · exact (congrArg Option.isNone hcur).trans hn1
    · exact (congrArg List.isEmpty htag).trans hn2
    · exact hrep.trans hn3
    · exact hdr
  · rw [State.basin_of_bsn hbsn]
    exact (setQuar_proj (·.draining) (fun _ _ _ => rfl) (fun _ _ _ _ => rfl) (fun _ => rfl) (fun _ _ _ _ => rfl) i i _ _ _ _).trans hdr
  · rw [hevent]
    exact setQuar_event i .full 0 0 _

/-- A basin that passes a REINSTATE serves again. -/
theorem testComplete_reinstates_basin (hx : findTest w 1 i = some x) (hd : x.draining = false) (hwin : w.pwr.window = false)
    (ht : testReady w x = true) (hre : x.rerun = false) (hf : bitOf x.flags 1 = true) : ∃ v, testComplete 1 i 0 detail w = v ∧
      (v.basin i).quar = .none ∧ (v.basin i).power ≠ .off ∧ (v.basin i).draining = false := by
  obtain ⟨hk, hid⟩ := findTest_kind hx
  obtain ⟨hdr, -⟩ := giveBack_basin_effect (s := w.count (gk 0x0D 1 (if x.cal then 1 else 0) 1) 1) (i := i)
  have hver := verdict_reinstates (result := 0) (s := testOver x 1 i w) (by decide) hf
  obtain ⟨h1, h2, h3⟩ := reinstate_basin_effect (s := testOver x 1 i w) (i := i)
  have hrow := testComplete_ends (detail := detail) (s := w) hx hd hwin (Nat.zero_le 2) ht hre
  rw [hver, hk, hid] at hrow
  obtain ⟨-, -, -, -, hbsn⟩ := testEnds_effect (x := x) (k := 1) (i := i) (result := 0) (detail := detail) (s := w)
    (3, reinstate 1 i (testOver x 1 i w))
  refine ⟨_, hrow, ?_, ?_, ?_⟩
  · rw [State.basin_of_bsn hbsn]
    exact h1
  · rw [State.basin_of_bsn hbsn]
    exact h2
  · rw [State.basin_of_bsn hbsn]
    exact h3.trans hdr

end

/-! ### The hold-out, by the basin's entry -/

section
variable {w : State} {b temp load : Nat}

theorem holdOut_outcome : ((holdOut b temp load w).basin b).temp = temp ∧
    ((w.basin b).quar = .conditional → holdOutDue (w.basin b) temp load → ((holdOut b temp load w).basin b).quar = .heldOut ∧
      ((holdOut b temp load w).basin b).heldAt = w.now ∧ ((holdOut b temp load w).basin b).quarTemp = (w.basin b).quarTemp) ∧
    ((w.basin b).quar ≠ .conditional ∨ ¬ holdOutDue (w.basin b) temp load → ((holdOut b temp load w).basin b).quar = (w.basin b).quar ∧
      (holdOut b temp load w).hlt = w.hlt) := by
  by_cases h : (w.basin b).quar = .conditional ∧ holdOutDue (w.basin b) temp load
  · obtain ⟨h1, h2, h3, h4⟩ := holdOut_held_effect (s := w) h.1 h.2
    exact ⟨h1, fun _ _ => ⟨h2, h3, h4⟩, fun hn => (hn.elim (absurd h.1) (absurd h.2))⟩
  · have hno : (w.basin b).quar ≠ .conditional ∨ ¬ holdOutDue (w.basin b) temp load := not_and_or.1 h
    rw [holdOut_idle (s := w) hno]
    refine ⟨?_, fun hc hd => absurd ⟨hc, hd⟩ h, fun _ => ⟨?_, rfl⟩⟩
    · rw [State.basin_modBasin_self]
    · rw [State.basin_modBasin_self]

theorem holdOutEnd_outcome : ((w.basin b).quar ≠ .heldOut → ((holdOutEnd b temp w).basin b).quar = (w.basin b).quar) ∧
    ((w.basin b).quar = .heldOut → (w.basin b).quarTemp ≠ 0 → (w.basin b).quarTemp < temp + 3 →
      ((holdOutEnd b temp w).basin b).quar = .heldOut ∧ ((holdOutEnd b temp w).basin b).coolSince = none) ∧
    ((w.basin b).quar = .heldOut → (w.basin b).quarTemp = 0 ∨ temp + 3 ≤ (w.basin b).quarTemp →
      ((w.basin b).coolSince.getD w.now + ms 10 ≤ w.now → (w.basin b).heldAt + ms w.hlt.holdMs.toNat ≤ w.now →
        ((holdOutEnd b temp w).basin b).quar = .conditional) ∧
      (w.now < (w.basin b).coolSince.getD w.now + ms 10 ∨ w.now < (w.basin b).heldAt + ms w.hlt.holdMs.toNat →
        ((holdOutEnd b temp w).basin b).quar = .heldOut ∧
          ((holdOutEnd b temp w).basin b).coolSince = some ((w.basin b).coolSince.getD w.now))) := by
  by_cases hq : (w.basin b).quar = .heldOut
  · by_cases hcool : (w.basin b).quarTemp = 0 ∨ temp + 3 ≤ (w.basin b).quarTemp
    · by_cases hover : (w.basin b).coolSince.getD w.now + ms 10 ≤ w.now ∧ (w.basin b).heldAt + ms w.hlt.holdMs.toNat ≤ w.now
      · rw [holdOutEnd_back (s := w) hq hcool hover]
        refine ⟨fun h => absurd hq h,
          fun _ h0 h1 => absurd hcool (not_or.2 ⟨h0, Nat.not_le.2 h1⟩), fun _ _ => ⟨fun _ _ => setQuar_quar .., fun h => ?_⟩⟩
        exact absurd hover (not_and_or.2 (h.imp Nat.not_le.2 Nat.not_le.2))
      · rw [holdOutEnd_cools (s := w) hq hcool hover]
        refine ⟨fun h => absurd hq h,
          fun _ h0 h1 => absurd hcool (not_or.2 ⟨h0, Nat.not_le.2 h1⟩), fun _ _ => ⟨fun h1 h2 => absurd ⟨h1, h2⟩ hover, fun _ => ?_⟩⟩
        rw [State.basin_modBasin_self, State.basin_modBasin_self]
        exact ⟨hq, rfl⟩
    · obtain ⟨h0, h1⟩ := not_or.1 hcool
      rw [holdOutEnd_warm (s := w) hq h0 (Nat.not_le.1 h1)]
      refine ⟨fun h => absurd hq h, fun _ _ _ => ?_,
        fun _ h => absurd h hcool⟩
      rw [State.basin_modBasin_self, State.basin_modBasin_self]
      exact ⟨hq, rfl⟩
  · rw [holdOutEnd_not_held (s := w) hq]
    refine ⟨fun _ => ?_, fun h => absurd h hq, fun h => absurd h hq⟩
    rw [State.basin_modBasin_self]

end

/-- Settles O55: the drain by the re-homing, the verdicts by what becomes of the resource, the hold-out by the basin's entry. -/
theorem testsWithdrawAndReinstate : Obligations.TestsWithdrawAndReinstate := by
  intro t r s u w p kind id flags
  refine ⟨fun hx hl h0 hd hsame hrep => ⟨fun hb hre => ?selftest, fun hb hre => ?calibrate⟩, fun hb hl hx hf hsame => ?busy,
    fun k i x hx hd => ⟨fun hk hidle hn => ?waits,
      fun hk hq ho => ?basinDrain, fun hk ht => ?halfDrain, fun hk h1 h2 hf hl => ?channelDrain⟩,
    fun k i x detail hx hd hwin ht => ⟨fun hre => ?rerun, fun hre hk hf => ?passes, fun hre hk hi => ?fails, fun hre hk hq hs => ?basinFails,
      fun hre hk hf hs => ?reinstates⟩, fun b temp load => ?hold⟩
  case selftest =>
    obtain ⟨h1, h2, h3, h4⟩ := testJoins_effect ⟨kind, id, flags, false, u.now, true, false⟩ u
    exact ⟨_, command_defers hb (test_body (r := { r with opcode := 0x0C01 }) (s := u) hx hl h0 hd hsame hrep fun h => ⟨rfl, hre h⟩),
      h1, h2, h3, h4⟩
  case calibrate =>
    obtain ⟨h1, h2, -⟩ := testJoins_effect ⟨kind, id, flags, true, u.now, true, false⟩ u
    exact ⟨_, command_defers hb (test_body (r := { r with opcode := 0x0C02 }) (s := u) hx hl h0 hd hsame hrep
      fun h => Bool.noConfusion (hre.symm.trans h)), h1, h2⟩
  case busy => exact command_refuses hb (test_busy (r := { r with opcode := 0x0C01 }) (s := u) hl hx hf hsame)
  case waits =>
    subst hk
    exact congrArg Host.Outcome.next (drainWaitExpiry_waits (s := w) hx hidle hn)
  case basinDrain =>
    subst hk
    exact ⟨_, congrArg Host.Outcome.next (drainWaitExpiry_rehomes (s := w) hx hd ho.symm (moveSlots_none i hq)),
      findTest_testBegin (s := w) hx, rfl⟩
  case halfDrain =>
    subst hk
    exact ⟨_, congrArg Host.Outcome.next (drainWaitExpiry_rehomes (s := w) hx hd (.inr rfl) (rehome_half ht)),
      mem_insert_half _, findTest_testBegin (s := w) hx⟩
  case channelDrain =>
    subst hk
    obtain ⟨kr, ⟨hdef, -⟩, o, g, c, f, q, hv⟩ := State.workDone_answered (giveBack 3 i w) (fun y => y == .test 3 i) St.exhausted []
    refine ⟨_, congrArg Host.Outcome.next (drainWaitExpiry_fails (s := w) hx hd hl (rehome_channel_full h1 h2 hf)), ?_, ?_⟩
    · rw [hv]
      exact findTest_giveBack (s := w)
    · rw [hv]
      exact hdef
  case rerun => exact ⟨_, congrArg Host.Outcome.next (testComplete_reruns (s := w) hx hd hwin (Nat.zero_le 2) ht hre),
      findTest_modTest (s := w) (f := fun y => { y with rerun := false, started := w.now }) (fun _ => ⟨rfl, rfl⟩) hx, rfl⟩
  case passes =>
    subst hk
    obtain ⟨v, hv, h⟩ := testComplete_passes_half (w := w) (detail := detail) hx hd hwin ht hre hf
    exact ⟨v, congrArg Host.Outcome.next hv, h⟩
  case fails =>
    subst hk
    obtain ⟨v, hv, h⟩ := testComplete_fails_half (w := w) (detail := detail) hx hd hwin ht hre hi
    exact ⟨v, congrArg Host.Outcome.next hv, h⟩
  case basinFails =>
    subst hk
    obtain ⟨v, hv, h⟩ := testComplete_fails_basin (w := w) (detail := detail) hx hd hwin ht hre hq hs
    exact ⟨v, congrArg Host.Outcome.next hv, h⟩
  case reinstates =>
    subst hk
    obtain ⟨v, hv, h⟩ := testComplete_reinstates_basin (w := w) (detail := detail) hx hd hwin ht hre hf
    exact ⟨v, congrArg Host.Outcome.next hv, h⟩
  case hold => exact ⟨⟨_, rfl, holdOut_outcome (w := w)⟩, ⟨_, rfl, holdOutEnd_outcome (w := w)⟩⟩

end Sys2Proof.Machine
end

section
/-! RULES. What a store in the cistern writes and what it leaves (07 R214, R217). -/

namespace Sys2Proof.Machine

section
variable {s : State}

theorem sealTile_eq (a tile u : Nat) (s : State) : ∃ inv iv, sealTile a tile u s =
    { s with sec := { s.sec with invocations := inv, tileIv := iv } } := by
  unfold sealTile nextIv
  split
  · exact ⟨_, _, rfl⟩
  · dsimp only
    split
    · exact ⟨_, _, rfl⟩
    · exact ⟨_, _, rfl⟩

/-- A store in one tile writes its bytes in the pool; beside the cistern it touches the counts of the memory keys alone. -/
theorem putTile_eq (a tile start : Nat) (bs : Bytes) (u : Nat) (s : State) : ∃ y inv iv,
    y.pool = s.cis.pool.writeN (poolKey a (4096 * tile + start)) bs ∧
      putTile a tile start bs u s = { s with cis := y, sec := { s.sec with invocations := inv, tileIv := iv } } := by
  unfold putTile
  dsimp only
  obtain ⟨inv, iv, h⟩ := sealTile_eq a tile u (State.modPage { s with cis := { s.cis with
    pool := s.cis.pool.writeN (poolKey a (4096 * tile + start)) bs
    poisoned := if (start == 0 && decide (4096 ≤ bs.length)) = true then s.cis.poisoned.filter (· != tileKey a tile) else s.cis.poisoned
    sums := Tab.del s.cis.sums (tileKey a tile)
    onceTiles := if (start == 0 && decide (4096 ≤ bs.length)) = true then s.cis.onceTiles.filter (· != tileKey a tile) else s.cis.onceTiles } }
    a (tile / 16) _)
  exact ⟨_, inv, iv, rfl, h⟩

theorem poolKey_tile (a addr : Nat) : poolKey a (4096 * (addr / 4096) + addr % 4096) = poolKey a addr := by
  rw [Nat.div_add_mod]

theorem poolKey_add (a off i : Nat) : poolKey a (off + i) = poolKey a off + i := (Nat.add_assoc ..).symm

/-- The store of a run of cuts: the tiles' bytes are the run's, every other byte of the pool stays. -/
theorem foldl_putTile (a u addr len : Nat) (d : Nat → Nat → Bytes) (f : Nat → Byte)
    (hd : ∀ pos n, pos + n ≤ len → (d pos n).length = n ∧ ∀ i, i < n → (d pos n).getD i 0 = f (pos + i)) (fuel pos : Nat) (s : State)
    (hwf : Mem.wf s.cis.pool = true) (hfuel : len ≤ pos ∨ (addr + len - 1) / 4096 - (addr + pos) / 4096 + 1 ≤ fuel) (hpos : pos ≤ len) :
    ∃ y inv iv, (tileCuts addr len pos fuel).foldl (fun s c => putTile a c.1 c.2.1 (d c.2.2.1 c.2.2.2) u s) s =
        { s with cis := y, sec := { s.sec with invocations := inv, tileIv := iv } } ∧ Mem.wf y.pool = true ∧
      ∀ j, y.pool.read j = if poolKey a (addr + pos) ≤ j ∧ j < poolKey a (addr + len) then f (j - poolKey a addr) else s.cis.pool.read j := by
  induction fuel generalizing pos s with
  | zero =>
    have hle : len ≤ pos := hfuel.resolve_right (by omega)
    refine ⟨s.cis, s.sec.invocations, s.sec.tileIv, rfl, hwf, fun j => (if_neg ?_).symm⟩
    rw [Nat.le_antisymm hpos hle]
    omega
  | succ fuel ih =>
    unfold tileCuts
    by_cases hle : len ≤ pos
    · rw [if_pos hle]
      refine ⟨s.cis, s.sec.invocations, s.sec.tileIv, rfl, hwf, fun j => (if_neg ?_).symm⟩
      rw [Nat.le_antisymm hpos hle]
      omega
    · rw [if_neg hle]
      dsimp only
      obtain ⟨n, hn⟩ : ∃ n, n = min (4096 - (addr + pos) % 4096) (len - pos) := ⟨_, rfl⟩
      have hn1 : pos + n ≤ len := by omega
      have hstep : (addr + len - 1) / 4096 - (addr + pos) / 4096 + 1 ≤ fuel + 1 := hfuel.resolve_left hle
      have hnext : len ≤ pos + n ∨ (addr + len - 1) / 4096 - (addr + (pos + n)) / 4096 + 1 ≤ fuel := by omega
      obtain ⟨hlen, hbytes⟩ := hd pos n hn1
      rw [← hn, List.foldl_cons]
      obtain ⟨y, inv, iv, hpool, hput⟩ := putTile_eq a ((addr + pos) / 4096) ((addr + pos) % 4096) (d pos n) u s
      rw [poolKey_tile] at hpool
      dsimp only
      rw [hput]
      have hwf' : Mem.wf y.pool = true := hpool ▸ Mem.wf_writeN _ _ hwf
      obtain ⟨z, inv', iv', hfold, hz, hread⟩ := ih (pos + n)
        { s with cis := y, sec := { s.sec with invocations := inv, tileIv := iv } } hwf' hnext hn1
      refine ⟨z, inv', iv', hfold, hz, fun j => ?_⟩
      rw [hread j]
      dsimp only
      rw [hpool, Mem.read_writeN _ _ _ hwf, hlen]
      simp only [poolKey_add]
      by_cases h1 : poolKey a addr + (pos + n) ≤ j ∧ j < poolKey a addr + len
      · rw [if_pos h1, if_pos (by omega)]
      · rw [if_neg h1]
        by_cases h2 : poolKey a addr + pos ≤ j ∧ j < poolKey a addr + pos + n
        · rw [if_pos h2, if_pos (by omega), hbytes _ (by omega)]
          congr 1
          omega
        · rw [if_neg h2, if_neg (by omega)]

/-- The cuts of a whole range of the allotment. -/
theorem foldl_putTile_all (a u addr len : Nat) (d : Nat → Nat → Bytes) (f : Nat → Byte)
    (hd : ∀ pos n, pos + n ≤ len → (d pos n).length = n ∧ ∀ i, i < n → (d pos n).getD i 0 = f (pos + i)) (hwf : Mem.wf s.cis.pool = true) :
    ∃ y inv iv, (tileCuts addr len 0 (len / 4096 + 2)).foldl (fun s c => putTile a c.1 c.2.1 (d c.2.2.1 c.2.2.2) u s) s =
        { s with cis := y, sec := { s.sec with invocations := inv, tileIv := iv } } ∧ Mem.wf y.pool = true ∧
      ∀ j, y.pool.read j = if poolKey a addr ≤ j ∧ j < poolKey a addr + len then f (j - poolKey a addr) else s.cis.pool.read j := by
  obtain ⟨y, inv, iv, h1, h2, h3⟩ := foldl_putTile a u addr len d f hd (len / 4096 + 2) 0 s hwf (by omega) (Nat.zero_le _)
  exact ⟨y, inv, iv, h1, h2, fun j => by rw [h3 j, poolKey_add, poolKey_add, Nat.add_zero]⟩

theorem zeros_store (n : Nat) : (zeros n).length = n ∧ ∀ i, i < n → (zeros n).getD i 0 = (0 : Byte) := by
  refine ⟨length_zeros n, fun i hi => ?_⟩
  simp [zeros, List.getD, hi]

end

end Sys2Proof.Machine
end

section
/-! PROOFS. Collective groups: their creation and end, decoding tables, expert maps and residuals (11 R350–R360). -/

namespace Sys2Proof.Machine

section
variable {r : KReq} {s : State}

/-! ### Creation -/

/-- A group holds its queue and its WORK. -/
def groupBinds (g : Nat) (x : Group) (s : State) : State :=
  ((s.setGroup g x).modQueue x.queue fun q => { q with group := some g }).modAllot x.work fun a => { a with work := some g }

theorem groupCreate_body {g : Nat} (hl : plen r = 80 + 8 * be (par r) 4 2) (hbad : groupBad s (par r) (parseGroup (par r)) = false)
    (hret : s.retiring (be (par r) 0 2 % 1024) = false) (hfree : Tab.lowestFree s.col.groups 1024 = some g)
    (hmem : ∀ m ∈ (parseGroup (par r)).mems, addFenced s m.addr = false) (hup : addFenced s (parseGroup (par r)).upAddr = false) :
    bodyGroupCreate r s = done (groupBinds g (parseGroup (par r)) s) [toBe 2 g ++ zeros 6] := by
  have hfence : ((parseGroup (par r)).mems.any (fun m => addFenced s m.addr) ||
      ((parseGroup (par r)).upstream && addFenced s (parseGroup (par r)).upAddr)) = false := by
    rw [hup, Bool.and_false, Bool.or_false, List.any_eq_false]
    exact fun m hm h => Bool.noConfusion ((hmem m hm).symm.trans h)
  unfold bodyGroupCreate
  dsimp only
  rw [checks_pass, if_neg fun h => Bool.noConfusion (hfence.symm.trans h), hfree]
  · rfl
  · intro c hc
    simp only [List.mem_cons, List.not_mem_nil, or_false] at hc
    rcases hc with rfl | rfl | rfl | rfl
    · simp [hl]
    · exact hbad
    · exact hret
    · rw [hfree]
      rfl

theorem groupBinds_effect {g : Nat} {x : Group} {q : Queue} {a : Allot} (hq : s.queue x.queue = some q) (ha : s.allot x.work = some a) :
    (groupBinds g x s).group g = some x ∧ (groupBinds g x s).queue x.queue = some { q with group := some g } ∧
      (groupBinds g x s).allot x.work = some { a with work := some g } ∧ (∀ k, k ≠ g → (groupBinds g x s).group k = s.group k) ∧
      (∀ k, k ≠ x.queue → (groupBinds g x s).queue k = s.queue k) ∧ (groupBinds g x s).cis = s.cis ∧ (groupBinds g x s).bsn = s.bsn := by
  refine ⟨Tab.get?_set_self .., ?_, ?_, fun k hk => Tab.get?_set_ne _ _ (Ne.symm hk), fun k hk => ?_, rfl, rfl⟩
  · exact (Tab.get?_upd ..).trans ((if_pos rfl).trans (congrArg (Option.map _) hq))
  · exact (Tab.get?_upd ..).trans ((if_pos rfl).trans (congrArg (Option.map _) ha))
  · exact (Tab.get?_upd ..).trans (if_neg (Ne.symm hk))

/-! ### The end of a group -/

theorem Tab.mem_set {α : Type} {t : Tab α} {k : Nat} {v : α} {e : Nat × α} (h : e ∈ Tab.set t k v) : e = (k, v) ∨ e ∈ t := by
  induction t with
  | nil => exact .inl (List.mem_singleton.1 h)
  | cons c r ih =>
    obtain ⟨i, w⟩ := c
    unfold Tab.set at h
    split at h
    · rcases List.mem_cons.1 h with rfl | h
      · exact .inr (List.mem_cons_self ..)
      · exact (ih h).imp_right (List.mem_cons_of_mem _)
    · split at h
      · exact (List.mem_cons.1 h).imp_right (List.mem_cons_of_mem _)
      · exact List.mem_cons.1 h

/-- Of a table none of whose entries passes, an entry that passes is the only one once it is set. -/
theorem Tab.filter_set {α : Type} {t : Tab α} (p : Nat × α → Bool) (k : Nat) (v : α) (hv : p (k, v) = true) (h : ∀ e ∈ t, p e = false) :
    (Tab.set t k v).filter p = [(k, v)] := by
  induction t with
  | nil => exact List.filter_cons_of_pos (l := []) hv
  | cons c r ih =>
    obtain ⟨i, w⟩ := c
    have hr : r.filter p = [] := List.filter_eq_nil_iff.2 fun e he => by rw [h e (List.mem_cons_of_mem _ he)]; decide
    have hc : p (i, w) = false := h _ (List.mem_cons_self ..)
    unfold Tab.set
    split
    · rw [List.filter_cons_of_neg (by rw [hc]; decide), ih fun e he => h e (List.mem_cons_of_mem _ he)]
    · split
      · rw [List.filter_cons_of_pos hv, hr]
      · rw [List.filter_cons_of_pos hv, List.filter_cons_of_neg (by rw [hc]; decide), hr]

/-- A group with no operation under way only becomes one being destroyed. -/
theorem groupStop_idle {g st : Nat} {x : Group} (hg : s.group g = some x) (hops : x.ops = []) :
    groupStop g st s = s.setGroup g { x with destroying := true } := by
  have hupd : ∀ (t : Tab Group) (f : Group → Group), Tab.get? t g = some x → Tab.upd t g f = Tab.set t g (f x) := by
    intro t f ht
    unfold Tab.upd
    rw [ht]
  unfold groupStop failAll State.modGroup
  rw [hg]
  dsimp only
  rw [hops, List.filter_nil, List.foldl_nil]
  dsimp only
  rw [hupd s.col.groups _ hg, hops, List.map_nil, Tab.upd, Tab.get?_set_self]
  dsimp only
  rw [Tab.set_set]
  rfl

theorem foldl_scrambleCtx (x : Group) (l : List Nat) (s : State) : ∃ c n, l.foldl (fun s k => scrambleCtx x k s) s =
    { s with cis := c, free := n } := by
  induction l generalizing s with
  | nil => exact ⟨s.cis, s.free, rfl⟩
  | cons k l ih =>
    obtain ⟨c, n, h⟩ := ih (scrambleCtx x k s)
    exact ⟨c, n, h⟩

/-- The one group being destroyed goes: its queue and its WORK are free again, and the command that ended it is over. -/
def groupGone (g : Nat) (x : Group) (other : Option Nat) (s : State) : State :=
  (({ s with col := { s.col with groups := Tab.del s.col.groups g } } : State).modQueue x.queue fun q => { q with group := none }).modAllot
    x.work fun a => { a with work := if a.work = some g then other else a.work }

theorem groupProgress_one {g : Nat} {x : Group} (hone : s.col.groups.filter (fun e => e.2.destroying) = [(g, x)])
    (hr : groupReplaying s x = false) (hother : ∀ e ∈ s.col.groups, e.1 ≠ g → e.2.work ≠ x.work) : ∃ c n,
    groupProgress s = (groupGone g x none { s with cis := c, free := n }).workDone (fun w => w == .destroyGroup g) St.ok [] := by
  have hnone : (Tab.del s.col.groups g).find? (fun y => y.2.work == x.work && y.2.levee == x.levee) = none := by
    refine List.find?_eq_none.2 fun e he h => ?_
    obtain ⟨hin, hne⟩ := List.mem_filter.1 he
    exact hother e hin (bne_iff_ne.1 hne) (beq_iff_eq.1 ((Bool.and_eq_true _ _).mp h).1)
  have hscr : ∃ c n, (if ((s.allot x.work).elim false fun a => a.st == .active) = true then
      x.scratch.foldl (fun s k => scrambleCtx x k s) s else s) = { s with cis := c, free := n } := by
    split
    · exact foldl_scrambleCtx x x.scratch s
    · exact ⟨s.cis, s.free, rfl⟩
  obtain ⟨c, n, hc⟩ := hscr
  refine ⟨c, n, ?_⟩
  unfold groupProgress
  rw [hone, List.foldl_cons, List.foldl_nil]
  dsimp only
  rw [hr, hc]
  dsimp only [State.modQueue]
  rw [hnone]
  rfl

theorem groupDestroy_body {x : Group} (hl : plen r = 8) (hg : s.group (be (par r) 0 2) = some x) (hd : x.destroying = false)
    (hops : x.ops = []) : bodyGroupDestroy r s =
      { defer (s.setGroup (be (par r) 0 2) { x with destroying := true }) (.destroyGroup (be (par r) 0 2)) with after := groupProgress } := by
  have hrow := checks_pass (s := s) (cs := [(plen r != 8, St.badLength), ((s.group (be (par r) 0 2)).elim true (·.destroying), St.badParam)])
    (k := fun _ => { defer (groupStop (be (par r) 0 2) St.badParam s) (.destroyGroup (be (par r) 0 2)) with after := groupProgress })
    (by
      intro c hc
      simp only [List.mem_cons, List.not_mem_nil, or_false] at hc
      rcases hc with rfl | rfl
      · simp [hl]
      · rw [hg]
        exact hd)
  refine hrow.trans ?_
  rw [groupStop_idle hg hops]

/-- A command deferred whose work is looked at once its reply has left. -/
theorem finish_after {after : State → State} {w : Work} : ∃ v run, Answered s v ∧ run.work = w ∧
    finish r { defer s w with after := after } = after { v with kry := { v.kry with deferred := v.kry.deferred ++ [run] } } :=
  ⟨_, _, s.answer_answered .., rfl, rfl⟩

/-- What is left once a group with nothing under way is destroyed. -/
theorem groupDestroy_effect {g : Nat} {x : Group} {q : Queue} {a : Allot} {v : State} {run : Running}
    (hv : Answered (s.setGroup g { x with destroying := true }) v) (hrun : run.work = .destroyGroup g)
    (hall : ∀ e ∈ s.col.groups, e.2.destroying = false) (hq : s.queue x.queue = some q)
    (ha : s.allot x.work = some a) (haw : a.work = some g) (hother : ∀ e ∈ s.col.groups, e.1 ≠ g → e.2.work ≠ x.work)
    (hwin : s.pwr.window = false) (hrep : ∀ y ∈ q.slots, (s.basin y.basin).replaying = false) (hdef : s.kry.deferred = []) :
    let z := groupProgress { v with kry := { v.kry with deferred := v.kry.deferred ++ [run] } }
    z.group g = none ∧ z.queue x.queue = some { q with group := none } ∧ z.allot x.work = some { a with work := none } ∧
      (∀ k, k ≠ g → z.group k = s.group k) ∧ z.kry.deferred = [] := by
  intro z
  obtain ⟨k, ⟨hk, -⟩, o, ga, co, f, p, rfl⟩ := hv
  have hdead : groupReplaying s x = false := by
    unfold groupReplaying
    rw [hwin, hq]
    refine (Bool.false_or _).trans (List.any_eq_false.2 fun y hy h => ?_)
    rw [hrep y hy, Bool.and_false] at h
    contradiction
  let b : State := { s.setGroup g { x with destroying := true } with
    kry := { k with deferred := k.deferred ++ [run] }, out := o, gauges := ga, sec := co, fresh := f, ports := p }
  obtain ⟨c, n, hz⟩ := groupProgress_one (g := g) (x := { x with destroying := true }) (s := b) (Tab.filter_set _ g _ rfl hall) hdead
    fun e he hne => (Tab.mem_set he).elim (fun h => absurd (congrArg Prod.fst h) hne) (hother e · hne)
  obtain ⟨kr, ⟨hd, -⟩, o', ga', co', f', p', hw⟩ := State.workDone_answered
    (groupGone g { x with destroying := true } none { b with cis := c, free := n }) (fun w => w == .destroyGroup g) St.ok []
  have hrow : z = _ := hz.trans hw
  have hover : (b.kry.deferred.filter fun y => !(y.work == .destroyGroup g)) = [] := by
    show ((k.deferred ++ [run]).filter fun y => !(y.work == .destroyGroup g)) = []
    rw [hk.trans hdef, List.nil_append, List.filter_cons_of_neg, List.filter_nil]
    rw [hrun, beq_self_eq_true]
    decide
  rw [hrow]
  refine ⟨(Tab.get?_del ..).trans (if_pos rfl), ?_, ?_, fun k' hk' => ?_, hd.trans hover⟩
  · exact (Tab.get?_upd ..).trans ((if_pos rfl).trans (congrArg (Option.map _) hq))
  · refine (Tab.get?_upd ..).trans ((if_pos rfl).trans ((congrArg (Option.map _) ha).trans ?_))
    rw [Option.map_some, if_pos haw]
  · exact (Tab.get?_del ..).trans ((if_neg (Ne.symm hk')).trans (Tab.get?_set_ne _ _ (Ne.symm hk')))

/-! ### Decoding tables -/

/-- The table DECODE_TABLE_LOAD gives, resident in a generation of its own (11 R359). -/
theorem decodeTableLoad_body {l : Nat} {gs : List DecGen} (hf : r.frags = [par r]) (hl : plen r = 272) (hslot : byteAt (par r) 8 ≤ 63)
    (hgen : byteAt (par r) 9 ≤ 15) (hrel : bitOf (byteAt (par r) 10) 1 = false) (himg : imageOk (slice (par r) 16 256) = true)
    (hlev : l = (tenant r).getD (be (par r) 12 2 % 1024)) (hfield : tenant r ≠ none → be (par r) 12 2 % 1024 = 0) (hl0 : l ≠ 0)
    (hadm : s.admitted l = true)
    (hcur : Tab.get? s.col.slots (byteAt (par r) 8) = some (l, gs) ∨ Tab.get? s.col.slots (byteAt (par r) 8) = none ∧ gs = [])
    (hn : gs.length < 4) (hnew : ∀ x ∈ gs, x.gen ≠ byteAt (par r) 9) : bodyDecodeTableLoad r s =
      done (setGens (byteAt (par r) 8) l (gs ++ [⟨byteAt (par r) 9, slice (par r) 16 256, bitOf (byteAt (par r) 10) 0⟩]) s) := by
  have hgs : (Tab.get? s.col.slots (byteAt (par r) 8)).elim [] (·.2) = gs := by
    rcases hcur with h | ⟨h, rfl⟩
    · rw [h]
      rfl
    · rw [h]
      rfl
  have howner : ((Tab.get? s.col.slots (byteAt (par r) 8)).elim false fun x => x.1 != l) = false := by
    rcases hcur with h | ⟨h, -⟩
    · rw [h]
      exact bne_self_eq_false _
    · rw [h]
      rfl
  have hmine : gs.find? (fun x => x.gen == byteAt (par r) 9) = none :=
    List.find?_eq_none.2 fun x hx h => hnew x hx (beq_iff_eq.1 h)
  unfold bodyDecodeTableLoad
  dsimp only
  rw [← hlev, hrel, hgs, hmine, checks_pass, if_neg (by decide), if_pos hn]
  intro c hc
  simp only [List.mem_cons, List.not_mem_nil, or_false] at hc
  rcases hc with rfl | rfl | rfl | rfl
  · simp [oneFrag, hf, hl]
  · have htn : ((tenant r).isSome && be (par r) 12 2 % 1024 != 0) = false := by
      cases ht : tenant r with
      | none => rfl
      | some y =>
        rw [hfield (by rw [ht]; exact Option.some_ne_none y)]
        rfl
    have hbad : leveeBad s l = false := by
      unfold leveeBad
      rw [beq_eq_false_iff_ne.2 hl0, hadm]
      rfl
    dsimp only
    rw [htn, hbad, howner, decide_eq_false (Nat.not_lt.2 hslot), decide_eq_false (Nat.not_lt.2 hgen)]
    rfl
  · rfl
  · show (true && !imageOk (slice (par r) 16 256)) = false
    rw [himg]
    rfl

theorem get?_setGens {slot l : Nat} {gs : List DecGen} {x : DecGen} (k : Nat) :
    Tab.get? (setGens slot l (gs ++ [x]) s).col.slots k = if slot = k then some (l, gs ++ [x]) else Tab.get? s.col.slots k := by
  unfold setGens
  rw [if_neg (by simp)]
  exact Tab.get?_set ..

/-- What a slot decodes by once a generation has joined it: the new one by its image, the others as before. -/
theorem decImage_setGens {slot l : Nat} {gs : List DecGen} {x : DecGen} (g : Nat) : decImage (setGens slot l (gs ++ [x]) s) l slot g =
    (((gs.find? fun y => y.gen == g).or (if x.gen = g then some x else none)).map (·.image)) := by
  unfold decImage
  rw [get?_setGens, if_pos rfl, Option.bind_some, if_pos rfl, List.find?_append]
  congr 2
  by_cases h : x.gen = g
  · rw [if_pos h, List.find?_cons_of_pos (p := fun y : DecGen => y.gen == g) (beq_iff_eq.2 h)]
  · rw [if_neg h, List.find?_cons_of_neg (p := fun y : DecGen => y.gen == g) (fun hb => h (beq_iff_eq.1 hb)), List.find?_nil]

/-! ### Expert maps and residuals -/

theorem expertMapSet_body {x : Group} (hl : plen r = roundUp (8 + 2 * be (par r) 2 2) 8) (hg : s.group (be (par r) 0 2) = some x)
    (hmine : tenant r = none ∨ tenant r = some x.levee) (hd : x.destroying = false) (hp : x.permits 5 = true)
    (hn : 1 ≤ be (par r) 2 2) (hn2 : be (par r) 2 2 ≤ 256) (hc : 1 ≤ be (par r) 4 4) (hc2 : be (par r) 4 4 ≤ 65536)
    (hown : ∀ e < be (par r) 2 2, be (par r) (8 + 2 * e) 2 < x.mems.length) :
    bodyExpertMapSet r s = done (s.modGroup (be (par r) 0 2) fun y =>
      { y with map := (List.range (be (par r) 2 2)).map fun e => be (par r) (8 + 2 * e) 2, cap := be (par r) 4 4 }) := by
  unfold bodyExpertMapSet
  dsimp only
  rw [checks_pass]
  intro c hc'
  simp only [List.mem_cons, List.not_mem_nil, or_false] at hc'
  rcases hc' with rfl | rfl
  · simp [hl]
  · have hall : (((List.range (be (par r) 2 2)).map fun e => be (par r) (8 + 2 * e) 2).any fun m => decide (x.mems.length ≤ m)) = false := by
      rw [List.any_eq_false]
      intro m hm h
      obtain ⟨e, he, rfl⟩ := List.mem_map.1 hm
      exact absurd (of_decide_eq_true h) (Nat.not_le.2 (hown e (List.mem_range.1 he)))
    have hmine' : ((tenant r).elim true fun l => (s.group (be (par r) 0 2)).elim false fun y => y.levee == l) = true := by
      rcases hmine with h | h
      · rw [h]
        rfl
      · rw [h, hg]
        exact beq_self_eq_true _
    dsimp only
    rw [hmine', hg, beq_eq_false_iff_ne.2 (Nat.one_le_iff_ne_zero.1 hn), decide_eq_false (Nat.not_lt.2 hn2),
      beq_eq_false_iff_ne.2 (Nat.one_le_iff_ne_zero.1 hc), decide_eq_false (Nat.not_lt.2 hc2), Option.elim_some, hd, hp, hall]
    rfl

theorem residualReset_body {x : Group} (hl : plen r = 8) (hg : s.group (be (par r) 0 2) = some x)
    (hmine : tenant r = none ∨ tenant r = some x.levee) (hd : x.destroying = false) (ht : be (par r) 2 2 < x.ntensor)
    (hops : ∀ o ∈ x.ops, o.complete = true ∨ o.ef = false ∨ o.tensor ≠ be (par r) 2 2) : bodyResidualReset r s =
      done ((tileCuts (residualAt x (be (par r) 2 2)) x.resStride 0 (x.resStride / 4096 + 2)).foldl
        (fun s c => putTile x.work c.1 c.2.1 (zeros c.2.2.2) 4 s) s) := by
  unfold bodyResidualReset
  dsimp only
  rw [hg, checks_pass]
  intro c hc'
  simp only [List.mem_cons, List.not_mem_nil, or_false] at hc'
  rcases hc' with rfl | rfl | rfl
  · simp [hl]
  · have hmine' : ((tenant r).elim true fun l => (some x).elim false fun y => y.levee == l) = true := by
      rcases hmine with h | h
      · rw [h]
        rfl
      · rw [h]
        exact beq_self_eq_true _
    dsimp only
    rw [hmine', Option.elim_some, hd, decide_eq_false (Nat.not_le.2 ht)]
    rfl
  · dsimp only
    rw [Option.elim_some, List.any_eq_false]
    intro o ho h
    simp only [Bool.and_eq_true, Bool.not_eq_true', beq_iff_eq] at h
    obtain ⟨⟨h1, h2⟩, h3⟩ := h
    rcases hops o ho with h | h | h
    · exact Bool.noConfusion (h.symm.trans h1)
    · exact Bool.noConfusion (h.symm.trans h2)
    · exact h h3

end

/-- Settles O43: the effect of each command of a group, where nothing refuses it. -/
theorem groupCommandsTakeEffect : Obligations.GroupCommandsTakeEffect := by
  intro t r s u p mine
  refine ⟨fun g q a hb hl hbad hret hfree hmem hup hq ha => ?_, fun x q a hb hl hg hd hops hall hq hqg ha haw hother hwin hrep hdef => ?_,
    fun gs hb hf hl hs hgen hrel himg => ?_, fun x hb hl hg hm hd hp hn hn2 hc hc2 hown => ?_,
    fun x hb hl hg hm hd ht hops hwf => ?_⟩
  · exact ⟨_, command_answers hb (groupCreate_body (r := { r with opcode := 0x0901 }) (s := u) hl hbad hret hfree hmem hup),
      groupBinds_effect (s := u) hq ha⟩
  · obtain ⟨v, run, hv, hrun, hrow⟩ := finish_after (r := { r with opcode := 0x0902 }) (s := u.setGroup (be p 0 2) { x with destroying := true })
      (after := groupProgress) (w := .destroyGroup (be p 0 2))
    refine ⟨_, (command_begins bodyGroupDestroy hb).trans (congrArg Host.Outcome.next ?_),
      groupDestroy_effect hv hrun hall hq ha haw hother hwin hrep hdef⟩
    rw [groupDestroy_body (r := { r with opcode := 0x0902 }) (s := u) hl hg hd hops]
    exact hrow
  · intro l hfield hl0 hadm hcur hn hnew
    have hbody : bodyDecodeTableLoad { r with opcode := 0x0903 } u =
        done (setGens (byteAt p 8) l (gs ++ [⟨byteAt p 9, slice p 16 256, bitOf (byteAt p 10) 0⟩]) u) :=
      decodeTableLoad_body (r := { r with opcode := 0x0903 }) (s := u) hf hl hs hgen hrel himg rfl hfield hl0 hadm hcur hn hnew
    refine ⟨_, command_answers hb hbody, ?_, fun x hx => ?_, fun k hk => (get?_setGens k).trans (if_neg (Ne.symm hk)), ?_⟩
    · rw [decImage_setGens, List.find?_eq_none.2 fun x hx h => hnew x hx (beq_iff_eq.1 h), if_pos rfl]
      rfl
    · have hslot : Tab.get? u.col.slots (byteAt p 8) = some (l, gs) := by
        rcases hcur with h | ⟨-, rfl⟩
        · exact h
        · exact absurd hx List.not_mem_nil
      obtain ⟨y, hy⟩ := Option.isSome_iff_exists.1 (List.find?_isSome.2 ⟨x, hx, beq_self_eq_true x.gen⟩ :
        (gs.find? fun y => y.gen == x.gen).isSome = true)
      rw [decImage_setGens, hy, decImage, hslot, Option.bind_some, if_pos rfl, hy]
      rfl
    · unfold setGens
      rfl
  · exact ⟨_, command_answers hb (expertMapSet_body (r := { r with opcode := 0x0904 }) (s := u) hl hg hm hd hp hn hn2 hc hc2 hown),
      (Tab.get?_upd ..).trans ((if_pos rfl).trans (congrArg (Option.map _) hg)), fun k hk => (Tab.get?_upd ..).trans (if_neg (Ne.symm hk))⟩
  · intro off
    obtain ⟨y, inv, iv, hrow, -, hread⟩ := foldl_putTile_all (s := u) x.work 4 (residualAt x (be p 2 2)) x.resStride (fun _ n => zeros n)
      (fun _ => 0) (fun _ n _ => zeros_store n) hwf
    refine ⟨_, command_answers hb ((residualReset_body (r := { r with opcode := 0x0905 }) (s := u) hl hg hm hd ht hops).trans
      (congrArg done hrow)), fun i hi => ?_, fun j hj => ?_, rfl, rfl⟩
    · exact (hread (off + i)).trans (if_pos ⟨Nat.le_add_right .., Nat.add_lt_add_left hi off⟩)
    · exact (hread j).trans (if_neg fun h => hj.elim (Nat.not_lt.2 h.1) (Nat.not_le.2 h.2))

end Sys2Proof.Machine
end

section
/-! PROOFS. Flume queues, turn counters and the reports of basins (10 R311–R314, R345, 09 R294, R298). -/

namespace Sys2Proof.Machine

/-! ### Tables and memory under a run of changes -/

theorem Tab.get?_foldl_set {α : Type} (key : Nat → Nat) (v : α) (l : List Nat) (t : Tab α) (k : Nat) :
    Tab.get? (l.foldl (fun o i => Tab.set o (key i) v) t) k = if ∃ i ∈ l, key i = k then some v else Tab.get? t k := by
  induction l generalizing t with
  | nil => simp
  | cons i l ih =>
    rw [List.foldl_cons, ih, Tab.get?_set]
    by_cases h : ∃ j ∈ l, key j = k
    · rw [if_pos h, if_pos (h.imp fun j hj => ⟨List.mem_cons_of_mem _ hj.1, hj.2⟩)]
    · rw [if_neg h]
      by_cases hk : key i = k
      · rw [if_pos hk, if_pos ⟨i, List.mem_cons_self .., hk⟩]
      · rw [if_neg hk, if_neg]
        rintro ⟨j, hj, hjk⟩
        rcases List.mem_cons.1 hj with rfl | hj
        · exact hk hjk
        · exact h ⟨j, hj, hjk⟩

theorem Tab.get?_foldl_del {α : Type} (key : Nat → Nat) (l : List Nat) (t : Tab α) (k : Nat) :
    Tab.get? (l.foldl (fun o i => Tab.del o (key i)) t) k = if ∃ i ∈ l, key i = k then none else Tab.get? t k := by
  induction l generalizing t with
  | nil => simp
  | cons i l ih =>
    rw [List.foldl_cons, ih, Tab.get?_del]
    by_cases h : ∃ j ∈ l, key j = k
    · rw [if_pos h, if_pos (h.imp fun j hj => ⟨List.mem_cons_of_mem _ hj.1, hj.2⟩)]
    · rw [if_neg h]
      by_cases hk : key i = k
      · rw [if_pos hk, if_pos ⟨i, List.mem_cons_self .., hk⟩]
      · rw [if_neg hk, if_neg]
        rintro ⟨j, hj, hjk⟩
        rcases List.mem_cons.1 hj with rfl | hj
        · exact hk hjk
        · exact h ⟨j, hj, hjk⟩

theorem Tab.get?_filter_key {α : Type} (p : Nat → Bool) (t : Tab α) (k : Nat) :
    Tab.get? (t.filter fun e => p e.1) k = if p k = true then Tab.get? t k else none := by
  induction t with
  | nil => simp
  | cons e t ih =>
    rw [List.filter_cons]
    by_cases hk : e.1 = k
    · subst hk
      split
      next h => rw [Tab.get?_cons, if_pos rfl, Tab.get?_cons, if_pos rfl]
      next h => rw [ih, if_neg h]
    · rw [Tab.get?_cons, if_neg hk]
      split
      · rw [Tab.get?_cons, if_neg hk, ih]
      · exact ih

theorem Mem.read_of_unlisted {m : Mem} {a : Nat} (h : ∀ c ∈ m, c.1 ≠ a) : Mem.read m a = 0 := by
  induction m with
  | nil => rfl
  | cons c m ih =>
    rw [Mem.read_cons, if_neg (h c (List.mem_cons_self ..))]
    split
    · rfl
    · exact ih fun c hc => h c (List.mem_cons_of_mem _ hc)

/-- A run of zeroed ranges reads zero in each of them. -/
theorem Mem.read_foldl_zero (key : Nat → Nat) (n : Nat) (l : List Nat) (m : Mem) {a : Nat} (h : ∃ i ∈ l, key i ≤ a ∧ a < key i + n) :
    ∀ c ∈ l.foldl (fun m i => m.zero (key i) n) m, c.1 ≠ a := by
  have hsub : ∀ (l : List Nat) (m : Mem), ∀ c ∈ l.foldl (fun m i => m.zero (key i) n) m, c ∈ m := fun l => by
    induction l with
    | nil => exact fun _ _ h => h
    | cons i l ih => exact fun m c hc => List.mem_of_mem_filter (ih _ c hc)
  induction l generalizing m with
  | nil => exact absurd h.choose_spec.1 List.not_mem_nil
  | cons i l ih =>
    obtain ⟨j, hj, h1, h2⟩ := h
    rcases List.mem_cons.1 hj with rfl | hj
    · intro c hc he
      have hin := (List.mem_filter.1 (hsub l _ c hc)).2
      simp only [Bool.or_eq_true, decide_eq_true_eq] at hin
      omega
    · exact ih _ ⟨j, hj, h1, h2⟩

/-! ### Tiles taken and given back -/

section
variable {r : KReq} {s : State}

/-- Taking tiles for a queue changes the basins alone. -/
theorem takeTiles_eq (b q : Nat) (ts : List Nat) (s : State) : ∃ y, takeTiles b q ts s = { s with bsn := y } ∧
    y.owner = ts.foldl (fun o t => Tab.set o (b * 512 + t) q) s.bsn.owner ∧
    y.store = ts.foldl (fun m t => m.zero (storeKey b (4096 * t)) 4096) s.bsn.store := ⟨_, rfl, rfl, rfl⟩

/-- The tiles of the slots are the queue's, and read zero. -/
theorem foldl_takeTiles (q : Nat) (l : List Slot) (s : State) : ∃ y, l.foldl (fun s x => takeTiles x.basin q x.tiles s) s = { s with bsn := y } ∧
    (∀ k, Tab.get? s.bsn.owner k = some q → Tab.get? y.owner k = some q) ∧
    (∀ a, (∀ c ∈ s.bsn.store, c.1 ≠ a) → ∀ c ∈ y.store, c.1 ≠ a) ∧
    ∀ x ∈ l, ∀ n ∈ x.tiles, Tab.get? y.owner (x.basin * 512 + n) = some q ∧
      ∀ i, i < 4096 → ∀ c ∈ y.store, c.1 ≠ storeKey x.basin (4096 * n) + i := by
  induction l generalizing s with
  | nil => exact ⟨s.bsn, rfl, fun _ h => h, fun _ h => h, fun x hx => absurd hx List.not_mem_nil⟩
  | cons x l ih =>
    obtain ⟨z, hz, howner, hstore⟩ := takeTiles_eq x.basin q x.tiles s
    obtain ⟨y, hy, h1, h2, h3⟩ := ih { s with bsn := z }
    have hgo : ∀ k, Tab.get? z.owner k = if ∃ n ∈ x.tiles, x.basin * 512 + n = k then some q else Tab.get? s.bsn.owner k := fun k => by
      rw [howner]
      exact Tab.get?_foldl_set (fun t => x.basin * 512 + t) q x.tiles s.bsn.owner k
    have hsub : ∀ c ∈ z.store, c ∈ s.bsn.store := by
      rw [hstore]
      exact List.foldlRecOn (motive := fun m => ∀ c ∈ m, c ∈ s.bsn.store) x.tiles _ (fun _ h => h)
        fun m hm t _ c hc => hm c (List.mem_of_mem_filter hc)
    refine ⟨y, ?_, fun k hk => h1 k ?_, fun a ha => h2 a fun c hc => ha c (hsub c hc), fun w hw n hn => ?_⟩
    · rw [List.foldl_cons, hz, hy]
    · rw [hgo]
      split
      · rfl
      · exact hk
    · rcases List.mem_cons.1 hw with rfl | hw
      · refine ⟨h1 _ ((hgo _).trans (if_pos ⟨n, hn, rfl⟩)), fun i hi => h2 _ ?_⟩
        show ∀ c ∈ z.store, _
        rw [hstore]
        exact Mem.read_foldl_zero (fun t => storeKey w.basin (4096 * t)) 4096 w.tiles s.bsn.store
          ⟨n, hn, Nat.le_add_right .., Nat.add_lt_add_left hi _⟩
      · exact h3 w hw n hn

/-- The tiles free on a basin are among its 512, with no queue owning them. -/
theorem mem_freeTiles {b n k : Nat} (h : n ∈ (freeTiles s b).take k) : n < 512 ∧ Tab.get? s.bsn.owner (b * 512 + n) = none := by
  obtain ⟨h1, h2⟩ := List.mem_filter.1 (List.mem_of_mem_take h)
  exact ⟨List.mem_range.1 h1, Option.isNone_iff_eq_none.1 h2⟩

/-! ### Queues -/

theorem eraseDups_of_nodup {l : List Nat} (h : l.Nodup) : l.eraseDups = l := by
  induction l with
  | nil => rfl
  | cons a l ih =>
    obtain ⟨ha, hl⟩ := List.nodup_cons.1 h
    rw [List.eraseDups_cons, List.filter_eq_self.2, ih hl]
    intro b hb
    simp only [Bool.not_eq_true', beq_eq_false_iff_ne]
    rintro rfl
    exact ha hb

/-- The basins FLUME_QUEUE_CREATE names, the slots it takes on them, the entries it may send to, and its queue (Table FLM-1). -/
def queueBasins (p : Bytes) : List Nat := (List.range (be p 6 2)).map fun i => byteAt p (48 + i)

def queueSends (s : State) (p : Bytes) : List (Option SendEntry) :=
  (List.range (byteAt p 8)).map fun i => parseSend s (slice p (304 + 16 * i) 16)

def queueSlots (s : State) (p : Bytes) : List Slot :=
  (queueBasins p).map fun b => { basin := b, tiles := (freeTiles s b).take (be p 4 2) }

def queueMade (s : State) (p : Bytes) : Queue :=
  { levee := be p 0 2 % 1024, depth := be p 2 2, ntiles := be p 4 2, slots := queueSlots s p, sends := (queueSends s p).filterMap id,
    srcIp := ⟨byteAt p 16, be p 20 16⟩, srcMac := be p 36 6 }

/-- What FLUME_QUEUE_CREATE asks of its fields (10 R312). -/
structure QueueFields (s : State) (p : Bytes) : Prop where
  levee : be p 0 2 % 1024 ≠ 0
  admitted : s.admitted (be p 0 2 % 1024) = true
  depth : 1 ≤ be p 2 2 ∧ be p 2 2 ≤ 4096
  tiles : 1 ≤ be p 4 2 ∧ be p 4 2 ≤ 512
  basins : 1 ≤ be p 6 2 ∧ be p 6 2 ≤ 256
  sends : byteAt p 8 ≤ 16
  source : byteAt p 16 = 4 ∧ be p 20 12 = 0 ∨ byteAt p 16 = 6
  unused : ∀ i < 256 - be p 6 2, byteAt p (48 + be p 6 2 + i) = 0
  distinct : (queueBasins p).Nodup
  entries : ∀ i < byteAt p 8, ∃ e, parseSend s (slice p (304 + 16 * i) 16) = some e ∧ sendFenced s e = false
  zero : ∀ x ∈ slice p (304 + 16 * byteAt p 8) (256 - 16 * byteAt p 8), x = 0

theorem queueSends_sound {p : Bytes} (h : QueueFields s p) : ∀ o ∈ queueSends s p, ∃ e, o = some e ∧ sendFenced s e = false := by
  intro o ho
  obtain ⟨i, hi, rfl⟩ := List.mem_map.1 ho
  obtain ⟨e, he, hf⟩ := h.entries i (List.mem_range.1 hi)
  exact ⟨e, he, hf⟩

theorem length_filterMap_of_isSome {α : Type} {l : List (Option α)} (h : ∀ o ∈ l, o.isSome = true) : (l.filterMap id).length = l.length := by
  induction l with
  | nil => rfl
  | cons o l ih =>
    obtain ⟨e, rfl⟩ := Option.isSome_iff_exists.1 (h o (List.mem_cons_self ..))
    rw [List.filterMap_cons_some (f := id) (a := some e) (b := e) rfl, List.length_cons, List.length_cons, ih fun o ho => h o (List.mem_cons_of_mem _ ho)]

theorem queueCreate_body {q : Nat} (hl : plen r = 560) (h : QueueFields s (par r)) (hret : s.retiring (be (par r) 0 2 % 1024) = false)
    (hn : s.flm.queues.length < 4096) (hfree : ∀ b ∈ queueBasins (par r), be (par r) 4 2 ≤ (freeTiles s b).length)
    (hq : Tab.lowestFree s.flm.queues 4096 = some q) : bodyFlumeQueueCreate r s =
      done (((queueSlots s (par r)).foldl (fun s y => takeTiles y.basin q y.tiles s) s).setQueue q (queueMade s (par r)))
        [toBe 2 q ++ zeros 6] := by
  have hbad : leveeBad s (be (par r) 0 2 % 1024) = false := by
    unfold leveeBad
    rw [beq_eq_false_iff_ne.2 h.levee, h.admitted]
    rfl
  have hunused : ((List.range (256 - be (par r) 6 2)).any fun i => byteAt (par r) (48 + be (par r) 6 2 + i) != 0) = false :=
    List.any_eq_false.2 fun i hi hb => bne_iff_ne.1 hb (h.unused i (List.mem_range.1 hi))
  have hzero : ((slice (par r) (304 + 16 * byteAt (par r) 8) (256 - 16 * byteAt (par r) 8)).any (· != 0)) = false :=
    List.any_eq_false.2 fun i hi hb => bne_iff_ne.1 hb (h.zero i hi)
  have hdup : ((queueBasins (par r)).eraseDups.length != (queueBasins (par r)).length) = false := by
    rw [eraseDups_of_nodup h.distinct]
    exact bne_self_eq_false _
  have hsend : (queueSends s (par r)).any (·.isNone) = false := List.any_eq_false.2 fun o ho hb => by
    obtain ⟨e, rfl, -⟩ := queueSends_sound h o ho
    exact Bool.noConfusion hb
  have hfence : (((queueSends s (par r)).filterMap id).any (sendFenced s)) = false := List.any_eq_false.2 fun e he hb => by
    obtain ⟨o, ho, hoe⟩ := List.mem_filterMap.1 he
    obtain ⟨e', rfl, hf⟩ := queueSends_sound h o ho
    obtain rfl : e' = e := Option.some.inj hoe
    exact Bool.noConfusion (hf.symm.trans hb)
  have hsrc : (!(byteAt (par r) 16 == 4 || byteAt (par r) 16 == 6) || (byteAt (par r) 16 == 4 && be (par r) 20 12 != 0)) = false := by
    rcases h.source with ⟨h1, h2⟩ | h1
    · rw [h1, h2]
      rfl
    · rw [h1]
      rfl
  have hroom : (decide (4096 ≤ s.flm.queues.length) || (queueBasins (par r)).any fun b => decide ((freeTiles s b).length < be (par r) 4 2)) =
      false := by
    rw [decide_eq_false (Nat.not_le.2 hn), Bool.false_or]
    exact List.any_eq_false.2 fun b hb hd => absurd (of_decide_eq_true hd) (Nat.not_lt.2 (hfree b hb))
  unfold bodyFlumeQueueCreate
  dsimp only
  rw [checks_pass]
  · refine (if_neg fun hb => Bool.noConfusion (hfence.symm.trans hb)).trans ?_
    rw [hq]
    rfl
  · intro c hc
    simp only [List.mem_cons, List.not_mem_nil, or_false] at hc
    rcases hc with rfl | rfl | rfl | rfl
    · simp [hl]
    · simp only [Bool.or_eq_false_iff, Bool.or_eq_false_iff.1 hsrc, decide_eq_false_iff_not, Nat.not_lt, beq_eq_false_iff_ne]
      exact ⟨⟨⟨⟨⟨⟨⟨⟨⟨⟨⟨⟨⟨hbad, Nat.one_le_iff_ne_zero.1 h.depth.1⟩, h.depth.2⟩, Nat.one_le_iff_ne_zero.1 h.tiles.1⟩, h.tiles.2⟩,
        Nat.one_le_iff_ne_zero.1 h.basins.1⟩, h.basins.2⟩, h.sends⟩, trivial⟩, trivial⟩, hunused⟩, hzero⟩, hdup⟩, hsend⟩
    · exact hret
    · exact hroom

theorem queueSlots_tiles {p : Bytes} (hfree : ∀ b ∈ queueBasins p, be p 4 2 ≤ (freeTiles s b).length) :
    ∀ y ∈ queueSlots s p, y.tiles.length = be p 4 2 ∧ ∀ n ∈ y.tiles, n < 512 ∧ Tab.get? s.bsn.owner (y.basin * 512 + n) = none := by
  intro y hy
  obtain ⟨b, hb, rfl⟩ := List.mem_map.1 hy
  exact ⟨(List.length_take).trans (Nat.min_eq_left (hfree b hb)), fun n hn => mem_freeTiles hn⟩

theorem queueSlots_basins (s : State) (p : Bytes) : (queueSlots s p).map (·.basin) = queueBasins p := by
  unfold queueSlots
  rw [List.map_map]
  exact List.map_id'' (fun _ => rfl) _

/-- Stored bytes none of which is listed are zero. -/
theorem readStore_unlisted {b a n : Nat} (h : ∀ i, i < n → ∀ c ∈ s.bsn.store, c.1 ≠ storeKey b a + i) : readStore s b a n = zeros n := by
  refine List.eq_replicate_iff.2 ⟨by simp [readStore, Mem.readN], fun b hb => ?_⟩
  obtain ⟨i, hi, rfl⟩ := List.mem_map.1 hb
  exact Mem.read_of_unlisted (h i (List.mem_range.1 hi))

/-! ### The end of a queue -/

theorem stopChains_none (q : Nat) (h : s.flm.chains = []) : stopChains q s = s := by
  unfold stopChains
  rw [h]
  rfl

theorem queueDestroy_body {x : Queue} (hl : plen r = 8) (hq : s.queue (be (par r) 0 2) = some x) (hd : x.destroying = false)
    (hg : x.group = none) (hc : s.flm.chains = []) : bodyFlumeQueueDestroy r s =
      { defer (s.setQueue (be (par r) 0 2) { x with destroying := true }) (.destroyQueue (be (par r) 0 2)) with after := destroyProgress } := by
  have hmod : s.modQueue (be (par r) 0 2) (fun x => { x with destroying := true }) = s.setQueue (be (par r) 0 2) { x with destroying := true } := by
    unfold State.modQueue Tab.upd
    rw [show Tab.get? s.flm.queues (be (par r) 0 2) = some x from hq]
    rfl
  unfold bodyFlumeQueueDestroy
  dsimp only
  rw [hq, checks_pass, hmod, stopChains_none]
  · exact hc
  · intro c hc
    simp only [List.mem_cons, List.not_mem_nil, or_false] at hc
    rcases hc with rfl | rfl | rfl
    · simp [hl]
    · exact hd
    · show x.group.isSome = false
      rw [hg]
      rfl

/-- The tiles of a slot that is not lost go back, and its basin goes off if that was due. -/
def slotBack (s : State) (x : Slot) : State := if x.lost then s else offIfDue x.basin (returnTiles x.basin x.tiles s)

theorem slotBack_eq {x : Slot} (hl : x.lost = false) (s : State) : ∃ y g, slotBack s x = { s with bsn := y, gauges := g } ∧
    ∀ k, Tab.get? y.owner k = if ∃ n ∈ x.tiles, x.basin * 512 + n = k then none else Tab.get? s.bsn.owner k := by
  have hrow : slotBack s x = offIfDue x.basin (returnTiles x.basin x.tiles s) := if_neg (by rw [hl]; decide)
  have hdel := Tab.get?_foldl_del (fun t => x.basin * 512 + t) x.tiles s.bsn.owner
  have hret : ∃ z, returnTiles x.basin x.tiles s = { s with bsn := z } ∧
      z.owner = x.tiles.foldl (fun o t => Tab.del o (x.basin * 512 + t)) s.bsn.owner := ⟨_, rfl, rfl⟩
  obtain ⟨z, hz, howner⟩ := hret
  rw [← howner] at hdel
  rw [hrow, hz]
  rcases offIfDue_cases x.basin { s with bsn := z } with h | ⟨ts, h⟩
  · rw [h]
    exact ⟨z, s.gauges, rfl, hdel⟩
  · obtain ⟨g, hset⟩ := setPower_eq (s := zeroTiles x.basin ts { s with bsn := z }) (b := x.basin) .off
    rw [h, hset]
    exact ⟨_, g, rfl, hdel⟩

theorem foldl_slotBack (l : List Slot) (hl : ∀ x ∈ l, x.lost = false) (s : State) : ∃ y g, l.foldl slotBack s =
    { s with bsn := y, gauges := g } ∧ (∀ k, Tab.get? s.bsn.owner k = none → Tab.get? y.owner k = none) ∧
    ∀ x ∈ l, ∀ n ∈ x.tiles, Tab.get? y.owner (x.basin * 512 + n) = none := by
  induction l generalizing s with
  | nil => exact ⟨s.bsn, s.gauges, rfl, fun _ h => h, fun x hx => absurd hx List.not_mem_nil⟩
  | cons x l ih =>
    obtain ⟨z, g, hz, howner⟩ := slotBack_eq (hl x (List.mem_cons_self ..)) s
    obtain ⟨y, g', hy, h1, h2⟩ := ih (fun x hx => hl x (List.mem_cons_of_mem _ hx)) { s with bsn := z, gauges := g }
    refine ⟨y, g', ?_, fun k hk => h1 k ?_, fun w hw n hn => ?_⟩
    · rw [List.foldl_cons, hz, hy]
    · rw [howner]
      split
      · rfl
      · exact hk
    · rcases List.mem_cons.1 hw with rfl | hw
      · exact h1 _ ((howner _).trans (if_pos ⟨n, hn, rfl⟩))
      · exact h2 w hw n hn

/-- What is left once a queue with nothing under way is destroyed. -/
theorem queueDestroy_effect {q : Nat} {x : Queue} {v : State} {run : Running}
    (hv : Answered (s.setQueue q { x with destroying := true }) v) (hrun : run.work = .destroyQueue q)
    (hall : ∀ e ∈ s.flm.queues, e.2.destroying = false) (hc : s.flm.chains = []) (hwin : s.pwr.window = false)
    (hslots : ∀ y ∈ x.slots, y.lost = false ∧ (s.basin y.basin).replaying = false ∧ (s.basin y.basin).tagged = [])
    (hdef : s.kry.deferred = []) :
    let z := destroyProgress { v with kry := { v.kry with deferred := v.kry.deferred ++ [run] } }
    z.queue q = none ∧ z.kry.deferred = [] ∧ (∀ k, k ≠ q → z.queue k = s.queue k) ∧ z.mem = s.mem ∧ z.cis = s.cis ∧
      ∀ y ∈ x.slots, ∀ n ∈ y.tiles, Tab.get? z.bsn.owner (y.basin * 512 + n) = none := by
  intro z
  obtain ⟨k, ⟨hk, -⟩, o, ga, co, f, p, rfl⟩ := hv
  let b : State := { s.setQueue q { x with destroying := true } with
    kry := { k with deferred := k.deferred ++ [run] }, out := o, gauges := ga, sec := co, fresh := f, ports := p }
  have hone : b.flm.queues.filter (fun e => e.2.destroying) = [(q, { x with destroying := true })] := Tab.filter_set _ q _ rfl hall
  have hbusy : (b.flm.chains.any (fun c => c.2.queue == q) || b.pwr.window ||
      x.slots.any fun y => !y.lost && ((b.basin y.basin).replaying || !(b.basin y.basin).tagged.isEmpty)) = false := by
    rw [show b.flm.chains = [] from hc, show b.pwr.window = false from hwin, List.any_nil, Bool.false_or, Bool.false_or, List.any_eq_false]
    intro y hy h
    obtain ⟨-, h1, h2⟩ := hslots y hy
    rw [show (b.basin y.basin).replaying = false from h1, show (b.basin y.basin).tagged = [] from h2, List.isEmpty_nil] at h
    simp at h
  obtain ⟨y, g, hback, -, hgone⟩ := foldl_slotBack x.slots (fun y hy => (hslots y hy).1) b
  have hrow : z = ({ x.slots.foldl slotBack b with flm := { (x.slots.foldl slotBack b).flm with
      queues := Tab.del (x.slots.foldl slotBack b).flm.queues q } } : State).workDone (fun w => w == .destroyQueue q) St.ok [] := by
    show destroyProgress b = _
    unfold destroyProgress
    rw [hone, List.foldl_cons, List.foldl_nil]
    dsimp only
    rw [stopChains_none q (s := b) hc]
    exact if_neg fun h => Bool.noConfusion (hbusy.symm.trans h)
  rw [hback] at hrow
  obtain ⟨kr, ⟨hd, -⟩, o', ga', co', f', p', hw⟩ := State.workDone_answered
    { b with bsn := y, gauges := g, flm := { b.flm with queues := Tab.del b.flm.queues q } } (fun w => w == .destroyQueue q) St.ok []
  have hover : (b.kry.deferred.filter fun y => !(y.work == .destroyQueue q)) = [] := by
    show ((k.deferred ++ [run]).filter fun y => !(y.work == .destroyQueue q)) = []
    rw [hk.trans hdef, List.nil_append, List.filter_cons_of_neg, List.filter_nil]
    rw [hrun, beq_self_eq_true]
    decide
  rw [hrow.trans hw]
  exact ⟨(Tab.get?_del ..).trans (if_pos rfl), hd.trans hover,
    fun k' hk' => (Tab.get?_del ..).trans ((if_neg (Ne.symm hk')).trans (Tab.get?_set_ne _ _ (Ne.symm hk'))), rfl, rfl, hgone⟩

/-! ### Turn counters -/

/-- A die with room for the run holds one, all free. -/
theorem turnRun_of_free {d n c0 : Nat} (hn : c0 + n ≤ 32768) (hfree : ∀ i < n, s.turn (32768 * d + c0 + i) = none) :
    ∃ c, turnRun s d n = some c := by
  refine Option.isSome_iff_exists.1 (List.find?_isSome.2 ⟨32768 * d + c0, ?_, ?_⟩)
  · exact List.mem_map.2 ⟨c0, List.mem_range.2 (by omega), rfl⟩
  · refine List.all_eq_true.2 fun i hi => ?_
    rw [hfree i (List.mem_range.1 hi)]
    rfl

theorem turnRun_sound {d n c : Nat} (h : turnRun s d n = some c) (hn : 1 ≤ n) : turnDie c = d ∧ turnDie (c + n - 1) = d ∧
    ∀ i < n, s.turn (c + i) = none := by
  have hall := List.find?_some h
  obtain ⟨k, hk, rfl⟩ := List.mem_map.1 (List.mem_of_find?_eq_some h)
  have hk := List.mem_range.1 hk
  refine ⟨?_, ?_, fun i hi => Option.isNone_iff_eq_none.1 (List.all_eq_true.1 hall i (List.mem_range.2 hi))⟩
  · unfold turnDie
    omega
  · unfold turnDie
    omega

/-- The run TURN_ALLOC takes: of the die it names, or of either. -/
def turnTaken (s : State) (die n : Nat) : Option Nat :=
  if die = 2 then (turnRun s 0 n).orElse fun _ => turnRun s 1 n else turnRun s die n

theorem turnTaken_of_free {die d n c0 : Nat} (hdie : die = d ∨ die = 2) (hd : d ≤ 1) (hn : c0 + n ≤ 32768) (hn1 : 1 ≤ n)
    (hfree : ∀ i < n, s.turn (32768 * d + c0 + i) = none) :
    ∃ c, turnTaken s die n = some c ∧ (die ≤ 1 → turnDie c = die) ∧ turnDie (c + n - 1) = turnDie c ∧ ∀ i < n, s.turn (c + i) = none := by
  have hsound : ∀ {d c}, turnRun s d n = some c → turnDie (c + n - 1) = turnDie c ∧ ∀ i < n, s.turn (c + i) = none := by
    intro d c hc
    obtain ⟨h1, h2, h3⟩ := turnRun_sound hc hn1
    exact ⟨h2.trans h1.symm, h3⟩
  obtain ⟨c, hc⟩ := turnRun_of_free hn hfree
  unfold turnTaken
  by_cases h2 : die = 2
  · rw [if_pos h2]
    cases h0 : turnRun s 0 n with
    | some c' => exact ⟨c', rfl, fun h => absurd h (by omega), hsound h0⟩
    | none =>
      obtain rfl : d = 1 := by
        rcases Nat.le_one_iff_eq_zero_or_eq_one.1 hd with rfl | rfl
        · rw [hc] at h0
          contradiction
        · rfl
      exact ⟨c, hc, fun h => absurd h (by omega), hsound hc⟩
  · obtain rfl : die = d := hdie.resolve_right h2
    rw [if_neg h2]
    exact ⟨c, hc, fun _ => (turnRun_sound hc hn1).1, hsound hc⟩

theorem turnAlloc_body {c : Nat} (hl : plen r = 16) (h0 : be (par r) 0 2 % 1024 ≠ 0) (hadm : s.admitted (be (par r) 0 2 % 1024) = true)
    (hret : s.retiring (be (par r) 0 2 % 1024) = false) (hd : byteAt (par r) 2 ≤ 2) (hfree : bitOf (byteAt (par r) 3) 0 = false)
    (hz : be (par r) 8 4 = 0) (hn1 : 1 ≤ be (par r) 4 4) (hn2 : be (par r) 4 4 ≤ 4096)
    (hc : turnTaken s (byteAt (par r) 2) (be (par r) 4 4) = some c) : bodyTurnAlloc r s =
      done { s with flm := { s.flm with turns := (List.range (be (par r) 4 4)).foldl (fun t i =>
        Tab.set t (c + i) ({ levee := be (par r) 0 2 % 1024, value := 0 } : Turn)) s.flm.turns } } [toBe 4 c ++ zeros 4] := by
  have hbad : leveeBad s (be (par r) 0 2 % 1024) = false := by
    unfold leveeBad
    rw [beq_eq_false_iff_ne.2 h0, hadm]
    rfl
  have hrun := hc
  unfold turnTaken at hrun
  unfold bodyTurnAlloc
  dsimp only
  rw [hfree, hrun, checks_pass]
  · rfl
  · intro b hb
    simp only [List.mem_cons, List.not_mem_nil, or_false] at hb
    rcases hb with rfl | rfl | rfl | rfl | rfl | rfl
    · simp [hl]
    · simp only [Bool.or_eq_false_iff, decide_eq_false_iff_not, Nat.not_lt, beq_eq_false_iff_ne]
      exact ⟨⟨⟨⟨hbad, hd⟩, Nat.one_le_iff_ne_zero.1 hn1⟩, hn2⟩, by rw [hz]; rfl⟩
    · rfl
    · exact hret
    · rfl
    · rfl

theorem turnFree_body (hl : plen r = 16) (h0 : be (par r) 0 2 % 1024 ≠ 0) (hadm : s.admitted (be (par r) 0 2 % 1024) = true)
    (hd : byteAt (par r) 2 ≤ 2) (hfree : bitOf (byteAt (par r) 3) 0 = true) (hn1 : 1 ≤ be (par r) 4 4) (hn2 : be (par r) 4 4 ≤ 4096)
    (hown : ∀ i < be (par r) 4 4, (∃ x, s.turn (be (par r) 8 4 + i) = some x ∧ x.levee = be (par r) 0 2 % 1024) ∧
      turnWaited s (be (par r) 8 4 + i) = false) : bodyTurnAlloc r s =
      done { s with flm := { s.flm with turns := s.flm.turns.filter fun e =>
        !((List.range (be (par r) 4 4)).map (be (par r) 8 4 + ·)).contains e.1 } } [zeros 8] := by
  have hbad : leveeBad s (be (par r) 0 2 % 1024) = false := by
    unfold leveeBad
    rw [beq_eq_false_iff_ne.2 h0, hadm]
    rfl
  unfold bodyTurnAlloc
  dsimp only
  rw [hfree, checks_pass]
  · rfl
  · intro b hb
    simp only [List.mem_cons, List.not_mem_nil, or_false] at hb
    rcases hb with rfl | rfl | rfl | rfl | rfl | rfl
    · simp [hl]
    · simp only [Bool.or_eq_false_iff, decide_eq_false_iff_not, Nat.not_lt, beq_eq_false_iff_ne]
      exact ⟨⟨⟨⟨hbad, hd⟩, Nat.one_le_iff_ne_zero.1 hn1⟩, hn2⟩, rfl⟩
    · refine (Bool.true_and _).trans (List.any_eq_false.2 fun c hc h => ?_)
      obtain ⟨i, hi, rfl⟩ := List.mem_map.1 hc
      obtain ⟨⟨x, hx, hlev⟩, -⟩ := hown i (List.mem_range.1 hi)
      rw [hx, Option.elim_some, hlev, beq_self_eq_true] at h
      exact Bool.noConfusion h
    · rfl
    · refine (Bool.true_and _).trans (List.any_eq_false.2 fun c hc h => ?_)
      obtain ⟨i, hi, rfl⟩ := List.mem_map.1 hc
      exact Bool.noConfusion ((hown i (List.mem_range.1 hi)).2.symm.trans h)
    · rfl

theorem turnSet_body {x : Turn} (hl : plen r = 8) (hx : s.turn (be (par r) 0 2) = some x)
    (hlev : x.levee = (tenant r).getD (be (par r) 2 2 % 1024)) (hf : tenant r ≠ none → be (par r) 2 2 % 1024 = 0) : bodyTurnSet r s =
      done { s with flm := { s.flm with turns := Tab.upd s.flm.turns (be (par r) 0 2) fun x => { x with
        value := (be (par r) 4 4 + x.fresh s.now) % 2 ^ 32 } } } := by
  unfold bodyTurnSet
  dsimp only
  rw [checks_pass]
  intro c hc
  simp only [List.mem_cons, List.not_mem_nil, or_false] at hc
  rcases hc with rfl | rfl
  · simp [hl]
  · dsimp only
    rw [hx, Option.elim_some, hlev, beq_self_eq_true]
    cases ht : tenant r with
    | none => rfl
    | some y =>
      rw [hf (by rw [ht]; exact Option.some_ne_none y)]
      rfl

/-! ### Reports of basins -/

theorem xcheckSet_body (hl : plen r = 8) (hb : be (par r) 0 2 ≤ 255 ∨ be (par r) 0 2 = 0xFFFF) (hn1 : 256 ≤ be (par r) 4 4)
    (hn2 : be (par r) 4 4 ≤ 65536) : bodyXcheckSet r s = done ((if be (par r) 0 2 = 0xFFFF then List.range 256 else [be (par r) 0 2]).foldl
      (fun s b => s.modBasin b fun x => { x with n := be (par r) 4 4 }) s) := by
  unfold bodyXcheckSet
  dsimp only
  rw [checks_pass]
  intro c hc
  simp only [List.mem_cons, List.not_mem_nil, or_false] at hc
  rcases hc with rfl | rfl
  · simp [hl]
  · simp only [Bool.or_eq_false_iff, Bool.and_eq_false_iff, decide_eq_false_iff_not, bne_eq_false_iff_eq, Nat.not_lt]
    exact ⟨⟨hb, hn1⟩, hn2⟩

theorem foldl_modBasin (f : Basin → Basin) (hf : ∀ x, f (f x) = f x) (l : List Nat) (s : State) (b : Nat) :
    (l.foldl (fun s k => s.modBasin k f) s).basin b = if b ∈ l then f (s.basin b) else s.basin b := by
  induction l generalizing s with
  | nil => simp
  | cons k l ih =>
    rw [List.foldl_cons, ih, State.basin_modBasin]
    by_cases hk : k = b
    · subst hk
      rw [if_pos rfl, if_pos (List.mem_cons_self ..), hf, ite_self]
    · rw [if_neg hk]
      simp only [List.mem_cons, Ne.symm hk, false_or]

theorem basinState_body (hl : plen r = 8) (hb : be (par r) 0 2 ≤ 255) : bodyBasinState r s = done s
    [toBe 1 (s.basin (be (par r) 0 2)).power.code ++ toBe 1 (s.basin (be (par r) 0 2)).quar.code ++ toBe 1 (s.basin (be (par r) 0 2)).quarTemp ++
      toBe 1 (s.basin (be (par r) 0 2)).quarMask ++ toBe 1 (be (par r) 0 2 ^^^ 64) ++ toBe 1 (be (par r) 0 2 ^^^ 32) ++
      toBe 2 (s.basin (be (par r) 0 2)).taint.length ++ toBe 4 (min (s.basin (be (par r) 0 2)).checks 0xFFFFFFFF) ++
      toBe 4 (min (s.basin (be (par r) 0 2)).suspect 0xFFFFFFFF) ++ toBe 4 (s.basin (be (par r) 0 2)).interval ++ zeros 4] := by
  refine checks_pass fun c hc => ?_
  simp only [List.mem_cons, List.not_mem_nil, or_false] at hc
  rcases hc with rfl | rfl
  · simp [hl]
  · exact decide_eq_false (Nat.not_lt.2 hb)

end

/-- Settles O37: each command of the flume, where nothing refuses it, by its own effect. -/
theorem flumeCommandsTakeEffect : Obligations.FlumeCommandsTakeEffect := by
  intro t r s u p bs
  refine ⟨fun q hb hl h0 hadm hret hd1 hd2 ht1 ht2 hn1 hn2 hs hsrc hun hdup hent hz hlen hfree hq _ => ?create,
    fun x hb hl hq hd hg hall hc hwin hdef hslots => ?destroy, fun d c0 hb hl h0 hadm hret hdie hd hfree hz hn1 hn2 hc0 hnone => ?alloc,
    fun hb hl h0 hadm hdie hfree hn1 hn2 hown => ?free, fun x hb hl hx hlev hf => ?set, fun hb hl hbas hn1 hn2 => ?xcheck,
    fun hb hl hbas => ?state⟩
  case create =>
    have hfields : QueueFields u p := ⟨h0, hadm, ⟨hd1, hd2⟩, ⟨ht1, ht2⟩, ⟨hn1, hn2⟩, hs, hsrc, hun, hdup, hent, hz⟩
    obtain ⟨y, hy, -, -, htaken⟩ := foldl_takeTiles q (queueSlots u p) u
    have hbody : bodyFlumeQueueCreate { r with opcode := 0x0801 } u = done (({ u with bsn := y } : State).setQueue q (queueMade u p))
        [toBe 2 q ++ zeros 6] :=
      (queueCreate_body (r := { r with opcode := 0x0801 }) (s := u) hl hfields hret hlen hfree hq).trans
        (congrArg (fun v : State => done (v.setQueue q (queueMade u p)) [toBe 2 q ++ zeros 6]) hy)
    refine ⟨_, queueMade u p, command_answers hb hbody, Tab.get?_set_self .., rfl, rfl, rfl, rfl, rfl, ?_, queueSlots_basins u p,
      fun k hk => Tab.get?_set_ne _ _ (Ne.symm hk), fun x hx => ?_, rfl, rfl, rfl⟩
    · refine (length_filterMap_of_isSome fun o ho => ?_).trans (by simp [queueSends])
      obtain ⟨e, rfl, -⟩ := queueSends_sound hfields o ho
      rfl
    · obtain ⟨hlen', hfr⟩ := queueSlots_tiles hfree x hx
      refine ⟨hlen', fun n hn => ?_⟩
      obtain ⟨hn512, hnone⟩ := hfr n hn
      obtain ⟨howner, hstore⟩ := htaken x hx n hn
      exact ⟨hn512, hnone, howner, readStore_unlisted hstore⟩
  case destroy =>
    obtain ⟨v, run, hv, hrun, hrow⟩ := finish_after (r := { r with opcode := 0x0802 }) (s := u.setQueue (be p 0 2) { x with destroying := true })
      (after := destroyProgress) (w := .destroyQueue (be p 0 2))
    refine ⟨_, (command_begins bodyFlumeQueueDestroy hb).trans (congrArg Host.Outcome.next ?_),
      queueDestroy_effect hv hrun hall hc hwin hslots hdef⟩
    rw [queueDestroy_body (r := { r with opcode := 0x0802 }) (s := u) hl hq hd hg hc]
    exact hrow
  case alloc =>
    obtain ⟨c, hc, hdie', hsame, hfr⟩ := turnTaken_of_free hdie hd hc0 hn1 hnone
    have hget : ∀ k, Tab.get? ((List.range (be p 4 4)).foldl (fun t i => Tab.set t (c + i) ({ levee := be p 0 2 % 1024, value := 0 } : Turn))
        u.flm.turns) k = if ∃ i ∈ List.range (be p 4 4), c + i = k then some { levee := be p 0 2 % 1024, value := 0 } else u.turn k :=
      fun k => Tab.get?_foldl_set (c + ·) _ _ _ k
    refine ⟨_, c, command_answers hb (turnAlloc_body (r := { r with opcode := 0x0803 }) (s := u) hl h0 hadm hret (hdie.elim (fun h => h.trans_le (hd.trans (by decide))) fun h => h.le) hfree hz hn1 hn2 hc),
      hdie', hsame, fun i hi => ⟨hfr i hi, (hget _).trans (if_pos ⟨i, List.mem_range.2 hi, rfl⟩)⟩, fun k hk => (hget k).trans (if_neg ?_), rfl, rfl⟩
    rintro ⟨i, hi, rfl⟩
    have := List.mem_range.1 hi
    omega
  case free =>
    have hget : ∀ k, Tab.get? (u.flm.turns.filter fun e => !((List.range (be p 4 4)).map (be p 8 4 + ·)).contains e.1) k =
        if (!((List.range (be p 4 4)).map (be p 8 4 + ·)).contains k) = true then u.turn k else none :=
      fun k => Tab.get?_filter_key (fun k => !((List.range (be p 4 4)).map (be p 8 4 + ·)).contains k) _ k
    refine ⟨_, command_answers hb (turnFree_body (r := { r with opcode := 0x0803 }) (s := u) hl h0 hadm hdie hfree hn1 hn2 hown), fun i hi => ?_,
      fun k hk => ?_⟩
    · refine (hget _).trans (if_neg fun h => ?_)
      have hin : ((List.range (be p 4 4)).map (be p 8 4 + ·)).contains (be p 8 4 + i) = true :=
        List.contains_iff_mem.2 (List.mem_map.2 ⟨i, List.mem_range.2 hi, rfl⟩)
      rw [hin] at h
      exact Bool.noConfusion h
    · refine (hget k).trans (if_pos ?_)
      refine (Bool.not_eq_true' _).mpr (Bool.eq_false_iff.2 fun h => ?_)
      obtain ⟨i, hi, rfl⟩ := List.mem_map.1 (List.contains_iff_mem.1 h)
      have := List.mem_range.1 hi
      omega
  case set =>
    exact ⟨_, command_answers hb (turnSet_body (r := { r with opcode := 0x0804 }) (s := u) hl hx hlev hf),
      (Tab.get?_upd ..).trans ((if_pos rfl).trans (congrArg (Option.map _) hx)), fun k hk => (Tab.get?_upd ..).trans (if_neg (Ne.symm hk)), rfl, rfl⟩
  case xcheck =>
    refine ⟨_, command_answers hb (xcheckSet_body (r := { r with opcode := 0x0805 }) (s := u) hl hbas hn1 hn2), fun b hb256 => ?_⟩
    refine (foldl_modBasin (fun x => { x with n := be p 4 4 }) (fun _ => rfl) _ u b).trans ?_
    by_cases hall : be p 0 2 = 0xFFFF
    · exact (if_pos (by rw [show be (par { r with opcode := 0x0805 }) 0 2 = _ from hall, if_pos rfl]; exact List.mem_range.2 hb256)).trans
        (if_pos (.inr hall)).symm
    · by_cases hone : be p 0 2 = b
      · exact (if_pos (by rw [if_neg (show ¬ be (par { r with opcode := 0x0805 }) 0 2 = _ from hall)]; exact List.mem_singleton.2 hone.symm)).trans
          (if_pos (.inl hone)).symm
      · refine (if_neg fun h => hone ?_).trans (if_neg (not_or.2 ⟨hone, hall⟩)).symm
        rw [if_neg (show ¬ be (par { r with opcode := 0x0805 }) 0 2 = _ from hall)] at h
        exact (List.mem_singleton.1 h).symm
  case state => exact command_answers hb (basinState_body (r := { r with opcode := 0x0806 }) (s := u) hl hbas)

end Sys2Proof.Machine
end

section
/-! PROOFS. Coherence domains, their agents, and the lines of a dead agent (08 R247–R250, R267–R268). -/

namespace Sys2Proof.Machine

section
variable {r : KReq} {s : State}

/-- The domain DOMAIN_CREATE makes (R247). -/
def domainMade (p : Bytes) : Domain := { levee := be p 0 2 % 1024, mode := byteAt p 2, tc := byteAt p 3 }

theorem domainCreate_body {d : Nat} (hl : plen r = 16) (h0 : be (par r) 0 2 % 1024 ≠ 0) (hadm : s.admitted (be (par r) 0 2 % 1024) = true)
    (hret : s.retiring (be (par r) 0 2 % 1024) = false) (hm : byteAt (par r) 2 ≤ 2) (htc : byteAt (par r) 3 ≤ 7)
    (hd : Tab.lowestFree s.coh.domains 64 = some d) : bodyDomainCreate r s =
      done { s with coh := { s.coh with domains := Tab.set s.coh.domains d (domainMade (par r)) } } [toBe 1 d ++ zeros 7] := by
  unfold bodyDomainCreate
  dsimp only
  rw [hd, checks_pass]
  · rfl
  · intro c hc
    simp only [List.mem_cons, List.not_mem_nil, or_false] at hc
    rcases hc with rfl | rfl | rfl | rfl
    · simp [hl]
    · rw [leveeBad, beq_eq_false_iff_ne.2 h0, hadm, decide_eq_false (Nat.not_lt.2 hm), decide_eq_false (Nat.not_lt.2 htc)]
      rfl
    · exact hret
    · rfl

/-- The agents of a domain that are live. -/
def Domain.liveTab (x : Domain) : Tab Agent := x.agents.filter fun e => e.2.live

/-- The agent AGENT_ADD makes (R248). -/
def agentAdded (d a : Nat) (p : Bytes) (s : State) : Agent :=
  { gen := (Tab.get? s.coh.lastGen (d * 4096 + a)).elim 0 fun g => (g + 1) % 65536, addr := ⟨byteAt p 1, be p 4 16⟩, qpn := be p 20 3,
    live := true }

theorem agentAdd_body {x : Domain} {a : Nat} (hl : plen r = 24) (hx : s.domain (byteAt (par r) 0) = some x)
    (haf : byteAt (par r) 1 = 4 ∧ be (par r) 4 12 = 0 ∨ byteAt (par r) 1 = 6)
    (hnew : ∀ e ∈ x.agents, e.2.live = true → ¬(e.2.addr = ⟨byteAt (par r) 1, be (par r) 4 16⟩ ∧ e.2.qpn = be (par r) 20 3))
    (hret : s.retiring x.levee = false) (hn : x.liveTab.length < 4096) (hfence : s.addrFenced ⟨byteAt (par r) 1, be (par r) 4 16⟩ = false)
    (ha : Tab.lowestFree x.liveTab 4096 = some a) : bodyAgentAdd r s =
      done { s with coh := { s.coh with
        lastGen := Tab.set s.coh.lastGen (byteAt (par r) 0 * 4096 + a) (agentAdded (byteAt (par r) 0) a (par r) s).gen
        domains := Tab.set s.coh.domains (byteAt (par r) 0)
          { x with agents := Tab.set x.agents a (agentAdded (byteAt (par r) 0) a (par r) s) } } }
        [toBe 2 a ++ toBe 2 (agentAdded (byteAt (par r) 0) a (par r) s).gen ++ zeros 4] := by
  have hdup : (x.liveTab.any fun e => e.2.addr == ⟨byteAt (par r) 1, be (par r) 4 16⟩ && e.2.qpn == be (par r) 20 3) = false := by
    rw [List.any_eq_false]
    intro e he h
    obtain ⟨h1, h2⟩ := List.mem_filter.1 he
    simp only [Bool.and_eq_true, beq_iff_eq] at h
    exact hnew e h1 h2 h
  unfold bodyAgentAdd
  dsimp only
  rw [hx]
  dsimp only
  rw [checks_pass, hfence, if_neg (by rw [Bool.false_and]; decide)]
  · rw [show Tab.lowestFree (x.agents.filter fun e => e.2.live) 4096 = some a from ha]
    rfl
  · intro c hc
    simp only [List.mem_cons, List.not_mem_nil, or_false] at hc
    rcases hc with rfl | rfl | rfl | rfl | rfl
    · simp [hl]
    · rcases haf with ⟨h1, h2⟩ | h1
      · rw [h1, h2]
        rfl
      · rw [h1]
        rfl
    · exact hdup
    · exact hret
    · exact decide_eq_false (Nat.not_le.2 hn)

theorem domainModeSet_body {x : Domain} (hl : plen r = 8) (hx : s.domain (byteAt (par r) 0) = some x) (hm : byteAt (par r) 1 ≤ 2) :
    bodyDomainModeSet r s = done { s with coh := { s.coh with
      domains := Tab.upd s.coh.domains (byteAt (par r) 0) fun x => { x with mode := byteAt (par r) 1 } } } := by
  refine checks_pass fun c hc => ?_
  simp only [List.mem_cons, List.not_mem_nil, or_false] at hc
  rcases hc with rfl | rfl
  · simp [hl]
  · rw [hx, decide_eq_false (Nat.not_lt.2 hm)]
    rfl

theorem domainQuery_body {x : Domain} (hl : plen r = 8) (hx : s.domain (byteAt (par r) 0) = some x) (ho : ∀ l, tenant r = some l → x.levee = l) :
    bodyDomainQuery r s = done s [toBe 1 x.mode ++ toBe 1 x.tc ++ toBe 2 x.levee ++ toBe 2 (liveAgents s (byteAt (par r) 0)).length ++
      toBe 2 (s.mem.allots.filter fun e => e.2.coherent && e.2.domain == byteAt (par r) 0).length ++
      toBe 4 (s.coh.dir.filter fun e => (lineHome s e.1).2 == byteAt (par r) 0 && (s.allot (keyAllot e.1)).isSome).length ++
      toBe 4 ((s.coh.lost.filter fun k => (lineHome s k).2 == byteAt (par r) 0 && (s.allot (keyAllot k)).isSome).length +
        (s.coh.dir.filter fun e => ((lineHome s e.1).2 == byteAt (par r) 0 && (s.allot (keyAllot e.1)).isSome) && e.2.st == .lost).length)] := by
  unfold bodyDomainQuery
  dsimp only
  rw [hx]
  refine checks_pass fun c hc => ?_
  simp only [List.mem_cons, List.not_mem_nil, or_false] at hc
  rcases hc with rfl | rfl
  · simp [hl]
  · cases ht : tenant r with
    | none => rfl
    | some l =>
      show (!(x.levee == l)) = false
      rw [ho l ht, beq_self_eq_true]
      rfl

/-! ### A dead agent -/

/-- A command whose work is over once its reply has left changes what replies change alone. -/
theorem finish_workDone (r : KReq) (s : State) (w : Work) (p : Work → Bool) (st : Nat) (frags : List Bytes) : ∃ k o g c f q,
    finish r { defer s w with after := fun s => s.workDone p st frags } =
      { s with kry := k, out := o, gauges := g, sec := c, fresh := f, ports := q } := by
  obtain ⟨v, run, ⟨k, -, o, g, c, f, q, rfl⟩, -, hrow⟩ := finish_after (r := r) (s := s) (w := w) (after := fun s => s.workDone p st frags)
  rw [hrow]
  obtain ⟨k', -, o', g', c', f', q', hw⟩ := State.workDone_answered { s with
    kry := { k with deferred := k.deferred ++ [run] }, out := o, gauges := g, sec := c, fresh := f, ports := q } p st frags
  exact ⟨k', o', g', c', f', q', hw⟩

/-- The agent of the domain, no more live. -/
def agentGone (d a : Nat) (s : State) : State :=
  { s with coh := { s.coh with
    domains := Tab.upd s.coh.domains d fun x => { x with agents := Tab.upd x.agents a fun g => { g with live := false } }
    results := s.coh.results.filter fun r => !(r.domain == d && r.agent == a) } }

/-- With nothing under way, a settlement of the dies changes nothing. -/
theorem cohSettle_idle (hq : s.coh.dieQ = []) (hl : s.mem.live = []) : cohSettle s = s := by
  unfold cohSettle
  refine List.foldlRecOn (motive := fun u => u = s) (List.range 4) _ rfl fun u hu _ _ => ?_
  rw [hu, hq, hl]
  rfl

/-- The state before a dead agent's lines are looked at, where nothing of it is under way. -/
def agentQuiet (d a : Nat) (s : State) : State := { agentGone d a s with mem := { s.mem with hosts := [], live := [] } }

/-- What becomes of the one line of the directory: dropped where the dead agent shared it, lost where it owned it. -/
def lineDead (a key : Nat) (e : DirEntry) (s : State) : State :=
  if e.st = .shared ∧ e.coarse = false ∧ a ∈ e.ptrs then
    if (e.drop a).unheld = true then (s.setEntry key (e.drop a)).delEntry key else s.setEntry key (e.drop a)
  else if e.st = .owned ∧ e.owner = a then markLost key s
  else s

/-- The lines a dead agent shares, and those it owns. -/
def sharedLines (d a : Nat) (s : State) : List Nat :=
  (s.coh.dir.filter fun e => (lineHome s e.1).2 == d && e.2.st == .shared && !e.2.coarse && e.2.ptrs.contains a).map (·.1)

def ownedLines (d a : Nat) (s : State) : List Nat :=
  (s.coh.dir.filter fun e => (lineHome s e.1).2 == d && e.2.st == .owned && e.2.owner == a).map (·.1)

/-- A shared line is dropped, and its entry goes when nobody holds it. -/
def dropLine (a key : Nat) (s : State) : State :=
  let s := modEntry key (·.drop a) s
  if (s.trans key).isNone && (s.entry key).elim false (·.unheld) then s.delEntry key else s

/-- Its snoops count as answered. -/
def deadSnoops (d a : Nat) (s : State) : State :=
  (s.coh.snoops.filter fun e => e.2.domain == d && e.2.agent == a).foldl (fun s e => snoopAnswered e.1 e.2 none e.2.gotWb s) s

/-- What becomes of a dead agent's lines and snoops (R268). -/
def deadLines (d a : Nat) (s : State) : State :=
  let u := (ownedLines d a s).foldl (fun s k => markLost k s) ((sharedLines d a s).foldl (fun s k => dropLine a k s) s)
  cohSettle ((ownedLines d a s).foldl (fun s k => cohRun lineFuel k s) (deadSnoops d a u))

theorem agentDead_lines {d a : Nat} (hlive : s.mem.live = []) (hhosts : s.mem.hosts = []) :
    (agentDead d a s).1 = deadLines d a (agentQuiet d a s) := by
  unfold agentDead
  simp only [hhosts, List.flatMap_nil, List.foldl_nil, List.map_nil, hlive, List.filter_nil]
  rfl

theorem deadSnoops_none {d a : Nat} (h : s.coh.snoops = []) : deadSnoops d a s = s := by
  unfold deadSnoops
  rw [h]
  rfl

theorem cohRun_idle {key : Nat} (h : s.coh.trans = []) (fuel : Nat) : cohRun fuel key s = s := by
  cases fuel with
  | zero => rfl
  | succ fuel =>
    unfold cohRun State.trans
    rw [h]
    rfl

theorem markLost_first {key : Nat} (h : s.coh.lost = []) : markLost key s =
    { s with coh := { s.coh with lost := [key], dir := Tab.del s.coh.dir key } } := by
  unfold markLost
  rw [h]
  rfl

theorem dropLine_shared {a key : Nat} {e : DirEntry} (he : s.entry key = some e) (ht : s.coh.trans = []) : dropLine a key s =
    if (e.drop a).unheld = true then (s.setEntry key (e.drop a)).delEntry key else s.setEntry key (e.drop a) := by
  have hmod : modEntry key (·.drop a) s = s.setEntry key (e.drop a) := by
    unfold modEntry
    rw [he]
  have htrans : (s.setEntry key (e.drop a)).trans key = none := by
    show Tab.get? s.coh.trans key = none
    rw [ht]
    rfl
  have hentry : (s.setEntry key (e.drop a)).entry key = some (e.drop a) := Tab.get?_set_self ..
  unfold dropLine
  dsimp only
  rw [hmod, htrans, hentry]
  rfl

/-- With one line in the directory, only that line can change. -/
theorem deadLines_one {d a key : Nat} {e : DirEntry} (hlive : s.mem.live = []) (htrans : s.coh.trans = []) (hq : s.coh.dieQ = [])
    (hsn : s.coh.snoops = []) (hlost : s.coh.lost = []) (hdir : s.coh.dir = [(key, e)]) (hdom : (lineHome s key).2 = d) :
    deadLines d a s = lineDead a key e s := by
  have hentry : s.entry key = some e := by
    show Tab.get? s.coh.dir key = some e
    rw [hdir, Tab.get?_cons, if_pos rfl]
  have hone : ∀ p : DirEntry → Bool, (s.coh.dir.filter fun x => (lineHome s x.1).2 == d && p x.2).map (·.1) = if p e = true then [key] else [] := by
    intro p
    rw [hdir, List.filter_cons, hdom, beq_self_eq_true, Bool.true_and, List.filter_nil]
    split <;> rfl
  have hshared : sharedLines d a s = if (e.st == .shared && (!e.coarse && e.ptrs.contains a)) = true then [key] else [] := by
    rw [← hone fun e => e.st == .shared && (!e.coarse && e.ptrs.contains a)]
    simp only [sharedLines, Bool.and_assoc]
  have howned : ownedLines d a s = if (e.st == .owned && e.owner == a) = true then [key] else [] := by
    rw [← hone fun e => e.st == .owned && e.owner == a]
    simp only [ownedLines, Bool.and_assoc]
  unfold lineDead deadLines
  dsimp only
  rw [hshared, howned]
  by_cases hs : e.st = .shared ∧ e.coarse = false ∧ a ∈ e.ptrs
  · have h1 : (e.st == .shared && (!e.coarse && e.ptrs.contains a)) = true := by
      rw [hs.1, hs.2.1, List.contains_iff_mem.2 hs.2.2]
      rfl
    have h2 : ¬ (e.st == .owned && e.owner == a) = true := by
      rw [hs.1]
      exact fun h => Bool.noConfusion h
    rw [if_pos hs, if_pos h1, if_neg h2]
    simp only [List.foldl_cons, List.foldl_nil]
    rw [dropLine_shared hentry htrans]
    split
    · rw [deadSnoops_none, cohSettle_idle]
      exacts [hq, hlive, hsn]
    · rw [deadSnoops_none, cohSettle_idle]
      exacts [hq, hlive, hsn]
  · have h1 : ¬ (e.st == .shared && (!e.coarse && e.ptrs.contains a)) = true := by
      simp only [Bool.and_eq_true, beq_iff_eq, Bool.not_eq_true', List.contains_iff_mem]
      exact hs
    rw [if_neg hs, if_neg h1]
    by_cases ho : e.st = .owned ∧ e.owner = a
    · have h2 : (e.st == .owned && e.owner == a) = true := by
        rw [ho.1, ho.2, beq_self_eq_true, beq_self_eq_true]
        rfl
      rw [if_pos ho, if_pos h2]
      simp only [List.foldl_cons, List.foldl_nil]
      rw [markLost_first hlost, deadSnoops_none, cohRun_idle, cohSettle_idle]
      exacts [hq, hlive, htrans, hsn]
    · have h2 : ¬ (e.st == .owned && e.owner == a) = true := by
        simp only [Bool.and_eq_true, beq_iff_eq]
        exact ho
      rw [if_neg ho, if_neg h2]
      simp only [List.foldl_nil]
      rw [deadSnoops_none hsn, cohSettle_idle hq hlive]

theorem lineDead_eq {a key : Nat} {e : DirEntry} (hlost : s.coh.lost = []) (hdir : s.coh.dir = [(key, e)]) : ∃ D L, lineDead a key e s =
    { s with coh := { s.coh with lost := L, dir := D } } ∧ (e.st = .owned → e.owner = a → L = [key] ∧ D = []) ∧
      (e.st = .shared → e.coarse = false → e.ptrs = [a] → L = [] ∧ D = []) ∧ (e.st = .owned → e.owner ≠ a → D = s.coh.dir) := by
  have hdel : ∀ x, Tab.del (Tab.set s.coh.dir key x) key = [] := by
    intro x
    rw [hdir]
    simp [Tab.set, Tab.del]
  unfold lineDead
  by_cases hs : e.st = .shared ∧ e.coarse = false ∧ a ∈ e.ptrs
  · rw [if_pos hs]
    by_cases hu : (e.drop a).unheld = true
    · rw [if_pos hu]
      exact ⟨Tab.del (Tab.set s.coh.dir key (e.drop a)) key, s.coh.lost, rfl, fun h => absurd (h.symm.trans hs.1) (by decide),
        fun _ _ _ => ⟨hlost, hdel _⟩, fun h => absurd (h.symm.trans hs.1) (by decide)⟩
    · rw [if_neg hu]
      refine ⟨Tab.set s.coh.dir key (e.drop a), s.coh.lost, rfl, fun h => absurd (h.symm.trans hs.1) (by decide), fun h1 h2 h3 => absurd ?_ hu,
        fun h => absurd (h.symm.trans hs.1) (by decide)⟩
      unfold DirEntry.drop DirEntry.unheld
      rw [if_neg (by rw [h1]; decide)]
      dsimp only
      rw [h1, h2, h3]
      simp
  · rw [if_neg hs]
    have hno : e.st = .shared → e.coarse = false → e.ptrs ≠ [a] := fun h1 h2 h3 => hs ⟨h1, h2, by rw [h3]; exact List.mem_singleton.2 rfl⟩
    by_cases ho : e.st = .owned ∧ e.owner = a
    · rw [if_pos ho, markLost_first hlost]
      refine ⟨Tab.del s.coh.dir key, [key], rfl, fun _ _ => ⟨rfl, ?_⟩, fun h1 h2 h3 => absurd h3 (hno h1 h2), fun _ h => absurd ho.2 h⟩
      rw [hdir]
      simp [Tab.del]
    · rw [if_neg ho]
      exact ⟨s.coh.dir, s.coh.lost, rfl, fun h1 h2 => absurd ⟨h1, h2⟩ ho, fun h1 h2 h3 => absurd h3 (hno h1 h2), fun _ _ => rfl⟩

theorem agentGone_agent {d a : Nat} {g : Agent} (h : s.agent d a = some g) : (agentQuiet d a s).agent d a = some { g with live := false } := by
  obtain ⟨x, hx, hg⟩ := Option.bind_eq_some_iff.1 h
  have hx' : Tab.get? s.coh.domains d = some x := hx
  show (Tab.get? (Tab.upd s.coh.domains d _) d).bind _ = _
  rw [Tab.get?_upd, if_pos rfl, hx', Option.map_some, Option.bind_some]
  dsimp only
  rw [Tab.get?_upd, if_pos rfl, hg, Option.map_some]

theorem agentDead_body {d a : Nat} (hd : d = byteAt (par r) 0) (ha : a = be (par r) 2 2) {g : Agent} (hl : plen r = 8)
    (hg : s.agent d a = some g) (hlive : g.live = true) : ∃ rp, bodyAgentDead r s =
      { defer (agentDead d a s).1 (.dead d a) with after := fun s => s.workDone (fun w => w == .dead d a) St.ok [rp] } := by
  subst hd ha
  unfold bodyAgentDead
  dsimp only
  rw [checks_pass]
  · generalize agentDead (byteAt (par r) 0) (be (par r) 2 2) s = q
    exact ⟨_, rfl⟩
  · intro c hc
    simp only [List.mem_cons, List.not_mem_nil, or_false] at hc
    rcases hc with rfl | rfl
    · simp [hl]
    · rw [hg, Option.elim_some, hlive]
      rfl

end

/-- Settles O33: each command of a domain, where nothing refuses it, by its own effect. -/
theorem coherenceCommandsTakeEffect : Obligations.CoherenceCommandsTakeEffect := by
  intro t r s u p
  refine ⟨fun d hb hl h0 hadm hret hm htc hd => ?create, fun x a hb hl hx haf hnew hret hn hfence ha => ?add,
    fun x hb hl hx hm => ?mode, fun x hb hl hx ho => ?query, fun g key e hb hl hg hlive h1 h2 h3 h4 h5 h6 h7 hdir hdom => ?dead⟩
  case create =>
    intro x
    exact command_answers hb (domainCreate_body (r := { r with opcode := 0x0701 }) (s := u) hl h0 hadm hret hm htc hd)
  case add =>
    have hbody := agentAdd_body (r := { r with opcode := 0x0702 }) (s := u) hl hx haf hnew hret hn hfence ha
    refine ⟨_, agentAdded (byteAt p 0) a p u, command_answers hb hbody, ?_, rfl, rfl, rfl, fun y hy => ?_, fun h => ?_, fun b hne => ?_, rfl, rfl⟩
    · exact (congrArg (fun o : Option Domain => o.bind fun x => Tab.get? x.agents a) (Tab.get?_set_self ..)).trans (Tab.get?_set_self ..)
    · unfold agentAdded
      rw [hy]
      rfl
    · unfold agentAdded
      rw [h]
      rfl
    · refine (congrArg (fun o : Option Domain => o.bind fun x => Tab.get? x.agents b) (Tab.get?_set_self ..)).trans
        ((Tab.get?_set_ne _ _ (Ne.symm hne)).trans ?_)
      exact (congrArg (fun o : Option Domain => o.bind fun x => Tab.get? x.agents b) hx).symm
  case mode =>
    exact ⟨_, command_answers hb (domainModeSet_body (r := { r with opcode := 0x0704 }) (s := u) hl hx hm),
      (Tab.get?_upd ..).trans ((if_pos rfl).trans (congrArg (Option.map _) hx)), fun d hne => (Tab.get?_upd ..).trans (if_neg (Ne.symm hne)), rfl, rfl⟩
  case query =>
    intro inDom
    exact command_answers hb (domainQuery_body (r := { r with opcode := 0x0705 }) (s := u) hl hx ho)
  case dead =>
    obtain ⟨rp, hbody⟩ := agentDead_body (r := { r with opcode := 0x0703 }) (s := u) rfl rfl hl hg hlive
    obtain ⟨D, L, hline, hown, hsh, hoth⟩ := lineDead_eq (a := be p 2 2) (s := agentQuiet (byteAt p 0) (be p 2 2) u) h6 hdir
    have hdead : (agentDead (byteAt p 0) (be p 2 2) u).1 = _ := (agentDead_lines h1 h2).trans
      ((deadLines_one (s := agentQuiet (byteAt p 0) (be p 2 2) u) rfl h3 h4 h5 h6 hdir hdom).trans hline)
    have hgone : (agentQuiet (byteAt p 0) (be p 2 2) u).agent (byteAt p 0) (be p 2 2) = some { g with live := false } := agentGone_agent hg
    have hpool : (agentQuiet (byteAt p 0) (be p 2 2) u).cis.pool = u.cis.pool := rfl
    have hsame : (agentQuiet (byteAt p 0) (be p 2 2) u).coh.dir = u.coh.dir := rfl
    have hbody' : bodyAgentDead { r with opcode := 0x0703 } u = { defer (agentDead (byteAt p 0) (be p 2 2) u).1
      (.dead (byteAt p 0) (be p 2 2)) with after := fun s => s.workDone (fun w => w == .dead (byteAt p 0) (be p 2 2)) St.ok [rp] } := hbody
    clear hbody
    rw [hdead] at hbody'
    generalize agentQuiet (byteAt p 0) (be p 2 2) u = w at *
    obtain ⟨k, o, ga, co, f, q, hrow⟩ := finish_workDone { r with opcode := 0x0703 } { w with coh := { w.coh with lost := L, dir := D } }
      (.dead (byteAt p 0) (be p 2 2)) (fun w => w == .dead (byteAt p 0) (be p 2 2)) St.ok [rp]
    refine ⟨_, { g with live := false }, (command_begins bodyAgentDead hb).trans (congrArg Host.Outcome.next
      ((congrArg (finish { r with opcode := 0x0703 }) hbody').trans hrow)), hgone, rfl, fun h h' => ?_, fun h h' h'' => ?_,
      fun h h' => (hoth h h').trans hsame, hpool⟩
    · obtain ⟨rfl, rfl⟩ := hown h h'
      exact ⟨by simp [lineLost], rfl⟩
    · obtain ⟨rfl, rfl⟩ := hsh h h' h''
      exact ⟨by simp [lineLost, State.entry], rfl⟩

end Sys2Proof.Machine
end

section
/-! RULES. With nothing waiting for an event to go on, what follows an event does nothing (06 R191, 07 R236, 08 R262). -/

namespace Sys2Proof.Machine

section
variable {s : State}

/-- Nothing under way waits: for a turn, a release, a gathering or a hold. -/
def State.unhurried (s : State) : Prop :=
  s.coh.dieQ = [] ∧ (∀ e ∈ s.coh.trans, e.2.waits = []) ∧
    ∀ e ∈ s.mem.live, e.2.waits = [] ∧ e.2.stage ≠ 6 ∧ e.2.stage ≠ 8 ∧ e.2.stage ≠ 9 ∧ e.2.stage < 10

theorem State.unhurried_of_calm (hc : s.calm) (hl : s.mem.live = []) : s.unhurried := by
  obtain ⟨-, hcoh⟩ := hc
  refine ⟨by rw [hcoh], fun e he => ?_, fun e he => ?_⟩
  · rw [hcoh] at he
    exact absurd he List.not_mem_nil
  · rw [hl] at he
    exact absurd he List.not_mem_nil

theorem filter_live_none {p : Nat × Live → Bool} (h : ∀ e ∈ s.mem.live, p e = false) : s.mem.live.filter p = [] :=
  List.filter_eq_nil_iff.2 fun e he => by rw [h e he]; decide

theorem cohSettle_still (hq : s.coh.dieQ = []) (hl : ∀ e ∈ s.mem.live, e.2.stage ≠ 6) : cohSettle s = s := by
  have hno : (s.mem.live.any fun e => e.2.stage == 6) = false :=
    List.any_eq_false.2 fun e he h => hl e he (beq_iff_eq.1 h)
  unfold cohSettle
  refine List.foldlRecOn (motive := fun u => u = s) (List.range 4) _ rfl fun u hu _ _ => ?_
  rw [hu, hq, hno]
  rfl

theorem freeHolds_still (hk : s.mem.locks = []) (ht : ∀ e ∈ s.coh.trans, e.2.waits = []) (hl : ∀ e ∈ s.mem.live, e.2.waits = []) :
    freeHolds s = s := by
  have hsame : ({ s with mem := { s.mem with locks := s.mem.locks.filter fun e => !lockStale s e.2 } } : State) = s := by
    have hnil : (s.mem.locks.filter fun e => !lockStale s e.2) = s.mem.locks := by
      rw [hk]
      rfl
    rw [hnil]
  unfold freeHolds
  dsimp only
  rw [hsame, List.flatMap_eq_nil_iff.2 hl, List.flatMap_eq_nil_iff.2 ht]
  rfl

theorem planAnew_still (hl : ∀ e ∈ s.mem.live, e.2.stage < 10) : planAnew s = s := by
  unfold planAnew
  rw [filter_live_none fun e he => decide_eq_false (Nat.not_le.2 (hl e he))]
  rfl

theorem startTurns_still (hl : ∀ e ∈ s.mem.live, e.2.stage ≠ 8) : startTurns s = s := by
  unfold startTurns
  rw [filter_live_none fun e he => beq_eq_false_iff_ne.2 (hl e he)]
  rfl

theorem releaseHeld_still (hl : ∀ e ∈ s.mem.live, e.2.stage ≠ 9) : releaseHeld s = s := by
  unfold releaseHeld
  rw [filter_live_none fun e he => by rw [beq_eq_false_iff_ne.2 (hl e he)]; rfl]
  rfl

theorem prefetchGo_still (hw : ∀ e ∈ s.cis.pages, e.2.want = 0) : prefetchGo s = s := by
  have hnil : (s.cis.pages.filter fun e => e.2.want != 0) = [] := List.filter_eq_nil_iff.2 fun e he => by rw [hw e he]; decide
  unfold prefetchGo
  rw [hnil]
  rfl

theorem prefetchPages_still (hp : s.cis.prefetch = []) (hw : ∀ e ∈ s.cis.pages, e.2.want = 0) : prefetchPages s = s := by
  have hsame : ({ s with cis := { s.cis with prefetch := [] } } : State) = s := by rw [← hp]
  unfold prefetchPages
  dsimp only
  rw [hp, List.foldl_nil, hsame, prefetchGo_still hw]

theorem detachDone_still (hd : ∀ e ∈ s.mem.trays, e.2.detaching = false) : detachDone s = s := by
  have hnil : (s.mem.trays.filter fun e => e.2.detaching) = [] := List.filter_eq_nil_iff.2 fun e he => by rw [hd e he]; decide
  unfold detachDone
  rw [hnil]
  rfl

/-- Where nothing waits, an event is settled as it stands. -/
theorem settle_still (hs : s.still) (hu : s.unhurried) : settle s = s := by
  obtain ⟨-, -, -, hlocks, hpre, hwant, hdet⟩ := hs
  obtain ⟨hq, ht, hl⟩ := hu
  unfold settle
  rw [cohSettle_still hq fun e he => (hl e he).2.1, freeHolds_still hlocks ht fun e he => (hl e he).1,
    planAnew_still fun e he => (hl e he).2.2.2.2, startTurns_still fun e he => (hl e he).2.2.1,
    releaseHeld_still fun e he => (hl e he).2.2.2.1, prefetchPages_still hpre hwant, detachDone_still hdet]

theorem settle_calm (hc : s.calm) (hl : s.mem.live = []) : settle s = s := settle_still hc.1 (State.unhurried_of_calm hc hl)

end

end Sys2Proof.Machine
end

section
/-! PROOFS. A reply on a plain port, and a reply kept (02 R39, R53). -/

namespace Sys2Proof.Machine

section
variable {s : State} {r : KReq} {key : Key} {st : Nat} {frags : List Bytes}

/-- A session that holds a key at a packet's arrival holds it when its command runs. -/
theorem sessKey_of_begins {op : Nat} {t : Time} (hb : begins op t r s = true) : ∃ key, (taken r t s).sessKey r.sess = some key := by
  have hset : ∀ (u : State) (v : Session), (u.setSession r.sess v).sessKey r.sess = u.sessKey r.sess := fun u v => by
    cases r.sess <;> rfl
  simp only [begins, arrives, Bool.and_eq_true] at hb
  obtain ⟨⟨⟨⟨⟨⟨hkey, -⟩, -⟩, -⟩, -⟩, -⟩, -⟩ := hb
  obtain ⟨key, hkey⟩ := Option.isSome_iff_exists.1 hkey
  refine ⟨key, ?_⟩
  rw [taken, hset, hset, State.tick_sessKey]
  exact hkey

/-- A command begins with the controller ready and nothing executing. -/
theorem taken_free {op : Nat} {t : Time} (hb : begins op t r s = true) :
    (taken r t s).kry.ready = true ∧ (taken r t s).kry.executing = none := by
  obtain ⟨hcan, -⟩ := taken_begin r t s
  simp only [begins, Bool.and_eq_true] at hb
  obtain ⟨⟨⟨⟨-, hb⟩, -⟩, -⟩, -⟩ := hb
  rw [← hcan, State.canBegin, Bool.and_eq_true] at hb
  exact ⟨hb.1, Option.isNone_iff_eq_none.1 hb.2⟩

/-- The answer to a packet of a session with a key is kept under its SEQUENCE. -/
theorem State.answer_kept (hk : s.sessKey r.sess = some key) :
    Tab.get? ((s.answer r (some key) st frags).session r.sess).cache r.seq = some [mkReply r (some key) st frags] := by
  have hsend : ∀ (u : State) (rp : Reply), (u.sendReply rp).session r.sess = u.session r.sess := fun u rp => by
    obtain ⟨o, g, c, f, p, h⟩ := State.sendReply_step (s := u) rp
    rw [h]
    cases r.sess <;> rfl
  have hcache : s.cacheReply r (mkReply r (some key) st frags) =
      s.setSession r.sess ((s.session r.sess).put (r.seq :: r.seqs) [mkReply r (some key) st frags]) :=
    if_pos (by rw [hk]; rfl)
  unfold State.answer
  dsimp only
  rw [hcache, hsend, State.session_setSession_self, Session.get?_put_head]

/-- The reply of a port that keeps none back leaves, and changes no port and no key. -/
theorem sendReply_plain {rp : Reply} (hk : rp.key.isSome = true) (hu : s.portUp rp.port = true) (hp : s.plainPort rp.port)
    (hh : s.halted = false) (hc : s.confidential rp.levee = false) :
    ∃ g f, s.sendReply rp = { s with out := s.out ++ [.krytic rp], gauges := g, fresh := f } := by
  rw [sendReply_up hk hu hh hc]
  split
  next h512 =>
    obtain ⟨hall, hports, -⟩ := controlFrames_of_no_sa (s := s) (net := rp.net) (fs := rp.frags) (hp.resolve_left (Nat.not_lt.2 h512))
    obtain ⟨g, f, p, hw⟩ := controlFrames_step rp.net rp.port rp.frags s
    rw [hw] at hports
    have hports' : p = s.ports := hports
    rw [controlReply_all hall, hw, hports']
    exact ⟨g, f, rfl⟩
  next => exact ⟨s.gauges, s.fresh, rfl⟩

theorem State.answer_plain (hu : s.portUp r.port = true) (hp : s.plainPort r.port) (hh : s.halted = false)
    (hc : s.confidential r.levee = false) : ∃ k g f, Krytic.underWayAs k s.kry ∧ s.answer r (some key) st frags =
      { s with out := s.out ++ [.krytic (mkReply r (some key) st frags)], gauges := g, fresh := f, kry := k } := by
  have hcache : ∃ k, Krytic.underWayAs k s.kry ∧ s.cacheReply r (mkReply r (some key) st frags) = { s with kry := k } := by
    unfold State.cacheReply
    split
    · obtain ⟨k, hk⟩ := State.setSession_eq s r.sess ((s.session r.sess).put (r.seq :: r.seqs) [mkReply r (some key) st frags])
      refine ⟨k, ?_, hk⟩
      have hu := setSession_underWayAs s r.sess ((s.session r.sess).put (r.seq :: r.seqs) [mkReply r (some key) st frags])
      rwa [hk] at hu
    · exact ⟨s.kry, Krytic.underWayAs_refl _, rfl⟩
  obtain ⟨k, hk, hs⟩ := hcache
  obtain ⟨g, f, hv⟩ := sendReply_plain (s := { s with kry := k }) (rp := mkReply r (some key) st frags) rfl hu hp hh hc
  refine ⟨k, g, f, hk, ?_⟩
  unfold State.answer
  dsimp only
  rw [hs, hv]

/-- A plain port spends no packet number. -/
theorem State.mayReply_of_plain {p : Nat} (h : s.plainPort p) : s.mayReply p := by
  refine h.imp_right fun hsa => ?_
  rw [Port.pnSpent, hsa]
  rfl

/-- A reply without parameters is one of an empty packet. -/
theorem State.workDone_nil (s : State) (w : Work → Bool) (st : Nat) : s.workDone w st [] = s.workDone w st [[]] := by
  have hfinal : ∀ (u : State) (x : Running), u.finalReply x st [] = u.finalReply x st [[]] := fun _ _ => rfl
  unfold State.workDone
  simp only [hfinal]

/-- A command deferred whose work is looked at once its reply has left: the reply, and the command under way. -/
theorem finish_deferred {after : State → State} {w : Work} (hk : s.sessKey r.sess = some key) :
    finish r { defer s w with after := after } = after { s.answer r (some key) St.deferred [] with
      kry := { (s.answer r (some key) St.deferred []).kry with
        deferred := (s.answer r (some key) St.deferred []).kry.deferred ++ [{ req := r, key := some key, work := w }] } } := by
  rw [← hk]
  rfl

end

end Sys2Proof.Machine
end

section
/-! PROOFS. Allotments, water rights, trays and hints as their commands give them (06 R182–R189, R205–R210, 07 R225). -/

namespace Sys2Proof.Machine

section
variable {r : KReq} {s : State}

/-! ### Allotments -/

/-- What ALLOT_CREATE asks of the state and its fields before the guard of its tray ranges (06 R184). -/
structure AllotMay (s : State) (p : Bytes) (x : Allot) : Prop where
  levee : x.levee ≠ 0
  quota : ∃ l, Tab.get? s.sec.levees x.levee = some l ∧ l.retiring = false ∧
    (s.mem.allots.filter fun e => e.2.levee == x.levee).length < l.maxAllot
  fields : allotBad s p x = false
  table : (s.table 9).st = .ready ∧ (s.table 9).pending = false
  frames : x.place = 0 → x.size / mib2 ≤ s.freeFrames x.home ∧
    useTiles s x.home x.levee + 512 * (x.size / mib2) ≤ 512 * s.quota x.home x.levee

theorem allotCreate_body {x : Allot} {a : Nat} (hx : x = parseAllot s (par r)) (hl : plen r = 48) (h : AllotMay s (par r) x)
    (ha : Tab.lowestFree s.mem.allots 65536 = some a) : bodyAllotCreate r s = match allotGuard s x with
      | some inv => guardReject s r x.levee inv
      | none => done ((s.setAllot a x).setXl (1 - (s.table 9).active) (s.xl (1 - (s.table 9).active) ++ [a])) [toBe 2 a ++ zeros 6] := by
  subst hx
  obtain ⟨l, hlev, hret, hmax⟩ := h.quota
  unfold bodyAllotCreate
  dsimp only
  rw [ha, checks_pass]
  · rfl
  · intro c hc
    simp only [List.mem_cons, List.not_mem_nil, or_false] at hc
    rcases hc with rfl | rfl | rfl | rfl | rfl | rfl
    · simp [hl]
    · rw [leveeBad, beq_eq_false_iff_ne.2 h.levee, State.admitted, hlev, h.fields]
      simp
    · rw [State.retiring, hlev]
      exact hret
    · dsimp only
      rw [h.table.1, h.table.2]
      rfl
    · dsimp only
      rw [hlev, Option.elim_some, decide_eq_false (Nat.not_le.2 hmax)]
      rfl
    · dsimp only
      by_cases hp : (parseAllot s (par r)).place = 0
      · obtain ⟨h1, h2⟩ := h.frames hp
        rw [decide_eq_false (Nat.not_lt.2 h1), decide_eq_false (Nat.not_lt.2 h2)]
        exact Bool.and_false _
      · rw [beq_eq_false_iff_ne.2 hp]
        rfl

/-- Reply parameters of whole words in one packet stand as they are. -/
theorem replyParams_whole {r : KReq} {f : Bytes} (hop : (opInfo r.opcode).elim false (·.frag) = false) (h : f.length % 8 = 0) :
    replyParams r [f] = [f] := by
  have hpad : pad8 f = f := by
    unfold pad8
    rw [h]
    exact List.append_nil f
  unfold replyParams
  rw [hop]
  exact congrArg (fun x => [x]) hpad

/-- A command stopped by a guard: its reply names the invariant and is kept. -/
theorem guardReject_finish {op inv l : Nat} {key : Key} (hk : s.sessKey r.sess = some key) :
    let v := finish { r with opcode := op } (guardReject s { r with opcode := op } l inv)
    Tab.get? (v.session r.sess).cache r.seq = some [mkReply { r with opcode := op } (some key) St.guardReject [toBe 2 inv ++ zeros 6]] ∧
      v.mem = s.mem := by
  obtain ⟨b, ln, d, g, hled⟩ := State.ledger_buffers s 0x0020 (srcOf 7 l) (recBody [(32, 2, op), (34, 2, l), (36, 2, inv)])
  have hkey : (s.ledger 0x0020 (srcOf 7 l) (recBody [(32, 2, op), (34, 2, l), (36, 2, inv)])).sessKey r.sess = some key := by
    rw [hled, ← hk]
    cases r.sess <;> rfl
  have hrow : finish { r with opcode := op } (guardReject s { r with opcode := op } l inv) =
      (s.ledger 0x0020 (srcOf 7 l) (recBody [(32, 2, op), (34, 2, l), (36, 2, inv)])).answer { r with opcode := op } (some key) St.guardReject
        [toBe 2 inv ++ zeros 6] := by
    rw [← hkey]
    rfl
  intro v
  refine ⟨?_, ?_⟩
  · exact (congrArg (fun u : State => Tab.get? (u.session r.sess).cache r.seq) hrow).trans
      (State.answer_kept (r := { r with opcode := op }) hkey)
  · obtain ⟨k, -, o, ga, c, f, p, hv⟩ := State.answer_answered (s.ledger 0x0020 (srcOf 7 l) (recBody [(32, 2, op), (34, 2, l), (36, 2, inv)]))
      { r with opcode := op } (some key) St.guardReject [toBe 2 inv ++ zeros 6]
    show (finish _ _).mem = s.mem
    rw [hrow, hv, hled]

theorem allotQuery_body (hl : plen r = 8) (hown : ∀ l, tenant r = some l → ∃ x, s.allot (be (par r) 0 2) = some x ∧ x.levee = l) :
    bodyAllotQuery r s = (s.allot (be (par r) 0 2)).elim (done s [zeros 24]) fun x =>
      done s [toBe 1 x.st.code ++ toBe 1 x.home ++ toBe 1 x.place ++ toBe 1 x.flags ++ toBe 4 x.inflight ++ toBe 8 x.pva ++
        toBe 8 x.size] := by
  unfold bodyAllotQuery
  dsimp only
  rw [checks_pass]
  · cases s.allot (be (par r) 0 2) <;> rfl
  · intro c hc
    simp only [List.mem_cons, List.not_mem_nil, or_false] at hc
    rcases hc with rfl | rfl
    · simp [hl]
    · dsimp only
      cases ht : tenant r with
      | none => rfl
      | some l =>
        obtain ⟨x, hx, hlev⟩ := hown l ht
        rw [hx, Option.elim_some, Option.elim_some, hlev, beq_self_eq_true]
        rfl

/-! ### Revocation -/

theorem lockRevoked_idle (h : s.flt.lock ≠ .loading) : lockRevoked s = s := by
  unfold lockRevoked
  split
  next hl _ => exact absurd hl h
  next => rfl

theorem allotRevoke_body {x : Allot} (hl : plen r = 8) (ht : be (par r) 4 4 ≤ 1000) (hx : s.allot (be (par r) 0 2) = some x)
    (hst : x.st = .active ∨ x.st = .pending) : bodyAllotRevoke r s =
      if x.st = .pending then done (dropPending (be (par r) 0 2) s) [zeros 8]
      else { s := settle (revokeCommit (be (par r) 0 2) (be (par r) 4 4) s), status := St.ok, work := some (.revoke (be (par r) 0 2) 0 0) } := by
  unfold bodyAllotRevoke
  dsimp only
  rw [hx, checks_pass]
  intro c hc
  simp only [List.mem_cons, List.not_mem_nil, or_false] at hc
  rcases hc with rfl | rfl
  · simp [hl]
  · dsimp only
    rw [decide_eq_false (Nat.not_lt.2 ht), Option.elim_some]
    rcases hst with h | h <;> rw [h] <;> rfl

/-- A PENDING allotment is dropped at once. -/
theorem revoke_pending_body {x : Allot} (hl : plen r = 8) (ht : be (par r) 4 4 ≤ 1000) (hx : s.allot (be (par r) 0 2) = some x)
    (hst : x.st = .pending) (hlock : s.flt.lock ≠ .loading) : bodyRevoke r s = done (dropPending (be (par r) 0 2) s) [zeros 8] := by
  have hdrop : (dropPending (be (par r) 0 2) s).flt = s.flt := by
    unfold dropPending emptyCistern
    rw [hx]
    dsimp only
    split <;> rfl
  have hrow : bodyRevokeWork r s = done (dropPending (be (par r) 0 2) s) [zeros 8] := by
    unfold bodyRevokeWork
    dsimp only
    rw [(allotRevoke_body hl ht hx (.inr hst)).trans (if_pos hst)]
    rfl
  unfold bodyRevoke
  rw [hrow]
  exact congrArg (fun u => done u [zeros 8]) (lockRevoked_idle (s := dropPending (be (par r) 0 2) s) (by rw [hdrop]; exact hlock))

/-- What the revocation of an allotment leaves of a state where nothing waits: the allotment REVOKING, its pages' dirt gone. -/
def revokeMark (a timeout : Nat) (s : State) : State :=
  { s.modAllot a fun x => { x with st := .revoking, revokeBy := s.now + us (revokeUs s timeout) } with
    cis := { s.cis with pages := s.cis.pages.map fun (e : Nat × Page) =>
      if e.1 / 2 ^ 28 = a then
        (e.1, { e.2 with dirty := 0, since := [], pinned := false, evict := false, pendHint := none, want := 0 })
      else e } }

theorem revokeCommit_calm {a timeout : Nat} (hc : s.calm) (hl : s.mem.live = []) (hh : s.mem.hosts = []) :
    revokeCommit a timeout s = revokeMark a timeout s := by
  obtain ⟨⟨hreg, -, -, -, hpre, -, -⟩, hcoh⟩ := hc
  have hheld : ∀ u : State, u.mem.hosts = [] → heldRevoked a u = u := fun u hu => by
    have hsame : ({ u with mem := { u.mem with hosts := [] } } : State) = u := by rw [← hu]
    unfold heldRevoked
    dsimp only
    rw [hu]
    exact hsame
  have hlines : ∀ u : State, u.coh = {} → u.mem.live = [] → revokeLines a u = u := fun u hu hlu => by
    have hsame : ({ u with coh := { u.coh with lost := u.coh.lost.filter fun k => keyAllot k != a } } : State) = u := by
      rw [hu]
      show ({ u with coh := {} } : State) = u
      rw [← hu]
    unfold revokeLines
    dsimp only
    rw [hsame, hu]
    exact cohSettle_still (s := u) (by rw [hu]) fun e he => by rw [hlu] at he; exact absurd he List.not_mem_nil
  have hregion : ∀ u : State, u.cis.regions = [] → regionOf u a = none := fun u hu => by
    unfold regionOf
    rw [hu]
    rfl
  have hprefetch : (s.cis.prefetch.filter fun q => q.page / 2 ^ 28 != a) = s.cis.prefetch := by
    rw [hpre]
    rfl
  unfold revokeCommit
  dsimp only
  rw [hheld, hregion]
  · dsimp only
    refine Eq.trans (hlines _ ?_ ?_) ?_
    · exact hcoh
    · exact hl
    show ({ s.modAllot a _ with cis := { s.cis with prefetch := s.cis.prefetch.filter fun q => q.page / 2 ^ 28 != a, pages := _ } } : State) = _
    rw [hprefetch]
    rfl
  · exact hreg
  · exact hh

theorem revokeMark_still {a timeout : Nat} (h : s.still) : (revokeMark a timeout s).still := by
  obtain ⟨h1, h2, h3, h4, h5, hw, h7⟩ := h
  refine ⟨h1, h2, h3, h4, h5, fun e he => ?_, h7⟩
  obtain ⟨e', he', rfl⟩ := List.mem_map.1 he
  split
  · rfl
  · exact hw e' he'

/-- The revocation of an ACTIVE allotment goes on until its requests are over. -/
theorem revoke_active_body {x : Allot} (hl : plen r = 8) (ht : be (par r) 4 4 ≤ 1000) (hx : s.allot (be (par r) 0 2) = some x)
    (hst : x.st = .active) (hlock : s.flt.lock ≠ .loading) (hg : s.col.groups = []) (hlive : s.mem.live = []) (hh : s.mem.hosts = [])
    (hc : s.calm) : bodyRevoke r s =
      { s := revokeMark (be (par r) 0 2) (be (par r) 4 4) s, status := St.ok, work := some (.revoke (be (par r) 0 2) 0 0) } := by
  have hsettle : settle (revokeCommit (be (par r) 0 2) (be (par r) 4 4) s) = revokeMark (be (par r) 0 2) (be (par r) 4 4) s := by
    rw [revokeCommit_calm hc hlive hh]
    exact settle_calm ⟨revokeMark_still hc.1, hc.2⟩ hlive
  have hbody := allotRevoke_body hl ht hx (.inl hst)
  rw [if_neg (by rw [hst]; decide), hsettle] at hbody
  have hgroups : groupProgress (revokeMark (be (par r) 0 2) (be (par r) 4 4) s) = revokeMark (be (par r) 0 2) (be (par r) 4 4) s := by
    unfold groupProgress
    rw [show (revokeMark (be (par r) 0 2) (be (par r) 4 4) s).col.groups = [] from hg]
    rfl
  have hrow : bodyRevokeWork r s =
      { s := revokeMark (be (par r) 0 2) (be (par r) 4 4) s, status := St.ok, work := some (.revoke (be (par r) 0 2) 0 0) } := by
    unfold bodyRevokeWork
    dsimp only
    rw [hbody, hg]
    refine (if_pos ⟨rfl, rfl⟩).trans ?_
    show ({ s := groupProgress (revokeMark (be (par r) 0 2) (be (par r) 4 4) s), status := _, work := _ } : Ans) = _
    rw [hgroups]
  unfold bodyRevoke
  rw [hrow]
  show ({ s := lockRevoked (revokeMark (be (par r) 0 2) (be (par r) 4 4) s), status := _, work := _ } : Ans) = _
  rw [lockRevoked_idle (s := revokeMark (be (par r) 0 2) (be (par r) 4 4) s) hlock]

/-! ### Water rights -/

/-- The right WATER_RIGHT_SET gives (06 R207). -/
def rightGiven (p : Bytes) (now : Time) : Right :=
  { die := byteAt p 2, levee := be p 0 2 % 1024, host := ⟨byteAt p 3, be p 4 16⟩, rate := be p 20 4, burst := be p 24 4, out := be p 28 2,
    full := byteAt p 30 == 1, since := now }

theorem waterRight_body (hl : plen r = 32) (h0 : be (par r) 0 2 % 1024 ≠ 0) (hadm : s.admitted (be (par r) 0 2 % 1024) = true)
    (hret : s.retiring (be (par r) 0 2 % 1024) = false) (hd : byteAt (par r) 2 ≤ 1)
    (haf : byteAt (par r) 3 = 0 ∧ be (par r) 4 16 = 0 ∨ byteAt (par r) 3 = 4 ∧ be (par r) 4 12 = 0 ∨ byteAt (par r) 3 = 6)
    (hrate : be (par r) 20 4 ≤ 204800) (hb1 : 65536 ≤ be (par r) 24 4) (hb2 : be (par r) 24 4 ≤ 67108864) (ho1 : 1 ≤ be (par r) 28 2)
    (ho2 : be (par r) 28 2 ≤ 4096) (hfull : byteAt (par r) 30 = 1 ∨ byteAt (par r) 30 = 2)
    (hroom : (s.mem.rights.filter fun y => y.die == byteAt (par r) 2 && y.host.af != 0).length < 16384) :
    bodyWaterRightSet r s = done (setRight (rightGiven (par r) s.now) (bitOf (byteAt (par r) 31) 0) s) := by
  have hone : (if byteAt (par r) 2 = 2 then [0, 1] else [byteAt (par r) 2]) = [byteAt (par r) 2] := if_neg (by omega)
  unfold bodyWaterRightSet
  dsimp only
  rw [hone, checks_pass]
  · rfl
  · intro c hc
    simp only [List.mem_cons, List.not_mem_nil, or_false] at hc
    rcases hc with rfl | rfl | rfl | rfl | rfl
    · simp [hl]
    · dsimp only
      rw [leveeBad, beq_eq_false_iff_ne.2 h0, hadm, decide_eq_false (show ¬ 2 < byteAt (par r) 2 by omega)]
      rcases haf with ⟨h1, h2⟩ | ⟨h1, h2⟩ | h1
      · rw [h1, h2]
        rfl
      · rw [h1, h2]
        rfl
      · rw [h1]
        rfl
    · dsimp only
      rw [decide_eq_false (Nat.not_lt.2 hrate), decide_eq_false (Nat.not_lt.2 hb1), decide_eq_false (Nat.not_lt.2 hb2),
        beq_eq_false_iff_ne.2 (Nat.one_le_iff_ne_zero.1 ho1), decide_eq_false (Nat.not_lt.2 ho2)]
      rcases hfull with h | h <;> rw [h] <;> rfl
    · exact hret
    · dsimp only
      rw [List.any_cons, List.any_nil, decide_eq_false (Nat.not_le.2 hroom), Bool.false_and, Bool.or_false, Bool.and_false]

section
variable (x : Right) (del : Bool)

/-- Two entries of the rights are of the same host on the same die. -/
def Right.same (x y : Right) : Bool := y.die == x.die && y.levee == x.levee && y.host == x.host

theorem setRight_rights : (setRight x del s).mem.rights = (s.mem.rights.filter fun y => !x.same y) ++ if del then [] else [x] := by
  have hset : ∀ (h : HostState) (u : State), (setHost h u).mem.rights = u.mem.rights := fun _ _ => rfl
  have hu : (if x.host.af = 0 then s else setHost (hostOf s x.die x.levee x.host) s).mem.rights = s.mem.rights := by
    split
    · rfl
    · exact hset _ _
  unfold setRight
  dsimp only
  rw [hu]
  cases del
  · rfl
  · exact (List.append_nil _).symm

theorem setRight_rest : (setRight x del s).mem.allots = s.mem.allots ∧ (setRight x del s).cis = s.cis := by
  have hset : ∀ (h : HostState) (u : State), (setHost h u).mem.allots = u.mem.allots ∧ (setHost h u).cis = u.cis := fun _ _ => ⟨rfl, rfl⟩
  unfold setRight
  dsimp only
  split
  · exact ⟨rfl, rfl⟩
  · exact hset _ _

/-- A search of the rights for entries the change does not touch. -/
theorem find_rights {p : Right → Bool} (hp : ∀ y, p y = true → x.same y = false) :
    (setRight x del s).mem.rights.find? p = s.mem.rights.find? p := by
  have hx : p x = false := Bool.eq_false_iff.2 fun h => by
    have := hp x h
    simp [Right.same] at this
  have hrest : (if del = true then [] else [x]).find? p = none := by
    split
    · rfl
    · rw [List.find?_cons_of_neg (by rw [hx]; decide)]
      rfl
  rw [setRight_rights, List.find?_append, hrest, Option.or_none, List.find?_filter]
  congr 1
  funext y
  by_cases hy : p y = true
  · rw [hy, hp y hy]
    rfl
  · rw [Bool.eq_false_iff.2 hy]
    simp

theorem rightOf_setRight_ne {d l : Nat} (h : Ip) (hne : d ≠ x.die ∨ l ≠ x.levee) : rightOf (setRight x del s) d l h = rightOf s d l h := by
  have hfind : ∀ q : Right → Bool, (setRight x del s).mem.rights.find? (fun y => y.die == d && y.levee == l && q y) =
      s.mem.rights.find? fun y => y.die == d && y.levee == l && q y := fun q => find_rights x del fun y hy => by
    simp only [Bool.and_eq_true, beq_iff_eq] at hy
    obtain ⟨⟨rfl, rfl⟩, -⟩ := hy
    unfold Right.same
    rcases hne with hd | hl
    · rw [beq_eq_false_iff_ne.2 hd]
      rfl
    · rw [beq_eq_false_iff_ne.2 hl, Bool.and_false]
      rfl
  unfold rightOf
  rw [hfind, hfind]

theorem rightOf_setRight_self : rightOf (setRight x false s) x.die x.levee x.host = x := by
  have hnone : (s.mem.rights.filter fun y => !x.same y).find? (x.same ·) = none :=
    List.find?_eq_none.2 fun y hy h => by
      have := (List.mem_filter.1 hy).2
      rw [h] at this
      contradiction
  have hself : x.same x = true := by simp [Right.same]
  have hfind : (setRight x false s).mem.rights.find? (fun y => y.die == x.die && y.levee == x.levee && y.host == x.host) = some x := by
    show (setRight x false s).mem.rights.find? (x.same ·) = some x
    rw [setRight_rights, List.find?_append, hnone, if_neg (by decide), List.find?_cons_of_pos (p := (x.same ·)) hself]
    rfl
  unfold rightOf
  rw [hfind]

theorem rights_of_deleted : ∀ y ∈ (setRight x true s).mem.rights, x.same y = false := by
  intro y hy
  rw [setRight_rights, if_pos rfl, List.append_nil] at hy
  exact (Bool.not_eq_true' _).mp (List.mem_filter.1 hy).2

theorem hostOf_key (d l : Nat) (h : Ip) : (hostOf s d l h).die = d ∧ (hostOf s d l h).levee = l ∧ (hostOf s d l h).host = h := by
  unfold hostOf
  split
  next y hy =>
    have := List.find?_some hy
    simp only [Bool.and_eq_true, beq_iff_eq] at this
    exact ⟨this.1.1, this.1.2, this.2⟩
  next => exact ⟨rfl, rfl, rfl⟩

/-- What a new right makes of a host's bucket. -/
def rightTouch (touch : HostState → Bool) (right : HostState → Right) (full : Bool) (now : Time) (h : HostState) : HostState :=
  if touch h then { h with tokens := (right h).start full, last := now } else h

/-- A host named by its own entry has its bucket set. -/
theorem hostOf_setRight (haf : x.host.af ≠ 0) (hfull : x.full = false) : (hostOf (setRight x del s) x.die x.levee x.host).tokens = 0 := by
  have hhosts : ∃ touch right, (∀ h : HostState, h.die = x.die → h.levee = x.levee → h.host = x.host → touch h = true) ∧
      (setRight x del s).mem.hosts = ((s.mem.hosts.filter fun y => !(y.die == (hostOf s x.die x.levee x.host).die &&
        y.levee == (hostOf s x.die x.levee x.host).levee && y.host == (hostOf s x.die x.levee x.host).host)) ++
          [hostOf s x.die x.levee x.host]).map (rightTouch touch right x.full s.now) := by
    unfold setRight
    dsimp only
    rw [if_neg haf]
    refine ⟨_, _, fun h h1 h2 h3 => ?_, rfl⟩
    rw [if_neg haf, h1, h2, h3, beq_self_eq_true, beq_self_eq_true, beq_self_eq_true]
    rfl
  obtain ⟨touch, right, htouch, hhosts⟩ := hhosts
  obtain ⟨k1, k2, k3⟩ := hostOf_key (s := s) x.die x.levee x.host
  let p (h : HostState) : Bool := h.die == x.die && h.levee == x.levee && h.host == x.host
  have hp : p ∘ rightTouch touch right x.full s.now = p := by
    funext h
    show p (rightTouch touch right x.full s.now h) = p h
    unfold rightTouch
    split <;> rfl
  have hself : p (hostOf s x.die x.levee x.host) = true := by
    show ((hostOf s x.die x.levee x.host).die == x.die && (hostOf s x.die x.levee x.host).levee == x.levee &&
      (hostOf s x.die x.levee x.host).host == x.host) = true
    rw [k1, k2, k3, beq_self_eq_true, beq_self_eq_true, beq_self_eq_true]
    rfl
  have hnone : (s.mem.hosts.filter fun y => !(y.die == x.die && y.levee == x.levee && y.host == x.host)).find? p = none :=
    List.find?_eq_none.2 fun y hy h => by
      have := (List.mem_filter.1 hy).2
      rw [show (y.die == x.die && y.levee == x.levee && y.host == x.host) = true from h] at this
      contradiction
  have hfind : (setRight x del s).mem.hosts.find? p = some (rightTouch touch right x.full s.now (hostOf s x.die x.levee x.host)) := by
    rw [hhosts, k1, k2, k3, List.find?_map, hp, List.find?_append, hnone, List.find?_cons_of_pos hself]
    rfl
  have hrow : hostOf (setRight x del s) x.die x.levee x.host = rightTouch touch right x.full s.now (hostOf s x.die x.levee x.host) := by
    show (match (setRight x del s).mem.hosts.find? p with | some h => h | none => _) = _
    rw [hfind]
  rw [hrow, rightTouch, if_pos (htouch _ k1 k2 k3), hfull]
  rfl

end

/-! ### Trays -/

/-- The tray TRAY_ATTACH gives (06 R210). -/
def trayGiven (p : Bytes) : Tray :=
  { port := be p 0 2, addr := ⟨byteAt p 2, be p 4 16⟩, qpn := be p 20 3, rkey := be p 24 4, base := be p 28 8, length := be p 36 8,
    maxOut := be p 44 2 }

theorem trayAttach_body {n : Nat} (hl : plen r = 56) (hp : be (par r) 0 2 ≤ 511) (he : s.portExists (be (par r) 0 2) = true)
    (haf : byteAt (par r) 2 = 4 ∧ be (par r) 4 12 = 0 ∨ byteAt (par r) 2 = 6) (h0 : 0 < be (par r) 36 8) (hm : be (par r) 36 8 % mib2 = 0)
    (ho1 : 1 ≤ be (par r) 44 2) (ho2 : be (par r) 44 2 ≤ 4096) (hn : Tab.lowestFree s.mem.trays 256 = some n) : bodyTrayAttach r s =
      done { s with mem := { s.mem with trays := Tab.set s.mem.trays n (trayGiven (par r)), occ := Tab.del s.mem.occ n } }
        [toBe 2 n ++ zeros 6] := by
  unfold bodyTrayAttach
  dsimp only
  rw [hn, checks_pass]
  · rfl
  · intro c hc
    simp only [List.mem_cons, List.not_mem_nil, or_false] at hc
    rcases hc with rfl | rfl | rfl
    · simp [hl]
    · dsimp only
      rw [decide_eq_false (Nat.not_lt.2 hp), he, hm, beq_eq_false_iff_ne.2 (Nat.pos_iff_ne_zero.1 h0),
        beq_eq_false_iff_ne.2 (Nat.one_le_iff_ne_zero.1 ho1), decide_eq_false (Nat.not_lt.2 ho2)]
      rcases haf with ⟨h1, h2⟩ | h1
      · rw [h1, h2]
        rfl
      · rw [h1]
        rfl
    · rfl

/-- The state in which a tray is being detached. -/
def trayLeaving (n : Nat) (s : State) : State :=
  { s with mem := { s.mem with trays := Tab.upd s.mem.trays n fun x => { x with detaching := true } } }

theorem trayDetach_body {x : Tray} (hl : plen r = 8) (hx : Tab.get? s.mem.trays (be (par r) 0 2) = some x) (hd : x.detaching = false)
    (ha : s.mem.allots = []) : bodyTrayDetach r s =
      { defer (trayLeaving (be (par r) 0 2) s) (.detach (be (par r) 0 2)) with after := detachIfDone (be (par r) 0 2) } := by
  refine checks_pass fun c hc => ?_
  simp only [List.mem_cons, List.not_mem_nil, or_false] at hc
  rcases hc with rfl | rfl | rfl
  · simp [hl]
  · rw [hx]
    rfl
  · rw [hx, ha]
    exact hd

/-- The tray is gone, and the allotments are as given. -/
def trayFreed (n : Nat) (as_ : Tab Allot) (s : State) : State :=
  { s with mem := { s.mem with trays := Tab.del s.mem.trays n, occ := Tab.del s.mem.occ n, allots := as_ } }

/-- A tray being detached with no operation of its own is gone. -/
theorem detachIfDone_done {n : Nat} {x : Tray} (hx : Tab.get? s.mem.trays n = some x) (hd : x.detaching = true) (ho : trayOps s n = []) :
    ∃ as_, detachIfDone n s = (trayFreed n as_ s).workDone (fun w => w == .detach n) St.ok [] := by
  unfold detachIfDone
  rw [hx]
  dsimp only
  rw [hd, ho]
  exact ⟨_, rfl⟩

/-- A tray on which nothing is under way is gone at once: the command is answered twice. -/
theorem trayDetach_effect {n : Nat} {x : Tray} {key : Key} (hk : s.sessKey r.sess = some key) (hx : Tab.get? s.mem.trays n = some x)
    (ho : trayOps s n = []) (hdef : s.kry.deferred = []) (hready : s.kry.ready = true) (hexec : s.kry.executing = none) :
    let v := finish r { defer (trayLeaving n s) (.detach n) with after := detachIfDone n }
    Tab.get? v.mem.trays n = none ∧ (∀ k, k ≠ n → Tab.get? v.mem.trays k = Tab.get? s.mem.trays k) ∧
      (s.portUp r.port = true → s.plainPort r.port → s.halted = false → s.confidential r.levee = false →
        v.out = s.out ++ [.krytic (mkReply r (some key) 0x01 []), .krytic (mkReply r (some key) 0x00 [])]) := by
  intro v
  have hkey : (trayLeaving n s).sessKey r.sess = some key := by
    rw [← hk]
    cases r.sess <;> rfl
  let ans := (trayLeaving n s).answer r (some key) St.deferred []
  let b : State := { ans with kry := { ans.kry with deferred := ans.kry.deferred ++ [{ req := r, key := some key, work := .detach n }] } }
  have hv : v = detachIfDone n b := finish_deferred hkey
  obtain ⟨k, ⟨hd, -⟩, o, ga, co, f, p, hans⟩ := (trayLeaving n s).answer_answered r (some key) St.deferred []
  have hmem : b.mem = (trayLeaving n s).mem := by
    show ans.mem = _
    rw [show ans = _ from hans]
  have hself : Tab.get? b.mem.trays n = some { x with detaching := true } := by
    rw [hmem]
    exact (Tab.get?_upd ..).trans ((if_pos rfl).trans (congrArg (Option.map _) hx))
  have hops : trayOps b n = [] := by
    unfold trayOps
    rw [hmem]
    exact ho
  obtain ⟨as_, hrow⟩ := detachIfDone_done hself rfl hops
  obtain ⟨kr, -, o', g', c', f', p', hw⟩ := State.workDone_answered (trayFreed n as_ b) (fun w => w == .detach n) St.ok []
  have htrays : v.mem.trays = Tab.del b.mem.trays n := by
    rw [hv, hrow, hw]
    rfl
  refine ⟨?_, fun k hk => ?_, fun hu hp hh hc => ?_⟩
  · rw [htrays]
    exact (Tab.get?_del ..).trans (if_pos rfl)
  · rw [htrays, hmem]
    exact (Tab.get?_del ..).trans ((if_neg (Ne.symm hk)).trans ((Tab.get?_upd ..).trans (if_neg (Ne.symm hk))))
  · obtain ⟨k', g, f', ⟨hdk, hex, hrd, -⟩, hplain⟩ := State.answer_plain (s := trayLeaving n s) (r := r) (key := key) (st := St.deferred)
      (frags := []) hu hp hh hc
    have hb : b = { trayLeaving n s with
        out := s.out ++ [.krytic (mkReply r (some key) 0x01 [])], gauges := g, fresh := f',
        kry := { k' with deferred := k'.deferred ++ [{ req := r, key := some key, work := .detach n }] } } := by
      show ({ ans with kry := _ } : State) = _
      rw [show ans = _ from hplain]
      rfl
    have hone : k'.deferred ++ [({ req := r, key := some key, work := .detach n } : Running)] = [{ req := r, key := some key, work := .detach n }] := by
      rw [hdk.trans hdef]
      rfl
    rw [hv, hrow, State.workDone_nil, hb, hone]
    rw [State.workDone_deferred_leaves (x := { req := r, key := some key, work := .detach n }) (key := key)]
    · exact List.append_assoc ..
    exacts [rfl, beq_self_eq_true _, hex.trans hexec, rfl, hrd.trans hready, hu, State.mayReply_of_plain hp, hh, hc]

/-! ### Hints -/

theorem Tab.mem_of_get? {α : Type} {t : Tab α} {k : Nat} {v : α} (h : Tab.get? t k = some v) : (k, v) ∈ t := by
  induction t with
  | nil => exact absurd h (by simp)
  | cons e t ih =>
    obtain ⟨i, w⟩ := e
    rw [Tab.get?_cons] at h
    split at h
    next hi =>
      obtain rfl := hi
      obtain rfl := Option.some.inj h
      exact List.mem_cons_self ..
    next => exact List.mem_cons_of_mem _ (ih h)

theorem tierHint_body {a l : Nat} {x : Allot} (hl : plen r = 24) (ht : tenant r = some l) (h0 : be (par r) 0 2 % 1024 = 0)
    (hh1 : 1 ≤ byteAt (par r) 2) (hh2 : byteAt (par r) 2 ≤ 5) (he : byteAt (par r) 3 ≤ (if byteAt (par r) 2 = 3 then 2 else 0))
    (hp : be (par r) 8 8 % 65536 = 0) (hn : be (par r) 16 8 % 65536 = 0) (hn0 : 0 < be (par r) 16 8) (hn2 : be (par r) 16 8 ≤ 2 ^ 44)
    (ha : translate s (s.table 9).active l (be (par r) 8 8) (be (par r) 16 8) = some a) (hx : s.allot a = some x) (hst : x.st = .active)
    (hreg : s.cis.regions = []) (hplace : x.place ≠ 1 ∨ byteAt (par r) 2 ≠ 4) : bodyTierHint r s =
      if x.place ≠ 1 then done s [zeros 8]
      else
        let y := (rangePages s a (be (par r) 8 8 - x.pva) (be (par r) 16 8)).foldl (hintPage (byteAt (par r) 2) (byteAt (par r) 3) a) (s, 0)
        done (prefetchGo y.1) [toBe 4 y.2 ++ zeros 4] := by
  have hregion : regionOf s a = none := by
    unfold regionOf
    rw [hreg]
    rfl
  have hactive : (x.st != .active) = false := by
    rw [hst]
    rfl
  unfold bodyTierHint
  dsimp only
  rw [ht, Option.getD_some, ha, checks_pass]
  · dsimp only
    rw [hx]
    dsimp only
    rw [hactive, if_neg (by decide)]
    by_cases hp1 : x.place = 1
    · rw [if_neg (not_not.2 hp1), if_neg (not_not.2 hp1), if_neg (hplace.resolve_left (not_not.2 hp1))]
    · rw [if_pos hp1, if_pos hp1]
  · intro c hc
    simp only [List.mem_cons, List.not_mem_nil, or_false] at hc
    rcases hc with rfl | rfl | rfl
    · simp [hl]
    · dsimp only
      rw [h0, hp, hn, beq_eq_false_iff_ne.2 (Nat.one_le_iff_ne_zero.1 hh1), decide_eq_false (Nat.not_lt.2 hh2), decide_eq_false (Nat.not_lt.2 he),
        beq_eq_false_iff_ne.2 (Nat.pos_iff_ne_zero.1 hn0), decide_eq_false (Nat.not_lt.2 hn2), Option.elim_some, hx, Option.elim_some, hregion]
      rfl
    · rfl

/-- The hint of a page that is neither filled nor fetched takes effect at once. -/
theorem hintPage_idle {a pg elem : Nat} {q : Page} (hq : s.page a pg = some q) (hf : q.filling = 0) (hw : q.want = 0) (n : Nat) :
    hintPage 3 elem a (s, n) pg = (s.modPage a pg fun p => { p with hint := 3, elem := elem, hintAt := s.now, pendHint := none }, n + 1) := by
  have hnow : ((q.filling != 0 || q.want != 0) && 3 != 2) = false := by
    rw [hf, hw]
    rfl
  have happly : applyHint a pg 3 elem s.now s = s.modPage a pg fun p => { p with hint := 3, elem := elem, hintAt := s.now, pendHint := none } := by
    unfold applyHint
    dsimp only
    rw [if_neg (by decide)]
    congr 1
    funext p
    simp
  unfold hintPage
  dsimp only
  rw [hq]
  dsimp only
  rw [if_neg fun h => Bool.noConfusion (hnow.symm.trans h), happly]

end

/-- Settles O25: each command of the pool, where nothing refuses it, by its own effect. -/
theorem poolCommandsTakeEffect : Obligations.PoolCommandsTakeEffect := by
  intro t r s u p
  refine ⟨fun x l a hx hb hl h0 hlev hret hbad hst hpend hmax ha hframes => ⟨fun hg => ?create, fun inv hg => ?guarded⟩,
    fun x hb hl hx hown => ?query, fun hb hl hx ht => ?absent, fun x hb hl ht hx => ⟨fun hst hlock => ?pending,
      fun hst hlock hg hlive hh hquiet => ?active⟩, ?right, fun n hb hl hp he haf h0 hm ho1 ho2 hn => ?attach,
    fun x hb hl hx hd ha ho hdef hkey => ?detach, fun a x l hb hl ht h0 hh1 hh2 he hp hn hn0 hn2 ha hx hst hreg hwant => ?hint⟩
  case create =>
    have hmay : AllotMay u p x := ⟨h0, ⟨l, hlev, hret, hmax⟩, hbad, ⟨hst, hpend⟩, hframes⟩
    have hbody := allotCreate_body (r := { r with opcode := 0x0501 }) (s := u) hx hl hmay ha
    rw [hg] at hbody
    exact command_answers hb hbody
  case guarded =>
    have hmay : AllotMay u p x := ⟨h0, ⟨l, hlev, hret, hmax⟩, hbad, ⟨hst, hpend⟩, hframes⟩
    have hbody := allotCreate_body (r := { r with opcode := 0x0501 }) (s := u) hx hl hmay ha
    rw [hg] at hbody
    obtain ⟨key, hkey⟩ := sessKey_of_begins hb
    obtain ⟨hcache, hmem⟩ := guardReject_finish (op := 0x0501) (inv := inv) (l := x.levee) hkey
    exact ⟨_, mkReply { r with opcode := 0x0501 } (some key) St.guardReject [toBe 2 inv ++ zeros 6],
      (command_begins bodyAllotCreate hb).trans (congrArg (fun y => Host.Outcome.next (finish { r with opcode := 0x0501 } y)) hbody),
      rfl, hcache, replyParams_whole (r := { r with opcode := 0x0501 }) rfl
        (by rw [List.length_append, length_toBe, length_zeros]), hmem⟩
  case query =>
    have hbody := allotQuery_body (r := { r with opcode := 0x0503 }) (s := u) hl fun l ht => ⟨x, hx, hown l ht⟩
    rw [show u.allot (be (par { r with opcode := 0x0503 }) 0 2) = some x from hx] at hbody
    exact command_answers hb hbody
  case absent =>
    have hbody := allotQuery_body (r := { r with opcode := 0x0503 }) (s := u) hl fun l ht' => by
      have : tenant r = some l := ht'
      rw [ht] at this
      contradiction
    rw [show u.allot (be (par { r with opcode := 0x0503 }) 0 2) = none from hx] at hbody
    exact command_answers hb hbody
  case pending => exact command_answers hb (revoke_pending_body (r := { r with opcode := 0x0502 }) (s := u) hl ht hx hst hlock)
  case active =>
    obtain ⟨-, hcalm, -, -⟩ := hquiet
    have hbody := revoke_active_body (r := { r with opcode := 0x0502 }) (s := u) hl ht hx hst hlock hg hlive hh hcalm
    exact ⟨_, _, (command_begins bodyRevoke hb).trans (congrArg (fun y => Host.Outcome.next (finish { r with opcode := 0x0502 } y)) hbody),
      (Tab.get?_upd ..).trans ((if_pos rfl).trans (congrArg (Option.map _) hx)), rfl, rfl, ⟨_, rfl, rfl⟩, rfl, rfl⟩
  case right =>
    intro levee die host hb hl h0 hadm hret hd haf hrate hb1 hb2 ho1 ho2 hfull hroom
    have hbody := waterRight_body (r := { r with opcode := 0x0504 }) (s := u) hl h0 hadm hret hd haf hrate hb1 hb2 ho1 ho2 hfull hroom
    obtain ⟨hallots, hcis⟩ := setRight_rest (s := u) (rightGiven p u.now) (bitOf (byteAt p 31) 0)
    refine ⟨_, command_answers hb hbody, fun hdel => ?_, fun h2 haf' => hostOf_setRight (rightGiven p u.now) _ haf' ?_, fun hdel y hy hsame => ?_,
      fun d l h hne => rightOf_setRight_ne (rightGiven p u.now) _ h hne, hallots, hcis⟩
    · have := rightOf_setRight_self (s := u) (rightGiven p u.now)
      rw [← hdel] at this
      exact this
    · show (byteAt p 30 == 1) = false
      rw [h2]
      rfl
    · have hy' : y ∈ (setRight (rightGiven p u.now) true u).mem.rights := by
        rw [← hdel]
        exact hy
      have hno := rights_of_deleted (s := u) (rightGiven p u.now) y hy'
      obtain ⟨h1, h2, h3⟩ := hsame
      unfold Right.same at hno
      rw [h1, h2, h3] at hno
      simp only [Bool.and_eq_false_iff, beq_eq_false_iff_ne] at hno
      rcases hno with (hno | hno) | hno <;> exact hno rfl
  case attach =>
    intro x
    exact command_answers hb (trayAttach_body (r := { r with opcode := 0x0505 }) (s := u) hl hp he haf h0 hm ho1 ho2 hn)
  case detach =>
    obtain ⟨key, hk⟩ := sessKey_of_begins hb
    obtain ⟨hready, hexec⟩ := taken_free hb
    obtain ⟨h1, h2, h3⟩ := trayDetach_effect (r := { r with opcode := 0x0506 }) (s := u) hk hx ho hdef hready hexec
    exact ⟨_, _, _, (command_begins bodyTrayDetach hb).trans (congrArg (fun y => Host.Outcome.next (finish { r with opcode := 0x0506 } y))
      (trayDetach_body (r := { r with opcode := 0x0506 }) (s := u) hl hx hd ha)), h1, h2, rfl, rfl, h3⟩
  case hint =>
    have hbody := tierHint_body (r := { r with opcode := 0x0507 }) (s := u) hl ht h0 hh1 hh2 he hp hn hn0 hn2 ha hx hst hreg
    refine ⟨fun hplace => command_answers hb ((hbody (.inl hplace)).trans (if_pos hplace)), fun pg q hplace hthree hlen hpg hq hf => ?_⟩
    have hregion : regionOf u a = none := by
      unfold regionOf
      rw [hreg]
      rfl
    have hrange : rangePages u a (be p 8 8 - x.pva) (be p 16 8) = [pg] := by
      unfold rangePages
      rw [hregion, hlen, hpg]
      rfl
    have hw : q.want = 0 := hwant (pageKey a pg, q) (Tab.mem_of_get? hq)
    have hrow := (hbody (.inr (by rw [show byteAt (par { r with opcode := 0x0507 }) 2 = 3 from hthree]; decide))).trans (if_neg (not_not.2 hplace))
    rw [show rangePages u a (be (par { r with opcode := 0x0507 }) 8 8 - x.pva) (be (par { r with opcode := 0x0507 }) 16 8) = [pg] from hrange,
      show byteAt (par { r with opcode := 0x0507 }) 2 = 3 from hthree] at hrow
    dsimp only at hrow
    rw [List.foldl_cons, List.foldl_nil, hintPage_idle hq hf hw, prefetchGo_still] at hrow
    · exact ⟨_, _, command_answers hb hrow, (Tab.get?_upd ..).trans ((if_pos rfl).trans (congrArg (Option.map _) hq)), rfl, rfl⟩
    · intro e he
      have he' : e ∈ Tab.upd u.cis.pages (pageKey a pg) fun p' =>
        { p' with hint := 3, elem := byteAt p 3, hintAt := u.now, pendHint := none } := he
      unfold Tab.upd at he'
      rw [show Tab.get? u.cis.pages (pageKey a pg) = some q from hq] at he'
      rcases Tab.mem_set he' with rfl | he'
      · exact hw
      · exact hwant e he'

end Sys2Proof.Machine
end

section
/-! PROOFS. A handle closed where the handles are not kept in rising order (07 R239). -/

namespace Sys2Proof.Machine

section
variable {op : Nat} {r : KReq} {s u v : State} {f g : List Bytes}

/-- What a reply leaves of the cistern is what its command left. -/
theorem cis_of_okReply (h : okReply op r u f = .next v) : v.cis = u.cis := by
  obtain ⟨k, -, o, ga, c, fr, p, hans⟩ := u.answer_answered { r with opcode := op } (u.sessKey r.sess) St.ok f
  have hv : finish { r with opcode := op } (done u f) = v := Host.Outcome.next.inj h
  rw [← hv]
  show (u.answer { r with opcode := op } (u.sessKey r.sess) St.ok f).cis = u.cis
  rw [hans]

theorem regionClose_body {k : Nat} {h : Handle} (hl : plen r = 8) (hh : findHandle s (be (par r) 0 8) ((tenant r).getD 0) = some (k, h)) :
    bodyRegionClose r s =
      done (pruneHandles { s with cis := { s.cis with handles := Tab.set s.cis.handles k { h with isOpen := false } } }) := by
  unfold bodyRegionClose
  rw [hh]
  refine checks_pass fun c hc => ?_
  simp only [List.mem_cons, List.not_mem_nil, or_false] at hc
  rw [hc]
  simp [hl]

end

/-! ### The handles out of order -/

/-- An open READ handle of region 0, generation 1, of levee 1. -/
def openHandle : Handle :=
  { gen := 1, region := 0, levee := 1, stage := false, version := 1, map := [], opener := ⟨4, 5⟩, isOpen := true }

/-- Handles 1 and 0, listed in that order, for a levee that has a key. -/
def handlesFalling : State :=
  { State.reset with
    kry := { State.reset.kry with keys := [(1, 0)] }
    sec := { State.reset.sec with levees := [(1, { confidential := false, maxAllot := 8 })] }
    cis := { State.reset.cis with handles := [(1, openHandle), (0, openHandle)] } }

/-- REGION_CLOSE of handle 0, sent by the levee. -/
def closeZero : KReq :=
  { port := 512, net := default, cls := 0, sess := .levee 1, version := 1, urgent := false, more := false, opcode := 0, levee := 1,
    term := 0, seq := 1, tag := 0, frags := [toBe 8 (2 ^ 48)], seqs := [], hdr := [], auth := [] }

/-- The close writes a second entry 0 before entry 1 and prunes that one alone: handle 0 is still found. -/
theorem handle_found_after_close : ∃ w, exec (.regionClose 0 closeZero) handlesFalling = okReply 0x0603 closeZero w [] ∧
    (findHandle w (2 ^ 48) 1).isSome = true := by
  refine ⟨_, command_answers (by decide +kernel) (regionClose_body (k := 0) (h := openHandle) (by decide +kernel) (by rfl)), ?_⟩
  decide +kernel

/-- Refutes O32: in a table of handles whose numbers do not rise, the close of a handle listed after a higher one writes its entry a
second time and prunes only that one, so that the handle is found as before. -/
theorem not_regionsOpenAndPublish : ¬ Obligations.RegionsOpenAndPublish := by
  unfold Obligations.RegionsOpenAndPublish
  intro h
  obtain ⟨-, -, hclose, -⟩ := h 0 closeZero handlesFalling
  obtain ⟨w, hw, hgone, -⟩ := hclose 0 openHandle 1 (by rfl) (by rfl) (by decide +kernel) (by decide +kernel) (by rfl) (by rfl) (by rfl)
    (by decide +kernel)
  obtain ⟨w', hw', hfound⟩ := handle_found_after_close
  have hreply : okReply 0x0603 closeZero w [] = okReply 0x0603 closeZero w' [] := hw.symm.trans hw'
  have hcis : w.cis = w'.cis := (cis_of_okReply (u := w) rfl).symm.trans (cis_of_okReply hreply.symm)
  have hsame : findHandle w (2 ^ 48) 1 = findHandle w' (2 ^ 48) 1 := by
    unfold findHandle
    rw [hcis]
  rw [← hsame, show findHandle w (2 ^ 48) 1 = none from hgone] at hfound
  contradiction

end Sys2Proof.Machine
end

section
/-! PROOFS. Rules for chains, their slots and what a descriptor leaves behind (10 R315, R342–R347). -/

namespace Sys2Proof.Machine

section
variable {s : State} {cid : Nat} {c : Chain}

theorem State.chain_modChain_eq (s : State) (k j : Nat) (f : Chain → Chain) :
    (s.modChain k f).chain j = if k = j then (s.chain j).map f else s.chain j := by
  refine (Tab.get?_upd s.flm.chains k j f).trans ?_
  split
  · next h => rw [h]; rfl
  · rfl

theorem State.queue_modQueue_eq (s : State) (k j : Nat) (f : Queue → Queue) :
    (s.modQueue k f).queue j = if k = j then (s.queue j).map f else s.queue j := by
  refine (Tab.get?_upd s.flm.queues k j f).trans ?_
  split
  · next h => rw [h]; rfl
  · rfl

theorem State.queue_modQueue {q : Nat} {x : Queue} (f : Queue → Queue) (h : s.queue q = some x) : (s.modQueue q f).queue q = some (f x) := by
  rw [State.queue_modQueue_eq, if_pos rfl, h, Option.map_some]

/-- A change of a chain that is there writes it anew. -/
theorem State.modChain_eq (f : Chain → Chain) (hc : s.chain cid = some c) :
    s.modChain cid f = { s with flm := { s.flm with chains := Tab.set s.flm.chains cid (f c) } } := by
  have h : Tab.get? s.flm.chains cid = some c := hc
  simp only [State.modChain, Tab.upd, h]

theorem chainEnd_chain {st i : Nat} (hc : s.chain cid = some c) : (chainEnd cid st i s).chain cid =
    some { c with st := .ended, status := st, index := i, fetched := [], keys := [], slotsRef := [] } :=
  State.chain_modChain s _ hc

theorem chainEnd_chain_ne {st i k : Nat} (h : k ≠ cid) : (chainEnd cid st i s).chain k = s.chain k :=
  (State.chain_modChain_eq s cid k _).trans (if_neg (Ne.symm h))

/-- A chain past its descriptor and the ones it skips. -/
def goesOn (c : Chain) (value skip : Nat) : Chain :=
  let n := { c with
    idx := c.idx + 1 + skip, value := value, skipped := c.skipped + min skip (c.count - (c.idx + 1)),
    fetched := c.fetched.filter fun e => decide (2 ^ 60 ≤ e.1), keys := [], asked := 0, results := [], queryBad := none, slotsRef := [],
    st := .ready }
  if c.count ≤ c.idx + 1 + skip then { n with st := .ended, status := St.ok, index := c.count, fetched := [], keys := [], slotsRef := [] }
  else n

theorem goesOn_idx (value skip : Nat) : (goesOn c value skip).idx = c.idx + 1 + skip := by
  unfold goesOn; dsimp only; split <;> rfl

theorem goesOn_value (value skip : Nat) : (goesOn c value skip).value = value := by
  unfold goesOn; dsimp only; split <;> rfl

theorem goesOn_ready {value skip : Nat} (h : c.idx + 1 + skip < c.count) : (goesOn c value skip).st = .ready := by
  unfold goesOn; dsimp only; rw [if_neg (by omega)]

theorem goesOn_ended {value skip : Nat} (h : c.count ≤ c.idx + 1 + skip) :
    (goesOn c value skip).st = .ended ∧ (goesOn c value skip).status = St.ok := by
  unfold goesOn; dsimp only; rw [if_pos h]; exact ⟨rfl, rfl⟩

/-- A chain without a failed write, of a queue that stays, goes on. -/
theorem advanceChain_eq {q : Queue} (hc : s.chain cid = some c) (hf : c.failed = none) (hq : s.queue c.queue = some q)
    (hd : q.destroying = false) (value skip : Nat) : ∃ g, advanceChain cid value skip s =
      { s with gauges := g, flm := { s.flm with chains := Tab.set s.flm.chains cid (goesOn c value skip) } } := by
  obtain ⟨g, hg⟩ : ∃ g, flmCount 1 1 c.queue (min skip (c.count - (c.idx + 1))) (flmCount 1 0 c.queue 1 s) = { s with gauges := g } := ⟨_, rfl⟩
  refine ⟨g, ?_⟩
  unfold advanceChain
  rw [hc]
  dsimp only
  rw [hg, State.modChain_eq (s := { s with gauges := g }) _ hc]
  dsimp only
  have hback : ∀ x, State.chain { s with gauges := g, flm := { s.flm with chains := Tab.set s.flm.chains cid x } } cid = some x :=
    fun x => Tab.get?_set_self ..
  have hqueue : ∀ x, State.queue { s with gauges := g, flm := { s.flm with chains := x } } c.queue = some q := fun _ => hq
  rw [hback, hqueue]
  dsimp only [Option.bind_some, Option.elim_some]
  rw [hf]
  dsimp only
  refine (if_neg (by rw [hd]; exact Bool.false_ne_true)).trans ?_
  by_cases hn : c.count ≤ c.idx + 1 + skip
  · rw [if_pos hn]
    unfold chainEnd
    rw [State.modChain_eq _ (hback _)]
    dsimp only
    rw [Tab.set_set, goesOn, if_pos hn, hf]
  · rw [if_neg hn, goesOn, if_neg hn, hf]

theorem tagOp_eq (b : Nat) (t : Tagged) (s : State) : ∃ y g, tagOp b t s = { s with bsn := y, gauges := g } ∧ y.store = s.bsn.store ∧
    y.owner = s.bsn.owner := by
  unfold tagOp
  split
  · exact ⟨_, _, rfl, rfl, rfl⟩
  · exact ⟨_, _, rfl, rfl, rfl⟩

theorem sendOut_nil (b : Nat) (s : State) : ∃ y, sendOut b [] s = { s with bsn := y } ∧ y.store = s.bsn.store ∧ y.owner = s.bsn.owner := by
  unfold sendOut
  split
  · exact ⟨_, rfl, rfl, rfl⟩
  · exact ⟨_, rfl, rfl, rfl⟩

end

/-! ### Bytes zeroed -/

theorem Mem.read_filter_key (p : Nat → Bool) {m : Mem} (h : Mem.wf m = true) (a : Nat) :
    Mem.read (m.filter fun c => p c.1) a = if p a = true then Mem.read m a else 0 := by
  induction m with
  | nil => exact (ite_self _).symm
  | cons e r ih =>
    obtain ⟨b, v⟩ := e
    obtain ⟨-, hr, hab⟩ := Mem.wf_cons.1 h
    rw [List.filter_cons, Mem.read_cons]
    by_cases hb : p b = true
    · rw [if_pos hb, Mem.read_cons, ih hr]
      by_cases e : b = a
      · rw [e] at hb
        rw [if_pos e, if_pos e, if_pos hb]
      · rw [if_neg e, if_neg e]
        by_cases l : a < b
        · rw [if_pos l, if_pos l, ite_self]
        · rw [if_neg l, if_neg l]
    · rw [if_neg hb, ih hr]
      by_cases ha : p a = true
      · have e : b ≠ a := fun e => hb (e ▸ ha)
        rw [if_pos ha, if_pos ha, if_neg e]
        by_cases l : a < b
        · rw [if_pos l]
          exact Mem.read_above (n := b) (fun c hc => Nat.le_of_lt (hab c hc)) l
        · rw [if_neg l]
      · rw [if_neg ha, if_neg ha]

theorem Mem.read_zero {m : Mem} (h : Mem.wf m = true) (a n b : Nat) :
    Mem.read (Mem.zero m a n) b = if a ≤ b ∧ b < a + n then 0 else Mem.read m b := by
  refine (Mem.read_filter_key (fun c => decide (c < a) || decide (a + n ≤ c)) h b).trans ?_
  by_cases hb : a ≤ b ∧ b < a + n
  · rw [if_pos hb, if_neg (by simp; omega)]
  · rw [if_neg hb, if_pos (by simp; omega)]

/-- Ranges zeroed one after another leave the rest as it was. -/
theorem Mem.read_foldl_zero_outside (key : Nat → Nat) (n : Nat) (l : List Nat) {m : Mem} (h : Mem.wf m = true) {a : Nat}
    (ha : ∀ i ∈ l, a < key i ∨ key i + n ≤ a) :
    Mem.wf (l.foldl (fun m i => m.zero (key i) n) m) = true ∧ Mem.read (l.foldl (fun m i => m.zero (key i) n) m) a = Mem.read m a := by
  induction l generalizing m with
  | nil => exact ⟨h, rfl⟩
  | cons i l ih =>
    obtain ⟨hw, hr⟩ := ih (Mem.wf_zero (key i) n h) fun j hj => ha j (List.mem_cons_of_mem _ hj)
    have hi := ha i (List.mem_cons_self ..)
    refine ⟨hw, hr.trans ?_⟩
    rw [Mem.read_zero h, if_neg (by omega)]

/-- A basin that goes off, or not: the owners stand, and only its own tiles are zeroed. -/
theorem offIfDue_store (b : Nat) (s : State) : ∃ y g, offIfDue b s = { s with bsn := y, gauges := g } ∧ y.owner = s.bsn.owner ∧
    ∃ l : List Nat, (∀ n ∈ l, n < 512) ∧ y.store = l.foldl (fun m n => m.zero (storeKey b (4096 * n)) 4096) s.bsn.store := by
  have hmem : ∀ n ∈ List.range 512, n < 512 := fun n hn => List.mem_range.1 hn
  unfold offIfDue
  dsimp only
  generalize List.range 512 = l at hmem ⊢
  split
  · obtain ⟨g, hset⟩ := setPower_eq (s := zeroTiles b l s) (b := b) .off
    rw [hset]
    exact ⟨_, g, rfl, rfl, l, hmem, rfl⟩
  · exact ⟨s.bsn, s.gauges, rfl, rfl, [], fun _ h => absurd h List.not_mem_nil, rfl⟩

/-! ### Writes of the basin store outside a dip window -/

/-- The basins stand but for the marks of tiles: no new taint, the same owners. -/
def Basins.marked (y x : Basins) : Prop := y.owner = x.owner ∧ ∀ k, ∃ u v w,
  Tab.getD y.tab k {} = { Tab.getD x.tab k {} with sums := u, once := v, taint := w } ∧ ∀ n ∈ w, n ∈ (Tab.getD x.tab k {}).taint

theorem Basins.marked_refl (x : Basins) : x.marked x := ⟨rfl, fun _ => ⟨_, _, _, rfl, fun _ h => h⟩⟩

theorem Basins.marked_trans {x y z : Basins} (h : z.marked y) (g : y.marked x) : z.marked x := by
  refine ⟨h.1.trans g.1, fun k => ?_⟩
  obtain ⟨u, v, w, hz, hw⟩ := h.2 k
  obtain ⟨u', v', w', hy, hw'⟩ := g.2 k
  refine ⟨u, v, w, by rw [hz, hy], fun n hn => ?_⟩
  have hmem := hw n hn
  rw [hy] at hmem
  exact hw' n hmem

theorem modBasin_marked (s : State) (b : Nat) {f : Basin → Basin}
    (hf : ∀ x : Basin, ∃ u v w, f x = { x with sums := u, once := v, taint := w } ∧ ∀ n ∈ w, n ∈ x.taint) : (s.modBasin b f).bsn.marked s.bsn := by
  refine ⟨rfl, fun k => ?_⟩
  have h := State.basin_modBasin s b f k
  rw [State.basin] at h
  rw [h]
  split
  · exact hf _
  · exact ⟨_, _, _, rfl, fun _ h => h⟩

/-- The bytes that a write of a basin leaves in the store. -/
def storePut (b addr : Nat) (bs : Bytes) (m : Mem) : Mem :=
  (cutsOf addr bs.length).foldl (fun m c => m.writeN (storeKey b (4096 * c.1 + c.2.1)) (slice bs c.2.2.1 c.2.2.2)) m

theorem writeTile_marked (s : State) (b t start : Nat) (bs : Bytes) (h : s.pwr.window = false) : ∃ y : Basins,
    (writeTile b t start bs s).1 = { s with bsn := y } ∧ y.store = s.bsn.store.writeN (storeKey b (4096 * t + start)) bs ∧
      y.marked s.bsn ∧ (writeTile b t start bs s).2 = false := by
  let w := s.modBasin b (marksWritten t (start == 0 && decide (4096 ≤ bs.length)))
  have hrow : writeTile b t start bs s =
      ({ w with bsn := { w.bsn with store := s.bsn.store.writeN (storeKey b (4096 * t + start)) bs } }, false) := by
    unfold writeTile
    rw [h]
    dsimp only
    rw [if_neg Bool.false_ne_true]
    dsimp only
    rw [h]
    rfl
  rw [hrow]
  have hmarks := modBasin_marked s b (f := marksWritten t (start == 0 && decide (4096 ≤ bs.length))) fun x => by
    refine ⟨_, _, _, rfl, fun n hn => ?_⟩
    split at hn
    · exact List.mem_of_mem_filter hn
    · exact hn
  exact ⟨_, rfl, rfl, hmarks, rfl⟩

theorem writeStore_marked (s : State) (b addr : Nat) (bs : Bytes) (h : s.pwr.window = false) : ∃ y : Basins,
    writeStore b addr bs s = ({ s with bsn := y }, false) ∧ y.store = storePut b addr bs s.bsn.store ∧ y.marked s.bsn := by
  unfold writeStore storePut
  generalize cutsOf addr bs.length = l
  induction l generalizing s with
  | nil => exact ⟨s.bsn, rfl, rfl, Basins.marked_refl _⟩
  | cons c l ih =>
    obtain ⟨y, hy, hstore, hmark, hlost⟩ := writeTile_marked s b c.1 c.2.1 (slice bs c.2.2.1 c.2.2.2) h
    obtain ⟨z, hz, hstore', hmark'⟩ := ih { s with bsn := y } h
    refine ⟨z, ?_, by rw [hstore', hstore, List.foldl_cons], Basins.marked_trans hmark' hmark⟩
    rw [List.foldl_cons]
    dsimp only at hz ⊢
    rw [hy, hlost]
    exact hz

end Sys2Proof.Machine
end

section
/-! PROOFS. Chains that wait at a turn, slots that move, and the replay of a dip window (10 R315, R344–R346, 09 R298–R300). -/

namespace Sys2Proof.Machine

theorem elim_of_eq_some {α β : Type} {o : Option α} {x : α} {d : β} (f : α → β) (h : o = some x) : o.elim d f = f x := by rw [h]; rfl

section
variable {s : State} {cid : Nat} {c : Chain} {k target : Nat} {dl : Option Time} {x : Turn} {q : Queue} {z : Slot}

theorem turnSatisfied_goes (hc : s.chain cid = some c) (hst : c.st = .turnWait k target dl) (hx : s.turn k = some x)
    (hq : s.queue c.queue = some q) (hz : slotOf s c = some z) (hr : (s.basin z.basin).replaying = false)
    (ht : turnReached x.value target = true) (hf : c.failed = none) (hd : q.destroying = false)
    (hrep : ∀ d, Tab.get? c.descs c.idx = some d → bitOf (byteAt d 1) 1 = false) : ∃ y g, turnSatisfied cid s =
      { s with bsn := y, gauges := g, flm := { s.flm with chains := Tab.set s.flm.chains cid (goesOn c x.value 0) } } := by
  have hreport : ((Tab.get? c.descs c.idx).elim false fun d => bitOf (byteAt d 1) 1) = false := by
    cases h : Tab.get? c.descs c.idx with
    | none => rfl
    | some d => exact hrep d h
  obtain ⟨y1, g1, htag, -, -⟩ := tagOp_eq z.basin { op := .desc cid c.idx, lost := false, outbound := [] } s
  obtain ⟨y2, hsend, -, -⟩ := sendOut_nil z.basin { s with bsn := y1, gauges := g1 }
  obtain ⟨g, hadv⟩ := advanceChain_eq (s := { s with bsn := y2, gauges := g1 }) hc hf hq hd x.value 0
  refine ⟨y2, g, ?_⟩
  unfold turnSatisfied
  rw [hc]
  dsimp only
  rw [hst]
  dsimp only
  rw [hx]
  dsimp only
  rw [if_pos ht, hreport, hz]
  dsimp only
  rw [hr, if_neg Bool.false_ne_true, if_neg Bool.false_ne_true, htag, hsend]
  exact hadv

theorem turnSatisfied_waits (hc : s.chain cid = some c) (hst : c.st = .turnWait k target dl) (hx : s.turn k = some x)
    (ht : turnReached x.value target = false) : turnSatisfied cid s = s := by
  unfold turnSatisfied
  rw [hc]
  dsimp only
  rw [hst]
  dsimp only
  rw [hx]
  dsimp only
  rw [ht, if_neg Bool.false_ne_true]

theorem turnTimeout_waits {at0 : Time} (hc : s.chain cid = some c) (hst : c.st = .turnWait k target (some at0)) (hn : s.now ≤ at0) :
    turnTimeout cid s = s := by
  unfold turnTimeout
  rw [hc]
  dsimp only
  rw [hst]
  dsimp only
  exact if_pos (Or.inl hn)

theorem turnTimeout_ends {at0 : Time} (hc : s.chain cid = some c) (hst : c.st = .turnWait k target (some at0)) (hx : s.turn k = some x)
    (hz : slotOf s c = some z) (hr : (s.basin z.basin).replaying = false) (ht : turnReached x.value target = false)
    (hn : at0 < s.now) : ∃ y g, turnTimeout cid s = chainEnd cid St.busy c.idx { s with bsn := y, gauges := g } := by
  obtain ⟨y, g, htag, -, -⟩ := tagOp_eq z.basin { op := .desc cid c.idx, lost := false } s
  have hreached : ((s.turn k).elim false fun t => turnReached t.value target) = false :=
    (elim_of_eq_some (fun t : Turn => turnReached t.value target) hx).trans ht
  have hbasin : ((slotOf s c).elim 0 (·.basin)) = z.basin := by rw [hz]; rfl
  have hno : ¬(s.now ≤ at0 ∨ ((s.turn k).elim false fun t => turnReached t.value target) = true ∨ (s.basin z.basin).replaying = true) := by
    rw [hreached, hr]
    exact fun h => h.elim (Nat.not_le.mpr hn) fun h => h.elim Bool.false_ne_true Bool.false_ne_true
  obtain ⟨g', hg'⟩ : ∃ g', flmCount 2 1 c.queue 1 { s with bsn := y, gauges := g } = { s with bsn := y, gauges := g' } := ⟨_, rfl⟩
  refine ⟨y, g', ?_⟩
  unfold turnTimeout
  rw [hc]
  dsimp only
  rw [hst]
  dsimp only
  rw [hbasin, htag, hg']
  exact if_neg hno

end

/-- The circular order of a counter's value and its target (10 R344). -/
theorem turnReached_iff {v target : Nat} (hv : v < 2 ^ 32) (ht : target < 2 ^ 32) :
    turnReached v target = true ↔ ∃ d < 2 ^ 31, v = (target + d) % 2 ^ 32 := by
  unfold turnReached
  rw [decide_eq_true_eq]
  constructor
  · intro h
    exact ⟨(v + 2 ^ 32 - target % 2 ^ 32) % 2 ^ 32, h, by omega⟩
  · rintro ⟨d, hd, rfl⟩
    omega

section
variable {s : State} {q i b : Nat} {x : Slot} {y : Queue}

/-- A slot that is not lost by the move takes nothing of its group with it. -/
theorem slotMoveGroup_eq {v : State} {y' : Queue} (hv : slotMove q i s = v) (hy : v.queue q = some y')
    (hg : y'.group = none ∨ ∃ x', y'.slots[i]? = some x' ∧ x'.lost = false) : slotMoveGroup q i s = v := by
  unfold slotMoveGroup
  dsimp only
  rw [hv, hy]
  dsimp only
  rcases hg with hg | ⟨x', hx, hl⟩
  · rw [hg]
    exact ite_self v
  · rw [hx]
    refine if_neg ?_
    rw [Option.elim_some, hl, Bool.and_false]
    exact Bool.false_ne_true

/-- What a move of a slot needs: it is neither lost nor on the move, and its basin is held out. -/
theorem slotMove_due (hy : s.queue q = some y) (hx : y.slots[i]? = some x) (hl : x.lost = false) (hm : x.moving = none)
    (hq : (s.basin x.basin).quar = .heldOut) : slotMove q i s = match moveTarget s y x with
      | none => loseSlot q i x s
      | some b => flmCount 2 2 q 1 (setSlot q i { x with moving := some b } (takeTiles b q ((freeTiles s b).take y.ntiles) s)) := by
  have hout : outOfService s x.basin = true := by simp [outOfService, hq]
  have hdrain : drainOnly s x.basin = false := by simp [drainOnly, hq]
  have hwaits : drainWaits s x.basin = false := by rw [drainWaits, hdrain, Bool.false_and]
  unfold slotMove
  rw [hy]
  dsimp only
  rw [hx]
  dsimp only
  rw [if_neg (by rw [hl, hm, hout, hwaits]; decide), hdrain]
  cases moveTarget s y x with
  | none => exact if_neg Bool.false_ne_true
  | some b => rfl

theorem setSlot_queue {x' : Slot} (hy : s.queue q = some y) : (setSlot q i x' s).queue q = some { y with slots := y.slots.set i x' } :=
  State.queue_modQueue _ hy

theorem slot_set {l : List Slot} {x' : Slot} (hx : l[i]? = some x) : (l.set i x')[i]? = some x' := by
  obtain ⟨hi, -⟩ := List.getElem?_eq_some_iff.1 hx
  rw [List.getElem?_set_self hi]

theorem moveTarget_sound (h : moveTarget s y x = some b) : basinDie b = basinDie x.basin ∧ (s.basin b).quar = .none := by
  have hmem := List.mem_of_find?_eq_some h
  have hp := List.find?_some h
  simp only [Bool.and_eq_true, bne_iff_ne, ne_eq, Bool.not_eq_true', beq_iff_eq, decide_eq_true_eq] at hp
  obtain ⟨⟨⟨-, hquar⟩, -⟩, -⟩ := hp
  obtain ⟨k, hk, rfl⟩ := List.mem_map.1 hmem
  have hk := List.mem_range.1 hk
  refine ⟨?_, hquar⟩
  unfold basinDie
  omega

/-- A slot begins to move: its new tiles are the queue's and read zero, and no chain changes. -/
theorem slotMove_begins (hy : s.queue q = some y) (hx : y.slots[i]? = some x) (hl : x.lost = false) (hm : x.moving = none)
    (hq : (s.basin x.basin).quar = .heldOut) (hb : moveTarget s y x = some b) : ∃ v y', slotMoveGroup q i s = v ∧ v.queue q = some y' ∧
      y'.slots[i]? = some { x with moving := some b } ∧
      (∀ n ∈ (freeTiles s b).take y.ntiles, Tab.get? v.bsn.owner (b * 512 + n) = some q ∧ readStore v b (4096 * n) 4096 = zeros 4096) ∧
      v.flm.chains = s.flm.chains := by
  obtain ⟨z, hz, howner, hstore⟩ := takeTiles_eq b q ((freeTiles s b).take y.ntiles) s
  have hmove := slotMove_due hy hx hl hm hq
  rw [hb] at hmove
  dsimp only at hmove
  rw [hz] at hmove
  have hqueue := setSlot_queue (s := { s with bsn := z }) (i := i) (x' := { x with moving := some b }) hy
  have hslot := slot_set (x' := { x with moving := some b }) hx
  refine ⟨_, _, slotMoveGroup_eq hmove hqueue (Or.inr ⟨_, hslot, hl⟩), hqueue, hslot, fun n hn => ⟨?_, ?_⟩, rfl⟩
  · show Tab.get? z.owner _ = _
    rw [howner]
    exact (Tab.get?_foldl_set (fun t => b * 512 + t) q _ s.bsn.owner _).trans (if_pos ⟨n, hn, rfl⟩)
  · refine readStore_unlisted fun j hj => ?_
    show ∀ c ∈ z.store, _
    rw [hstore]
    exact Mem.read_foldl_zero (fun t => storeKey b (4096 * t)) 4096 _ s.bsn.store ⟨n, hn, Nat.le_add_right .., Nat.add_lt_add_left hj _⟩

/-- A chain has ended STATE_LOST. -/
def lostIn (m : Tab Chain) (cid : Nat) : Prop := ∃ c, Tab.get? m cid = some c ∧ c.st = .ended ∧ c.status = St.stateLost

/-- Chains ended one after another: those of the list are lost, in nothing but the table of chains. -/
theorem foldl_chainEnd_lost (l : List (Nat × Chain)) (s : State) : ∃ m, l.foldl (fun s e => chainEnd e.1 St.stateLost e.2.idx s) s =
    { s with flm := { s.flm with chains := m } } ∧ ∀ cid c, Tab.get? s.flm.chains cid = some c →
      (lostIn s.flm.chains cid ∨ ∃ e ∈ l, e.1 = cid) → lostIn m cid := by
  induction l generalizing s with
  | nil => exact ⟨s.flm.chains, rfl, fun cid c _ h => h.elim id fun ⟨_, he, _⟩ => absurd he List.not_mem_nil⟩
  | cons e l ih =>
    obtain ⟨m, hm, hlost⟩ := ih (chainEnd e.1 St.stateLost e.2.idx s)
    refine ⟨m, hm, fun cid c hc h => ?_⟩
    by_cases he : e.1 = cid
    · have hend := chainEnd_chain (st := St.stateLost) (i := e.2.idx) (s := s) (c := c) (show s.chain e.1 = some c by rw [he]; exact hc)
      rw [he] at hend hlost
      exact hlost cid _ hend (Or.inl ⟨_, hend, rfl, rfl⟩)
    · have hsame : Tab.get? (chainEnd e.1 St.stateLost e.2.idx s).flm.chains cid = Tab.get? s.flm.chains cid :=
        chainEnd_chain_ne (st := St.stateLost) (i := e.2.idx) (Ne.symm he)
      refine hlost cid c (hsame.trans hc) ?_
      rcases h with ⟨c', hc', hst⟩ | ⟨e', hmem, hkey⟩
      · exact Or.inl ⟨c', hsame.trans hc', hst⟩
      · rcases List.mem_cons.1 hmem with rfl | hmem
        · exact absurd hkey he
        · exact Or.inr ⟨e', hmem, hkey⟩

/-- What a lost slot leaves: its tiles are nobody's, and its chains have ended. -/
theorem loseSlot_effect (hy : s.queue q = some y) (hm : x.moving = none) :
    (loseSlot q i x s).queue q = some { y with slots := y.slots.set i { x with lost := true } } ∧
      (∀ n ∈ x.tiles, Tab.get? (loseSlot q i x s).bsn.owner (x.basin * 512 + n) = none) ∧
      ∀ cid c, s.chain cid = some c → c.queue = q → c.slot = i → c.st ≠ .ended → ∃ c', (loseSlot q i x s).chain cid = some c' ∧
        c'.st = .ended ∧ c'.status = St.stateLost := by
  have hx' : { x with lost := true, moving := none } = { x with lost := true } := by rw [← hm]
  have howner : (returnTiles x.basin x.tiles s).bsn.owner = x.tiles.foldl (fun o t => Tab.del o (x.basin * 512 + t)) s.bsn.owner := rfl
  have hqueue := setSlot_queue (s := returnTiles x.basin x.tiles s) (i := i) (x' := { x with lost := true, moving := none }) hy
  unfold loseSlot
  dsimp only
  generalize hw : State.modBasin _ x.basin _ = w
  have hwflm : w.flm = (setSlot q i { x with lost := true, moving := none } (returnTiles x.basin x.tiles s)).flm := by rw [← hw]; rfl
  have hwowner : w.bsn.owner = (returnTiles x.basin x.tiles s).bsn.owner := by rw [← hw]; rfl
  generalize hl : w.flm.chains.filter _ = l
  obtain ⟨m, hm, hlost⟩ := foldl_chainEnd_lost l w
  rw [hm]
  obtain ⟨z, g, hz, hzowner, -⟩ := offIfDue_store x.basin { w with flm := { w.flm with chains := m } }
  rw [hz]
  refine ⟨?_, fun n hn => ?_, fun cid c hc hcq hci hst => ?_⟩
  · show Tab.get? w.flm.queues q = _
    rw [hwflm, ← hx']
    exact hqueue
  · show Tab.get? z.owner _ = _
    rw [hzowner]
    show Tab.get? w.bsn.owner _ = _
    rw [hwowner, howner]
    exact (Tab.get?_foldl_del (fun t => x.basin * 512 + t) x.tiles s.bsn.owner _).trans (if_pos ⟨n, hn, rfl⟩)
  · have hc' : Tab.get? w.flm.chains cid = some c := by rw [hwflm]; exact hc
    refine hlost cid c hc' (Or.inr ⟨(cid, c), ?_, rfl⟩)
    rw [← hl]
    refine List.mem_filter.2 ⟨Tab.mem_of_get? hc', ?_⟩
    simp [hcq, hci, hst]

theorem slotMove_loses (hy : s.queue q = some y) (hx : y.slots[i]? = some x) (hl : x.lost = false) (hm : x.moving = none)
    (hq : (s.basin x.basin).quar = .heldOut) (hb : moveTarget s y x = none) (hg : y.group = none) :
    slotMoveGroup q i s = loseSlot q i x s := by
  have hmove := slotMove_due hy hx hl hm hq
  rw [hb] at hmove
  exact slotMoveGroup_eq hmove (loseSlot_effect hy hm).1 (Or.inl hg)

end

/-! ### A slot's window copied to its new basin -/

/-- Tiles of one basin written over tiles of another, pair by pair. -/
def copyTiles (a b : Nat) (pairs : List (Nat × Nat)) (m : Mem) : Mem :=
  pairs.foldl (fun m p => m.writeN (storeKey b (4096 * p.2)) (m.readN (storeKey a (4096 * p.1)) 4096)) m

theorem foldl_copy (a b : Nat) (pairs : List (Nat × Nat)) (s : State) :
    pairs.foldl (fun s p => { s with bsn := { s.bsn with
      store := s.bsn.store.writeN (storeKey b (4096 * p.2)) (readStore s a (4096 * p.1) 4096) } }) s =
      { s with bsn := { s.bsn with store := copyTiles a b pairs s.bsn.store } } := by
  unfold copyTiles
  exact List.foldl_hom (fun m => ({ s with bsn := { s.bsn with store := m } } : State)) fun m p => rfl

theorem Mem.length_readN (m : Mem) (a n : Nat) : (m.readN a n).length = n := by rw [Mem.readN, List.length_map, List.length_range]

theorem Mem.readN_getD (m : Mem) (a : Nat) {n j : Nat} (hj : j < n) : (m.readN a n).getD j 0 = m.read (a + j) := by
  rw [Mem.readN, List.getD_eq_getElem _ _ (by rw [List.length_map, List.length_range]; exact hj), List.getElem_map, List.getElem_range]

theorem readStore_congr {s v : State} {b a c d n : Nat} (h : ∀ k < n, Mem.read v.bsn.store (storeKey b a + k) =
    Mem.read s.bsn.store (storeKey c d + k)) : readStore v b a n = readStore s c d n :=
  List.map_congr_left fun k hk => h k (List.mem_range.1 hk)

/-- Each pair's second tile holds what its first one held. -/
theorem copyTiles_read {a b : Nat} (hab : a ≠ b) (pairs : List (Nat × Nat)) {m : Mem} (hwf : Mem.wf m = true)
    (hlt : ∀ p ∈ pairs, p.1 < 512 ∧ p.2 < 512) (hnd : (pairs.map (·.2)).Nodup) : Mem.wf (copyTiles a b pairs m) = true ∧
      (∀ k, (∀ p ∈ pairs, k < storeKey b (4096 * p.2) ∨ storeKey b (4096 * p.2) + 4096 ≤ k) → (copyTiles a b pairs m).read k = m.read k) ∧
      ∀ p ∈ pairs, ∀ j < 4096, (copyTiles a b pairs m).read (storeKey b (4096 * p.2) + j) = m.read (storeKey a (4096 * p.1) + j) := by
  induction pairs generalizing m with
  | nil => exact ⟨hwf, fun _ _ => rfl, fun p hp => absurd hp List.not_mem_nil⟩
  | cons p l ih =>
    obtain ⟨hpl, hnd⟩ := List.nodup_cons.1 hnd
    obtain ⟨hp1, hp2⟩ := hlt p (List.mem_cons_self ..)
    have hlen := Mem.length_readN m (storeKey a (4096 * p.1)) 4096
    have hget : ∀ j < 4096, _ := fun j hj => Mem.readN_getD m (storeKey a (4096 * p.1)) (n := 4096) (j := j) hj
    have hcons : copyTiles a b (p :: l) m = copyTiles a b l (m.writeN (storeKey b (4096 * p.2)) (m.readN (storeKey a (4096 * p.1)) 4096)) := by
      unfold copyTiles
      rw [List.foldl_cons]
    rw [hcons]
    generalize m.readN (storeKey a (4096 * p.1)) 4096 = bs at hlen hget ⊢
    have hm0 := Mem.wf_writeN (storeKey b (4096 * p.2)) bs hwf
    have hread := fun k => Mem.read_writeN (storeKey b (4096 * p.2)) k bs hwf
    generalize m.writeN (storeKey b (4096 * p.2)) bs = m0 at hm0 hread ⊢
    rw [hlen] at hread
    obtain ⟨hmwf, hout, hin⟩ := ih hm0 (fun p hp => hlt p (List.mem_cons_of_mem _ hp)) hnd
    refine ⟨hmwf, fun k hk => ?_, fun w hw j hj => ?_⟩
    · have hk0 := hk p (List.mem_cons_self ..)
      rw [hout k fun w hw => hk w (List.mem_cons_of_mem _ hw), hread, if_neg (by omega)]
    · rcases List.mem_cons.1 hw with rfl | hw
      · have hfar : ∀ v ∈ l, storeKey b (4096 * w.2) + j < storeKey b (4096 * v.2) ∨
            storeKey b (4096 * v.2) + 4096 ≤ storeKey b (4096 * w.2) + j := fun v hv => by
          have hne : w.2 ≠ v.2 := fun e => hpl (List.mem_map.2 ⟨v, hv, e.symm⟩)
          unfold storeKey
          omega
        rw [hout _ hfar, hread, if_pos (by omega), Nat.add_sub_cancel_left, hget j hj]
      · obtain ⟨hw1, -⟩ := hlt w (List.mem_cons_of_mem _ hw)
        rw [hin w hw j hj, hread, if_neg (by unfold storeKey; omega)]

section
variable {s : State} {q i b : Nat} {x : Slot} {y : Queue}

/-- The tiles of a basin that are a queue's. -/
def ownedTiles (s : State) (b q : Nat) : List Nat := (List.range 512).filter fun n => Tab.get? s.bsn.owner (b * 512 + n) == some q

theorem ownedTiles_lt {n : Nat} (h : n ∈ ownedTiles s b q) : n < 512 := by
  rw [ownedTiles, List.mem_filter, List.mem_range] at h
  exact h.1

/-- The end of a slot's copy, for a queue without chains whose other slots lie elsewhere. -/
theorem slotCopied_effect (hy : s.queue q = some y) (hx : y.slots[i]? = some x) (hm : x.moving = some b) (hb : b ≠ x.basin)
    (hw : s.pwr.window = false) (hr : (s.basin x.basin).replaying = false) (ht : (s.basin x.basin).tagged = []) (hc : s.flm.chains = [])
    (hwf : Mem.wf s.bsn.store = true) (hz : ∀ z ∈ y.slots, z.lost = false → z.basin ≠ b) (hlt : ∀ n ∈ x.tiles, n < 512)
    (hlen : ((ownedTiles s b q).take y.ntiles).length = x.tiles.length) (ha : asleep s x.basin = false) (hab : asleep s b = false) :
    ∃ v y', slotCopied q i s = v ∧ v.queue q = some y' ∧ y'.slots[i]? = some { basin := b, tiles := (ownedTiles s b q).take y.ntiles } ∧
      (∀ j < ((ownedTiles s b q).take y.ntiles).length, readStore v b (4096 * ((ownedTiles s b q).take y.ntiles).getD j 0) 4096 =
        readStore s x.basin (4096 * x.tiles.getD j 0) 4096) ∧ ∀ n ∈ x.tiles, Tab.get? v.bsn.owner (x.basin * 512 + n) = none := by
  have hnew : ((List.range 512).filter fun n => Tab.get? s.bsn.owner (b * 512 + n) == some q &&
      !(y.slots.any fun z => z.basin == b && !z.lost && z.tiles.contains n)) = ownedTiles s b q := by
    refine List.filter_congr fun n _ => ?_
    have hany : (y.slots.any fun z => z.basin == b && !z.lost && z.tiles.contains n) = false := by
      refine List.any_eq_false.2 fun z hmem => ?_
      cases hl : z.lost with
      | true => simp
      | false => simp [hz z hmem hl]
    rw [hany, Bool.not_false, Bool.and_true]
  generalize hnews : (ownedTiles s b q).take y.ntiles = new at hlen ⊢
  have hnlt : ∀ n ∈ new, n < 512 := fun n hn => ownedTiles_lt (List.mem_of_mem_take (hnews ▸ hn))
  have hnd : new.Nodup := hnews ▸ (List.nodup_range.filter _).sublist (List.take_sublist ..)
  have hpairs : ∀ p ∈ x.tiles.zip new, p.1 < 512 ∧ p.2 < 512 := fun p hp => ⟨hlt _ (List.of_mem_zip hp).1, hnlt _ (List.of_mem_zip hp).2⟩
  have hsnd : (x.tiles.zip new).map (·.2) = new := List.map_snd_zip (Nat.le_of_eq hlen)
  obtain ⟨hmwf, -, hin⟩ := copyTiles_read (Ne.symm hb) (x.tiles.zip new) hwf hpairs (by rw [hsnd]; exact hnd)
  have hcopy := foldl_copy x.basin b (x.tiles.zip new) s
  generalize copyTiles x.basin b (x.tiles.zip new) s.bsn.store = m at hmwf hin hcopy
  unfold slotCopied
  rw [hy]
  dsimp only
  rw [hx]
  dsimp only
  rw [hm]
  dsimp only
  rw [hnew, hnews, hc, ha, hab, hr, ht, hw, if_neg (by simp)]
  rw [hcopy]
  generalize hw1 : State.modBasin _ b _ = w
  have hwflm : w.flm = s.flm := by rw [← hw1]; rfl
  have hwstore : w.bsn.store = m := by rw [← hw1]; rfl
  have hqueue := setSlot_queue (s := returnTiles x.basin x.tiles w) (i := i) (x' := { basin := b, tiles := new })
    (show Tab.get? (returnTiles x.basin x.tiles w).flm.queues q = some y from by
      show Tab.get? w.flm.queues q = _
      rw [hwflm]
      exact hy)
  obtain ⟨z, g, hz, hzowner, l, hl, hzstore⟩ := offIfDue_store x.basin (setSlot q i { basin := b, tiles := new } (returnTiles x.basin x.tiles w))
  refine ⟨_, { y with slots := y.slots.set i { basin := b, tiles := new } }, rfl, ?_, slot_set hx, fun j hj => ?_, fun n hn => ?_⟩
  · rw [hz]
    exact hqueue
  · rw [hz]
    have hj' : j < x.tiles.length := hlen ▸ hj
    have hmem : (x.tiles[j], new[j]) ∈ x.tiles.zip new := by
      rw [← List.getElem_zip (h := by rw [List.length_zip, hlen, Nat.min_self]; exact hj')]
      exact List.getElem_mem _
    rw [List.getD_eq_getElem _ _ hj, List.getD_eq_getElem _ _ hj']
    refine readStore_congr fun k hk => ?_
    have hn := hnlt _ (List.getElem_mem hj)
    have hfar : ∀ t : List Nat, (∀ n ∈ t, n < 512) → ∀ n ∈ t, storeKey b (4096 * new[j]) + k < storeKey x.basin (4096 * n) ∨
        storeKey x.basin (4096 * n) + 4096 ≤ storeKey b (4096 * new[j]) + k := fun t ht n hmem => by
      have := ht n hmem
      unfold storeKey
      omega
    show Mem.read z.store _ = _
    rw [hzstore]
    have hback : (setSlot q i { basin := b, tiles := new } (returnTiles x.basin x.tiles w)).bsn.store =
        x.tiles.foldl (fun m n => m.zero (storeKey x.basin (4096 * n)) 4096) w.bsn.store := rfl
    rw [hback, hwstore]
    obtain ⟨hwf1, hr1⟩ := Mem.read_foldl_zero_outside (fun n => storeKey x.basin (4096 * n)) 4096 x.tiles hmwf (hfar _ hlt)
    obtain ⟨-, hr2⟩ := Mem.read_foldl_zero_outside (fun n => storeKey x.basin (4096 * n)) 4096 l hwf1 (hfar _ hl)
    rw [hr2, hr1]
    exact hin _ hmem k hk
  · rw [hz]
    show Tab.get? z.owner _ = _
    rw [hzowner]
    exact (Tab.get?_foldl_del (fun t => x.basin * 512 + t) x.tiles w.bsn.owner _).trans (if_pos ⟨n, hn, rfl⟩)

end

/-! ### The replay of a dip window -/

section
variable {s : State} {b cid idx : Nat} {c : Chain} {x : Basin} {o : Tagged}

/-- Writes made anew, one after another. -/
theorem foldl_writeStore (b : Nat) (l : List (Nat × Bytes)) (s : State) (h : s.pwr.window = false) : ∃ y : Basins,
    l.foldl (fun s w => (writeStore b w.1 w.2 s).1) s = { s with bsn := y } ∧
      y.store = l.foldl (fun m w => storePut b w.1 w.2 m) s.bsn.store ∧ y.marked s.bsn := by
  induction l generalizing s with
  | nil => exact ⟨s.bsn, rfl, rfl, Basins.marked_refl _⟩
  | cons w l ih =>
    obtain ⟨y, hy, hstore, hmark⟩ := writeStore_marked s b w.1 w.2 h
    obtain ⟨z, hz, hstore', hmark'⟩ := ih { s with bsn := y } h
    refine ⟨z, ?_, by rw [hstore', hstore, List.foldl_cons], Basins.marked_trans hmark' hmark⟩
    rw [List.foldl_cons, hy]
    exact hz

/-- The store once the saved tiles of a basin are put back. -/
def undoPut (b : Nat) (s : State) : Mem := (s.basin b).undo.foldl (fun m e => m.writeN (storeKey b (4096 * e.1)) e.2.1) s.bsn.store

/-- The marks of a tile put back. -/
def undoMarks (e : Nat × Bytes × Option Word × Bool) (x : Basin) : Basin := { x with
  sums := (match e.2.2.1 with
    | some v => Tab.set x.sums e.1 v
    | none => Tab.del x.sums e.1),
  once := x.once.filter (· != e.1) ++ (if e.2.2.2 then [e.1] else []) }

/-- The saved tiles are put back: the store and the marks change, the taint of no tile. -/
theorem restoreUndo_eq (b : Nat) (s : State) : ∃ y : Basins, restoreUndo b s = { s with bsn := y } ∧ y.store = undoPut b s ∧
    y.marked s.bsn := by
  unfold restoreUndo undoPut
  generalize (s.basin b).undo = l
  induction l generalizing s with
  | nil => exact ⟨s.bsn, rfl, rfl, Basins.marked_refl _⟩
  | cons e l ih =>
    rw [List.foldl_cons, List.foldl_cons]
    generalize Mem.writeN s.bsn.store _ e.2.1 = m
    obtain ⟨z, hz, hstore, hmark⟩ := ih (State.modBasin { s with bsn := { s.bsn with store := m } } b (undoMarks e))
    exact ⟨z, hz, hstore, Basins.marked_trans hmark
      (modBasin_marked { s with bsn := { s.bsn with store := m } } b fun x => ⟨_, _, x.taint, rfl, fun _ h => h⟩)⟩

theorem destroyProgress_idle (h : ∀ e ∈ s.flm.queues, e.2.destroying = false) : destroyProgress s = s := by
  unfold destroyProgress
  rw [List.filter_eq_nil_iff.2 fun e he => by rw [h e he]; decide, List.foldl_nil]

/-- A chain after the replay of some operations: as far as it was, and replayed where one of them was its own. -/
def replayedAs (l : List Tagged) (cid : Nat) (c c' : Chain) : Prop :=
  c'.status = c.status ∧ c'.idx = c.idx ∧ (c.replayed = true → c'.replayed = true) ∧
    ((∃ o ∈ l, ∃ idx, o.op = .desc cid idx) → c'.replayed = true)

/-- Operations that can be done again and hold nothing outbound are: their writes are in the store, their chains are marked. -/
theorem foldl_replayOp (b : Nat) (l : List Tagged) (s : State) (h : s.pwr.window = false)
    (hl : ∀ o ∈ l, o.outbound = [] ∧ ∃ cid idx, o.op = .desc cid idx) : ∃ y g m,
    l.foldl (fun s t => replayOp b t s) s = { s with bsn := y, gauges := g, flm := { s.flm with chains := m } } ∧
      y.store = (l.flatMap (·.writes)).foldl (fun m w => storePut b w.1 w.2 m) s.bsn.store ∧ y.marked s.bsn ∧
      ∀ cid c, s.chain cid = some c → ∃ c', Tab.get? m cid = some c' ∧ replayedAs l cid c c' := by
  induction l generalizing s with
  | nil =>
    exact ⟨s.bsn, s.gauges, s.flm.chains, rfl, rfl, Basins.marked_refl _, fun cid c hc => ⟨c, hc, rfl, rfl, id, fun ⟨_, ho, _⟩ =>
      absurd ho List.not_mem_nil⟩⟩
  | cons o l ih =>
    obtain ⟨hout, cid, idx, hop⟩ := hl o (List.mem_cons_self ..)
    obtain ⟨g0, hg0⟩ : ∃ g, bsnCount 3 1 b 1 s = { s with gauges := g } := ⟨_, rfl⟩
    obtain ⟨y0, hy0, hstore0, hmark0⟩ := foldl_writeStore b o.writes { s with gauges := g0 } h
    have hone : replayOp b o s = State.modChain { s with bsn := y0, gauges := g0 } cid fun c => { c with replayed := true } := by
      unfold replayOp
      rw [hg0, hop]
      dsimp only
      rw [hout, hy0, List.foldl_nil]
    obtain ⟨y, g, m, hfold, hstore, hmark, hchain⟩ := ih (replayOp b o s) (by rw [hone]; exact h) fun o ho => hl o (List.mem_cons_of_mem _ ho)
    rw [List.foldl_cons]
    rw [hone] at hfold hstore hmark hchain ⊢
    refine ⟨y, g, m, hfold, ?_, Basins.marked_trans hmark hmark0, fun k c hc => ?_⟩
    · rw [hstore, List.flatMap_cons, List.foldl_append]
      exact congrArg (fun z => (l.flatMap (·.writes)).foldl (fun m w => storePut b w.1 w.2 m) z) hstore0
    · have hk := State.chain_modChain_eq { s with bsn := y0, gauges := g0 } cid k fun c => { c with replayed := true }
      rw [show State.chain { s with bsn := y0, gauges := g0 } k = some c from hc] at hk
      by_cases e : cid = k
      · rw [if_pos e] at hk
        obtain ⟨c', hc', hst, hi, hr, -⟩ := hchain k _ hk
        exact ⟨c', hc', hst, hi, fun _ => hr rfl, fun _ => hr rfl⟩
      · rw [if_neg e] at hk
        obtain ⟨c', hc', hst, hi, hr, hr'⟩ := hchain k _ hk
        refine ⟨c', hc', hst, hi, hr, fun ⟨o', ho', i', hop'⟩ => ?_⟩
        rcases List.mem_cons.1 ho' with rfl | ho'
        · rw [hop] at hop'
          exact absurd (BasinOp.desc.inj hop').1 e
        · exact hr' ⟨o', ho', i', hop'⟩

/-- The basin once its saved tiles are back and its window is closed. -/
def windowOver (b : Nat) (left : List Nat) (s : State) : State :=
  (restoreUndo b s).modBasin b fun y => { y with
    tagged := [], undo := [], inbound := [], holdBytes := 0, replaying := false, restarts := 0, idleSince := s.now,
    taint := y.taint ++ left.filter fun t => !y.taint.contains t }

theorem windowOver_effect (b : Nat) (left : List Nat) (s : State) : ∃ y, windowOver b left s = { s with bsn := y } ∧
    y.store = undoPut b s ∧ (∃ z, Tab.getD y.tab b {} = z ∧ z.tagged = [] ∧ z.undo = [] ∧ z.replaying = false ∧
      z.current = (s.basin b).current ∧ (∀ n ∈ left, n ∈ z.taint) ∧ ∀ n ∈ z.taint, n ∈ (s.basin b).taint ∨ n ∈ left) := by
  obtain ⟨y, hy, hstore, hmark⟩ := restoreUndo_eq b s
  obtain ⟨u, v, w, hb, hw⟩ := hmark.2 b
  have hw' : ∀ n ∈ w, n ∈ (s.basin b).taint := hw
  unfold windowOver
  rw [hy]
  refine ⟨_, rfl, hstore, _, Tab.getD_set_self _ b _ ({} : Basin), ?_⟩
  refine ⟨rfl, rfl, rfl, ?_, fun n hn => ?_, fun n hn => ?_⟩
  · show (Tab.getD y.tab b {}).current = _
    rw [hb]
    rfl
  · by_cases hmem : n ∈ (Tab.getD y.tab b {}).taint
    · exact List.mem_append_left _ hmem
    · refine List.mem_append_right _ (List.mem_filter.2 ⟨hn, ?_⟩)
      rw [Bool.not_eq_true']
      exact Bool.eq_false_iff.2 fun h => hmem (List.contains_iff_mem.1 h)
  · rcases List.mem_append.1 hn with h | h
    · rw [State.basin, hb] at h
      exact Or.inl (hw' n h)
    · exact Or.inr (List.mem_of_mem_filter h)

theorem windowReplay_due (hw : s.pwr.window = false) (hr : (s.basin b).replaying = true) (hn : (s.basin b).restarts < 3) : windowReplay b s =
    let good := (s.basin b).tagged.takeWhile fun t => !t.lost
    let rest := (s.basin b).tagged.drop good.length
    let left := ((rest.flatMap (·.writes)).map fun w => w.1 / 4096).eraseDups.filter fun t => (Tab.get? (s.basin b).undo t).isNone
    let w := rest.foldl (fun s t => retryOp b t s) (good.foldl (fun s t => replayOp b t s) (windowOver b left s))
    destroyProgress (match (w.basin b).current with
      | some cid => queryDone cid w
      | none => w) := by
  unfold windowReplay
  dsimp only
  rw [hw, hr, if_neg (by decide), if_neg (Nat.not_le.2 hn)]
  rfl

/-- A replay of operations that can all be done again and hold nothing outbound. -/
theorem windowReplay_again (hx : s.basin b = x) (hw : s.pwr.window = false) (hr : x.replaying = true) (hn : x.restarts < 3)
    (hc : x.current = none) (hq : ∀ e ∈ s.flm.queues, e.2.destroying = false)
    (hall : ∀ o ∈ x.tagged, o.lost = false ∧ o.outbound = [] ∧ ∃ cid idx, o.op = .desc cid idx) : ∃ v, windowReplay b s = v ∧
      (v.basin b).replaying = false ∧ (v.basin b).tagged = [] ∧ (v.basin b).undo = [] ∧
      v.bsn.store = (x.tagged.flatMap (·.writes)).foldl (fun m w => storePut b w.1 w.2 m) (undoPut b s) ∧
      (∀ n ∈ (v.basin b).taint, n ∈ x.taint) ∧ (∀ o ∈ x.tagged, ∀ cid idx c, o.op = .desc cid idx → s.chain cid = some c →
        ∃ c', v.chain cid = some c' ∧ c'.replayed = true ∧ c'.status = c.status ∧ c'.idx = c.idx) ∧ (v.out = s.out ∧ v.mem = s.mem) ∧
      v.col = s.col ∧ v.sec = s.sec := by
  have hgood : x.tagged.takeWhile (fun t => !t.lost) = x.tagged := by
    refine List.takeWhile_eq_self_iff.2 fun o ho => ?_
    rw [(hall o ho).1]
    rfl
  obtain ⟨y, hy, hstore, z, hz, htag, hundo, hrep, hcur, -, htaint⟩ := windowOver_effect b [] s
  obtain ⟨y', g, m, hfold, hstore', hmark, hchain⟩ := foldl_replayOp b x.tagged { s with bsn := y } hw fun o ho => (hall o ho).2
  obtain ⟨u, v, w, hb, hsub⟩ := hmark.2 b
  have hb' : Tab.getD y'.tab b {} = { z with sums := u, once := v, taint := w } := by rw [hb]; exact congrArg (fun z : Basin => { z with sums := u, once := v, taint := w }) hz
  have hrow : windowReplay b s = { s with bsn := y', gauges := g, flm := { s.flm with chains := m } } := by
    rw [windowReplay_due hw (by rw [hx]; exact hr) (by rw [hx]; exact hn)]
    dsimp only
    rw [hx, hgood, List.drop_length, List.flatMap_nil, List.map_nil, List.eraseDups_nil, List.filter_nil, List.foldl_nil, hy, hfold]
    have hcurrent : (Tab.getD y'.tab b {}).current = none := by
      rw [hb']
      exact hcur.trans (by rw [hx, hc])
    rw [State.basin, hcurrent]
    exact destroyProgress_idle hq
  refine ⟨_, hrow, ?_, ?_, ?_, ?_, fun n hn => ?_, fun o ho cid idx c hop hc => ?_, ⟨rfl, rfl⟩, rfl, rfl⟩
  · rw [State.basin, hb']; exact hrep
  · rw [State.basin, hb']; exact htag
  · rw [State.basin, hb']; exact hundo
  · refine hstore'.trans ?_
    exact congrArg (fun z => (x.tagged.flatMap (·.writes)).foldl (fun m w => storePut b w.1 w.2 m) z) hstore
  · rw [State.basin, hb'] at hn
    have hn' : n ∈ (Tab.getD y.tab b {}).taint := hsub n hn
    rw [hz] at hn'
    rcases htaint n hn' with h | h
    · rw [hx] at h
      exact h
    · exact absurd h List.not_mem_nil
  · obtain ⟨c', hc', hst, hi, -, hr'⟩ := hchain cid c hc
    exact ⟨c', hc', hr' ⟨o, ho, idx, hop⟩, hst, hi⟩

/-- An operation that is not done again ends its chain DIP_RETRY (09 R299). -/
theorem retryOp_effect (hop : o.op = .desc cid idx) (hch : s.chain cid = some c) (hst : c.status ≠ St.dipRetry)
    (hc : (s.basin b).current = none) : ∃ v c', retryOp b o s = v ∧
      ((v.basin b).replaying = (s.basin b).replaying ∧ (v.basin b).tagged = (s.basin b).tagged ∧ (v.basin b).taint = (s.basin b).taint ∧
        (v.basin b).current = none) ∧ v.bsn.store = s.bsn.store ∧ v.chain cid = some c' ∧ c'.st = .ended ∧ c'.status = St.dipRetry ∧
      c'.index = idx ∧ v.flm.queues = s.flm.queues ∧ v.col = s.col ∧ v.sec = s.sec := by
  unfold retryOp
  dsimp only
  rw [hop]
  dsimp only
  generalize (o.outbound.filter _).length = pool
  generalize hu : bsnCount 3 2 b 1 (s.bsnEvent b 5) = u
  have hub : u.basin b = { s.basin b with event := setBit (s.basin b).event 5 } := by
    rw [← hu]
    exact State.basin_modBasin_self s b fun x => { x with event := setBit x.event 5 }
  have huc : u.chain cid = some c := by
    rw [← hu]
    exact hch
  have hus : u.bsn.store = s.bsn.store := by rw [← hu]; rfl
  have huq : u.flm.queues = s.flm.queues ∧ u.col = s.col ∧ u.sec = s.sec := by rw [← hu]; exact ⟨rfl, rfl, rfl⟩
  rw [huc]
  dsimp only
  rw [if_neg fun h => hst h.2.1]
  have h1 : State.chain ((u.modChain cid fun c => { c with unacked := c.unacked - pool, net := Tab.del c.net idx }).modBasin b fun x =>
      { x with current := if x.current = some cid then none else x.current }) cid = _ := State.chain_modChain u _ huc
  have hb := State.basin_modBasin_self (u.modChain cid fun c => { c with unacked := c.unacked - pool, net := Tab.del c.net idx }) b fun x =>
    { x with current := if x.current = some cid then none else x.current }
  have hb' : State.basin (u.modChain cid fun c => { c with unacked := c.unacked - pool, net := Tab.del c.net idx }) b = _ := hub
  rw [hb'] at hb
  have hws : ((u.modChain cid fun c => { c with unacked := c.unacked - pool, net := Tab.del c.net idx }).modBasin b fun x =>
      { x with current := if x.current = some cid then none else x.current }).bsn.store = s.bsn.store := hus
  have hwq : ∀ x : State, x = ((u.modChain cid fun c => { c with unacked := c.unacked - pool, net := Tab.del c.net idx }).modBasin b fun x =>
      { x with current := if x.current = some cid then none else x.current }) →
      x.flm.queues = s.flm.queues ∧ x.col = s.col ∧ x.sec = s.sec := fun x hx => by rw [hx]; exact huq
  generalize State.modBasin (u.modChain cid _) b _ = w at h1 hb hws hwq ⊢
  have h2 := chainEnd_chain (st := St.dipRetry) (i := idx) h1
  have h3 := State.chain_modChain _ (fun c => { c with failed := none }) h2
  have hv : State.basin ((chainEnd cid St.dipRetry idx w).modChain cid fun c => { c with failed := none }) b = w.basin b := rfl
  refine ⟨_, _, rfl, ⟨?_, ?_, ?_, ?_⟩, hws, h3, rfl, rfl, rfl, hwq w rfl⟩
  · rw [hv, hb]
  · rw [hv, hb]
  · rw [hv, hb]
  · rw [hv, hb, hc]
    rfl

/-- A replay whose one operation cannot be done again ends its chain DIP_RETRY and taints what it left. -/
theorem windowReplay_retries (hx : s.basin b = x) (hw : s.pwr.window = false) (hr : x.replaying = true) (hn : x.restarts < 3)
    (hc : x.current = none) (hq : ∀ e ∈ s.flm.queues, e.2.destroying = false) (ho : x.tagged = [o]) (hl : o.lost = true)
    (hop : o.op = .desc cid idx) (hch : s.chain cid = some c) (hst : c.status ≠ St.dipRetry) : ∃ v c', windowReplay b s = v ∧
      (v.basin b).replaying = false ∧ (v.basin b).tagged = [] ∧ v.bsn.store = undoPut b s ∧ v.chain cid = some c' ∧
      c'.st = .ended ∧ c'.status = St.dipRetry ∧ c'.index = idx ∧
      (∀ w ∈ o.writes, Tab.get? x.undo (w.1 / 4096) = none → (w.1 / 4096 ∈ (v.basin b).taint)) ∧ v.col = s.col ∧ v.sec = s.sec := by
  let left := (o.writes.map fun w => w.1 / 4096).eraseDups.filter fun t => (Tab.get? x.undo t).isNone
  obtain ⟨y, hy, hstore, z, hz, htag, hundo, hrep, hcur, hleft, -⟩ := windowOver_effect b left s
  have hdrop : (s.basin b).tagged.takeWhile (fun t => !t.lost) = [] := by rw [hx, ho, List.takeWhile_cons, hl]; rfl
  have hrow : windowReplay b s = destroyProgress (match ((retryOp b o { s with bsn := y }).basin b).current with
      | some cid => queryDone cid (retryOp b o { s with bsn := y })
      | none => retryOp b o { s with bsn := y }) := by
    rw [windowReplay_due hw (by rw [hx]; exact hr) (by rw [hx]; exact hn)]
    dsimp only
    rw [hdrop, hx, ho, List.length_nil, List.drop_zero, List.foldl_nil, List.foldl_cons, List.foldl_nil, List.flatMap_cons,
      List.flatMap_nil, List.append_nil, hy]
  obtain ⟨v, c', hv, hb, hs, hvc, hended, hstatus, hindex, hqueues, hcol, hsec⟩ := retryOp_effect (s := { s with bsn := y }) (b := b) hop hch hst (by
    rw [State.basin, hz, hcur, hx, hc])
  rw [hv, hb.2.2.2] at hrow
  have hidle : destroyProgress v = v := destroyProgress_idle fun e he => hq e (hqueues ▸ he)
  refine ⟨v, c', hrow.trans hidle, ?_, ?_, hs.trans hstore, hvc, hended, hstatus, hindex, fun w hmem hu => ?_, hcol, hsec⟩
  · rw [hb.1, State.basin, hz, hrep]
  · rw [hb.2.1, State.basin, hz, htag]
  · rw [hb.2.2.1, State.basin, hz]
    refine hleft _ (List.mem_filter.2 ⟨List.mem_eraseDups.2 (List.mem_map.2 ⟨w, hmem, rfl⟩), ?_⟩)
    rw [hu]
    rfl

end

/-! ### The statement -/

/-- A chain's turn comes (10 R344), or its time runs out (10 R346). -/
theorem turn_outcome {w : State} {cid k target : Nat} {c : Chain} {q : Queue} {dl : Option Time} {x : Turn} {z : Slot}
    (hc : w.chain cid = some c) (hst : c.st = .turnWait k target dl) (hx : w.turn k = some x) (hq : w.queue c.queue = some q)
    (hz : slotOf w c = some z) (hr : (w.basin z.basin).replaying = false) :
    (turnReached x.value target = true → c.failed = none → q.destroying = false →
      (∀ d, Tab.get? c.descs c.idx = some d → bitOf (byteAt d 1) 1 = false) → ∃ v c', turnSatisfied cid w = v ∧ v.chain cid = some c' ∧
        c'.idx = c.idx + 1 ∧ c'.value = x.value ∧ (c.idx + 1 < c.count → c'.st = .ready) ∧
        (c.count ≤ c.idx + 1 → c'.st = .ended ∧ c'.status = St.ok) ∧ v.flm.turns = w.flm.turns ∧ v.out = w.out) ∧
      ∀ at0, dl = some at0 → turnReached x.value target = false → at0 < w.now → ∃ v c', turnTimeout cid w = v ∧ v.chain cid = some c' ∧
        c'.st = .ended ∧ c'.status = St.busy ∧ c'.index = c.idx ∧ v.flm.turns = w.flm.turns := by
  refine ⟨fun ht hf hd hrep => ?_, fun at0 hdl ht hn => ?_⟩
  · obtain ⟨y, g, hv⟩ := turnSatisfied_goes hc hst hx hq hz hr ht hf hd hrep
    exact ⟨_, goesOn c x.value 0, hv, Tab.get?_set_self .., goesOn_idx .., goesOn_value .., fun h => goesOn_ready (skip := 0) h, fun h => goesOn_ended (skip := 0) h, rfl, rfl⟩
  · obtain ⟨y, g, hv⟩ := turnTimeout_ends hc (hdl ▸ hst) hx hz hr ht hn
    exact ⟨_, _, hv, chainEnd_chain hc, rfl, rfl, rfl, rfl⟩

/-- What follows a replay: groups and levees that waited for it go on. -/
def replayEnd (s : State) : State := retireProgress (groupProgress s)

/-- With no group and no levee retiring, nothing follows a replay. -/
theorem replayEnd_idle {s v : State} (hcol : v.col = s.col) (hsec : v.sec = s.sec) (hg : s.col.groups = [])
    (hl : ∀ e ∈ s.sec.levees, e.2.retiring = false) : replayEnd v = v := by
  have hlev : v.sec.levees.filter (fun e => e.2.retiring) = [] := by
    rw [hsec]
    exact List.filter_eq_nil_iff.2 fun e he => by rw [hl e he]; decide
  rw [replayEnd, groupProgress, hcol, hg, List.filter_nil, List.foldl_nil, retireProgress, hlev, List.foldl_nil]

/-- Settles O40: each event is its own lemma above, on the state at the event's instant. -/
theorem turnsWaitAndSlotsMove : Obligations.TurnsWaitAndSlotsMove := by
  unfold Obligations.TurnsWaitAndSlotsMove
  intro t s u
  refine ⟨?_, fun v target hv ht => turnReached_iff hv ht, ?_, ?_, ?_⟩
  · intro cid c q k target dl x z hc hst hx hq hz hr
    obtain ⟨hgo, hend⟩ := turn_outcome (w := u) hc hst hx hq hz hr
    refine ⟨fun ht hf hd hrep => ?_, fun ht => congrArg Host.Outcome.next (turnSatisfied_waits (s := u) hc hst hx ht), ?_⟩
    · obtain ⟨v, c', hv, h⟩ := hgo ht hf hd hrep
      exact ⟨v, c', congrArg Host.Outcome.next hv, h⟩
    · intro at0 hdl ht
      refine ⟨fun hn => congrArg Host.Outcome.next (turnTimeout_waits (s := u) hc (hdl ▸ hst) hn), fun hn => ?_⟩
      obtain ⟨v, c', hv, h⟩ := hend at0 hdl ht hn
      exact ⟨v, c', congrArg Host.Outcome.next hv, h⟩
  · intro q i x y hy hx hl hm hquar _
    refine ⟨fun b hb => ?_, fun hb hg => ?_⟩
    · obtain ⟨v, y', hv, hq, hs, hn, hc⟩ := slotMove_begins (s := u) hy hx hl hm hquar hb
      obtain ⟨hdie, hnone⟩ := moveTarget_sound hb
      exact ⟨v, y', congrArg Host.Outcome.next hv, hq, hs, hdie, hnone, hn, hc⟩
    · obtain ⟨hq, hn, hc⟩ := loseSlot_effect (s := u) (i := i) hy hm
      exact ⟨_, _, congrArg Host.Outcome.next (slotMove_loses (s := u) hy hx hl hm hquar hb hg), hq, slot_set hx, hn, hc⟩
  · intro q i x y b hy hx hm hb hw hr ht hc hwf hz hlt _ new hlen _ _ ha hab
    obtain ⟨v, y', hv, h⟩ := slotCopied_effect (s := u) hy hx hm hb hw hr ht hc hwf hz hlt hlen ha hab
    exact ⟨v, y', congrArg Host.Outcome.next hv, h⟩
  · intro b x hx hw hr hn hc hquiet hg hq
    obtain ⟨-, -, -, hlev⟩ := hquiet
    refine ⟨fun hall => ?_, fun o cid idx c ho hl _ hop hch hst => ?_⟩
    · obtain ⟨v, hv, h1, h2, h3, h4, h5, h6, h7, hcol, hsec⟩ := windowReplay_again (s := u) hx hw hr hn hc hq hall
      obtain ⟨y, hy, hundo, -⟩ := restoreUndo_eq b s
      obtain ⟨y1, hy1, hs1, -⟩ := foldl_writeStore b (x.tagged.flatMap (·.writes)) (restoreUndo b s) (by rw [hy]; exact hw)
      refine ⟨v, congrArg Host.Outcome.next ((congrArg replayEnd hv).trans (replayEnd_idle (s := u) hcol hsec hg hlev)), h1, h2, h3, ?_, h5, h6, h7⟩
      rw [hy1, h4, hs1, hy, hundo]
      rfl
    · obtain ⟨v, c', hv, h1, h2, h3, h4, h5, h6, h7, h8, hcol, hsec⟩ := windowReplay_retries (s := u) hx hw hr hn hc hq ho hl hop hch hst
      obtain ⟨y, hy, hundo, -⟩ := restoreUndo_eq b s
      refine ⟨v, c', congrArg Host.Outcome.next ((congrArg replayEnd hv).trans (replayEnd_idle (s := u) hcol hsec hg hlev)), h1, h2,
        h3.trans ?_, h4, h5, h6, h7, h8⟩
      rw [hy, hundo]
      rfl

end Sys2Proof.Machine
end

section
/-! PROOFS. A request of the memory transport engines on one sound tile of the cistern: its parts, its bytes and its end
(06 R192–R199, R205, 07 R216, R226). -/

namespace Sys2Proof.Machine

/-! ### What the engines leave alone -/

/-- `v` is `w` but for what a request on the cistern touches: in-flight counts, contexts and hosts, the bytes and marks of
tiles, gauges and what leaves. -/
structure EngineKept (w v : State) : Prop where
  now : v.now = w.now
  kry : v.kry = w.kry
  coh : v.coh = w.coh
  flm : v.flm = w.flm
  bsn : v.bsn = w.bsn
  scr : v.scr = w.scr
  sec : v.sec = w.sec
  flt : v.flt = w.flt
  hlt : v.hlt = w.hlt
  switchId : v.sw.switchId = w.sw.switchId
  rights : v.mem.rights = w.mem.rights
  journal : v.mem.journal = w.mem.journal
  trays : v.mem.trays = w.mem.trays
  locks : w.mem.locks = [] → v.mem.locks = []
  regions : w.cis.regions = [] → v.cis.regions = []
  handles : w.cis.handles = [] → v.cis.handles = []
  pub : v.cis.pub = w.cis.pub
  prefetch : v.cis.prefetch = w.cis.prefetch
  relocated : v.cis.relocated = w.cis.relocated
  want : (∀ e ∈ w.cis.pages, e.2.want = 0) → ∀ e ∈ v.cis.pages, e.2.want = 0
  allot : ∀ k x, w.allot k = some x → ∃ n, v.allot k = some { x with inflight := n }

namespace EngineKept

variable {u v w : State}

theorem refl (w : State) : EngineKept w w :=
  ⟨rfl, rfl, rfl, rfl, rfl, rfl, rfl, rfl, rfl, rfl, rfl, rfl, rfl, id, id, id, rfl, rfl, rfl, id, fun _ x h => ⟨x.inflight, h⟩⟩

theorem trans (h : EngineKept u v) (g : EngineKept v w) : EngineKept u w where
  now := g.now.trans h.now
  kry := g.kry.trans h.kry
  coh := g.coh.trans h.coh
  flm := g.flm.trans h.flm
  bsn := g.bsn.trans h.bsn
  scr := g.scr.trans h.scr
  sec := g.sec.trans h.sec
  flt := g.flt.trans h.flt
  hlt := g.hlt.trans h.hlt
  switchId := g.switchId.trans h.switchId
  rights := g.rights.trans h.rights
  journal := g.journal.trans h.journal
  trays := g.trays.trans h.trays
  locks := fun e => g.locks (h.locks e)
  regions := fun e => g.regions (h.regions e)
  handles := fun e => g.handles (h.handles e)
  pub := g.pub.trans h.pub
  prefetch := g.prefetch.trans h.prefetch
  relocated := g.relocated.trans h.relocated
  want := fun e => g.want (h.want e)
  allot := fun k x e => by
    obtain ⟨n, hn⟩ := h.allot k x e
    obtain ⟨m, hm⟩ := g.allot k _ hn
    exact ⟨m, hm⟩

/-- Changes outside what the relation speaks of. -/
theorem of_mem {m : Transport} (hr : m.rights = w.mem.rights) (hj : m.journal = w.mem.journal) (ht : m.trays = w.mem.trays)
    (hl : w.mem.locks = [] → m.locks = []) (ha : ∀ k x, w.allot k = some x → ∃ n, Tab.get? m.allots k = some { x with inflight := n }) :
    EngineKept w { w with mem := m } :=
  ⟨rfl, rfl, rfl, rfl, rfl, rfl, rfl, rfl, rfl, rfl, hr, hj, ht, hl, id, id, rfl, rfl, rfl, id, ha⟩

theorem of_gauges (g : List (GaugeKey × Nat)) : EngineKept w { w with gauges := g } :=
  ⟨rfl, rfl, rfl, rfl, rfl, rfl, rfl, rfl, rfl, rfl, rfl, rfl, rfl, id, id, id, rfl, rfl, rfl, id, fun _ x h => ⟨x.inflight, h⟩⟩

theorem of_out (o : List Out) : EngineKept w { w with out := o } :=
  ⟨rfl, rfl, rfl, rfl, rfl, rfl, rfl, rfl, rfl, rfl, rfl, rfl, rfl, id, id, id, rfl, rfl, rfl, id, fun _ x h => ⟨x.inflight, h⟩⟩

theorem still (h : EngineKept u v) (hs : u.still) : v.still := by
  obtain ⟨h1, h2, h3, h4, h5, h6, h7⟩ := hs
  exact ⟨h.regions h1, h.handles h2, h.pub.trans h3, h.locks h4, h.prefetch.trans h5, h.want h6, by rw [h.trays]; exact h7⟩

theorem calm (h : EngineKept u v) (hs : u.calm) : v.calm := ⟨h.still hs.1, h.coh.trans hs.2⟩

theorem mute (h : EngineKept u v) (a : Ip) : v.mute a = u.mute a := by
  simp only [State.mute, State.halted, State.addrFenced, State.fencedBy, h.flt]

theorem confidential (h : EngineKept u v) (l : Nat) : v.confidential l = u.confidential l := by
  simp only [State.confidential, h.sec]

theorem chanOf (h : EngineKept u v) {a : Nat} {x : Allot} (hx : u.allot a = some x) (tile : Nat) : chanOf v a tile = chanOf u a tile := by
  obtain ⟨n, hn⟩ := h.allot a x hx
  unfold Machine.chanOf
  rw [hn, hx, h.relocated, h.hlt]
  rfl

end EngineKept

variable {s w : State} {id a off n : Nat} {l : Live} {x : Allot} {r : PoolReq}

theorem State.inflightAdd_kept (k v : Nat) : EngineKept s (s.inflightAdd k v) :=
  ⟨rfl, rfl, rfl, rfl, rfl, rfl, rfl, rfl, rfl, rfl, rfl, rfl, rfl, fun h => h, fun h => h, fun h => h, rfl, rfl, rfl, fun h => h,
    fun _ x h => ⟨x.inflight, h⟩⟩

theorem State.inflightSub_kept (k v : Nat) : EngineKept s (s.inflightSub k v) :=
  ⟨rfl, rfl, rfl, rfl, rfl, rfl, rfl, rfl, rfl, rfl, rfl, rfl, rfl, fun h => h, fun h => h, fun h => h, rfl, rfl, rfl, fun h => h,
    fun _ x h => ⟨x.inflight, h⟩⟩

theorem meshDeliver_kept (d : Nat) : EngineKept s (meshDeliver d s) :=
  ⟨rfl, rfl, rfl, rfl, rfl, rfl, rfl, rfl, rfl, rfl, rfl, rfl, rfl, fun h => h, fun h => h, fun h => h, rfl, rfl, rfl, fun h => h,
    fun _ x h => ⟨x.inflight, h⟩⟩

/-- A change of an allotment's in-flight count. -/
theorem State.modAllot_kept (a : Nat) (f : Allot → Allot) (hf : ∀ x, ∃ n, f x = { x with inflight := n }) : EngineKept s (s.modAllot a f) := by
  refine EngineKept.of_mem rfl rfl rfl id fun k x hx => ?_
  have h := Tab.get?_upd s.mem.allots a k f
  rw [show Tab.get? s.mem.allots k = some x from hx] at h
  by_cases e : a = k
  · obtain ⟨n, hn⟩ := hf x
    rw [if_pos e, e, show Tab.get? s.mem.allots k = some x from hx, Option.map_some, hn] at h
    exact ⟨n, by rw [← e]; rw [e]; exact h⟩
  · rw [if_neg e] at h
    exact ⟨x.inflight, h⟩

theorem State.setLive_kept (id : Nat) (l : Live) : EngineKept s (s.setLive id l) :=
  EngineKept.of_mem rfl rfl rfl (fun h => h) fun _ x h => ⟨x.inflight, h⟩

theorem State.liveReq_setLive (id : Nat) (l : Live) : (s.setLive id l).liveReq id = some l := Tab.get?_set_self ..

theorem State.setLive_setLive (id : Nat) (l m : Live) : (s.setLive id l).setLive id m = s.setLive id m := by
  unfold State.setLive
  dsimp only
  rw [Tab.set_set]

/-! ### One part of one tile -/

/-- A range of `n` bytes from offset `off` of an allotment, within one tile. -/
def oneSeg (off n : Nat) : Seg := { off := 0, tile := off / 4096, start := off % 4096, len := n, sip := false }

theorem segsOf_one (pieces : Bool) (hn : 0 < n) (h : off % 4096 + n ≤ 4096) : segsOf pieces .plain off n = [oneSeg off n] := by
  have hmin : min (if pieces = true then min (4096 - off % 4096) (4096 - 0 % 4096) else 4096 - off % 4096) (n - 0) = n := by
    split <;> omega
  have hfuel : 2 * (n / 4096) + 3 = (2 * (n / 4096) + 1) + 1 + 1 := rfl
  rw [segsOf, hfuel, cutRange, if_neg (by omega)]
  dsimp only [mapOff]
  rw [Nat.add_zero, hmin, cutRange, if_pos (by omega)]
  rfl

/-- What a range asks of its allotment: it rests in the cistern, and its tile is sound. -/
structure TileReady (s : State) (a off : Nat) (x : Allot) : Prop where
  allot : s.allot a = some x
  place : x.place = 0
  sound : s.isPoisoned a (off / 4096) = false
  plain : s.confidential x.levee = false

theorem planHold_cistern (hx : s.allot a = some x) (hp : x.place = 0) (own : Nat) (write : Bool) (ts : List Nat) (g : Seg) :
    planHold own a write (s, ts) g = (s, ts) := by
  unfold planHold
  dsimp only
  rw [hx]
  exact if_pos (by rw [Option.elim_some, hp]; rfl)

theorem planSeg_cistern (hx : s.allot a = some x) (hp : x.place = 0) (write : Bool) (l : Live) (g : Seg) :
    planSeg id a write (s, l) g = (s, { l with segs := l.segs ++ [g] }) := by
  have hway : ∀ b, tileWay (liveOwner id) a g.tile b write s = (s, .ready) := fun b => by
    unfold tileWay
    rw [hx]
    exact if_pos hp
  unfold planSeg
  dsimp only
  rw [hway, hx]
  dsimp only
  rw [if_neg (by rw [hp]; decide), if_pos (by simp)]

/-- A request's one part in the cistern is ready at once. -/
theorem planSegs_cistern (hx : s.allot a = some x) (hp : x.place = 0) (write : Bool) (l : Live) (off n : Nat) :
    planSegs id a write [oneSeg off n] l s = (s.setLive id { l with segs := [oneSeg off n] }, { l with segs := [oneSeg off n] }) := by
  have hx' : (s.setLive id { l with segs := [oneSeg off n] }).allot a = some x := hx
  unfold planSegs
  dsimp only
  rw [List.foldl_cons, List.foldl_nil, planHold_cistern hx' hp]
  dsimp only
  rw [List.foldl_cons, List.foldl_nil, planSeg_cistern hx' hp]
  dsimp only
  rw [if_neg (by decide), if_neg (by simp [oneSeg])]
  rfl

theorem reach_plain (hr : s.cis.regions = []) (levee : Nat) (write closed : Bool) : reach s a off n levee none write closed = .plain := by
  unfold reach regionOf
  rw [hr]
  rfl

theorem segStat_sound (h : s.isPoisoned a (off / 4096) = false) (hst : l.stat = []) : segStat s a l (oneSeg off n) = St.ok := by
  unfold segStat
  rw [hst]
  show (if s.isPoisoned a (off / 4096) = true then _ else _) = _
  rw [h]
  rfl

theorem firstBad_sound (h : s.isPoisoned a (off / 4096) = false) (hst : l.stat = []) (hs : l.segs = [oneSeg off n]) {hi : Nat} (hhi : 0 < hi) :
    firstBad s a l 0 hi = St.ok := by
  unfold firstBad
  rw [hst, hs, List.find?_nil]
  dsimp only
  have hf : [oneSeg off n].filter (fun g => decide (0 ≤ g.off) && decide (g.off < hi)) = [oneSeg off n] := by
    rw [List.filter_cons, if_pos (by simp [oneSeg, hhi])]
    rfl
  rw [hf, List.map_cons, List.map_nil, segStat_sound h hst]
  rfl

theorem segBytes_one : segBytes s a l (oneSeg off n) = readPool s a off n := by
  show readPool s a (4096 * (off / 4096) + off % 4096) n = _
  rw [Nat.div_add_mod]

/-! ### A write of a tile -/

theorem Tab.mem_upd {α : Type} {t : Tab α} {k : Nat} {f : α → α} {e : Nat × α} (h : e ∈ Tab.upd t k f) : e ∈ t ∨ ∃ v ∈ t, e.2 = f v.2 := by
  unfold Tab.upd at h
  cases hv : Tab.get? t k with
  | none =>
    rw [hv] at h
    exact Or.inl h
  | some v =>
    rw [hv] at h
    rcases Tab.mem_set h with rfl | h
    · exact Or.inr ⟨(k, v), Tab.mem_of_get? hv, rfl⟩
    · exact Or.inl h

theorem clearBit_zero {n : Nat} (i : Nat) : clearBit (0 : BitVec n) i = 0 := by
  unfold clearBit
  exact BitVec.zero_and

/-- A write of a tile of a levee that is not confidential. -/
theorem putTile_plain (h : TileReady s a off x) (bs : Bytes) (u : Nat) : ∃ y : Cistern,
    putTile a (off / 4096) (off % 4096) bs u s = { s with cis := y } ∧ y.pool = s.cis.pool.writeN (poolKey a off) bs ∧
      EngineKept s { s with cis := y } ∧ ∀ k, s.cis.poisoned.contains k = false → y.poisoned.contains k = false := by
  unfold putTile
  dsimp only
  rw [poolKey_tile]
  generalize hw : State.modPage _ a (off / 4096 / 16) _ = w
  have hwa : w.allot a = some x := by rw [← hw]; exact h.allot
  have hwc : w.confidential x.levee = false := by rw [← hw]; exact h.plain
  have hseal : sealTile a (off / 4096) u w = w := by
    unfold sealTile
    rw [hwa]
    dsimp only
    rw [hwc, if_neg Bool.false_ne_true]
  rw [hseal, ← hw]
  refine ⟨_, rfl, rfl, ?_, fun k hp => ?_⟩
  · refine ⟨rfl, rfl, rfl, rfl, rfl, rfl, rfl, rfl, rfl, rfl, rfl, rfl, rfl, fun h => h, fun h => h, fun h => h, rfl, rfl, rfl,
      fun hz e he => ?_, fun _ x h => ⟨x.inflight, h⟩⟩
    rcases Tab.mem_upd he with he | ⟨v, hv, he⟩
    · exact hz e he
    · rw [he]
      show clearBit v.2.want _ = 0
      rw [hz v hv, clearBit_zero]
  · dsimp only [State.modPage]
    split
    · rw [List.contains_eq_mem, decide_eq_false_iff_not] at hp ⊢
      exact fun hk => hp (List.mem_filter.1 hk).1
    · exact hp

/-! ### The end of a request -/

/-- A request without a journal entry is taken off the table, its in-flight counts off its host and its table version. -/
def liveGone (id : Nat) (l : Live) (s : State) : State :=
  pruneHandles (State.inflightSub { s with mem := { s.mem with
    locks := s.mem.locks.filter fun e => e.2 != liveOwner id, live := Tab.del s.mem.live id, journal := s.mem.journal,
    hosts := s.mem.hosts.map (hostLess l.req) } } 9 l.req.ver)

theorem pruneHandles_none (hr : s.cis.regions = []) (hh : s.cis.handles = []) : pruneHandles s = s := by
  unfold pruneHandles
  rw [hr, hh]
  have hcis : ({ s.cis with handles := [], regions := [] } : Cistern) = s.cis := by rw [← hr, ← hh]
  exact congrArg (fun y : Cistern => ({ s with cis := y } : State)) hcis

theorem liveGone_kept (id : Nat) (l : Live) (hr : s.cis.regions = []) (hh : s.cis.handles = []) :
    EngineKept s (liveGone id l s) ∧ (liveGone id l s).out = s.out ∧ (liveGone id l s).mem.live = Tab.del s.mem.live id ∧
      (liveGone id l s).cis = s.cis ∧ (liveGone id l s).mem.qpcs = s.mem.qpcs ∧ (liveGone id l s).mem.ctxs = s.mem.ctxs := by
  unfold liveGone
  generalize hv : State.inflightSub _ 9 _ = v
  have hcis : v.cis = s.cis := by rw [← hv]; rfl
  rw [pruneHandles_none (by rw [hcis]; exact hr) (by rw [hcis]; exact hh), ← hv]
  have hlocks : s.mem.locks = [] → s.mem.locks.filter (fun e => e.2 != liveOwner id) = [] := fun h => by
    rw [h]
    rfl
  have hmem : EngineKept s { s with mem := { s.mem with
      locks := s.mem.locks.filter fun e => e.2 != liveOwner id, live := Tab.del s.mem.live id, journal := s.mem.journal,
      hosts := s.mem.hosts.map (hostLess l.req) } } := EngineKept.of_mem rfl rfl rfl hlocks fun _ x h => ⟨x.inflight, h⟩
  exact ⟨hmem.trans (State.inflightSub_kept 9 _), rfl, rfl, rfl, rfl, rfl⟩

/-- A request that leaves, with no journal entry: it is no longer under way. -/
theorem endLive_kept (hl : s.liveReq id = some l) (hj : l.journal = none) (hr : s.cis.regions = []) (hh : s.cis.handles = []) :
    EngineKept s (endLive id s) ∧ (endLive id s).out = s.out ∧ (endLive id s).mem.live = Tab.del s.mem.live id ∧
      (endLive id s).cis = s.cis ∧ (endLive id s).mem.qpcs = s.mem.qpcs ∧ (endLive id s).mem.ctxs = s.mem.ctxs := by
  have hdec : ∀ y : Allot, ∃ n, { y with inflight := y.inflight - 1 } = { y with inflight := n } := fun y => ⟨_, rfl⟩
  have h1 := State.modAllot_kept (s := s) l.allot _ hdec
  have hgone : ∀ v : State, EngineKept s v → v.out = s.out → v.mem.live = s.mem.live → v.cis = s.cis → v.mem.qpcs = s.mem.qpcs →
      v.mem.ctxs = s.mem.ctxs → EngineKept s (liveGone id l v) ∧ (liveGone id l v).out = s.out ∧
        (liveGone id l v).mem.live = Tab.del s.mem.live id ∧ (liveGone id l v).cis = s.cis ∧ (liveGone id l v).mem.qpcs = s.mem.qpcs ∧
        (liveGone id l v).mem.ctxs = s.mem.ctxs := fun v hk ho hlive hcis hq hc => by
    obtain ⟨g1, g2, g3, g4, g5, g6⟩ := liveGone_kept (s := v) id l (hk.regions hr) (hk.handles hh)
    exact ⟨hk.trans g1, g2.trans ho, by rw [g3, hlive], g4.trans hcis, g5.trans hq, g6.trans hc⟩
  unfold endLive
  rw [hl]
  dsimp only
  rw [hj]
  dsimp only
  cases l.src with
  | none => exact hgone _ h1 rfl rfl rfl rfl rfl
  | some b =>
    dsimp only
    by_cases e : b = l.allot
    · rw [if_pos e]
      exact hgone _ h1 rfl rfl rfl rfl rfl
    · rw [if_neg e]
      exact hgone _ (h1.trans (State.modAllot_kept b _ hdec)) rfl rfl rfl rfl rfl

/-! ### The answer -/

theorem reply_vendor (hm : s.mute (reqHost r) = false) (k : ReqKind) (st : Nat) (held sip hit : Bool) (src : Source) (o : Nat) (data : Bytes) :
    reply r k none st held sip hit src o data s =
      { s with out := s.out ++ [poolAnswer s r (respOp k) st held sip hit src o data] } := by
  unfold reply
  dsimp only
  rw [hm, if_neg Bool.false_ne_true]
  rfl

theorem reply_rdma_ok (hm : s.mute (reqHost r) = false) (k : ReqKind) (q : RdmaReq) (held sip hit : Bool) (src : Source) (o : Nat) (data : Bytes) :
    reply r k (some q) St.ok held sip hit src o data s = { s with out := s.out ++ [.rdmaReply q true 0 0 data] } := by
  unfold reply
  dsimp only
  rw [if_pos rfl, if_pos rfl, hm, if_neg Bool.false_ne_true]
  rfl

theorem pieceSource_one (hx : s.allot a = some x) (hm : l.missed = []) :
    pieceSource s a l St.ok [oneSeg off n] = (⟨0, chanOf s a (off / 4096)⟩, true) := by
  have hsource : sourceOf s a l [oneSeg off n] = (⟨0, chanOf s a (off / 4096)⟩, true) := by
    unfold sourceOf
    rw [hx]
    dsimp only
    rw [hm, if_neg (by simp [oneSeg])]
    simp [oneSeg]
  unfold pieceSource
  rw [if_neg (by simp [St.ok, St.busy, St.exhausted, St.badParam]), hsource]

/-- A request's one part in the cistern, planned and sound. -/
structure OnePart (s : State) (l : Live) (off n : Nat) (x : Allot) : Prop where
  allot : s.allot l.allot = some x
  sound : s.isPoisoned l.allot (off / 4096) = false
  segs : l.segs = [oneSeg off n]
  stat : l.stat = []
  missed : l.missed = []
  siphoned : l.siphoned = false

theorem respond_read (h : OnePart s l off n x) (hk : l.kind = .read) (hrd : l.rdma = none) (hn : 0 < n) (hn4 : n ≤ 4096) (hlen : l.req.length = n)
    (hm : s.mute (reqHost l.req) = false) : ∃ g, respond l St.ok s = { s with gauges := g, out := s.out ++
      [poolAnswer s l.req 0xD0 St.ok l.held false true ⟨0, chanOf s l.allot (off / 4096)⟩ 0 (readPool s l.allot off n)] } := by
  have hone : ceilDiv l.req.length 4096 = 1 := by
    rw [hlen]
    unfold ceilDiv
    omega
  have hf : l.segs.filter (fun g => decide (4096 * 0 ≤ g.off) && decide (g.off < 4096 * 0 + 4096)) = [oneSeg off n] := by
    rw [h.segs, List.filter_cons, if_pos (by simp [oneSeg])]
    rfl
  unfold respond
  dsimp only
  rw [hk, hrd]
  dsimp only
  rw [hone, List.range_one, List.foldl_cons, List.foldl_nil, hf]
  have hfb : firstBad s l.allot l (4096 * 0) (4096 * 0 + 4096) = St.ok := firstBad_sound h.sound h.stat h.segs (by decide)
  rw [if_neg (show ¬ St.ok = St.extentRevoked by decide), if_pos (rfl : St.ok = St.ok), hfb, if_pos (rfl : St.ok = St.ok), pieceSource_one h.allot h.missed, List.map_cons, List.map_nil, segBytes_one,
    List.flatten_singleton, h.siphoned]
  dsimp only
  rw [if_pos rfl, Bool.false_and, reply_vendor (by exact hm)]
  exact ⟨_, rfl⟩

theorem respond_read_rdma {q : RdmaReq} (h : OnePart s l off n x) (hk : l.kind = .rdmaRead) (hrd : l.rdma = some q)
    (hm : s.mute (reqHost l.req) = false) : ∃ g, respond l St.ok s =
      { s with gauges := g, out := s.out ++ [.rdmaReply q true 0 0 (readPool s l.allot off n)] } := by
  have hfb : firstBad s l.allot l 0 (2 ^ 59) = St.ok := firstBad_sound h.sound h.stat h.segs (Nat.two_pow_pos 59)
  unfold respond
  dsimp only
  rw [hk, hrd]
  dsimp only
  rw [if_neg (show ¬ St.ok = St.extentRevoked by decide), if_pos (rfl : St.ok = St.ok), hfb, if_pos (rfl : St.ok = St.ok), h.segs,
    List.map_cons, List.map_nil, segBytes_one, List.flatten_singleton]
  split
  · rw [reply_rdma_ok (by exact hm)]
    exact ⟨_, rfl⟩
  · rw [reply_rdma_ok (by exact hm)]
    exact ⟨_, rfl⟩

/-- The qpcs once a request has ended: an atomic is remembered (R208). -/
def qpcsAfter (l : Live) (s : State) : Tab Qpc :=
  match l.rdma with
  | some q => if isAtomic l then (rdmaAtomicDone q l.prior s).mem.qpcs else s.mem.qpcs
  | none => s.mem.qpcs

/-- The answer of a write, an atomic or a copy. -/
def writeAnswer (l : Live) (off : Nat) (s : State) : Out :=
  match l.rdma with
  | some q => .rdmaReply q true 0 0 (if isAtomic l then toBe 8 l.prior else [])
  | none => poolAnswer s l.req (respOp l.kind) St.ok l.held false true ⟨0, chanOf s l.allot (off / 4096)⟩ 0
      (if isAtomic l then toBe 8 l.prior else [])

/-- The kinds that are answered once, whatever they move. -/
def ReqKind.once (k : ReqKind) : Prop := k = .write ∨ k = .atomic ∨ k = .copy ∨ k = .rdmaWrite ∨ k = .rdmaAtomic

theorem respond_once (h : OnePart s l off n x) (hk : l.kind.once) (hm : s.mute (reqHost l.req) = false) :
    ∃ g, respond l St.ok s = { s with gauges := g, out := s.out ++ [writeAnswer l off s], mem := { s.mem with qpcs := qpcsAfter l s } } := by
  have hfb : firstBad s l.allot l 0 (2 ^ 59) = St.ok := firstBad_sound h.sound h.stat h.segs (Nat.two_pow_pos 59)
  have hsource := pieceSource_one (off := off) (n := n) (l := l) h.allot h.missed
  unfold respond qpcsAfter writeAnswer
  dsimp only
  rw [if_neg (show ¬ St.ok = St.extentRevoked by decide), if_pos (rfl : St.ok = St.ok), hfb, if_pos (rfl : St.ok = St.ok),
    h.segs, hsource, h.siphoned, Bool.false_and]
  dsimp only
  rw [if_pos rfl]
  unfold isAtomic
  cases l.rdma with
  | none =>
    rcases hk with hk | hk | hk | hk | hk
    all_goals
      rw [hk]
      dsimp only
      rw [reply_vendor (by exact hm)]
      exact ⟨_, rfl⟩
  | some q =>
    rcases hk with hk | hk | hk | hk | hk
    all_goals
      rw [hk]
      dsimp only
      rw [reply_rdma_ok (by exact hm)]
      exact ⟨_, rfl⟩

theorem finishLive_ok (hl : s.liveReq id = some l) (h : OnePart s l off n x) (hp : l.phase = none) : finishLive id St.ok s =
    if l.flume.isSome then endLive id (flumeEnd l St.ok s) else endLive id (ctxDone l St.ok (respond l St.ok s)) := by
  have hfb : firstBad s l.allot l 0 (2 ^ 59) = St.ok := firstBad_sound h.sound h.stat h.segs (Nat.two_pow_pos 59)
  unfold finishLive
  rw [hl]
  dsimp only
  rw [if_pos (rfl : St.ok = St.ok), hfb, h.allot]
  dsimp only
  rw [h.siphoned, hp]
  dsimp only
  rw [Bool.false_and, if_neg Bool.false_ne_true, if_neg (show ¬ St.ok = St.fenced by decide)]

/-- The context of a request that has ended, and nothing else. -/
theorem ctxDone_eq (l : Live) (st : Nat) (s : State) : ∃ c, ctxDone l st s = { s with mem := { s.mem with ctxs := c } } := by
  unfold ctxDone
  split
  · exact ⟨_, rfl⟩
  · exact ⟨_, rfl⟩

/-- A request of one part in the cistern is answered and leaves. -/
theorem finishLive_answers {o : Out} {m : Tab Qpc} (hl : s.liveReq id = some l) (h : OnePart s l off n x) (hp : l.phase = none)
    (hf : l.flume = none) (hj : l.journal = none) (hr : s.cis.regions = []) (hh : s.cis.handles = [])
    (hans : ∃ g, respond l St.ok s = { s with gauges := g, out := s.out ++ [o], mem := { s.mem with qpcs := m } }) :
    EngineKept s (finishLive id St.ok s) ∧ (finishLive id St.ok s).out = s.out ++ [o] ∧
      (finishLive id St.ok s).mem.live = Tab.del s.mem.live id ∧ (finishLive id St.ok s).cis = s.cis ∧ (finishLive id St.ok s).mem.qpcs = m := by
  obtain ⟨g, hg⟩ := hans
  obtain ⟨c, hc⟩ := ctxDone_eq l St.ok (respond l St.ok s)
  rw [finishLive_ok hl h hp, hf, if_neg (by decide), hc, hg]
  have hkept : EngineKept s { s with gauges := g, out := s.out ++ [o], mem := { s.mem with qpcs := m, ctxs := c } } :=
    (EngineKept.of_gauges g).trans ((EngineKept.of_out _).trans (EngineKept.of_mem rfl rfl rfl (fun h => h) fun _ x h => ⟨x.inflight, h⟩))
  obtain ⟨e1, e2, e3, e4, e5, -⟩ := endLive_kept (id := id) (l := l)
    (s := { s with gauges := g, out := s.out ++ [o], mem := { s.mem with qpcs := m, ctxs := c } }) hl hj hr hh
  exact ⟨hkept.trans e1, e2, e3, e4, e5⟩

/-! ### The beginning of a request -/

/-- A request that has not begun, outside regions and dips of its own. -/
structure Live.fresh (l : Live) : Prop where
  stage : l.stage = 0
  segs : l.segs = []
  waits : l.waits = []
  lines : l.lines = []
  stat : l.stat = []
  missed : l.missed = []
  siphoned : l.siphoned = false
  journal : l.journal = none
  plain : bitOf l.req.flags 0 = false

/-- The range of a request lies in one tile of the cistern. -/
structure InTile (s : State) (a off n : Nat) (x : Allot) : Prop where
  allot : s.allot a = some x
  place : x.place = 0
  flags : x.flags = 0
  sound : s.isPoisoned a (off / 4096) = false
  plain : s.confidential x.levee = false
  pos : 0 < n
  inside : off % 4096 + n ≤ 4096

theorem InTile.ready (h : InTile s a off n x) : TileReady s a off x := ⟨h.allot, h.place, h.sound, h.plain⟩

/-- The request once its read is planned. -/
def Live.reading (l : Live) (off n : Nat) : Live := { l with segs := [oneSeg off n] }

theorem planRead_cistern (hx : s.allot a = some x) (hp : x.place = 0) (hr : s.cis.regions = []) (hn : 0 < l.req.length)
    (hin : off % 4096 + l.req.length ≤ 4096) :
    planRead id a off none l s = advance id (s.setLive id (l.reading off l.req.length)) := by
  unfold planRead
  dsimp only [Option.bind_none]
  rw [readMap, reach_plain hr, if_neg (by decide), segsOf_one _ hn hin, planSegs_cistern hx hp]
  dsimp only
  rw [State.setLive_setLive]
  rfl

theorem startLive_read (hl : s.liveReq id = some l) (hk : l.kind = .read ∨ l.kind = .rdmaRead) (hf : l.fresh)
    (h : InTile s l.allot (l.req.pva - x.pva) l.req.length x) (hr : s.cis.regions = []) :
    startLive id s = finishLive id St.ok (s.setLive id (l.reading (l.req.pva - x.pva) l.req.length)) := by
  have hplan := planRead_cistern (id := id) (l := l) h.allot h.place hr h.pos h.inside
  have hadv : advance id (s.setLive id (l.reading (l.req.pva - x.pva) l.req.length)) =
      finishLive id St.ok (s.setLive id (l.reading (l.req.pva - x.pva) l.req.length)) := by
    unfold advance
    rw [State.liveReq_setLive]
    unfold Live.reading
    dsimp only
    rw [hf.waits, hf.lines, if_neg (by decide), hf.stage]
    exact if_neg (by rcases hk with hk | hk <;> rw [hk] <;> decide)
  have hbegin : planRead id l.allot (l.req.pva - x.pva) (if bitOf l.req.flags 0 then some l.req.handle else none) l s =
      finishLive id St.ok (s.setLive id (l.reading (l.req.pva - x.pva) l.req.length)) := by
    rw [hf.plain, if_neg Bool.false_ne_true, hplan, hadv]
  unfold startLive
  rw [hl]
  dsimp only
  rcases hk with hk | hk
  · rw [hk]
    dsimp only
    rw [h.allot]
    exact hbegin
  · rw [hk]
    dsimp only
    rw [h.allot]
    exact hbegin

/-- The request once its write is planned, and once it is made. -/
def Live.writing (l : Live) (off : Nat) : Live := { l with stage := 1, segs := [oneSeg off l.req.length] }

def Live.written (l : Live) : Live := { l with stage := 2 }

theorem planWrite_cistern (hf : bitOf l.req.flags 0 = false) (hx : s.allot l.allot = some x) (hp : x.place = 0)
    (hr : s.cis.regions = []) (hn : 0 < l.req.length) (hin : (l.req.pva - x.pva) % 4096 + l.req.length ≤ 4096) (hw : l.waits = []) :
    planWrite id l s = applyLive id (s.setLive id (l.writing (l.req.pva - x.pva))) := by
  have hh : (if (bitOf l.req.flags 0 && (regionOf s l.allot).isSome) = true then some l.req.handle else none) = none :=
    if_neg (by rw [hf, Bool.false_and]; decide)
  unfold planWrite
  rw [hx]
  dsimp only
  rw [hh, reach_plain hr, if_neg (by decide), segsOf_one _ hn hin, planSegs_cistern hx hp]
  dsimp only
  rw [hw, State.setLive_setLive]
  refine (if_pos rfl).trans ?_
  unfold Live.writing
  rw [hw]

theorem copyFuel_ne_zero (l : Live) : copyFuel l ≠ 0 := by
  unfold copyFuel
  omega

theorem startWrite_plans {fuel : Nat} (h0 : fuel ≠ 0) (hf : bitOf l.req.flags 0 = false) : startWrite id fuel l s = planWrite id l s := by
  cases fuel with
  | zero => exact absurd rfl h0
  | succ fuel => rw [startWrite, hf, if_neg (by rw [Bool.false_and]; decide)]

theorem applySeg_tile {m : Live} (hs : s.isPoisoned m.allot (off / 4096) = false) (hst : m.stat = []) :
    applySeg id (s, m) (oneSeg off n) = (putTile m.allot (off / 4096) (off % 4096) (writeBytes m (oneSeg off n)) 4 s, m) := by
  unfold applySeg
  dsimp only
  rw [segStat_sound hs hst]
  rfl

theorem applyLive_writes (hk : l.kind = .write ∨ l.kind = .rdmaWrite ∨ l.kind = .copy)
    (hs : s.isPoisoned l.allot (off / 4096) = false) (hst : l.stat = []) (hw : l.waits = []) : applyLive id (s.setLive id (l.writing off)) =
      finishLive id St.ok (State.setLive (putTile l.allot (off / 4096) (off % 4096) (writeBytes (l.writing off).written (oneSeg off l.req.length)) 4
        (s.setLive id (l.writing off))) id (l.writing off).written) := by
  have happly := applySeg_tile (id := id) (s := s.setLive id (l.writing off)) (m := (l.writing off).written) (off := off) (n := l.req.length) hs hst
  have hkind : ¬((l.writing off).kind = .atomic ∨ (l.writing off).kind = .rdmaAtomic) := by
    show ¬(l.kind = .atomic ∨ l.kind = .rdmaAtomic)
    rcases hk with hk | hk | hk
    · rw [hk]
      decide
    · rw [hk]
      decide
    · rw [hk]
      decide
  unfold applyLive
  rw [State.liveReq_setLive]
  dsimp only
  rw [if_neg hkind]
  show (if (List.foldl (applySeg id) (s.setLive id (l.writing off), (l.writing off).written) [oneSeg off l.req.length]).2.waits.isEmpty = true
    then finishLive id St.ok (State.setLive (List.foldl (applySeg id) (s.setLive id (l.writing off), (l.writing off).written)
      [oneSeg off l.req.length]).1 id (List.foldl (applySeg id) (s.setLive id (l.writing off), (l.writing off).written)
        [oneSeg off l.req.length]).2) else _) = _
  rw [List.foldl_cons, List.foldl_nil, happly]
  exact if_pos (by show List.isEmpty l.waits = true; rw [hw]; rfl)

/-- The eight bytes an atomic leaves at its address (06 R208). -/
def atomicLeft (s : State) (l : Live) (off : Nat) : Bytes :=
  toLe 8 (atomicNew l.req.op (le (readPool s l.allot off 8) 0 8) (atomicArgs l.req).1 (atomicArgs l.req).2)

/-- The request once its atomic has read its prior value. -/
def Live.prior8 (l : Live) (s : State) (off : Nat) : Live := { l.writing off with prior := le (readPool s l.allot off 8) 0 8 }

theorem atomicHere_tile {m : Live} (hs : s.isPoisoned m.allot (off / 4096) = false) (hst : m.stat = []) :
    atomicHere id m (oneSeg off n) s = finishLive id St.ok (putTile m.allot (off / 4096) (off % 4096) (atomicLeft s m off) 4
      (s.setLive id { m with prior := le (readPool s m.allot off 8) 0 8 })) := by
  have hread : readPool s m.allot (4096 * (oneSeg off n).tile + (oneSeg off n).start) 8 = readPool s m.allot off 8 := by
    show readPool s m.allot (4096 * (off / 4096) + off % 4096) 8 = _
    rw [Nat.div_add_mod]
  have hseg : ∀ k : Live, segStat (s.setLive id k) m.allot m (oneSeg off n) = St.ok := fun k => segStat_sound (s := s.setLive id k) hs hst
  unfold atomicHere atomicLeft
  dsimp only
  rw [hread, hseg, if_neg (fun h => h rfl)]
  rfl

theorem applyLive_atomic (hk : l.kind = .atomic ∨ l.kind = .rdmaAtomic) (hs : s.isPoisoned l.allot (off / 4096) = false) (hst : l.stat = []) :
    applyLive id (s.setLive id (l.writing off)) = finishLive id St.ok (putTile l.allot (off / 4096) (off % 4096)
      (atomicLeft s l off) 4 (s.setLive id (l.prior8 s off))) := by
  have hhere := atomicHere_tile (id := id) (s := s.setLive id (l.writing off)) (m := l.writing off) (off := off) (n := l.req.length) hs hst
  unfold applyLive
  rw [State.liveReq_setLive]
  dsimp only
  rw [if_pos (show (l.writing off).kind = .atomic ∨ (l.writing off).kind = .rdmaAtomic from hk)]
  show (if (Tab.get? l.stat 0).isSome then _ else if false = true then _ else atomicHere id (l.writing off) (oneSeg off l.req.length)
    (s.setLive id (l.writing off))) = _
  rw [hst, if_neg (by decide), if_neg (by decide), hhere, State.setLive_setLive]
  rfl

/-- A request that writes starts its write at once. -/
theorem startLive_write (hl : s.liveReq id = some l) (hk : l.kind = .write ∨ l.kind = .rdmaWrite) (hf : l.fresh)
    (h : InTile s l.allot (l.req.pva - x.pva) l.req.length x) (hr : s.cis.regions = []) :
    startLive id s = finishLive id St.ok (State.setLive (putTile l.allot ((l.req.pva - x.pva) / 4096) ((l.req.pva - x.pva) % 4096)
      (writeBytes (l.writing (l.req.pva - x.pva)).written (oneSeg (l.req.pva - x.pva) l.req.length)) 4
        (s.setLive id (l.writing (l.req.pva - x.pva)))) id (l.writing (l.req.pva - x.pva)).written) := by
  have hbegin : startWrite id (copyFuel l) { l with stage := 1 } s = applyLive id (s.setLive id (l.writing (l.req.pva - x.pva))) := by
    exact (startWrite_plans (l := { l with stage := 1 }) (copyFuel_ne_zero l) hf.plain).trans
      (planWrite_cistern (l := { l with stage := 1 }) hf.plain h.allot h.place hr h.pos h.inside hf.waits)
  have happly := applyLive_writes (id := id) (hk.imp_right Or.inl) h.sound hf.stat hf.waits
  rw [← happly, ← hbegin]
  unfold startLive
  rw [hl]
  dsimp only
  rcases hk with hk | hk
  · rw [hk]
  · rw [hk]

theorem startLive_atomic (hl : s.liveReq id = some l) (hk : l.kind = .atomic ∨ l.kind = .rdmaAtomic) (hf : l.fresh)
    (h : InTile s l.allot (l.req.pva - x.pva) l.req.length x) (hr : s.cis.regions = []) :
    startLive id s = finishLive id St.ok (putTile l.allot ((l.req.pva - x.pva) / 4096) ((l.req.pva - x.pva) % 4096)
      (atomicLeft s l (l.req.pva - x.pva)) 4 (s.setLive id (l.prior8 s (l.req.pva - x.pva)))) := by
  have hbegin : startWrite id (copyFuel l) { l with stage := 1 } s = applyLive id (s.setLive id (l.writing (l.req.pva - x.pva))) := by
    exact (startWrite_plans (l := { l with stage := 1 }) (copyFuel_ne_zero l) hf.plain).trans
      (planWrite_cistern (l := { l with stage := 1 }) hf.plain h.allot h.place hr h.pos h.inside hf.waits)
  rw [← applyLive_atomic hk h.sound hf.stat, ← hbegin]
  unfold startLive
  rw [hl]
  dsimp only
  rcases hk with hk | hk
  · rw [hk]
  · rw [hk]

/-- A copy once it has gathered its source. -/
def Live.gathered (l : Live) (data : Bytes) : Live := { l with parts := [(0, data)], segs := [], missed := [], stage := 1 }

theorem copyGathered_cistern {b soff : Nat} (hb : l.src = some b) (hs : s.isPoisoned b (soff / 4096) = false) (hst : l.stat = [])
    (hsegs : l.segs = [oneSeg soff n]) (hx : s.allot l.allot = some x) (hfl : x.flags = 0) :
    copyGathered id l s = startWrite id (copyFuel (l.gathered (readPool s b soff n))) (l.gathered (readPool s b soff n)) s := by
  have hsrc : l.src.getD l.allot = b := by rw [hb]; rfl
  have hfb : firstBad s b l 0 (2 ^ 59) = St.ok := firstBad_sound hs hst hsegs (Nat.two_pow_pos 59)
  unfold copyGathered
  dsimp only
  rw [hsrc, hfb, if_neg (fun h => h rfl), hsegs, List.map_cons, List.map_nil, segBytes_one, List.flatten_singleton, hx]
  exact if_neg (by rw [Option.elim_some, Allot.coherent, hfl]; decide)

/-- What `Live.gathered` keeps. -/
structure Live.Moves (l m : Live) (data : Bytes) : Prop where
  kind : m.kind = .copy
  req : m.req = l.req
  allot : m.allot = l.allot
  parts : m.parts = [(0, data)]
  stat : m.stat = []
  waits : m.waits = []

/-- The second half of a copy: the bytes it has gathered are written. -/
theorem startWrite_copy {m : Live} {data : Bytes} (hm : l.Moves m data) (hf : l.fresh)
    (h : InTile s l.allot (l.req.pva - x.pva) l.req.length x) (hr : s.cis.regions = []) :
    startWrite id (copyFuel m) m s = finishLive id St.ok (State.setLive (putTile l.allot ((l.req.pva - x.pva) / 4096) ((l.req.pva - x.pva) % 4096)
        (slice data 0 l.req.length) 4 (s.setLive id (m.writing (l.req.pva - x.pva)))) id (m.writing (l.req.pva - x.pva)).written) := by
  obtain ⟨hk, hreq, hall, hparts, hst, hw⟩ := hm
  have hplain : bitOf m.req.flags 0 = false := by rw [hreq]; exact hf.plain
  have hbytes : writeBytes (m.writing (l.req.pva - x.pva)).written (oneSeg (l.req.pva - x.pva) l.req.length) = slice data 0 l.req.length := by
    show slice (if m.kind = .copy then Tab.getD m.parts 0 [] else m.req.data) 0 l.req.length = _
    rw [if_pos hk, hparts]
    rfl
  have happly := applyLive_writes (id := id) (s := s) (off := l.req.pva - x.pva) (l := m) (Or.inr (Or.inr hk)) (by rw [hall]; exact h.sound) hst hw
  have hplan := planWrite_cistern (id := id) (s := s) (l := m) (x := x) hplain (by rw [hall]; exact h.allot) h.place hr
    (by rw [hreq]; exact h.pos) (by rw [hreq]; exact h.inside) hw
  rw [hreq] at happly hplan
  rw [hbytes, hall] at happly
  rw [startWrite_plans (copyFuel_ne_zero m) hplain, hplan, happly]

theorem startLive_copy {b soff : Nat} {y : Allot} (hl : s.liveReq id = some l) (hk : l.kind = .copy) (hb : l.src = some b) (hf : l.fresh)
    (h : InTile s l.allot (l.req.pva - x.pva) l.req.length x) (hy : InTile s b soff l.req.length y)
    (hso : soff = be l.req.data 0 8 - y.pva) (hr : s.cis.regions = []) {m : Live}
    (hm : m = (l.reading soff l.req.length).gathered (readPool s b soff l.req.length)) :
    startLive id s = finishLive id St.ok (State.setLive (putTile l.allot ((l.req.pva - x.pva) / 4096) ((l.req.pva - x.pva) % 4096)
        (slice (readPool s b soff l.req.length) 0 l.req.length) 4 ((s.setLive id (l.reading soff l.req.length)).setLive id
          (m.writing (l.req.pva - x.pva)))) id (m.writing (l.req.pva - x.pva)).written) := by
  have hmoves : l.Moves m (readPool s b soff l.req.length) := by
    rw [hm]
    exact ⟨hk, rfl, rfl, rfl, hf.stat, hf.waits⟩
  have hread := planRead_cistern (id := id) (l := l) hy.allot hy.place hr hy.pos hy.inside
  have hgather : copyGathered id (l.reading soff l.req.length) (s.setLive id (l.reading soff l.req.length)) =
      startWrite id (copyFuel m) m (s.setLive id (l.reading soff l.req.length)) := by
    rw [hm]
    exact copyGathered_cistern (id := id) (s := s.setLive id (l.reading soff l.req.length)) (l := l.reading soff l.req.length)
      hb hy.sound hf.stat rfl h.allot h.flags
  have hadv : advance id (s.setLive id (l.reading soff l.req.length)) =
      copyGathered id (l.reading soff l.req.length) (s.setLive id (l.reading soff l.req.length)) := by
    unfold advance
    rw [State.liveReq_setLive]
    dsimp only
    rw [show (l.reading soff l.req.length).waits = [] from hf.waits, show (l.reading soff l.req.length).lines = [] from hf.lines,
      if_neg (by decide), show (l.reading soff l.req.length).stage = 0 from hf.stage]
    exact if_pos hk
  have hstart : startLive id s = planRead id b soff none l s := by
    have hh : (if (bitOf l.req.flags 0 && (regionOf s l.allot).isNone) = true then some l.req.handle else none) = none :=
      if_neg (by rw [hf.plain, Bool.false_and]; decide)
    unfold startLive
    rw [hl]
    dsimp only
    rw [hk]
    dsimp only
    rw [hb]
    dsimp only
    rw [hy.allot]
    dsimp only
    rw [hh, hso]
  have hin : InTile (s.setLive id (l.reading soff l.req.length)) l.allot (l.req.pva - x.pva) l.req.length x :=
    ⟨h.allot, h.place, h.flags, h.sound, h.plain, h.pos, h.inside⟩
  rw [hstart, hread, hadv, hgather]
  exact startWrite_copy hmoves hf hin hr

/-! ### A request served -/

theorem allotFenced_cistern (hp : x.place = 0) : allotFenced s x = false := by
  unfold allotFenced
  rw [hp]
  rfl

theorem multiPhase_cistern (hx : s.allot l.allot = some x) (hfl : x.flags = 0)
    (hsw : l.kind = .copy → byteAt l.req.data 8 = s.sw.switchId.toNat) : multiPhase s l = false := by
  have hremote : remoteCopy s l.kind l.req = false := by
    unfold remoteCopy
    by_cases hk : l.kind = .copy
    · rw [hsw hk, bne_self_eq_false, Bool.and_false]
    · rw [beq_eq_false_iff_ne.2 hk, Bool.false_and]
  unfold multiPhase
  rw [hremote, hx, Option.elim_some, Allot.replicated, hfl, Bool.false_or]
  exact Bool.and_false _

theorem serveReq_cistern (hl : s.liveReq id = some l) (hx : s.allot l.allot = some x) (hp : x.place = 0) (hfl : x.flags = 0)
    (hk : l.kind ≠ .copy) (hsrc : l.src = none) : serveReq id s = startLive id s := by
  have hcut : cutOff s l = false := by
    unfold cutOff
    rw [hx, hsrc, Option.elim_some, allotFenced_cistern hp]
    rfl
  have hcoh : ¬ x.coherent = true := by
    rw [Allot.coherent, hfl]
    decide
  unfold serveReq
  rw [hl]
  dsimp only
  rw [hx]
  dsimp only
  rw [hcut, multiPhase_cistern hx hfl (fun h => absurd h hk), if_neg Bool.false_ne_true, if_neg Bool.false_ne_true]
  cases hkind : l.kind
  case copy => exact absurd hkind hk
  all_goals exact if_neg hcoh

theorem serveReq_copy {b : Nat} {y : Allot} (hl : s.liveReq id = some l) (hx : s.allot l.allot = some x) (hp : x.place = 0) (hfl : x.flags = 0)
    (hk : l.kind = .copy) (hsrc : l.src = some b) (hy : s.allot b = some y) (hp' : y.place = 0) (hfl' : y.flags = 0)
    (hsw : byteAt l.req.data 8 = s.sw.switchId.toNat) : serveReq id s = cohSettle (startLive id s) := by
  have hcut : cutOff s l = false := by
    unfold cutOff
    rw [hx, hsrc, Option.elim_some, Option.elim_some, hy, Option.elim_some, allotFenced_cistern hp, allotFenced_cistern hp']
    rfl
  unfold serveReq
  rw [hl]
  dsimp only
  rw [hx]
  dsimp only
  rw [hcut, multiPhase_cistern hx hfl (fun _ => hsw), if_neg Bool.false_ne_true, if_neg Bool.false_ne_true, hk]
  dsimp only
  rw [hsrc]
  dsimp only
  exact if_neg (by rw [hy, Option.elim_some, Allot.coherent, hfl']; decide)

/-- A request is finished: its answer `o` has left, and nothing is under way. -/
structure Finished (s v : State) (o : Out) (qs : Tab Qpc) : Prop where
  kept : EngineKept s v
  out : v.out = s.out ++ [o]
  live : v.mem.live = []
  qpcs : v.mem.qpcs = qs

/-- A state on the way from `s`, its one request having become `m`. -/
structure OnWay (s w : State) (id : Nat) (m : Live) : Prop where
  kept : EngineKept s w
  out : w.out = s.out
  live : w.mem.live = [(id, m)]
  qpcs : w.mem.qpcs = s.mem.qpcs

theorem OnWay.liveReq {m : Live} (h : OnWay s w id m) : w.liveReq id = some m := by
  unfold State.liveReq
  rw [h.live, Tab.get?_cons, if_pos rfl]

theorem OnWay.del {m : Live} (h : OnWay s w id m) : Tab.del w.mem.live id = [] := by
  rw [h.live]
  unfold Tab.del
  rw [List.filter_cons, if_neg (by simp), List.filter_nil]

theorem OnWay.setLive {m : Live} (h : OnWay s w id m) (m' : Live) : OnWay s (w.setLive id m') id m' :=
  ⟨h.kept.trans (State.setLive_kept id m'), h.out, by
    show Tab.set w.mem.live id m' = _
    rw [h.live]
    rw [Tab.set, if_neg (Nat.lt_irrefl id), if_pos (beq_self_eq_true id)], h.qpcs⟩

/-- A write of the request's tile leaves it on its way. -/
theorem OnWay.putTile {m : Live} (h : OnWay s w id m) (hr : TileReady w a off x) (bs : Bytes) :
    OnWay s (Machine.putTile a (off / 4096) (off % 4096) bs 4 w) id m ∧
      (Machine.putTile a (off / 4096) (off % 4096) bs 4 w).cis.pool = w.cis.pool.writeN (poolKey a off) bs ∧
      (Machine.putTile a (off / 4096) (off % 4096) bs 4 w).isPoisoned a (off / 4096) = false := by
  obtain ⟨y, hy, hpool, hkept, hsound⟩ := putTile_plain hr bs 4
  rw [hy]
  exact ⟨⟨h.kept.trans hkept, h.out, h.live, h.qpcs⟩, hpool, hsound _ hr.sound⟩

theorem poolAnswer_kept (h : EngineKept s w) (r : PoolReq) (op st : Nat) (held sip hit : Bool) (c o : Nat) (data : Bytes) :
    poolAnswer w r op st held sip hit ⟨0, c⟩ o data = poolAnswer s r op st held sip hit ⟨0, c⟩ o data := by
  have htail : tailwater w r st held sip hit ⟨0, c⟩ = tailwater s r st held sip hit ⟨0, c⟩ := by
    unfold tailwater rightOf
    dsimp only
    rw [h.rights, h.now, if_neg (by decide), if_neg (by decide), if_neg (by decide), if_neg (by decide)]
  unfold poolAnswer
  rw [htail]

/-- What ends the request on its way: it is answered, and nothing is under way. -/
theorem OnWay.finishes {m : Live} {o : Out} {qs : Tab Qpc} (h : OnWay s w id m) (hone : OnePart w m off n x) (hp : m.phase = none)
    (hf : m.flume = none) (hj : m.journal = none) (hr : s.cis.regions = []) (hh : s.cis.handles = [])
    (hans : ∃ g, respond m St.ok w = { w with gauges := g, out := w.out ++ [o], mem := { w.mem with qpcs := qs } }) :
    Finished s (finishLive id St.ok w) o qs ∧ (finishLive id St.ok w).cis = w.cis := by
  obtain ⟨hkept, hout, hlive, hcis, hqs⟩ := finishLive_answers h.liveReq hone hp hf hj (h.kept.regions hr) (h.kept.handles hh) hans
  exact ⟨⟨h.kept.trans hkept, by rw [hout, h.out], by rw [hlive, h.del], hqs⟩, hcis⟩

/-- A request that neither a chain nor a phase issued. -/
structure Live.own (l : Live) : Prop where
  phase : l.phase = none
  flume : l.flume = none

/-- The answer of a write in the state it comes to is that of the state it began in. -/
theorem writeAnswer_kept (h : EngineKept s w) (hx : s.allot l.allot = some x) : writeAnswer l off w = writeAnswer l off s := by
  unfold writeAnswer
  rw [h.chanOf hx]
  cases l.rdma with
  | none => exact poolAnswer_kept h ..
  | some q => rfl

theorem qpcsAfter_congr (h : w.mem.qpcs = s.mem.qpcs) : qpcsAfter l w = qpcsAfter l s := by
  unfold qpcsAfter rdmaAtomicDone
  dsimp only
  rw [h]

/-- The request's one part, once planned as `m`, in a state on the way. -/
theorem OnWay.onePart {m : Live} (h : OnWay s w id m) (hx : s.allot m.allot = some x) (hs : w.isPoisoned m.allot (off / 4096) = false)
    (hsegs : m.segs = [oneSeg off n]) (hst : m.stat = []) (hmi : m.missed = []) (hsip : m.siphoned = false) :
    ∃ y, OnePart w m off n y := by
  obtain ⟨k, hk⟩ := h.kept.allot _ _ hx
  exact ⟨_, hk, hs, hsegs, hst, hmi, hsip⟩

theorem OnWay.start (hl : s.mem.live = [(id, l)]) : OnWay s s id l := ⟨EngineKept.refl s, rfl, hl, rfl⟩

theorem qpcsAfter_plain (h : isAtomic l = false) : qpcsAfter l s = s.mem.qpcs := by
  unfold qpcsAfter
  rw [h]
  cases l.rdma with
  | none => rfl
  | some q => rfl

theorem slice_whole {bs : Bytes} {n : Nat} (h : bs.length = n) : slice bs 0 n = bs := by
  unfold slice
  rw [List.drop_zero, ← h, List.take_length]
  dsimp only
  rw [Nat.sub_self]
  exact List.append_nil bs

/-- The end of a request that is answered once. -/
theorem OnWay.finishes_once {m : Live} (h : OnWay s w id m) (hx : s.allot m.allot = some x) (hs : w.isPoisoned m.allot (off / 4096) = false)
    (hsegs : m.segs = [oneSeg off n]) (hst : m.stat = []) (hmi : m.missed = []) (hsip : m.siphoned = false) (hk : m.kind.once)
    (hm : s.mute (reqHost m.req) = false) (hp : m.phase = none) (hf : m.flume = none) (hj : m.journal = none) (hr : s.cis.regions = [])
    (hh : s.cis.handles = []) :
    Finished s (finishLive id St.ok w) (writeAnswer m off s) (qpcsAfter m s) ∧ (finishLive id St.ok w).cis = w.cis := by
  obtain ⟨y, hone⟩ := h.onePart hx hs hsegs hst hmi hsip
  have hans := respond_once hone hk ((h.kept.mute _).trans hm)
  rw [writeAnswer_kept h.kept hx, qpcsAfter_congr h.qpcs] at hans
  exact h.finishes hone hp hf hj hr hh hans

section
variable (hl : s.mem.live = [(id, l)]) (hf : l.fresh) (ho : l.own) (h : InTile s l.allot off l.req.length x)
  (hoff : off = l.req.pva - x.pva) (hr : s.cis.regions = []) (hh : s.cis.handles = []) (hm : s.mute (reqHost l.req) = false)
include hl hf ho h hoff hr hh hm

theorem serve_read (hk : l.kind = .read) (hrd : l.rdma = none) (hsrc : l.src = none) (hn4 : l.req.length ≤ 4096) :
    Finished s (serveReq id s) (poolAnswer s l.req 0xD0 St.ok l.held false true ⟨0, chanOf s l.allot (off / 4096)⟩ 0
      (readPool s l.allot off l.req.length)) s.mem.qpcs ∧ (serveReq id s).cis = s.cis := by
  have hway := OnWay.start hl
  have hread := hway.setLive (l.reading off l.req.length)
  subst hoff
  rw [serveReq_cistern hway.liveReq h.allot h.place h.flags (by rw [hk]; decide) hsrc,
    startLive_read hway.liveReq (Or.inl hk) hf h hr]
  have hone : OnePart (s.setLive id (l.reading (l.req.pva - x.pva) l.req.length)) (l.reading (l.req.pva - x.pva) l.req.length)
      (l.req.pva - x.pva) l.req.length x := ⟨h.allot, h.sound, rfl, hf.stat, hf.missed, hf.siphoned⟩
  have hans := respond_read hone hk hrd h.pos hn4 rfl hm
  have hansw := poolAnswer_kept hread.kept l.req 0xD0 St.ok l.held false true (chanOf s l.allot ((l.req.pva - x.pva) / 4096)) 0
    (readPool s l.allot (l.req.pva - x.pva) l.req.length)
  obtain ⟨hfin, hcis⟩ := hread.finishes hone ho.phase ho.flume hf.journal hr hh hans
  rw [← hansw]
  exact ⟨hfin, hcis⟩

theorem serve_read_rdma {q : RdmaReq} (hk : l.kind = .rdmaRead) (hrd : l.rdma = some q) (hsrc : l.src = none) :
    Finished s (serveReq id s) (.rdmaReply q true 0 0 (readPool s l.allot off l.req.length)) s.mem.qpcs ∧ (serveReq id s).cis = s.cis := by
  have hway := OnWay.start hl
  have hread := hway.setLive (l.reading off l.req.length)
  subst hoff
  rw [serveReq_cistern hway.liveReq h.allot h.place h.flags (by rw [hk]; decide) hsrc,
    startLive_read hway.liveReq (Or.inr hk) hf h hr]
  have hone : OnePart (s.setLive id (l.reading (l.req.pva - x.pva) l.req.length)) (l.reading (l.req.pva - x.pva) l.req.length)
      (l.req.pva - x.pva) l.req.length x := ⟨h.allot, h.sound, rfl, hf.stat, hf.missed, hf.siphoned⟩
  exact hread.finishes hone ho.phase ho.flume hf.journal hr hh (respond_read_rdma hone hk hrd hm)

theorem serve_write (hk : l.kind = .write ∨ l.kind = .rdmaWrite) (hsrc : l.src = none) (hdata : l.req.data.length = l.req.length) :
    Finished s (serveReq id s) (writeAnswer l off s) s.mem.qpcs ∧
      (serveReq id s).cis.pool = s.cis.pool.writeN (poolKey l.allot off) l.req.data := by
  have hway := OnWay.start hl
  subst hoff
  generalize hoff : l.req.pva - x.pva = off
  have hbytes : writeBytes (l.writing off).written (oneSeg off l.req.length) = l.req.data := by
    show slice (if l.kind = .copy then _ else l.req.data) 0 l.req.length = _
    rw [if_neg (by rcases hk with hk | hk <;> rw [hk] <;> decide), slice_whole hdata]
  have hkind : l.kind.once := by
    rcases hk with hk | hk
    · exact Or.inl hk
    · exact Or.inr (Or.inr (Or.inr (Or.inl hk)))
  have hatomic : isAtomic l = false := by
    rcases hk with hk | hk
    · rw [isAtomic, hk]
      rfl
    · rw [isAtomic, hk]
      rfl
  rw [serveReq_cistern hway.liveReq h.allot h.place h.flags (by rcases hk with hk | hk <;> rw [hk] <;> decide) hsrc,
    startLive_write hway.liveReq hk hf h hr, hoff, hbytes]
  rw [hoff] at h
  obtain ⟨hput, hpool, hsound⟩ := (hway.setLive (l.writing off)).putTile (a := l.allot) (off := off)
    (x := x) ⟨h.allot, h.place, h.sound, h.plain⟩ l.req.data
  obtain ⟨hfin, hcis⟩ := (hput.setLive (l.writing off).written).finishes_once (x := x) h.allot hsound rfl hf.stat hf.missed hf.siphoned hkind hm
    ho.phase ho.flume hf.journal hr hh
  rw [qpcsAfter_plain (show isAtomic (l.writing off).written = false from hatomic)] at hfin
  exact ⟨hfin, by rw [hcis]; exact hpool⟩

theorem serve_atomic (hk : l.kind = .atomic ∨ l.kind = .rdmaAtomic) (hsrc : l.src = none) :
    Finished s (serveReq id s) (writeAnswer (l.prior8 s off) off s) (qpcsAfter (l.prior8 s off) s) ∧
      (serveReq id s).cis.pool = s.cis.pool.writeN (poolKey l.allot off) (atomicLeft s l off) := by
  have hway := OnWay.start hl
  subst hoff
  have hkind : l.kind.once := by
    rcases hk with hk | hk
    · exact Or.inr (Or.inl hk)
    · exact Or.inr (Or.inr (Or.inr (Or.inr hk)))
  rw [serveReq_cistern hway.liveReq h.allot h.place h.flags (by rcases hk with hk | hk <;> rw [hk] <;> decide) hsrc,
    startLive_atomic hway.liveReq hk hf h hr]
  generalize l.req.pva - x.pva = off at h ⊢
  obtain ⟨hput, hpool, hsound⟩ := (hway.setLive (l.prior8 s off)).putTile (a := l.allot) (off := off)
    (x := x) ⟨h.allot, h.place, h.sound, h.plain⟩ (atomicLeft s l off)
  obtain ⟨hfin, hcis⟩ := hput.finishes_once (x := x) (n := l.req.length) h.allot hsound rfl hf.stat hf.missed hf.siphoned hkind hm
    ho.phase ho.flume hf.journal hr hh
  exact ⟨hfin, by rw [hcis]; exact hpool⟩

theorem serve_copy {b soff : Nat} {y : Allot} (hk : l.kind = .copy) (hrd : l.rdma = none) (hsrc : l.src = some b)
    (hy : InTile s b soff l.req.length y) (hso : soff = be l.req.data 0 8 - y.pva) (hsw : byteAt l.req.data 8 = s.sw.switchId.toNat)
    (hq : s.coh.dieQ = []) :
    Finished s (serveReq id s) (writeAnswer l off s) s.mem.qpcs ∧
      (serveReq id s).cis.pool = s.cis.pool.writeN (poolKey l.allot off) (readPool s b soff l.req.length) := by
  have hway := OnWay.start hl
  subst hoff
  obtain ⟨m, hm'⟩ : ∃ m, m = (l.reading soff l.req.length).gathered (readPool s b soff l.req.length) := ⟨_, rfl⟩
  rw [serveReq_copy hway.liveReq h.allot h.place h.flags hk hsrc hy.allot hy.place hy.flags hsw,
    startLive_copy hway.liveReq hk hsrc hf h hy hso hr hm', slice_whole (show (readPool s b soff l.req.length).length = l.req.length from Mem.length_readN ..)]
  generalize l.req.pva - x.pva = off at h ⊢
  have hmk : m.kind = .copy ∧ m.allot = l.allot ∧ m.req = l.req ∧ m.stat = [] ∧ m.missed = [] ∧ m.siphoned = false ∧ m.phase = none ∧
      m.flume = none ∧ m.journal = none ∧ m.rdma = none ∧ m.held = l.held := by
    rw [hm']
    exact ⟨hk, rfl, rfl, hf.stat, rfl, hf.siphoned, ho.phase, ho.flume, hf.journal, hrd, rfl⟩
  obtain ⟨hkind, hall, hreq, hst, hmi, hsip, hph, hfl, hj, hnr, hheld⟩ := hmk
  obtain ⟨hput, hpool, hsound⟩ := ((hway.setLive (l.reading soff l.req.length)).setLive (m.writing off)).putTile (a := l.allot) (off := off)
    (x := x) ⟨h.allot, h.place, h.sound, h.plain⟩ (readPool s b soff l.req.length)
  obtain ⟨hfin, hcis⟩ := (hput.setLive (m.writing off).written).finishes_once (x := x) (off := off) (n := m.req.length)
    (by show s.allot m.allot = _; rw [hall]; exact h.allot)
    (by show State.isPoisoned _ m.allot _ = _; rw [hall]; exact hsound) rfl hst hmi hsip (Or.inr (Or.inr (Or.inl hkind)))
    (by show s.mute (reqHost m.req) = _; rw [hreq]; exact hm) hph hfl hj hr hh
  have hatomic : isAtomic (m.writing off).written = false := by
    show isAtomic m = false
    rw [isAtomic, hkind]
    rfl
  have hwa : writeAnswer (m.writing off).written off s = writeAnswer l off s := by
    unfold writeAnswer
    rw [hatomic, show (m.writing off).written.rdma = none from hnr, hrd]
    dsimp only
    rw [show (m.writing off).written.req = l.req from hreq, show (m.writing off).written.kind = l.kind from hkind.trans hk.symm,
      show (m.writing off).written.allot = l.allot from hall, show (m.writing off).written.held = l.held from hheld,
      show isAtomic l = false by rw [isAtomic, hk]; rfl, if_neg Bool.false_ne_true, if_neg Bool.false_ne_true]
  rw [qpcsAfter_plain hatomic, hwa] at hfin
  have hsettled : ∀ v, Finished s v (writeAnswer l off s) s.mem.qpcs → cohSettle v = v := fun v hv =>
    cohSettle_still (by rw [hv.kept.coh]; exact hq) (by rw [hv.live]; exact fun e he => absurd he List.not_mem_nil)
  rw [hsettled _ hfin]
  exact ⟨hfin, by rw [hcis]; exact hpool⟩

end

/-! ### The way to the home engine -/

/-- A request its home engine has taken. -/
def Live.taken (l : Live) (t : Time) : Live := { l with arrived := t }

theorem pubHeld_plain (hf : bitOf l.req.flags 0 = false) : pubHeld s l = false := by
  unfold pubHeld
  rw [hf, Bool.false_and]

theorem qpBusy_alone (hl : s.mem.live = [(id, l)]) (m : Live) : qpBusy s id m = false := by
  unfold qpBusy
  cases m.rdma with
  | none => rfl
  | some q =>
    dsimp only
    rw [hl, List.any_cons, List.any_nil, decide_eq_false (Nat.lt_irrefl id), Bool.false_and]
    rfl

theorem putCtx_kept (c : QCtx) : EngineKept s (putCtx c s) := EngineKept.of_mem rfl rfl rfl (fun h => h) fun _ x h => ⟨x.inflight, h⟩

theorem OnWay.putCtx {m : Live} (h : OnWay s w id m) (c : QCtx) : OnWay s (Machine.putCtx c w) id m :=
  ⟨h.kept.trans (putCtx_kept c), h.out, h.live, h.qpcs⟩

/-- A request its home engine serves now, unless a publication or its queue pair holds it back. -/
def serveFree (id : Nat) (l : Live) (s : State) : State :=
  if pubHeld s l then s.setLive id { l with stage := 9 }
  else if qpBusy s id l then s.setLive id { l with stage := 8 }
  else serveReq id s

theorem acceptReq_rdma (hl : s.liveReq id = some l) (hrd : l.rdma.isSome = true) :
    acceptReq id s = serveFree id (l.taken s.now) (s.setLive id (l.taken s.now)) := by
  unfold acceptReq
  rw [hl]
  exact if_pos hrd

/-- The queue context a first request makes (06 R199). -/
def Live.context (l : Live) (t : Time) : QCtx :=
  { die := l.home, levee := l.req.levee, host := reqHost l.req, queue := l.req.queue, high := l.req.seq, done := [], live := [l.req.seq], last := t }

theorem acceptReq_first (hl : s.liveReq id = some l) (hrd : l.rdma = none) (hc : s.mem.ctxs = []) :
    acceptReq id s = serveFree id (l.taken s.now) (putCtx (l.context s.now) (s.setLive id (l.taken s.now))) := by
  unfold acceptReq
  split
  · next h =>
    rw [hl] at h
    exact absurd h (Option.some_ne_none l)
  · next l' h =>
    obtain rfl : l = l' := Option.some.inj (hl.symm.trans h)
    extract_lets m u begin_ r c
    have hctx : u.mem.ctxs = [] := hc
    have hfind : findCtx u m.home r.levee (reqHost r) r.queue = none := by
      unfold findCtx
      rw [hctx]
      rfl
    rw [if_neg (show ¬ m.rdma.isSome = true by show ¬ l.rdma.isSome = true; rw [hrd]; decide), hfind]
    dsimp only
    rw [hctx, List.filter_nil, List.length_nil, if_neg (by omega)]
    rfl

/-- A standard RDMA request, or the first one of its queue context, is served at once. -/
theorem acceptReq_serves (hl : s.mem.live = [(id, l)]) (hf : bitOf l.req.flags 0 = false) (hc : l.rdma = none → s.mem.ctxs = []) :
    ∃ w, acceptReq id s = serveReq id w ∧ OnWay s w id (l.taken s.now) ∧ w.cis = s.cis := by
  have hway := OnWay.start hl
  have htaken := hway.setLive (l.taken s.now)
  have hfree : ∀ w, OnWay s w id (l.taken s.now) → serveFree id (l.taken s.now) w = serveReq id w := fun w hw => by
    unfold serveFree
    rw [pubHeld_plain (l := l.taken s.now) hf, qpBusy_alone hw.live, if_neg Bool.false_ne_true, if_neg Bool.false_ne_true]
  cases hrd : l.rdma with
  | some q => exact ⟨_, (acceptReq_rdma hway.liveReq (by rw [hrd]; rfl)).trans (hfree _ htaken), htaken, rfl⟩
  | none => exact ⟨_, (acceptReq_first hway.liveReq hrd (hc hrd)).trans (hfree _ (htaken.putCtx _)), htaken.putCtx _, rfl⟩

/-- A request that is no message of a caching agent. -/
def ReqKind.plain (k : ReqKind) : Prop := ∀ c, k ≠ .coh c

theorem setHost_kept (h : HostState) : EngineKept s (setHost h s) := EngineKept.of_mem rfl rfl rfl (fun h => h) fun _ x h => ⟨x.inflight, h⟩

/-- A state to which a request is about to be added. -/
structure Before (s w : State) : Prop where
  kept : EngineKept s w
  out : w.out = s.out
  cis : w.cis = s.cis
  live : w.mem.live = s.mem.live
  qpcs : w.mem.qpcs = s.mem.qpcs
  ctxs : w.mem.ctxs = s.mem.ctxs
  next : w.mem.nextLive = s.mem.nextLive

theorem Before.trans {u v w : State} (h : Before u v) (g : Before v w) : Before u w :=
  ⟨h.kept.trans g.kept, g.out.trans h.out, g.cis.trans h.cis, g.live.trans h.live, g.qpcs.trans h.qpcs, g.ctxs.trans h.ctxs,
    g.next.trans h.next⟩

/-- The counts a released request raises. -/
def countRelease (l : Live) (h : HostState) (s : State) : State :=
  let s := setHost { h with tokens := h.tokens - ((chargeOf l * wrUnit : Nat) : Int), inflight := h.inflight + 1 } s
  let inc (a : Allot) : Allot := { a with inflight := a.inflight + 1 }
  let s := s.modAllot l.allot inc
  let s := match l.src with
    | some b => if b = l.allot then s else s.modAllot b inc
    | none => s
  if l.home = l.req.die then s else meshDeliver l.home s

theorem countRelease_before (l : Live) (h : HostState) : Before s (countRelease l h s) := by
  have hinc : ∀ y : Allot, ∃ n, { y with inflight := y.inflight + 1 } = { y with inflight := n } := fun y => ⟨_, rfl⟩
  have hmod : ∀ (v : State) (b : Nat), Before v (v.modAllot b fun a => { a with inflight := a.inflight + 1 }) :=
    fun v b => ⟨State.modAllot_kept b _ hinc, rfl, rfl, rfl, rfl, rfl, rfl⟩
  have hmesh : ∀ v : State, Before v (if l.home = l.req.die then v else meshDeliver l.home v) := fun v => by
    by_cases e : l.home = l.req.die
    · rw [if_pos e]
      exact ⟨EngineKept.refl v, rfl, rfl, rfl, rfl, rfl, rfl⟩
    · rw [if_neg e]
      exact ⟨meshDeliver_kept _, rfl, rfl, rfl, rfl, rfl, rfl⟩
  have hhost : ∀ h', Before s (setHost h' s) := fun h' => ⟨setHost_kept h', rfl, rfl, rfl, rfl, rfl, rfl⟩
  unfold countRelease
  cases l.src with
  | none => exact (hhost _).trans ((hmod _ _).trans (hmesh _))
  | some b =>
    by_cases e : b = l.allot
    · dsimp only
      rw [if_pos e]
      exact (hhost _).trans ((hmod _ _).trans (hmesh _))
    · dsimp only
      rw [if_neg e]
      exact (hhost _).trans ((hmod _ _).trans ((hmod _ _).trans (hmesh _)))

/-- The request put on the table of those under way. -/
def addLive (l : Live) (s : State) : State :=
  { s with mem := { s.mem with nextLive := s.mem.nextLive + 1, live := Tab.set s.mem.live s.mem.nextLive l } }

theorem releaseReq_accepts (l : Live) (h : HostState) (hk : l.kind.plain) :
    releaseReq l h s = acceptReq s.mem.nextLive (addLive l (countRelease l h s)) := by
  have hadd : ({ countRelease l h s with mem := { (countRelease l h s).mem with
      nextLive := s.mem.nextLive + 1, live := Tab.set (countRelease l h s).mem.live s.mem.nextLive l } } : State) = addLive l (countRelease l h s) := by
    unfold addLive
    rw [(countRelease_before l h).next]
  rw [← hadd]
  unfold releaseReq
  cases hkind : l.kind with
  | coh c => exact absurd hkind (hk c)
  | _ => rfl

/-- A released request is served at once. -/
theorem releaseReq_serves (l : Live) (h : HostState) (hk : l.kind.plain) (hl : s.mem.live = []) (hf : bitOf l.req.flags 0 = false)
    (hc : l.rdma = none → s.mem.ctxs = []) :
    ∃ w, releaseReq l h s = serveReq s.mem.nextLive w ∧ OnWay s w s.mem.nextLive (l.taken s.now) ∧ w.cis = s.cis := by
  have hb := countRelease_before (s := s) l h
  have hlive : (addLive l (countRelease l h s)).mem.live = [(s.mem.nextLive, l)] := by
    show Tab.set (countRelease l h s).mem.live (countRelease l h s).mem.nextLive l = _
    rw [hb.live, hl, hb.next]
    rfl
  have hkept : EngineKept s (addLive l (countRelease l h s)) :=
    hb.kept.trans (EngineKept.of_mem rfl rfl rfl (fun h => h) fun _ x h => ⟨x.inflight, h⟩)
  obtain ⟨w, hw, hway, hcis⟩ := acceptReq_serves hlive hf fun hr => hb.ctxs.trans (hc hr)
  refine ⟨w, (releaseReq_accepts l h hk).trans hw, ?_, hcis.trans hb.cis⟩
  have hnow : (addLive l (countRelease l h s)).now = s.now := hb.kept.now
  rw [hnow] at hway
  exact ⟨hkept.trans hway.kept, hway.out.trans hb.out, hway.live, hway.qpcs.trans hb.qpcs⟩

theorem rightOf_default (hr : s.mem.rights = []) (die levee : Nat) (host : Ip) :
    (rightOf s die levee host).rate = 0 ∧ (rightOf s die levee host).out = 256 := by
  unfold rightOf
  rw [hr]
  exact ⟨rfl, rfl⟩

theorem mayRelease_default (hr : s.mem.rights = []) (die levee : Nat) (host : Ip) {h : HostState} (hh : h.inflight = 0) :
    mayRelease (rightOf s die levee host) h = true := by
  obtain ⟨hrate, hout⟩ := rightOf_default hr die levee host
  unfold mayRelease
  rw [hrate, hout, hh]
  rfl

/-- A request of a host not yet seen, under the default right, is released at once. -/
theorem waterRight_releases (l : Live) (hr : s.mem.rights = []) (hh : s.mem.hosts = []) :
    ∃ h, waterRight l s = releaseReq l h (s.inflightAdd 9 l.req.ver) := by
  have hhost : (hostOf s l.req.die l.req.levee (reqHost l.req)).hold = [] ∧ (hostOf s l.req.die l.req.levee (reqHost l.req)).inflight = 0 := by
    unfold hostOf
    rw [hh]
    exact ⟨rfl, rfl⟩
  obtain ⟨hhold, hin⟩ := hhost
  unfold waterRight
  refine ⟨_, if_pos ?_⟩
  have hfill : ∀ (h : HostState) r n, h.hold = [] → (h.fill r n).hold.isEmpty = true := fun h r n e => by
    show h.hold.isEmpty = true
    rw [e]
    rfl
  rw [hfill _ _ _ hhold, mayRelease_default hr _ _ _ (by exact hin)]
  rfl

theorem waterRight_serves (l : Live) (hr : s.mem.rights = []) (hh : s.mem.hosts = []) (hk : l.kind.plain) (hl : s.mem.live = [])
    (hf : bitOf l.req.flags 0 = false) (hc : l.rdma = none → s.mem.ctxs = []) :
    ∃ w, waterRight l s = serveReq s.mem.nextLive w ∧ OnWay s w s.mem.nextLive (l.taken s.now) ∧ w.cis = s.cis := by
  obtain ⟨h, hrel⟩ := waterRight_releases l hr hh
  obtain ⟨w, hw, hway, hcis⟩ := releaseReq_serves (s := s.inflightAdd 9 l.req.ver) l h hk hl hf hc
  exact ⟨w, hrel.trans hw, ⟨(State.inflightAdd_kept 9 _).trans hway.kept, hway.out, hway.live, hway.qpcs⟩, hcis⟩

end Sys2Proof.Machine
end

section
/-! PROOFS. O26: the vendor pool requests on a tile of the cistern, a request its water right held, and the queue contexts
(06 R192–R199, R205). -/

namespace Sys2Proof.Machine

variable {s w : State} {a off id : Nat} {x : Allot} {r : PoolReq} {l : Live}

/-! ### The judgement -/

theorem onCistern_inTile {k : ReqKind} (h : onCistern s k r a off) (hx : s.allot a = some x) : InTile s a off r.length x := by
  obtain ⟨y, hy, -, -, -, hp, hf, -, -, -, hpos, hin, hs, hc, -⟩ := h
  obtain rfl : x = y := Option.some.inj (hx.symm.trans hy)
  exact ⟨hx, hp, hf, hs, hc, hpos, hin⟩

theorem allotStatus_cistern (hx : s.allot a = some x) (hst : x.st = .active) (hw : x.work = none) (hp : x.place = 0) :
    allotStatus s a = St.ok := by
  unfold allotStatus
  rw [hx]
  dsimp only
  rw [hst, hw, allotFenced_cistern hp]
  rfl

theorem windowsOk_plain (hr : s.cis.regions = []) (hf : bitOf r.flags 0 = false) (k : ReqKind) (src : Option Nat) :
    windowsOk s k r a src = true := by
  have hreg : ∀ b, regionOf s b = none := fun b => by
    unfold regionOf
    rw [hr]
    rfl
  unfold windowsOk
  dsimp only
  rw [hf, if_neg Bool.false_ne_true]
  cases src with
  | none =>
    dsimp only
    rw [reach_plain hr]
    rfl
  | some b =>
    dsimp only
    rw [hreg, Option.isSome_none, if_neg Bool.false_ne_true, reach_plain hr, reach_plain hr, Bool.false_and]
    rfl

theorem judge_cistern {k : ReqKind} (hk : k ≠ .copy) (h : onCistern s k r a off) (hr : s.cis.regions = []) :
    judge k r s = (St.ok, a, none) := by
  obtain ⟨x, hx, htr, hst, hw, hp, -, -, hlim, hf, -⟩ := h
  have hremote : remoteCopy s k r = false := by rw [remoteCopy, beq_eq_false_iff_ne.2 hk, Bool.false_and]
  unfold judge
  rw [hlim, if_neg (by decide), htr]
  dsimp only
  rw [if_neg (fun e => hk e.1), hremote, allotStatus_cistern hx hst hw hp, windowsOk_plain hr hf]
  rfl

theorem judge_copy {b soff : Nat} (h : onCistern s .copy r a off) (hsw : byteAt r.data 8 = s.sw.switchId.toNat)
    (hb : onCistern s .read { r with pva := be r.data 0 8 } b soff) (hr : s.cis.regions = []) : judge .copy r s = (St.ok, a, some b) := by
  obtain ⟨x, hx, htr, hst, hw, hp, -, -, hlim, hf, -⟩ := h
  obtain ⟨y, hy, htr', hst', hw', hp', -⟩ := hb
  have hremote : remoteCopy s .copy r = false := by rw [remoteCopy, hsw, bne_self_eq_false, Bool.and_false]
  have htr2 : translate s r.ver r.levee (be r.data 0 8) r.length = some b := htr'
  unfold judge
  rw [hlim, if_neg (by decide), htr]
  dsimp only
  rw [if_pos ⟨rfl, by rw [hremote]; rfl⟩, htr2]
  dsimp only
  rw [allotStatus_cistern hx hst hw hp, allotStatus_cistern hy hst' hw' hp', windowsOk_plain hr hf]
  rfl

/-! ### The request -/

/-- The request that a vendor packet becomes. -/
def vendorLive (k : ReqKind) (r : PoolReq) (a home : Nat) (src : Option Nat) : Live := { kind := k, req := r, allot := a, home := home, src := src }

/-- The four vendor kinds. -/
def ReqKind.vendor (k : ReqKind) : Prop := k = .read ∨ k = .write ∨ k = .atomic ∨ k = .copy

theorem ReqKind.vendor_plain {k : ReqKind} (h : k.vendor) : k.plain := fun c e => by
  rcases h with h | h | h | h
  all_goals exact ReqKind.noConfusion (h.symm.trans e)

/-- No host, right, context or request is there yet, and nothing is under way. -/
structure PoolIdle (s : State) : Prop where
  calm : s.calm
  live : s.mem.live = []
  rights : s.mem.rights = []
  hosts : s.mem.hosts = []

theorem poolRequest_judged {k : ReqKind} {src : Option Nat} (hk : k.vendor) (hj : judge k r s = (St.ok, a, src)) :
    poolRequest k r s = settle (waterRight (vendorLive k r a ((s.allot a).elim 0 (·.home)) src) s) := by
  have hr : (match k with | .copy | .read | .write | .atomic => r | _ => { r with flags := 0, handle := 0 }) = r := by
    rcases hk with rfl | rfl | rfl | rfl
    all_goals rfl
  unfold poolRequest
  dsimp only
  rcases hk with rfl | rfl | rfl | rfl
  all_goals
    rw [hj]
    exact if_neg (fun h => h rfl)

/-- A vendor request on the cistern is served. -/
theorem poolRequest_serves {k : ReqKind} {src : Option Nat} (hi : PoolIdle s) (hc : s.mem.ctxs = []) (hk : k.vendor)
    (hj : judge k r s = (St.ok, a, src)) (hx : s.allot a = some x) (hf : bitOf r.flags 0 = false) :
    ∃ w, poolRequest k r s = settle (serveReq s.mem.nextLive w) ∧
      OnWay s w s.mem.nextLive ((vendorLive k r a x.home src).taken s.now) ∧ w.cis = s.cis := by
  obtain ⟨w, hw, hway, hcis⟩ := waterRight_serves (vendorLive k r a x.home src) hi.rights hi.hosts (ReqKind.vendor_plain hk) hi.live hf fun _ => hc
  refine ⟨w, ?_, hway, hcis⟩
  rw [poolRequest_judged hk hj, hx, Option.elim_some, hw]

/-- A request is answered and has left: what the engines speak of stands otherwise as it did. -/
structure Served (s v : State) (o : Out) : Prop where
  kept : EngineKept s v
  out : v.out = s.out ++ [o]
  live : v.mem.live = []

theorem OnWay.served {v : State} {o : Out} {qs : Tab Qpc} (h : OnWay s w id l) (hc : s.calm) (hfin : Finished w v o qs) :
    settle v = v ∧ Served s v o :=
  ⟨settle_calm ((h.kept.trans hfin.kept).calm hc) hfin.live, h.kept.trans hfin.kept, by rw [hfin.out, h.out], hfin.live⟩

/-- The tile of a request, in the state it is served in. -/
theorem OnWay.inTile (h : OnWay s w id l) (hcis : w.cis = s.cis) {n : Nat} (ht : InTile s a off n x) : ∃ k, InTile w a off n { x with inflight := k } := by
  obtain ⟨k, hk⟩ := h.kept.allot a x ht.allot
  refine ⟨k, hk, ht.place, ht.flags, ?_, ?_, ht.pos, ht.inside⟩
  · rw [State.isPoisoned, hcis]
    exact ht.sound
  · rw [h.kept.confidential]
    exact ht.plain

theorem vendorLive_fresh {k : ReqKind} {home : Nat} {src : Option Nat} {t : Time} (hf : bitOf r.flags 0 = false) :
    ((vendorLive k r a home src).taken t).fresh := ⟨rfl, rfl, rfl, rfl, rfl, rfl, rfl, rfl, hf⟩

theorem readPool_congr (h : w.cis = s.cis) (n : Nat) : readPool w a off n = readPool s a off n := by
  unfold readPool
  rw [h]

/-! ### The four requests, served -/

section
variable (h : OnWay s w id l) (hcis : w.cis = s.cis) (hc : s.calm) (hf : l.fresh) (ho : l.own)
  (ht : InTile s l.allot off l.req.length x) (hoff : off = l.req.pva - x.pva) (hm : s.mute (reqHost l.req) = false)
include h hcis hc hf ho ht hoff hm

theorem served_read (hk : l.kind = .read) (hrd : l.rdma = none) (hsrc : l.src = none) : settle (serveReq id w) = serveReq id w ∧
    Served s (serveReq id w) (poolAnswer s l.req 0xD0 St.ok l.held false true ⟨0, chanOf s l.allot (off / 4096)⟩ 0
      (readPool s l.allot off l.req.length)) ∧ (serveReq id w).cis = s.cis := by
  obtain ⟨k, htw⟩ := h.inTile hcis ht
  have hn4 : l.req.length ≤ 4096 := by
    have := ht.inside
    omega
  obtain ⟨hfin, hcis'⟩ := serve_read h.live hf ho htw hoff (by rw [hcis]; exact hc.1.1) (by rw [hcis]; exact hc.1.2.1)
    ((h.kept.mute _).trans hm) hk hrd hsrc hn4
  rw [poolAnswer_kept h.kept, h.kept.chanOf ht.allot, readPool_congr hcis] at hfin
  obtain ⟨hset, hserved⟩ := h.served hc hfin
  exact ⟨hset, hserved, hcis'.trans hcis⟩

theorem served_write (hk : l.kind = .write) (hsrc : l.src = none) (hdata : l.req.data.length = l.req.length) :
    settle (serveReq id w) = serveReq id w ∧ Served s (serveReq id w) (writeAnswer l off s) ∧
      (serveReq id w).cis.pool = s.cis.pool.writeN (poolKey l.allot off) l.req.data := by
  obtain ⟨k, htw⟩ := h.inTile hcis ht
  obtain ⟨hfin, hpool⟩ := serve_write h.live hf ho htw hoff (by rw [hcis]; exact hc.1.1) (by rw [hcis]; exact hc.1.2.1)
    ((h.kept.mute _).trans hm) (Or.inl hk) hsrc hdata
  rw [writeAnswer_kept h.kept ht.allot] at hfin
  obtain ⟨hset, hserved⟩ := h.served hc hfin
  exact ⟨hset, hserved, by rw [hpool, hcis]⟩

theorem served_atomic (hk : l.kind = .atomic) (hsrc : l.src = none) :
    settle (serveReq id w) = serveReq id w ∧ Served s (serveReq id w) (writeAnswer (l.prior8 s off) off s) ∧
      (serveReq id w).cis.pool = s.cis.pool.writeN (poolKey l.allot off) (atomicLeft s l off) := by
  obtain ⟨k, htw⟩ := h.inTile hcis ht
  obtain ⟨hfin, hpool⟩ := serve_atomic h.live hf ho htw hoff (by rw [hcis]; exact hc.1.1) (by rw [hcis]; exact hc.1.2.1)
    ((h.kept.mute _).trans hm) (Or.inl hk) hsrc
  have hprior : l.prior8 w off = l.prior8 s off := by
    unfold Live.prior8
    rw [readPool_congr hcis]
  have hleft : atomicLeft w l off = atomicLeft s l off := by
    unfold atomicLeft
    rw [readPool_congr hcis]
  rw [hprior, writeAnswer_kept h.kept (show s.allot (l.prior8 s off).allot = _ from ht.allot)] at hfin
  obtain ⟨hset, hserved⟩ := h.served hc hfin
  exact ⟨hset, hserved, by rw [hpool, hcis, hleft]⟩

theorem served_copy {b soff : Nat} {y : Allot} (hk : l.kind = .copy) (hrd : l.rdma = none) (hsrc : l.src = some b) (hy : InTile s b soff l.req.length y)
    (hso : soff = be l.req.data 0 8 - y.pva) (hsw : byteAt l.req.data 8 = s.sw.switchId.toNat) :
    settle (serveReq id w) = serveReq id w ∧ Served s (serveReq id w) (writeAnswer l off s) ∧
      (serveReq id w).cis.pool = s.cis.pool.writeN (poolKey l.allot off) (readPool s b soff l.req.length) := by
  obtain ⟨k, htw⟩ := h.inTile hcis ht
  obtain ⟨j, hyw⟩ := h.inTile hcis hy
  obtain ⟨hfin, hpool⟩ := serve_copy h.live hf ho htw hoff (by rw [hcis]; exact hc.1.1) (by rw [hcis]; exact hc.1.2.1)
    ((h.kept.mute _).trans hm) hk hrd hsrc hyw hso (by rw [h.kept.switchId]; exact hsw) (by rw [h.kept.coh, hc.2])
  rw [writeAnswer_kept h.kept ht.allot] at hfin
  obtain ⟨hset, hserved⟩ := h.served hc hfin
  exact ⟨hset, hserved, by rw [hpool, hcis, readPool_congr hcis]⟩

end

/-! ### The four requests from a packet -/

section
variable (hi : PoolIdle s) (hc : s.mem.ctxs = [])
include hi hc

theorem poolRequest_read (h : onCistern s .read r a off) : Served s (poolRequest .read r s)
    (poolAnswer s r 0xD0 St.ok false false true ⟨0, chanOf s a (off / 4096)⟩ 0 (readPool s a off r.length)) ∧
      (poolRequest .read r s).cis = s.cis := by
  obtain ⟨x, hx, -, -, -, -, -, hoff, -, hf, -, -, -, -, hm⟩ := id h
  obtain ⟨w, hw, hway, hcis⟩ := poolRequest_serves hi hc (Or.inl rfl) (judge_cistern (by decide) h hi.calm.1.1) hx hf
  obtain ⟨hset, hserved, hcis'⟩ := served_read hway hcis hi.calm (vendorLive_fresh hf) ⟨rfl, rfl⟩ (onCistern_inTile h hx) hoff hm rfl rfl rfl
  rw [hw, hset]
  exact ⟨hserved, hcis'⟩

theorem poolRequest_write (h : onCistern s .write r a off) : Served s (poolRequest .write r s)
    (poolAnswer s r 0xD1 St.ok false false true ⟨0, chanOf s a (off / 4096)⟩ 0 []) ∧
      (poolRequest .write r s).cis.pool = s.cis.pool.writeN (poolKey a off) r.data := by
  obtain ⟨x, hx, -, -, -, -, -, hoff, hlim, hf, -, -, -, -, hm⟩ := id h
  have hdata : r.data.length = r.length := by
    simp only [limitsOk, Bool.and_eq_true, beq_iff_eq] at hlim
    exact hlim.2.2
  obtain ⟨w, hw, hway, hcis⟩ := poolRequest_serves hi hc (Or.inr (Or.inl rfl)) (judge_cistern (by decide) h hi.calm.1.1) hx hf
  obtain ⟨hset, hserved, hpool⟩ := served_write hway hcis hi.calm (vendorLive_fresh hf) ⟨rfl, rfl⟩ (onCistern_inTile h hx) hoff hm rfl rfl hdata
  rw [hw, hset]
  exact ⟨hserved, hpool⟩

theorem poolRequest_atomic (h : onCistern s .atomic r a off) : Served s (poolRequest .atomic r s)
    (poolAnswer s r 0xD2 St.ok false false true ⟨0, chanOf s a (off / 4096)⟩ 0 (toBe 8 (le (readPool s a off 8) 0 8))) ∧
      (poolRequest .atomic r s).cis.pool = s.cis.pool.writeN (poolKey a off)
        (toLe 8 (atomicNew r.op (le (readPool s a off 8) 0 8) (be r.data 0 8) (be r.data 8 8))) := by
  obtain ⟨x, hx, -, -, -, -, -, hoff, -, hf, -, -, -, -, hm⟩ := id h
  obtain ⟨w, hw, hway, hcis⟩ := poolRequest_serves hi hc (Or.inr (Or.inr (Or.inl rfl))) (judge_cistern (by decide) h hi.calm.1.1) hx hf
  obtain ⟨hset, hserved, hpool⟩ := served_atomic hway hcis hi.calm (vendorLive_fresh hf) ⟨rfl, rfl⟩ (onCistern_inTile h hx) hoff hm rfl rfl
  rw [hw, hset]
  exact ⟨hserved, hpool⟩

theorem poolRequest_copy {b soff : Nat} (h : onCistern s .copy r a off) (hsw : byteAt r.data 8 = s.sw.switchId.toNat)
    (hb : onCistern s .read { r with pva := be r.data 0 8 } b soff) : Served s (poolRequest .copy r s)
    (poolAnswer s r 0xD1 St.ok false false true ⟨0, chanOf s a (off / 4096)⟩ 0 []) ∧
      (poolRequest .copy r s).cis.pool = s.cis.pool.writeN (poolKey a off) (readPool s b soff r.length) := by
  obtain ⟨x, hx, -, -, -, -, -, hoff, -, hf, -, -, -, -, hm⟩ := id h
  obtain ⟨y, hy, -, -, -, -, -, hso, -⟩ := id hb
  have hyt : InTile s b soff r.length y := onCistern_inTile (r := { r with pva := be r.data 0 8 }) hb hy
  obtain ⟨w, hw, hway, hcis⟩ := poolRequest_serves hi hc (Or.inr (Or.inr (Or.inr rfl))) (judge_copy h hsw hb hi.calm.1.1) hx hf
  obtain ⟨hset, hserved, hpool⟩ := served_copy hway hcis hi.calm (vendorLive_fresh hf) ⟨rfl, rfl⟩ (onCistern_inTile h hx) hoff hm rfl rfl rfl hyt hso hsw
  rw [hw, hset]
  exact ⟨hserved, hpool⟩

end

/-- The request a water right held is served when the right lets it go (R205). -/
theorem rightRelease_read {h : HostState} (hc : s.calm) (hl : s.mem.live = []) (hr : s.mem.rights = []) (hctx : s.mem.ctxs = [])
    (hcis : onCistern s .read r a off) (hx : s.allot a = some x)
    (he : l = { kind := .read, req := r, allot := a, home := x.home, held := true }) (hhold : h.hold = [l]) (hin : h.inflight = 0)
    (hh : hostOf s r.die r.levee (reqHost r) = h) :
    settle (rightRelease r.die r.levee (reqHost r) s) = rightRelease r.die r.levee (reqHost r) s ∧
      Served s (rightRelease r.die r.levee (reqHost r) s) (poolAnswer s r 0xD0 St.ok true false true ⟨0, chanOf s a (off / 4096)⟩ 0
        (readPool s a off r.length)) ∧ (rightRelease r.die r.levee (reqHost r) s).cis = s.cis := by
  obtain ⟨y, hy, -, -, -, -, -, hoff, -, hf, -, -, -, -, hm⟩ := id hcis
  obtain rfl : x = y := Option.some.inj (hx.symm.trans hy)
  subst he
  have hrel : ∃ h', rightRelease r.die r.levee (reqHost r) s =
      releaseReq { kind := .read, req := r, allot := a, home := x.home, held := true } h' s := by
    have hfill : ((h.fill (rightOf s r.die r.levee (reqHost r)) s.now).hold) = [{ kind := .read, req := r, allot := a, home := x.home, held := true }] := hhold
    unfold rightRelease
    dsimp only
    rw [hh, hfill]
    exact ⟨_, if_pos (mayRelease_default (h := h.fill _ _) hr _ _ _ hin)⟩
  obtain ⟨h', hrel⟩ := hrel
  obtain ⟨w, hw, hway, hwcis⟩ := releaseReq_serves (s := s) { kind := .read, req := r, allot := a, home := x.home, held := true } h'
    (ReqKind.vendor_plain (Or.inl rfl)) hl hf fun _ => hctx
  rw [hrel, hw]
  exact served_read hway hwcis hc ⟨rfl, rfl, rfl, rfl, rfl, rfl, rfl, rfl, hf⟩ ⟨rfl, rfl⟩ (onCistern_inTile hcis hx) hoff hm rfl rfl rfl

/-! ### An allotment under revocation -/

theorem poolAnswer_noSource (hr : w.mem.rights = s.mem.rights) (r : PoolReq) (op st : Nat) (held sip hit : Bool) (o : Nat) (data : Bytes) :
    poolAnswer w r op st held sip hit noSource o data = poolAnswer s r op st held sip hit noSource o data := by
  have htail : tailwater w r st held sip hit noSource = tailwater s r st held sip hit noSource := by
    unfold tailwater rightOf
    rw [hr]
    rfl
  unfold poolAnswer
  rw [htail]

theorem poolRequest_revoking (hlim : limitsOk .read r = true) (htr : translate s r.ver r.levee r.pva r.length = some a)
    (hx : s.allot a = some x) (hst : x.st = .revoking) (hlen : r.length ≤ 4096) (hm : s.mute (reqHost r) = false) :
    ∃ g, poolRequest .read r s = { s with gauges := g, out := s.out ++ [poolAnswer s r 0xD0 St.extentRevoked false false false noSource 0 []] } := by
  have hstat : allotStatus s a = St.extentRevoked := by
    unfold allotStatus
    rw [hx]
    dsimp only
    rw [hst]
    rfl
  have hjudge : judge .read r s = (St.extentRevoked, a, none) := by
    unfold judge
    rw [hlim, if_neg (by decide), htr]
    dsimp only
    rw [if_neg (fun h => ReqKind.noConfusion h.1), hstat]
    exact if_pos (by decide)
  have hone : List.range (max 1 (ceilDiv r.length 4096)) = [0] := by
    have : max 1 (ceilDiv r.length 4096) = 1 := by
      unfold ceilDiv
      omega
    rw [this, List.range_one]
  unfold poolRequest
  dsimp only
  rw [hjudge]
  dsimp only
  rw [if_pos (by decide)]
  unfold rejectReq
  dsimp only
  rw [if_pos rfl, if_neg (by decide), hone, List.foldl_cons, List.foldl_nil, reply_vendor (by exact hm)]
  rw [poolAnswer_noSource (w := s.count (gk 3 1 2 r.levee r.die) 1) (s := s) rfl]
  exact ⟨_, rfl⟩

/-! ### A queue context that knows the request -/

theorem findCtx_one {c : QCtx} (h : s.mem.ctxs = [c]) (hl : c.levee = l.req.levee) (hd : c.die = l.home) (hh : c.host = reqHost l.req)
    (hq : c.queue = l.req.queue) : findCtx s l.home l.req.levee (reqHost l.req) l.req.queue = some c := by
  unfold findCtx
  rw [h, List.find?_cons, hl, hd, hh, hq]
  simp

theorem ctxPos_high {n : Nat} : ctxPos n n = .inside := by
  have h : (n % 2 ^ 48 + 2 ^ 48 - n % 2 ^ 48) % 2 ^ 48 = 0 := by rw [Nat.add_sub_cancel_left, Nat.mod_self]
  unfold ctxPos
  dsimp only
  rw [h]
  exact if_pos (Or.inl rfl)

theorem ctxPos_below {high seq : Nat} (h : high < 2 ^ 48) (hs : seq + 256 ≤ high) (hd : high ≤ seq + 2 ^ 47) : ctxPos high seq = .below := by
  have hdist : (seq % 2 ^ 48 + 2 ^ 48 - high % 2 ^ 48) % 2 ^ 48 = 2 ^ 48 - (high - seq) := by omega
  unfold ctxPos
  dsimp only
  rw [hdist, if_neg (by omega), if_neg (by omega)]

/-- What a request finds where its context knows it: the context is used now. -/
def QCtx.used (c : QCtx) (t : Time) : QCtx := { c with last := t }

section
variable {c : QCtx} (hl : s.liveReq id = some l) (hrd : l.rdma = none)
  (hfind : ∀ m, findCtx (s.setLive id m) l.home l.req.levee (reqHost l.req) l.req.queue = some c)
include hl hrd hfind

theorem acceptReq_below (hpos : ctxPos c.high l.req.seq = .below) : acceptReq id s =
    endLive id ((putCtx (c.used s.now) (s.setLive id (l.taken s.now))).count (gk 3 2 2 l.home) 1) := by
  have hf := hfind (l.taken s.now)
  unfold acceptReq
  obtain ⟨pos, hp⟩ : ∃ p, p = ctxPos := ⟨_, rfl⟩
  rw [← hp] at hpos ⊢
  rw [hl]
  refine (if_neg (by rw [hrd]; decide)).trans ?_
  cases hfc : findCtx (s.setLive id { l with arrived := s.now }) l.home l.req.levee (reqHost l.req) l.req.queue with
  | none => exact absurd (hf.symm.trans hfc) (Option.some_ne_none c)
  | some d =>
    obtain rfl : c = d := Option.some.inj (hf.symm.trans hfc)
    dsimp only
    rw [hfc]
    dsimp only
    rw [hpos]
    rfl

theorem acceptReq_repeated {o : Outcome} (hpos : ctxPos c.high l.req.seq = .inside) (hlive : c.live = []) (hdone : Tab.get? c.done l.req.seq = some o)
    (hk : l.kind ≠ .read) : acceptReq id s =
    endWith id o.status o.prior ((putCtx (c.used s.now) (s.setLive id (l.taken s.now))).count (gk 3 2 0 l.home) 1) := by
  have hf := hfind (l.taken s.now)
  unfold acceptReq
  obtain ⟨pos, hp⟩ : ∃ p, p = ctxPos := ⟨_, rfl⟩
  rw [← hp] at hpos ⊢
  rw [hl]
  refine (if_neg (by rw [hrd]; decide)).trans ?_
  cases hfc : findCtx (s.setLive id { l with arrived := s.now }) l.home l.req.levee (reqHost l.req) l.req.queue with
  | none => exact absurd (hf.symm.trans hfc) (Option.some_ne_none c)
  | some d =>
    obtain rfl : c = d := Option.some.inj (hf.symm.trans hfc)
    dsimp only
    rw [hfc]
    dsimp only
    rw [hpos]
    dsimp only
    rw [hdone, if_neg (show ¬ c.live.contains l.req.seq = true by rw [hlive, List.contains_nil]; exact Bool.false_ne_true)]
    exact if_neg hk

end

/-- A request whose home engine has just taken it, in a state its context is known in. -/
structure Arriving (s w : State) (l : Live) (c : QCtx) : Prop where
  way : OnWay s w s.mem.nextLive l
  cis : w.cis = s.cis
  ctxs : w.mem.ctxs = [c]

theorem poolRequest_arrives {c : QCtx} (hi : PoolIdle s) (hc : s.mem.ctxs = [c]) (h : onCistern s .write r a off) (hx : s.allot a = some x) :
    ∃ w, poolRequest .write r s = settle (acceptReq s.mem.nextLive w) ∧ Arriving s w (vendorLive .write r a x.home none) c ∧ w.now = s.now := by
  obtain ⟨h', hrel⟩ := waterRight_releases (vendorLive .write r a x.home none) hi.rights hi.hosts
  have hb := (countRelease_before (s := s.inflightAdd 9 r.ver) (vendorLive .write r a x.home none) h')
  have hacc := releaseReq_accepts (s := s.inflightAdd 9 r.ver) (vendorLive .write r a x.home none) h' (ReqKind.vendor_plain (Or.inr (Or.inl rfl)))
  have hkept : EngineKept s (countRelease (vendorLive .write r a x.home none) h' (s.inflightAdd 9 r.ver)) :=
    (State.inflightAdd_kept 9 _).trans hb.kept
  refine ⟨addLive (vendorLive .write r a x.home none) (countRelease (vendorLive .write r a x.home none) h' (s.inflightAdd 9 r.ver)), ?_,
    ⟨⟨hkept.trans (EngineKept.of_mem rfl rfl rfl (fun h => h) fun _ x h => ⟨x.inflight, h⟩), hb.out, ?_, hb.qpcs⟩, hb.cis, hb.ctxs.trans hc⟩, hkept.now⟩
  · rw [poolRequest_judged (Or.inr (Or.inl rfl)) (judge_cistern (by decide) h hi.calm.1.1), hx, Option.elim_some, hrel]
    exact congrArg settle hacc
  · show Tab.set (countRelease _ h' (s.inflightAdd 9 r.ver)).mem.live (countRelease _ h' (s.inflightAdd 9 r.ver)).mem.nextLive _ = _
    rw [hb.live, hb.next, show (s.inflightAdd 9 r.ver).mem.live = [] from hi.live]
    rfl

/-- A request that leaves without being executed. -/
theorem OnWay.dropped {m : Live} (h : OnWay s w id m) (hcis : w.cis = s.cis) (hc : s.calm) (hj : m.journal = none) :
    (settle (endLive id w)).out = s.out ∧ (settle (endLive id w)).cis = s.cis := by
  obtain ⟨hkept, hout, hlive, hcis', -⟩ := endLive_kept h.liveReq hj (by rw [hcis]; exact hc.1.1) (by rw [hcis]; exact hc.1.2.1)
  rw [settle_calm ((h.kept.trans hkept).calm hc) (by rw [hlive, h.del])]
  exact ⟨hout.trans h.out, hcis'.trans hcis⟩

theorem OnWay.count {m : Live} (h : OnWay s w id m) (k : GaugeKey) (n : Nat) : OnWay s (w.count k n) id m :=
  ⟨h.kept.trans (EngineKept.of_gauges _), h.out, h.live, h.qpcs⟩

theorem endWith_write {st prior : Nat} (hl : s.liveReq id = some l) (hf : l.flume = none) (hk : l.kind = .write) (hrd : l.rdma = none)
    (hm : s.mute (reqHost l.req) = false) : endWith id st prior s =
    endLive id { s with out := s.out ++ [poolAnswer s l.req 0xD1 st l.held false false noSource 0 []] } := by
  have hatomic : isAtomic l = false := by
    rw [isAtomic, hk]
    rfl
  unfold endWith
  rw [hl]
  dsimp only
  rw [hf, if_neg (by rw [Option.isSome_none]; exact Bool.false_ne_true), hk]
  dsimp only
  rw [hrd, hatomic, reply_vendor hm, if_neg Bool.false_ne_true]
  rfl

/-- A duplicate is answered again with its outcome (R197). -/
theorem OnWay.repeats {m : Live} {st prior : Nat} (h : OnWay s w id m) (hcis : w.cis = s.cis) (hc : s.calm) (hj : m.journal = none)
    (hf : m.flume = none) (hk : m.kind = .write) (hrd : m.rdma = none) (hm : s.mute (reqHost m.req) = false) :
    (settle (endWith id st prior w)).out = s.out ++ [poolAnswer s m.req 0xD1 st m.held false false noSource 0 []] ∧
      (settle (endWith id st prior w)).cis = s.cis := by
  have hm' : w.mute (reqHost m.req) = false := (h.kept.mute _).trans hm
  obtain ⟨hkept, hout, hlive, hcis', -⟩ := endLive_kept (id := id) (l := m)
    (s := { w with out := w.out ++ [poolAnswer w m.req 0xD1 st m.held false false noSource 0 []] }) h.liveReq hj
    (show w.cis.regions = [] by rw [hcis]; exact hc.1.1) (show w.cis.handles = [] by rw [hcis]; exact hc.1.2.1)
  rw [endWith_write h.liveReq hf hk hrd hm', settle_calm (((h.kept.trans (EngineKept.of_out _)).trans hkept).calm hc) (by rw [hlive]; exact h.del)]
  refine ⟨?_, hcis'.trans hcis⟩
  rw [hout]
  show w.out ++ _ = _
  rw [h.out, poolAnswer_noSource h.kept.rights]

theorem poolRequest_known_finds {c : QCtx} (hd : c.die = x.home) (hlv : c.levee = r.levee) (hh : c.host = reqHost r) (hq : c.queue = r.queue)
    (hw : Arriving s w (vendorLive .write r a x.home none) c) (m : Live) :
    findCtx (w.setLive s.mem.nextLive m) x.home r.levee (reqHost r) r.queue = some c :=
  findCtx_one (l := vendorLive .write r a x.home none) (s := w.setLive s.mem.nextLive m) hw.ctxs hlv hd hh hq

section
variable {c : QCtx} (hi : PoolIdle s) (hc : s.mem.ctxs = [c]) (h : onCistern s .write r a off) (hx : s.allot a = some x)
  (hd : c.die = x.home) (hlv : c.levee = r.levee) (hh : c.host = reqHost r) (hq : c.queue = r.queue)
include hi hc h hx hd hlv hh hq

theorem poolRequest_below (hhigh : c.high < 2 ^ 48) (hlo : r.seq + 256 ≤ c.high) (hup : c.high ≤ r.seq + 2 ^ 47) :
    (poolRequest .write r s).out = s.out ∧ (poolRequest .write r s).cis = s.cis := by
  obtain ⟨w, hw, harr, -⟩ := poolRequest_arrives hi hc h hx
  have hfind := poolRequest_known_finds hd hlv hh hq harr
  rw [hw, acceptReq_below harr.way.liveReq rfl hfind (ctxPos_below hhigh hlo hup)]
  exact (((harr.way.setLive _).putCtx _).count _ _).dropped harr.cis hi.calm rfl

theorem poolRequest_repeated {o : Outcome} (hlive : c.live = []) (hseq : r.seq = c.high) (hdone : Tab.get? c.done r.seq = some o) :
    (poolRequest .write r s).out = s.out ++ [poolAnswer s r 0xD1 o.status false false false noSource 0 []] ∧
      (poolRequest .write r s).cis = s.cis := by
  obtain ⟨-, -, -, -, -, -, -, -, -, -, -, -, -, -, hm⟩ := id h
  obtain ⟨w, hw, harr, -⟩ := poolRequest_arrives hi hc h hx
  have hfind := poolRequest_known_finds hd hlv hh hq harr
  have hpos : ctxPos c.high r.seq = .inside := by rw [hseq, ctxPos_high]
  rw [hw, acceptReq_repeated harr.way.liveReq rfl hfind hpos hlive hdone (by show ReqKind.write ≠ .read; decide)]
  exact (((harr.way.setLive _).putCtx _).count _ _).repeats harr.cis hi.calm rfl rfl rfl rfl hm

end

theorem reclaimCtx_due {c : QCtx} (hc : s.mem.ctxs = [c]) (hlive : c.live = []) (hdue : c.last + sec 1 ≤ s.now) :
    (reclaimCtx c.die c.levee c.host c.queue s).mem.ctxs = [] := by
  unfold reclaimCtx
  dsimp only
  rw [hc, List.filter_cons, hlive, decide_eq_true hdue]
  simp

theorem reclaimCtx_early {c : QCtx} (hc : s.mem.ctxs = [c]) (hearly : s.now < c.last + sec 1) :
    reclaimCtx c.die c.levee c.host c.queue s = s := by
  have hkeep : s.mem.ctxs.filter (fun d => !(d.die == c.die && d.levee == c.levee && d.host == c.host && d.queue == c.queue &&
      d.live.isEmpty && decide (d.last + sec 1 ≤ s.now))) = s.mem.ctxs := by
    rw [hc, List.filter_cons, decide_eq_false (Nat.not_le.2 hearly), Bool.and_false]
    rfl
  unfold reclaimCtx
  rw [hkeep]

/-! ### The obligation -/

theorem atEngine_kept (t : Time) (p : Packet) : EngineKept (s.tick t) (atEngine t p s) := meshDeliver_kept p.die

/-- What the obligation says of an answered request. -/
def AnsweredAs (t : Time) (s v : State) (r : PoolReq) (a off op : Nat) (held : Bool) (data : Bytes) : Prop :=
  v.out = s.out ++ [poolAnswer (s.tick t) r op 0x00 held false true ⟨0, chanOf (s.tick t) a (off / 4096)⟩ 0 data] ∧
    v.mem.live = [] ∧ v.coh = s.coh ∧ v.kry = s.kry ∧ v.flm = s.flm ∧ v.bsn = s.bsn ∧ v.scr = s.scr

theorem Served.answeredAs {t : Time} {v : State} {op : Nat} {held : Bool} {data : Bytes} (hk : EngineKept (s.tick t) w) (hout : w.out = s.out)
    (hx : (s.tick t).allot a = some x)
    (h : Served w v (poolAnswer w r op St.ok held false true ⟨0, chanOf w a (off / 4096)⟩ 0 data)) : AnsweredAs t s v r a off op held data := by
  have hk' := hk.trans h.kept
  refine ⟨?_, h.live, hk'.coh, hk'.kry, hk'.flm, hk'.bsn, hk'.scr⟩
  rw [h.out, hout, hk.chanOf hx, poolAnswer_kept hk]

theorem poolPut_writeN {v : State} {k : Nat} {bs : Bytes} (hwf : Mem.wf s.cis.pool = true) (h : v.cis.pool = s.cis.pool.writeN k bs) :
    poolPut s v k bs := by
  refine ⟨fun i hi => ?_, fun j hj => ?_⟩
  · rw [h, Mem.read_writeN _ _ _ hwf, if_pos ⟨Nat.le_add_right _ _, by omega⟩, Nat.add_sub_cancel_left]
  · rw [h, Mem.read_writeN _ _ _ hwf, if_neg (by omega)]

/-- Settles O26: a request is served where its tile lies, so each clause is the answer of its kind in the state the engine takes it in. -/
theorem poolRequestsAndQueueContexts : Obligations.PoolRequestsAndQueueContexts := by
  refine ⟨?_, ?_⟩
  · intro t p s a off u r k answered hq hlive hrights hctxs hwf
    refine ⟨fun hhosts => ?_, fun h x l hcis hx hl hh hhosts => ?_⟩
    · have hi : PoolIdle (atEngine t p s) := ⟨hq.2.1, hlive, hrights, hhosts⟩
      have hkept := atEngine_kept (s := s) t p
      refine ⟨fun h => ?_, fun h => ?_, fun h => ?_, fun b soff h hsw hb => ?_, fun x hlim htr hx hst hlen hm => ?_⟩
      · obtain ⟨x, hx, -⟩ := id h
        obtain ⟨hserved, hcis⟩ := poolRequest_read hi hctxs h
        exact ⟨_, rfl, hserved.answeredAs hkept rfl hx, hcis⟩
      · obtain ⟨x, hx, -⟩ := id h
        obtain ⟨hserved, hpool⟩ := poolRequest_write hi hctxs h
        exact ⟨_, rfl, hserved.answeredAs hkept rfl hx, poolPut_writeN hwf hpool⟩
      · obtain ⟨x, hx, -⟩ := id h
        obtain ⟨hserved, hpool⟩ := poolRequest_atomic hi hctxs h
        exact ⟨_, rfl, hserved.answeredAs hkept rfl hx, poolPut_writeN hwf hpool⟩
      · obtain ⟨x, hx, -⟩ := id h
        obtain ⟨hserved, hpool⟩ := poolRequest_copy hi hctxs h hsw hb
        exact ⟨_, rfl, hserved.answeredAs hkept rfl hx, poolPut_writeN hwf hpool⟩
      · obtain ⟨g, hg⟩ := poolRequest_revoking (s := atEngine t p s) hlim htr hx hst hlen hm
        refine ⟨_, rfl, ?_, by rw [hg]; rfl, by rw [hg]; rfl⟩
        rw [hg, poolAnswer_noSource (s := u) (by exact hkept.rights)]
        rfl
    · have hhost : hostOf u r.die r.levee (reqHost r) = h := by
        unfold hostOf
        rw [show u.mem.hosts = [h] from hhosts, hh]
        simp
      obtain ⟨hset, hserved, -⟩ := rightRelease_read (s := u) hq.2.1 hlive hrights hctxs hcis hx hl (by rw [hh]) (by rw [hh]) hhost
      exact ⟨_, congrArg Host.Outcome.next hset, hserved.answeredAs (EngineKept.refl _) rfl hx⟩
  · intro t p s a off c x o u r h hx hq hlive hrights hhosts hctxs hd hlv hh hqu hhigh
    have hi : PoolIdle (atEngine t p s) := ⟨hq.2.1, hlive, hrights, hhosts⟩
    refine ⟨fun hnone hseq hdone => ?_, fun hlo hup => ?_, fun hnone hdue => ⟨_, rfl, reclaimCtx_due hctxs hnone hdue⟩,
      fun hearly => congrArg Host.Outcome.next (reclaimCtx_early hctxs hearly)⟩
    · obtain ⟨hout, hcis⟩ := poolRequest_repeated hi hctxs h hx hd hlv hh hqu hnone hseq hdone
      refine ⟨_, rfl, ?_, hcis⟩
      rw [hout, poolAnswer_noSource (s := u) (by exact (atEngine_kept (s := s) t p).rights)]
      rfl
    · obtain ⟨hout, hcis⟩ := poolRequest_below hi hctxs h hx hd hlv hh hqu hhigh hlo hup
      exact ⟨_, rfl, hout, hcis⟩

end Sys2Proof.Machine
end

section
/-! PROOFS. O27: a standard RDMA request with the expected packet number and key is executed and acknowledged; a wrong key is
NAKed and ends the queue pair (06 R208). -/

namespace Sys2Proof.Machine

variable {s w : State} {a off n id : Nat} {x : Allot} {q : RdmaReq} {c : Qpc} {k : ReqKind} {l : Live}

/-- The pool request that an RDMA request of `len` bytes becomes under its queue pair. -/
def rdmaPool (q : RdmaReq) (c : Qpc) (len : Nat) : PoolReq :=
  { port := q.port, die := q.die, net := q.net, cls := q.cls, levee := c.levee.toNat, ver := q.ver, queue := 0, seq := q.psn, pva := q.va, length := len, op := q.op, flags := 0, retQp := c.peer.toNat, handle := 0, data := q.data }

/-- The request on the table of those under way. -/
def rdmaLive (k : ReqKind) (q : RdmaReq) (r : PoolReq) (a home : Nat) : Live := { kind := k, req := r, rdma := some q, allot := a, home := home }

/-- The queue pair once the request has taken its packet numbers. -/
def Qpc.moved (c : Qpc) (psns : Nat) : Qpc := { c with epsn := BitVec.ofNat 24 (c.epsn.toNat + psns) }

/-- The state in which queue pair `n` is `c`. -/
def State.setQpc (n : Nat) (c : Qpc) (s : State) : State := { s with mem := { s.mem with qpcs := Tab.set s.mem.qpcs n c } }

/-- The three kinds of a standard RDMA request. -/
def ReqKind.standard (k : ReqKind) : Prop := k = .rdmaRead ∨ k = .rdmaWrite ∨ k = .rdmaAtomic

theorem ReqKind.standard_plain (h : k.standard) : k.plain := fun c e => by
  rcases h with h | h | h
  all_goals exact ReqKind.noConfusion (h.symm.trans e)

theorem ReqKind.standard_ne_copy (h : k.standard) : k ≠ .copy := fun e => by
  rcases h with h | h | h
  all_goals exact ReqKind.noConfusion (h.symm.trans e)

/-- The length a request of its kind asks for. -/
def rdmaLen (k : ReqKind) (q : RdmaReq) : Nat := if k = .rdmaAtomic then 8 else q.length

/-- The request's operation is one its kind allows. -/
structure SoundRdma (k : ReqKind) (q : RdmaReq) : Prop where
  pos : rdmaLen k q ≠ 0
  short : rdmaLen k q ≤ 16777216
  atomic : k = .rdmaAtomic → q.va % 8 = 0 ∧ q.op ≤ 1
  data : k = .rdmaWrite → q.data.length = rdmaLen k q

theorem psn_expected (hp : q.psn = c.epsn.toNat) : (q.psn % 2 ^ 24 + 2 ^ 24 - c.epsn.toNat) % 2 ^ 24 = 0 := by
  have := c.epsn.isLt
  rw [hp]
  omega

theorem SoundRdma.passes (hs : SoundRdma k q) : ¬ (rdmaLen k q = 0 ∨ 16777216 < rdmaLen k q ∨ (k = .rdmaAtomic ∧ (q.va % 8 ≠ 0 ∨ 1 < q.op)) ∨
    (k = .rdmaWrite ∧ q.data.length ≠ rdmaLen k q)) := by
  rintro (h | h | ⟨h, h' | h'⟩ | ⟨h, h'⟩)
  · exact hs.pos h
  · exact Nat.not_lt.2 hs.short h
  · exact h' (hs.atomic h).1
  · exact Nat.not_lt.2 (hs.atomic h).2 h'
  · exact h' (hs.data h)

section
variable (hf : findQpc s q.die q.qpn = some (n, c)) (he : c.err = false) (hp : q.psn = c.epsn.toNat) (hs : SoundRdma k q)
include hf he hp hs

/-- A request of the expected packet number under another key. -/
theorem rdmaRequest_wrongKey (hkey : q.rkey ≠ c.rkey.toNat) : rdmaRequest k q s = nakReply q 1 s := by
  unfold rdmaRequest
  rw [hf]
  dsimp only
  rw [if_neg (by rw [he]; exact Bool.false_ne_true), psn_expected hp, decide_eq_false (by omega), if_neg (fun h => h.1 rfl)]
  exact (if_neg hs.passes).trans (if_pos (Or.inl hkey))

/-- A request of the expected packet number under its key, which the engine lets through. -/
theorem rdmaRequest_right {src : Option Nat} (hkey : q.rkey = c.rkey.toNat) (hva : q.va < 2 ^ 52)
    (hj : judge k (rdmaPool q c (rdmaLen k q)) s = (St.ok, a, src)) (hh : s.mem.hosts = []) :
    rdmaRequest k q s = settle (waterRight (rdmaLive k q (rdmaPool q c (rdmaLen k q)) a ((s.allot a).elim 0 (·.home)))
      (s.setQpc n (c.moved (psnsOf k c (rdmaLen k q))))) := by
  have hhold : (hostOf s q.die c.levee.toNat q.net.srcIp).hold = [] := by
    unfold hostOf
    rw [hh]
    rfl
  unfold rdmaRequest
  rw [hf]
  dsimp only
  rw [if_neg (by rw [he]; exact Bool.false_ne_true), psn_expected hp, decide_eq_false (by omega), if_neg (fun h => h.1 rfl)]
  refine (if_neg hs.passes).trans ((if_neg (by rintro (h | h); exacts [h hkey, Nat.not_lt.2 h hva])).trans ?_)
  rw [Bool.false_and, Bool.false_and, if_neg Bool.false_ne_true, if_neg Bool.false_ne_true]
  have hj' := hj
  unfold rdmaPool rdmaLen at hj'
  rw [hj']
  have hfull : ¬ 64 ≤ ((hostOf s q.die c.levee.toNat q.net.srcIp).fill (rightOf s q.die c.levee.toNat q.net.srcIp) s.now).hold.length := by
    show ¬ 64 ≤ (hostOf s q.die c.levee.toNat q.net.srcIp).hold.length
    rw [hhold, List.length_nil]
    omega
  refine (if_neg (fun h => h rfl)).trans ?_
  dsimp only
  unfold reqHost
  rw [decide_eq_false hfull, Bool.false_or, if_neg Bool.false_ne_true]
  rfl

/-- The request, let through, is served. -/
theorem rdmaRequest_serves (hk : k.standard) (hi : PoolIdle s) (hkey : q.rkey = c.rkey.toNat) (hva : q.va < 2 ^ 52)
    (h : onCistern s k (rdmaPool q c (rdmaLen k q)) a off) (hx : s.allot a = some x) :
    ∃ w, rdmaRequest k q s = settle (serveReq s.mem.nextLive w) ∧
      OnWay (s.setQpc n (c.moved (psnsOf k c (rdmaLen k q)))) w s.mem.nextLive ((rdmaLive k q (rdmaPool q c (rdmaLen k q)) a x.home).taken s.now) ∧
      w.cis = s.cis := by
  obtain ⟨w, hw, hway, hcis⟩ := waterRight_serves (s := s.setQpc n (c.moved (psnsOf k c (rdmaLen k q))))
    (rdmaLive k q (rdmaPool q c (rdmaLen k q)) a x.home) hi.rights hi.hosts (ReqKind.standard_plain hk) hi.live (show bitOf 0 0 = false by decide) (fun e => absurd e (Option.some_ne_none q))
  refine ⟨w, ?_, hway, hcis⟩
  rw [rdmaRequest_right hf he hp hs hkey hva (judge_cistern (ReqKind.standard_ne_copy hk) h hi.calm.1.1) hi.hosts, hx, Option.elim_some, hw]
  rfl

end

theorem rdmaLive_fresh {r : PoolReq} {home : Nat} {t : Time} (hf : bitOf r.flags 0 = false) : ((rdmaLive k q r a home).taken t).fresh :=
  ⟨rfl, rfl, rfl, rfl, rfl, rfl, rfl, rfl, hf⟩

theorem rdmaAtomicDone_congr (q : RdmaReq) (prior : Nat) (h : w.mem.qpcs = s.mem.qpcs) :
    (rdmaAtomicDone q prior w).mem.qpcs = (rdmaAtomicDone q prior s).mem.qpcs := by
  unfold rdmaAtomicDone
  dsimp only
  rw [h]

/-- The end of a standard RDMA request: acknowledged, its queue pairs as `qs`. -/
structure RdmaDone (s v : State) (data : Bytes) (q : RdmaReq) (qs : Tab Qpc) : Prop where
  out : v.out = s.out ++ [.rdmaReply q true 0 0 data]
  live : v.mem.live = []
  qpcs : v.mem.qpcs = qs

theorem OnWay.rdmaDone {s' v : State} {data : Bytes} {qs : Tab Qpc} (h : OnWay s' w id l) (hout : s'.out = s.out) (hc : s'.calm)
    (hfin : Finished w v (.rdmaReply q true 0 0 data) qs) : settle v = v ∧ RdmaDone s v data q qs := by
  obtain ⟨hset, hserved⟩ := h.served hc hfin
  exact ⟨hset, by rw [hserved.out, hout], hserved.live, hfin.qpcs⟩

section
variable (hf : findQpc s q.die q.qpn = some (n, c)) (he : c.err = false) (hp : q.psn = c.epsn.toNat) (hs : SoundRdma k q)
  (hi : PoolIdle s) (hkey : q.rkey = c.rkey.toNat) (hva : q.va < 2 ^ 52) (h : onCistern s k (rdmaPool q c (rdmaLen k q)) a off)
include hf he hp hs hi hkey hva h

theorem rdmaRequest_read (hk : k = .rdmaRead) : RdmaDone s (rdmaRequest k q s) (readPool s a off q.length) q
    (Tab.set s.mem.qpcs n (c.moved (psnsOf k c q.length))) ∧ (rdmaRequest k q s).cis = s.cis := by
  subst hk
  obtain ⟨x, hx, -, -, -, -, -, hoff, -, hb, -, -, -, -, hm⟩ := id h
  obtain ⟨w, hw, hway, hcis⟩ := rdmaRequest_serves hf he hp hs (Or.inl rfl) hi hkey hva h hx
  obtain ⟨j, ht⟩ := hway.inTile hcis (onCistern_inTile h hx)
  obtain ⟨hfin, hcis'⟩ := serve_read_rdma hway.live (rdmaLive_fresh hb) ⟨rfl, rfl⟩ ht hoff (by rw [hcis]; exact hi.calm.1.1)
    (by rw [hcis]; exact hi.calm.1.2.1) ((hway.kept.mute _).trans hm) rfl rfl rfl
  obtain ⟨hset, hdone⟩ := hway.rdmaDone (s := s) rfl hi.calm hfin
  rw [hw, hset]
  have hread : readPool w a off q.length = readPool s a off q.length := readPool_congr hcis _
  refine ⟨⟨hdone.out.trans ?_, hdone.live, hdone.qpcs.trans hway.qpcs⟩, hcis'.trans hcis⟩
  rw [← hread]
  rfl

theorem rdmaRequest_write (hk : k = .rdmaWrite) : RdmaDone s (rdmaRequest k q s) [] q
    (Tab.set s.mem.qpcs n (c.moved (psnsOf k c q.length))) ∧ (rdmaRequest k q s).cis.pool = s.cis.pool.writeN (poolKey a off) q.data := by
  subst hk
  obtain ⟨x, hx, -, -, -, -, -, hoff, -, hb, -, -, -, -, hm⟩ := id h
  obtain ⟨w, hw, hway, hcis⟩ := rdmaRequest_serves hf he hp hs (Or.inr (Or.inl rfl)) hi hkey hva h hx
  obtain ⟨j, ht⟩ := hway.inTile hcis (onCistern_inTile h hx)
  obtain ⟨hfin, hpool⟩ := serve_write hway.live (rdmaLive_fresh hb) ⟨rfl, rfl⟩ ht hoff (by rw [hcis]; exact hi.calm.1.1)
    (by rw [hcis]; exact hi.calm.1.2.1) ((hway.kept.mute _).trans hm) (Or.inr rfl) rfl (hs.data rfl)
  obtain ⟨hset, hdone⟩ := hway.rdmaDone (s := s) rfl hi.calm hfin
  rw [hw, hset]
  exact ⟨⟨hdone.out, hdone.live, hdone.qpcs.trans hway.qpcs⟩, by rw [hpool, hcis]; rfl⟩

theorem rdmaRequest_atomic (hk : k = .rdmaAtomic) :
    RdmaDone s (rdmaRequest k q s) (toBe 8 (le (readPool s a off 8) 0 8)) q
      (rdmaAtomicDone q (le (readPool s a off 8) 0 8) (s.setQpc n (c.moved 1))).mem.qpcs ∧
    (rdmaRequest k q s).cis.pool = s.cis.pool.writeN (poolKey a off)
      (toLe 8 (atomicNew q.op (le (readPool s a off 8) 0 8) (be q.data 0 8) (be q.data 8 8))) := by
  subst hk
  obtain ⟨x, hx, -, -, -, -, -, hoff, -, hb, -, -, -, -, hm⟩ := id h
  obtain ⟨w, hw, hway, hcis⟩ := rdmaRequest_serves hf he hp hs (Or.inr (Or.inr rfl)) hi hkey hva h hx
  obtain ⟨j, ht⟩ := hway.inTile hcis (onCistern_inTile h hx)
  obtain ⟨hfin, hpool⟩ := serve_atomic hway.live (rdmaLive_fresh hb) ⟨rfl, rfl⟩ ht hoff (by rw [hcis]; exact hi.calm.1.1)
    (by rw [hcis]; exact hi.calm.1.2.1) ((hway.kept.mute _).trans hm) (Or.inr rfl) rfl
  have hread : readPool w a off 8 = readPool s a off 8 := readPool_congr hcis _
  obtain ⟨hset, hdone⟩ := hway.rdmaDone (s := s) (data := toBe 8 (le (readPool w a off 8) 0 8)) rfl hi.calm hfin
  rw [hw, hset]
  refine ⟨⟨?_, hdone.live, ?_⟩, ?_⟩
  · rw [← hread]
    exact hdone.out
  · rw [hdone.qpcs, ← hread]
    exact rdmaAtomicDone_congr q _ hway.qpcs
  · rw [hpool, hcis, ← hread]
    rfl

end

/-! ### The queue pairs afterwards -/

theorem moved_epsn (m : Nat) : (c.moved m).epsn = c.epsn + BitVec.ofNat 24 m := by
  unfold Qpc.moved
  exact (BitVec.ofNat_add _ _).trans (by rw [BitVec.ofNat_toNat, BitVec.setWidth_eq])

/-- What an atomic's end does to the queue pair under key `k`. -/
def keepAtomic (q : RdmaReq) (prior k : Nat) (d : Qpc) : Qpc :=
  if k / 4096 = q.die ∧ d.valid ∧ d.qpn.toNat = q.qpn then { d with atomics := ((q.psn, prior) :: d.atomics).take 16 } else d

/-- The queue pair that an atomic's prior value is kept in, if it is its own. -/
theorem rdmaAtomicDone_get (prior : Nat) {d : Qpc} (h : Tab.get? s.mem.qpcs n = some d) :
    ∃ e, Tab.get? (rdmaAtomicDone q prior s).mem.qpcs n = some e ∧ e.epsn = d.epsn ∧ e.err = d.err := by
  have hmap : (rdmaAtomicDone q prior s).mem.qpcs = Tab.mapVals s.mem.qpcs (keepAtomic q prior) := by
    unfold rdmaAtomicDone Tab.mapVals
    refine List.map_congr_left fun e _ => ?_
    unfold keepAtomic
    split
    · rfl
    · rfl
  rw [hmap, Tab.get?_mapVals, h, Option.map_some]
  refine ⟨_, rfl, ?_⟩
  unfold keepAtomic
  split
  · exact ⟨rfl, rfl⟩
  · exact ⟨rfl, rfl⟩

theorem nakQp_err {m : Nat} {d : Qpc} (nak : Nat) (hn : nak ≠ 5) (h : findQpc (nakQp q nak s) q.die q.qpn = some (m, d)) : d.err = true := by
  unfold findQpc nakQp at h
  rw [if_neg hn] at h
  dsimp only at h
  have hp := List.find?_some h
  obtain ⟨e, -, he⟩ := List.mem_map.1 (List.mem_of_find?_eq_some h)
  by_cases hc : e.1 / 4096 = q.die ∧ e.2.valid ∧ e.2.qpn.toNat = q.qpn
  · rw [if_pos hc] at he
    rw [← (Prod.mk.inj he).2]
  · rw [if_neg hc] at he
    rw [he] at hc
    simp only [Bool.and_eq_true, beq_iff_eq] at hp
    exact absurd ⟨hp.1.1, hp.1.2, hp.2⟩ hc

theorem nakReply_heard {nak : Nat} (hm : s.mute q.net.srcIp = false) :
    nakReply q nak s = (nakQp q nak s).emit (.rdmaReply q false nak (nakTimer nak) []) := by
  have hmute : (nakQp q nak s).mute q.net.srcIp = s.mute q.net.srcIp := by
    unfold nakQp
    split
    · rfl
    · rfl
  unfold nakReply
  dsimp only
  rw [hmute, hm]
  exact if_neg Bool.false_ne_true

theorem nakQp_frame (nak : Nat) : (nakQp q nak s).out = s.out ∧ (nakQp q nak s).cis = s.cis := by
  unfold nakQp
  split
  · exact ⟨rfl, rfl⟩
  · exact ⟨rfl, rfl⟩

/-- What the obligation says of an acknowledged request. -/
theorem RdmaDone.acked {v : State} {data : Bytes} {m : Nat} (h : RdmaDone s v data q (Tab.set s.mem.qpcs n (c.moved m))) (he : c.err = false) :
    v.out = s.out ++ [.rdmaReply q true 0 0 data] ∧ v.mem.live = [] ∧
      ∃ d, Tab.get? v.mem.qpcs n = some d ∧ d.epsn = c.epsn + BitVec.ofNat 24 m ∧ d.err = false :=
  ⟨h.out, h.live, _, by rw [h.qpcs, Tab.get?_set_self], moved_epsn m, he⟩

/-- Settles O27: the request is served in the state its packet numbers are taken in. -/
theorem rdmaRequestsFollowTheResponderRules : Obligations.RdmaRequestsFollowTheResponderRules := by
  intro t q s a off n c u req hq hlive hrights hhosts hwf hf he hp hva hm acked
  have hi : PoolIdle (meshDeliver q.die u) := ⟨hq.2.1, hlive, hrights, hhosts⟩
  refine ⟨fun hkey hlen h => ?_, fun hkey hdata h => ?_, fun hkey hal hop h => ?_, fun hkey hpos hlen => ?_⟩
  · have hsound : SoundRdma .rdmaRead q := by
      obtain ⟨x, -, -, -, -, -, -, -, -, -, hpos, -⟩ := id h
      have hpos' : 0 < q.length := hpos
      exact ⟨by rw [rdmaLen, if_neg (by decide)]; omega, by rw [rdmaLen, if_neg (by decide)]; omega, fun e => ReqKind.noConfusion e,
        fun e => ReqKind.noConfusion e⟩
    obtain ⟨hdone, hcis⟩ := rdmaRequest_read (s := meshDeliver q.die u) hf he hp hsound hi hkey hva h rfl
    exact ⟨_, rfl, hdone.acked he, hcis⟩
  · have hsound : SoundRdma .rdmaWrite q := by
      obtain ⟨x, -, -, -, -, -, -, -, -, -, hpos, hin, -⟩ := id h
      have hpos' : 0 < q.length := hpos
      have hin' : off % 4096 + q.length ≤ 4096 := hin
      exact ⟨by rw [rdmaLen, if_neg (by decide)]; omega, by rw [rdmaLen, if_neg (by decide)]; omega, fun e => ReqKind.noConfusion e,
        fun _ => hdata⟩
    obtain ⟨hdone, hpool⟩ := rdmaRequest_write (s := meshDeliver q.die u) hf he hp hsound hi hkey hva h rfl
    exact ⟨_, rfl, hdone.acked he, poolPut_writeN hwf hpool⟩
  · have hsound : SoundRdma .rdmaAtomic q :=
      ⟨by rw [rdmaLen, if_pos rfl]; omega, by rw [rdmaLen, if_pos rfl]; omega, fun _ => ⟨hal, hop⟩, fun e => ReqKind.noConfusion e⟩
    obtain ⟨hdone, hpool⟩ := rdmaRequest_atomic (s := meshDeliver q.die u) hf he hp hsound hi hkey hva h rfl
    obtain ⟨d, hd, hepsn, herr⟩ := rdmaAtomicDone_get (q := q) (s := (meshDeliver q.die u).setQpc n (c.moved 1))
      (le (readPool (meshDeliver q.die u) a off 8) 0 8) (Tab.get?_set_self ..)
    exact ⟨_, rfl, ⟨hdone.out, hdone.live, d, by rw [hdone.qpcs]; exact hd, hepsn.trans (moved_epsn 1), herr.trans he⟩, poolPut_writeN hwf hpool⟩
  · have hsound : SoundRdma .rdmaRead q :=
      ⟨by rw [rdmaLen, if_neg (by decide)]; omega, by rw [rdmaLen, if_neg (by decide)]; omega, fun e => ReqKind.noConfusion e,
        fun e => ReqKind.noConfusion e⟩
    have hnak : rdmaRequest .rdmaRead q (meshDeliver q.die u) = _ :=
      (rdmaRequest_wrongKey (s := meshDeliver q.die u) hf he hp hsound hkey).trans (nakReply_heard (s := meshDeliver q.die u) hm)
    obtain ⟨hout, hcis⟩ := nakQp_frame (s := meshDeliver q.die u) (q := q) 1
    refine ⟨_, congrArg Host.Outcome.next hnak, ?_, hcis, fun m d hmd => nakQp_err (s := meshDeliver q.die u) 1 (by decide) hmd⟩
    show (nakQp q 1 (meshDeliver q.die u)).out ++ _ = _
    rw [hout]
    rfl

end Sys2Proof.Machine
end

section
/-! PROOFS. O38, the posts: what a post's queue takes, and its record where it is not executed (10 R320–R326). -/

namespace Sys2Proof.Machine

variable {s w u : State} {p : Post} {q : Queue}

/-- What a queue's noting of a post leaves as it was. -/
structure PostTaken (s w : State) (p : Post) (q : Queue) : Prop where
  chains : w.flm.chains = s.flm.chains
  next : w.flm.nextChain = s.flm.nextChain
  out : w.out = s.out
  bsn : w.bsn = s.bsn
  cis : w.cis = s.cis
  flt : w.flt = s.flt
  slots : ∃ y, w.queue p.queue = some y ∧ y.slots = q.slots

theorem PostTaken.mute (h : PostTaken s w p q) (a : Ip) : w.mute a = s.mute a := by
  simp only [State.mute, State.halted, State.addrFenced, State.fencedBy, h.flt]

theorem modPosters_taken (hq : s.queue p.queue = some q) (f : List Poster → List Poster) :
    PostTaken s (s.modQueue p.queue fun y => { y with posters := f y.posters }) p q :=
  ⟨rfl, rfl, rfl, rfl, rfl, rfl, _, State.queue_modQueue _ hq, rfl⟩

theorem PostTaken.count (h : PostTaken s w p q) (row idx k n : Nat) : PostTaken s (flmCount row idx k n w) p q :=
  ⟨h.chains, h.next, h.out, h.bsn, h.cis, h.flt, h.slots⟩

theorem PostTaken.trans {q' : Queue} (h : PostTaken s w p q) (hs : q'.slots = q.slots) (g : PostTaken w u p q') : PostTaken s u p q := by
  obtain ⟨y, hy, hys⟩ := g.slots
  exact ⟨g.chains.trans h.chains, g.next.trans h.next, g.out.trans h.out, g.bsn.trans h.bsn, g.cis.trans h.cis, g.flt.trans h.flt,
    y, hy, hys.trans hs⟩

theorem postDie_taken (hq : s.queue p.queue = some q) (h : PostTaken s w p q) : postDie w p = postDie s p := by
  obtain ⟨y, hy, hs⟩ := h.slots
  unfold postDie
  rw [hy, hq, Option.bind_some, Option.bind_some, hs]

theorem sendRecord_heard {orig : Originator} {net : Net} {qp cls : Nat} {bytes : Bytes} (hm : s.mute net.srcIp = false) :
    sendRecord orig net qp cls bytes s = { s with out := s.out ++ [.record orig (recordNet net qp) cls recordQKey bytes] } := by
  unfold sendRecord
  rw [hm]
  exact if_neg Bool.false_ne_true

/-- A post that is not executed is answered with its record, and starts no chain. -/
theorem rejectPost_record {seq retQp st slot : Nat} (h : PostTaken s w p q) (hq : s.queue p.queue = some q) (hm : s.mute p.net.srcIp = false) :
    (rejectPost p seq retQp st slot true w).flm.chains = s.flm.chains ∧
      (rejectPost p seq retQp st slot true w).out = s.out ++ [.record (.engine (postDie s p)) (recordNet p.net retQp) p.cls recordQKey
        (recordBytes seq st 0 0 0 0 p.queue slot none)] := by
  obtain ⟨y, hy, hs⟩ := h.slots
  have hk := h.trans hs ((modPosters_taken hy fun ps => ps.map fun x => if x.ip = p.net.srcIp then { x with
      cache := Tab.set x.cache seq (recordBytes seq st 0 0 0 0 p.queue slot none), live := x.live.filter (· != seq) } else x).count 0 2 p.queue 1)
  have hkm := (hk.mute p.net.srcIp).trans hm
  unfold rejectPost
  dsimp only
  rw [if_pos rfl, sendRecord_heard hkm]
  refine ⟨hk.chains, ?_⟩
  have hd := postDie_taken hq (h.trans hs (modPosters_taken hy fun ps => ps.map fun x => if x.ip = p.net.srcIp then { x with
      cache := Tab.set x.cache seq (recordBytes seq st 0 0 0 0 p.queue slot none), live := x.live.filter (· != seq) } else x))
  rw [hd]
  exact congrArg (· ++ _) hk.out

/-- What the queue makes of a post it has noted. -/
def judgePost (p : Post) (q : Queue) (w : State) : State :=
  if q.group.isSome || !postOk q p.payload then rejectPost p (be p.payload 0 6) (be p.payload 12 3) St.badParam 0xFF true w
  else if q.depth ≤ (w.flm.chains.filter fun e => e.2.queue == p.queue).length then
    rejectPost p (be p.payload 0 6) (be p.payload 12 3) St.busy 0xFF true (flmCount 2 0 p.queue 1 w)
  else acceptPost p q (be p.payload 0 6) w

/-- A poster whose first post this is. -/
def newPoster (p : Post) (now : Time) : Poster := { ip := p.net.srcIp, high := be p.payload 0 6, live := [], cache := [], last := now }

/-- The posters once one has posted. -/
def withPoster (p : Post) (x : Poster) (now : Time) (ps : List Poster) : List Poster :=
  (ps.filter fun y => y.ip != p.net.srcIp) ++ [takePost x (be p.payload 0 6) now]

/-- What a post's queue asks before it looks at the post itself. -/
structure PostAdmitted (s : State) (p : Post) (q : Queue) : Prop where
  mute : s.mute p.net.srcIp = false
  queue : s.queue p.queue = some q
  going : q.destroying = false
  levee : q.levee = p.levee
  long : 32 ≤ p.payload.length

theorem addrFenced_of_heard {a : Ip} (h : s.mute a = false) : s.addrFenced a = false := (Bool.or_eq_false_iff.1 h).2

theorem flumePost_fresh (h : PostAdmitted s p q) (hlen : q.posters.length < 64) (hnew : ∀ x ∈ q.posters, x.ip ≠ p.net.srcIp) :
    ∃ w, flumePost p s = judgePost p q w ∧ PostTaken s w p q := by
  have hfind : q.posters.find? (fun x => x.ip == p.net.srcIp) = none :=
    List.find?_eq_none.2 fun x hx he => hnew x hx (beq_iff_eq.1 he)
  have hpass : ¬ (q.destroying || q.levee != p.levee || decide (p.payload.length < 32)) = true := by
    rw [h.going, h.levee, bne_self_eq_false, decide_eq_false (Nat.not_lt.2 h.long)]
    exact Bool.false_ne_true
  obtain ⟨pos, hpp⟩ : ∃ f, f = postPos := ⟨_, rfl⟩
  unfold flumePost
  rw [← hpp]
  dsimp only
  rw [addrFenced_of_heard h.mute, if_neg Bool.false_ne_true, h.queue]
  dsimp only
  rw [if_neg hpass, hfind]
  dsimp only
  rw [if_neg (Nat.not_le.2 hlen)]
  exact ⟨_, rfl, (modPosters_taken h.queue (withPoster p (newPoster p s.now) s.now)).count 0 0 p.queue 1⟩

theorem flumePost_known {x : Poster} {k : Bytes} (h : PostAdmitted s p q) (hp : q.posters = [x]) (hip : x.ip = p.net.srcIp)
    (hpos : postPos x.high (be p.payload 0 6) = .inside) (hlive : be p.payload 0 6 ∉ x.live) (hk : Tab.get? x.cache (be p.payload 0 6) = some k) :
    flumePost p s = sendRecord (.engine (postDie s p)) p.net (be p.payload 12 3) p.cls (splice k 7 (toLe 1 (byteAt k 7 ||| 8)))
      (flmCount 1 2 p.queue 1 s) := by
  have hpass : ¬ (q.destroying || q.levee != p.levee || decide (p.payload.length < 32)) = true := by
    rw [h.going, h.levee, bne_self_eq_false, decide_eq_false (Nat.not_lt.2 h.long)]
    exact Bool.false_ne_true
  have hfind : q.posters.find? (fun y => y.ip == p.net.srcIp) = some x := by
    rw [hp, List.find?_cons, hip, beq_self_eq_true]
  obtain ⟨pos, hpp⟩ : ∃ f, f = postPos := ⟨_, rfl⟩
  unfold flumePost
  rw [← hpp] at hpos ⊢
  dsimp only
  rw [addrFenced_of_heard h.mute, if_neg Bool.false_ne_true, h.queue]
  dsimp only
  rw [if_neg hpass, hfind]
  dsimp only
  rw [hpos]
  dsimp only
  rw [if_neg (by rw [List.contains_iff_mem]; exact hlive), hk]

/-! ### A post that starts a chain -/

/-- How many chains wait on slot `i` of queue `k`. -/
def waitingOn (s : State) (k i : Nat) : Nat := (s.flm.chains.filter fun e => e.2.queue == k && e.2.slot == i && e.2.st == .waiting).length

/-- The better of two slots, the earlier one where they are equal. -/
def leastLoad (load : Nat → Nat) (b : Option Nat) (i : Nat) : Option Nat :=
  match b with
  | none => some i
  | some j => if load i < load j then some i else some j

theorem foldl_leastLoad (load : Nat → Nat) (l : List Nat) (j : Nat) :
    ∃ i, l.foldl (leastLoad load) (some j) = some i ∧ (i = j ∨ i ∈ l) ∧ load i ≤ load j ∧ ∀ k ∈ l, load i ≤ load k := by
  induction l generalizing j with
  | nil => exact ⟨j, rfl, Or.inl rfl, Nat.le_refl _, fun k hk => absurd hk List.not_mem_nil⟩
  | cons a l ih =>
    rw [List.foldl_cons]
    by_cases h : load a < load j
    · obtain ⟨i, hi, hm, hle, hall⟩ := ih a
      refine ⟨i, by rw [leastLoad, if_pos h]; exact hi, Or.inr ?_, by omega, fun k hk => ?_⟩
      · rcases hm with rfl | hm
        · exact List.mem_cons_self
        · exact List.mem_cons_of_mem _ hm
      · rcases List.mem_cons.1 hk with rfl | hk
        · exact hle
        · exact hall k hk
    · obtain ⟨i, hi, hm, hle, hall⟩ := ih j
      refine ⟨i, by rw [leastLoad, if_neg h]; exact hi, hm.imp_right (List.mem_cons_of_mem _), hle, fun k hk => ?_⟩
      rcases List.mem_cons.1 hk with rfl | hk
      · omega
      · exact hall k hk

/-- A post is placed on the slot it names, or on one with the fewest chains waiting. -/
theorem placePost_slot {k slot : Nat} (hl : ∀ y ∈ q.slots, y.lost = false) (hne : q.slots ≠ [])
    (hslot : slot = 0xFF ∨ slot < q.slots.length) : ∃ i, placePost s k q slot = some i ∧ i < q.slots.length ∧ (slot ≠ 0xFF → i = slot) ∧
      (slot = 0xFF → ∀ j < q.slots.length, waitingOn s k i ≤ waitingOn s k j) := by
  by_cases h : slot = 0xFF
  · have hall : (List.range q.slots.length).filter (fun i => !(q.slots[i]?).elim true (·.lost)) = List.range q.slots.length := by
      refine List.filter_eq_self.2 fun i hi => ?_
      have hi' := List.mem_range.1 hi
      rw [List.getElem?_eq_getElem hi', Option.elim_some, hl _ (List.getElem_mem hi')]
      rfl
    obtain ⟨n, hn⟩ : ∃ n, q.slots.length = n + 1 := ⟨q.slots.length - 1, by have := List.length_pos_iff.2 hne; omega⟩
    have hfold : ∃ i, (List.range q.slots.length).foldl (leastLoad (waitingOn s k)) none = some i ∧ i < q.slots.length ∧
        ∀ j < q.slots.length, waitingOn s k i ≤ waitingOn s k j := by
      rw [hn, List.range_succ_eq_map, List.foldl_cons]
      obtain ⟨i, hi, hm, hle, hmin⟩ := foldl_leastLoad (waitingOn s k) ((List.range n).map Nat.succ) 0
      refine ⟨i, hi, ?_, fun j hj => ?_⟩
      · rcases hm with rfl | hm
        · omega
        · obtain ⟨m, hm', rfl⟩ := List.mem_map.1 hm
          have := List.mem_range.1 hm'
          omega
      · cases j with
        | zero => exact hle
        | succ j => exact hmin _ (List.mem_map.2 ⟨j, List.mem_range.2 (by omega), rfl⟩)
    obtain ⟨i, hi, hlt, hmin⟩ := hfold
    refine ⟨i, ?_, hlt, fun e => absurd h e, fun _ => hmin⟩
    unfold placePost
    rw [if_neg (fun e => e h), hall]
    exact hi
  · refine ⟨slot, ?_, hslot.resolve_left h, fun _ => rfl, fun e => absurd e h⟩
    unfold placePost
    exact if_pos h

/-- The chain that a post starts on slot `i`. -/
def postChain (p : Post) (i : Nat) : Chain :=
  { queue := p.queue, slot := i, st := .waiting, post := p, seq := be p.payload 0 6, count := be p.payload 8 4, flags := byteAt p.payload 6, retQp := be p.payload 12 3, pva := be p.payload 16 8, handle := be p.payload 24 8, ver := p.ver, descs := if bitOf (byteAt p.payload 6) 0 then (List.range (be p.payload 8 4)).map fun j => (j, slice p.payload (32 + 64 * j) 64) else [] }

theorem acceptPost_starts {i : Nat} (hpl : placePost s p.queue q (byteAt p.payload 7) = some i) (hi : i < q.slots.length)
    (hl : ∀ y ∈ q.slots, y.lost = false) : acceptPost p q (be p.payload 0 6) s =
      { s with flm := { s.flm with nextChain := s.flm.nextChain + 1, chains := Tab.set s.flm.chains s.flm.nextChain (postChain p i) } }.inflightAdd 9 p.ver := by
  have hfound : (q.slots[i]?).elim true (·.lost) = false := by
    rw [List.getElem?_eq_getElem hi, Option.elim_some, hl _ (List.getElem_mem hi)]
  unfold acceptPost
  dsimp only
  rw [hpl]
  dsimp only
  rw [hfound]
  exact if_neg Bool.false_ne_true

theorem get?_range_map {α : Type} (f : Nat → α) {n i : Nat} (h : i < n) : Tab.get? ((List.range n).map fun j => (j, f j)) i = some (f i) := by
  rw [Tab.get?_eq_find?, List.find?_map]
  have hfind : (List.range n).find? (fun j => j == i) = some i := by
    rw [List.find?_range_eq_some]
    exact ⟨by simp, List.mem_range.2 h, fun j hj => by simpa using Nat.ne_of_lt hj⟩
  rw [show ((fun e : Nat × α => e.1 == i) ∘ fun j => (j, f j)) = fun j => j == i from rfl, hfind]
  rfl

theorem postOk_slot {b : Bytes} (h : postOk q b = true) : byteAt b 7 = 0xFF ∨ byteAt b 7 < q.slots.length := by
  unfold postOk at h
  simp only [Bool.and_eq_true, Bool.or_eq_true, beq_iff_eq, decide_eq_true_eq] at h
  obtain ⟨⟨⟨-, hs⟩, -⟩, -⟩ := h
  exact hs

theorem postOk_long {b : Bytes} (h : postOk q b = true) : 32 ≤ b.length := by
  unfold postOk at h
  simp only [Bool.and_eq_true, beq_iff_eq] at h
  obtain ⟨⟨⟨⟨-, hl⟩, -⟩, -⟩, -⟩ := h
  rw [hl]
  split
  · omega
  · omega

section
variable (h : PostAdmitted s p q) (hg : q.group = none) (hlen : q.posters.length < 64) (hnew : ∀ x ∈ q.posters, x.ip ≠ p.net.srcIp)
include h hg hlen hnew

/-- A good post starts a chain (R323). -/
theorem flumePost_starts (hok : postOk q p.payload = true) (hroom : (s.flm.chains.filter fun e => e.2.queue == p.queue).length < q.depth)
    (hl : ∀ y ∈ q.slots, y.lost = false) (hne : q.slots ≠ []) :
    ∃ i, (flumePost p s).chain s.flm.nextChain = some (postChain p i) ∧ (flumePost p s).out = s.out ∧ (flumePost p s).bsn = s.bsn ∧
      (flumePost p s).cis = s.cis ∧ (∀ k, k ≠ s.flm.nextChain → (flumePost p s).chain k = s.chain k) ∧ i < q.slots.length ∧
      (byteAt p.payload 7 ≠ 0xFF → i = byteAt p.payload 7) ∧
      (byteAt p.payload 7 = 0xFF → ∀ j < q.slots.length, waitingOn s p.queue i ≤ waitingOn s p.queue j) := by
  obtain ⟨w, hw, ht⟩ := flumePost_fresh h hlen hnew
  obtain ⟨i, hpl, hi, hnamed, hleast⟩ := placePost_slot (s := w) (k := p.queue) hl hne (postOk_slot hok)
  have hstart := acceptPost_starts hpl hi hl
  have hjudge : judgePost p q w = acceptPost p q (be p.payload 0 6) w := by
    unfold judgePost
    rw [hg, hok, if_neg (by decide), ht.chains, if_neg (Nat.not_le.2 hroom)]
  rw [hw, hjudge, hstart]
  have hwait : ∀ j, waitingOn w p.queue j = waitingOn s p.queue j := fun j => by
    unfold waitingOn
    rw [ht.chains]
  refine ⟨i, ?_, ht.out, ht.bsn, ht.cis, fun k hk => ?_, hi, hnamed, fun e j hj => ?_⟩
  · show Tab.get? (Tab.set w.flm.chains w.flm.nextChain (postChain p i)) s.flm.nextChain = _
    rw [ht.next, Tab.get?_set_self]
  · show Tab.get? (Tab.set w.flm.chains w.flm.nextChain (postChain p i)) k = _
    rw [ht.next, Tab.get?_set_ne _ _ (Ne.symm hk), ht.chains]
    rfl
  · rw [← hwait, ← hwait]
    exact hleast e j hj

theorem flumePost_busy (hok : postOk q p.payload = true) (hfull : q.depth ≤ (s.flm.chains.filter fun e => e.2.queue == p.queue).length) :
    (flumePost p s).flm.chains = s.flm.chains ∧ (flumePost p s).out = s.out ++ [.record (.engine (postDie s p))
      (recordNet p.net (be p.payload 12 3)) p.cls recordQKey (recordBytes (be p.payload 0 6) St.busy 0 0 0 0 p.queue 0xFF none)] := by
  obtain ⟨w, hw, ht⟩ := flumePost_fresh h hlen hnew
  have hjudge : judgePost p q w = rejectPost p (be p.payload 0 6) (be p.payload 12 3) St.busy 0xFF true (flmCount 2 0 p.queue 1 w) := by
    unfold judgePost
    rw [hg, hok, if_neg (by decide), ht.chains, if_pos hfull]
  rw [hw, hjudge]
  exact rejectPost_record (ht.count 2 0 p.queue 1) h.queue h.mute

theorem flumePost_bad (hbad : postOk q p.payload = false) :
    (flumePost p s).flm.chains = s.flm.chains ∧ (flumePost p s).out = s.out ++ [.record (.engine (postDie s p))
      (recordNet p.net (be p.payload 12 3)) p.cls recordQKey (recordBytes (be p.payload 0 6) St.badParam 0 0 0 0 p.queue 0xFF none)] := by
  obtain ⟨w, hw, ht⟩ := flumePost_fresh h hlen hnew
  have hjudge : judgePost p q w = rejectPost p (be p.payload 0 6) (be p.payload 12 3) St.badParam 0xFF true w := by
    unfold judgePost
    rw [hbad]
    exact if_pos (by rw [hg]; rfl)
  rw [hw, hjudge]
  exact rejectPost_record ht h.queue h.mute

end

/-! ### A poster's context, and the writes of a chain -/

theorem reclaimPoster_posters {k : Nat} {ip : Ip} (hq : s.queue k = some q) : ∃ y, (reclaimPoster k ip s).queue k = some y ∧
    (∀ z ∈ q.posters, z.ip = ip → z.live = [] → z.last + sec 1 ≤ s.now → z ∉ y.posters) ∧
      (∀ z ∈ q.posters, z.ip ≠ ip ∨ s.now < z.last + sec 1 → z ∈ y.posters) := by
  refine ⟨_, State.queue_modQueue _ hq, fun z hz hip hlive hdue hin => ?_, fun z hz hkeep => ?_⟩
  · have hk := (List.mem_filter.1 hin).2
    rw [hip, hlive, decide_eq_true hdue, beq_self_eq_true] at hk
    exact Bool.false_ne_true hk
  · refine List.mem_filter.2 ⟨hz, ?_⟩
    rcases hkeep with hip | hnot
    · rw [beq_eq_false_iff_ne.2 hip]
      rfl
    · rw [decide_eq_false (Nat.not_le.2 hnot), Bool.and_false]
      rfl

theorem netReports_none {cid : Nat} {c : Chain} (hc : s.chain cid = some c) (hn : c.netDue = []) :
    ∃ y, netReports cid s = { s with flm := y } ∧ y.queues = s.flm.queues ∧ Tab.get? y.chains cid = some c ∧
      ∀ k, k ≠ cid → Tab.get? y.chains k = s.chain k := by
  unfold netReports
  rw [hc]
  dsimp only
  rw [hn, List.filter_nil, List.foldl_nil]
  refine ⟨_, rfl, rfl, ?_, fun k hk => (State.chain_modChain_eq s cid k _).trans (if_neg (Ne.symm hk))⟩
  refine (State.chain_modChain s _ hc).trans ?_
  rw [hn, List.filter_nil, ← hn]

theorem writeAcknowledged_one {cid : Nat} {c : Chain} (hc : s.chain cid = some c) (ha : 0 < c.applied) (hn : c.netDue = []) :
    (writeAcknowledged cid s).chain cid = some { c with applied := c.applied - 1, unacked := c.unacked - 1 } ∧
      (writeAcknowledged cid s).out = s.out ∧ (writeAcknowledged cid s).mem = s.mem := by
  have hch := State.chain_modChain s (fun c => if c.applied = 0 then c else { c with applied := c.applied - 1, unacked := c.unacked - 1 }) hc
  rw [if_neg (by omega)] at hch
  obtain ⟨y, hy, -, hget, -⟩ := netReports_none hch hn
  unfold writeAcknowledged
  rw [hy]
  exact ⟨hget, rfl, rfl⟩

/-! ### The end of a chain -/

/-- The record of a chain none of whose descriptors addressed the network. -/
def lastRecord (c : Chain) : Bytes :=
  recordBytes c.seq c.status (4 * ofBool c.replayed) (if c.status == St.ok then c.count else c.index) c.skipped c.value c.queue c.slot none

theorem chainRecord_last {c : Chain} (hn : c.net = []) : chainRecord c = lastRecord c := by
  have hpart : partialOf c = none := by
    unfold partialOf
    rw [hn]
    rfl
  unfold chainRecord chainOutcome lastRecord
  by_cases h : c.status = St.ok
  · rw [if_neg (fun e => e h), hpart, if_pos (beq_iff_eq.2 h), h]
  · rw [if_pos h, if_neg (fun e => h (beq_iff_eq.1 e))]

theorem recordHeld_not {cid : Nat} {c : Chain} (hw : s.pwr.window = false) (ht : ∀ e ∈ s.bsn.tab, e.2.tagged = []) : recordHeld s cid c = false := by
  unfold recordHeld
  rw [hw, Bool.false_or]
  refine List.any_eq_false.2 fun e he => ?_
  rw [ht e he, List.any_nil]
  exact Bool.false_ne_true

/-- What a poster keeps of a chain that has ended. -/
def posterDone (c : Chain) (now : Time) (x : Poster) : Poster :=
  if x.ip = c.post.net.srcIp then { x with cache := Tab.set x.cache c.seq (lastRecord c), live := x.live.filter (· != c.seq), last := now } else x

/-- The state once an ended chain's record has left. -/
structure ChainLeft (s v : State) (cid : Nat) (c : Chain) : Prop where
  chain : v.chain cid = none
  out : v.out = s.out ++ [.record (recordFrom s c) (recordNet c.post.net c.retQp) c.post.cls recordQKey (lastRecord c)]
  levees : v.sec = s.sec
  queue : ∀ q, s.queue c.queue = some q → v.queue c.queue = some { q with posters := q.posters.map (posterDone c s.now) }

theorem mem_upd_queue {t : Tab Queue} {k : Nat} {f : Queue → Queue} (hf : ∀ y, (f y).destroying = y.destroying)
    (h : ∀ e ∈ t, e.2.destroying = false) : ∀ e ∈ Tab.upd t k f, e.2.destroying = false := fun e he => by
  rcases Tab.mem_upd he with he | ⟨v, hv, he⟩
  · exact h e he
  · rw [he, hf]
    exact h v hv

theorem slotOf_congr {c : Chain} {q y : Queue} (hq : s.queue c.queue = some q) (hy : w.queue c.queue = some y) (hs : y.slots = q.slots) :
    slotOf w c = slotOf s c := by
  unfold slotOf
  rw [hq, hy, Option.bind_some, Option.bind_some, hs]

theorem chainCompletion_leaves {cid : Nat} {c : Chain} {q : Queue} (hc : s.chain cid = some c) (hst : c.st = .ended) (hu : c.unacked = 0)
    (hheld : recordHeld s cid c = false) (hf : c.failed = none) (hn : c.net = []) (hd : c.netDue = []) (hm : s.mute c.post.net.srcIp = false)
    (hdest : ∀ e ∈ s.flm.queues, e.2.destroying = false) (hq : s.queue c.queue = some q) : ChainLeft s (chainCompletion cid s) cid c := by
  have hch := State.chain_modChain s (fun _ => c) hc
  obtain ⟨y, hy, hyq, -, -⟩ := netReports_none hch hd
  have hq' : Tab.get? y.queues c.queue = some q := by rw [hyq]; exact hq
  unfold chainCompletion
  rw [hc]
  dsimp only
  rw [if_neg (by rw [hheld]; rintro (h | h | h); exacts [h hst, h hu, Bool.false_ne_true h]), hf]
  dsimp only
  rw [hy, chainRecord_last hn]
  generalize hrow : (if (chainOutcome c).1 = St.ok then 1 else if (chainOutcome c).1 = St.part then 3 else 2) = row
  generalize hw : State.modQueue (flmCount 0 row c.queue 1 { s.modChain cid (fun _ => c) with flm := y }) c.queue _ = w
  have hwq : w.queue c.queue = some { q with posters := q.posters.map (posterDone c s.now) } := by
    rw [← hw]
    exact State.queue_modQueue (s := flmCount 0 row c.queue 1 { s.modChain cid (fun _ => c) with flm := y }) _ hq'
  have hwd : ∀ e ∈ w.flm.queues, e.2.destroying = false := by
    rw [← hw]
    refine mem_upd_queue (t := y.queues) (fun _ => rfl) ?_
    rw [hyq]
    exact hdest
  have hwm : w.mute c.post.net.srcIp = false := by rw [← hw]; exact hm
  have hfrom : recordFrom w c = recordFrom s c := by
    unfold recordFrom
    rw [slotOf_congr hq hwq rfl]
  have hout : w.out = s.out := by rw [← hw]; rfl
  have hsec : w.sec = s.sec := by rw [← hw]; rfl
  rw [sendRecord_heard hwm, hfrom, destroyProgress_idle (by exact hwd)]
  refine ⟨?_, by rw [← hout]; rfl, hsec, fun q2 hq2 => ?_⟩
  · show Tab.get? (Tab.del w.flm.chains cid) cid = none
    rw [Tab.get?_del, if_pos rfl]
  · obtain rfl : q = q2 := Option.some.inj (hq.symm.trans hq2)
    exact hwq

theorem retireProgress_idle (h : ∀ e ∈ s.sec.levees, e.2.retiring = false) : retireProgress s = s := by
  unfold retireProgress
  rw [List.filter_eq_nil_iff.2 fun e he => by rw [h e he]; decide, List.foldl_nil]

/-! ### A basin begins a chain's descriptor -/

section
variable {b cid : Nat} {c : Chain} {d : Desc} {x : Slot}

/-- What a basin asks of its one chain before it begins the chain's descriptor. -/
structure Beginnable (s : State) (b cid : Nat) (c : Chain) (q : Queue) (d : Desc) (x : Slot) : Prop where
  power : (s.basin b).power = .active
  free : (s.basin b).current = none
  calm : (s.basin b).replaying = false
  window : s.pwr.window = false
  chain : s.chain cid = some c
  alone : chainsOn s b = [(cid, c)]
  sound : c.failed = none
  state : c.st = .waiting ∨ c.st = .ready
  desc : Tab.get? c.descs c.idx = some d
  prior : waitsPrior d = true → c.unacked = 0
  queue : s.queue c.queue = some q
  slot : q.slots[c.slot]? = some x
  still : x.moving = none

variable (h : Beginnable s b cid c q d x)
include h

theorem prepare_idle : prepare b s = s := by
  have hst : (c.st != .waiting && c.st != .ready) = false := by
    rcases h.state with e | e
    · rw [e]
      rfl
    · rw [e]
      rfl
  unfold prepare
  rw [h.alone, List.foldl_cons, List.foldl_nil]
  dsimp only
  rw [hst, if_neg Bool.false_ne_true, h.sound]
  dsimp only
  unfold fetchTile
  rw [h.chain]
  dsimp only
  rw [h.queue]
  dsimp only
  rw [if_pos]
  rw [h.desc]
  rfl

theorem slot_kept : x.lost = false := by
  have hmem : (cid, c) ∈ chainsOn s b := by
    rw [h.alone]
    exact List.mem_singleton.2 rfl
  have hp := (List.mem_filter.1 hmem).2
  have hq : Tab.get? s.flm.queues c.queue = some q := h.queue
  dsimp only at hp
  rw [hq, Option.bind_some, h.slot, Option.elim_some] at hp
  simp only [Bool.and_eq_true, Bool.not_eq_true'] at hp
  exact hp.2

theorem chain_ready : chainReady s c = true := by
  have hst : (c.st == .waiting || c.st == .ready) = true := by
    rcases h.state with e | e
    · rw [e]
      rfl
    · rw [e]
      rfl
  have hslot : slotOf s c = some x := by
    unfold slotOf
    rw [h.queue, Option.bind_some, h.slot]
  unfold chainReady
  rw [hst, hslot, Option.elim_some, h.still, slot_kept h, h.desc, Option.elim_some]
  cases hw : waitsPrior d with
  | false => rfl
  | true =>
    rw [h.prior hw]
    rfl

theorem queuePick_eq (k : Nat) : queuePick s b k = if c.queue = k then some cid else none := by
  unfold queuePick
  rw [h.alone, List.filter_cons, List.filter_nil, chain_ready h, Bool.and_true]
  by_cases hk : c.queue = k
  · rw [if_pos (beq_iff_eq.2 hk), if_pos hk]
    dsimp only
    rw [List.find?_cons]
    cases (c.st == .ready) with
    | true => rfl
    | false => rfl
  · rw [if_neg (fun e => hk (beq_iff_eq.1 e)), if_neg hk]
    rfl

theorem queueTurn_head : ∃ l, queueTurn s b = c.queue :: l := by
  have hall : ∀ k ∈ queueTurn s b, k = c.queue := fun k hk => by
    have hk' : k ∈ (s.flm.queues.map (·.1)).filter fun q => (queuePick s b q).isSome := by
      unfold queueTurn at hk
      dsimp only at hk
      split at hk
      · exact hk
      · rcases List.mem_append.1 hk with hk | hk
        · exact (List.mem_filter.1 hk).1
        · exact (List.mem_filter.1 hk).1
    have hp := (List.mem_filter.1 hk').2
    rw [queuePick_eq h] at hp
    by_contra hne
    rw [if_neg (Ne.symm hne)] at hp
    exact Bool.false_ne_true hp
  have hin : c.queue ∈ queueTurn s b := by
    have hmem : c.queue ∈ (s.flm.queues.map (·.1)).filter fun q => (queuePick s b q).isSome := by
      refine List.mem_filter.2 ⟨List.mem_map.2 ⟨_, Tab.mem_of_get? h.queue, rfl⟩, ?_⟩
      rw [queuePick_eq h, if_pos rfl]
      rfl
    unfold queueTurn
    dsimp only
    split
    · exact hmem
    · next l _ =>
      by_cases hl : l < c.queue
      · exact List.mem_append_left _ (List.mem_filter.2 ⟨hmem, decide_eq_true hl⟩)
      · exact List.mem_append_right _ (List.mem_filter.2 ⟨hmem, decide_eq_true (Nat.not_lt.1 hl)⟩)
  cases hq : queueTurn s b with
  | nil =>
    rw [hq] at hin
    exact absurd hin List.not_mem_nil
  | cons k l =>
    exact ⟨l, by rw [hall k (by rw [hq]; exact List.mem_cons_self)]⟩

/-- The state in which the basin's turn has passed to queue `k`. -/
def turned (b k : Nat) (s : State) : State := { s with flm := { s.flm with rr := Tab.set s.flm.rr b k } }

theorem descriptorBegin_eq : descriptorBegin b s = if (opOf (byteAt d 0)).isNone then chainEnd cid St.badParam c.idx (turned b c.queue s)
    else (State.modChain (turned b c.queue s) cid fun c => { c with st := .running }).modBasin b fun x => { x with current := some cid } := by
  obtain ⟨l, hl⟩ := queueTurn_head h
  have hch : ∀ r, State.chain { s with flm := { s.flm with rr := r } } cid = some c := fun _ => h.chain
  unfold descriptorBegin
  dsimp only
  rw [h.power, h.free, h.calm, h.window, Bool.false_and, if_neg (by decide), prepare_idle h, hl]
  dsimp only
  rw [queuePick_eq h, if_pos rfl]
  dsimp only
  rw [hch, Option.elim_some, h.desc, Option.elim_some]
  rfl

end

end Sys2Proof.Machine
end

section
/-! PROOFS. O38, the rest: a chain's descriptors come from their tile of the pool (10 R324, R326), and the obligation. -/

namespace Sys2Proof.Machine

variable {s w : State} {cid a off key : Nat} {c : Chain} {q : Queue} {x : Allot} {r : PoolReq}

/-! ### The access of a chain -/

/-- The access a chain makes to the pool. -/
def chainLive (cid key : Nat) (r : PoolReq) (a home : Nat) (t : Time) : Live :=
  { kind := .read, req := r, allot := a, home := home, flume := some (cid, key), arrived := t }

theorem flumeJudge_cistern (h : onCistern s .read r a off) (hr : s.cis.regions = []) : flumeJudge s .read r = (St.ok, a) := by
  obtain ⟨x, hx, htr, hst, hw, hp, -, -, hlim, hf, -⟩ := h
  have hpva : r.pva < 2 ^ 52 := by
    unfold limitsOk at hlim
    simp only [Bool.and_eq_true, decide_eq_true_eq] at hlim
    exact hlim.1
  have hreg : regionOf s a = none := by
    unfold regionOf
    rw [hr]
    rfl
  unfold flumeJudge
  rw [if_neg (Nat.not_le.2 hpva), htr]
  dsimp only
  rw [allotStatus_cistern hx hst hw hp, if_neg (fun e => e rfl), hreg, Option.isSome_none, if_neg Bool.false_ne_true,
    windowsOk_plain (r := { r with flags := 0 }) hr (show bitOf 0 0 = false by decide)]
  rfl

/-- The counts a chain's access raises. -/
def countAccess (cid a : Nat) (home : Nat) (r : PoolReq) (s : State) : State :=
  let b := ((s.chain cid).bind (slotOf s)).elim 0 (·.basin)
  let s := if nearPort s b a (r.pva - (s.allot a).elim 0 (·.pva)) then s else meshDeliver home s
  (s.modAllot a fun x => { x with inflight := x.inflight + 1 }).inflightAdd 9 r.ver

theorem countAccess_before (home : Nat) : Before s (countAccess cid a home r s) := by
  have hmesh : ∀ p : Bool, Before s (if p = true then s else meshDeliver home s) := fun p => by
    cases p with
    | true => exact ⟨EngineKept.refl s, rfl, rfl, rfl, rfl, rfl, rfl⟩
    | false => exact ⟨meshDeliver_kept home, rfl, rfl, rfl, rfl, rfl, rfl⟩
  have hinc : ∀ y : Allot, ∃ n, { y with inflight := y.inflight + 1 } = { y with inflight := n } := fun y => ⟨_, rfl⟩
  have hmod : ∀ v : State, Before v (v.modAllot a fun x => { x with inflight := x.inflight + 1 }) :=
    fun v => ⟨State.modAllot_kept a _ hinc, rfl, rfl, rfl, rfl, rfl, rfl⟩
  have hadd : ∀ v : State, Before v (v.inflightAdd 9 r.ver) := fun v => ⟨State.inflightAdd_kept 9 r.ver, rfl, rfl, rfl, rfl, rfl, rfl⟩
  exact (hmesh _).trans ((hmod _).trans (hadd _))

theorem flumeAccess_eq (hf : r.flags = 0) (hx : s.allot a = some x) :
    flumeAccess cid key .read r a s = settle (serveReq s.mem.nextLive (addLive (chainLive cid key r a x.home s.now) (countAccess cid a x.home r s))) := by
  have hr : ({ r with flags := 0 } : PoolReq) = r := by rw [← hf]
  have hadd : ∀ l, ({ countAccess cid a x.home r s with mem := { (countAccess cid a x.home r s).mem with
      nextLive := s.mem.nextLive + 1, live := Tab.set (countAccess cid a x.home r s).mem.live s.mem.nextLive l } } : State) =
        addLive l (countAccess cid a x.home r s) := fun l => by
    unfold addLive
    rw [(countAccess_before x.home).next]
  unfold flumeAccess
  dsimp only
  rw [hr, ite_self, hx]
  dsimp only [Option.elim_some]
  refine congrArg settle ((if_neg ?_).trans ?_)
  · rw [pubHeld_plain (by show bitOf r.flags 0 = false; rw [hf]; decide)]
    exact Bool.false_ne_true
  · rw [← hadd]
    unfold countAccess
    rw [hx]
    rfl

theorem writeKey_tile (n : Nat) : writeKey (2 ^ 60 + n) = false := by
  unfold writeKey
  rw [decide_eq_false (Nat.not_lt.2 (Nat.le_add_right _ n)), Bool.and_false]

/-- The answer of a read is noted with its chain. -/
theorem flumeEnd_notes {l : Live} {n : Nat} (hone : OnePart s l off n x) (hf : l.flume = some (cid, key)) (hk : l.kind = .read)
    (hkey : writeKey key = false) : ∃ y, flumeEnd l St.ok s = { s with flm := y } ∧ y.queues = s.flm.queues ∧
      y.chains = Tab.upd s.flm.chains cid fun c => { c with fetched := Tab.set c.fetched key (St.ok, readPool s l.allot off n) } := by
  unfold flumeEnd
  rw [hf]
  dsimp only
  rw [if_pos ⟨hk, rfl⟩, hone.segs, List.map_cons, List.map_nil, segBytes_one, List.flatten_singleton, hkey]
  exact ⟨_, rfl, rfl, rfl⟩

/-- What a translation reads of an allotment. -/
def Allot.range (y : Allot) : Nat × Nat × Nat := (y.levee, y.pva, y.size)

/-- `v` translates as `w` does: the same versions of the table, over the same ranges. -/
structure SameRanges (w v : State) : Prop where
  xl0 : v.mem.xl0 = w.mem.xl0
  xl1 : v.mem.xl1 = w.mem.xl1
  ranges : ∀ k, (v.allot k).map Allot.range = (w.allot k).map Allot.range

theorem SameRanges.refl (w : State) : SameRanges w w := ⟨rfl, rfl, fun _ => rfl⟩

theorem SameRanges.trans {u v w : State} (h : SameRanges u v) (g : SameRanges v w) : SameRanges u w :=
  ⟨g.xl0.trans h.xl0, g.xl1.trans h.xl1, fun k => (g.ranges k).trans (h.ranges k)⟩

theorem modAllot_ranges (b : Nat) (f : Allot → Allot) (hf : ∀ y, (f y).range = y.range) : SameRanges s (s.modAllot b f) := by
  refine ⟨rfl, rfl, fun k => ?_⟩
  show (Tab.get? (Tab.upd s.mem.allots b f) k).map Allot.range = _
  rw [Tab.get?_upd]
  by_cases e : b = k
  · rw [if_pos e, e, Option.map_map]
    exact congrArg (fun g => Option.map g (Tab.get? s.mem.allots k)) (funext hf)
  · rw [if_neg e]
    rfl

theorem translate_congr {ver levee pva len : Nat} (h : SameRanges s w) : translate w ver levee pva len = translate s ver levee pva len := by
  have hxl : w.xl ver = s.xl ver := by
    unfold State.xl
    rw [h.xl0, h.xl1]
  have hp : ∀ o : Option Allot, o.elim false (fun x => x.levee == levee && decide (x.pva ≤ pva) && decide (pva + len ≤ x.pva + x.size)) =
      (o.map Allot.range).elim false fun x => x.1 == levee && decide (x.2.1 ≤ pva) && decide (pva + len ≤ x.2.1 + x.2.2) := fun o => by
    cases o with
    | none => rfl
    | some y => rfl
  unfold translate
  rw [hxl]
  refine congrArg (fun p => List.find? p (s.xl ver)) (funext fun k => ?_)
  rw [hp, hp, h.ranges]

theorem liveGone_ranges (id : Nat) (l : Live) (hr : s.cis.regions = []) (hh : s.cis.handles = []) : SameRanges s (liveGone id l s) := by
  unfold liveGone
  rw [pruneHandles_none (by exact hr) (by exact hh)]
  exact ⟨rfl, rfl, fun _ => rfl⟩

theorem endLive_ranges {id : Nat} {l : Live} (hl : s.liveReq id = some l) (hj : l.journal = none) (hr : s.cis.regions = []) (hh : s.cis.handles = []) :
    SameRanges s (endLive id s) := by
  have hdec : ∀ y : Allot, ({ y with inflight := y.inflight - 1 } : Allot).range = y.range := fun _ => rfl
  have hgone : ∀ v : State, v.cis = s.cis → SameRanges s v → SameRanges s (liveGone id l v) := fun v hcis hx =>
    hx.trans (liveGone_ranges id l (by rw [hcis]; exact hr) (by rw [hcis]; exact hh))
  have h1 := modAllot_ranges (s := s) l.allot _ hdec
  unfold endLive
  rw [hl]
  dsimp only
  rw [hj]
  dsimp only
  cases l.src with
  | none => exact hgone _ rfl h1
  | some b =>
    dsimp only
    by_cases e : b = l.allot
    · rw [if_pos e]
      exact hgone _ rfl h1
    · rw [if_neg e]
      exact hgone _ rfl (h1.trans (modAllot_ranges b _ hdec))

theorem countAccess_ranges (home : Nat) : SameRanges s (countAccess cid a home r s) := by
  have hmesh : ∀ p : Bool, SameRanges s (if p = true then s else meshDeliver home s) := fun p => by
    cases p with
    | true => exact SameRanges.refl s
    | false => exact ⟨rfl, rfl, fun _ => rfl⟩
  have hadd : ∀ v : State, SameRanges v (v.inflightAdd 9 r.ver) := fun v => ⟨rfl, rfl, fun _ => rfl⟩
  exact (hmesh _).trans ((modAllot_ranges a (fun y => { y with inflight := y.inflight + 1 }) fun _ => rfl).trans (hadd _))

/-- What a chain's access leaves: the tile's bytes are noted with the chain, and no request is under way. -/
structure TileNoted (s v : State) (cid key a : Nat) (x : Allot) (data : Bytes) : Prop where
  cis : v.cis = s.cis
  live : v.mem.live = []
  out : v.out = s.out
  sec : v.sec = s.sec
  allot : ∃ k, v.allot a = some { x with inflight := k }
  ranges : SameRanges s v
  queues : v.flm.queues = s.flm.queues
  chains : v.flm.chains = Tab.upd s.flm.chains cid fun c => { c with fetched := Tab.set c.fetched key (St.ok, data) }

/-- The read of a chain, served: its bytes are noted, and it leaves. -/
theorem serve_chain {id : Nat} {l : Live} (h : OnWay s w id l) (hcis : w.cis = s.cis) (hrg : SameRanges s w) (hc : s.calm) (hf : l.fresh)
    (hp : l.phase = none) (hfl : l.flume = some (cid, key)) (hk : l.kind = .read) (hsrc : l.src = none) (ht : InTile s l.allot off l.req.length x)
    (hoff : off = l.req.pva - x.pva) (hkey : writeKey key = false) :
    settle (serveReq id w) = serveReq id w ∧ TileNoted s (serveReq id w) cid key l.allot x (readPool s l.allot off l.req.length) := by
  obtain ⟨k, htw⟩ := h.inTile hcis ht
  have hr : w.cis.regions = [] := by rw [hcis]; exact hc.1.1
  have hh : w.cis.handles = [] := by rw [hcis]; exact hc.1.2.1
  have hway := h.setLive (l.reading off l.req.length)
  subst hoff
  rw [serveReq_cistern h.liveReq htw.allot htw.place htw.flags (by rw [hk]; decide) hsrc, startLive_read (x := { x with inflight := k }) h.liveReq (Or.inl hk) hf htw hr]
  have hone : OnePart (w.setLive id (l.reading (l.req.pva - x.pva) l.req.length)) (l.reading (l.req.pva - x.pva) l.req.length)
      (l.req.pva - x.pva) l.req.length { x with inflight := k } := ⟨htw.allot, htw.sound, rfl, hf.stat, hf.missed, hf.siphoned⟩
  obtain ⟨y, hy, hq, hch⟩ := flumeEnd_notes hone hfl hk hkey
  have hflume : (l.reading (l.req.pva - x.pva) l.req.length).flume.isSome = true := by
    show l.flume.isSome = true
    rw [hfl]
    rfl
  have hfin := (finishLive_ok hway.liveReq hone hp).trans (if_pos hflume)
  rw [show ({ x with inflight := k } : Allot).pva = x.pva from rfl, hfin, hy]
  generalize hu : w.setLive id (l.reading (l.req.pva - x.pva) l.req.length) = u at hy hq hch hway hone
  have huc : u.cis = w.cis := by rw [← hu]; rfl
  have hux : SameRanges w u := by rw [← hu]; exact ⟨rfl, rfl, fun _ => rfl⟩
  obtain ⟨hkept, hout, hlive, hcis', -⟩ := endLive_kept (id := id) (l := l.reading (l.req.pva - x.pva) l.req.length) (s := { u with flm := y })
    hway.liveReq hf.journal (show u.cis.regions = [] by rw [huc]; exact hr) (show u.cis.handles = [] by rw [huc]; exact hh)
  have hrg' := endLive_ranges (id := id) (l := l.reading (l.req.pva - x.pva) l.req.length) (s := { u with flm := y })
    hway.liveReq hf.journal (show u.cis.regions = [] by rw [huc]; exact hr) (show u.cis.handles = [] by rw [huc]; exact hh)
  have hempty : (endLive id { u with flm := y }).mem.live = [] := by
    rw [hlive]
    exact hway.del
  have hcalm : ({ u with flm := y } : State).calm := (hway.kept.calm hc)
  obtain ⟨m, hm⟩ := hway.kept.allot _ _ ht.allot
  obtain ⟨m', hm'⟩ := hkept.allot l.allot { x with inflight := m } hm
  refine ⟨settle_calm (hkept.calm hcalm) hempty, ?_, hempty, hout.trans hway.out, hkept.sec.trans hway.kept.sec, ⟨m', hm'⟩, ?_, ?_, ?_⟩
  · rw [hcis']
    exact huc.trans hcis
  · exact hrg.trans (hux.trans (SameRanges.trans (v := { u with flm := y }) ⟨rfl, rfl, fun _ => rfl⟩ hrg'))
  · rw [hkept.flm]
    exact hq.trans (by rw [hway.kept.flm])
  · rw [hkept.flm]
    refine hch.trans ?_
    rw [hway.kept.flm, readPool_congr (huc.trans hcis)]
    rfl

/-- A chain's access to one sound tile of the cistern ends with the tile's bytes noted. -/
theorem flumeAccess_notes (hc : s.calm) (hl : s.mem.live = []) (hf : r.flags = 0) (ht : InTile s a off r.length x) (hoff : off = r.pva - x.pva)
    (hkey : writeKey key = false) : TileNoted s (flumeAccess cid key .read r a s) cid key a x (readPool s a off r.length) := by
  have hb := countAccess_before (s := s) (cid := cid) (a := a) (r := r) x.home
  have hlive : (addLive (chainLive cid key r a x.home s.now) (countAccess cid a x.home r s)).mem.live =
      [(s.mem.nextLive, chainLive cid key r a x.home s.now)] := by
    show Tab.set (countAccess cid a x.home r s).mem.live (countAccess cid a x.home r s).mem.nextLive _ = _
    rw [hb.live, hl, hb.next]
    rfl
  have hway : OnWay s (addLive (chainLive cid key r a x.home s.now) (countAccess cid a x.home r s)) s.mem.nextLive
      (chainLive cid key r a x.home s.now) :=
    ⟨hb.kept.trans (EngineKept.of_mem rfl rfl rfl (fun h => h) fun _ x h => ⟨x.inflight, h⟩), hb.out, hlive, hb.qpcs⟩
  have hplain : bitOf r.flags 0 = false := by rw [hf]; decide
  obtain ⟨hset, hnoted⟩ := serve_chain (cid := cid) (key := key) hway hb.cis ((countAccess_ranges (s := s) x.home).trans ⟨rfl, rfl, fun _ => rfl⟩) hc
    ⟨rfl, rfl, rfl, rfl, rfl, rfl, rfl, rfl, hplain⟩ rfl rfl rfl rfl ht hoff hkey
  rw [flumeAccess_eq hf ht.allot, hset]
  exact hnoted

/-! ### The tile's descriptors -/

theorem get?_foldl_sets {α : Type} (f : Nat → α) (first n k : Nat) (t : Tab α) :
    Tab.get? ((List.range n).foldl (fun t j => Tab.set t (first + j) (f (first + j))) t) k =
      if first ≤ k ∧ k < first + n then some (f k) else Tab.get? t k := by
  induction n with
  | zero => rw [List.range_zero, List.foldl_nil, if_neg (by omega)]
  | succ n ih =>
    rw [List.range_succ, List.foldl_append, List.foldl_cons, List.foldl_nil, Tab.get?_set, ih]
    by_cases h : first + n = k
    · rw [if_pos h, if_pos (by omega), h]
    · rw [if_neg h]
      by_cases h' : first ≤ k ∧ k < first + n
      · rw [if_pos h', if_pos (by omega)]
      · rw [if_neg h', if_neg (by omega)]

/-- The descriptors of a tile are those whose bytes lie in it. -/
theorem tileDescs_covers {i j : Nat} (h64 : c.pva % 64 = 0) (hj : j < c.count) (hb : (c.pva + 64 * j) / 4096 * 4096 = (c.pva + 64 * i) / 4096 * 4096) :
    (tileDescs c i).1 ≤ j ∧ j < (tileDescs c i).1 + (tileDescs c i).2 := by
  unfold tileDescs
  dsimp only
  generalize hT : (c.pva + 64 * i) / 4096 = T at hb ⊢
  have hb' : (c.pva + 64 * j) / 4096 = T := by omega
  split
  · omega
  · omega

/-- A tile whose bytes fit their check value, and that no read has had to repeat, is no fault. -/
theorem poolFault_sound {b : Nat} (hr : s.cis.regions = []) (hx : s.allot a = some x) (hp : x.place = 0) (hconf : s.confidential x.levee = false)
    (htr : translate s r.ver r.levee r.pva r.length = some a) (hoff : off = r.pva - x.pva) (hf : bitOf r.flags 0 = false)
    (hsum : poolSumOk s a (off / 4096) = true) (honce : s.cis.onceTiles = []) : poolFault b r [0] s = (s, St.ok) := by
  have hvalid : tileValid s a (off / 4096) = true := by
    unfold tileValid
    rw [hx]
    dsimp only
    rw [hp]
    rfl
  have hh : (if (bitOf r.flags 0 && (regionOf s a).isSome) = true then some r.handle else none) = none :=
    if_neg (by rw [hf, Bool.false_and]; exact Bool.false_ne_true)
  have htile : ∀ v, poolTileFault b a v (off / 4096) s = (s, St.ok) := fun v => by
    unfold poolTileFault
    dsimp only
    rw [hvalid, if_neg (by decide), hx, Option.elim_some, hconf, if_neg Bool.false_ne_true, hsum, if_neg (by decide), honce]
    exact if_neg Bool.false_ne_true
  unfold poolFault
  rw [htr]
  dsimp only
  rw [hh, reach_plain hr, List.foldl_cons, List.foldl_nil, if_neg (fun e => e rfl), hx, Option.elim_some, ← hoff]
  dsimp only [mapOff]
  rw [show (off / 4096 * 4096 + 4096 * 0) / 4096 = off / 4096 by omega]
  exact htile _

/-- What a chain asks of its tile. -/
structure Fetching (s : State) (cid : Nat) (c : Chain) (q : Queue) : Prop where
  chain : s.chain cid = some c
  queue : s.queue c.queue = some q
  posted : bitOf c.flags 0 = false
  going : c.st ≠ .ended
  more : c.idx < c.count
  aligned : c.pva % 64 = 0
  missing : Tab.get? c.descs c.idx = none
  unread : Tab.get? c.fetched (tileKeyOf c c.idx) = none

/-- The request for the tile of a chain's next descriptor. -/
def tileReq (s : State) (c : Chain) (q : Queue) : PoolReq := flumeReq s c q ((c.pva + 64 * c.idx) / 4096 * 4096) 4096 []

theorem chainTileFetch_asks (h : Fetching s cid c q) (hl : s.mem.live = []) (hj : flumeJudge s .read (tileReq s c q) = (St.ok, a)) :
    chainTileFetch cid s = takeTile cid c.idx (flumeAccess cid (tileKeyOf c c.idx) .read (tileReq s c q) a s) := by
  have hfind : (List.range (c.count - c.idx)).find? (fun j => (Tab.get? c.descs (c.idx + j)).isNone) = some 0 := by
    rw [List.find?_range_eq_some]
    refine ⟨?_, List.mem_range.2 (Nat.sub_pos_of_lt h.more), fun j hj => absurd hj (Nat.not_lt_zero j)⟩
    rw [Nat.add_zero, h.missing]
    rfl
  unfold chainTileFetch
  rw [h.chain]
  dsimp only
  rw [hfind]
  show fetchTile cid (c.idx + 0) s = _
  unfold fetchTile
  rw [h.chain]
  dsimp only
  rw [h.queue]
  dsimp only
  rw [Nat.add_zero, h.missing, h.posted, beq_eq_false_iff_ne.2 h.going, if_neg (by decide), h.unread, if_neg (by decide), hl, List.any_nil,
    if_neg Bool.false_ne_true]
  unfold tileReq at hj ⊢
  rw [hj]
  dsimp only
  rw [if_neg (fun e => e rfl)]

/-- The chain once it holds the descriptors of its tile, whose bytes are `d`. -/
def holdTile (c : Chain) (i : Nat) (d : Bytes) (e : Chain) : Chain :=
  { e with fetched := Tab.del e.fetched (tileKeyOf e i), descs := (List.range (tileDescs c i).2).foldl (fun t j => Tab.set t ((tileDescs c i).1 + j) (slice d (e.pva + 64 * ((tileDescs c i).1 + j) - (c.pva + 64 * i) / 4096 * 4096) 64)) e.descs }

theorem takeTile_holds {i b : Nat} {d : Bytes} (hc : s.chain cid = some c) (hf : Tab.get? c.fetched (tileKeyOf c i) = some (St.ok, d))
    (hq : s.queue c.queue = some q) (hb : (slotOf s c).elim 0 (·.basin) = b)
    (hok : poolFault b (flumeReq s c q ((c.pva + 64 * i) / 4096 * 4096) 4096 []) [0] s = (s, St.ok)) :
    takeTile cid i s = s.modChain cid (holdTile c i d) := by
  have hread : (if St.ok ≠ St.ok then (s, St.ok) else poolFault b (flumeReq s c q ((c.pva + 64 * i) / 4096 * 4096) 4096 []) [0] s) = (s, St.ok) :=
    (if_neg (fun e => e rfl)).trans hok
  unfold takeTile
  rw [hc]
  dsimp only
  rw [hf]
  dsimp only
  rw [hq]
  dsimp only
  rw [hb, hread]
  dsimp only
  rw [if_neg (fun e => e rfl)]
  rfl

theorem flumeReq_congr (h : w.flm.queues = s.flm.queues) (c : Chain) (q : Queue) (pva len : Nat) (data : Bytes) :
    flumeReq w c q pva len data = flumeReq s c q pva len data := by
  unfold flumeReq slotOf State.queue
  rw [h]

/-- A chain takes its next descriptors from their tile. -/
theorem chainTileFetch_holds (hc : s.calm) (hl : s.mem.live = []) (h : Fetching s cid c q) (hcis : onCistern s .read (tileReq s c q) a off)
    (honce : s.cis.onceTiles = []) (hsum : poolSumOk s a (off / 4096) = true) :
    ∃ v, chainTileFetch cid s = v ∧
      v.chain cid = some (holdTile c c.idx (readPool s a off 4096) { c with fetched := Tab.set c.fetched (tileKeyOf c c.idx) (St.ok, readPool s a off 4096) }) ∧
      v.cis = s.cis ∧ v.mem.live = [] ∧ v.out = s.out := by
  obtain ⟨x, hx, htr, -, -, hp, -, hoff, -, hplain, -, -, -, hconf, -⟩ := id hcis
  have hflags : (tileReq s c q).flags = 0 := by
    have hf : bitOf (if bitOf c.flags 1 then 1 else 0) 0 = false := hplain
    show (if bitOf c.flags 1 then 1 else 0) = 0
    cases hb : bitOf c.flags 1 with
    | false => rfl
    | true =>
      rw [hb] at hf
      exact absurd hf (by decide)
  have hnoted := flumeAccess_notes (cid := cid) (key := tileKeyOf c c.idx) hc hl hflags (onCistern_inTile hcis hx) hoff (writeKey_tile _)
  rw [chainTileFetch_asks h hl (flumeJudge_cistern hcis hc.1.1)]
  generalize flumeAccess cid (tileKeyOf c c.idx) .read (tileReq s c q) a s = v at hnoted ⊢
  have hvc : v.chain cid = some { c with fetched := Tab.set c.fetched (tileKeyOf c c.idx) (St.ok, readPool s a off 4096) } := by
    show Tab.get? v.flm.chains cid = _
    rw [hnoted.chains, Tab.get?_upd, if_pos rfl, show Tab.get? s.flm.chains cid = some c from h.chain]
    rfl
  have hvq : v.queue c.queue = some q := by
    show Tab.get? v.flm.queues c.queue = _
    rw [hnoted.queues]
    exact h.queue
  obtain ⟨k, hvx⟩ := hnoted.allot
  have hfault : ∀ b, poolFault b (flumeReq v c q ((c.pva + 64 * c.idx) / 4096 * 4096) 4096 []) [0] v = (v, St.ok) := fun b => by
    rw [flumeReq_congr hnoted.queues]
    refine poolFault_sound (a := a) (off := off) (x := { x with inflight := k }) (by rw [hnoted.cis]; exact hc.1.1) hvx hp ?_ ?_ hoff hplain ?_
      (by rw [hnoted.cis]; exact honce)
    · show v.confidential x.levee = false
      rw [State.confidential, hnoted.sec]
      exact hconf
    · exact (translate_congr hnoted.ranges).trans htr
    · unfold poolSumOk
      rw [hnoted.cis, readPool_congr hnoted.cis]
      exact hsum
  have htake := takeTile_holds (i := c.idx) (c := { c with fetched := Tab.set c.fetched (tileKeyOf c c.idx) (St.ok, readPool s a off 4096) })
    (d := readPool s a off 4096) hvc (Tab.get?_set_self ..) hvq rfl (hfault _)
  rw [htake]
  exact ⟨_, rfl, State.chain_modChain v _ hvc, hnoted.cis, hnoted.live, hnoted.out⟩

/-- A descriptor of a chain's tile is the bytes it lies in. -/
theorem holdTile_desc {d : Bytes} {e : Chain} {j : Nat} (he : e.pva = c.pva) (h64 : c.pva % 64 = 0) (hj : j < c.count)
    (hb : (c.pva + 64 * j) / 4096 * 4096 = (c.pva + 64 * c.idx) / 4096 * 4096) :
    Tab.get? (holdTile c c.idx d e).descs j = some (slice d (c.pva + 64 * j - (c.pva + 64 * c.idx) / 4096 * 4096) 64) := by
  unfold holdTile
  rw [he, get?_foldl_sets (fun j => slice d (c.pva + 64 * j - (c.pva + 64 * c.idx) / 4096 * 4096) 64), if_pos (tileDescs_covers h64 hj hb)]

theorem opOf_known {n : Nat} (h : 1 ≤ n ∧ n ≤ 0x13) : (opOf n).isNone = false := by
  obtain ⟨h1, h2⟩ := h
  interval_cases n
  all_goals rfl

theorem opOf_unknown {n : Nat} (h : n = 0 ∨ 0x14 ≤ n) : (opOf n).isNone = true := by
  unfold opOf
  split
  case h_20 => rfl
  all_goals omega

/-! ### The obligation -/

theorem descriptorBegin_runs {b : Nat} {d : Desc} {x : Slot} (h : Beginnable s b cid c q d x) (hop : 1 ≤ byteAt d 0 ∧ byteAt d 0 ≤ 0x13) :
    ∃ v, descriptorBegin b s = v ∧ (v.basin b).current = some cid ∧ v.chain cid = some { c with st := .running } ∧ v.out = s.out ∧
      v.mem = s.mem ∧ v.bsn.store = s.bsn.store := by
  refine ⟨_, (descriptorBegin_eq h).trans (if_neg (by rw [opOf_known hop]; exact Bool.false_ne_true)), ?_, ?_, rfl, rfl, rfl⟩
  · rw [State.basin_modBasin_self]
  · exact State.chain_modChain (turned b c.queue s) (fun c => { c with st := .running }) h.chain

theorem descriptorBegin_ends {b : Nat} {d : Desc} {x : Slot} (h : Beginnable s b cid c q d x) (hop : byteAt d 0 = 0 ∨ 0x14 ≤ byteAt d 0) :
    ∃ v c', descriptorBegin b s = v ∧ (v.basin b).current = none ∧ v.chain cid = some c' ∧ c'.st = .ended ∧ c'.status = St.badParam ∧
      c'.index = c.idx :=
  ⟨_, _, (descriptorBegin_eq h).trans (if_pos (opOf_unknown hop)), h.free,
    chainEnd_chain (s := turned b c.queue s) h.chain, rfl, rfl, rfl⟩

/-- Settles O38: each clause is what the post, the fetch, the begin, the acknowledgement and the completion do to their chain. -/
theorem postsStartChains : Obligations.PostsStartChains := by
  intro t s u
  refine ⟨?_, fun q ip x hq => ?_, ?_, fun b cid c q d x hp hcur hrep hw hc halone hf hst hd hprior hq hslot hmov => ?_,
    fun cid c hc ha hn => ?_, ?_⟩
  · intro p q b seq inline hm hq hd hl hg
    refine ⟨fun hlen hnew hok hroom hlost hne => ?_, fun hlen hnew hok hfull => ?_, fun hlen hnew hbad hlong => ?_,
      fun x k hlong hp hip hpos hlive hk => ?_⟩
    · have hadm : PostAdmitted u p q := ⟨hm, hq, hd, hl, postOk_long hok⟩
      obtain ⟨i, hch, hout, hbsn, hcis, hothers, hi, hnamed, hleast⟩ := flumePost_starts hadm hg hlen hnew hok hroom hlost hne
      refine ⟨_, postChain p i, rfl, hch, rfl, rfl, rfl, rfl, rfl, rfl, hout, hbsn, hcis, hnamed, fun e => ⟨hi, hleast e⟩, fun hin j hj => ?_,
        fun hin => ⟨if_neg (by rw [show bitOf (byteAt p.payload 6) 0 = false from hin]; exact Bool.false_ne_true), rfl⟩, hothers⟩
      show Tab.get? (if bitOf (byteAt b 6) 0 = true then _ else _) j = _
      rw [if_pos (by exact hin), get?_range_map _ hj]
    · obtain ⟨hchains, hout⟩ := flumePost_busy (s := u) ⟨hm, hq, hd, hl, postOk_long hok⟩ hg hlen hnew hok hfull
      exact ⟨_, rfl, hchains, hout⟩
    · obtain ⟨hchains, hout⟩ := flumePost_bad (s := u) ⟨hm, hq, hd, hl, hlong⟩ hg hlen hnew hbad
      exact ⟨_, rfl, hchains, hout⟩
    · have hknown := flumePost_known (s := u) ⟨hm, hq, hd, hl, hlong⟩ hp hip hpos hlive hk
      exact ⟨_, congrArg Host.Outcome.next (hknown.trans (sendRecord_heard (by exact hm))), rfl, rfl⟩
  · obtain ⟨y, hy, hgone, hkept⟩ := reclaimPoster_posters (s := u) (ip := ip) hq
    exact ⟨_, y, rfl, hy, hgone, hkept, rfl⟩
  · intro cid c q a off base hqt hlive hc hq hf hst hmore h64 hdesc hfetched hcis honce hsum
    have hfetch : Fetching u cid c q := ⟨hc, hq, hf, hst, hmore, h64, hdesc, hfetched⟩
    obtain ⟨v, hv, hch, hvc, hvl, hvo⟩ := chainTileFetch_holds (s := u) hqt.2.1 hlive hfetch hcis honce hsum
    exact ⟨v, _, congrArg Host.Outcome.next hv, hch, rfl, rfl, fun j hj hb => holdTile_desc rfl h64 hj hb, by rw [hvc]; rfl, hvl, hvo⟩
  · have hbegin : Beginnable u b cid c q d x := ⟨hp, hcur, hrep, hw, hc, halone, hf, hst, hd, hprior, hq, hslot, hmov⟩
    refine ⟨fun hop => ?_, fun hop => ?_⟩
    · obtain ⟨v, hv, hrest⟩ := descriptorBegin_runs hbegin hop
      exact ⟨v, congrArg Host.Outcome.next hv, hrest⟩
    · obtain ⟨v, c', hv, hrest⟩ := descriptorBegin_ends hbegin hop
      exact ⟨v, c', congrArg Host.Outcome.next hv, hrest⟩
  · obtain ⟨hch, hout, hmem⟩ := writeAcknowledged_one (s := u) hc ha hn
    exact ⟨_, rfl, hch, hout, hmem⟩
  · intro cid c q hqt hc hst hu hw ht hf hn hd hm hdest hq ok k
    have hleft := chainCompletion_leaves (s := u) hc hst hu (recordHeld_not hw ht) hf hn hd hm hdest hq
    have hret : retireProgress (chainCompletion cid u) = chainCompletion cid u :=
      retireProgress_idle (by rw [hleft.levees]; exact hqt.2.2.2)
    refine ⟨_, congrArg Host.Outcome.next hret, hleft.chain, hleft.out, fun x hx hip => ?_⟩
    have hdone : posterDone c u.now x = { x with cache := Tab.set x.cache c.seq (lastRecord c), live := x.live.filter (· != c.seq), last := u.now } :=
      if_pos hip
    refine ⟨_, posterDone c u.now x, hleft.queue q hq, List.mem_map.2 ⟨x, hx, rfl⟩, by rw [hdone], ?_, ?_⟩
    · rw [hdone]
      exact Tab.get?_set_self ..
    · rw [hdone]
      exact fun hin => absurd (List.mem_filter.1 hin).2 (by simp)

end Sys2Proof.Machine
end

section
/-! PROOFS. A page expanded where the pages are not kept in rising order (07 R224). -/

namespace Sys2Proof.Machine

/-- An allotment of levee 1 that rests on tray 0 and is cached by the cistern of die 0. -/
def pagedAllot : Allot :=
  { st := .active, levee := 1, home := 0, place := 1, flags := 0, domain := 0, pva := 0, size := 2 ^ 21, tray := 0, replica := 0, trayOff := 0, repOff := 0, inflight := 0, zeroed := false, written := false, work := none, revokeBy := 0 }

/-- A compressed page of six tiles, under expansion. -/
def squeezedPage : Page := { die := 0, levee := 1, k := some 6, expanding := true }

/-- Another page of the levee, pinned, which takes 496 tiles of the levee's 512. -/
def pinnedPage : Page := { die := 0, levee := 1, k := some 496, hint := 4, pinned := true }

/-- Pages 5 and 0 of allotment 1, listed in that order, under a quota of one frame. -/
def pagesFalling : State :=
  { State.reset with
    mem := { State.reset.mem with allots := [(1, pagedAllot)], trays := [(0, { port := 0, addr := ⟨4, 1⟩, qpn := 0, rkey := 0, base := 0, length := 2 ^ 30, maxOut := 8 })] }
    cis := { State.reset.cis with pages := [(pageKey 1 5, pinnedPage), (pageKey 1 0, squeezedPage)], quota := [(1, 1)] } }

/-- The page, marked as under expansion, is written a second time before the other one and counts twice, so that it finds no room. -/
theorem page_stays_compressed : ((settle (pageExpansion 1 0 (pagesFalling.tick 0))).page 1 0).map (·.k) = some (some 6) := by
  decide +kernel

theorem pagesFalling_quiet : pagesFalling.quiet := by
  refine ⟨by rfl, ⟨⟨by rfl, by rfl, by rfl, by rfl, by rfl, ?_, ?_⟩, by rfl⟩, by rfl, ?_⟩
  · decide +kernel
  · decide +kernel
  · decide +kernel

/-- Refutes O31: in a table of pages whose numbers do not rise, the page under expansion is written a second time, its tiles count twice
against the quota, and it stays compressed though there was room. -/
theorem not_tilesFillWriteBackAndPoison : ¬ Obligations.TilesFillWriteBackAndPoison := by
  unfold Obligations.TilesFillWriteBackAndPoison
  intro h
  obtain ⟨-, -, -, -, hexp, -⟩ := h 0 1 0 0 pagedAllot squeezedPage pagesFalling pagesFalling_quiet (by rfl) (by rfl) (by decide +kernel)
    (by decide) (by decide +kernel) (by rfl) (by rfl) (by decide +kernel) (by rfl) (by rfl) (by decide +kernel)
  obtain ⟨v, hv, hpage, -⟩ := hexp 6 (by rfl) (by rfl) (by decide +kernel)
  have hstays := page_stays_compressed
  rw [show settle (pageExpansion 1 0 (pagesFalling.tick 0)) = v from Host.Outcome.next.inj hv, hpage] at hstays
  exact absurd hstays (by decide)

end Sys2Proof.Machine
end

section
/-! PROOFS. A fenced tray under a request that another switch's phase makes (14 R451, 06 R213). -/

namespace Sys2Proof.Machine

/-- An allotment that lies on tray 0 and is not cached. -/
def trayAllot : Allot :=
  { st := .active, levee := 1, home := 0, place := 2, flags := 0, domain := 0, pva := 0, size := 2 ^ 21, tray := 0, replica := 0, trayOff := 0, repOff := 0, inflight := 1, zeroed := false, written := false, work := none, revokeBy := 0 }

/-- Another switch's phase. -/
def otherPhase : PhaseMsg :=
  { src := 1, home := 0, phase := 0, epoch := 0, levee := 1, queue := 0, seq := 0, holds := 0, status := 0, arg := [], data := [] }

/-- The read of one byte that the phase asks for. -/
def readForPhase : Live :=
  { kind := .read, req := { (default : PoolReq) with levee := 1, length := 1 }, allot := 1, home := 0, phase := some otherPhase }

/-- The tray operation that reads the byte. -/
def readForPhaseOp : TrayOp := { tray := 0, use := .request 7 0, kind := .read, addr := 0, len := 1, data := [], at_ := 0 }

/-- The read is under way on tray 0, and a fence stands on the tray. -/
def phaseUnderFence : State :=
  { State.reset with
    mem := { State.reset.mem with allots := [(1, trayAllot)], live := [(7, readForPhase)], ops := [(3, readForPhaseOp)] }
    flt := { State.reset.flt with fences := [(0, { desc := fenceDesc 3 1 0 0 0 0 0, auto := false, time := 0, serial := 0 })] } }

theorem phaseUnderFence_quiet : phaseUnderFence.quiet := by
  refine ⟨by rfl, ⟨⟨by rfl, by rfl, by rfl, by rfl, by rfl, ?_, ?_⟩, by rfl⟩, by rfl, ?_⟩
  · decide +kernel
  · decide +kernel
  · decide +kernel

/-- The read's outcome goes to the switch whose phase asked for it, and no response of the pool leaves. -/
theorem phase_answered_to_switch : (fencedCompletion 0 (phaseUnderFence.tick 0)).out =
    [.phase 0xD9 1 { otherPhase with holds := 0, status := St.fenced, data := [] }.bytes] := by
  decide +kernel

/-- Refutes O48: a fenced request that serves another switch's phase is answered to that switch, not to the host of the request. -/
theorem not_automaticFencesFailuresAndHalt : ¬ Obligations.AutomaticFencesFailuresAndHalt := by
  unfold Obligations.AutomaticFencesFailuresAndHalt
  intro h
  obtain ⟨-, -, -, -, hfenced, -⟩ := h 0 phaseUnderFence
  obtain ⟨v, tail, hv, -, -, hout, -⟩ := hfenced 7 readForPhase 3 readForPhaseOp trayAllot phaseUnderFence_quiet (by rfl) (by rfl) (by rfl)
    (by rfl) (by rfl) (by rfl) (by rfl) (by rfl) (by decide) (by decide) (by rfl) (by rfl) (by rfl) (by decide +kernel) (by rfl) (by rfl)
    (by rfl) (by rfl) (by rfl) (by decide +kernel)
  have hphase := phase_answered_to_switch
  rw [show fencedCompletion 0 (phaseUnderFence.tick 0) = v from Host.Outcome.next.inj hv, hout] at hphase
  have hfirst := congrArg List.head? hphase
  exact absurd hfirst (by simp [phaseUnderFence, State.reset])

end Sys2Proof.Machine
end

section
/-! PROOFS. A commit where a block of the screen holds rows of two key types (12 R399). -/

namespace Sys2Proof.Machine

/-- A row of key type 0, in version 1 only, that any key hits. -/
def plainRow : Row :=
  { id := 7, kind := 0, prio := 0, value := 0, mask := 0, v0 := false, v1 := true, action := 0, mirror := none, index := 0, levee := 0, rowIdx := 0 }

/-- A row of key type 1 in the same block, in version 1 only, that the key 0 does not hit. -/
def typedRow : Row := { plainRow with id := 8, value := BitVec.ofNat 144 (2 ^ 140), mask := BitVec.ofNat 144 (2 ^ 140), rowIdx := 1 }

/-- A batch for version 0 that adds and deletes nothing. -/
def emptyBatch : ScreenBatch := { cls := 0, bank := 0xFF, version := 0, add := [], drop := [], levee := 0 }

/-- The command whose batch waits for its commit. -/
def screenRunning : Running := { req := default, key := none, work := .screen }

/-- The batch waits, and one block of the forwarding class holds both rows. -/
def mixedBlock : State :=
  { State.reset with
    scr := { State.reset.scr with fwd := [plainRow, typedRow], batches := [emptyBatch] }
    kry := { State.reset.kry with executing := some screenRunning } }

/-- The commit brings the block's rows apart by key type 1 to 3, and the row of type 0 is gone from version 1 as well. -/
theorem plainRow_lost : ((fwdSearch (screenCommit (mixedBlock.tick 0)) 1 0).1.map (·.id)) = none := by
  decide +kernel

theorem plainRow_found : ((fwdSearch mixedBlock 1 0).1.map (·.id)) = some 7 := by
  decide +kernel

/-- Refutes O46: where a block holds rows of two key types, a commit to one version takes a row of key type 0 out of the other version. -/
theorem not_screenCommandsAndUpkeep : ¬ Obligations.ScreenCommandsAndUpkeep := by
  unfold Obligations.ScreenCommandsAndUpkeep
  rintro ⟨-, h⟩
  obtain ⟨-, -, -, -, -, -, hcommit, -⟩ := h 0 default mixedBlock
  obtain ⟨v, hv, -, -, hdrop, -⟩ := hcommit emptyBatch [] screenRunning (by rfl) (by rfl) (by rfl) (by rfl) (by decide)
  obtain ⟨-, hsame⟩ := hdrop (by rfl)
  have hkey := (hsame 0).1
  rw [show v = screenCommit (mixedBlock.tick 0) from (Host.Outcome.next.inj hv).symm] at hkey
  have hlost : none = some 7 := plainRow_lost.symm.trans (hkey.trans plainRow_found)
  exact absurd hlost (by decide)

end Sys2Proof.Machine
end

section
/-! PROOFS. Revocation: its drain, its timeout, and the release of an allotment (06 R187–R191). -/

namespace Sys2Proof.Machine

section
variable {s : State} {a : Nat} {x : Allot} {run : Running} {k : Key}

/-! ### What the end of a command's work leaves of the levees -/

theorem State.sendReply_levees (s : State) (rp : Reply) : (s.sendReply rp).sec.levees = s.sec.levees := by
  unfold State.sendReply
  split
  · split
    · rfl
    · split
      · obtain ⟨w, o, ⟨g, f, p, rfl⟩, h⟩ := controlReply_step (s := s) (rp := rp)
        rw [h]
      · rfl
  · rfl

theorem State.answer_levees (s : State) (r : KReq) (key : Option Key) (st : Nat) (frags : List Bytes) :
    (s.answer r key st frags).sec.levees = s.sec.levees := by
  unfold State.answer State.cacheReply
  dsimp only
  rw [State.sendReply_levees]
  split
  · obtain ⟨k, hk⟩ := State.setSession_eq s r.sess ((s.session r.sess).put (r.seq :: r.seqs) [mkReply r key st frags])
    rw [hk]
  · rfl

theorem State.finalReply_levees (s : State) (x : Running) (st : Nat) (frags : List Bytes) :
    (s.finalReply x st frags).sec.levees = s.sec.levees := by
  unfold State.finalReply
  split
  · rfl
  · split
    · exact s.answer_levees ..
    · rfl

theorem State.workDone_levees (s : State) (w : Work → Bool) (st : Nat) (frags : List Bytes) :
    (s.workDone w st frags).sec.levees = s.sec.levees := by
  have hfold (l : List Running) (v : State) : (l.foldl (fun s x => s.finalReply x st frags) v).sec.levees = v.sec.levees := by
    induction l generalizing v with
    | nil => rfl
    | cons y l ih => exact (ih _).trans (v.finalReply_levees ..)
  unfold State.workDone
  dsimp only
  split
  · split
    · exact (State.finalReply_levees ..).trans (hfold ..)
    · exact hfold ..
  · exact hfold ..

/-! ### Requests that still wait for their tiles -/

/-- Requests that wait for tiles, pages or tray operations, and for nothing else, are left as they are. -/
theorem settle_waiting (hc : s.calm) (hl : ∀ e ∈ s.mem.live, e.2.stage < 6 ∧ ∀ w ∈ e.2.waits, w < 2 ^ 83) : settle s = s := by
  obtain ⟨⟨-, -, -, hlocks, hpre, hwant, hdet⟩, hcoh⟩ := hc
  have hstage : ∀ e ∈ s.mem.live, e.2.stage < 6 := fun e he => (hl e he).1
  have hover : ∀ e ∈ s.mem.live, ∀ w ∈ e.2.waits, holdOver s w = false := fun e he w hw => by
    have hlt := (hl e he).2 w hw
    unfold holdOver
    rw [if_neg (by omega), decide_eq_false (by omega), Bool.false_and]
  have hfree : freeHolds s = s := by
    have hsame : ({ s with mem := { s.mem with locks := s.mem.locks.filter fun e => !lockStale s e.2 } } : State) = s := by
      have hnil : (s.mem.locks.filter fun e => !lockStale s e.2) = s.mem.locks := by
        rw [hlocks]
        rfl
      rw [hnil]
    unfold freeHolds
    dsimp only
    rw [hsame, show (s.coh.trans.flatMap fun e => e.2.waits) = [] by rw [hcoh]; rfl, List.append_nil]
    rw [List.filter_eq_nil_iff.2 fun w hw => ?_, List.foldl_nil]
    have hmem : w ∈ s.mem.live.flatMap fun e => e.2.waits := List.mem_eraseDups.1 hw
    obtain ⟨e, he, hwe⟩ := List.mem_flatMap.1 hmem
    rw [hover e he w hwe]
    exact Bool.false_ne_true
  unfold settle
  rw [cohSettle_still (by rw [hcoh]) fun e he => by have := hstage e he; omega, hfree,
    planAnew_still fun e he => by have := hstage e he; omega, startTurns_still fun e he => by have := hstage e he; omega,
    releaseHeld_still fun e he => by have := hstage e he; omega, prefetchPages_still hpre hwant, detachDone_still hdet]

/-! ### The release begins -/

/-- `v` is `s` with allotment `a`, which was `x`, RELEASING and its backing in the cistern zeroed. -/
structure ReleaseBegun (s v : State) (a : Nat) (x : Allot) : Prop where
  allot : v.allot a = some { x with st := .releasing, zeroed := x.place == 0, inflight := 0 }
  pool : v.cis.pool = s.cis.pool.zero (poolKey a 0) (2 ^ 44)
  pages : ∀ e ∈ v.cis.pages, e.1 / 2 ^ 28 ≠ a
  live : v.mem.live = s.mem.live
  dirty : ∀ q ∈ x.ranges (trayBytes s x.levee x.size), ∀ p, trayPlace s q = some p → ⟨a, p.1, p.2.1, p.2.2⟩ ∈ v.mem.dirty
  calm : s.calm → v.calm
  kry : v.kry = s.kry
  out : v.out = s.out
  ports : v.ports = s.ports
  flt : v.flt = s.flt
  levees : v.sec.levees = s.sec.levees

theorem revokeRelease_begins (hx : s.allot a = some x) (hr : s.cis.regions = []) : ReleaseBegun s (revokeRelease a s) a x := by
  have hend : endRegion a s = s := by
    unfold endRegion regionOf
    rw [hr]
    rfl
  unfold revokeRelease
  rw [hx]
  dsimp only
  rw [hend]
  obtain ⟨l, -, hl⟩ := dropReleasing_eq (v := State.xlInactive _) (s := State.setAllot { soil a x (emptyCistern a s) with
    mem := { (soil a x (emptyCistern a s)).mem with journal := (soil a x (emptyCistern a s)).mem.journal.filter fun e => !(e.2.live.isNone && e.2.allot == a) },
    coh := { (soil a x (emptyCistern a s)).coh with lost := (soil a x (emptyCistern a s)).coh.lost.filter fun k => keyAllot k != a } } a
      { x with st := .releasing, zeroed := x.place == 0, inflight := 0 }) rfl
  rw [hl]
  generalize State.xlInactive _ = v
  have hxl (w : State) : (w.setXl v l).mem.allots = w.mem.allots ∧ (w.setXl v l).mem.live = w.mem.live ∧
      (w.setXl v l).mem.dirty = w.mem.dirty ∧ (w.setXl v l).mem.locks = w.mem.locks ∧ (w.setXl v l).mem.trays = w.mem.trays := by
    unfold State.setXl
    dsimp only
    split
    · exact ⟨rfl, rfl, rfl, rfl, rfl⟩
    · exact ⟨rfl, rfl, rfl, rfl, rfl⟩
  generalize hw : State.setAllot _ a _ = w
  obtain ⟨hallots, hlive, hdirty, hlocks, htrays⟩ := hxl w
  refine ⟨?_, ?_, fun e he => ?_, ?_, fun q hq p hp => ?_, fun hc => ?_, ?_, ?_, ?_, ?_, ?_⟩
  · unfold State.allot
    rw [hallots, ← hw]
    exact Tab.get?_set_self ..
  · rw [← hw]
    rfl
  · rw [← hw] at he
    exact bne_iff_ne.1 (List.mem_filter.1 he).2
  · rw [hlive, ← hw]
    rfl
  · rw [hdirty, ← hw]
    refine List.mem_append_right _ (List.mem_filterMap.2 ⟨q, hq, ?_⟩)
    rw [show trayPlace (emptyCistern a s) q = some p from hp]
    rfl
  · obtain ⟨⟨h1, h2, h3, h4, h5, h6, h7⟩, hcoh⟩ := hc
    refine ⟨⟨?_, ?_, ?_, ?_, ?_, fun e he => ?_, ?_⟩, ?_⟩
    · rw [← hw]
      exact h1
    · rw [← hw]
      exact h2
    · rw [← hw]
      exact h3
    · rw [hlocks, ← hw]
      exact h4
    · rw [← hw]
      show s.cis.prefetch.filter _ = []
      rw [h5]
      rfl
    · rw [← hw] at he
      exact h6 e (List.mem_filter.1 he).1
    · rw [htrays, ← hw]
      exact h7
    · rw [← hw]
      show ({ s.coh with lost := s.coh.lost.filter fun k => keyAllot k != a } : Coherence) = {}
      rw [hcoh]
      rfl
  · rw [← hw]
    rfl
  · rw [← hw]
    rfl
  · rw [← hw]
    rfl
  · rw [← hw]
    rfl
  · rw [← hw]
    rfl

/-- The command's reply leaves, and the event ends there. -/
theorem revokeReply_ends {n : Nat} (hc : s.calm) (hl : s.mem.live = []) (hlev : ∀ e ∈ s.sec.levees, e.2.retiring = false)
    (hd : s.kry.deferred = []) (hex : s.kry.executing = some run) (hwork : run.work = .revoke a 0 0) (hk : run.key = some k)
    (hr : s.kry.ready = true) (hu : s.portUp run.req.port = true) (hm : s.mayReply run.req.port) (hh : s.halted = false)
    (hcf : s.confidential run.req.levee = false) :
    let v := retireProgress (settle (revokeReply a n s))
    v.mem = s.mem ∧ v.cis = s.cis ∧ v.kry.executing = none ∧
      v.out = s.out ++ [.krytic (mkReply run.req (some k) 0x00 [toBe 4 n ++ zeros 4])] := by
  have hp : (fun w => w == Work.revoke a 0 0) run.work = true := by
    rw [hwork]
    exact beq_self_eq_true _
  have hout := State.workDone_executing_leaves (s := s) (w := fun w => w == .revoke a 0 0) (st := St.ok) (f := toBe 4 n ++ zeros 4)
    (by rw [hd]; rfl) hex hp hk hr hu hm hh hcf
  have hlevees := s.workDone_levees (fun w => w == .revoke a 0 0) St.ok [toBe 4 n ++ zeros 4]
  obtain ⟨y, hy, o, g, c, f, p, hv⟩ := s.workDone_answered (fun w => w == .revoke a 0 0) St.ok [toBe 4 n ++ zeros 4]
  intro v
  have hstill : settle (revokeReply a n s) = revokeReply a n s := by
    unfold revokeReply
    refine settle_calm ?_ ?_
    · rw [hv]
      exact hc
    · rw [hv]
      exact hl
  have hvrow : v = revokeReply a n s := by
    show retireProgress (settle (revokeReply a n s)) = _
    rw [hstill]
    refine retireProgress_idle ?_
    unfold revokeReply
    rw [hlevees]
    exact hlev
  rw [hvrow]
  refine ⟨?_, ?_, ?_, hout⟩
  · unfold revokeReply
    rw [hv]
  · unfold revokeReply
    rw [hv]
  · unfold revokeReply
    rw [hv]
    refine hy.2.1.trans ?_
    show s.kry.executing.filter _ = none
    rw [hex, Option.filter_some, hp]
    rfl

/-- A state `v` in which the allotment `a`, `x`, is being released and its revocation answered with `n` requests ended. -/
structure ReleaseAnswered (s v : State) (a : Nat) (x : Allot) (run : Running) (k : Key) (n : Nat) : Prop where
  begun : ∃ w, ReleaseBegun s w a x ∧ v.mem = w.mem ∧ v.cis = w.cis
  executing : v.kry.executing = none
  out : v.out = s.out ++ [.krytic (mkReply run.req (some k) 0x00 [toBe 4 n ++ zeros 4])]

theorem release_answered {n : Nat} (hx : s.allot a = some x) (hc : s.calm) (hl : s.mem.live = [])
    (hlev : ∀ e ∈ s.sec.levees, e.2.retiring = false) (hd : s.kry.deferred = []) (hex : s.kry.executing = some run)
    (hwork : run.work = .revoke a 0 0) (hk : run.key = some k) (hr : s.kry.ready = true) (hu : s.portUp run.req.port = true)
    (hm : s.mayReply run.req.port) (hh : s.halted = false) (hcf : s.confidential run.req.levee = false) :
    ReleaseAnswered s (retireProgress (settle (revokeReply a n (revokeRelease a s)))) a x run k n := by
  have hb := revokeRelease_begins hx hc.1.1
  have hport : ∀ p, (revokeRelease a s).port p = s.port p := fun p => by
    unfold State.port
    rw [hb.ports]
  obtain ⟨h1, h2, h3, h4⟩ := revokeReply_ends (s := revokeRelease a s) (a := a) (run := run) (k := k) (n := n) (hb.calm hc) (by rw [hb.live, hl])
    (by rw [hb.levees]; exact hlev) (by rw [hb.kry]; exact hd) (by rw [hb.kry]; exact hex) hwork hk (by rw [hb.kry]; exact hr)
    (by unfold State.portUp at hu ⊢; rw [hport]; exact hu) (by unfold State.mayReply at hm ⊢; rw [hport]; exact hm)
    (by unfold State.halted at hh ⊢; rw [hb.flt]; exact hh) (by unfold State.confidential at hcf ⊢; rw [hb.levees]; exact hcf)
  exact ⟨⟨_, hb, h1, h2⟩, h3, h4.trans (by rw [hb.out])⟩

/-! ### The timeout ends a request -/

/-- With an empty directory no line's transaction serves a request. -/
theorem cohDetach_none (id : Nat) (hc : s.coh = {}) : cohDetach id s = s := by
  have hsame : ∀ c : Coherence, c = {} → ({ s with coh := c } : State) = s := fun c h => by
    rw [h, ← hc]
  unfold cohDetach
  dsimp only
  rw [hc]
  exact hsame _ rfl

/-- The write of a range that nothing has been done for yet. -/
def freshWrite (r : PoolReq) (a home : Nat) : Live := { kind := .write, req := r, allot := a, home := home }

section
variable {id home : Nat} {r : PoolReq}

theorem respond_revoked (hm : s.mute (reqHost r) = false) : ∃ g, respond (freshWrite r a home) St.extentRevoked s =
    { s with gauges := g, out := s.out ++ [poolAnswer s r 0xD1 0x51 false false false noSource 0 []] } := by
  obtain ⟨g, hg⟩ := State.count_eq s (gk 3 1 2 r.levee home) 1
  have hsource (w : State) : pieceSource w a (freshWrite r a home) St.extentRevoked [] = (noSource, false) := by
    unfold pieceSource sourceOf
    split
    · rfl
    · split
      next h => exact absurd h (by simp)
      · rfl
  refine ⟨g, ?_⟩
  unfold respond
  dsimp only [freshWrite]
  rw [if_pos rfl, hg, if_neg (show ¬ St.extentRevoked = St.ok by decide), show ∀ w, pieceSource w a
    { kind := .write, req := r, allot := a, home := home } St.extentRevoked [] = (noSource, false) from hsource]
  dsimp only
  rw [if_neg (show ¬ St.extentRevoked = St.ok by decide), if_neg (by decide), Bool.false_and]
  exact reply_vendor (s := { s with gauges := g }) hm ..

theorem endLive_write (hl : s.mem.live = [(id, freshWrite r a home)]) (hreg : s.cis.regions = []) (hhan : s.cis.handles = [])
    (hlocks : s.mem.locks = []) (hx : s.allot a = some x) : ∃ (m : Transport) (w : Switch),
      endLive id s = { s with mem := m, sw := w } ∧
      m.live = [] ∧ m.trays = s.mem.trays ∧ m.locks = [] ∧ Tab.get? m.allots a = some { x with inflight := x.inflight - 1 } := by
  have hlive : s.liveReq id = some (freshWrite r a home) := by
    unfold State.liveReq
    rw [hl, Tab.get?_cons, if_pos rfl]
  unfold endLive
  rw [hlive]
  dsimp only [freshWrite]
  rw [pruneHandles_none (by exact hreg) (by exact hhan)]
  refine ⟨_, _, rfl, ?_, rfl, ?_, ?_⟩
  · show Tab.del s.mem.live id = []
    rw [hl]
    simp [Tab.del]
  · show s.mem.locks.filter _ = []
    rw [hlocks]
    rfl
  · show Tab.get? (Tab.upd s.mem.allots a _) a = _
    rw [Tab.get?_upd, if_pos rfl, show Tab.get? s.mem.allots a = some x from hx]
    rfl

/-- A write that the timeout ends is answered EXTENT_REVOKED and leaves. -/
theorem killLive_write (hc : s.calm) (hl : s.mem.live = [(id, freshWrite r a home)]) (hx : s.allot a = some x)
    (hm : s.mute (reqHost r) = false) : ∃ (m : Transport) (w : Switch) (g : List (GaugeKey × Nat)),
      killLive id St.extentRevoked s = { s with
        mem := m, sw := w, gauges := g, out := s.out ++ [poolAnswer s r 0xD1 0x51 false false false noSource 0 []] } ∧
      m.live = [] ∧ m.trays = s.mem.trays ∧ m.locks = [] ∧ Tab.get? m.allots a = some { x with inflight := x.inflight - 1 } := by
  obtain ⟨⟨hreg, hhan, -, hlocks, -⟩, hcoh⟩ := hc
  have hlive : s.liveReq id = some (freshWrite r a home) := by
    unfold State.liveReq
    rw [hl, Tab.get?_cons, if_pos rfl]
  obtain ⟨g, hg⟩ := respond_revoked (s := s) (a := a) (home := home) hm
  obtain ⟨c, hcd⟩ := ctxDone_eq (freshWrite r a home) St.extentRevoked (respond (freshWrite r a home) St.extentRevoked s)
  have hfin : finishLive id St.extentRevoked s = endLive id (ctxDone (freshWrite r a home) St.extentRevoked (respond (freshWrite r a home) St.extentRevoked s)) := by
    unfold finishLive
    rw [hlive]
    dsimp only
    rw [if_neg (show ¬ St.extentRevoked = St.ok by decide), if_neg (show ¬ St.extentRevoked = St.fenced by decide),
      show s.allot (freshWrite r a home).allot = some x from hx]
    rfl
  unfold killLive
  rw [hlive]
  dsimp only
  rw [cohDetach_none id hcoh]
  change ∃ m w g, finishLive id St.extentRevoked s = _ ∧ _
  rw [hfin, hcd, hg]
  obtain ⟨m, w, hend, h1, h2, h3, h4⟩ := endLive_write (s := { s with
    gauges := g, out := s.out ++ [poolAnswer s r 0xD1 0x51 false false false noSource 0 []], mem := { s.mem with ctxs := c } })
    hl hreg hhan hlocks hx
  exact ⟨m, w, g, hend, h1, h2, h3, h4⟩

end

/-! ### Tray ranges zeroed, and the release -/

/-- The state once a tray has zeroed the one range that was listed. -/
def rangeZeroed (n : Nat) (z : Unzeroed) (s : State) : State :=
  { s.emit (.trayZero n z.va z.len) with mem := { s.mem with dirty := [] } }

/-- The one range still to be zeroed on a tray is zeroed, and its allotment with it. -/
theorem zeroRanges_covered {n : Nat} {y : Tray} {z : Unzeroed} (hx : s.allot a = some x) (hst : x.st = .releasing)
    (hd : s.mem.dirty = [z]) (hz : z.allot = a) (ht : s.mem.trays = [(n, y)]) (ha : y.addr = z.addr) (hw : rangeWrites s n z = false)
    (hdown : s.trayDown n = false) (hlo : y.base ≤ z.va) (hhi : z.va + z.len ≤ y.base + y.length) :
    zeroRanges a s = (rangeZeroed n z s).setAllot a { x with zeroed := true } := by
  have hfind : zeroTray s z = some n := by
    unfold zeroTray
    rw [ht]
    simp [ha, hdown, hw, hlo, hhi]
  have hone : zeroRange z s = rangeZeroed n z s := by
    unfold zeroRange rangeZeroed
    rw [hfind]
    dsimp only
    rw [hd, show [z].filter (· != z) = [] by simp]
  have hrange : (rangeZeroed n z s).allot a = some x := hx
  unfold zeroRanges
  dsimp only
  rw [hd, List.filter_cons, if_pos (by simp [hz]), List.filter_nil, List.foldl_cons, List.foldl_nil, hone, hrange]
  exact if_pos ⟨hst, rfl⟩

/-- A range of a tray that is down stays to be zeroed. -/
theorem zeroRanges_down {n : Nat} {y : Tray} {z : Unzeroed} (hx : s.allot a = some x)
    (hd : s.mem.dirty = [z]) (hz : z.allot = a) (ht : s.mem.trays = [(n, y)]) (hdown : s.trayDown n = true) : zeroRanges a s = s := by
  have hfind : zeroTray s z = none := by
    unfold zeroTray
    rw [ht]
    simp [hdown]
  have hone : zeroRange z s = s := by
    unfold zeroRange
    rw [hfind]
  unfold zeroRanges
  dsimp only
  rw [hd, List.filter_cons, if_pos (by simp [hz]), List.filter_nil, List.foldl_cons, List.foldl_nil, hone, hx]
  dsimp only
  rw [hd]
  exact if_neg fun h => by simp [hz] at h

theorem allotReleased_gone (hx : s.allot a = some x) (hst : x.st = .releasing) (hz : x.zeroed = true) (h0 : a ∉ s.mem.xl0)
    (h1 : a ∉ s.mem.xl1) : allotReleased a s = { s with mem := { s.mem with allots := Tab.del s.mem.allots a } } := by
  unfold allotReleased
  rw [hx]
  exact if_pos ⟨hst, hz, by simpa using h0, by simpa using h1⟩

end

theorem Mem.read_zero_inside (m : Mem) {a n b : Nat} (h : a ≤ b ∧ b < a + n) : Mem.read (Mem.zero m a n) b = 0 := by
  refine Mem.read_of_unlisted fun e he hb => ?_
  have hout := (List.mem_filter.1 he).2
  simp at hout
  omega

/-- What a release answered leaves, in the terms of the statement. -/
theorem ReleaseAnswered.leaves {s u v : State} {a n : Nat} {x y : Allot} {run : Running} {k : Key} (h : ReleaseAnswered u v a y run k n)
    (hxy : ∃ i, y = { x with inflight := i }) (hlive : u.mem.live = []) (htrays : u.mem.trays = s.mem.trays) (hcis : u.cis = s.cis)
    (hsec : u.sec = s.sec) :
    v.allot a = some { x with st := .releasing, zeroed := x.place == 0, inflight := 0 } ∧ v.kry.executing = none ∧
      (∀ o < 2 ^ 44, v.cis.pool.read (poolKey a o) = 0) ∧
      (Mem.wf s.cis.pool = true → ∀ j, j / 2 ^ 44 ≠ a → v.cis.pool.read j = s.cis.pool.read j) ∧
      (∀ e ∈ v.cis.pages, e.1 / 2 ^ 28 ≠ a) ∧ v.mem.live = [] ∧
      (∀ q ∈ x.ranges (trayBytes s x.levee x.size), ∀ p, trayPlace s q = some p → ⟨a, p.1, p.2.1, p.2.2⟩ ∈ v.mem.dirty) ∧
      v.out = u.out ++ [.krytic (mkReply run.req (some k) 0x00 [toBe 4 n ++ zeros 4])] := by
  obtain ⟨i, rfl⟩ := hxy
  obtain ⟨w, hw, hmem, hc⟩ := h.begun
  have hconf : trayBytes u x.levee x.size = trayBytes s x.levee x.size := by
    unfold trayBytes State.confidential
    rw [hsec]
  refine ⟨?_, h.executing, fun o ho => ?_, fun hwf j hj => ?_, ?_, ?_, fun q hq p hp => ?_, h.out⟩
  · unfold State.allot
    rw [hmem]
    exact hw.allot
  · rw [hc, hw.pool]
    exact Mem.read_zero_inside _ ⟨by unfold poolKey; omega, by unfold poolKey; omega⟩
  · rw [hc, hw.pool, hcis, Mem.read_zero hwf, if_neg]
    unfold poolKey
    omega
  · rw [hc]
    exact hw.pages
  · rw [hmem, hw.live, hlive]
  · rw [hmem]
    refine hw.dirty q ?_ p ?_
    · show q ∈ Allot.ranges _ (trayBytes u x.levee x.size)
      rw [hconf]
      exact hq
    · unfold trayPlace
      rw [htrays]
      exact hp

/-- Settles O29: a revocation that drains, or whose timeout ends its last request, zeroes the allotment's bytes in the cistern, lists its
ranges on trays and answers; a range listed is zeroed on a tray that is not down, and the allotment goes once both versions are
without it. -/
theorem revocationReleasesAllotments : Obligations.RevocationReleasesAllotments := by
  unfold Obligations.RevocationReleasesAllotments
  intro t a x run k s u hx hquiet hhosts released
  obtain ⟨hj, hcalm, hdef, hlev⟩ := hquiet
  have huidle : retireProgress u = u := retireProgress_idle hlev
  refine ⟨fun hst hex hwork hk hr hu hm hh hcf => ⟨fun h0 hl => ?_, fun h0 hl => ?_, fun id r hl hmute hby => ?_, fun hby => ?_⟩,
    fun n y z hst hzd hd hz ht ha hw => ⟨fun hdown hlo hhi => ?_, fun hdown => ?_⟩, fun hst hz h0 h1 => ?_, fun hst => ?_⟩
  · have hans := release_answered (s := u) (a := a) (x := x) (n := 0) hx hcalm hl hlev hdef hex hwork hk hr hu hm hh hcf
    refine ⟨_, congrArg Host.Outcome.next (congrArg (fun v => retireProgress (settle v)) ?_), hans.leaves ⟨x.inflight, rfl⟩ hl rfl rfl rfl⟩
    unfold revokeDrainEnd
    rw [show u.allot a = some x from hx]
    exact if_pos ⟨hst, h0⟩
  · have hrow : revokeDrainEnd a u = u := by
      unfold revokeDrainEnd
      rw [show u.allot a = some x from hx]
      exact if_neg fun h => h0 h.2
    refine congrArg Host.Outcome.next ?_
    show retireProgress (settle (revokeDrainEnd a u)) = u
    rw [hrow, settle_waiting (s := u) hcalm hl, huidle]
  · obtain ⟨m, w, g, hkill, hmlive, hmtrays, hmlocks, hmallot⟩ := killLive_write (s := u) (x := x) hcalm hl hx hmute
    have hids : livesOf u a = [id] := by
      unfold livesOf
      rw [show u.mem.live = [(id, freshWrite r a x.home)] from hl]
      simp [freshWrite]
    have hrow : revokeTimeout a u = settle (revokeReply a 1 (revokeRelease a (killLive id St.extentRevoked u))) := by
      unfold revokeTimeout revokeKill
      rw [show u.allot a = some x from hx, hids]
      exact if_neg (not_or.2 ⟨not_not.2 hst, Nat.not_lt.2 hby⟩)
    have hans := release_answered (s := { u with mem := m, sw := w, gauges := g, out := u.out ++ [poolAnswer u r 0xD1 0x51 false false false noSource 0 []] })
      (a := a) (n := 1) hmallot ⟨⟨hcalm.1.1, hcalm.1.2.1, hcalm.1.2.2.1, hmlocks, hcalm.1.2.2.2.2.1, hcalm.1.2.2.2.2.2.1, by
        show ∀ e ∈ m.trays, _
        rw [hmtrays]
        exact hcalm.1.2.2.2.2.2.2⟩, hcalm.2⟩ hmlive hlev hdef hex hwork hk hr hu hm hh hcf
    refine ⟨_, congrArg Host.Outcome.next (congrArg retireProgress (hrow.trans (by rw [hkill]))), hans.leaves ⟨x.inflight - 1, rfl⟩ hmlive hmtrays rfl rfl⟩
  · refine congrArg Host.Outcome.next ?_
    show retireProgress (revokeTimeout a u) = u
    have hrow : revokeTimeout a u = u := by
      unfold revokeTimeout
      rw [show u.allot a = some x from hx]
      exact if_pos (.inr hby)
    rw [hrow, huidle]
  · refine congrArg Host.Outcome.next ?_
    show retireProgress (zeroRanges a u) = _
    rw [zeroRanges_covered (s := u) hx hst hd hz ht ha hw hdown hlo hhi]
    exact retireProgress_idle hlev
  · refine congrArg Host.Outcome.next ?_
    show retireProgress (zeroRanges a u) = u
    rw [zeroRanges_down (s := u) hx hd hz ht hdown, huidle]
  · exact congrArg Host.Outcome.next (allotReleased_gone (s := u) hx hst hz h0 h1)
  · refine congrArg Host.Outcome.next ?_
    show allotReleased a u = u
    unfold allotReleased
    rw [show u.allot a = some x from hx]
    exact if_neg fun h => by rw [hst] at h; exact absurd h.1 (by decide)

end Sys2Proof.Machine
end

section
/-! PROOFS. A transaction of the coherence directory on one line of a cistern tile: what each of its stages does, and how an
agent's request ends (08 R258–R260, R264). -/
namespace Sys2Proof.Machine

section
variable {s v : State} {key a line : Nat} {t : Trans} {e : DirEntry} {x : Allot}

/-! ### One line in the directory -/

/-- The state with this one line in the directory, under this one transaction. -/
def lineAt (s : State) (key : Nat) (e : DirEntry) (t : Trans) : State :=
  { s with coh := { s.coh with dir := [(key, e)], trans := [(key, t)] } }

theorem lineAt_trans : (lineAt s key e t).trans key = some t := by
  show Tab.get? [(key, t)] key = some t
  rw [Tab.get?_cons, if_pos rfl]

theorem lineAt_entry : (lineAt s key e t).entry key = some e := by
  show Tab.get? [(key, e)] key = some e
  rw [Tab.get?_cons, if_pos rfl]

theorem lineAt_setTrans (t' : Trans) : (lineAt s key e t).setTrans key t' = lineAt s key e t' := by
  simp [lineAt, State.setTrans, Tab.set]

theorem lineAt_setEntry (e' : DirEntry) : (lineAt s key e t).setEntry key e' = lineAt s key e' t := by
  simp [lineAt, State.setEntry, Tab.set]

theorem lineAt_modEntry (f : DirEntry → DirEntry) : modEntry key f (lineAt s key e t) = lineAt s key (f e) t := by
  unfold modEntry
  rw [lineAt_entry]
  exact lineAt_setEntry _

theorem lineAt_lost (hl : s.coh.lost = []) (he : e.st ≠ .lost) : lineLost (lineAt s key e t) key = false := by
  unfold lineLost
  rw [lineAt_entry, show (lineAt s key e t).coh.lost = [] from hl]
  simp [he]

theorem eq_lineAt (hd : s.coh.dir = [(key, e)]) (ht : s.coh.trans = [(key, t)]) : s = lineAt s key e t := by
  unfold lineAt
  rw [← hd, ← ht]

theorem keyAllot_lineKey (h : line < 2 ^ 36) : keyAllot (lineKey a line) = a := by
  unfold keyAllot lineKey
  omega

theorem keyLine_lineKey (h : line < 2 ^ 36) : keyLine (lineKey a line) = line := by
  unfold keyLine lineKey
  omega

theorem linePva_lineKey (h : line < 2 ^ 36) (hx : s.allot a = some x) : linePva s (lineKey a line) = x.pva + 256 * line := by
  unfold linePva
  rw [keyAllot_lineKey h, keyLine_lineKey h, hx]
  rfl

/-! ### The line's bytes -/

/-- A line lies in a sound tile of the cistern, of a levee that is not confidential. -/
structure LineReady (s : State) (a line : Nat) (x : Allot) : Prop where
  allot : s.allot a = some x
  place : x.place = 0
  plain : s.confidential x.levee = false
  sound : s.isPoisoned a (line / 16) = false
  lost : s.coh.lost = []
  small : line < 2 ^ 36

theorem tileWay_cistern (hx : s.allot a = some x) (hp : x.place = 0) (own tile : Nat) (need write : Bool) :
    tileWay own a tile need write s = (s, .ready) := by
  unfold tileWay
  rw [hx]
  exact if_pos hp

/-- The transaction has looked its tile up, and it was no miss. -/
def Trans.seen (t : Trans) : Trans := { t with tried := true, missed := false }

theorem cohTried_cistern (hx : s.allot a = some x) (hp : x.place = 0) (hm : t.missed = false) (tile : Nat) :
    cohTried a tile t s = (s, t.seen) := by
  unfold cohTried Trans.seen
  rw [hx]
  cases ht : t.tried with
  | false => simp [hp]
  | true =>
    cases t
    dsimp only at ht hm
    subst ht hm
    rfl

variable (hr : LineReady s a line x) (hm : t.missed = false)
include hr hm

theorem cohMemRead_ready : cohMemRead (lineKey a line) t s = (s, t.seen, true) := by
  unfold cohMemRead
  rw [keyAllot_lineKey hr.small, keyLine_lineKey hr.small]
  dsimp only
  rw [cohTried_cistern hr.allot hr.place hm]
  dsimp only
  cases hd : t.seen.data.isSome with
  | true => exact if_pos rfl
  | false =>
    rw [if_neg Bool.false_ne_true, tileWay_cistern hr.allot hr.place]
    dsimp only
    rw [hr.sound, if_neg Bool.false_ne_true]

theorem cohMemWrite_ready {start : Nat} (hs : start < 256) (bs : Bytes) : ∃ y : Cistern,
    cohMemWrite (lineKey a line) start bs t s = ({ s with cis := y }, t.seen, true) ∧
      y.pool = s.cis.pool.writeN (poolKey a (256 * line + start)) bs ∧ EngineKept s { s with cis := y } ∧
      LineReady { s with cis := y } a line x := by
  have htile : (256 * line + start) / 4096 = line / 16 := by omega
  have hin : (256 * line + start) % 4096 = 256 * (line % 16) + start := by omega
  obtain ⟨y, hput, hpool, hk, hpo⟩ := putTile_plain (s := s) (a := a) (off := 256 * line + start)
    ⟨hr.allot, hr.place, by rw [htile]; exact hr.sound, hr.plain⟩ bs 4
  refine ⟨y, ?_, hpool, hk, hr.allot, hr.place, hr.plain, hpo _ hr.sound, hr.lost, hr.small⟩
  rw [htile, hin] at hput
  unfold cohMemWrite
  rw [keyAllot_lineKey hr.small, keyLine_lineKey hr.small]
  dsimp only
  rw [cohTried_cistern hr.allot hr.place hm]
  dsimp only
  rw [tileWay_cistern hr.allot hr.place]
  dsimp only
  rw [hr.sound, if_neg Bool.false_ne_true, hput]

end

/-! ### The stages of a transaction -/

section
variable {s v : State} {key a line id type : Nat} {t : Trans} {e : DirEntry} {x : Allot}

/-- Nothing keeps the transaction from going on. -/
structure Trans.Goes (t : Trans) : Prop where
  need : t.need = []
  waits : t.waits = []
  reading : t.reading = false

theorem Trans.Goes.guard (h : t.Goes) : ¬ ((!t.need.isEmpty || !t.waits.isEmpty || t.reading) = true) := by
  obtain ⟨h1, h2, h3⟩ := h
  simp [h1, h2, h3]

/-- Its snoops answered, a line whose entry lists its holders has nothing more to forget. -/
theorem cohMicro_snooped (hg : t.Goes) (h0 : t.stage = 0) (he : e.coarse = false) :
    cohMicro key t (lineAt s key e t) = (lineAt s key e { t with stage := 1 }, true) := by
  unfold cohMicro
  rw [if_neg hg.guard, if_pos h0]
  dsimp only
  have hsame : (if invalidates (lineAt s key e t) key t = true then modEntry key (fun e => if e.st = .shared ∧ e.coarse then e.none_ else e)
      (lineAt s key e t) else lineAt s key e t) = lineAt s key e t := by
    split
    · rw [lineAt_modEntry, if_neg fun h => by simp [he] at h]
    · rfl
  rw [hsame, lineAt_setTrans]

/-- With no snooped data to write the line is read next. -/
theorem cohMicro_clean (hg : t.Goes) (h1 : t.stage = 1) (hd : t.dirty = none) (hst : t.stat = 0) (hl : s.coh.lost = []) (he : e.st ≠ .lost) :
    cohMicro key t (lineAt s key e t) = (lineAt s key e { t with stage := 2 }, true) := by
  unfold cohMicro
  rw [if_neg hg.guard, if_neg (by omega), if_pos h1, hd]
  dsimp only
  rw [lineAt_lost hl he, lineAt_setTrans, hst]
  rfl

/-- Snooped data is written to the line's tile. -/
theorem cohMicro_writes (hr : LineReady s a line x) (hm : t.missed = false) (hg : t.Goes) (h1 : t.stage = 1) {d : Bytes}
    (hd : t.dirty = some d) (hc : covering (lineAt s (lineKey a line) e t) (lineKey a line) t = false) (hw : t.work ≠ .revoke) :
    ∃ y : Cistern, cohMicro (lineKey a line) t (lineAt s (lineKey a line) e t) =
        (lineAt { s with cis := y } (lineKey a line) e { t.seen with dirty := none }, true) ∧
      y.pool = s.cis.pool.writeN (poolKey a (256 * line)) d ∧ EngineKept s { s with cis := y } ∧ LineReady { s with cis := y } a line x := by
  have hr' : LineReady (lineAt s (lineKey a line) e t) a line x := ⟨hr.allot, hr.place, hr.plain, hr.sound, hr.lost, hr.small⟩
  obtain ⟨y, hput, hpool, hk, hy⟩ := cohMemWrite_ready hr' hm (start := 0) (by decide) d
  refine ⟨y, ?_, hpool, ⟨hk.now, hk.kry, rfl, hk.flm, hk.bsn, hk.scr, hk.sec, hk.flt, hk.hlt, hk.switchId, hk.rights, hk.journal, hk.trays,
    hk.locks, hk.regions, hk.handles, hk.pub, hk.prefetch, hk.relocated, hk.want, hk.allot⟩, hy.allot, hy.place, hy.plain, hy.sound, hr.lost,
    hr.small⟩
  have hwork : (t.work == CohWork.revoke) = false := beq_eq_false_iff_ne.2 hw
  unfold cohMicro
  rw [if_neg hg.guard, if_neg (by omega), if_pos h1, hd]
  dsimp only
  rw [hc, hwork, if_neg (by simp), hput]
  dsimp only
  rw [if_pos rfl, show ({ lineAt s (lineKey a line) e t with cis := y } : State) = lineAt { s with cis := y } (lineKey a line) e t from rfl,
    lineAt_setTrans, show t.seen.waits = [] from hg.waits]
  rfl

/-- An agent's read, ownership request or atomic reads memory; so does an upgrade by an agent that is not a sharer. -/
theorem readsMemory_agent (hw : t.work = .agent id type) (he : s.entry key = some e)
    (ht : type = 0x01 ∨ type = 0x02 ∨ type = 0x04 ∨ type = 0x03 ∧ e.ptrs = []) : readsMemory s key t = true := by
  unfold readsMemory
  rw [hw, he]
  dsimp only
  rcases ht with rfl | rfl | rfl | ⟨rfl, h⟩
  · rfl
  · rfl
  · rfl
  · simp [h]

/-- A line to be read waits for MEMORY_READ_COMPLETE. -/
theorem cohMicro_reads (hr : LineReady s a line x) (hm : t.missed = false) (hg : t.Goes) (h2 : t.stage = 2) (hst : t.stat = 0)
    (hw : t.work = .agent id type) (ht : type = 0x01 ∨ type = 0x02 ∨ type = 0x04 ∨ type = 0x03 ∧ e.ptrs = []) :
    cohMicro (lineKey a line) t (lineAt s (lineKey a line) e t) =
      (lineAt s (lineKey a line) e { t.seen with reading := true }, false) := by
  have hr' : LineReady (lineAt s (lineKey a line) e t) a line x := ⟨hr.allot, hr.place, hr.plain, hr.sound, hr.lost, hr.small⟩
  unfold cohMicro
  rw [if_neg hg.guard, if_neg (by omega), if_neg (by omega), if_pos h2, readsMemory_agent hw lineAt_entry ht, if_neg (by decide),
    cohMemRead_ready hr' hm]
  dsimp only
  rw [if_neg (show ¬ t.seen.stat ≠ 0 from not_not.2 hst), if_neg (by decide),
    if_pos (by unfold readsTimed; rw [show t.seen.work = _ from hw]), lineAt_setTrans]

/-- A transaction with nothing to read goes on with its result. -/
theorem cohMicro_skips (hg : t.Goes) (h2 : t.stage = 2) (hn : readsMemory (lineAt s key e t) key t = false) :
    cohMicro key t (lineAt s key e t) = (lineAt s key e { t with
      stage := 3, result := (resultOf (lineAt s key e t) key t).1, prior := (resultOf (lineAt s key e t) key t).2 }, true) := by
  unfold cohMicro
  rw [if_neg hg.guard, if_neg (by omega), if_neg (by omega), if_pos h2, hn, if_pos (by decide)]
  dsimp only
  rw [lineAt_setTrans]

theorem cohMicro_noResult (hg : t.Goes) (h3 : t.stage = 3) (hres : t.result = none) :
    cohMicro key t (lineAt s key e t) = (lineAt s key e { t with stage := 4 }, true) := by
  unfold cohMicro
  rw [if_neg hg.guard, if_neg (by omega), if_neg (by omega), if_neg (by omega), if_pos h3, hres]
  dsimp only
  rw [lineAt_setTrans]

/-- What a transaction computed is written to the line's tile. -/
theorem cohMicro_result (hr : LineReady s a line x) (hm : t.missed = false) (hg : t.Goes) (h3 : t.stage = 3) (hst : t.stat = 0)
    {off : Nat} {bs : Bytes} (hres : t.result = some (off, bs)) (ho : off < 256) :
    ∃ y : Cistern, cohMicro (lineKey a line) t (lineAt s (lineKey a line) e t) =
        (lineAt { s with cis := y } (lineKey a line) e { t.seen with stage := 4 }, true) ∧
      y.pool = s.cis.pool.writeN (poolKey a (256 * line + off)) bs ∧ EngineKept s { s with cis := y } ∧ LineReady { s with cis := y } a line x := by
  have hr' : LineReady (lineAt s (lineKey a line) e t) a line x := ⟨hr.allot, hr.place, hr.plain, hr.sound, hr.lost, hr.small⟩
  obtain ⟨y, hput, hpool, hk, hy⟩ := cohMemWrite_ready hr' hm ho bs
  refine ⟨y, ?_, hpool, ⟨hk.now, hk.kry, rfl, hk.flm, hk.bsn, hk.scr, hk.sec, hk.flt, hk.hlt, hk.switchId, hk.rights, hk.journal, hk.trays,
    hk.locks, hk.regions, hk.handles, hk.pub, hk.prefetch, hk.relocated, hk.want, hk.allot⟩, hy.allot, hy.place, hy.plain, hy.sound, hr.lost,
    hr.small⟩
  unfold cohMicro
  rw [if_neg hg.guard, if_neg (by omega), if_neg (by omega), if_neg (by omega), if_pos h3, hres]
  dsimp only
  rw [if_neg (not_not.2 hst), hput]
  dsimp only
  rw [if_pos rfl, show ({ lineAt s (lineKey a line) e t with cis := y } : State) = lineAt { s with cis := y } (lineKey a line) e t from rfl,
    lineAt_setTrans, show t.seen.waits = [] from hg.waits]
  rfl

theorem cohMicro_ends (hg : t.Goes) (h4 : t.stage = 4) :
    cohMicro key t s = (afterTrans key (((transEnd key t s).trans key).getD t) (transEnd key t s), true) := by
  unfold cohMicro
  rw [if_neg hg.guard, if_neg (by omega), if_neg (by omega), if_neg (by omega), if_neg (by omega)]

/-! ### Running a line -/

theorem cohRun_none (h : s.trans key = none) (n : Nat) : cohRun n key s = s := by
  cases n with
  | zero => rfl
  | succ n =>
    unfold cohRun
    rw [h]

theorem cohRun_goes (ht : s.trans key = some t) (h : cohMicro key t s = (v, true)) (n : Nat) : cohRun (n + 1) key s = cohRun n key v := by
  conv_lhs => unfold cohRun
  rw [ht]
  dsimp only
  rw [h]

theorem cohRun_stops (ht : s.trans key = some t) (h : cohMicro key t s = (v, false)) (n : Nat) : cohRun (n + 1) key s = v := by
  conv_lhs => unfold cohRun
  rw [ht]
  dsimp only
  rw [h]

/-- The last stage of a transaction that nothing waits for: it leaves its line, whose entry goes where nobody holds it. -/
theorem cohRun_ends (hg : t.Goes) (h4 : t.stage = 4) (ht : s.trans key = some t) (hend : transEnd key t s = v)
    (hd : v.coh.dir = [(key, e)]) (hv : v.coh.trans = [(key, t)]) (hl : t.list = []) (n : Nat) :
    (e.unheld = true → cohRun (n + 1) key s = { v with coh := { v.coh with trans := [], dir := [] } }) ∧
      (e.unheld = false → lineRevoked v key = false → cohRun (n + 1) key s = { v with coh := { v.coh with trans := [] } }) := by
  have hkeep : v.trans key = some t := by
    show Tab.get? v.coh.trans key = some t
    rw [hv, Tab.get?_cons, if_pos rfl]
  have hent : Tab.get? v.coh.dir key = some e := by rw [hd, Tab.get?_cons, if_pos rfl]
  have hdel : Tab.del v.coh.trans key = [] := by
    rw [hv]
    simp [Tab.del]
  have hstep := cohMicro_ends (key := key) (s := s) hg h4
  rw [hend, hkeep] at hstep
  rw [cohRun_goes ht hstep]
  refine ⟨fun hu => ?_, fun hu hrev => ?_⟩
  · have hafter : afterTrans key t v = { v with coh := { v.coh with trans := [], dir := [] } } := by
      unfold afterTrans
      rw [hl, hdel]
      dsimp only [State.entry]
      rw [hent]
      dsimp only
      rw [if_pos hu]
      unfold State.delEntry
      dsimp only
      rw [hd]
      simp [Tab.del]
    rw [Option.getD_some, hafter]
    exact cohRun_none rfl n
  · have hafter : afterTrans key t v = { v with coh := { v.coh with trans := [] } } := by
      unfold afterTrans
      rw [hl, hdel]
      dsimp only [State.entry]
      rw [hent]
      dsimp only
      rw [hu, if_neg Bool.false_ne_true]
      exact if_neg fun h => by
        rw [show lineRevoked { v with coh := { v.coh with trans := [] } } key = false from hrev, Bool.false_and] at h
        exact Bool.false_ne_true h
    rw [Option.getD_some, hafter]
    exact cohRun_none rfl n

/-- A transaction whose snoops are answered and that has no data to write begins to read its line. -/
theorem cohRun_reads (hr : LineReady s a line x) (hm : t.missed = false) (hg : t.Goes) (h0 : t.stage = 0) (hd : t.dirty = none)
    (hst : t.stat = 0) (he : e.coarse = false) (hel : e.st ≠ .lost) (hw : t.work = .agent id type)
    (ht : type = 0x01 ∨ type = 0x02 ∨ type = 0x04 ∨ type = 0x03 ∧ e.ptrs = []) (n : Nat) :
    cohRun (n + 3) (lineKey a line) (lineAt s (lineKey a line) e t) =
      lineAt s (lineKey a line) e { t.seen with stage := 2, reading := true } := by
  obtain ⟨g1, g2, g3⟩ := hg
  rw [cohRun_goes lineAt_trans (cohMicro_snooped ⟨g1, g2, g3⟩ h0 he),
    cohRun_goes lineAt_trans (cohMicro_clean (t := { t with stage := 1 }) ⟨g1, g2, g3⟩ rfl hd hst hr.lost hel),
    cohRun_stops lineAt_trans (cohMicro_reads (t := { t with stage := 2 }) hr hm ⟨g1, g2, g3⟩ rfl hst hw ht)]
  rfl

/-- One whose snoops brought the line's data writes it first. -/
theorem cohRun_writes_reads (hr : LineReady s a line x) (hm : t.missed = false) (hg : t.Goes) (h0 : t.stage = 0) {d : Bytes}
    (hd : t.dirty = some d) (hst : t.stat = 0) (he : e.coarse = false) (hel : e.st ≠ .lost) (hw : t.work = .agent id 0x02) (n : Nat) :
    ∃ y : Cistern, cohRun (n + 4) (lineKey a line) (lineAt s (lineKey a line) e t) =
        lineAt { s with cis := y } (lineKey a line) e { t.seen with dirty := none, stage := 2, reading := true } ∧
      y.pool = s.cis.pool.writeN (poolKey a (256 * line)) d ∧ EngineKept s { s with cis := y } := by
  obtain ⟨g1, g2, g3⟩ := hg
  have hcov : covering (lineAt s (lineKey a line) e { t with stage := 1 }) (lineKey a line) { t with stage := 1 } = false := by
    unfold covering coverWork
    rw [show ({ t with stage := 1 } : Trans).work = _ from hw]
    rfl
  obtain ⟨y, hwr, hpool, hk, hr'⟩ := cohMicro_writes (t := { t with stage := 1 }) hr hm ⟨g1, g2, g3⟩ rfl hd hcov (by
    show t.work ≠ .revoke
    rw [hw]
    exact CohWork.noConfusion)
  refine ⟨y, ?_, hpool, hk⟩
  rw [cohRun_goes lineAt_trans (cohMicro_snooped ⟨g1, g2, g3⟩ h0 he), cohRun_goes lineAt_trans hwr,
    cohRun_goes lineAt_trans (cohMicro_clean (t := { Trans.seen { t with stage := 1 } with dirty := none }) ⟨g1, g2, g3⟩ rfl rfl hst hr'.lost hel),
    cohRun_stops lineAt_trans (cohMicro_reads (t := { Trans.seen { t with stage := 1 } with dirty := none, stage := 2 }) hr' rfl ⟨g1, g2, g3⟩ rfl
      hst hw (.inr (.inl rfl)))]
  rfl

/-! ### The end of an agent's request -/

variable {m : CohMsg} {l : Live} {d : Domain} {g : Agent}

theorem sendCoh_heard {die dom b flags status txn snoopId value pva : Nat} {data : Bytes} (hd : s.domain dom = some d) (hg : s.agent dom b = some g)
    (hm : s.mute g.addr = false) : sendCoh die dom b type flags status txn snoopId value pva data s = s.emit (cohOut die d g type
      { (default : CohMsg) with
        flags := flags, domain := dom, status := status, agent := b, agen := g.gen, txn := txn, snoopId := snoopId, pva := pva,
        value := value, data := data }) := by
  unfold sendCoh
  rw [hd, hg]
  dsimp only
  rw [hm, if_neg Bool.false_ne_true]
  rfl

theorem keepResult_eq (f : CohResult) (s : State) : ∃ rs, keepResult f s = { s with coh := { s.coh with results := rs } } := by
  unfold keepResult
  split
  · exact ⟨s.coh.results, rfl⟩
  · exact ⟨_, rfl⟩

theorem cohCount_eq (row idx dom die : Nat) (s : State) : ∃ g, cohCount row idx dom die s = { s with gauges := g } := State.count_eq s _ 1

/-- An agent's final message leaves, and its request with it. -/
theorem cohFinal_ends {op flags value : Nat} {data : Bytes} (hl : s.mem.live = [(id, l)]) (hc : l.coh = some m) (hk : l.kind = .coh op)
    (hj : l.journal = none) (hd : s.domain m.domain = some d) (hg : s.agent m.domain m.agent = some g) (hm : s.mute g.addr = false)
    (hr : s.cis.regions = []) (hh : s.cis.handles = []) (ht : type ≠ 0x3B) : ∃ (rs : List CohResult) (v : State),
      cohFinal id key type flags 0 value data s = v ∧ EngineKept { s with coh := { s.coh with results := rs } } v ∧
      v.out = s.out ++ [cohOut l.home d g type (cohFinish g m flags 0 value (linePva s key) data)] ∧ v.mem.live = [] ∧ v.cis = s.cis := by
  have hlive : s.liveReq id = some l := by
    unfold State.liveReq
    rw [hl, Tab.get?_cons, if_pos rfl]
  have hdel : Tab.del s.mem.live id = [] := by
    rw [hl]
    simp [Tab.del]
  unfold cohFinal
  rw [hlive]
  dsimp only
  rw [hc, hk]
  dsimp only
  rw [sendCoh_heard hd hg hm, if_neg ht, if_neg (show ¬ (0 = St.fenced) by decide), if_neg (show ¬ (0 = St.lineLost) by decide)]
  generalize hw : (if op = 0x04 ∨ op = 0x05 then _ else _ : State) = w
  obtain ⟨rs, hrs⟩ : ∃ rs, w = { s.emit (cohOut l.home d g type (cohFinish g m flags 0 value (linePva s key) data)) with
      coh := { s.coh with results := rs } } := by
    rw [← hw]
    split
    · exact keepResult_eq _ _
    · exact ⟨s.coh.results, rfl⟩
  generalize hz : (if type = 0x30 ∨ type = 0x38 then _ else w : State) = z
  obtain ⟨gs, hgs⟩ : ∃ gs, z = { w with gauges := gs } := by
    rw [← hz]
    split
    · split
      · exact cohCount_eq ..
      · exact cohCount_eq ..
    · exact ⟨w.gauges, rfl⟩
  have hzlive : z.liveReq id = some l := by
    rw [hgs, hrs]
    exact hlive
  obtain ⟨e1, e2, e3, e4, -, -⟩ := endLive_kept hzlive hj (by rw [hgs, hrs]; exact hr) (by rw [hgs, hrs]; exact hh)
  refine ⟨rs, _, rfl, ?_, ?_, ?_, ?_⟩
  · refine EngineKept.trans ?_ e1
    rw [hgs, hrs]
    exact (EngineKept.of_out _).trans (EngineKept.of_gauges gs)
  · rw [e2, hgs, hrs]
    rfl
  · rw [e3, hgs, hrs]
    exact hdel
  · rw [e4, hgs, hrs]
    rfl

/-- A transaction that siphoned nothing and serves an agent's request ends as its TYPE says. -/
theorem transEnd_agent (hw : t.work = .agent id type) (hs : t.siphoned = false) : transEnd key t s = agentEnd key id type t s := by
  unfold transEnd
  rw [hs, hw]
  rfl

end

end Sys2Proof.Machine
end

section
/-! PROOFS. MEMORY_READ_COMPLETE (08 R259, R260, R264). -/
namespace Sys2Proof.Machine

section
variable {s w : State} {key a line id type n : Nat} {t : Trans} {e e' : DirEntry} {x : Allot} {m : CohMsg} {l : Live} {d : Domain} {g : Agent}

theorem length_splice {b c : Bytes} {o : Nat} (h : o + c.length ≤ b.length) : (splice b o c).length = b.length := by
  have hnone : o + c.length - b.length = 0 := by omega
  unfold splice
  dsimp only
  rw [hnone, show zeros 0 = [] from rfl, List.append_nil, List.length_append, List.length_append, List.length_take, List.length_drop]
  omega

/-- What the end of an agent's request leaves of the state `w` in which its final message is sent. -/
structure AgentEnded (w v : State) (key : Nat) (e : DirEntry) (o : Out) : Prop where
  trans : v.coh.trans = []
  dir : v.coh.dir = if e.unheld then [] else [(key, e)]
  live : v.mem.live = []
  out : v.out = w.out ++ [o]
  cis : v.cis = w.cis
  dieQ : v.coh.dieQ = w.coh.dieQ
  still : w.still → v.still

theorem AgentEnded.entry {v : State} {o : Out} (h : AgentEnded w v key e o) : v.entry key = if e.unheld then none else some e := by
  unfold State.entry
  rw [h.dir]
  split
  · rfl
  · rw [Tab.get?_cons, if_pos rfl]

/-- Nothing goes on by itself once the only request has ended. -/
theorem AgentEnded.settle {v : State} {o : Out} (h : AgentEnded w v key e o) (hs : w.still) (hq : w.coh.dieQ = []) :
    settle (cohSettle v) = v := by
  have hlive : ∀ e ∈ v.mem.live, e.2.waits = [] ∧ e.2.stage ≠ 6 ∧ e.2.stage ≠ 8 ∧ e.2.stage ≠ 9 ∧ e.2.stage < 10 := by
    rw [h.live]
    exact fun _ he => absurd he List.not_mem_nil
  rw [cohSettle_still (h.dieQ.trans hq) fun e he => (hlive e he).2.1]
  refine settle_still (h.still hs) ⟨h.dieQ.trans hq, ?_, hlive⟩
  rw [h.trans]
  exact fun _ he => absurd he List.not_mem_nil

/-- The last stage of an agent's transaction, once what it sends is known. -/
theorem cohRun_answers {op flags value : Nat} {data : Bytes} (hg : t.Goes) (h4 : t.stage = 4) (ht : s.trans key = some t)
    (hend : transEnd key t s = cohFinal id key type flags 0 value data w) (hlist : t.list = [])
    (hdir : w.coh.dir = [(key, e)]) (htr : w.coh.trans = [(key, t)]) (hl : w.mem.live = [(id, l)]) (hc : l.coh = some m)
    (hk : l.kind = .coh op) (hj : l.journal = none) (hd : w.domain m.domain = some d) (ha : w.agent m.domain m.agent = some g)
    (hm : w.mute g.addr = false) (hs : w.still) (htype : type ≠ 0x3B) (hx : w.allot (keyAllot key) = some x) (hst : x.st = .active) :
    ∃ v, cohRun (n + 1) key s = v ∧
      AgentEnded w v key e (cohOut l.home d g type (cohFinish g m flags 0 value (linePva w key) data)) := by
  obtain ⟨rs, v, hv, hkept, hout, hlive, hcis⟩ := cohFinal_ends (key := key) (flags := flags) (value := value) (data := data) hl hc hk hj hd ha hm hs.1 hs.2.1 htype
  have hdir' : v.coh.dir = [(key, e)] := by rw [hkept.coh]; exact hdir
  have htr' : v.coh.trans = [(key, t)] := by rw [hkept.coh]; exact htr
  have hq : v.coh.dieQ = w.coh.dieQ := by rw [hkept.coh]
  have hrev : lineRevoked v key = false := by
    obtain ⟨i, hi⟩ := hkept.allot _ x hx
    unfold lineRevoked
    rw [hi, Option.elim_some, hst]
    rfl
  obtain ⟨h1, h2⟩ := cohRun_ends hg h4 ht (hend.trans hv) hdir' htr' hlist n
  cases hu : e.unheld with
  | true => exact ⟨_, h1 hu, rfl, by rw [hu]; rfl, hlive, hout, hcis, hq, hkept.still⟩
  | false => exact ⟨_, h2 hu hrev, rfl, by rw [hu]; exact hdir', hlive, hout, hcis, hq, hkept.still⟩

/-! ### What an agent is answered at the end (Table COH-6) -/

section
variable (hm : (s.liveReq id).bind (·.coh) = some m) (hl : lineLost s key = false) (hst : t.stat = 0)
include hm hl hst

theorem agentEnd_shares : agentEnd key id 0x01 t s =
    cohFinal id key 0x30 0 0 0 (grantBytes s key t) (addGrant key m.agent m.txn true (modEntry key (·.addSharer m.agent) s)) := by
  unfold agentEnd
  rw [hm]
  dsimp only
  rw [hl, if_neg (by decide), if_neg (not_not.2 hst), if_pos rfl]

theorem agentEnd_owns {b : Bytes} (ht : type = 0x02 ∨ type = 0x03) (hd : t.data = some b) : agentEnd key id type t s =
    cohFinal id key 0x30 1 0 0 (grantBytes s key t) (addGrant key m.agent m.txn true (modEntry key (·.own m.agent m.txn) s)) := by
  have hne : type ≠ 0x01 := by omega
  unfold agentEnd
  rw [hm]
  dsimp only
  rw [hl, if_neg (by simp), if_neg (not_not.2 hst), if_neg hne, if_pos ht, hd]
  simp

theorem agentEnd_near (hn : t.near = true) : agentEnd key id 0x04 t s =
    cohFinal id key 0x39 0 0 t.prior [] (cohCount 1 0 t.domain t.die (modEntry key (·.none_) s)) := by
  unfold agentEnd
  rw [hm]
  dsimp only
  rw [hl, if_neg (by decide), if_neg (not_not.2 hst), if_neg (by decide), if_neg (by decide), if_pos rfl, if_pos hn]

theorem agentEnd_far (hn : t.near = false) : agentEnd key id 0x04 t s = cohFinal id key 0x30 1 0 t.prior (grantBytes s key t)
    (cohCount 1 1 t.domain t.die (addGrant key m.agent m.txn true (modEntry key (·.own m.agent m.txn) s))) := by
  unfold agentEnd
  rw [hm]
  dsimp only
  rw [hl, if_neg (by decide), if_neg (not_not.2 hst), if_neg (by decide), if_neg (by decide), if_pos rfl, hn,
    if_neg Bool.false_ne_true]

end

/-! ### The read itself -/

/-- The transaction with its line read and its result computed. -/
def Trans.read (t : Trans) (b : Bytes) (p : Option (Nat × Bytes) × Nat) : Trans :=
  { t with reading := false, data := some b, stage := 3, result := p.1, prior := p.2 }

theorem memoryRead_goes (hd : s.coh.dir = [(key, e)]) (ht : s.coh.trans = [(key, t)]) (hr : t.reading = true)
    {b : Bytes} (hb : lineBytes s key t = b) {p : Option (Nat × Bytes) × Nat} (hp : resultOf s key { t with reading := false, data := some b } = p) :
    memoryRead t.die key s = cohSettle (cohRun lineFuel key (lineAt s key e (t.read b p))) := by
  have htrans : s.trans key = some t := by
    unfold State.trans
    rw [ht, Tab.get?_cons, if_pos rfl]
  have hat := eq_lineAt hd ht
  unfold memoryRead
  rw [htrans]
  dsimp only
  rw [if_pos (by rw [hr, beq_self_eq_true]; rfl), hb, hp]
  conv_lhs => rw [hat]
  rw [lineAt_setTrans]
  rfl

theorem resultOf_reads (hw : t.work = .agent id type) (ht : type = 0x01 ∨ type = 0x02 ∨ type = 0x03) : resultOf s key t = (none, 0) := by
  unfold resultOf
  rw [hw]
  dsimp only
  split
  · rw [if_neg (by omega), if_neg (by omega)]
  · rfl

theorem resultOf_atomic (hw : t.work = .agent id 0x04) (hm : (s.liveReq id).bind (·.coh) = some m) {b : Bytes} (hd : t.data = some b) :
    resultOf s key t = (some (m.offset, toLe 8 (atomicNew m.op (le b m.offset 8) (be m.data 0 8) (be m.data 8 8))), le b m.offset 8) := by
  unfold resultOf lineBytes
  rw [hw, hd]
  dsimp only
  rw [hm]
  rfl

theorem grantBytes_read {b : Bytes} (hb : b.length = 256) (hd : t.data = some b) (hr : t.result = none) : grantBytes s key t = b := by
  unfold grantBytes
  rw [hd, hr]
  exact slice_whole hb

theorem grantBytes_changed {b c : Bytes} {o : Nat} (hb : b.length = 256) (ho : o + c.length ≤ 256) (hd : t.data = some b)
    (hr : t.result = some (o, c)) : grantBytes s key t = splice b o c := by
  unfold grantBytes
  rw [hd, hr]
  exact slice_whole ((length_splice (by omega)).trans hb)

theorem addSharer_unheld (hco : e.coarse = false) (hp : e.ptrs = []) (b : Nat) :
    (e.addSharer b).st = .shared ∧ (e.addSharer b).ptrs = [b] ∧ (e.addSharer b).unheld = false := by
  unfold DirEntry.addSharer DirEntry.unheld
  rw [hco, hp]
  simp

/-! ### An agent's request on its line -/

/-- The state with other grants and gauges. -/
def granted (s : State) (gr : Tab (List Grant)) (gs : List (GaugeKey × Nat)) : State :=
  { s with coh := { s.coh with grants := gr }, gauges := gs }

/-- The one live request is `m` of an agent that hears, for a line that can be read and written at once. -/
structure AgentRequest (s : State) (a line id type : Nat) (x : Allot) (m : CohMsg) (l : Live) (d : Domain) (g : Agent) : Prop where
  ready : LineReady s a line x
  active : x.st = .active
  still : s.still
  dieQ : s.coh.dieQ = []
  live : s.mem.live = [(id, l)]
  coh : l.coh = some m
  kind : l.kind = .coh type
  journal : l.journal = none
  domain : s.domain m.domain = some d
  agent : s.agent m.domain m.agent = some g
  heard : s.mute g.addr = false

theorem AgentRequest.bind (h : AgentRequest s a line id type x m l d g) : (s.liveReq id).bind (·.coh) = some m := by
  unfold State.liveReq
  rw [h.live, Tab.get?_cons, if_pos rfl]
  exact h.coh

/-- A line's tile written, the request is as before. -/
theorem AgentRequest.withCis {y : Cistern} (h : AgentRequest s a line id type x m l d g) (hk : EngineKept s { s with cis := y })
    (hr : LineReady { s with cis := y } a line x) : AgentRequest { s with cis := y } a line id type x m l d g :=
  ⟨hr, h.active, hk.still h.still, h.dieQ, h.live, h.coh, h.kind, h.journal, h.domain, h.agent, h.heard⟩

/-- The last stage of the request's transaction, once what it sends is known. -/
theorem AgentRequest.answers {ty flags value : Nat} {data : Bytes} {gr : Tab (List Grant)} {gs : List (GaugeKey × Nat)}
    (h : AgentRequest s a line id type x m l d g) (hg : t.Goes) (h4 : t.stage = 4) (hlist : t.list = []) (hty : ty ≠ 0x3B)
    (hend : transEnd (lineKey a line) t (lineAt s (lineKey a line) e t) =
      cohFinal id (lineKey a line) ty flags 0 value data (granted (lineAt s (lineKey a line) e' t) gr gs)) :
    ∃ v, cohRun (n + 1) (lineKey a line) (lineAt s (lineKey a line) e t) = v ∧
      AgentEnded (granted (lineAt s (lineKey a line) e' t) gr gs) v (lineKey a line) e'
        (cohOut l.home d g ty (cohFinish g m flags 0 value (x.pva + 256 * line) data)) := by
  obtain ⟨v, hv, hended⟩ := cohRun_answers (n := n) (w := granted (lineAt s (lineKey a line) e' t) gr gs) hg h4 lineAt_trans hend hlist rfl rfl
    h.live h.coh h.kind h.journal h.domain h.agent h.heard h.still hty (by rw [keyAllot_lineKey h.ready.small]; exact h.ready.allot) h.active
  rw [linePva_lineKey (s := granted (lineAt s (lineKey a line) e' t) gr gs) h.ready.small h.ready.allot] at hended
  exact ⟨v, hv, hended⟩

/-- The answer to a read (R259). -/
theorem AgentRequest.shares (h : AgentRequest s a line id 0x01 x m l d g) (hg : t.Goes) (h4 : t.stage = 4) (hlist : t.list = [])
    (hst : t.stat = 0) (hw : t.work = .agent id 0x01) (hsi : t.siphoned = false) (he : e.st ≠ .lost) :
    ∃ gr v, cohRun (n + 1) (lineKey a line) (lineAt s (lineKey a line) e t) = v ∧
      AgentEnded (granted (lineAt s (lineKey a line) (e.addSharer m.agent) t) gr s.gauges) v (lineKey a line) (e.addSharer m.agent)
        (cohOut l.home d g 0x30 (cohFinish g m 0 0 0 (x.pva + 256 * line) (grantBytes (lineAt s (lineKey a line) e t) (lineKey a line) t))) :=
  ⟨_, h.answers hg h4 hlist (by decide) ((transEnd_agent hw hsi).trans (by
    rw [agentEnd_shares (s := lineAt s (lineKey a line) e t) h.bind (lineAt_lost h.ready.lost he) hst, lineAt_modEntry]
    rfl))⟩

/-- The answer to an ownership request. -/
theorem AgentRequest.owns (h : AgentRequest s a line id type x m l d g) (htype : type = 0x02 ∨ type = 0x03) (hg : t.Goes) (h4 : t.stage = 4)
    (hlist : t.list = []) (hst : t.stat = 0) (hw : t.work = .agent id type) (hsi : t.siphoned = false) (he : e.st ≠ .lost) {b : Bytes}
    (hd : t.data = some b) : ∃ gr v, cohRun (n + 1) (lineKey a line) (lineAt s (lineKey a line) e t) = v ∧
      AgentEnded (granted (lineAt s (lineKey a line) (e.own m.agent m.txn) t) gr s.gauges) v (lineKey a line) (e.own m.agent m.txn)
        (cohOut l.home d g 0x30 (cohFinish g m 1 0 0 (x.pva + 256 * line) (grantBytes (lineAt s (lineKey a line) e t) (lineKey a line) t))) :=
  ⟨_, h.answers hg h4 hlist (by decide) ((transEnd_agent hw hsi).trans (by
    rw [agentEnd_owns (s := lineAt s (lineKey a line) e t) h.bind (lineAt_lost h.ready.lost he) hst htype hd, lineAt_modEntry]
    rfl))⟩

/-- The answer to an atomic that ran at the home: the value before it. -/
theorem AgentRequest.near (h : AgentRequest s a line id 0x04 x m l d g) (hg : t.Goes) (h4 : t.stage = 4) (hlist : t.list = [])
    (hst : t.stat = 0) (hw : t.work = .agent id 0x04) (hsi : t.siphoned = false) (he : e.st ≠ .lost) (hn : t.near = true) :
    ∃ gr gs v, cohRun (n + 1) (lineKey a line) (lineAt s (lineKey a line) e t) = v ∧
      AgentEnded (granted (lineAt s (lineKey a line) e.none_ t) gr gs) v (lineKey a line) e.none_
        (cohOut l.home d g 0x39 (cohFinish g m 0 0 t.prior (x.pva + 256 * line) [])) := by
  obtain ⟨gs, hgs⟩ := cohCount_eq 1 0 t.domain t.die (lineAt s (lineKey a line) e.none_ t)
  refine ⟨s.coh.grants, gs, h.answers hg h4 hlist (by decide) ((transEnd_agent hw hsi).trans ?_)⟩
  rw [agentEnd_near (s := lineAt s (lineKey a line) e t) h.bind (lineAt_lost h.ready.lost he) hst hn, lineAt_modEntry, hgs]
  rfl

/-- The answer to an atomic that runs at its agent: ownership, the line as changed and the value before it. -/
theorem AgentRequest.far (h : AgentRequest s a line id 0x04 x m l d g) (hg : t.Goes) (h4 : t.stage = 4) (hlist : t.list = [])
    (hst : t.stat = 0) (hw : t.work = .agent id 0x04) (hsi : t.siphoned = false) (he : e.st ≠ .lost) (hn : t.near = false) :
    ∃ gr gs v, cohRun (n + 1) (lineKey a line) (lineAt s (lineKey a line) e t) = v ∧
      AgentEnded (granted (lineAt s (lineKey a line) (e.own m.agent m.txn) t) gr gs) v (lineKey a line) (e.own m.agent m.txn)
        (cohOut l.home d g 0x30 (cohFinish g m 1 0 t.prior (x.pva + 256 * line) (grantBytes (lineAt s (lineKey a line) e t) (lineKey a line) t))) := by
  obtain ⟨gs, hgs⟩ := cohCount_eq 1 1 t.domain t.die (addGrant (lineKey a line) m.agent m.txn true (lineAt s (lineKey a line) (e.own m.agent m.txn) t))
  refine ⟨(addGrant (lineKey a line) m.agent m.txn true s).coh.grants, gs, h.answers hg h4 hlist (by decide) ((transEnd_agent hw hsi).trans ?_)⟩
  rw [agentEnd_far (s := lineAt s (lineKey a line) e t) h.bind (lineAt_lost h.ready.lost he) hst hn, lineAt_modEntry, hgs]
  rfl

end

/-- Settles O35: the transaction that waits for its read answers its agent with the line as it stands, an atomic having changed it,
and the entry names whoever holds the line from there on. -/
theorem memoryReadsGrantLines : Obligations.MemoryReadsGrantLines := by
  unfold Obligations.MemoryReadsGrantLines
  intro T m s a line id type k mode near x d g r e key l tr old new hs hl hhosts htr hq hsn hlost hpo hd hg hline hx hst hplace hdom hconf hmute hdir
    he hco hptr hwf ends
  have hreq : AgentRequest (s.tick T) a line id type x m l d g := ⟨⟨hx, hplace, hconf, by
    show s.cis.poisoned.contains _ = false
    rw [hpo]
    rfl, hlost, hline⟩, hst, hs, hq, hl, rfl, rfl, rfl, hd, hg, hmute⟩
  have hlen : old.length = 256 := Mem.length_readN ..
  have hread : lineBytes (s.tick T) key tr = old := by
    show readPool s (keyAllot key) (256 * keyLine key) 256 = old
    rw [keyAllot_lineKey hline, keyLine_lineKey hline]
  have hshared : e.st ≠ .lost := by rw [he]; decide
  have hnext {v w : State} {o : Out} {p : Option (Nat × Bytes) × Nat} {e' : DirEntry} (hp : resultOf (s.tick T) key { tr with reading := false, data := some old } = p)
      (hrun : cohRun lineFuel key (lineAt (s.tick T) key e (tr.read old p)) = v) (hend : AgentEnded w v key e' o) (hw : w.still) (hwq : w.coh.dieQ = []) :
      exec (.memoryReadComplete T x.home key) s = .next v := by
    refine congrArg Host.Outcome.next ?_
    show settle (memoryRead tr.die key (s.tick T)) = v
    rw [memoryRead_goes (s := s.tick T) hdir htr rfl hread hp, hrun]
    exact hend.settle hw hwq
  have hplain (ht : type = 0x01 ∨ type = 0x02 ∨ type = 0x03) :=
    resultOf_reads (s := s.tick T) (key := key) (t := { tr with reading := false, data := some old }) rfl ht
  have hfour (htype : type = 0x04) := resultOf_atomic (s := s.tick T) (key := key) (t := { tr with reading := false, data := some old }) (id := id)
    (by rw [← htype]) hreq.bind rfl
  have hchanged (hoff : m.offset ≤ 248) := cohMicro_result (e := e) (t := tr.read old (some (m.offset, new), le old m.offset 8))
    hreq.ready rfl ⟨rfl, rfl, rfl⟩ rfl rfl rfl (by omega)
  refine ⟨fun htype => ?_, fun htype => ?_, fun htype hnear hoff => ?_, fun htype hnear hoff => ?_⟩
  · obtain ⟨hst1, hptr1, hun⟩ := addSharer_unheld hco hptr m.agent
    obtain ⟨gr, v, hv, hend⟩ := AgentRequest.shares (n := 398) (t := { tr.read old (none, 0) with stage := 4 }) (e := e) (htype ▸ hreq) ⟨rfl, rfl, rfl⟩ rfl rfl rfl
      (congrArg _ htype) rfl hshared
    refine ⟨v, e.addSharer m.agent, ⟨hnext (hplain (.inl htype)) ((cohRun_goes lineAt_trans (cohMicro_noResult ⟨rfl, rfl, rfl⟩ rfl rfl) 399).trans hv) hend hs hq,
      hend.trans, hend.live, ?_⟩, ?_, hst1, hptr1, congrArg Cistern.pool hend.cis⟩
    · rw [hend.out, grantBytes_read hlen rfl rfl]
      rfl
    · rw [hend.entry, hun, if_neg Bool.false_ne_true]
  · obtain ⟨gr, v, hv, hend⟩ := AgentRequest.owns (n := 398) (t := { tr.read old (none, 0) with stage := 4 }) (e := e) (b := old) hreq htype
      ⟨rfl, rfl, rfl⟩ rfl rfl rfl rfl rfl hshared rfl
    refine ⟨v, e.own m.agent m.txn, ⟨hnext (hplain (.inr htype)) ((cohRun_goes lineAt_trans (cohMicro_noResult ⟨rfl, rfl, rfl⟩ rfl rfl) 399).trans hv)
      hend hs hq, hend.trans, hend.live, ?_⟩, hend.entry, rfl, rfl, rfl, congrArg Cistern.pool hend.cis⟩
    rw [hend.out, grantBytes_read hlen rfl rfl]
    rfl
  · obtain ⟨y, hmicro, hpool, hk, hy⟩ := hchanged hoff
    obtain ⟨gr, gs, v, hv, hend⟩ := AgentRequest.far (n := 398) (t := { (tr.read old (some (m.offset, new), le old m.offset 8)).seen with stage := 4 })
      (e := e) (htype ▸ hreq.withCis hk hy) ⟨rfl, rfl, rfl⟩ rfl rfl rfl (congrArg _ htype) rfl hshared hnear
    refine ⟨v, e.own m.agent m.txn, ⟨hnext (hfour htype) ((cohRun_goes lineAt_trans hmicro 399).trans hv) hend (hk.still hs) hq,
      hend.trans, hend.live, ?_⟩, hend.entry, rfl, rfl, poolPut_writeN hwf ?_⟩
    · rw [hend.out, grantBytes_changed (b := old) hlen (by rw [length_toLe]; omega) rfl rfl]
      rfl
    · rw [hend.cis]
      exact hpool
  · obtain ⟨y, hmicro, hpool, hk, hy⟩ := hchanged hoff
    obtain ⟨gr, gs, v, hv, hend⟩ := AgentRequest.near (n := 398) (t := { (tr.read old (some (m.offset, new), le old m.offset 8)).seen with stage := 4 })
      (e := e) (htype ▸ hreq.withCis hk hy) ⟨rfl, rfl, rfl⟩ rfl rfl rfl (congrArg _ htype) rfl hshared hnear
    refine ⟨v, ⟨hnext (hfour htype) ((cohRun_goes lineAt_trans hmicro 399).trans hv) hend (hk.still hs) hq,
      hend.trans, hend.live, hend.out⟩, hend.entry, poolPut_writeN hwf ?_⟩
    rw [hend.cis]
    exact hpool

end Sys2Proof.Machine
end

section
/-! PROOFS. Answers to snoops, snoops sent again, and hold windows (08 R259, R262, R263, R267). -/
namespace Sys2Proof.Machine

section
variable {s : State} {key a line sk : Nat} {t : Trans} {e : DirEntry} {x : Allot} {m : CohMsg} {d : Domain} {g : Agent} {n : Snoop}

theorem cohAccept_sound (hg : s.agent m.domain m.agent = some g) (ha : g.addr = m.srcIp) (hq : g.qpn = m.srcQp) (hgen : g.gen = m.agen)
    (hl : g.live = true) : cohAccept m s = (s, true) := by
  unfold cohAccept
  rw [hg]
  dsimp only
  rw [if_neg (by simp [ha, hq]), if_neg (by simp [hgen, hl])]

theorem cohLine_of_line (ht : translate s m.ver m.levee m.pva 256 = some a) (hx : s.allot a = some x) (hf : x.flags = 1)
    (hd : x.domain = m.domain) (hal : x.pva % 256 = 0) (hp : m.pva = x.pva + 256 * line) : cohLine m s = some (lineKey a line) := by
  have hco : x.coherent = true := by
    unfold Allot.coherent
    rw [hf]
    decide
  have hmod : m.pva % 256 = 0 := by omega
  have hdiv : (m.pva - x.pva) / 256 = line := by omega
  unfold cohLine
  rw [ht, Option.bind_some, hx, Option.bind_some, hco, hd, hmod, hdiv]
  simp

theorem lineHome_lineKey (h : line < 2 ^ 36) (hx : s.allot a = some x) : lineHome s (lineKey a line) = (x.home, x.domain) := by
  unfold lineHome
  rw [keyAllot_lineKey h, hx]
  rfl

/-- What an answer to a snoop does to the entry. -/
def snooped (n : Snoop) (wbSent : Bool) (e : DirEntry) : DirEntry :=
  if n.type = 0x22 then
    (if e.st = .owned ∧ e.owner = n.agent then (if wbSent then e.none_ else { e.none_ with ptrs := [n.agent] }) else e)
  else e.drop n.agent

/-- What an answer to a snoop does to the transaction. -/
def Trans.answered (t : Trans) (n : Snoop) (data : Option Bytes) (wbSent : Bool) : Trans :=
  { t with
    need := t.need.filter (· != n.agent), wbSent := t.wbSent || wbSent,
    dirty := if n.type = 0x20 then t.dirty else if data.isSome then data else t.dirty }

/-- The state without its snoops. -/
def noSnoops (s : State) : State := { s with coh := { s.coh with snoops := [] } }

theorem snoopAnswered_goes (hsn : s.coh.snoops = [(sk, n)]) (hd : s.coh.dir = [(n.line, e)]) (ht : s.coh.trans = [(n.line, t)])
    (data : Option Bytes) (wbSent : Bool) : snoopAnswered sk n data wbSent s =
      cohSettle (cohRun lineFuel n.line (lineAt (noSnoops s) n.line (snooped n wbSent e) (t.answered n data wbSent))) := by
  have hdel : Tab.del s.coh.snoops sk = [] := by
    rw [hsn]
    simp [Tab.del]
  have hat : noSnoops s = lineAt (noSnoops s) n.line e t := eq_lineAt hd ht
  unfold snoopAnswered
  rw [hdel]
  dsimp only
  rw [show ({ s with coh := { s.coh with snoops := [] } } : State) = lineAt (noSnoops s) n.line e t from hat, lineAt_trans]
  dsimp only
  rw [lineAt_modEntry, lineAt_setTrans]
  rfl

/-- A snoop's answer from its agent, for the line it was sent for. -/
theorem snoopReply_outstanding {k : Nat} (hacc : cohAccept m s = (s, true)) (hline : cohLine m s = some key)
    (hsk : snoopKey (lineHome s key).1 (m.snoopId % 16384) m.agent = sk) (hsn : s.coh.snoops = [(sk, n)]) (hn : n.line = key)
    (hk : n.sent = some k) (data : Option Bytes) : snoopReply m data s =
      if data.isNone && bitOf m.flags 0 then
        if n.gotWb then snoopAnswered sk n none true s
        else { s with coh := { s.coh with snoops := [(sk, { n with awaitWb := true })] } }
      else snoopAnswered sk n data n.gotWb s := by
  unfold snoopReply
  rw [hacc]
  dsimp only
  rw [hline]
  dsimp only
  rw [hsk, hsn, Tab.get?_cons, if_pos rfl]
  dsimp only
  rw [if_neg (by simp [hn, hk])]
  simp [Tab.set]

/-- The state with this one snoop outstanding. -/
def withSnoop (s : State) (sk : Nat) (n : Snoop) : State := { s with coh := { s.coh with snoops := [(sk, n)] } }

/-- The message of snoop `n` to its agent. -/
def snoopOut (d : Domain) (g : Agent) (sk pva : Nat) (n : Snoop) : Out :=
  cohOut n.die d g n.type { (default : CohMsg) with
    domain := n.domain, agent := n.agent, agen := g.gen, snoopId := sk / 4096 % 16384, pva := pva }

/-- A snoop that is recorded is sent to its agent. -/
theorem emitSnoop_heard (hsn : s.coh.snoops = [(sk, n)]) (hd : s.domain n.domain = some d) (hg : s.agent n.domain n.agent = some g)
    (hm : s.mute g.addr = false) :
    emitSnoop sk s = (withSnoop s sk { n with sent := some s.now }).emit (snoopOut d g sk (linePva s n.line) n) := by
  have hset : { s with coh := { s.coh with snoops := Tab.set [(sk, n)] sk { n with sent := some s.now } } } = withSnoop s sk { n with sent := some s.now } := by
    simp [withSnoop, Tab.set]
  unfold emitSnoop
  rw [hsn, Tab.get?_cons, if_pos rfl]
  dsimp only
  rw [hset, sendCoh_heard (s := withSnoop s sk { n with sent := some s.now }) hd hg hm]
  rfl

/-- With nothing waiting and the requests where they begin, nothing goes on by itself. -/
theorem settle_begun (hs : s.still) (hq : s.coh.dieQ = []) (ht : ∀ e ∈ s.coh.trans, e.2.waits = [])
    (hl : ∀ e ∈ s.mem.live, e.2.waits = [] ∧ e.2.stage = 0) : settle s = s :=
  settle_still hs ⟨hq, ht, fun e he => by
    obtain ⟨h1, h2⟩ := hl e he
    exact ⟨h1, by omega⟩⟩

theorem settle_lineAt (hs : s.still) (hq : s.coh.dieQ = []) (ht : t.waits = []) (hl : ∀ e ∈ s.mem.live, e.2.waits = [] ∧ e.2.stage = 0) :
    settle (cohSettle (lineAt s key e t)) = lineAt s key e t := by
  rw [cohSettle_still (s := lineAt s key e t) hq fun e he h6 => absurd ((hl e he).2.symm.trans h6) (by decide)]
  exact settle_begun (s := lineAt s key e t) hs hq (List.forall_mem_singleton.2 ht) hl

/-- SNOOP_RETRANSMIT of a snoop that is outstanding. -/
theorem snoopRetransmit_due {die k at0 : Nat} (hsk : sk = die * 16384 * 4096 + k) (hsn : s.coh.snoops = [(sk, n)]) (hn : n.sent = some at0) :
    (s.now < at0 + snoopRetx s die → snoopRetransmit die k s = s) ∧
      (at0 + snoopRetx s die ≤ s.now → n.resent < snoopLimit s die → snoopRetransmit die k s =
        cohCount 0 3 n.domain die (emitSnoop sk (withSnoop s sk { n with resent := n.resent + 1 }))) := by
  unfold snoopRetransmit
  rw [← hsk, hsn]
  dsimp only
  rw [Tab.get?_cons, if_pos rfl]
  dsimp only
  rw [hn, Option.elim_some]
  refine ⟨fun h => if_pos (decide_eq_true h), fun h hr => ?_⟩
  rw [if_neg (by simpa using h), if_pos hr, ← hn]
  simp [withSnoop, Tab.set]

/-- HOLD_WINDOW_EXPIRY for the one snoop that a window holds back. -/
theorem holdExpiry_one (hsn : s.coh.snoops = [(sk, n)]) (hs : n.sent = none) (hline : n.line = key) :
    holdExpiry n.die key s = if holding s n.domain key n.agent then s else emitSnoop sk s := by
  unfold holdExpiry
  dsimp only
  rw [hsn, List.filter_cons, hs, hline]
  simp only [beq_self_eq_true, Option.isNone_none, Bool.and_self, Bool.true_and, Bool.not_eq_true', List.filter_nil]
  cases holding s n.domain key n.agent with
  | true => rfl
  | false => rfl

theorem holding_of_grant {b at0 : Nat} {w : Bool} (ht : s.trans key = some t) (hm : t.mode ≠ 2) (hg : s.coh.grants = [(key, [⟨b, 0, w, at0⟩])]) (dom : Nat) :
    holding s dom key b = decide (s.now < at0 + ns 512) := by
  unfold holding lineMode
  rw [ht, hg, Option.elim_some, Tab.getD, Tab.get?_cons, if_pos rfl]
  simp [hm]

end

/-- Settles O36: an answer that brings the line's data writes it to the line's tile and lets the transaction read on, one without data
lets it read on, an unanswered snoop is sent again in its time, and one held back leaves when its window ends. -/
theorem snoopsAreAnsweredAndRepeated : Obligations.SnoopsAreAnsweredAndRepeated := by
  unfold Obligations.SnoopsAreAnsweredAndRepeated
  intro T p s a line id k b _ x d g m2 r e n u m key l tr sk again hs hl htr hq hsn hnline hnagent hndom hndie hm2 hb hm2d hk hagent hlost hpo hd
    hg hgen hlive haddr hqpn hline hal hpva htrans hx hst hplace hflags hdom hconf hmute hdir hco hsnoop goesOn
  have hready : LineReady (noSnoops (atEngine T p s)) a line x := ⟨hx, hplace, hconf, by
    show s.cis.poisoned.contains _ = false
    rw [hpo]
    rfl, hlost, hline⟩
  have hacc : cohAccept m (atEngine T p s) = (atEngine T p s, true) := cohAccept_sound (s := atEngine T p s) hg haddr hqpn hgen hlive
  have hcl : cohLine m (atEngine T p s) = some key := cohLine_of_line (s := atEngine T p s) htrans hx hflags hdom hal hpva
  have hkey : snoopKey (lineHome (atEngine T p s) key).1 (m.snoopId % 16384) m.agent = sk := by
    rw [lineHome_lineKey hline (s := atEngine T p s) hx, hsnoop, Nat.mod_eq_of_lt hk]
  have hreply (at0 : Nat) (h : n.sent = some at0) := snoopReply_outstanding (s := atEngine T p s) hacc hcl hkey hsn hnline h
  have hbegun (v : State) (hv : v.still) (hvq : v.coh.dieQ = []) (hvt : ∀ e ∈ v.coh.trans, e.2.waits = []) (hvl : v.mem.live = s.mem.live) :
      settle v = v := settle_begun hv hvq hvt (by
    rw [hvl, hl]
    exact List.forall_mem_singleton.2 ⟨rfl, rfl⟩)
  have hanswered (data : Option Bytes) (wb : Bool) := snoopAnswered_goes (s := atEngine T p s) (sk := sk) (n := n) (e := e) (t := tr) hsn
    (by rw [hnline]; exact hdir) (by rw [hnline]; exact htr) data wb
  rw [hnline] at hanswered
  have hgoes (data : Option Bytes) (wb : Bool) : (tr.answered n data wb).Goes := ⟨by
    show [m.agent].filter (· != n.agent) = []
    rw [hnagent]
    simp, rfl, rfl⟩
  have hagain (w : State) (hw : w.allot a = some x) : snoopOut d g sk (linePva w n.line) n = again := by
    have hid : sk / 4096 % 16384 = k := by
      simp only [sk, snoopKey]
      omega
    unfold snoopOut
    rw [hnline, linePva_lineKey hline hw, hid, hndie, hndom, hnagent]
  have hbusy : s.trans key = some tr := by
    unfold State.trans
    rw [htr, Tab.get?_cons, if_pos rfl]
  have hwaits : ∀ e ∈ s.coh.trans, e.2.waits = [] := by
    rw [htr]
    exact List.forall_mem_singleton.2 rfl
  have hndomain : s.domain n.domain = some d := by rw [hndom]; exact hd
  have hnag : s.agent n.domain n.agent = some g := by rw [hndom, hnagent]; exact hg
  have hlives : ∀ e ∈ s.mem.live, e.2.waits = [] ∧ e.2.stage = 0 := by
    rw [hl]
    exact List.forall_mem_singleton.2 ⟨rfl, rfl⟩
  refine ⟨fun at0 hown howner htype hsent hgot hwf hdata => ?_, fun at0 hsh hptr htype hsent hflag => ?_, fun at0 hsent hgot hflag => ?_,
    fun at0 hsent => ⟨fun hearly => ?_, fun hlate hres => ?_⟩, fun hsent at0 hgr hmode => ⟨fun hearly => ?_, fun hlate => ?_⟩⟩
  · have hdrop : snooped n false e = e.none_ := by
      unfold snooped DirEntry.drop
      rw [if_neg (by rw [htype]; decide), if_pos hown, if_pos (howner.trans hnagent.symm)]
    have hdirty : (tr.answered n (some (slice m.data 0 256)) false).dirty = some (slice m.data 0 256) := by
      unfold Trans.answered
      dsimp only
      rw [if_neg (by rw [htype]; decide)]
      rfl
    obtain ⟨y, hrun, hpool, hk⟩ := cohRun_writes_reads (e := e.none_) (id := id) hready (t := tr.answered n (some (slice m.data 0 256)) false) rfl
      (hgoes _ _) rfl hdirty rfl rfl (by exact LineState.noConfusion) rfl 396
    have hexec : exec (.cSnpData T p) s = .next (settle (cohSettle (cohRun (396 + 4) key (lineAt (noSnoops (atEngine T p s)) key e.none_
        (tr.answered n (some (slice m.data 0 256)) false))))) := by
      refine congrArg (fun v => Host.Outcome.next (settle v)) ?_
      rw [hreply at0 hsent, if_neg (by simp), hgot, hanswered, hdrop]
      rfl
    rw [hrun, settle_lineAt (hk.still hs) hq rfl hlives] at hexec
    refine ⟨_, hexec, ⟨rfl, _, _, lineAt_trans, (hgoes (some (slice m.data 0 256)) false).need, rfl, lineAt_entry, rfl, rfl⟩, poolPut_writeN hwf ?_⟩
    rw [slice_whole hdata] at hpool
    exact hpool
  · have hdrop : snooped n n.gotWb e = { e with ptrs := [] } := by
      unfold snooped DirEntry.drop
      rw [if_neg (by rw [htype]; decide), if_neg (by rw [hsh]; decide), hptr, hnagent]
      simp
    have hclean : (tr.answered n none n.gotWb).dirty = none := if_pos htype
    have hrun := cohRun_reads (e := { e with ptrs := [] }) (id := id) hready (t := tr.answered n none n.gotWb) rfl (hgoes _ _) rfl hclean rfl hco
      (by show e.st ≠ .lost; rw [hsh]; exact LineState.noConfusion) rfl (.inr (.inl rfl)) 397
    have hexec : exec (.cSnpAck T p) s = .next (settle (cohSettle (cohRun (397 + 3) key (lineAt (noSnoops (atEngine T p s)) key { e with ptrs := [] }
        (tr.answered n none n.gotWb))))) := by
      refine congrArg (fun v => Host.Outcome.next (settle v)) ?_
      rw [hreply at0 hsent, if_neg (by simp [hflag]), hanswered, hdrop]
      rfl
    rw [hrun, settle_lineAt (s := noSnoops (atEngine T p s)) hs hq rfl hlives] at hexec
    exact ⟨_, hexec, ⟨rfl, _, _, lineAt_trans, (hgoes none n.gotWb).need, rfl, lineAt_entry, by unfold DirEntry.unheld; simp [hsh, hco], rfl⟩, rfl⟩
  · intro w
    refine congrArg Host.Outcome.next ?_
    show settle (snoopReply m none (atEngine T p s)) = _
    rw [hreply at0 hsent, if_pos (by simp [hflag]), hgot, if_neg Bool.false_ne_true]
    exact hbegun _ hs hq hwaits rfl
  · exact congrArg Host.Outcome.next ((snoopRetransmit_due (s := s.tick T) (sk := sk) (by simp only [sk, snoopKey]; ring) hsn hsent).1 hearly)
  · have hdue := (snoopRetransmit_due (s := s.tick T) (sk := sk) (die := x.home) (k := k * 4096 + m.agent) (by simp only [sk, snoopKey]; ring) hsn hsent).2 hlate hres
    rw [emitSnoop_heard (s := withSnoop (s.tick T) sk { n with resent := n.resent + 1 }) rfl hndomain hnag hmute] at hdue
    obtain ⟨gs, hgs⟩ := cohCount_eq 0 3 n.domain x.home ((withSnoop (withSnoop (s.tick T) sk { n with resent := n.resent + 1 }) sk
      { n with resent := n.resent + 1, sent := some u.now }).emit (snoopOut d g sk (linePva (s.tick T) n.line) n))
    exact ⟨_, congrArg Host.Outcome.next (hdue.trans hgs), congrArg (fun o => s.out ++ [o]) (hagain (s.tick T) hx), rfl, rfl⟩
  · refine congrArg Host.Outcome.next ?_
    show settle (holdExpiry x.home key (s.tick T)) = _
    rw [← hndie, holdExpiry_one (s := s.tick T) hsn hsent hnline, holding_of_grant (s := s.tick T) (t := tr) hbusy hmode (hnagent ▸ hgr), if_pos (decide_eq_true hearly)]
    exact hbegun _ hs hq hwaits rfl
  · have hexec : exec (.holdWindowExpiry T x.home key) s = .next (settle (emitSnoop sk (s.tick T))) := by
      refine congrArg (fun v => Host.Outcome.next (settle v)) ?_
      show holdExpiry x.home key (s.tick T) = _
      rw [← hndie, holdExpiry_one (s := s.tick T) hsn hsent hnline, holding_of_grant (s := s.tick T) (t := tr) hbusy hmode (hnagent ▸ hgr),
        if_neg (by rw [decide_eq_true_iff]; exact Nat.not_lt.2 hlate)]
    rw [emitSnoop_heard (s := s.tick T) hsn hndomain hnag hmute,
      hbegun ((withSnoop (s.tick T) sk { n with sent := some u.now }).emit (snoopOut d g sk (linePva (s.tick T) n.line) n)) hs hq hwaits rfl] at hexec
    exact ⟨_, hexec, congrArg (fun o => s.out ++ [o]) (hagain (s.tick T) hx), rfl⟩

end Sys2Proof.Machine
end

section
/-! PROOFS. Requests of agents and write-backs on a line that nobody or one agent holds (08 R253, R256–R260, R264). -/
namespace Sys2Proof.Machine

section
variable {s v : State} {key a line id type n : Nat} {t : Trans} {e : DirEntry} {x : Allot} {m : CohMsg} {l : Live} {d : Domain} {g : Agent}

/-! ### Released to its line -/

/-- What a request that has been released does next: its line, or its end where its allotment cannot be reached. -/
def lineReleased (id op : Nat) (l : Live) (m : CohMsg) (s : State) : State :=
  match s.allot l.allot with
  | some x =>
    if allotFenced s x then cohFinal id (lineKey l.allot ((m.pva - x.pva) / 256)) 0x39 0 St.fenced 0 [] s
    else agentRequest id (lineKey l.allot ((m.pva - x.pva) / 256)) op s
  | none => endLive id s

/-- A request of the directory is added and goes to its line. -/
theorem releaseReq_coh {op : Nat} (h : HostState) (hk : l.kind = .coh op) (hc : l.coh = some m) (hx : s.allot l.allot = some x)
    (hp : x.place = 0) (hline : (m.pva - x.pva) / 256 = line) : releaseReq l h s =
      cohSettle (cohEnter (lineKey l.allot line) (.agent s.mem.nextLive op) (addLive l (countRelease l h s))) := by
  have hb := countRelease_before (s := s) l h
  have hadd : ({ countRelease l h s with mem := { (countRelease l h s).mem with
      nextLive := s.mem.nextLive + 1, live := Tab.set (countRelease l h s).mem.live s.mem.nextLive l } } : State) = addLive l (countRelease l h s) := by
    unfold addLive
    rw [hb.next]
  obtain ⟨i, hi⟩ := hb.kept.allot _ x hx
  have hbind : ((addLive l (countRelease l h s)).liveReq s.mem.nextLive).bind (·.coh) = some m := by
    show (Tab.get? (Tab.set (countRelease l h s).mem.live (countRelease l h s).mem.nextLive l) _).bind (·.coh) = _
    rw [hb.next, Tab.get?_set_self]
    exact hc
  have hallot : (addLive l (countRelease l h s)).allot l.allot = some { x with inflight := i } := hi
  have hstep : releaseReq l h s = lineReleased s.mem.nextLive op l m (addLive l (countRelease l h s)) := by
    rw [← hadd]
    unfold releaseReq
    rw [hk, hc]
    rfl
  rw [hstep]
  unfold lineReleased
  rw [hallot]
  dsimp only
  rw [allotFenced_cistern (x := { x with inflight := i }) hp, if_neg Bool.false_ne_true, hline]
  unfold agentRequest
  rw [hbind]

/-- The live request that an agent's message makes. -/
def cohLive (type : Nat) (m : CohMsg) (a : Nat) (x : Allot) : Live where
  kind := .coh type
  req :=
    { port := m.port, die := m.die, net := { (default : Net) with srcIp := m.srcIp, srcQp := m.srcQp }, cls := m.cls,
      levee := x.levee, ver := m.ver, queue := 0, seq := m.txn, pva := m.pva, length := 256, op := m.op, flags := 0,
      retQp := m.srcQp, handle := 0, data := m.data }
  coh := some m
  allot := a
  home := x.home

/-- A request of an agent that nothing refuses is under way on its line. -/
theorem cohRequest_enters (hacc : cohAccept m s = (s, true)) (hcl : cohLine m s = some (lineKey a line)) (hline : line < 2 ^ 36)
    (hx : s.allot a = some x) (hst : x.st = .active) (hp : x.place = 0) (hpva : m.pva = x.pva + 256 * line) (hl : s.mem.live = [])
    (hh : s.mem.hosts = []) (hr : s.mem.rights = []) (hf : findResult s type m = none)
    (h4 : type = 0x04 → m.op ≤ 2 ∧ m.offset % 8 = 0 ∧ m.offset ≤ 248) : ∃ v : State,
      cohRequest type m s = settle (cohSettle (cohEnter (lineKey a line) (.agent s.mem.nextLive type) v)) ∧ EngineKept s v ∧
      v.out = s.out ∧ v.cis = s.cis ∧ v.mem.live = [(s.mem.nextLive, cohLive type m a x)] := by
  have hsame : sameRequest s m = false := by
    unfold sameRequest
    rw [hl, hh]
    rfl
  have hdiv : (m.pva - x.pva) / 256 = line := by omega
  have hatomic : ¬ (type = 0x04 ∧ (2 < m.op ∨ m.offset % 8 ≠ 0 ∨ 248 < m.offset)) := fun ⟨ht, h⟩ => by
    obtain ⟨h1, h2, h3⟩ := h4 ht
    omega
  obtain ⟨h, hrel⟩ := waterRight_releases (cohLive type m a x) hr hh
  have hb := countRelease_before (s := s.inflightAdd 9 m.ver) (cohLive type m a x) h
  have hcoh := releaseReq_coh (l := cohLive type m a x) (s := s.inflightAdd 9 m.ver) h rfl rfl hx hp hdiv
  refine ⟨addLive (cohLive type m a x) (countRelease (cohLive type m a x) h (s.inflightAdd 9 m.ver)), Eq.trans ?_ (congrArg settle (hrel.trans hcoh)),
    (State.inflightAdd_kept 9 _).trans (hb.kept.trans (EngineKept.of_mem rfl rfl rfl (fun h => h) fun _ x h => ⟨x.inflight, h⟩)),
    hb.out, hb.cis, ?_⟩
  rotate_left
  · show Tab.set (countRelease _ h _).mem.live (countRelease _ h _).mem.nextLive _ = _
    rw [hb.live, hb.next, show (s.inflightAdd 9 m.ver).mem.live = [] from hl]
    rfl
  unfold cohRequest
  rw [hacc]
  dsimp only
  rw [hcl]
  dsimp only
  rw [keyAllot_lineKey hline, hx]
  dsimp only
  rw [hsame, if_neg Bool.false_ne_true, hf]
  dsimp only
  rw [if_neg (by rw [hst]; decide), allotFenced_cistern hp, if_neg Bool.false_ne_true, if_neg hatomic]
  rfl

/-! ### A transaction starts -/

theorem freeTracker_first (ht : s.coh.trans = []) (die : Nat) : freeTracker s die = some 0 := by
  obtain ⟨n, hn⟩ : ∃ n, 16384 = n + 1 := ⟨16383, rfl⟩
  unfold freeTracker
  rw [ht, hn, List.range_succ_eq_map, List.find?_cons]
  rfl

theorem wayFor_empty (hd : s.coh.dir = []) (die key : Nat) : wayFor s die key = .free := by
  unfold wayFor
  dsimp only
  rw [hd, List.filter_nil]
  exact if_pos (by decide)

/-- Nothing keeps a request on a line of its own from starting at once. -/
theorem cohEnter_starts (ht : s.coh.trans = []) (hd : s.coh.dir = [] ∨ s.coh.dir = [(key, e)]) :
    cohEnter key (.agent id type) s = cohRun lineFuel key (startTrans key (.agent id type) (some 0) [] s) := by
  have hnone : s.trans key = none := by
    unfold State.trans
    rw [ht]
    rfl
  unfold cohEnter
  rw [hnone]
  dsimp only
  rw [freeTracker_first ht]
  dsimp only
  split
  · rfl
  · next h =>
    rcases hd with hd | hd
    · rw [wayFor_empty hd]
    · refine absurd ?_ h
      unfold State.entry
      rw [hd, Tab.get?_cons, if_pos rfl]
      rfl

/-- The transaction of an agent's request as it starts, with no snoop to send. -/
def agentTrans (s : State) (x : Allot) (id type : Nat) (near : Bool) : Trans :=
  { die := x.home, domain := x.domain, work := .agent id type, tracker := some 0, near := near, mode := domMode s x.domain }

theorem ownAgain_shared (hm : (s.liveReq id).bind (·.coh) = some m) (hk : (s.liveReq id).map (·.kind) = some (.coh type))
    (he : ∀ e, s.entry key = some e → e.st = .shared) : ownAgain s key (.agent id type) = (.agent id type, 0) := by
  unfold ownAgain
  obtain ⟨l, hl, hc⟩ := Option.bind_eq_some_iff.1 hm
  dsimp only
  rw [hl] at hk ⊢
  dsimp only
  rw [hc, show l.kind = .coh type from Option.some_inj.1 hk]
  dsimp only
  cases hent : s.entry key with
  | none => rfl
  | some e =>
    dsimp only
    rw [he e hent]
    rfl

/-- No holder but the agent itself: there is nothing to snoop. -/
theorem snoopsFor_alone (hm : (s.liveReq id).bind (·.coh) = some m) (hst : e.st = .shared) (hco : e.coarse = false)
    (hp : ∀ b ∈ e.ptrs, b = m.agent) (h4 : type = 0x04 → e.ptrs = []) (dom : Nat) (near : Bool) :
    snoopsFor s dom key (some e) (.agent id type) near = [] := by
  have hhold : holders s dom e = e.ptrs := by
    unfold holders
    rw [hst]
    dsimp only
    rw [hco, if_neg Bool.false_ne_true]
  have hothers : e.ptrs.filter (· != m.agent) = [] := List.filter_eq_nil_iff.2 fun b hb h => by
    rw [hp b hb] at h
    simp at h
  unfold snoopsFor
  dsimp only
  rw [hhold, hm, Option.elim_some, hothers, hst]
  split
  · rfl
  · split
    · rfl
    · split
      · next h =>
        rw [h4 h]
        cases near <;> rfl
      · split <;> rfl

/-- The predictor's effect on a line's entry. -/
theorem predict_alone (he : s.entry key = some e) : ∃ pr near,
    predict key (.agent id type) false s = (if type = 0x04 then s.setEntry key { e with pred := pr } else s, near) := by
  unfold predict
  rw [he]
  dsimp only
  split
  · exact ⟨_, _, rfl⟩
  · exact ⟨0, _, rfl⟩

/-- The state with this one line in the directory. -/
def withEntry (s : State) (key : Nat) (e : DirEntry) : State := { s with coh := { s.coh with dir := [(key, e)] } }

/-- The entry of a line as a transaction on it starts: the one that stands there, or a new one. -/
def EntryBegun (s : State) (key : Nat) (e : DirEntry) : Prop :=
  (s.coh.dir = [] ∧ e = { st := .shared, pred := 2, lru := s.now }) ∨ ∃ e0, s.coh.dir = [(key, e0)] ∧ e = { e0 with lru := s.now }

/-- The state as a transaction begins on its line: the entry is in use, and made where the work needs one. -/
def begunEntry (key : Nat) (work : CohWork) (s : State) : State :=
  match s.entry key with
  | some e => s.setEntry key { e with lru := s.now }
  | none => if allocates work && !lineLost s key then s.setEntry key { st := .shared, pred := 2, lru := s.now } else s

/-- The data a transaction has to write from the start. -/
def workData (w : CohWork) : Option Bytes :=
  match w with
  | .wb m => some (slice m.data 0 256)
  | _ => none

/-- The transaction set on its line, its snoops sent. -/
def launch (die dom key : Nat) (work : CohWork) (tracker : Option Nat) (list : List CohWork) (stat : Nat) (p : State × Bool) : State :=
  let s := p.1
  let sn := if lineLost s key || stat != 0 then [] else snoopsFor s dom key (s.entry key) work p.2
  let t : Trans :=
    { die := die, domain := dom, work := work, tracker := tracker, near := p.2, need := sn.map (·.1), dirty := workData work, list := list,
      stat := stat, mode := domMode s dom }
  sn.foldl (fun s p => addSnoop die dom key (tracker.getD 0) (work == .revoke) p s) (s.setTrans key t)

theorem startTrans_eq {die dom : Nat} {work work' : CohWork} {tracker : Option Nat} {list : List CohWork} (hhome : lineHome s key = (die, dom))
    (hown : ownAgain s key work = (work', 0)) : startTrans key work tracker list s =
      launch die dom key work' tracker list 0 (predict key work' (!list.isEmpty) (begunEntry key work' s)) := by
  unfold startTrans
  rw [hhome]
  dsimp only
  rw [hown]
  rfl

theorem launch_alone {die dom : Nat} {work : CohWork} {tracker : Option Nat} {near : Bool} (he : s.coh.dir = [(key, e)]) (ht : s.coh.trans = [])
    (hl : lineLost s key = false) (hsn : snoopsFor s dom key (some e) work near = []) : launch die dom key work tracker [] 0 (s, near) =
      lineAt s key e { die := die, domain := dom, work := work, tracker := tracker, near := near, dirty := workData work, mode := domMode s dom } := by
  have hent : s.entry key = some e := by
    unfold State.entry
    rw [he, Tab.get?_cons, if_pos rfl]
  unfold launch
  dsimp only
  rw [hl, hent, hsn]
  simp only [lineAt, State.setTrans, ht, ← he]
  rfl

theorem begunEntry_begun {work : CohWork} (ha : s.coh.dir = [] → allocates work = true) (hlost : s.coh.lost = []) (hb : EntryBegun s key e) :
    begunEntry key work s = withEntry s key e := by
  unfold begunEntry
  rcases hb with ⟨hd, he⟩ | ⟨e0, hd, he⟩
  · have hnone : s.entry key = none := by
      unfold State.entry
      rw [hd]
      rfl
    have hlost' : lineLost s key = false := by
      unfold lineLost
      rw [hlost, hnone]
      rfl
    rw [hnone]
    dsimp only
    rw [hlost', ha hd, he]
    simp [State.setEntry, withEntry, hd, Tab.set]
  · have hsome : s.entry key = some e0 := by
      unfold State.entry
      rw [hd, Tab.get?_cons, if_pos rfl]
    rw [hsome, he]
    simp [State.setEntry, withEntry, hd, Tab.set]

theorem withEntry_entry : (withEntry s key e).entry key = some e := by
  show Tab.get? [(key, e)] key = some e
  rw [Tab.get?_cons, if_pos rfl]

theorem withEntry_lost (hl : s.coh.lost = []) (he : e.st ≠ .lost) : lineLost (withEntry s key e) key = false := by
  unfold lineLost
  rw [withEntry_entry, show (withEntry s key e).coh.lost = [] from hl]
  simp [he]

/-- An agent's request whose line no other agent holds starts its transaction, the predictor alone having changed. -/
theorem startTrans_alone (hhome : lineHome s key = (x.home, x.domain)) (hm : (s.liveReq id).bind (·.coh) = some m)
    (hk : (s.liveReq id).map (·.kind) = some (.coh type)) (htr : s.coh.trans = []) (hlost : s.coh.lost = []) (hb : EntryBegun s key e)
    (hst : e.st = .shared) (hco : e.coarse = false) (hp : ∀ b ∈ e.ptrs, b = m.agent) (h4 : type = 0x04 → e.ptrs = []) : ∃ pr near,
      startTrans key (.agent id type) (some 0) [] s =
        lineAt s key (if type = 0x04 then { e with pred := pr } else e) (agentTrans s x id type near) := by
  have hshared : ∀ e, s.entry key = some e → e.st = .shared := fun e1 h1 => by
    rcases hb with ⟨hd, he⟩ | ⟨e0, hd, he⟩
    · rw [State.entry, hd] at h1
      exact absurd h1 (by simp [Tab.get?])
    · rw [State.entry, hd, Tab.get?_cons, if_pos rfl] at h1
      rw [← Option.some_inj.1 h1, ← hst, he]
  obtain ⟨pr, near, hpred⟩ := predict_alone (s := withEntry s key e) (id := id) (type := type) withEntry_entry
  have hafter : (if type = 0x04 then (withEntry s key e).setEntry key { e with pred := pr } else withEntry s key e) =
      withEntry s key (if type = 0x04 then { e with pred := pr } else e) := by
    split
    · simp [State.setEntry, withEntry, Tab.set]
    · rfl
  rw [hafter] at hpred
  have hsame : ∀ e' : DirEntry, e' = (if type = 0x04 then { e with pred := pr } else e) → e'.st = e.st ∧ e'.coarse = e.coarse ∧ e'.ptrs = e.ptrs := by
    rintro _ rfl
    split
    · exact ⟨rfl, rfl, rfl⟩
    · exact ⟨rfl, rfl, rfl⟩
  generalize he' : (if type = 0x04 then { e with pred := pr } else e) = e' at hpred
  obtain ⟨hst', hco', hp'⟩ := hsame e' he'.symm
  have hsn := snoopsFor_alone (s := withEntry s key e') (key := key) (id := id) (type := type) hm (hst'.trans hst) (hco'.trans hco)
    (by rw [hp']; exact hp) (by rw [hp']; exact h4) x.domain near
  refine ⟨pr, near, ?_⟩
  rw [he', startTrans_eq hhome (ownAgain_shared hm hk hshared), begunEntry_begun (fun _ => rfl) hlost hb,
    show (!([] : List CohWork).isEmpty) = false from rfl, hpred]
  exact launch_alone (s := withEntry s key e') rfl htr (withEntry_lost hlost (by rw [hst', hst]; decide)) hsn

/-! ### An agent's request from its line to its answer -/

/-- The request's transaction starts on a line that nobody else holds. -/
theorem AgentRequest.begins (h : AgentRequest s a line id type x m l d g) (htr : s.coh.trans = []) (hb : EntryBegun s (lineKey a line) e)
    (hst : e.st = .shared) (hco : e.coarse = false) (hp : ∀ b ∈ e.ptrs, b = m.agent) (h4 : type = 0x04 → e.ptrs = []) : ∃ pr near,
      cohEnter (lineKey a line) (.agent id type) s = cohRun lineFuel (lineKey a line)
        (lineAt s (lineKey a line) (if type = 0x04 then { e with pred := pr } else e) (agentTrans s x id type near)) := by
  have hkind : (s.liveReq id).map (·.kind) = some (.coh type) := by
    unfold State.liveReq
    rw [h.live, Tab.get?_cons, if_pos rfl]
    exact congrArg some h.kind
  obtain ⟨pr, near, hstart⟩ := startTrans_alone (lineHome_lineKey h.ready.small h.ready.allot) h.bind hkind htr h.ready.lost hb hst hco hp h4
  refine ⟨pr, near, ?_⟩
  rw [cohEnter_starts (e := match s.coh.dir with | [] => e | p :: _ => p.2) htr, hstart]
  rcases hb with ⟨hd, -⟩ | ⟨e0, hd, -⟩
  · exact .inl hd
  · rw [hd]
    exact .inr rfl

/-- It reads its line. -/
theorem AgentRequest.beginsRead (h : AgentRequest s a line id type x m l d g) (htr : s.coh.trans = []) (hd : s.coh.dir = [])
    (ht : type = 0x01 ∨ type = 0x02 ∨ type = 0x03 ∨ type = 0x04) : ∃ (t : Trans) (e : DirEntry),
      cohEnter (lineKey a line) (.agent id type) s = lineAt s (lineKey a line) e t ∧ t.work = .agent id type ∧ t.reading = true ∧
      t.need = [] ∧ t.waits = [] ∧ e.unheld = true := by
  obtain ⟨pr, near, hb⟩ := h.begins (e := { st := .shared, pred := 2, lru := s.now }) htr (.inl ⟨hd, rfl⟩) rfl rfl
    (fun _ hb => absurd hb List.not_mem_nil) fun _ => rfl
  have hentry : ∀ e : DirEntry, (e = if type = 0x04 then { st := .shared, pred := pr, lru := s.now } else { st := .shared, pred := 2, lru := s.now }) →
      e.st = .shared ∧ e.coarse = false ∧ e.ptrs = [] := by
    rintro _ rfl
    split
    · exact ⟨rfl, rfl, rfl⟩
    · exact ⟨rfl, rfl, rfl⟩
  generalize he : (if type = 0x04 then _ else _ : DirEntry) = e at hb
  obtain ⟨h1, h2, h3⟩ := hentry e he.symm
  refine ⟨{ (agentTrans s x id type near).seen with stage := 2, reading := true }, e, hb.trans ?_, rfl, rfl, rfl, rfl, ?_⟩
  · exact cohRun_reads h.ready rfl ⟨rfl, rfl, rfl⟩ rfl rfl rfl h2 (by rw [h1]; decide) rfl (by tauto) 397
  · unfold DirEntry.unheld
    rw [h1, h2, h3]
    rfl

theorem clearLost_none (hl : s.coh.lost = []) (he : ∀ e, s.entry key = some e → e.st ≠ .lost) : clearLost key s = s := by
  unfold clearLost
  have hsame : ({ s with coh := { s.coh with lost := s.coh.lost.filter (· != key) } } : State) = s := by
    rw [hl, List.filter_nil, ← hl]
  rw [hsame]
  dsimp only
  cases hent : s.entry key with
  | none => rfl
  | some e => exact if_neg (he e hent)

section
variable (hm : (s.liveReq id).bind (·.coh) = some m) (hl : lineLost s key = false) (hst : t.stat = 0)
include hm hl hst

theorem agentEnd_writes : agentEnd key id 0x05 t s = cohFinal id key 0x39 0 0 0 [] (modEntry key (·.none_) (clearLost key s)) := by
  unfold agentEnd
  rw [hm]
  dsimp only
  rw [hl, if_neg (by decide), if_neg (not_not.2 hst), if_neg (by decide), if_neg (by decide), if_neg (by decide), if_pos rfl]

theorem agentEnd_upgrades (hd : t.data = none) (he : s.entry key = some e) (hs : e.st = .shared) (hc : e.coarse = false)
    (hp : m.agent ∈ e.ptrs) : agentEnd key id 0x03 t s =
      cohFinal id key 0x38 0 0 0 [] (addGrant key m.agent m.txn false (modEntry key (·.own m.agent m.txn) s)) := by
  have hplain : (s.entry key).elim false (fun e => e.st == .shared && !e.coarse && e.ptrs.contains m.agent) = true := by
    rw [he, Option.elim_some, hs, hc]
    simp [hp]
  unfold agentEnd
  rw [hm]
  dsimp only
  rw [hl, if_neg (by decide), if_neg (not_not.2 hst), if_neg (by decide), if_pos (.inr rfl), hplain, hd]
  rfl

theorem agentEnd_evicts : agentEnd key id 0x06 t s = cohFinal id key 0x39 0 0 0 [] (modEntry key (fun e =>
    if e.st = .shared ∧ !e.coarse then { e with ptrs := e.ptrs.filter (· != m.agent) } else e) s) := by
  unfold agentEnd
  rw [hm]
  dsimp only
  rw [hl, if_neg (by decide), if_neg (not_not.2 hst), if_neg (by decide), if_neg (by decide), if_neg (by decide), if_neg (by decide)]

end

/-- A transaction that has nothing to read or to write goes to its end. -/
theorem cohRun_passes (hg : t.Goes) (h1 : t.stage = 1) (hd : t.dirty = none) (hst : t.stat = 0) (hl : s.coh.lost = []) (he : e.st ≠ .lost)
    (hres : ∀ (w : State) (t' : Trans), t'.work = t.work → (resultOf w key t').1 = none)
    (hn : ∀ (w : State) (t' : Trans), w.entry key = some e → w.mem = s.mem → t'.work = t.work → readsMemory w key t' = false) (n : Nat) :
    ∃ pr, cohRun (n + 3) key (lineAt s key e t) = cohRun n key (lineAt s key e { t with stage := 4, result := none, prior := pr }) := by
  obtain ⟨g1, g2, g3⟩ := hg
  refine ⟨(resultOf (lineAt s key e { t with stage := 2 }) key { t with stage := 2 }).2, ?_⟩
  rw [cohRun_goes lineAt_trans (cohMicro_clean ⟨g1, g2, g3⟩ h1 hd hst hl he),
    cohRun_goes lineAt_trans (cohMicro_skips (t := { t with stage := 2 }) ⟨g1, g2, g3⟩ rfl (hn _ _ lineAt_entry rfl rfl)),
    hres (lineAt s key e { t with stage := 2 }) { t with stage := 2 } rfl]
  exact cohRun_goes lineAt_trans (cohMicro_noResult (t := { t with
    stage := 3, result := none, prior := (resultOf (lineAt s key e { t with stage := 2 }) key { t with stage := 2 }).2 }) ⟨g1, g2, g3⟩ rfl rfl) n

theorem resultOf_agent (hw : t.work = .agent id type) (h4 : type ≠ 0x04) (h5 : type ≠ 0x05) : (resultOf s key t).1 = none := by
  unfold resultOf
  rw [hw]
  dsimp only
  split
  · rw [if_neg h4, if_neg h5]
  · rfl

theorem resultOf_full (hw : t.work = .agent id 0x05) (hm : (s.liveReq id).bind (·.coh) = some m) :
    resultOf s key t = (some (0, slice m.data 0 256), 0) := by
  unfold resultOf
  rw [hw]
  dsimp only
  rw [hm]
  rfl

theorem readsMemory_other (hw : t.work = .agent id type) (ht : type = 0x05 ∨ type = 0x06) : readsMemory s key t = false := by
  unfold readsMemory
  rw [hw]
  rcases ht with rfl | rfl <;> rfl

theorem readsMemory_sharer (hw : t.work = .agent id 0x03) (hm : (s.liveReq id).bind (·.coh) = some m) (he : s.entry key = some e)
    (hs : e.st = .shared) (hc : e.coarse = false) (hp : m.agent ∈ e.ptrs) : readsMemory s key t = false := by
  unfold readsMemory
  rw [hw]
  dsimp only
  rw [hm, he]
  simp [hs, hc, hp]

/-- The agent that alone shares a line owns it at once. -/
theorem AgentRequest.upgrades (h : AgentRequest s a line id 0x03 x m l d g) (htr : s.coh.trans = []) (hb : EntryBegun s (lineKey a line) e)
    (hst : e.st = .shared) (hco : e.coarse = false) (hp : e.ptrs = [m.agent]) : ∃ gr t v,
      cohEnter (lineKey a line) (.agent id 0x03) s = v ∧
      AgentEnded (granted (lineAt s (lineKey a line) (e.own m.agent m.txn) t) gr s.gauges) v (lineKey a line) (e.own m.agent m.txn)
        (cohOut l.home d g 0x38 (cohFinish g m 0 0 0 (x.pva + 256 * line) [])) := by
  obtain ⟨pr, near, hstart⟩ := h.begins htr hb hst hco (by rw [hp]; exact fun _ hb => List.mem_singleton.1 hb) fun h => absurd h (by decide)
  rw [if_neg (by decide)] at hstart
  have hmem : m.agent ∈ e.ptrs := by rw [hp]; exact List.mem_singleton.2 rfl
  have hne : e.st ≠ .lost := by rw [hst]; decide
  obtain ⟨pr', hrun⟩ := cohRun_passes (s := s) (key := lineKey a line) (e := e) (t := { agentTrans s x id 0x03 near with stage := 1 })
    ⟨rfl, rfl, rfl⟩ rfl rfl rfl h.ready.lost hne (fun w t' ht' => resultOf_agent ht' (by decide) (by decide))
    (fun w t' hw hmem' ht' => readsMemory_sharer (m := m) ht' (by unfold State.liveReq; rw [hmem']; exact h.bind) hw hst hco hmem) 396
  generalize ht : ({ { agentTrans s x id 0x03 near with stage := 1 } with stage := 4, result := none, prior := pr' } : Trans) = t at hrun
  have hfields : t.Goes ∧ t.stage = 4 ∧ t.list = [] ∧ t.work = .agent id 0x03 ∧ t.siphoned = false ∧ t.stat = 0 ∧ t.data = none := by
    rw [← ht]
    exact ⟨⟨rfl, rfl, rfl⟩, rfl, rfl, rfl, rfl, rfl, rfl⟩
  obtain ⟨hg, h4, hlist, hw, hsi, hstat, hdata⟩ := hfields
  obtain ⟨v, hv, hend⟩ := h.answers (n := 395) (e := e) (gs := s.gauges) (gr := (addGrant (lineKey a line) m.agent m.txn false s).coh.grants)
    (e' := e.own m.agent m.txn) (flags := 0) (value := 0) (data := []) hg h4 hlist (show 0x38 ≠ 0x3B by decide) ((transEnd_agent hw hsi).trans (by
      rw [agentEnd_upgrades (s := lineAt s (lineKey a line) e t) h.bind (lineAt_lost h.ready.lost hne) hstat hdata lineAt_entry hst hco hmem, lineAt_modEntry]
      rfl))
  exact ⟨_, t, v, hstart.trans (((cohRun_goes lineAt_trans (cohMicro_snooped ⟨rfl, rfl, rfl⟩ rfl hco) 399).trans hrun).trans hv), hend⟩

/-- The agent that alone shares a line gives it up. -/
theorem AgentRequest.evicts (h : AgentRequest s a line id 0x06 x m l d g) (htr : s.coh.trans = []) (hb : EntryBegun s (lineKey a line) e)
    (hst : e.st = .shared) (hco : e.coarse = false) (hp : e.ptrs = [m.agent]) : ∃ t v,
      cohEnter (lineKey a line) (.agent id 0x06) s = v ∧
      AgentEnded (granted (lineAt s (lineKey a line) { e with ptrs := [] } t) s.coh.grants s.gauges) v (lineKey a line) { e with ptrs := [] }
        (cohOut l.home d g 0x39 (cohFinish g m 0 0 0 (x.pva + 256 * line) [])) := by
  obtain ⟨pr, near, hstart⟩ := h.begins htr hb hst hco (by rw [hp]; exact fun _ hb => List.mem_singleton.1 hb) fun h => absurd h (by decide)
  rw [if_neg (by decide)] at hstart
  have hne : e.st ≠ .lost := by rw [hst]; decide
  have hless : (if e.st = .shared ∧ !e.coarse then { e with ptrs := e.ptrs.filter (· != m.agent) } else e) = { e with ptrs := [] } := by
    rw [if_pos ⟨hst, by rw [hco]; rfl⟩, hp]
    simp
  obtain ⟨pr', hrun⟩ := cohRun_passes (s := s) (key := lineKey a line) (e := e) (t := { agentTrans s x id 0x06 near with stage := 1 })
    ⟨rfl, rfl, rfl⟩ rfl rfl rfl h.ready.lost hne (fun w t' ht' => resultOf_agent ht' (by decide) (by decide))
    (fun w t' _ _ ht' => readsMemory_other ht' (.inr rfl)) 396
  generalize ht : ({ { agentTrans s x id 0x06 near with stage := 1 } with stage := 4, result := none, prior := pr' } : Trans) = t at hrun
  have hfields : t.Goes ∧ t.stage = 4 ∧ t.list = [] ∧ t.work = .agent id 0x06 ∧ t.siphoned = false ∧ t.stat = 0 := by
    rw [← ht]
    exact ⟨⟨rfl, rfl, rfl⟩, rfl, rfl, rfl, rfl, rfl⟩
  obtain ⟨hg, h4, hlist, hw, hsi, hstat⟩ := hfields
  obtain ⟨v, hv, hend⟩ := h.answers (n := 395) (e := e) (gs := s.gauges) (gr := s.coh.grants)
    (e' := { e with ptrs := [] }) (flags := 0) (value := 0) (data := []) hg h4 hlist (show 0x39 ≠ 0x3B by decide) ((transEnd_agent hw hsi).trans (by
      rw [agentEnd_evicts (s := lineAt s (lineKey a line) e t) h.bind (lineAt_lost h.ready.lost hne) hstat, lineAt_modEntry, hless]
      rfl))
  exact ⟨t, v, hstart.trans (((cohRun_goes lineAt_trans (cohMicro_snooped ⟨rfl, rfl, rfl⟩ rfl hco) 399).trans hrun).trans hv), hend⟩

/-- A full write of a line nobody holds goes to the line's tile. -/
theorem AgentRequest.writesFull (h : AgentRequest s a line id 0x05 x m l d g) (htr : s.coh.trans = []) (hd : s.coh.dir = [])
    (hdata : m.data.length = 256) : ∃ (y : Cistern) (t : Trans) (e : DirEntry) (v : State),
      cohEnter (lineKey a line) (.agent id 0x05) s = v ∧ y.pool = s.cis.pool.writeN (poolKey a (256 * line)) m.data ∧
      EngineKept s { s with cis := y } ∧ e.unheld = true ∧
      AgentEnded (granted (lineAt { s with cis := y } (lineKey a line) e t) s.coh.grants s.gauges) v (lineKey a line) e
        (cohOut l.home d g 0x39 (cohFinish g m 0 0 0 (x.pva + 256 * line) [])) := by
  obtain ⟨pr, near, hb⟩ := h.begins (e := { st := .shared, pred := 2, lru := s.now }) htr (.inl ⟨hd, rfl⟩) rfl rfl
    (fun _ hb => absurd hb List.not_mem_nil) fun _ => rfl
  rw [if_neg (by decide)] at hb
  generalize he : ({ st := .shared, pred := 2, lru := s.now } : DirEntry) = e at hb
  have hst : e.st = .shared := by rw [← he]
  have hun : e.none_.unheld = true := by rw [← he]; rfl
  have hne : e.st ≠ .lost := by rw [hst]; decide
  obtain ⟨y, hmicro, hpool, hk, hready⟩ := cohMicro_result (e := e) (t := { agentTrans s x id 0x05 near with
    stage := 3, result := some (0, slice m.data 0 256) }) h.ready rfl ⟨rfl, rfl, rfl⟩ rfl rfl rfl (by decide)
  have h' := h.withCis hk hready
  obtain ⟨v, hv, hend⟩ := h'.answers (n := 395) (ty := 0x39) (flags := 0) (value := 0) (data := []) (gs := s.gauges) (e := e) (e' := e.none_)
    (gr := s.coh.grants) (t := { Trans.seen { agentTrans s x id 0x05 near with stage := 3, result := some (0, slice m.data 0 256) } with stage := 4 })
    ⟨rfl, rfl, rfl⟩ rfl rfl (by decide) ((transEnd_agent rfl rfl).trans (by
      rw [agentEnd_writes (s := lineAt { s with cis := y } (lineKey a line) _ _) h'.bind (lineAt_lost h'.ready.lost hne) rfl,
        clearLost_none (s := lineAt { s with cis := y } (lineKey a line) _ _) h'.ready.lost (fun e1 h1 => by
          rw [lineAt_entry] at h1
          rw [← Option.some_inj.1 h1]
          exact hne), lineAt_modEntry]
      rfl))
  refine ⟨y, _, e.none_, v, hb.trans ?_, ?_, hk, hun, hend⟩
  · have hres : resultOf (lineAt s (lineKey a line) e { agentTrans s x id 0x05 near with stage := 2 }) (lineKey a line)
        { agentTrans s x id 0x05 near with stage := 2 } = (some (0, slice m.data 0 256), 0) := resultOf_full rfl h.bind
    have hskip := cohMicro_skips (s := s) (key := lineKey a line) (e := e) (t := { agentTrans s x id 0x05 near with stage := 2 }) ⟨rfl, rfl, rfl⟩ rfl
      (readsMemory_other rfl (.inl rfl))
    rw [hres] at hskip
    exact (cohRun_goes lineAt_trans (cohMicro_snooped ⟨rfl, rfl, rfl⟩ rfl (by rw [← he])) 399).trans
      ((cohRun_goes lineAt_trans (cohMicro_clean (t := { agentTrans s x id 0x05 near with stage := 1 }) ⟨rfl, rfl, rfl⟩ rfl rfl rfl h.ready.lost hne) 398).trans
        ((cohRun_goes lineAt_trans hskip 397).trans ((cohRun_goes lineAt_trans hmicro 396).trans hv)))
  · rw [slice_whole hdata] at hpool
    exact hpool

/-! ### Write-backs -/

theorem predict_wb (he : s.entry key = some e) (w : Bool) : predict key (.wb m) w s = (s, true) := by
  unfold predict
  rw [he]

/-- A write-back that is not an owner's changes nothing. -/
theorem writeBackLine_foreign (hacc : cohAccept m s = (s, true)) (hcl : cohLine m s = some (lineKey a line)) (hrev : lineRevoked s (lineKey a line) = false)
    (hd : s.coh.dir = [(lineKey a line, e)]) (ho : e.owner ≠ m.agent) : writeBackLine m s =
      sendCoh (lineHome s (lineKey a line)).1 m.domain m.agent 0x3A 0 0 m.txn 0 0 m.pva [] (cohCount 2 1 m.domain (lineHome s (lineKey a line)).1 s) := by
  have hent : s.entry (lineKey a line) = some e := by
    unfold State.entry
    rw [hd, Tab.get?_cons, if_pos rfl]
  unfold writeBackLine
  rw [hacc]
  dsimp only
  rw [hcl]
  dsimp only
  rw [hrev, if_neg Bool.false_ne_true, hent]
  dsimp only
  rw [if_neg (by simp [ho])]

/-- A write-back of the owner starts a transaction of its own. -/
theorem writeBackLine_starts (hacc : cohAccept m s = (s, true)) (hcl : cohLine m s = some (lineKey a line)) (hrev : lineRevoked s (lineKey a line) = false)
    (hd : s.coh.dir = [(lineKey a line, e)]) (htr : s.coh.trans = []) (hst : e.st = .owned) (ho : e.owner = m.agent)
    (hlater : laterTxn m.txn e.ownTxn = true) : writeBackLine m s =
      cohSettle (cohRun lineFuel (lineKey a line) (startTrans (lineKey a line) (.wb m) none [] (withEntry s (lineKey a line) e.none_))) := by
  have hent : s.entry (lineKey a line) = some e := by
    unfold State.entry
    rw [hd, Tab.get?_cons, if_pos rfl]
  have hset : s.setEntry (lineKey a line) e.none_ = withEntry s (lineKey a line) e.none_ := by
    simp [State.setEntry, withEntry, hd, Tab.set]
  have hbusy : s.trans (lineKey a line) = none := by
    unfold State.trans
    rw [htr]
    rfl
  unfold writeBackLine
  rw [hacc]
  dsimp only
  rw [hcl]
  dsimp only
  rw [hrev, if_neg Bool.false_ne_true, hent]
  dsimp only
  rw [if_pos (by simp [hst, ho, hlater]), hbusy, hset]

/-- What a write-back under way alone leaves. -/
structure WrittenBack (s v : State) (a line : Nat) (data : Bytes) (o : Out) : Prop where
  trans : v.coh.trans = []
  dir : v.coh.dir = []
  dieQ : v.coh.dieQ = s.coh.dieQ
  mem : v.mem = s.mem
  out : v.out = s.out ++ [o]
  pool : v.cis.pool = s.cis.pool.writeN (poolKey a (256 * line)) data
  still : s.still → v.still

/-- The owner's write-back goes to the line's tile, and nobody holds the line. -/
theorem writeBack_writes (hr : LineReady s a line x) (htr : s.coh.trans = []) (hd : s.domain m.domain = some d)
    (hg : s.agent m.domain m.agent = some g) (hm : s.mute g.addr = false) (hdata : m.data.length = 256) (e : DirEntry) : ∃ v,
      cohRun lineFuel (lineKey a line) (startTrans (lineKey a line) (.wb m) none [] (withEntry s (lineKey a line) e.none_)) = v ∧
      WrittenBack s v a line m.data (cohOut x.home d g 0x3A (cohFinish g m 0 0 0 (x.pva + 256 * line) [])) := by
  have hstart : startTrans (lineKey a line) (.wb m) none [] (withEntry s (lineKey a line) e.none_) =
      lineAt s (lineKey a line) { e.none_ with lru := s.now }
        { die := x.home, domain := x.domain, work := .wb m, tracker := none, near := true, dirty := some (slice m.data 0 256), mode := domMode s x.domain } := by
    rw [startTrans_eq (work' := .wb m) (lineHome_lineKey (s := withEntry s (lineKey a line) e.none_) hr.small hr.allot) rfl,
      begunEntry_begun (s := withEntry s (lineKey a line) e.none_) (e := { e.none_ with lru := s.now }) (fun h => by simp [withEntry] at h) hr.lost
        (.inr ⟨e.none_, rfl, rfl⟩), predict_wb withEntry_entry]
    exact launch_alone (s := withEntry (withEntry s (lineKey a line) e.none_) (lineKey a line) { e.none_ with lru := s.now }) rfl htr
      (withEntry_lost hr.lost (by exact LineState.noConfusion)) rfl
  generalize hee : ({ e.none_ with lru := s.now } : DirEntry) = e' at hstart
  generalize htt : ({ die := x.home, domain := x.domain, work := .wb m, tracker := none, near := true, dirty := some (slice m.data 0 256), mode := domMode s x.domain } : Trans) = t at hstart
  have hent : e'.st = .shared ∧ e'.coarse = false ∧ e'.unheld = true := by
    rw [← hee]
    exact ⟨rfl, rfl, rfl⟩
  obtain ⟨hst, hco, hun⟩ := hent
  have hne : e'.st ≠ .lost := by rw [hst]; decide
  have hfields : t.Goes ∧ t.stage = 0 ∧ t.list = [] ∧ t.work = .wb m ∧ t.siphoned = false ∧ t.stat = 0 ∧ t.dirty = some (slice m.data 0 256) ∧
      t.missed = false ∧ t.die = x.home := by
    rw [← htt]
    exact ⟨⟨rfl, rfl, rfl⟩, rfl, rfl, rfl, rfl, rfl, rfl, rfl, rfl⟩
  obtain ⟨⟨g1, g2, g3⟩, h0, hlist, hw, hsi, hstat, hdirty, hmiss, hdie⟩ := hfields
  obtain ⟨y, hwr, hpool, hk, hr'⟩ := cohMicro_writes (e := e') (t := { t with stage := 1 }) hr hmiss ⟨g1, g2, g3⟩ rfl hdirty (by
    unfold covering coverWork
    rw [show ({ t with stage := 1 } : Trans).work = _ from hw]) (by
    show t.work ≠ .revoke
    rw [hw]
    exact CohWork.noConfusion)
  obtain ⟨pr, hrun⟩ := cohRun_passes (s := { s with cis := y }) (key := lineKey a line) (e := e') (t := { Trans.seen { t with stage := 1 } with dirty := none })
    ⟨g1, g2, g3⟩ rfl rfl hstat hr'.lost hne (fun w t' ht' => by
      unfold resultOf
      rw [show t'.work = _ from ht'.trans hw]) (fun w t' _ _ ht' => by
      unfold readsMemory
      rw [show t'.work = _ from ht'.trans hw]) 395
  generalize hlast : ({ { Trans.seen { t with stage := 1 } with dirty := none } with stage := 4, result := none, prior := pr } : Trans) = z at hrun
  have hzf : z.Goes ∧ z.stage = 4 ∧ z.list = [] ∧ z.work = .wb m ∧ z.siphoned = false ∧ z.die = x.home := by
    rw [← hlast]
    exact ⟨⟨g1, g2, g3⟩, rfl, hlist, hw, hsi, hdie⟩
  obtain ⟨hzg, hz4, hzl, hzw, hzs, hzd⟩ := hzf
  have hend : transEnd (lineKey a line) z (lineAt { s with cis := y } (lineKey a line) e' z) =
      (lineAt { s with cis := y } (lineKey a line) e' z).emit (cohOut x.home d g 0x3A (cohFinish g m 0 0 0 (x.pva + 256 * line) [])) := by
    unfold transEnd
    rw [hzs, hzw, hzd]
    dsimp only
    rw [if_neg Bool.false_ne_true, linePva_lineKey (s := lineAt { s with cis := y } (lineKey a line) e' z) hr.small hr.allot]
    exact sendCoh_heard (s := lineAt { s with cis := y } (lineKey a line) e' z) hd hg hm
  have hdone := (cohRun_ends (e := e') hzg hz4 lineAt_trans hend rfl rfl hzl 394).1 hun
  rw [slice_whole hdata] at hpool
  exact ⟨_, (congrArg (cohRun lineFuel (lineKey a line)) hstart).trans ((cohRun_goes lineAt_trans (cohMicro_snooped ⟨g1, g2, g3⟩ h0 hco) 399).trans
    ((cohRun_goes lineAt_trans hwr 398).trans (hrun.trans hdone))), rfl, rfl, rfl, rfl, rfl, hpool, hk.still⟩

/-! ### Messages from another source -/

/-- A message whose source is not its agent's is counted and sets its bit. -/
theorem cohAccept_foreign (hg : s.agent m.domain m.agent = some g) (ha : g.addr ≠ m.srcIp) : ∃ v, cohAccept m s = (v, false) ∧
    v.out = s.out ∧ v.mem = s.mem ∧ v.cis = s.cis ∧ v.coh = { s.coh with status := v.coh.status } ∧
    (Tab.getD v.coh.status m.die 0).getLsbD 0 = true := by
  obtain ⟨gs, hgs⟩ := State.count_eq s (gk 5 3 0 m.die) 1
  unfold cohAccept
  rw [hg]
  dsimp only
  rw [if_pos (.inl ha), hgs]
  refine ⟨_, rfl, rfl, rfl, rfl, rfl, ?_⟩
  show (Tab.getD (Tab.set s.coh.status m.die (setBit (Tab.getD s.coh.status m.die 0) 0)) m.die 0).getLsbD 0 = true
  rw [Tab.getD_set_self]
  simp [getLsbD_setBit]

theorem cohRequest_dropped (h : cohAccept m s = (v, false)) (type : Nat) : cohRequest type m s = v := by
  unfold cohRequest
  rw [h]

theorem snoopReply_dropped (h : cohAccept m s = (v, false)) (data : Option Bytes) : snoopReply m data s = v := by
  unfold snoopReply
  rw [h]

theorem writeBackLine_dropped (h : cohAccept m s = (v, false)) : writeBackLine m s = v := by
  unfold writeBackLine
  rw [h]

end

/-- Settles O34: on a line that nobody holds a read, an ownership request, an upgrade and an atomic begin to read memory and a full write
goes to it; the one sharer is made owner or gives its pointer up; the owner's write-back is written; a message from another source is
dropped. -/
theorem coherenceRequestsStartTransactions : Obligations.CoherenceRequestsStartTransactions := by
  unfold Obligations.CoherenceRequestsStartTransactions
  intro T p s a line x d g u m key pva hs hl hhosts hrights htr hq hsn hlost hpo hd hg hgen hlive hqpn hline hal hpva htrans hx hst hplace hflags hdom
    hconf hfind hmute
  have hcl : cohLine m u = some key := cohLine_of_line (s := u) htrans hx hflags hdom hal hpva
  have hready : LineReady u a line x := ⟨hx, hplace, hconf, by
    show s.cis.poisoned.contains _ = false
    rw [hpo]
    rfl, hlost, hline⟩
  have hnotrans {w : State} (hw : w.coh.trans = []) : ∀ e ∈ w.coh.trans, e.2.waits = [] := by
    rw [hw]
    exact fun _ he => absurd he List.not_mem_nil
  have hnolive {w : State} (hw : w.mem.live = []) : ∀ e ∈ w.mem.live, e.2.waits = [] ∧ e.2.stage = 0 := by
    rw [hw]
    exact fun _ he => absurd he List.not_mem_nil
  have hbegins (haddr : g.addr = m.srcIp) (type : Nat) (h4 : type = 0x04 → m.op ≤ 2 ∧ m.offset % 8 = 0 ∧ m.offset ≤ 248) : ∃ v i,
      cohRequest type m u = settle (cohSettle (cohEnter key (.agent s.mem.nextLive type) v)) ∧
      AgentRequest v a line s.mem.nextLive type { x with inflight := i } m (cohLive type m a x) d g ∧ v.coh = s.coh ∧ v.out = s.out ∧ v.cis = s.cis ∧
      v.mem.live = [(s.mem.nextLive, cohLive type m a x)] := by
    obtain ⟨v, hrow, hk, hout, hcis, hlives⟩ := cohRequest_enters (s := u) (cohAccept_sound (s := u) hg haddr hqpn hgen hlive) hcl hline hx hst hplace
      hpva hl hhosts hrights (hfind type) h4
    obtain ⟨i, hi⟩ := hk.allot a x hx
    refine ⟨v, i, hrow, ⟨⟨hi, hplace, ?_, ?_, ?_, hline⟩, hst, hk.still hs, ?_, hlives, rfl, rfl, rfl, ?_, ?_, ?_⟩, hk.coh, hout, hcis, hlives⟩
    · rw [hk.confidential]
      exact hconf
    · unfold State.isPoisoned
      rw [hcis]
      exact hready.sound
    · rw [hk.coh]
      exact hlost
    · rw [hk.coh]
      exact hq
    · unfold State.domain
      rw [hk.coh]
      exact hd
    · unfold State.agent State.domain
      rw [hk.coh]
      exact hg
    · rw [hk.mute]
      exact hmute
  refine ⟨fun haddr => ?_, fun haddr hdir => ?_, fun e haddr hdir hsh hco hptr => ?_, fun e haddr hdir hown hwf hdata => ?_⟩
  · intro drops
    obtain ⟨v, hacc, hout, hmem, hcis, hcoh, hbit⟩ := cohAccept_foreign (s := u) hg haddr
    have hsettle : settle v = v := settle_begun (by unfold State.still; rw [hcis, hmem]; exact hs) (by rw [hcoh]; exact hq)
      (hnotrans (by rw [hcoh]; exact htr)) (hnolive (by rw [hmem]; exact hl))
    have hdrops {c : Instr} (hc : exec c s = .next v) : drops c := ⟨v, hc, hout, hmem, hcis, hcoh, hbit⟩
    have hrequest (type : Nat) := congrArg (Host.Outcome.next (φ := Fault) (ρ := Refusal)) (cohRequest_dropped hacc type)
    have hanswer (data : Option Bytes) := congrArg (Host.Outcome.next (φ := Fault) (ρ := Refusal)) ((congrArg settle (snoopReply_dropped hacc data)).trans hsettle)
    exact ⟨hdrops (hrequest 0x01), hdrops (hrequest 0x02), hdrops (hrequest 0x03), hdrops (hrequest 0x04), hdrops (hrequest 0x05),
      hdrops (hrequest 0x06), hdrops (congrArg Host.Outcome.next ((congrArg settle (writeBackLine_dropped hacc)).trans hsettle)), hdrops (hanswer _), hdrops (hanswer _)⟩
  · intro reads
    have hreads {c : Instr} {type : Nat} (hc : exec c s = .next (cohRequest type m u)) (ht : type = 0x01 ∨ type = 0x02 ∨ type = 0x03 ∨ type = 0x04)
        (h4 : type = 0x04 → m.op ≤ 2 ∧ m.offset % 8 = 0 ∧ m.offset ≤ 248) : reads c type := by
      obtain ⟨v, i, hrow, hreq, hcoh, hout, hcis, hlives⟩ := hbegins haddr type h4
      obtain ⟨t, e, hrun, hw, hr, hn, hwait, hun⟩ := hreq.beginsRead (by rw [hcoh]; exact htr) (by rw [hcoh]; exact hdir) ht
      rw [hrun, settle_lineAt hreq.still hreq.dieQ hwait (by rw [hlives]; exact List.forall_mem_singleton.2 ⟨rfl, rfl⟩)] at hrow
      refine ⟨_, t, e, hc.trans (congrArg Host.Outcome.next hrow), lineAt_trans, hw, hr, hn, lineAt_entry, hun, hout, congrArg Cistern.pool hcis, ?_⟩
      show (Tab.get? v.mem.live s.mem.nextLive).isSome = true
      rw [hlives, Tab.get?_cons, if_pos rfl]
      rfl
    have hno {type : Nat} (h : type ≠ 0x04) : type = 0x04 → m.op ≤ 2 ∧ m.offset % 8 = 0 ∧ m.offset ≤ 248 := fun h' => absurd h' h
    refine ⟨hreads rfl (.inl rfl) (hno (by decide)), hreads rfl (.inr (.inl rfl)) (hno (by decide)), hreads rfl (.inr (.inr (.inl rfl))) (hno (by decide)),
      fun h1 h2 h3 => hreads rfl (.inr (.inr (.inr rfl))) fun _ => ⟨h1, h2, h3⟩, fun hwf hdata => ?_⟩
    obtain ⟨v, i, hrow, hreq, hcoh, hout, hcis, hlives⟩ := hbegins haddr 0x05 fun h => absurd h (by decide)
    obtain ⟨y, t, e, w, hrun, hpool, hk, hun, hend⟩ := hreq.writesFull (by rw [hcoh]; exact htr) (by rw [hcoh]; exact hdir) hdata
    rw [hrun, hend.settle (hk.still hreq.still) hreq.dieQ] at hrow
    refine ⟨w, congrArg Host.Outcome.next hrow, hend.out.trans (congrArg (· ++ _) hout), hend.dir.trans (if_pos hun), hend.trans, hend.live, poolPut_writeN hwf ?_⟩
    rw [hend.cis, ← hcis]
    exact hpool
  · have hb {v : State} (hcoh : v.coh = s.coh) : EntryBegun v key { e with lru := v.now } := .inr ⟨e, by rw [hcoh]; exact hdir, rfl⟩
    have hno {type : Nat} (h : type ≠ 0x04) : type = 0x04 → m.op ≤ 2 ∧ m.offset % 8 = 0 ∧ m.offset ≤ 248 := fun h' => absurd h' h
    refine ⟨?_, ?_⟩
    · obtain ⟨v, i, hrow, hreq, hcoh, hout, hcis, -⟩ := hbegins haddr 0x03 (hno (by decide))
      obtain ⟨gr, t, w, hrun, hend⟩ := hreq.upgrades (by rw [hcoh]; exact htr) (hb hcoh) hsh hco hptr
      rw [hrun, hend.settle hreq.still hreq.dieQ] at hrow
      exact ⟨w, _, congrArg Host.Outcome.next hrow, hend.out.trans (congrArg (· ++ _) hout), hend.entry, rfl, rfl, rfl,
        (congrArg Cistern.pool hend.cis).trans (congrArg Cistern.pool hcis)⟩
    · obtain ⟨v, i, hrow, hreq, hcoh, hout, hcis, -⟩ := hbegins haddr 0x06 (hno (by decide))
      obtain ⟨t, w, hrun, hend⟩ := hreq.evicts (by rw [hcoh]; exact htr) (hb hcoh) hsh hco hptr
      rw [hrun, hend.settle hreq.still hreq.dieQ] at hrow
      exact ⟨w, congrArg Host.Outcome.next hrow, hend.out.trans (congrArg (· ++ _) hout),
        hend.dir.trans (if_pos (by unfold DirEntry.unheld; simp [hsh, hco])), (congrArg Cistern.pool hend.cis).trans (congrArg Cistern.pool hcis)⟩
  · have hacc : cohAccept m u = (u, true) := cohAccept_sound (s := u) hg haddr hqpn hgen hlive
    have hhome : lineHome u key = (x.home, x.domain) := lineHome_lineKey (s := u) hline hx
    have hrev : lineRevoked u key = false := by
      unfold lineRevoked
      rw [keyAllot_lineKey hline, show u.allot a = some x from hx, Option.elim_some, hst]
      rfl
    refine ⟨fun howner hlater => ?_, fun hother => ?_⟩
    · obtain ⟨v, hrun, hwb⟩ := writeBack_writes (s := u) hready htr hd hg hmute hdata e
      have hrow : exec (.cWb T p) s = .next (settle (cohSettle v)) := by
        refine congrArg (fun w => Host.Outcome.next (settle w)) ?_
        exact (writeBackLine_starts (s := u) hacc hcl hrev hdir htr hown howner hlater).trans (congrArg cohSettle hrun)
      have hvl : v.mem.live = [] := by rw [hwb.mem]; exact hl
      rw [cohSettle_still (by rw [hwb.dieQ]; exact hq) (by rw [hvl]; exact fun _ he => absurd he List.not_mem_nil),
        settle_begun (hwb.still hs) (by rw [hwb.dieQ]; exact hq) (hnotrans hwb.trans) (hnolive hvl)] at hrow
      exact ⟨v, hrow, hwb.out, hwb.dir, hwb.trans, poolPut_writeN hwf hwb.pool⟩
    · obtain ⟨gs, hgs⟩ := cohCount_eq 2 1 m.domain x.home u
      have hrow := writeBackLine_foreign (s := u) hacc hcl hrev hdir hother
      rw [hhome, hgs, sendCoh_heard (s := { u with gauges := gs }) hd hg hmute] at hrow
      refine ⟨_, congrArg Host.Outcome.next ((congrArg settle hrow).trans (settle_begun hs hq (hnotrans htr) (hnolive hl))), ?_, rfl, rfl⟩
      rw [← hpva]
      rfl

end Sys2Proof.Machine
end

section
/-! PROOFS. Phases between switches: at a member and at the home (06 R211–R213). -/
namespace Sys2Proof.Machine

section
variable {s : State} {m g : PhaseMsg} {q : Phased} {l : Live} {id k : Nat}

/-! ### What a member keeps of a request -/

/-- A record is of the request that a message names. -/
def Phased.names (p : Phased) (m : PhaseMsg) : Prop := p.home = m.home ∧ p.levee = m.levee ∧ p.queue = m.queue ∧ p.seq = m.seq

theorem findPhased_names (h : findPhased s m = some q) : q.names m := by
  have hp := List.find?_some h
  simp only [Bool.and_eq_true, beq_iff_eq] at hp
  exact ⟨hp.1.1.1, hp.1.1.2, hp.1.2, hp.2⟩

/-- The record a member has put is the one it finds. -/
theorem findPhased_putPhased (h : q.names m) : findPhased (putPhased q s) m = some q := by
  obtain ⟨h1, h2, h3, h4⟩ := h
  unfold findPhased putPhased
  rw [List.find?_append, List.find?_eq_none.2 fun p hp => by
    have hout := (List.mem_filter.1 hp).2
    rw [h1, h2, h3, h4] at hout
    simp at hout ⊢
    tauto, Option.none_or]
  simp [h1, h2, h3, h4]

theorem putPhased_out (p : Phased) (s : State) : (putPhased p s).out = s.out := rfl

theorem phaseAnswer_heard {op holds st : Nat} (hh : s.halted = false) (hf : s.switchFenced m.src = false) :
    phaseAnswer op m holds st s = s.emit (.phase op m.src { m with holds := holds, status := st, data := [] }.bytes) := by
  unfold phaseAnswer
  rw [hh, hf]
  rfl

/-- A phase is done: its outcome stands in the record, and its acknowledgement leaves. -/
theorem phaseDone_kept {st : Nat} (hq : findPhased s m = some q) (hh : s.halted = false) (hf : s.switchFenced m.src = false) :
    phaseDone m st s = (putPhased { q with applied := Tab.set q.applied m.phase (some st) } s).emit
      (.phase 0xD9 m.src { m with holds := 0, status := st, data := [] }.bytes) := by
  unfold phaseDone
  rw [hq]
  exact phaseAnswer_heard (s := putPhased _ s) hh hf

/-- A phase of a range that does not translate is refused. -/
theorem phaseRead_away {die : Nat} (h : translate s (s.table 9).active m.levee (Config.phaseRange m.arg).1 (Config.phaseRange m.arg).2 = none) :
    phaseRead die m s = phaseDone m St.badParam s := by
  unfold phaseRead
  dsimp only
  rw [h]

/-! ### The end of a live request -/

theorem endLive_leaves (s : State) (id : Nat) (hl : s.liveReq id ≠ none) : (endLive id s).out = s.out ∧ (endLive id s).mem.phased = s.mem.phased ∧
    (endLive id s).mem.live = Tab.del s.mem.live id := by
  unfold endLive
  cases h : s.liveReq id with
  | none => exact absurd h hl
  | some l =>
    dsimp only
    cases l.src with
    | none => exact ⟨rfl, rfl, rfl⟩
    | some b =>
      dsimp only
      split
      · exact ⟨rfl, rfl, rfl⟩
      · exact ⟨rfl, rfl, rfl⟩

/-- A request that another switch's phase has read ends: the phase is done with its outcome. -/
theorem finishLive_phase {st : Nat} (hl : s.liveReq id = some l) (hp : l.phase = some g) (hq : findPhased s g = some q)
    (hh : s.halted = false) (hf : s.switchFenced g.src = false) : ∃ gs, finishLive id st s = endLive id
      ((putPhased { q with applied := Tab.set q.applied g.phase (some (if st = St.ok then firstBad s l.allot l 0 (2 ^ 59) else st)) } { s with gauges := gs }).emit
        (.phase 0xD9 g.src { g with holds := 0, status := if st = St.ok then firstBad s l.allot l 0 (2 ^ 59) else st, data := [] }.bytes)) := by
  generalize hfin : (if st = St.ok then firstBad s l.allot l 0 (2 ^ 59) else st) = fin
  have hcount1 : ∃ gs, (match s.allot l.allot with
      | some x => if l.siphoned && x.place == 1 then cisCount s 1 3 x 1 else s
      | none => s) = { s with gauges := gs } := by
    cases s.allot l.allot with
    | none => exact ⟨s.gauges, rfl⟩
    | some x =>
      dsimp only
      split
      · exact State.count_eq ..
      · exact ⟨s.gauges, rfl⟩
  obtain ⟨g1, h1⟩ := hcount1
  have hcount2 : ∃ gs, (if fin = St.fenced then fencedCount l.req.levee l.home { s with gauges := g1 } else { s with gauges := g1 }) = { s with gauges := gs } := by
    split
    · exact State.count_eq { s with gauges := g1 } _ 1
    · exact ⟨g1, rfl⟩
  obtain ⟨g2, h2⟩ := hcount2
  refine ⟨g2, ?_⟩
  rw [← phaseDone_kept (s := { s with gauges := g2 }) hq hh hf, ← h2, ← h1]
  unfold finishLive
  rw [hl]
  dsimp only
  rw [hfin, hp] <;> rfl

/-! ### The home -/

theorem ownerReply_kept {die : Nat} {j : Journal} (h : journalOf s die m = some (k, j)) : ownerReply die m s =
    { s with mem := { s.mem with journal := Tab.set s.mem.journal k { j with
      queries := Tab.del j.queries (256 + m.src),
      replies := if m.epoch < j.epoch then j.replies else Tab.set j.replies m.src m.holds } } } := by
  unfold ownerReply
  rw [h]

theorem phaseAck_other {die : Nat} {j : Journal} (h : journalOf s die m = some (k, j)) (hne : m.epoch ≠ j.epoch ∨ j.owner ≠ 256 + m.src ∨ m.phase ≠ j.phase) :
    phaseAck die m s = s := by
  unfold phaseAck
  rw [h]
  exact if_pos hne

/-- The journal entry of a copy whose source has been read: the home itself has the next phase. -/
def Journal.written (j : Journal) (s : State) : Journal :=
  { j with phase := j.phase + 1, owner := 256 + s.sw.switchId.toNat, epoch := (j.epoch + 1) % 65536, deadline := s.now + phaseTicks s }

/-- The copy with the bytes its source read. -/
def Live.sourced (l : Live) (s : State) : Live := { l with parts := [(0, s.freeBytes l.req.length)], segs := [], stage := 1 }

/-- The state with this one journal entry, a free value drawn. -/
def journalled (k : Nat) (j : Journal) (s : State) : State := { s with mem := { s.mem with journal := [(k, j)] }, free := s.free + 1 }

theorem phaseAck_copies {die : Nat} {j : Journal} (h : journalOf s die m = some (k, j)) (he : m.epoch = j.epoch) (ho : j.owner = 256 + m.src)
    (hp : m.phase = j.phase) (hst : m.status = 0) (hj : j.live = some id) (hl : s.liveReq id = some l) (hone : s.mem.journal = [(k, j)])
    {x : Allot} (hx : s.allot l.allot = some x) (hf : x.flags = 0) :
    phaseAck die m s = settle (startWrite id (copyFuel (l.sourced s)) (l.sourced s) (journalled k (j.written s) s)) := by
  have hstate : ({ s with mem := { s.mem with journal := Tab.set s.mem.journal k (j.written s) } } : State).drawn = journalled k (j.written s) s := by
    rw [hone]
    simp [State.drawn, journalled, Tab.set]
  have hco : x.coherent = false := by
    unfold Allot.coherent
    rw [hf]
    decide
  unfold phaseAck
  rw [h]
  dsimp only
  rw [if_neg (by simp [he, ho, hp]), hj, Option.bind_some, hl]
  dsimp only
  rw [if_neg (not_not.2 hst)]
  refine (if_neg ?_).trans ?_
  · show ¬ (s.allot l.allot).elim false (·.coherent) = true
    rw [hx, Option.elim_some, hco]
    exact Bool.false_ne_true
  · refine congrArg (fun w => settle (startWrite id (copyFuel (l.sourced s)) (l.sourced s) w)) (Eq.trans ?_ hstate)
    rw [show j.written s = { j.written s with live := some id } by rw [← hj]; rfl]
    rfl

/-- The state without journal entry `k`. -/
def unjournalled (k : Nat) (s : State) : State := { s with mem := { s.mem with journal := Tab.del s.mem.journal k } }

/-- The end of a request that has a journal entry. -/
theorem endLive_journal (hl : s.liveReq id = some l) (hsrc : l.src = none) (hj : l.journal = some k) (hr : s.cis.regions = []) (hh : s.cis.handles = []) :
    EngineKept (unjournalled k s) (endLive id s) ∧ (endLive id s).mem.live = Tab.del s.mem.live id ∧ (endLive id s).cis = s.cis ∧
      (endLive id s).free = s.free := by
  have hend : endLive id s = liveGone id l ((unjournalled k s).modAllot l.allot fun a => { a with inflight := a.inflight - 1 }) := by
    unfold endLive
    rw [hl]
    dsimp only
    rw [hsrc, hj]
    rfl
  have h1 := State.modAllot_kept (s := unjournalled k s) l.allot (fun a => { a with inflight := a.inflight - 1 }) fun y => ⟨_, rfl⟩
  obtain ⟨g1, -, g3, g4, -, -⟩ := liveGone_kept (s := (unjournalled k s).modAllot l.allot fun a => { a with inflight := a.inflight - 1 }) id l hr hh
  rw [hend]
  refine ⟨h1.trans g1, g3, g4, ?_⟩
  unfold liveGone
  rw [pruneHandles_none (by exact hr) (by exact hh)]
  rfl

/-- A copy of one part that holds a journal entry is answered, and both leave. -/
theorem finishLive_journal {off n : Nat} {x : Allot} (hl : s.liveReq id = some l) (h : OnePart s l off n x) (hp : l.phase = none) (hf : l.flume = none)
    (hk : l.kind.once) (hm : s.mute (reqHost l.req) = false) (hsrc : l.src = none) (hj : l.journal = some k)
    (hr : s.cis.regions = []) (hh : s.cis.handles = []) :
    EngineKept (unjournalled k s) (finishLive id St.ok s) ∧ (finishLive id St.ok s).out = s.out ++ [writeAnswer l off s] ∧
      (finishLive id St.ok s).mem.live = Tab.del s.mem.live id ∧ (finishLive id St.ok s).cis = s.cis ∧ (finishLive id St.ok s).free = s.free := by
  obtain ⟨g, hg⟩ := respond_once h hk hm
  obtain ⟨c, hc⟩ := ctxDone_eq l St.ok (respond l St.ok s)
  rw [finishLive_ok hl h hp, hf, if_neg (by decide), hc, hg]
  obtain ⟨e1, e3, e4, e5⟩ := endLive_journal (id := id) (l := l) (k := k)
    (s := { s with gauges := g, out := s.out ++ [writeAnswer l off s], mem := { s.mem with qpcs := qpcsAfter l s, ctxs := c } }) hl hsrc hj hr hh
  refine ⟨EngineKept.trans ?_ e1, (endLive_leaves (s := { s with
    gauges := g, out := s.out ++ [writeAnswer l off s], mem := { s.mem with qpcs := qpcsAfter l s, ctxs := c } }) id (by
      show s.liveReq id ≠ none
      rw [hl]
      exact Option.some_ne_none l)).1, e3, e4, e5⟩
  exact (EngineKept.of_gauges (w := unjournalled k s) g).trans ((EngineKept.of_out (w := { unjournalled k s with gauges := g }) _).trans
    (EngineKept.of_mem rfl rfl rfl (fun h => h) fun _ x h => ⟨x.inflight, h⟩))

/-- What the copy of a source that has been read leaves. -/
structure Copied (s v : State) (r : PoolReq) (a off : Nat) : Prop where
  calm : v.calm
  live : v.mem.live = []
  journal : v.mem.journal = []
  free : v.free = s.free + 1
  pool : v.cis.pool = s.cis.pool.writeN (poolKey a off) (s.freeBytes r.length)
  out : v.out = s.out ++ [poolAnswer s r 0xD1 0x00 false false true ⟨0, chanOf s a (off / 4096)⟩ 0 []]

/-- The home's copy writes the bytes its source read and is answered; it leaves, and its journal entry with it. -/
theorem copied_source {r : PoolReq} {a off home : Nat} {x : Allot} (hc : s.calm)
    (hl : s.mem.live = [(id, { kind := .copy, req := r, allot := a, home := home, journal := some k })]) (h : InTile s a off r.length x)
    (hoff : off = r.pva - x.pva) (hplain : bitOf r.flags 0 = false) (hm : s.mute (reqHost r) = false) (j : Journal) : ∃ v,
      startWrite id (copyFuel (Live.sourced { kind := .copy, req := r, allot := a, home := home, journal := some k } s))
        (Live.sourced { kind := .copy, req := r, allot := a, home := home, journal := some k } s) (journalled k j s) = v ∧ Copied s v r a off := by
  generalize hM : Live.sourced { kind := .copy, req := r, allot := a, home := home, journal := some k } s = M
  generalize hJ : journalled k j s = J
  have hlen : (s.freeBytes r.length).length = r.length := length_toBe ..
  have hMf : M.kind = .copy ∧ M.req = r ∧ M.allot = a ∧ M.parts = [(0, s.freeBytes r.length)] ∧ M.stat = [] ∧ M.waits = [] ∧ M.missed = [] ∧
      M.siphoned = false ∧ M.phase = none ∧ M.flume = none ∧ M.journal = some k ∧ M.rdma = none ∧ M.held = false ∧ M.src = none := by
    rw [← hM]
    exact ⟨rfl, rfl, rfl, rfl, rfl, rfl, rfl, rfl, rfl, rfl, rfl, rfl, rfl, rfl⟩
  obtain ⟨hkind, hreq, hall, hparts, hst, hwaits, hmi, hsip, hph, hfl, hj, hnr, hheld, hsrc⟩ := hMf
  have hJf : J.cis = s.cis ∧ J.mem.live = s.mem.live ∧ J.mem.journal = [(k, j)] ∧ J.free = s.free + 1 ∧ J.out = s.out ∧ J.calm ∧
      InTile J a off r.length x ∧ J.mute (reqHost r) = false := by
    rw [← hJ]
    exact ⟨rfl, rfl, rfl, rfl, rfl, hc, ⟨h.allot, h.place, h.flags, h.sound, h.plain, h.pos, h.inside⟩, hm⟩
  obtain ⟨hJcis, hJlive, hJjournal, hJfree, hJout, hJcalm, hJtile, hJmute⟩ := hJf
  subst hoff
  have hstart := startWrite_copy (id := id) (s := J) (l := { kind := .copy, req := r, allot := a, home := home }) (m := M)
    (data := s.freeBytes r.length) ⟨hkind, hreq, hall, hparts, hst, hwaits⟩ ⟨rfl, rfl, rfl, rfl, rfl, rfl, rfl, rfl, hplain⟩ hJtile hJcalm.1.1
  dsimp only at hstart
  generalize r.pva - x.pva = off at *
  obtain ⟨y, hput, hpool, hkept, hsound⟩ := putTile_plain (s := J.setLive id (M.writing off)) (off := off) ⟨hJtile.allot, hJtile.place, hJtile.sound, hJtile.plain⟩
    (slice (s.freeBytes r.length) 0 r.length) 4
  rw [hput] at hstart
  rw [slice_whole hlen] at hpool
  have hway : OnWay J { J.setLive id (M.writing off) with cis := y } id (M.writing off) :=
    ⟨(State.setLive_kept id _).trans hkept, rfl, ((OnWay.start (hJlive.trans hl)).setLive (M.writing off)).live, rfl⟩
  have hway' := hway.setLive (M.writing off).written
  generalize hW : State.setLive { J.setLive id (M.writing off) with cis := y } id (M.writing off).written = W at hstart hway'
  obtain ⟨z, hpart⟩ := hway'.onePart (off := off) (n := r.length) (x := x) (by show J.allot M.allot = _; rw [hall]; exact hJtile.allot)
    (by show State.isPoisoned W M.allot _ = _; rw [hall, ← hW]; exact hsound _ hJtile.sound) (by show [oneSeg off M.req.length] = _; rw [hreq]) hst hmi hsip
  have hfin := finishLive_journal (k := k) hway'.liveReq hpart hph hfl (.inr (.inr (.inl hkind))) (by
    rw [hway'.kept.mute]
    show J.mute (reqHost M.req) = false
    rw [hreq]
    exact hJmute) hsrc hj (hway'.kept.regions hJcalm.1.1) (hway'.kept.handles hJcalm.1.2.1)
  obtain ⟨f1, f2, f3, f4, f5⟩ := hfin
  have hatomic : isAtomic (M.writing off).written = false := by
    show isAtomic M = false
    rw [isAtomic, hkind]
    rfl
  have hcalmW : (unjournalled k W).calm := hway'.kept.calm hJcalm
  have hanswer : writeAnswer (M.writing off).written off W = poolAnswer s r 0xD1 0x00 false false true ⟨0, chanOf s a (off / 4096)⟩ 0 [] := by
    rw [writeAnswer_kept (x := x) hway'.kept (by show J.allot M.allot = _; rw [hall]; exact hJtile.allot)]
    unfold writeAnswer
    rw [hatomic, show (M.writing off).written.rdma = none from hnr]
    dsimp only
    rw [show (M.writing off).written.req = r from hreq, show (M.writing off).written.kind = .copy from hkind,
      show (M.writing off).written.allot = a from hall, show (M.writing off).written.held = false from hheld, if_neg Bool.false_ne_true, ← hJ]
    rfl
  have hWf : W.cis = y ∧ W.free = J.free := by
    rw [← hW]
    exact ⟨rfl, rfl⟩
  refine ⟨_, hstart, f1.calm hcalmW, f3.trans hway'.del, ?_, ?_, ?_, ?_⟩
  · rw [f1.journal]
    show Tab.del W.mem.journal k = []
    rw [hway'.kept.journal, hJjournal]
    simp [Tab.del]
  · rw [f5, hWf.2, hJfree]
  · rw [f4, hWf.1, hpool]
    exact congrArg (fun c : Cistern => c.pool.writeN (poolKey a off) (s.freeBytes r.length)) hJcis
  · rw [f2, hway'.out, hJout, hanswer]

/-! ### A phase's deadline -/

theorem phaseExpiry_early {die entry : Nat} {j : Journal} (h : Tab.get? s.mem.journal (die * 8192 + entry) = some j) (hd : s.now < j.deadline) :
    phaseExpiry die entry s = s := by
  unfold phaseExpiry
  dsimp only
  rw [h]
  exact if_pos hd

/-- The entry of a copy whose source's deadline has passed: a new epoch, and a query outstanding. -/
def Journal.asked (j : Journal) (w : Nat) (s : State) : Journal :=
  { j with
    epoch := (j.epoch + 1) % 65536, deadline := s.now + phaseTicks s
    queries := Tab.set j.queries (256 + w) (Tab.getD j.queries (256 + w) 0 + 1) }

/-- The member that has the phase is asked, and the phase issued to it again. -/
theorem phaseExpiry_asks {die entry w : Nat} {j : Journal} (h : Tab.get? s.mem.journal (die * 8192 + entry) = some j) (hd : j.deadline ≤ s.now)
    (hmem : j.members = [256 + w, 256 + s.sw.switchId.toNat]) (hw : w ≠ s.sw.switchId.toNat) (ho : j.owner = 256 + w) :
    phaseExpiry die entry s = State.count { s with
      mem := { s.mem with journal := Tab.set s.mem.journal (die * 8192 + entry) (j.asked w s) }
      out := s.out ++ [.phase 0xDA w (journalMsg s j (zeros 16)).bytes, .phase 0xD8 w (journalMsg s (j.asked w s) (sourceArg s (j.asked w s))).bytes] }
      (gk 3 3 0 die) 1 := by
  have hothers : j.members.filter (fun (m : Nat) => decide (256 ≤ m) && m != 256 + s.sw.switchId.toNat) = [256 + w] := by
    rw [hmem]
    simp [hw]
  unfold phaseExpiry
  dsimp only
  rw [h]
  dsimp only
  rw [if_neg (Nat.not_lt.2 hd), hothers, List.foldl_cons, List.foldl_nil, List.foldl_cons, List.foldl_nil, Nat.add_sub_cancel_left]
  refine (if_pos ?_).trans ?_
  · rw [ho]
    simp [hw]
  · unfold sendPhase
    dsimp only
    rw [show j.owner - 256 = w by omega]
    simp only [State.emit, List.append_assoc, List.cons_append, List.nil_append]
    rfl

end

/-- Settles O30: a member applies a phase once and acknowledges it with its outcome again; the home's copy writes the free value that
stands for what its source read, and at a deadline the home asks the member and issues the phase again under a new epoch. -/
theorem phasesBetweenSwitches : Obligations.PhasesBetweenSwitches := by
  unfold Obligations.PhasesBetweenSwitches
  intro T src p s u m answer away hh hf
  have hnames (q : Phased) (b : Tab (Option Nat)) (h : findPhased s m = some q) : Phased.names { q with epoch := m.epoch, applied := b } m :=
    (findPhased_names h : Phased.names q m)
  have hdone (q : Phased) (b : Tab (Option Nat)) (hq : Phased.names { q with epoch := m.epoch, applied := b } m) (haway : away) :
      phaseRead p.die m (putPhased { q with epoch := m.epoch, applied := b } u) =
        (putPhased { q with epoch := m.epoch, applied := Tab.set b m.phase (some 0x11) } (putPhased { q with epoch := m.epoch, applied := b } u)).emit
          (answer m 0xD9 0 0x11) :=
    (phaseRead_away (s := putPhased _ u) haway).trans (phaseDone_kept (s := putPhased _ u) (findPhased_putPhased hq) hh hf)
  refine ⟨fun hnone haway => ?_, fun q hq he => ⟨fun st hst => ?_, fun hst => ?_, fun hst haway => ?_⟩, fun q hq he => ?_,
    fun id st l g q hl hp hq hfg => ?_, fun hnone => ?_, fun q hq he => ?_, fun k j hj => ⟨fun hne => ?_, ?_, ?_⟩,
    fun die e j w j' hj => ⟨fun hd => ?_, fun hd hmem hw ho hj' => ?_⟩⟩
  · have hrow : phaseApply p.die m u = phaseRead p.die m (putPhased
        { home := m.home, levee := m.levee, queue := m.queue, seq := m.seq, epoch := m.epoch, applied := [(m.phase, none)], holds := true } u) := by
      unfold phaseApply
      rw [show findPhased u m = none from hnone]
    have hread := hdone { home := m.home, levee := m.levee, queue := m.queue, seq := m.seq, epoch := m.epoch, applied := [(m.phase, none)], holds := true }
      [(m.phase, none)] ⟨rfl, rfl, rfl, rfl⟩ haway
    refine ⟨_, _, congrArg Host.Outcome.next (hrow.trans hread), rfl, findPhased_putPhased ⟨rfl, rfl, rfl, rfl⟩, ?_, rfl, rfl, rfl⟩
    simp [Tab.set]
  · have hrow : phaseApply p.die m u = phaseAnswer 0xD9 m 0 st (putPhased { q with epoch := m.epoch } u) := by
      unfold phaseApply
      rw [show findPhased u m = some q from hq]
      dsimp only
      rw [if_neg (Nat.not_lt.2 he), hst]
    rw [phaseAnswer_heard (m := m) (s := putPhased _ u) hh hf] at hrow
    exact ⟨_, _, congrArg Host.Outcome.next hrow, rfl, findPhased_putPhased (hnames q q.applied hq), rfl, rfl, rfl⟩
  · have hrow : phaseApply p.die m u = putPhased { q with epoch := m.epoch } u := by
      unfold phaseApply
      rw [show findPhased u m = some q from hq]
      dsimp only
      rw [if_neg (Nat.not_lt.2 he), hst]
    exact ⟨_, congrArg Host.Outcome.next hrow, rfl, findPhased_putPhased (hnames q q.applied hq), rfl, rfl⟩
  · have hrow : phaseApply p.die m u = phaseRead p.die m (putPhased { q with epoch := m.epoch, applied := Tab.set q.applied m.phase none } u) := by
      unfold phaseApply
      rw [show findPhased u m = some q from hq]
      dsimp only
      rw [if_neg (Nat.not_lt.2 he), hst]
    have hread := hdone q (Tab.set q.applied m.phase none) (hnames q _ hq) haway
    exact ⟨_, _, congrArg Host.Outcome.next (hrow.trans hread), rfl, findPhased_putPhased (hnames q _ hq), Tab.get?_set_self .., rfl⟩
  · refine ⟨congrArg Host.Outcome.next ?_, congrArg Host.Outcome.next ?_⟩
    · show phaseApply p.die m u = u
      unfold phaseApply
      rw [show findPhased u m = some q from hq]
      exact if_pos he
    · show ownerQuery m u = u
      unfold ownerQuery
      rw [show findPhased u m = some q from hq]
      exact if_pos he
  · obtain ⟨gs, hfin⟩ := finishLive_phase (st := st) hl hp hq hh hfg
    generalize hw : State.emit _ _ = w at hfin
    have hwl : w.liveReq id = some l := by rw [← hw]; exact hl
    obtain ⟨h1, h2, h3⟩ := endLive_leaves w id (by rw [hwl]; exact Option.some_ne_none l)
    have hphased : findPhased (endLive id w) g = findPhased w g := by
      unfold findPhased
      rw [h2]
    refine ⟨_, { q with applied := Tab.set q.applied g.phase (some (if st = St.ok then firstBad s l.allot l 0 (2 ^ 59) else st)) }, _, hfin, rfl, ?_, ?_,
      Tab.get?_set_self .., ?_⟩
    · rw [h1, ← hw]
      rfl
    · rw [hphased, ← hw]
      exact findPhased_putPhased (findPhased_names hq : Phased.names q g)
    · unfold State.liveReq
      rw [h3, Tab.get?_del, if_pos rfl]
  · refine congrArg Host.Outcome.next ?_
    show ownerQuery m u = _
    unfold ownerQuery
    rw [show findPhased u m = none from hnone]
    exact phaseAnswer_heard (s := u) hh hf
  · have hrow : ownerQuery m u = phaseAnswer 0xDB m (ofBool q.holds) 0 (putPhased { q with epoch := m.epoch } u) := by
      unfold ownerQuery
      rw [show findPhased u m = some q from hq]
      exact if_neg (Nat.not_lt.2 he)
    rw [phaseAnswer_heard (m := m) (s := putPhased _ u) hh hf] at hrow
    exact ⟨_, congrArg Host.Outcome.next hrow, rfl⟩
  · exact congrArg Host.Outcome.next (phaseAck_other (s := u) hj hne)
  · exact congrArg Host.Outcome.next (ownerReply_kept (s := u) hj)
  · intro id r a x off he ho hp hst hlive hone hhosts hctxs hrights hl hx hc hon hwf
    have htile : InTile u a off r.length x := onCistern_inTile hon hx
    obtain ⟨y, hy, -, -, -, -, -, hoff, -, hplain, -, -, -, -, hmute⟩ := hon
    obtain rfl : x = y := Option.some.inj (hx.symm.trans hy)
    obtain ⟨v, hv, hcopied⟩ := copied_source (s := u) hc hl htile hoff hplain hmute (j.written u)
    have hlives : u.liveReq id = some { kind := .copy, req := r, allot := a, home := x.home, journal := some k } := by
      unfold State.liveReq
      rw [show u.mem.live = _ from hl, Tab.get?_cons, if_pos rfl]
    have hrow := phaseAck_copies (s := u) hj he ho hp hst hlive hlives hone (x := x) hx htile.flags
    rw [hv, settle_calm hcopied.calm hcopied.live] at hrow
    exact ⟨v, congrArg Host.Outcome.next hrow, hcopied.live, hcopied.journal, hcopied.free, poolPut_writeN hwf hcopied.pool, hcopied.out⟩
  · exact congrArg Host.Outcome.next (phaseExpiry_early (s := s.tick T) hj hd)
  · obtain ⟨gs, hgs⟩ := State.count_eq { s.tick T with
      mem := { s.mem with journal := Tab.set s.mem.journal (die * 8192 + e) j' }
      out := s.out ++ [.phase 0xDA w (journalMsg s j (zeros 16)).bytes, .phase 0xD8 w (journalMsg s j' (sourceArg s j')).bytes] } (gk 3 3 0 die) 1
    subst hj'
    exact ⟨_, congrArg Host.Outcome.next ((phaseExpiry_asks (s := s.tick T) hj hd hmem hw ho).trans hgs), rfl, Tab.get?_set_self .., rfl, rfl⟩

end Sys2Proof.Machine
end

section
/-! PROOFS. Lock cycles: a load, its shards, its partner, an admission (14 R468–R472). -/
namespace Sys2Proof.Machine

section
variable {s v w : State} {l : Load} {x : Shard} {a : Allot}

/-! ### What the end of a command or of a tray's operations leaves alone -/

theorem State.workDone_flt_cis (s : State) (w : Work → Bool) (st : Nat) (frags : List Bytes) :
    (s.workDone w st frags).flt = s.flt ∧ (s.workDone w st frags).cis = s.cis ∧ (s.workDone w st frags).now = s.now := by
  obtain ⟨k, -, o, g, c, f, p, hv⟩ := s.workDone_answered w st frags
  rw [hv]
  exact ⟨rfl, rfl, rfl⟩

theorem detachIfDone_flt_cis (n : Nat) (s : State) : (detachIfDone n s).flt = s.flt ∧ (detachIfDone n s).cis = s.cis := by
  unfold detachIfDone
  split
  · exact ⟨rfl, rfl⟩
  · split
    · obtain ⟨h1, h2, -⟩ := State.workDone_flt_cis { s with mem := { s.mem with
        trays := Tab.del s.mem.trays n, occ := Tab.del s.mem.occ n,
        allots := Tab.mapVals s.mem.allots fun _ a => if a.st = .releasing then trayGone n a else a } } (fun w => w == .detach n) St.ok []
      exact ⟨h1, h2⟩
    · exact ⟨rfl, rfl⟩

theorem detachDone_flt_cis (s : State) : (detachDone s).flt = s.flt ∧ (detachDone s).cis = s.cis := by
  unfold detachDone
  refine List.foldlRecOn (motive := fun (v : State) => v.flt = s.flt ∧ v.cis = s.cis) _ _ ⟨rfl, rfl⟩ fun v hv e _ => ?_
  obtain ⟨h1, h2⟩ := detachIfDone_flt_cis e.1 v
  exact ⟨h1.trans hv.1, h2.trans hv.2⟩

theorem delOps_eq (p : TrayOp → Bool) (s : State) : ∃ ops occ, delOps p s = { s with mem := { s.mem with ops := ops, occ := occ } } := by
  unfold delOps
  refine List.foldlRecOn (motive := fun (v : State) => ∃ ops occ, v = { s with mem := { s.mem with ops := ops, occ := occ } }) _ _ ⟨s.mem.ops, s.mem.occ, rfl⟩
    fun v hv e _ => ?_
  obtain ⟨ops, occ, rfl⟩ := hv
  unfold delOp noteOps
  split
  · exact ⟨ops, occ, rfl⟩
  · exact ⟨_, _, rfl⟩

theorem delOps_leaves (p : TrayOp → Bool) (s : State) : (delOps p s).flt = s.flt ∧ (delOps p s).cis = s.cis ∧ (delOps p s).mem.allots = s.mem.allots := by
  obtain ⟨ops, occ, h⟩ := delOps_eq p s
  rw [h]
  exact ⟨rfl, rfl, rfl⟩

theorem State.workDone_engines (s : State) (w : Work → Bool) (st : Nat) (frags : List Bytes) :
    (s.workDone w st frags).mem = s.mem ∧ (s.workDone w st frags).coh = s.coh := by
  obtain ⟨k, -, o, g, c, f, p, hv⟩ := s.workDone_answered w st frags
  rw [hv]
  exact ⟨rfl, rfl⟩

/-! ### A load's end -/

/-- What the end of a load leaves. -/
structure LoadEnded (s v : State) (ok : Bool) : Prop where
  load : v.flt.load = none
  lock : v.flt.lock = if ok then .loaded else .aborted
  done : v.flt.lockDone = s.flt.lockDone
  fences : v.flt.fences = s.flt.fences
  event : ok = false → v.flt.event.getLsbD 2 = true
  cis : v.cis = s.cis
  mem : v.mem = s.mem
  coh : v.coh = s.coh

theorem endLoad_ended (hl : s.flt.load = some l) (st : Nat) : LoadEnded s (endLoad st s) (st == St.ok) := by
  have hwork (u : State) (frags : List Bytes) (hu : LoadEnded s u (st == St.ok)) : LoadEnded s (u.drawn.workDone (fun w => w == .lock) st frags) (st == St.ok) := by
    obtain ⟨h1, h2, -⟩ := State.workDone_flt_cis u.drawn (fun w => w == .lock) st frags
    obtain ⟨h3, h4⟩ := State.workDone_engines u.drawn (fun w => w == .lock) st frags
    exact ⟨by rw [h1]; exact hu.load, by rw [h1]; exact hu.lock, by rw [h1]; exact hu.done, by rw [h1]; exact hu.fences,
      fun h => by rw [h1]; exact hu.event h, h2.trans hu.cis, h3.trans hu.mem, h4.trans hu.coh⟩
  unfold endLoad
  rw [hl]
  dsimp only
  refine hwork _ _ ?_
  cases hok : (st == St.ok) with
  | true => exact ⟨rfl, rfl, rfl, rfl, fun h => absurd h (by decide), rfl, rfl, rfl⟩
  | false =>
    rw [if_neg Bool.false_ne_true, if_neg Bool.false_ne_true]
    obtain ⟨gs, hgs⟩ := State.count_eq ((stateRecord 3 (State.faultEvent { s with flt := { s.flt with load := none, lock := .aborted } } 2)).notify 3 0 (zeros 32)) (gk 0x0B 2 1) 1
    rw [hgs]
    unfold stateRecord
    refine ⟨?_, ?_, ?_, ?_, fun _ => ?_, ?_, ?_, ?_⟩
    all_goals simp [State.notify, State.faultEvent, State.mark, getLsbD_setBit]

/-! ### A load begins -/

/-- An unfinished shard is read on from the partner. -/
theorem lockNext_reads {n i : Nat} (hl : s.flt.load = some l) (hc : curShard l = some (i, x)) (hleft : x.len - 4096 * x.tiles ≠ 0) (hk : l.pkind = 0)
    (ht : l.at_ = s.now) : lockNext (n + 1) s =
      s.emit (.lockRead i l.paddr l.pqpn l.laddr x.levee (x.src + 4096 * x.tiles) (min (x.len - 4096 * x.tiles) 65536)) := by
  have hsame : ({ s with flt := { s.flt with load := some { l with at_ := s.now } } } : State) = s := by
    rw [show ({ l with at_ := s.now } : Load) = l by rw [← ht], ← hl]
  unfold lockNext
  rw [hl]
  dsimp only
  rw [hc]
  dsimp only
  rw [if_neg hleft, if_pos hk, hsame]

theorem lockNext_shardDone {n i : Nat} (hl : s.flt.load = some l) (hc : curShard l = some (i, x)) (hleft : x.len - 4096 * x.tiles = 0) :
    lockNext (n + 1) s = lockNext n { s with flt := { s.flt with
      load := some (setShard i { x with status := some St.ok } l), lockDone := s.flt.lockDone + 1 } } := by
  conv_lhs => unfold lockNext
  rw [hl]
  dsimp only
  rw [hc]
  exact if_pos hleft

theorem lockNext_all {n : Nat} (hl : s.flt.load = some l) (hc : curShard l = none) : lockNext (n + 1) s = endLoad St.ok s := by
  conv_lhs => unfold lockNext
  rw [hl]
  dsimp only
  rw [hc]

theorem curShard_one (h : l.shards = [x]) : curShard l = if x.status.isNone then some (0, x) else none := by
  unfold curShard
  rw [h]
  show [(0, x)].find? _ = _
  rw [List.find?_singleton]

/-! ### A shard's tiles -/

theorem getD_slice {d : Bytes} {o n i : Nat} (h : o + n ≤ d.length) (hi : i < n) : (slice d o n).getD i 0 = d.getD (o + i) 0 := by
  have hlen : ((d.drop o).take n).length = n := by
    rw [List.length_take, List.length_drop]
    omega
  unfold slice
  dsimp only
  rw [hlen, Nat.sub_self, show zeros 0 = [] from rfl, List.append_nil]
  simp [List.getD_eq_getElem?_getD, hi]

theorem length_slice (d : Bytes) (o n : Nat) : (slice d o n).length = n := by
  unfold slice
  dsimp only
  rw [List.length_append, length_zeros, List.length_take]
  omega

/-- Whole tiles placed in the cistern: their bytes are the shard's, and the rest of the pool stays. -/
theorem placeTiles_cistern {k off i : Nat} (ha : s.allot k = some a) (hp : a.place = 0) (hoff : off % 4096 = 0) {d : Bytes} (hwf : Mem.wf s.cis.pool = true)
    (n : Nat) (hn : 4096 * n ≤ d.length) : ∃ y as inv iv,
      (List.range n).foldl (fun s j => placeTile k (off / 4096 + j) i (slice d (4096 * j) 4096) s) s =
        { s with cis := y, mem := { s.mem with allots := as }, sec := { s.sec with invocations := inv, tileIv := iv } } ∧
      Mem.wf y.pool = true ∧ (∃ b, Tab.get? as k = some b ∧ b.place = 0) ∧
      ∀ j, y.pool.read j = if poolKey k off ≤ j ∧ j < poolKey k off + 4096 * n then d.getD (j - poolKey k off) 0 else s.cis.pool.read j := by
  induction n with
  | zero => exact ⟨s.cis, s.mem.allots, s.sec.invocations, s.sec.tileIv, rfl, hwf, ⟨a, ha, hp⟩, fun j => (if_neg (by omega)).symm⟩
  | succ n ih =>
    obtain ⟨y, as, inv, iv, hfold, hy, ⟨b, hb, hbp⟩, hread⟩ := ih (by omega)
    rw [List.range_succ, List.foldl_append, hfold, List.foldl_cons, List.foldl_nil]
    generalize hw : ({ s with cis := y, mem := { s.mem with allots := as }, sec := { s.sec with invocations := inv, tileIv := iv } } : State) = w
    have hwa : w.allot k = some b := by rw [← hw]; exact hb
    obtain ⟨z, inv', iv', hpool, hput⟩ := putTile_eq k (off / 4096 + n) 0 (slice d (4096 * n) 4096) 4 (w.modAllot k fun x => { x with written := true })
    have hstep : placeTile k (off / 4096 + n) i (slice d (4096 * n) 4096) w =
        { w.modAllot k fun x => { x with written := true } with cis := z, sec := { (w.modAllot k fun x => { x with written := true }).sec with invocations := inv', tileIv := iv' } } := by
      unfold placeTile
      rw [hwa]
      dsimp only
      rw [if_pos hbp]
      exact hput
    have hcis : (w.modAllot k fun x => { x with written := true }).cis = y := by rw [← hw]; rfl
    have hkey : poolKey k (4096 * (off / 4096 + n) + 0) = poolKey k off + 4096 * n := by
      unfold poolKey
      omega
    rw [hcis, hkey] at hpool
    rw [hstep, ← hw]
    refine ⟨z, _, inv', iv', rfl, hpool ▸ Mem.wf_writeN _ _ hy, ⟨{ b with written := true }, ?_, hbp⟩, fun j => ?_⟩
    · show Tab.get? (Tab.upd as k _) k = _
      rw [Tab.get?_upd, if_pos rfl, hb]
      rfl
    · rw [hpool, Mem.read_writeN _ _ _ hy, length_slice, hread]
      by_cases h1 : poolKey k off + 4096 * n ≤ j ∧ j < poolKey k off + 4096 * n + 4096
      · rw [if_pos h1, if_pos (by omega), getD_slice (by omega) (by omega)]
        congr 1
        omega
      · rw [if_neg h1]
        by_cases h2 : poolKey k off ≤ j ∧ j < poolKey k off + 4096 * n
        · rw [if_pos h2, if_pos (by omega)]
        · rw [if_neg h2, if_neg (by omega)]

/-- The last bytes of the one shard that is read end the load. -/
theorem shardRead_last {d : Bytes} (hlock : s.flt.lock = .loading) (hl : s.flt.load = some l) (hone : l.shards = [x]) (hx : x.status = none)
    (ht : x.tiles = 0) (hlen : d.length = x.len) (hmod : x.len % 4096 = 0) (hoff : x.off % 4096 = 0) (ha : s.allot x.allot = some a)
    (hp : a.place = 0) (hwf : Mem.wf s.cis.pool = true) : ∃ w, LoadEnded w (shardRead 0 St.ok d s) true ∧ w.flt.lockDone = s.flt.lockDone + 1 ∧
      poolPut s w (poolKey x.allot x.off) d := by
  have hn : min (d.length / 4096) ((x.len - 4096 * x.tiles) / 4096) = x.len / 4096 := by
    rw [hlen, ht]
    simp
  have hall : 4096 * (x.len / 4096) = d.length := by omega
  obtain ⟨y, as, inv, iv, hfold, hy, -, hread⟩ := placeTiles_cistern (i := 0) ha hp hoff (d := d) hwf (x.len / 4096) (by omega)
  have hplaced : placeTiles x.allot (x.off / 4096 + x.tiles) 0 (d.take (4096 * (x.len / 4096))) s =
      { s with cis := y, mem := { s.mem with allots := as }, sec := { s.sec with invocations := inv, tileIv := iv } } := by
    unfold placeTiles
    rw [hall, List.take_length, hlen, ht]
    exact hfold
  generalize hw : ({ s with cis := y, mem := { s.mem with allots := as }, sec := { s.sec with invocations := inv, tileIv := iv } } : State) = w at hplaced
  have hcur : curShard l = some (0, x) := by rw [curShard_one hone, hx]; rfl
  have hrow : shardRead 0 St.ok d s = lockNext 127 { w with flt := { w.flt with load := some (setShard 0 { x with tiles := x.tiles + x.len / 4096 } l) } } := by
    unfold shardRead
    rw [hlock, hl]
    dsimp only
    rw [hcur]
    dsimp only
    rw [if_neg (not_not.2 rfl), if_neg (fun h => h.1 rfl), if_neg (not_not.2 rfl), hn, hplaced]
  have hset (z : Shard) (m : Load) (hm : m.shards = [x] ∨ ∃ z', m.shards = [z']) : (setShard 0 z m).shards = [z] := by
    rcases hm with hm | ⟨z', hm⟩
    · simp [setShard, hm]
    · simp [setShard, hm]
  have h1 := hset { x with tiles := x.tiles + x.len / 4096 } l (.inl hone)
  have h2 := hset { x with tiles := x.tiles + x.len / 4096, status := some St.ok } (setShard 0 { x with tiles := x.tiles + x.len / 4096 } l) (.inr ⟨_, h1⟩)
  generalize hv : ({ w with flt := { w.flt with load := some (setShard 0 { x with tiles := x.tiles + x.len / 4096 } l) } } : State) = v at hrow
  have hvl : v.flt.load = some (setShard 0 { x with tiles := x.tiles + x.len / 4096 } l) := by rw [← hv]
  have hstep1 := lockNext_shardDone (n := 126) hvl ((curShard_one h1).trans (if_pos (by rw [hx]; rfl))) (by dsimp only; rw [ht]; omega)
  generalize hv2 : ({ v with flt := { v.flt with
    load := some (setShard 0 { { x with tiles := x.tiles + x.len / 4096 } with status := some St.ok } (setShard 0 { x with tiles := x.tiles + x.len / 4096 } l)),
    lockDone := v.flt.lockDone + 1 } } : State) = v2 at hstep1
  have hv2l : v2.flt.load = some (setShard 0 { { x with tiles := x.tiles + x.len / 4096 } with status := some St.ok } (setShard 0 { x with tiles := x.tiles + x.len / 4096 } l)) := by
    rw [← hv2]
  have hstep2 := lockNext_all (n := 125) hv2l ((curShard_one h2).trans (if_neg (by exact Bool.false_ne_true)))
  refine ⟨v2, ?_, ?_, ?_⟩
  · rw [hrow, hstep1, hstep2]
    exact endLoad_ended hv2l St.ok
  · rw [← hv2, ← hv, ← hw]
  · have hcis : v2.cis = y := by rw [← hv2, ← hv, ← hw]
    refine ⟨fun i hi => ?_, fun j hj => ?_⟩
    · rw [hcis, hread, hall, if_pos (by omega), Nat.add_sub_cancel_left]
    · rw [hcis, hread, hall, if_neg (by omega)]

/-- A read that fails ends the load. -/
theorem shardRead_fails {st : Nat} {d : Bytes} (hlock : s.flt.lock = .loading) (hl : s.flt.load = some l) (hone : l.shards = [x]) (hx : x.status = none)
    (h0 : st ≠ St.ok) (hf : st ≠ St.fenced) (hp : st ≠ St.poolLost) :
    LoadEnded { s with flt := { s.flt with load := some (setShard 0 { x with status := some st } l) } } (shardRead 0 st d s) false := by
  have hrow : shardRead 0 st d s = endLoad st { s with flt := { s.flt with load := some (setShard 0 { x with status := some st } l) } } := by
    unfold shardRead
    rw [hlock, hl]
    dsimp only
    rw [(curShard_one hone).trans (if_pos (by rw [hx]; rfl))]
    dsimp only
    rw [if_neg (not_not.2 rfl), if_neg (by tauto), if_pos h0]
  rw [hrow, ← beq_eq_false_iff_ne.2 h0]
  exact endLoad_ended rfl st

/-! ### A partner that falls silent -/

theorem fencedBy_none (h : s.flt.fences = []) (p : Fence → Bool) : s.fencedBy p = false := by
  unfold State.fencedBy
  rw [h]
  rfl

theorem partnerFenced_none (h : s.flt.fences = []) (hk : l.pkind = 0) : partnerFenced s l = false := by
  unfold partnerFenced
  rw [if_pos hk]
  unfold State.switchFenced ipFenced State.addrFenced
  rw [fencedBy_none h, fencedBy_none h]
  cases portOfIp s l.paddr with
  | none => rfl
  | some p => exact (fencedBy_none h _ : s.portFenced p = false)

theorem freeReserve_first (h : s.flt.fences = []) : freeReserve s = some 7680 := by
  obtain ⟨n, hn⟩ : ∃ n, 512 = n + 1 := ⟨511, rfl⟩
  unfold freeReserve Tab.lowestFreeFrom
  rw [h, hn, List.range_succ_eq_map, List.find?_cons]
  rfl

/-- The fence of a partner switch. -/
def partnerDesc (pid : Nat) : Bytes := fenceDesc 4 7 0 0 0 pid 0

theorem partnerDesc_reads (pid : Nat) (h : pid ≤ 127) : byteAt (partnerDesc pid) 0 = 4 ∧ be (partnerDesc pid) 8 4 = pid :=
  (show ∀ n < 128, byteAt (partnerDesc n) 0 = 4 ∧ be (partnerDesc n) 8 4 = n by decide) pid (by omega)

/-- A fence added is in the table; the engines are as they were. -/
theorem addFence_leaves (d : Bytes) (auto : Bool) (i : Nat) (s : State) : (addFence d auto i s).mem = s.mem ∧ (addFence d auto i s).coh = s.coh ∧
    (addFence d auto i s).cis = s.cis ∧ (addFence d auto i s).flt.load = s.flt.load ∧
    (addFence d auto i s).flt.fences = Tab.set s.flt.fences i { desc := d, auto := auto, time := s.usec, serial := s.flt.serial } := by
  obtain ⟨gs, hgs⟩ := State.count_eq { s with flt := { s.flt with
    fences := Tab.set s.flt.fences i { desc := d, auto := auto, time := s.usec, serial := s.flt.serial }, serial := s.flt.serial + 1,
    wanted := s.flt.wanted.filter fun w => !sameTarget w.1 d } } (gk 0x0B 1 (if auto then 0 else 1)) 1
  unfold addFence
  dsimp only
  rw [hgs]
  unfold fenceRecord
  cases auto with
  | true => refine ⟨?_, ?_, ?_, ?_, ?_⟩ <;> simp [State.notify, State.faultEvent, State.mark]
  | false => refine ⟨?_, ?_, ?_, ?_, ?_⟩ <;> simp [State.notify]

/-- A partner not fenced yet is fenced, and the load is lost. -/
theorem partnerFails_fences (hc : s.calm) (hlive : s.mem.live = []) (hj : s.mem.journal = []) (hl : s.flt.load = some l) (hk : l.pkind = 0)
    (hp : l.pid ≤ 127) (hf : s.flt.fences = []) : ∃ w, LoadEnded w (partnerFails s) false ∧ w.mem = s.mem ∧ w.coh = s.coh ∧ w.cis = s.cis ∧
      w.switchFenced l.pid = true := by
  obtain ⟨hkind, hid⟩ := partnerDesc_reads l.pid hp
  obtain ⟨h1, h2, h3, -, h6⟩ := addFence_leaves (partnerDesc l.pid) true 7680 s
  generalize hv : addFence (partnerDesc l.pid) true 7680 s = v at h1 h2 h3 h6
  have hvcalm : v.calm := by
    unfold State.calm State.still
    rw [h1, h2, h3]
    exact hc
  have hfence : autoFence (partnerDesc l.pid) s = v := by
    have htry : tryFence (partnerDesc l.pid) s = (v, true) := by
      unfold tryFence
      rw [show findFence s (partnerDesc l.pid) = none by unfold findFence; rw [hf]; rfl, if_neg (by decide), freeReserve_first hf]
      exact congrArg (·, true) hv
    have hown : ownedBy v (256 + l.pid) = [] := by
      unfold ownedBy
      rw [h1, hj]
      rfl
    unfold autoFence
    rw [htry]
    dsimp only
    unfold fenceEffects
    rw [hkind, hid]
    dsimp only
    rw [hown, List.foldl_nil]
    exact settle_calm hvcalm (by rw [h1]; exact hlive)
  have hrow : partnerFails s = endLoad St.stateLost { v with flt := { v.flt with load := some { l with
      shards := l.shards.map fun x => if x.status.isNone then { x with status := some St.stateLost } else x } } } := by
    unfold partnerFails
    rw [hl]
    dsimp only
    rw [partnerFenced_none hf hk, if_neg Bool.false_ne_true, if_pos hk, show fenceDesc 4 7 0 0 0 l.pid 0 = partnerDesc l.pid from rfl, hfence]
  refine ⟨{ v with flt := { v.flt with load := some { l with shards := l.shards.map fun x => if x.status.isNone then { x with status := some St.stateLost } else x } } },
    ?_, h1, h2, h3, ?_⟩
  · rw [hrow]
    exact endLoad_ended rfl St.stateLost
  show v.switchFenced l.pid = true
  unfold State.switchFenced State.fencedBy
  rw [h6, hf]
  simp [Tab.set, Fence.kind, Fence.id, hkind, hid]

/-! ### An admission -/

theorem dropFence_leaves (i : Nat) (d : Bytes) (s : State) : (dropFence i d s).flt.fences = Tab.del s.flt.fences i ∧
    (dropFence i d s).sw = s.sw := by
  unfold dropFence fenceRecord
  dsimp only
  split
  · refine ⟨?_, ?_⟩ <;> simp [State.notify]
  · refine ⟨?_, ?_⟩ <;> simp [State.notify]

theorem foldl_dropFence (es : List (Nat × Fence)) (s : State) : (es.foldl (fun s e => dropFence e.1 e.2.desc s) s).sw = s.sw ∧ ∀ i,
    Tab.get? (es.foldl (fun s e => dropFence e.1 e.2.desc s) s).flt.fences i = if i ∈ es.map (·.1) then none else Tab.get? s.flt.fences i := by
  induction es generalizing s with
  | nil => exact ⟨rfl, fun i => rfl⟩
  | cons e es ih =>
    obtain ⟨h1, h2⟩ := dropFence_leaves e.1 e.2.desc s
    obtain ⟨g1, g2⟩ := ih (dropFence e.1 e.2.desc s)
    refine ⟨g1.trans h2, fun i => ?_⟩
    rw [List.foldl_cons, g2 i, h1, Tab.get?_del, List.map_cons]
    by_cases hi : i = e.1
    · simp [hi]
    · simp only [List.mem_cons, hi, false_or, if_neg (Ne.symm hi)]

/-- A flip of a table leaves the fences. -/
theorem flipEffect_leaves (s : State) : (flipEffect 9 s).flt = s.flt ∧ ((flipEffect 9 s).table 9).active = 1 - (s.table 9).active := by
  have hact (v : Nat) (w : State) : (activateAllots v w).flt = w.flt ∧ (activateAllots v w).sw = w.sw := by
    unfold activateAllots
    exact List.foldlRecOn (motive := fun (u : State) => u.flt = w.flt ∧ u.sw = w.sw) _ _ ⟨rfl, rfl⟩ fun u hu _ _ => hu
  unfold flipEffect
  dsimp only
  rw [if_pos rfl]
  obtain ⟨h1, h2⟩ := hact (1 - (s.table 9).active) (s.setTable 9 { s.table 9 with
    pending := false, active := 1 - (s.table 9).active, st := .draining, flipAt := s.now, limitMs := retireMs s })
  refine ⟨h1, ?_⟩
  unfold State.table at h2 ⊢
  rw [h2]
  unfold State.setTable
  rw [Tab.getD_set_self]

theorem admitNow_waits {a : Armed} (hl : s.flt.lock = .armed) (ha : s.flt.armed = some a) (hd : admissionDue s a = false) : admitNow s = s := by
  unfold admitNow
  rw [hl, ha]
  dsimp only
  rw [hd, if_pos (by decide)]

/-- An admission that is due flips, clears its fences and is noticed. -/
theorem admitNow_admits {a : Armed} (hl : s.flt.lock = .armed) (ha : s.flt.armed = some a) (hd : admissionDue s a = true) : ∃ v, admitNow s = v ∧
    v.flt.lock = .admitted ∧ v.flt.armed = none ∧ v.flt.event.getLsbD 1 = true ∧ (a.flip = true → (v.table 9).active = 1 - (s.table 9).active) ∧
    ∀ i, Tab.get? v.flt.fences i = if i ∈ (s.flt.fences.filter fun e => a.fences.contains (e.1, e.2.serial)).map (·.1) then none
      else Tab.get? s.flt.fences i := by
  have hflip : (if a.flip then flipEffect 9 s else s).flt = s.flt ∧ (a.flip = true → ((if a.flip then flipEffect 9 s else s).table 9).active = 1 - (s.table 9).active) := by
    cases a.flip with
    | true => exact ⟨(flipEffect_leaves s).1, fun _ => (flipEffect_leaves s).2⟩
    | false => exact ⟨rfl, fun h => absurd h (by decide)⟩
  unfold admitNow
  rw [hl, ha]
  dsimp only
  rw [hd, if_neg (by decide)]
  obtain ⟨hf, hact⟩ := hflip
  generalize (if a.flip then flipEffect 9 s else s) = w at hf hact ⊢
  rw [hf]
  obtain ⟨hsw, hfences⟩ := foldl_dropFence (s.flt.fences.filter fun e => a.fences.contains (e.1, e.2.serial)) w
  generalize (List.foldl (fun s e => dropFence e.1 e.2.desc s) w (s.flt.fences.filter fun e => a.fences.contains (e.1, e.2.serial))) = z at hsw hfences ⊢
  rw [hf] at hfences
  obtain ⟨gs, hgs⟩ := State.count_eq ((stateRecord 4 (State.faultEvent { z with flt := { z.flt with lock := .admitted, armed := none } } 1)).notify 4 0 (zeros 32)) (gk 0x0B 2 2) 1
  refine ⟨_, rfl, ?_⟩
  rw [hgs]
  unfold stateRecord
  refine ⟨?_, ?_, ?_, fun h => ?_, fun i => ?_⟩
  · simp [State.notify, State.faultEvent, State.mark]
  · simp [State.notify, State.faultEvent, State.mark]
  · simp [State.notify, State.faultEvent, State.mark, getLsbD_setBit]
  · rw [← hact h]
    unfold State.table
    rw [← hsw]
    simp [State.notify, State.faultEvent, State.mark]
  · rw [← hfences i]
    simp [State.notify, State.faultEvent, State.mark]

/-! ### The commands -/

theorem finish_after_deferred (r : KReq) (u : State) (w : Work) (f : State → State) : finish r { defer u w with after := f } = f (finish r (defer u w)) := rfl

theorem finish_after_done (r : KReq) (u : State) (f : State → State) : finish r { done u with after := f } = f (finish r (done u)) := rfl

theorem finish_deferred_flt (r : KReq) (u : State) (w : Work) : (finish r (defer u w)).flt = u.flt ∧ (finish r (defer u w)).now = u.now := by
  obtain ⟨v, run, ⟨k, -, o, g, c, f, p, hv⟩, -, hfin⟩ := finish_after (r := r) (s := u) (after := fun s => s) (w := w)
  rw [show finish r (defer u w) = _ from hfin, hv]
  exact ⟨rfl, rfl⟩

end

/-- Settles O49: a load reads its one shard from its partner, the shard's last bytes stand in the cistern and end it, a read that fails or
a partner that is silent ends it ABORTED, and an armed admission that is due flips and clears its fences. -/
theorem lockCyclesLoadAndAdmit : Obligations.LockCyclesLoadAndAdmit := by
  unfold Obligations.LockCyclesLoadAndAdmit
  intro T r s u w p
  refine ⟨?_, fun l x a d hlock hl hone hx ht hk hlen hmod hpos hle hoff ha hp hconf hwf => ⟨?_, fun st h0 hf hpl => ?_⟩,
    fun l hquiet hlive hlock hl hk hpid hnof => ⟨fun hlate => ?_, fun hearly hnot => ?_⟩, ?_, fun a hlock ha => ⟨fun hd => ?_, fun hd => ?_⟩⟩
  · intro x l hb hplen hn hone hk hpid haf hnl hna hdev hbad hret hpos
    have hload : loadBad u l = false := by
      unfold loadBad
      rw [hone, hk, if_pos rfl, hdev]
      have haf' : (l.af == 4 || l.af == 6) = true := by
        rcases haf with h | h
        · simp [h]
        · simp [h]
      simp [haf', hpid, hnl, hna, hbad]
    have hbody : bodyLockLoad { r with opcode := 0x0140 } u = { defer { u with flt := { u.flt with
        lock := .loading, lockTotal := 1, lockDone := 0, load := some l } } .lock with after := lockNext 127 } := by
      have hlen : plen { r with opcode := 0x0140 } = 80 := hplen
      have hshards : (parseLoad u (par { r with opcode := 0x0140 })).shards = [x] := hone
      refine (checks_pass fun c hc => ?_).trans ?_
      · simp only [List.mem_cons, List.not_mem_nil, or_false] at hc
        rcases hc with rfl | rfl | rfl
        · rw [hlen, hshards]
          rfl
        · exact hload
        · rw [hshards]
          simpa using hret
      · rw [hshards]
        rfl
    obtain ⟨hflt, hnow⟩ := finish_deferred_flt { r with opcode := 0x0140 } { u with flt := { u.flt with
      lock := .loading, lockTotal := 1, lockDone := 0, load := some l } } .lock
    have htiles : x.tiles = 0 ∧ x.status = none := by
      have hx : x ∈ l.shards := by rw [hone]; exact List.mem_singleton.2 rfl
      obtain ⟨i, -, rfl⟩ := List.mem_map.1 hx
      exact ⟨rfl, rfl⟩
    refine ⟨_, rfl, ?_⟩
    have hexec : exec (.lockLoad T r) s = .next (lockNext 127 (finish { r with opcode := 0x0140 } (defer { u with flt := { u.flt with
        lock := .loading, lockTotal := 1, lockDone := 0, load := some l } } .lock))) := by
      refine (command_begins bodyLockLoad hb).trans ?_
      rw [hbody, finish_after_deferred]
    have hreads := lockNext_reads (n := 126) (s := finish { r with opcode := 0x0140 } (defer { u with flt := { u.flt with
      lock := .loading, lockTotal := 1, lockDone := 0, load := some l } } .lock)) (by rw [hflt]) ((curShard_one hone).trans (if_pos (by rw [htiles.2]; rfl)))
      (by rw [htiles.1]; omega) hk (by rw [hnow]; rfl)
    rw [htiles.1] at hreads
    exact hexec.trans (congrArg Host.Outcome.next hreads)
  · obtain ⟨hzf, hzc, hza⟩ := delOps_leaves (fun o => o.use == .lockRead 0 && o.kind == .read) (s.tick T)
    generalize hz : delOps (fun o => o.use == .lockRead 0 && o.kind == .read) (s.tick T) = z at hzf hzc hza
    obtain ⟨v, hend, hdone, hput⟩ := shardRead_last (s := z) (d := d) (by rw [hzf]; exact hlock) (by rw [hzf]; exact hl) hone hx ht hlen hmod
      hoff (by rw [State.allot, hza]; exact ha) hp (by rw [hzc]; exact hwf)
    obtain ⟨h1, h2⟩ := detachDone_flt_cis (shardRead 0 0x00 d z)
    refine ⟨_, congrArg (fun z => Host.Outcome.next (detachDone (shardRead 0 0x00 d z))) hz, by rw [h1]; exact hend.lock, by rw [h1]; exact hend.load,
      by rw [h1, show shardRead 0 0x00 d z = shardRead 0 St.ok d z from rfl, hend.done, hdone, hzf]; rfl, ?_⟩
    unfold poolPut at hput ⊢
    rw [h2, show shardRead 0 0x00 d z = shardRead 0 St.ok d z from rfl, hend.cis, ← show z.cis.pool = s.cis.pool from congrArg Cistern.pool hzc]
    exact hput
  · obtain ⟨hzf, hzc, hza⟩ := delOps_leaves (fun o => o.use == .lockRead 0 && o.kind == .read) (s.tick T)
    generalize hz : delOps (fun o => o.use == .lockRead 0 && o.kind == .read) (s.tick T) = z at hzf hzc hza
    have hend := shardRead_fails (s := z) (d := d) (by rw [hzf]; exact hlock) (by rw [hzf]; exact hl) hone hx h0 hpl hf
    obtain ⟨h1, h2⟩ := detachDone_flt_cis (shardRead 0 st d z)
    exact ⟨_, congrArg (fun z => Host.Outcome.next (detachDone (shardRead 0 st d z))) hz, by rw [h1]; exact hend.lock, by rw [h1]; exact hend.load,
      (h2.trans hend.cis).trans hzc⟩
  · obtain ⟨v, hend, hmem, hcoh, hcis, hsw⟩ := partnerFails_fences (s := w) hquiet.2.1 hlive hquiet.1 hl hk hpid hnof
    have hcalm : (partnerFails w).calm := by
      unfold State.calm State.still
      rw [hend.mem, hend.coh, hend.cis, hmem, hcoh, hcis]
      exact hquiet.2.1
    have hrow : exec (.partnerLost T) s = .next (settle (partnerFails w)) := by
      refine congrArg Host.Outcome.next ?_
      show partnerLost w = _
      unfold partnerLost
      rw [show w.flt.lock = .loading from hlock, show w.flt.load = some l from hl]
      exact if_pos (.inl hlate)
    rw [settle_calm hcalm (by rw [hend.mem, hmem]; exact hlive)] at hrow
    refine ⟨_, hrow, hend.lock, hend.load, ?_, hend.event rfl, hend.cis.trans hcis⟩
    unfold State.switchFenced State.fencedBy at hsw ⊢
    rw [hend.fences]
    exact hsw
  · refine congrArg Host.Outcome.next ?_
    show partnerLost w = w
    unfold partnerLost
    rw [show w.flt.lock = .loading from hlock, show w.flt.load = some l from hl]
    exact if_neg fun h => h.elim (fun h => absurd h (Nat.not_le.2 hearly)) fun h => by rw [hnot] at h; exact Bool.false_ne_true h
  · intro x hb hplen hn hlock hturn hlev hret hflip hnot ds hall a
    have hbody : bodyLockAdmit { r with opcode := 0x0141 } u = { done { u with flt := { u.flt with lock := .armed, armed := some a } } with
        after := admitNow } := by
      have hfound : (ds.filterMap (findFence u)).length = be p 10 2 := by
        rw [List.filterMap_length_eq_length.2 hall, List.length_map, List.length_range]
      have hidle : (u.flt.lock == .idle || u.flt.lock == .loaded || u.flt.lock == .admitted) = true := by
        rcases hlock with h | h | h
        · rw [h]; rfl
        · rw [h]; rfl
        · rw [h]; rfl
      refine (checks_pass fun c hc => ?_).trans ?_
      · simp only [List.mem_cons, List.not_mem_nil, or_false] at hc
        rcases hc with rfl | rfl | rfl | rfl
        · show (decide (plen r < 16) || plen r != 16 + 32 * be p 10 2) = false
          rw [hplen]
          simp
        · show (decide (126 < be p 10 2) || !(u.flt.lock == .idle || u.flt.lock == .loaded || u.flt.lock == .admitted) ||
            (u.turn (be p 0 2)).elim true (fun x => x.levee != be p 2 2 % 1024) || (ds.filterMap (findFence u)).length != be p 10 2) = false
          rw [hidle, hturn, hfound, Option.elim_some, hlev]
          simp [hn]
        · show u.retiring (be p 2 2 % 1024) = false
          rw [← hlev]
          exact hret
        · show (bitOf (byteAt p 8) 0 && xlateBusy u) = false
          cases hb : bitOf (byteAt p 8) 0 with
          | true => exact hflip hb
          | false => rfl
      · have hsame : a = { a with levee := be p 2 2 % 1024 } := by rw [← hlev]
        rw [hsame]
        rfl
    have hanswered : (finish { r with opcode := 0x0141 } (done { u with flt := { u.flt with lock := .armed, armed := some a } })).flt =
        { u.flt with lock := .armed, armed := some a } ∧
        (finish { r with opcode := 0x0141 } (done { u with flt := { u.flt with lock := .armed, armed := some a } })).flm = u.flm := by
      obtain ⟨k, -, o, g, c, f, p, hv⟩ := State.answer_answered { u with flt := { u.flt with lock := .armed, armed := some a } } { r with opcode := 0x0141 }
        (State.sessKey { u with flt := { u.flt with lock := .armed, armed := some a } } r.sess) St.ok []
      rw [show finish { r with opcode := 0x0141 } (done { u with flt := { u.flt with lock := .armed, armed := some a } }) = _ from hv]
      exact ⟨rfl, rfl⟩
    refine (command_begins bodyLockAdmit hb).trans ?_
    rw [hbody, finish_after_done]
    refine congrArg Host.Outcome.next (admitNow_waits (a := a) (by rw [hanswered.1]) (by rw [hanswered.1]) ?_)
    unfold admissionDue State.turn
    rw [hanswered.2, show Tab.get? u.flm.turns a.counter = some x from hturn, Option.elim_some]
    exact hnot
  · exact congrArg Host.Outcome.next (admitNow_waits (s := w) hlock ha hd)
  · obtain ⟨v, hv, h1, h2, h3, h4, h5⟩ := admitNow_admits (s := w) hlock ha hd
    refine ⟨v, congrArg Host.Outcome.next hv, h1, h2, h3, h4, fun i e he hin => ?_, fun i hi => ?_⟩
    · rw [h5 i]
      exact if_pos (List.mem_map.2 ⟨(i, e), List.mem_filter.2 ⟨Tab.mem_of_get? he, by simpa using hin⟩, rfl⟩)
    · rw [h5 i]
      refine if_neg fun h => ?_
      obtain ⟨e, he, rfl⟩ := List.mem_map.1 h
      exact hi e.2.serial (by simpa using (List.mem_filter.1 he).2)

end Sys2Proof.Machine
end

section
/-! PROOFS. Descriptors executed on their own window (09 R294–R296, 10 R325, R340, R342, R344). -/

namespace Sys2Proof.Machine

/-! ### What executing leaves of the state -/

/-- Between `s` and `v` only basin entries, gauges, records, event marks and drawn values changed; bytes and owners stand. -/
def Aside (s v : State) : Prop := ∃ y g h e n,
  v = { s with bsn := y, gauges := g, hlt := h, fresh := e, free := n } ∧ y.store = s.bsn.store ∧ y.owner = s.bsn.owner

theorem Aside.refl (s : State) : Aside s s := ⟨_, _, _, _, _, rfl, rfl, rfl⟩

theorem Aside.trans {s u v : State} (h : Aside s u) (g : Aside u v) : Aside s v := by
  obtain ⟨y, _, _, _, _, rfl, hs, ho⟩ := h
  obtain ⟨z, a, b, c, d, rfl, hs', ho'⟩ := g
  exact ⟨z, a, b, c, d, rfl, hs'.trans hs, ho'.trans ho⟩

/-- As `Aside`, with basin `b`'s entry changed only in its events and in the tiles that pass on re-read. -/
def ReadFrom (b : Nat) (s v : State) : Prop := Aside s v ∧ ∃ l e, v.basin b = { s.basin b with once := l, event := e }

theorem ReadFrom.refl (b : Nat) (s : State) : ReadFrom b s s := ⟨Aside.refl s, _, _, rfl⟩

theorem ReadFrom.trans {b : Nat} {s u v : State} (h : ReadFrom b s u) (g : ReadFrom b u v) : ReadFrom b s v := by
  obtain ⟨ha, l, e, hb⟩ := h
  obtain ⟨ga, l', e', gb⟩ := g
  exact ⟨ha.trans ga, l', e', by rw [gb, hb]⟩

section
variable {s u v : State} {b cid : Nat} {c : Chain} {q : Queue} {x : Slot}

theorem Aside.flm (h : Aside s v) : v.flm = s.flm := by obtain ⟨_, _, _, _, _, rfl, -⟩ := h; rfl

theorem Aside.chain (h : Aside s v) (k : Nat) : v.chain k = s.chain k := congrArg (fun f : Flumes => Tab.get? f.chains k) h.flm

theorem Aside.store (h : Aside s v) : v.bsn.store = s.bsn.store := by obtain ⟨_, _, _, _, _, rfl, hs, -⟩ := h; exact hs

theorem Aside.readStore (h : Aside s v) (k a n : Nat) : readStore v k a n = readStore s k a n :=
  congrArg (fun m => Mem.readN m (storeKey k a) n) h.store

theorem Aside.window (h : Aside s v) : v.pwr.window = s.pwr.window := by obtain ⟨_, _, _, _, _, rfl, -⟩ := h; rfl

theorem State.count_aside (k : GaugeKey) (n : Nat) : Aside s (s.count k n) := ⟨_, _, _, _, _, rfl, rfl, rfl⟩

theorem State.drawn_aside : Aside s s.drawn := ⟨_, _, _, _, _, rfl, rfl, rfl⟩

theorem State.setBasin_aside (y : Basin) : Aside s (s.setBasin b y) := ⟨_, _, _, _, _, rfl, rfl, rfl⟩

theorem State.modBasin_aside (f : Basin → Basin) : Aside s (s.modBasin b f) := ⟨_, _, _, _, _, rfl, rfl, rfl⟩

theorem State.bsnEvent_aside (n : Nat) : Aside s (s.bsnEvent b n) := ⟨_, _, _, _, _, rfl, rfl, rfl⟩

theorem State.ledger_aside (type source : Nat) (body : Bytes) : Aside s (s.ledger type source body) := by
  obtain ⟨_, _, _, _, h⟩ := State.ledger_buffers s type source body
  rw [h]
  exact ⟨_, _, _, _, _, rfl, rfl, rfl⟩

/-! ### Reading sound tiles -/

/-- Basin `b`'s tiles fit their check values, and none is tainted. -/
def sound (s : State) (b : Nat) : Prop := (∀ t, tileSumOk s b t = true) ∧ (s.basin b).taint = []

theorem sound_of_readFrom (h : ReadFrom b s v) (hs : sound s b) : sound v b := by
  obtain ⟨ha, l, e, hb⟩ := h
  refine ⟨fun t => ?_, by rw [hb]; exact hs.2⟩
  have ht := hs.1 t
  unfold tileSumOk at ht ⊢
  rw [hb, ha.readStore]
  exact ht

theorem checkRetried_readFrom (addr : Nat) (f : Basin → Basin) (hf : ∃ l e, f (s.basin b) = { s.basin b with once := l, event := e }) :
    ReadFrom b s (checkRetried b 0 addr (s.modBasin b f)) := by
  obtain ⟨l, e, hfb⟩ := hf
  have hw : Aside (bsnCount 2 0 b 1 ((s.modBasin b f).bsnEvent b 0)) (checkRetried b 0 addr (s.modBasin b f)) := State.ledger_aside ..
  refine ⟨((State.modBasin_aside f).trans ((State.bsnEvent_aside 0).trans (State.count_aside _ 1))).trans hw, l, setBit e 0, ?_⟩
  obtain ⟨_, _, _, _, h⟩ := State.ledger_buffers (bsnCount 2 0 b 1 ((s.modBasin b f).bsnEvent b 0)) 0x0030 (srcOf 2 b)
    (recBody [(32, 1, 1), (33, 1, 0), (36, 8, addr)])
  have hb : (checkRetried b 0 addr (s.modBasin b f)).basin b =
      ((s.modBasin b f).modBasin b fun x => { x with event := setBit x.event 0 }).basin b :=
    (congrArg (fun w : State => w.basin b) h).trans rfl
  rw [hb, State.basin_modBasin_self, State.basin_modBasin_self, hfb]

/-- The last test of a tile: its taint (R299). -/
theorem taintChecked_sound (ht : (s.basin b).taint = []) (t : Nat) :
    (if (s.basin b).taint.contains t then (v.bsnEvent b 6, St.dipRetry) else (v, St.ok)) = (v, St.ok) := by
  rw [ht]
  rfl

theorem tileFault_sound (hs : sound s b) (t : Nat) : ReadFrom b s (tileFault b t b s).1 ∧ (tileFault b t b s).2 = St.ok := by
  have hok : (!tileSumOk s b t) = false := by rw [hs.1 t]; rfl
  unfold tileFault
  dsimp only
  rw [hok, if_neg Bool.false_ne_true]
  by_cases h : (s.basin b).once.contains t = true
  · rw [if_pos h, taintChecked_sound hs.2]
    exact ⟨checkRetried_readFrom (4096 * t) _ ⟨_, _, rfl⟩, rfl⟩
  · rw [if_neg h, taintChecked_sound hs.2]
    exact ⟨ReadFrom.refl b s, rfl⟩

/-- Tiles checked one after another, those of `p` passed over: all are found sound. -/
theorem foldl_tileFault_sound (p : Nat × Nat × Nat × Nat → Prop) [DecidablePred p] (l : List (Nat × Nat × Nat × Nat)) (hs : sound s b) :
    ∃ v, l.foldl (fun (a : State × Nat) k => if a.2 ≠ St.ok ∨ p k then a else tileFault b k.1 b a.1) (s, St.ok) = (v, St.ok) ∧
      ReadFrom b s v := by
  induction l generalizing s with
  | nil => exact ⟨s, rfl, ReadFrom.refl b s⟩
  | cons k l ih =>
    rw [List.foldl_cons]
    by_cases hp : p k
    · rw [if_pos (Or.inr hp)]
      exact ih hs
    · rw [if_neg (fun h => h.elim (fun g => g rfl) hp)]
      obtain ⟨hr, hok⟩ := tileFault_sound hs k.1
      obtain ⟨v, hv, hrv⟩ := ih (sound_of_readFrom hr hs)
      refine ⟨v, ?_, hr.trans hrv⟩
      rw [← hv]
      exact congrArg (List.foldl _ · l) (Prod.ext rfl hok)

theorem readWindow_sound (hx : x.basin = b) (hs : sound s b) (slot off len : Nat) : ∃ v ts, ReadFrom b s v ∧
    readWindow b x slot off len s =
      (v, .ok ((windowCuts x off len).flatMap fun c => readStore s x.basin (4096 * c.1 + c.2.1) c.2.2.2) ts) := by
  obtain ⟨v, hv, hr⟩ := foldl_tileFault_sound (fun _ => False) (windowCuts x off len) hs
  simp only [or_false] at hv
  have hask : askBasin b x.basin s = (s, false) := if_pos hx.symm
  refine ⟨v, (cutsOf off len).map fun c =>
      (2 * 2 ^ 60 + slot * 2 ^ 40 + 4096 * c.1, readStore v x.basin (4096 * (x.tiles.getD c.1 0)) 4096), hr, ?_⟩
  unfold readWindow
  rw [hask]
  dsimp only
  rw [hx, hv]
  refine (if_neg fun h => h rfl).trans ?_
  simp only [hr.1.readStore]

/-! ### An operation driven to its answer -/

/-- The basin has begun on its own slot: what driving an operation needs of the state. -/
structure Driven (s : State) (b cid : Nat) (c : Chain) (q : Queue) (x : Slot) : Prop where
  chain : s.chain cid = some c
  slot : q.slots[c.slot]? = some x
  basin : x.basin = b
  lost : x.lost = false
  sound : sound s b

theorem Driven.of_readFrom (h : Driven s b cid c q x) (hr : ReadFrom b s v) : Driven v b cid c q x :=
  ⟨(hr.1.chain cid).trans h.chain, h.slot, h.basin, h.lost, sound_of_readFrom hr h.sound⟩

theorem answers_congr (h : Aside s v) (op : Op OpOut) (n : Nat) (got : List Bytes) :
    answers v x c.slot op got n = answers s x c.slot op got n := by
  induction n generalizing got with
  | zero => rfl
  | succ n ih =>
    simp only [answers, h.readStore, ih]

/-- An operation that answers from its own window runs to that answer (R295). -/
theorem drive_answers {op : Op OpOut} {o : OpOut} {n m : Nat} {got : List Bytes} (ts : List (Nat × Bytes)) (hd : Driven s b cid c q x)
    (ha : answers s x c.slot op got n = some o) (hn : n ≤ m) : ∃ v ts', drive b cid c q op got ts m s = (v, .ok o, ts') ∧ ReadFrom b s v := by
  induction n generalizing s got ts m with
  | zero => exact absurd ha (by simp [answers])
  | succ n ih =>
    obtain ⟨k, rfl⟩ : ∃ k, m = k + 1 := ⟨m - 1, by omega⟩
    unfold answers at ha
    unfold drive
    cases hop : op got with
    | ok y =>
      rw [hop] at ha
      obtain ⟨y, y'⟩ := y
      obtain rfl : y = o := Option.some.inj ha
      exact ⟨s, ts, rfl, ReadFrom.refl b s⟩
    | error y =>
      rw [hop] at ha
      cases y with
      | fail st at_ => exact absurd ha (by simp)
      | need r =>
        dsimp only at ha ⊢
        by_cases hr : r.space = 0 ∧ r.slot = c.slot
        · rw [if_pos hr] at ha
          obtain ⟨v, ts', hv, hread⟩ := readWindow_sound hd.basin hd.sound c.slot r.addr r.len
          have hrange : readRange b cid c q got.length r s = readWindow b x c.slot r.addr r.len s := by
            unfold readRange
            rw [if_pos hr.1, hr.2, hd.slot]
            exact if_neg fun h => Bool.noConfusion (hd.lost.symm.trans h)
          have hdv := hd.of_readFrom hv
          obtain ⟨w, ts'', hw, hwr⟩ := ih (ts ++ ts') hdv ((answers_congr hv.1 op n _).trans ha) (m := k) (by omega)
          refine ⟨w, ts'', ?_, hv.trans hwr⟩
          rw [hrange, hread]
          dsimp only
          rw [hr.1, hr.2, if_neg (by simp), hdv.chain]
          exact hw
        · rw [if_neg hr] at ha
          exact absurd ha (by simp)

/-! ### The results of a descriptor -/

theorem partialFault_sound (hx : x.basin = b) (hs : sound s b) (off len : Nat) : ∃ v, partialFault b x off len s = (v, St.ok) ∧ ReadFrom b s v := by
  obtain ⟨v, hv, hr⟩ := foldl_tileFault_sound (fun k => k.2.2.2 = 4096) (windowCuts x off len) hs
  refine ⟨v, ?_, hr⟩
  rw [← hv, ← hx]
  rfl

theorem checkWrites_own {ws : List (Range × Bytes)} (hd : Driven s b cid c q x) (hw : ∀ w ∈ ws, isOwn c w.1 = true) :
    ∃ v, checkWrites b c q ws s = (v, St.ok) ∧ ReadFrom b s v := by
  unfold checkWrites
  induction ws generalizing s with
  | nil => exact ⟨s, rfl, ReadFrom.refl b s⟩
  | cons w ws ih =>
    have hrest : ∀ w ∈ ws, isOwn c w.1 = true := fun w h => hw w (List.mem_cons_of_mem _ h)
    obtain ⟨hsp, hsl⟩ : w.1.space = 0 ∧ w.1.slot = c.slot := by
      have h := hw w (List.mem_cons_self ..)
      unfold isOwn at h
      simpa using h
    rw [List.foldl_cons]
    by_cases he : w.2.isEmpty = true
    · rw [if_pos (Or.inr he)]
      exact ih hd hrest
    · obtain ⟨v, hv, hr⟩ := partialFault_sound hd.basin hd.sound w.1.addr w.2.length
      obtain ⟨z, hz, hrz⟩ := ih (hd.of_readFrom hr) hrest
      refine ⟨z, ?_, hr.trans hrz⟩
      rw [if_neg (fun h => h.elim (fun g => g rfl) he), if_neg (by rw [hsp]; decide), hsl, hd.slot]
      dsimp only
      rw [if_neg (fun h => Bool.noConfusion (hd.lost.symm.trans h)), hv]
      exact hz

/-- Results written one after another into the window `x`, outside a dip window. -/
theorem foldl_writeWindow_eq (x : Slot) (l : List (Range × Bytes)) (h : s.pwr.window = false) :
    ∃ y : Basins, l.foldl (fun m w => (writeWindow x w.1.addr w.2 m).1) s = { s with bsn := y } ∧
      y.store = l.foldl (fun m w => windowStore x w.1.addr w.2 m) s.bsn.store ∧ y.owner = s.bsn.owner := by
  induction l generalizing s with
  | nil => exact ⟨s.bsn, rfl, rfl, rfl⟩
  | cons w l ih =>
    obtain ⟨y, hy, hst, hal⟩ := writeWindow_eq (s := s) x w.1.addr w.2 h
    obtain ⟨z, hz, hst', how⟩ := ih (s := (writeWindow x w.1.addr w.2 s).1) (by rw [hy]; exact h)
    rw [hy] at hst' how
    refine ⟨z, ?_, ?_, how.trans hal.1⟩
    · rw [List.foldl_cons, hz, hy]
    · rw [List.foldl_cons, hst', hst]

/-- The pair that a descriptor's writes leave: the state, and whether a saved tile was lost. -/
def ownWrites (me : Option Slot) (l : List (Range × Bytes)) (s : State) (lost : Bool) : State × Bool :=
  l.foldl (fun (st : State × Bool) w =>
      match me with
      | some x => let (s, l) := writeWindow x w.1.addr w.2 st.1; (s, st.2 || l)
      | none => st) (s, lost)

theorem ownWrites_fst (x : Slot) (l : List (Range × Bytes)) (lost : Bool) :
    (ownWrites (some x) l s lost).1 = l.foldl (fun m w => (writeWindow x w.1.addr w.2 m).1) s := by
  unfold ownWrites
  induction l generalizing s lost with
  | nil => rfl
  | cons w l ih => exact ih _

/-- The marks of an operation at its end: busy time, events, counts, what a capture keeps, its tag and its cross-check. -/
def opMarks (b : Nat) (c : Chain) (q : Queue) (d : Desc) (o : OpOut) (tiles : List (Nat × Bytes)) (t : Tagged) (s : State) : State :=
  let s := if o.sat then s.bsnEvent b 7 else s
  let s := bsnCount 0 0 b 1 (busyFor b (byteAt d 0) s)
  let s := noteOp b c q d tiles St.ok s
  let s := tagOp b t s
  if !s.pwr.window && arithmetic (byteAt d 0) then sampleCheck b c q d o tiles s else s

theorem busyFor_aside (op : Nat) : Aside s (busyFor b op s) := by
  unfold busyFor
  dsimp only
  repeat' split
  · exact ((State.count_aside _ _).trans State.drawn_aside).trans ((State.modBasin_aside _).trans State.drawn_aside)
  · exact (State.count_aside _ _).trans State.drawn_aside
  · exact Aside.refl s

theorem noteOp_aside (d : Desc) (ts : List (Nat × Bytes)) (st : Nat) : Aside s (noteOp b c q d ts st s) := by
  unfold noteOp
  split
  · exact State.modBasin_aside _
  · exact State.modBasin_aside _

theorem tagOp_aside (t : Tagged) : Aside s (tagOp b t s) := by
  obtain ⟨y, g, h, hst, ho⟩ := tagOp_eq b t s
  rw [h]
  exact ⟨y, g, _, _, _, rfl, hst, ho⟩

theorem sampleCheck_aside (d : Desc) (o : OpOut) (ts : List (Nat × Bytes)) : Aside s (sampleCheck b c q d o ts s) := by
  unfold sampleCheck
  dsimp only
  repeat' split
  · exact State.setBasin_aside _
  · exact Aside.refl s
  · exact State.drawn_aside.trans (State.setBasin_aside _)

theorem opMarks_aside (d : Desc) (o : OpOut) (ts : List (Nat × Bytes)) (t : Tagged) : Aside s (opMarks b c q d o ts t s) := by
  have hsat : Aside s (if o.sat then s.bsnEvent b 7 else s) := by
    split
    · exact State.bsnEvent_aside 7
    · exact Aside.refl s
  have hcheck : ∀ w : State, Aside w (if !w.pwr.window && arithmetic (byteAt d 0) then sampleCheck b c q d o ts w else w) := fun w => by
    split
    · exact sampleCheck_aside d o ts
    · exact Aside.refl w
  exact hsat.trans ((busyFor_aside _).trans ((State.count_aside _ 1).trans ((noteOp_aside d ts _).trans ((tagOp_aside t).trans (hcheck _)))))

/-- The outbound results of a descriptor that writes only its own window: the signal it gives. -/
def signals (o : OpOut) : List Outbound := o.signal.elim [] fun y => [.signal y.1 y.2]

/-- What tags an operation that writes `ws` in its own window, `w` being what those writes leave. -/
def ownTag (cid : Nat) (c : Chain) (x : Slot) (o : OpOut) (ws : List (Range × Bytes)) (w : State × Bool) : Tagged :=
  { op := .desc cid c.idx, lost := w.2, outbound := signals o,
    writes := ws.flatMap fun w => (windowCuts x w.1.addr w.2.length).map fun k => (4096 * k.1 + k.2.1, slice w.2 k.2.2.1 k.2.2.2) }

/-- What an operation that writes only its own window comes to (R296, R297, R342). -/
theorem opDone_own {d : Desc} {o : OpOut} (ts : List (Nat × Bytes)) (hd : Driven s b cid c q x)
    (hw : ∀ w ∈ o.writes, isOwn c w.1 = true) (hf : o.frames = []) (hrep : bitOf (byteAt d 1) 1 = false) :
    ∃ v t, ReadFrom b s v ∧ opDone b cid c q d o ts s =
      freeBasin b (advanceChain cid o.value (o.skip.getD 0) (sendOut b (signals o) (opMarks b c q d o ts t
        ((ownWrites (some x) (o.writes.filter fun w => !w.2.isEmpty) v false).1.modChain cid id)))) := by
  obtain ⟨v, hv, hr⟩ := checkWrites_own hd hw
  have hown : (o.writes.filter fun w => !w.2.isEmpty).filter (fun w => isOwn c w.1) = o.writes.filter fun w => !w.2.isEmpty :=
    List.filter_eq_self.2 fun w h => hw w (List.mem_of_mem_filter h)
  have hfar : (o.writes.filter fun w => !w.2.isEmpty).filter (fun w => !isOwn c w.1) = [] :=
    List.filter_eq_nil_iff.2 fun w h => by rw [hw w (List.mem_of_mem_filter h)]; decide
  have hnet : netFrames b cid c q o = [] := by
    unfold netFrames
    split
    · rfl
    · rw [hf]; rfl
  have houts : o.signal.elim [] (fun y => [Outbound.signal y.1 y.2]) = signals o := rfl
  refine ⟨v, ownTag cid c x o (o.writes.filter fun w => !w.2.isEmpty)
    (ownWrites (some x) (o.writes.filter fun w => !w.2.isEmpty) v false), hr, ?_⟩
  unfold opDone
  rw [hv]
  dsimp only
  rw [if_neg (fun h => h rfl), hown, hfar, hnet, hrep, hd.slot, houts]
  simp only [List.map_nil, List.nil_append, Bool.false_and, Bool.false_eq_true, if_false, List.append_nil]
  rfl

/-- The state after a descriptor's signal, if it gives one (R342). -/
def signalled (o : OpOut) (s : State) : State := o.signal.elim s fun y => turnAdd y.1 y.2 s

theorem sendOut_signals (o : OpOut) (h : s.pwr.window = false) : Aside (signalled o s) (sendOut b (signals o) s) := by
  unfold sendOut signals signalled
  rw [if_neg (by rw [h]; exact Bool.false_ne_true)]
  cases o.signal with
  | none => exact Aside.refl s
  | some y => exact State.count_aside _ 1

theorem signalled_eq (o : OpOut) : ∃ m, signalled o s = { s with flm := { s.flm with turns := m } } := by
  unfold signalled
  cases o.signal with
  | none => exact ⟨s.flm.turns, rfl⟩
  | some y => exact ⟨_, rfl⟩

/-- Only the turns and the instant matter to what a signal leaves of the turns. -/
theorem signalled_turns (o : OpOut) (hf : v.flm.turns = s.flm.turns) (hn : v.now = s.now) :
    (signalled o v).flm.turns = (signalled o s).flm.turns := by
  unfold signalled
  cases o.signal with
  | none => exact hf
  | some y => simp only [Option.elim_some, turnAdd, hf, hn]

theorem State.modChain_id (hc : s.chain cid = some c) :
    s.modChain cid id = { s with flm := { s.flm with chains := Tab.set s.flm.chains cid c } } := State.modChain_eq id hc

/-- The effect of a finished descriptor: its basin is free, its chain has gone on, its results are in its window. -/
structure Done (s v : State) (b cid : Nat) (c : Chain) (x : Slot) (o : OpOut) : Prop where
  free : (v.basin b).current = none
  chain : v.chain cid = some (goesOn c o.value (o.skip.getD 0))
  others : ∀ k, k ≠ cid → v.chain k = s.chain k
  store : v.bsn.store = (o.writes.filter fun w => !w.2.isEmpty).foldl (fun m w => windowStore x w.1.addr w.2 m) s.bsn.store
  owner : v.bsn.owner = s.bsn.owner
  turns : v.flm.turns = (signalled o s).flm.turns
  queues : v.flm.queues = s.flm.queues
  out : v.out = s.out
  mem : v.mem = s.mem
  cis : v.cis = s.cis

/-- Which part of the state an operation changes: the basins, the chain of its own and the turns. -/
theorem done_of_parts {w : State} {o : OpOut} (hw : ∃ y g h e n m,
      w = { s with bsn := y, gauges := g, hlt := h, fresh := e, free := n,
                   flm := { s.flm with turns := m, chains := Tab.set s.flm.chains cid (goesOn c o.value (o.skip.getD 0)) } } ∧
      y.store = (o.writes.filter fun w => !w.2.isEmpty).foldl (fun m w => windowStore x w.1.addr w.2 m) s.bsn.store ∧
      y.owner = s.bsn.owner ∧ m = (signalled o s).flm.turns) : Done s (freeBasin b w) b cid c x o := by
  obtain ⟨y, g, h, e, n, m, rfl, hst, ho, hm⟩ := hw
  exact ⟨congrArg Basin.current (State.basin_modBasin_self _ b _), Tab.get?_set_self .., fun k hk => Tab.get?_set_ne _ _ (Ne.symm hk),
    hst, ho, hm, rfl, rfl, rfl, rfl⟩

theorem opDone_done {d : Desc} {o : OpOut} (ts : List (Nat × Bytes)) (hd : Driven s b cid c q x) (hwin : s.pwr.window = false)
    (hfail : c.failed = none) (hq : s.queue c.queue = some q) (hdest : q.destroying = false)
    (hw : ∀ w ∈ o.writes, isOwn c w.1 = true) (hf : o.frames = []) (hrep : bitOf (byteAt d 1) 1 = false) :
    Done s (opDone b cid c q d o ts s) b cid c x o := by
  obtain ⟨v, t, hr, hdone⟩ := opDone_own ts hd hw hf hrep
  rw [hdone]
  obtain ⟨y0, g0, h0, e0, n0, rfl, hst0, ho0⟩ := hr.1
  obtain ⟨y1, h1, hst1, ho1⟩ := foldl_writeWindow_eq (s := { s with bsn := y0, gauges := g0, hlt := h0, fresh := e0, free := n0 }) x
    (o.writes.filter fun w => !w.2.isEmpty) hwin
  have hwrites : (ownWrites (some x) (o.writes.filter fun w => !w.2.isEmpty)
      { s with bsn := y0, gauges := g0, hlt := h0, fresh := e0, free := n0 } false).1.modChain cid id =
      { s with bsn := y1, gauges := g0, hlt := h0, fresh := e0, free := n0, flm := { s.flm with chains := Tab.set s.flm.chains cid c } } := by
    rw [ownWrites_fst, h1]
    exact State.modChain_id (s := { s with bsn := y1, gauges := g0, hlt := h0, fresh := e0, free := n0 }) hd.chain
  rw [hwrites]
  obtain ⟨y2, g2, h2, e2, n2, hmarks, hst2, ho2⟩ := opMarks_aside (b := b) (c := c) (q := q) (s := { s with
    bsn := y1, gauges := g0, hlt := h0, fresh := e0, free := n0, flm := { s.flm with chains := Tab.set s.flm.chains cid c } }) d o ts t
  rw [hmarks]
  have hout := sendOut_signals (b := b) (s := { s with
    bsn := y2, gauges := g2, hlt := h2, fresh := e2, free := n2, flm := { s.flm with chains := Tab.set s.flm.chains cid c } }) o hwin
  obtain ⟨m, hsig⟩ := signalled_eq (s := { s with
    bsn := y2, gauges := g2, hlt := h2, fresh := e2, free := n2, flm := { s.flm with chains := Tab.set s.flm.chains cid c } }) o
  have hturns : m = (signalled o s).flm.turns := by
    rw [← signalled_turns (s := s) (v := { s with
      bsn := y2, gauges := g2, hlt := h2, fresh := e2, free := n2, flm := { s.flm with chains := Tab.set s.flm.chains cid c } }) o rfl rfl, hsig]
  rw [hsig] at hout
  obtain ⟨y3, g3, h3, e3, n3, hsent, hst3, ho3⟩ := hout
  rw [hsent]
  obtain ⟨g4, hadv⟩ := advanceChain_eq (s := { s with
    bsn := y3, gauges := g3, hlt := h3, fresh := e3, free := n3, flm := { s.flm with turns := m, chains := Tab.set s.flm.chains cid c } })
    (Tab.get?_set_self ..) hfail hq hdest o.value (o.skip.getD 0)
  have hst01 : y1.store = (o.writes.filter fun w => !w.2.isEmpty).foldl (fun m w => windowStore x w.1.addr w.2 m) y0.store := hst1
  rw [hst0] at hst01
  refine done_of_parts ⟨y3, g4, h3, e3, n3, m, ?_, hst3.trans (hst2.trans hst01),
    ho3.trans (ho2.trans (ho1.trans ho0)), hturns⟩
  refine hadv.trans ?_
  dsimp only
  rw [Tab.set_set]

/-! ### Execution -/

/-- The operation code of an executing instruction. -/
theorem exec_op (i : Instr) (k : Nat) (t : Time) (h : (i, k) ∈ [(Instr.load t b, 0x01), (.store t b, 0x02), (.reduce t b, 0x03),
    (.axpy t b, 0x04), (.gemm t b, 0x05), (.gemv t b, 0x06), (.topk t b, 0x07), (.gather t b, 0x08), (.scatter t b, 0x09),
    (.filter t b, 0x0A), (.scan t b, 0x0B), (.quantise t b, 0x0C), (.dequantise t b, 0x0D), (.compress t b, 0x0E), (.expand t b, 0x0F),
    (.turnWait t b, 0x11), (.turnSignal t b, 0x12), (.skip t b, 0x13)]) : exec i s = .next (execOp k b (s.tick t)) := by
  simp only [List.mem_cons, List.not_mem_nil, or_false, Prod.mk.injEq] at h
  rcases h with ⟨rfl, rfl⟩ | ⟨rfl, rfl⟩ | ⟨rfl, rfl⟩ | ⟨rfl, rfl⟩ | ⟨rfl, rfl⟩ | ⟨rfl, rfl⟩ | ⟨rfl, rfl⟩ | ⟨rfl, rfl⟩ | ⟨rfl, rfl⟩ | ⟨rfl, rfl⟩ |
    ⟨rfl, rfl⟩ | ⟨rfl, rfl⟩ | ⟨rfl, rfl⟩ | ⟨rfl, rfl⟩ | ⟨rfl, rfl⟩ | ⟨rfl, rfl⟩ | ⟨rfl, rfl⟩ | ⟨rfl, rfl⟩ <;> rfl

/-- A TURN_WAIT executed is counted. -/
def countWait (d : Desc) (s : State) : State :=
  if byteAt d 0 = 0x11 then s.count (gk 7 3 1 (turnDie (le d 44 2))) 1 else s

theorem countWait_aside (d : Desc) : Aside s (countWait d s) := by
  unfold countWait
  split
  · exact State.count_aside _ 1
  · exact Aside.refl s

/-- What an operation's answer comes to. -/
def answered (b cid : Nat) (c : Chain) (q : Queue) (d : Desc) (o : OpOut) (ts : List (Nat × Bytes)) (s : State) : State :=
  match o.wait with
  | some (k, target, tout) =>
    let dl := if tout = 0 then none else some (s.now + us tout)
    freeBasin b (s.modChain cid fun c => { c with st := .turnWait k target dl })
  | none =>
    if o.keys.isEmpty then opDone b cid c q d o ts s
    else s.modChain cid fun c => { c with
      st := .searching, keys := o.keys.map (fun k => BitVec.ofNat 144 (le k 0 18)), asked := 0, results := [], queryBad := none }

theorem driven_of_executes {d : Desc} (h : executes s b cid c q x d) : Driven s b cid c q x := by
  obtain ⟨-, -, -, -, hsum, htaint, hc, -, -, -, -, hx, hb, hl, -⟩ := h
  exact ⟨hc, hx, hb, hl, hsum, htaint⟩

/-- A descriptor whose operation answers from its own window is executed to that answer. -/
theorem execOp_answers {d : Desc} {f : FCtx → Op OpOut} {o : OpOut} {n : Nat} (h : executes s b cid c q x d)
    (hop : opOf (byteAt d 0) = some f) (hn : n ≤ 2 ^ 21) (ha : answers s x c.slot (f (flumeCtx s c q d)) [] n = some o) :
    ∃ v ts, ReadFrom b s v ∧ execOp (byteAt d 0) b s = answered b cid c q d o ts v := by
  have hd := driven_of_executes h
  obtain ⟨hp, hrep, hwin, hcur, -, -, hc, hst, -, hq, -, -, -, -, hdesc⟩ := h
  generalize hm : (2 : Nat) ^ 21 = m at hn
  obtain ⟨v, ts, hv, hr⟩ := drive_answers (m := m) [] hd ha hn
  have hcount : ReadFrom b s (countWait d v.drawn) := by
    refine ⟨hr.1.trans (State.drawn_aside.trans (countWait_aside d)), ?_⟩
    obtain ⟨l, e, hb⟩ := hr.2
    refine ⟨l, e, ?_⟩
    rw [← hb]
    unfold countWait
    split <;> rfl
  refine ⟨countWait d v.drawn, ts, hcount, ?_⟩
  unfold execOp
  dsimp only
  rw [if_neg (by simp [hp, hrep, hwin]), hcur]
  dsimp only
  rw [hc]
  dsimp only
  rw [hq, hdesc, hop]
  dsimp only
  rw [if_neg (fun g => g.elim (fun e => e rfl) fun e => e hst), hm, hv]
  rfl

theorem Done.of_aside {w : State} {o : OpOut} (h : Aside s v) (hd : Done v w b cid c x o) : Done s w b cid c x o := by
  obtain ⟨y, _, _, _, _, rfl, hst, ho⟩ := h
  exact ⟨hd.free, hd.chain, hd.others, by rw [← hst]; exact hd.store, hd.owner.trans ho,
    hd.turns.trans (signalled_turns o rfl rfl), hd.queues, hd.out, hd.mem, hd.cis⟩

theorem goesOn_skipped (value skip : Nat) : (goesOn c value skip).skipped = c.skipped + min skip (c.count - (c.idx + 1)) := by
  unfold goesOn; dsimp only; split <;> rfl

theorem goesOn_index {value skip : Nat} (h : c.count ≤ c.idx + 1 + skip) : (goesOn c value skip).index = c.count := by
  unfold goesOn; dsimp only; rw [if_pos h]

/-- A descriptor that is no TURN_WAIT or SCREEN_QUERY, done (R297, R342). -/
theorem execOp_done {d : Desc} {f : FCtx → Op OpOut} {o : OpOut} {n : Nat} (h : executes s b cid c q x d)
    (hop : opOf (byteAt d 0) = some f) (hn : n ≤ 2 ^ 21) (ha : answers s x c.slot (f (flumeCtx s c q d)) [] n = some o)
    (hwait : o.wait = none) (hkeys : o.keys = []) (hf : o.frames = []) (hw : ∀ w ∈ o.writes, isOwn c w.1 = true)
    (hrep : bitOf (byteAt d 1) 1 = false) : Done s (execOp (byteAt d 0) b s) b cid c x o := by
  obtain ⟨v, ts, hr, hexec⟩ := execOp_answers h hop hn ha
  have hd := (driven_of_executes h).of_readFrom hr
  obtain ⟨-, -, hwin, -, -, -, -, -, hfail, hq, hdest, -⟩ := h
  have hans : answered b cid c q d o ts v = opDone b cid c q d o ts v := by
    unfold answered
    rw [hwait, hkeys]
    rfl
  rw [hexec, hans]
  have hqv : v.queue c.queue = some q := (congrArg (fun l : Flumes => Tab.get? l.queues c.queue) hr.1.flm).trans hq
  exact (opDone_done ts hd (hr.1.window.trans hwin) hfail hqv hdest hw hf hrep).of_aside hr.1

/-- A TURN_WAIT that is not satisfied waits, and its basin is free (R344). -/
theorem execOp_waits {d : Desc} {f : FCtx → Op OpOut} {o : OpOut} {n k target tout : Nat} (h : executes s b cid c q x d)
    (hop : opOf (byteAt d 0) = some f) (hn : n ≤ 2 ^ 21) (ha : answers s x c.slot (f (flumeCtx s c q d)) [] n = some o)
    (hwait : o.wait = some (k, target, tout)) : ∃ v, Aside s v ∧ execOp (byteAt d 0) b s = freeBasin b (v.modChain cid fun c =>
      { c with st := .turnWait k target (if tout = 0 then none else some (v.now + us tout)) }) := by
  obtain ⟨v, ts, hr, hexec⟩ := execOp_answers h hop hn ha
  refine ⟨v, hr.1, hexec.trans ?_⟩
  unfold answered
  rw [hwait]

/-! ### SCREEN_QUERY -/

theorem Op.of_bind_ok {α β : Type} {m : Op α} {g : α → Op β} {l l' : List Bytes} {y : β} (h : (m >>= g) l = .ok (y, l')) :
    ∃ a r, g a r = .ok (y, l') := by
  change ((m l).bind fun p => g p.1 p.2) = _ at h
  cases hm : m l with
  | error e => rw [hm] at h; exact absurd h (by simp [Except.bind])
  | ok p => rw [hm] at h; exact ⟨p.1, p.2, h⟩

theorem opScreenQuery_wait {k : FCtx} {l l' : List Bytes} {o : OpOut} (h : opScreenQuery k l = .ok (o, l')) : o.wait = none := by
  unfold opScreenQuery at h
  obtain ⟨_, _, h⟩ := Op.of_bind_ok h
  obtain ⟨_, _, h⟩ := Op.of_bind_ok h
  obtain ⟨_, _, h⟩ := Op.of_bind_ok h
  obtain ⟨_, _, h⟩ := Op.of_bind_ok h
  obtain ⟨_, _, h⟩ := Op.of_bind_ok h
  obtain ⟨_, _, h⟩ := Op.of_bind_ok h
  obtain rfl := (Prod.mk.inj (Except.ok.inj h)).1
  rfl

theorem answers_ok {op : Op OpOut} {o : OpOut} {n : Nat} {got : List Bytes} (h : answers s x c.slot op got n = some o) :
    ∃ l l', op l = .ok (o, l') := by
  induction n generalizing got with
  | zero => exact absurd h (by simp [answers])
  | succ n ih =>
    unfold answers at h
    cases hop : op got with
    | ok y =>
      rw [hop] at h
      obtain rfl : y.1 = o := Option.some.inj h
      exact ⟨got, y.2, hop⟩
    | error y =>
      rw [hop] at h
      cases y with
      | fail st at_ => exact absurd h (by simp)
      | need r =>
        dsimp only at h
        split at h
        · exact ih h
        · exact absurd h (by simp)

/-- A chain whose keys are read, to be searched. -/
def searchFor (o : OpOut) (c : Chain) : Chain := { c with
  st := .searching, keys := o.keys.map (fun k => BitVec.ofNat 144 (le k 0 18)), asked := 0, results := [], queryBad := none }

theorem getD_searchKeys {o : OpOut} (c : Chain) {i : Nat} (h : i < o.keys.length) :
    (searchFor o c).keys.getD i 0 = BitVec.ofNat 144 (le (o.keys.getD i []) 0 18) := by
  simp [searchFor, List.getD_eq_getElem?_getD, h]

theorem execOp_searches {d : Desc} {o : OpOut} {n : Nat} (h : executes s b cid c q x d) (hcode : byteAt d 0 = 0x10) (hn : n ≤ 2 ^ 21)
    (ha : answers s x c.slot (opScreenQuery (flumeCtx s c q d)) [] n = some o) (hk : o.keys ≠ []) :
    ∃ v, ReadFrom b s v ∧ execOp 0x10 b s = v.modChain cid (searchFor o) := by
  obtain ⟨l, l', hok⟩ := answers_ok ha
  obtain ⟨v, ts, hr, hexec⟩ := execOp_answers h (by rw [hcode]; rfl) hn ha
  refine ⟨v, hr, ?_⟩
  rw [hcode] at hexec
  rw [hexec]
  unfold answered
  rw [opScreenQuery_wait hok]
  exact if_neg fun e => hk (List.isEmpty_iff.1 e)

/-- The searches a levee's chain joins to an empty queue: the first 64 of its keys. -/
def firstSearches (levee cid : Nat) (t : Time) (keys : List (BitVec 144)) : List Search :=
  (List.range (min 64 keys.length)).map fun i => { levee := levee, key := ownKey levee (keys.getD i 0), chain := cid, num := i, at_ := t }

theorem askKeys_first {k rows : Nat} (hc : s.chain cid = some c) (hq : s.queue c.queue = some q)
    (hbank : s.screenQuota q.levee = some (k, rows)) (he : (s.bank k).queue = []) (ha : c.asked = 0) : askKeys cid s =
      wakeNeeded k ((s.setBank k { s.bank k with queue := firstSearches q.levee cid s.now c.keys }).modChain cid fun y =>
        { y with asked := y.asked + min 64 c.keys.length }) := by
  have hn : min (64 - 0) (min (64 - 0) (c.keys.length - 0)) = min 64 c.keys.length := by omega
  unfold askKeys
  rw [hc]
  dsimp only
  rw [hq, Option.bind_some]
  unfold bankOf
  rw [hbank]
  dsimp only [Option.map_some]
  rw [he, ha]
  simp only [List.filter_nil, List.length_nil, hn, Nat.zero_add, List.nil_append]
  rfl

theorem length_firstSearches (levee : Nat) (t : Time) (keys : List (BitVec 144)) :
    (firstSearches levee cid t keys).length = min 64 keys.length := by rw [firstSearches, List.length_map, List.length_range]

theorem getElem?_firstSearches (levee : Nat) (t : Time) {keys : List (BitVec 144)} {i : Nat} (h : i < min 64 keys.length) :
    (firstSearches levee cid t keys)[i]? = some { levee := levee, key := ownKey levee (keys.getD i 0), chain := cid, num := i, at_ := t } := by
  unfold firstSearches
  rw [List.getElem?_map, List.getElem?_range h, Option.map_some]

/-- Waking a bank leaves its queue, and every part of the state but the banks. -/
theorem wakeNeeded_leaves (k : Nat) : ((wakeNeeded k s).bank k).queue = (s.bank k).queue ∧ (wakeNeeded k s).flm = s.flm ∧
    (wakeNeeded k s).bsn = s.bsn ∧ (wakeNeeded k s).out = s.out := by
  unfold wakeNeeded
  dsimp only
  split
  · exact ⟨(congrArg Bank.queue (Tab.getD_set_self s.scr.banks k _ {})).trans rfl, rfl, rfl, rfl⟩
  · exact ⟨rfl, rfl, rfl, rfl⟩

theorem screenQuery_asks {d : Desc} {o : OpOut} {n k rows : Nat} (h : executes s b cid c q x d) (hcode : byteAt d 0 = 0x10)
    (hn : n ≤ 2 ^ 21) (ha : answers s x c.slot (opScreenQuery (flumeCtx s c q d)) [] n = some o) (hk : o.keys ≠ [])
    (hbank : s.screenQuota q.levee = some (k, rows)) (he : (s.bank k).queue = []) : ∃ v, ReadFrom b s v ∧
      screenQuery b s = wakeNeeded k (((v.modChain cid (searchFor o)).setBank k
        { s.bank k with queue := firstSearches q.levee cid s.now (searchFor o c).keys }).modChain cid fun y =>
          { y with asked := y.asked + min 64 (searchFor o c).keys.length }) := by
  obtain ⟨v, hr, hexec⟩ := execOp_searches h hcode hn ha hk
  obtain ⟨-, -, -, hcur, -, -, hc, -, -, hq, -⟩ := h
  refine ⟨v, hr, ?_⟩
  have hcurrent : ((v.modChain cid (searchFor o)).basin b).current = some cid := by
    obtain ⟨l, e, hb⟩ := hr.2
    exact (congrArg Basin.current hb).trans hcur
  have hchain : (v.modChain cid (searchFor o)).chain cid = some (searchFor o c) :=
    State.chain_modChain v _ ((hr.1.chain cid).trans hc)
  obtain ⟨_, _, _, _, _, rfl, -⟩ := hr.1
  unfold screenQuery
  rw [hexec]
  dsimp only
  rw [hcurrent]
  dsimp only
  rw [hchain]
  dsimp only
  have hask := askKeys_first (q := q) hchain hq hbank he rfl
  rw [if_neg (by simp [searchFor]), if_neg]
  · exact hask
  · have hsome : ((s.queue c.queue).bind fun q => bankOf s q.levee) = some k := by
      rw [hq, Option.bind_some, bankOf, hbank, Option.map_some]
    exact fun e => Bool.noConfusion ((congrArg Option.isNone hsome).symm.trans e)

end

/-! ### The obligation -/

/-- Settles O39: an operation driven through its own sound window runs to the answer its window gives, and its writes, its
turn and its chain follow from that answer. -/
theorem descriptorsExecute : Obligations.DescriptorsExecute := by
  unfold Obligations.DescriptorsExecute
  intro t s b cid n c q x d f o u hex hop hn ha
  have hexu : executes u b cid c q x d := hex
  obtain ⟨-, -, hwin, hcur, -, -, hchain, -⟩ := id hex
  refine ⟨?_, ?_, ?_⟩
  · intro i hi hwait hkeys hframes hown hrep next
    have hdone := execOp_done hexu hop hn ha hwait hkeys hframes hown hrep
    obtain ⟨y, hw, hst, -⟩ := foldl_writeWindow_eq (s := s) x (o.writes.filter fun w => !w.2.isEmpty) hwin
    refine ⟨_, _, exec_op i _ t hi, hdone.free, hdone.chain, goesOn_idx .., goesOn_value .., goesOn_skipped .., goesOn_ready,
      fun h => ⟨(goesOn_ended h).1, (goesOn_ended h).2, goesOn_index h⟩, ?_, hdone.turns, hdone.out, hdone.mem, hdone.cis, hdone.others,
      hdone.queues, hdone.owner⟩
    rw [hdone.store, hw, hst]
    rfl
  · intro k target tout hcode hwait
    obtain ⟨v, hv, hexec⟩ := execOp_waits hexu hop hn ha hwait
    rw [hcode] at hexec
    have hc : v.chain cid = some c := (hv.chain cid).trans hchain
    obtain ⟨y, _, _, _, _, rfl, hst, -⟩ := hv
    refine ⟨_, _, congrArg Host.Outcome.next hexec, congrArg Basin.current (State.basin_modBasin_self _ b _),
      State.chain_modChain _ _ hc, rfl, rfl, rfl, hst, rfl⟩
  · intro k rows hcode hkeys hbank hempty
    rw [hcode] at hop
    obtain rfl : opScreenQuery = f := Option.some.inj hop
    obtain ⟨v, hr, hexec⟩ := screenQuery_asks hexu hcode hn ha hkeys hbank hempty
    have hc : v.chain cid = some c := (hr.1.chain cid).trans hchain
    obtain ⟨hqueue, hflm, hbsn, hout⟩ := wakeNeeded_leaves (s := ((v.modChain cid (searchFor o)).setBank k
      { u.bank k with queue := firstSearches q.levee cid u.now (searchFor o c).keys }).modChain cid fun y =>
        { y with asked := y.asked + min 64 (searchFor o c).keys.length }) k
    have hlen : (searchFor o c).keys.length = o.keys.length := List.length_map ..
    have hfirst := hqueue.trans (congrArg Bank.queue (Tab.getD_set_self v.scr.banks k _ {}))
    rw [← hexec] at hqueue hflm hbsn hout hfirst
    refine ⟨screenQuery b u, { searchFor o c with asked := 0 + min 64 (searchFor o c).keys.length }, rfl, ?_, rfl, rfl, ?_, ?_, ?_, ?_, ?_, ?_⟩
    · have hsearch := State.chain_modChain v (searchFor o) hc
      refine (congrArg (fun l : Flumes => Tab.get? l.chains cid) hflm).trans ?_
      exact State.chain_modChain (State.setBank (v.modChain cid (searchFor o)) k _) _ hsearch
    · obtain ⟨l, e, hb⟩ := hr.2
      refine (congrArg (fun y : Basins => (Tab.getD y.tab b {}).current) hbsn).trans ?_
      exact (congrArg Basin.current hb).trans hcur
    · rw [Nat.zero_add, hlen]
    · rw [hfirst, length_firstSearches, hlen]
    · intro i hi
      refine ⟨_, (congrArg (·[i]?) hfirst).trans (getElem?_firstSearches q.levee u.now (hlen ▸ hi)), rfl, rfl, rfl, ?_⟩
      exact congrArg (ownKey q.levee) (getD_searchKeys c (by omega))
    · exact (congrArg Basins.store hbsn).trans hr.1.store
    · obtain ⟨_, _, _, _, _, rfl, -⟩ := hr.1
      exact hout


end Sys2Proof.Machine
end
